-- ==== Sys2Proof/Word.lean ====
section
/-! DEFINITION. The byte and byte-string types of the block, and nothing else: every helper over them
stands in Machine/Operands.lean. -/

namespace Sys2Proof

/-- One byte of a packet, record, frame or register (spec/00 R3). -/
abbrev Byte := BitVec 8

/-- A byte string, lowest offset first. -/
abbrev Bytes := List Byte

end Sys2Proof
end

