-- ==== Sys2Proof/Syntax.lean ====
section
/-! DEFINITION. The commands of the EDK-4884: one constructor of `Instr` per row of
spec/opcode_table.json, and the types of their operands.  The rows 0 to 80 are the opcodes
that arrive as command packets (R376); the others are events on balls, links, timers and
windows (spec/95). -/

namespace Sys2Proof

/-- The transport a command packet enters by (R382 to R388).  `qp` is the queue pair of the
PCIe function whose submission ring held the packet, `rspCap` the entry's RSP_CAP. -/
inductive Transport where
  | pcie (fn : Fin 7) (qp : Fin 16) (rspCap : Nat)
  | spi
  | udp (addr port : Nat)
  | mortar (dev : Nat)
  deriving DecidableEq, Repr

/-- The end a session is bound to (R395): transport and address. -/
inductive Peer where
  | pcie (fn : Fin 7)
  | spi
  | udp (addr port : Nat)
  | mortar (dev : Nat)
  deriving DecidableEq, Repr

/-- The header fields of a command packet (R376) but OPCODE, which the command row gives, and
its parameters.  `gcmOk` is the verdict on the AES-GCM tag that follows on UDP and with
SESSION_AUTH (parameters are given decrypted, log 4).  `bulk` is what host memory holds for a
BULK descriptor of KIND 0, DIR 0 (R377). -/
structure Packet where
  transport : Transport
  version : Nat
  flags : BitVec 8
  tag : Nat
  bay : Nat
  queue : Nat
  session : Nat
  paramLen : Nat
  deadline : Nat
  target : Nat
  hopLimit : Nat
  reserved : Nat
  source : Nat
  crc : BitVec 32
  params : Bytes
  gcmOk : Bool
  bulk : Bytes
  deriving DecidableEq, Repr

/-- What host memory holds at one submission slot when the device fetches it (R383).
`pkt` is `none` when the host rejects the DMA access (R541, ERR_CODE 2). -/
structure Fetch where
  pktLen : Nat
  rspCap : Nat
  pkt : Option Bytes
  bulk : Bytes
  deriving DecidableEq, Repr
/-- One decimator (R34): the four integrators and the four combs of its sinc4 filter, which wrap, and the last 32 outputs of that filter,
newest first, which its compensating FIR weighs. -/
structure Dec where
  i1 : BitVec 32 := 0
  i2 : BitVec 32 := 0
  i3 : BitVec 32 := 0
  i4 : BitVec 32 := 0
  c1 : BitVec 32 := 0
  c2 : BitVec 32 := 0
  c3 : BitVec 32 := 0
  c4 : BitVec 32 := 0
  line : List Int := []
  deriving DecidableEq, Repr

/-- What one channel's front end gets for a course sample (R27, R34 to R37): course sample `sub` (0 in normal mode), the 160 bits captured since
the sample before, the first one lowest, the registers of decimator A or B where an upset has changed them, and whether a residue check of
each has failed. -/
structure ChanIn where
  ch : Fin 48
  sub : Fin 2
  bits : BitVec 160
  upA : Option Dec
  upB : Option Dec
  failA : Bool
  failB : Bool
  deriving DecidableEq, Repr

/-- One conversion of an accumulator slot since the boundary before (R180): slot, converter, raw result in LSB of 2.5 V / 32,768, and how
many ns before this boundary it ended. -/
structure Conversion where
  slot : Fin 16
  k : Fin 2
  raw : Int
  ago : Nat
  deriving DecidableEq, Repr

/-- What a sample boundary brings: the bitstreams, the bond members whose words dissent and those
that are late (R155), the courses whose footing residue check fails (R166), the conversions of the slots (R180), and
common-mode errors of bonds, in ppm of their active increments (R163). -/
structure SampleIn where
  chans : List ChanIn
  dissent : List (Fin 72)
  late : List (Fin 72)
  footFail : List (Fin 6)
  convs : List Conversion
  bias : List (Fin 6 × Int)
  deriving DecidableEq, Repr

/-- The measured condition of R54 and for how long it has lasted: fundamental angles in micro-degrees (of a current: between
its phase voltage and itself) of this phase and of the other two in ascending phase order, the three RMS in ppm of full scale. -/
structure PolarityEvidence where
  own : Int
  o1 : Int
  o2 : Int
  rms : List Nat
  seconds : Nat
  deriving DecidableEq, Repr

/-- A crossing of the filtered reference (R64): its interpolated instant in 2^-17 sample index and its direction. -/
structure Crossing where
  at_ : Nat
  rising : Bool
  deriving DecidableEq, Repr

/-- The bond members whose half-cycle or window outputs dissent, and those whose outputs are late (R153 to R155). -/
structure VoteIn where
  dissent : List (Fin 72)
  late : List (Fin 72)
  deriving DecidableEq, Repr

/-- A PTP Announce message (R207, R211): uplink lane, transport and domain it came by, the data set the default BMCA compares
(priority 1, class, accuracy, variance, priority 2, identity, steps removed), announce interval, currentUtcOffset. -/
structure Announce where
  port : Nat
  transport : Nat
  domain : Nat
  dataset : List Nat
  intervalMs : Nat
  utcOffset : Int
  utcValid : Bool
  deriving DecidableEq, Repr

/-- A PTP Sync or Follow_Up (R211): the sender's identity, sequence number, origin time in ns of system time corrected by the
correction field (`none` in a two-step Sync), and the time of reception. -/
structure PtpStamp where
  identity : Nat
  seq : Nat
  origin : Option Nat
  rx : Nat
  deriving DecidableEq, Repr

/-- The frames a meter sent in consecutive slots (R268, R269): of each the µs from its slot's crossing g to the start of its preamble, and its bytes; the
verdict on the MIC of the message they spell (log 4) and the SNR in dB. -/
structure PlcMsg where
  frames : List (Int × Bytes)
  micOk : Bool
  snr : Int
  deriving DecidableEq, Repr

/-- A message of a radio meter (R271, R292): ORIGIN, CTR, the verdict on its MIC (log 4), BODY without the trailer, SLEEPY and the radio port. -/
structure RadioMsg where
  identity : Nat
  ctr : Nat
  micOk : Bool
  body : Bytes
  sleepy : Bool
  port : Fin 2
  deriving DecidableEq, Repr

/-- A received PSDU (R291, R292): frame version 2 with a long source, PAN, source, whether it is unicast to this leaf, security level, key index,
frame counter and the verdict on its MIC (log 4), a Data Request, and the flood header with TYPE. -/
structure RadioFrame where
  formOk : Bool
  pan : Nat
  source : Nat
  toMe : Bool
  level : Nat
  keyIndex : Nat
  counter : Nat
  micOk : Bool
  dataRequest : Bool
  ttl : Nat
  down : Bool
  sleepy : Bool
  rank : Nat
  endRank : Nat
  origin : Nat
  originSeq : Nat
  final : Nat
  type : Nat
  body : Bytes
  deriving DecidableEq, Repr

/-- A pallet (R312) as its receiver opens it: the header, the verdict on the tag (log 4) and the decrypted entries. -/
structure Pallet where
  magic : Nat
  version : Nat
  kind : Nat
  source : Nat
  dest : Nat
  epoch : Nat
  entries : Nat
  length : Nat
  seq : Nat
  tagOk : Bool
  body : Bytes
  deriving DecidableEq, Repr

/-- A HELLO body (R354). -/
structure Hello where
  devId : Nat
  role : Nat
  hops : Nat
  epoch : Nat
  rootId : Nat
  activeUp : Nat
  rootSeq : Nat
  flags : BitVec 8
  lane : Nat
  deriving DecidableEq, Repr

/-- A SEGMENT frame (R353): CLASS, KIND, INDEX, LAST, its bytes, and in the last segment of a pallet the pallet opened (log 4).
`gcm` is the verdict on the tag of a packet carried (R388). -/
structure Segment where
  cls : Nat
  kind : Nat
  index : Nat
  last : Bool
  hops : Nat
  data : Bytes
  pallet : Option Pallet
  gcm : Bool
  deriving DecidableEq, Repr

/-- A RETURN frame with its HOPS (R353). -/
structure ReturnFrame where
  hops : Nat
  source : Nat
  kind : Nat
  reason : Nat
  seq : Nat
  deriving DecidableEq, Repr

/-- A JOIN frame (R353): HOPS, device, EPOCH, NONCE, IDENTITY, its MAC and the verdict on it (log 4). -/
structure JoinFrame where
  hops : Nat
  dev : Nat
  epoch : Nat
  nonce : Bytes
  identity : Nat
  mac : Bytes
  macOk : Bool
  deriving DecidableEq, Repr

/-- A BELOW frame (R355). -/
structure BelowPart where
  seq : Nat
  part : Nat
  last : Bool
  ids : List Nat
  deriving DecidableEq, Repr

/-- The sealed objects of R442 and R443 whose loss has an effect of its own: keys, a device's table key, a host identity, a checkpoint. -/
inductive SealedKind where
  | identityKey | recordKey | palletKey | broadcastKey | networkKeys
  | tableKey (device : Nat)
  | identity (id : Nat)
  | checkpoint
  | other
  deriving DecidableEq, Repr

/-- What the words of an MRAM error belong to (R24, R442 to R445): a profile record (metering point, SEQ), a configuration set, a sealed object (its
number, what it is, whether both copies failed), a log record (0 journal, 1 PQ event log, 2 clock-adjustment log; SEQ), or nothing in use. -/
inductive MramUse where
  | profile (mp seq : Nat)
  | config
  | sealed (number : Nat) (kind : SealedKind) (both : Bool)
  | log (which seq : Nat)
  | spare
  deriving DecidableEq, Repr

/-- One error a scrub found (R444, R488): the address of the word, whether it is uncorrectable, and for MRAM what it belongs to. -/
structure EccHit where
  addr : Nat
  uncorrectable : Bool
  what : MramUse
  deriving DecidableEq, Repr

/-- What the comparators show at a power-fail decision (R468): VIN in mV, and for how many µs the condition has held. -/
structure PowerCause where
  mv : Nat
  us : Nat
  deriving DecidableEq, Repr

/-- One record of the BIST report (R493). -/
structure BistEntry where
  memory : Nat
  unit : Nat
  outcome : Nat
  bit : Nat
  address : Nat
  phase : Nat
  kind : Nat
  deriving DecidableEq, Repr

/-- What phase K1 found (R478, R479, R483): µs since the reference edge, the wardens that passed their self-test, the CRC of the fuse image,
the control-core pairs whose SRAM is sound or repaired, entries of the BIST report and SRAM repairs, the flash that answered (MiB, octal)
and the verdicts on the resident images of slots A and B. -/
structure K1Result where
  us : Nat
  wardens : List Bool
  fuseOk : Bool
  pairOk : List Bool
  entries : List BistEntry
  repairs : Nat
  flash : Option (Nat × Bool)
  slotOk : List Bool
  deriving DecidableEq, Repr

/-- What phase K2 found, and the front-end and footing tests at the start of K3 (R441, R479, R483, R484): µs since the reference edge, MRAM errors
and report entries, the seal core's and the crypto engine's verdicts, failed decimators by channel, failed footing units. -/
structure K2Result where
  us : Nat
  mram : List EccHit
  entries : List BistEntry
  sealOk : Bool
  cryptoOk : Bool
  frontFail : List (Fin 48)
  footFail : List (Fin 6)
  deriving DecidableEq, Repr

/-- One check of the test window (R482): deviations of VCORE, V1P8 and V3P3 from their setpoints in ppm, of the 25 MHz reference from what it is
measured against in ppm, the PLL's lock, the die sensors in millidegrees. -/
structure WindowCheck where
  vcore : Int
  v1p8 : Int
  v3p3 : Int
  refPpm : Int
  pllLocked : Bool
  temps : List Int
  deriving DecidableEq, Repr

/-! ### What the root pair shares (R366) -/

/-- Session roles of R391. -/
inductive SessRole where
  | anyone | reader | operator | utility | legal | vendor
  deriving DecidableEq, Repr

/-- A meter record (R309); HIST by ring slot, an unlisted slot empty. `confirmed` is the last PRESENCE confirmation (leaf, elapsed ns),
`spanFrom` the first END committed from the serving leaf (0: none), `foreign` the END span of another leaf (R327). -/
structure Rec where
  identity : Nat := 0
  state : Nat := 0
  channel : Nat := 0
  leaf : Nat := 0xFFFF
  addr : Nat := 0
  feeder : Nat := 0xFF
  score : Nat := 0
  key : Bytes := []
  keyVersion : Nat := 0
  tariffVersion : Nat := 0
  fwVersion : Nat := 0
  generation : Bool := false
  clone : Bool := false
  keyPending : Bool := false
  editedAny : Bool := false
  head : Nat := 0
  lastVee : Nat := 0
  lastEnd : Nat := 0
  lastStatus : Nat := 0
  reg : List Nat := [0, 0, 0, 0]
  lastCommit : Nat := 0
  job : Nat := 0
  jobState : Nat := 0
  jobTries : Nat := 0
  jobNext : Nat := 0
  estimates : Nat := 0
  rejects : Nat := 0
  hist : List (Nat × Nat) := []
  confirmed : Option (Nat × Nat) := none
  spanFrom : Nat := 0
  foreign : Option (Nat × Nat × Nat) := none
  deriving DecidableEq, Repr

/-- A meter's value in a snapshot (R334): record index, LATCH status, registers, interpolation term, its source (0 latched, 1 interpolated,
2 estimated or missing). -/
structure SnapVal where
  index : Nat
  latch : Nat
  reg : List Nat
  term : Nat := 0
  how : Nat := 0
  deriving DecidableEq, Repr

/-- A snapshot at the root (R330 to R334): T, DEVICE, AUTO_BAL, values, the MP_SNAP entries by leaf and metering point. -/
structure Snap where
  id : Nat
  t : Nat
  device : Nat
  auto : Bool
  closed : Bool := false
  timedOut : Bool := false
  missed : Bool := false
  vals : List SnapVal := []
  mps : List (Nat × Nat × Bytes) := []
  deriving DecidableEq, Repr

/-- A target of a push (R345): identity, JOB_STATE, NEXT, tries, NEXT at the last poll cycle end. -/
structure Target where
  identity : Nat
  state : Nat := 1
  next : Nat := 0
  tries : Nat := 0
  lastNext : Nat := 0
  deriving DecidableEq, Repr

/-- A push job at the root (R342): content, targets, who issued it. -/
structure Job where
  id : Nat
  kind : Nat
  version : Nat
  activateAt : Nat
  expiry : Nat
  size : Nat
  slot : Nat
  data : Bytes
  targets : List Target
  bay : Nat
  role : SessRole
  deriving DecidableEq, Repr

/-- A device-table entry of the root pair (R359, R372). -/
structure DevEntry where
  role : Nat := 0
  state : Nat := 0
  activeUp : Nat := 0xFFFF
  hops : Nat := 0xFF
  epoch : Nat := 0
  key : Bytes := []
  identity : Nat := 0
  departedAt : Nat := 0
  deriving DecidableEq, Repr

/-- What a MIRROR pallet brings beside its commit-log entries (R366): records by index, open snapshots, push jobs, device-table entries by ID, the epoch; the spec states
no form for them (log 41). -/
structure MirrorData where
  recs : List (Nat × Rec)
  snaps : List Snap
  jobs : List Job
  table : List (Nat × DevEntry)
  epoch : Option Nat
  deriving DecidableEq, Repr

/-- A MIRROR pallet (R319, R366): its commit-log entries as a pallet, and what it brings beside them. -/
structure MirrorPallet where
  pallet : Pallet
  data : MirrorData
  deriving DecidableEq, Repr

/-- What an answer slot of a search round brings (R277): how many microseconds after the slot's start the frame begins, and its bytes. -/
structure PlcAnswer where
  late : Int
  frame : Bytes
  deriving DecidableEq, Repr

/-- What a radio ANSWER carries beside the identity (R299, R300): ORIGIN_SEQ, and the rank of the meter that sent it. -/
structure RadioAnswer where
  originSeq : Nat
  rank : Nat
  deriving DecidableEq, Repr

/-- The commands: one constructor per row of spec/opcode_table.json, in the table's order. -/
inductive Instr where
  | sessionOpen (p : Packet)
  | sessionClose (p : Packet)
  | sessionAuth (p : Packet)
  | getReadyMap (p : Packet)
  | deviceInfo (p : Packet)
  | bulkData (p : Packet)
  | cfgEdit (p : Packet)
  | cfgRead (p : Packet)
  | cfgCopy (p : Packet)
  | cfgSwap (p : Packet)
  | cfgStatus (p : Packet)
  | cfgCancel (p : Packet)
  | readSnapshot (p : Packet)
  | readHarmonics (p : Packet)
  | readChannelDiag (p : Packet)
  | pqReadAgg (p : Packet)
  | pqReadIhg (p : Packet)
  | pqReadLog (p : Packet)
  | pqReadBands (p : Packet)
  | accPreset (p : Packet)
  | accRead (p : Packet)
  | diClear (p : Packet)
  | diRead (p : Packet)
  | adcSelfcal (p : Packet)
  | adcUrgent (p : Packet)
  | acbRead (p : Packet)
  | calRun (p : Packet)
  | timeSet (p : Packet)
  | timeGet (p : Packet)
  | timeLogRead (p : Packet)
  | objGet (p : Packet)
  | profileRead (p : Packet)
  | tariffStage (p : Packet)
  | tariffActivate (p : Packet)
  | billReset (p : Packet)
  | creditAdd (p : Packet)
  | supplyControl (p : Packet)
  | plcSearch (p : Packet)
  | plcStatus (p : Packet)
  | radioJoin (p : Packet)
  | radioStatus (p : Packet)
  | ledgerRead (p : Packet)
  | ledgerEdit (p : Packet)
  | ledgerUnlock (p : Packet)
  | ledgerProvision (p : Packet)
  | ledgerAssign (p : Packet)
  | ledgerStatus (p : Packet)
  | ledgerDeprovision (p : Packet)
  | snapshotAt (p : Packet)
  | balanceRun (p : Packet)
  | balanceDefine (p : Packet)
  | snapshotRead (p : Packet)
  | pushTariff (p : Packet)
  | pushImage (p : Packet)
  | pushKey (p : Packet)
  | pushStatus (p : Packet)
  | pushCancel (p : Packet)
  | mortarStatus (p : Packet)
  | topoRead (p : Packet)
  | deviceProvision (p : Packet)
  | deviceRemove (p : Packet)
  | rootHandover (p : Packet)
  | bayReset (p : Packet)
  | eventSubscribe (p : Packet)
  | eventRead (p : Packet)
  | islandPower (p : Packet)
  | qosSet (p : Packet)
  | qosRead (p : Packet)
  | identityProvision (p : Packet)
  | identityRemove (p : Packet)
  | identityUnlock (p : Packet)
  | storeStatus (p : Packet)
  | fwStage (p : Packet)
  | fwActivate (p : Packet)
  | diagBistReport (p : Packet)
  | diagDumpRead (p : Packet)
  | diagDumpClear (p : Packet)
  | diagTileStatus (p : Packet)
  | diagAvailRead (p : Packet)
  | serviceFuseRead (p : Packet)
  | serviceTrace (p : Packet)
  | packetForward (op : Nat) (p : Packet)
  | deadlineExpire (bay : Fin 8) (queue : Fin 16) (pos : Nat)
  | streamStall (bay : Fin 8) (queue : Fin 16)
  | sessionIdleTimeout (handle : Nat)
  | challengeExpire (handle : Nat)
  | identityLockEnd (identity : Nat)
  | spiWrite (bytes : Bytes)
  | spiRead (clocked : Nat)
  | spiRegRead (addr : Nat) (count : Nat)
  | spiRegWrite (bytes : Bytes)
  | sqTailDoorbell (fn : Fin 7) (q : Fin 16) (v : Nat) (host : List Fetch)
  | cqHeadDoorbell (fn : Fin 7) (q : Fin 16) (v : Nat) (host : List Fetch)
  | qpEnable (fn : Fin 7) (q : Fin 16)
  | qpDisable (fn : Fin 7) (q : Fin 16)
  | perstNAssert
  | functionLevelReset (fn : Fin 7)
  | rtcHalt (f : Fin 8)
  | rtcRelease (f : Fin 8)
  | rtcCounterWrite (f : Fin 8) (reg : Fin 8) (v : BitVec 32)
  | rtcTrimWrite (f : Fin 8) (v : BitVec 32)
  | rtcSecRead (f : Fin 8)
  | systemTimeRead (f : Fin 8)
  | regLowWordRead (f : Fin 8) (off : Nat)
  | regRcRead (f : Fin 8) (off : Nat)
  | avLatch (f : Fin 8)
  | regWritePlain (f : Fin 8) (off : Nat) (v : BitVec 32)
  | sampleBoundary (inp : SampleIn)
  | rangeSwitchDown (c : Fin 48)
  | overrangeRelease (c : Fin 48)
  | settlingEnd (c : Fin 48)
  | stuckRunDetect (c : Fin 48) (run : Nat)
  | bitstreamIdentical (c d : Fin 48) (periods : Nat)
  | stuckClear (c : Fin 48) (quietMs : Nat)
  | openTest (c : Fin 48) (follows : Bool)
  | mclkFaultEnter (j : Fin 8) (disagreements : Nat)
  | mclkRetry (j : Fin 8)
  | mclkFaultClear (j : Fin 8) (agreements : Nat)
  | polarityDwell (c : Fin 48) (e : PolarityEvidence)
  | pulseWidthEnd (p : Fin 16)
  | pulseShortDetect (p : Fin 16) (atLimitUs : Nat)
  | pulseShortRetry (p : Fin 16) (held : Bool)
  | zcCrossingDecide (v : Fin 8) (vote : VoteIn)
  | synthBoundary (v : Fin 8)
  | reactiveTransfer (m : Fin 16)
  | creepEnter (c : Fin 48)
  | creepExit (c : Fin 48)
  | overcurrentRelease (c : Fin 48)
  | rvcEnd (v : Fin 8)
  | rvcArm (v : Fin 8)
  | windowEnd (v : Fin 8) (vote : VoteIn)
  | footingCheckFail (k : Fin 6)
  | sequenceErrorAssert (v : Fin 8)
  | sequenceErrorClear (v : Fin 8)
  | missingNeutralAssert (v : Fin 8)
  | missingNeutralClear (v : Fin 8)
  | freq10sEnd (v : Fin 8)
  | agg10minTick (v : Fin 8) (tick : Nat)
  | agg2hTick (v : Fin 8)
  | flickerSettled (v : Fin 8) (seconds : Nat)
  | bandIntervalEnd (c : Fin 48) (n : Nat)
  | accCheckpoint
  | diClassify (d : Fin 8) (ohmA ohmB : Nat)
  | diDebounce (d : Fin 8) (chanB : Bool)
  | diDiscrepancyLatch (d : Fin 8)
  | diClearReady (d : Fin 8)
  | discFeedbackConfirm (m : Fin 16)
  | substWardenVote (k : Fin 6) (votes : List (Fin 3))
  | substCheckpoint (k : Fin 6)
  | substImageArrived (k : Fin 6)
  | substJoin (k : Fin 6) (reached : Bool)
  | tileTestDone (t : Fin 72) (pass : Bool)
  | bondRebuildStart (k : Fin 6)
  | bondReturn (k : Fin 6)
  | ledgerTaskBoundary (t : Fin 72) (commit : Bool) (queuedUs : Nat)
  | slotPeriodEnd (i : Fin 16)
  | comparatorAlarm (w : Fin 8)
  | comparatorRelease (w : Fin 8)
  | urgentBurstDone (k : Fin 2) (raws : List Int)
  | selfcalSar0Done (ofs : Int) (gain : Nat)
  | selfcalSar1Done (ofs : Int) (gain : Nat)
  | selfcalDone (skew : Int)
  | ts2MeanCheck (code : Int)
  | calSpacingEnd
  | rprecStepDone (sumOn sumOff : Int)
  | statStepDone (rms : List Nat)
  | converterCheck (k : Fin 2) (code21 code22 : Int)
  | mortarSourceLoss
  | ptpAnnounce (a : Announce)
  | ptpSync (m : PtpStamp)
  | ptpFollowUp (m : PtpStamp)
  | ptpDelayResp (seq : Nat) (t4 : Nat)
  | ptpAnnounceTimeout
  | ppsInEdge (stamp : Nat)
  | ppsInLoss
  | mainsQualify
  | sourcePromote
  | slewDone
  | holdLimitExceeded
  | ppsOutPulse
  | ppsOutWidthEnd
  | rtcSecondCompare
  | rtcCountTick
  | leapSecondApply
  | rtcTrimLearn (measured : Int)
  | xtalFault
  | xtalRecover
  | rtcOscFault
  | backupToVbat (vmain vbat : Nat)
  | backupToVmain (vmain vbat : Nat)
  | vbatCheck (meanMv : Nat)
  | backupPor (mv : Nat)
  | profileIntervalEnd
  | demandSubperiodEnd
  | tariffRateSwitch
  | tariffActivateDue
  | billResetDue
  | standingCharge
  | friendlyDeferralEnd (m : Fin 16)
  | sealDisplayDwell
  | sealFrameSend
  | sealBusyTimeout (highMs : Nat)
  | zcGridCrossing (ns : Nat) (rising : Bool)
  | zcFaultEnter
  | zcFaultClear
  | plcReadingReceive (m : PlcMsg)
  | plcAnswerReceive (slot : Nat) (a : PlcAnswer)
  | plcConfirmAckReceive (m : PlcMsg)
  | plcLatchReportReceive (m : PlcMsg)
  | plcPushAckReceive (m : PlcMsg)
  | plcNakReceive (m : PlcMsg)
  | plcExchangeMissed
  | plcPollDue (a : Nat)
  | plcRepeatDue (a : Nat)
  | plcPollCycleEnd
  | searchRoundStart
  | searchWindowEnd
  | searchRoundClose
  | addressQuarantineEnd (a : Nat)
  | latchBroadcast
  | plcVinLevel (mv : Nat)
  | plcLineShort (atLimitUs : Nat)
  | plcTestSymbol (below : Bool)
  | plcOpenCoupling (ohm10 : List Nat)
  | plcRxFault (detected : List Bool)
  | plcNoiseWindow (meanDbuV : Nat)
  | rpPortStart (p : Fin 2)
  | rpIrq (p : Fin 2) (frame : Bytes)
  | rpTxDone (p : Fin 2) (status : Nat)
  | rpConfigDone (p : Fin 2) (status : Nat)
  | rpStatusDone (p : Fin 2) (status : Nat) (rssi : BitVec 8)
  | rpRx (p : Fin 2) (f : RadioFrame)
  | rpStatusPoll (p : Fin 2)
  | rpResponseTimeout (p : Fin 2)
  | rpFaultRetry (p : Fin 2)
  | radioReadingReceive (m : RadioMsg)
  | radioAnswerReceive (identity : Nat) (a : RadioAnswer) (port : Fin 2)
  | radioConfirmAckReceive (m : RadioMsg)
  | radioPushAckReceive (m : RadioMsg)
  | advertSend
  | radioJoinRoundStart
  | radioConfirmRepeat (identity : Nat)
  | radioJoinClose
  | radioPollDue (a : Nat)
  | radioReplyTimeout (a : Nat)
  | childFrameExpire (child : Nat)
  | childEntryExpire (child : Nat)
  | leafPalletClose
  | palletRetransmit
  | palletUpReceive (p : Pallet)
  | mirrorAckReceive (seq : Nat)
  | mirrorLag (ms : Nat)
  | palletAckReceive (p : Pallet)
  | palletDownReceive (p : Pallet)
  | palletMirrorReceive (p : MirrorPallet)
  | snapshotLatch (id : Nat) (m : Fin 16)
  | snapshotTimeout (id : Nat)
  | snapshotClose (id : Nat)
  | scoreDecay
  | pushActivateDue (job : Nat)
  | pushExpiry (job : Nat)
  | laneTrainAttempt (m : Fin 4)
  | laneTrained (m : Fin 4) (groups : Nat) (inverted : Bool)
  | laneLoss (m : Fin 4) (lockLost : Bool) (violations : Nat)
  | helloTimeout (m : Fin 4) (us : Nat)
  | helloSend
  | helloReceive (m : Fin 4) (h : Hello)
  | timeReqSend (m : Fin 4)
  | timeReqReceive (m : Fin 4) (seq t2 t3 : Nat)
  | timeRespReceive (m : Fin 4) (seq t2 t3 t4 : Nat)
  | segmentReceive (m : Fin 4) (g : Segment)
  | returnReceive (m : Fin 4) (r : ReturnFrame)
  | epochHoldExpire
  | joinReqReceive (m : Fin 4) (j : JoinFrame)
  | joinOfferReceive (m : Fin 4) (j : JoinFrame)
  | joinConfirmReceive (m : Fin 4) (j : JoinFrame)
  | joinOfferLapse (d : Fin 1023)
  | joinRetry
  | belowSend
  | belowReceive (m : Fin 4) (b : BelowPart)
  | deviceLeave (d : Fin 1023) (ms : Nat)
  | leafOrphan (d : Fin 1023)
  | rootHeartbeat
  | rootTakeover (silentMs : Nat)
  | uplinkLinkChange (k : Fin 2) (up : Bool)
  | arpRequest (k : Fin 2) (ip : Nat)
  | ndSolicit (k : Fin 2) (ip : Nat)
  | icmpEcho (k : Fin 2) (ip : Nat) (data : Bytes)
  | ipReassemblyTimeout (id : Nat)
  | cfgSwapApply (late : List (Fin 8 × Crossing))
  | mramScrub (errs : List EccHit)
  | dramScrub (errs : List EccHit)
  | flashEraseResume
  | indeterminateReerase (sector : Nat)
  | flashOpFail (sector : Nat)
  | vinRiseUvlo (mv : Nat)
  | uvloFall (mv : Nat)
  | pgoodRise (mode : Fin 4)
  | resetNAssert (lowUs : Nat)
  | resetNRelease (mode : Fin 4)
  | reverseInput (mv : Int) (ms : Nat)
  | vinHigh (mv : Nat)
  | pfNExternalLow (us : Nat) (completes : Bool)
  | powerFailDecision (c : PowerCause) (completes : Bool)
  | savedRestart (mv : Nat) (tempMilli : Int) (heldMs : Nat)
  | railOutOfWindow (rail : Fin 6) (back : Bool)
  | buckCurrentLimit (b : Fin 4) (on : Bool)
  | islandSupplyFault (i : Fin 96)
  | islandSwitchRetry (i : Fin 96) (holds : Bool)
  | thermalLevel (maxMilli : Int)
  | thermalShutdown (maxMilli : Int) (ms : Nat) (completes : Bool)
  | kilnK2Start (r : K1Result)
  | kilnK3K4Start (r : K2Result)
  | testWindowCheck (w : WindowCheck)
  | courseMclkStart
  | tileBistGroupEnd (g : Fin 9) (fails : List (Fin 72)) (repairs : List BistEntry)
  | kilnK5Start
  | dramTrainingDone (ok : Bool)
  | dramSliceDone (i : Fin 56) (rows : Nat) (pass : Bool) (entries : List BistEntry)
  | kilnK6Start
  | kilnComplete (us : Nat)
  | ccLockstepMismatch (pair : Fin 2) (cause : Fin 3)
  | ccHeartbeatMissing (pair : Fin 2) (ms : Nat)
  | f3DumpWritten
  | f3PairsRunning (pairOk : List Bool)
  | flashDumpCopyDone
  | dumpPartitionErase (sector : Nat)
  | wardenHeartbeatMissing (w : Fin 3)
  | wardenResetDone (w : Fin 3) (pass : Bool)
  | sealLockstepMismatch
  | sealRestartDone
  | radioPollCycleEnd
  | radioRepeatDue (a : Nat)
  | vinNearPf (mv : Nat)
  | rootCutHandover (cutMs : Nat)
  | duplicateIdAlarmEnd
  | laneFrameCrcFail (m : Fin 4)
  | ptpDelayReqSend (seq : Nat) (t3 : Nat)
  deriving DecidableEq, Repr

end Sys2Proof
end

