-- ==== Sys2Proof/Decode.lean ====
section
/-! DEFINITION. The command a word spells.  No row of the table gives a command any bits, so no word spells
one. -/

namespace Sys2Proof

/-- The command a word of `nbits` bits spells by the table's bits: none, for every word. -/
def decodeTableWord (_nbits _w : Nat) : Option Instr := none

end Sys2Proof
end

