-- ==== Sys2Proof/Machine/Keys.lean ====
section
/-! DEFINITION. The configuration keys (R435): for every identifier its size, range, blank-set value and whether
it is a legal key (R238).  A key's value is held as the unsigned number of its little-endian bytes (R3). -/

namespace Sys2Proof.Machine

/-- The range check a key's table states. -/
inductive KeyRange where
  /-- Unsigned, both limits included. -/
  | u (lo hi : Nat)
  /-- Unsigned, or one further value. -/
  | uOr (lo hi x : Nat)
  /-- Signed in the key's size, both limits included. -/
  | s (lo hi : Int)
  /-- One of a list. -/
  | oneOf (l : List Nat)
  /-- Any value of the size. -/
  | any
  /-- A TC_TABLE (R46): G and P of every entry in range. -/
  | tcTable
  /-- Eight register numbers 0 to 15 (R236). -/
  | regs8
  /-- TIME.SOURCE_ORDER (R209, R210). -/
  | srcOrder
  deriving DecidableEq, Repr

/-- One key: size in bytes, range, blank-set value, legal key (R238). -/
structure KeyInfo where
  size : Nat
  range : KeyRange
  blank : Nat
  legal : Bool := false
  deriving DecidableEq, Repr

/-- The two's-complement value of an unsigned number of `bits` bits (R3). -/
def signedOf (bits n : Nat) : Int :=
  let m := n % 2 ^ bits
  if 2 * m < 2 ^ bits then (m : Int) else (m : Int) - 2 ^ bits

/-- The unsigned number that stores a signed value in `bits` bits (R3). -/
def unsignedOf (bits : Nat) (i : Int) : Nat := (i % (2 ^ bits : Int)).toNat

/-- Bits `[lo + len - 1 : lo]` of a number. -/
def natBits (n lo len : Nat) : Nat := n / 2 ^ lo % 2 ^ len

def divisorsOf60 : List Nat := [1, 2, 3, 4, 5, 6, 10, 12, 15, 20, 30, 60]

/-- Entry `i` of a TC_TABLE (R46): X, G (Q1.31), P (2^-12 sample). -/
def tcEntry (t i : Nat) : Int × Int × Int :=
  (signedOf 16 (natBits t (64 * i) 16), signedOf 32 (natBits t (64 * i + 16) 32),
    signedOf 16 (natBits t (64 * i + 48) 16))

/-- 0.01 in Q1.31, rounded down: the bound of G (R46). -/
def tcGMax : Int := 21474836

/-- Does G and P of every TC_TABLE entry lie in its range (R46)? -/
def tcTableOk (t : Nat) : Bool :=
  (List.range 8).all fun i =>
    let e := tcEntry t i
    decide (-tcGMax ≤ e.2.1) && decide (e.2.1 ≤ tcGMax) && decide (-8192 ≤ e.2.2) && decide (e.2.2 ≤ 8192)

/-- The four nibbles of TIME.SOURCE_ORDER, lowest first (R209). -/
def srcNibbles (v : Nat) : List Nat := (List.range 4).map fun i => natBits v (4 * i) 4

/-- R210: no nibble above 4, no nonzero code twice, no nonzero nibble after a zero nibble. -/
def srcOrderOk (v : Nat) : Bool :=
  let l := srcNibbles v
  l.all (· ≤ 4) && (l.filter (· != 0)).eraseDups.length == (l.filter (· != 0)).length
    && (l.dropWhile (· != 0)).all (· == 0)

/-- Does a value of `size` bytes lie in a key's range? -/
def KeyRange.ok (r : KeyRange) (size v : Nat) : Bool :=
  decide (v < 2 ^ (8 * size)) &&
  match r with
  | .u lo hi => decide (lo ≤ v) && decide (v ≤ hi)
  | .uOr lo hi x => (decide (lo ≤ v) && decide (v ≤ hi)) || v == x
  | .s lo hi => let i := signedOf (8 * size) v; decide (lo ≤ i) && decide (i ≤ hi)
  | .oneOf l => l.contains v
  | .any => true
  | .tcTable => tcTableOk v
  | .regs8 => (List.range 8).all fun i => natBits v (8 * i) 8 ≤ 15
  | .srcOrder => srcOrderOk v

def mkKey (size : Nat) (r : KeyRange) (blank : Nat) : KeyInfo := { size := size, range := r, blank := blank }
def mkLegal (size : Nat) (r : KeyRange) (blank : Nat) : KeyInfo :=
  { size := size, range := r, blank := blank, legal := true }

/-- R40: channel keys 0x1000 + 0x20 × c + item. -/
def keyC : Nat → Option KeyInfo
  | 0x00 => some (mkLegal 1 (.u 0 3) 0)
  | 0x01 => some (mkLegal 4 (.u 1 4294967295) 1000)
  | 0x02 => some (mkLegal 4 (.s 0x40000000 0x78000000) 0x64000000)
  | 0x03 => some (mkLegal 4 (.s (-0x10000000) 0x10000000) 0)
  | 0x04 => some (mkLegal 4 (.s 0x20000000 0x60000000) 0x40000000)
  | 0x05 => some (mkLegal 4 (.s (-1048576) 3145728) 0)
  | 0x06 => some (mkLegal 1 (.u 0 1) 0)
  | 0x07 => some (mkLegal 1 (.uOr 0 47 0xFF) 0xFF)
  | 0x08 => some (mkLegal 2 (.u 0x4000 0x7FDF) 0x7D71)
  | 0x09 => some (mkLegal 2 (.u 32 4096) 128)
  | 0x0A => some (mkLegal 1 (.u 0 1) 1)
  | 0x0B => some (mkLegal 2 (.u 0 3600) 60)
  | 0x0C => some (mkLegal 1 (.uOr 0 15 0xFF) 0xFF)
  | 0x0D => some (mkLegal 1 (.u 0 8) 0)
  | 0x0E => some (mkLegal 64 .tcTable 0)
  | _ => none

/-- R33: course keys 0x1800 + 0x10 × k + item. -/
def keyCourse : Nat → Option KeyInfo
  | 0x00 => some (mkLegal 1 (.u 0 1) 0)
  | 0x01 => some (mkLegal 1 (.u 0 1) 0)
  | 0x02 => some (mkLegal 1 (.u 0 15) 8)
  | 0x03 => some (mkLegal 2 (.u 640 8192) 1280)
  | 0x04 => some (mkLegal 2 (.u 0 65535) 64)
  | _ => none

/-- R61 and R147: metering-point keys 0x2000 + 0x40 × m + item. -/
def keyMp : Nat → Option KeyInfo
  | 0x00 => some (mkLegal 1 (.u 0 1) 0)
  | 0x01 => some (mkLegal 1 (.u 0 7) 0)
  | 0x02 => some (mkLegal 1 (.u 0 2) 1)
  | 0x03 => some (mkLegal 1 (.uOr 0 47 0xFF) 0xFF)
  | 0x04 => some (mkLegal 1 (.uOr 0 47 0xFF) 0xFF)
  | 0x05 => some (mkLegal 1 (.uOr 0 47 0xFF) 0xFF)
  | 0x06 => some (mkLegal 1 (.uOr 0 47 0xFF) 0xFF)
  | 0x07 => some (mkLegal 4 (.u 1 4294967295) 5000)
  | 0x08 => some (mkLegal 4 (.u 100 50000) 1000)
  | 0x09 => some (mkLegal 2 (.uOr 256 65535 0) 0)
  | 0x0A => some (mkLegal 1 (.u 0 1) 0)
  | 0x0B => some (mkLegal 1 (.uOr 0 7 0xFF) 0xFF)
  | 0x0C => some (mkLegal 1 (.u 0 1) 1)
  | 0x0D => some (mkLegal 2 (.u 10 10000) 500)
  | _ => none

/-- R60: voltage-set keys 0x2400 + 0x20 × v + item. -/
def keyVs : Nat → Option KeyInfo
  | 0x00 => some (mkLegal 1 (.u 0 1) 0)
  | 0x01 => some (mkLegal 1 (.u 0 2) 1)
  | 0x02 => some (mkLegal 1 (.uOr 0 47 0xFF) 0xFF)
  | 0x03 => some (mkLegal 1 (.uOr 0 47 0xFF) 0xFF)
  | 0x04 => some (mkLegal 1 (.uOr 0 47 0xFF) 0xFF)
  | 0x05 => some (mkLegal 1 (.uOr 0 47 0xFF) 0xFF)
  | 0x06 => some (mkLegal 4 (.u 1000 1000000) 230000)
  | 0x07 => some (mkLegal 1 (.oneOf [50, 60]) 50)
  | 0x08 => some (mkLegal 1 (.u 0 1) 0)
  | 0x09 => some (mkLegal 1 (.u 1 3) 1)
  | 0x0A => some (mkLegal 2 (.u 5 200) 50)
  | 0x0B => some (mkLegal 2 (.u 50 1000) 200)
  | _ => none

/-- R96: power-quality keys 0x2800 + 0x20 × v + item. -/
def keyPq : Nat → Option KeyInfo
  | 0x00 => some (mkKey 1 (.u 0 1) 0)
  | 0x01 => some (mkKey 1 (.u 0 1) 0)
  | 0x02 => some (mkKey 2 (.u 1000 9900) 9000)
  | 0x03 => some (mkKey 2 (.u 10100 20000) 11000)
  | 0x04 => some (mkKey 2 (.u 100 2000) 500)
  | 0x05 => some (mkKey 2 (.u 0 1000) 200)
  | 0x06 => some (mkKey 2 (.u 100 600) 500)
  | 0x07 => some (mkKey 2 (.u 0 599) 250)
  | 0x08 => some (mkKey 1 (.u 0 1) 0)
  | 0x09 => some (mkKey 2 (.uOr 10 5000 0) 0)
  | 0x0A => some (mkKey 4 (.u 0 0x01000000) 0)
  | 0x0B => some (mkKey 4 (.u 0 0x01000000) 0)
  | 0x0C => some (mkKey 2 (.u 0 65535) 0)
  | 0x0D => some (mkKey 2 (.u 0 65535) 0)
  | _ => none

/-- R134: pulse keys 0x3000 + 0x10 × p + item; SOURCE_MP, SOURCE_REG and CONSTANT are legal (R238). -/
def keyPulse : Nat → Option KeyInfo
  | 0x00 => some (mkKey 1 (.u 0 1) 0)
  | 0x01 => some (mkLegal 1 (.u 0 15) 0)
  | 0x02 => some (mkLegal 1 (.u 0 15) 0)
  | 0x03 => some (mkLegal 8 (.u 1000 10000000000) 10000000)
  | 0x04 => some (mkKey 1 (.u 2 255) 30)
  | 0x05 => some (mkKey 1 (.u 0 1) 0)
  | 0x06 => some (mkKey 1 (.u 0 1) 0)
  | _ => none

/-- R140: dual-channel input keys 0x3200 + 0x10 × d + item. -/
def keyDi : Nat → Option KeyInfo
  | 0x00 => some (mkKey 1 (.u 0 1) 0)
  | 0x01 => some (mkKey 1 (.u 0 1) 0)
  | 0x02 => some (mkKey 2 (.u 1 10000) 100)
  | 0x03 => some (mkKey 1 (.u 0 255) 5)
  | 0x04 => some (mkKey 1 (.u 0 1) 0)
  | 0x05 => some (mkKey 1 (.u 0 1) 1)
  | 0x06 => some (mkKey 1 (.u 0 1) 0)
  | _ => none

/-- R152: tile keys. -/
def keyTiles : Nat → Option KeyInfo
  | 0x00 => some (mkKey 1 (.u 0 46) 32)
  | 0x01 => some (mkKey 2 (.u 25 500) 50)
  | 0x02 => some (mkKey 1 (.u 2 50) 3)
  | _ => none

/-- R183: slot keys 0x3C00 + 0x10 × s + item. -/
def keySlot : Nat → Option KeyInfo
  | 0x00 => some (mkKey 1 (.u 0 1) 0)
  | 0x01 => some (mkKey 1 (.u 0 22) 0)
  | 0x02 => some (mkKey 1 (.u 0 2) 0)
  | 0x03 => some (mkKey 1 (.u 1 64) 1)
  | 0x04 => some (mkKey 4 (.u 1 4687500) 78125)
  | 0x05 => some (mkKey 1 (.u 0 1) 0)
  | _ => none

/-- R187: comparator keys 0x3D00 + 0x10 × w + item. -/
def keyWc : Nat → Option KeyInfo
  | 0x00 => some (mkKey 1 (.u 0 1) 0)
  | 0x01 => some (mkKey 1 (.u 0 15) 0)
  | 0x02 => some (mkKey 2 (.s (-32768) 32767) 0x8000)
  | 0x03 => some (mkKey 2 (.s (-32768) 32767) 32767)
  | 0x04 => some (mkKey 1 (.u 0 1) 0)
  | 0x05 => some (mkKey 1 (.u 1 255) 1)
  | 0x06 => some (mkKey 2 (.u 0 4096) 0)
  | _ => none

/-- R467: supply keys 0x3E00 + item. -/
def keyPwr : Nat → Option KeyInfo
  | 0x00 => some (mkKey 2 (.u 420 1500) 420)
  | 0x01 => some (mkKey 2 (.u 10 200) 30)
  | 0x02 => some (mkKey 1 (.u 0 1) 0)
  | 0x03 => some (mkKey 2 (.u 10 10000) 100)
  | _ => none

/-- R193: calibration keys 0x3F00 + item. -/
def keyCal : Nat → Option KeyInfo
  | 0x00 => some (mkKey 1 (.u 0 1) 0)
  | 0x01 => some (mkKey 2 (.u 10 200) 50)
  | 0x02 => some (mkKey 1 (.u 0 7) 0)
  | 0x03 => some (mkKey 1 (.u 0 47) 0)
  | 0x04 => some (mkKey 4 (.u 1 0xFFFFFFFF) 1)
  | 0x05 => some (mkKey 2 (.u 600 3600) 600)
  | _ => none

/-- R209: time keys 0x4000 + item. -/
def keyTime : Nat → Option KeyInfo
  | 0x00 => some (mkKey 2 .srcOrder 0x0421)
  | 0x01 => some (mkKey 4 (.u 1 60000) 1000)
  | 0x02 => some (mkKey 2 (.u 10 500) 500)
  | 0x03 => some (mkKey 1 (.u 0 255) 0)
  | 0x04 => some (mkKey 1 (.u 0 1) 0)
  | 0x05 => some (mkKey 1 (.u 0 2) 0)
  | 0x06 => some (mkKey 1 (.u 0 7) 0)
  | 0x07 => some (mkKey 4 (.u 600 86400) 86400)
  | 0x08 => some (mkKey 2 (.u 1 400) 100)
  | 0x09 => some (mkKey 4 (.s (-1000000) 1000000) 0)
  | 0x0A => some (mkKey 1 (.u 0 1) 1)
  | 0x0B => some (mkKey 4 (.u 1 10000000) 1000)
  | 0x0C => some (mkKey 1 (.u 0 1) 0)
  | _ => none

/-- R236: global billing keys 0x4400 + item. -/
def keyBill : Nat → Option KeyInfo
  | 0x00 => some (mkLegal 2 (.s (-720) 840) 0)
  | 0x01 => some (mkLegal 1 (.oneOf divisorsOf60) 15)
  | 0x02 => some (mkLegal 1 (.oneOf divisorsOf60) 15)
  | 0x03 => some (mkLegal 1 (.u 1 15) 1)
  | 0x04 => some (mkLegal 2 (.u 1 3600) 30)
  | 0x05 => some (mkLegal 1 (.u 0 7) 0)
  | 0x06 => some (mkLegal 8 .regs8 0x0908050403020100)
  | 0x07 => some (mkLegal 1 (.u 2 60) 10)
  | 0x08 => some (mkLegal 256 .any 0)
  | _ => none

/-- R236: billing keys of a metering point, 0x4480 + 0x10 × m + item. -/
def keyBillMp : Nat → Option KeyInfo
  | 0x00 => some (mkLegal 1 (.u 0 1) 0)
  | 0x01 => some (mkLegal 8 (.s 0 1000000000000) 50000)
  | 0x02 => some (mkLegal 8 (.s 0 1000000000000) 0)
  | 0x03 => some (mkLegal 1 (.u 0 1) 0)
  | 0x04 => some (mkLegal 4 (.u 0 4294967295) 0)
  | 0x05 => some (mkLegal 1 (.u 0 1) 0)
  | 0x06 => some (mkLegal 1 (.uOr 0 23 0xFF) 0xFF)
  | 0x07 => some (mkLegal 1 (.u 0 1) 1)
  | _ => none

/-- R273: power-line keys 0x4800 + item. -/
def keyPlc : Nat → Option KeyInfo
  | 0x00 => some (mkKey 1 (.u 0 1) 0)
  | 0x01 => some (mkKey 1 (.u 0 2) 0)
  | 0x02 => some (mkKey 1 (.u 0 30) 0)
  | 0x03 => some (mkKey 1 (.u 0 7) 0)
  | 0x04 => some (mkKey 2 (.s (-2000) 2000) 0)
  | 0x05 => some (mkKey 2 (.u 60 43200) 900)
  | 0x06 => some (mkKey 2 (.u 10 3600) 60)
  | 0x07 => some (mkKey 2 (.oneOf [16, 32, 64, 128, 256, 512, 1024]) 16)
  | 0x08 => some (mkKey 2 (.u 600 65535) 7200)
  | 0x09 => some (mkKey 1 (.u 0 20) 6)
  | _ => none

/-- R290: global radio keys 0x4C00 + item. -/
def keyRadio : Nat → Option KeyInfo
  | 0x00 => some (mkKey 2 (.u 0 0xFFFE) 0)
  | 0x01 => some (mkKey 1 (.u 1 15) 8)
  | 0x02 => some (mkKey 2 (.u 10 600) 30)
  | 0x03 => some (mkKey 1 (.u 1 255) 20)
  | 0x04 => some (mkKey 2 (.u 60 43200) 900)
  | 0x05 => some (mkKey 1 (.u 2 120) 20)
  | 0x06 => some (mkKey 2 (.u 60 65535) 3600)
  | 0x07 => some (mkKey 2 (.u 10 6000) 600)
  | 0x08 => some (mkKey 2 (.u 600 65535) 7200)
  | 0x09 => some (mkKey 2 (.u 127 2047) 255)
  | _ => none

/-- R290: radio port keys 0x4C40 + 0x10 × p + item. -/
def keyRp : Nat → Option KeyInfo
  | 0x00 => some (mkKey 1 (.u 0 1) 0)
  | 0x01 => some (mkKey 2 (.u 0 1023) 0)
  | 0x02 => some (mkKey 2 (.oneOf [50, 100, 150, 200]) 100)
  | 0x03 => some (mkKey 1 (.s (-10) 30) 14)
  | 0x04 => some (mkKey 1 (.u 0 1) 0)
  | 0x05 => some (mkKey 1 (.u 1 25) 10)
  | 0x06 => some (mkKey 1 (.u 4 32) 8)
  | _ => none

/-- R307: ledger keys 0x5000 + item. -/
def keyLedger : Nat → Option KeyInfo
  | 0x00 => some (mkKey 1 (.oneOf divisorsOf60) 15)
  | 0x01 => some (mkKey 2 (.u 0 3600) 300)
  | 0x02 => some (mkKey 4 (.u 1000 10000000) 100000)
  | 0x03 => some (mkKey 2 (.u 1 111) 96)
  | 0x04 => some (mkKey 2 (.u 10 10000) 200)
  | 0x05 => some (mkKey 2 (.u 1 600) 10)
  | 0x06 => some (mkKey 1 (.u 10 95) 50)
  | 0x07 => some (mkKey 2 (.u 100 60000) 1000)
  | 0x08 => some (mkKey 2 (.u 30 3600) 120)
  | 0x09 => some (mkKey 2 (.u 60 7200) 1200)
  | 0x0A => some (mkKey 1 (.u 10 255) 100)
  | 0x0B => some (mkKey 2 (.u 1 365) 7)
  | 0x0C => some (mkKey 1 (.u 1 96) 8)
  | _ => none

/-- R356: mortar keys 0x5400 + item. -/
def keyMortar : Nat → Option KeyInfo
  | 0x00 => some (mkKey 2 (.u 0 1022) 0)
  | 0x01 => some (mkKey 2 (.uOr 0 1022 0xFFFF) 0xFFFF)
  | 0x02 => some (mkKey 1 (.u 1 63) 16)
  | 0x03 => some (mkKey 2 (.u 100 60000) 3000)
  | 0x04 => some (mkKey 2 (.u 0 65535) 900)
  | _ => none

/-- R356: lane keys 0x5440 + 0x10 × m + item. -/
def keyLane : Nat → Option KeyInfo
  | 0x00 => some (mkKey 1 (.u 0 3) 0)
  | 0x01 => some (mkKey 1 (.u 0 1) 0)
  | 0x02 => some (mkKey 2 (.s (-10000) 10000) 0)
  | 0x03 => some (mkKey 1 (.u 0 3) 2)
  | _ => none

/-- R385: uplink keys 0x5800 + item. -/
def keyUdp : Nat → Option KeyInfo
  | 0x00 => some (mkKey 2 (.u 1 65535) 49160)
  | 0x01 => some (mkKey 1 (.u 0 0xFF) 0x03)
  | 0x02 => some (mkKey 1 (.u 1 7) 1)
  | _ => none

/-- R385: uplink lane keys 0x5810 + 0x10 × k + item. -/
def keyUp : Nat → Option KeyInfo
  | 0x00 => some (mkKey 1 (.u 0 2) 0)
  | 0x01 => some (mkKey 4 .any 0)
  | 0x02 => some (mkKey 1 (.u 0 32) 24)
  | 0x03 => some (mkKey 4 .any 0)
  | 0x04 => some (mkKey 16 .any 0)
  | 0x05 => some (mkKey 1 (.u 0 128) 64)
  | 0x06 => some (mkKey 2 (.u 1280 9000) 1500)
  | _ => none

/-- One row of R435: first identifier, objects, stride, items. -/
structure KeyFamily where
  base : Nat
  count : Nat
  stride : Nat
  items : Nat
  info : Nat → Option KeyInfo

/-- The families of R435. -/
def keyFamilies : List KeyFamily :=
  [⟨0x0001, 1, 2, 2, fun i => if i = 0 then some (mkKey 1 (.u 0 4) 0) else some (mkKey 2 (.u 0 1022) 1022)⟩,
   ⟨0x1000, 48, 0x20, 0x0F, keyC⟩,
   ⟨0x1800, 6, 0x10, 5, keyCourse⟩,
   ⟨0x1860, 1, 2, 2, fun _ => some (mkLegal 1 (.uOr 0 5 0xFF) 0xFF)⟩,
   ⟨0x2000, 16, 0x40, 0x0E, keyMp⟩,
   ⟨0x2400, 8, 0x20, 0x0C, keyVs⟩,
   ⟨0x2800, 8, 0x20, 0x0E, keyPq⟩,
   ⟨0x3000, 16, 0x10, 7, keyPulse⟩,
   ⟨0x3200, 8, 0x10, 7, keyDi⟩,
   ⟨0x3800, 1, 3, 3, keyTiles⟩,
   ⟨0x3C00, 16, 0x10, 6, keySlot⟩,
   ⟨0x3D00, 8, 0x10, 7, keyWc⟩,
   ⟨0x3E00, 1, 4, 4, keyPwr⟩,
   ⟨0x3F00, 1, 6, 6, keyCal⟩,
   ⟨0x4000, 1, 0x0D, 0x0D, keyTime⟩,
   ⟨0x4400, 1, 9, 9, keyBill⟩,
   ⟨0x4480, 16, 0x10, 8, keyBillMp⟩,
   ⟨0x4800, 1, 0x0A, 0x0A, keyPlc⟩,
   ⟨0x4C00, 1, 0x0A, 0x0A, keyRadio⟩,
   ⟨0x4C40, 2, 0x10, 7, keyRp⟩,
   ⟨0x5000, 1, 0x0D, 0x0D, keyLedger⟩,
   ⟨0x5400, 1, 5, 5, keyMortar⟩,
   ⟨0x5440, 4, 0x10, 4, keyLane⟩,
   ⟨0x5800, 1, 3, 3, keyUdp⟩,
   ⟨0x5810, 2, 0x10, 7, keyUp⟩,
   ⟨0x5C00, 1, 96, 96, fun _ => some (mkKey 1 (.u 1 7) 1)⟩]

/-- The entry of an identifier in a family, if it lies there. -/
def KeyFamily.find (f : KeyFamily) (id : Nat) : Option KeyInfo :=
  if f.base ≤ id ∧ id < f.base + f.count * f.stride ∧ (id - f.base) % f.stride < f.items then
    f.info ((id - f.base) % f.stride)
  else none

/-- The key an identifier names; `none` for a reserved identifier (R435). -/
def keyInfo (id : Nat) : Option KeyInfo := keyFamilies.findSome? (·.find id)

/-- The blank-set value of an identifier (R435), 0 for a reserved one. -/
def keyBlank (id : Nat) : Nat := (keyInfo id).elim 0 (·.blank)

/-- Every identifier of a family, ascending. -/
def KeyFamily.ids (f : KeyFamily) : List Nat :=
  (List.range f.count).flatMap fun k => (List.range f.items).map fun i => f.base + k * f.stride + i

/-- Every key, ascending (R435). -/
def allKeys : List Nat := keyFamilies.flatMap (·.ids)

/-- Is an identifier a legal key (R238)? -/
def isLegalKey (id : Nat) : Bool := (keyInfo id).elim false (·.legal)

/-! Identifiers by name. -/
def kRole : Nat := 0x0001
def kDevId : Nat := 0x0002
def kC (c item : Nat) : Nat := 0x1000 + 0x20 * c + item
def kCourse (k item : Nat) : Nat := 0x1800 + 0x10 * k + item
def kMclkSource (j : Nat) : Nat := 0x1860 + (j - 6)
def kMp (m item : Nat) : Nat := 0x2000 + 0x40 * m + item
def kVs (v item : Nat) : Nat := 0x2400 + 0x20 * v + item
def kPq (v item : Nat) : Nat := 0x2800 + 0x20 * v + item
def kPulse (p item : Nat) : Nat := 0x3000 + 0x10 * p + item
def kDi (d item : Nat) : Nat := 0x3200 + 0x10 * d + item
def kTiles (item : Nat) : Nat := 0x3800 + item
def kSlot (s item : Nat) : Nat := 0x3C00 + 0x10 * s + item
def kWc (w item : Nat) : Nat := 0x3D00 + 0x10 * w + item
def kPwr (item : Nat) : Nat := 0x3E00 + item
def kCal (item : Nat) : Nat := 0x3F00 + item
def kTime (item : Nat) : Nat := 0x4000 + item
def kBill (item : Nat) : Nat := 0x4400 + item
def kBillMp (m item : Nat) : Nat := 0x4480 + 0x10 * m + item
def kPlc (item : Nat) : Nat := 0x4800 + item
def kRadio (item : Nat) : Nat := 0x4C00 + item
def kRp (p item : Nat) : Nat := 0x4C40 + 0x10 * p + item
def kLedger (item : Nat) : Nat := 0x5000 + item
def kMortar (item : Nat) : Nat := 0x5400 + item
def kLane (m item : Nat) : Nat := 0x5440 + 0x10 * m + item
def kUdp (item : Nat) : Nat := 0x5800 + item
def kUp (k item : Nat) : Nat := 0x5810 + 0x10 * k + item
def kOwner (i : Nat) : Nat := 0x5C00 + i

end Sys2Proof.Machine
end

