-- ==== Sys2Proof/Config.lean ====
section
/-! DEFINITION. What an implementation fixes and the spec leaves open: fused values, results of outside
cryptographic standards, and the free values.  Every constant here is opaque: nothing can evaluate it. -/

namespace Sys2Proof.Config

/-- Free values by draw number (log 3): random numbers and every value the spec leaves open. -/
opaque freeNat : Nat → Nat

/-- SHA-256 of a byte string (spec/17 R440), uninterpreted (log 4). -/
opaque sha256 : Bytes → Bytes

/-- AES-128-CMAC of a message under a key (R394), uninterpreted (log 4). -/
opaque cmac : Bytes → Bytes → Bytes

/-- ECDSA P-256 verification: public key, message, signature (R394), uninterpreted (log 4). -/
opaque ecdsaVerify : Bytes → Bytes → Bytes → Bool

/-- ECDSA P-256 signature under the device identity key (R392), uninterpreted (log 4). -/
opaque deviceSign : Bytes → Bytes

/-- The public point of an ephemeral private key (R392), uninterpreted (log 4). -/
opaque ephPublic : Nat → Bytes

/-- The x-coordinate of the P-256 ECDH point of an ephemeral private key and a peer's public key (R393),
uninterpreted (log 4). -/
opaque ecdhX : Nat → Bytes → Bytes

/-- AES key unwrap (SP 800-38F) of a wrapped key under a key (R393), uninterpreted (log 4). -/
opaque keyUnwrap : Bytes → Bytes → Option Bytes

/-- AES key wrap under a key (R309), uninterpreted (log 4). -/
opaque keyWrap : Bytes → Bytes → Bytes

/-- ECDSA P-384 check of a firmware image of a version against the fused vendor key (R449), uninterpreted (log 4). -/
opaque imageSigned : Nat → Bytes → Bool

/-- The legal segment of the seal-core firmware of a version (R259). -/
opaque sealSegment : Nat → Bytes

/-- DEVICE_SERIAL (R537), fused. -/
opaque deviceSerial : Nat

/-- STEPPING (R537), fused. -/
opaque stepping : Nat

/-- SEAL_FW_VERSION of a control-core image version (R405, R537). -/
opaque sealFwVersion : Nat → Nat

/-- The 256-byte fuse image (R419). -/
opaque fuseByte : Nat → Byte

/-- The fused MAC addresses of the uplink lanes (R385). -/
opaque macAddr : Nat → Nat

/-- The fused ACB_CAL factors (R190): offset, gain of converter 0 and 1, and REF_GAIN, SKEW. -/
opaque fusedOfs : Nat → Int
opaque fusedGain : Nat → Nat
opaque fusedRefGain : Nat
opaque fusedSkew : Int

/-- The fused curve of die sensor `i` (R180): the code of a corrected raw result, given in 2^-34 LSB. -/
opaque dieCurve : Nat → Int → Int

/-- The fused temperature model of the reference (R192): REF_GAIN for a TS2 code. -/
opaque refModel : Int → Nat

/-- Coefficient `i` of the 32-tap compensating FIR for a trim of `tau` in 2^-20 sample, in 2^-62 (R35): its prototype is fixed in the device. -/
opaque firTap (tau : Int) (i : Nat) : Int

/-- The linear-phase filters the manual fixes by bounds only, by distance from the centre tap, in 2^-62: the 63-tap filter of the zero-crossing
detector (R64) and the 191-tap anti-alias filter (R74). -/
opaque zcTap (d : Nat) : Int
opaque aliasTap (d : Nat) : Int

/-- Weight `i` of the 16 taps of phase `p` of the resampling filter (R74), in 2^-62. -/
opaque resampleTap (p i : Nat) : Int

/-- The filters that take a voltage to 16 kS/s, by distance from the centre tap, and shift it by 90°, by distance from the centre of an
anti-symmetric response: the bond's (R70) and the footing unit's (R162), in 2^-62. -/
opaque decimateTap (wide : Bool) (d : Nat) : Int
opaque shiftTap (d : Nat) : Int
opaque footDecimateTap (wide : Bool) (d : Nat) : Int
opaque footShiftTap (d : Nat) : Int

/-- Blocks 1 to 4 of the flickermeter of IEC 61000-4-15 for a lamp and a nominal frequency (R109), which the manual names and does not repeat: the filters'
registers after a sample and the instantaneous sensation in 10^-6; and Pst in 0.001 from the counts of the 1,024 classes. -/
opaque flickerStep (lamp nomF : Nat) : List Int → Int → List Int × Nat
opaque pstOf : List Nat → Nat

/-- Where in a 12.8 µs frame the elapsed time 0 falls, in ns, and the converter that converts TS2 (R182, log 3). -/
opaque framePhase : Nat
opaque ts2Converter : Nat

/-- The device's own pallet key (R442), AES-GMAC under a key (R360, log 4), and the lane's IPv6 link-local address (R385). -/
opaque palletKey : Bytes
opaque gmac : Bytes → Bytes → Bytes
opaque linkLocal : Nat → Nat

/-- The MIC of a secured power-line message (R271): NET, ADDR, TYPE, CTR and body, under the key of its address (log 4). -/
opaque lineMic : Nat → Nat → Nat → Nat → Bytes → Bytes

/-- DATA of an event whose chapter names two values for it and no layout (EV0848, R362). -/
opaque pairData : Nat → Nat → Nat

/-- The device's record-wrapping key (R309). -/
opaque recordKey : Bytes

/-- The TYPE code of a commit-log entry of a reading (0) and of an edit (1), which R319 does not give. -/
opaque logType : Nat → Nat

/-- The 40-byte snapshot value (R334), whose layout the spec does not give: record index, latch status, registers, term, how it was
found. -/
opaque snapValue : Nat → Nat → List Nat → Nat → Nat → Bytes

/-- Bytes of a dump's sections, whose content the spec does not lay out (R506): the dump's SEQ, the section's number in the directory, the offset. -/
opaque dumpByte : Nat → Nat → Nat → Byte

end Sys2Proof.Config
end

