-- ==== Sys2Proof/Machine/State.lean ====
section
/-! DEFINITION. The state of the block as plain data: every register, queue, buffer, counter, mode and pin the
spec gives it, one structure per chapter, the queue of waiting commands, the reasons a step can stop, and
the state right after reset. -/

namespace Sys2Proof.Machine

/-- A sparse table keyed by number, in one canonical form: keys strictly rising, no entry equal to the value
an unlisted key reads as (`Tbl.get`, `Tbl.set` and `Tbl.wf` in Machine/Operands.lean). -/
abbrev Tbl (α : Type) := List (Nat × α)

/-- A fault ends the run.  No command of this block raises one: every command has an effect or, where its
conditions do not hold, none (log 5), so this type has no raiser. -/
inductive Fault where
  /-- Raised by no meaning; safe. -/
  | none
  deriving DecidableEq, Repr

/-- A refusal ends the run. -/
inductive Refusal where
  /-- Raised by an arm of `exec` that has no meaning yet, under the row's mnemonic; safe. -/
  | notModelled (mnemonic : String)
  deriving DecidableEq, Repr

/-- Device roles of R12. -/
inductive DevRole where
  | leaf | relay | root | standbyRoot | analyser
  deriving DecidableEq, Repr

/-! ### Command path (14), queues, sessions and identities -/

/-- One packet waiting in a queue (R390): its opcode, itself and its ingress stamp. -/
structure QEntry where
  code : Nat
  pkt : Packet
  stamp : Nat
  deriving DecidableEq, Repr

/-- A reply (R378) as the device sends it: the echoed header fields, the status block and the result;
`bulk` is what moves through a descriptor of DIR 1 (R377), in continuation replies when `stream`.  A continuation reply (`cont`)
has no status block: its parameters are `result`; `more` is its MORE bit. -/
structure Reply where
  code : Nat
  peer : Peer
  tag : Nat
  bay : Nat
  queue : Nat
  session : Nat
  target : Nat
  source : Nat
  status : Nat
  sub : Nat
  detail : Nat
  doneTime : Nat
  result : Bytes
  bulk : Bytes
  stream : Bool := false
  cont : Bool := false
  more : Bool := false
  deriving DecidableEq, Repr

/-- The reply kept for an accepted TAG of a session (R387); `reply` is `none` while the packet still executes;
`copies` counts the copies that wait for it. -/
structure KeptTag where
  tag : Nat
  crc : BitVec 32
  reply : Option Reply
  copies : Nat
  deriving DecidableEq, Repr

/-- A live session (R395). -/
structure Session where
  handle : Nat
  bay : Nat
  identity : Nat
  role : SessRole
  peer : Peer
  idleS : Nat
  lastUse : Nat
  key : Bytes
  kept : List KeptTag
  deriving DecidableEq, Repr

/-- A live challenge (R392).  `canPass` is false for a challenge that can only fail; `answer` holds the valid
answer that waits under R397. -/
structure Chal where
  handle : Nat
  bay : Nat
  identity : Nat
  role : SessRole
  peer : Peer
  idleS : Nat
  issued : Nat
  canPass : Bool
  transcript : Bytes
  key : Bytes
  answer : Option QEntry
  deriving DecidableEq, Repr

/-- A provisioned host identity (R391, R418) with its failure counts and locks (R396, R397). -/
structure Ident where
  id : Nat
  role : SessRole
  bayMask : BitVec 8
  cred : Bytes
  fails : Nat
  locks : Nat
  lockEnd : Option Nat
  clone : Bool
  deriving DecidableEq, Repr

/-- Why a started command has not replied yet. -/
inductive HoldKind where
  /-- A KIND 1 stream of DIR 0 (R377): the bytes so far, the length awaited, the time of the last packet. -/
  | stream (got : Bytes) (need : Nat) (last : Nat)
  /-- CFG_SWAP IMMEDIATE replies after the swap sample (R409). -/
  | swap
  /-- ADC_SELFCAL replies at step 7 of R191. -/
  | selfcal
  /-- ADC_URGENT replies when its burst is done (R189). -/
  | urgent
  /-- A valid SESSION_AUTH answer waits under R397. -/
  | auth
  /-- ACC_PRESET acts at the first sample boundary after it begins, one per target and boundary (R131). -/
  | preset
  /-- ACC_READ latches at the first sample boundary after it begins (R129); what was taken of the pulse outputs there. -/
  | read (pulses : Option Bytes)
  /-- TARIFF_ACTIVATE or BILL_RESET at once acts at the first sample boundary after it begins (R249, R250). -/
  | billNow
  /-- TIME_SET acts at the first sample boundary after it begins (R218). -/
  | timeSet
  /-- ROOT_HANDOVER replies once the standby has acknowledged the last MIRROR pallet (R369). -/
  | handover
  deriving DecidableEq, Repr

/-- A command that has started and not replied. -/
structure InFlight where
  entry : QEntry
  kind : HoldKind
  deriving DecidableEq, Repr

/-- Registers and indexes of one PCIe queue pair (R540, R541); `phase` is the PHASE bit of the next entry. -/
structure Qp where
  sqBaseLo : BitVec 32 := 0
  sqBaseHi : BitVec 32 := 0
  cqBaseLo : BitVec 32 := 0
  cqBaseHi : BitVec 32 := 0
  size : BitVec 32 := 0
  enable : Bool := false
  sqTail : Nat := 0
  cqHead : Nat := 0
  sqHead : Nat := 0
  cqTail : Nat := 0
  running : Bool := false
  error : Bool := false
  errCode : Nat := 0
  phase : Bool := false
  waiting : List (Reply × Nat × Bool) := []
  caps : List Nat := []
  conts : List Reply := []
  deriving DecidableEq, Repr

/-- A completion entry (R383) as written to the completion ring; `bay` is the bay of its command. -/
structure Completion where
  fn : Nat
  qp : Nat
  bay : Nat
  sqHead : Nat
  phase : Bool
  truncated : Bool
  more : Bool
  tag : Nat
  status : Nat
  sub : Nat
  rspLen : Nat
  deriving DecidableEq, Repr

/-- QoS class and shares of a bay (R424). -/
structure Qos where
  cls : Nat
  tile : Nat
  dram : Nat
  link : Nat
  cmd : Nat
  deriving DecidableEq, Repr

/-- A datagram the uplink firmware answered with (R385): ARP, neighbour discovery, echo. -/
inductive NetTx where
  | arp (lane ip mac : Nat)
  | neighbour (lane ip mac : Nat)
  | echo (lane ip : Nat) (data : Bytes)
  deriving DecidableEq, Repr

/-- State of the command path: waiting packets by 16 × bay + queue (R390), sessions, challenges, identities,
replies sent, queue pairs by 16 × function + pair, QoS by bay, island states (R428: 0 on, 1 gated, 2 off),
uplink answers sent, datagrams in reassembly with their start, the PCIe link in its power state L2 (R530: no command of the table moves it there). -/
structure HostSt where
  queue : Tbl (List QEntry) := []
  busy : Tbl (Option InFlight) := []
  sess : List Session := []
  chal : List Chal := []
  ident : List Ident := []
  ended : List (Nat × Nat) := []
  expired : List (Nat × Nat) := []
  out : List Reply := []
  spi : List Bytes := []
  spiDropped : Bool := false
  cq : List Completion := []
  qp : Tbl Qp := []
  qos : Tbl (Option Qos) := []
  island : Tbl Nat := []
  forwarded : List (Nat × Packet) := []
  trace : Bool := false
  net : List NetTx := []
  reasm : List (Nat × Nat) := []
  pcieL2 : Bool := false
  deriving DecidableEq, Repr

/-! ### Events (16) -/

/-- KIND of an event record (R432). -/
inductive EvKind where
  | pulse | assert | deassert | atSubscribe
  deriving DecidableEq, Repr

/-- One event record (R432) with its FLAGS apart. -/
structure EvRec where
  seq : Nat
  source : Nat
  kind : EvKind
  afterLoss : Bool
  timeHold : Bool
  timeInvalid : Bool
  replay : Bool
  index : Nat
  time : Nat
  data : Nat
  deriving DecidableEq, Repr

/-- One bay's part of the event router: map, queue (oldest first), next SEQ, drops (R433), the ranges a record
has entered for since the last EVENT_READ (R425), and the two W1C bits of INT_STATUS (R542). -/
structure EvBay where
  map : BitVec 1024 := 0
  queue : List EvRec := []
  seq : Nat := 0
  drops : Nat := 0
  rangeSeen : BitVec 14 := 0
  dropped : Bool := false
  resetDone : Bool := false
  deriving DecidableEq, Repr

/-- The event router: bays by number, the levels asserted (source, data), the occurrences held until K6 (R481),
the last 4,096 records (R506) and the MSI-X vectors raised, newest first, as (function, vector) (R425). -/
structure Ev where
  bay : Tbl EvBay := [(0, { map := BitVec.allOnes 1024 }), (1, { map := BitVec.allOnes 1024 &&& ~~~ (1#1024 <<< 1004) })]
  level : Tbl (Option Nat) := []
  held : List EvRec := []
  last : List EvRec := []
  msi : List (Nat × Nat) := []
  deriving DecidableEq, Repr

/-! ### Configuration sets (16) -/

/-- A configuration set (R435): its generation and the keys that differ from their blank-set value. -/
structure KeySet where
  gen : Nat := 0
  vals : Tbl Nat := []
  deriving DecidableEq, Repr

/-- The pending swap (R438): boundary, voltage set, AT_TIME, the sample index of its acceptance, the swap sample once known, and the bay and role that
issued it. -/
structure Swap where
  boundary : Nat
  vset : Nat
  atTime : Nat
  from_ : Nat
  sample : Option Nat
  bay : Nat
  role : SessRole
  gen : Nat
  deriving DecidableEq, Repr

/-- The two sets and CFG_STATUS (R410).  -/
structure Cfg where
  active : KeySet := {}
  shadow : KeySet := { gen := 1 }
  pend : Option Swap := none
  lastBoundary : Nat := 0
  lastCheckKey : Nat := 0xFFFF
  lastSwapIndex : Nat := 0
  lastSwapTime : Nat := 0
  deriving DecidableEq, Repr

/-! ### Register window (22) -/

/-- What one register-window function (PF0, VF1 to VF6, SPI as 7) keeps for itself: words latched by a low-word read,
by offset (R536, R537), the availability record and VALID (R537), a latch awaited, the RC copies of the fault registers (R508), of
TIME_STATUS.STEPPED (R233) and of ACB_CAL_STATUS (R190), the RTC latch (R224), the MSI-X table words and pending bits. -/
structure WinFn where
  latch : Tbl Nat := []
  av : Bytes := []
  avValid : Bool := false
  avPending : Bool := false
  f3Count : Nat := 0
  count0 : Nat := 0
  count1 : Nat := 0
  count2 : Nat := 0
  stepped : Bool := false
  selfcalFail : Bool := false
  refFail : Bool := false
  rtc : List Nat := []
  msix : Tbl Nat := []
  pba : BitVec 64 := 0
  deriving DecidableEq, Repr

/-- The register window: per-function state, SPI_ERRORS.WRITE_CRC and what the last access returned. -/
structure Win where
  fn : Tbl WinFn := []
  writeCrc : Nat := 0
  data : List (BitVec 32) := []
  spiStatus : Nat := 0
  spiOut : Bytes := []
  deriving DecidableEq, Repr

/-! ### Storage (17) -/

/-- A storage journal record (R450). -/
structure JRec where
  seq : Nat
  type : Nat
  medium : Nat
  address : Nat
  length : Nat
  info : List Nat
  deriving DecidableEq, Repr

/-- MRAM, flash, firmware and journal (R442 to R454).  Counters of ECC are RC per bay. `ro` holds the partitions that are read-only by their
RO_MASK bit; `fwTrial` is TRIAL of the header in force, `trialRun` that the running image is on trial; `lostKeys` are keys whose copies both failed; `slot` holds the meter image slots; `eraseOpen` the sectors with an ERASE_START and no ERASE_DONE. -/
structure Store where
  spare : Nat := 768
  retired : Nat := 0
  ro : List Nat := []
  eccCorrected : Tbl Nat := []
  eccUncorrected : Tbl Nat := []
  lastCorrected : List Nat := []
  dramCorrected : List Nat := []
  journal : List JRec := []
  journalSeq : Nat := 0
  flashPresent : Bool := false
  flashOctal : Bool := false
  flashMib : Nat := 0
  flashRetired : List Nat := []
  fwActive : Nat := 0
  fwVersion : Nat × Nat := (0, 0)
  fwTrial : Bool := false
  trialRun : Bool := false
  lostKeys : List SealedKind := []
  fwStaged : Bool := false
  fwReturned : Bool := false
  trialFails : Nat := 0
  minVersion : Nat := 0
  headerSeq : Nat := 0
  stagedImage : Bytes := []
  slot : Tbl Bytes := []
  eraseOpen : List Nat := []
  eraseSuspended : Option Nat := none
  indeterminate : List Nat := []
  foundIndeterminate : Nat := 0
  sealOverflow : Bool := false
  roDue : Bool := false
  profileOverflow : Bool := false
  deriving DecidableEq, Repr

/-! ### Supply (18) -/

/-- Supply phases: no rail (below the rising lockout), rails starting (K0), running, SAVED (R471). -/
inductive Supply where
  | off | rails | running | saved
  deriving DecidableEq, Repr

/-- SUPPLY_STATUS (R475) and the supply's own state.  `vin` is the latest input reported, `islandFaults` counts island supply faults since the
start, `islandHeld` are islands kept off (R466), `sealLost` those whose seal state was zeroised, `stopped` is set by a stop
until the next reference edge and says whether VIN was lost and the system time of the cause, when valid (R174). -/
structure Power where
  supply : Supply := .off
  vin : Nat := 0
  pgood : Bool := false
  pf : Bool := false
  pfExtLow : Bool := false
  vinNearPf : Bool := false
  vinHigh : Bool := false
  saveOkLast : Bool := false
  saveCutLast : Bool := false
  saveCause : Nat := 0
  reverseSeen : Bool := false
  reversePulse : Bool := false
  thermWarn : Bool := false
  throttle : Bool := false
  buckLimit : BitVec 4 := 0
  railOut : BitVec 6 := 0
  islandFaults : Tbl Nat := []
  islandHeld : List Nat := []
  sealLost : List Nat := []
  resetLow : Bool := false
  stopped : Option (Bool × Option Nat) := none
  deriving DecidableEq, Repr

/-! ### Bring-up (19) -/

/-- The phases of the kiln (R478, R480): the reference edge has come, K1 to K6 completed, K2 to K6 begun (K3 and K4 begin together), DRAM trained. -/
structure Phases where
  started : Bool := false
  k1 : Bool := false
  k2Open : Bool := false
  k2 : Bool := false
  k3Open : Bool := false
  k3 : Bool := false
  k4 : Bool := false
  k5Open : Bool := false
  dramTrained : Bool := false
  k5 : Bool := false
  k6Open : Bool := false
  k6 : Bool := false
  deriving DecidableEq, Repr

/-- Kiln state: READY map (R490), the phases, the identity that runs, the test window (R482: entry, checks since, run, lost),
what pulses in K6 (source, data), and the BIST report (R493). `mode` is what MODE1 and MODE0 read at the reference edge; `startNs` the
elapsed time of K3's start; `restored` that the values come from a checkpoint (R133). -/
structure Kiln where
  ph : Phases := {}
  ready : BitVec 128 := 0
  halted : Bool := false
  mode : Nat := 0
  role : DevRole := .leaf
  devId : Nat := 0x3FE
  fwRunning : Nat := 0
  sealFw : Nat := 0
  startCount : Nat := 0
  winChecks : Nat := 0
  winRun : Nat := 0
  winLost : Bool := false
  windowWait : Bool := false
  refRc : Bool := false
  resetStart : Bool := false
  overflow : Bool := false
  restored : Bool := false
  reports : List (Nat × Nat) := []
  entries : List BistEntry := []
  doneUs : Tbl Nat := []
  startNs : Nat := 0
  mclkOn : Bool := false
  tilesFailed : List (Fin 72) := []
  frontFailed : BitVec 6 := 0
  footingFailed : BitVec 6 := 0
  wardens : BitVec 3 := 0
  dramRows : Nat := 0
  sramRepairs : Nat := 0
  slices : BitVec 64 := 0
  slicesTested : Nat := 0
  bistGroup : Nat := 0
  deriving DecidableEq, Repr

/-! ### Faults and dump (20) -/

/-- One section of a dump (R505, R506): TYPE, SCOPE, UNIT and length. -/
structure DumpSec where
  type : Nat
  scope : Nat
  unit : Nat
  len : Nat
  deriving DecidableEq, Repr

/-- A dump (R505): class, cause, SEQ, sample index and time of the decision, FLASH_ONLY, its sections in order. -/
structure Dump where
  cls : Nat
  cause : Nat
  seq : Nat
  index : Nat
  time : Nat
  timeInvalid : Bool
  flashOnly : Bool
  sections : List DumpSec
  deriving DecidableEq, Repr

/-- FAULT_SUMMARY (R508) and recovery state: wardens and pairs in service, resets of each warden with system time and sample index, the F3 in
progress with its dump, earlier F3 and seal mismatches, dumps held; `flashWait` is the dump whose flash copy has not started, `flashCopy` the one being
copied, `flashDirty` the sectors of the partition that are not erased.  The RC counts stand with each window function. -/
structure FaultSt where
  f4 : Bool := false
  f4Window : Bool := false
  lastCause : Nat := 0
  wardenOut : BitVec 3 := 0b111
  wardenReset : BitVec 3 := 0
  wardenTimes : List (Nat × Nat × Nat) := []
  /-- Consecutive decisions in which a warden's vote differed from the other two's (R498). -/
  voteMiss : List Nat := [0, 0, 0]
  pairOk : BitVec 2 := 0
  pairAside : BitVec 2 := 0
  sealOk : Bool := false
  sealRestart : Bool := false
  sealTimes : List (Nat × Nat) := []
  f3 : Option Nat := none
  f3Halted : Bool := false
  f3Dump : Option Dump := none
  f3Written : Bool := false
  f3Times : List (Nat × Nat) := []
  dumpSeq : Nat := 0
  dumpBusy : Bool := false
  dram : Option Dump := none
  flash : Option Dump := none
  flashWait : Option Dump := none
  flashCopy : Option Dump := none
  flashDirty : List Nat := []
  deriving DecidableEq, Repr

/-! ### Pins (21) -/

/-- Level of an output ball: high impedance, low, high. -/
inductive Level where
  | hiZ | low | high
  deriving DecidableEq, Repr

/-- The output balls the block drives (R519, R503), PULSE and GPIO by number; MCLK, the power-line, mortar and uplink transmitters and HS_IRQ_N
follow from the rest of the state (`mclkBall`, `plcBall`, `laneBall`, `uplinkBall`, `hsIrqN`, `peWakeN`). -/
structure Pins where
  pulse : Tbl (Option Bool) := []
  gpio : Tbl (Option Bool) := []
  pgood : Bool := false
  faultN : Level := .hiZ
  pfN : Level := .hiZ
  ppsOut : Bool := false
  sealCsN : Level := .hiZ
  rpRstN : Tbl Bool := []
  rpCsN : Tbl Bool := []
  deriving DecidableEq, Repr

/-! ### System time and RTC (08) -/

/-- One time source of R209 to R213: good samples so far, qualification and since when (elapsed ns), last seen,
newest accepted offset, the last accepted offsets (newest first, at most 15), samples accepted since qualification,
consecutive rejections. -/
structure Src where
  good : Nat := 0
  qualified : Bool := false
  since : Nat := 0
  last : Nat := 0
  newest : Int := 0
  hist : List Int := []
  accepted : Nat := 0
  rejects : Nat := 0
  lockRun : Nat := 0
  deriving DecidableEq, Repr

/-- A clock heard of by Announce messages (R211): its latest data set and announce interval in ms, the times of its latest two messages. -/
structure Foreign where
  dataset : List Nat
  intervalMs : Nat
  last : Nat
  prev : Option Nat
  deriving DecidableEq, Repr

/-- The PTP ordinary clock (R211): the clocks heard of, the data set of the chosen master (its last two entries are the clock's
identity and the steps removed), its announce interval in ms, validity of currentUtcOffset, and
the stamps of the Sync and Delay_Req in progress. -/
structure Ptp where
  foreign : List Foreign := []
  master : Option (List Nat) := none
  announceMs : Nat := 0
  utcValid : Bool := false
  lastAnnounce : Nat := 0
  lastSync : Nat := 0
  syncSeq : Option Nat := none
  t2 : Nat := 0
  t1 : Option Nat := none
  reqSeq : Option Nat := none
  t3 : Nat := 0
  msDelay : Option Int := none
  deriving DecidableEq, Repr

/-- A clock-adjustment log record (R217). -/
structure TimeRec where
  seq : Nat
  cause : Nat
  origin : Nat
  index : Nat
  before : Nat
  after : Nat
  deriving DecidableEq, Repr

/-- A change of system time that waits for the next sample boundary (R215, R218, R226). -/
inductive TimeChange where
  /-- A step by the advance `adv`, and the slew of its remainder; CAUSE and ORIGIN of R217. -/
  | step (adv : Int) (cause origin : Nat)
  /-- The TIME_SET that the queue holds. -/
  | set (queue : Nat)
  deriving DecidableEq, Repr

/-- System time (R206 to R222): time in ns at the latest sample boundary, what the time base has added since in 2^-32 ns, sample index, the sample index of the latest step, elapsed ns since
manufacture as the model counts it (never stepped), rate r and r_hat in 2^-40, the slew in force (`slewRate` in 2^-40, `slewLeft`
in ns × 2^40 still to remove), the changes that wait for the next boundary, TIME_STATUS, the sources by code, the clock-adjustment log (newest first), the
crystal's time in 2^-16 ns (rate and slew taken out) and its values at the real positive-going boundaries of the MAINS span (newest first). -/
structure TimeSt where
  ns : Nat := 0
  sub : Nat := 0
  index : Nat := 0
  stepAt : Nat := 0
  mono : Nat := 0
  indexOn : Bool := false
  rate : Int := 0
  rHat : Int := 0
  slewRate : Int := 0
  slewLeft : Nat := 0
  due : List TimeChange := []
  valid : Bool := false
  holdover : Bool := false
  locked : Bool := false
  slewing : Bool := false
  source : Nat := 0
  xtalFault : Bool := false
  rtcOscFault : Bool := false
  holdExceeded : Bool := false
  leap : Nat := 0
  leapDay : Nat := 0
  fromRtc : Bool := false
  stepped : Tbl Bool := []
  lastOffset : Int := 0
  e0 : Nat := 0
  holdSince : Nat := 0
  savedErr : Nat := 0
  savedNs : Nat := 0
  utcOfs : Int := 0
  src : Tbl Src := []
  ptp : Ptp := {}
  log : List TimeRec := []
  logSeq : Nat := 0
  ppsHigh : Bool := false
  ppsRise : Option Nat := none
  ppsIn : Option Nat := none
  mainsCycles : Nat := 0
  mainsStart : Nat := 0
  crystal : Nat := 0
  mainsEdges : List Nat := []
  deriving DecidableEq, Repr

/-- One RTC alarm (R228): VALUE and MASK of SEC, MIN, HOUR, WDAY, DAY, MONTH, as the register bytes. -/
structure Alarm where
  sec : Nat := 0x80
  min : Nat := 0x80
  hour : Nat := 0x80
  wday : Nat := 0x80
  day : Nat := 0x80
  month : Nat := 0x80
  deriving DecidableEq, Repr

/-- The RTC in the backup domain (R223 to R231); the eight registers in BCD. -/
structure Rtc where
  sec : Nat := 0x00
  min : Nat := 0x00
  hour : Nat := 0x00
  wday : Nat := 0x06
  day : Nat := 0x01
  month : Nat := 0x01
  year : Nat := 0x00
  cent : Nat := 0x20
  halt : Bool := false
  alm0En : Bool := false
  alm1En : Bool := false
  rtcValid : Bool := false
  halted : Bool := false
  badDate : Bool := false
  writeRej : Bool := false
  onBattery : Bool := false
  ranOnBattery : Bool := false
  bpor : Bool := true
  alm0 : Bool := false
  alm1 : Bool := false
  almOnBat0 : Bool := false
  almOnBat1 : Bool := false
  bporPulse : Bool := false
  batPulse : Bool := false
  a0 : Alarm := {}
  a1 : Alarm := {}
  trim : Int := 0
  prescaler : Nat := 0
  rewrite : Bool := false
  vmain : Nat := 0
  deriving DecidableEq, Repr

/-! ### Courses and channels (02) -/

/-- One course front end: clock running and wide mode (R28, R32), and the MARKER of its next sample (R437). -/
structure Course where
  running : Bool := false
  wide : Bool := false
  marker : Nat := 0
  deriving DecidableEq, Repr

/-- One MCLK driver (R57): fault, high impedance and since when. -/
structure Mclk where
  fault : Bool := false
  hiZ : Bool := false
  hiZAt : Nat := 0
  deriving DecidableEq, Repr

/-- One channel: samples left in SETTLING (R32, R37), the open,
stuck and overrange states with their runs (R50 to R53), polarity (R54), the range of a pair held on its H (R43, R44) and whether a swap made or changed the pair (R58),
temperature correction (R47 to R49) with the latest mean and the sample index it came at (R58), the two decimators (R34) and what is due for them at the next
boundary (R36, R37: 1 A takes B's state, 2 B takes A's, 3 both restart), the latest own sample and the combined sample with their tags (R38, R39), and
the RC counts of R55 per bay. `lostLeft` counts what is left of an unresolved mismatch and the 40 samples that follow it (R37). -/
structure Chan where
  settle : Nat := 0
  lostLeft : Nat := 0
  opn : Bool := false
  openRun : Nat := 0
  openQuiet : Nat := 0
  stuck : Bool := false
  identical : Bool := false
  ovr : Bool := false
  ovrRun : Nat := 0
  polarity : Bool := false
  low : Bool := false
  lowRun : Nat := 0
  pairNew : Bool := false
  gT : Int := 0
  pT : Int := 0
  tcHold : Bool := true
  tcClamp : Bool := false
  tcMean : Option (Nat × Int) := none
  a : Dec := {}
  b : Dec := {}
  y : Int := 0
  tag : BitVec 8 := 0x03
  yc : Int := 0
  tagc : BitVec 8 := 0x03
  reload : Nat := 0
  frontFailed : Bool := false
  fixed : Tbl Nat := []
  lost : Tbl Nat := []
  deriving DecidableEq, Repr

structure Front where
  course : Tbl Course := []
  mclk : Tbl Mclk := []
  chan : Tbl Chan := []
  deriving DecidableEq, Repr

/-- Availability counters (R174): device buckets and the index count, courses by 7 × k + bucket, gap and outage, RESTORED. -/
structure Avail where
  device : List Nat := [0, 0, 0, 0, 0, 0, 0, 0]
  course : Tbl Nat := []
  resetGap : Nat := 0
  outage : Nat := 0
  restored : Bool := false
  deriving DecidableEq, Repr

/-! ### Metrology (03) -/

/-- Running totals of one channel's stream: Σ y² in 2^-126, valid samples, invalid samples, samples with OVERRANGE. -/
structure Cum where
  sq : Nat := 0
  n : Nat := 0
  bad : Nat := 0
  ovr : Nat := 0
  deriving DecidableEq, Repr

/-- One delivered sample (R64, R70, R74, R118): its course sample number (two to a sample index), value, and whether it is invalid, carries OVERRANGE, and came
while its course ran on footing. -/
structure Samp where
  u : Nat
  y : Int
  bad : Bool
  ovr : Bool
  foot : Bool
  deriving DecidableEq, Repr

/-- One channel's metrology (R68, R80, R83): the latest 65,536 samples, newest first, totals, totals before each of the last 1,024 course samples (key: course sample
number) and at the last two boundaries, the latest RMS values in µV or µA, the creep and overcurrent states with their runs, and the creep
changes by sample index, newest first. -/
structure ChanM where
  raw : List Samp := []
  tot : Cum := {}
  log : List (Nat × Cum) := []
  atLast : Option Cum := none
  atPrev : Option Cum := none
  half : Nat := 0
  halfOk : Bool := false
  rms : Nat := 0
  creep : Bool := true
  upRun : Nat := 0
  downRun : Nat := 0
  creepHist : List (Nat × Bool) := []
  oc : Bool := false
  ocRun : Nat := 0
  deriving DecidableEq, Repr

/-- Running totals of one element: Σ y_v × y_c in 2^-126 over samples both valid, their number, delivered active increments, the
footing unit's and the bond's own, delivered reactive increments and the bond's own, in 2^-64 mWh or mvarh. -/
structure ETot where
  vc : Int := 0
  n : Nat := 0
  inc : Int := 0
  foot : Int := 0
  bond : Int := 0
  q : Int := 0
  qBond : Int := 0
  deriving DecidableEq, Repr

/-- One entry of the reactive delay line (R70): the current channel and the voltage channel with its sign, the current sample and K at an index divisible by 4,
and the validity of both samples. -/
structure Tap where
  ch : Nat
  v : Nat
  neg : Bool
  c : Int
  k : Nat
  valid : Bool
  deriving DecidableEq, Repr

/-- One element of a metering point: totals with their log, the delay line (newest first), and the totals at the last
transfer point of the active and of the reactive integrator (R123, R124), and the content a restart brought back (R133). -/
structure Elem where
  tot : ETot := {}
  log : List (Nat × ETot) := []
  atLast : Option ETot := none
  atPrev : Option ETot := none
  line : List Tap := []
  base : Int := 0
  carry : Int := 0
  qBase : Int := 0
  deriving DecidableEq, Repr

/-- A boundary as consumers get it (R65, R66): instant in 2^-17 sample index, course sample, sample index, system time, direction, SYNTH. -/
structure Bnd where
  at_ : Nat
  u : Nat
  index : Nat
  ns : Nat
  rising : Bool
  synth : Bool
  deriving DecidableEq, Repr

/-- A crossing the detector has found and not decided (R64), and whether the filtered signal had been below -h or above +h since the crossing before. -/
structure Found where
  x : Crossing
  lo : Bool
  hi : Bool
  deriving DecidableEq, Repr

/-- The zero-crossing detector of a voltage set (R64): the latest filtered sample; whether the signal has been below -h or above +h since the latest crossing,
and since the latest qualified one among those decided; the crossings found and not decided, oldest first. -/
structure Zc where
  prev : Option Int := none
  lo : Bool := false
  hi : Bool := false
  wasLo : Bool := false
  wasHi : Bool := false
  found : List Found := []
  deriving DecidableEq, Repr

/-- A window in progress: its start boundary, cycles so far, SYNTH, the totals at the start of the channels and elements. -/
structure WinOpen where
  start : Bnd
  cycles : Nat
  synth : Bool
  ch : List (Nat × Cum)
  el : List (Nat × ETot)
  deriving DecidableEq, Repr

/-- A window that has ended and is not published yet: what its samples held, the courses that ran on footing in it or fell or returned at its end, those
whose increments came from the footing unit (R85, R545), and the slew in force at its end (R216). -/
structure WinDone where
  start : Bnd
  stop : Bnd
  cycles : Nat
  synth : Bool
  cut : Bool
  foot : List Nat
  src : List Nat
  slew : Int
  ch : List (Nat × Cum)
  el : List (Nat × ETot)
  deriving DecidableEq, Repr

/-- A voltage set (R64 to R68, R78, R79): the detector, its last boundary and the one before it (`none` after a start), T_last in
2^-17 sample index, frequencies, completed cycles as (start, end, duration, the slew in force) and synthetic boundaries in system time for the 10 s value, the window in
progress and those not published, the sequence and missing-neutral states with their runs, and the latest window's block. -/
structure VSet where
  zc : Zc := {}
  notional : Option Bnd := none
  last : Option Bnd := none
  prev : Option Bnd := none
  tLast : Nat := 0
  cycFreq : Nat := 0
  cycles : List (Nat × Nat × Nat × Int) := []
  synths : List Nat := []
  f10 : Nat := 0
  f10Flags : Nat := 1
  f10From : Nat := 0
  f10Done : Nat := 0
  win : Option WinOpen := none
  done : List WinDone := []
  blkFlags : Nat := 1
  seqErr : Bool := false
  seqIn : Nat := 0
  seqOut : Nat := 0
  mn : Bool := false
  mnIn : Nat := 0
  mnOut : Nat := 0
  block : Bytes := []
  deriving DecidableEq, Repr

/-- Metrology: channels (48 to 55: the derived U3 of voltage sets 0 to 7, R78), elements by 4 × m + e, voltage sets, and the
published blocks of metering points (R88), channels (R89), interharmonics (R110) and emission bands (R119). `mpCut` are metering points whose own course cut the window, `creepFrom` those that begin in
creep at the next sample (R82), `before` the swap sample and the set in force before it, for boundaries decided after it (R94). -/
structure Metro where
  chan : Tbl ChanM := []
  elem : Tbl Elem := []
  vs : Tbl VSet := []
  mpBlock : Tbl Bytes := []
  hBlock : Tbl Bytes := []
  ihBlock : Tbl Bytes := []
  mpCut : List Nat := []
  creepFrom : List Nat := []
  before : Option (Nat × KeySet) := none
  bands : Tbl Bytes := []
  deriving DecidableEq, Repr
/-! ### Power quality (04) -/

/-- One event record (R115). -/
structure PqRec where
  seq : Nat
  type : Nat
  vset : Nat
  status : Nat
  startIdx : Nat
  startUs : Nat
  endIdx : Nat := 0
  endUs : Nat := 0
  extreme : Nat := 0
  uRef : Nat := 0
  initCh : Nat := 0
  extCh : Nat := 0
  thresh : Nat := 0
  duMax : Nat := 0
  duSs : Int := 0
  deriving DecidableEq, Repr

/-- One evaluated channel (R103, R108): the last RMS½ values as (value, index, ns), newest first, the sliding reference in µV, the
state of its own source (R107), during an RVC its U_pre (`none` until its first valid value), largest deviation and extreme value, and the flickermeter's filter
registers and class counts (R109). -/
structure PqChan where
  hist : List (Nat × Nat × Nat) := []
  sliding : Option Nat := none
  out : Bool := false
  uPre : Option Nat := none
  duMax : Nat := 0
  ext : Nat := 0
  flick : List Int := []
  classes : Tbl Nat := []
  deriving DecidableEq, Repr

/-- A rapid voltage change in progress (R108). -/
structure Rvc where
  startIdx : Nat
  startUs : Nat
  initCh : Nat
  status : Nat
  deriving DecidableEq, Repr

/-- An aggregate in progress (R99, R100): inputs seen and included, sums of squares in a fixed order, FLAGS and AGG_STATUS gathered, start. -/
structure Agg where
  open_ : Bool := false
  seen : Nat := 0
  count : Nat := 0
  sums : List Nat := []
  flags : Nat := 0
  status : Nat := 0
  startUs : Nat := 0
  endUs : Nat := 0
  tick : Nat := 0
  cut : Option Nat := none
  deriving DecidableEq, Repr

/-- The monitor of one voltage set: open records by SEQ, RVC, aggregates, latest and previous value of each level (R101), flicker
settling and since when, the 10-min interval its classes are of and the Pst values of the one before, the Pst values of the 2-h interval, and the swap sample (index, ns) before which
no record starts (R106, R120). -/
structure PqMon where
  dip : Option Nat := none
  swell : Option Nat := none
  int : Option Nat := none
  armed : Bool := false
  rvc : Option Rvc := none
  spans : List (Nat × Option Nat) := []
  a150 : Agg := {}
  a10 : Agg := {}
  a2h : Agg := {}
  latest : Tbl Bytes := []
  previous : Tbl Bytes := []
  settleFrom : Nat := 0
  settled : Bool := false
  flickCut : Bool := false
  flickTick : Nat := 0
  pstNow : List Nat := []
  pst : List (List Nat × Nat) := []
  notBefore : Nat × Nat := (0, 0)
  deriving DecidableEq, Repr

/-- Power quality: channels, monitors, the record log (newest first, R116). -/
structure Pq where
  chan : Tbl PqChan := []
  mon : Tbl PqMon := []
  log : List PqRec := []
  seq : Nat := 0
  deriving DecidableEq, Repr
/-! ### Accumulation, pulses, dual-channel inputs (05) -/

/-- A register of R122: 128 bits as one number in 2^-64 of its unit, and the wrap count. -/
structure Reg where
  v : Nat := 0
  wrap : Nat := 0
  deriving DecidableEq, Repr

/-- A reactive transfer awaited at t + 2,048 (R124): its index, where the active transfer at t went (`none`: zero), the rate it used. -/
structure QDue where
  due : Nat
  went : Option Bool
  rate : Nat
  deriving DecidableEq, Repr

/-- A metering point's accumulators (R121 to R128, R148). `dir` is true for EXPORT; `tp` the sample index of the last transfer
point; `sAt`, `fAt` the last delivery of apparent and fundamental reactive energy; `aAt`, `qAt` of active and reactive transfers. -/
structure MpAcc where
  reg : Tbl Reg := []
  dir : Bool := false
  reversals : Nat := 0
  tp : Nat := 0
  due : List QDue := []
  aAt : Nat := 0
  qAt : Nat := 0
  sAt : Nat := 0
  fAt : Nat := 0
  invalid : Tbl Bool := []
  restored : Tbl Bool := []
  misSince : Option Nat := none
  liveSince : Option Nat := none
  mis : Bool := false
  live : Bool := false
  calm : Option Nat := none
  deriving DecidableEq, Repr

/-- A pulse generator (R135 to R139), amounts in 2^-64 impulse. `rem` is unreleased, `per` released per sample, `left` samples of the
release; `since` samples since the last start; `stopAt` the course sample number (two to a sample index) at which the pulse in progress ends. -/
structure PulseGen where
  bucket : Nat := 0
  rem : Nat := 0
  per : Nat := 0
  left : Nat := 0
  since : Nat := 65535
  stopAt : Option Nat := none
  count : Nat := 0
  wrap : Nat := 0
  backlog : Nat := 0
  dropped : Tbl Bool := []
  short : Bool := false
  offAt : Nat := 0
  overrun : Bool := false
  deriving DecidableEq, Repr

/-- Loop classes of R141. -/
inductive LoopClass where
  | open_ | closed | short | wire
  deriving DecidableEq, Repr

/-- A dual-channel input (R141 to R146): per channel the class, the steps it has lasted, and the debounced class; the discrepancy
timer in 250 µs steps, the latch, the steps of agreement, the accepted state. -/
structure Di where
  clsA : LoopClass := .open_
  clsB : LoopClass := .open_
  runA : Nat := 0
  runB : Nat := 0
  a : LoopClass := .open_
  b : LoopClass := .open_
  timer : Option Nat := none
  latched : Bool := false
  agree : Nat := 0
  clearReady : Bool := false
  state : Bool := false
  deriving DecidableEq, Repr

/-- What a checkpoint or the state save keeps (R133): registers, integrator contents per element (active, reactive), generators, input latches. -/
structure AccKept where
  mp : Tbl MpAcc := []
  integ : Tbl (Int × Int) := []
  pulse : Tbl PulseGen := []
  di : Tbl Di := []
  deriving DecidableEq, Repr

/-- Accumulation: metering points, generators, inputs, presets applied at the current boundary (R131), what MRAM keeps and whether a completed state save wrote it. -/
structure Acc where
  mp : Tbl MpAcc := []
  pulse : Tbl PulseGen := []
  di : Tbl Di := []
  presets : List Nat := []
  kept : AccKept := {}
  keptBySave : Bool := true
  deriving DecidableEq, Repr
/-! ### Tiles, bonds, footing (06) -/

/-- Tile states of R149 in the order of R171. -/
inductive TileState where
  | active | warm | cold | joining | fenced | testing | failed
  deriving DecidableEq, Repr

/-- Tile roles of R149 in the order of R171. -/
inductive TileRole where
  | metrology | ledger | grout | none
  deriving DecidableEq, Repr

/-- Where an ACTIVE ledger tile goes at its next task boundary (R168): into a bond, to the grout pool, off, or gated. -/
inductive Leave where
  | toBond | toGrout | toCold | toGate
  deriving DecidableEq, Repr

/-- One tile: role, state, course, marks, RC counts per bay, the times of its fences within a day (R160), and the sample index at which it was fenced
while it waits for its test or is in it (`none`: a test after ISLAND_POWER, R170). -/
structure Tile where
  role : TileRole := .metrology
  st : TileState := .active
  course : Option Nat := none
  kilnFail : Bool := false
  converted : Bool := false
  leave : Option Leave := none
  transients : Tbl Nat := []
  fences : Tbl Nat := []
  times : List Nat := []
  fencedAt : Option Nat := none
  deriving DecidableEq, Repr

/-- Bond states of R172. -/
inductive BondState where
  | off | triplex | substituting | duplex | footing | rebuilding
  deriving DecidableEq, Repr

/-- A substitution in progress (R158): the joining tile, s_d, s_c, s_j, whether the wardens voted, whether the image is frozen and has
arrived. -/
structure Subst where
  tile : Nat
  sd : Nat
  sc : Nat
  sj : Nat
  voted : Bool
  frozen : Bool
  image : Bool
  deriving DecidableEq, Repr

/-- A course's bond and footing unit: members, tiles allocated to the course, the substitution, footing-unit failure, CHECK_FAIL per bay,
LATCHED and the system times of the falls (R165), the failing-window run of R163 (length, its first sample index and the one after its last), the rebuild (the index at which every member is prepared, at
start without a boundary, b). -/
structure Bond where
  st : BondState := .off
  members : List Nat := []
  alloc : List Nat := []
  sub : Option Subst := none
  footFail : Bool := false
  checkFail : Tbl Bool := []
  latched : Bool := false
  falls : List Nat := []
  failRun : Nat := 0
  runFrom : Option Nat := none
  runTo : Nat := 0
  readyAt : Nat := 0
  atStart : Bool := false
  rebuildAt : Option Nat := none
  deriving DecidableEq, Repr

/-- A run of sample indexes counted alike (R174): the first, how many, and per enabled course its bucket and the one it would take with increments from a bond
of three. -/
structure AvRun where
  first : Nat
  count : Nat
  course : List (Nat × Nat × Nat)
  deriving DecidableEq, Repr

/-- Tiles, bonds, the availability counters (R174), the buckets they were counted in, newest run first, and what MRAM keeps of the counters. -/
structure Tiles where
  tile : Tbl Tile := []
  bond : Tbl Bond := []
  av : Avail := {}
  runs : List AvRun := []
  avKept : Avail := {}
  deriving DecidableEq, Repr
/-! ### Auxiliary converters and calibration (07) -/

/-- What an accumulator slot runs with since its latest enabling or cut: item values of R183. -/
structure SlotCfg where
  run : Bool := false
  input : Nat := 0
  conv : Nat := 0
  weight : Nat := 1
  period : Nat := 78125
  ratio : Bool := false
  deriving DecidableEq, Repr

/-- One corrected code (R180) and its stamp in elapsed ns; `clip` when it was clamped. -/
structure Code where
  at_ : Nat
  c : Int
  clip : Bool
  deriving DecidableEq, Repr

/-- One accumulator slot (R183 to R186): the configuration that runs, the period in progress (start in elapsed ns, count, sums,
FLAGS gathered, codes past its end), where a swap cuts it, the latest result and the min/max tracker. -/
structure Slot where
  cfg : SlotCfg := {}
  start : Nat := 0
  count : Nat := 0
  sum : Int := 0
  sumsq : Nat := 0
  acc : BitVec 16 := 0
  later : List Code := []
  cutAt : Option Nat := none
  endTime : Nat := 0
  rCount : Nat := 0
  mean : Int := 0
  rms : Nat := 0
  rSum : Int := 0
  rSumsq : Nat := 0
  flags : BitVec 16 := 1
  periods : Nat := 0
  min_ : Int := 32767
  max_ : Int := -32768
  deriving DecidableEq, Repr

/-- One window comparator (R188): the runs of alarming and releasing conversions, and the changes decided that wait for their rows, oldest first: the level
and the stamp (sample index, system time) of the deciding conversion. -/
structure WinComp where
  alarmRun : Nat := 0
  relRun : Nat := 0
  changes : List (Bool × Nat × Nat) := []
  deriving DecidableEq, Repr

/-- One urgent request (R189): the queue that awaits it, INPUT, RATIO, COUNT, and the start of its burst in elapsed ns. -/
structure Urg where
  queue : Nat
  input : Nat
  ratio : Bool
  count : Nat
  start : Option Nat
  deriving DecidableEq, Repr

/-- Who started a self-calibration run (R191): a held command's queue, the kiln or a device calibration. -/
inductive SelfBy where
  | host (queue : Nat) | kiln | cal
  deriving DecidableEq, Repr

/-- The converter factors of R190. -/
structure Factors where
  ofs0 : Int := 0
  ofs1 : Int := 0
  gain0 : Nat := 0x40000000
  gain1 : Nat := 0x40000000
  ref : Nat := 0x40000000
  skew : Int := 0
  deriving DecidableEq, Repr

/-- A reference step in progress (R194, R195): RPREC, or statistics with the windows so far, newest first, as (u_n in µV, included). -/
inductive RefStep where
  | rprec
  | stat (wins : List (Nat × Bool))
  deriving DecidableEq, Repr

/-- The auxiliary converter block: factors and ACB_CAL_STATUS (R190), the run of R191 (1: SAR0 out, 2: SAR1 out, 3: both) with the
factors to go back to, the device calibration (R192 to R196), CAL_COUNT and CAL_LAST_TIME (R197, kept in MRAM), slots, comparators,
urgent requests and the latest bursts (start, end) by converter, converter faults with their runs (R198); `touches` are the spans of sample indexes at
which a conversion of the statistics step was displaced or skipped (R195). -/
structure Aux where
  fac : Factors := {}
  selfValid : Bool := false
  selfStep : Nat := 0
  selfStart : Nat := 0
  selfBy : SelfBy := .kiln
  selfPrev : Factors := {}
  selfBad : Bool := false
  refSource : Nat := 0
  mode : Bool := false
  tLast : Int := 0
  ts2 : Option Int := none
  ts2At : Nat := 0
  calBusy : Bool := false
  calT : Int := 0
  calAt : Option Nat := none
  calDelayed : Bool := false
  step : Option RefStep := none
  stepAt : Nat := 0
  touches : List (Nat × Nat) := []
  calCount : Nat := 0
  calLast : Nat := 0
  slot : Tbl Slot := []
  wc : Tbl WinComp := []
  urgent : Tbl (List Urg) := []
  bursts : Tbl (List (Nat × Nat)) := []
  fault : Tbl Bool := []
  checkAt : Tbl Nat := []
  failRun : Tbl Nat := []
  passRun : Tbl Nat := []
  deriving DecidableEq, Repr

/-! ### Billing (09) -/

/-- Prepayment states of R252, in its order. -/
inductive Prepay where
  | normal | low | ecOffered | ecInUse | exhausted
  deriving DecidableEq, Repr

/-- Commanded supply states of R254, in the order of R255. -/
inductive Supplied where
  | closed | open_ | armed
  deriving DecidableEq, Repr

/-- One load-profile record (R241). -/
structure ProfRec where
  endTime : Nat
  endIndex : Nat
  duration : Nat
  status : Nat
  rate : Nat
  mp : Nat
  seq : Nat
  values : List Nat
  deriving DecidableEq, Repr

/-- A stored billing period of one metering point (R250). -/
structure Stored where
  mp : Nat
  rate : Tbl Reg
  reg : Tbl Reg
  maxD : Tbl (Nat × Nat)
  lastD : Nat × Nat
  credit : Int
  deriving DecidableEq, Repr

/-- An interval end that its transfers await (R123, R240, R241): sample index, system time, whether it was valid, STATUS of the interval, whether a profile interval, a
demand subperiod or both end there, and whether a billing period closes there (R250). -/
structure ProfEnd where
  index : Nat
  ns : Nat
  valid : Bool
  status : Nat
  prof : Bool
  sub : Bool
  reset : Bool := false
  deriving DecidableEq, Repr

/-- Billing of one metering point: rates (the one in force, the calendar's and the sample index it came at), rate registers by 8 × k + r, demand per direction (energy of the running and the earlier
subperiods in 2^-64 mWh with their sample periods, maxima by 8 × direction + r with capture time, last values), profile interval (start, register values at its
start, STATUS gathered, the ends not carried out), prepayment and supply (R251 to R255). -/
structure BillMp where
  rate : Nat := 0
  rateNext : Nat := 0
  rateAt : Nat := 0
  lastRate : Nat := 0
  rreg : Tbl Reg := []
  subE : Nat × Nat := (0, 0)
  subFrom : Nat := 0
  hist : List (Nat × Nat × Nat) := []
  maxD : Tbl (Nat × Nat) := []
  lastD : Nat × Nat := (0, 0)
  profFrom : Nat := 0
  profBase : List Nat := []
  profStatus : Nat := 0
  profSeq : Nat := 0
  ends : List ProfEnd := []
  ring : List ProfRec := []
  credit : Int := 0
  debt : Nat := 0
  prepay : Prepay := .normal
  ecTaken : Bool := false
  ecAccepted : Bool := false
  demandOpen : Bool := false
  deferred : Bool := false
  hostDisc : Bool := false
  supply : Supplied := .closed
  txn : List Nat := []
  deriving DecidableEq, Repr

/-- Billing: metering points, calendars, the sample index of the latest exchange of them with the image in force before, the pending acts (R249, R250), grid intervals done, stored periods (newest first, one
list entry per period), the legal values (R259), the seal display (R260, R261), what MRAM keeps (R133) and the CREDIT records after it; `older` is the checkpoint before it, of
accumulation, billing and availability, with the CREDIT records between the two (R443). -/
structure Bill where
  mp : Tbl BillMp := []
  kept : Tbl BillMp := []
  active : Bytes := []
  passive : Bytes := []
  before : Option (Nat × Bytes) := none
  actAt : Option Nat := none
  resetAt : Option Nat := none
  profGrid : Nat := 0
  subGrid : Nat := 0
  day : Nat := 0
  stored : List (List Stored) := []
  lcv : Bytes := []
  legal : Nat := 0
  calAct : Bool := false
  credits : List (Nat × Nat × Nat) := []
  older : AccKept × Tbl BillMp × Avail × List (Nat × Nat × Nat) := ({}, [], {}, [])
  dEntry : Nat := 0
  dLine : Nat := 0
  dSince : Nat := 0
  dSent : Nat := 0
  frames : List Bytes := []
  sealBusy : Bool := false
  deriving DecidableEq, Repr
/-! ### Power-line port (10) -/

/-- What an exchange or broadcast in progress carries (R272). -/
inductive PKind where
  | poll (select : Nat)
  | latchPoll (snap : Nat)
  | confirm (identity : Nat)
  | push (job : Nat)
  deriving DecidableEq, Repr

/-- An exchange in progress: its address, the slot it started in, the slots of its message and of the answer, its mode. -/
structure PExch where
  kind : PKind
  addr : Nat
  start : Nat
  down : Nat
  up : Nat
  robust : Bool
  deriving DecidableEq, Repr

/-- A CONFIRM of a round: identity, address, attempts used, done, and of a radio meter the port and rank of its ANSWER. -/
structure Confirm where
  identity : Nat
  addr : Nat
  tries : Nat
  done : Bool
  port : Nat := 0
  at_ : Nat := 0
  rank : Nat := 0xFF
  deriving DecidableEq, Repr

/-- An open search round (R277): number, window, the slot of SEARCH, what each answer slot held (`none`: garbled), the confirm phase. -/
structure SearchRound where
  w : Nat
  s0 : Nat
  answers : List (Nat × Option Nat) := []
  confirming : Bool := false
  confirms : List Confirm := []
  deriving DecidableEq, Repr

/-- A LATCH pending (R283): snapshot, the slot number of g_k, frames sent and the slot of the last one. -/
structure LatchJob where
  snap : Nat
  gk : Nat
  sent : Nat
  last : Nat
  deriving DecidableEq, Repr

/-- A message the port sent: slot, TYPE, address, body without trailer, mode, CTR (0 on an unsecured one), and whether it was
cut (R285). -/
structure PFrame where
  slot : Nat
  type : Nat
  addr : Nat
  body : Bytes
  robust : Bool
  ctr : Nat := 0
  cut : Bool := false
  deriving DecidableEq, Repr

/-- The power-line port: the level in force (`lev`: 2 full, 1 reduced, 0 off) and the one VIN asks for (`vin`, R264), PLC_STATUS conditions and the values PLC_STATUS reports (R273), the grid (R266: slot number, crossing instant and
direction, the last crossings, the runs), the exchange in progress and the slot until which a broadcast occupies the port, search, latches,
polls due and repeats due (R274, R275), the poll cycle, quarantined addresses with the elapsed time of their last frame (R279),
the runs of R285 (`cuts`: consecutive frames cut), counters and keys (R271), frames sent (newest first). -/
structure Plc where
  lev : Nat := 2
  openCoupling : Bool := false
  lineShort : Bool := false
  zcFault : Bool := false
  rxFault : Bool := false
  noiseHigh : Bool := false
  tableFull : Bool := false
  overrun : Bool := false
  freqHold : Bool := false
  lineZ : Nat := 0
  noise : Nat := 0
  slotUse : Nat := 0
  slotN : Nat := 0
  gNs : Nat := 0
  gRising : Bool := false
  crossings : List (Nat × Nat × Bool) := []
  zcBad : Nat := 0
  zcGood : Nat := 0
  exch : Option PExch := none
  busyUntil : Nat := 0
  used : Nat := 0
  slots : Nat := 0
  round : Option SearchRound := none
  roundNum : Nat := 0
  nextW : Nat := 0
  lastRound : Option Nat := none
  roundReq : Option Nat := none
  latchQ : List LatchJob := []
  dueQ : List Nat := []
  repQ : List Nat := []
  cycle : Nat := 0
  quar : List (Nat × Nat) := []
  zHigh : Nat := 0
  zLow : Nat := 0
  testAt : Nat := 0
  cuts : Nat := 0
  rxMiss : Nat := 0
  rxHit : Nat := 0
  vin : Nat := 2
  bcastCtr : Nat := 0
  bcastKey : Bytes := []
  bcastNext : Option (Bytes × Nat) := none
  sent : List PFrame := []
  deriving DecidableEq, Repr

/-! ### Radio (11) -/

/-- A frame handed to a transceiver or buffered for a child (R292): FINAL, TYPE, TTL, END_RANK, body without the trailer, CTR of R271 (0 on an unsecured one), the
number of its message, and of one sent unicast to a child its Frame Pending (R303). -/
structure RFrame where
  final : Nat
  type : Nat
  ttl : Nat
  endRank : Nat
  body : Bytes
  ctr : Nat := 0
  msg : Nat := 0
  pending : Option Bool := none
  deriving DecidableEq, Repr

/-- A transmission (R291, R294): port, link frame counter, security level, KEY_INDEX and the frame. -/
structure RSent where
  port : Nat
  counter : Nat
  level : Nat
  key : Nat
  frame : RFrame
  deriving DecidableEq, Repr

/-- A radio packet port (R288, R289, R304): status, RESETS per bay, the response awaited (operation, since), failures, times of the
resets and of the latest STATUS and retry, the outcomes of the last 60 s, frames waiting, the payload of the latest CONFIG. -/
structure RPort where
  started : Bool := false
  running : Bool := false
  fault : Bool := false
  busyHigh : Bool := false
  resets : Tbl Nat := []
  rssi : Nat := 0x80
  awaits : Option (Nat × Nat) := none
  seq : Nat := 0
  crcFails : Nat := 0
  resetTimes : List Nat := []
  statusAt : Nat := 0
  retryAt : Nat := 0
  tx : List (Nat × Bool) := []
  queue : List RFrame := []
  reconfig : Bool := false
  config : Bytes := []
  deriving DecidableEq, Repr

/-- A radio join round (R300): the ends of its window and of the round, the ANSWERs seen (identity, ORIGIN_SEQ), its CONFIRMs. -/
structure JoinRound where
  windowEnd : Nat
  answers : List (Nat × Nat) := []
  confirms : List Confirm := []
  deriving DecidableEq, Repr

/-- A child entry of the leaf (R302): long address, last SLEEPY frame, buffered frames with their arrival. -/
structure Child where
  addr : Nat
  heard : Nat
  frames : List (Nat × RFrame) := []
  deriving DecidableEq, Repr

/-- The radio: ports, the join round, polling, network keys, KEY_NEW and the first ADVERT that carried it (R294, elapsed ns), the transmit counter (R296), the number of the latest message,
neighbour table (address, counter, last heard) and what the latest state save kept of it, seen cache (R299), children, frames sent (newest first). -/
structure Radio where
  port : Tbl RPort := []
  join : Option JoinRound := none
  lastJoin : Option Nat := none
  roundNum : Nat := 0
  overrun : Bool := false
  tableFull : Bool := false
  cycle : Nat := 0
  dueQ : List Nat := []
  repQ : List Nat := []
  keyIndex : Nat := 0
  keys : Tbl Bytes := []
  keyNew : Bool := false
  txCtr : Nat := 0
  neigh : List (Nat × Nat × Nat) := []
  neighSaved : List (Nat × Nat × Nat) := []
  seen : List (Nat × Nat × Nat) := []
  child : List Child := []
  childFull : Bool := false
  advertAt : Nat := 0
  keyAdv : Option Nat := none
  msgN : Nat := 0
  sent : List RSent := []
  deriving DecidableEq, Repr

/-! ### Ledger (12) -/

/-- A confirmed meter at the leaf, by local address (R308): presence, modes and runs (R275, R276), CTR per direction (R271), the poll cycle's
attempts, the repeat that waits, what the radio knows of it (R298, R301), the latest reading, the LATCH_POLL that waits (R284), the END of the latest reading the
root has acknowledged and the one the latest state save kept (R469). -/
structure LeafMeter where
  identity : Nat
  present : Bool := true
  robust : Bool := false
  misses : Nat := 0
  attempts : Nat := 0
  served : Bool := false
  repeatAt : Option Nat := none
  again : Option PKind := none
  lowRun : Nat := 0
  highRun : Nat := 0
  ctrUp : Nat := 0
  ctrDown : Nat := 0
  lastFrame : Nat := 0
  sleepy : Bool := false
  port : Nat := 0
  rank : Nat := 0
  waiting : Option Nat := none
  lastEnd : Nat := 0
  lastStatus : Nat := 0
  reg : List Nat := [0, 0, 0, 0]
  snap : Option Nat := none
  acked : Nat := 0
  savedEnd : Nat := 0
  deriving DecidableEq, Repr

/-- A meter key the leaf holds (KEY_GRANT, R326): identity, wrapped key, version, and the new key while a push of it runs (R346). -/
structure HeldKey where
  identity : Nat
  key : Bytes
  version : Nat
  new : Option (Bytes × Nat) := none
  deriving DecidableEq, Repr

/-- A commit-log entry (R319); `type` is 0 for a reading, 1 for an edit, 2 for a deprovision. -/
structure LogEnt where
  seq : Nat
  index : Nat
  vee : Nat
  type : Nat
  end_ : Nat
  identity : Nat
  reg : List Nat
  deriving DecidableEq, Repr

/-- What the root keeps of a source (R317): the contiguous committed SEQ and the SEQ values committed above it. -/
structure SrcSeq where
  base : Nat := 0
  above : List Nat := []
  deriving DecidableEq, Repr

/-- A snapshot command stored at a leaf (R331): T, LATE, the sample index at reception, the metering points latched. -/
structure LeafSnap where
  id : Nat
  t : Nat
  late : Bool
  at_ : Nat := 0
  step : Bool := false
  latched : List Nat := []
  plcDone : Bool := false
  deriving DecidableEq, Repr

/-- An entry of the balance table (R335) with its run count (R339). -/
structure Feeder where
  leaf : Nat
  mp : Nat
  alarmRuns : Nat
  epsF : Nat
  epsM : Nat
  pFix : Nat
  lossAtRef : Nat
  pRef : Nat
  lossU : Nat
  alarmFrac : Nat
  alarmMin : Nat
  run : Nat := 0
  deriving DecidableEq, Repr

/-- A push job as a leaf stages it (R343): blocks that have come, targets, what has been broadcast on each path, and whether a key of it came into force. -/
structure LeafJob where
  id : Nat
  kind : Nat
  total : Nat := 0
  version : Nat := 0
  activateAt : Nat := 0
  blocks : Tbl Bytes := []
  targets : List Target := []
  bcast : Nat := 0
  half : Bool := false
  active : Bool := false
  installed : Bool := false
  deriving DecidableEq, Repr

/-- An UP pallet a leaf keeps until it is acknowledged (R317). -/
structure SentPallet where
  seq : Nat
  entries : List Bytes
  last : Nat
  deriving DecidableEq, Repr

/-- A MIRROR pallet that awaits the standby's acknowledgement, the commit-log SEQ after its last entry, and the UP pallets whose ACK waits for it (R319). -/
structure MirrorWait where
  seq : Nat
  stop : Nat
  at_ : Nat
  acks : List (Nat × Nat)
  deriving DecidableEq, Repr

/-- The ledger engine: the leaf's meters, keys, locks, pallets and stored snapshots; records, commit log (newest first), sources, mirror (`mirrored` is the commit-log SEQ after the last entry acknowledged),
snapshots, feeders, balance results (newest first), jobs; queued work and refused classes (R321: Q1, Q2, Q3); `catchUp` is the interval end each meter is polled for after the
pallet buffer was full (R318), `ctrs` the counters of R271 (down, up) of identities that have no entry at the leaf. -/
structure Ledger where
  meter : Tbl (Option LeafMeter) := []
  keys : List HeldKey := []
  locked : List Nat := []
  openUp : List Bytes := []
  openSince : Nat := 0
  upSeq : Nat := 0
  sent : List SentPallet := []
  backWarn : Bool := false
  backFull : Bool := false
  leafSnaps : List LeafSnap := []
  footSince : List Nat := []
  leafJobs : List LeafJob := []
  recs : Tbl Rec := []
  log : List LogEnt := []
  logSeq : Nat := 0
  hostRead : Nat := 0
  src : Tbl SrcSeq := []
  downSeq : Nat := 0
  ackSeq : Nat := 0
  mirrorSeq : Nat := 0
  mirrored : Nat := 0
  mirrorBuf : List LogEnt := []
  mirrorWait : List MirrorWait := []
  downQ : List (Nat × Bytes) := []
  snaps : List Snap := []
  snapNext : Nat := 1
  lastAuto : Option Nat := none
  feeders : Tbl (Option Feeder) := []
  results : List Bytes := []
  jobs : List Job := []
  jobNext : Nat := 1
  queueUs : Nat := 0
  refused : BitVec 3 := 0
  catchUp : Tbl Nat := []
  ctrs : List (Nat × Nat × Nat) := []
  scoreDay : Nat := 0
  deriving DecidableEq, Repr

/-! ### Mortar link (13) -/

/-- STATE codes of MORTAR_STATUS (R371). -/
inductive MState where
  | alone | joining | member | root | fenced
  deriving DecidableEq, Repr

/-- A link unit on its way (R353): kind, class, source, destination, SEQ and its payload as a command packet or
a pallet. -/
inductive UnitBody where
  | pallet (p : Pallet)
  | command (code : Nat) (p : Packet)
  | reply (r : Reply)
  deriving DecidableEq, Repr

/-- A frame or unit handed to a lane's transmitter (what the partner would see). -/
inductive LaneTx where
  | hello (devId role hops epoch rootId activeUp rootSeq flags lane : Nat)
  | timeReq (seq : Nat)
  | timeResp (seq t2 t3 : Nat)
  | unit (cls src dest seq : Nat) (body : UnitBody)
  | ret (src kind reason seq : Nat)
  | join (step dev epoch : Nat) (nonce : Bytes) (identity : Nat) (mac : Bytes)
  | below (seq part : Nat) (last : Bool) (ids : List Nat)
  deriving DecidableEq, Repr

/-- One mortar lane (R352 to R355, R364, R371). `peer…` is the partner's latest HELLO, `reqT1` the stamp of the TIME_REQ that waits, `sent` what the transmitter got, newest first. -/
structure Lane where
  trained : Bool := false
  training : Bool := false
  up : Bool := false
  polInv : Bool := false
  hellos : Nat := 0
  lastHello : Nat := 0
  peerId : Nat := 0xFFFF
  peerRole : Nat := 0
  peerHops : Nat := 0xFF
  peerEpoch : Nat := 0
  peerRootId : Nat := 0
  peerUp : Nat := 0xFFFF
  peerFlags : Nat := 0
  peerRootSeq : Nat := 0
  rootHeardAt : Option Nat := none
  exchanges : List Nat := []
  linkDelay : Nat := 0
  delays : List Int := []
  errors : Nat := 0
  errTimes : List Nat := []
  retrains : Tbl Nat := []
  everLost : Bool := false
  below : List Nat := []
  belowSeq : Option Nat := none
  belowParts : List (Nat × Bool × List Nat) := []
  segs : List Segment := []
  reqSeq : Nat := 0
  reqT1 : Option Nat := none
  sent : List LaneTx := []
  deriving DecidableEq, Repr

/-- The device's place in the mortar link (R354 to R372). `takeover` is TAKEOVER of its epoch, `offered` the epoch of the OFFER it confirmed and
when, `offers` the root's open OFFERs with their NONCE, `held` units that wait for a newer epoch, `handover` a handover that waits for the
standby, with the queue of the command. -/
structure Mortar where
  stt : MState := .alone
  hops : Nat := 0xFF
  epoch : Nat := 0
  rootId : Nat := 0
  activeUp : Option Nat := none
  rootSeq : Nat := 0
  takeover : Bool := false
  lane : Tbl Lane := []
  belowSeq : Nat := 0
  mySeq : Nat := 0
  cmdSeq : Tbl (List Nat) := []
  table : Tbl (Option DevEntry) := []
  offers : Tbl (Option (Nat × Bytes)) := []
  joinNonce : Bytes := []
  joinAt : Nat := 0
  noPathSince : Option Nat := none
  dupUntil : Option Nat := none
  held : List (Nat × LaneTx) := []
  handover : Option (Option Nat) := none
  offered : Option (Nat × Nat) := none
  palletKeyOk : Bool := true
  deriving DecidableEq, Repr

/-! ### The block -/

/-- The state of the block.  `pending` is the model's own queue of commands that wait, first in first out;
`freeCount` the model's own counter that free values are drawn with (log 3). -/
structure State where
  pending : List Instr := []
  freeCount : Nat := 0
  time : TimeSt := {}
  rtc : Rtc := {}
  front : Front := {}
  metro : Metro := {}
  pq : Pq := {}
  acc : Acc := {}
  tiles : Tiles := {}
  aux : Aux := {}
  bill : Bill := {}
  plc : Plc := {}
  radio : Radio := {}
  ledger : Ledger := {}
  mortar : Mortar := {}
  host : HostSt := {}
  win : Win := {}
  ev : Ev := {}
  cfg : Cfg := {}
  store : Store := {}
  power : Power := {}
  kiln : Kiln := {}
  fault : FaultSt := {}
  pins : Pins := {}
  deriving DecidableEq, Repr

/-- The block right after reset: every field at the value the spec states for reset, and where it states none at
the value log 2 names; the queue of commands is empty. -/
def State.reset : State := {}

end Sys2Proof.Machine
end

