-- ==== Sys2Proof/Machine/Operands.lean ====
section
/-! DEFINITION. Operand forms: sparse tables, little-endian fields (R3), fixed point (R4), rounding, the
CRCs of R376 and R288, BCD, packets as byte strings (R376). -/

namespace Sys2Proof.Machine

/-! ### Sparse tables -/

/-- The value a table holds for a key; `d` is what an unlisted key reads as. -/
def Tbl.get {α : Type} (d : α) : Tbl α → Nat → α
  | [], _ => d
  | (k, v) :: t, n => if k = n then v else Tbl.get d t n

/-- The table without an entry for a key. -/
def Tbl.erase {α : Type} : Tbl α → Nat → Tbl α
  | [], _ => []
  | (k, v) :: t, n => if k = n then t else (k, v) :: Tbl.erase t n

/-- The table with an entry put in its place, replacing the one of the same key. -/
def Tbl.insert {α : Type} : Tbl α → Nat → α → Tbl α
  | [], n, a => [(n, a)]
  | (k, v) :: t, n, a =>
    if n < k then (n, a) :: (k, v) :: t
    else if n = k then (n, a) :: t
    else (k, v) :: Tbl.insert t n a

/-- Store a value; storing what an unlisted key reads as removes the entry. -/
def Tbl.set {α : Type} [DecidableEq α] (d : α) (t : Tbl α) (n : Nat) (a : α) : Tbl α :=
  if a = d then Tbl.erase t n else Tbl.insert t n a

/-- Change the value of a key. -/
def Tbl.upd {α : Type} [DecidableEq α] (d : α) (t : Tbl α) (n : Nat) (f : α → α) : Tbl α :=
  Tbl.set d t n (f (Tbl.get d t n))

/-- Change every listed value, keeping the canonical form. -/
def Tbl.mapV {α : Type} [DecidableEq α] (d : α) (f : α → α) (t : Tbl α) : Tbl α :=
  t.foldl (fun r e => Tbl.set d r e.1 (f e.2)) []

/-- The canonical form: keys strictly rising, no entry equal to the default. -/
abbrev Tbl.wf {α : Type} [DecidableEq α] (d : α) (t : Tbl α) : Prop :=
  t.Pairwise (fun a b => a.1 < b.1) ∧ ∀ e ∈ t, e.2 ≠ d

/-! ### Bytes and fields -/

/-- `n` little-endian bytes of a number (R3). -/
def leBytes : Nat → Nat → Bytes
  | 0, _ => []
  | n + 1, v => BitVec.ofNat 8 v :: leBytes n (v / 256)

/-- The number of a little-endian byte string (R3). -/
def leNat : Bytes → Nat
  | [] => 0
  | b :: t => b.toNat + 256 * leNat t

/-- `n` bytes from offset `o`, the bytes past the end read as 0. -/
def slice (bs : Bytes) (o n : Nat) : Bytes :=
  let t := (bs.drop o).take n
  t ++ List.replicate (n - t.length) 0

/-- The unsigned field of `n` bytes at offset `o`. -/
def fld (bs : Bytes) (o n : Nat) : Nat := leNat (slice bs o n)

/-- The signed field of `n` bytes at offset `o`. -/
def sfld (bs : Bytes) (o n : Nat) : Int := signedOf (8 * n) (fld bs o n)

/-- `n` little-endian bytes of a signed number. -/
def leInt (n : Nat) (i : Int) : Bytes := leBytes n (unsignedOf (8 * n) i)

/-- `n` zero bytes. -/
def zeros (n : Nat) : Bytes := List.replicate n 0

/-- A byte string cut or zero-padded to `n` bytes. -/
def fitBytes (n : Nat) (bs : Bytes) : Bytes := slice bs 0 n

/-- Zero-padded to a multiple of 8. -/
def pad8 (bs : Bytes) : Bytes := bs ++ zeros ((8 - bs.length % 8) % 8)

/-- Are the `n` bytes at offset `o` all 0? -/
def allZero (bs : Bytes) (o n : Nat) : Bool := ((bs.drop o).take n).all (· == 0)

/-- The number a list of bits stands for, lowest bit first. -/
def bitsNat : List Bool → Nat
  | [] => 0
  | b :: t => b.toNat + 2 * bitsNat t

/-- The bytes of a map of bits, `n` bytes, bit `i` of the map in byte `i / 8` (R416). -/
def mapBytes {w : Nat} (n : Nat) (m : BitVec w) : Bytes := leBytes n m.toNat

/-! ### Rounding and fixed point -/

/-- Division rounded to nearest, ties to even (log 6), of an integer by a positive number. -/
def roundDiv (a : Int) (b : Nat) : Int :=
  let q := a.ediv b
  let r := a - q * b
  if 2 * r < b then q else if 2 * r > b then q + 1 else if q % 2 = 0 then q else q + 1

/-- Division rounded toward zero. -/
def truncDiv (a : Int) (b : Nat) : Int := a.tdiv b

/-- Integer ceiling of a quotient. -/
def ceilDiv (a b : Nat) : Nat := (a + b - 1) / b

/-- Saturation of an integer to a signed width. -/
def satS (bits : Nat) (i : Int) : Int := max (-(2 ^ (bits - 1) : Int)) (min (2 ^ (bits - 1) - 1) i)

/-- Saturation of a natural to an unsigned width. -/
def satU (bits n : Nat) : Nat := min (2 ^ bits - 1) n

/-- Integer square root by bits, from bit `k` down: `r` is the root so far. -/
def isqrtAux (n : Nat) : Nat → Nat → Nat
  | 0, r => r
  | k + 1, r =>
    let c := r + 2 ^ k
    if c * c ≤ n then isqrtAux n k c else isqrtAux n k r

/-- The integer square root, rounded down (of a number below 2^512). -/
def isqrt (n : Nat) : Nat := isqrtAux n 256 0

/-- The square root rounded to nearest. -/
def isqrtRound (n : Nat) : Nat :=
  let r := isqrt n
  if n - r * r > r then r + 1 else r

/-! ### CRC -/

/-- One step of a reflected CRC register. -/
def crcBit {w : Nat} (poly : BitVec w) (c : BitVec w) : BitVec w :=
  if c.getLsbD 0 then (c >>> 1) ^^^ poly else c >>> 1

/-- One byte into a reflected CRC register. -/
def crcByte {w : Nat} (poly : BitVec w) (c : BitVec w) (b : Byte) : BitVec w :=
  let x := c ^^^ b.setWidth w
  crcBit poly (crcBit poly (crcBit poly (crcBit poly (crcBit poly (crcBit poly (crcBit poly (crcBit poly x)))))))

/-- CRC-32C (Castagnoli) over a byte string (R376). -/
def crc32c (bs : Bytes) : BitVec 32 := ~~~ (bs.foldl (crcByte 0x82F63B78#32) 0xFFFFFFFF#32)

/-- One bit of the unreflected CRC-16 register. -/
def crc16Bit (c : BitVec 16) : BitVec 16 :=
  if c.getLsbD 15 then (c <<< 1) ^^^ 0x1021#16 else c <<< 1

/-- One byte into the CRC-16 register. -/
def crc16Byte (c : BitVec 16) (b : Byte) : BitVec 16 :=
  let x := c ^^^ (b.setWidth 16 <<< 8)
  crc16Bit (crc16Bit (crc16Bit (crc16Bit (crc16Bit (crc16Bit (crc16Bit (crc16Bit x)))))))

/-- The CRC-16 of R288: polynomial 0x1021, initial value 0xFFFF. -/
def crc16 (bs : Bytes) : BitVec 16 := bs.foldl crc16Byte 0xFFFF#16

/-! ### BCD (R223) -/

def bcdOf (n : Nat) : Nat := n / 10 % 10 * 16 + n % 10
def ofBcd (b : Nat) : Nat := b / 16 % 16 * 10 + b % 16
def bcdValid (b : Nat) : Bool := b / 16 % 16 ≤ 9 && b % 16 ≤ 9 && b < 256

/-! ### Roles and flags -/

/-- SYS.ROLE codes of R12. -/
def DevRole.code : DevRole → Nat
  | .leaf => 0 | .relay => 1 | .root => 2 | .standbyRoot => 3 | .analyser => 4

def DevRole.ofCode : Nat → DevRole
  | 1 => .relay | 2 => .root | 3 => .standbyRoot | 4 => .analyser | _ => .leaf

end Sys2Proof.Machine

namespace Sys2Proof

open Machine

/-- Role codes of R391. -/
def SessRole.code : SessRole → Nat
  | .anyone => 0 | .reader => 1 | .operator => 2 | .utility => 3 | .legal => 4 | .vendor => 5

def SessRole.ofCode : Nat → Option SessRole
  | 0 => some .anyone | 1 => some .reader | 2 => some .operator | 3 => some .utility
  | 4 => some .legal | 5 => some .vendor | _ => none

/-- R391: does a session's role meet a card's minimum of roles 0 to 3?  Legal meets Public and Reader,
Vendor Service meets Public. -/
def SessRole.meets (r min : SessRole) : Bool :=
  match r, min with
  | .legal, .anyone | .legal, .reader | .vendor, .anyone => true
  | .legal, .legal | .vendor, .vendor => true
  | .legal, _ | .vendor, _ | _, .legal | _, .vendor => false
  | a, b => decide (b.code ≤ a.code)

/-- The bay a session may act in by its role (R391). -/
def SessRole.bayOk (r : SessRole) (bay : Nat) : Bool :=
  match r with
  | .legal => bay == 0
  | .vendor => bay ≤ 1
  | _ => bay ≤ 7

/-- The end a transport names (R395). -/
def Transport.peer : Transport → Peer
  | .pcie fn _ _ => .pcie fn
  | .spi => .spi
  | .udp a p => .udp a p
  | .mortar d => .mortar d

def Peer.isPcie : Peer → Bool
  | .pcie _ => true
  | _ => false

def Transport.isUdp : Transport → Bool
  | .udp _ _ => true
  | _ => false

/-! ### Packets as byte strings (R376) -/

def Packet.flag (p : Packet) (i : Nat) : Bool := p.flags.getLsbD i
def Packet.isBulk (p : Packet) : Bool := p.flag 0
def Packet.quiet (p : Packet) : Bool := p.flag 1
def Packet.tagged (p : Packet) : Bool := p.flag 2
def Packet.cont (p : Packet) : Bool := p.flag 3
def Packet.more (p : Packet) : Bool := p.flag 4

/-- Bytes 0 to 27 of the header. -/
def Packet.head28 (code : Nat) (p : Packet) : Bytes :=
  leBytes 1 p.version ++ [p.flags] ++ leBytes 2 code ++ leBytes 4 p.tag ++ leBytes 1 p.bay ++ leBytes 1 p.queue
    ++ leBytes 2 p.session ++ leBytes 4 p.paramLen ++ leBytes 4 p.deadline ++ leBytes 2 p.target
    ++ leBytes 1 p.hopLimit ++ leBytes 3 p.reserved ++ leBytes 2 p.source

/-- The CRC of R376: over bytes 0 to 27 and the parameters, with the CRC field at 0. -/
def Packet.crcOf (code : Nat) (p : Packet) : BitVec 32 := crc32c (p.head28 code ++ zeros 4 ++ p.params)

/-- The whole packet as bytes. -/
def Packet.bytes (code : Nat) (p : Packet) : Bytes := p.head28 code ++ leBytes 4 p.crc.toNat ++ p.params

/-- Read a packet from bytes: OPCODE and the packet; `none` when it is shorter than a header. -/
def parsePacket (tr : Transport) (gcm : Bool) (bulk : Bytes) (bs : Bytes) : Option (Nat × Packet) :=
  if bs.length < 32 then none
  else some (fld bs 2 2,
    { transport := tr, version := fld bs 0 1, flags := BitVec.ofNat 8 (fld bs 1 1), tag := fld bs 4 4,
      bay := fld bs 8 1, queue := fld bs 9 1, session := fld bs 10 2, paramLen := fld bs 12 4,
      deadline := fld bs 16 4, target := fld bs 20 2, hopLimit := fld bs 22 1, reserved := fld bs 23 3,
      source := fld bs 26 2, crc := BitVec.ofNat 32 (fld bs 28 4), params := bs.drop 32, gcmOk := gcm,
      bulk := bulk })

/-- The bulk descriptor of R377. -/
structure BulkDesc where
  kind : Nat
  dir : Nat
  length : Nat
  address : Nat
  reservedOk : Bool
  deriving DecidableEq, Repr

/-- The descriptor of a BULK packet: the last 32 bytes of its parameters (R376). -/
def Packet.desc (p : Packet) : Option BulkDesc :=
  if p.isBulk && decide (32 ≤ p.params.length) then
    let d := p.params.drop (p.params.length - 32)
    some { kind := fld d 0 1, dir := fld d 1 1, length := fld d 4 4, address := fld d 8 8,
           reservedOk := allZero d 2 2 && allZero d 16 16 }
  else none

/-- The parameters without the bulk descriptor. -/
def Packet.inline (p : Packet) : Bytes :=
  if p.isBulk then p.params.take (p.params.length - 32) else p.params

end Sys2Proof

namespace Sys2Proof.Machine

/-- The header and status block of a reply as bytes (R378), followed by the result padded to 8. -/
def Reply.bytes (r : Reply) : Bytes :=
  let body := (if r.cont then [] else leBytes 2 r.status ++ leBytes 2 r.sub ++ leBytes 4 r.detail ++ leBytes 8 r.doneTime) ++ pad8 r.result
  let flags : Byte := (match r.peer with | .udp _ _ => 4 | _ => 0) + (if r.cont then 8 else 0) + (if r.more then 16 else 0)
  let h := leBytes 1 1 ++ [flags] ++ leBytes 2 (r.code + 0x8000) ++ leBytes 4 r.tag ++ leBytes 1 r.bay
    ++ leBytes 1 r.queue ++ leBytes 2 r.session ++ leBytes 4 body.length ++ leBytes 4 0
    ++ leBytes 2 r.target ++ leBytes 1 63 ++ zeros 3 ++ leBytes 2 r.source
  h ++ leBytes 4 (crc32c (h ++ zeros 4 ++ body)).toNat ++ body

/-- The keys of a list of natural numbers in ascending order, each once. -/
def insertSorted (x : Nat) : List Nat → List Nat
  | [] => [x]
  | y :: t => if x < y then x :: y :: t else if x = y then y :: t else y :: insertSorted x t

/-- Without one element. -/
def without {α : Type} [DecidableEq α] (x : α) (l : List α) : List α := l.filter (fun y => decide (y ≠ x))

end Sys2Proof.Machine
end

