-- ==== Sys2Proof/Machine/Angles.lean ====
section
/-! DEFINITION. Angles and magnitudes of phasors (R73, R75, R77): the manual gives formats and accuracy, not the
rounding of each angle (log 18). -/

namespace Sys2Proof.Machine

/-- atan(2^-i) in 2^-47 × 180°, i = 0 to 43. -/
def atanTable : List Int :=
  [35184372088832, 20770547670515, 10974586953444, 5570871696862,
    2796246208089, 1399486241028, 699913886760, 349978300884,
    174991820497, 87496244017, 43748163730, 21874087080,
    10937044192, 5468522177, 2734261099, 1367130551,
    683565276, 341782638, 170891319, 85445659,
    42722830, 21361415, 10680707, 5340354,
    2670177, 1335088, 667544, 333772,
    166886, 83443, 41722, 20861,
    10430, 5215, 2608, 1304,
    652, 326, 163, 81,
    41, 20, 10, 5]

/-- Rotate (x, y), x ≥ 0, onto the axis by the angles of a table from step i on; `a` is the angle so far. -/
def rotateDown : List Int → Nat → Int → Int → Int → Int
  | [], _, _, _, a => a
  | t :: r, i, x, y, a =>
    if y = 0 then a
    else if 0 < y then rotateDown r (i + 1) (x + y / 2 ^ i) (y - x / 2 ^ i) (a + t)
    else rotateDown r (i + 1) (x - y / 2 ^ i) (y + x / 2 ^ i) (a - t)

/-- Wrap an angle in 2^-31 × 180° to [-180°, 180°). -/
def wrapAngle (a : Int) : Int := signedOf 32 (unsignedOf 32 a)

/-- The angle of x + jy in 2^-31 × 180°, range [-180°, 180°); 0 for the zero vector. -/
def angleOf (x y : Int) : Int :=
  if x = 0 ∧ y = 0 then 0
  else
    let a := if x < 0 then rotateDown atanTable 0 (-x * 2 ^ 50) (-y * 2 ^ 50) (2 ^ 47)
      else rotateDown atanTable 0 (x * 2 ^ 50) (y * 2 ^ 50) 0
    wrapAngle (roundDiv a (2 ^ 16))

/-- A complex number of integers. -/
structure Cx where
  re : Int
  im : Int
  deriving DecidableEq, Repr

def Cx.zero : Cx := ⟨0, 0⟩
def Cx.add (a b : Cx) : Cx := ⟨a.re + b.re, a.im + b.im⟩
def Cx.neg (a : Cx) : Cx := ⟨-a.re, -a.im⟩
def Cx.smul (k : Int) (a : Cx) : Cx := ⟨k * a.re, k * a.im⟩
/-- |a|². -/
def Cx.sq (a : Cx) : Nat := (a.re * a.re + a.im * a.im).toNat

/-- √3 in 2^-64. -/
def sqrt3 : Int := isqrtRound (3 * 2 ^ 128)

/-- 2^65 × a × z with a = 1∠120° (R77). -/
def rotA (z : Cx) : Cx := ⟨-(2 ^ 64) * z.re - sqrt3 * z.im, -(2 ^ 64) * z.im + sqrt3 * z.re⟩

/-- 2^65 × a² × z. -/
def rotAA (z : Cx) : Cx := ⟨-(2 ^ 64) * z.re + sqrt3 * z.im, -(2 ^ 64) * z.im - sqrt3 * z.re⟩

/-- 3 × 2^65 times the zero, positive and negative sequence component (R77). -/
def seqComponents (a b c : Cx) : Cx × Cx × Cx :=
  let k := Cx.smul (2 ^ 65)
  ((k a).add ((k b).add (k c)), (k a).add ((rotA b).add (rotAA c)), (k a).add ((rotAA b).add (rotA c)))

/-- √(a / b) rounded to nearest. -/
def sqrtRatio (a b : Nat) : Nat := if b = 0 then 0 else (isqrt (4 * a / b) + 1) / 2

end Sys2Proof.Machine
end

