-- ==== Sys2Proof/Machine/Ops.lean ====
section
/-! DEFINITION. The named operations every command shares: keys in force, free values, per-reader counters, the event
router (R432, R433), fault classes (R495), READY bits (R490), and what other chapters ask of the state. -/

namespace Sys2Proof.Machine

/-! ### Keys in force -/

/-- The value of a key in a set (R435). -/
def KeySet.get (ks : KeySet) (id : Nat) : Nat := Tbl.get (keyBlank id) ks.vals id

/-- A set with a key written; the blank-set value is stored by no entry. -/
def KeySet.put (ks : KeySet) (id v : Nat) : KeySet :=
  { ks with vals := Tbl.set (keyBlank id) ks.vals id v }

/-- The signed value of a key in a set. -/
def KeySet.getS (ks : KeySet) (id : Nat) : Int :=
  signedOf (8 * (keyInfo id).elim 0 (·.size)) (ks.get id)

/-- A key of the active set. -/
def State.key (s : State) (id : Nat) : Nat := s.cfg.active.get id

/-- A signed key of the active set. -/
def State.keyS (s : State) (id : Nat) : Int := s.cfg.active.getS id

/-- A key of the active set that is 1. -/
def State.keyOn (s : State) (id : Nat) : Bool := s.key id == 1

/-! ### Free values (log 3) -/

/-- Draw the next free value. -/
def State.draw (s : State) : Nat × State := (Config.freeNat s.freeCount, { s with freeCount := s.freeCount + 1 })

/-- `n` bytes made of one free value. -/
def State.drawBytes (n : Nat) (s : State) : Bytes × State := (leBytes n s.draw.1, s.draw.2)

/-- A free signed value of `bits` bits. -/
def State.drawInt (bits : Nat) (s : State) : Int × State := (signedOf bits s.draw.1, s.draw.2)

/-! ### Counters kept for each reader -/

/-- Add `n` to the counters of readers 0 to 7, each modulo `m`. -/
def bumpAll (m n : Nat) (t : Tbl Nat) : Tbl Nat :=
  (List.range 8).foldl (fun t i => Tbl.upd 0 t i fun v => (v + n) % m) t

/-- Add `n` to the counters of readers 0 to 7, each saturating at `m`. -/
def bumpAllSat (m n : Nat) (t : Tbl Nat) : Tbl Nat :=
  (List.range 8).foldl (fun t i => Tbl.upd 0 t i fun v => min m (v + n)) t

/-! ### Window functions -/

def State.winFn (s : State) (f : Nat) : WinFn := Tbl.get {} s.win.fn f

def State.modWin (s : State) (f : Nat) (g : WinFn → WinFn) : State :=
  { s with win.fn := Tbl.upd {} s.win.fn f g }

/-- Change the copy of every window function. -/
def State.modAllWin (s : State) (g : WinFn → WinFn) : State :=
  (List.range 8).foldl (fun s f => s.modWin f g) s

/-! ### Events -/

/-- The vector range index of a source (R430). -/
def evRange (src : Nat) : Nat :=
  if src < 384 then 0 else if src < 512 then 1 else if src < 608 then 2 else if src < 640 then 3
  else if src < 672 then 4 else if src < 704 then 5 else if src < 776 then 6 else if src < 808 then 7
  else if src < 840 then 8 else if src < 904 then 9 else if src < 936 then 10 else if src < 968 then 11
  else if src < 1000 then 12 else 13

/-- The default map of a bay (R431). -/
def defaultMap (b : Nat) : BitVec 1024 :=
  if b = 0 then BitVec.allOnes 1024
  else if b = 1 then BitVec.allOnes 1024 &&& ~~~ (1#1024 <<< 1004)
  else 0

def State.evBay (s : State) (b : Nat) : EvBay := Tbl.get {} s.ev.bay b

def State.modEv (s : State) (b : Nat) (g : EvBay → EvBay) : State :=
  { s with ev.bay := Tbl.upd {} s.ev.bay b g }

/-- Word `i` of a function's MSI-X table; a vector is masked until its control word is written (PCIe, log 26). -/
def WinFn.msixWord (w : WinFn) (i : Nat) : Nat := Tbl.get (if i % 4 = 3 then 1 else 0) w.msix i

/-- Raise an MSI-X vector of a bay's PCIe function (R425); B0 has none.  A masked one becomes pending. -/
def State.raise (s : State) (b v : Nat) : State :=
  if 1 ≤ b ∧ b ≤ 7 then
    if (s.winFn (b - 1)).msixWord (4 * v + 3) % 2 = 1 then s.modWin (b - 1) fun w => { w with pba := w.pba ||| (1#64 <<< v) }
    else { s with ev.msi := (b - 1, v) :: s.ev.msi }
  else s

/-- Vector 32 of every function a live B0 session is bound to (R425). -/
def State.raiseB0 (s : State) : State :=
  (s.host.sess.filter (·.bay == 0)).foldl (fun (s : State) x => match x.peer with | .pcie fn => s.raise (fn.val + 1) 32 | _ => s) s

/-- The data a bay sees of a source: EV0968 to EV0970 read 0 from B2 to B7 (R431). -/
def evData (b src data : Nat) : Nat := if 2 ≤ b ∧ 968 ≤ src ∧ src ≤ 970 then 0 else data

/-- Put a record into a bay's event queue, or count a drop when it holds 4,096 (R433). -/
def State.evPut (s : State) (b : Nat) (r : EvRec) : State :=
  let q := s.evBay b
  if q.queue.length ≥ 4096 then
    (s.modEv b fun q => { q with drops := q.drops + 1, dropped := true }).raise b 30
  else
    let r' := { r with seq := q.seq, data := evData b r.source r.data }
    let rg := evRange r.source
    let s1 := s.modEv b fun q =>
      { q with queue := q.queue ++ [r'], seq := (q.seq + 1) % 2 ^ 32,
               rangeSeen := q.rangeSeen ||| (1#14 <<< rg) }
    let s1 := if b = 0 then s1.raiseB0 else s1
    if q.rangeSeen.getLsbD rg then s1 else s1.raise b (16 + rg)

/-- Is a source delivered to a bay (its map holds it; EV1004 to B0 only, R431)? -/
def State.subscribed (s : State) (b src : Nat) : Bool :=
  (s.evBay b).map.getLsbD src && (src != 1004 || b == 0)

/-- Place a record in the event queue of every bay whose map holds its source (R432). -/
def State.deliver (s : State) (r : EvRec) : State :=
  (List.range 8).foldl (fun s b => if s.subscribed b r.source then s.evPut b r else s) s

/-- R13, R15: a source whose function the running role leaves idle: measurement, inputs, pulse outputs and their points in RELAY, the
meter-facing ports outside LEAF, the mortar link and the ledger in ANALYSER.  It never asserts. -/
def sourceIdle (r : DevRole) (src : Nat) : Bool :=
  match r with
  | .leaf => false
  | .relay => src < 672 || (808 ≤ src && src < 840)
  | .root | .standbyRoot => 808 ≤ src && src < 840
  | .analyser => (776 ≤ src && src < 904) && src != 784 && src != 785

/-- Stamp and route an occurrence decided at a sample index and system time (R432); before K6 starts the router
holds it (R481). -/
def State.occurAt (s : State) (index time : Nat) (src : Nat) (kind : EvKind) (data : Nat) : State :=
  if sourceIdle s.kiln.role src then s else
  let r : EvRec :=
    { seq := 0, source := src, kind := kind, afterLoss := false, timeHold := s.time.holdover,
      timeInvalid := !s.time.valid, replay := !s.kiln.ph.k6, index := index,
      time := if s.time.valid then time / 1000 else 0, data := data % 2 ^ 64 }
  let s := { s with ev.last := (r :: s.ev.last).take 4096 }
  if s.kiln.ph.k6Open then s.deliver r else { s with ev.held := s.ev.held ++ [r] }

/-- System time now, in ns: the latest sample boundary and what the time base has counted since (R203, R206). -/
def State.nowNs (s : State) : Nat := s.time.ns + s.time.sub / 2 ^ 32

/-- An occurrence decided now. -/
def State.occur (s : State) (src : Nat) (kind : EvKind) (data : Nat) : State :=
  s.occurAt s.time.index s.nowNs src kind data

/-- A pulse. -/
def State.pulse (s : State) (src : Nat) (data : Nat := 0) : State := s.occur src .pulse data

/-- Is a level source asserted? -/
def State.asserted (s : State) (src : Nat) : Bool := (Tbl.get none s.ev.level src).isSome

/-- Bring a level source to a value at a given stamp: a record at each change. -/
def State.levelAt (s : State) (index time : Nat) (src : Nat) (on : Bool) (data : Nat := 0) : State :=
  if sourceIdle s.kiln.role src then s
  else if on then
    let s1 := { s with ev.level := Tbl.set none s.ev.level src (some data) }
    if s.asserted src then s1 else s1.occurAt index time src .assert data
  else
    if s.asserted src then
      ({ s with ev.level := Tbl.set none s.ev.level src none }).occurAt index time src .deassert data
    else s

/-- Bring a level source to a value. -/
def State.level (s : State) (src : Nat) (on : Bool) (data : Nat := 0) : State :=
  s.levelAt s.time.index s.nowNs src on data

/-! ### Fault classes (R495, R508) -/

/-- F0: corrected and counted. -/
def State.f0 (s : State) : State := s.modAllWin fun w => { w with count0 := (w.count0 + 1) % 2 ^ 32 }

/-- LAST_CAUSE holds the code of the latest decision that has one in the cause table (log 7). -/
def State.setCause (s : State) (cause : Nat) : State :=
  if cause = 0 then s else { s with fault.lastCause := cause }

/-- F1: counted, EV1008. -/
def State.f1 (s : State) (cause : Nat) : State :=
  ((s.modAllWin fun w => { w with count1 := (w.count1 + 1) % 2 ^ 32 }).setCause cause).pulse 1008 cause

/-- F2: counted, EV1009. -/
def State.f2 (s : State) (cause : Nat) : State :=
  ((s.modAllWin fun w => { w with count2 := (w.count2 + 1) % 2 ^ 32 }).setCause cause).pulse 1009 cause

/-- Does the running role run courses, accumulators, power quality, pulse outputs, inputs and billing (R13)? -/
def State.meters (s : State) : Bool := s.kiln.role != .relay

/-! ### READY map (R490) -/

def State.ready (s : State) (i : Nat) : Bool := s.kiln.ready.getLsbD i

def State.setReady (s : State) (i : Nat) (v : Bool) : State :=
  { s with kiln.ready := if v then s.kiln.ready ||| (1#128 <<< i) else s.kiln.ready &&& ~~~ (1#128 <<< i) }

/-- PHASE of R480: the lowest phase that has not completed, 7 when K5 and K6 have. -/
def State.phase (s : State) : Nat :=
  if !s.kiln.ph.started then 0 else if !s.kiln.ph.k1 then 1 else if !s.kiln.ph.k2 then 2 else if !s.kiln.ph.k3 then 3
  else if !s.kiln.ph.k4 then 4 else if !s.kiln.ph.k5 then 5 else if !s.kiln.ph.k6 then 6 else 7

/-! ### Time -/

/-- 1 s in ns. -/
def second : Nat := 1000000000

/-- System time as replies and records report it: 0 while invalid. -/
def State.stampNs (s : State) : Nat := if s.time.valid then s.nowNs else 0

/-- Time moved to the boundary of sample index `x`, `sub` into it. -/
def State.timeAt (s : State) (x sub : Nat) : State :=
  let d : Int := ((x : Int) - s.time.index) * 15625
  { s with time.index := x, time.ns := ((s.time.ns : Int) + d).toNat, time.mono := ((s.time.mono : Int) + d).toNat, time.sub := sub }

/-- What `f` does, done at the boundary of sample index `x`. -/
def State.atIndex (s : State) (x : Nat) (f : State → State) : State := (f (s.timeAt x 0)).timeAt s.time.index s.time.sub

/-! ### Courses, voltage sets, metering points -/

def courseEnabled (ks : KeySet) (k : Nat) : Bool := ks.get (kCourse k 0) == 1
def vsEnabled (ks : KeySet) (v : Nat) : Bool := ks.get (kVs v 0) == 1
def mpEnabled (ks : KeySet) (m : Nat) : Bool := ks.get (kMp m 0) == 1

/-- The channels a voltage set names: U1, U2, U3, UN, `none` where absent (R59, R60). -/
def vsChannels (ks : KeySet) (v : Nat) : List (Option Nat) :=
  [2, 3, 4, 5].map fun i => let c := ks.get (kVs v i); if c < 48 then some c else none

/-- The channels a metering point names: I1, I2, I3, IN (R59, R61). -/
def mpChannels (ks : KeySet) (m : Nat) : List (Option Nat) :=
  [3, 4, 5, 6].map fun i => let c := ks.get (kMp m i); if c < 48 then some c else none

/-- The course of a channel (eight channels each, R26). -/
def courseOf (c : Nat) : Nat := c / 8

def vsCourse (ks : KeySet) (v : Nat) : Option Nat := ((vsChannels ks v).filterMap id).head?.map courseOf
def mpCourse (ks : KeySet) (m : Nat) : Option Nat := ((mpChannels ks m).filterMap id).head?.map courseOf

/-! ### Storage journal (R450) -/

/-- Do writes to a partition (R454: 0 profiles, 1 configuration, 2 keys and seal state, 3 journal and logs) land: it is not read-only, or its overflow in flash
takes them (R446)? -/
def State.writable (s : State) (part : Nat) : Bool := !s.store.ro.contains part || s.store.flashPresent

/-- Is a journal record needed still: a START or an INTENT without its DONE (R450)? -/
def JRec.live (l : List JRec) (r : JRec) : Bool :=
  (r.type == 1 || r.type == 3 || r.type == 6) && !l.any fun d => d.type == r.type + 1 && (d.info.head? == some r.seq || r.type == 6)

/-- The journal ring with its oldest freed record gone, when it is full (R450). -/
def journalRoom (l : List JRec) : List JRec :=
  if l.length < 32768 then l else match l.reverse.find? (fun r => !JRec.live l r) with
    | some r => l.filter fun x => x.seq != r.seq
    | none => l

/-- Append a storage journal record; SEQ increases and is never reused.  A journal that cannot be written loses it (R446). -/
def State.journalAdd (s : State) (type medium address length : Nat) (info : List Nat) : State :=
  if !s.writable 3 then s else
  let r : JRec := { seq := s.store.journalSeq, type := type, medium := medium, address := address, length := length, info := info }
  { s with store.journal := r :: journalRoom s.store.journal, store.journalSeq := s.store.journalSeq + 1 }

/-! ### Bits of masks -/

/-- The positions below `n` whose bit is set in a mask. -/
def maskList (n mask : Nat) : List Nat := (List.range n).filter fun i => mask.testBit i

/-! ### QoS (R424) -/

/-- The blank QoS settings (R424). -/
def qosBlank (b : Nat) : Qos :=
  if b = 0 then ⟨0, 1000, 1000, 1000, 1000⟩ else if b = 1 then ⟨1, 1000, 1000, 1000, 1000⟩
  else ⟨3, 166, 166, 166, 166⟩

def State.qosOf (s : State) (b : Nat) : Qos := (Tbl.get none s.host.qos b).getD (qosBlank b)

/-! ### Mortar routing (R358) -/

def State.lane (s : State) (m : Nat) : Lane := Tbl.get {} s.mortar.lane m

def State.modLane (s : State) (m : Nat) (g : Lane → Lane) : State :=
  { s with mortar.lane := Tbl.upd {} s.mortar.lane m g }

/-- The lane mode in force: a mode the running role does not permit is held OFF (R357), and in ANALYSER all are. -/
def State.laneMode (s : State) (m : Nat) : Nat :=
  let md := s.key (kLane m 0)
  match s.kiln.role with
  | .analyser => 0
  | .root | .standbyRoot => if md = 1 then 0 else md
  | .leaf | .relay => if md = 3 then 0 else md

/-- The lanes of a mode that are UP. -/
def State.upLanes (s : State) (mode : Nat) : List Nat :=
  (List.range 4).filter fun m => s.laneMode m == mode && (s.lane m).up

/-- Where R358 sends a unit for another device: a lane, or `none` (UNREACHABLE).  Upstream only as a member (R360). -/
def State.route (s : State) (dest : Nat) : Option Nat :=
  match (s.upLanes 2 ++ s.upLanes 1).find? (fun m => (s.lane m).below.contains dest) with
  | some m => some m
  | none =>
    match s.mortar.stt with
    | .member => s.mortar.activeUp
    | _ => none

/-- Is the root attached and in charge? -/
def State.isRoot (s : State) : Bool := s.kiln.role == .root && s.mortar.stt == .root

/-- R388: a command unit of which neither end is the root is on its way to the root: its source is this device, or it came up a DOWN lane. -/
def State.rootward (s : State) (from_ : Option Nat) (src dest : Nat) : Bool :=
  !s.isRoot && src != s.mortar.rootId && dest != s.mortar.rootId && from_.all fun m => s.laneMode m == 2

/-- The lanes a command unit leaves on (R358, R388): toward the root; for every device, the DOWN lanes but the one it came by (the
root, which seals it again, sends it down all of them: log 48); else its route. -/
def State.unitLanes (s : State) (from_ : Option Nat) (src dest : Nat) : List Nat :=
  if s.rootward from_ src dest then (if s.mortar.stt = .member then s.mortar.activeUp.toList else [])
  else if dest = 1023 then (s.upLanes 2).filter fun m => s.isRoot || from_ != some m
  else (s.route dest).toList

/-- Hand a frame or unit to a lane's transmitter. -/
def State.laneSend (s : State) (m : Nat) (t : LaneTx) : State :=
  s.modLane m fun l => { l with sent := t :: l.sent }

/-- Hand a command or reply unit to the lanes it leaves on. -/
def State.unitSend (s : State) (lanes : List Nat) (u : LaneTx) : State := lanes.foldl (fun (s : State) m => s.laneSend m u) s

end Sys2Proof.Machine
end

