-- ==== Sys2Proof/Machine/Packets.lean ====
section
/-! DEFINITION. The command path (14, 15): status codes, opcode cards, the checks of R381 in their order, queues
(R390), replies (R378) on each transport, and the one operation every opcode row runs through. -/

namespace Sys2Proof.Machine

/-! ### Status and sub-status codes (R379, R380) -/

def stOk : Nat := 0x0000
def stAccepted : Nat := 0x0001
def stNotReady : Nat := 0x0100
def stBusy : Nat := 0x0101
def stRetry : Nat := 0x0102
def stCapacity : Nat := 0x0103
def stBadOpcode : Nat := 0x0200
def stBadParam : Nat := 0x0201
def stBadCrc : Nat := 0x0202
def stDenied : Nat := 0x0300
def stNoSession : Nat := 0x0301
def stAuthFail : Nat := 0x0302
def stLockedOut : Nat := 0x0303
def stDeadline : Nat := 0x0400
def stUnreachable : Nat := 0x0401
def stFault : Nat := 0x0500
def stDegraded : Nat := 0x0501

def subPinned : Nat := 0x0001
def subRole : Nat := 0x0002
def subRoleIdle : Nat := 0x0003
def subWrongBay : Nat := 0x0004
def subLegalKey : Nat := 0x0005
def subCas : Nat := 0x0006
def subNotAgreed : Nat := 0x0007
def subFactoryOnly : Nat := 0x0008
def subSourceActive : Nat := 0x0009
def subDuplicate : Nat := 0x000A
def subNotArmed : Nat := 0x000B
def subNotOffered : Nat := 0x000C
def subNotLocked : Nat := 0x000D
def subClone : Nat := 0x000E
def subExpired : Nat := 0x000F
def subTransport : Nat := 0x0010
def subFailures : Nat := 0x0011
def subVersion : Nat := 0x0100
def subLength : Nat := 0x0101
def subReserved : Nat := 0x0102
def subField : Nat := 0x0103
def subHopLimit : Nat := 0x0104
def subStream : Nat := 0x0105
def subQueueFull : Nat := 0x0200
def subSessionsFull : Nat := 0x0201
def subShed : Nat := 0x0202

/-- What a command answers: status, sub-status, DETAIL, result, and the data of a descriptor of DIR 1. -/
structure Res where
  status : Nat
  sub : Nat := 0
  detail : Nat := 0
  result : Bytes := []
  bulk : Bytes := []
  deriving DecidableEq, Repr

def Res.ok (result : Bytes := []) : Res := { status := stOk, result := result }
def Res.accepted (result : Bytes := []) : Res := { status := stAccepted, result := result }
def Res.err (status sub : Nat) (detail : Nat := 0) : Res := { status := status, sub := sub, detail := detail }
/-- BAD_PARAM / FIELD at an offset of the packet (R378). -/
def Res.field (offset : Nat) : Res := Res.err stBadParam subField offset
def Res.reserved (offset : Nat) : Res := Res.err stBadParam subReserved offset
/-- OK, or DEGRADED when a value returned comes from a degraded function (R403). -/
def Res.okOr (degraded : Bool) (result : Bytes) : Res :=
  { status := if degraded then stDegraded else stOk, result := result }

/-- How the body of a command ends: with a reply, or holding its queue until a later row replies. -/
inductive Done where
  | reply (r : Res)
  | hold (k : HoldKind)
  /-- No reply of its own: a BULK_DATA packet (R377), or a body that replied itself. -/
  | silent
  deriving DecidableEq, Repr

/-- Is it a BAD_PARAM reply? -/
def Done.badParam : Done → Bool
  | .reply r => r.status == stBadParam
  | _ => false

/-- Who executes a command: bay, role (SESSION = 0 acts as Public), identity and the session's end. -/
structure Ctx where
  bay : Nat
  role : SessRole
  identity : Nat
  peer : Peer
  handle : Nat
  key : Bytes
  deriving DecidableEq, Repr

/-- The body of an opcode: what it does once the checks of R381 steps 1 to 13 have passed. -/
abbrev Body := Ctx → Packet → State → State × Done

/-! ### Opcode cards (R405 to R420) -/

/-- A card: which bay and role may use it, which running roles leave it idle, and broadcast. -/
structure Card where
  may : Nat → SessRole → Bool
  idle : DevRole → Bool
  bc : Bool

def everyBay (min : SessRole) : Nat → SessRole → Bool := fun b r => b ≤ 7 && r.meets min
def never : DevRole → Bool := fun _ => false
/-- Measurement, pulse, input and billing functions: idle in RELAY (R13). -/
def idleMeter : DevRole → Bool := fun r => r == .relay
/-- Meter-facing ports: LEAF only (R13). -/
def notLeaf : DevRole → Bool := fun r => r != .leaf
def notRoot : DevRole → Bool := fun r => r != .root
def notRootPair : DevRole → Bool := fun r => r != .root && r != .standbyRoot
def noLedger : DevRole → Bool := fun r => r == .relay || r == .analyser
/-- B0 Utility or B1 Operator: B0 is met by Utility (R391: not by Legal). -/
def b0Util (b : Nat) (r : SessRole) : Bool := b == 0 && r.meets .utility
def b1Oper (b : Nat) (r : SessRole) : Bool := b == 1 && r.meets .operator
def utilOrOper : Nat → SessRole → Bool := fun b r => b0Util b r || b1Oper b r
def b0Legal (b : Nat) (r : SessRole) : Bool := b == 0 && r == .legal
def legalOrUtil : Nat → SessRole → Bool := fun b r => b == 0 && (r == .legal || r.meets .utility)
def legalOrOper : Nat → SessRole → Bool := fun b r => b0Legal b r || b1Oper b r
def vendorOnly : Nat → SessRole → Bool := fun b r => b ≤ 1 && r == .vendor

/-- The card of an opcode; `none` for an undefined one (BAD_OPCODE). -/
def card : Nat → Option Card
  | 0x0001 => some ⟨fun b _ => b ≤ 7, never, false⟩
  | 0x0002 => some ⟨fun b _ => b ≤ 7, never, false⟩
  | 0x0003 => some ⟨fun b _ => b ≤ 7, never, false⟩
  | 0x0010 => some ⟨everyBay .anyone, never, true⟩
  | 0x0011 => some ⟨everyBay .anyone, never, true⟩
  | 0x0020 => some ⟨fun b _ => b ≤ 7, never, false⟩
  | 0x0101 => some ⟨fun b r => b0Legal b r || utilOrOper b r, never, false⟩
  | 0x0102 => some ⟨everyBay .reader, never, false⟩
  | 0x0103 => some ⟨fun b r => b0Legal b r || utilOrOper b r, never, false⟩
  | 0x0110 => some ⟨fun b r => b0Legal b r || utilOrOper b r, never, true⟩
  | 0x0111 => some ⟨everyBay .reader, never, true⟩
  | 0x0112 => some ⟨fun b r => b0Legal b r || utilOrOper b r, never, true⟩
  | 0x0201 => some ⟨everyBay .reader, idleMeter, false⟩
  | 0x0202 => some ⟨everyBay .reader, idleMeter, false⟩
  | 0x0203 => some ⟨everyBay .reader, idleMeter, false⟩
  | 0x0301 => some ⟨everyBay .reader, idleMeter, false⟩
  | 0x0302 => some ⟨everyBay .reader, idleMeter, false⟩
  | 0x0310 => some ⟨everyBay .reader, idleMeter, false⟩
  | 0x0320 => some ⟨everyBay .reader, idleMeter, false⟩
  | 0x0401 => some ⟨b0Legal, idleMeter, false⟩
  | 0x0402 => some ⟨everyBay .reader, idleMeter, false⟩
  | 0x0410 => some ⟨fun b r => b ≤ 1 && r.meets .operator, idleMeter, false⟩
  | 0x0411 => some ⟨everyBay .reader, idleMeter, false⟩
  | 0x0501 => some ⟨legalOrOper, never, false⟩
  | 0x0502 => some ⟨legalOrOper, never, false⟩
  | 0x0503 => some ⟨everyBay .reader, never, false⟩
  | 0x0510 => some ⟨legalOrOper, never, false⟩
  | 0x0601 => some ⟨fun b r => legalOrUtil b r || (b == 1 && r.meets .utility), never, false⟩
  | 0x0602 => some ⟨everyBay .anyone, never, true⟩
  | 0x0610 => some ⟨everyBay .reader, never, false⟩
  | 0x0701 => some ⟨everyBay .anyone, idleMeter, false⟩
  | 0x0702 => some ⟨everyBay .reader, idleMeter, false⟩
  | 0x0710 => some ⟨legalOrUtil, idleMeter, false⟩
  | 0x0711 => some ⟨legalOrUtil, idleMeter, false⟩
  | 0x0720 => some ⟨legalOrUtil, idleMeter, false⟩
  | 0x0730 => some ⟨b0Util, idleMeter, false⟩
  | 0x0740 => some ⟨fun b r => b0Util b r || b1Oper b r, idleMeter, false⟩
  | 0x0801 => some ⟨utilOrOper, notLeaf, true⟩
  | 0x0802 => some ⟨everyBay .reader, notLeaf, true⟩
  | 0x0901 => some ⟨utilOrOper, notLeaf, true⟩
  | 0x0902 => some ⟨everyBay .reader, notLeaf, true⟩
  | 0x0A01 => some ⟨everyBay .reader, noLedger, false⟩
  | 0x0A02 => some ⟨b0Util, notRoot, false⟩
  | 0x0A03 => some ⟨b0Util, notRoot, false⟩
  | 0x0A04 => some ⟨b0Util, notRoot, false⟩
  | 0x0A05 => some ⟨utilOrOper, notRoot, false⟩
  | 0x0A07 => some ⟨b0Util, notRoot, false⟩
  | 0x0A06 => some ⟨everyBay .reader, noLedger, true⟩
  | 0x0A10 => some ⟨utilOrOper, notRoot, false⟩
  | 0x0A11 => some ⟨everyBay .operator, notRoot, false⟩
  | 0x0A12 => some ⟨utilOrOper, notRoot, false⟩
  | 0x0A13 => some ⟨everyBay .reader, notRootPair, false⟩
  | 0x0A20 => some ⟨utilOrOper, notRoot, false⟩
  | 0x0A21 => some ⟨utilOrOper, notRoot, false⟩
  | 0x0A22 => some ⟨b0Util, notRoot, false⟩
  | 0x0A28 => some ⟨everyBay .reader, notRoot, false⟩
  | 0x0A29 => some ⟨utilOrOper, notRoot, false⟩
  | 0x0B01 => some ⟨everyBay .reader, fun r => r == .analyser, true⟩
  | 0x0B02 => some ⟨everyBay .reader, notRootPair, false⟩
  | 0x0B03 => some ⟨b0Util, notRoot, false⟩
  | 0x0B04 => some ⟨utilOrOper, notRoot, false⟩
  | 0x0B05 => some ⟨utilOrOper, notRoot, false⟩
  | 0x0C01 => some ⟨fun b r => b0Legal b r || (b ≤ 7 && r.meets .operator), never, false⟩
  | 0x0C10 => some ⟨everyBay .reader, never, false⟩
  | 0x0C11 => some ⟨everyBay .reader, never, false⟩
  | 0x0C20 => some ⟨fun b r => 1 ≤ b && b ≤ 7 && r.meets .operator, never, false⟩
  | 0x0C30 => some ⟨legalOrOper, never, false⟩
  | 0x0C31 => some ⟨everyBay .reader, never, false⟩
  | 0x0D01 => some ⟨fun b r => b0Legal b r || (b ≤ 1 && r.meets .utility), never, false⟩
  | 0x0D02 => some ⟨fun b r => b0Legal b r || (b ≤ 1 && r.meets .utility), never, false⟩
  | 0x0D03 => some ⟨fun b r => b0Legal b r || (b ≤ 1 && r.meets .utility), never, false⟩
  | 0x0D10 => some ⟨everyBay .reader, never, true⟩
  | 0x0D20 => some ⟨b0Legal, never, false⟩
  | 0x0D21 => some ⟨b0Legal, never, false⟩
  | 0x0E01 => some ⟨everyBay .reader, never, true⟩
  | 0x0E10 => some ⟨utilOrOper, never, false⟩
  | 0x0E11 => some ⟨utilOrOper, never, false⟩
  | 0x0E20 => some ⟨everyBay .reader, never, false⟩
  | 0x0E21 => some ⟨everyBay .reader, never, true⟩
  | 0x0F01 => some ⟨vendorOnly, never, false⟩
  | 0x0F02 => some ⟨vendorOnly, never, false⟩
  | _ => none

/-! ### Readiness (R492) -/

def enabledCourses (s : State) : List Nat := (List.range 6).filter fun k => courseEnabled s.cfg.active k

/-- The courses a command of groups 0x02 and 0x03 addresses (log 8). -/
def coursesAddressed (code : Nat) (p : Packet) (s : State) : List Nat :=
  let ks := s.cfg.active
  match code with
  | 0x0201 => ((maskList 8 (fld p.params 0 1)).filterMap (vsCourse ks))
      ++ ((maskList 16 (fld p.params 2 2)).filterMap (mpCourse ks))
  | 0x0202 | 0x0302 | 0x0320 => (maskList 48 (fld p.params 0 8)).map courseOf
  | 0x0301 => (vsCourse ks (fld p.params 0 1)).toList
  | _ => enabledCourses s

/-- The opcodes that need the crypto engine: proofs, wrapped keys, signatures (R441, R442). -/
def cryptoOps : List Nat := [0x0001, 0x0003, 0x0A04, 0x0A22, 0x0B03, 0x0D01, 0x0D02, 0x0D03, 0x0D20]

/-- R492: the READY bits a command requires; after a failed self-test of the crypto engine every opcode that needs it is NOT_READY (R441).  CONTROL is required of every one, SEAL of every one of bay B0. -/
def readyFor (code : Nat) (p : Packet) (s : State) : Bool :=
  let ctl := s.ready 4
  let sealOk := p.bay != 0 || s.ready 5
  let crypto := s.ready 7 || !cryptoOps.contains code
  if code == 0x0001 || code == 0x0003 then ctl && s.kiln.ph.k2 && crypto
  else if code == 0x0010 || code == 0x0011 || code == 0x0602 || code == 0x0E01 then ctl
  else
    let bulk := match p.desc with | some d => d.kind != 1 || s.ready 26 | none => true
    let grp := code / 256
    ctl && sealOk && bulk && crypto &&
    (match grp with
     | 0x01 => s.ready 6 && (code != 0x0110 || s.kiln.ph.k4)
     | 0x02 | 0x03 => (coursesAddressed code p s).all fun k => s.ready (10 + k)
     | 0x04 => s.ready 22
     | 0x05 => s.ready 9
     | 0x06 => s.ready 8
     | 0x07 => s.ready 23
     | 0x08 => s.ready 27
     | 0x09 => s.ready 28 || s.ready 29
     | 0x0A => s.ready 25
     | 0x0D => s.ready 6 && (!(0x0D01 ≤ code && code ≤ 0x0D03) || s.ready 7)
         && (!(0x0D20 ≤ code && code ≤ 0x0D21) || s.ready 3)
     | 0x0E => code != 0x0E10 || fld p.params 0 1 != 0 || (s.ready 24 && s.kiln.slices.getLsbD 55)
     | _ => true)

/-! ### Queues (R390, R422) -/

def queueId (bay queue : Nat) : Nat := 16 * bay + queue

def State.queueOf (s : State) (q : Nat) : List QEntry := Tbl.get [] s.host.queue q

def State.setQueue (s : State) (q : Nat) (l : List QEntry) : State :=
  { s with host.queue := Tbl.set [] s.host.queue q l }

def State.busyOf (s : State) (q : Nat) : Option InFlight := Tbl.get none s.host.busy q

def State.setBusy (s : State) (q : Nat) (b : Option InFlight) : State :=
  { s with host.busy := Tbl.set none s.host.busy q b }

/-! ### Sessions -/

def State.findSess (s : State) (h : Nat) : Option Session := s.host.sess.find? (·.handle == h)
def State.findChal (s : State) (h : Nat) : Option Chal := s.host.chal.find? (·.handle == h)
def State.findIdent (s : State) (id : Nat) : Option Ident := s.host.ident.find? (·.id == id)

def State.modSess (s : State) (h : Nat) (g : Session → Session) : State :=
  { s with host.sess := s.host.sess.map fun x => if x.handle = h then g x else x }

def State.modIdent (s : State) (id : Nat) (g : Ident → Ident) : State :=
  { s with host.ident := s.host.ident.map fun x => if x.id = id then g x else x }

/-- End a session: it leaves the table and its handle is not reused within 3,600 s (R395). -/
def State.endSess (s : State) (h : Nat) : State :=
  { s with host.sess := s.host.sess.filter (·.handle != h), host.ended := (h, s.time.mono) :: s.host.ended }

/-- The context a command runs in: its session's, or Public for SESSION = 0 (R391). -/
def State.ctx (s : State) (p : Packet) : Ctx :=
  match s.findSess p.session with
  | some x => ⟨p.bay, x.role, x.identity, p.transport.peer, x.handle, x.key⟩
  | none => ⟨p.bay, .anyone, 0, p.transport.peer, 0, []⟩

/-! ### Replies (R378) and their transports (R383, R384) -/

def State.qpOf (s : State) (fn q : Nat) : Qp := Tbl.get {} s.host.qp (16 * fn + q)

def State.modQp (s : State) (fn q : Nat) (g : Qp → Qp) : State :=
  { s with host.qp := Tbl.upd {} s.host.qp (16 * fn + q) g }

/-- Entries of the completion and submission ring of a pair (R540). -/
def Qp.cqSize (x : Qp) : Nat := 2 ^ (x.size.toNat / 256 % 16)
def Qp.sqSize (x : Qp) : Nat := 2 ^ (x.size.toNat % 16)
def Qp.cqFull (x : Qp) : Bool := (x.cqTail + 1) % x.cqSize == x.cqHead

/-- Write one completion entry (R383) for a reply and move CQ_TAIL; on a full ring it waits (R541). -/
def State.complete (s : State) (fn q cap : Nat) (r : Reply) (silent : Bool) : State :=
  let x := s.qpOf fn q
  if x.size = 0 then s
  else if x.cqFull then s.modQp fn q fun x => { x with waiting := x.waiting ++ [(r, cap, silent)] }
  else
    let len := if silent then 0 else r.bytes.length
    let c : Completion :=
      { fn := fn, qp := q, bay := r.bay, sqHead := x.sqHead, phase := x.phase, truncated := decide (cap < len),
        more := r.more || (r.stream && !silent && !r.bulk.isEmpty), tag := r.tag, status := r.status, sub := r.sub, rspLen := min cap len }
    let tl := (x.cqTail + 1) % x.cqSize
    let s := (({ s with host.cq := c :: s.host.cq }).modQp fn q fun x =>
      { x with cqTail := tl, phase := if tl = 0 then !x.phase else x.phase }).raise (fn + 1) q
    if r.bay = 0 then s.raiseB0 else s

/-- The continuation replies of a KIND 1 stream of DIR 1 (R377): OFFSET, 4 reserved bytes, up to 65,528 bytes; MORE on each but the last. -/
def Reply.conts (r : Reply) : List Reply :=
  if !r.stream then []
  else
    let n := ceilDiv r.bulk.length 65528
    (List.range n).map fun i =>
      { r with result := leBytes 4 (65528 * i) ++ zeros 4 ++ (r.bulk.drop (65528 * i)).take 65528, bulk := [], stream := false, cont := true,
               more := decide (i + 1 < n) }

/-- Continuation replies of a pair go out while there are submission entries with PKT_LEN 0 for them (R383). -/
def State.serveConts (s : State) (fn q : Nat) : List Reply → List Nat → State
  | r :: rs, cap :: caps =>
    ((({ s with host.out := r :: s.host.out }).modQp fn q fun x => { x with conts := rs, caps := caps }).complete fn q cap r false).serveConts
      fn q rs caps
  | _, _ => s

/-- Further continuation replies for a pair. -/
def State.addConts (s : State) (fn q : Nat) (l : List Reply) : State :=
  let s := s.modQp fn q fun x => { x with conts := x.conts ++ l }
  s.serveConts fn q (s.qpOf fn q).conts (s.qpOf fn q).caps

/-- A reply unit and those of its continuations, each with a SEQ of its own (R388). -/
def State.sendUnits (s : State) (d : Nat) : List Reply → State
  | [] => s
  | r :: rest =>
    let s := { s with mortar.mySeq := s.mortar.mySeq + 1 }
    (s.unitSend (s.unitLanes none s.kiln.devId d) (.unit (s.qosOf r.bay).cls s.kiln.devId d s.mortar.mySeq (.reply r))).sendUnits d rest

/-- Send a reply, and its continuations, on its transport; `silent`: QUIET = 1 and status OK (R376, R383). -/
def State.send (s : State) (tr : Transport) (r : Reply) (silent : Bool) : State :=
  match tr with
  | .pcie fn q cap =>
    if silent then s.complete fn q cap r true
    else
      let s := { s with host.out := r :: s.host.out }
      if r.cont then s.addConts fn q [r] else (s.complete fn q cap r false).addConts fn q r.conts
  | .spi =>
    if silent then s
    else { s with host.out := r.conts.reverse ++ r :: s.host.out, host.spi := s.host.spi ++ (r :: r.conts).map Reply.bytes }
  | .udp _ _ => if silent then s else { s with host.out := r.conts.reverse ++ r :: s.host.out }
  | .mortar d =>
    if silent then s
    else ({ s with host.out := r :: s.host.out }).sendUnits d (r :: r.conts)

/-- Send a reply `n` times: once for the packet, once for each copy that waits (R387, R401). -/
def State.sendTimes (s : State) (tr : Transport) (r : Reply) (silent : Bool) : Nat → State
  | 0 => s
  | n + 1 => (s.send tr r silent).sendTimes tr r silent n

/-- Keep the reply of an accepted TAG for R387. -/
def keepReply (p : Packet) (r : Reply) (l : List KeptTag) : List KeptTag :=
  l.map fun k => if k.tag = p.tag ∧ k.crc = p.crc then { k with reply := some r } else k

/-- The copies of a packet that wait for its reply (R387). -/
def State.copiesOf (s : State) (p : Packet) : Nat :=
  (((s.findSess p.session).bind fun x => x.kept.find? fun k => k.tag = p.tag ∧ k.crc = p.crc ∧ k.reply.isNone).map (·.copies)).getD 0

/-- The device where a packet entered from a host (R376): this one fills the field in. -/
def State.sourceOf (s : State) (p : Packet) : Nat :=
  match p.transport with
  | .mortar _ => p.source
  | _ => s.kiln.devId

/-- The reply of a command with its answer (R378). -/
def State.mkReply (s : State) (code : Nat) (p : Packet) (a : Res) : Reply :=
  { code := code, peer := p.transport.peer, tag := p.tag, bay := p.bay, queue := p.queue, session := p.session,
    target := s.sourceOf p, source := s.kiln.devId, status := a.status, sub := a.sub, detail := a.detail,
    doneTime := s.stampNs, result := a.result, bulk := a.bulk, stream := p.desc.any fun d => d.kind == 1 }

/-- The command a BULK_DATA packet belongs to (R377): it holds the packet's queue, of the same session, tag and source. -/
def streamOwner (p : Packet) (f : InFlight) : Bool :=
  f.entry.pkt.session == p.session && f.entry.pkt.tag == p.tag && f.entry.pkt.transport.peer == p.transport.peer
    && (match f.kind with | .stream _ _ _ => true | _ => false)

/-- An error in a BULK_DATA packet ends its command (R377), which gets no reply of its own (log 29). -/
def State.dropStream (s : State) (p : Packet) : State :=
  match s.busyOf (queueId p.bay p.queue) with
  | some f => if streamOwner p f then s.setBusy (queueId p.bay p.queue) none else s
  | none => s

/-- Reply to a command. Every reply to a BULK_DATA packet is an error's and ends its command (R377). QUIET with status OK sends none (R376), a PCIe completion is written all the same (R383). -/
def State.answer (s : State) (code : Nat) (p : Packet) (a : Res) : State :=
  let s := if code = 0x0020 then s.dropStream p else s
  let r := s.mkReply code p a
  let n := s.copiesOf p
  let s := s.modSess p.session fun x => { x with kept := keepReply p r x.kept }
  s.sendTimes p.transport r (p.quiet && a.status == stOk) (n + 1)

/-! ### Ingress: steps 1 to 11 of R381 -/

/-- What ingress decides of a packet. -/
inductive Ing where
  /-- Discarded without a reply. -/
  | drop
  /-- Answered at once by the failing check. -/
  | refuse (r : Res)
  /-- A copy of a packet that still executes: it gets the reply once that is produced (R387). -/
  | wait
  /-- Sent again from the stored replies (R387). -/
  | again (r : Reply)
  /-- For another device (R382). -/
  | forward
  /-- Taken. -/
  | accept
  deriving DecidableEq, Repr

/-- Step 7, R383 to R385, R423: is BAY permitted on this transport?  B0 only with a live B0 session handle, with
SESSION = 0 for SESSION_OPEN, or for SESSION_AUTH with the handle of a live B0 challenge. -/
def bayPermitted (code : Nat) (p : Packet) (s : State) : Bool :=
  let b0 := (match s.findSess p.session with | some x => x.bay == 0 | none => false)
    || (code == 0x0001 && p.session == 0)
    || (code == 0x0003 && (match s.findChal p.session with
          | some x => x.bay == 0 | none => s.host.expired.any (·.1 == p.session)))
  match p.transport with
  | .pcie fn _ _ => if p.bay = 0 then b0 else p.bay == fn.val + 1
  | .spi => if p.bay = 0 then b0 else p.bay == s.key (kUdp 2)
  | .udp _ _ => (s.key (kUdp 1)).testBit p.bay && (p.bay != 0 || b0)
  | .mortar _ => p.bay != 0 || b0

/-- Step 8: the session is live and of this bay, transport and address; `none` when it passes. -/
def sessionCheck (code : Nat) (p : Packet) (s : State) : Option Res :=
  if code = 0x0003 then
    match s.findChal p.session with
    | some x => if x.bay = p.bay ∧ x.peer = p.transport.peer then none
                else some (Res.err stNoSession (if x.bay = p.bay then subTransport else 0))
    | none => if s.host.expired.any (·.1 == p.session) then none else some (Res.err stNoSession 0)
  else if p.session = 0 then
    match p.transport with
    | .udp _ _ => if code = 0x0001 then none else some (Res.err stNoSession 0)
    | _ => if code = 0x0002 then some (Res.err stNoSession 0) else none
  else
    match s.findSess p.session with
    | none => some (Res.err stNoSession 0)
    | some x =>
      if x.bay ≠ p.bay then some (Res.err stNoSession 0)
      else if x.peer ≠ p.transport.peer then some (Res.err stNoSession subTransport)
      else none

/-- Must the packet carry TAGGED (R376)? -/
def mustTag (code : Nat) (p : Packet) : Bool :=
  code == 0x0003 || p.transport.isUdp

def paramLimit (p : Packet) : Nat := match p.transport with | .udp _ _ => 65456 | _ => 65536

/-- TARGET names this device (R376). -/
def targetLocal (p : Packet) (s : State) : Bool := p.target == 0xFFFF || p.target == s.kiln.devId

/-- R387: a packet whose TAG and CRC equal those of a kept one. -/
def replayOf (p : Packet) (s : State) : Option KeptTag :=
  match p.transport with
  | .udp _ _ | .mortar _ =>
    if p.cont then none else (s.findSess p.session).bind fun x => x.kept.find? fun k => k.tag = p.tag ∧ k.crc = p.crc
  | _ => none

/-- R387: on UDP a TAG not greater than the highest accepted is discarded. -/
def tagStale (p : Packet) (s : State) : Bool :=
  match p.transport with
  | .udp _ _ => match s.findSess p.session with
    | some x => !p.cont && x.kept.any fun k => decide (p.tag ≤ k.tag)
    | none => false
  | _ => false

/-- In FENCED_ROOT the opcodes of group 0x0A that alter the ledger are idle (R368). -/
def fencedIdle (code : Nat) (s : State) : Bool :=
  s.mortar.stt == .fenced && [0x0A02, 0x0A03, 0x0A04, 0x0A05, 0x0A07, 0x0A10, 0x0A11, 0x0A12, 0x0A20, 0x0A21, 0x0A22, 0x0A29].contains code

/-- Steps 2 to 4 of R381, and the header fields outside their ranges (R376); `none` when they pass. -/
def headCheck (code : Nat) (p : Packet) : Option Res :=
  if p.version ≠ 1 then some (Res.err stBadParam subVersion 0)
  else if p.paramLen % 8 ≠ 0 ∨ paramLimit p < p.paramLen ∨ p.paramLen ≠ p.params.length then some (Res.err stBadParam subLength 12)
  else if p.flags.toNat / 32 ≠ 0 then some (Res.reserved 1)
  else if p.reserved ≠ 0 then some (Res.reserved 23)
  else if p.tagged != mustTag code p then some (Res.field 1)
  else if 7 < p.bay then some (Res.field 8)
  else if 15 < p.queue then some (Res.field 9)
  else if 1023 < p.target ∧ p.target ≠ 0xFFFF then some (Res.field 20)
  else none

/-- Step 5 for a packet for another device: HOP_LIMIT is 1 to 63 where it enters from a host; a device on its way takes 1 off it, and at 0
it has not reached its target (R376, R388, log 48). -/
def remoteCheck (p : Packet) (lanes : List Nat) : Option Res :=
  match p.transport with
  | .mortar _ => if p.hopLimit ≤ 1 then some (Res.err stUnreachable subHopLimit)
                 else if lanes.isEmpty then some (Res.err stUnreachable 0) else none
  | _ => if p.hopLimit = 0 ∨ 63 < p.hopLimit then some (Res.field 22)
         else if lanes.isEmpty then some (Res.err stUnreachable 0) else none

/-- The envelope's SOURCE of a packet: the device where it entered from a host. -/
def State.originOf (s : State) (p : Packet) : Nat :=
  match p.transport with
  | .mortar d => d
  | _ => s.kiln.devId

/-- Steps 2 to 11 of R381. -/
def ingressAfterCrc (code : Nat) (p : Packet) (s : State) : Ing :=
  match headCheck code p with
  | some r => .refuse r
  | none =>
  if p.target ≠ 1023 ∧ !targetLocal p s then
    match remoteCheck p (s.unitLanes none (s.originOf p) p.target) with
    | some r => .refuse r
    | none => .forward
  else match card code with
  | none => .refuse (Res.err stBadOpcode 0)
  | some c =>
    if !bayPermitted code p s then .refuse (Res.err stDenied subWrongBay)
    else match sessionCheck code p s with
    | some r => .refuse r
    | none =>
      match replayOf p s with
      | some k => match k.reply with | some r => .again r | none => .wait
      | none =>
        if tagStale p s then .drop
        else if !c.may p.bay (s.ctx p).role then .refuse (Res.err stDenied subRole)
        else if c.idle s.kiln.role || fencedIdle code s then .refuse (Res.err stDenied subRoleIdle)
        else if code ≠ 0x0020 ∧ 256 ≤ (s.queueOf (queueId p.bay p.queue)).length then
          .refuse (Res.err stBusy subQueueFull 256)
        else .accept

/-- Ingress of R381: step 1 (a failed GCM tag leaves nothing to take a CRC over), then the steps after it. -/
def ingress (code : Nat) (p : Packet) (s : State) : Ing :=
  if p.transport.isUdp && !p.gcmOk then .drop
  else if p.crc ≠ p.crcOf code then .refuse (Res.err stBadCrc 0) else ingressAfterCrc code p s

/-- The effect of a packet on its session at acceptance: last use, and the TAG on UDP and mortar (R387, R395). -/
def State.touch (s : State) (p : Packet) : State :=
  s.modSess p.session fun x =>
    { x with lastUse := s.time.mono,
             kept := match p.transport with
               | .udp _ _ | .mortar _ => if p.cont then x.kept else (⟨p.tag, p.crc, none, 0⟩ :: x.kept).take 16
               | _ => x.kept }

/-! ### Execution: steps 12 to 15 of R381 -/

/-- Steps 12 and 13: the deadline window [stamp, stamp + DEADLINE) (R389), the session once more (R395), READY. -/
def startCheck (code : Nat) (p : Packet) (stamp : Nat) (s : State) : Option Res :=
  if p.deadline ≠ 0 ∧ stamp + p.deadline * 1000 ≤ s.time.mono then some (Res.err stDeadline 0)
  else match sessionCheck code p s with
  | some r => some r
  | none => if readyFor code p s then none else some (Res.err stNotReady 0)

/-- Does the card refuse this broadcast (R382, R402)? -/
def bcRefused (code : Nat) (p : Packet) : Bool :=
  p.target == 1023 && !((card code).elim false (·.bc))

/-- The packet's bulk descriptor fits the card: `dir` is the direction the card names, `none` when it names none. -/
def descOk (dir : Option Nat) (p : Packet) : Bool :=
  match dir, p.desc with
  | none, none => !p.isBulk
  | some d, some x => x.dir == d && x.reservedOk && x.kind ≤ 1 && x.length ≤ 268435456
      && (match p.transport with | .pcie _ _ _ => x.kind != 0 || x.address % 8 == 0 | _ => x.kind == 1)
      && (x.kind != 1 || x.address == 0)
  | _, _ => false

/-- Does a command use the seal state of an island that a supply fault has taken (R429): any of bay B0 the seal core's, those with
cryptography or with the key store that of the crypto engine or of storage (log 28)? -/
def sealFault (code : Nat) (p : Packet) (s : State) : Bool :=
  let l := s.power.sealLost
  (l.contains 77 && p.bay == 0)
    || (l.contains 85 && [0x0001, 0x0003, 0x0A04, 0x0A22, 0x0B03, 0x0D01, 0x0D20].contains code)
    || (l.contains 94 && [0x0001, 0x0003, 0x0B03, 0x0D01, 0x0D02, 0x0D03].contains code)

/-- Execute a command that passed ingress: start checks, body, reply or hold. -/
def execNow (code : Nat) (body : Body) (p : Packet) (stamp : Nat) (s : State) : State :=
  match startCheck code p stamp s with
  | some r => s.answer code p r
  | none =>
    if bcRefused code p then s.answer code p (Res.field 20)
    else if sealFault code p s then s.answer code p (Res.err stFault 0)
    else match body (s.ctx p) p s with
    | (s', .reply r) => s'.answer code p r
    | (s', .hold k) => s'.setBusy (queueId p.bay p.queue) (some ⟨⟨code, p, stamp⟩, k⟩)
    | (s', .silent) => s'

/-- Put a packet into its queue with its ingress stamp (R390). -/
def State.enqueue (s : State) (code : Nat) (p : Packet) : State :=
  let q := queueId p.bay p.queue
  s.setQueue q (s.queueOf q ++ [⟨code, p, s.time.mono⟩])

/-- A packet as it goes on: SOURCE filled in where it entered from a host, one hop less on its way, and the CRC over both (R376, R388). -/
def State.onward (s : State) (code : Nat) (p : Packet) : Packet :=
  let p := { p with source := s.sourceOf p,
                    hopLimit := match p.transport with | .mortar _ => p.hopLimit - 1 | _ => p.hopLimit }
  { p with crc := p.crcOf code }

/-- Send a packet to other devices (R382, R388); a host's packet is remembered for its replies. -/
def State.forwardPacket (s : State) (code : Nat) (p : Packet) : State :=
  let src := s.originOf p
  let s' := { s with mortar.mySeq := s.mortar.mySeq + 1,
                     host.forwarded := match p.transport with | .mortar _ => s.host.forwarded | _ => (code, p) :: s.host.forwarded }
  s'.unitSend (s.unitLanes none src p.target) (.unit (s.qosOf p.bay).cls src p.target (s.mortar.mySeq + 1) (.command code (s.onward code p)))

/-- A broadcast from a host whose card permits it goes to every other device as well (R382), unless it is a copy (R387). -/
def State.broadcast (s : State) (code : Nat) (p : Packet) : Ing → State
  | .accept | .refuse _ =>
    match p.transport with
    | .mortar _ => s
    | _ =>
      if p.target = 1023 ∧ p.hopLimit ≠ 0 ∧ (card code).any (·.bc) ∧ p.crc = p.crcOf code ∧ (headCheck code p).isNone ∧ s.mortar.stt ≠ .fenced then
        s.forwardPacket code p
      else s
  | _ => s

/-- The host ports take packets: CONTROL is set, no F3 holds them (R492, R500), no F4 (R502). -/
def State.serving (s : State) : Bool := s.ready 4 && !s.fault.f3Halted && !s.fault.f4

/-- A packet of the SPI port that arrives while RX_READY is 0 is discarded and sets DROPPED (R384). -/
def State.unserved (s : State) (p : Packet) : State :=
  match p.transport with
  | .spi => { s with host.spiDropped := true }
  | _ => s

/-- What ingress does with a packet that is not accepted. -/
def State.turnedAway (s : State) (code : Nat) (p : Packet) : Ing → State
  | .drop => s
  | .wait => s.modSess p.session fun x =>
      { x with kept := x.kept.map fun k => if k.tag = p.tag ∧ k.crc = p.crc then { k with copies := k.copies + 1 } else k }
  | .refuse r =>
    let s := if r.status = stBusy then s.pulse 1007 (p.bay + 256 * p.queue) else s
    s.answer code p r
  | .again r => s.send p.transport r (p.quiet && r.status == stOk)
  | .forward => s.forwardPacket code p
  | .accept => s

/-- Replies of the SPI port are full: its queues wait (R384). -/
def spiFull (p : Packet) (s : State) : Bool :=
  match p.transport with | .spi => 16 ≤ s.host.spi.length | _ => false

/-- The completion ring of the packet's pair is full: the pair starts no further command (R541). -/
def ringFull (p : Packet) (s : State) : Bool :=
  match p.transport with
  | .pcie fn q _ => let x := s.qpOf fn q; x.size != 0 && x.cqFull
  | _ => false

/-- A stream of this pair holds its queue until its last continuation (R390). -/
def streaming (p : Packet) (s : State) : Bool :=
  match p.transport with
  | .pcie fn q _ => !(s.qpOf fn q).conts.isEmpty
  | _ => false

/-- The objects of R390 a command alters, by kind and number: a configuration set, a calendar, an accumulator, a ledger record, an
identity, a session. -/
def objectsOf (code : Nat) (p : Packet) : List (Nat × Nat) :=
  match code with
  | 0x0101 | 0x0103 | 0x0110 | 0x0112 => [(0, 0)]
  | 0x0710 | 0x0711 => [(1, 0)]
  | 0x0401 => [(2, fld p.params 0 2)]
  | 0x0A02 | 0x0A03 | 0x0A04 | 0x0A05 | 0x0A07 => [(3, 0)]
  | 0x0D01 | 0x0D02 | 0x0D03 => [(4, fld p.params 0 8)]
  | 0x0002 | 0x0003 => [(5, p.session)]
  | _ => []

/-- R390: does a command that waits in any queue come first and alter an object this one alters?  By ingress stamp, then bay, then queue. -/
def objectTaken (code : Nat) (p : Packet) (stamp : Nat) (s : State) : Bool :=
  s.host.queue.any fun e => e.2.any fun x =>
    (decide (x.stamp < stamp) || (x.stamp == stamp && decide (queueId x.pkt.bay x.pkt.queue < queueId p.bay p.queue)))
      && (objectsOf x.code x.pkt).any fun o => (objectsOf code p).contains o

/-- May a command of this packet's queue start now? -/
def canStart (code : Nat) (p : Packet) (stamp : Nat) (s : State) : Bool :=
  (s.busyOf (queueId p.bay p.queue)).isNone && !spiFull p s && !ringFull p s && !streaming p s && !objectTaken code p stamp s

/-- What this device itself does with a packet that arrived: an accepted one starts at once where nothing waits before it, else it is queued. -/
def takeIn (code : Nat) (body : Body) (p : Packet) (i : Ing) (s : State) : State :=
  match i with
  | .accept =>
    let s := s.touch p
    if code = 0x0020 then execNow code body p s.time.mono s
    else if (s.queueOf (queueId p.bay p.queue)).isEmpty && canStart code p s.time.mono s then execNow code body p s.time.mono s
    else s.enqueue code p
  | i => s.turnedAway code p i

/-- A packet arrives at the device: ingress, then its queue; with the queue empty and idle it starts at once.
A BULK_DATA packet belongs to the command that holds its queue and is taken at once (R377). -/
def arrive (code : Nat) (body : Body) (p : Packet) (s : State) : State :=
  let i := ingress code p s
  takeIn code body p i (s.broadcast code p i)

/-- A packet whose command row is not this one: ingress, then its queue (the raw byte paths). -/
def arriveQueue (code : Nat) (p : Packet) (s : State) : State :=
  let i := ingress code p s
  let s := s.broadcast code p i
  match i with
  | .accept => (s.touch p).enqueue code p
  | i => s.turnedAway code p i

/-- Is the packet waiting where this row may take it: at the head of its queue, or, for BULK_DATA, anywhere in it? -/
def waitsHere (code : Nat) (p : Packet) (l : List QEntry) : Option QEntry :=
  if code = 0x0020 then l.find? fun e => e.code = code ∧ e.pkt = p
  else l.head?.filter fun e => e.code = code ∧ e.pkt = p

/-- The one operation every opcode row runs through (log 9): the packet that waits for this row starts; any
other packet arrives. -/
def command (code : Nat) (body : Body) (p : Packet) (s : State) : State :=
  if !s.serving then s.unserved p
  else
    let q := queueId p.bay p.queue
    match waitsHere code p (s.queueOf q) with
    | some e =>
      if code = 0x0020 || canStart code p e.stamp s then execNow code body p e.stamp (s.setQueue q ((s.queueOf q).erase e)) else s
    | none => arrive code body p s

/-- The held command of a queue replies (R390). -/
def State.finishHeld (s : State) (q : Nat) (a : Res) : State :=
  match s.busyOf q with
  | some f => (s.setBusy q none).answer f.entry.code f.entry.pkt a
  | none => s

/-- Every held command of a kind replies. -/
def State.finishKind (s : State) (sel : InFlight → Bool) (a : Res) : State :=
  s.host.busy.foldl (fun s e => match e.2 with
    | some f => if sel f then s.finishHeld e.1 a else s
    | none => s) s

/-- A body that only reads. -/
def readBody (f : Ctx → Packet → State → Res) : Body := fun c p s => (s, .reply (f c p s))

/-- A card with no bulk descriptor and a parameter block of `n` bytes whose reserved ranges (offset, bytes) are 0. -/
def fixedBody (n : Nat) (res : List (Nat × Nat)) (f : Body) : Body := fun c p s =>
  if p.isBulk then (s, .reply (Res.field 1))
  else if p.params.length ≠ n then (s, .reply (Res.err stBadParam subLength 12))
  else match res.find? (fun r => !allZero p.params r.1 r.2) with
  | some r => (s, .reply (Res.reserved (32 + r.1)))
  | none => f c p s

/-- A card with a bulk descriptor of DIR 1: `f` gives the answer, whose data moves through the descriptor. -/
def bulkOutBody (n : Nat) (res : List (Nat × Nat)) (f : Body) : Body := fun c p s =>
  if !descOk (some 1) p then (s, .reply (Res.field (p.params.length)))
  else if p.inline.length ≠ n then (s, .reply (Res.err stBadParam subLength 12))
  else match res.find? (fun r => !allZero p.params r.1 r.2) with
  | some r => (s, .reply (Res.reserved (32 + r.1)))
  | none => f c p s

/-- A card with a bulk descriptor of DIR 0: KIND 0 data is read from host memory, KIND 1 data is awaited in
BULK_DATA packets, the command executing once LENGTH bytes have arrived (R377).  `f` gets the data. -/
def bulkInBody (n : Nat) (res : List (Nat × Nat)) (f : Bytes → Body) : Body := fun c p s =>
  if !descOk (some 0) p then (s, .reply (Res.field (p.params.length)))
  else if p.inline.length ≠ n then (s, .reply (Res.err stBadParam subLength 12))
  else match res.find? (fun r => !allZero p.params r.1 r.2), p.desc with
  | some r, _ => (s, .reply (Res.reserved (32 + r.1)))
  | none, some d =>
    if d.kind = 0 then f (fitBytes d.length p.bulk) c p s
    else if d.length = 0 then f [] c p s
    else (s, .hold (.stream [] d.length s.time.mono))
  | none, none => (s, .reply (Res.field (p.params.length)))

end Sys2Proof.Machine
end

