-- ==== Sys2Proof/Machine/Session.lean ====
section
/-! DEFINITION. Sessions (14 R391 to R398) and the group 0x00 opcodes: opening, proving and closing a session, the
READY map and device information, and the session timers. -/

namespace Sys2Proof.Machine

/-! ### Handles, transcript, proof -/

/-- May a handle be given now: nonzero, unused, and not within 3,600 s of the end of its session (R395)? -/
def handleFree (s : State) (h : Nat) : Bool :=
  h != 0 && h < 65536 && s.host.sess.all (·.handle != h) && s.host.chal.all (·.handle != h)
    && s.host.ended.all fun e => e.1 != h || e.2 + 3600 * second ≤ s.time.mono

/-- A handle for a new challenge: any one that is free (a free value, log 3). -/
def newHandle (s : State) : Nat × State :=
  let (v, s) := s.draw
  let h := v % 65536
  if handleFree s h then (h, s) else (((List.range 65536).find? (handleFree s)).getD 0, s)

/-- The transcript T of R393. -/
def transcript (identity role bay handle : Nat) (hostNonce hostEph devNonce devEph : Bytes) : Bytes :=
  fitBytes 32 (Config.sha256 (leBytes 8 identity ++ leBytes 1 role ++ leBytes 1 bay ++ leBytes 2 handle
    ++ hostNonce ++ hostEph ++ devNonce ++ devEph ++ leBytes 8 Config.deviceSerial))

/-- The session key K_s of R393. -/
def sessionKey (z t : Bytes) : Bytes := fitBytes 16 (Config.sha256 (fitBytes 32 z ++ t))

/-- `n` further rounds of the password hash of R394. -/
def hashRounds (salt pw : Bytes) : Nat → Bytes → Bytes
  | 0, h => h
  | n + 1, h => hashRounds salt pw n (fitBytes 32 (Config.sha256 (h ++ salt ++ pw)))

/-- H_10,000 of a password (R394). -/
def passwordHash (salt pw : Bytes) : Bytes :=
  hashRounds salt pw 9999 (fitBytes 32 (Config.sha256 (salt ++ pw)))

/-- Proof bytes LEN a role's method takes (R394). -/
def proofLenOk (r : SessRole) (n : Nat) : Bool :=
  match r with
  | .anyone | .reader => 1 ≤ n && n ≤ 32
  | .operator | .utility => n == 16
  | .legal | .vendor => n == 64

/-- Does a proof stand against an identity's credential (R394)? -/
def proofOk (i : Ident) (t proof : Bytes) : Bool :=
  match i.role with
  | .anyone | .reader => passwordHash (i.cred.take 16) proof == (i.cred.drop 16).take 32
  | .operator | .utility => proof == fitBytes 16 (Config.cmac (i.cred.take 16) t)
  | .legal | .vendor => Config.ecdsaVerify i.cred t proof

/-- Is an identity locked now (R396, R397)? -/
def Ident.lockedAt (i : Ident) (now : Nat) : Bool :=
  i.clone || (match i.lockEnd with | some e => decide (now < e) | none => false)

/-- The LOCKED_OUT answer of a locked identity: CLONE, or FAILURES with the remaining seconds, rounded up (log 11). -/
def lockedRes (i : Ident) (now : Nat) : Res :=
  if i.clone then Res.err stLockedOut subClone
  else Res.err stLockedOut subFailures (ceilDiv ((i.lockEnd.getD 0) - now) second)

/-- The lock time of the n-th lock since the last successful open: 60 × 2^(n − 1) s, at most 3,600 s (R396). -/
def lockSeconds (n : Nat) : Nat := min 3600 (60 * 2 ^ (n - 1))

/-- An AUTH_FAIL of an identity: EV0970; a provisioned identity's failure counts and the fifth locks it (R396). -/
def State.authFail (s : State) (id : Nat) : State :=
  let s := s.pulse 970 id
  match s.findIdent id with
  | none => s
  | some i =>
    let n := if i.lockEnd.any (fun e => decide (e ≤ s.time.mono)) then 1 else i.fails + 1
    if n < 5 then s.modIdent id fun i => { i with fails := n, lockEnd := none }
    else
      (s.modIdent id fun i =>
        { i with fails := n, locks := i.locks + 1,
                 lockEnd := some (s.time.mono + lockSeconds (i.locks + 1) * second) }).pulse 969 id

/-- Discard a challenge; its handle stays known as expired (R394). -/
def State.dropChal (s : State) (c : Chal) : State :=
  { s with host.chal := s.host.chal.filter (·.handle != c.handle),
           host.expired := (c.handle, c.identity) :: s.host.expired }

/-- Other challenges for the identity live in the same bay from another transport or address (R397). -/
def rivals (s : State) (c : Chal) : List Chal :=
  s.host.chal.filter fun x => x.identity == c.identity && x.bay == c.bay && x.handle != c.handle
    && x.peer != c.peer && decide (s.time.mono < x.issued + 10 * second)

/-- The challenge becomes a live session; both counts of its identity are reset (R394, R396). -/
def State.openSession (s : State) (c : Chal) : State × Res :=
  let s := { s with host.chal := s.host.chal.filter (·.handle != c.handle) }
  let s := s.modIdent c.identity fun i => { i with fails := 0, locks := 0 }
  let x : Session := { handle := c.handle, bay := c.bay, identity := c.identity, role := c.role, peer := c.peer,
                       idleS := c.idleS, lastUse := s.time.mono, key := c.key, kept := [] }
  ({ s with host.sess := s.host.sess ++ [x] },
   Res.ok (leBytes 2 c.handle ++ leBytes 1 c.role.code ++ zeros 5))

/-- What a valid answer gets when nothing keeps it waiting: LOCKED_OUT, BUSY, SESSIONS_FULL or the session. -/
def State.settleAuth (s : State) (c : Chal) : State × Res :=
  match s.findIdent c.identity with
  | none => (s.dropChal c, Res.err stAuthFail 0)
  | some i =>
    if i.lockedAt s.time.mono then (s.dropChal c, lockedRes i s.time.mono)
    else if s.host.sess.any fun x => x.bay == c.bay && x.identity == c.identity then
      (s.dropChal c, Res.err stBusy 0)
    else if 8 ≤ (s.host.sess.filter (·.bay == c.bay)).length then
      (s.dropChal c, Res.err stCapacity subSessionsFull)
    else s.openSession c

/-- Reply to a waiting answer's command. -/
def State.replyWaiting (s : State) (e : QEntry) (r : Res) : State :=
  s.finishHeld (queueId e.pkt.bay e.pkt.queue) r

/-- After a challenge for an identity ended in a bay, a waiting valid answer with no rival left is decided (R397). -/
def State.resolveWaiting (s : State) (id bay : Nat) : State :=
  match s.host.chal.find? fun c => c.identity == id && c.bay == bay && c.answer.isSome && (rivals s c).isEmpty with
  | none => s
  | some c =>
    match c.answer with
    | none => s
    | some e => let (s, r) := s.settleAuth c; s.replyWaiting e r

/-! ### SESSION_OPEN, SESSION_CLOSE, SESSION_AUTH -/

/-- The challenge of R392 for an identity that is not locked. -/
def issueChallenge (c : Ctx) (p : Packet) (role : SessRole) (s : State) : State × Done :=
  let b := p.params
  let id := fld b 0 8
  let bay := c.bay
  let s := { s with
    host.chal := s.host.chal.filter fun x => !(x.identity == id && x.bay == bay && x.peer == c.peer && x.answer.isNone),
    host.expired := ((s.host.chal.filter fun x => x.identity == id && x.bay == bay && x.peer == c.peer
      && x.answer.isNone).map fun x => (x.handle, x.identity)) ++ s.host.expired }
  if 8 ≤ (s.host.chal.filter (·.bay == bay)).length ∨ 8 ≤ (s.host.sess.filter (·.bay == bay)).length then
    (s, .reply (Res.err stCapacity subSessionsFull))
  else
    let (h, s) := newHandle s
    let (nonce, s) := s.drawBytes 16
    let (eph, s) := s.draw
    let devEph := fitBytes 64 (Config.ephPublic eph)
    let t := transcript id role.code bay h (slice b 16 16) (slice b 32 64) nonce devEph
    let k := sessionKey (Config.ecdhX eph (slice b 32 64)) t
    let idle := fld b 10 2
    let pass := (match s.findIdent id with
      | some i => i.role == role && i.bayMask.getLsbD bay
      | none => false) && role.bayOk bay
    let x : Chal := { handle := h, bay := bay, identity := id, role := role, peer := c.peer,
                      idleS := if idle = 0 then 600 else idle, issued := s.time.mono, canPass := pass,
                      transcript := t, key := k, answer := none }
    ({ s with host.chal := s.host.chal ++ [x] },
     .reply (Res.ok (leBytes 2 h ++ zeros 6 ++ nonce ++ devEph ++ fitBytes 64 (Config.deviceSign t))))

/-- SESSION_OPEN (R392). -/
def bodySessionOpen : Body := fixedBody 96 [(9, 1), (12, 4)] fun c p s =>
  let b := p.params
  match SessRole.ofCode (fld b 8 1) with
  | none => (s, .reply (Res.field 40))
  | some role =>
    if s.store.lostKeys.contains .identityKey then (s, .reply (Res.err stFault 0)) else
    let idle := fld b 10 2
    if 0 < idle ∧ idle < 10 then (s, .reply (Res.field 42))
    else
      match s.findIdent (fld b 0 8) with
      | some i =>
        if i.lockedAt s.time.mono then (s, .reply (lockedRes i s.time.mono)) else issueChallenge c p role s
      | none => issueChallenge c p role s

/-- SESSION_CLOSE (R395). -/
def bodySessionClose : Body := fixedBody 0 [] fun _ p s =>
  (s.endSess p.session, .reply Res.ok)

/-- A proof was judged invalid: the handle is discarded, the failure counted, a waiting rival decided (R394, R397). -/
def authInvalid (c : Chal) (s : State) : State × Done :=
  let s := (s.dropChal c).authFail c.identity
  (s.resolveWaiting c.identity c.bay, .reply (Res.err stAuthFail 0))

/-- A valid answer (R397): two from different ends lock the identity; a live rival challenge makes it wait. -/
def authValid (c : Chal) (p : Packet) (s : State) : State × Done :=
  match (rivals s c).find? (·.answer.isSome) with
  | some r =>
    let s := ((s.dropChal c).dropChal r).modIdent c.identity fun i => { i with clone := true }
    let s := s.pulse 968 c.identity
    let s := match r.answer with
      | some e => s.replyWaiting e (Res.err stLockedOut subClone)
      | none => s
    (s, .reply (Res.err stLockedOut subClone))
  | none =>
    if (rivals s c).isEmpty then let (s, r) := s.settleAuth c; (s, .reply r)
    else
      let e : QEntry := ⟨0x0003, p, s.time.mono⟩
      ({ s with host.chal := s.host.chal.map fun x => if x.handle = c.handle then { x with answer := some e } else x },
       .hold .auth)

/-- SESSION_AUTH (R394). -/
def bodySessionAuth : Body := fixedBody 72 [(1, 7)] fun _ p s =>
  let n := fld p.params 0 1
  match s.findChal p.session with
  | none =>
    let id := ((s.host.expired.find? (·.1 == p.session)).map (·.2)).getD 0
    (s.pulse 970 id, .reply (Res.err stAuthFail subExpired))
  | some c =>
    if c.issued + 10 * second ≤ s.time.mono then
      (((s.dropChal c).pulse 970 c.identity).resolveWaiting c.identity c.bay, .reply (Res.err stAuthFail subExpired))
    else if !proofLenOk c.role n then (s, .reply (Res.field 32))
    else if !allZero p.params (8 + n) (64 - n) then (s, .reply (Res.reserved (40 + n)))
    else match s.findIdent c.identity with
    | some i =>
      if i.lockedAt s.time.mono then (s.dropChal c, .reply (lockedRes i s.time.mono))
      else if p.gcmOk && c.canPass && proofOk i c.transcript (slice p.params 8 n) then authValid c p s
      else authInvalid c s
    | none => authInvalid c s

/-! ### Device information -/

/-- GET_READY_MAP (R405). -/
def bodyGetReadyMap : Body := fixedBody 0 [] (readBody fun _ _ s =>
  Res.ok (leBytes 16 s.kiln.ready.toNat ++ leBytes 1 s.phase ++ zeros 7))

/-- DEVICE_INFO (R405). -/
def bodyDeviceInfo : Body := fixedBody 0 [] (readBody fun _ _ s =>
  Res.ok (leBytes 8 Config.deviceSerial ++ leBytes 2 s.kiln.devId ++ leBytes 1 s.kiln.role.code
    ++ leBytes 1 Config.stepping ++ leBytes 4 s.kiln.fwRunning ++ leBytes 4 s.kiln.sealFw ++ zeros 4))

/-! ### Rows -/

def execSessionOpen (p : Packet) (s : State) : Host.Outcome State Fault Refusal :=
  .next (command 0x0001 bodySessionOpen p s)

def execSessionClose (p : Packet) (s : State) : Host.Outcome State Fault Refusal :=
  .next (command 0x0002 bodySessionClose p s)

def execSessionAuth (p : Packet) (s : State) : Host.Outcome State Fault Refusal :=
  .next (command 0x0003 bodySessionAuth p s)

def execGetReadyMap (p : Packet) (s : State) : Host.Outcome State Fault Refusal :=
  .next (command 0x0010 bodyGetReadyMap p s)

def execDeviceInfo (p : Packet) (s : State) : Host.Outcome State Fault Refusal :=
  .next (command 0x0011 bodyDeviceInfo p s)

/-- PACKET_FORWARD (R382): a packet whose TARGET names another device. -/
def execPacketForward (op : Nat) (p : Packet) (s : State) : Host.Outcome State Fault Refusal :=
  if s.serving && p.target != 1023 && !targetLocal p s then .next (s.turnedAway op p (ingress op p s)) else .next s

/-- STREAM_STALL (R377): more than 10 s between two BULK_DATA packets ends the command. -/
def execStreamStall (bay : Fin 8) (queue : Fin 16) (s : State) : Host.Outcome State Fault Refusal :=
  match s.busyOf (queueId bay queue) with
  | some f =>
    match f.kind with
    | .stream _ _ last =>
      if last + 10 * second < s.time.mono then
        .next (s.finishHeld (queueId bay queue) (Res.err stDeadline subStream))
      else .next s
    | _ => .next s
  | none => .next s

/-- SESSION_IDLE_TIMEOUT (R395): IDLE_S without a packet that uses the session. -/
def execSessionIdleTimeout (handle : Nat) (s : State) : Host.Outcome State Fault Refusal :=
  match s.findSess handle with
  | some x => if x.lastUse + x.idleS * second ≤ s.time.mono then .next (s.endSess handle) else .next s
  | none => .next s

/-- CHALLENGE_EXPIRE (R392): 10 s after issue; a waiting valid answer for the identity is then decided (R397). -/
def execChallengeExpire (handle : Nat) (s : State) : Host.Outcome State Fault Refusal :=
  match s.findChal handle with
  | some c =>
    if c.answer.isNone ∧ c.issued + 10 * second ≤ s.time.mono then
      .next ((s.dropChal c).resolveWaiting c.identity c.bay)
    else .next s
  | none => .next s

/-- IDENTITY_LOCK_END (R396): the lock time runs out and the failure count returns to 0. -/
def execIdentityLockEnd (identity : Nat) (s : State) : Host.Outcome State Fault Refusal :=
  match s.findIdent identity with
  | some i =>
    match i.lockEnd with
    | some e => if e ≤ s.time.mono then .next (s.modIdent identity fun i => { i with lockEnd := none, fails := 0 })
                else .next s
    | none => .next s
  | none => .next s

end Sys2Proof.Machine
end

