-- ==== Sys2Proof/Machine/Bays.lean ====
section
/-! DEFINITION. Bays, events, islands and QoS (16 and the group 0x0C opcodes), and the host ports: SPI (R384), PCIe
rings (R383, R541), resets of bays (R426, R427). -/

namespace Sys2Proof.Machine

/-! ### Bay reset (R427) -/

/-- The map of a bay in force, as EVENT_SUBSCRIBE returns it: EV1004 reads 0 outside B0 (R431). -/
def mapInForce (b : Nat) (m : BitVec 1024) : BitVec 1024 :=
  if b = 0 then m else m &&& ~~~ (1#1024 <<< 1004)

/-- Every register of the function's pairs returns to 0 (R540). -/
def State.resetPairs (s : State) (fn : Nat) : State :=
  (List.range 16).foldl (fun s q => { s with host.qp := Tbl.set {} s.host.qp (16 * fn + q) {} }) s

/-- The bay's event queue is emptied, its map returns to its default, SEQ restarts at 0 (R427, R432). -/
def State.resetEvents (s : State) (b : Nat) : State :=
  s.modEv b fun q => { q with map := defaultMap b, queue := [], seq := 0, drops := 0, rangeSeen := 0, dropped := false }

/-- Waiting commands of a bay are discarded without a reply (R427). -/
def State.clearQueues (s : State) (b : Nat) : State :=
  (List.range 16).foldl (fun s q => s.setQueue (queueId b q) []) s

/-- A bulk stream of the bay ends with DEADLINE / STREAM; a SESSION_AUTH that waits under R397 replies NO_SESSION
(log 12). -/
def State.endStreams (s : State) (b : Nat) : State :=
  let s := s.finishKind (fun f => f.entry.pkt.bay == b && (match f.kind with | .stream _ _ _ => true | _ => false))
    (Res.err stDeadline subStream)
  s.finishKind (fun f => f.entry.pkt.bay == b && (match f.kind with | .auth => true | _ => false))
    (Res.err stNoSession 0)

/-- Every session and challenge of a bay ends (R427, log 12). -/
def State.endBaySessions (s : State) (b : Nat) : State :=
  let hs := (s.host.sess.filter (·.bay == b)).map (·.handle)
  let s := hs.foldl State.endSess s
  { s with host.chal := s.host.chal.filter (·.bay != b),
           host.expired := ((s.host.chal.filter (·.bay == b)).map fun c => (c.handle, c.identity)) ++ s.host.expired }

/-- A bay reset (R427), in its order. -/
def State.bayReset (s : State) (b : Nat) : State :=
  let s := ((s.endStreams b).clearQueues b).endBaySessions b
  let s := if 1 ≤ b ∧ b ≤ 7 then s.resetPairs (b - 1) else s
  let s := ((s.resetEvents b).modEv b fun q => { q with resetDone := decide (b ≠ 0) }).pulse 1000 b
  s.raise b 31

/-- BAY_RESET (R415): its own bay at Operator, B1 Operator for B2 to B7, B0 Legal for any.  A reset of the issuing
bay replies before it acts. -/
def bodyBayReset : Body := fixedBody 8 [(1, 7)] fun c p s =>
  let b := fld p.params 0 1
  if 7 < b then (s, .reply (Res.field 32))
  else if (c.bay = b ∧ c.role.meets .operator) ∨ (c.bay = 1 ∧ c.role.meets .operator ∧ 2 ≤ b)
      ∨ (c.bay = 0 ∧ c.role = .legal) then
    if b = c.bay then ((s.answer 0x0C01 p Res.ok).bayReset b, .silent)
    else (s.bayReset b, .reply Res.ok)
  else (s, .reply (Res.err stDenied subRole))

/-! ### Events (R416, R432, R433) -/

/-- A level source that a new map adds while asserted gives one record of KIND 3 (R432). -/
def State.atSubscribe (s : State) (b : Nat) (added : BitVec 1024) : State :=
  s.ev.level.foldl (fun s e => match e.2 with
    | some d =>
      if added.getLsbD e.1 && (e.1 != 1004 || b == 0) then
        s.evPut b { seq := 0, source := e.1, kind := .atSubscribe, afterLoss := false, timeHold := s.time.holdover,
                    timeInvalid := !s.time.valid, replay := !s.kiln.ph.k6, index := s.time.index,
                    time := s.stampNs / 1000, data := d }
      else s
    | none => s) s

/-- Records numbered on from `n` (R432). -/
def renumber (n : Nat) (l : List EvRec) : List EvRec := l.zipIdx.map fun x => { x.1 with seq := (n + x.2) % 2 ^ 32 }

/-- SEQ of the oldest queued record of a bay. -/
def EvBay.first (q : EvBay) : Nat := (q.seq + 2 ^ 32 - q.queue.length) % 2 ^ 32

/-- Occurrences stamped exactly at the execution start belong to the new map (R434): their records leave a queue whose map held only before, and enter
it where the map holds them only now. -/
def State.atStart (s : State) (b : Nat) (old new : BitVec 1024) : State :=
  let now (r : EvRec) : Bool := r.index == s.time.index && r.time == s.stampNs / 1000 && r.kind != .atSubscribe
  let s := s.modEv b fun q =>
    let l := q.queue.filter fun r => r.afterLoss || !(now r && old.getLsbD r.source && !new.getLsbD r.source)
    { q with queue := renumber q.first l, seq := (q.first + l.length) % 2 ^ 32 }
  (s.ev.last.filter fun r => now r && new.getLsbD r.source && !old.getLsbD r.source).reverse.foldl (fun (s : State) r => s.evPut b r) s

/-- EVENT_SUBSCRIBE (R416). -/
def bodyEventSubscribe : Body := fixedBody 136 [(1, 7)] fun c p s =>
  let mode := fld p.params 0 1
  if 2 < mode then (s, .reply (Res.field 32))
  else
    let given := BitVec.ofNat 1024 (fld p.params 8 128)
    let old := (s.evBay c.bay).map
    let new := mapInForce c.bay (if mode = 0 then given else if mode = 1 then old ||| given else old &&& ~~~ given)
    let s := s.modEv c.bay fun q => { q with map := new }
    let s := s.atStart c.bay (mapInForce c.bay old) new
    (s.atSubscribe c.bay (new &&& ~~~ old), .reply (Res.ok (leBytes 128 new.toNat)))

def EvKind.code : EvKind → Nat
  | .pulse => 0 | .assert => 1 | .deassert => 2 | .atSubscribe => 3

/-- The 32 bytes of an event record (R432). -/
def EvRec.bytes (r : EvRec) : Bytes :=
  leBytes 4 r.seq ++ leBytes 2 r.source ++ leBytes 1 r.kind.code
    ++ leBytes 1 (bitsNat [r.afterLoss, r.timeHold, r.timeInvalid, r.replay])
    ++ leBytes 8 r.index ++ leBytes 8 r.time ++ leBytes 8 r.data

/-- Space returned to a bay that dropped records: EV1005 pulses, its record carrying AFTER_LOSS in the bay's own
queue whatever its map, and it is routed to every other bay whose map holds it (R433). -/
def State.afterDrops (s : State) (b : Nat) : State :=
  let q := s.evBay b
  if q.drops = 0 ∨ 4096 ≤ q.queue.length then s
  else
    let r : EvRec :=
      { seq := 0, source := 1005, kind := .pulse, afterLoss := true, timeHold := s.time.holdover,
        timeInvalid := !s.time.valid, replay := !s.kiln.ph.k6, index := s.time.index, time := s.stampNs / 1000,
        data := b + q.drops % 2 ^ 32 * 256 }
    let s := ({ s with ev.last := (r :: s.ev.last).take 4096 }.modEv b fun q => { q with drops := 0 }).evPut b r
    (List.range 8).foldl (fun s x =>
      if x != b && s.subscribed x 1005 then s.evPut x { r with afterLoss := false } else s) s

/-- Stamp order, ties by ascending source number (R432). -/
def EvRec.before (x y : EvRec) : Bool :=
  decide (x.index < y.index) || (x.index == y.index && (decide (x.time < y.time) || (x.time == y.time && decide (x.source < y.source))))

/-- Put a record into records in reverse stamp order; none passes the record of a loss, which was placed first (R433). -/
def insertStamp (r : EvRec) : List EvRec → List EvRec
  | [] => [r]
  | x :: t => if r.before x && !x.afterLoss && !r.afterLoss then x :: insertStamp r t else r :: x :: t

/-- The records of a bay as they leave EVENT_READ: in stamp order, numbered in that order. -/
def EvBay.ordered (q : EvBay) : List EvRec := renumber q.first (q.queue.foldl (fun l r => insertStamp r l) []).reverse

/-- EVENT_READ (R433): returns up to MAX records, oldest first, and removes them. -/
def bodyEventRead : Body := fixedBody 8 [(2, 6)] fun c p s =>
  let mx := fld p.params 0 2
  if mx = 0 ∨ 1024 < mx then (s, .reply (Res.field 32))
  else
    let q := s.evBay c.bay
    let out := q.ordered.take mx
    let s := s.modEv c.bay fun q => { q with queue := q.ordered.drop mx, rangeSeen := 0 }
    (s.afterDrops c.bay,
     .reply (Res.ok (leBytes 2 out.length ++ zeros 6 ++ out.flatMap EvRec.bytes)))

/-! ### QoS (R424) -/

/-- The shares of a class with a bay's settings replaced sum to at most 1,000 each (R415). -/
def sharesFit (s : State) (b : Nat) (q : Qos) : Bool :=
  let l := ((List.range 8).map fun i => if i = b then q else s.qosOf i).filter (·.cls == q.cls)
  (l.map (·.tile)).sum ≤ 1000 && (l.map (·.dram)).sum ≤ 1000 && (l.map (·.link)).sum ≤ 1000
    && (l.map (·.cmd)).sum ≤ 1000

/-- QOS_SET (R415): B1 Operator for B1 to B7, B0 Legal for every bay; TARGET_BAY 0 is BAD_PARAM (R424). -/
def bodyQosSet : Body := fixedBody 16 [(2, 2), (12, 4)] fun _ p s =>
  let b := fld p.params 0 1
  let q : Qos := ⟨fld p.params 1 1, fld p.params 4 2, fld p.params 6 2, fld p.params 8 2, fld p.params 10 2⟩
  if b = 0 ∨ 7 < b then (s, .reply (Res.field 32))
  else if q.cls < 1 ∨ 3 < q.cls then (s, .reply (Res.field 33))
  else match [(q.tile, 36), (q.dram, 38), (q.link, 40), (q.cmd, 42)].find? fun x => x.1 = 0 || 1000 < x.1 with
  | some x => (s, .reply (Res.field x.2))
  | none =>
    if !sharesFit s b q then (s, .reply (Res.field 36))
    else (({ s with host.qos := Tbl.set none s.host.qos b (some q) }).pulse 1006 b, .reply Res.ok)

/-- QOS_READ (R415). -/
def bodyQosRead : Body := fixedBody 8 [(1, 7)] (readBody fun _ p s =>
  let b := fld p.params 0 1
  if 7 < b then Res.field 32
  else
    let q := s.qosOf b
    Res.ok (leBytes 1 q.cls ++ zeros 1 ++ leBytes 2 q.tile ++ leBytes 2 q.dram ++ leBytes 2 q.link ++ leBytes 2 q.cmd))

def execBayReset (p : Packet) (s : State) : Host.Outcome State Fault Refusal := .next (command 0x0C01 bodyBayReset p s)
def execEventSubscribe (p : Packet) (s : State) : Host.Outcome State Fault Refusal :=
  .next (command 0x0C10 bodyEventSubscribe p s)
def execEventRead (p : Packet) (s : State) : Host.Outcome State Fault Refusal := .next (command 0x0C11 bodyEventRead p s)
def execQosSet (p : Packet) (s : State) : Host.Outcome State Fault Refusal := .next (command 0x0C30 bodyQosSet p s)
def execQosRead (p : Packet) (s : State) : Host.Outcome State Fault Refusal := .next (command 0x0C31 bodyQosRead p s)

/-! ### SPI host port (R384) -/

/-- RX_READY: the port serves, and it is not holding a packet while 16 replies are held. -/
def rxReady (s : State) : Bool :=
  s.serving && !(16 ≤ s.host.spi.length
    && s.host.queue.any fun e => e.2.any fun x => x.pkt.transport == .spi)

/-- EVENT_WAITING: records are queued for the port's bay, or for B0 while a live B0 session is bound to the port
(R425). -/
def eventWaiting (s : State) : Bool :=
  !(s.evBay (s.key (kUdp 2))).queue.isEmpty
    || (!(s.evBay 0).queue.isEmpty && s.host.sess.any fun x => x.bay == 0 && x.peer == .spi)

/-- The STATUS byte (R384). -/
def spiStatusByte (s : State) : Nat :=
  bitsNat [rxReady s, !s.host.spi.isEmpty, eventWaiting s, s.host.spiDropped]

/-- HS_IRQ_N: low while REPLY_WAITING or EVENT_WAITING is 1 (R384); high in F4 (R503). -/
def hsIrqN (s : State) : Bool := s.fault.f4 || (s.host.spi.isEmpty && !eventWaiting s)

/-- The first byte of a transaction shifts out STATUS; DROPPED is RC. -/
def State.spiFirst (s : State) : State :=
  { s with win.spiStatus := spiStatusByte s, host.spiDropped := false }

/-- SPI_WRITE (R384): one packet, discarded while RX_READY is 0.  What is shorter than a header has no reply. -/
def execSpiWrite (bytes : Bytes) (s : State) : Host.Outcome State Fault Refusal :=
  let ok := rxReady s
  let s := s.spiFirst
  if !ok then .next { s with host.spiDropped := true }
  else match parsePacket .spi true [] bytes with
  | some (code, p) => .next (arriveQueue code p s)
  | none => .next s

/-- SPI_READ (R384): LEN and the oldest reply; a reply clocked out completely leaves the queue. -/
def execSpiRead (clocked : Nat) (s : State) : Host.Outcome State Fault Refusal :=
  let s := s.spiFirst
  match s.host.spi with
  | [] => .next { s with win.spiOut := (zeros 4).take clocked }
  | r :: rest =>
    let s := { s with win.spiOut := (leBytes 4 r.length ++ r).take clocked }
    if 4 + r.length ≤ clocked then .next { s with host.spi := rest } else .next s

/-! ### PCIe rings (R383, R541) -/

/-- Fetch one submission entry: the packet arrives at its queue; a rejected DMA access sets ERROR with ERR_CODE 2.
An entry of PKT_LEN 0 serves a continuation reply (R383) and holds no packet. -/
def State.fetchOne (s : State) (fn : Fin 7) (q : Fin 16) (e : Fetch) : State :=
  let next := s.modQp fn q fun x => { x with sqHead := (x.sqHead + 1) % x.sqSize }
  match e.pkt with
  | none => s.modQp fn q fun x => { x with error := true, errCode := 2 }
  | some bs =>
    if e.pktLen = 0 then (next.modQp fn q fun x => { x with caps := x.caps ++ [e.rspCap] }).addConts fn q []
    else match parsePacket (.pcie fn q e.rspCap) true e.bulk (fitBytes e.pktLen bs) with
    | some (code, p) => arriveQueue code p next
    | none => next

/-- Fetch entries while the pair runs without error and SQ_HEAD has not reached SQ_TAIL. -/
def State.fetchAll (s : State) (fn : Fin 7) (q : Fin 16) : List Fetch → State
  | [] => s
  | e :: rest =>
    let x := s.qpOf fn q
    if x.running && !x.error && x.sqHead != x.sqTail && s.serving then (s.fetchOne fn q e).fetchAll fn q rest
    else s

/-- A write of SQ_TAIL (R541): a value at or above the ring size sets ERROR with ERR_CODE 3. -/
def State.sqDoorbell (s : State) (fn : Fin 7) (q : Fin 16) (v : Nat) (host : List Fetch) : State :=
  let x := s.qpOf fn q
  if !x.enable || s.fault.f4 then s
  else if x.sqSize ≤ v then s.modQp fn q fun x => { x with error := true, errCode := 3 }
  else (s.modQp fn q fun x => { x with sqTail := v }).fetchAll fn q host

/-- SQ_TAIL_DOORBELL. -/
def execSqTailDoorbell (fn : Fin 7) (q : Fin 16) (v : Nat) (host : List Fetch) (s : State) :
    Host.Outcome State Fault Refusal := .next (s.sqDoorbell fn q v host)

/-- Write the completions that waited for space (R541). -/
def State.drainCq (s : State) (fn : Fin 7) (q : Fin 16) : List (Reply × Nat × Bool) → State
  | [] => s
  | (r, cap, silent) :: rest =>
    let x := s.qpOf fn q
    if x.cqFull then s
    else ((s.modQp fn q fun x => { x with waiting := rest }).complete fn q cap r silent).drainCq fn q rest

/-- A write of CQ_HEAD (R541): frees completion slots; a waiting completion proceeds, and fetching goes on. -/
def State.cqDoorbell (s : State) (fn : Fin 7) (q : Fin 16) (v : Nat) (host : List Fetch) : State :=
  let x := s.qpOf fn q
  if !x.enable || s.fault.f4 then s
  else if x.cqSize ≤ v then s.modQp fn q fun x => { x with error := true, errCode := 3 }
  else
    let s := s.modQp fn q fun x => { x with cqHead := v }
    (s.drainCq fn q x.waiting).fetchAll fn q host

/-- CQ_HEAD_DOORBELL. -/
def execCqHeadDoorbell (fn : Fin 7) (q : Fin 16) (v : Nat) (host : List Fetch) (s : State) :
    Host.Outcome State Fault Refusal := .next (s.cqDoorbell fn q v host)

/-- The ring configuration is sound: 64-byte alignment and sizes 1 to 12 (R540). -/
def Qp.configOk (x : Qp) : Bool :=
  x.sqBaseLo.toNat % 64 == 0 && x.cqBaseLo.toNat % 64 == 0
    && 1 ≤ x.size.toNat % 16 && x.size.toNat % 16 ≤ 12
    && 1 ≤ x.size.toNat / 256 % 16 && x.size.toNat / 256 % 16 ≤ 12

/-- ENABLE = 1 (R541): zeroes the indexes and starts the pair, or sets ERROR with ERR_CODE 1. -/
def State.qpEnable (s : State) (fn : Fin 7) (q : Fin 16) : State :=
  let x := s.qpOf fn q
  if x.enable || s.fault.f4 then s
  else if x.configOk then
    s.modQp fn q fun x => { x with enable := true, sqTail := 0, cqHead := 0, sqHead := 0, cqTail := 0, running := true, phase := true,
                                   waiting := [], caps := [], conts := [] }
  else s.modQp fn q fun x => { x with enable := true, error := true, errCode := 1 }

/-- QP_ENABLE. -/
def execQpEnable (fn : Fin 7) (q : Fin 16) (s : State) : Host.Outcome State Fault Refusal := .next (s.qpEnable fn q)

/-- ENABLE = 0 (R541): stops the pair and clears RUNNING, ERROR and ERR_CODE. -/
def State.qpDisable (s : State) (fn : Fin 7) (q : Fin 16) : State :=
  if s.fault.f4 then s
  else s.modQp fn q fun x => { x with enable := false, running := false, error := false, errCode := 0 }

/-- QP_DISABLE. -/
def execQpDisable (fn : Fin 7) (q : Fin 16) (s : State) : Host.Outcome State Fault Refusal := .next (s.qpDisable fn q)

/-- PERST_N_ASSERT (R383, R426): every session bound to PCIe ends; queues and maps of B1 to B7 are reset (log 13); the link leaves L2. -/
def execPerstNAssert (s : State) : Host.Outcome State Fault Refusal :=
  let hs := (s.host.sess.filter fun x => x.peer.isPcie).map (·.handle)
  let s := hs.foldl State.endSess s
  .next { (List.range 7).foldl (fun (s : State) i => ((s.clearQueues (i + 1)).resetPairs i).resetEvents (i + 1)) s with host.pcieL2 := false }

/-- FUNCTION_LEVEL_RESET (R383): acts as BAY_RESET of the function's bay. -/
def execFunctionLevelReset (fn : Fin 7) (s : State) : Host.Outcome State Fault Refusal :=
  .next (s.bayReset (fn.val + 1))

end Sys2Proof.Machine
end

