-- ==== Sys2Proof/Machine/Filters.lean ====
section
/-! DEFINITION. The filters and transforms of the metrology on streams of samples (R34, R64, R70, R74, R118).  A stream is a function of the course sample
number; coefficients the manual does not give are those of Config (log 14). -/

namespace Sys2Proof.Machine

/-- Σ tap i × x i for i < n. -/
def convolve (n : Nat) (tap x : Nat → Int) : Int := (List.range n).foldl (fun a i => a + tap i * x i) 0

/-! ### One decimator (R34) -/

/-- One captured bit through the four integrators: 1 stands for +1, 0 for -1 (R27). -/
def decBit (d : Dec) (b : Bool) : Dec :=
  let i1 := if b then d.i1 + 1 else d.i1 - 1
  let i2 := d.i2 + i1
  let i3 := d.i3 + i2
  let i4 := d.i4 + i3
  { d with i1 := i1, i2 := i2, i3 := i3, i4 := i4 }

/-- The bits of one course sample through the integrators, the first captured bit first. -/
def decIntegrate (d : Dec) (bits : BitVec 160) : Dec := (List.range 160).foldl (fun d i => decBit d (bits.getLsbD i)) d

/-- The four combs at the course rate, and the sinc4 output in 160^-4 into the line of the FIR. -/
def decComb (d : Dec) : Dec :=
  let y1 := d.i4 - d.c1
  let y2 := y1 - d.c2
  let y3 := y2 - d.c3
  let y4 := y3 - d.c4
  { d with c1 := d.i4, c2 := y1, c3 := y2, c4 := y3, line := (y4.toInt :: d.line).take 32 }

/-- One course sample of a decimator. -/
def decStep (bits : BitVec 160) (d : Dec) : Dec := decComb (decIntegrate d bits)

/-- The normalised raw output of the FIR in 2^-63 at a trim of `tau` in 2^-20 sample (R35, R38): within [-1, 1]. -/
def decOut (tau : Int) (d : Dec) : Int :=
  max (-(2 ^ 63)) (min (2 ^ 63) (roundDiv (2 * convolve 32 (Config.firTap tau) fun i => d.line.getD i 0) (160 ^ 4)))

/-! ### Linear-phase filters -/

/-- A linear-phase filter of 2 × h + 1 taps centred on course sample `u` of a stream whose samples lie `st` apart. -/
def centred (h st : Nat) (tap : Nat → Int) (x : Nat → Int) (u : Nat) : Int :=
  convolve (2 * h + 1) (fun i => tap (if i ≤ h then h - i else i - h)) fun i => if u + st * h < st * i then 0 else x (u + st * h - st * i)

/-- The zero-crossing filter's output at the latest course sample `u`, in 2^-125: it stands for the sample 31 before (R64). -/
def zcFiltered (st : Nat) (x : Nat → Int) (u : Nat) : Int := if u < 31 * st then 0 else centred 31 st Config.zcTap x (u - 31 * st)

/-! ### The voltage shifted by 90° (R70, R162) -/

/-- A voltage at 16 kS/s, at sample index `g`, rounded into Q1.63: its filter is as long as D_Q leaves. -/
def at16k (wide : Bool) (tap : Bool → Nat → Int) (x : Nat → Int) (g : Nat) : Int :=
  roundDiv (centred (if wide then 8 else 4) (if wide then 1 else 2) (tap wide) x (2 * g)) (2 ^ 62)

/-- An anti-symmetric FIR of 2 × h + 1 taps at 16 kS/s centred on sample index `j`, rounded into Q1.63. -/
def shift90 (h : Nat) (tap : Nat → Int) (x : Nat → Int) (j : Nat) : Int :=
  roundDiv (convolve (2 * h + 1) (fun i => if i < h then -tap (h - i) else if i = h then 0 else tap (i - h))
    fun i => if j + 4 * h < 4 * i then 0 else x (j + 4 * h - 4 * i)) (2 ^ 62)

/-- The bond's shifted voltage of index `j`: a 1,023-tap filter. -/
def shiftedBond (wide : Bool) (x : Nat → Int) (j : Nat) : Int := shift90 511 Config.shiftTap (at16k wide Config.decimateTap x) j

/-- The footing unit's: a 255-tap filter on samples truncated to Q1.23. -/
def shiftedFoot (wide : Bool) (x : Nat → Int) (j : Nat) : Int :=
  shift90 127 Config.footShiftTap (at16k wide Config.footDecimateTap fun u => (x u).ediv (2 ^ 40) * 2 ^ 40) j

/-! ### Sines and cosines -/

/-- π in 2^-128. -/
def piQ128 : Int := 0x3243F6A8885A308D313198A2E03707344

/-- Σ of the series of sine or cosine from a first term on, each next term by -x² / ((k + 1)(k + 2)); x² in 2^-128. -/
def trigSeries (x2 : Int) : Nat → Nat → Int → Int
  | 0, _, _ => 0
  | n + 1, k, t => t + trigSeries x2 n (k + 2) (-(roundDiv (t * x2) (2 ^ 128 * ((k + 1) * (k + 2)))))

/-- cos and sin of 2π × n / d in 2^-62. -/
def cosSin (n d : Nat) : Int × Int :=
  let q := (2 * (4 * (n % d)) + d) / (2 * d)
  let x := roundDiv (2 * piQ128 * ((4 * (n % d) : Nat) - (q * d : Nat) : Int)) (4 * d)
  let x2 := roundDiv (x * x) (2 ^ 128)
  let c := roundDiv (trigSeries x2 24 0 (2 ^ 128)) (2 ^ 66)
  let s := roundDiv (trigSeries x2 24 1 x) (2 ^ 66)
  match q % 4 with
  | 0 => (c, s)
  | 1 => (-s, c)
  | 2 => (-c, -s)
  | _ => (s, -c)

/-- Bin `k` of the transform of a list of samples in Q1.63, in 2^-50 of full scale. -/
def dftBin (n : Nat) (x : List Int) (k : Nat) : Cx :=
  let z := x.zipIdx.foldl (fun (a : Cx) e => let w := cosSin (k * e.2) n; ⟨a.re + e.1 * w.1, a.im - e.1 * w.2⟩) Cx.zero
  ⟨roundDiv z.re (2 ^ 75), roundDiv z.im (2 ^ 75)⟩

/-! ### Synchronous resampling (R74) -/

/-- The stream after the anti-alias filter, its delay removed, in Q1.63. -/
def antiAliased (st : Nat) (x : Nat → Int) (u : Nat) : Int := roundDiv (centred 95 st Config.aliasTap x u) (2 ^ 62)

/-- The stream at an instant of `num / den` course samples of the numbering: a 16-tap filter of 1,024 phases, linear between adjacent phases. -/
def resampled (st : Nat) (x : Nat → Int) (num den : Nat) : Int :=
  let d := den * st
  let n := num / d
  let f := num % d * 1024
  let ph := f / d
  let mu : Int := f % d
  roundDiv (convolve 16 (fun i => ((d : Int) - mu) * Config.resampleTap ph i + mu * Config.resampleTap (ph + 1) i)
    fun i => if n + i < 7 then 0 else x (st * (n + i - 7))) (2 ^ 62 * d)

/-- The 2,048 points of a window whose ends lie at `a` and `e` in 2^-17 sample index. -/
def windowPoints (st : Nat) (x : Nat → Int) (a e : Nat) : List Int :=
  (List.range 2048).map fun j => resampled st (antiAliased st x) (2048 * a + j * (e - a)) (2048 * 2 ^ 16)

end Sys2Proof.Machine
end

