-- ==== Sys2Proof/Machine/Courses.lean ====
section
/-! DEFINITION. Courses and sensor inputs (02): scaling, decimator comparison, range pairing, overrange, temperature
compensation and the input diagnostics, with the event rows of chapter 02. -/

namespace Sys2Proof.Machine

/-! ### Reading and changing channels, courses, clocks -/

def State.chan (s : State) (c : Nat) : Chan := Tbl.get {} s.front.chan c
def State.modChan (s : State) (c : Nat) (g : Chan → Chan) : State :=
  { s with front.chan := Tbl.upd {} s.front.chan c g }
def State.course (s : State) (k : Nat) : Course := Tbl.get {} s.front.course k
def State.modCourse (s : State) (k : Nat) (g : Course → Course) : State :=
  { s with front.course := Tbl.upd {} s.front.course k g }
def State.mclk (s : State) (j : Nat) : Mclk := Tbl.get {} s.front.mclk j
def State.modMclk (s : State) (j : Nat) (g : Mclk → Mclk) : State :=
  { s with front.mclk := Tbl.upd {} s.front.mclk j g }

/-- Full scale of Q1.63. -/
def fs63 : Int := 2 ^ 63

/-- TAG bits of R39. -/
def tagInvalid : BitVec 8 := 0x01
def tagSettling : BitVec 8 := 0x02
def tagLowRange : BitVec 8 := 0x04
def tagOverrange : BitVec 8 := 0x08
def isInvalid (t : BitVec 8) : Bool := t.getLsbD 0

/-- The course whose clock MCLK j carries: its own for 0 to 5, the SOURCE's for the copies (R31). -/
def mclkCourse (ks : KeySet) (j : Nat) : Option Nat :=
  if j < 6 then some j else let k := ks.get (kMclkSource j); if k < 6 then some k else none

/-- Is MCLK j running? -/
def State.mclkRuns (s : State) (j : Nat) : Bool :=
  match mclkCourse s.cfg.active j with
  | some k => (s.course k).running
  | none => false

/-- The channels of a course (R26). -/
def courseChannels (k : Nat) : List Nat := (List.range 8).map fun i => 8 * k + i

/-- MCLK_FAULT of a channel: the clock of its course, or a copy of it, is in fault (R55, R57). -/
def State.mclkFaultOf (s : State) (c : Nat) : Bool :=
  (List.range 8).any fun j => (s.mclk j).fault && mclkCourse s.cfg.active j == some (courseOf c)

/-! ### Scaling (R38) -/

/-- The exact numerator of y × 2^63 over MOD_FS × 2^30 (R38). -/
def scaleNum (ks : KeySet) (c : Nat) (gT r : Int) : Int :=
  let sgn : Int := if ks.get (kC c 6) = 1 then -1 else 1
  (r - ks.getS (kC c 3) * 2 ^ 32) * ks.getS (kC c 4) * (2 ^ 31 + gT) * sgn

/-- Clamp to [-1, 1 - 2^-63] (R38). -/
def clamp63 (v : Int) : Int := max (-fs63) (min (fs63 - 1) v)

/-- The sample value and whether it was clamped (R38). -/
def scaleSample (ks : KeySet) (c : Nat) (gT r : Int) : Int × Bool :=
  let v := roundDiv (scaleNum ks c gT r) ((ks.getS (kC c 2)).toNat * 2 ^ 30)
  (clamp63 v, clamp63 v != v)

/-! ### Overrange levels (R53) and range levels (R44) -/

/-- |y| ≥ OVR_LEVEL. -/
def overLevel (ks : KeySet) (c : Nat) (y : Int) : Bool := decide ((ks.get (kC c 8) : Int) * 2 ^ 48 ≤ (y.natAbs : Int))

/-- |y| < OVR_LEVEL - 0.05. -/
def underRelease (ks : KeySet) (c : Nat) (y : Int) : Bool :=
  decide (20 * (y.natAbs : Int) < 20 * (ks.get (kC c 8) : Int) * 2 ^ 48 - fs63)

/-- |y_L| > 0.95. -/
def above95 (y : Int) : Bool := decide (19 * fs63 < 20 * (y.natAbs : Int))

/-- |y_L| < 0.80. -/
def below80 (y : Int) : Bool := decide (5 * (y.natAbs : Int) < 4 * fs63)

/-- L's value in units of H's full scale, rounded to nearest, ties to even (R43). -/
def lowScaled (ks : KeySet) (h l : Nat) (y : Int) : Int :=
  clamp63 (roundDiv (y * ks.get (kC l 1)) (ks.get (kC h 1)))

/-- The clamp value of R45: 0.95 × PRIMARY_FS(L) / PRIMARY_FS(H) with the sign of y_L. -/
def lowClamped (ks : KeySet) (h l : Nat) (y : Int) : Int :=
  let m := roundDiv (19 * fs63 * ks.get (kC l 1)) (20 * ks.get (kC h 1))
  if y < 0 then -m else m

/-! ### One channel's own sample at a boundary (R36 to R39, R52) -/

/-- What the decimator comparison decides; the value delivered and whether it was clamped. -/
inductive Verdict where
  | same (y : Int × Bool)
  | fixed (y : Int × Bool) (badA : Bool)
  | lost
  deriving DecidableEq, Repr

/-- R36, R37: the values after scaling equal; differing with exactly one residue failure; unresolved. -/
def compareDecimators (a b : Int × Bool) (failA failB : Bool) : Verdict :=
  if a.1 = b.1 then .same a
  else if failA && !failB then .fixed b true
  else if failB && !failA then .fixed a false
  else .lost

/-- The total trim τ in 2^-20 sample and whether it was limited to -1.0 to +3.0 samples (R49). -/
def trim (ks : KeySet) (c : Nat) (pT : Int) : Int × Bool :=
  let t := ks.getS (kC c 5) + pT * 256
  let l := max (-(2 ^ 20)) (min (3 * 2 ^ 20) t)
  (l, l != t)

/-- The action due at a boundary: one decimator takes the other's whole state (R36), or both restart (R37). -/
def Chan.reloaded (x : Chan) : Chan :=
  match x.reload with
  | 1 => { x with a := x.b, reload := 0 }
  | 2 => { x with b := x.a, reload := 0 }
  | 3 => { x with a := {}, b := {}, reload := 0 }
  | _ => x

/-- Both decimators take the captured bits of a course sample; an upset leaves other registers behind (R34, R36). -/
def Chan.decimate (i : ChanIn) (x : Chan) : Chan :=
  { x.reloaded with a := i.upA.getD (decStep i.bits x.reloaded.a), b := i.upB.getD (decStep i.bits x.reloaded.b) }

/-- What the comparison decides for a channel once its decimators have taken the bits (R35 to R38). -/
def decimated (ks : KeySet) (i : ChanIn) (x : Chan) : Verdict :=
  let tau := (trim ks i.ch x.pT).1
  compareDecimators (scaleSample ks i.ch x.gT (decOut tau x.a)) (scaleSample ks i.ch x.gT (decOut tau x.b)) i.failA i.failB

/-- The channel's own sample: the value and tag it delivers, and the mismatch counts and events. -/
def ownSample (i : ChanIn) (s : State) : State :=
  let c := i.ch.val
  let s := s.modChan c (Chan.decimate i)
  let x := s.chan c
  let v := decimated s.cfg.active i x
  let s := match v with
    | .same _ => s
    | .fixed _ badA => (s.modChan c fun x => { x with reload := if badA then 1 else 2, fixed := bumpAllSat 255 1 x.fixed }).f0
    | .lost => ((s.modChan c fun x => { x with reload := 3, lost := bumpAllSat 255 1 x.lost }).pulse (8 * c + 5)).f1 0
  let settling := 0 < x.settle
  let gone := v == .lost
  let s := s.modChan c fun x =>
    { x with settle := if gone then max 40 (x.settle - 1) else x.settle - 1, lostLeft := if gone then 41 else x.lostLeft - 1 }
  match v with
  | .same y | .fixed y _ =>
    s.modChan c fun x =>
      if settling then { x with y := 0, tag := tagInvalid ||| tagSettling }
      else if x.opn || x.stuck || x.frontFailed then { x with y := 0, tag := tagInvalid }
      else { x with y := y.1, tag := if y.2 then tagOverrange else 0 }
  | .lost => s.modChan c fun x => { x with y := 0, tag := if settling then tagInvalid ||| tagSettling else tagInvalid }

/-- The state of R53 on a stream: entry and the release run; `y`, `t` are value and tag of the sample. -/
def ovrStep (ks : KeySet) (c : Nat) (y : Int) (t : BitVec 8) (x : Chan) : Chan × Bool :=
  if isInvalid t then (x, false)
  else if overLevel ks c y || t.getLsbD 3 then ({ x with ovr := true, ovrRun := 0 }, !x.ovr)
  else if x.ovr then ({ x with ovrRun := if underRelease ks c y then x.ovrRun + 1 else 0 }, false)
  else (x, false)

/-- The partner a channel names, when it names one (R43). -/
def pairOf (ks : KeySet) (h : Nat) : Option Nat := let l := ks.get (kC h 7); if l < 48 then some l else none

/-- The high-range channel that names a channel as its low-range partner. -/
def highOf (ks : KeySet) (l : Nat) : Option Nat := (List.range 48).find? fun h => pairOf ks h == some l

/-- Enter the overrange state on a stream and report EV(8c + 2); its samples carry OVERRANGE (R53). -/
def ovrStream (combined : Bool) (c : Nat) (s : State) : State :=
  let x := s.chan c
  let y := if combined then x.yc else x.y
  let t := if combined then x.tagc else x.tag
  let (x', entered) := ovrStep s.cfg.active c y t x
  let t' := if x'.ovr && !isInvalid t then t ||| tagOverrange else t
  let s := s.modChan c fun _ => if combined then { x' with tagc := t' } else { x' with tag := t' }
  if entered then s.level (8 * c + 2) true else s

/-- The combined stream of an unpaired channel is its own stream. -/
def plainStream (c : Nat) (s : State) : State :=
  let s := ovrStream false c s
  s.modChan c fun x => { x with yc := x.y, tagc := x.tag }

/-- The sample of the low-range channel of a pair that uses the range `low` at it: the overrange state is not entered while the pair uses H (R43). -/
def lowStream (l : Nat) (low : Bool) (s : State) : State :=
  let s := if low || (s.chan l).ovr then ovrStream false l s else s
  s.modChan l fun x => { x with yc := x.y, tagc := x.tag }

/-- The selected range after a sample of a pair (R44, R45), and the high-to-low run. -/
def rangeStep (cycle : Nat) (yL : Int) (lInvalid : Bool) (low : Bool) (run : Nat) : Bool × Nat :=
  if lInvalid then (false, 0)
  else if low then (if above95 yL then (false, 0) else (true, run))
  else if below80 yL then (if run + 1 ≥ cycle then (true, run + 1) else (false, run + 1))
  else (false, 0)

/-- The combined sample of a pair and its tag for a selected range (R43, R45). -/
def combine (ks : KeySet) (h l : Nat) (xh xl : Chan) (low : Bool) : Int × BitVec 8 :=
  let hi := isInvalid xh.tag
  let li := isInvalid xl.tag
  if hi && li then (0, tagInvalid ||| (xh.tag &&& tagSettling))
  else if hi then
    if above95 xl.y then (lowClamped ks h l xl.y, tagLowRange ||| tagOverrange)
    else (lowScaled ks h l xl.y, tagLowRange)
  else if low then (lowScaled ks h l xl.y, tagLowRange)
  else (xh.y, xh.tag)

/-- One sample of a pair: range switching, the combined sample, and H's overrange state on it.  The first sample of a pair that a swap
made or changed is taken from H and counts for no run (R58).  A move to the high
range reports EV(8c + 4) on L here; the move to the low range is reported by RANGE_SWITCH_DOWN (log 15). -/
def pairStream (h l : Nat) (s : State) : State :=
  let ks := s.cfg.active
  let xh := s.chan h
  let xl := s.chan l
  let cycle := ks.get (kCourse (courseOf h) 3)
  let wasLow := xh.low
  let (low, run) := if xh.pairNew then (false, 0)
    else rangeStep cycle xl.y (isInvalid xl.tag) (wasLow || cycle ≤ xh.lowRun) xh.lowRun
  let (y, t) := combine ks h l xh xl low
  let s := s.modChan h fun x => { x with yc := y, tagc := t, low := wasLow && low, lowRun := run, pairNew := false }
  let s := if wasLow && !low then s.pulse (8 * l + 4) else s
  lowStream l low (ovrStream true h s)

/-- All streams of one course sample, the low-range partners with their pairs. -/
def combineStreams (chs : List Nat) (s : State) : State :=
  chs.foldl (fun s c =>
    match pairOf s.cfg.active c with
    | some l => pairStream c l s
    | none => match highOf s.cfg.active c with
      | some _ => s
      | none => plainStream c s) s

/-! ### Courses starting and stopping (R32, R57, R58) -/

/-- A channel as it stands when its course starts: SETTLING for 40 + STARTUP_SAMPLES course samples; every detection
afresh unless its states are kept (R58, a change of WIDE). -/
def Chan.started (keep : Bool) (n : Nat) (x : Chan) : Chan :=
  if keep then { x with settle := n, lostLeft := 0, tag := 0x03, tagc := 0x03, y := 0, yc := 0, a := {}, b := {}, reload := 0 }
  else { x with settle := n, lostLeft := 0, a := {}, b := {}, opn := false, openRun := 0, openQuiet := 0, stuck := false,
                identical := false, ovr := false, ovrRun := 0, polarity := false, low := false, lowRun := 0,
                tag := 0x03, tagc := 0x03, y := 0, yc := 0, reload := 0 }

/-- A course's MCLK starts or changes frequency and its decimators restart (R32). -/
def State.startCourse (s : State) (k : Nat) (keep : Bool) : State :=
  let n := 40 + s.key (kCourse k 4)
  let s := s.modCourse k fun _ => { running := true, wide := s.keyOn (kCourse k 1) }
  (courseChannels k).foldl (fun s c => s.modChan c (Chan.started keep n)) s

/-- Every asserted source of a channel deasserts (R32). -/
def State.quietChannel (s : State) (c : Nat) : State :=
  (List.range 8).foldl (fun s n => s.level (8 * c + n) false) s

/-- A course stops at a swap sample: its channels' states end, their sources deassert, a clock fault ends (R32, R57).  The last sample it delivers has
value 0 and carries INVALID and SWAP_RESTART (R437). -/
def State.stopCourse (s : State) (k : Nat) : State :=
  let s := s.modCourse k fun _ => {}
  let s := s.modMclk k fun _ => {}
  (courseChannels k).foldl (fun s c =>
    (s.modChan c fun x => { Chan.started false 0 x with tag := 0x21, tagc := 0x21 }).quietChannel c) s

/-! ### Temperature compensation (R46 to R49) -/

/-- Linear interpolation between two points, rounded to nearest (R47). -/
def lerp (x0 y0 x1 y1 x : Int) : Int := y0 + roundDiv ((y1 - y0) * (x - x0)) (x1 - x0).toNat

/-- g_T and p_T of a table with `n` points at a mean (R47). -/
def tcLookup (t n : Nat) (x : Int) : Int × Int :=
  let es := (List.range n).map (tcEntry t)
  match es.filter (fun e => decide (e.1 ≤ x)) |>.getLast?, es.find? (fun e => decide (x < e.1)) with
  | none, none => (0, 0)
  | none, some b => (b.2.1, b.2.2)
  | some a, none => (a.2.1, a.2.2)
  | some a, some b => (lerp a.1 a.2.1 b.1 b.2.1 x, lerp a.1 a.2.2 b.1 b.2.2 x)

/-- Put TC values in force for a channel. -/
def State.setTc (s : State) (c : Nat) (g p : Int) (hold : Bool) : State :=
  s.modChan c fun x => { x with gT := g, pT := p, tcHold := hold, tcClamp := (trim s.cfg.active c p).2 }

/-- Interpolate a mean in the channel's table and put the result in force (R47). -/
def State.tcApply (s : State) (c : Nat) (m : Int) : State :=
  let ks := s.cfg.active
  let gp := tcLookup (ks.get (kC c 0x0E)) (ks.get (kC c 0x0D)) m
  s.setTc c gp.1 gp.2 false

/-- A channel uses temperature compensation: TC_POINTS ≥ 1 and TC_SOURCE names a slot (R47). -/
def tcUsed (ks : KeySet) (c : Nat) : Bool := 1 ≤ ks.get (kC c 0x0D) && ks.get (kC c 0x0C) < 16

/-- TC_MEAN_APPLY: a new mean of a slot is interpolated for every channel that names the slot; a period without a
valid mean holds what was applied (R47, R48). -/
def State.tcMean (s : State) (slot : Nat) (mean : Option Int) : State :=
  let ks := s.cfg.active
  ((List.range 48).filter fun c => tcUsed ks c && ks.get (kC c 0x0C) == slot).foldl (fun s c =>
    match mean with
    | some m => (s.modChan c fun x => { x with tcMean := some (s.time.index, m) }).tcApply c m
    | none => s.modChan c fun x => { x with tcHold := true }) s

/-! ### Input diagnostics rows (R50 to R57) -/

/-- Is a channel's course running? -/
def State.chanRuns (s : State) (c : Nat) : Bool := (s.course (courseOf c)).running

/-- Put a channel into the stuck state (R51). -/
def State.setStuck (s : State) (c : Nat) (ident : Bool) : State :=
  (s.modChan c fun x => { x with stuck := true, identical := x.identical || ident }).level (8 * c + 1) true

/-- RANGE_SWITCH_DOWN (R44): a full run of CYCLE_SAMPLES low samples moves the pair of H channel `c` to the low range. -/
def execRangeSwitchDown (c : Fin 48) (s : State) : Host.Outcome State Fault Refusal :=
  let x := s.chan c
  match pairOf s.cfg.active c with
  | some l =>
    if !x.low && s.key (kCourse (courseOf c) 3) ≤ x.lowRun then
      .next ((s.modChan c fun x => { x with low := true, lowRun := 0 }).pulse (8 * l + 4))
    else .next s
  | none => .next s

/-- OVERRANGE_RELEASE (R53): CYCLE_SAMPLES consecutive samples below OVR_LEVEL - 0.05 end the state. -/
def execOverrangeRelease (c : Fin 48) (s : State) : Host.Outcome State Fault Refusal :=
  let x := s.chan c
  if x.ovr && s.key (kCourse (courseOf c) 3) ≤ x.ovrRun then
    .next ((s.modChan c fun x => { x with ovr := false, ovrRun := 0 }).level (8 * c.val + 2) false)
  else .next s

/-- STUCK_RUN_DETECT (R51): a run of identical bits reaches STUCK_RUN. -/
def execStuckRunDetect (c : Fin 48) (run : Nat) (s : State) : Host.Outcome State Fault Refusal :=
  if s.chanRuns c && s.key (kC c 9) ≤ run then .next (s.setStuck c false) else .next s

/-- BITSTREAM_IDENTICAL (R51): two channels of one course identical for 4,096 periods. -/
def execBitstreamIdentical (c d : Fin 48) (periods : Nat) (s : State) : Host.Outcome State Fault Refusal :=
  if s.chanRuns c && courseOf c == courseOf d && c != d && 4096 ≤ periods then
    .next ((s.setStuck c true).setStuck d true)
  else .next s

/-- STUCK_CLEAR (R51): none of the conditions has held for 100 ms. -/
def execStuckClear (c : Fin 48) (quietMs : Nat) (s : State) : Host.Outcome State Fault Refusal :=
  if (s.chan c).stuck && 100 ≤ quietMs && !(s.mclk (courseOf c)).fault then
    .next ((s.modChan c fun x => { x with stuck := false, identical := false }).level (8 * c.val + 1) false)
  else .next s

/-- OPEN_TEST (R50): two consecutive tests that follow the pull enter the open state, 100 that do not leave it. -/
def execOpenTest (c : Fin 48) (follows : Bool) (s : State) : Host.Outcome State Fault Refusal :=
  if !(s.chanRuns c && s.keyOn (kC c 0x0A)) then .next s
  else
    let x := s.chan c
    if follows then
      let s := s.modChan c fun x => { x with openRun := x.openRun + 1, openQuiet := 0 }
      if 2 ≤ x.openRun + 1 then .next ((s.modChan c fun x => { x with opn := true }).level (8 * c.val) true) else .next s
    else
      let s := s.modChan c fun x => { x with openRun := 0, openQuiet := x.openQuiet + 1 }
      if x.opn && 100 ≤ x.openQuiet + 1 then
        .next ((s.modChan c fun x => { x with opn := false, openQuiet := 0 }).level (8 * c.val) false)
      else .next s

/-- MCLK_FAULT_ENTER (R57): 16 consecutive disagreements; a fault of MCLKk puts course k's channels in the stuck state. -/
def execMclkFaultEnter (j : Fin 8) (disagreements : Nat) (s : State) : Host.Outcome State Fault Refusal :=
  if s.mclkRuns j && !(s.mclk j).hiZ && 16 ≤ disagreements then
    let s := s.modMclk j fun _ => { fault := true, hiZ := true, hiZAt := s.time.mono }
    if j.val < 6 then .next ((courseChannels j).foldl (fun s c => s.setStuck c false) s) else .next s
  else .next s

/-- MCLK_RETRY (R57): after 1 ms at high impedance the driver drives again. -/
def execMclkRetry (j : Fin 8) (s : State) : Host.Outcome State Fault Refusal :=
  let x := s.mclk j
  if x.hiZ && decide (x.hiZAt + 1000000 ≤ s.time.mono) then .next (s.modMclk j fun x => { x with hiZ := false })
  else .next s

/-- MCLK_FAULT_CLEAR (R57): 1,024 consecutive agreeing periods end the fault. -/
def execMclkFaultClear (j : Fin 8) (agreements : Nat) (s : State) : Host.Outcome State Fault Refusal :=
  let x := s.mclk j
  if x.fault && !x.hiZ && 1024 ≤ agreements then .next (s.modMclk j fun _ => {}) else .next s

/-! ### Polarity (R54) -/

/-- An angle in micro-degrees brought to (-180°, 180°]. -/
def wrapDeg (a : Int) : Int :=
  let m := a % 360000000
  if 180000000 < m then m - 360000000 else m

/-- The circular mean of two angles. -/
def circMean (a b : Int) : Int := wrapDeg (a + wrapDeg (b - a) / 2)

/-- The three-phase metering points whose phase currents name a channel, or voltage sets of CONFIG 1 or 2 whose
voltages name it, with its phase number 0 to 2. -/
def threePhaseCurrent (ks : KeySet) (c : Nat) : Bool :=
  (List.range 16).any fun m => mpEnabled ks m && ks.get (kMp m 2) != 0
    && ((mpChannels ks m).take 3).contains (some c)

def voltagePhase (ks : KeySet) (c : Nat) : Option (Nat × Nat) :=
  (List.range 8).findSome? fun v =>
    if vsEnabled ks v && ks.get (kVs v 1) != 0 then
      (((vsChannels ks v).take 3).findIdx? (· == some c)).map fun i => (v, i)
    else none

/-- Is a current channel anomalous: more than 120° from the circular mean of the other two, each current at 1 % of full scale? -/
def currentAnomalous (e : PolarityEvidence) : Bool :=
  e.rms.all (10000 ≤ ·) && decide (120000000 < (wrapDeg (e.own - circMean e.o1 e.o2)).natAbs)

/-- Is a voltage channel anomalous: more than 60° from the position the other two and the sequence predict, each
voltage at 10 % of full scale? -/
def voltageAnomalous (reverse : Bool) (i : Nat) (e : PolarityEvidence) : Bool :=
  let d : Int := if reverse then -120000000 else 120000000
  let others := [0, 1, 2].filter (· != i)
  let p1 := e.o1 + d * ((others.getD 0 0 : Int) - i)
  let p2 := e.o2 + d * ((others.getD 1 0 : Int) - i)
  e.rms.all (100000 ≤ ·) && decide (60000000 < (wrapDeg (e.own - circMean p1 p2)).natAbs)

/-- Does R54 judge this channel anomalous; `none` when it is not evaluated? -/
def polarityVerdict (ks : KeySet) (c : Nat) (e : PolarityEvidence) : Option Bool :=
  if threePhaseCurrent ks c then some (currentAnomalous e)
  else match voltagePhase ks c with
  | some (v, i) => some (voltageAnomalous (ks.get (kVs v 8) == 1) i e)
  | none => none

end Sys2Proof.Machine
end

