-- ==== Sys2Proof/Machine/Calendar.lean ====
section
/-! DEFINITION. Dates, the UTC of system time (R206, R207), and the tariff calendar (R246 to R248). -/

namespace Sys2Proof.Machine

/-! ### Dates: day 0 is 2000-01-01, a Saturday (R206, R223) -/

structure Date where
  year : Nat
  month : Nat
  day : Nat
  deriving DecidableEq, Repr

/-- Days from 0000-03-01 to 2000-01-01. -/
def dayShift : Nat := 730425

/-- The Gregorian date of a day number. -/
def dateOfDay (n : Nat) : Date :=
  let z := n + dayShift
  let era := z / 146097
  let doe := z % 146097
  let yoe := (doe - doe / 1460 + doe / 36524 - doe / 146096) / 365
  let doy := doe - (365 * yoe + yoe / 4 - yoe / 100)
  let mp := (5 * doy + 2) / 153
  let d := doy - (153 * mp + 2) / 5 + 1
  let m := if mp < 10 then mp + 3 else mp - 9
  { year := yoe + era * 400 + (if m ≤ 2 then 1 else 0), month := m, day := d }

/-- The day number of a date from 2000 on. -/
def dayOfDate (d : Date) : Nat :=
  let y := if d.month ≤ 2 then d.year - 1 else d.year
  let era := y / 400
  let yoe := y % 400
  let doy := (153 * (if 2 < d.month then d.month - 3 else d.month + 9) + 2) / 5 + d.day - 1
  era * 146097 + (yoe * 365 + yoe / 4 - yoe / 100 + doy) - dayShift

def leapYear (y : Nat) : Bool := y % 4 == 0 && (y % 100 != 0 || y % 400 == 0)

def monthDays (y m : Nat) : Nat :=
  if m = 2 then (if leapYear y then 29 else 28) else if m = 4 ∨ m = 6 ∨ m = 9 ∨ m = 11 then 30 else 31

/-- Does a date exist? -/
def Date.ok (d : Date) : Bool := 1 ≤ d.month && d.month ≤ 12 && 1 ≤ d.day && d.day ≤ monthDays d.year d.month

/-- Weekday of a day number, 0 Monday to 6 Sunday. -/
def weekday (n : Nat) : Nat := (n + 5) % 7

/-! ### UTC of system time -/

/-- UTC of a system time in ns (R207), 0 below the epoch. -/
def State.utcOf (s : State) (ns : Nat) : Nat := ((ns : Int) - s.time.utcOfs * second).toNat

/-- UTC of system time now, ns. -/
def State.utcNs (s : State) : Nat := s.utcOf s.time.ns

/-- Local standard time in s (R247). -/
def State.lst (s : State) : Nat := ((s.utcNs / second : Nat) + s.keyS (kBill 0) * 60).toNat

/-! ### The calendar image (R246) -/

structure Season where
  valid : Bool
  month : Nat
  day : Nat
  hour : Nat
  minute : Nat
  week : Nat
  dst : Nat
  deriving DecidableEq, Repr

def calSeason (c : Bytes) (i : Nat) : Season :=
  let o := 16 + 8 * i
  { valid := fld c o 1 != 0, month := fld c (o + 1) 1, day := fld c (o + 2) 1, hour := fld c (o + 3) 1,
    minute := fld c (o + 4) 1, week := fld c (o + 5) 1, dst := fld c (o + 6) 1 }

def calSeasons (c : Bytes) : List Season := ((List.range 4).map (calSeason c)).filter (·.valid)

/-- A point in the year, comparable. -/
def yearPoint (mo d h mi : Nat) : Nat := ((mo * 32 + d) * 24 + h) * 60 + mi

def Season.point (x : Season) : Nat := yearPoint x.month x.day x.hour x.minute

/-- The season with the latest start of a list. -/
def latestSeason : List Season → Option Season
  | [] => none
  | x :: t => match latestSeason t with
    | some y => if x.point ≤ y.point then some y else some x
    | none => some x

/-- Step 2 of R247. -/
def seasonAt (c : Bytes) (lst : Nat) : Option Season :=
  let d := dateOfDay (lst / 86400)
  let p := yearPoint d.month d.day (lst / 3600 % 24) (lst / 60 % 60)
  match latestSeason ((calSeasons c).filter fun x => x.point ≤ p) with
  | some x => some x
  | none => latestSeason (calSeasons c)

/-- Local time in s (steps 1 to 3 of R247). -/
def localTime (c : Bytes) (lst : Nat) : Nat := lst + 60 * ((seasonAt c lst).elim 0 (·.dst))

structure Special where
  valid : Bool
  month : Nat
  day : Nat
  profile : Nat
  year : Nat
  deriving DecidableEq, Repr

def calSpecial (c : Bytes) (i : Nat) : Special :=
  let o := 2160 + 8 * i
  { valid := fld c o 1 != 0, month := fld c (o + 1) 1, day := fld c (o + 2) 1, profile := fld c (o + 3) 1, year := fld c (o + 4) 2 }

def calSpecials (c : Bytes) : List Special := ((List.range 64).map (calSpecial c)).filter (·.valid)

/-- The day profile of week `w` on weekday `i`. -/
def weekProfile (c : Bytes) (w i : Nat) : Nat := fld c (48 + 72 * w + i) 1

/-- Step 4 of R247. -/
def dayProfileAt (c : Bytes) (lst : Nat) : Nat :=
  let t := localTime c lst
  let d := dateOfDay (t / 86400)
  let sp := (calSpecials c).filter fun x => x.month == d.month && x.day == d.day
  match sp.find? (fun x => x.year == d.year), sp.find? (fun x => x.year == 0xFFFF) with
  | some x, _ => x.profile
  | none, some x => x.profile
  | none, none => weekProfile c ((seasonAt c lst).elim 0 (·.week)) (weekday (t / 86400))

/-- The valid switches of a day profile: minute of the day and rate. -/
def calSwitches (c : Bytes) (p : Nat) : List (Nat × Nat) :=
  (List.range 24).filterMap fun i =>
    let o := 624 + 96 * p + 4 * i
    if fld c o 1 != 0 then some (fld c (o + 1) 1 * 60 + fld c (o + 2) 1, fld c (o + 3) 1) else none

/-- Step 5 of R247. -/
def calRate (c : Bytes) (lst : Nat) : Nat :=
  let t := localTime c lst / 60 % 1440
  let sw := calSwitches c (dayProfileAt c lst)
  match (sw.filter fun x => x.1 ≤ t).getLast?, sw.getLast? with
  | some x, _ => x.2
  | none, some x => x.2
  | none, none => 0

/-- PRICE of a rate. -/
def calPrice (c : Bytes) (r : Nat) : Nat := fld c (2672 + 4 * r) 4

structure Friendly where
  mask : Nat
  from_ : Nat
  to_ : Nat
  deriving DecidableEq, Repr

def calFriendly (c : Bytes) (w i : Nat) : Friendly :=
  let o := 48 + 72 * w + 8 + 8 * i
  { mask := fld c o 1, from_ := fld c (o + 1) 1 * 60 + fld c (o + 2) 1, to_ := fld c (o + 3) 1 * 60 + fld c (o + 4) 1 }

/-- Is a friendly window in force on a weekday at a minute of the day; one with END ≤ START runs across midnight? -/
def Friendly.holds (f : Friendly) (wd t : Nat) : Bool :=
  if f.from_ < f.to_ then f.mask.testBit wd && f.from_ ≤ t && t < f.to_
  else (f.mask.testBit wd && f.from_ ≤ t) || (f.mask.testBit ((wd + 6) % 7) && t < f.to_)

def calFriendlyNow (c : Bytes) (lst : Nat) : Bool :=
  let t := localTime c lst
  let w := (seasonAt c lst).elim 0 (·.week)
  (List.range 8).any fun i => (calFriendly c w i).holds (weekday (t / 86400)) (t / 60 % 1440)

/-! ### The checks of TARIFF_STAGE (R248) -/

def strictlyUp : List Nat → Bool
  | a :: b :: t => decide (a < b) && strictlyUp (b :: t)
  | _ => true

/-- A recurring date that exists in some year. -/
def dateExists (m d : Nat) : Bool := (Date.mk 2000 m d).ok

def Season.ok (x : Season) : Bool :=
  dateExists x.month x.day && x.hour ≤ 23 && x.minute ≤ 59 && x.week ≤ 7 && x.dst ≤ 120

def Special.ok (x : Special) : Bool :=
  x.profile ≤ 15 && (if x.year = 0xFFFF then dateExists x.month x.day
    else decide (2000 ≤ x.year) && decide (x.year ≤ 2099) && (Date.mk x.year x.month x.day).ok)

def friendlyOk (c : Bytes) (w i : Nat) : Bool :=
  let o := 48 + 72 * w + 8 + 8 * i
  fld c o 1 == 0 || (fld c o 1 ≤ 127 && fld c (o + 1) 1 ≤ 23 && fld c (o + 2) 1 ≤ 59 && fld c (o + 3) 1 ≤ 23 && fld c (o + 4) 1 ≤ 59)

def switchOk (c : Bytes) (p i : Nat) : Bool :=
  let o := 624 + 96 * p + 4 * i
  fld c o 1 == 0 || (fld c (o + 1) 1 ≤ 23 && fld c (o + 2) 1 ≤ 59 && fld c (o + 3) 1 ≤ 7)

/-- The day profiles in use: of the weeks that valid seasons name, and of valid special days. -/
def profilesUsed (c : Bytes) : List Nat :=
  ((calSeasons c).flatMap fun x => (List.range 7).map (weekProfile c x.week)) ++ (calSpecials c).map (·.profile)

def calReservedOk (c : Bytes) : Bool :=
  allZero c 4 12
    && (List.range 4).all (fun i => allZero c (16 + 8 * i + 7) 1)
    && (List.range 8).all (fun w => allZero c (48 + 72 * w + 7) 1
        && (List.range 8).all fun i => allZero c (48 + 72 * w + 8 + 8 * i + 5) 3)
    && (List.range 64).all (fun i => allZero c (2160 + 8 * i + 6) 2)

/-- Is an image accepted (R248)? -/
def calendarOk (c : Bytes) : Bool :=
  c.length == 2704 && calReservedOk c && !(calSeasons c).isEmpty && (calSeasons c).all Season.ok
    && (calSpecials c).all Special.ok
    && (List.range 8).all (fun w => (List.range 8).all (friendlyOk c w))
    && (List.range 8).all (fun w => (List.range 7).all fun i => decide (weekProfile c w i ≤ 15))
    && (List.range 16).all (fun p => (List.range 24).all (switchOk c p) && strictlyUp ((calSwitches c p).map (·.1)))
    && (profilesUsed c).all (fun p => !(calSwitches c p).isEmpty)

end Sys2Proof.Machine
end

