-- ==== Sys2Proof/Machine/Supply.lean ====
section
/-! DEFINITION. Registers (R122), rates (R239), prepayment (R251 to R253), the commanded supply state (R254), and the legal
values (R259): what transfers and credits act on. -/

namespace Sys2Proof.Machine

/-! ### Registers -/

/-- A transfer adds its magnitude exactly; past 2^64 - 1 the integer part wraps and the wrap count increments (R122). -/
def Reg.add (r : Reg) (mag : Nat) : Reg :=
  { v := (r.v + mag) % 2 ^ 128, wrap := (r.wrap + (r.v + mag) / 2 ^ 128) % 256 }

/-- The integer part. -/
def Reg.int (r : Reg) : Nat := r.v / 2 ^ 64

def State.bmp (s : State) (m : Nat) : BillMp := Tbl.get {} s.bill.mp m
def State.modBmp (s : State) (m : Nat) (g : BillMp → BillMp) : State :=
  { s with bill.mp := Tbl.upd {} s.bill.mp m g }

def State.mpAcc (s : State) (m : Nat) : MpAcc := Tbl.get {} s.acc.mp m
def State.modMpAcc (s : State) (m : Nat) (g : MpAcc → MpAcc) : State :=
  { s with acc.mp := Tbl.upd {} s.acc.mp m g }

def MpAcc.regOf (x : MpAcc) (r : Nat) : Reg := Tbl.get {} x.reg r
def BillMp.rregOf (x : BillMp) (k r : Nat) : Reg := Tbl.get {} x.rreg (8 * k + r)

/-! ### Rates (R239, R244, R247) -/

/-- The rate the calendar gives now: DEFAULT_RATE while time is invalid or no calendar is active. -/
def State.calendarRate (s : State) : Nat :=
  if s.time.valid && !s.bill.active.isEmpty then calRate s.bill.active s.lst else s.key (kBill 5)

/-- Is a friendly window in force now?  Not while time is invalid. -/
def State.friendly (s : State) : Bool :=
  s.time.valid && !s.bill.active.isEmpty && calFriendlyNow s.bill.active s.lst

/-! ### The commanded supply state (R254) -/

def Supplied.code : Supplied → Nat | .closed => 0 | .open_ => 1 | .armed => 2
def Prepay.code : Prepay → Nat | .normal => 0 | .low => 1 | .ecOffered => 2 | .ecInUse => 3 | .exhausted => 4

/-- Drive the contactor GPIO of a metering point: from kiln phase K3, at DISC_OPEN_LEVEL in OPEN and ARMED. -/
def State.driveContactor (s : State) (m : Nat) : State :=
  let g := s.key (kBillMp m 6)
  if s.kiln.ph.k3Open && g < 24 then
    let lvl := s.keyOn (kBillMp m 7)
    let v := if (s.bmp m).supply = .closed then !lvl else lvl
    { s with pins.gpio := Tbl.set none s.pins.gpio g (some v) }
  else s

/-- The commanded state becomes `x`: the contactor is driven and both timings of R148 restart.  In F4 it does not change (R503). -/
def State.setSupply (s : State) (m : Nat) (x : Supplied) : State :=
  if (s.bmp m).supply = x ∨ s.fault.f4 then s
  else
    let s := s.modBmp m fun b => { b with supply := x }
    let s := s.modMpAcc m fun a => { a with misSince := none, liveSince := none, calm := none }
    s.driveContactor m

/-- R254: OPEN while a host disconnect is in force or prepayment demands open; then CLOSED or ARMED. -/
def State.decideSupply (s : State) (m : Nat) : State :=
  let b := s.bmp m
  if b.hostDisc || b.demandOpen then s.setSupply m .open_
  else if b.supply = .open_ then s.setSupply m (if s.keyOn (kBillMp m 5) then .armed else .closed)
  else s

/-! ### Prepayment (R251 to R253) -/

/-- The prepayment state of a credit and whether emergency credit is then taken (R252). -/
def prepayState (credit : Int) (low ec : Int) (auto taken : Bool) : Prepay × Bool :=
  if low ≤ credit then (.normal, taken && decide (credit ≤ 0))
  else if 0 < credit then (.low, false)
  else if taken || (auto && decide (0 < ec)) then (if -ec < credit then .ecInUse else .exhausted, true)
  else if 0 < ec then (.ecOffered, false)
  else (.exhausted, false)

/-- Does a state demand the supply open? -/
def Prepay.demandsOpen : Prepay → Bool
  | .ecOffered | .exhausted => true
  | _ => false

/-- Decide the prepayment state, its two sources, the demand with its deferral in a friendly window, and the supply. -/
def State.decidePrepay (s : State) (m : Nat) : State :=
  let b := s.bmp m
  let on := s.keyOn (kBillMp m 0)
  let r := prepayState b.credit (s.keyS (kBillMp m 1)) (s.keyS (kBillMp m 2)) (s.keyOn (kBillMp m 3)) b.ecTaken
  let st := if on then r.1 else .normal
  let want := st.demandsOpen
  let starts := want && !b.demandOpen && !b.deferred
  let defer := want && (b.deferred || (starts && s.friendly))
  let s := s.modBmp m fun b =>
    { b with prepay := st, ecTaken := on && r.2, deferred := defer, demandOpen := want && !defer }
  let s := s.level (384 + 8 * m + 4) (st != .normal)
  let s := s.level (384 + 8 * m + 5) want
  s.decideSupply m

/-- The price of a rate for a transfer at sample index `t` (R249): exchanged prices apply from the boundary of the exchange. -/
def State.priceAt (s : State) (t rate : Nat) : Nat :=
  let c := match s.bill.before with
    | some (x, old) => if t < x then old else s.bill.active
    | none => s.bill.active
  if c.isEmpty then 0 else calPrice c rate

/-- R251: a transfer of `mag` (2^-64 mWh) into A_IMP at sample index `t` charges it at the price of the rate that receives it. -/
def State.charge (s : State) (m mag rate t : Nat) : State :=
  if s.keyOn (kBillMp m 0) then
    let b := s.bmp m
    let debt := b.debt + (roundDiv ((mag * s.priceAt t rate : Nat) : Int) 1000000).toNat
    let s := s.modBmp m fun b => { b with debt := debt % 2 ^ 64, credit := b.credit - (debt / 2 ^ 64 : Nat) }
    s.decidePrepay m
  else s

/-! ### Legal values (R259) -/

/-- The legal keys of a set, ascending, each as identifier, length and value. -/
def legalKeyBytes (ks : KeySet) : Bytes :=
  (allKeys.filter isLegalKey).flatMap fun id =>
    let n := (keyInfo id).elim 0 (·.size)
    leBytes 2 id ++ leBytes 2 n ++ leBytes n (ks.get id)

/-- The legal check value of the active set and the seal-core firmware in force. -/
def State.lcvNow (s : State) : Bytes :=
  fitBytes 32 (Config.sha256 (Config.sealSegment s.kiln.sealFw ++ legalKeyBytes s.cfg.active))

/-- The legal event counter increments, saturating; each increment pulses EV0990. -/
def State.legalEvent (s : State) : State :=
  if s.bill.legal < 0xFFFFFFFF then ({ s with bill.legal := s.bill.legal + 1 }).pulse 990 else s

/-- Publish the legal check value; a change counts, the first value ever is none. -/
def State.publishLcv (s : State) : State :=
  let v := s.lcvNow
  if v = s.bill.lcv then s
  else if s.bill.lcv.isEmpty then { s with bill.lcv := v }
  else ({ s with bill.lcv := v }).legalEvent

end Sys2Proof.Machine
end

