-- ==== Sys2Proof/Machine/Metrology.lean ====
section
/-! DEFINITION. Metrology quantities (03): totals per sample, increments (R69, R70, R162), boundaries (R64 to R66), RMS½, creep
and overcurrent (R68, R80 to R83), windows and their published blocks (R71 to R79, R84 to R90, R545). -/

namespace Sys2Proof.Machine

/-! ### Reading and changing -/

def State.chm (s : State) (c : Nat) : ChanM := Tbl.get {} s.metro.chan c
def State.modChm (s : State) (c : Nat) (g : ChanM → ChanM) : State :=
  { s with metro.chan := Tbl.upd {} s.metro.chan c g }
def State.elem (s : State) (i : Nat) : Elem := Tbl.get {} s.metro.elem i
def State.modElem (s : State) (i : Nat) (g : Elem → Elem) : State :=
  { s with metro.elem := Tbl.upd {} s.metro.elem i g }
def State.vs (s : State) (v : Nat) : VSet := Tbl.get {} s.metro.vs v
def State.modVs (s : State) (v : Nat) (g : VSet → VSet) : State :=
  { s with metro.vs := Tbl.upd {} s.metro.vs v g }

/-- A channel's delivered sample of a course sample number; 0 where it is invalid or there is none (R64, R70, R74). -/
def ChanM.at (x : ChanM) (u : Nat) : Int :=
  match x.raw.find? (·.u == u) with
  | some r => if r.bad then 0 else r.y
  | none => 0

def Cum.sub (a b : Cum) : Cum := ⟨a.sq - b.sq, a.n - b.n, a.bad - b.bad, a.ovr - b.ovr⟩
def ETot.sub (a b : ETot) : ETot :=
  ⟨a.vc - b.vc, a.n - b.n, a.inc - b.inc, a.foot - b.foot, a.bond - b.bond, a.q - b.q, a.qBond - b.qBond⟩

/-- A total as it stood before course sample `u`: the log holds totals before samples, newest first; `d` is the total now. -/
def logAt {α : Type} (d : α) : List (Nat × α) → Nat → α
  | [], _ => d
  | (k, v) :: t, u => if u ≤ k then logAt v t u else d

/-- A channel's totals before course sample `u`. -/
def State.cumAt (s : State) (c u : Nat) : Cum := let x := s.chm c; logAt x.tot x.log u
/-- An element's totals before course sample `u`. -/
def State.etotAt (s : State) (i u : Nat) : ETot := let x := s.elem i; logAt x.tot x.log u

/-! ### Configuration of voltage sets and metering points (R60, R61, R63) -/

def courseWide (ks : KeySet) (k : Nat) : Bool := ks.get (kCourse k 1) == 1
def vsNomF (ks : KeySet) (v : Nat) : Nat := ks.get (kVs v 7)
/-- NOMINAL_V in mV. -/
def vsNomV (ks : KeySet) (v : Nat) : Nat := ks.get (kVs v 6)
def vsConfig (ks : KeySet) (v : Nat) : Nat := ks.get (kVs v 1)
def vsWide (ks : KeySet) (v : Nat) : Bool := (vsCourse ks v).elim false (courseWide ks)
/-- The reference channel (R63). -/
def vsRef (ks : KeySet) (v : Nat) : Option Nat := ((vsChannels ks v)[ks.get (kVs v 9) - 1]?).join
/-- N_c (R68). -/
def vsNc (ks : KeySet) (v : Nat) : Nat := if vsNomF ks v = 60 then 12 else 10
/-- T_nom in 2^-17 sample index, rounded up. -/
def tNom (ks : KeySet) (v : Nat) : Nat := ceilDiv (64000 * 2 ^ 17) (vsNomF ks v)
def mpVset (ks : KeySet) (m : Nat) : Nat := ks.get (kMp m 1)
def mpWiring (ks : KeySet) (m : Nat) : Nat := ks.get (kMp m 2)
/-- PRIMARY_FS in mV or mA. -/
def primaryFs (ks : KeySet) (c : Nat) : Nat := ks.get (kC c 1)
/-- The enabled metering points of a voltage set. -/
def mpsOf (ks : KeySet) (v : Nat) : List Nat := (List.range 16).filter fun m => mpEnabled ks m && mpVset ks m == v
def enabledMps (ks : KeySet) : List Nat := (List.range 16).filter (mpEnabled ks)
def enabledVsets (ks : KeySet) : List Nat := (List.range 8).filter (vsEnabled ks)

/-! ### What changes between two sets -/

def KeySet.differAt (a b : KeySet) (ids : List Nat) : Bool := ids.any fun k => a.get k != b.get k

/-- Channels, CONFIG, NOMINAL_F and REF_PHASE of a voltage set: its detector restarts (R66, R94). -/
def detKeys (v : Nat) : List Nat := [1, 2, 3, 4, 5, 7, 9].map (kVs v)

/-- Does the detector of a voltage set restart? -/
def detRestarts (old new : KeySet) (v : Nat) : Bool := vsEnabled new v && (!vsEnabled old v || old.differAt new (detKeys v))

/-- An element of a metering point: index 0 to 2, voltage channel, its sign, current channel (the table before R69). -/
structure ElemDef where
  e : Nat
  v : Nat
  neg : Bool
  c : Nat
  deriving DecidableEq, Repr

def mpElems (ks : KeySet) (m : Nat) : List ElemDef :=
  let u := vsChannels ks (mpVset ks m)
  let i := mpChannels ks m
  let mk (e vi ci : Nat) (neg : Bool) : Option ElemDef :=
    match (u[vi]?).join, (i[ci]?).join with
    | some a, some b => some ⟨e, a, neg, b⟩
    | _, _ => none
  (match mpWiring ks m with
    | 0 => [mk 0 0 0 false]
    | 1 => [mk 0 0 0 false, mk 1 1 1 false, mk 2 2 2 false]
    | _ => [mk 0 0 0 false, mk 2 1 2 true]).filterMap id

/-- The phase current channels that creep is decided on: I1, I2, I3. -/
def mpPhases (ks : KeySet) (m : Nat) : List Nat := ((mpChannels ks m).take 3).filterMap id

/-- Every channel of a voltage set and of its metering points. -/
def vsAllChannels (ks : KeySet) (v : Nat) : List Nat :=
  (vsChannels ks v).filterMap id ++ (mpsOf ks v).flatMap fun m => (mpChannels ks m).filterMap id

/-- The pseudo-channel that carries the derived U3 = -(U1 + U2) of a three-wire set with U3 absent (R78). -/
def derivedU3 (ks : KeySet) (v : Nat) : Option (Nat × Nat × Nat) :=
  match vsChannels ks v with
  | [some a, some b, none, _] => if vsConfig ks v = 2 then some (48 + v, a, b) else none
  | _ => none

/-! ### Where a course's increments come from (R128, R162 to R166) -/

inductive IncSource where
  | bond | footing | lost
  deriving DecidableEq, Repr

def State.bond (s : State) (k : Nat) : Bond := Tbl.get {} s.tiles.bond k
def State.modBond (s : State) (k : Nat) (g : Bond → Bond) : State :=
  { s with tiles.bond := Tbl.upd {} s.tiles.bond k g }

def State.incSource (s : State) (k : Nat) : IncSource :=
  let b := s.bond k
  match b.st with
  | .triplex | .substituting | .duplex => .bond
  | .off | .footing | .rebuilding => if b.footFail then .lost else .footing

def State.onFooting (s : State) (k : Nat) : Bool := s.incSource k != .bond

/-- Does a course deliver nothing: its bond and footing unit are lost (R166), its island is off (R466), or the seal core is lost (R502)? -/
def State.courseLost (s : State) (k : Nat) : Bool :=
  s.incSource k == .lost || Tbl.get 0 s.host.island (78 + k) != 0 || Tbl.get 0 s.host.island 77 != 0
    || !(s.fault.sealOk || s.fault.sealRestart)

/-- Does a course of a metering point run on footing? -/
def State.mpFooting (s : State) (m : Nat) : Bool := (mpCourse s.cfg.active m).elim false s.onFooting

/-! ### Increments (R69, R70, R162, R216) -/

/-- The element constant K in 2^-64 mWh (R69), with the slew compensation 1 / (1 + s) of R216. -/
def elemK (ks : KeySet) (d : ElemDef) (slew : Int) : Nat :=
  let f := if courseWide ks (courseOf d.c) then 128000 else 64000
  let k := roundDiv ((primaryFs ks d.v * primaryFs ks d.c * 2 ^ 64 : Nat) : Int) (f * 3600000)
  (roundDiv (k * 2 ^ 40) (2 ^ 40 + slew).toNat).toNat

/-- x × K rounded, with x = y_v × y_c rounded into Q2.62 (R69); `w` is the weight (4 for R70). -/
def bondInc (yv yc : Int) (k w : Nat) : Int := roundDiv (roundDiv (yv * yc) (2 ^ 64) * (w * k : Nat)) (2 ^ 62)

/-- The footing unit's increment (R162): samples truncated to Q1.23, K to Q32.32, the result to 2^-32. -/
def footInc (yv yc : Int) (neg : Bool) (k w : Nat) : Int :=
  let v := yv.ediv (2 ^ 40)
  (((if neg then -v else v) * yc.ediv (2 ^ 40) * (w * (k / 2 ^ 32) : Nat)).ediv (2 ^ 46)) * 2 ^ 32

/-- The creep state of a channel at a sample index. -/
def creepAt (h : List (Nat × Bool)) (j : Nat) : Bool :=
  match h.find? (fun e => e.1 ≤ j) with
  | some e => e.2
  | none => true

/-- Add one course sample to a channel's totals. -/
def ChanM.push (u : Nat) (y : Int) (bad ovr foot : Bool) (x : ChanM) : ChanM :=
  { x with raw := (⟨u, y, bad, ovr, foot⟩ :: x.raw).take 65536, log := ((u, x.tot) :: x.log).take 1024,
           tot := { sq := x.tot.sq + (if bad then 0 else y.natAbs * y.natAbs), n := x.tot.n + (if bad then 0 else 1),
                    bad := x.tot.bad + (if bad then 1 else 0), ovr := x.tot.ovr + (if ovr then 1 else 0) } }

/-- Add the sample of a channel at course sample `u`. -/
def State.pushChan (s : State) (u c : Nat) : State :=
  let x := s.chan c
  s.modChm c (ChanM.push u x.yc (isInvalid x.tagc) (x.tagc.getLsbD 3) (s.onFooting (courseOf c)))

/-- Add the derived U3 of a set: the sum of the physical values of U1 and U2. -/
def State.pushDerived (s : State) (u v : Nat) : State :=
  match derivedU3 s.cfg.active v with
  | some (d, a, b) =>
    let xa := s.chan a
    let xb := s.chan b
    let y := xa.yc * primaryFs s.cfg.active a + xb.yc * primaryFs s.cfg.active b
    s.modChm d (ChanM.push u y (isInvalid xa.tagc || isInvalid xb.tagc) false (s.onFooting (courseOf a)))
  | none => s

/-- The invalid-sample marks of a metering point: ACC_READ FLAGS per bay (R130), the profile interval's STATUS (R241). -/
def State.markInvalid (s : State) (m : Nat) : State :=
  let s := s.modMpAcc m fun a => { a with invalid := (List.range 8).foldl (fun t b => Tbl.set false t b true) a.invalid }
  s.modBmp m fun b => { b with profStatus := b.profStatus ||| 0x100 }

/-- ACTIVE_INCREMENT: one course sample of one element (R69, R128, R162); the creep state gates transfers, not the totals.  The footing unit gets the
samples the bond gets (R39).  `ppm` is a common-mode error of the bond's members (R163), 0 for a sound bond. -/
def State.pushElem (s : State) (u m : Nat) (d : ElemDef) (ppm : Int) : State :=
  let xv := s.chan d.v
  let xc := s.chan d.c
  let ok := !isInvalid xv.tagc && !isInvalid xc.tagc
  let sg : Int := if d.neg then -1 else 1
  let k := elemK s.cfg.active d s.time.slewRate
  let b0 := if ok then bondInc (sg * xv.yc) xc.yc k 1 else 0
  let b := b0 + roundDiv (b0 * ppm) 1000000
  let f := if ok then footInc xv.yc xc.yc d.neg k 1 else 0
  let src := if s.courseLost (courseOf d.c) then IncSource.lost else s.incSource (courseOf d.c)
  let i := match src with | .bond => b | .footing => f | .lost => 0
  let s := s.modElem (4 * m + d.e) fun x =>
    { x with log := ((u, x.tot) :: x.log).take 1024,
             tot := { x.tot with vc := x.tot.vc + (if ok then sg * xv.yc * xc.yc else 0), n := x.tot.n + (if ok then 1 else 0),
                                 inc := x.tot.inc + i, foot := x.tot.foot + f, bond := x.tot.bond + b } }
  if ok then s else s.markInvalid m

/-- The bond's and the footing unit's increment of a tap of index `j`, from the shifted voltage of that index (R70, R162). -/
def State.tapInc (s : State) (j : Nat) (t : Tap) : Int × Int :=
  let wide := (s.course (courseOf t.v)).wide
  let x := (s.chm t.v).at
  let vb := shiftedBond wide x j
  (bondInc (if t.neg then -vb else vb) t.c t.k 4, footInc (shiftedFoot wide x j) t.c t.neg t.k 4)

/-- REACTIVE_INCREMENT at an index k divisible by 4: the tap of index k enters the delay line of an element, and the increment of
index k - 2,052 is delivered from the 90°-shifted voltage of that index (R70), as the state then was of the channel it came from. -/
def State.pushTap (s : State) (k i : Nat) (tap : Tap) : State :=
  let x := s.elem i
  let taps := (tap :: x.line).take 514
  let inc : Int × Int := match taps[513]? with
    | some t =>
      if t.valid && !s.courseLost (courseOf t.ch) && !creepAt (s.chm t.ch).creepHist (k - 2052) then s.tapInc (k - 2052) t else (0, 0)
    | none => (0, 0)
  let src := (taps[513]?).elim IncSource.lost fun t => s.incSource (courseOf t.ch)
  let q := match src with | .bond => inc.1 | .footing => inc.2 | .lost => 0
  s.modElem i fun x => { x with line := taps, tot := { x.tot with q := x.tot.q + q, qBond := x.tot.qBond + inc.1 } }

/-- The tap of an element at this boundary. -/
def State.tapOf (s : State) (d : ElemDef) : Tap :=
  let xv := s.chan d.v
  let xc := s.chan d.c
  { ch := d.c, v := d.v, neg := d.neg, c := xc.yc, k := elemK s.cfg.active d s.time.slewRate, valid := !isInvalid xv.tagc && !isInvalid xc.tagc }

def State.pushReactive (s : State) (k m : Nat) (d : ElemDef) : State := s.pushTap k (4 * m + d.e) (s.tapOf d)

/-! ### RMS (R68) -/

/-- X in µV or µA of a total over a channel with PRIMARY_FS `fs` (mV or mA); `one` is 1.0 in the sample's format. -/
def rmsOf (fs : Nat) (d : Cum) : Nat :=
  if d.n = 0 then 0 else (isqrt (4 * (d.sq * fs * fs * 1000000) / (d.n * 2 ^ 126)) + 1) / 2

def chanRms (ks : KeySet) (c : Nat) (d : Cum) : Nat := if c < 48 then rmsOf (primaryFs ks c) d else rmsOf 1 d

/-- Mean of y_v × y_c over totals, in µW (R71). -/
def meanP (ks : KeySet) (d : ElemDef) (t : ETot) : Int :=
  if t.n = 0 then 0 else roundDiv (t.vc * (primaryFs ks d.v * primaryFs ks d.c : Nat)) (t.n * 2 ^ 126)

/-- Reactive increments over a span of sample indexes, as power in µvar (R71). -/
def meanQ (q : Int) (n : Nat) : Int := if n = 0 then 0 else roundDiv (q * (3600000 * 64000)) (n * 2 ^ 64)

/-! ### Boundaries (R64 to R66) -/

/-- The boundary of an instant in 2^-17 sample index: the first course sample at or after it (R65).  The system time of a second sub-sample, 7,812.5 ns
after its index, is stamped in whole ns as 7,812 ns after it (log 61). -/
def State.bndAt (s : State) (wide : Bool) (t : Nat) (rising synth : Bool) : Bnd :=
  let u := if wide then ceilDiv t (2 ^ 16) else 2 * ceilDiv t (2 ^ 17)
  let idx := u / 2
  { at_ := t, u := u, index := idx, ns := s.time.ns - (s.time.index - idx) * 15625 + u % 2 * 7812, rising := rising, synth := synth }

/-- D_zc in course samples of the numbering by 2 (R64). -/
def dzcU (wide : Bool) : Nat := if wide then 32 else 64

/-- Is course sample `u` plus D_zc reached at the next boundary, and are its totals still held?  A decision due at a boundary may be
given before the samples of that boundary (log 25). -/
def State.decidable (s : State) (wide : Bool) (u : Nat) : Bool :=
  u + dzcU wide ≤ 2 * s.time.index + 2 && 2 * s.time.index ≤ u + 1000

/-- Is a filtered value of the reference, in 2^-125 of full scale, beyond the arming level h = ZC_HYST × 0.001 × √2 × NOMINAL_V (R64)? -/
def beyondArming (ks : KeySet) (v c : Nat) (f : Int) : Bool :=
  let h := ks.get (kVs v 0x0A) * vsNomV ks v
  2 * (h * h) * 2 ^ 250 < (f.natAbs * primaryFs ks c) * (f.natAbs * primaryFs ks c) * 1000000

/-- One filtered sample of the detector (R64): it crosses zero where it leaves one side of zero and reaches zero or the other side; the instant is
interpolated between the two samples and refers to the input, 31 samples before. -/
def zcStep (ks : KeySet) (v c st u : Nat) (f : Int) (z : Zc) : Zc :=
  let far := beyondArming ks v c f
  let lo := far && decide (f < 0)
  let hi := far && decide (0 < f)
  let hit : Option Crossing :=
    match z.prev with
    | some g =>
      if u < 32 * st then none
      else if (g < 0 ∧ 0 ≤ f) ∨ (0 < g ∧ f ≤ 0) then
        some { at_ := (u - 32 * st) * 2 ^ 16 + st * (roundDiv ((g.natAbs : Int) * 2 ^ 16) (g.natAbs + f.natAbs)).toNat, rising := decide (g < 0) }
      else none
    | none => none
  match hit with
  | some x => { z with prev := some f, lo := lo, hi := hi, found := z.found ++ [⟨x, z.lo, z.hi⟩] }
  | none => { z with prev := some f, lo := z.lo || lo, hi := z.hi || hi }

/-- The detector of a voltage set takes course sample `u` of its reference (R64). -/
def State.zcSample (s : State) (u v : Nat) : State :=
  let ks := s.cfg.active
  match vsRef ks v with
  | some c =>
    let st := if vsWide ks v then 1 else 2
    let f := zcFiltered st (s.chm c).at u
    s.modVs v fun y => { y with zc := zcStep ks v c st u f y.zc }
  | none => s

/-- Is a crossing armed: the signal has been beyond the level on the side it comes from since the last qualified crossing (R64)? -/
def Zc.armed (z : Zc) (f : Found) : Bool := if f.x.rising then z.wasLo || f.lo else z.wasHi || f.hi

/-- The oldest found crossing has been decided. -/
def Zc.decided (ok : Bool) (f : Found) (z : Zc) : Zc :=
  { z with found := z.found.drop 1, wasLo := !ok && (z.wasLo || f.lo), wasHi := !ok && (z.wasHi || f.hi) }

/-- Does a crossing qualify but for its arming (R64, R66)? -/
def State.crossingFits (s : State) (v : Nat) (x : Crossing) : Bool :=
  let ks := s.cfg.active
  let y := s.vs v
  (match y.last, y.notional with
   | some b, _ => x.rising != b.rising && decide (b.at_ + 35 * tNom ks v / 100 ≤ x.at_)
   | none, some b => decide (b.at_ ≤ x.at_)
   | none, none => false)

/-- Does a found crossing qualify? -/
def State.crossingOk (s : State) (v : Nat) (f : Found) : Bool := (s.vs v).zc.armed f && s.crossingFits v f.x

/-- Is the reference of a set low: its latest 10/12-cycle RMS below 10 % of NOMINAL_V (R66)? -/
def State.refLow (s : State) (v : Nat) : Bool :=
  match vsRef s.cfg.active v with
  | some c => !(s.vs v).block.isEmpty && decide ((s.chm c).rms < 100 * vsNomV s.cfg.active v)
  | none => true

/-- Is the reference's sample at a course sample invalid? -/
def State.refInvalid (s : State) (v u : Nat) : Bool :=
  match vsRef s.cfg.active v with
  | some c => let a := s.cumAt c u; let b := s.cumAt c (u + 2); a.bad < b.bad || a.bad + a.n == b.bad + b.n
  | none => true

/-- The instant and direction of the next synthetic boundary (R66). -/
def State.synthNext (s : State) (v : Nat) : Option (Nat × Bool) :=
  let y := s.vs v
  match y.last, y.notional with
  | some b, _ => some (b.at_ + y.tLast / 2, !b.rising)
  | none, some b => some (b.at_ + tNom s.cfg.active v / 2, true)
  | none, none => none

/-- Is a synthetic boundary due: none qualified by 0.7 × T_nom after the last boundary, D_zc later; or the reference
invalid or low at its instant, D_zc later? -/
def State.synthDue (s : State) (v : Nat) : Option Bnd :=
  let ks := s.cfg.active
  let wide := vsWide ks v
  let y := s.vs v
  match s.synthNext v with
  | none => none
  | some (t, r) =>
    let b := s.bndAt wide t r true
    let from_ := (y.last.orElse fun _ => y.notional).elim 0 (·.at_)
    let limit := from_ + 7 * tNom ks v / 10
    let miss := limit + 32 * 2 ^ (if wide then 16 else 17) ≤ (s.time.index + 1) * 2 ^ 17
      && !(y.zc.found.any fun f => decide (f.x.at_ ≤ limit) && s.crossingOk v f)
    if miss || (b.u + dzcU wide ≤ 2 * s.time.index + 2 && (s.refInvalid v b.u || s.refLow v)) then some b else none

/-- Start the detector with a notional boundary at a sample index (R66). -/
def State.startDetector (s : State) (v : Nat) : State :=
  let b : Bnd := { at_ := s.time.index * 2 ^ 17, u := 2 * s.time.index, index := s.time.index, ns := s.time.ns,
                   rising := false, synth := false }
  let s := s.modVs v fun y =>
    { y with zc := {}, notional := some b, last := none, prev := none, tLast := tNom s.cfg.active v, cycles := [], synths := [], win := none,
             f10From := s.time.ns }
  let s := (vsAllChannels s.cfg.active v ++ [48 + v]).foldl (fun s c => s.modChm c fun x => { x with atLast := none, atPrev := none }) s
  (mpsOf s.cfg.active v).foldl (fun s m => (mpElems s.cfg.active m).foldl (fun s d =>
    s.modElem (4 * m + d.e) fun x => { x with atLast := none, atPrev := none }) s) s

/-! ### Frequency (R67, R216) -/

/-- µHz of `n` cycles lasting `d` in 2^-17 sample index under a slew. -/
def freqOf (n d : Nat) (slew : Int) : Nat :=
  if d = 0 then 0 else (roundDiv ((n * 64000 * 2 ^ 17 * 1000000 : Nat) * (2 ^ 40 + slew)) (d * 2 ^ 40)).toNat

/-- Is a frequency outside the measurement range of R67? -/
def freqOutside (nom f : Nat) : Bool :=
  if nom = 60 then f < 51000000 || 69000000 < f else f < 42500000 || 57500000 < f

/-- CYCLE_FREQUENCY at a positive-going boundary: the cycle just ended, when both its ends are real and its period in range. -/
def State.cycleFreq (s : State) (v : Nat) (b : Bnd) : State :=
  let y := s.vs v
  let tn := tNom s.cfg.active v
  match y.prev with
  | some a =>
    if b.rising && a.rising && !a.synth && !b.synth then
      let d := b.at_ - a.at_
      if 7 * tn ≤ 10 * d ∧ 10 * d ≤ 14 * tn then
        s.modVs v fun y => { y with cycFreq := freqOf 1 d s.time.slewRate, tLast := d,
                                    cycles := (y.cycles ++ [(a.ns, b.ns, d, s.time.slewRate)]).drop (y.cycles.length - 1000) }
      else s
    else s
  | none => s

/-! ### RMS½, creep and overcurrent at a boundary (R68, R80, R83) -/

/-- I_s in µA times 1,000 (R80). -/
def iStart (ks : KeySet) (m : Nat) : Nat := ks.get (kMp m 8) * ks.get (kMp m 7)

/-- The runs of R80 after an RMS½ value. -/
def creepRuns (ks : KeySet) (m : Nat) (x : ChanM) : ChanM :=
  if !x.halfOk then x
  else if x.creep then
    { x with upRun := if 9 * iStart ks m ≤ 10 * (1000 * x.half) then x.upRun + 1 else 0, downRun := 0 }
  else { x with downRun := if 10 * (1000 * x.half) < 8 * iStart ks m then x.downRun + 1 else 0, upRun := 0 }

/-- R83 after an RMS½ value: assertion at the boundary, and the release run. -/
def State.overcurrent (s : State) (m c : Nat) (b : Bnd) : State :=
  let ks := s.cfg.active
  let lvl := ks.get (kMp m 9) * ks.get (kMp m 7) * 1000
  let x := s.chm c
  if lvl = 0 || !x.halfOk || s.onFooting (courseOf c) then s
  else if lvl ≤ 256 * x.half then
    (s.modChm c fun x => { x with oc := true, ocRun := 0 }).levelAt b.index b.ns (8 * c + 6) true
  else if x.oc then
    s.modChm c fun x => { x with ocRun := if 100 * (256 * x.half) < 95 * lvl then x.ocRun + 1 else 0 }
  else s

/-- RMS_HALF_REFRESH of one channel: the window from the boundary of the same direction before (R68). -/
def State.halfRefresh (s : State) (b : Bnd) (c : Nat) : State :=
  let now := s.cumAt c b.u
  let x := s.chm c
  let s := match x.atPrev with
    | some p => let d := now.sub p; s.modChm c fun x => { x with half := chanRms s.cfg.active c d, halfOk := decide (0 < d.n) }
    | none => s.modChm c fun x => { x with halfOk := false }
  s.modChm c fun x => { x with atPrev := x.atLast, atLast := some now }

/-- Move the boundary totals of an element on. -/
def State.elemBoundary (s : State) (b : Bnd) (i : Nat) : State :=
  let now := s.etotAt i b.u
  s.modElem i fun x => { x with atPrev := x.atLast, atLast := some now }

/-! ### Creep changes (R80 to R82) -/

/-- The last boundary of a metering point's voltage set, or the present instant before any. -/
def State.lastBnd (s : State) (m : Nat) : Bnd :=
  ((s.vs (mpVset s.cfg.active m)).last).getD
    { at_ := s.time.index * 2 ^ 17, u := 2 * s.time.index, index := s.time.index, ns := s.time.ns, rising := false, synth := false }

/-- Registration of a metering point (R81): EV(384 + 8m + 3) while every phase is in creep. -/
def State.registers (s : State) (m : Nat) : Bool := (mpPhases s.cfg.active m).any fun c => !(s.chm c).creep

def State.registerLevel (s : State) (m index ns : Nat) : State :=
  s.levelAt index ns (384 + 8 * m + 3) (!s.registers m)

/-- A channel of a metering point enters or leaves creep at a boundary. -/
def State.setCreep (s : State) (m c : Nat) (v : Bool) (index ns : Nat) : State :=
  let s := s.modChm c fun x =>
    { x with creep := v, upRun := 0, downRun := 0, creepHist := ((index, v) :: x.creepHist).take 16 }
  (s.levelAt index ns (8 * c + 7) v).registerLevel m index ns

/-- The enabled metering point a current channel belongs to. -/
def mpOfChannel (ks : KeySet) (c : Nat) : Option Nat := (enabledMps ks).find? fun m => (mpPhases ks m).contains c

/-- CREEP_ENTER (R80): 2 × N_c consecutive RMS½ values below 0.8 × I_s. -/
def execCreepEnter (c : Fin 48) (s : State) : Host.Outcome State Fault Refusal :=
  if !s.meters then .next s else
  match mpOfChannel s.cfg.active c with
  | some m =>
    let x := s.chm c
    if !x.creep && 2 * vsNc s.cfg.active (mpVset s.cfg.active m) ≤ x.downRun then
      let b := s.lastBnd m
      .next (s.setCreep m c true b.index b.ns)
    else .next s
  | none => .next s

/-- CREEP_EXIT (R80): 2 consecutive RMS½ values of at least 0.9 × I_s. -/
def execCreepExit (c : Fin 48) (s : State) : Host.Outcome State Fault Refusal :=
  if !s.meters then .next s else
  match mpOfChannel s.cfg.active c with
  | some m =>
    let x := s.chm c
    if x.creep && 2 ≤ x.upRun then
      let b := s.lastBnd m
      .next (s.setCreep m c false b.index b.ns)
    else .next s
  | none => .next s

/-- OVERCURRENT_RELEASE (R83): 2 consecutive values below 0.95 × I_oc. -/
def execOvercurrentRelease (c : Fin 48) (s : State) : Host.Outcome State Fault Refusal :=
  if !s.meters then .next s else
  let x := s.chm c
  if x.oc && 2 ≤ x.ocRun then
    let b := s.lastBnd (((enabledMps s.cfg.active).find? fun m => (mpChannels s.cfg.active m).contains (some c.val)).getD 0)
    .next ((s.modChm c fun x => { x with oc := false, ocRun := 0 }).levelAt b.index b.ns (8 * c.val + 6) false)
  else .next s

/-- Every phase of a metering point begins in creep at the present sample (R82). -/
def State.beginCreep (s : State) (m : Nat) : State :=
  (mpPhases s.cfg.active m).foldl (fun s c => s.setCreep m c true s.time.index s.time.ns) s

/-- The metering points that begin in creep at their first sample index after a start, once their course delivers (R82). -/
def State.creepStarts (s : State) : State :=
  let go := s.metro.creepFrom.filter fun m => (mpCourse s.cfg.active m).elim false fun k => (s.course k).running
  go.foldl (fun (s : State) m => s.beginCreep m) { s with metro.creepFrom := s.metro.creepFrom.filter fun m => !go.contains m }

/-! ### Windows (R68, R94, R545) -/

/-- Totals of a set's channels before a course sample. -/
def State.snapCh (s : State) (v u : Nat) : List (Nat × Cum) :=
  (vsAllChannels s.cfg.active v ++ [48 + v]).map fun c => (c, s.cumAt c u)

/-- Totals of the elements of a set's metering points before a course sample. -/
def State.snapEl (s : State) (v u : Nat) : List (Nat × ETot) :=
  (mpsOf s.cfg.active v).flatMap fun m => (mpElems s.cfg.active m).map fun d => (4 * m + d.e, s.etotAt (4 * m + d.e) u)

def State.openWindow (s : State) (v : Nat) (b : Bnd) : State :=
  s.modVs v fun y => { y with win := some ⟨b, 0, b.synth, s.snapCh v b.u, s.snapEl v b.u⟩ }

/-- The courses of a voltage set and of its metering points that run on footing (R85). -/
def State.footCourses (s : State) (v : Nat) : List Nat :=
  let ks := s.cfg.active
  ((vsCourse ks v).toList ++ (mpsOf ks v).filterMap (mpCourse ks)).filter s.onFooting

/-- End the window in progress at a boundary or cut it at a sample; it waits for WINDOW_END.  `left` are courses that fall to footing or return from it here. -/
def State.closeWindow (s : State) (v : Nat) (b : Bnd) (cut : Bool) (left : List Nat) : State :=
  match (s.vs v).win with
  | none => s
  | some w =>
    let ch := w.ch.map fun e => (e.1, (s.cumAt e.1 b.u).sub e.2)
    let el := w.el.map fun e => (e.1, (s.etotAt e.1 b.u).sub e.2)
    s.modVs v fun y => { y with win := none, done := y.done ++ [⟨w.start, b, w.cycles, w.synth, cut, left ++ s.footCourses v, s.footCourses v, s.time.slewRate, ch, el⟩] }

/-- Windows at a boundary: positive-going boundaries count cycles; after N_c the window ends and the next starts.  The boundary that ends a window belongs to
the next one (R65), with its SYNTH. -/
def State.windowBoundary (s : State) (v : Nat) (b : Bnd) : State :=
  match (s.vs v).win with
  | none => if b.rising then s.openWindow v b else s
  | some w =>
    let n := if b.rising then w.cycles + 1 else w.cycles
    let s := s.modVs v fun y => { y with win := some { w with cycles := n } }
    if b.rising && decide (vsNc s.cfg.active v ≤ n) then (s.closeWindow v b false []).openWindow v b
    else s.modVs v fun y => { y with win := some { w with cycles := n, synth := w.synth || b.synth } }

/-- A sample as a cut point of a window. -/
def State.cutBnd (s : State) : Bnd :=
  { at_ := s.time.index * 2 ^ 17, u := 2 * s.time.index, index := s.time.index, ns := s.time.ns, rising := true, synth := false }

/-! ### Published values -/

/-- FLAGS bits of R86. -/
def flagBits (invalid incomplete ovr synth foot creep sat freq pq : Bool) : Nat :=
  bitsNat [invalid, incomplete, ovr, synth, foot, creep, sat, freq, pq]

/-- The transform of one channel over a window (R74): bins X_k for k = 0 to 762, the highest used, in 2^-50 of full scale, and whether a filter tap reached an
invalid sample outside the window. -/
structure Spectrum where
  ch : Nat
  bins : List Cx
  edge : Bool
  deriving DecidableEq, Repr

/-- The harmonic pipeline on a channel's samples over a window (R74); the taps reach 95 + 8 course samples beyond its ends. -/
def State.spectrumOf (s : State) (w : WinDone) (wide : Bool) (c : Nat) : Spectrum :=
  let st := if wide then 1 else 2
  let x := s.chm c
  let pts := windowPoints st x.at w.start.at_ w.stop.at_
  { ch := c, bins := (List.range 763).map (dftBin 2048 pts),
    edge := x.raw.any fun r => r.bad && decide (w.start.u ≤ r.u + 103 * st) && decide (r.u < w.stop.u + 103 * st)
      && !(decide (w.start.u ≤ r.u) && decide (r.u < w.stop.u)) }

/-- Have the samples that the taps reach after a window's end been delivered (R74)? -/
def State.tapsReached (s : State) (w : WinDone) : Bool := decide (w.stop.u + 206 ≤ 2 * s.time.index)

def specBin (x : Spectrum) (k : Nat) : Cx := x.bins.getD k Cx.zero

/-- The fundamental phasor in 2^-50 of full scale times FS in mV or mA; zero where no spectrum is formed. -/
def fundOf (ks : KeySet) (nc : Nat) (sp : Option Spectrum) : Cx :=
  match sp with
  | some x => Cx.smul (primaryFs ks x.ch) (specBin x nc)
  | none => Cx.zero

/-- Sum of |X|² over bins lo to hi. -/
def binSum (x : Spectrum) (lo hi : Nat) : Nat :=
  (List.range (hi + 1 - lo)).foldl (fun a i => a + (specBin x (lo + i)).sq) 0

/-- RMS in 2^-32 of PRIMARY_FS of Σ|X_k|², k ≥ 1 (R74): √(2 Σ) / 2,048; saturating. -/
def hRms (sum : Nat) : Nat := satU 32 ((isqrt (4 * sum / 2 ^ 57) + 1) / 2)
/-- The same of bin 0. -/
def hRms0 (sum : Nat) : Nat := satU 32 ((isqrt (4 * sum / 2 ^ 58) + 1) / 2)

/-- Σ|X|² of subgroup h ≥ 1 (R75). -/
def subgroupSum (x : Spectrum) (nc h : Nat) : Nat := binSum x (nc * h - 1) (nc * h + 1)
/-- 2 Σ|X|² of group h ≥ 1, the outer bins by half (R75). -/
def groupSum2 (x : Spectrum) (nc h : Nat) : Nat :=
  2 * binSum x (nc * h - nc / 2 + 1) (nc * h + nc / 2 - 1) + (specBin x (nc * h - nc / 2)).sq + (specBin x (nc * h + nc / 2)).sq

def hsgList (x : Spectrum) (nc : Nat) : List Nat :=
  (List.range 64).map fun h => if h = 0 then hRms0 (specBin x 0).sq else hRms (subgroupSum x nc h)
def hgList (x : Spectrum) (nc : Nat) : List Nat :=
  (List.range 64).map fun h => if h = 0 then hRms0 (specBin x 0).sq else hRms (groupSum2 x nc h / 2)

/-- Phase of harmonic h (R75) as s16: angle of its bin minus h times the reference's fundamental angle. -/
def hPhase (x : Spectrum) (nc : Nat) (refAng : Int) (h : Nat) : Int :=
  let b := specBin x (nc * h)
  let a := wrapAngle (angleOf b.re b.im - h * refAng)
  signedOf 16 (unsignedOf 16 (roundDiv a (2 ^ 16)))

/-- THD (R75) in 2^-24, and whether subgroup 1 is 0. -/
def thdOf (x : Spectrum) (nc : Nat) : Nat × Bool :=
  let d := subgroupSum x nc 1
  let n := (List.range 39).foldl (fun a i => a + subgroupSum x nc (i + 2)) 0
  (satU 32 (sqrtRatio (n * 2 ^ 48) d), d == 0)

/-- Interharmonic groups and centred subgroups (R110). -/
def ihgList (x : Spectrum) (nc : Nat) : List Nat :=
  (List.range 63).map fun i => hRms (binSum x (nc * i + 1) (nc * (i + 1) - 1))
def ihsgList (x : Spectrum) (nc : Nat) : List Nat :=
  (List.range 63).map fun i => hRms (binSum x (nc * i + 2) (nc * (i + 1) - 2))

/-- µV or µA of a phasor in 2^-50 × mV (R74 scaling) divided by `k`. -/
def phasorMicro (z : Cx) (k : Nat) : Nat := (isqrt (4 * (2 * z.sq * 1000000) / (2 ^ 122 * k * k)) + 1) / 2

/-- The three phasors whose sequence components a voltage set reports (R77). -/
def vsTriple (ks : KeySet) (v : Nat) (f : Nat → Cx) : Option (Cx × Cx × Cx) :=
  match vsConfig ks v, vsChannels ks v with
  | 1, [some a, some b, some c, _] => some (f a, f b, f c)
  | 2, [some a, some b, some c, _] => some (f a, f b, f c)
  | 2, [some a, some b, none, _] => some (f a, f b, (Cx.add (f a) (f b)).neg)
  | _, _ => none

def mpTriple (ks : KeySet) (m : Nat) (f : Nat → Cx) : Option (Cx × Cx × Cx) :=
  match mpWiring ks m, mpChannels ks m with
  | 1, [some a, some b, some c, _] => some (f a, f b, f c)
  | 2, [some a, _, some c, _] => some (f a, (Cx.add (f a) (f c)).neg, f c)
  | _, _ => none

/-- Magnitudes and ratios of R77: pos, zero, neg in µ, u_neg and u_0 in 2^-24; `three` drops the zero component. -/
structure SeqVals where
  pos : Nat := 0
  zero : Nat := 0
  neg : Nat := 0
  uNeg : Nat := 0
  uZero : Nat := 0
  posSq : Nat := 0
  negSq : Nat := 0
  deriving DecidableEq, Repr

def seqVals (t : Option (Cx × Cx × Cx)) (three : Bool) : SeqVals :=
  match t with
  | none => {}
  | some (a, b, c) =>
    let (z, p, n) := seqComponents a b c
    let z := if three then Cx.zero else z
    { pos := phasorMicro p (3 * 2 ^ 65), zero := phasorMicro z (3 * 2 ^ 65), neg := phasorMicro n (3 * 2 ^ 65),
      uNeg := satU 32 (sqrtRatio (n.sq * 2 ^ 48) p.sq), uZero := satU 32 (sqrtRatio (z.sq * 2 ^ 48) p.sq),
      posSq := p.sq, negSq := n.sq }

/-- Duration of a window in ns. -/
def WinDone.durationNs (w : WinDone) : Nat := (w.stop.u - w.start.u) * 15625 / 2

/-- What publishing a window needs beside its totals: set, spectra, PQ_FLAG (R111), the channels of metering points that began in it (R545), and the courses
whose members did not agree on it (R155). -/
structure WinPub where
  v : Nat
  w : WinDone
  sp : List Spectrum
  pq : Bool
  late : List Nat
  lost : List Nat
  deriving DecidableEq, Repr

/-- Does the course of a channel run on footing in the window? -/
def WinPub.foot (p : WinPub) (c : Nat) : Bool := p.w.foot.contains (courseOf c)

/-- Do the numeric fields of a channel's course read 0: on footing in a whole window (R85); one cut by a fall or return is treated under R545. -/
def WinPub.dark (p : WinPub) (c : Nat) : Bool := p.foot c && !p.w.cut

def WinPub.nc (p : WinPub) (ks : KeySet) : Nat := vsNc ks p.v
/-- The spectrum of a channel, none where it is not formed: an invalid sample (R76), a window cut short (R545), footing (R85). -/
def WinPub.spec (p : WinPub) (c : Nat) : Option Spectrum :=
  if p.w.cut || p.foot c || p.late.contains c then none
  else match p.w.ch.lookup c with
  | some t => if t.bad = 0 ∧ 0 < t.n then p.sp.find? fun x => x.ch == c else none
  | none => none
def WinPub.fund (p : WinPub) (ks : KeySet) (c : Nat) : Cx := fundOf ks (p.nc ks) (p.spec c)
def WinPub.refAngle (p : WinPub) (ks : KeySet) : Int :=
  (vsRef ks p.v).elim 0 fun c => let z := p.fund ks c; angleOf z.re z.im
def WinPub.cum (p : WinPub) (c : Nat) : Cum := (p.w.ch.lookup c).getD {}

/-- INVALID, INCOMPLETE and OVERRANGE of a block over channels (R84). -/
def WinPub.quality (p : WinPub) (chs : List Nat) : Bool × Bool × Bool :=
  (chs.all fun c => (p.cum c).n == 0,
   p.w.cut || (chs.any fun c => 0 < (p.cum c).bad || p.late.contains c) || (p.sp.any fun x => chs.contains x.ch && x.edge),
   chs.any fun c => 0 < (p.cum c).ovr)

/-- The window's frequency lay outside the measurement range. -/
def WinPub.freqRange (p : WinPub) (ks : KeySet) : Bool :=
  !p.w.cut && freqOutside (vsNomF ks p.v) (freqOf p.w.cycles (p.w.stop.at_ - p.w.start.at_) p.w.slew)

/-- Sequence components of the set in this window. -/
def WinPub.vsSeq (p : WinPub) (ks : KeySet) : SeqVals := seqVals (vsTriple ks p.v (p.fund ks)) (vsConfig ks p.v == 2)

def relAngle (refAng : Int) (z : Cx) : Int := if z = Cx.zero then 0 else wrapAngle (angleOf z.re z.im - refAng)

/-- U_RMS of a set's channels in this window, 0 for absent ones and on footing. -/
def WinPub.uRms (p : WinPub) (ks : KeySet) : List Nat :=
  (vsChannels ks p.v).map fun c => c.elim 0 fun c => if p.dark c then 0 else chanRms ks c (p.cum c)

def WinPub.thd (p : WinPub) (ks : KeySet) (c : Option Nat) : Nat × Bool :=
  match c.bind p.spec with
  | some x => thdOf x (p.nc ks)
  | none => (0, false)

/-- Fields of `w` bytes, each saturated at the limit of its format, and whether one was (R84). -/
def satUs (w : Nat) (l : List Nat) : Bytes × Bool := (l.flatMap fun x => leBytes w (satU (8 * w) x), l.any fun x => satU (8 * w) x != x)
def satSs (w : Nat) (l : List Int) : Bytes × Bool := (l.flatMap fun x => leInt w (satS (8 * w) x), l.any fun x => satS (8 * w) x != x)

/-- The numeric fields of a block: all 0 where the block has no valid value (R84, R86). -/
def numeric (invalid : Bool) (l : List (Bytes × Bool)) : Bytes × Bool :=
  let b := l.flatMap (·.1)
  (if invalid then zeros b.length else b, !invalid && l.any (·.2))

/-- A ratio or a value of an unsigned field of 32 bits that its rounding has saturated. -/
def full32 (x : Nat) : Bool := x == 2 ^ 32 - 1

/-- The set's own channels run on footing in the window. -/
def WinPub.vsFoot (p : WinPub) (ks : KeySet) : Bool := (vsCourse ks p.v).elim false fun k => p.w.foot.contains k

/-- The numeric fields of the block of R87 from offset 24, with SAT. -/
def WinPub.vsFields (p : WinPub) (s : State) : Bytes × Bool :=
  let ks := s.cfg.active
  let y := s.vs p.v
  let chs := vsChannels ks p.v
  let sq := p.vsSeq ks
  let dark := p.vsFoot ks && !p.w.cut
  let z (n : Nat) := if dark then 0 else n
  numeric (p.quality (chs.filterMap id)).1
    [satUs 4 [z y.cycFreq, z y.f10], satUs 8 (p.uRms ks), satUs 8 (chs.map fun c => c.elim 0 fun c => z (s.chm c).half),
     satSs 4 (chs.map fun c => c.elim 0 fun c => relAngle (p.refAngle ks) (p.fund ks c)),
     ((chs.flatMap fun c => leBytes 4 (p.thd ks c).1), chs.any fun c => full32 (p.thd ks c).1),
     satUs 8 [sq.pos, sq.zero, sq.neg], (leBytes 4 sq.uNeg ++ leBytes 4 sq.uZero, full32 sq.uNeg || full32 sq.uZero)]

/-- FLAGS of the set's block. A channel whose subgroup 1 is 0 sets INVALID here and in its own harmonic block, and the other fields keep their values (R75,
log 62). -/
def WinPub.vsFlags (p : WinPub) (s : State) : Nat :=
  let ks := s.cfg.active
  let q := p.quality ((vsChannels ks p.v).filterMap id)
  let thd0 := (vsChannels ks p.v).any fun c => (p.thd ks c).2
  flagBits (q.1 || thd0) q.2.1 q.2.2 p.w.synth (p.vsFoot ks) false (p.vsFields s).2 (p.freqRange ks) p.pq

/-- The 160-byte block of R87. -/
def WinPub.vsBlock (p : WinPub) (s : State) : Bytes :=
  let y := s.vs p.v
  leBytes 8 p.w.stop.index ++ leBytes 8 (if s.time.valid then p.w.stop.ns else 0) ++ leBytes 2 (p.vsFlags s)
    ++ leBytes 1 (bitsNat [y.seqErr, y.mn]) ++ leBytes 1 (vsNc s.cfg.active p.v) ++ leBytes 4 (satU 32 p.w.durationNs) ++ (p.vsFields s).1

/-- The block of one channel's spectrum (R89, R110): FLAGS INVALID and fields 0 where none is formed. -/
def WinPub.specBlock (p : WinPub) (ks : KeySet) (c n : Nat) (body : Spectrum → Bytes × Bool) (bad : Spectrum → Bool) : Bytes :=
  let q := p.quality [c]
  let x := p.spec c
  let f := x.elim (zeros n, false) body
  leBytes 8 p.w.stop.index
    ++ leBytes 2 (flagBits (x.elim true bad) q.2.1 q.2.2 p.w.synth (p.foot c) false f.2 (p.freqRange ks) p.pq)
    ++ leBytes 1 c ++ leBytes 1 (p.nc ks) ++ zeros 4 ++ f.1

/-- Values of 32 bits that saturate where they are formed. -/
def fields32 (l : List Nat) : Bytes × Bool := (l.flatMap (leBytes 4), l.any full32)

/-- The 656-byte block of R89 of one channel. -/
def WinPub.hBlock (p : WinPub) (ks : KeySet) (c : Nat) : Bytes :=
  p.specBlock ks c 640 (fun x =>
    let f := fields32 (hsgList x (p.nc ks) ++ hgList x (p.nc ks))
    (f.1 ++ (List.range 64).flatMap (fun h => leInt 2 (hPhase x (p.nc ks) (p.refAngle ks) h)), f.2)) fun x => (thdOf x (p.nc ks)).2

/-- The 520-byte block of R110 of one channel. -/
def WinPub.ihBlock (p : WinPub) (ks : KeySet) (c : Nat) : Bytes :=
  p.specBlock ks c 504 (fun x => fields32 (ihgList x (p.nc ks) ++ ihsgList x (p.nc ks))) fun _ => false

/-- One element's powers in a window (R71). -/
structure ElemPow where
  p : Int := 0
  q : Int := 0
  p1 : Int := 0
  q1 : Int := 0
  s : Nat := 0
  pf : Int := 0
  dpf : Int := 0
  phi : Int := 0
  deriving DecidableEq, Repr

/-- P / S in Q2.30, before saturation. -/
def ratioQ30 (p : Int) (s : Nat) : Int := if s = 0 then 0 else roundDiv (p * 2 ^ 30) s

/-- cos of the angle of p + jq in Q2.30. -/
def cosQ30 (p q : Int) : Int := ratioQ30 p (isqrtRound (p * p + q * q).toNat)

/-- A phasor product in 2^-121 µW rounded (R71). -/
def phasorPower (x : Int) : Int := roundDiv x (2 ^ 121)

def WinPub.elemPow (p : WinPub) (ks : KeySet) (m : Nat) (d : ElemDef) : ElemPow :=
  let t := (p.w.el.lookup (4 * m + d.e)).getD {}
  let n := p.w.stop.index - p.w.start.index
  let foot := p.w.src.contains (courseOf d.c)
  let pw : Int := if foot then (if t.n = 0 then 0 else roundDiv (t.foot * (3600000 * 64000)) (n * 2 ^ 64)) else meanP ks d t
  let q := meanQ t.q n
  if p.dark d.c then { p := pw, q := q }
  else
    let v1 := let z := p.fund ks d.v; if d.neg then z.neg else z
    let i1 := p.fund ks d.c
    let p1 := v1.re * i1.re + v1.im * i1.im
    let q1 := v1.im * i1.re - v1.re * i1.im
    let three := mpWiring ks m = 2
    let u := chanRms ks d.v (p.cum d.v)
    let i := chanRms ks d.c (p.cum d.c)
    let sa := (roundDiv (u * i : Nat) 1000000).toNat
    { p := pw, q := q, p1 := phasorPower p1, q1 := phasorPower q1, s := if three then 0 else sa,
      pf := if three then 0 else ratioQ30 pw sa, dpf := if three then 0 else cosQ30 p1 q1, phi := if three then 0 else angleOf p1 q1 }

/-- The element at index `e`, or zeros. -/
def powAt (l : List (Nat × ElemPow)) (e : Nat) : ElemPow := (l.lookup e).getD {}

def powTot (l : List (Nat × ElemPow)) (f : ElemPow → Int) : Int := l.foldl (fun a x => a + f x.2) 0

/-- A metering point's course runs on footing in the window. -/
def WinPub.mpFoot (p : WinPub) (ks : KeySet) (m : Nat) : Bool := (mpCourse ks m).elim false fun k => p.w.foot.contains k

/-- The channels of a metering point's block: its currents and the voltages of its elements (R84, log 62). -/
def mpBlockChannels (ks : KeySet) (m : Nat) : List Nat := (mpChannels ks m).filterMap id ++ (mpElems ks m).map (·.v)

/-- No valid value: no valid sample, or no increments from the course (R84, R166). -/
def WinPub.mpVoid (p : WinPub) (s : State) (m : Nat) : Bool :=
  (p.quality (mpBlockChannels s.cfg.active m)).1 || (mpCourse s.cfg.active m).elim false fun k => s.incSource k == .lost

/-- The numeric fields of the block of R88 from offset 24, with SAT. -/
def WinPub.mpFields (p : WinPub) (s : State) (m : Nat) : Bytes × Bool :=
  let ks := s.cfg.active
  let chs := mpChannels ks m
  let l := (mpElems ks m).map fun d => (d.e, p.elemPow ks m d)
  let dark := p.mpFoot ks m && !p.w.cut
  let allCreep := !s.registers m
  let at3 (f : ElemPow → Int) := [0, 1, 2].map fun e => f (powAt l e)
  let pT := powTot l (·.p)
  let qT := powTot l (·.q)
  let p1T := powTot l (·.p1)
  let q1T := powTot l (·.q1)
  let sT : Nat := if dark then 0
    else if ks.get (kMp m 0x0A) = 1 ∨ mpWiring ks m = 2 then isqrtRound (pT * pT + qT * qT).toNat
    else (powTot l fun x => x.s).toNat
  let sq := seqVals (mpTriple ks m (p.fund ks)) (mpWiring ks m == 2)
  let z (n : Nat) := if dark then 0 else n
  let pf0 (x : Int) : Int := if allCreep || dark then 0 else x
  numeric (p.mpVoid s m)
    [satUs 8 (chs.map fun c => c.elim 0 fun c => z (chanRms ks c (p.cum c))), satUs 8 (chs.map fun c => c.elim 0 fun c => z (s.chm c).half),
     satSs 8 (at3 (·.p) ++ [pT]), satSs 8 (at3 (·.q) ++ [qT]), satSs 8 (at3 (·.q1) ++ [q1T, p1T]),
     satUs 8 ([0, 1, 2].map (fun e => (powAt l e).s) ++ [sT]), satSs 4 (at3 (fun x => pf0 x.pf) ++ [pf0 (ratioQ30 pT sT)]),
     satSs 4 (at3 (fun x => pf0 x.dpf) ++ [pf0 (cosQ30 p1T q1T)]), satSs 4 (at3 fun x => x.phi),
     fields32 (chs.map fun c => (p.thd ks c).1), (zeros 4, false), satUs 8 [sq.pos, sq.zero, sq.neg], (leBytes 4 sq.uNeg ++ zeros 4, full32 sq.uNeg)]

/-- The 320-byte block of R88 of one metering point. -/
def WinPub.mpBlock (p : WinPub) (s : State) (m : Nat) : Bytes :=
  let ks := s.cfg.active
  let chs := mpChannels ks m
  let creep := (chs.take 3).map fun c => c.elim false fun c => (s.chm c).creep
  let q := p.quality (mpBlockChannels ks m)
  let fl := flagBits (p.mpVoid s m || chs.any fun c => (p.thd ks c).2) q.2.1 q.2.2 p.w.synth (p.mpFoot ks m) (creep.any id) (p.mpFields s m).2
    (p.freqRange ks) p.pq
  leBytes 8 p.w.stop.index ++ leBytes 8 (if s.time.valid then p.w.stop.ns else 0) ++ leBytes 2 fl
    ++ leBytes 1 (bitsNat (creep ++ [!s.registers m])) ++ leBytes 1 p.v ++ leBytes 4 (satU 32 p.w.durationNs) ++ (p.mpFields s m).1

/-! ### Sequence and missing neutral (R78, R79) -/

/-- The RMS of the third phase: U3, or the derived one. -/
def WinPub.thirdRms (p : WinPub) (ks : KeySet) : Nat :=
  match vsChannels ks p.v with
  | [_, _, some c, _] => chanRms ks c (p.cum c)
  | _ => chanRms ks (48 + p.v) (p.cum (48 + p.v))

/-- Does the window qualify for R78: three phases of at least 10 % of NOMINAL_V? -/
def WinPub.seqQualifies (p : WinPub) (ks : KeySet) : Bool :=
  vsConfig ks p.v != 0 && !p.w.cut && !p.vsFoot ks &&
    (((p.uRms ks).take 2) ++ [p.thirdRms ks]).all fun u => 100 * vsNomV ks p.v ≤ u

/-- The runs of R78 after a window. -/
def seqRuns (ks : KeySet) (p : WinPub) (y : VSet) : VSet :=
  if !p.seqQualifies ks then y
  else
    let q := p.vsSeq ks
    let (e, u) := if ks.get (kVs p.v 8) = 0 then (q.posSq, q.negSq) else (q.negSq, q.posSq)
    if e < u then { y with seqIn := y.seqIn + 1, seqOut := 0 }
    else if u < e then { y with seqOut := y.seqOut + 1, seqIn := 0 }
    else y

/-- The runs of R79 after a window. -/
def mnRuns (ks : KeySet) (p : WinPub) (y : VSet) : VSet :=
  if vsConfig ks p.v != 1 || p.w.cut || p.vsFoot ks then y
  else
    let lvl := ks.get (kVs p.v 0x0B)
    let un := (p.uRms ks).getD 3 0
    let hasUn := (vsChannels ks p.v).getD 3 none |>.isSome
    let u0 := (p.vsSeq ks).uZero
    let meets := (hasUn && decide (lvl * vsNomV ks p.v ≤ un)) || decide (lvl * 2 ^ 24 ≤ u0 * 1000)
    let below := (!hasUn || decide (10 * un < 8 * (lvl * vsNomV ks p.v))) && decide (10 * (u0 * 1000) < 8 * (lvl * 2 ^ 24))
    { y with mnIn := if meets then y.mnIn + 1 else 0, mnOut := if below then y.mnOut + 1 else 0 }

/-- The sources of R78 (n = 0) and R79 (n = 1) of every enabled metering point of a set. -/
def State.vsSource (s : State) (v n : Nat) (on : Bool) : State :=
  (mpsOf s.cfg.active v).foldl (fun s m => s.level (384 + 8 * m + n) on) s

/-- SEQUENCE_ERROR_ASSERT (R78). -/
def execSequenceErrorAssert (v : Fin 8) (s : State) : Host.Outcome State Fault Refusal :=
  if !s.meters then .next s else
  if !(s.vs v).seqErr && 5 ≤ (s.vs v).seqIn then
    .next ((s.modVs v fun y => { y with seqErr := true, seqOut := 0 }).vsSource v 0 true)
  else .next s

/-- SEQUENCE_ERROR_CLEAR (R78). -/
def execSequenceErrorClear (v : Fin 8) (s : State) : Host.Outcome State Fault Refusal :=
  if !s.meters then .next s else
  if (s.vs v).seqErr && 5 ≤ (s.vs v).seqOut then
    .next ((s.modVs v fun y => { y with seqErr := false, seqIn := 0 }).vsSource v 0 false)
  else .next s

/-- MISSING_NEUTRAL_ASSERT (R79). -/
def execMissingNeutralAssert (v : Fin 8) (s : State) : Host.Outcome State Fault Refusal :=
  if !s.meters then .next s else
  if !(s.vs v).mn && 5 ≤ (s.vs v).mnIn then
    .next ((s.modVs v fun y => { y with mn := true, mnOut := 0 }).vsSource v 1 true)
  else .next s

/-- MISSING_NEUTRAL_CLEAR (R79). -/
def execMissingNeutralClear (v : Fin 8) (s : State) : Host.Outcome State Fault Refusal :=
  if !s.meters then .next s else
  if (s.vs v).mn && 5 ≤ (s.vs v).mnOut then
    .next ((s.modVs v fun y => { y with mn := false, mnIn := 0 }).vsSource v 1 false)
  else .next s

/-! ### Publishing (R84 to R90) -/

/-- Replace the blocks of a window's set, metering points and channels as one act (R90); a course whose members did not agree gives none (R155). -/
def State.publish (s : State) (p : WinPub) : State :=
  let ks := s.cfg.active
  let chs := (vsAllChannels ks p.v).filter fun c => (p.w.ch.lookup c).isSome && !p.lost.contains (courseOf c)
  let mps := (mpsOf ks p.v).filter fun m =>
    ((mpElems ks m).all fun d => (p.w.el.lookup (4 * m + d.e)).isSome) && (mpCourse ks m).all fun k => !p.lost.contains k
  let own := (vsCourse ks p.v).all fun k => !p.lost.contains k
  let s := if own then s.modVs p.v fun y => mnRuns ks p (seqRuns ks p y) else s
  let s := chs.foldl (fun s c => s.modChm c fun x => { x with rms := chanRms ks c (p.cum c) }) s
  let blk := p.vsBlock s
  let s1 := mps.foldl (fun t m => { t with metro.mpBlock := Tbl.set [] t.metro.mpBlock m (p.mpBlock s m) }) s
  let s2 := chs.foldl (fun t c => { t with metro.hBlock := Tbl.set [] t.metro.hBlock c (p.hBlock ks c),
                                           metro.ihBlock := Tbl.set [] t.metro.ihBlock c (p.ihBlock ks c) }) s1
  let s3 := if own then s2.modVs p.v fun y => { y with block := blk, blkFlags := p.vsFlags s } else s2
  { s3 with metro.mpCut := s3.metro.mpCut.filter fun m => !mps.contains m }

/-! ### Reads of group 0x02 (R406) -/

/-- The blank block of a reader: FLAGS INVALID (R86). -/
def blankBlock (n flagsAt : Nat) : Bytes := zeros flagsAt ++ [1] ++ zeros (n - flagsAt - 1)

def State.vsBlockOf (s : State) (v : Nat) : Bytes :=
  let b := (s.vs v).block; if b.isEmpty then blankBlock 160 16 else b
def State.mpBlockOf (s : State) (m : Nat) : Bytes :=
  let b := Tbl.get [] s.metro.mpBlock m; if b.isEmpty then blankBlock 320 16 else b
def State.hBlockOf (s : State) (c : Nat) : Bytes :=
  let b := Tbl.get [] s.metro.hBlock c
  if b.isEmpty then zeros 8 ++ [1, 0] ++ leBytes 1 c ++ zeros 645 else b

end Sys2Proof.Machine
end

