-- ==== Sys2Proof/Machine/Accumulation.lean ====
section
/-! DEFINITION. Accumulation, direction, pulse outputs, dual-channel inputs and disconnect feedback (05). -/

namespace Sys2Proof.Machine

/-! ### Degraded courses (R403) -/

def State.courseDegraded (s : State) (k : Nat) : Bool :=
  courseEnabled s.cfg.active k && (s.onFooting k || (s.bond k).st == .duplex)

def State.anyDegraded (s : State) (l : List Nat) : Bool := l.any s.courseDegraded

/-! ### Pulse generators (R135 to R139) -/

def State.gen (s : State) (p : Nat) : PulseGen := Tbl.get {} s.acc.pulse p
def State.modGen (s : State) (p : Nat) (g : PulseGen → PulseGen) : State :=
  { s with acc.pulse := Tbl.upd {} s.acc.pulse p g }

/-- Spacing of pulse starts in course samples (R137): ceil(200 µs × rate). -/
def pulseSpacing (wide : Bool) : Nat := if wide then 26 else 13

/-- Is the course of an output's metering point at 128 kS/s? -/
def State.pulseWide (s : State) (p : Nat) : Bool := (mpCourse s.cfg.active (s.key (kPulse p 1))).elim false (courseWide s.cfg.active)

/-- A transfer of `mag` into the source register, `n` course samples after the previous one (R135). -/
def PulseGen.feed (const mag n : Nat) (x : PulseGen) : PulseGen :=
  let amount := (roundDiv (mag * const : Nat) 1000000000).toNat
  let n := max 1 n
  { x with bucket := x.bucket + x.rem, rem := amount, left := n, per := amount / n }

/-- The generators of a register get a transfer. -/
def State.feedPulses (s : State) (m r mag n : Nat) : State :=
  (List.range 16).foldl (fun s p =>
    if s.key (kPulse p 0) = 1 ∧ s.key (kPulse p 1) = m ∧ s.key (kPulse p 2) = r then
      s.modGen p (PulseGen.feed (s.key (kPulse p 3)) mag (if s.pulseWide p then 2 * n else n))
    else s) s

/-- Active width in course samples (R136): WIDTH, or half the pulse interval when that is shorter than 2 × WIDTH, at least 1. -/
def pulseWidth (wide : Bool) (widthMs per : Nat) : Nat :=
  let w := widthMs * (if wide then 128 else 64)
  if per = 0 then w else if 2 ^ 64 < 2 * w * per then max 1 (2 ^ 64 / (2 * per)) else w

/-- One course sample of a generator: an equal part is released, whole impulses leave the bucket, and a pulse starts
when one waits and the spacing allows; the backlog holds what is left of them.  `u` is the course sample number.  The second result: did a pulse start? -/
def PulseGen.step (wide : Bool) (widthMs u : Nat) (x : PulseGen) : PulseGen × Bool :=
  let r := if x.left ≤ 1 then x.rem else x.rem / x.left
  let bucket := x.bucket + r
  let want := x.backlog + bucket / 2 ^ 64
  let since := min 65535 (x.since + 1)
  let starts := decide (1 ≤ want) && decide (pulseSpacing wide ≤ since)
  let wait := if starts then want - 1 else want
  let x := { x with bucket := bucket % 2 ^ 64, rem := x.rem - r, left := x.left - 1, since := since, backlog := min 65535 wait,
                    dropped := if 65535 < wait then (List.range 8).foldl (fun t b => Tbl.set false t b true) x.dropped else x.dropped }
  if starts then
    ({ x with since := 0, stopAt := some (u + pulseWidth wide widthMs x.per * (if wide then 1 else 2)),
              count := (x.count + 1) % 2 ^ 32, wrap := (x.wrap + (x.count + 1) / 2 ^ 32) % 256 }, true)
  else (x, false)

/-- The level of a pulse ball (R134, R138, R524): DRIVE 0 sinks the low level and releases the high one; a driver in short is off. -/
def pulseBall (pushPull short high : Bool) : Option Bool := if short || (high && !pushPull) then none else some high

/-- Drive a pulse ball at its active or inactive level. -/
def State.drivePulse (s : State) (p : Nat) (active : Bool) : State :=
  { s with pins.pulse := Tbl.set none s.pins.pulse p (pulseBall (s.keyOn (kPulse p 6)) (s.gen p).short (active != s.keyOn (kPulse p 5))) }

/-- PULSE_RELEASE at a course sample, sub-sample `sub` of the present index: release, start, and the overrun source (R135, R137). -/
def State.pulseStep (s : State) (sub p : Nat) : State :=
  if !s.keyOn (kPulse p 0) then s
  else
    let (x, started) := (s.gen p).step (s.pulseWide p) (s.key (kPulse p 4)) (2 * s.time.index + sub)
    let run2 := if 2 ≤ x.backlog then true else if x.backlog = 0 then false else x.overrun
    let s := s.modGen p fun _ => { x with overrun := run2 }
    let s := if started then s.drivePulse p true else s
    s.level (608 + 2 * p + 1) run2

/-- PULSE_WIDTH_END (R136): the pulse in progress has had its width. -/
def execPulseWidthEnd (p : Fin 16) (s : State) : Host.Outcome State Fault Refusal :=
  if !s.meters then .next s else
  match (s.gen p).stopAt with
  | some e => if e ≤ 2 * s.time.index + 1 then .next ((s.modGen p fun x => { x with stopAt := none }).drivePulse p false) else .next s
  | none => .next s

/-- PULSE_SHORT_DETECT (R138): at the current limit in the active state for 1 ms. -/
def execPulseShortDetect (p : Fin 16) (atLimitUs : Nat) (s : State) : Host.Outcome State Fault Refusal :=
  if !s.meters then .next s else
  if s.keyOn (kPulse p 0) && !(s.gen p).short && 1000 ≤ atLimitUs then
    let s := s.modGen p fun x => { x with short := true, offAt := s.time.mono }
    .next ({ s with pins.pulse := Tbl.set none s.pins.pulse p none }.level (608 + 2 * p.val) true)
  else .next s

/-- PULSE_SHORT_RETRY (R138): every 100 ms; a retry that holds for 1 ms ends the state. -/
def execPulseShortRetry (p : Fin 16) (held : Bool) (s : State) : Host.Outcome State Fault Refusal :=
  if !s.meters then .next s else
  let x := s.gen p
  if x.short && x.offAt + 100000000 ≤ s.time.mono then
    if held then
      .next (((s.modGen p fun x => { x with short := false }).drivePulse p x.stopAt.isSome).level (608 + 2 * p.val) false)
    else .next (s.modGen p fun x => { x with offAt := s.time.mono })
  else .next s

/-- A swap that changes SOURCE_MP, SOURCE_REG or CONSTANT clears bucket, backlog and remainder (R139). -/
def PulseGen.cleared (x : PulseGen) : PulseGen := { x with bucket := 0, rem := 0, per := 0, left := 0, backlog := 0 }

/-! ### Transfers (R122 to R128, R239) -/

/-- A transfer of magnitude `mag` (2^-64 unit) into register `r`, and into the rate register for r < 6; `n` samples
after the integrator's previous transfer. -/
def State.addReg (s : State) (m r mag rate n : Nat) : State :=
  if mag = 0 then s
  else
    let s := s.modMpAcc m fun a => { a with reg := Tbl.upd {} a.reg r fun x => x.add mag }
    let s := if r < 6 then s.modBmp m fun b => { b with rreg := Tbl.upd {} b.rreg (8 * r + rate) fun x => x.add mag } else s
    s.feedPulses m r mag n

/-- The content of an element's active integrator before course sample `u` (R123): what a restart brought back, and the increments since the last transfer
point, discarded in creep (R81). -/
def State.activeContent (s : State) (m u : Nat) (d : ElemDef) : Int :=
  let x := s.elem (4 * m + d.e)
  x.carry + if (s.chm d.c).creep then 0 else (s.etotAt (4 * m + d.e) u).inc - x.base

/-- An element's content moves to its import or export register. -/
def State.elemTransfer (s : State) (m u n : Nat) (d : ElemDef) : State :=
  let x := s.activeContent m u d
  let s := if 0 < x then s.addReg m (10 + d.e) x.natAbs 0 n else if x < 0 then s.addReg m (13 + d.e) x.natAbs 0 n else s
  s.modElem (4 * m + d.e) fun y => { y with base := (s.etotAt (4 * m + d.e) u).inc, carry := 0 }

/-- Demand energy of the running subperiod (R240). -/
def BillMp.addDemand (mag : Nat) (exp : Bool) (b : BillMp) : BillMp :=
  { b with subE := if exp then (b.subE.1, b.subE.2 + mag) else (b.subE.1 + mag, b.subE.2) }

/-- DIRECTION_REVERSAL (R126). -/
def State.setDir (s : State) (m : Nat) (exp : Bool) (index ns : Nat) : State :=
  if (s.mpAcc m).dir = exp then s
  else (s.modMpAcc m fun a => { a with dir := exp, reversals := (a.reversals + 1) % 2 ^ 32 }).occurAt index ns (384 + 8 * m + 2) .pulse 0

/-- A transfer point `t` of a metering point, whose content ends before course sample `u` (R123): elements and total move by
their own signs, the rate then in force gets them (R239), A_IMP is charged (R251), the reactive transfer is due at t + 2,048. -/
def State.transferMp (s : State) (m u t ns : Nat) : State :=
  let a := s.mpAcc m
  if t ≤ a.tp then s
  else
    let ds := mpElems s.cfg.active m
    let total := ds.foldl (fun x d => x + s.activeContent m u d) 0
    let n := t - a.tp
    let rate := (s.bmp m).rate
    let s := ds.foldl (fun s d => s.elemTransfer m u n d) s
    let s :=
      if 0 < total then
        let s := (s.addReg m 0 total.natAbs rate n).setDir m false t ns
        (s.modBmp m (BillMp.addDemand total.natAbs false)).charge m total.natAbs rate t
      else if total < 0 then
        let s := (s.addReg m 1 total.natAbs rate n).setDir m true t ns
        s.modBmp m (BillMp.addDemand total.natAbs true)
      else s
    let went := if 0 < total then some false else if total < 0 then some true else none
    let s := s.modMpAcc m fun a => { a with tp := t, due := a.due ++ [⟨t + 2048, went, rate⟩] }
    s.modBmp m fun b => { b with rate := if b.rateAt ≤ t then b.rateNext else b.rate, lastRate := if total = 0 then b.lastRate else rate }

/-- The reactive integrator empties for a transfer point (R124).  Where the active transfer at t was zero, the direction is the one held here, at t + 2,048
(log 63). -/
def State.reactiveTransfer (s : State) (m : Nat) (q : QDue) : State :=
  let es := (List.range 3).map (4 * m + ·)
  let u := 2 * (q.due + 1)
  let x := es.foldl (fun x i => x + ((s.etotAt i u).q - (s.elem i).qBase)) 0
  let n := q.due - (s.mpAcc m).qAt
  let exp := q.went.getD (s.mpAcc m).dir
  let r := if 0 < x then (if exp then 3 else 2) else (if exp then 4 else 5)
  let s := es.foldl (fun s i => s.modElem i fun y => { y with qBase := (s.etotAt i u).q }) s
  (s.addReg m r x.natAbs q.rate n).modMpAcc m fun a => { a with qAt := q.due }

/-- REACTIVE_TRANSFER (R124): the oldest transfer due of a metering point. -/
def execReactiveTransfer (m : Fin 16) (s : State) : Host.Outcome State Fault Refusal :=
  if !s.meters then .next s else
  match (s.mpAcc m).due with
  | q :: t =>
    if q.due ≤ s.time.index then .next ((s.modMpAcc m fun a => { a with due := t }).reactiveTransfer m q) else .next s
  | [] => .next s

/-- Fundamental reactive energy of a window (R72, R125): summed over the elements out of creep as the window is published; the state then held gates the whole
window (log 64). -/
def State.fundTransfer (s : State) (m : Nat) (l : List (ElemDef × ElemPow)) (w : WinDone) : State :=
  if w.cut || ((mpCourse s.cfg.active m).elim false fun k => w.foot.contains k) || s.mpFooting m then s
  else
    let dur := w.stop.u - w.start.u
    let x := l.foldl (fun x e =>
      if (s.chm e.1.c).creep then x else x + roundDiv (e.2.q1 * (dur * 2 ^ 64 : Nat)) (1000 * 3600 * 128000)) 0
    let n := w.stop.index - (s.mpAcc m).fAt
    (s.addReg m (if 0 < x then 6 else 7) x.natAbs 0 n).modMpAcc m fun a => { a with fAt := w.stop.index }

/-- S × duration in 2^-64 mVAh, S in 2^-k µVA given as a numerator over 10^6 (R72). -/
def apparentEnergy (sNum durU : Nat) : Nat := (roundDiv (sNum * durU * 2 ^ 64 : Nat) (1000 * 3600 * 128000 * 1000000)).toNat

/-- APPARENT_TRANSFER of a half-cycle (R72, R125): signed increments of the elements, or one total, over the cycle that ends at the boundary; none before a
whole cycle has passed since the detector began.  The one total takes the P of every element while one of them registers (log 64). -/
def State.apparentTransfer (s : State) (m : Nat) (b : Bnd) (durU : Nat) : State :=
  let ks := s.cfg.active
  if s.mpFooting m then s
  else
    let ds := mpElems ks m
    let sg (p : Int) : Int := if 0 < p then 1 else if p < 0 then -1 else if (s.mpAcc m).dir then -1 else 1
    let cyc (d : ElemDef) : ETot :=
      let x := s.elem (4 * m + d.e)
      match x.atPrev with | some p => (s.etotAt (4 * m + d.e) b.u).sub p | none => {}
    let x : Int :=
      if ks.get (kMp m 0x0A) = 1 ∨ mpWiring ks m = 2 then
        if !s.registers m || (ds.any fun d => (s.elem (4 * m + d.e)).atPrev.isNone) then 0
        else
          let p := ds.foldl (fun a d => a + meanP ks d (cyc d)) 0
          let q := ds.foldl (fun a d => a + (cyc d).q) 0
          let n := ((s.vs (mpVset ks m)).prev).elim 0 fun a => b.index - a.index
          let qv := meanQ q n
          sg p * apparentEnergy (isqrtRound (p * p + qv * qv).toNat * 1000000) durU
      else ds.foldl (fun a d =>
        if (s.chm d.c).creep || !(s.chm d.v).halfOk || !(s.chm d.c).halfOk || (s.elem (4 * m + d.e)).atPrev.isNone then a
        else a + sg (meanP ks d (cyc d)) * apparentEnergy ((s.chm d.v).half * (s.chm d.c).half) durU) 0
    let n := b.index - (s.mpAcc m).sAt
    (s.addReg m (if 0 < x then 8 else 9) x.natAbs 0 n).modMpAcc m fun a => { a with sAt := b.index }

/-! ### ACC_READ and ACC_PRESET (R129 to R132) -/

/-- Total active integrator at the present boundary, s64 mWh, rounded toward zero. -/
def State.pendingMwh (s : State) (m : Nat) : Int :=
  truncDiv ((mpElems s.cfg.active m).foldl (fun x d => x + s.activeContent m (2 * s.time.index) d) 0) (2 ^ 64)

def regEntry (r : Reg) : Bytes := leBytes 8 r.int ++ leBytes 1 r.wrap ++ zeros 7

/-- Pulse STATUS of R139 for a bay. -/
def State.pulseStatus (s : State) (p bay : Nat) : Nat :=
  let x := s.gen p
  bitsNat [x.short, decide (2 ≤ x.backlog), Tbl.get false x.dropped bay, x.stopAt.isSome && !x.short]

def mpEntry (s : State) (bay m : Nat) (regs : Nat) : Bytes :=
  let a := s.mpAcc m
  leBytes 1 a.dir.toNat
    ++ leBytes 1 (bitsNat [s.mpFooting m, Tbl.get false a.invalid bay, Tbl.get false a.restored bay, a.mis, a.live])
    ++ zeros 2 ++ leBytes 4 a.reversals ++ leInt 8 (s.pendingMwh m)
    ++ (maskList 16 regs).flatMap fun r => regEntry (a.regOf r)

def pulseEntry (s : State) (bay p : Nat) : Bytes :=
  let x := s.gen p
  leBytes 4 x.count ++ leBytes 1 x.wrap ++ leBytes 1 (s.pulseStatus p bay) ++ leBytes 2 (min 0xFFFF x.backlog)

/-- ACC_READ (R129): what it selects is latched at the first boundary after it begins. -/
def accReadBody : Body := fixedBody 8 [(6, 2)] fun _ _ s => (s, .hold (.read none))

/-- ACC_READ. -/
def execAccRead (p : Packet) (s : State) : Host.Outcome State Fault Refusal := .next (command 0x0402 accReadBody p s)

/-- The pulse outputs a read selects, as they stand before the pulses of the latch boundary start (R129); their DROPPED clears for the reading bay. -/
def accReadPulses (p : Packet) (s : State) : State × Bytes :=
  let pls := maskList 16 (fld p.params 4 2)
  (pls.foldl (fun s q => s.modGen q fun x => { x with dropped := Tbl.set false x.dropped p.bay false }) s, pls.flatMap (pulseEntry s p.bay))

/-- The rest of the latch, at the present boundary once every transfer and preset of it is applied (R129, R130); its RC bits clear for the reading bay. -/
def accReadLatch (p : Packet) (pulses : Bytes) (s : State) : State × Res :=
  let mps := maskList 16 (fld p.params 0 2)
  let out := leBytes 8 s.time.index ++ leBytes 8 s.time.ns ++ p.params.take 6 ++ zeros 10
    ++ mps.flatMap (mpEntry s p.bay · (fld p.params 2 2)) ++ pulses
  (mps.foldl (fun s m => s.modMpAcc m fun a =>
    { a with invalid := Tbl.set false a.invalid p.bay false, restored := Tbl.set false a.restored p.bay false }) s,
   Res.okOr (s.anyDegraded (mps.filterMap (mpCourse s.cfg.active))) out)

/-- Reads that have come to their latch boundary take the pulse outputs, before the pulses of that boundary start. -/
def State.readsPulses (s : State) : State :=
  s.host.busy.foldl (fun (s : State) e => match e.2 with
    | some f => if f.kind = .read none then
        let r := accReadPulses f.entry.pkt s
        r.1.setBusy e.1 (some { f with kind := .read (some r.2) })
      else s
    | none => s) s

/-- Reads whose latch boundary is the present one take the rest and reply: at the end of the boundary, when the next one comes. -/
def State.readsLatch (s : State) : State :=
  s.host.busy.foldl (fun (s : State) e => match e.2 with
    | some ⟨q, .read (some b)⟩ => let r := accReadLatch q.pkt b s; r.1.finishHeld e.1 r.2
    | _ => s) s

/-- The target of a preset as one number, for one preset per boundary (R131). -/
def presetTarget (b : Bytes) : Nat := if fld b 1 1 < 16 then 16 * fld b 0 1 + fld b 1 1 else 0x1000 + fld b 1 1

def presetResult (s : State) (v w : Nat) : Bytes := leBytes 8 s.time.index ++ leBytes 8 v ++ leBytes 1 w ++ zeros 7

/-- The target of a preset has been preset at this boundary (R131). -/
def State.markPreset (s : State) (b : Bytes) : State := { s with acc.presets := presetTarget b :: s.acc.presets }

/-- A preset compared and applied (R131); an accepted one is journaled and counts as a legal event (R259). -/
def applyPreset (p : Packet) (s : State) : State × Done :=
  let b := p.params
  let m := fld b 0 1
  let tg := fld b 1 1
  let ev := fld b 8 8
  let ew := fld b 16 1
  let nw := fld b 17 1
  let nv := fld b 24 8
  if tg < 16 then
    let r := (s.mpAcc m).regOf tg
    if r.int = ev ∧ r.wrap = ew then
      let s1 := s.modMpAcc m fun a => { a with reg := Tbl.set {} a.reg tg { v := nv * 2 ^ 64 + r.v % 2 ^ 64, wrap := nw } }
      (((s1.journalAdd 0x08 0 0 0 [m, tg, r.int, r.wrap, nv, nw]).markPreset b).legalEvent, .reply (Res.ok (presetResult s r.int r.wrap)))
    else (s.markPreset b, .reply { status := stDenied, sub := subCas, result := presetResult s r.int r.wrap })
  else
    let q := tg - 0x80
    let x := s.gen q
    if x.count = ev ∧ x.wrap = ew then
      let s1 := s.modGen q fun x => { x with count := nv, wrap := nw }
      (((s1.journalAdd 0x08 0 0 0 [m, tg, x.count, x.wrap, nv, nw]).markPreset b).legalEvent, .reply (Res.ok (presetResult s x.count x.wrap)))
    else (s.markPreset b, .reply { status := stDenied, sub := subCas, result := presetResult s x.count x.wrap })

/-- ACC_PRESET (R131): checks; it acts at the first boundary after it begins. -/
def accPresetBody : Body := fixedBody 32 [(2, 6), (18, 6)] fun _ p s =>
  let b := p.params
  let m := fld b 0 1
  let tg := fld b 1 1
  if tg < 16 ∧ !(m < 16 && mpEnabled s.cfg.active m) then (s, .reply (Res.field 32))
  else if !(tg < 16 || (0x80 ≤ tg && tg < 0x90)) then (s, .reply (Res.field 33))
  else if 0x80 ≤ tg ∧ fld b 12 4 ≠ 0 then (s, .reply (Res.field 40))
  else if 0x80 ≤ tg ∧ fld b 28 4 ≠ 0 then (s, .reply (Res.field 56))
  else (s, .hold .preset)

/-- ACC_PRESET. -/
def execAccPreset (p : Packet) (s : State) : Host.Outcome State Fault Refusal := .next (command 0x0401 accPresetBody p s)

/-- At a sample boundary the presets held for it act, one per target, and reply; the transfers of the boundary follow (R131, R132). -/
def State.presetsAtBoundary (s : State) : State :=
  let s := { s with acc.presets := [] }
  s.host.busy.foldl (fun s e => match e.2 with
    | some f =>
      if f.kind = .preset && !s.acc.presets.contains (presetTarget f.entry.pkt.params) then
        match applyPreset f.entry.pkt s with
        | (s, .reply r) => s.finishHeld e.1 r
        | (s, _) => s
      else s
    | none => s) s

/-! ### Checkpoint (R133) -/

/-- What a checkpoint keeps of accumulation. -/
def State.accKeep (s : State) : AccKept :=
  let integ := (enabledMps s.cfg.active).foldl (fun t m => (mpElems s.cfg.active m).foldl (fun t d =>
    let x := s.elem (4 * m + d.e)
    Tbl.set (0, 0) t (4 * m + d.e) (s.activeContent m (2 * s.time.index + 2) d, x.tot.q - x.qBase)) t) []
  { mp := s.acc.mp, integ := integ, pulse := s.acc.pulse, di := s.acc.di }

/-- Write the durable copies: accumulators, billing, availability, the error of time (R133, R174, R225); the copies before them are the older checkpoint
(R443).  In a partition that takes no writes they are lost (R446). -/
def State.checkpoint (s : State) : State :=
  if !s.writable 2 then s else
  { s with bill.older := (s.acc.kept, s.bill.kept, s.tiles.avKept, s.bill.credits), acc.kept := s.accKeep, bill.kept := s.bill.mp, tiles.avKept := s.tiles.av, bill.credits := [],
           acc.keptBySave := false }

/-- ACC_CHECKPOINT (R133, R174): each 1 s of system time. -/
def execAccCheckpoint (s : State) : Host.Outcome State Fault Refusal := .next s.checkpoint

/-- Bring the kept values back at a start (R133): integrators keep their content, a pulse in progress is cut and stays counted, a kept latch is asserted.  What
the state save wrote counts for this start alone. -/
def State.accRestore (s : State) (fromCheckpoint : Bool) : State :=
  let k := s.acc.kept
  let mp := Tbl.mapV {} (fun a : MpAcc => { a with
    tp := 0, due := [], aAt := 0, qAt := 0, sAt := 0, fAt := 0, misSince := none, liveSince := none, calm := none,
    restored := if fromCheckpoint then (List.range 8).foldl (fun t b => Tbl.set false t b true) a.restored else a.restored }) k.mp
  let pulse := Tbl.mapV {} (fun x : PulseGen => { x with stopAt := none, short := false, offAt := 0 }) k.pulse
  let s := { s with acc.mp := mp, acc.pulse := pulse,
                      acc.di := Tbl.mapV {} (fun x : Di => { latched := x.latched }) k.di, acc.presets := [], acc.keptBySave := false }
  let s := k.integ.foldl (fun (s : State) e => s.modElem e.1 fun x => { x with base := x.tot.inc, carry := e.2.1, qBase := x.tot.q - e.2.2 }) s
  k.di.foldl (fun (s : State) e => if e.2.latched && s.key (kDi e.1 0) = 1 then s.level (640 + 4 * e.1 + 1) true else s) s

/-! ### Dual-channel inputs (R140 to R146) -/

def State.di (s : State) (d : Nat) : Di := Tbl.get {} s.acc.di d
def State.modDi (s : State) (d : Nat) (g : Di → Di) : State := { s with acc.di := Tbl.upd {} s.acc.di d g }
def diEnabled (ks : KeySet) (d : Nat) : Bool := ks.get (kDi d 0) == 1

/-- R141: the class of a loop resistance; a hold zone keeps the previous one. -/
def classify (supervised : Bool) (prev : LoopClass) (ohm : Nat) : LoopClass :=
  if supervised then
    if ohm < 200 then .short
    else if ohm < 400 then prev
    else if ohm ≤ 2500 then .closed
    else if ohm < 5000 then prev
    else if ohm ≤ 30000 then .open_
    else if ohm ≤ 50000 then prev
    else .wire
  else if ohm < 2500 then .closed
  else if ohm < 5000 then prev
  else .open_

/-- A channel in loop fault. -/
def LoopClass.faulty : LoopClass → Bool
  | .short | .wire => true
  | _ => false

/-- R143: do the debounced values agree? -/
def Di.agrees (anti : Bool) (x : Di) : Bool :=
  !x.a.faulty && !x.b.faulty && ((x.a != x.b) == anti)

/-- T_DISC in 250 µs steps. -/
def tDisc (ks : KeySet) (d : Nat) : Nat := 4 * ks.get (kDi d 2)

/-- Is STATE forced to SAFE_STATE? -/
def Di.forced (x : Di) : Bool := x.latched || x.a.faulty || x.b.faulty

/-- STATE of an input: accepted or forced. -/
def State.diState (s : State) (d : Nat) : Bool :=
  let x := s.di d
  if x.forced then s.keyOn (kDi d 4) else x.state

/-- Latch a discrepancy fault (R143). -/
def State.diLatch (s : State) (d : Nat) : State :=
  (s.modDi d fun x => { x with latched := true, timer := none, clearReady := false }).level (640 + 4 * d + 1) true

/-- The channels agree: channel A's value is the accepted state; a change of it pulses (R143). -/
def State.diAccept (s : State) (d : Nat) : State :=
  let v := (s.di d).a == .closed
  let s1 := s.modDi d fun x => { x with timer := none, state := v }
  if v != (s.di d).state then s1.pulse (640 + 4 * d) else s1

/-- After a debounced value changed or a step passed (R143): agreement before T_DISC is accepted, agreement at or after it latches; with no timer
running, agreement is accepted unless a fault is latched. -/
def State.diSettle (s : State) (d : Nat) : State :=
  let x := s.di d
  let ag := x.agrees (s.keyOn (kDi d 1))
  match x.timer with
  | some t => if tDisc s.cfg.active d ≤ t then s.diLatch d else if ag then s.diAccept d else s
  | none => if ag && !x.latched then s.diAccept d else s

/-- The loop-fault sources of an input (R142). -/
def State.diFaults (s : State) (d : Nat) : State :=
  let x := s.di d
  (s.level (640 + 4 * d + 3) (x.a == .short || x.b == .short)).level (640 + 4 * d + 2) (x.a == .wire || x.b == .wire)

/-- DI_CLASSIFY (R141, R143): one 250 µs step of both loops. -/
def execDiClassify (d : Fin 8) (ohmA ohmB : Nat) (s : State) : Host.Outcome State Fault Refusal :=
  if !s.meters then .next s else
  let ks := s.cfg.active
  if !diEnabled ks d then .next s
  else
    let sup := ks.get (kDi d 5) == 1
    let s := s.modDi d fun x =>
      let a := classify sup x.clsA ohmA
      let b := classify sup x.clsB ohmB
      let ag := x.agrees (ks.get (kDi d 1) == 1)
      { x with clsA := a, clsB := b, runA := if a = x.clsA then x.runA + 1 else 1, runB := if b = x.clsB then x.runB + 1 else 1,
               timer := x.timer.map (· + 1), agree := if ag then x.agree + 1 else 0, clearReady := x.clearReady && ag }
    .next (s.diSettle d)

/-- DI_DEBOUNCE (R142): DEBOUNCE ms of equal classes make the class the debounced value. -/
def execDiDebounce (d : Fin 8) (chanB : Bool) (s : State) : Host.Outcome State Fault Refusal :=
  if !s.meters then .next s else
  let ks := s.cfg.active
  let x := s.di d
  let run := if chanB then x.runB else x.runA
  let cls := if chanB then x.clsB else x.clsA
  let now := if chanB then x.b else x.a
  if diEnabled ks d && 4 * ks.get (kDi d 3) ≤ run && 1 ≤ run && cls != now then
    let was := x.agrees (ks.get (kDi d 1) == 1)
    let s := s.modDi d fun x => if chanB then { x with b := cls } else { x with a := cls }
    let ag := (s.di d).agrees (ks.get (kDi d 1) == 1)
    let s := s.modDi d fun x =>
      { x with timer := if was && !ag && !x.latched then some 0 else x.timer, agree := if ag then x.agree else 0, clearReady := x.clearReady && ag }
    .next ((s.diFaults d).diSettle d)
  else .next s

/-- DI_DISCREPANCY_LATCH (R143): t reached T_DISC without agreement. -/
def execDiDiscrepancyLatch (d : Fin 8) (s : State) : Host.Outcome State Fault Refusal :=
  if !s.meters then .next s else
  match (s.di d).timer with
  | some t => if tDisc s.cfg.active d ≤ t then .next (s.diLatch d) else .next s
  | none => .next s

/-- DI_CLEAR_READY (R144): a latched fault whose channels have agreed for T_DISC. -/
def execDiClearReady (d : Fin 8) (s : State) : Host.Outcome State Fault Refusal :=
  if !s.meters then .next s else
  let x := s.di d
  if x.latched && x.agrees (s.keyOn (kDi d 1)) && tDisc s.cfg.active d ≤ x.agree then
    .next (s.modDi d fun x => { x with clearReady := true })
  else .next s

/-- DI_CLEAR (R144). -/
def diClearBody : Body := fixedBody 8 [(1, 7)] fun _ p s =>
  let d := fld p.params 0 1
  if !(d < 8 && diEnabled s.cfg.active d) then (s, .reply (Res.field 32))
  else
    let x := s.di d
    if !x.clearReady then (s, .reply (Res.err stDenied subNotAgreed))
    else
      let was := s.diState d
      let v := x.a == .closed
      let s := (s.modDi d fun x => { x with latched := false, clearReady := false, state := v }).level (640 + 4 * d + 1) false
      (if s.diState d != was then s.pulse (640 + 4 * d) else s, .reply (Res.ok))

/-- DI_CLEAR. -/
def execDiClear (p : Packet) (s : State) : Host.Outcome State Fault Refusal := .next (command 0x0410 diClearBody p s)

/-- The word of R146. -/
def State.diWord (s : State) (d : Nat) : Nat :=
  let x := s.di d
  bitsNat [s.diState d, x.a == .closed, x.b == .closed, x.timer.isSome, x.latched, x.forced, x.a == .wire, x.b == .wire,
    x.a == .short, x.b == .short, x.clearReady] + 2 ^ 16 * min 0xFFFF (x.timer.getD 0)

/-- DI_READ (R146). -/
def diReadBody : Body := fixedBody 0 [] fun _ _ s =>
  (s, .reply (Res.ok ((List.range 8).flatMap fun d => leBytes 4 (if diEnabled s.cfg.active d then s.diWord d else 0))))

/-- DI_READ. -/
def execDiRead (p : Packet) (s : State) : Host.Outcome State Fault Refusal := .next (command 0x0411 diReadBody p s)

/-! ### Disconnect feedback (R147, R148) -/

/-- Does the input state differ from the commanded contactor position? -/
def State.discMismatch (s : State) (m : Nat) : Bool :=
  let d := s.key (kMp m 0x0B)
  d < 8 && (s.diState d != (((s.bmp m).supply == .closed) == s.keyOn (kMp m 0x0C)))

/-- Disconnection is commanded and the metering point registers. -/
def State.discLive (s : State) (m : Nat) : Bool := (s.bmp m).supply != .closed && s.registers m

/-- Follow both conditions at a sample boundary (R148): since when each has held, and since when neither has. -/
def State.discTrack (s : State) (m : Nat) : State :=
  let a := s.discMismatch m
  let b := s.discLive m
  let keep (c : Bool) (o : Option Nat) : Option Nat := if c then some (o.getD s.time.mono) else none
  s.modMpAcc m fun x => { x with misSince := keep a x.misSince, liveSince := keep b x.liveSince, calm := keep (!a && !b) x.calm }

/-- DISC_FEEDBACK_CONFIRM (R148): a condition, or the absence of both, has held for DISC_TIME. -/
def execDiscFeedbackConfirm (m : Fin 16) (s : State) : Host.Outcome State Fault Refusal :=
  if !s.meters then .next s else
  let x := s.mpAcc m
  let t := s.key (kMp m 0x0D) * 1000000
  let due (o : Option Nat) : Bool := match o with | some a => decide (a + t ≤ s.time.mono) | none => false
  if !mpEnabled s.cfg.active m then .next s
  else
    let calm := due x.calm
    let mis := (x.mis || due x.misSince) && !calm
    let live := (x.live || due x.liveSince) && !calm
    .next ((s.modMpAcc m fun a => { a with mis := mis, live := live }).level (384 + 8 * m.val + 6) (mis || live))

end Sys2Proof.Machine
end

