-- ==== Sys2Proof/Machine/Billing.lean ====
section
/-! DEFINITION. Billing (09): profile intervals and demand, billing periods, tariffs, prepayment commands, the object
model and the seal display. -/

namespace Sys2Proof.Machine

/-! ### Profile intervals (R241 to R244) -/

/-- The number of the grid interval of `min` minutes that holds the present boundary: on UTC, or on the sample index while
time is invalid (R244). -/
def State.gridOf (s : State) (min : Nat) : Nat :=
  if s.time.valid then s.utcNs / (min * 60 * second) else s.time.index / (min * 60 * 64000)

def State.profGridNow (s : State) : Nat := s.gridOf (s.key (kBill 1))
/-- Minutes of a demand subperiod. -/
def subMin (ks : KeySet) : Nat := max 1 (ks.get (kBill 2) / max 1 (ks.get (kBill 3)))
def State.subGridNow (s : State) : Nat := s.gridOf (subMin s.cfg.active)

/-- STATUS bits that the present state of time gives an interval. -/
def State.timeBits (s : State) : Nat := bitsNat [!s.time.valid, s.time.holdover]

/-- The metering points that are billed: none in RELAY (R13). -/
def State.billMps (s : State) : List Nat := if s.meters then enabledMps s.cfg.active else []

/-- Put STATUS bits on the interval in progress of every metering point. -/
def State.markIntervals (s : State) (bits : Nat) : State :=
  (enabledMps s.cfg.active).foldl (fun s m => s.modBmp m fun b => { b with profStatus := b.profStatus ||| bits }) s

/-- The integer parts of registers 0 to 15. -/
def State.regInts (s : State) (m : Nat) : List Nat := (List.range 16).map fun r => ((s.mpAcc m).regOf r).int

/-- Start an interval of a metering point with STATUS bits. -/
def State.openInterval (s : State) (m bits : Nat) : State :=
  let ints := s.regInts m
  s.modBmp m fun b => { b with profFrom := s.time.index, profBase := ints, profStatus := bits ||| s.timeBits }

/-- The sample index at which the present grid interval of `min` minutes began: the first boundary at or after its instant (R241, R244). -/
def State.gridStart (s : State) (min : Nat) : Nat :=
  if s.time.valid then s.time.index - s.utcNs % (min * 60 * second) / 15625
  else s.time.index - s.time.index % (min * 60 * 64000)

/-- An interval of a metering point ends at sample index `x`: its STATUS is known, its transfers and its record follow once every boundary up to it is.  One
that began there does not end, and takes the bits; before the first one begins (R244) there is none to end. -/
def State.pushEnd (s : State) (x endBits startBits : Nat) (prof sub : Bool) (m : Nat) : State :=
  s.modBmp m fun b =>
    let on := !b.profBase.isEmpty
    let p := prof && on && decide (b.profFrom < x)
    let e : ProfEnd := { index := x, ns := s.time.ns - (s.time.index - x) * 15625, valid := s.time.valid,
                         status := b.profStatus ||| endBits ||| s.timeBits, prof := p, sub := sub && on && decide (b.subFrom < x) }
    { b with ends := if e.prof || e.sub then b.ends ++ [e] else b.ends,
             profStatus := if p then startBits ||| s.timeBits else if prof then b.profStatus ||| startBits else b.profStatus }

/-- Write the record of an interval that has ended and go on from its end: transfers first, then the record, EV(384 + 8m + 7). -/
def State.closeInterval (s : State) (m : Nat) (e : ProfEnd) : State :=
  let s := s.transferMp m (2 * e.index) e.index e.ns
  let b := s.bmp m
  let dur := e.index - b.profFrom
  let short := dur != s.key (kBill 1) * 60 * 64000
  let regs := leBytes 8 (s.key (kBill 6))
  let vals := regs.map fun r => (((s.mpAcc m).regOf r.toNat).int + 2 ^ 64 - b.profBase.getD r.toNat 0) % 2 ^ 64
  let rec_ : ProfRec :=
    { endTime := if e.valid then e.ns else 0, endIndex := e.index, duration := satU 32 dur, status := e.status ||| (if short then 0x200 else 0),
      rate := b.lastRate, mp := m, seq := b.profSeq, values := vals }
  let ints := s.regInts m
  (s.modBmp m fun b => { b with ring := if s.writable 0 then (rec_ :: b.ring).take 3840 else b.ring, profSeq := (b.profSeq + 1) % 2 ^ 32, profFrom := e.index, profBase := ints }).pulse
    (384 + 8 * m + 7)

/-! ### Demand (R240) -/

/-- E / T of a span of subperiods in mW: E in 2^-64 mWh, T in sample periods. -/
def demandOf (e t : Nat) : Nat := if t = 0 then 0 else (roundDiv ((e * 3600 * 64000 : Nat) : Int) (t * 2 ^ 64)).toNat

/-- A value competes for the maximum demand of a rate (R240). -/
def BillMp.compete (dir r d time : Nat) (b : BillMp) : BillMp :=
  if (Tbl.get (0, 0) b.maxD (8 * dir + r)).1 < d then { b with maxD := Tbl.set (0, 0) b.maxD (8 * dir + r) (d, time) } else b

/-- A metering point's subperiod that has ended. -/
def State.closeSub (s : State) (m : Nat) (e : ProfEnd) : State :=
  let n := max 1 (s.key (kBill 3))
  let need := s.key (kBill 2) * 60 * 64000
  let time := if e.valid then e.ns else 0
  s.modBmp m fun b =>
    let h := ((b.subE.1, b.subE.2, e.index - b.subFrom) :: b.hist).take n
    let t := h.foldl (fun a x => a + x.2.2) 0
    let di := demandOf (h.foldl (fun a x => a + x.1) 0) t
    let de := demandOf (h.foldl (fun a x => a + x.2.1) 0) t
    let b := { b with hist := h, subE := (0, 0), subFrom := e.index, lastD := (di, de) }
    if need ≤ 2 * t then (b.compete 0 b.rate di time).compete 1 b.rate de time else b

/-! ### Carrying out the ends (R123, R241) -/

/-- A metering point's share of the billing period that closed, the `k`th newest (R250): its values are captured, its maximum demands start anew. -/
def State.capture (s : State) (k m : Nat) : State :=
  let b := s.bmp m
  let x : Stored := { mp := m, rate := b.rreg, reg := (s.mpAcc m).reg, maxD := b.maxD, lastD := b.lastD, credit := b.credit }
  { s with bill.stored := s.bill.stored.modify k (x :: ·) }.modBmp m fun b => { b with maxD := [] }

/-- The oldest end of a metering point is carried out: the record, then demand, then the capture of a billing period. -/
def State.settleEnd (s : State) (m : Nat) : State :=
  match (s.bmp m).ends with
  | [] => s
  | e :: t =>
    let s := s.modBmp m fun b => { b with ends := t }
    let s := if e.prof then s.closeInterval m e else s
    let s := if e.sub then s.closeSub m e else s
    if e.reset then s.capture (t.filter (·.reset)).length m else s

/-- The ends of a metering point up to the first that `ok` refuses. -/
def State.settle (s : State) (ok : State → Nat → Bool) (m : Nat) : State :=
  (List.range (s.bmp m).ends.length).foldl (fun (s : State) _ => match (s.bmp m).ends with
    | e :: _ => if ok s e.index then s.settleEnd m else s
    | [] => s) s

/-- Is every boundary of a metering point up to sample index `x` known: crossings until then decided, and no synthetic one open (R64, R66)? -/
def State.bndsKnown (s : State) (m x : Nat) : Bool :=
  let ks := s.cfg.active
  let v := mpVset ks m
  decide (2 * x + dzcU (vsWide ks v) ≤ 2 * s.time.index) && ((s.vs v).zc.found.all fun f => decide (x * 2 ^ 17 < f.x.at_))
    && (s.synthNext v).elim true fun n => decide (x * 2 ^ 17 < n.1)

/-- The ends whose boundaries are known. -/
def State.settleKnown (s : State) : State :=
  (enabledMps s.cfg.active).foldl (fun (s : State) m => s.settle (fun s x => s.bndsKnown m x) m) s

/-- Every end that waits: nothing further can come before it. -/
def State.settleAll (s : State) : State := s.billMps.foldl (fun (s : State) m => s.settle (fun _ _ => true) m) s

/-- An end of the interval, the subperiod or both of every enabled metering point at sample index `x`. -/
def State.pushEnds (s : State) (x endBits startBits : Nat) (prof sub : Bool) : State :=
  s.billMps.foldl (fun (s : State) m => s.pushEnd x endBits startBits prof sub m) s

/-- A profile interval end is the swap sample of an INTERVAL swap (R409). -/
def State.swapInterval (s : State) (x : Nat) : State :=
  { s with cfg.pend := s.cfg.pend.map fun w =>
    if w.boundary = 2 ∧ w.sample.isNone ∧ w.from_ < x then { w with sample := some x } else w }

/-- The grid has gone on to another profile interval: the one in progress ends (R241). -/
def State.profGridEnd (s : State) : State :=
  if s.profGridNow = s.bill.profGrid then s
  else
    let x := s.gridStart (s.key (kBill 1))
    { (s.pushEnds x 0 0 true false).swapInterval x with bill.profGrid := s.profGridNow }

/-- The same of demand subperiods (R240). -/
def State.subGridEnd (s : State) : State :=
  if s.subGridNow = s.bill.subGrid then s
  else { s.pushEnds (s.gridStart (subMin s.cfg.active)) 0 0 false true with bill.subGrid := s.subGridNow }

/-- PROFILE_INTERVAL_END (R241): an end of the grid, and the ends whose boundaries are known. -/
def execProfileIntervalEnd (s : State) : Host.Outcome State Fault Refusal := .next s.profGridEnd.settleKnown

/-- DEMAND_SUBPERIOD_END (R240); a profile interval that ends with the subperiod ends first, its transfer in the subperiod. -/
def execDemandSubperiodEnd (s : State) : Host.Outcome State Fault Refusal :=
  if s.profGridNow = s.bill.profGrid then .next s.subGridEnd.settleKnown else .next s

/-! ### Rates and calendars (R239, R249) -/

/-- The calendar's rate from the present boundary on; a metering point takes it at its first transfer point from here (R239). -/
def State.rateChange (s : State) : State :=
  let r := s.calendarRate
  (enabledMps s.cfg.active).foldl (fun (s : State) m => s.modBmp m fun b =>
    if b.rateNext = r then b else { b with rateNext := r, rateAt := s.time.index }) s

/-- TARIFF_RATE_SWITCH (R239): the calendar's rate has changed; each metering point takes it at its next transfer point. -/
def execTariffRateSwitch (s : State) : Host.Outcome State Fault Refusal := .next (if s.meters then s.rateChange else s)

/-- The active and the passive calendar exchange as one act; intervals in progress carry CAL_ACT. -/
def State.activateTariff (s : State) : State :=
  ({ s with bill.active := s.bill.passive, bill.passive := s.bill.active, bill.before := some (s.time.index, s.bill.active),
            bill.actAt := none } : State).rateChange.markIntervals 0x800

/-- TARIFF_ACTIVATE_DUE (R249): the first boundary at or after ACT_TIME. -/
def execTariffActivateDue (s : State) : Host.Outcome State Fault Refusal :=
  if !s.meters then .next s else
  match s.bill.actAt with
  | some t => if s.time.valid && t ≤ s.time.ns then .next s.activateTariff else .next s
  | none => .next s

/-- TARIFF_STAGE (R248). -/
def tariffStageBody : Body := fun _ p s =>
  if p.isBulk then (s, .reply (Res.field 1))
  else if p.params.length ≠ 2704 then (s, .reply (Res.err stBadParam subLength 12))
  else if !calReservedOk p.params then (s, .reply (Res.reserved 32))
  else if s.bill.actAt.isSome then (s, .reply (Res.err stBusy 0))
  else if !calendarOk p.params then (s, .reply (Res.field 32))
  else ({ s with bill.passive := p.params }, .reply (Res.ok))

def execTariffStage (p : Packet) (s : State) : Host.Outcome State Fault Refusal := .next (command 0x0710 tariffStageBody p s)

/-- TARIFF_ACTIVATE (R249, R245). -/
def tariffActivateBody : Body := fixedBody 16 [(8, 8)] fun _ p s =>
  let t := fld p.params 0 8
  if t = 0 then (s, .hold .billNow)
  else if !s.time.valid then (s, .reply (Res.err stNotReady 0))
  else ({ s with bill.actAt := some t }, .reply (Res.accepted))

def execTariffActivate (p : Packet) (s : State) : Host.Outcome State Fault Refusal := .next (command 0x0711 tariffActivateBody p s)

/-! ### Billing periods (R250) -/

/-- Close the billing period at the present boundary: each enabled metering point captures its values once every transfer up to the boundary has been made, after
the ends of an interval and of a subperiod there (R262); the others at once. -/
def State.billReset (s : State) : State :=
  let s := s.profGridEnd.subGridEnd
  let s := { s with bill.stored := ([] :: s.bill.stored).take 16, bill.resetAt := none }
  let s := (List.range 16).foldl (fun (s : State) m =>
    if s.billMps.contains m then
      s.modBmp m fun b => { b with ends := b.ends ++ [{ index := s.time.index, ns := s.time.ns, valid := s.time.valid, status := 0,
                                                         prof := false, sub := false, reset := true }] }
    else s.capture 0 m) s
  s.markIntervals 0x1000

/-- BILL_RESET_DUE (R250). -/
def execBillResetDue (s : State) : Host.Outcome State Fault Refusal :=
  if !s.meters then .next s else
  match s.bill.resetAt with
  | some t => if s.time.valid && t ≤ s.time.ns then .next s.billReset else .next s
  | none => .next s

/-- BILL_RESET (R250, R245). -/
def billResetBody : Body := fixedBody 16 [(8, 8)] fun _ p s =>
  let t := fld p.params 0 8
  if t = 0 then (s, .hold .billNow)
  else if !s.time.valid then (s, .reply (Res.err stNotReady 0))
  else ({ s with bill.resetAt := some t }, .reply (Res.accepted))

def execBillReset (p : Packet) (s : State) : Host.Outcome State Fault Refusal := .next (command 0x0720 billResetBody p s)

/-- At a sample boundary the commands that waited for it act and reply (R249, R250). -/
def State.billsNow (s : State) : State :=
  s.host.busy.foldl (fun (s : State) e => match e.2 with
    | some f =>
      if f.kind = .billNow then (if f.entry.code = 0x0711 then s.activateTariff else s.billReset).finishHeld e.1 Res.ok else s
    | none => s) s

/-! ### What a step of time does to billing (R243, R249, R262) -/

/-- Before the step: the interval and the subperiod in progress end at the step boundary. -/
def State.billBeforeStep (s : State) (large : Bool) : State :=
  let bits := 4 ||| (if large then 8 else 0)
  s.pushEnds s.time.index bits bits true true

/-- After the step: the grids continue on the new time, a large step counts, and a pending activation it passed acts. -/
def State.billAfterStep (s : State) (large : Bool) : State :=
  let s := ({ s with bill.profGrid := s.profGridNow, bill.subGrid := s.subGridNow } : State).rateChange
  let s := if large then s.legalEvent else s
  match s.bill.actAt with
  | some t => if s.time.valid && t ≤ s.time.ns then s.activateTariff else s
  | none => s

/-- Billing at a start: each metering point's rate is the calendar's, and the prepayment states with their demands are decided anew (R244, R262). -/
def State.billStart (s : State) : State :=
  let r := s.calendarRate
  s.billMps.foldl (fun (s : State) m =>
    let s := s.modBmp m fun b => { b with rate := r, rateNext := r }
    if s.keyOn (kBillMp m 0) then s.decidePrepay m else s) s

/-! ### Standing charge and deferral (R251, R253) -/

/-- The local day number (R247). -/
def State.localDay (s : State) : Nat := localTime s.bill.active s.lst / 86400

/-- STANDING_CHARGE (R251): local 00:00 while VALID = 1. -/
def execStandingCharge (s : State) : Host.Outcome State Fault Refusal :=
  if !s.meters then .next s else
  if !s.time.valid || s.localDay ≤ s.bill.day then .next s
  else
    let s := { s with bill.day := s.localDay }
    .next ((enabledMps s.cfg.active).foldl (fun s m =>
      if s.keyOn (kBillMp m 0) then
        (s.modBmp m fun b => { b with credit := b.credit - s.key (kBillMp m 4) }).decidePrepay m
      else s) s)

/-- FRIENDLY_DEFERRAL_END (R253): at the window's end the demand applies if it still holds. -/
def execFriendlyDeferralEnd (m : Fin 16) (s : State) : Host.Outcome State Fault Refusal :=
  if !s.meters then .next s else
  if (s.bmp m).deferred && !s.friendly then
    .next ((s.modBmp m fun b => { b with deferred := false, demandOpen := b.prepay.demandsOpen }).decideSupply m)
  else .next s

/-! ### CREDIT_ADD and SUPPLY_CONTROL (R255) -/

def supplyResult (s : State) (m : Nat) : Bytes :=
  let b := s.bmp m
  leBytes 1 b.supply.code ++ leBytes 1 b.prepay.code ++ zeros 6 ++ leInt 8 b.credit

/-- A credit enters: its transaction number, the credit, the prepayment state; above 0 it ends emergency credit. -/
def State.addCredit (s : State) (m txn : Nat) (amount : Int) : State :=
  (s.modBmp m fun b => { b with credit := b.credit + amount, txn := (txn :: b.txn).take 64 }).decidePrepay m

/-- CREDIT_ADD (R255): an accepted one is journaled with the resulting credit before the reply. -/
def creditAddBody : Body := fixedBody 16 [(1, 3)] fun _ p s =>
  let m := fld p.params 0 1
  let txn := fld p.params 4 4
  let amt := sfld p.params 8 8
  if !(m < 16 && s.keyOn (kBillMp m 0)) then (s, .reply (Res.field 32))
  else if amt < 1 ∨ 10 ^ 12 < amt then (s, .reply (Res.field 40))
  else if (s.bmp m).txn.contains txn then (s, .reply (Res.err stDenied subDuplicate))
  else
    let s := s.addCredit m txn amt
    let s := s.journalAdd 0x0B 0 0 0 [m, txn, amt.toNat, unsignedOf 64 (s.bmp m).credit]
    ({ s with bill.credits := s.bill.credits ++ [(m, txn, amt.toNat)] }, .reply (Res.ok (supplyResult s m)))

def execCreditAdd (p : Packet) (s : State) : Host.Outcome State Fault Refusal := .next (command 0x0730 creditAddBody p s)

/-- SUPPLY_CONTROL (R255): actions 0 and 1 in B0 at Utility only. -/
def supplyControlBody : Body := fixedBody 8 [(2, 6)] fun c p s =>
  let m := fld p.params 0 1
  let a := fld p.params 1 1
  let b := s.bmp m
  if !(m < 16 && mpEnabled s.cfg.active m) then (s, .reply (Res.field 32))
  else if 3 < a then (s, .reply (Res.field 33))
  else if a ≤ 1 ∧ !b0Util c.bay c.role then (s, .reply (Res.err stDenied subRole))
  else if a = 0 then
    let s := (s.modBmp m fun b => { b with hostDisc := true }).decideSupply m
    (s, .reply (Res.ok (supplyResult s m)))
  else if a = 1 then
    let s := (s.modBmp m fun b => { b with hostDisc := false }).decideSupply m
    (s, .reply (Res.ok (supplyResult s m)))
  else if a = 2 then
    if b.supply ≠ .armed then (s, .reply (Res.err stDenied subNotArmed))
    else let s := s.setSupply m .closed; (s, .reply (Res.ok (supplyResult s m)))
  else if !s.keyOn (kBillMp m 0) then (s, .reply (Res.field 32))
  else if b.prepay ≠ .ecOffered then (s, .reply (Res.err stDenied subNotOffered))
  else
    let s := (s.modBmp m fun b => { b with ecTaken := true }).decidePrepay m
    (s, .reply (Res.ok (supplyResult s m)))

def execSupplyControl (p : Packet) (s : State) : Host.Outcome State Fault Refusal := .next (command 0x0740 supplyControlBody p s)

/-! ### PROFILE_READ (R241, R242) -/

def ProfRec.bytes (r : ProfRec) : Bytes :=
  leBytes 8 r.endTime ++ leBytes 8 r.endIndex ++ leBytes 4 r.duration ++ leBytes 2 r.status ++ leBytes 1 r.rate
    ++ leBytes 1 r.mp ++ leBytes 4 r.seq ++ zeros 4 ++ r.values.flatMap (leBytes 8)

/-- Records of a log (newest first) in SEQ order from the oldest at or after FROM_SEQ, `n` at most; SEQ counts modulo 2^32 up to
`next`, the SEQ of the record to come. -/
def fromSeq {α : Type} (seq : α → Nat) (next frm n : Nat) (l : List α) : List α :=
  let age (q : Nat) := (next + 2 ^ 32 - q) % 2 ^ 32
  let wrapped := match l.getLast? with | some o => decide (next ≤ seq o) | none => false
  (l.reverse.filter fun r => if wrapped then decide (age (seq r) ≤ age frm) else decide (frm ≤ seq r)).take n

/-- NEXT_SEQ, RETURNED and the records (R242, R411, R412). -/
def seqResult {α : Type} (seq : α → Nat) (bytes : α → Bytes) (next frm n : Nat) (l : List α) : Bytes :=
  let out := fromSeq seq next frm n l
  let nx := match out.getLast? with | some r => (seq r + 1) % 2 ^ 32 | none => next
  leBytes 4 nx ++ leBytes 2 out.length ++ zeros 2 ++ out.flatMap bytes

def profileReadBody : Body := fixedBody 16 [(1, 3), (10, 6)] fun _ p s =>
  let m := fld p.params 0 1
  let n := fld p.params 8 2
  if !(m < 16 && mpEnabled s.cfg.active m) then (s, .reply (Res.field 32))
  else if n = 0 ∨ 512 < n then (s, .reply (Res.field 40))
  else
    let b := s.bmp m
    (s, .reply (Res.okOr (s.anyDegraded ((mpCourse s.cfg.active m).toList))
      (seqResult (·.seq) ProfRec.bytes b.profSeq (fld p.params 4 4) n b.ring)))

def execProfileRead (p : Packet) (s : State) : Host.Outcome State Fault Refusal := .next (command 0x0702 profileReadBody p s)

/-! ### Object model (R256, R257) -/

/-- The billing objects.  `f` is 255 for the running value, 1 to 16 for a stored period. -/
inductive Obj where
  | clock
  | reg (m k f : Nat)
  | rate (m k r f : Nat)
  | maxDemand (m dir r f : Nat)
  | lastDemand (m dir f : Nat)
  | profile (m : Nat)
  | calendar
  | credit (m : Nat)
  | disconnect (m : Nat)
  | lcv
  | legalCounter
  deriving DecidableEq, Repr

/-- The values of C for registers 0 to 15. -/
def regC : List Nat := [1, 2, 5, 6, 7, 8, 128, 129, 9, 10, 21, 41, 61, 22, 42, 62]

/-- The object an OBIS code A, B, C, D, E, F names. -/
def objOf (a b c d e f : Nat) : Option Obj :=
  let fOk := f = 255 ∨ (1 ≤ f ∧ f ≤ 16)
  if a = 0 ∧ b = 0 ∧ f = 255 then
    match c, d, e with
    | 1, 0, 0 => some .clock
    | 13, 0, 0 => some .calendar
    | 128, 0, 0 => some .lcv
    | 128, 0, 1 => some .legalCounter
    | _, _, _ => none
  else if a = 1 ∧ 1 ≤ b ∧ b ≤ 16 then
    let m := b - 1
    if c = 99 ∧ d = 1 ∧ e = 0 ∧ f = 255 then some (.profile m)
    else if ¬fOk then none
    else if d = 8 then
      match regC.idxOf? c with
      | some k => if e = 0 then some (.reg m k f) else if e ≤ 8 ∧ k ≤ 5 then some (.rate m k (e - 1) f) else none
      | none => none
    else if (c = 1 ∨ c = 2) ∧ d = 6 ∧ 1 ≤ e ∧ e ≤ 8 then some (.maxDemand m (c - 1) (e - 1) f)
    else if (c = 1 ∨ c = 2) ∧ d = 4 ∧ e = 0 then some (.lastDemand m (c - 1) f)
    else none
  else if a = 0 ∧ 1 ≤ b ∧ b ≤ 16 ∧ f = 255 then
    if c = 19 ∧ d = 10 ∧ e = 0 then some (.credit (b - 1))
    else if c = 96 ∧ d = 3 ∧ e = 10 then some (.disconnect (b - 1))
    else none
  else none

/-- The object of six OBIS bytes. -/
def objOfBytes (b : Bytes) : Option Obj := objOf (fld b 0 1) (fld b 1 1) (fld b 2 1) (fld b 3 1) (fld b 4 1) (fld b 5 1)

/-- Read right of a role (R257). -/
def Obj.readable (o : Obj) (r : SessRole) : Bool :=
  match o with
  | .clock | .lcv | .legalCounter => true
  | .reg _ _ _ | .rate _ _ _ _ | .maxDemand _ _ _ _ | .lastDemand _ _ _ => r != .vendor
  | .profile _ | .calendar | .credit _ | .disconnect _ => r != .vendor && r != .anyone

/-- The stored period n of a metering point. -/
def State.storedOf (s : State) (n m : Nat) : Option Stored := (s.bill.stored[n - 1]?).bind fun l => l.find? (·.mp == m)

def Obj.regValue (s : State) (m k f : Nat) : Reg :=
  if f = 255 then (s.mpAcc m).regOf k else (s.storedOf f m).elim {} fun x => Tbl.get {} x.reg k
def Obj.rateValue (s : State) (m k r f : Nat) : Reg :=
  if f = 255 then (s.bmp m).rregOf k r else (s.storedOf f m).elim {} fun x => Tbl.get {} x.rate (8 * k + r)
def Obj.maxValue (s : State) (m dir r f : Nat) : Nat × Nat :=
  if f = 255 then Tbl.get (0, 0) (s.bmp m).maxD (8 * dir + r) else (s.storedOf f m).elim (0, 0) fun x => Tbl.get (0, 0) x.maxD (8 * dir + r)
def Obj.lastValue (s : State) (m dir f : Nat) : Nat :=
  let d := if f = 255 then (s.bmp m).lastD else (s.storedOf f m).elim (0, 0) (·.lastD)
  if dir = 0 then d.1 else d.2

/-- TYPE and value bytes of an attribute; `none` for an unknown one. -/
def Obj.value (s : State) (o : Obj) (attr : Nat) : Option (Nat × Bytes) :=
  match o, attr with
  | .clock, 2 => some (0, leBytes 8 (if s.time.valid then s.utcNs else 0))
  | .reg m k f, 2 => some (4, regEntry (Obj.regValue s m k f))
  | .rate m k r f, 2 => some (4, regEntry (Obj.rateValue s m k r f))
  | .maxDemand m d r f, 2 => some (0, leBytes 8 (Obj.maxValue s m d r f).1)
  | .maxDemand m d r f, 5 => some (0, leBytes 8 (Obj.maxValue s m d r f).2)
  | .lastDemand m d f, 2 => some (0, leBytes 8 (Obj.lastValue s m d f))
  | .calendar, 2 => some (2, s.bill.active)
  | .calendar, 3 => some (2, s.bill.passive)
  | .credit m, 2 => some (1, leInt 8 (s.bmp m).credit)
  | .credit m, 3 => some (0, leBytes 8 (s.bmp m).prepay.code)
  | .disconnect m, 2 => some (0, leBytes 8 (s.bmp m).supply.code)
  | .lcv, 2 => some (2, fitBytes 32 s.bill.lcv)
  | .legalCounter, 2 => some (3, leBytes 4 s.bill.legal)
  | _, _ => none

/-- The metering point a value of an object comes from. -/
def Obj.mp : Obj → Option Nat
  | .reg m _ _ | .rate m _ _ _ | .maxDemand m _ _ _ | .lastDemand m _ _ => some m
  | _ => none

def objGetBody : Body := fixedBody 8 [(7, 1)] fun c p s =>
  let a := fld p.params 6 1
  match objOfBytes p.params with
  | none => (s, .reply (Res.field 32))
  | some o =>
    if !o.readable c.role then (s, .reply (Res.err stDenied subRole))
    else match o.value s a with
    | none => (s, .reply (Res.field 38))
    | some (ty, v) =>
      (s, .reply (Res.okOr (s.anyDegraded ((o.mp.bind (mpCourse s.cfg.active)).toList))
        (p.params.take 6 ++ leBytes 1 a ++ leBytes 1 ty ++ leBytes 4 v.length ++ zeros 4 ++ v)))

def execObjGet (p : Packet) (s : State) : Host.Outcome State Fault Refusal := .next (command 0x0701 objGetBody p s)

/-! ### Text (R261) -/

def asciiOf (t : String) : Bytes := t.toList.map fun c => BitVec.ofNat 8 c.toNat

/-- Decimal digits, `fuel` at most. -/
def decDigits : Nat → Nat → Bytes
  | 0, _ => []
  | f + 1, n => (if n < 10 then [] else decDigits f (n / 10)) ++ [BitVec.ofNat 8 (48 + n % 10)]

def decText (n : Nat) : Bytes := decDigits 40 n
def decPad (w n : Nat) : Bytes := let t := decText n; List.replicate (w - t.length) 48 ++ t

def hexDigit (n : Nat) : Byte := BitVec.ofNat 8 (if n < 10 then 48 + n else 55 + n)
def hexText (bs : Bytes) : Bytes := bs.flatMap fun b => [hexDigit (b.toNat / 16), hexDigit (b.toNat % 16)]

/-- n / 10^e truncated to `d` places. -/
def fixedText (n e d : Nat) : Bytes :=
  decText (n / 10 ^ e) ++ (if d = 0 then [] else 46 :: decPad d (n / 10 ^ (e - d) % 10 ^ d))

/-- UTC as YYYY-MM-DD hh:mm:ss. -/
def timeText (utcNs : Nat) : Bytes :=
  let t := utcNs / second
  let d := dateOfDay (t / 86400)
  decPad 4 d.year ++ [45] ++ decPad 2 d.month ++ [45] ++ decPad 2 d.day ++ [32] ++ decPad 2 (t / 3600 % 24) ++ [58]
    ++ decPad 2 (t / 60 % 60) ++ [58] ++ decPad 2 (t % 60)

def unitText (k : Nat) : Bytes :=
  asciiOf (if 2 ≤ k ∧ k ≤ 7 then " kvarh" else if k = 8 ∨ k = 9 then " kVAh" else " kWh")

/-- The value text of an object and attribute; `none` where the table of R261 lists none. -/
def displayText (s : State) (o : Obj) (attr dec : Nat) : Option Bytes :=
  let noTime := asciiOf "TIME INVALID"
  match o, attr with
  | .reg m k f, 2 => some (fixedText (Obj.regValue s m k f).int 6 dec ++ unitText k)
  | .rate m k r f, 2 => some (fixedText (Obj.rateValue s m k r f).int 6 dec ++ unitText k)
  | .maxDemand m d r f, 2 => some (fixedText (Obj.maxValue s m d r f).1 6 dec ++ asciiOf " kW")
  | .lastDemand m d f, 2 => some (fixedText (Obj.lastValue s m d f) 6 dec ++ asciiOf " kW")
  | .maxDemand m d r f, 5 =>
    let t := (Obj.maxValue s m d r f).2
    some (if t = 0 ∨ !s.time.valid then noTime else timeText (s.utcOf t))
  | .clock, 2 => some (if s.time.valid then timeText s.utcNs else noTime)
  | .profile m, 2 =>
    some (fixedText (((s.bmp m).ring.head?).elim 0 fun r => r.values.getD 0 0) 6 dec ++ unitText (s.key (kBill 6) % 256))
  | .calendar, 2 => some (asciiOf "V" ++ decText (fld s.bill.active 0 4))
  | .calendar, 3 => some (asciiOf "V" ++ decText (fld s.bill.passive 0 4))
  | .credit m, 2 =>
    let c := (s.bmp m).credit
    some ((if c < 0 then asciiOf "-" else []) ++ fixedText c.natAbs 4 dec ++ asciiOf " CR")
  | .credit m, 3 => some (asciiOf (match (s.bmp m).prepay with
      | .normal => "NORMAL" | .low => "LOW" | .ecOffered => "EC OFFERED" | .ecInUse => "EC IN USE" | .exhausted => "EXHAUSTED"))
  | .disconnect m, 2 => some (asciiOf (match (s.bmp m).supply with | .closed => "CLOSED" | .open_ => "OPEN" | .armed => "ARMED"))
  | .lcv, 2 => some ((hexText s.bill.lcv).take 24)
  | .legalCounter, 2 => some (decText s.bill.legal)
  | _, _ => none

/-- 24 ASCII characters, right-aligned, space-filled; OVERFLOW when longer. -/
def text24 (t : Bytes) : Bytes :=
  let t := if 24 < t.length then asciiOf "OVERFLOW" else t
  List.replicate (24 - t.length) 32 ++ t

/-! ### The seal display (R260, R261) -/

/-- Entry i of SEAL.LIST: 8 bytes. -/
def sealEntry (ks : KeySet) (i : Nat) : Bytes := leBytes 8 (natBits (ks.get (kBill 8)) (64 * i) 64)

/-- The SEAL.LIST entries shown: those whose OBIS bytes are not all 0. -/
def sealShown (ks : KeySet) : List Nat := (List.range 32).filter fun i => !allZero (sealEntry ks i) 0 6

/-- Does an entry name an object and attribute that the display can show (R261)? -/
def sealEntryOk (s : State) (e : Bytes) : Bool :=
  allZero e 0 6 || (match objOfBytes e with
    | some o => (displayText s o (fld e 6 1) 0).isSome && fld e 7 1 ≤ 3
    | none => false)

/-- The label of an entry: the OBIS code as A-B:C.D.E, or LCV for entry 0. -/
def sealLabel (ks : KeySet) (i : Nat) : Bytes :=
  if i = 0 then asciiOf "LCV"
  else
    let e := sealEntry ks ((sealShown ks).getD (i - 1) 0)
    let n (j : Nat) := decText (fld e j 1)
    n 0 ++ asciiOf "-" ++ n 1 ++ asciiOf ":" ++ n 2 ++ asciiOf "." ++ n 3 ++ asciiOf "." ++ n 4

def sealValue (s : State) (i : Nat) : Bytes :=
  if i = 0 then (hexText s.bill.lcv).take 8 ++ asciiOf " " ++ decText s.bill.legal
  else
    let e := sealEntry s.cfg.active ((sealShown s.cfg.active).getD (i - 1) 0)
    ((objOfBytes e).bind fun o => displayText s o (fld e 6 1) (fld e 7 1)).getD []

/-- FLAGS of a frame. -/
def sealFlags (s : State) : Nat :=
  bitsNat [!s.time.valid, (List.range 6).any fun k => courseEnabled s.cfg.active k && s.onFooting k,
    (enabledMps s.cfg.active).any fun m => (s.bmp m).supply != .closed]

/-- The 32-byte frame of an entry and line (R260). -/
def sealFrame (s : State) (entry line : Nat) : Bytes :=
  let t := if line = 0 then sealLabel s.cfg.active entry else sealValue s entry
  let b := leBytes 1 line ++ leBytes 1 entry ++ leBytes 1 (sealFlags s) ++ zeros 1 ++ text24 t ++ zeros 2
  b ++ leBytes 2 (crc16 b).toNat

/-- SEAL_DISPLAY_DWELL (R261): DWELL seconds of the entry have passed; the next entry follows in order. -/
def execSealDisplayDwell (s : State) : Host.Outcome State Fault Refusal :=
  if s.bill.dSince + s.key (kBill 7) * second ≤ s.time.mono then
    let n := (sealShown s.cfg.active).length + 1
    .next { s with bill.dEntry := (s.bill.dEntry + 1) % n, bill.dLine := 0, bill.dSent := 0, bill.dSince := s.time.mono }
  else .next s

/-- SEAL_FRAME_SEND (R260, R261): SEAL_BUSY is low and the next frame of the entry goes out, label then value; an accepted
frame ends EV0991.  The seal core must be in service. -/
def execSealFrameSend (s : State) : Host.Outcome State Fault Refusal :=
  if s.fault.sealOk && s.bill.dSent < 2 then
    let f := sealFrame s s.bill.dEntry s.bill.dLine
    .next ({ s with bill.frames := f :: s.bill.frames, bill.dLine := 1, bill.dSent := s.bill.dSent + 1 }.level 991 false)
  else .next s

/-- SEAL_BUSY_TIMEOUT (R260): SEAL_BUSY high for more than 1 s after a frame. -/
def execSealBusyTimeout (highMs : Nat) (s : State) : Host.Outcome State Fault Refusal :=
  if 1000 < highMs && !s.bill.frames.isEmpty then .next (s.level 991 true) else .next s

end Sys2Proof.Machine
end

