-- ==== Sys2Proof/Machine/PowerQuality.lean ====
section
/-! DEFINITION. Power quality (04): voltage events and their records, rapid voltage changes, aggregation, limits, flicker values,
emission bands, and the reads of groups 0x02 and 0x03. -/

namespace Sys2Proof.Machine

/-! ### Reading and changing -/

def State.mon (s : State) (v : Nat) : PqMon := Tbl.get {} s.pq.mon v
def State.modMon (s : State) (v : Nat) (g : PqMon → PqMon) : State := { s with pq.mon := Tbl.upd {} s.pq.mon v g }
def State.pqc (s : State) (c : Nat) : PqChan := Tbl.get {} s.pq.chan c
def State.modPqc (s : State) (c : Nat) (g : PqChan → PqChan) : State := { s with pq.chan := Tbl.upd {} s.pq.chan c g }

def pqEnabled (ks : KeySet) (v : Nat) : Bool := ks.get (kPq v 0) == 1

/-- The evaluated channels of a set (R104). -/
def pqChannels (ks : KeySet) (v : Nat) : List Nat :=
  ((vsChannels ks v).take (if vsConfig ks v = 0 then 1 else 3)).filterMap id

/-- U_din in µV. -/
def uDin (ks : KeySet) (v : Nat) : Nat := vsNomV ks v * 1000

/-- U_ref of a channel in µV (R103). -/
def State.uRef (s : State) (v c : Nat) : Nat :=
  if s.keyOn (kPq v 1) then ((s.pqc c).sliding).getD (uDin s.cfg.active v) else uDin s.cfg.active v

/-! ### Records and their log (R106, R115, R116) -/

/-- Stamp time in µs, 0 while time is invalid. -/
def State.us (s : State) (ns : Nat) : Nat := if s.time.valid then ns / 1000 else 0

/-- STATUS bits that follow the present state of time. -/
def State.pqTimeBits (s : State) : Nat := (if s.time.holdover then 0x80 else 0) ||| (if s.time.valid then 0 else 0x100)

def PqRec.isOpen (r : PqRec) : Bool := r.status.testBit 0

/-- Without the oldest record that is not open (the list is newest first). -/
def dropOldestClosed : List PqRec → List PqRec
  | l => match l.reverse.find? (fun r => !r.isOpen) with
    | some r => l.erase r
    | none => l

/-- Write a record; a full log overwrites its oldest closed record and pulses EV(512 + 12v + 11). -/
def State.pqAdd (s : State) (v : Nat) (r : PqRec) : State :=
  if !s.writable 3 then { s with pq.seq := (s.pq.seq + 1) % 2 ^ 32 } else
  let full := 8192 ≤ s.pq.log.length
  let s := { s with pq.log := r :: (if full then dropOldestClosed s.pq.log else s.pq.log), pq.seq := (s.pq.seq + 1) % 2 ^ 32 }
  if full then s.pulse (512 + 12 * v + 11) else s

def State.modRec (s : State) (q : Nat) (g : PqRec → PqRec) : State :=
  { s with pq.log := s.pq.log.map fun r => if r.seq = q then g r else r }

def State.recOf (s : State) (q : Nat) : Option PqRec := s.pq.log.find? (·.seq == q)

/-- The open records of a set. -/
def PqMon.openRecs (m : PqMon) : List Nat := [m.dip, m.swell, m.int].filterMap id

/-- Put STATUS bits on every open record of a set, and on the record of an RVC in progress. -/
def State.markOpen (s : State) (v bits : Nat) : State :=
  ((s.mon v).openRecs.foldl (fun s q => s.modRec q fun r => { r with status := r.status ||| bits }) s).modMon v fun m =>
    { m with rvc := m.rvc.map fun (x : Rvc) => { x with status := x.status ||| bits } }

/-! ### Dips, swells and interruptions (R104 to R107) -/

/-- One polyphase event. -/
inductive PqKind where
  | dip | swell | int
  deriving DecidableEq, Repr

def PqKind.code : PqKind → Nat | .dip => 0 | .swell => 1 | .int => 2

def PqMon.get (m : PqMon) : PqKind → Option Nat | .dip => m.dip | .swell => m.swell | .int => m.int
def PqMon.put (m : PqMon) (k : PqKind) (q : Option Nat) : PqMon :=
  match k with | .dip => { m with dip := q } | .swell => { m with swell := q } | .int => { m with int := q }

/-- Starting level of an event, 0.01 %. -/
def PqKind.level (ks : KeySet) (v : Nat) : PqKind → Nat
  | .dip => ks.get (kPq v 2) | .swell => ks.get (kPq v 3) | .int => ks.get (kPq v 4)

/-- Does a channel's value meet the start condition? -/
def PqKind.starts (k : PqKind) (lvl uref x : Nat) : Bool :=
  match k with | .swell => decide (lvl * uref < x * 10000) | _ => decide (x * 10000 < lvl * uref)

/-- Does a channel's value meet the end condition? -/
def PqKind.ends (k : PqKind) (lvl hyst uref x : Nat) : Bool :=
  match k with | .swell => decide (x * 10000 + hyst * uref ≤ lvl * uref) | _ => decide ((lvl + hyst) * uref ≤ x * 10000)

/-- The extreme of two (value, channel). -/
def PqKind.worse (k : PqKind) (a b : Nat × Nat) : Nat × Nat :=
  match k with | .swell => if a.1 < b.1 then b else a | _ => if b.1 < a.1 then b else a

/-- Over valid values (value, channel): has the event's start, or end, condition come? -/
def PqKind.judge (k : PqKind) (one : Nat × Nat → Bool) (fin : Nat × Nat → Bool) (l : List (Nat × Nat)) : Bool × Bool :=
  match k with
  | .int => (l.all one, l.any fin)
  | _ => (l.any one, l.all fin)

/-- Evaluate one event of a set at a boundary over its valid values; `now` are the STATUS bits that hold at the boundary. -/
def State.evalEvent (s : State) (v : Nat) (k : PqKind) (b : Bnd) (start : Nat × Nat) (now : Nat) (l : List (Nat × Nat)) : State :=
  let ks := s.cfg.active
  let lvl := k.level ks v
  let one (x : Nat × Nat) := k.starts lvl (s.uRef v x.2) x.1
  let fin (x : Nat × Nat) := k.ends lvl (ks.get (kPq v 5)) (s.uRef v x.2) x.1
  let j := k.judge one fin l
  match (s.mon v).get k, l with
  | _, [] => s
  | none, h :: t =>
    if !j.1 then s
    else
      let ext := t.foldl k.worse h
      let q := s.pq.seq
      let met := (l.filter one).map (·.2)
      let init := met.foldl min (met.headD 0)
      let bits := 1 ||| now ||| (if s.keyOn (kPq v 1) then 0x200 else 0) ||| (if k = .dip ∧ (s.mon v).int.isSome then 2 else 0)
      let r : PqRec := { seq := q, type := k.code, vset := v, status := bits, startIdx := start.1, startUs := s.us start.2,
                         extreme := ext.1, uRef := s.uRef v init / 1000, initCh := init, extCh := ext.2, thresh := lvl }
      let s := (s.pqAdd v r).modMon v fun m => { m.put k (some q) with spans := ((start.1, none) :: m.spans).take 64 }
      let s := if k = .int then match (s.mon v).dip with
          | some d => s.modRec d fun r => { r with status := r.status ||| 2 }
          | none => s
        else s
      s.levelAt b.index b.ns (512 + 12 * v + k.code) true
  | some q, h :: t =>
    let ext := t.foldl k.worse h
    let s := s.modRec q fun r => let e := k.worse (r.extreme, r.extCh) ext; { r with extreme := e.1, extCh := e.2 }
    if !j.2 then s
    else
      let st := (s.recOf q).elim 0 (·.startIdx)
      let s := s.modRec q fun r => { r with status := r.status &&& 0xFFFE, endIdx := b.index, endUs := s.us b.ns }
      let s := s.modMon v fun m =>
        { m.put k none with spans := m.spans.map fun e => if e.1 = st ∧ e.2 = none then (e.1, some b.index) else e }
      s.levelAt b.index b.ns (512 + 12 * v + k.code) false

/-- PQ_CHANNEL_SOURCE (R107): EV(8c + 6) of one channel. -/
def State.pqSource (s : State) (v : Nat) (b : Bnd) (x c : Nat) : State :=
  let ks := s.cfg.active
  let h := ks.get (kPq v 5)
  let u := s.uRef v c
  let y := s.pqc c
  if PqKind.dip.starts (ks.get (kPq v 2)) u x || PqKind.swell.starts (ks.get (kPq v 3)) u x then
    (s.modPqc c fun y => { y with out := true }).levelAt b.index b.ns (8 * c + 6) true
  else if y.out && PqKind.dip.ends (ks.get (kPq v 2)) h u x && PqKind.swell.ends (ks.get (kPq v 3)) h u x then
    (s.modPqc c fun y => { y with out := false }).levelAt b.index b.ns (8 * c + 6) false
  else s

/-! ### Rapid voltage change (R108) -/

def nRvc (ks : KeySet) (v : Nat) : Nat := if vsNomF ks v = 60 then 120 else 100

/-- The sum of the last `n` values of a channel, when it has that many. -/
def histSum (n : Nat) (h : List (Nat × Nat × Nat)) : Option Nat :=
  if n ≤ h.length then some ((h.take n).foldl (fun a e => a + e.1) 0) else none

/-- Do the last `n` values all lie within ± lvl (0.01 % of `u`) of their mean? -/
def steadyIn (n lvl u : Nat) (h : List (Nat × Nat × Nat)) : Bool :=
  match histSum n h with
  | some t => (h.take n).all fun e => decide (((e.1 * n : Nat) - (t : Int)).natAbs * 10000 ≤ lvl * u * n)
  | none => false

/-- The evaluated channels whose latest RMS½ value is valid (R104). -/
def State.pqValid (s : State) (v : Nat) : List Nat := (pqChannels s.cfg.active v).filter fun c => (s.chm c).halfOk

/-- Is every evaluated channel of a set with a valid value steady within a level, and is there one (R104, R108)? -/
def State.allSteady (s : State) (v lvl : Nat) : Bool :=
  let ks := s.cfg.active
  !(s.pqValid v).isEmpty && (s.pqValid v).all fun c => steadyIn (nRvc ks v) lvl (uDin ks v) (s.pqc c).hist

/-- End an RVC without a record (R108 step 4): a dip or swell has started, or the course fell. -/
def State.rvcDiscard (s : State) (v : Nat) : State :=
  (s.modMon v fun m => { m with armed := false, rvc := none }).level (512 + 12 * v + 3) false

/-- A channel's valid value during an RVC: its deviation from U_pre, the mean of its values before (R108). -/
def PqChan.deviate (n : Nat) (x : Nat) (y : PqChan) : PqChan :=
  match y.uPre.orElse fun _ => (histSum n y.hist).map fun t => (roundDiv t n).toNat with
  | some pre =>
    let d := ((x : Int) - pre).natAbs
    if y.duMax < d then { y with uPre := some pre, duMax := d, ext := x } else { y with uPre := some pre }
  | none => y

/-- The RVC logic at a boundary, before the values enter the history. -/
def State.rvcEval (s : State) (v : Nat) (b : Bnd) (start : Nat × Nat) (now : Nat) (l : List (Nat × Nat)) : State :=
  let ks := s.cfg.active
  let m := s.mon v
  let n := nRvc ks v
  if m.dip.isSome || m.swell.isSome then
    if m.rvc.isSome || m.armed then s.rvcDiscard v else s
  else if m.rvc.isSome then l.foldl (fun s x => s.modPqc x.2 (PqChan.deviate n x.1)) s
  else if m.armed then
    let hit := l.filter fun x => match histSum n (s.pqc x.2).hist with
      | some t => decide (ks.get (kPq v 6) * uDin ks v * n < ((x.1 * n : Nat) - (t : Int)).natAbs * 10000)
      | none => false
    match hit with
    | [] => s
    | h :: t =>
      let init := t.foldl (fun a x => min a x.2) h.2
      let s := (pqChannels ks v).foldl (fun (s : State) c => s.modPqc c fun y => { y with uPre := none, duMax := 0, ext := 0 }) s
      let s := l.foldl (fun s x => s.modPqc x.2 (PqChan.deviate n x.1)) s
      let r : Rvc := { startIdx := start.1, startUs := s.us start.2, initCh := init, status := now }
      (s.modMon v fun m => { m with armed := false, rvc := some r }).levelAt b.index b.ns (512 + 12 * v + 3) true
  else s

/-- RVC_ARM (R108 step 1): every channel is steady. -/
def execRvcArm (v : Fin 8) (s : State) : Host.Outcome State Fault Refusal :=
  if !s.meters then .next s else
  let m := s.mon v
  if pqEnabled s.cfg.active v && !m.armed && m.rvc.isNone && m.dip.isNone && m.swell.isNone
      && s.allSteady v (s.key (kPq v 6)) then
    .next (s.modMon v fun m => { m with armed := true })
  else .next s

/-- The channel with the largest ΔU_max. -/
def State.rvcChannel (s : State) (v : Nat) : Nat :=
  (pqChannels s.cfg.active v).foldl (fun a c => if (s.pqc a).duMax < (s.pqc c).duMax then c else a)
    ((pqChannels s.cfg.active v).headD 0)

/-- RVC_END (R108 step 3): every channel has returned to steady; the record is written. -/
def execRvcEnd (v : Fin 8) (s : State) : Host.Outcome State Fault Refusal :=
  if !s.meters then .next s else
  let ks := s.cfg.active
  match (s.mon v).rvc with
  | none => .next s
  | some r =>
    if !s.allSteady v (ks.get (kPq v 6) - ks.get (kPq v 7)) then .next s
    else
      let n := nRvc ks v
      let ends := (s.pqValid v).filterMap fun c => ((s.pqc c).hist[n - 1]?).map fun e => (e.2.1, e.2.2)
      let fin := ends.foldl (fun a e => if a.1 < e.1 then e else a) (0, 0)
      let c := s.rvcChannel v
      let y := s.pqc c
      let post := (histSum n y.hist).elim 0 fun t => (roundDiv t n).toNat
      let rec_ : PqRec :=
        { seq := s.pq.seq, type := 3, vset := v, status := r.status, startIdx := r.startIdx, startUs := r.startUs,
          endIdx := fin.1, endUs := s.us fin.2, extreme := y.ext, uRef := uDin ks v / 1000, initCh := r.initCh, extCh := c,
          thresh := ks.get (kPq v 6), duMax := satU 32 y.duMax, duSs := satS 32 ((post : Int) - y.uPre.getD 0) }
      .next (((s.pqAdd v rec_).modMon v fun m => { m with rvc := none, armed := true }).level (512 + 12 * v.val + 3) false)

/-- DIP_SWELL_INT_EVAL, PQ_CHANNEL_SOURCE and RVC_START at a half-cycle boundary of a set (R104 to R108).  `start` is the
stamp of the boundary before; a record starts no earlier than a swap sample (R106), and a boundary at or before it opens none (R120). -/
def State.pqBoundary (s : State) (v : Nat) (b : Bnd) (start : Nat × Nat) : State :=
  let ks := s.cfg.active
  let first := (s.mon v).notBefore
  if !pqEnabled ks v || s.onFooting ((vsCourse ks v).getD 0) || decide (b.index ≤ first.1) then s
  else
    let start := if start.1 < first.1 then first else start
    let l := (s.pqValid v).map fun c => ((s.chm c).half, c)
    let now := s.pqTimeBits ||| (if b.synth then 0x20 else 0) ||| (if l.length < (pqChannels ks v).length then 0x40 else 0)
    let s := s.markOpen v now
    if l.isEmpty then s
    else
      let s := s.evalEvent v .dip b start now l
      let s := s.evalEvent v .swell b start now l
      let s := s.evalEvent v .int b start now l
      let s := l.foldl (fun s x => s.pqSource v b x.1 x.2) s
      let s := s.rvcEval v b start now l
      l.foldl (fun s x => s.modPqc x.2 fun y => { y with hist := ((x.1, b.index, b.ns) :: y.hist).take 120 }) s

/-- Close the open records of a set at the present sample with a STATUS bit (R104, R120), and discard an RVC. -/
def State.pqClose (s : State) (v bit : Nat) : State :=
  let m := s.mon v
  let s := m.openRecs.foldl (fun s q => s.modRec q fun r =>
    { r with status := (r.status &&& 0xFFFE) ||| bit, endIdx := s.time.index, endUs := s.us s.time.ns }) s
  let s := [0, 1, 2].foldl (fun s k => s.level (512 + 12 * v + k) false) s
  let s := s.modMon v fun m =>
    { m with dip := none, swell := none, int := none,
             spans := m.spans.map fun e => if e.2 = none then (e.1, some s.time.index) else e }
  let s := s.rvcDiscard v
  (pqChannels s.cfg.active v).foldl (fun s c => s.modPqc c fun y => { y with hist := [] }) s

/-- R111: does an event of the set reach into a window of sample indexes [a, e)? -/
def PqMon.flagged (m : PqMon) (a e : Nat) : Bool :=
  m.spans.any fun x => decide (x.1 < e) && (match x.2 with | some y => decide (a < y) | none => true)

/-! ### Sliding reference (R103) -/

/-- SLIDING_REF_UPDATE: a clean window updates U_sr of the evaluated channels, rounded to the nearest µV (log 65). -/
def State.slidingUpdate (s : State) (p : WinPub) : State :=
  let ks := s.cfg.active
  let fl := p.vsFlags s
  if !s.keyOn (kPq p.v 1) || fl &&& 0x113 != 0 then s
  else (pqChannels ks p.v).foldl (fun s c =>
    let u := chanRms ks c (p.cum c)
    s.modPqc c fun y => { y with sliding := some (roundDiv ((9967 * y.sliding.getD (uDin ks p.v) + 33 * u : Nat) : Int) 10000).toNat }) s

/-! ### Aggregation (R98 to R102, R117) -/

/-- The RMS-type inputs of a window in the order of R117: U, U_under, U_over (3 each), u_neg, u_0, THD (3), subgroups
(3 × 64), interharmonic centred subgroups (3 × 63). -/
def WinPub.aggInputs (p : WinPub) (ks : KeySet) : List Nat :=
  let chs := (vsChannels ks p.v).take 3
  let u := (p.uRms ks).take 3
  let present := chs.map (·.isSome)
  let lim (f : Nat → Nat → Nat) := (u.zip present).map fun e => if e.2 then f e.1 (uDin ks p.v) else 0
  let sq := p.vsSeq ks
  let sp (f : Spectrum → List Nat) (n : Nat) := chs.flatMap fun c => match c.bind p.spec with
    | some x => f x | none => List.replicate n 0
  u ++ lim min ++ lim max ++ [sq.uNeg, sq.uZero] ++ chs.map (fun c => (p.thd ks c).1)
    ++ sp (fun x => hsgList x (p.nc ks)) 64 ++ sp (fun x => ihsgList x (p.nc ks)) 63

def addSquares : List Nat → List Nat → List Nat
  | [], l => l.map fun x => x * x
  | a :: t, x :: l => (a + x * x) :: addSquares t l
  | l, [] => l

/-- One input of an aggregate (R100): excluded with INVALID or FOOTING, else included with its marks. -/
def Agg.add (a : Agg) (inputs : List Nat) (flags status : Nat) : Agg :=
  if flags &&& 0x11 != 0 then { a with seen := a.seen + 1, flags := a.flags ||| 2, status := a.status ||| status }
  else { a with seen := a.seen + 1, count := a.count + 1, sums := addSquares a.sums inputs,
                flags := a.flags ||| (flags &&& 0x1CE), status := a.status ||| status }

/-- The aggregated values. -/
def Agg.values (a : Agg) : List Nat := a.sums.map fun x => sqrtRatio x a.count

/-- FLAGS of a closed aggregate. -/
def Agg.outFlags (a : Agg) : Nat := if a.count = 0 then a.flags ||| 1 else a.flags

/-- The 1,656-byte block (R117). -/
def Agg.block (a : Agg) (v level : Nat) (pst plt : List Nat) : Bytes :=
  let vals := if a.count = 0 then List.replicate 395 0 else a.values
  let part (i n w : Nat) := ((vals.drop i).take n).flatMap (leBytes w)
  let pad3 (l : List Nat) := [l.getD 0 0, l.getD 1 0, l.getD 2 0].flatMap (leBytes 2)
  leBytes 8 a.startUs ++ leBytes 8 a.endUs ++ leBytes 2 a.outFlags ++ leBytes 1 level ++ leBytes 1 a.status
    ++ leBytes 2 a.count ++ leBytes 1 v ++ zeros 1 ++ part 0 9 8 ++ part 9 2 4 ++ part 11 3 4 ++ pad3 pst ++ pad3 plt
    ++ part 14 192 4 ++ part 206 189 4 ++ zeros 4

/-- A new value replaces the older of the two atomically (R101). -/
def State.aggStore (s : State) (v level : Nat) (blk : Bytes) : State :=
  s.modMon v fun m =>
    { m with previous := Tbl.set [] m.previous level (Tbl.get [] m.latest level), latest := Tbl.set [] m.latest level blk }

/-- AGG_STATUS bits of the present time. -/
def State.aggTime (s : State) : Nat := (if s.time.holdover then 1 else 0) ||| (if s.time.valid then 0 else 4)

/-- The 10-min tick a system time lies after (R98). -/
def State.tickOf (s : State) (ns : Nat) : Nat := s.utcOf ns / (600 * second)

/-- The system time in µs of tick `n` of a `period` in s (R98). -/
def State.tickUs (s : State) (n period : Nat) : Nat := ((n * period * 1000000 : Nat) + s.time.utcOfs * 1000000).toNat

/-- AGG_150_180_CLOSE. -/
def State.close150 (s : State) (v : Nat) (resync : Bool) : State :=
  let a := (s.mon v).a150
  let a := { a with status := a.status ||| (if resync then 8 else 0) }
  (s.aggStore v 0 (a.block v 0 [] [])).modMon v fun m => { m with a150 := {} }

/-- Does an instant lie after another 10-min tick than the 150/180-cycle interval in progress began after (R99)? -/
def State.pastTick (s : State) (v ns : Nat) : Bool := s.time.valid && (s.mon v).a150.open_ && s.tickOf ns != (s.mon v).a150.tick

/-- The aggregation share of WINDOW_END: a window that starts at or after a 10-min tick closes the 150/180-cycle interval before it with RESYNC; the 15th window
closes it without, at a tick too (log 66). -/
def State.aggWindow (s : State) (p : WinPub) : State :=
  let ks := s.cfg.active
  let v := p.v
  if !pqEnabled ks v then s
  else
    let inp := p.aggInputs ks
    let fl := p.vsFlags s
    let st := s.aggTime
    let s := if s.pastTick v p.w.start.ns then s.close150 v true else s
    let s := s.modMon v fun m =>
      let a := if m.a150.open_ then m.a150 else { open_ := true, startUs := s.us p.w.start.ns, tick := s.tickOf p.w.start.ns }
      let a10 := m.a10
      let mine := a10.open_ && (match a10.cut with | some i => decide (p.w.start.index < i) | none => s.tickOf p.w.start.ns == a10.tick)
      { m with a150 := { a.add inp fl st with endUs := s.us p.w.stop.ns }, a10 := if mine then a10.add inp fl st else a10 }
    if 15 ≤ (s.mon v).a150.seen then s.close150 v false
    else if s.pastTick v p.w.stop.ns then s.close150 v true
    else s

/-- Is a limit value beyond its key: 0 turns it off, and a flagged or invalid aggregate leaves the state (R114). -/
def State.limit (s : State) (src : Nat) (flags lim x : Nat) : State :=
  if lim = 0 || flags &&& 0x101 != 0 then s else s.level src (decide (lim < x))

/-- Are the windows of the interval in progress all published? -/
def State.a10Done (s : State) (v : Nat) : Bool :=
  let m := s.mon v
  let y := s.vs v
  let starts := (y.win.toList.map (·.start)) ++ y.done.map (·.start)
  starts.all fun b => match m.a10.cut with
    | some i => decide (i ≤ b.index)
    | none => s.tickOf b.ns != m.a10.tick

/-- END_TIME: the next tick, a leap second in between counted (R207); of a cut interval the tick that was to come. -/
def State.aggEnd (s : State) (a : Agg) (period : Nat) : Nat :=
  if a.cut.isSome then a.startUs + period * 1000000 else s.tickUs (a.tick + 1) period

/-- Close the 10-min interval of a set with its Pst values (R99, R109, R114). -/
def State.close10 (s : State) (v : Nat) : State :=
  let ks := s.cfg.active
  let m := s.mon v
  let pst0 := if m.a10.count = 0 then [] else m.pstNow
  let sat := pst0.any fun x => decide (0xFFFF < x)
  let pst := pst0.map (min 0xFFFF)
  let cutF := m.flickCut || !m.settled
  let a : Agg := { m.a10 with endUs := s.aggEnd m.a10 600, flags := m.a10.flags ||| (if sat then 0x40 else 0) ||| (if cutF then 2 else 0) }
  let s := s.aggStore v 1 (a.block v 1 pst [])
  let fl := a.outFlags
  let vals := if a.count = 0 then [] else a.values
  let s := s.modMon v fun m =>
    { m with a2h := if m.a2h.open_ then m.a2h.add vals fl a.status else m.a2h,
             pst := if a.count = 0 then m.pst else (m.pst ++ [(pst, (if cutF then 2 else 0) ||| (fl &&& 0x100))]).drop (m.pst.length + 1 - 12),
             flickCut := false }
  let s := s.pulse (512 + 12 * v + 9)
  let s := s.limit (512 + 12 * v + 5) fl (ks.get (kPq v 0x0A)) (vals.getD 9 0)
  let s := s.limit (512 + 12 * v + 6) fl (ks.get (kPq v 0x0B)) (((vals.drop 11).take 3).foldl max 0)
  s.limit (512 + 12 * v + 7) fl (ks.get (kPq v 0x0C)) (pst.foldl max 0)

/-- Does an interval of `period` s open now: a tick has passed since the latest step and since the monitor's keys took force, 1 s ago at most (R98, R102)? -/
def State.atTick (s : State) (v period : Nat) : Bool :=
  let ago := s.utcNs % (period * second)
  decide (ago < second) && decide (s.time.stepAt ≤ s.time.index - ago / 15625) && decide ((s.mon v).notBefore.1 ≤ s.time.index - ago / 15625)

/-- AGG_10MIN_TICK (R98, R99, R102): after the tick of that number, until the next, the interval in progress closes once its last window is published, and the
next opens at the tick. -/
def execAgg10minTick (v : Fin 8) (tick : Nat) (s : State) : Host.Outcome State Fault Refusal :=
  if !s.meters then .next s else
  let m := s.mon v
  let now := s.tickOf s.time.ns
  if !pqEnabled s.cfg.active v || !s.time.valid || tick != now then .next s
  else
    let ended := m.a10.open_ && (m.a10.cut.isSome || m.a10.tick != now) && s.a10Done v
    let s := if ended then (s.close10 v).modMon v fun m => { m with a10 := { tick := now } } else s
    let m := s.mon v
    if !m.a10.open_ && s.atTick v 600 then
      .next (s.modMon v fun m => { m with a10 := { open_ := true, tick := now, startUs := s.tickUs now 600 } })
    else .next s

/-- The integer cube root, by bits from `k` down. -/
def icbrtAux (n : Nat) : Nat → Nat → Nat
  | 0, r => r
  | k + 1, r => let c := r + 2 ^ k; if c * c * c ≤ n then icbrtAux n k c else icbrtAux n k r

/-- The cube root of a / b rounded to nearest. -/
def cbrtRatio (a b : Nat) : Nat := if b = 0 then 0 else (icbrtAux (8 * a / b) 24 0 + 1) / 2

/-- Plt of one channel (R109): with fewer than 12 Pst values, which make it INCOMPLETE, the mean is over those held (log 66). -/
def pltOf (l : List (List Nat × Nat)) (i : Nat) : Nat :=
  cbrtRatio (l.foldl (fun a e => let x := e.1.getD i 0; a + x * x * x) 0) l.length

/-- Has the 2-h interval in progress ended, and is every 10-min interval that belongs to it closed (R99, R102)? -/
def PqMon.ended2h (m : PqMon) (now : Nat) : Bool :=
  m.a2h.open_ && (m.a2h.cut.isSome || m.a2h.tick != now)
    && !(m.a10.open_ && (if m.a2h.cut.isSome then m.a10.cut.isSome else m.a10.tick / 12 == m.a2h.tick))

/-- AGG_2H_TICK (R99, R100, R109): 12 ten-minute values and the Plt. -/
def execAgg2hTick (v : Fin 8) (s : State) : Host.Outcome State Fault Refusal :=
  if !s.meters then .next s else
  let ks := s.cfg.active
  let m := s.mon v
  let now := s.utcNs / (7200 * second)
  if !pqEnabled ks v || !s.time.valid then .next s
  else
    let s :=
      if m.ended2h now then
        let bad := m.pst.length < 12 || m.pst.any fun e => e.2 &&& 2 != 0
        let plt := [pltOf m.pst 0, pltOf m.pst 1, pltOf m.pst 2]
        let a : Agg := { m.a2h with endUs := s.aggEnd m.a2h 7200, flags := m.a2h.flags ||| (if m.a2h.seen < 12 || bad then 2 else 0) }
        let s := s.aggStore v 2 (a.block v 2 [] (if a.count = 0 then [] else plt))
        let s := s.pulse (512 + 12 * v.val + 10)
        let s := s.limit (512 + 12 * v.val + 8) (a.outFlags ||| (m.pst.foldl (fun f e => f ||| (e.2 &&& 0x100)) 0))
          (ks.get (kPq v 0x0D)) (plt.foldl max 0)
        s.modMon v fun m => { m with a2h := { tick := now }, pst := [] }
      else s
    let m := s.mon v
    if !m.a2h.open_ && s.atTick v 7200 then
      .next (s.modMon v fun m => { m with a2h := { open_ := true, tick := now, startUs := s.tickUs now 7200 }, pst := [] })
    else .next s

/-! ### The flickermeter (R109) -/

/-- The class of a sensation in 10^-6, of 1,024 logarithmic classes from 10^-4 to 10^4. -/
def flickClass (x : Nat) : Nat := min 1023 (Nat.log 10 (x ^ 128) - 256)

/-- One sample of a channel through blocks 1 to 4, as a part of NOMINAL_V, and its class (R109). -/
def State.flickChannel (s : State) (v c : Nat) : State :=
  let ks := s.cfg.active
  let x := s.chan c
  let y := if isInvalid x.tagc then 0 else roundDiv (x.yc * primaryFs ks c) (vsNomV ks v)
  s.modPqc c fun z =>
    let r := Config.flickerStep (ks.get (kPq v 8)) (vsNomF ks v) z.flick y
    { z with flick := r.1, classes := Tbl.upd 0 z.classes (flickClass r.2) (· + 1) }

/-- The Pst values of U1, U2 and U3 from their classes, 0 for a channel not evaluated. -/
def State.pstFrom (s : State) (v : Nat) : List Nat :=
  ((vsChannels s.cfg.active v).take 3).map fun c => match c with
    | some c => if (pqChannels s.cfg.active v).contains c then Config.pstOf ((List.range 1024).map fun i => Tbl.get 0 (s.pqc c).classes i) else 0
    | none => 0

/-- An interval of the flickermeter ends: its Pst values are formed, the classes start anew. -/
def State.flickCutAt (s : State) (v : Nat) : State :=
  let pst := s.pstFrom v
  (pqChannels s.cfg.active v).foldl (fun (s : State) c => s.modPqc c fun z => { z with classes := [] }) (s.modMon v fun m => { m with pstNow := pst })

/-- The flickermeter of a set at a sample boundary: at a 10-min tick the Pst of the interval is formed, and each evaluated channel takes its sample; suspended
while the course runs on footing (R120). -/
def State.flicker (s : State) (v : Nat) : State :=
  let ks := s.cfg.active
  if !pqEnabled ks v || s.onFooting ((vsCourse ks v).getD 0) then s
  else
    let now := s.tickOf s.time.ns
    let m := s.mon v
    let s := if s.time.valid && m.flickTick != now then
        (if m.a10.open_ && m.a10.cut.isSome then s else s.flickCutAt v).modMon v fun m => { m with flickTick := now }
      else s
    (pqChannels ks v).foldl (fun (s : State) c => s.flickChannel v c) s

/-- FLICKER_SETTLED (R109): `seconds` after a start or a swap, 60 at least, the filters have settled. -/
def execFlickerSettled (v : Fin 8) (seconds : Nat) (s : State) : Host.Outcome State Fault Refusal :=
  if !s.meters then .next s else
  if 60 ≤ seconds && (s.mon v).settleFrom + 3840000 ≤ s.time.index && !(s.mon v).settled then .next (s.modMon v fun m => { m with settled := true, flickCut := true }) else .next s

/-- The filters restart: after a start, a restart of the course, or a swap that changes their keys. -/
def State.flickerRestart (s : State) (v : Nat) : State :=
  let s := s.modMon v fun m => { m with settled := false, settleFrom := s.time.index, flickCut := true }
  (pqChannels s.cfg.active v).foldl (fun (s : State) c => s.modPqc c fun z => { z with flick := [] }) s

/-- The filters of the sets of a course that restarts. -/
def State.flickerCourse (s : State) (k : Nat) : State :=
  ((List.range 8).filter fun v => pqEnabled s.cfg.active v && vsCourse s.cfg.active v == some k).foldl (fun (s : State) v => s.flickerRestart v) s

/-- What a step of time does to power quality (R102, R115): intervals in progress close after the last window that starts before
it; open records carry TIME_STEP. -/
def State.pqStep (s : State) : State :=
  (List.range 8).foldl (fun (s : State) v =>
    let s := s.markOpen v 0x400
    let s := if (s.mon v).a10.open_ && (s.mon v).a10.cut.isNone then s.flickCutAt v else s
    let stop (a : Agg) : Agg := if a.open_ then { a with cut := some (a.cut.getD s.time.index), status := a.status ||| 2, flags := a.flags ||| 2 } else a
    s.modMon v fun m => { m with a10 := stop m.a10, a2h := stop m.a2h }) s

/-! ### 10 s frequency (R67, R114) -/

/-- The frequency of cycles given as (duration in 2^-17 sample index, the slew in force): each duration at the undisturbed rate, exact to 2^-40 (R67, R216). -/
def freqOfCycles (l : List (Nat × Int)) : Nat :=
  let d := (l.foldl (fun t c => t + roundDiv ((c.1 : Int) * 2 ^ 80) (2 ^ 40 + c.2).toNat) 0).toNat
  if d = 0 then 0 else (roundDiv ((l.length * 64000 * 2 ^ 57 * 1000000 : Nat) : Int) d).toNat

/-- FREQ_10S_END: D_zc + 30 µs after a 10 s interval of system time. -/
def execFreq10sEnd (v : Fin 8) (s : State) : Host.Outcome State Fault Refusal :=
  if !s.meters then .next s else
  let ks := s.cfg.active
  let y := s.vs v
  let lag := (if vsWide ks v then 250000 else 500000) + 30000
  let n := (s.time.ns - lag) / (10 * second)
  let a := (n - 1) * (10 * second)
  let e := n * (10 * second)
  if !vsEnabled ks v || n = 0 || n ≤ y.f10Done || a ≤ y.f10From then .next s
  else
    let cs := y.cycles.filter fun c => a ≤ c.1 && c.2.1 ≤ e
    let f := freqOfCycles (cs.map (·.2.2))
    let syn := y.synths.any fun t => a ≤ t && t < e
    let fl := flagBits cs.isEmpty false false syn false false false (!cs.isEmpty && freqOutside (vsNomF ks v) f) false
    let s := s.modVs v fun y =>
      { y with f10 := f, f10Flags := fl, f10Done := n, cycles := y.cycles.filter (fun c => e ≤ c.1), synths := y.synths.filter (e ≤ ·) }
    let dev := ks.get (kPq v 9) * 1000
    let off := ((f : Int) - (vsNomF ks v * 1000000 : Nat)).natAbs
    if !pqEnabled ks v || dev = 0 || cs.isEmpty then .next s
    else if dev < off then .next (s.level (512 + 12 * v.val + 4) true)
    else if 10 * off ≤ 9 * dev then .next (s.level (512 + 12 * v.val + 4) false)
    else .next s

/-! ### Emission bands (R118, R119) -/

/-- BAND_INTERVAL_END (R118, R119): the bands over the interval [0.2n s, 0.2n s + 0.2 s) of system time, the latest that has ended since the latest step.  On
footing the block has no valid value. -/
def execBandIntervalEnd (c : Fin 48) (n : Nat) (s : State) : Host.Outcome State Fault Refusal :=
  if !s.meters then .next s else
  let ks := s.cfg.active
  let stop := s.time.index - s.time.ns % 200000000 / 15625
  let a := stop - 12800
  match (enabledVsets ks).find? fun v => (vsAllChannels ks v).contains c.val with
  | none => .next s
  | some v =>
    if !courseWide ks (courseOf c) || decide (stop < s.time.stepAt + 12800) || n + 1 != s.time.ns / 200000000 then .next s
    else
      let smp := (s.chm c).raw.filter fun r => decide (2 * a ≤ r.u) && decide (r.u < 2 * stop)
      let x := smp.reverse.map (·.y)
      let bad := smp.any (·.bad) || smp.length != 25600
      let foot := smp.any (·.foot)
      let ns := s.time.ns - (s.time.index - stop) * 15625
      let syn := (s.vs v).synths.any fun t => decide (ns ≤ t + 200000000) && decide (t < ns)
      let band (b : Nat) := satU 32 (sqrtRatio (2 * (List.range 40).foldl (fun t i => t + (dftBin 25600 x (401 + 40 * b + i)).sq) 0) (25600 ^ 2 * 2 ^ 36))
      let vals := (List.range 35).map fun b => if bad || foot then 0 else band b
      let blk := leBytes 8 a ++ leBytes 2 (flagBits (bad || foot) bad (smp.any (·.ovr)) syn foot false
          (vals.any (· == 2 ^ 32 - 1)) false false) ++ leBytes 1 c.val ++ zeros 5 ++ vals.flatMap (leBytes 4) ++ zeros 4
      .next { s with metro.bands := Tbl.set [] s.metro.bands c blk }

/-! ### Reads (R411) -/

def PqRec.bytes (r : PqRec) : Bytes :=
  leBytes 4 r.seq ++ leBytes 1 r.type ++ leBytes 1 r.vset ++ leBytes 2 r.status ++ leBytes 8 r.startIdx ++ leBytes 8 r.startUs
    ++ leBytes 8 r.endIdx ++ leBytes 8 r.endUs ++ leBytes 8 r.extreme ++ leBytes 4 r.uRef ++ leBytes 1 r.initCh
    ++ leBytes 1 r.extCh ++ leBytes 2 r.thresh ++ leBytes 4 r.duMax ++ leInt 4 r.duSs

/-- READ_SNAPSHOT (R87, R88, R90). -/
def readSnapshotBody : Body := fixedBody 8 [(1, 1), (4, 4)] (readBody fun _ p s =>
  let ks := s.cfg.active
  let vs := maskList 8 (fld p.params 0 1)
  let ms := maskList 16 (fld p.params 2 2)
  if !vs.all (vsEnabled ks) then Res.field 32
  else if !ms.all (mpEnabled ks) then Res.field 34
  else
    Res.okOr (s.anyDegraded (vs.filterMap (vsCourse ks) ++ ms.filterMap (mpCourse ks)))
      (leBytes 8 s.time.index ++ zeros 8 ++ vs.flatMap s.vsBlockOf ++ ms.flatMap s.mpBlockOf))

def execReadSnapshot (p : Packet) (s : State) : Host.Outcome State Fault Refusal := .next (command 0x0201 readSnapshotBody p s)

/-- The channels of enabled sets and points. -/
def measuredChannels (ks : KeySet) : List Nat :=
  (enabledVsets ks).flatMap fun v => (vsChannels ks v).filterMap id ++ (mpsOf ks v).flatMap fun m => (mpChannels ks m).filterMap id

/-- A read of one block per selected channel. -/
def chanBlockRead (ok : KeySet → Nat → Bool) (blk : State → Nat → Bytes) : Body := fixedBody 8 [(6, 2)] (readBody fun _ p s =>
  let chs := maskList 48 (fld p.params 0 8)
  if !chs.all (ok s.cfg.active) then Res.field 32
  else Res.okOr (s.anyDegraded (chs.map courseOf)) (chs.flatMap (blk s)))

/-- READ_HARMONICS (R89). -/
def readHarmonicsBody : Body := chanBlockRead (fun ks c => (measuredChannels ks).contains c) State.hBlockOf
def execReadHarmonics (p : Packet) (s : State) : Host.Outcome State Fault Refusal := .next (command 0x0202 readHarmonicsBody p s)

def State.ihBlockOf (s : State) (c : Nat) : Bytes :=
  let b := Tbl.get [] s.metro.ihBlock c
  if b.isEmpty then zeros 8 ++ [1, 0] ++ leBytes 1 c ++ zeros 509 else b

/-- PQ_READ_IHG (R110). -/
def pqReadIhgBody : Body := chanBlockRead (fun ks c => (measuredChannels ks).contains c) State.ihBlockOf
def execPqReadIhg (p : Packet) (s : State) : Host.Outcome State Fault Refusal := .next (command 0x0302 pqReadIhgBody p s)

def State.bandBlockOf (s : State) (c : Nat) : Bytes :=
  let b := Tbl.get [] s.metro.bands c
  if b.isEmpty then zeros 8 ++ [1, 0] ++ leBytes 1 c ++ zeros 149 else b

/-- PQ_READ_BANDS (R118, R119). -/
def pqReadBandsBody : Body :=
  chanBlockRead (fun ks c => (measuredChannels ks).contains c && courseWide ks (courseOf c)) State.bandBlockOf
def execPqReadBands (p : Packet) (s : State) : Host.Outcome State Fault Refusal := .next (command 0x0320 pqReadBandsBody p s)

/-- The channel diagnostic word for a bay (R55). -/
def State.diagWord (s : State) (bay c : Nat) : Nat :=
  let x := s.chan c
  let run := s.chanRuns c
  (if run then
    bitsNat [x.opn, x.stuck, x.ovr, x.polarity, x.low, decide (0 < x.settle), s.mclkFaultOf c, x.tcHold && tcUsed s.cfg.active c,
      x.tcClamp, x.identical]
   else 0x20) + 2 ^ 16 * Tbl.get 0 x.fixed bay + 2 ^ 24 * Tbl.get 0 x.lost bay

/-- READ_CHANNEL_DIAG (R55): 48 words; the counts clear for the reading bay. -/
def readChannelDiagBody : Body := fixedBody 0 [] fun c _ s =>
  let out := (List.range 48).flatMap fun i => leBytes 4 (s.diagWord c.bay i)
  let s := (List.range 48).foldl (fun s i => s.modChan i fun x =>
    { x with fixed := Tbl.set 0 x.fixed c.bay 0, lost := Tbl.set 0 x.lost c.bay 0 }) s
  (s, .reply (Res.ok out))
def execReadChannelDiag (p : Packet) (s : State) : Host.Outcome State Fault Refusal := .next (command 0x0203 readChannelDiagBody p s)

/-- PQ_READ_AGG (R101, R117). -/
def pqReadAggBody : Body := fixedBody 8 [(3, 5)] (readBody fun _ p s =>
  let v := fld p.params 0 1
  let l := fld p.params 1 1
  let w := fld p.params 2 1
  if !(v < 8 && pqEnabled s.cfg.active v) then Res.field 32
  else if 2 < l then Res.field 33
  else if 1 < w then Res.field 34
  else
    let b := Tbl.get [] (if w = 0 then (s.mon v).latest else (s.mon v).previous) l
    Res.okOr (s.anyDegraded (vsCourse s.cfg.active v).toList)
      (if b.isEmpty then zeros 16 ++ [1, 0] ++ leBytes 1 l ++ zeros 3 ++ leBytes 1 v ++ zeros 1633 else b))
def execPqReadAgg (p : Packet) (s : State) : Host.Outcome State Fault Refusal := .next (command 0x0301 pqReadAggBody p s)

/-- PQ_READ_LOG (R115, R116). -/
def pqReadLogBody : Body := fixedBody 8 [(6, 2)] (readBody fun _ p s =>
  let n := fld p.params 4 2
  if n = 0 ∨ 512 < n then Res.field 36
  else Res.ok (seqResult (·.seq) PqRec.bytes s.pq.seq (fld p.params 0 4) n s.pq.log))
def execPqReadLog (p : Packet) (s : State) : Host.Outcome State Fault Refusal := .next (command 0x0310 pqReadLogBody p s)

end Sys2Proof.Machine
end

