-- ==== Sys2Proof/Machine/TimeCore.lean ====
section
/-! DEFINITION. System time (08): steps and slews, time sources and their selection, PTP, PPS, holdover, leap seconds, and the time
opcodes. -/

namespace Sys2Proof.Machine

/-! ### Status (R233) -/

/-- TIME_STATUS with a reader's own STEPPED. -/
def State.timeStatus (s : State) (stepped : Bool) : Nat :=
  let t := s.time
  bitsNat [t.valid, t.holdover, t.locked, t.slewing] + 16 * (t.source % 8)
    + 128 * bitsNat [t.xtalFault, t.rtcOscFault, t.holdExceeded, t.leap != 0, stepped, t.fromRtc]

/-- EST_ERROR in ns (R219): e0 + 2 × 10^-6 t in holdover; the magnitude of the last accepted offset while disciplined (log 20). -/
def State.estError (s : State) : Nat :=
  if s.time.holdover then s.time.e0 + 2 * (s.time.mono - s.time.holdSince) / 1000000 else s.time.lastOffset.natAbs

/-! ### The clock-adjustment log (R217) -/

def State.timeLog (s : State) (cause origin before after : Nat) : State :=
  let r : TimeRec := { seq := s.time.logSeq, cause := cause, origin := origin, index := s.time.index, before := before, after := after }
  { s with time.log := if s.writable 3 then (r :: s.time.log).take 4096 else s.time.log, time.logSeq := (s.time.logSeq + 1) % 2 ^ 32 }

/-- STEPPED for every reader. -/
def State.markStepped (s : State) : State :=
  { s.modAllWin fun w => { w with stepped := true } with
    time.stepped := (List.range 8).foldl (fun t b => Tbl.set false t b true) s.time.stepped }

/-- TIME_STEP (R215, R217, R243): system time moves by `d` ns at the present boundary; a snapshot whose T it crosses is marked (R235). -/
def State.timeStep (s : State) (d : Int) (cause origin : Nat) : State :=
  let large := decide (s.key (kBill 4) * second < d.natAbs) && cause != 0
  let before := s.time.ns
  let s := (s.billBeforeStep large).pqStep
  let s := { s with time.ns := ((before : Int) + d).toNat, time.stepAt := s.time.index }
  let now := s.time.ns
  let s := { s with ledger.leafSnaps := s.ledger.leafSnaps.map fun (x : LeafSnap) =>
    if before < x.t ∧ x.t ≤ now then { x with step := true }
    else if now < x.t ∧ x.t ≤ before then { x with step := true, latched := [], plcDone := false } else x }
  let s := (s.timeLog cause origin before s.time.ns).markStepped
  (s.pulse 906).billAfterStep large

/-! ### Slewing (R215) -/

/-- The slew rate for a removal, in 2^-40: SLEW_MAX ppm with the sign of the advance. -/
def slewOf (ppm : Nat) (adv : Int) : Int :=
  let r : Int := (ppm * 2 ^ 40 / 1000000 : Nat)
  if adv < 0 then -r else r

/-- Replace the slew in progress by one that advances system time by `adv` ns. -/
def State.startSlew (s : State) (adv : Int) : State :=
  if adv = 0 then
    { s with time.slewRate := 0, time.slewLeft := 0, time.slewing := false }.level 907 false
  else
    { s with time.slewRate := slewOf (s.key (kTime 2)) adv, time.slewLeft := adv.natAbs * 2 ^ 40, time.slewing := true }.level 907 true

/-- What is left of a slew after one sample period. -/
def slewAfter (rate : Int) (left : Nat) : Nat := left - 15625 * rate.natAbs * 2 ^ 40 / (2 ^ 40 + rate).toNat

/-- SLEW_DONE (R215): the offset is removed. -/
def execSlewDone (s : State) : Host.Outcome State Fault Refusal :=
  if s.time.slewing && s.time.slewLeft = 0 then .next (s.startSlew 0) else .next s

/-- `d` rounded to the nearest multiple of 15,625 ns (R215). -/
def roundStep (d : Int) : Int := roundDiv d 15625 * 15625

/-- A step by the advance `adv`, due at the next sample boundary. -/
def State.stepDue (s : State) (adv : Int) (cause origin : Nat) : State := { s with time.due := s.time.due ++ [.step adv cause origin] }

/-- Remove an offset of the selected source (R215): slewed up to STEP_LIMIT, stepped beyond. -/
def State.removeOffset (s : State) (off : Int) (c : Nat) : State :=
  if off.natAbs ≤ s.key (kTime 1) * 1000000 then s.startSlew (-off) else s.stepDue (-off) 1 c

/-! ### Validity and holdover (R212, R219) -/

/-- Time becomes valid. -/
def State.becomeValid (s : State) : State :=
  if s.time.valid then s
  else
    let s := ({ s with time.valid := true, time.stepAt := s.time.index }).level 904 false
    { s with bill.day := if s.bill.day = 0 then s.localDay else s.bill.day }

/-- A free rate in the range of r (log 3). -/
def State.drawRate (s : State) : Int × State := (((s.draw.1 % (2 ^ 31 + 1) : Nat) : Int) - 2 ^ 30, s.draw.2)

/-- The rate of holdover (R219, R205): r follows the trimmed 32.768 kHz oscillator, whose rate is a free value (log 3); with that oscillator in fault, the crystal's
last measured rate. -/
def State.holdRate (s : State) : State :=
  if !s.time.holdover then s
  else if s.time.rtcOscFault then { s with time.rate := s.time.rHat }
  else { s.drawRate.2 with time.rate := s.drawRate.1 }

/-- Enter holdover (R219, R220): the remaining slew is abandoned; `e0` is the error at entry. -/
def State.enterHoldover (s : State) (e0 : Nat) : State :=
  let s := { s with time.holdover := true, time.e0 := e0, time.holdSince := s.time.mono, time.locked := false,
                    time.source := 0, time.lastOffset := 0 }
  (((s.startSlew 0).level 905 true).markIntervals 2).holdRate

/-- Leave holdover. -/
def State.leaveHoldover (s : State) : State :=
  let s := { s with time.holdover := false, time.holdExceeded := false, time.fromRtc := false }
  (s.level 905 false).level 925 false

/-- HOLD_LIMIT_EXCEEDED (R219). -/
def execHoldLimitExceeded (s : State) : Host.Outcome State Fault Refusal :=
  if s.time.holdover && !s.time.holdExceeded && s.key (kTime 0x0B) * 1000 < s.estError then
    .next ({ s with time.holdExceeded := true }.level 925 true)
  else .next s

/-! ### Sources (R209 to R214) -/

def State.src (s : State) (c : Nat) : Src := Tbl.get {} s.time.src c
def State.modSrc (s : State) (c : Nat) (g : Src → Src) : State := { s with time.src := Tbl.upd {} s.time.src c g }

/-- The sources named in SOURCE_ORDER, by priority. -/
def State.srcOrder (s : State) : List Nat := (srcNibbles (s.key (kTime 0))).filter (· != 0)

/-- Can a source serve (R210)? -/
def State.srcUsable (s : State) (c : Nat) : Bool :=
  match c with
  | 1 => s.kiln.role != .root && s.kiln.role != .analyser
  | 4 => vsEnabled s.cfg.active (s.key (kTime 6))
  | _ => true

def State.srcQualified (s : State) (c : Nat) : Bool := (s.src c).qualified && s.srcUsable c

/-- EV0909 to EV0912: named in SOURCE_ORDER and not qualified. -/
def State.srcLevels (s : State) : State :=
  [1, 2, 3, 4].foldl (fun s c => s.level (908 + c) (s.srcOrder.contains c && !s.srcQualified c)) s

/-- The first qualified source in order, 0 when none is. -/
def State.bestSource (s : State) : Nat := ((s.srcOrder.filter s.srcQualified).head?).getD 0

/-- A source is taken, its control loop not yet locked (R209, R213). -/
def State.pickSource (s : State) (c : Nat) (off : Int) : State :=
  { s with time.source := c, time.locked := false, time.lastOffset := off }

/-- The grids of intervals start at their present place when time becomes valid or is set (R242, R243). -/
def State.regrid (s : State) : State := { s with bill.profGrid := s.profGridNow, bill.subGrid := s.subGridNow }

/-- A step that a source has caused and that waits is given up with the source (log 71). -/
def TimeChange.keeps : TimeChange → Bool
  | .step _ 1 _ => false
  | _ => true

def State.dropSourceSteps (s : State) : State := { s with time.due := s.time.due.filter TimeChange.keeps }

/-- Take a source (R212, R215): EV0908; an offset source is compared with STEP_LIMIT, or steps invalid time to its own. -/
def State.takeSource (s : State) (c : Nat) : State :=
  let s := if c = s.time.source then s else s.dropSourceSteps
  if c = s.time.source then s
  else if c = 0 then
    let e := s.estError
    let s := s.pulse 908
    if s.time.valid then s.enterHoldover e
    else ({ s with time.source := 0, time.locked := false, time.lastOffset := 0 }).startSlew 0
  else
    let s := (s.pulse 908).leaveHoldover
    let off := (s.src c).newest
    let s := s.pickSource c (if c = 4 then 0 else off)
    let s := s.modSrc c fun x => { x with lockRun := 0 }
    if c = 4 then s.startSlew 0
    else if !s.time.valid then
      if c = 3 then s else s.stepDue (-off) 1 c
    else s.removeOffset off c

/-- SOURCE_SELECT after a loss or a qualification (R212): a lost source gives way at once; with none, or while time is invalid, the first qualified one is
taken. -/
def State.selectSource (s : State) : State :=
  let s := s.srcLevels
  if s.time.source = 0 ∨ !s.time.valid ∨ !s.srcQualified s.time.source ∨ !s.srcOrder.contains s.time.source then s.takeSource s.bestSource
  else s

/-- SOURCE_PROMOTE (R212): a source earlier in the order, qualified for 10 s without a break. -/
def execSourcePromote (s : State) : Host.Outcome State Fault Refusal :=
  let earlier := s.srcOrder.takeWhile (· != s.time.source)
  match (earlier.filter fun c => s.srcQualified c && decide ((s.src c).since + 10 * second ≤ s.time.mono)).head? with
  | some c => if s.time.source = 0 then .next s else .next (s.takeSource c)
  | none => .next s

/-- A source is lost. -/
def State.loseSource (s : State) (c : Nat) : State := (s.modSrc c fun _ => {}).selectSource

/-- A source is qualified from now on. -/
def State.qualify (s : State) (c : Nat) : State :=
  if (s.src c).qualified then s else (s.modSrc c fun x => { x with qualified := true, since := s.time.mono }).selectSource

/-! ### Offset samples (R213) -/

def insertInt (x : Int) : List Int → List Int
  | [] => [x]
  | y :: t => if x ≤ y then x :: y :: t else y :: insertInt x t
def sortInts (l : List Int) : List Int := l.foldr insertInt []
def medianInt (l : List Int) : Int := (sortInts l).getD (l.length / 2) 0

/-- Does a sample differ from the median of the last 15 by more than 1 µs plus 4 times their median absolute deviation? -/
def outlier (h : List Int) (x : Int) : Bool :=
  let m := medianInt h
  let mad := medianInt (h.map fun y => ((y - m).natAbs : Int))
  decide (1000 + 4 * mad < ((x - m).natAbs : Int))

/-- r and r_hat after a sample: the loop's numbers are not given, so both are free values in the range of r (log 3). -/
def State.steerRate (s : State) : State :=
  let a := s.drawRate
  let b := a.2.drawRate
  { b.2 with time.rate := a.1, time.rHat := b.1 }

/-- An accepted sample: LOCKED, the last offset, the rate loop; one that restarts the history is compared with STEP_LIMIT (R215). -/
def State.acceptSample (s : State) (c : Nat) (off : Int) (restart : Bool) : State :=
  let s := s.modSrc c fun x =>
    { x with newest := off, hist := if restart then [off] else (off :: x.hist).take 15,
             accepted := if restart then 1 else x.accepted + 1, rejects := 0,
             lockRun := if off.natAbs < 1000 then x.lockRun + 1 else 0 }
  if s.time.source = c then
    let locked := if 10000 < off.natAbs then false else s.time.locked || 16 ≤ (s.src c).lockRun
    let s := ({ s with time.lastOffset := off, time.locked := locked }).steerRate
    if restart && s.time.valid then s.removeOffset off c else s
  else s

/-- OFFSET_SAMPLE_ACCEPT (R213): accepted, or rejected with EV0913; the eighth consecutive rejection is accepted instead. -/
def State.offsetSample (s : State) (c : Nat) (off : Int) : State :=
  let x := s.src c
  if 15 ≤ x.accepted && outlier x.hist off then
    if 8 ≤ x.rejects + 1 then s.acceptSample c off true
    else (s.modSrc c fun x => { x with rejects := x.rejects + 1 }).pulse 913
  else s.acceptSample c off false

/-! ### MORTAR (R211) -/

/-- A valid mortar exchange on the upstream port. -/
def State.mortarExchange (s : State) (off : Int) : State :=
  if !s.srcUsable 1 then s
  else
    let s := s.modSrc 1 fun x => { x with good := x.good + 1, last := s.time.mono }
    let s := s.offsetSample 1 off
    if 4 ≤ (s.src 1).good then s.qualify 1 else s

/-- MORTAR_SOURCE_LOSS (R211): no valid exchange for 1 s. -/
def execMortarSourceLoss (s : State) : Host.Outcome State Fault Refusal :=
  let x := s.src 1
  if 0 < x.good && x.last + second ≤ s.time.mono then .next (s.loseSource 1) else .next s

/-! ### PTP (R207, R211) -/

/-- Lexicographic order of data sets, the default BMCA's choice. -/
def betterSet : List Nat → List Nat → Bool
  | a :: t, b :: u => decide (a < b) || (a == b && betterSet t u)
  | _, _ => false

/-- The clock identity in a data set. -/
def setIdentity (l : List Nat) : Nat := l.getD 5 0

/-- A change of TIME_UTC_OFS (R207): logged, EV0922, system time unchanged. -/
def State.setUtcOffset (s : State) (o : Int) (cause : Nat) : State :=
  if s.time.utcOfs = o then s
  else (({ s with time.utcOfs := o }).timeLog cause 0xFF s.time.ns s.time.ns).pulse 922

/-- The clocks heard of after an Announce at `now`. -/
def heard (a : Announce) (now : Nat) (l : List Foreign) : List Foreign :=
  let old := l.find? fun x => setIdentity x.dataset == setIdentity a.dataset
  { dataset := a.dataset, intervalMs := a.intervalMs, last := now, prev := old.map (·.last) }
    :: l.filter fun x => setIdentity x.dataset != setIdentity a.dataset

/-- A clock takes part in the default BMCA with two Announce messages within four intervals (IEEE 1588; log 34). -/
def Foreign.counts (x : Foreign) (now : Nat) : Bool :=
  match x.prev with | some p => decide (now ≤ p + 4 * x.intervalMs * 1000000) | none => false

/-- The best of some data sets. -/
def bestSet : List (List Nat) → Option (List Nat)
  | [] => none
  | x :: t => match bestSet t with
    | some y => if betterSet y x then some y else some x
    | none => some x

/-- Follow a master; a new one begins its exchanges, and a source that is qualified stays so until it is lost (R211). -/
def State.followMaster (s : State) (m : List Nat) : State :=
  let p := s.time.ptp
  if (p.master.map setIdentity) = some (setIdentity m) then { s with time.ptp := { p with master := some m } }
  else
    let s := if (s.src 2).qualified then s else s.modSrc 2 fun x => { x with good := 0 }
    { s with time.ptp := { foreign := p.foreign, master := some m, lastSync := s.time.mono } }

/-- PTP_ANNOUNCE (R211, R207): the default BMCA chooses the master; its currentUtcOffset counts while PTP is selected. -/
def execPtpAnnounce (a : Announce) (s : State) : Host.Outcome State Fault Refusal :=
  if a.domain != s.key (kTime 3) || a.port != s.key (kTime 4) || a.transport != s.key (kTime 5) then .next s
  else
    let l := heard a s.time.mono s.time.ptp.foreign
    let s := { s with time.ptp.foreign := l }
    let now := s.time.mono
    match bestSet ((l.filter fun x => x.counts now).map (·.dataset)) with
    | none => .next s
    | some m =>
      let s := s.followMaster m
      if setIdentity m != setIdentity a.dataset then .next s
      else
        let s := { s with time.ptp := { s.time.ptp with announceMs := a.intervalMs, utcValid := a.utcValid, lastAnnounce := s.time.mono } }
        if s.time.source = 2 && a.utcValid then .next (s.setUtcOffset a.utcOffset 5) else .next s

/-- An origin time for the Sync in progress gives an offset once the path delay is known. -/
def State.ptpOffset (s : State) (t1 : Nat) : State :=
  let s := { s with time.ptp.t1 := some t1 }
  match s.time.ptp.msDelay with
  | some d => s.offsetSample 2 ((s.time.ptp.t2 : Int) - t1 - d)
  | none => s

/-- The PTP source qualifies with a master chosen, 4 Sync received and a sample held (R211, R215). -/
def State.ptpQualify (s : State) : State :=
  if s.time.ptp.master.isSome && 4 ≤ (s.src 2).good && 0 < (s.src 2).accepted then s.qualify 2 else s

/-- Is a message from the chosen master? -/
def State.fromMaster (s : State) (identity : Nat) : Bool :=
  match s.time.ptp.master with | some m => setIdentity m == identity | none => false

/-- PTP_SYNC (R211): stamped; a one-step Sync carries its origin time. -/
def execPtpSync (m : PtpStamp) (s : State) : Host.Outcome State Fault Refusal :=
  if !s.fromMaster m.identity then .next s
  else
    let s := { s with time.ptp := { s.time.ptp with syncSeq := some m.seq, t2 := m.rx, t1 := none, lastSync := s.time.mono } }
    let s := s.modSrc 2 fun x => { x with good := x.good + 1, last := s.time.mono }
    match m.origin with
    | some t => .next (s.ptpOffset t).ptpQualify
    | none => .next s.ptpQualify

/-- PTP_FOLLOW_UP (R211): the origin time of the Sync with its sequence number. -/
def execPtpFollowUp (m : PtpStamp) (s : State) : Host.Outcome State Fault Refusal :=
  if !s.fromMaster m.identity || s.time.ptp.syncSeq != some m.seq then .next s
  else match m.origin with
    | some t => .next (s.ptpOffset t).ptpQualify
    | none => .next s

/-- PTP_DELAY_REQ_SEND (R211). -/
def execPtpDelayReqSend (seq t3 : Nat) (s : State) : Host.Outcome State Fault Refusal :=
  if s.time.ptp.master.isSome then .next { s with time.ptp.reqSeq := some seq, time.ptp.t3 := t3 } else .next s

/-- PTP_DELAY_RESP (R211): the mean path delay ((t2 - t1) + (t4 - t3)) / 2. -/
def execPtpDelayResp (seq t4 : Nat) (s : State) : Host.Outcome State Fault Refusal :=
  let p := s.time.ptp
  match p.t1 with
  | some t1 =>
    if p.reqSeq = some seq then
      .next { s with time.ptp.msDelay := some ((((p.t2 : Int) - t1) + ((t4 : Int) - p.t3)) / 2), time.ptp.reqSeq := none }
    else .next s
  | none => .next s

/-- PTP_ANNOUNCE_TIMEOUT (R211): 3 announce intervals without an Announce, or no Sync for 3 s. -/
def execPtpAnnounceTimeout (s : State) : Host.Outcome State Fault Refusal :=
  let p := s.time.ptp
  if p.master.isSome && (p.lastAnnounce + 3 * p.announceMs * 1000000 ≤ s.time.mono
      || ((s.src 2).qualified && p.lastSync + 3 * second ≤ s.time.mono)) then
    .next ({ s with time.ptp := {} }.loseSource 2)
  else .next s

/-! ### PPS_IN and MAINS (R211, R214, R222) -/

/-- PPS_IN_EDGE (R211, R222): the offset modulo 1 s of a rising edge stamped in ns of system time. -/
def execPpsInEdge (stamp : Nat) (s : State) : Host.Outcome State Fault Refusal :=
  let prev := s.time.ppsIn
  let s := { s with time.ppsIn := some stamp }
  let near := match prev with
    | some q => decide (((stamp : Int) - q - second).natAbs ≤ 100000)
    | none => false
  if !near then .next (if (s.src 3).qualified then s else s.modSrc 3 fun x => { x with good := 1 })
  else
    let s := s.modSrc 3 fun x => { x with good := x.good + 1, last := s.time.mono }
    let t : Int := stamp - s.keyS (kTime 9)
    let s := s.offsetSample 3 (t - roundDiv t second * second)
    if s.time.valid && 4 ≤ (s.src 3).good then .next (s.qualify 3) else .next s

/-- PPS_IN_LOSS (R211): no such edge for 2 s. -/
def execPpsInLoss (s : State) : Host.Outcome State Fault Refusal :=
  let x := s.src 3
  if x.qualified && x.last + 2 * second ≤ s.time.mono then .next (({ s with time.ppsIn := none }).loseSource 3) else .next s

/-- MAINS_QUALIFY (R211): 600 s of real boundaries on MAINS_VSET's reference; the span of R214 begins. -/
def execMainsQualify (s : State) : Host.Outcome State Fault Refusal :=
  if s.srcUsable 4 && 0 < s.time.mainsCycles && s.time.mainsStart + 600 * second ≤ s.time.mono && !(s.src 4).qualified then
    .next ({ s with time.mainsEdges := [] }.qualify 4)
  else .next s

/-- The MAINS source counts anew, and is lost (R211). -/
def State.mainsRestart (s : State) : State :=
  let s := { s with time.mainsCycles := 0, time.mainsStart := s.time.mono, time.mainsEdges := [] }
  if (s.src 4).qualified then s.loseSource 4 else s

/-- The crystal's time at a boundary, in 2^-16 ns. -/
def State.crystalAt (s : State) (b : Bnd) : Nat :=
  let back : Int := ((s.time.index * 2 ^ 17 : Nat) - (b.at_ : Int)) * 15625 * 2 ^ 39
  ((s.time.crystal : Int) - roundDiv back (2 ^ 40 + s.time.rate + s.time.slewRate).toNat).toNat

/-- r_hat of the MAINS source (R214): the span's system time at that rate is its cycles divided by NOMINAL_F (log 71). -/
def mainsRate (edges : List Nat) (nomF : Nat) : Option Int :=
  match edges, edges.getLast? with
  | x :: _, some y =>
    let n := edges.length - 1
    if x ≤ y ∨ n = 0 then none
    else some (max (-(2 ^ 30)) (min (2 ^ 30) (roundDiv ((n * second * 2 ^ 56 : Nat) : Int) (nomF * (x - y)) - 2 ^ 40)))
  | _, _ => none

/-- A boundary of a set as the MAINS source sees it (R211, R214): a synthetic one loses it, a real positive-going one counts and, while the source is selected,
steers the rate. -/
def State.mainsBoundary (s : State) (v : Nat) (b : Bnd) : State :=
  if s.key (kTime 6) != v then s
  else if b.synth then s.mainsRestart
  else
    let s := { s with time.mainsStart := if s.time.mainsCycles = 0 then s.time.mono else s.time.mainsStart,
                      time.mainsCycles := s.time.mainsCycles + (if b.rising then 1 else 0) }
    if !b.rising || !(s.src 4).qualified then s
    else
      let x := s.crystalAt b
      let l := x :: s.time.mainsEdges.takeWhile fun y => decide (x ≤ y + s.key (kTime 7) * second * 2 ^ 16)
      let s := { s with time.mainsEdges := l }
      match mainsRate l (vsNomF s.cfg.active v) with
      | some r => if s.time.source = 4 then { s with time.rate := r, time.rHat := r } else s
      | none => s

/-! ### PPS_OUT (R221) -/

/-- PPS_OUT_PULSE: a whole second of valid time, at least 0.5 s after the previous rising edge. -/
def execPpsOutPulse (s : State) : Host.Outcome State Fault Refusal :=
  let far := match s.time.ppsRise with | some t => decide (t + 500000000 ≤ s.time.mono) | none => true
  if s.time.valid && !s.fault.f4 && !s.time.ppsHigh && (s.nowNs + 10) % second ≤ 20 && far then
    .next { s with time.ppsHigh := true, time.ppsRise := some s.time.mono, pins.ppsOut := true }
  else .next s

/-- PPS_OUT_WIDTH_END: the pulse has had its full width. -/
def execPpsOutWidthEnd (s : State) : Host.Outcome State Fault Refusal :=
  match s.time.ppsRise with
  | some t =>
    if s.time.ppsHigh && t + s.key (kTime 8) * 1000000 ≤ s.time.mono then
      .next { s with time.ppsHigh := false, pins.ppsOut := false }
    else .next s
  | none => .next s

/-! ### Leap seconds (R207) -/

/-- Schedule or cancel a leap second at the end of the current UTC day. -/
def State.scheduleLeap (s : State) (l : Nat) : State :=
  ({ s with time.leap := l, time.leapDay := s.utcNs / (86400 * second) }).level 921 (l != 0)

/-- LEAP_SECOND_APPLY (R207): at the end of the UTC day the offset changes by the leap second; log cause LEAP. -/
def execLeapSecondApply (s : State) : Host.Outcome State Fault Refusal :=
  let dayEnd := (s.time.leapDay + 1) * 86400
  let t := s.utcNs / second
  let due := if s.time.leap = 1 then dayEnd ≤ t else dayEnd ≤ t + 1
  if s.time.leap != 0 && s.time.valid && due then
    let o := if s.time.leap = 1 then s.time.utcOfs + 1 else s.time.utcOfs - 1
    .next (({ s with time.leap := 0 }.level 921 false).setUtcOffset o 6)
  else .next s

/-! ### Crystals (R205) -/

/-- XTAL_FAULT: no 25 MHz edge for 4 µs; EV0920, F1. -/
def execXtalFault (s : State) : Host.Outcome State Fault Refusal :=
  if s.time.xtalFault then .next s else .next (({ s with time.xtalFault := true }.level 920 true).f1 0)

/-- XTAL_RECOVER: 1 s of correct edges. -/
def execXtalRecover (s : State) : Host.Outcome State Fault Refusal :=
  if s.time.xtalFault then .next ({ s with time.xtalFault := false }.level 920 false) else .next s

/-- RTC_OSC_FAULT: the 32.768 kHz oscillator deviates or stops; EV0919, F1; holdover keeps the crystal's last measured rate. -/
def execRtcOscFault (s : State) : Host.Outcome State Fault Refusal :=
  if s.time.rtcOscFault then .next s else .next ((({ s with time.rtcOscFault := true }.level 919 true).f1 0).holdRate)

/-! ### The opcodes (R208, R217, R218) -/

/-- TIME_GET (R208). -/
def timeGetBody : Body := fixedBody 0 [] fun c _ s =>
  let out := leBytes 8 s.nowNs ++ leBytes 8 s.time.index ++ leBytes 4 (s.timeStatus (Tbl.get false s.time.stepped c.bay))
    ++ leInt 2 s.time.utcOfs ++ zeros 2 ++ leBytes 4 (satU 32 s.estError) ++ leInt 4 s.time.rate
    ++ leInt 8 (if s.time.holdover then 0 else s.time.lastOffset)
  ({ s with time.stepped := Tbl.set false s.time.stepped c.bay false }, .reply (Res.ok out))
def execTimeGet (p : Packet) (s : State) : Host.Outcome State Fault Refusal := .next (command 0x0602 timeGetBody p s)

def TimeRec.bytes (r : TimeRec) : Bytes :=
  leBytes 4 r.seq ++ leBytes 1 r.cause ++ leBytes 1 r.origin ++ zeros 2 ++ leBytes 8 r.index ++ leBytes 8 r.before ++ leBytes 8 r.after

/-- TIME_LOG_READ (R217, R412). -/
def timeLogReadBody : Body := fixedBody 8 [(6, 2)] (readBody fun _ p s =>
  let n := fld p.params 4 2
  if n = 0 ∨ 1024 < n then Res.field 36
  else Res.ok (seqResult (·.seq) TimeRec.bytes s.time.logSeq (fld p.params 0 4) n s.time.log))
def execTimeLogRead (p : Packet) (s : State) : Host.Outcome State Fault Refusal := .next (command 0x0610 timeLogReadBody p s)

/-- 2583-12-31 23:59:59 TAI in ns (R218). -/
def timeMax : Nat := (dayOfDate ⟨2583, 12, 31⟩ * 86400 + 86399) * second

def timeSetResult (applied index before after : Nat) : Bytes :=
  leBytes 1 applied ++ zeros 7 ++ leBytes 8 index ++ leBytes 8 before ++ leBytes 8 after

/-- With no source selected, valid time is holdover (R219); the error of a time set by hand is not stated (log 3). -/
def State.holdAfterSet (s : State) (wasValid : Bool) : State :=
  if wasValid then s else let (e, s) := s.draw; s.enterHoldover (e % 2 ^ 32)

/-- A step at the present boundary (R215, R218, R226), by the rounded advance, its remainder slewed.  Invalid time becomes valid by it; the interval grids
restart where time is set. -/
def State.applyStep (s : State) (adv : Int) (cause origin : Nat) : State :=
  let was := s.time.valid
  let d := roundStep adv
  let s := (s.timeStep d (if was then cause else 0) (if was || cause = 1 then origin else 0x80 + origin)).becomeValid
  let s := if was && cause != 2 && cause != 4 then s else s.regrid
  let s := if s.time.source = 0 then s.holdAfterSet was else s
  s.startSlew (adv - d)

/-- TIME_SET at its boundary (R218): the change, and the result. -/
def timeSetApply (p : Packet) (s : State) : State × Res :=
  let b := p.params
  let before := s.time.ns
  let stepped (adv : Int) (cause : Nat) : State × Res :=
    let s := s.applyStep adv cause p.bay
    (s, Res.ok (timeSetResult 1 s.time.index before s.time.ns))
  match fld b 0 1 with
  | 0 => stepped ((fld b 8 8 : Int) - before) 2
  | 1 =>
    let sh := sfld b 8 8
    if sh.natAbs ≤ s.key (kBill 4) * second then (s.startSlew sh, Res.ok (timeSetResult 0 s.time.index before before))
    else stepped sh 3
  | _ => ((s.setUtcOffset (sfld b 2 2) 5).scheduleLeap (fld b 1 1), Res.ok (timeSetResult 2 s.time.index before before))

/-- One change that waited for this boundary. -/
def State.timeChange (s : State) (c : TimeChange) : State :=
  match c with
  | .step adv cause origin => s.applyStep adv cause origin
  | .set q =>
    match s.busyOf q with
    | some f => if f.kind = .timeSet then let r := timeSetApply f.entry.pkt s; r.1.finishHeld q r.2 else s
    | none => s

/-- The changes of system time that are due at a sample boundary, in their order, before all else that falls on it (R235). -/
def State.timeChanges (s : State) : State := s.time.due.foldl State.timeChange { s with time.due := [] }

/-- TIME_SET (R218): checks; it acts at the first sample boundary after it begins. -/
def timeSetBody : Body := fixedBody 16 [(4, 4)] fun _ p s =>
  let b := p.params
  let mode := fld b 0 1
  let leap := fld b 1 1
  let v := fld b 8 8
  let sh := sfld b 8 8
  if 2 < mode then (s, .reply (Res.field 32))
  else if (mode != 2 && leap != 0) || 2 < leap then (s, .reply (Res.field 33))
  else if mode != 2 && fld b 2 2 != 0 then (s, .reply (Res.field 34))
  else if mode = 2 && v != 0 then (s, .reply (Res.field 40))
  else if (mode != 2 && s.time.source != 0) || (mode = 2 && s.time.source = 2 && s.time.ptp.utcValid) then
    (s, .reply (Res.err stDenied subSourceActive))
  else if mode = 1 && !s.time.valid then (s, .reply (Res.err stNotReady 0))
  else if mode = 0 && timeMax < v then (s, .reply (Res.field 40))
  else if mode = 1 && (decide ((s.nowNs : Int) + sh < 0) || decide ((timeMax : Int) < s.nowNs + sh)) then (s, .reply (Res.field 40))
  else ({ s with time.due := s.time.due ++ [.set (queueId p.bay p.queue)] }, .hold .timeSet)
def execTimeSet (p : Packet) (s : State) : Host.Outcome State Fault Refusal := .next (command 0x0601 timeSetBody p s)

/-- One 250 MHz tick of the time base (R206), 4 (1 + r) ns with 32 fraction bits: once sample index 0 is placed it stays before the next boundary, which
SAMPLE_BOUNDARY gives (log 17). -/
def State.clockTick (s : State) : State :=
  if !s.kiln.ph.started then s
  else
    let n := s.time.sub + ((2 ^ 40 + s.time.rate + s.time.slewRate).toNat) / 2 ^ 6
    { s with time.sub := if s.time.indexOn then min n (15625 * 2 ^ 32 - 1) else n }

end Sys2Proof.Machine
end

