-- ==== Sys2Proof/Machine/Rtc.lean ====
section
/-! DEFINITION. The real-time clock and the backup domain (08 R223 to R232). -/

namespace Sys2Proof.Machine

/-! ### The counting registers -/

/-- UTC seconds since 2000-01-01 as the registers read. -/
def Rtc.toSec (r : Rtc) : Nat :=
  let d : Date := ⟨ofBcd r.cent * 100 + ofBcd r.year, ofBcd r.month, ofBcd r.day⟩
  dayOfDate d * 86400 + ofBcd r.hour * 3600 + ofBcd r.min * 60 + ofBcd r.sec

/-- Do the registers hold a valid date no later than 2583-12-31 23:59:59 (R223, R226)? -/
def Rtc.dateOk (r : Rtc) : Bool :=
  [r.sec, r.min, r.hour, r.day, r.month, r.year, r.cent].all bcdValid && ofBcd r.sec ≤ 59 && ofBcd r.min ≤ 59
    && ofBcd r.hour ≤ 23 && 20 ≤ ofBcd r.cent && ofBcd r.cent ≤ 25
    && (Date.mk (ofBcd r.cent * 100 + ofBcd r.year) (ofBcd r.month) (ofBcd r.day)).ok
    && ofBcd r.cent * 100 + ofBcd r.year ≤ 2583

/-- WDAY is derived from the date: 1 Monday to 7 Sunday. -/
def Rtc.setWday (r : Rtc) : Rtc :=
  { r with wday := weekday (dayOfDate ⟨ofBcd r.cent * 100 + ofBcd r.year, ofBcd r.month, ofBcd r.day⟩) + 1 }

/-- The registers for UTC seconds. -/
def Rtc.load (r : Rtc) (t : Nat) : Rtc :=
  let d := dateOfDay (t / 86400)
  { r with sec := bcdOf (t % 60), min := bcdOf (t / 60 % 60), hour := bcdOf (t / 3600 % 24), day := bcdOf d.day,
           month := bcdOf d.month, year := bcdOf (d.year % 100), cent := bcdOf (d.year / 100),
           wday := weekday (t / 86400) + 1 }

/-- One field of an alarm: masked, or equal to VALUE. -/
def alarmField (a v : Nat) : Bool := a.testBit 7 || a % 128 == v

/-- Does an alarm match the registers (R228)? -/
def Alarm.hit (a : Alarm) (r : Rtc) : Bool :=
  alarmField a.sec r.sec && alarmField a.min r.min && alarmField a.hour r.hour && alarmField a.wday r.wday
    && alarmField a.day r.day && alarmField a.month r.month

/-- Alarms after a count increment: a match sets ALMn; on VBAT it waits for K6. -/
def State.alarms (s : State) : State :=
  let r := s.rtc
  let h0 := r.alm0En && r.a0.hit r
  let h1 := r.alm1En && r.a1.hit r
  let s := { s with rtc.alm0 := r.alm0 || h0, rtc.alm1 := r.alm1 || h1,
                    rtc.almOnBat0 := r.almOnBat0 || (h0 && r.onBattery), rtc.almOnBat1 := r.almOnBat1 || (h1 && r.onBattery) }
  let s := if h0 && !r.onBattery then s.pulse 914 else s
  if h1 && !r.onBattery then s.pulse 915 else s

/-- RTC_COUNT_TICK (R205, R207, R223, R226, R228): one second, counted from the 25 MHz reference while the oscillator is in fault and VIN is present; an inserted
leap second reads 0x60, a deleted one is skipped.  Holdover follows the oscillator (R219). -/
def execRtcCountTick (s : State) : Host.Outcome State Fault Refusal :=
  let r := s.rtc
  if r.halted || (s.time.rtcOscFault && r.onBattery) then .next s
  else
    let t := r.toSec
    let lastSec := t % 86400 == 86399 && r.sec == 0x59
    let leapHere := s.time.leap != 0 && t / 86400 == s.time.leapDay
    let r' :=
      if r.sec = 0x60 then r.load t
      else if leapHere && s.time.leap = 1 && lastSec then { r with sec := 0x60 }
      else if leapHere && s.time.leap = 2 && t % 86400 == 86398 then r.load (t + 2)
      else r.load (t + 1)
    .next ({ s with rtc := { r' with prescaler := 0 } }.alarms.holdRate)

/-- May counting registers and HALT be written now (R226)? -/
def State.rtcHostWrite (s : State) : Bool := s.keyOn (kTime 0x0C) && s.time.source == 0

/-- RTC_SECOND_COMPARE (R225): at each whole second of valid time a difference is noted, and at the next the RTC is rewritten
from system time, EV0923; not while the host holds the RTC halted (R226). -/
def execRtcSecondCompare (s : State) : Host.Outcome State Fault Refusal :=
  if !(s.time.valid && s.time.ns % second = 0) || (s.rtc.halted && s.rtcHostWrite) then .next s
  else
    let t := s.utcNs / second
    if s.rtc.rewrite then
      .next ({ s with rtc := { s.rtc.load t with rtcValid := true, halt := false, halted := false, prescaler := 0, rewrite := false } }.pulse 923)
    else if s.rtc.toSec = t && s.rtc.rtcValid && s.rtc.sec != 0x60 then .next s
    else if s.rtc.sec = 0x60 then .next s
    else .next { s with rtc.rewrite := true }

/-! ### Trim (R229) -/

/-- RTC_TRIM_LEARN: the oscillator measured against system time over 1,024 s, in 1/64 ppm. -/
def execRtcTrimLearn (measured : Int) (s : State) : Host.Outcome State Fault Refusal :=
  let mainsFull := s.time.source = 4 && (s.src 4).since + s.key (kTime 7) * second ≤ s.time.mono
  if s.keyOn (kTime 0x0A) && (s.time.locked || mainsFull) && 2 ≤ (measured - s.rtc.trim).natAbs then
    .next ({ s with rtc.trim := satS 16 measured }.pulse 924)
  else .next s

/-! ### Backup domain (R230, R231) -/

/-- BACKUP_TO_VBAT (R230). -/
def execBackupToVbat (vmain vbat : Nat) (s : State) : Host.Outcome State Fault Refusal :=
  if !s.rtc.onBattery && (vmain < vbat || vmain < 2600) then
    .next { s with rtc := { s.rtc with onBattery := true, ranOnBattery := true, batPulse := true, vmain := vmain } }
  else .next s

/-- BACKUP_TO_VMAIN (R230). -/
def execBackupToVmain (vmain vbat : Nat) (s : State) : Host.Outcome State Fault Refusal :=
  if s.rtc.onBattery && max vbat 2600 + 100 < vmain then
    .next { s with rtc := { s.rtc with onBattery := false, vmain := vmain } }
  else .next s

/-- VBAT_CHECK (R230): the mean of input 19 over a check, in mV; EV0918 below 2.2 V. -/
def execVbatCheck (meanMv : Nat) (s : State) : Host.Outcome State Fault Refusal :=
  .next (s.level 918 (decide (meanMv < 2200)))

/-- BACKUP_POR (R231): below 1.5 V every field of the backup domain takes its reset value; EV0917 pulses in K6. -/
def execBackupPor (mv : Nat) (s : State) : Host.Outcome State Fault Refusal :=
  if mv < 1500 then
    .next { s with rtc := { bporPulse := true, onBattery := s.rtc.onBattery, vmain := s.rtc.vmain }, time.utcOfs := 0,
                     power.reverseSeen := false }
  else .next s

/-! ### Register-window writes (R224, R226 to R229, R539) -/

/-- Does a window function reach the RTC: PF0, or the SPI port while HOST.SPI_BAY = 1 (R539)? -/
def State.rtcFn (s : State) (f : Nat) : Bool := f == 0 || (f == 7 && s.key (kUdp 2) == 1)

def State.rtcReject (s : State) : State := { s with rtc.writeRej := true }

/-- RTC_HALT: a write of RTC_CTL.HALT = 1. -/
def State.rtcHalt (s : State) (f : Nat) : State :=
  if s.rtcFn f && s.rtcHostWrite then { s with rtc.halt := true, rtc.halted := true, rtc.rtcValid := false } else s.rtcReject

/-- RTC_RELEASE: a write of HALT = 0 while counting is stopped checks the date; a valid one starts counting, and system time is set to it at the next
sample boundary. -/
def State.rtcRelease (s : State) (f : Nat) : State :=
  if !(s.rtcFn f && s.rtcHostWrite) then s.rtcReject
  else if !s.rtc.halted then s
  else if !s.rtc.dateOk then { s with rtc.halt := false, rtc.badDate := true }
  else
    let s := { s with rtc := { s.rtc.setWday with halt := false, halted := false, rtcValid := true, prescaler := 0, rewrite := false } }
    let v : Int := ((s.rtc.toSec : Int) + s.time.utcOfs) * second
    s.stepDue (v - s.nowNs) 4 (if f = 7 then s.key (kUdp 2) else f + 1)

/-- RTC_COUNTER_WRITE: a BCD register, while HALTED. -/
def State.rtcCounterWrite (s : State) (f reg : Nat) (v : BitVec 32) : State :=
  if !(s.rtcFn f && s.rtcHostWrite) then s.rtcReject
  else if !s.rtc.halted then s
  else
    let b := v.toNat % 256
    let r := s.rtc
    { s with rtc := match reg with
      | 0 => { r with sec := b } | 1 => { r with min := b } | 2 => { r with hour := b } | 4 => { r with day := b }
      | 5 => { r with month := b } | 6 => { r with year := b } | 7 => { r with cent := b } | _ => r }

/-- RTC_TRIM_WRITE (R229). -/
def State.rtcTrimWrite (s : State) (f : Nat) (v : BitVec 32) : State :=
  if s.rtcFn f && !s.keyOn (kTime 0x0A) && s.keyOn (kTime 0x0C) then { s with rtc.trim := signedOf 16 v.toNat } else s.rtcReject

/-- RTC_SEC_READ (R224): latches all eight registers for the reader. -/
def State.rtcLatch (s : State) (f : Nat) : State :=
  let r := s.rtc
  s.modWin f fun w => { w with rtc := [r.sec, r.min, r.hour, r.wday, r.day, r.month, r.year, r.cent] }

/-- RTC_STATUS (R227). -/
def Rtc.statusWord (r : Rtc) : Nat :=
  bitsNat [r.rtcValid, r.halted, r.badDate, r.writeRej, r.onBattery, r.ranOnBattery, r.bpor, r.alm0, r.alm1]

/-- RTC_CTL (R227). -/
def Rtc.ctlWord (r : Rtc) : Nat := bitsNat [r.halt, r.alm0En, r.alm1En]

def Alarm.list (a : Alarm) : List Nat := [a.sec, a.min, a.hour, a.wday, a.day, a.month]

/-- Write one register of an alarm: VALUE and MASK. -/
def Alarm.put (a : Alarm) (i v : Nat) : Alarm :=
  let b := v % 256
  match i with
  | 0 => { a with sec := b } | 1 => { a with min := b } | 2 => { a with hour := b } | 3 => { a with wday := b }
  | 4 => { a with day := b } | 5 => { a with month := b } | _ => a

end Sys2Proof.Machine
end

