-- ==== Sys2Proof/Machine/AuxConv.lean ====
section
/-! DEFINITION. Auxiliary converters and self-calibration (07): corrected codes (R180), the schedule (R182), slots and trackers
(R183 to R186), window comparators (R188), urgent requests (R189), self-calibration (R191), device calibration (R192 to R197),
supervision (R198). -/

namespace Sys2Proof.Machine

def State.slot (s : State) (i : Nat) : Slot := Tbl.get {} s.aux.slot i
def State.modSlot (s : State) (i : Nat) (g : Slot → Slot) : State := { s with aux.slot := Tbl.upd {} s.aux.slot i g }
def State.wcomp (s : State) (w : Nat) : WinComp := Tbl.get {} s.aux.wc w
def State.modWcomp (s : State) (w : Nat) (g : WinComp → WinComp) : State := { s with aux.wc := Tbl.upd {} s.aux.wc w g }
def State.convFault (s : State) (k : Nat) : Bool := Tbl.get false s.aux.fault k

/-! ### Corrected codes (R180) -/

def Factors.ofs (f : Factors) (k : Nat) : Int := if k = 0 then f.ofs0 else f.ofs1
def Factors.gain (f : Factors) (k : Nat) : Nat := if k = 0 then f.gain0 else f.gain1

/-- Is an input a die sensor? -/
def isDie (input : Nat) : Bool := 15 ≤ input && input ≤ 18

/-- The corrected code of a raw result of converter `k` and whether it was clamped; `gref` is G_ref in 2^-30. -/
def corrected (f : Factors) (k input gref : Nat) (raw : Int) : Int × Bool :=
  let n := (raw * 16 - f.ofs k) * f.gain k
  if isDie input then (satS 16 (Config.dieCurve (input - 15) n), false)
  else
    let c := roundDiv (n * gref) (2 ^ 64)
    let l := max (-32768) (min 32767 c)
    (l, l != c)

/-- G_ref of a slot or request: 1 with RATIO = 1. -/
def State.gref (s : State) (ratio : Bool) : Nat := if ratio then 2 ^ 30 else s.aux.fac.ref

/-! ### The schedule (R182) -/

def slotCfg (ks : KeySet) (i : Nat) : SlotCfg :=
  { run := ks.get (kSlot i 0) == 1, input := ks.get (kSlot i 1), conv := ks.get (kSlot i 2), weight := ks.get (kSlot i 3),
    period := ks.get (kSlot i 4), ratio := ks.get (kSlot i 5) == 1 }

/-- Does a slot convert on converter `k`? -/
def SlotCfg.uses (c : SlotCfg) (k : Nat) : Bool := c.conv == 2 || c.conv == k

/-- The first position from `p` on, wrapping, that no entry takes. -/
def freeFrom (taken : List (Nat × Nat)) (p : Nat) : Nat :=
  (((List.range 64).map fun i => (p + i) % 64).find? fun x => taken.all (·.1 != x)).getD p

/-- Positions of a slot added to a schedule, for j = 0 to WEIGHT - 1. -/
def placeSlot (taken : List (Nat × Nat)) (i weight : Nat) : List (Nat × Nat) :=
  (List.range weight).foldl (fun t j => t ++ [(freeFrom t (j * 64 / weight), i)]) taken

/-- The positions of converter `k` with the slots that hold them. -/
def schedule (ks : KeySet) (k : Nat) : List (Nat × Nat) :=
  ((List.range 16).filter fun i => (slotCfg ks i).run && (slotCfg ks i).uses k).foldl
    (fun t i => placeSlot t i (slotCfg ks i).weight) []

/-- The slot whose conversions device conversions of `k` displace: with fewer than 8 positions free, the highest-numbered. -/
def displaced (ks : KeySet) (k : Nat) : Option Nat :=
  if 56 < (schedule ks k).length then
    ((List.range 16).filter fun i => (slotCfg ks i).run && (slotCfg ks i).uses k).getLast?
  else none

/-- A converter that has left the schedule for self-calibration (R191). -/
def State.convOut (s : State) (k : Nat) : Bool :=
  s.aux.selfStep == 3 || (k == 0 && s.aux.selfStep == 1) || (k == 1 && s.aux.selfStep == 2)

def bitInvalid : BitVec 16 := 0x01
def bitClip : BitVec 16 := 0x02
def bitCalGap : BitVec 16 := 0x04
def bitUrgentGap : BitVec 16 := 0x08
def bitCalStep : BitVec 16 := 0x10
def bitSwapCut : BitVec 16 := 0x20
def bitConvFault : BitVec 16 := 0x40

/-- The reference step in progress takes device positions of converter `k` (R194, R195). -/
def State.refUses (s : State) (k : Nat) : Bool :=
  match s.aux.step with
  | some .rprec => true
  | some (.stat _) => k == 0
  | none => false

/-- The burst in progress on converter `k`. -/
def State.burst (s : State) (k : Nat) : Option Urg := (Tbl.get [] s.aux.urgent k).head?.filter (·.start.isSome)

/-- Does a burst skip a position of slot `i`: those that pass after the one it aborted? -/
def burstSkips (ks : KeySet) (k i : Nat) (u : Urg) : Bool :=
  let p0 := ((u.start.getD 0) + Config.framePhase) % 12800 / 200
  (schedule ks k).any fun e => e.2 == i && decide ((e.1 + 63 - p0) % 64 < u.count)

/-- The FLAGS that conditions in force give the period of a slot: a converter it uses is out or in fault, displaced
conversions, a burst that skips its positions. -/
def State.gapNow (s : State) (i : Nat) (c : SlotCfg) : BitVec 16 :=
  [0, 1].foldl (fun f k =>
    if c.uses k then
      f ||| (if s.convOut k || (s.refUses k && displaced s.cfg.active k == some i) then bitCalGap else 0)
        ||| (if (s.burst k).any (burstSkips s.cfg.active k i) then bitUrgentGap else 0)
        ||| (if s.convFault k then bitConvFault else 0)
    else f) 0

/-- Gather the conditions now in force into the periods in progress. -/
def State.markGaps (s : State) : State :=
  (List.range 16).foldl (fun s i =>
    if (s.slot i).cfg.run then s.modSlot i fun x => { x with acc := x.acc ||| s.gapNow i x.cfg } else s) s

/-- Mark the periods in progress of the slots a test picks. -/
def State.markSlots (s : State) (bits : BitVec 16) (sel : Nat → SlotCfg → Bool) : State :=
  (List.range 16).foldl (fun s i =>
    if (s.slot i).cfg.run && sel i (s.slot i).cfg then s.modSlot i fun x => { x with acc := x.acc ||| bits } else s) s

/-- A conversion of the statistics step is displaced or skipped within a span of sample indexes (R195). -/
def State.statTouch (s : State) (a b : Nat) : State :=
  match s.aux.step with
  | some (.stat _) => { s with aux.touches := (a, b) :: s.aux.touches }
  | _ => s

/-- Single device conversions displace one of the highest slot of `k` (R182). -/
def State.displaceOne (s : State) (k : Nat) : State :=
  match displaced s.cfg.active k with
  | some d =>
    let s := s.markSlots bitCalGap fun i _ => i == d
    if k = 0 then s.statTouch s.time.index s.time.index else s
  | none => s

/-- Put new factors in force: periods whose slots use a changed one carry CAL_STEP (R200). -/
def State.setFactors (s : State) (f : Factors) : State :=
  let o := s.aux.fac
  ({ s with aux.fac := f }).markSlots bitCalStep fun _ c =>
    ((c.uses 0 && (o.ofs0 != f.ofs0 || o.gain0 != f.gain0)) || (c.uses 1 && (o.ofs1 != f.ofs1 || o.gain1 != f.gain1))
      || (c.conv == 2 && o.skew != f.skew) || (!c.ratio && !isDie c.input && o.ref != f.ref))

/-! ### Conversions, comparators (R184, R185, R188) -/

/-- What a comparator makes of a code: alarming, releasing. -/
def judgeCode (mode : Nat) (low high : Int) (hyst : Nat) (c : Int) : Bool × Bool :=
  if mode = 0 then
    (decide (c < low ∨ high < c), decide (low + hyst ≤ c ∧ c ≤ high - hyst))
  else
    (decide (low ≤ c ∧ c ≤ high), decide (c < max (-32768) (low - hyst) ∨ min 32767 (high + hyst) < c))

/-- The level of a comparator after the changes that wait. -/
def WinComp.level (asserted : Bool) (x : WinComp) : Bool := (x.changes.getLast?.map (·.1)).getD asserted

/-- A comparator judges one conversion: runs, and a change with the stamp of the conversion that decides it. -/
def compStep (persist : Nat) (asserted : Bool) (stamp : Nat × Nat) (j : Bool × Bool) (x : WinComp) : WinComp :=
  let a := if j.1 then x.alarmRun + 1 else 0
  let r := if j.2 && !j.1 then x.relRun + 1 else 0
  let on := x.level asserted
  { alarmRun := a, relRun := r,
    changes := if !on && decide (persist ≤ a) then x.changes ++ [(true, stamp)]
      else if on && decide (persist ≤ r) then x.changes ++ [(false, stamp)] else x.changes }

/-- Every enabled comparator of a slot judges a conversion. -/
def State.judgeSlot (s : State) (i : Nat) (c : Code) : State :=
  let ks := s.cfg.active
  ((List.range 8).filter fun w => ks.get (kWc w 0) == 1 && ks.get (kWc w 1) == i).foldl (fun s w =>
    let j := judgeCode (ks.get (kWc w 4)) (ks.getS (kWc w 2)) (ks.getS (kWc w 3)) (ks.get (kWc w 6)) c.c
    s.modWcomp w (compStep (ks.get (kWc w 5)) (s.asserted (672 + w)) (s.time.index, s.time.ns - (s.time.mono - c.at_)) j)) s

/-- The end of a slot's period in progress: its length, or the swap that cuts it. -/
def Slot.ends (x : Slot) : Nat :=
  let e := x.start + x.cfg.period * 12800
  match x.cutAt with | some t => min t e | none => e

/-- Add a code to the sums of a period. -/
def Slot.add (x : Slot) (c : Code) : Slot :=
  { x with count := x.count + 1, sum := x.sum + c.c, sumsq := x.sumsq + (c.c * c.c).toNat,
           acc := if c.clip then x.acc ||| bitClip else x.acc }

/-- A code enters its period, or waits for the next one. -/
def Slot.take (x : Slot) (c : Code) : Slot := if c.at_ ≤ x.ends then x.add c else { x with later := x.later ++ [c] }

/-- Does a conversion of converter `k` that ended at `at_` fall into a burst, whose positions are skipped (R189)? -/
def State.inBurst (s : State) (k at_ : Nat) : Bool := (Tbl.get [] s.aux.bursts k).any fun b => decide (b.1 < at_) && decide (at_ ≤ b.2)

/-- A conversion of a slot: its period, its tracker, its comparators. -/
def conversion (s : State) (v : Conversion) : State :=
  let i := v.slot.val
  let c := if (s.slot i).cutAt.isSome then slotCfg s.cfg.active i else (s.slot i).cfg
  if c.run && c.uses v.k && s.ready 9 && !s.convOut v.k && !s.inBurst v.k (s.time.mono - v.ago) then
    let r := corrected s.aux.fac v.k c.input (s.gref c.ratio) v.raw
    let code : Code := ⟨s.time.mono - v.ago, r.1, r.2⟩
    (s.modSlot i fun x => { x.take code with min_ := min x.min_ code.c, max_ := max x.max_ code.c }).judgeSlot i code
  else s

/-- The oldest change of a comparator that waits takes effect, when it is to the level named. -/
def State.compChange (s : State) (w : Nat) (on : Bool) : State :=
  match (s.wcomp w).changes with
  | (v, t) :: l => if v = on then (s.modWcomp w fun x => { x with changes := l }).levelAt t.1 t.2 (672 + w) on else s
  | [] => s

/-- COMPARATOR_ALARM (R188): the level is stamped with the time of the deciding conversion. -/
def execComparatorAlarm (w : Fin 8) (s : State) : Host.Outcome State Fault Refusal := .next (s.compChange w true)

/-- COMPARATOR_RELEASE (R188). -/
def execComparatorRelease (w : Fin 8) (s : State) : Host.Outcome State Fault Refusal := .next (s.compChange w false)

/-- Close the period in progress at its end: the result is replaced, the next period takes the codes that wait. -/
def Slot.close (x : Slot) (next : SlotCfg) (endNs : Nat) (mean : Int) (rms : Nat) (gaps : BitVec 16) : Slot :=
  let e := x.ends
  let cut := x.cutAt == some e
  let f := x.acc ||| (if x.count = 0 then bitInvalid else 0) ||| (if cut then bitSwapCut else 0)
  let y : Slot :=
    { x with endTime := endNs, rCount := x.count, mean := mean, rms := rms, rSum := x.sum, rSumsq := x.sumsq, flags := f,
             periods := (x.periods + 1) % 2 ^ 64, cfg := if cut then next else x.cfg, cutAt := if cut then none else x.cutAt,
             start := e, count := 0, sum := 0, sumsq := 0, acc := gaps, later := [] }
  x.later.foldl Slot.take y

/-- The mean and RMS of a period, rounded to nearest; with no conversion the spec states none (log 3). -/
def State.slotStats (s : State) (x : Slot) : (Int × Nat) × State :=
  if x.count = 0 then
    let a := s.drawInt 16
    let b := a.2.draw
    ((a.1, b.1 % 65536), b.2)
  else ((roundDiv x.sum x.count, sqrtRatio x.sumsq x.count), s)

/-- SLOT_PERIOD_END (R184): due at the period's end or at the swap that cuts it; EV(680 + s) when it closes with CLIP; a channel
that names the slot gets the mean (R47). -/
def execSlotPeriodEnd (i : Fin 16) (s : State) : Host.Outcome State Fault Refusal :=
  let x := s.slot i
  if !(x.cfg.run && s.ready 9 && x.ends ≤ s.time.mono) then .next s
  else
    let r := s.slotStats x
    let s := r.2
    let next := if x.cutAt == some x.ends then slotCfg s.cfg.active i else x.cfg
    let y := x.close next (s.time.ns - (s.time.mono - x.ends)) r.1.1 r.1.2 (s.gapNow i next)
    let s := s.modSlot i fun _ => y
    let s := if y.flags &&& bitClip != 0 then s.pulse (680 + i) else s
    .next (s.tcMean i (if y.flags &&& (bitInvalid ||| bitConvFault) != 0 then none else some y.mean))

/-- The 48-byte entry of ACB_READ (R186). -/
def Slot.bytes (x : Slot) : Bytes :=
  leBytes 8 x.endTime ++ leBytes 4 x.rCount ++ leInt 2 x.mean ++ leBytes 2 x.rms ++ leInt 8 x.rSum ++ leBytes 8 x.rSumsq
    ++ leInt 2 x.min_ ++ leInt 2 x.max_ ++ leBytes 2 x.flags.toNat ++ zeros 2 ++ leBytes 8 x.periods

/-- System time of the latest frame boundary (R182, R186). -/
def State.frameNs (s : State) : Nat := s.time.ns - (s.time.mono + Config.framePhase) % 12800

/-- ACB_READ (R186): latched at a frame boundary. -/
def bodyAcbRead : Body := fixedBody 8 [(3, 5)] fun _ p s =>
  if 1 < fld p.params 2 1 then (s, .reply (Res.field 34))
  else
    let l := maskList 16 (fld p.params 0 2)
    let deg := l.any fun i => [0, 1].any fun k => (s.slot i).cfg.uses k && s.convFault k
    let s' := if fld p.params 2 1 = 1 then
        l.foldl (fun s i => s.modSlot i fun x => { x with min_ := 32767, max_ := -32768 }) s
      else s
    (s', .reply (Res.okOr deg (leBytes 8 s.frameNs ++ l.flatMap fun i => (s.slot i).bytes)))

def execAcbRead (p : Packet) (s : State) : Host.Outcome State Fault Refusal := .next (command 0x0503 bodyAcbRead p s)

/-! ### Urgent requests (R189, R200) -/

def State.urgents (s : State) (k : Nat) : List Urg := Tbl.get [] s.aux.urgent k
def State.setUrgents (s : State) (k : Nat) (l : List Urg) : State := { s with aux.urgent := Tbl.set [] s.aux.urgent k l }

/-- Has the deadline window of a queue's held command ended (R389)? -/
def State.heldLate (s : State) (q : Nat) : Bool :=
  match s.busyOf q with
  | some f => f.entry.pkt.deadline != 0 && decide (f.entry.stamp + f.entry.pkt.deadline * 1000 ≤ s.time.mono)
  | none => false

/-- Requests whose window ended while their converter was away answer DEADLINE. -/
def State.dropLate (s : State) (k : Nat) : State :=
  let late := (s.urgents k).filter fun u => u.start.isNone && s.heldLate u.queue
  late.foldl (fun s u => s.finishHeld u.queue (Res.err stDeadline 0))
    (s.setUrgents k ((s.urgents k).filter fun u => !(u.start.isNone && s.heldLate u.queue)))

/-- The oldest waiting request starts when its converter is in the schedule, its first conversion within 400 ns (log 3). -/
def State.startUrgent (s : State) (k : Nat) : State :=
  if s.convOut k then s
  else
    let s := s.dropLate k
    match s.urgents k with
    | u :: l =>
      if u.start.isSome then s
      else
        let d := s.draw
        let t0 := s.time.mono + d.1 % 401
        let s := (d.2.setUrgents k ({ u with start := some t0 } :: l)).markGaps
        let s : State := { s with aux.bursts := Tbl.upd [] s.aux.bursts k fun b => ((t0, t0 + 200 * u.count) :: b).take 8 }
        if k = 0 then s.statTouch s.time.index (s.time.index + 1 + (t0 + 200 * u.count - s.time.mono) / 15625) else s
    | [] => s

/-- DEADLINE_EXPIRE (R389): the waiting packet leaves its queue at its window's end with DEADLINE; so does an urgent request that waits for its converter (R200). -/
def execDeadlineExpire (bay : Fin 8) (queue : Fin 16) (pos : Nat) (s : State) : Host.Outcome State Fault Refusal :=
  let q := queueId bay queue
  if s.heldLate q && ((s.urgents 0 ++ s.urgents 1).any fun u => u.start.isNone && u.queue == q) then .next ((s.dropLate 0).dropLate 1)
  else match (s.queueOf q)[pos]? with
  | some e =>
    if e.pkt.deadline ≠ 0 ∧ e.stamp + e.pkt.deadline * 1000 ≤ s.time.mono then
      .next ((s.setQueue q ((s.queueOf q).eraseIdx pos)).answer e.code e.pkt (Res.err stDeadline 0))
    else .next s
  | none => .next s

/-- ADC_URGENT (R189): queued on its converter, four at most; replies when its burst is done. -/
def bodyAdcUrgent : Body := fixedBody 8 [(5, 3)] fun _ p s =>
  let input := fld p.params 0 1
  let k := fld p.params 1 1
  let n := fld p.params 2 2
  let r := fld p.params 4 1
  if 22 < input then (s, .reply (Res.field 32))
  else if 1 < k then (s, .reply (Res.field 33))
  else if n < 16 ∨ 4096 < n then (s, .reply (Res.field 34))
  else if 1 < r then (s, .reply (Res.field 36))
  else if 4 ≤ (s.urgents k).length then (s, .reply (Res.err stBusy 0))
  else
    ((s.setUrgents k (s.urgents k ++ [⟨queueId p.bay p.queue, input, r == 1, n, none⟩])).startUrgent k, .hold .urgent)

def execAdcUrgent (p : Packet) (s : State) : Host.Outcome State Fault Refusal := .next (command 0x0502 bodyAdcUrgent p s)

/-- The result of a burst (R189). -/
def burstResult (start : Nat) (cs : List Int) : Bytes :=
  let n := cs.length
  leBytes 8 start ++ leBytes 2 n ++ leInt 2 (roundDiv (cs.foldl (· + ·) 0) n) ++ leInt 2 (cs.foldl min 32767)
    ++ leInt 2 (cs.foldl max (-32768)) ++ leBytes 2 (sqrtRatio (cs.foldl (fun a c => a + (c * c).toNat) 0) n) ++ zeros 4

/-- URGENT_BURST_DONE (R189): COUNT conversions of 200 ns after the burst's start; its raw results are given. -/
def execUrgentBurstDone (k : Fin 2) (raws : List Int) (s : State) : Host.Outcome State Fault Refusal :=
  match s.urgents k with
  | u :: l =>
    match u.start with
    | some t =>
      if t + 200 * u.count ≤ s.time.mono ∧ raws.length = u.count then
        let cs := raws.map fun r => (corrected s.aux.fac k u.input (s.gref u.ratio) r).1
        let start := s.time.ns - (s.time.mono - t)
        let s := s.markGaps
        let s := (s.setUrgents k l).finishHeld u.queue (Res.okOr (s.convFault k) (burstResult start cs))
        .next (s.startUrgent k)
      else .next s
    | none => .next s
  | [] => .next s

/-! ### Self-calibration (R191) -/

/-- A run starts: SAR0 leaves the schedule. -/
def State.startSelf (s : State) (b : SelfBy) : State :=
  ({ s with aux.selfStep := 1, aux.selfStart := s.time.mono, aux.selfBy := b, aux.selfPrev := s.aux.fac,
            aux.selfBad := false }).markGaps

/-- ADC_SELFCAL (R191, R200): BUSY while a run or a device calibration is in progress; replies at step 7. -/
def bodyAdcSelfcal : Body := fixedBody 0 [] fun _ p s =>
  if s.aux.selfStep ≠ 0 ∨ s.aux.calBusy then (s, .reply (Res.err stBusy 0))
  else (s.startSelf (.host (queueId p.bay p.queue)), .hold .selfcal)

def execAdcSelfcal (p : Packet) (s : State) : Host.Outcome State Fault Refusal := .next (command 0x0501 bodyAdcSelfcal p s)

/-- GAIN in 0.95 to 1.05 and OFS in its field (R190). -/
def factorOk (ofs : Int) (gain : Nat) : Bool :=
  decide (19 * 2 ^ 30 ≤ gain * 20 ∧ gain * 20 ≤ 21 * 2 ^ 30 ∧ -32768 ≤ ofs ∧ ofs ≤ 32767)

/-- A step's factors: written while none was out of range, else the previous factors stay. -/
def State.selfFactors (s : State) (ok : Bool) (f : Factors) : State :=
  if ok && !s.aux.selfBad then s.setFactors f
  else { (s.setFactors { s.aux.selfPrev with ref := s.aux.fac.ref }) with aux.selfBad := true }

/-- SELFCAL_SAR0_DONE (R191 step 3). -/
def execSelfcalSar0Done (ofs : Int) (gain : Nat) (s : State) : Host.Outcome State Fault Refusal :=
  if s.aux.selfStep = 1 ∧ s.aux.selfStart + 5734400 ≤ s.time.mono then
    let s := s.selfFactors (factorOk ofs gain) { s.aux.fac with ofs0 := ofs, gain0 := gain }
    .next ((({ s with aux.selfStep := 2 }).markGaps).startUrgent 0)
  else .next s

/-- SELFCAL_SAR1_DONE (R191 step 5). -/
def execSelfcalSar1Done (ofs : Int) (gain : Nat) (s : State) : Host.Outcome State Fault Refusal :=
  if s.aux.selfStep = 2 ∧ s.aux.selfStart + 11468800 ≤ s.time.mono then
    let s := s.selfFactors (factorOk ofs gain) { s.aux.fac with ofs1 := ofs, gain1 := gain }
    .next ({ s with aux.selfStep := 3 }).markGaps
  else .next s

/-! ### Device calibration (R192 to R197) -/

/-- The mode the active set asks for: temperature-triggered with three or more courses enabled. -/
def State.calMode (s : State) : Bool := 3 ≤ (enabledCourses s).length

/-- A device calibration starts: its self-calibration, or the one a host started (R200).  The TS2 code at its start is the latest 1 s mean; before the first one
(the run of K3) it is a free value (log 3). -/
def State.startCal (s : State) : State :=
  let t : Int × State := match s.aux.ts2 with | some c => (c, s) | none => s.drawInt 16
  let s : State := { t.2 with aux.calBusy := true, aux.calAt := some s.time.mono, aux.calT := t.1, aux.calDelayed := false }
  if s.aux.selfStep = 0 then s.startSelf .cal else s

/-- A trigger: ignored during a calibration, delayed inside the 60 s spacing (EV0703), else it starts a run. -/
def State.calTrigger (s : State) : State :=
  if s.aux.calBusy || s.aux.calDelayed then s
  else match s.aux.calAt with
  | some t => if s.time.mono < t + 60 * second then ({ s with aux.calDelayed := true }).pulse 703 else s.startCal
  | none => s.startCal

/-- The mode follows the active set once no run holds it (R192, R200): EV0700. -/
def State.calModeFollow (s : State) : State :=
  if s.aux.calBusy || s.calMode == s.aux.mode then s
  else
    let s := ({ s with aux.mode := s.calMode, aux.calDelayed := false, aux.refSource := if s.calMode then s.aux.refSource else 0 }).pulse 700
    if s.aux.mode then s.calTrigger else s

/-- The calibration ends; a mode change that waited for it follows. -/
def State.calEnd (s : State) : State := ({ s with aux.calBusy := false, aux.step := none }).calModeFollow

/-- The reference step starts at the end of the self-calibration (R194, R195). -/
def State.startRef (s : State) : State :=
  let st : RefStep := if s.key (kCal 0) = 1 then .stat [] else .rprec
  ({ s with aux.step := some st, aux.stepAt := s.time.mono, aux.touches := [] }).markGaps

/-- K3 completes with the self-calibration and every enabled course metered, or its footing unit failed (R479, R484). -/
def State.k3Check (s : State) : State :=
  let ks := if !s.meters then [] else enabledCourses s
  if s.kiln.ph.k3Open && s.kiln.mclkOn && !s.kiln.ph.k3 && s.ready 9 && ks.all (fun k => s.ready (10 + k) || (s.bond k).footFail) then
    { s with kiln.ph.k3 := true,
             kiln.doneUs := Tbl.set 0 s.kiln.doneUs 3 (Tbl.get 0 s.kiln.doneUs 2 + (s.time.mono - s.kiln.startNs) / 1000) }
  else s

/-- Step 7 of R191 is over: EV0696, or EV0697 and SELFCAL_FAIL with the previous factors kept. -/
def State.selfOutcome (s : State) (ok : Bool) (skew : Int) : State :=
  let s := s.selfFactors ok { s.aux.fac with skew := skew }
  let s := { s with aux.selfStep := 0 }
  if ok then ({ s with aux.selfValid := true }).pulse 696 else (s.modAllWin fun w => { w with selfcalFail := true }).pulse 697

/-- The kiln's run sets ACB and starts the slots (R484). -/
def State.selfInKiln (s : State) : State :=
  let s := (s.setReady 9 true).k3Check
  let s := (List.range 16).foldl (fun (s : State) i =>
    let c := slotCfg s.cfg.active i
    if c.run then s.modSlot i fun _ => { cfg := c, start := s.time.mono, acc := s.gapNow i c } else s) s
  if s.aux.mode then s.startCal else s

/-- SELFCAL_DONE (R191 step 7): EV0696, or EV0697 and SELFCAL_FAIL with the previous factors kept.  The kiln's run sets
ACB (R484); in a device calibration the reference step follows. -/
def execSelfcalDone (skew : Int) (s : State) : Host.Outcome State Fault Refusal :=
  if s.aux.selfStep = 3 ∧ s.aux.selfStart + 12800000 ≤ s.time.mono then
    let ok := decide (-512 ≤ skew ∧ skew ≤ 511) && !s.aux.selfBad
    let s := s.selfOutcome ok skew
    let s := match s.aux.selfBy with
      | .host q => s.finishHeld q (if ok then Res.ok else Res.err stFault 0)
      | .kiln => s.selfInKiln
      | .cal => s
    let s := if s.aux.calBusy && s.aux.selfStep == 0 then s.startRef else s
    .next ((s.startUrgent 0).startUrgent 1)
  else .next s

/-- A new REF_GAIN lies within ±0.5 % of the fused factory value (R196). -/
def refOk (g : Nat) : Bool := decide (200 * ((g : Int) - Config.fusedRefGain).natAbs ≤ Config.fusedRefGain) && decide (g < 2 ^ 32)

/-- CAL_LAST_TIME (R197): UTC in BCD, or TIME_INVALID with the date fields 0. -/
def State.calTime (s : State) : Nat :=
  if !s.time.valid then 2 ^ 56
  else
    let t := s.utcNs / second
    let d := dateOfDay (t / 86400)
    bcdOf (t % 60) + 2 ^ 8 * bcdOf (t / 60 % 60) + 2 ^ 16 * bcdOf (t / 3600 % 24) + 2 ^ 24 * bcdOf d.day
      + 2 ^ 32 * bcdOf d.month + 2 ^ 40 * bcdOf (d.year % 100) + 2 ^ 48 * bcdOf (d.year / 100)
      + (if s.time.holdover then 2 ^ 57 else 0)

/-- REF_GAIN_CHECK (R196): write an accepted value, or keep the previous one with REF_FAIL and EV0699. -/
def State.refResult (s : State) (g : Option Nat) (source : Nat) : State :=
  let g := if s.convFault 0 && s.convFault 1 then none else g.filter refOk
  match g with
  | some g =>
    let s := s.setFactors { s.aux.fac with ref := g }
    (({ s with aux.tLast := s.aux.calT, aux.refSource := source, aux.calCount := (s.aux.calCount + 1) % 2 ^ 32,
               aux.calLast := s.calTime }).pulse 698).calEnd
  | none => ((s.modAllWin fun w => { w with refFail := true }).pulse 699).calEnd

/-- RPREC_STEP_DONE (R194 step 7): the sums of the 4,000 codes with the current source on and off. -/
def execRprecStepDone (sumOn sumOff : Int) (s : State) : Host.Outcome State Fault Refusal :=
  if s.aux.step = some .rprec ∧ s.aux.stepAt + 7680000 ≤ s.time.mono then
    let d := sumOn - sumOff
    let on := decide (12000 * 4000 ≤ sumOn ∧ sumOn ≤ 14200 * 4000)
    .next (s.refResult (if on && decide (0 < d) then some (roundDiv (131072 * 400 * 2 ^ 30) d.toNat).toNat else none) 1)
  else .next s

/-- The voltage set of CAL.STAT_CH. -/
def statSet (ks : KeySet) : Option Nat :=
  (List.range 8).find? fun v => vsEnabled ks v && (vsChannels ks v).contains (some (ks.get (kCal 3)))

/-- A window of a voltage set, of sample indexes [a, e), ends during a statistics step (R195): u_n of STAT_CH in µV and whether it counts. -/
def State.statWindow (s : State) (v a e : Nat) (u : Nat) (ok : Bool) : State :=
  match s.aux.step with
  | some (.stat l) =>
    if statSet s.cfg.active = some v then
      { s with aux.step := some (.stat ((u, ok && !s.aux.touches.any fun t => decide (t.1 < e) && decide (a ≤ t.2)) :: l)),
               aux.touches := s.aux.touches.filter fun t => decide (e ≤ t.2) }
    else s
  | _ => s

/-- STAT_STEP_DONE (R195): a_n of every window in nV at the ball, oldest first; the slope, the residual and REF_GAIN. -/
def execStatStepDone (rms : List Nat) (s : State) : Host.Outcome State Fault Refusal :=
  match s.aux.step with
  | some (.stat l) =>
    if s.aux.stepAt + s.key (kCal 5) * second ≤ s.time.mono ∧ rms.length = l.length then
      let ws := ((rms.zip l.reverse).filter fun e => e.2.2).map fun e => (e.1, e.2.1)
      let a := ws.foldl (fun t e => t + e.1 * e.1) 0
      let b := ws.foldl (fun t e => t + e.1 * e.2) 0
      let c := ws.foldl (fun t e => t + e.2 * e.2) 0
      let m := ws.foldl (fun t e => t + e.1) 0
      let ok := decide (4 * l.length ≤ 5 * ws.length) && decide (0 < b)
        && decide ((a * c - b * b) * ws.length * 10 ^ 8 ≤ c * (m * m))
      .next (s.refResult (if ok then some (roundDiv (s.key (kCal 4) * 250 * c : Nat) b).toNat else none) 2)
    else .next s
  | _ => .next s

/-- CAL_RUN (R192): a trigger in the temperature-triggered mode. -/
def bodyCalRun : Body := fixedBody 0 [] fun _ _ s =>
  if !s.aux.mode then (s, .reply (Res.err stDenied subFactoryOnly))
  else if s.aux.calBusy then (s, .reply (Res.err stBusy 0))
  else (s.calTrigger, .reply Res.accepted)

def execCalRun (p : Packet) (s : State) : Host.Outcome State Fault Refusal := .next (command 0x0510 bodyCalRun p s)

/-- TS2_MEAN_CHECK (R192): every 1 s, the mean of TS2 moves the factory model or triggers a run. -/
def execTs2MeanCheck (code : Int) (s : State) : Host.Outcome State Fault Refusal :=
  if s.ready 9 && decide (s.aux.ts2At + second ≤ s.time.mono) then
    let s := { s with aux.ts2 := some code, aux.ts2At := s.time.mono }
    if !s.aux.mode then
      .next { (s.setFactors { s.aux.fac with ref := Config.refModel code }) with aux.refSource := 0 }
    else if s.key (kCal 1) * 128 ≤ 10 * (code - s.aux.tLast).natAbs then .next s.calTrigger
    else .next s
  else .next s

/-- The temperature monitor converts TS2 once per 1 ms of elapsed time (R182). -/
def State.tempMonitor (s : State) : State :=
  if s.ready 9 && s.time.mono / 1000000 != (s.time.mono - 15625) / 1000000 then s.displaceOne (Config.ts2Converter % 2) else s

/-- CAL_SPACING_END (R192): the delayed trigger starts its run. -/
def execCalSpacingEnd (s : State) : Host.Outcome State Fault Refusal :=
  match s.aux.calAt with
  | some t =>
    if s.aux.calDelayed && s.aux.mode && !s.aux.calBusy && decide (t + 60 * second ≤ s.time.mono) then .next s.startCal
    else .next s
  | none => .next s

/-! ### Supervision (R198) -/

/-- A check of inputs 21 and 22 passes: within 0.5 % of 32,767, and within ±16. -/
def checkPasses (code21 code22 : Int) : Bool := decide (200 * (code21 - 32767).natAbs ≤ 32767 ∧ code22.natAbs ≤ 16)

/-- A converter enters fault (R198): F1. -/
def State.convFails (s : State) (k : Nat) : State :=
  if s.convFault k then s
  else ((({ s with aux.fault := Tbl.set false s.aux.fault k true, aux.passRun := Tbl.set 0 s.aux.passRun k 0 }).markGaps).level (701 + k) true).f1 0

/-- CONVERTER_CHECK (R198): three failing checks in a row enter fault (F1), ten passing leave it. -/
def execConverterCheck (k : Fin 2) (code21 code22 : Int) (s : State) : Host.Outcome State Fault Refusal :=
  if s.ready 9 && decide (Tbl.get 0 s.aux.checkAt k + second ≤ s.time.mono) then
    let s := ({ s with aux.checkAt := Tbl.set 0 s.aux.checkAt k s.time.mono }).displaceOne k
    let p := checkPasses code21 code22
    let fr := if p then 0 else Tbl.get 0 s.aux.failRun k + 1
    let pr := if p && s.convFault k then Tbl.get 0 s.aux.passRun k + 1 else 0
    let s := { s with aux.failRun := Tbl.set 0 s.aux.failRun k fr, aux.passRun := Tbl.set 0 s.aux.passRun k pr }
    if !s.convFault k && decide (3 ≤ fr) then .next (s.convFails k)
    else if s.convFault k && decide (10 ≤ pr) then
      .next (({ s with aux.fault := Tbl.set false s.aux.fault k false }).level (701 + k.val) false)
    else .next s
  else .next s

/-! ### Start and swap (R184, R187, R192) -/

/-- K3 starts the block: the mode follows the active set, ADC_SELFCAL runs (R190, R484). -/
def State.startAcb (s : State) : State := ({ s with aux.mode := s.calMode }).startSelf .kiln

/-- A swap changes the keys of a slot: the period closes at the swap, or the slot starts there with its tracker cleared. -/
def State.slotSwap (s : State) (i : Nat) : State :=
  let c := slotCfg s.cfg.active i
  let x := s.slot i
  if x.cfg = c ∧ x.cutAt = none then s
  else if x.cfg.run then s.modSlot i fun x => { x with cutAt := some (x.cutAt.getD s.time.mono) }
  else if c.run && s.ready 9 then
    s.modSlot i fun x => { x with cfg := c, start := s.time.mono, acc := s.gapNow i c, periods := 0, min_ := 32767, max_ := -32768,
                                  count := 0, sum := 0, sumsq := 0, later := [] }
  else s

/-- A swap changes the keys of a comparator: its runs restart; a comparator that is off asserts nothing. -/
def State.wcSwap (s : State) (old : KeySet) (w : Nat) : State :=
  if (List.range 7).all fun i => old.get (kWc w i) == s.cfg.active.get (kWc w i) then s
  else
    let s := s.modWcomp w fun _ => {}
    if s.cfg.active.get (kWc w 0) = 1 then s else s.level (672 + w) false

/-- What a swap does to the block; `old` is the set it replaces. -/
def State.auxSwap (s : State) (old : KeySet) : State :=
  let s := (List.range 16).foldl State.slotSwap s
  let s := (List.range 8).foldl (fun s w => s.wcSwap old w) s
  s.calModeFollow

/-! ### Register words (R190, R197) -/

/-- ACB_CAL_STATUS without its RC bits, which each window function keeps. -/
def State.acbStatus (s : State) : Nat :=
  s.aux.selfValid.toNat + 2 * (s.aux.selfStep != 0).toNat + 8 * s.aux.refSource + 32 * s.aux.calBusy.toNat
    + 128 * s.aux.mode.toNat + 256 * (s.convFault 0).toNat + 512 * (s.convFault 1).toNat
    + 65536 * unsignedOf 16 s.aux.tLast

end Sys2Proof.Machine
end

