-- ==== Sys2Proof/Machine/Tiles.lean ====
section
/-! DEFINITION. Tile bonds, grout and footing (06): allocation (R150, R151), substitution (R156 to R160), falls and returns (R164, R165),
footing-unit failure (R166), ledger conversions (R168, R169), the plausibility check (R163), availability (R174) and the status
words (R171, R172, R175). -/

namespace Sys2Proof.Machine

def State.tile (s : State) (t : Nat) : Tile := Tbl.get {} s.tiles.tile t
def State.modTile (s : State) (t : Nat) (g : Tile → Tile) : State := { s with tiles.tile := Tbl.upd {} s.tiles.tile t g }

def allTiles : List Nat := List.range 72

/-! ### Event levels and counts (R173) -/

/-- A bond state under which the tiles of the bond assert their source. -/
def BondState.alarms : BondState → Bool
  | .substituting | .duplex | .footing | .rebuilding => true
  | .off | .triplex => false

/-- Is EV(704 + t) asserted?  A grout that is picked for a bond and not yet a member of it is no metrology tile. -/
def State.tileAlarm (s : State) (t : Nat) : Bool :=
  match (s.tile t).st with
  | .fenced | .testing | .failed => true
  | _ => (s.tile t).role == .metrology && (List.range 6).any fun k => (s.bond k).st.alarms && (s.bond k).members.contains t

/-- Bring the tile sources to their values, stamped with a sample index. -/
def State.tileLevels (s : State) (index ns : Nat) : State :=
  allTiles.foldl (fun (s : State) t => if s.asserted (704 + t) == s.tileAlarm t then s else s.levelAt index ns (704 + t) (s.tileAlarm t)) s

def State.tileLevelsNow (s : State) : State := s.tileLevels s.time.index s.time.ns

/-- Add 1 to an RC count of every bay, saturating at 255. -/
def bump255 (t : Tbl Nat) : Tbl Nat := bumpAllSat 255 1 t

/-- A day in ns. -/
def dayNs : Nat := 86400 * second

/-- Fence a tile (R155, R160): excluded from votes and tasks; fenced for the third time within a day it is FAILED. -/
def State.fence (s : State) (t : Nat) : State :=
  s.modTile t fun x =>
    let ts := (s.time.ns :: x.times).filter fun n => s.time.ns < n + dayNs
    { x with st := if 3 ≤ ts.length then .failed else .fenced, course := none, leave := none, fences := bump255 x.fences, times := ts,
             fencedAt := some s.time.index }

/-- A tile FENCED from the index after its fence runs its test from the index after that (R149, R160, log 70). -/
def Tile.testFrom (index : Nat) (x : Tile) : Tile :=
  if x.st == .fenced && x.fencedAt.all fun a => decide (a + 2 ≤ index) then { x with st := .testing } else x

/-- The fenced tiles whose island has been reset run their tests. -/
def State.testsStart (s : State) : State := { s with tiles.tile := Tbl.mapV {} (Tile.testFrom s.time.index) s.tiles.tile }

/-! ### Sources (R156) -/

def State.tilesWhere (s : State) (sel : Tile → Bool) : List Nat := allTiles.filter fun t => sel (s.tile t)

/-- Is a tile's clock gated (R428)? -/
def State.gated (s : State) (t : Nat) : Bool := Tbl.get 0 s.host.island t == 1

/-- What may join a bond, and its preparation P and the tile (R156, R158); a gated grout counts as COLD, a gated ledger tile is out of the
pool (R428). -/
def State.source (s : State) : Option (Nat × Nat) :=
  let pick (r : TileRole) (sel : Nat → Tile → Bool) (p : Nat) : Option (Nat × Nat) :=
    ((allTiles.filter fun t => (s.tile t).role == r && (s.tile t).leave.isNone && sel t (s.tile t)).head?).map fun t => (t, p)
  ((pick TileRole.grout (fun t x => x.st == TileState.warm && !s.gated t) 4).orElse fun _ =>
    (pick TileRole.grout (fun t x => x.st == TileState.cold || (x.st == TileState.warm && s.gated t)) 1284).orElse fun _ =>
    (pick TileRole.ledger (fun t x => x.st == TileState.active && !s.gated t) 132).orElse fun _ =>
    pick TileRole.ledger (fun _ x => x.st == TileState.cold) 1284)

/-- Take a source for a course: a ledger tile that runs converts at its next task boundary (R168); a gated one runs again. -/
def State.takeTile (s : State) (k t : Nat) : State :=
  let s : State := { s with host.island := if s.gated t then Tbl.set 0 s.host.island t 0 else s.host.island }
  s.modTile t fun x =>
    if x.role == .ledger then
      if x.st == .active then { x with leave := some .toBond, course := some k }
      else { x with role := .grout, st := .joining, course := some k, converted := true }
    else { x with st := .joining, course := some k }

/-- Grouts in the pool: not joining, and tiles on their way to it (R169). -/
def State.pool (s : State) : Nat :=
  (s.tilesWhere fun x => (x.role == .grout && (x.st == .warm || x.st == .cold)) || x.leave == some .toGrout).length

/-- ACTIVE ledger tiles that stay. -/
def State.ledgerTiles (s : State) : List Nat :=
  (s.tilesWhere fun x => x.role == .ledger && x.st == .active && x.leave.isNone).filter fun t => !s.gated t

/-- LEDGER_TILES: the ACTIVE ledger tiles (R151). -/
def State.ledgerActive (s : State) : Nat := ((s.tilesWhere fun x => x.role == .ledger && x.st == .active).filter fun t => !s.gated t).length

/-- LEDGER_TO_GROUT (R169), repeated while the pool is short: the highest-numbered ledger tile goes at its next task boundary. -/
def State.replenish : Nat → State → State
  | 0, s => s
  | n + 1, s =>
    if s.pool < 8 && s.key (kTiles 0) < s.ledgerTiles.length then
      match s.ledgerTiles.getLast? with
      | some t => State.replenish n (s.modTile t fun x => { x with leave := some .toGrout })
      | none => s
    else s

/-- Healthy tiles of the groups tested. -/
def State.healthy (s : State) : List Nat := (List.range (8 * s.kiln.bistGroup)).filter fun t => !(s.tile t).kilnFail

/-- In ANALYSER the lowest-numbered grouts are WARM, one for each enabled course, the rest COLD (R151); with fewer than 20 healthy tiles every grout
stays WARM (R150). -/
def State.settleGrouts (s : State) : State :=
  if s.kiln.role == .analyser && 20 ≤ s.healthy.length then
    let n := (enabledCourses s).length
    let g := s.tilesWhere fun x => x.role == .grout && (x.st == .warm || x.st == .cold)
    (List.range g.length).foldl (fun s i =>
      s.modTile (g.getD i 0) fun x => { x with st := if i < n then .warm else .cold }) s
  else s

/-- What follows a change of the tiles: the pool is replenished, grouts settle, the sources of the tiles follow (R151, R169, R173). -/
def State.tilesSettle (s : State) : State := (s.replenish 46).settleGrouts.tileLevelsNow

/-! ### Substitution (R157 to R159) -/

/-- Wardens in service (R157). -/
def State.wardensUp (s : State) : Nat := ((List.range 3).filter fun w => !s.fault.wardenOut.getLsbD w).length

def State.courseWideNow (s : State) (k : Nat) : Bool := courseWide s.cfg.active k

/-- Run a bond of two in DUPLEX: F1 (R161, R173). -/
def State.toDuplex (s : State) (k : Nat) : State :=
  if (s.bond k).st == .duplex then s.modBond k fun b => { b with sub := none }
  else (s.modBond k fun b => { b with st := .duplex, sub := none }).f1 0

/-- A substitution starts at s_d from the next source, or the bond runs in DUPLEX (R156, R157, R177). -/
def State.startSubst (s : State) (k sd : Nat) : State :=
  if s.wardensUp < 2 || s.fault.f4 then s.toDuplex k
  else match s.source with
  | none => s.toDuplex k
  | some (t, p) =>
    let sc := sd + p
    let sj := sc + (if s.courseWideNow k then 188 else 60)
    ((s.takeTile k t).modBond k fun b => { b with st := .substituting, sub := some ⟨t, sd, sc, sj, false, false, false⟩ }).tilesSettle

/-- A tile picked for a bond, or rebuilding one, that is not going to be a member: a ledger tile that has not left stays, any other is a WARM grout (R160, R169). -/
def State.releaseTile (s : State) (t : Nat) : State :=
  s.modTile t fun x =>
    if x.leave == some .toBond then { x with leave := none, course := none }
    else if x.st == .joining || x.st == .active then { x with st := .warm, role := .grout, course := none } else x

/-- Take three sources, or two, for a rebuild (R165); the index by which the slowest is prepared. -/
def State.pickTiles : Nat → Nat → State → List Nat × Nat × State
  | 0, _, s => ([], 0, s)
  | n + 1, k, s =>
    match s.source with
    | none => ([], 0, s)
    | some (t, p) =>
      let r := State.pickTiles n k (s.takeTile k t)
      (t :: r.1, max p r.2.1, r.2.2)

/-- The members a rebuild finds for a course: those that are there and sources for the rest; with fewer than two nothing is taken and the course stays
on footing (R165). -/
def State.gather (s : State) (k index : Nat) (own : List Nat) (ownReady : Nat) (st : BondState) : State :=
  let r := State.pickTiles (3 - own.length) k s
  if 2 ≤ own.length + r.1.length then
    (r.2.2.modBond k fun b =>
      { b with st := st, members := own ++ r.1, readyAt := index + max ownReady r.2.1, rebuildAt := none, atStart := false }).tilesSettle
  else
    ((own.foldl State.releaseTile s).modBond k fun b => { b with st := .footing, members := [], rebuildAt := none, atStart := false }).tilesSettle

/-- A rebuild begins: three members, or two (R165); with fewer the course stays on footing. -/
def State.startRebuild (s : State) (k index : Nat) : State :=
  if s.wardensUp < 2 || s.fault.f4 then s else s.gather k index [] 0 .footing

/-- A source became available (R161, R165): bonds in DUPLEX substitute, courses on footing rebuild, but for a course `but` that has just let it go. -/
def State.tryBondsBut (s : State) (but : Nat) : State :=
  (List.range 6).foldl (fun (s : State) k =>
    let b := s.bond k
    if k = but then s
    else match b.st with
    | .duplex => if b.sub.isNone && s.source.isSome then s.startSubst k s.time.index else s
    | .footing => if b.members.isEmpty && !b.latched && courseEnabled s.cfg.active k && s.kiln.ph.k4 then s.startRebuild k s.time.index else s
    | _ => s) s

def State.tryBonds (s : State) : State := s.tryBondsBut 6

/-- A decision is over (R498): a warden whose vote differed from the common vote of the other two, or was absent, in 3 consecutive decisions
is reset by their votes. -/
def State.wardenVotes (s : State) (votes : List (Fin 3)) : State :=
  let yes (w : Nat) : Bool := votes.any (·.val == w)
  if s.fault.wardenOut != 0 || s.fault.wardenReset != 0 then s
  else
    let n (w : Nat) : Nat :=
      if yes ((w + 1) % 3) == yes ((w + 2) % 3) && yes w != yes ((w + 1) % 3) then s.fault.voteMiss.getD w 0 + 1 else 0
    { s with fault.voteMiss := (List.range 3).map fun w => if 3 ≤ n w then 0 else n w,
             fault.wardenReset := BitVec.ofNat 3 (bitsNat ((List.range 3).map fun w => decide (3 ≤ n w))) }

/-- SUBST_WARDEN_VOTE (R157): two votes of wardens in service let the substitution run; at s_d + 3 without them the bond continues in
DUPLEX. -/
def execSubstWardenVote (k : Fin 6) (votes : List (Fin 3)) (s : State) : Host.Outcome State Fault Refusal :=
  match (s.bond k).sub with
  | some x =>
    if x.voted then .next s
    else
      let n := ((List.range 3).filter fun w => !s.fault.wardenOut.getLsbD w && !s.fault.wardenReset.getLsbD w && votes.any (·.val == w)).length
      if 2 ≤ n && decide (x.sd + 1 ≤ s.time.index ∧ s.time.index ≤ x.sd + 3) then
        .next ((s.wardenVotes votes).modBond k fun b => { b with sub := some { x with voted := true } })
      else if x.sd + 3 ≤ s.time.index then
        .next (((((s.wardenVotes votes).releaseTile x.tile).toDuplex k).tilesSettle).tryBondsBut k).tileLevelsNow
      else .next s
  | none => .next s

/-- SUBST_CHECKPOINT (R158 step 3): the image is the state after sample s_c - 1. -/
def execSubstCheckpoint (k : Fin 6) (s : State) : Host.Outcome State Fault Refusal :=
  match (s.bond k).sub with
  | some x =>
    if x.voted && (s.tile x.tile).st == .joining && decide (x.sc ≤ s.time.index + 1) then
      .next (s.modBond k fun b => { b with sub := some { x with frozen := true } })
    else .next s
  | none => .next s

/-- SUBST_IMAGE_ARRIVED (R158 step 4). -/
def execSubstImageArrived (k : Fin 6) (s : State) : Host.Outcome State Fault Refusal :=
  match (s.bond k).sub with
  | some x => if x.frozen then .next (s.modBond k fun b => { b with sub := some { x with image := true } }) else .next s
  | none => .next s

/-- JOINING_TILE_REJECT (R159): fenced, F0; the sequence restarts with the next source. -/
def State.rejectJoining (s : State) (k index : Nat) : State :=
  match (s.bond k).sub with
  | some x => ((s.fence x.tile).f0.startSubst k index).tileLevels index s.time.ns
  | none => s

/-- SUBST_JOIN (R158 step 6, R159): from s_j on the joining tile votes; it runs between the boundaries s_j - 1 and s_j. -/
def execSubstJoin (k : Fin 6) (reached : Bool) (s : State) : Host.Outcome State Fault Refusal :=
  match (s.bond k).sub with
  | some x =>
    if x.voted && decide (x.sj ≤ s.time.index + 1) then
      let index := max x.sj s.time.index
      if x.frozen && x.image && reached then
        let s := s.modTile x.tile fun y => { y with role := .metrology, st := .active, course := some k.val }
        let s := s.modBond k fun b =>
          { b with st := .triplex, members := b.members ++ [x.tile], alloc := b.members ++ [x.tile], sub := none }
        .next (s.tileLevels index (s.time.ns + (index - s.time.index) * 15625))
      else .next (s.rejectJoining k index)
    else .next s
  | none => .next s

/-! ### Falls and returns (R164 to R166) -/

/-- Voltage sets that a course carries. -/
def courseVsets (ks : KeySet) (k : Nat) : List Nat := (enabledVsets ks).filter fun v => vsCourse ks v == some k

/-- Metering points that a course carries. -/
def courseMps (ks : KeySet) (k : Nat) : List Nat := (enabledMps ks).filter fun m => mpCourse ks m == some k

/-- The voltage sets whose windows hold a course's values: those it carries and those its metering points name (R85). -/
def windowVsets (ks : KeySet) (k : Nat) : List Nat :=
  (enabledVsets ks).filter fun v => vsCourse ks v == some k || (mpsOf ks v).any fun m => mpCourse ks m == some k

/-- The window in progress of every set that holds a course's values closes at a boundary, at which the course falls to footing or returns (R85, R545). -/
def State.cutWindows (s : State) (k : Nat) (b : Bnd) : State :=
  (windowVsets s.cfg.active k).foldl (fun (s : State) v =>
    match (s.vs v).win with
    | some w => if w.start.u < b.u then s.closeWindow v b true [k] else s
    | none => s) s

/-! ### Buckets of indexes already counted (R174) -/

/-- The first bucket into which the courses of a run place an index; 7 with none. -/
def firstBucket (l : List (Nat × Nat × Nat)) : Nat := l.foldl (fun m e => min m e.2.1) 7

/-- Move `n` indexes of a run to another bucket of course `k`: the course's counters, and the device's where its first bucket changes. -/
def Avail.shift (k n : Nat) (old new : List (Nat × Nat × Nat)) (a : Avail) : Avail :=
  match old.lookup k, new.lookup k with
  | some (x, _), some (y, _) =>
    let dev := (List.range 8).map fun i =>
      a.device.getD i 0 + (if i = firstBucket new ∧ i < 7 then n else 0) - (if i = firstBucket old ∧ i < 7 then n else 0)
    { a with device := dev, course := Tbl.upd 0 (Tbl.upd 0 a.course (7 * k + x) (· - n)) (7 * k + y) (· + n) }
  | _, _ => a

/-- The part of a run before `i`, if any, and the rest. -/
def AvRun.split (i : Nat) (r : AvRun) : List AvRun :=
  if r.first < i ∧ i < r.first + r.count then [{ r with first := i, count := r.first + r.count - i }, { r with count := i - r.first }] else [r]

/-- Put the indexes of [a, e) into the buckets `f` gives course `k`, from its bucket and the one of a sound bond. -/
def State.rebucket (s : State) (k a e : Nat) (f : Nat → Nat → Nat) : State :=
  let rs := (s.tiles.runs.flatMap (AvRun.split a)).flatMap (AvRun.split e)
  let moved (r : AvRun) : AvRun :=
    if a ≤ r.first ∧ r.first < e then { r with course := r.course.map fun (x : Nat × Nat × Nat) => if x.1 = k then (k, f x.2.1 x.2.2, x.2.2) else x } else r
  { s with tiles.av := rs.foldl (fun (v : Avail) r => v.shift k r.count r.course (moved r).course) s.tiles.av, tiles.runs := rs.map moved }

/-- FALL_TO_FOOTING (R164): windows and PQ records close, every member and a joining tile is fenced, F2; the third fall within 600 s
latches the course (R165), otherwise the rebuild begins. -/
def State.fall (s : State) (k : Nat) : State :=
  let b := s.bond k
  let s := s.cutWindows k s.cutBnd
  let s := (courseVsets s.cfg.active k).foldl (fun (s : State) v => (s.pqClose v 8).modMon v fun m => { m with flickCut := true }) s
  let s := b.members.foldl (fun (s : State) t => (s.fence t).f2 0) s
  let s := match b.sub with
    | some x => if (s.tile x.tile).st == TileState.joining then (s.fence x.tile).f2 0 else s.releaseTile x.tile
    | none => s
  let falls := (s.time.ns :: b.falls).filter fun n => s.time.ns < n + 600 * second
  let latched := b.latched || 3 ≤ falls.length
  let s := (s.modBond k fun b =>
    { b with st := .footing, members := [], sub := none, falls := falls, latched := latched, failRun := 0,
             runFrom := none, rebuildAt := none }).f2 0
  ((if latched then s else s.startRebuild k s.time.index).tilesSettle.tryBondsBut k).tileLevelsNow

/-- A fall decided once the samples of an index have been delivered: s_f is the next index (R164). -/
def State.fallNext (s : State) (k : Nat) : State := s.atIndex (s.time.index + 1) fun s => s.fall k

/-- The footing unit fails (R166): F1. -/
def State.footingFail (s : State) (k : Nat) : State :=
  if (s.bond k).footFail then s else (s.modBond k fun b => { b with footFail := true, failRun := 0, runFrom := none }).f1 0

/-- FOOTING_CHECK_FAIL (R163): the run has reached CHECK_WINDOWS; a residue fault during it fails the footing unit, else the bond is taken
to be in common-mode error. -/
def execFootingCheckFail (k : Fin 6) (s : State) : Host.Outcome State Fault Refusal :=
  let b := s.bond k
  if s.key (kTiles 2) ≤ b.failRun then
    if b.footFail then .next (s.modBond k fun b => { b with failRun := 0, runFrom := none })
    else
      let s := match b.runFrom with | some a => s.rebucket k a b.runTo fun x _ => if x = 0 then 0 else 1 | none => s
      let s := s.modBond k fun b => { b with checkFail := (List.range 8).foldl (fun t i => Tbl.set false t i true) b.checkFail }
      .next (s.fallNext k)
  else .next s

/-- A window of set `v` ends (FOOTING_PLAUSIBILITY, R163): every eligible element of the course's metering points compares E_B with E_F. -/
def State.plausibility (s : State) (v k : Nat) (w : WinDone) : State :=
  let ks := s.cfg.active
  let b := s.bond k
  if w.cut || w.foot.contains k || s.onFooting k || b.footFail then s
  else
    let els := (courseMps ks k).filter (mpVset ks · == v) |>.flatMap fun m => (mpElems ks m).map fun d => (m, d)
    let verdicts := els.filterMap fun e =>
      match w.el.lookup (4 * e.1 + e.2.e), w.ch.lookup e.2.c with
      | some t, some c =>
        if !(s.chm e.2.c).creep && primaryFs ks e.2.c * 10 ≤ chanRms ks e.2.c c then
          some (decide ((s.key (kTiles 1)) * t.foot.natAbs < 10000 * (t.bond - t.foot).natAbs))
        else none
      | _, _ => none
    if verdicts.isEmpty then s
    else if verdicts.any id then
      s.modBond k fun b => { b with failRun := b.failRun + 1, runFrom := some (b.runFrom.getD w.start.index), runTo := w.stop.index }
    else s.modBond k fun b => { b with failRun := 0, runFrom := none }

/-- Every element's increments from a boundary on come from the bond: those since the boundary are exchanged (R165 step 3). -/
def Elem.rebase (u : Nat) (x : Elem) : Elem :=
  let a := logAt x.tot x.log u
  let f (t : ETot) : ETot := { t with inc := a.inc + (t.bond - a.bond), q := a.q + (t.qBond - a.qBond) }
  { x with tot := f x.tot, log := x.log.map fun e => if u ≤ e.1 then (e.1, f e.2) else e }

/-- The latest boundary of a course's reference: that of the lowest voltage set its channels or metering points name. -/
def State.courseBnd (s : State) (k : Nat) : Option (Nat × Bnd) :=
  let ks := s.cfg.active
  let v := (courseVsets ks k).head?.orElse fun _ => ((courseMps ks k).map (mpVset ks)).head?
  v.bind fun v => (((s.vs v).last.filter (·.rising)).orElse fun _ => (s.vs v).prev.filter (·.rising)).map fun b => (v, b)

/-- Has a course left SETTLING? -/
def State.courseSettled (s : State) (k : Nat) : Bool := s.ready (10 + k)

/-- BOND_REBUILD_START (R165 step 1, R485): the members start from a blank state, at the first positive-going boundary after the slowest
is prepared, at a start at the first index once the course has settled. -/
def execBondRebuildStart (k : Fin 6) (s : State) : Host.Outcome State Fault Refusal :=
  let b := s.bond k
  let able := 2 ≤ b.members.length && b.rebuildAt.isNone && (b.st == .footing || b.st == .rebuilding)
    && b.members.all fun t => (s.tile t).st == .joining || ((s.tile t).st == .active && (s.tile t).role == .metrology)
  let go (i : Nat) : State :=
    let s := b.members.foldl (fun (s : State) t => s.modTile t fun x => { x with role := .metrology, st := .active, course := some k.val }) s
    (s.modBond k fun b => { b with st := .rebuilding, rebuildAt := some i }).tileLevelsNow
  if !able then .next s
  else if b.atStart then
    if s.courseSettled k && b.readyAt ≤ s.time.index then .next (go s.time.index) else .next s
  else match s.courseBnd k with
  | some (_, x) => if b.readyAt ≤ x.index then .next (go x.index) else .next s
  | none => .next s

/-- BOND_RETURN (R165 step 3): at the first positive-going boundary at or after b + 8,192 the course returns to the bond; the indexes from that boundary to its
decision leave AV_FOOTING with their increments (R174). -/
def execBondReturn (k : Fin 6) (s : State) : Host.Outcome State Fault Refusal :=
  let b := s.bond k
  match b.st, b.rebuildAt, s.courseBnd k with
  | .rebuilding, some i, some (v, x) =>
    if i + 8192 ≤ x.index then
      let s := (s.cutWindows k x)
      let s := if (s.vs v).win.isNone then s.openWindow v x else s
      let s := (courseMps s.cfg.active k).foldl (fun (s : State) m =>
        (mpElems s.cfg.active m).foldl (fun s d => s.modElem (4 * m + d.e) (Elem.rebase x.u)) s) s
      let s := s.rebucket k x.index (s.time.index + 1) fun o n => if o ≠ 2 then o else if n = 6 ∧ b.members.length < 3 then 5 else n
      let s := (courseVsets s.cfg.active k).foldl (fun (s : State) v => s.flickerRestart v) s
      let s := (s.modBond k fun b => { b with st := .triplex, alloc := b.members, rebuildAt := none, atStart := false }).setReady (16 + k) true
      let s := if b.members.length < 3 then (s.toDuplex k).tryBonds else s
      .next (s.tileLevels x.index x.ns)
    else .next s
  | _, _, _ => .next s

/-- A member outvoted while its bond is rebuilt is replaced, and the rebuild restarts (R165 step 2, R177). -/
def State.replaceRebuilding (s : State) (k : Nat) (bad : List Nat) : State :=
  let s := bad.foldl (fun (s : State) t => (s.fence t).f2 0) s
  let keep := (s.bond k).members.filter fun t => !bad.contains t
  s.gather k s.time.index keep 0 .rebuilding

/-- BOND_VOTE (R155, R161, R165, R177): `bad` are the tiles whose words dissent or are late; `past` tells that the samples of the present index have been
delivered, so that a fall acts from the next. -/
def State.vote (s : State) (k : Nat) (bad : List Nat) (past : Bool) : State :=
  let b := s.bond k
  let out := b.members.filter bad.contains
  let falls := if past then s.fallNext k else s.fall k
  match b.st with
  | .triplex =>
    match out with
    | [] => s
    | [t] =>
      let s := (s.fence t).f2 0
      ((s.modBond k fun b => { b with members := b.members.filter (· != t) }).startSubst k s.time.index).tileLevelsNow
    | _ => falls
  | .duplex => if out.isEmpty then s else falls
  | .substituting =>
    if !out.isEmpty then falls
    else match b.sub with
    | some x => if x.image && bad.contains x.tile then s.rejectJoining k s.time.index else s
    | none => s
  | .rebuilding =>
    if out.isEmpty || b.rebuildAt.isNone then s
    else s.replaceRebuilding k out
  | .off | .footing => s

/-! ### Tile tests and conversions (R160, R168, R170) -/

/-- TILE_TEST_DONE (R160, R170): a fenced tile that passes becomes a WARM grout; a tile turned on a WARM grout, or a ledger tile when
the pool is full; a tile that fails becomes FAILED.  In ANALYSER too a tile turned on becomes an ACTIVE ledger tile when the pool is full, as R170 has it, though R19
and R151 keep ledger tiles COLD there: the model lets R170 decide (log 68). -/
def execTileTestDone (t : Fin 72) (pass : Bool) (s : State) : Host.Outcome State Fault Refusal :=
  let x := s.tile t
  if x.st != .testing || Tbl.get 0 s.host.island t != 0 then .next s
  else if !pass then .next (s.modTile t fun x => { x with st := .failed, fencedAt := none }).tileLevelsNow
  else
    let full := x.fencedAt.isNone && 8 ≤ s.pool
    let s := s.modTile t fun x =>
      { x with role := if full then .ledger else .grout, st := if full then .active else .warm, course := none,
               transients := if x.fencedAt.isSome then bump255 x.transients else x.transients, fencedAt := none }
    .next (s.tilesSettle.tryBonds).tileLevelsNow

/-- A ledger tile at its task boundary (R168): the conversion that waits takes effect. -/
def State.convertTile (s : State) (t : Nat) : State :=
  let x := s.tile t
  match x.leave with
  | some .toBond => s.modTile t fun x => { x with role := .grout, st := .joining, leave := none, converted := true }
  | some .toGrout =>
    ((s.modTile t fun x => { x with role := .grout, st := .warm, leave := none, course := none, converted := true }).tilesSettle.tryBonds).tileLevelsNow
  | some .toCold => (s.modTile t fun x => { x with st := .cold, leave := none }).tilesSettle
  | some .toGate => { s.modTile t fun x => { x with leave := none } with host.island := Tbl.set 0 s.host.island t 1 }
  | none => s

/-! ### Allocation (R150, R151, R485) -/

/-- Give a course its tiles: prepared within 1 ms where it is enabled, COLD where it is not. -/
def State.giveBond (s : State) (k : Nat) (l : List Nat) : State :=
  let on := courseEnabled s.cfg.active k && s.meters
  let s := l.foldl (fun (s : State) t => s.modTile t fun x =>
    { x with role := .metrology, st := if on then .joining else .cold, course := some k }) s
  s.modBond k fun b =>
    { b with alloc := l, members := if on then l else [], readyAt := s.time.index + 64, atStart := on,
             st := if on then .footing else .off }

/-- Bonds are filled from healthy tiles as groups end: course k receives the (3k + 1)th to (3k + 3)th. -/
def State.fillBonds (s : State) : State :=
  (List.range 6).foldl (fun (s : State) k =>
    let l := (s.healthy.drop (3 * k)).take 3
    if (s.bond k).alloc.isEmpty && l.length = 3 then s.giveBond k l else s) s

/-- A course that is to run and has no tiles starts on footing (R150). -/
def State.noBond (s : State) (k : Nat) : State :=
  if courseEnabled s.cfg.active k && s.meters && (s.bond k).alloc.isEmpty then s.modBond k fun b => { b with st := .footing } else s

/-- When group 8 ends: a last pair starts in DUPLEX, then the ledger tiles and the grouts (R150). -/
def State.allocateRest (s : State) : State :=
  let h := s.healthy
  let n := h.length
  let s := if n < 18 ∧ n % 3 = 2 then s.giveBond (n / 3) (h.drop (3 * (n / 3))) else s
  let rest := if n < 18 then (if n % 3 = 1 then h.drop (n - 1) else []) else h.drop 18
  let grouts := if n < 20 then rest.length else if rest.length ≤ 46 + 8 then min rest.length (max 2 (rest.length - 46)) else 8
  let led := rest.take (rest.length - grouts)
  let s := led.foldl (fun (s : State) t => s.modTile t fun x => { x with role := .ledger, st := .active, course := none }) s
  let s := (rest.drop led.length).foldl (fun (s : State) t => s.modTile t fun x => { x with role := .grout, st := .warm, course := none }) s
  -- R151: COLD ledger tiles in ANALYSER; in LEAF and RELAY the device chooses how many of them are ACTIVE (log 3)
  let d := s.draw
  let (keep, s) := match s.kiln.role with
    | .analyser => (0, s)
    | .leaf | .relay => (min led.length (min 4 led.length + d.1 % (led.length + 1)), d.2)
    | _ => (led.length, s)
  let s := (led.drop keep).foldl (fun (s : State) t => s.modTile t fun x => { x with st := .cold }) s
  ((List.range 6).foldl State.noBond s).tilesSettle

/-! ### Courses at a swap (R165, R170) -/

/-- A swap enables a course: its allocated tiles, prepared as COLD ones, and sources for those missing; the course starts on footing. -/
def State.bondOn (s : State) (k : Nat) : State :=
  let own := (s.bond k).alloc.filter fun t => (s.tile t).st == .cold
  let s := own.foldl (fun (s : State) t => s.modTile t fun x => { x with st := .joining, course := some k }) s
  (s.modBond k fun b => { b with sub := none, failRun := 0, runFrom := none }).gather k s.time.index own (if own.isEmpty then 0 else 1284) .rebuilding

/-- May a tile of a course that ends be COLD at once: not while its fence is unfinished, nor after it failed (R160)? -/
def TileState.sound : TileState → Bool
  | .fenced | .testing | .failed => false
  | _ => true

/-- A swap disables a course: the substitution is cancelled, the joining tile takes the fenced member's place, and every tile of the course
becomes COLD. -/
def State.bondOff (s : State) (k : Nat) : State :=
  let b := s.bond k
  let join := match b.sub with | some x => if (s.tile x.tile).st == TileState.joining then [x.tile] else [] | none => []
  let s := match b.sub with | some x => if join.isEmpty then s.releaseTile x.tile else s | none => s
  let m := (if (b.members ++ join).isEmpty then b.alloc.filter (fun t => (s.tile t).course == some k) else b.members ++ join).filter fun t =>
    (s.tile t).st.sound
  let s := m.foldl (fun (s : State) t => s.modTile t fun x =>
    if x.leave == some .toBond then { x with leave := none, course := none }
    else { x with role := .metrology, st := .cold, course := some k }) s
  let s := s.modBond k fun b =>
    { b with st := .off, members := [], alloc := m.filter fun t => (s.tile t).st == .cold, sub := none, failRun := 0, runFrom := none,
             rebuildAt := none, atStart := false }
  (s.tilesSettle.tryBonds).tileLevelsNow

/-- A swap changes a COURSEk key: LATCHED ends (R165). -/
def State.unlatch (s : State) (k : Nat) : State :=
  if (s.bond k).latched then (s.modBond k fun b => { b with latched := false, falls := [] }).tryBonds.tileLevelsNow else s

/-! ### Availability (R174) -/

/-- Channels of enabled voltage sets and metering points on a course. -/
def courseUsed (ks : KeySet) (k : Nat) : List Nat :=
  (((enabledVsets ks).flatMap fun v => (vsChannels ks v).filterMap id) ++ ((enabledMps ks).flatMap fun m => (mpChannels ks m).filterMap id)).filter
    fun c => courseOf c == k

/-- The bucket of a course at this sample index, in the table's order, and the one it would take with increments from a bond of three; `reduced` is the bond's
state before the vote of this index. -/
def State.bucket (s : State) (k : Nat) (reduced : Bool) : Nat × Nat :=
  let bad := (courseUsed s.cfg.active k).filter fun c => isInvalid (s.chan c).tag
  let sound := if bad.any fun c => decide (0 < (s.chan c).lostLeft) || (s.chan c).frontFailed then 3 else if !bad.isEmpty then 4 else 6
  (match (if s.courseLost k then IncSource.lost else s.incSource k) with
  | .lost => 0
  | .footing => 2
  | .bond => if sound = 6 ∧ reduced then 5 else sound, sound)

/-- Count one sample index (R174): every enabled course, the device's first bucket, and all indexes. -/
def State.countIndex (s : State) (reduced : Nat → Bool) : State :=
  let bs := if s.meters then (enabledCourses s).map fun k => (k, s.bucket k (reduced k)) else []
  let cs := bs.foldl (fun t e => Tbl.upd 0 t (7 * e.1 + e.2.1) (· + 1)) s.tiles.av.course
  let first := firstBucket bs
  let dev := (List.range 8).map fun i => (s.tiles.av.device.getD i 0 + (if i = first ∧ i < 7 then 1 else 0) + (if i = 7 then 1 else 0)) % 2 ^ 64
  let runs := match s.tiles.runs with
    | r :: t => if r.course = bs ∧ r.first + r.count = s.time.index then { r with count := r.count + 1 } :: t else ⟨s.time.index, 1, bs⟩ :: r :: t
    | [] => [⟨s.time.index, 1, bs⟩]
  { s with tiles.av := { s.tiles.av with device := dev, course := cs }, tiles.runs := runs.take 4096 }

/-- The 432-byte record of R175. -/
def State.availRecord (s : State) : Bytes :=
  let a := s.tiles.av
  leBytes 8 s.time.index ++ leBytes 8 a.resetGap ++ leBytes 8 a.outage ++ leBytes 1 a.restored.toNat ++ zeros 7
    ++ a.device.flatMap (leBytes 8) ++ (List.range 42).flatMap fun i => leBytes 8 (Tbl.get 0 a.course i)

/-! ### Status words (R171, R172) -/

def TileRole.code : TileRole → Nat | .metrology => 0 | .ledger => 1 | .grout => 2 | .none => 3
def TileState.code : TileState → Nat
  | .active => 0 | .warm => 1 | .cold => 2 | .joining => 3 | .fenced => 4 | .testing => 5 | .failed => 6
def BondState.code : BondState → Nat
  | .off => 0 | .triplex => 1 | .substituting => 2 | .duplex => 3 | .footing => 4 | .rebuilding => 5

def Tile.word (x : Tile) (bay : Nat) : Nat :=
  x.role.code + 4 * x.st.code + 32 * (x.course.getD 7) + 256 * x.kilnFail.toNat + 512 * x.converted.toNat
    + 65536 * Tbl.get 0 x.transients bay + 2 ^ 24 * Tbl.get 0 x.fences bay

def Bond.word (x : Bond) (bay : Nat) : Nat :=
  let m := x.members ++ (match x.sub with | some y => [y.tile] | none => [])
  x.st.code + 8 * x.footFail.toNat + 16 * (Tbl.get false x.checkFail bay).toNat + 32 * x.latched.toNat
    + 256 * m.getD 0 255 + 65536 * m.getD 1 255 + 2 ^ 24 * m.getD 2 255

/-- DIAG_TILE_STATUS (R171, R172): a read clears the RC fields of its bay. -/
def bodyDiagTileStatus : Body := fixedBody 0 [] fun c _ s =>
  let out := (allTiles.flatMap fun t => leBytes 4 ((s.tile t).word c.bay)) ++ ((List.range 6).flatMap fun k => leBytes 4 ((s.bond k).word c.bay))
  let s := allTiles.foldl (fun (s : State) t => s.modTile t fun x =>
    { x with transients := Tbl.set 0 x.transients c.bay 0, fences := Tbl.set 0 x.fences c.bay 0 }) s
  let s := (List.range 6).foldl (fun (s : State) k => s.modBond k fun x => { x with checkFail := Tbl.set false x.checkFail c.bay false }) s
  (s, .reply (Res.ok out))

def execDiagTileStatus (p : Packet) (s : State) : Host.Outcome State Fault Refusal := .next (command 0x0E20 bodyDiagTileStatus p s)

/-- DIAG_AVAIL_READ (R175). -/
def bodyDiagAvailRead : Body := fixedBody 0 [] (readBody fun _ _ s => Res.ok s.availRecord)

def execDiagAvailRead (p : Packet) (s : State) : Host.Outcome State Fault Refusal := .next (command 0x0E21 bodyDiagAvailRead p s)

end Sys2Proof.Machine
end

