-- ==== Sys2Proof/Machine/Links.lean ====
section
/-! DEFINITION. Ledger pallets (12): entries (R313, R314, R332), the leaf's open pallet and what it keeps until an
acknowledgement (R316 to R318), the root's pallets, and the classes of work refused (R320, R321). -/

namespace Sys2Proof.Machine

/-! ### Times and intervals -/

/-- Minutes since 2000-01-01 00:00 UTC. -/
def State.utcMin (s : State) : Nat := s.utcNs / (60 * second)

/-- LEDGER.INTERVAL_MIN, never 0. -/
def State.interval (s : State) : Nat := max 1 (s.key (kLedger 0))

/-- The interval end at or before a time in minutes. -/
def State.intervalAt (s : State) (min : Nat) : Nat := min / s.interval * s.interval

/-- The number of the poll cycle of `sec` seconds and the time into it in ns (R274): on UTC, or on the sample index while time
is invalid. -/
def State.cycleOf (s : State) (sec : Nat) : Nat × Nat :=
  let sec := max 1 sec
  if s.time.valid then (s.utcNs / (sec * second), s.utcNs % (sec * second))
  else (s.time.index / (sec * 64000), s.time.index % (sec * 64000) * 15625)

/-! ### Entries (R313) -/

/-- READING and METER_SNAP (R314). -/
def readingEntry (type chan addr end_ identity status latch : Nat) (reg : List Nat) : Bytes :=
  leBytes 1 type ++ leBytes 1 chan ++ leBytes 2 addr ++ leBytes 4 end_ ++ leBytes 8 identity ++ leBytes 2 status
    ++ leBytes 1 latch ++ zeros 5 ++ (List.range 4).flatMap fun i => leBytes 8 (reg.getD i 0)

def presenceEntry (chan addr event identity time : Nat) : Bytes :=
  leBytes 1 4 ++ leBytes 1 chan ++ leBytes 2 addr ++ leBytes 1 event ++ leBytes 8 identity ++ leBytes 8 time ++ zeros 3

def keyRequestEntry (chan addr identity : Nat) : Bytes :=
  leBytes 1 5 ++ leBytes 1 chan ++ leBytes 2 addr ++ zeros 4 ++ leBytes 8 identity ++ zeros 8

def pushReportEntry (state next job identity version : Nat) : Bytes :=
  leBytes 1 6 ++ leBytes 1 state ++ leBytes 2 next ++ leBytes 4 job ++ leBytes 8 identity ++ leBytes 4 version ++ zeros 4

def ackEntry (status seq : Nat) : Bytes := leBytes 1 0x41 ++ leBytes 1 status ++ zeros 6 ++ leBytes 8 seq
def snapCmdEntry (id t : Nat) : Bytes := leBytes 1 0x42 ++ zeros 3 ++ leBytes 4 id ++ leBytes 8 t ++ zeros 8

def keyGrantEntry (result version identity : Nat) (key : Bytes) : Bytes :=
  leBytes 1 0x43 ++ leBytes 1 result ++ zeros 2 ++ leBytes 4 version ++ leBytes 8 identity ++ fitBytes 24 key ++ zeros 8

/-- PUSH_DATA of whole blocks of 64 bytes. -/
def pushDataEntry (kind count block job total : Nat) (data : Bytes) : Bytes :=
  leBytes 1 0x44 ++ leBytes 1 kind ++ leBytes 1 count ++ leBytes 2 block ++ leBytes 4 job ++ leBytes 2 total ++ zeros 5
    ++ fitBytes (64 * count) data

def pushTargetEntry (kind job identity activateAt version : Nat) : Bytes :=
  leBytes 1 0x45 ++ leBytes 1 kind ++ zeros 2 ++ leBytes 4 job ++ leBytes 8 identity ++ leBytes 8 activateAt
    ++ leBytes 4 version ++ zeros 4

def lockEntry (cause identity : Nat) : Bytes := leBytes 1 0x46 ++ zeros 3 ++ leBytes 4 cause ++ leBytes 8 identity

/-- The size of the entry at the front of a body, `none` for an unknown TYPE (R313). -/
def entrySize (b : Bytes) : Option Nat :=
  match fld b 0 1 with
  | 1 | 2 | 3 => some 56
  | 4 | 5 | 6 => some 24
  | 0x41 | 0x46 => some 16
  | 0x42 => some 24
  | 0x43 => some 48
  | 0x44 => let n := fld b 2 1; if 1 ≤ n ∧ n ≤ 60 then some (16 + 64 * n) else none
  | 0x45 => some 32
  | _ => none

/-- The kind of pallet an entry type travels in (R313). -/
def entryKind (type : Nat) : Nat := if type < 0x41 then 0 else if type = 0x41 then 2 else 1

/-- Cut a body of `n` entries into them; `none` when a TYPE is unknown or the sizes do not fill it. -/
def splitEntries : Nat → Bytes → Option (List Bytes)
  | 0, b => if b.isEmpty then some [] else none
  | n + 1, b =>
    match entrySize b with
    | some k => if b.length < k then none else (splitEntries n (b.drop k)).map fun t => b.take k :: t
    | none => none

/-! ### Pallets (R312) -/

/-- A pallet of this device as it leaves. -/
def State.mkPallet (s : State) (kind dest seq : Nat) (es : List Bytes) : Pallet :=
  let b := es.flatMap id
  { magic := 0x504C, version := 1, kind := kind, source := s.kiln.devId, dest := dest, epoch := s.mortar.epoch,
    entries := es.length, length := 48 + b.length, seq := seq, tagOk := true, body := b }

/-- Is this device attached: a member, or the root (R360)? -/
def State.attached (s : State) : Bool :=
  match s.mortar.stt with | .member | .root => true | _ => false

/-- Send a pallet by R358: DEST 1023 on every DOWN lane, a MIRROR pallet on its lane while that is UP, else on its route. -/
def State.emit (s : State) (cls : Nat) (p : Pallet) : State :=
  let u := LaneTx.unit cls p.source p.dest p.seq (.pallet p)
  if p.dest = 1023 then (s.upLanes 2).foldl (fun (s : State) m => s.laneSend m u) s
  else
    match (if p.kind = 3 then (s.upLanes 3).head? else none).orElse (fun _ => s.route p.dest) with
    | some m => s.laneSend m u
    | none => s

/-! ### The leaf's UP pallets (R316 to R318) -/

/-- The entries of an open pallet that fit one pallet, and the rest. -/
def fitEntries : Nat → List Bytes → List Bytes × List Bytes
  | _, [] => ([], [])
  | room, e :: t =>
    if e.length ≤ room then let r := fitEntries (room - e.length) t; (e :: r.1, r.2) else ([], e :: t)

/-- Bytes of entries one pallet holds. -/
def palletRoom : Nat := 4096 - 48

/-- The pallet-buffer region (R23, R318). -/
def palletBuffer : Nat := 65536

/-- EV0864 and EV0865 follow the fill of the region. -/
def State.backlog (s : State) : State :=
  let n := s.ledger.sent.length
  let warn := decide (palletBuffer * s.key (kLedger 6) ≤ 100 * n)
  let full := decide (palletBuffer ≤ n)
  (({ s with ledger.backWarn := warn, ledger.backFull := full }).level 864 warn).level 865 full

/-- Close the open pallet and send it upstream (R316); with the region full it stays open (R318). -/
def State.closeUp (s : State) : State :=
  if s.ledger.openUp.isEmpty ∨ palletBuffer ≤ s.ledger.sent.length then s
  else
    let c := fitEntries palletRoom s.ledger.openUp
    let seq := s.ledger.upSeq + 1
    let p := s.mkPallet 0 (s.key (kMortar 0)) seq c.1
    let s := { s with ledger.openUp := c.2, ledger.openSince := s.time.mono, ledger.upSeq := seq,
                      ledger.sent := s.ledger.sent ++ [SentPallet.mk seq c.1 s.time.mono] }
    (if s.attached then s.emit 0 p else s).backlog

/-- Append an entry to the open pallet; one that would pass 4,096 bytes closes it first (R316). -/
def State.appendUp (s : State) (e : Bytes) : State :=
  let s := if (s.ledger.openUp.map (·.length)).sum + e.length > palletRoom then s.closeUp else s
  { s with ledger.openUp := s.ledger.openUp ++ [e],
           ledger.openSince := if s.ledger.openUp.isEmpty then s.time.mono else s.ledger.openSince }

/-- Send every kept pallet that `sel` names again, with its authenticated content unchanged (R312, R317). -/
def State.resend (s : State) (sel : SentPallet → Bool) : State :=
  if !s.attached then s
  else
    let root := s.key (kMortar 0)
    let s1 := { s with ledger.sent := s.ledger.sent.map fun p => if sel p then { p with last := s.time.mono } else p }
    (s.ledger.sent.filter sel).foldl (fun (s : State) p => s.emit 0 (s.mkPallet 0 root p.seq p.entries)) s1

/-! ### DOWN and ACK pallets of the root -/

/-- The device is a member in the root's device table (R372). -/
def State.devMember (s : State) (d : Nat) : Bool :=
  match Tbl.get none s.mortar.table d with | some e => e.state == 1 | none => false

/-- Entries that wait while their device has departed (R363): KEY_GRANT, LOCK, PUSH_DATA and PUSH_TARGET. -/
def requeued (e : Bytes) : Bool := [0x43, 0x44, 0x45, 0x46].contains (fld e 0 1)

/-- Send one entry to a device in a DOWN pallet.  While the device has departed its entry waits (R363). -/
def State.sendDown (s : State) (dest : Nat) (e : Bytes) : State :=
  if dest ≠ 1023 ∧ !s.devMember dest ∧ (Tbl.get none s.mortar.table dest).isSome ∧ requeued e then
    { s with ledger.downQ := s.ledger.downQ ++ [(dest, e)] }
  else
    let seq := s.ledger.downSeq + 1
    let cls := if fld e 0 1 = 0x42 then 0 else 1
    ({ s with ledger.downSeq := seq }).emit cls (s.mkPallet 1 dest seq [e])

/-- The entries that wait for a device that is a member again are sent. -/
def State.flushDown (s : State) (dest : Nat) : State :=
  let w := s.ledger.downQ.filter fun x => x.1 = dest
  w.foldl (fun (s : State) x => s.sendDown dest x.2) { s with ledger.downQ := s.ledger.downQ.filter fun x => x.1 ≠ dest }

/-- Answer a pallet (R317). -/
def State.sendAck (s : State) (dest status seq : Nat) : State :=
  let n := s.ledger.ackSeq + 1
  ({ s with ledger.ackSeq := n }).emit 0 (s.mkPallet 2 dest n [ackEntry status seq])

/-! ### Refused classes (R320, R321) -/

/-- Is work of a QoS class refused? -/
def State.shed (s : State) (cls : Nat) : Bool := 1 ≤ cls && cls ≤ 3 && s.ledger.refused.getLsbD (cls - 1)

/-- The classes refused at a queue of `us` with `n` ledger tiles ACTIVE: Q3 above 1 s, Q2 above 2 s, Q1 above 4 s, each until
below half its threshold. -/
def shedClasses (us n : Nat) (old : BitVec 3) : BitVec 3 :=
  let bit (i thr : Nat) : Bool :=
    if us > thr * 1000000 * n then true else if 2 * us < thr * 1000000 * n then false else old.getLsbD i
  BitVec.ofNat 3 (bitsNat [bit 0 4, bit 1 2, bit 2 1])

/-- The queued work is measured. -/
def State.measureQueue (s : State) (us : Nat) : State :=
  let r := shedClasses us s.ledgerActive s.ledger.refused
  ({ s with ledger.queueUs := us, ledger.refused := r }).level 840 (r != 0)

/-- A ledger command is refused with CAPACITY while its class is shed (R320): of a tenant bay in the bay's class, a push of B0 or B1
in Q1; wrong parameters come first (R381 steps 14 and 15). -/
def shedBody (push : Bool) (f : Body) : Body := fun c p s =>
  let cls := if 2 ≤ c.bay then (s.qosOf c.bay).cls else if push then 1 else 0
  let r := f c p s
  if s.shed cls && !r.2.badParam then (s, .reply (Res.err stCapacity subShed)) else r

/-! ### Local meters of a leaf (R308) -/

def State.meter (s : State) (a : Nat) : Option LeafMeter := Tbl.get none s.ledger.meter a

def State.modMeter (s : State) (a : Nat) (g : LeafMeter → LeafMeter) : State :=
  { s with ledger.meter := Tbl.upd none s.ledger.meter a fun m => m.map g }

/-- Confirmed meters of a channel: 0 power line (addresses 1 to 1,024), 1 radio (1,025 to 2,048). -/
def chanOf (a : Nat) : Nat := if a ≤ 1024 then 0 else 1

def State.metersOn (s : State) (chan : Nat) : List (Nat × LeafMeter) :=
  s.ledger.meter.filterMap fun x => match x.2 with
    | some m => if chanOf x.1 = chan then some (x.1, m) else none
    | none => none

/-- The local address of an identity. -/
def State.meterAddr (s : State) (identity : Nat) : Option Nat :=
  (s.ledger.meter.find? fun x => match x.2 with | some m => m.identity == identity | none => false).map (·.1)

/-- The counters of R271 of an identity at this leaf: the last one sent down and the last one accepted. -/
def State.idCtr (s : State) (identity : Nat) : Nat × Nat :=
  match (s.meterAddr identity).bind s.meter with
  | some m => (m.ctrDown, m.ctrUp)
  | none => ((s.ledger.ctrs.find? (·.1 == identity)).map (·.2)).getD (0, 0)

/-- Keep the counters of an identity that has no entry. -/
def State.keepCtr (s : State) (identity down up : Nat) : State :=
  { s with ledger.ctrs := (identity, down, up) :: s.ledger.ctrs.filter (·.1 != identity) }

/-- The next counter of an identity is used. -/
def State.useCtr (s : State) (identity : Nat) : State :=
  let c := s.idCtr identity
  match s.meterAddr identity with
  | some a => s.modMeter a fun m => { m with ctrDown := m.ctrDown + 1 }
  | none => s.keepCtr identity (c.1 + 1) c.2

/-- TABLE_FULL and its sources: 1,024 confirmed meters of a channel (R273, R279, R300). -/
def State.tableLevels (s : State) : State :=
  let line := decide (1024 ≤ (s.metersOn 0).length)
  let air := decide (1024 ≤ (s.metersOn 1).length)
  (({ s with plc.tableFull := line, radio.tableFull := air }).level 820 line).level 835 air

/-- An entry leaves the leaf's table; its address is quarantined from the last frame that used it (R279), its counters are kept (R271). -/
def State.dropMeter (s : State) (a : Nat) : State :=
  match s.meter a with
  | some m =>
    let s := s.keepCtr m.identity m.ctrDown m.ctrUp
    { s with ledger.meter := Tbl.set none s.ledger.meter a none, plc.quar := s.plc.quar ++ [(a, m.lastFrame)],
             plc.dueQ := s.plc.dueQ.filter (· != a), plc.repQ := s.plc.repQ.filter (· != a),
             radio.dueQ := s.radio.dueQ.filter (· != a), ledger.catchUp := Tbl.set 0 s.ledger.catchUp a 0 }.tableLevels
  | none => s

def State.heldKey (s : State) (identity : Nat) : Option HeldKey := s.ledger.keys.find? (·.identity == identity)
def State.isLocked (s : State) (identity : Nat) : Bool := s.ledger.locked.contains identity

/-- A presence change enters the open pallet (R316): 0 confirmed, 1 absent, 2 returned. -/
def State.presence (s : State) (a event identity : Nat) : State :=
  s.appendUp (presenceEntry (chanOf a) a event identity s.stampNs)

/-- The leaf locks an identity and raises the clone alarm (R280, R300): its record is LOCKED, its polling stops. -/
def State.cloneLock (s : State) (identity : Nat) : State :=
  let s := if s.isLocked identity then s else { s with ledger.locked := identity :: s.ledger.locked }
  s.pulse 852

/-- A valid READING enters the record and the open pallet (R316). -/
def State.takeReading (s : State) (a : Nat) (m : LeafMeter) (body : Bytes) : State :=
  let e := fld body 0 4
  let st := fld body 4 2
  let reg := (List.range 4).map fun i => fld body (8 + 8 * i) 8
  let s := s.modMeter a fun m => if m.lastEnd ≤ e then { m with lastEnd := e, lastStatus := st, reg := reg } else m
  let nxt := e + s.interval
  let c := Tbl.get 0 s.ledger.catchUp a
  let c' := if c ≠ 0 ∧ c = e then (if nxt ≤ s.utcMin then nxt else 0) else c
  ({ s with ledger.catchUp := Tbl.set 0 s.ledger.catchUp a c' }).appendUp
    (readingEntry 1 (chanOf a) a e m.identity st 0 reg)

/-- After the region was full (R318): every meter present is polled for the interval ends after its latest reading. -/
def State.startCatchUp (s : State) : State :=
  { s with ledger.catchUp := s.ledger.meter.foldl (fun t x => match x.2 with
      | some m =>
        if m.present ∧ m.lastEnd ≠ 0 ∧ m.lastEnd + s.interval ≤ s.utcMin then Tbl.set 0 t x.1 (m.lastEnd + s.interval) else t
      | none => t) s.ledger.catchUp }

/-- The readings of an acknowledged pallet: each meter's latest acknowledged END (R469). -/
def State.ackReadings (s : State) (es : List Bytes) : State :=
  es.foldl (fun (s : State) e =>
    if fld e 0 1 = 1 then
      match s.meterAddr (fld e 8 8) with
      | some a => s.modMeter a fun m => { m with acked := max m.acked (fld e 4 4) }
      | none => s
    else s) s

/-- Pallets leave the region at their acknowledgement; when space returns, the meters behind are polled. -/
def State.dropSent (s : State) (seq : Nat) : State :=
  let wasFull := s.ledger.backFull
  let s := (s.ledger.sent.filter fun p => p.seq == seq).foldl (fun (s : State) p => s.ackReadings p.entries) s
  let s := ({ s with ledger.sent := s.ledger.sent.filter fun p => p.seq ≠ seq }).backlog
  if wasFull ∧ !s.ledger.backFull then s.startCatchUp else s

/-- METER_SNAP of a meter (R314); its METER_STATUS is a free value, for no message of a latch carries one (log 21). -/
def State.meterSnap (s : State) (a identity id latch : Nat) (reg : List Nat) : State :=
  let d := s.draw
  d.2.appendUp (readingEntry 2 (chanOf a) a id identity (d.1 % 2 ^ 16) latch reg)

/-! ### Pushes at a leaf (R343 to R346) -/

/-- PUSH_SEG (R343). -/
def pushSegBody (job kind count block total half version : Nat) (data : Bytes) : Bytes :=
  leBytes 4 job ++ leBytes 1 kind ++ leBytes 1 count ++ leBytes 2 block ++ leBytes 2 total ++ leBytes 1 half ++ zeros 1
    ++ leBytes 4 version ++ data

/-- COUNT of R344 for a message limit: 0 where only half blocks fit. -/
def pushCount (limit : Nat) : Nat := min 8 ((limit - 28) / 64)

def LeafJob.block (j : LeafJob) (i : Nat) : Bytes := fitBytes 64 (Tbl.get [] j.blocks i)
def LeafJob.has (j : LeafJob) (i : Nat) : Bool := (j.blocks.lookup i).isSome

/-- Blocks that have come without a gap from block `i` on, at most `n`. -/
def LeafJob.run (j : LeafJob) : Nat → Nat → Nat
  | 0, _ => 0
  | n + 1, i => if j.has i then j.run n (i + 1) + 1 else 0

/-- The segment with blocks from `i` on that a message limit admits: its body and the block after it.  Where no whole block
fits, a half block (`second` for its second half). -/
def LeafJob.segment (j : LeafJob) (limit i : Nat) (second : Bool) : Bytes × Nat × Bool :=
  let n := pushCount limit
  if n = 0 then
    let d := ((j.block i).drop (if second then 32 else 0)).take 32
    (pushSegBody j.id j.kind 1 i j.total (if second then 2 else 1) j.version d, if second then (i + 1, false) else (i, true))
  else
    let k := j.run n i
    (pushSegBody j.id j.kind k i j.total 0 j.version ((List.range k).flatMap fun x => j.block (i + x)), (i + k, false))

/-- A query of a target (COUNT 0), or its activation (KIND 5, R345). -/
def LeafJob.query (j : LeafJob) (activate : Bool) (next : Nat) : Bytes :=
  pushSegBody j.id (if activate then 5 else j.kind) 0 next j.total 0 j.version []

def State.modLeafJob (s : State) (id : Nat) (g : LeafJob → LeafJob) : State :=
  { s with ledger.leafJobs := s.ledger.leafJobs.map fun j => if j.id = id then g j else j }

def State.leafJob (s : State) (id : Nat) : Option LeafJob := s.ledger.leafJobs.find? (·.id == id)

/-- A job as a target gets it: of a meter-key push its own new key, encrypted under its current one, as the one block (R346, log 23). -/
def State.jobFor (s : State) (j : LeafJob) (identity : Nat) : LeafJob :=
  if j.kind ≠ 2 then j
  else match (s.heldKey identity).bind fun k => k.new.map fun n => Config.keyWrap k.key n.1 with
  | some d => { j with total := 1, blocks := [(0, fitBytes 64 d)] }
  | none => { j with total := 0, blocks := [] }

/-- The new keys of a meter-key push, a block each, go to its targets in their order (log 23): the first ones that have none yet. -/
def State.newKeys (s : State) (j : LeafJob) (blocks : List Bytes) : State :=
  let l := (j.targets.filter fun t => decide (t.state < 3) && ((s.heldKey t.identity).elim false fun k => k.new.isNone)).zip blocks
  l.foldl (fun (s : State) x =>
    { s with ledger.keys := s.ledger.keys.map fun (k : HeldKey) =>
        if k.identity = x.1.identity then { k with new := some (x.2.take 16, j.version) } else k }) s

/-- Does a target have work on a channel: a query or data before it is COMPLETE, its activation after?  A key of its own
is never broadcast. -/
def LeafJob.wants (j : LeafJob) (sent : Bool) (t : Target) : Bool :=
  if t.state = 1 ∨ t.state = 2 then (sent || j.kind == 2) && decide (0 < j.total) && (t.state == 1 || j.has t.next)
  else t.state == 3 && j.active

/-- A target's state changes: the root hears of it (R345), and a meter key comes into force at DONE (R346). -/
def State.targetTo (s : State) (j : LeafJob) (t : Target) (st : Nat) : State :=
  if t.state = st then s
  else
    let s := s.modLeafJob j.id fun j =>
      { j with targets := j.targets.map fun x => if x.identity = t.identity then { x with state := st } else x }
    let s := if st = 4 ∧ j.kind = 2 then
        { s with ledger.keys := s.ledger.keys.map fun k => match k.new with
            | some n => if k.identity = t.identity then { k with key := n.1, version := n.2, new := none } else k
            | none => k }
      else if st = 5 ∧ j.kind = 2 then
        { s with ledger.keys := s.ledger.keys.map fun (k : HeldKey) => if k.identity = t.identity then { k with new := none } else k }
      else s
    s.appendUp (pushReportEntry st t.next j.id t.identity j.version)

/-- A PUSH_ACK of a target (R343, R345). -/
def State.pushAck (s : State) (identity : Nat) (body : Bytes) : State :=
  match s.leafJob (fld body 0 4) with
  | none => s
  | some j =>
    match j.targets.find? (·.identity == identity) with
    | none => s
    | some t =>
      if 4 ≤ t.state then s
      else
        let next := max t.next (fld body 6 2)
        let t := { t with next := next }
        let s := s.modLeafJob j.id fun j =>
          { j with targets := j.targets.map fun x => if x.identity = identity then { x with next := next } else x }
        match fld body 4 1 with
        | 0 => s.targetTo j t 2
        | 1 => s.targetTo j t 3
        | 2 => s.targetTo j t 4
        | 3 | 4 => s.targetTo j t 5
        | _ => s

/-- The end of a poll cycle for the targets of a channel (R345): one without progress counts a try, PUSH_CYCLES of them fail it; an
absent meter counts none. -/
def State.pushCycle (s : State) (chan : Nat) : State :=
  s.ledger.leafJobs.foldl (fun (s : State) j =>
    j.targets.foldl (fun (s : State) t =>
      let here := match s.meterAddr t.identity with
        | some a => chanOf a == chan && ((s.meter a).elim false (·.present))
        | none => false
      if !here ∨ 3 ≤ t.state then s
      else
        let tries := if t.next = t.lastNext then t.tries + 1 else t.tries
        let s := s.modLeafJob j.id fun j =>
          { j with targets := j.targets.map fun x =>
              if x.identity = t.identity then { x with tries := tries, lastNext := t.next } else x }
        if s.key (kLedger 12) ≤ tries then s.targetTo j { t with tries := tries } 5 else s) s) s

end Sys2Proof.Machine
end

