-- ==== Sys2Proof/Machine/Plc.lean ====
section
/-! DEFINITION. The power-line port (10): the slot grid, exchanges, polling, search, latching, line supervision and its
commands. -/

namespace Sys2Proof.Machine

/-! ### The port -/

/-- PLC.ZC_VSET. -/
def State.plcVset (s : State) : Nat := s.key (kPlc 3)

/-- Does the port run: LEAF, enabled, started, its island on (R263, R273, R428)? -/
def State.plcRun (s : State) : Bool :=
  s.kiln.role == .leaf && s.keyOn (kPlc 0) && s.ready 27 && !s.fault.f4 && Tbl.get 0 s.host.island 93 == 0

/-- Is the transmitter available (R264, R285)? -/
def State.plcTxOn (s : State) : Bool := s.plcRun && s.plc.lev != 0 && !s.plc.lineShort

/-- Misses are not counted against meters (R267, R285). -/
def State.plcHeld (s : State) : Bool := s.plc.openCoupling || s.plc.lineShort || s.plc.freqHold || !s.plcRun

/-- The payload limit p of R267. -/
def plcPayload (hz : Nat) (robust : Bool) : Nat :=
  if hz = 60 then (if robust then 8 else 58) else (if robust then 12 else 72)

def State.plcP (s : State) (robust : Bool) : Nat := plcPayload (vsNomF s.cfg.active s.plcVset) robust

/-- The longest frame of R267: header, payload and FCS. -/
def State.plcFrameMax (s : State) (robust : Bool) : Nat := s.plcP robust + 8

/-- Slots of a message of `n` bytes (R272). -/
def State.plcSlots (s : State) (robust : Bool) (n : Nat) : Nat := max 1 (ceilDiv n (s.plcP robust))

/-- The mode of an exchange with a meter (R275, R276): a repeat is robust in MODE 0. -/
def State.plcMode (s : State) (m : LeafMeter) (again : Bool) : Bool :=
  match s.key (kPlc 1) with
  | 0 => m.robust || again
  | 1 => false
  | _ => true

/-! ### Frames (R269, R270) -/

/-- A frame whose header stands: TYPE, fragment index, MORE, ADDR, payload and whether the FCS is right. -/
structure LineFrame where
  type : Nat
  frag : Nat
  more : Bool
  addr : Nat
  payload : Bytes
  fcsOk : Bool
  deriving DecidableEq, Repr

/-- Bytes received as a frame of at most `limit` bytes to the leaf `net` (R267, R269): `none` where a length, NET, a reserved bit or a reserved TYPE is wrong. -/
def lineFrame (net limit : Nat) (b : Bytes) : Option LineFrame :=
  let n := b.length - 2
  if b.length < 8 ∨ limit < b.length ∨ b.length ≠ 8 + fld b 5 1 ∨ fld b 1 2 ≠ net ∨ 2048 ≤ fld b 3 2 ∨ 12 ≤ fld b 0 1 % 16 then none
  else some { type := fld b 0 1 % 16, more := (fld b 0 1).testBit 4, frag := fld b 0 1 / 32, addr := fld b 3 2, payload := (b.drop 6).take (n - 6),
              fcsOk := (crc16 (b.take n)).toNat == fld b n 2 }

/-- The payloads of fragments `i` on, in order, all of one TYPE and address, MORE on all but the last (R270, R272). -/
def lineJoin (type addr : Nat) : Nat → List (Option LineFrame) → Option Bytes
  | _, [] => some []
  | _, none :: _ => none
  | i, some f :: t =>
    if !f.fcsOk ∨ f.type ≠ type ∨ f.addr ≠ addr ∨ f.frag ≠ i ∨ f.more ≠ !t.isEmpty then none
    else (lineJoin type addr (i + 1) t).map fun m => f.payload ++ m

/-- The message that frames spell, of which each must start within the search window of its slot (R268): TYPE, ADDR and the bytes. -/
def lineMessage (net limit : Nat) (frames : List (Int × Bytes)) : Option (Nat × Nat × Bytes) :=
  if frames.any fun f => f.1 < 100 ∨ 400 < f.1 then none
  else match frames.map fun f => lineFrame net limit f.2 with
  | some f :: t => (lineJoin f.type f.addr 0 (some f :: t)).map fun m => (f.type, f.addr, m)
  | _ => none

/-- The frames of a message with payloads of at most `p` bytes (R269). -/
def lineFrames (net type addr p : Nat) (m : Bytes) : List Bytes :=
  let n := max 1 (ceilDiv m.length p)
  (List.range n).map fun i =>
    let d := (m.drop (p * i)).take p
    let b := leBytes 1 (type + (if i + 1 < n then 16 else 0) + 32 * i) ++ leBytes 2 net ++ leBytes 2 addr ++ leBytes 1 d.length ++ d
    b ++ leBytes 2 (crc16 b).toNat

/-- What a message sent looks like on the line (R269 to R271): SEARCH has no trailer. -/
def State.plcOnLine (s : State) (f : PFrame) : List Bytes :=
  lineFrames s.kiln.devId f.type f.addr (s.plcP f.robust) (f.body ++ if f.type = 2 then [] else
    leBytes 4 f.ctr ++ fitBytes 8 (Config.lineMic s.kiln.devId f.addr f.type f.ctr f.body))

/-! ### Sending -/

/-- A message goes out from the present slot; a secured one (`ctr`) carries its counter. -/
def State.plcSend (s : State) (type addr : Nat) (body : Bytes) (robust : Bool) (ctr : Nat) : State :=
  { s with plc.sent := { slot := s.plc.slotN, type := type, addr := addr, body := body, robust := robust, ctr := ctr } :: s.plc.sent }

/-- Start an exchange in the present slot (R272). -/
def State.plcExchange (s : State) (kind : PKind) (type addr : Nat) (body : Bytes) (up : Nat) (robust : Bool) (ctr : Nat) :
    State :=
  let s := s.plcSend type addr body robust ctr
  { s with plc.exch := some { kind := kind, addr := addr, start := s.plc.slotN,
                              down := s.plcSlots robust (body.length + 12), up := s.plcSlots robust up, robust := robust } }

/-- A broadcast occupies the port for the slots of its message. -/
def State.plcBroadcast (s : State) (type : Nat) (body : Bytes) (trailer : Nat) (robust : Bool) (ctr : Nat) : State :=
  let s := s.plcSend type 0 body robust ctr
  { s with plc.busyUntil := s.plc.slotN + s.plcSlots robust (body.length + trailer) }

/-- An exchange with a confirmed meter under its next counter. -/
def State.plcToMeter (s : State) (a : Nat) (m : LeafMeter) (kind : PKind) (type : Nat) (body : Bytes) (up : Nat) (again : Bool) :
    State :=
  let s := s.modMeter a fun m => { m with ctrDown := m.ctrDown + 1, attempts := if again then m.attempts + 1 else 1,
                                          repeatAt := none, again := some kind, lastFrame := s.time.mono }
  s.plcExchange kind type a body up (s.plcMode m again) (m.ctrDown + 1)

/-- The exchange of a kind with a meter (R274 items 3 to 5). -/
def State.plcServe (s : State) (a : Nat) (m : LeafMeter) (kind : PKind) (again : Bool) : State :=
  match kind with
  | .poll sel => s.plcToMeter a m kind 0 (leBytes 4 sel ++ zeros 4) 52 again
  | .latchPoll id => s.plcToMeter a m kind 7 (leBytes 4 id ++ zeros 4) 52 again
  | .push id =>
    match s.leafJob id with
    | some j =>
      match j.targets.find? (·.identity == m.identity) with
      | some t =>
        let robust := s.plcMode m again
        let x := s.jobFor j m.identity
        let body := if t.state = 2 then (x.segment (8 * s.plcP robust) t.next (j.half && pushCount (8 * s.plcP robust) == 0)).1
                    else x.query (t.state == 3) t.next
        let s := s.modLeafJob id fun j =>
          { j with half := if t.state = 2 ∧ pushCount (8 * s.plcP robust) = 0 then !j.half else j.half }
        s.plcToMeter a m kind 9 body 24 again
      | none => s
    | none => s
  | .confirm _ => s

/-! ### Ends of exchanges -/

/-- A meter becomes absent (R275); a LATCH_POLL that waits for it is reported ABSENT (R284). -/
def State.meterAbsent (s : State) (a : Nat) (m : LeafMeter) (ev : Nat) : State :=
  let s := ((s.modMeter a fun m => { m with present := false, repeatAt := none }).pulse ev a).presence a 1 m.identity
  match m.snap with
  | some id => (s.modMeter a fun m => { m with snap := none }).meterSnap a m.identity id 2 []
  | none => s

/-- A missed exchange with a confirmed meter (R275): counted unless `free`; repeated 10 s later, up to 3 attempts a cycle.  The absence of a meter that was
absent already is reported when its LATCH_POLL is missed (R284). -/
def State.meterMissed (s : State) (a : Nat) (free : Bool) : State :=
  match s.meter a with
  | none => s
  | some m =>
    let n := if free then m.misses else m.misses + 1
    let s := s.modMeter a fun m => { m with misses := n }
    if !m.present then
      match m.snap, m.again with
      | some id, some (.latchPoll _) => (s.modMeter a fun m => { m with snap := none }).meterSnap a m.identity id 2 []
      | _, _ => s
    else if 3 ≤ n then s.meterAbsent a m (if chanOf a = 0 then 816 else 827)
    else if m.attempts < 3 then s.modMeter a fun m => { m with repeatAt := some (s.time.mono + 10 * second) }
    else s

/-- Change the CONFIRM of an identity in the open round. -/
def State.modConfirm (s : State) (identity : Nat) (g : Confirm → Confirm) : State :=
  { s with plc.round := s.plc.round.map fun r =>
      { r with confirms := r.confirms.map fun c => if c.identity = identity then g c else c } }

/-- The exchange in progress ends without a valid answer. -/
def State.plcMiss (s : State) (free : Bool) : State :=
  match s.plc.exch with
  | none => s
  | some e =>
    let s := { s with plc.exch := none, plc.busyUntil := max s.plc.busyUntil (s.plc.slotN + 1) }
    match e.kind with
    | .confirm id => if free then s.modConfirm id fun c => { c with tries := c.tries - 1 } else s
    | _ => s.meterMissed e.addr (free || s.plcHeld)

/-- Meters of a snapshot whose latch cannot be taken are reported MISSED (R283). -/
def State.latchLost (s : State) (id : Nat) : State :=
  (s.metersOn 0).foldl (fun (s : State) x => s.meterSnap x.1 x.2.identity id 1 []) s

/-- The smallest power of two at least `n`, from `w` up. -/
def powerUp : Nat → Nat → Nat → Nat
  | 0, w, _ => w
  | k + 1, w, n => if n ≤ w then w else powerUp k (2 * w) n

/-- The window of the next round (R278). -/
def nextWindow (wMin singles collisions : Nat) : Nat :=
  if singles = 0 ∧ collisions = 0 then wMin else min 1024 (max wMin (powerUp 10 1 (2 * (singles + 2 * collisions))))

/-- Identities that answered in clean slots of the round. -/
def SearchRound.singles (r : SearchRound) : List Nat := r.answers.filterMap (·.2)

/-- The open round ends without further CONFIRMs (R287): addresses of unconfirmed ones are quarantined (R279), its answers give the next window (R278). -/
def State.closeRound (s : State) : State :=
  match s.plc.round with
  | none => s
  | some r =>
    let bad := (r.confirms.filter fun c => !c.done && decide (0 < c.tries) && (s.meterAddr c.identity).isNone).map fun c =>
      (c.addr, c.at_)
    let next := nextWindow (s.key (kPlc 7)) r.singles.length (r.answers.filter (·.2.isNone)).length
    ({ s with plc.round := none, plc.quar := s.plc.quar ++ bad, plc.nextW := next,
              plc.exch := s.plc.exch.filter fun e => match e.kind with | .confirm _ => false | _ => true }).pulse 818

/-- Exchanges stop without a count, the open round closes, pending LATCHes are lost (R287). -/
def State.plcStop (s : State) : State :=
  let s := ({ s with plc.exch := none, plc.busyUntil := 0 }).closeRound
  let q := s.plc.latchQ
  q.foldl (fun (s : State) j => s.latchLost j.snap) { s with plc.latchQ := [] }

/-! ### Slots (R266, R272, R274) -/

/-- Slots between LATCH frames and the half-cycles within which all three lie (R283). -/
def LatchJob.due (j : LatchJob) (slot : Nat) : Bool := j.sent == 0 || decide (j.last + 10 ≤ slot)

/-- May an exchange or broadcast start in this slot? -/
def State.plcFree (s : State) : Bool :=
  s.plcTxOn && !s.plc.freqHold && s.plc.exch.isNone && decide (s.plc.busyUntil ≤ s.plc.slotN)

/-- The level VIN asks for applies at a slot start (R264); with the transmitter off an open round closes (R287). -/
def State.plcLevel (s : State) : State :=
  if s.plc.lev = s.plc.vin then s
  else
    let v := s.plc.vin
    let s := (({ s with plc.lev := v }).level 810 (v == 1)).level 811 (v == 0)
    if v = 0 then s.closeRound else s

/-- A CONFIRM of the open round (R277): the first attempt and up to 3 repeats. -/
def State.plcConfirm (s : State) : Option State :=
  match s.plc.round with
  | some r =>
    if !r.confirming then none
    else (r.confirms.find? fun c => !c.done && decide (c.tries < 4)).map fun c =>
      let s := s.modConfirm c.identity fun c => { c with tries := c.tries + 1, at_ := s.time.mono }
      let k := (s.meterAddr c.identity).bind s.meter
      let ctr := (s.idCtr c.identity).1 + 1
      let mode := (s.plcMode (k.getD { identity := c.identity }) false).toNat
      let s := s.useCtr c.identity
      s.plcExchange (.confirm c.identity) 4 0 (leBytes 8 c.identity ++ leBytes 2 c.addr ++ leBytes 1 mode ++ zeros 1) 24 true ctr
  | none => none

/-- What POLL_READ asks of a meter (R318), `none` while the pallet buffer is full and nothing else is due. -/
def State.pollSelect (s : State) (a : Nat) : Option Nat :=
  let c := Tbl.get 0 s.ledger.catchUp a
  if c ≠ 0 then some c else if s.ledger.backFull then none else some 0

/-- Does a LATCH_POLL of a meter wait to be sent (R284)?  An absent meter gets one attempt per cycle, a present one three (R275). -/
def LeafMeter.latchDue (m : LeafMeter) : Bool :=
  m.snap.isSome && m.repeatAt.isNone &&
    match m.present, m.again with
    | false, _ => m.attempts == 0
    | true, some (.latchPoll _) => decide (m.attempts < 3)
    | true, _ => true

/-- The first exchange of R274 items 3 and 4 with work. -/
def State.plcDue (s : State) : Option State :=
  let rep := s.plc.repQ.findSome? fun a => (s.meter a).bind fun m => m.again.map fun k => (a, m, k)
  match rep with
  | some (a, m, k) => some ({ s with plc.repQ := s.plc.repQ.filter (· != a) }.plcServe a m k true)
  | none =>
    let lp := (s.metersOn 0).find? fun x => x.2.latchDue && !s.isLocked x.2.identity
    match lp.bind fun x => x.2.snap.map fun id => (x.1, x.2, id) with
    | some (a, m, id) => some (s.plcServe a m (.latchPoll id) false)
    | none =>
      let po := s.plc.dueQ.findSome? fun a => (s.meter a).bind fun m => (s.pollSelect a).map fun k => (a, m, k)
      match po with
      | some (a, m, k) => some ({ s with plc.dueQ := s.plc.dueQ.filter (· != a) }.plcServe a m (.poll k) false)
      | none =>
        -- interval ends behind (R318)
        let be := s.ledger.catchUp.findSome? fun x =>
          if chanOf x.1 = 0 then (s.meter x.1).bind fun m => if m.present && m.repeatAt.isNone && decide (m.attempts < 3) then some (x.1, m, x.2) else none
          else none
        be.map fun x => s.plcServe x.1 x.2.1 (.poll x.2.2) false

/-- The counter of broadcast frames (R271). -/
def State.setBcastCtr (s : State) (n : Nat) : State := { s with plc.bcastCtr := n }

/-- A broadcast of a job's next blocks (R343): robust under MODE 2, else normal; a meter's own key is never broadcast. -/
def State.plcPushCast (s : State) (j : LeafJob) : Option State :=
  if j.kind = 2 ∨ j.total ≤ j.bcast ∨ !j.has j.bcast then none
  else
    let robust := s.key (kPlc 1) == 2
    let g := j.segment (8 * s.plcP robust) j.bcast j.half
    let ctr := s.plc.bcastCtr + 1
    some (((s.modLeafJob j.id fun j => { j with bcast := g.2.1, half := g.2.2 }).plcBroadcast 9 g.1 12 robust ctr).setBcastCtr ctr)

/-- The first PUSH_SEG with work (R274 item 5). -/
def State.plcPush (s : State) : Option State :=
  s.ledger.leafJobs.findSome? fun j =>
    match s.plcPushCast j with
    | some s' => some s'
    | none =>
      (j.targets.findSome? fun t =>
        if (s.jobFor j t.identity).wants (j.total ≤ j.bcast) t then
          (s.meterAddr t.identity).bind fun a =>
            if chanOf a = 0 then (s.meter a).bind fun m =>
              if m.present && m.repeatAt.isNone && decide (m.attempts < 3) && !s.isLocked m.identity then some (a, m) else none
            else none
        else none).map fun x => s.plcServe x.1 x.2 (.push j.id) false

/-- Fill a free slot from the first source with work (R274); a LATCH that is due keeps it free for its own row, and a search
round starts by its own row. -/
def State.plcFill (s : State) : State :=
  if !s.plcFree then s
  else if (s.plc.latchQ.head?.map (·.due s.plc.slotN)).getD false then s
  else if (s.plc.round.map (!·.confirming)).getD false then s
  else match s.plcConfirm with
  | some s' => s'
  | none => match s.plcDue with
    | some s' => s'
    | none => (s.plcPush).getD s

/-- Pending LATCHes that no longer fit within 400 half-cycles of g_k are given up (R283). -/
def State.latchExpire (s : State) : State :=
  let old := s.plc.latchQ.filter fun j => decide (j.gk + 400 < s.plc.slotN)
  old.foldl (fun (s : State) j => s.latchLost j.snap)
    { s with plc.latchQ := s.plc.latchQ.filter fun j => decide (s.plc.slotN ≤ j.gk + 400) }

/-- Is the present slot SEARCH's or in the answer window of the open round? -/
def State.inWindow (s : State) : Bool := (s.plc.round.map fun r => !r.confirming).getD false

/-- The slot a broadcast starts in counts as used (R273). -/
def State.slotUsed (s : State) : State := { s with plc.used := s.plc.used + (if s.inWindow then 0 else 1) }

/-- A slot starts at a grid crossing. -/
def State.slotStart (s : State) (ns : Nat) (rising : Bool) : State :=
  let n := s.plc.slotN + 1
  let s := { s with plc.slotN := n, plc.gNs := ns, plc.gRising := rising,
                    plc.crossings := ((n, ns, rising) :: s.plc.crossings).take 16 }
  let s := (s.plcLevel.latchExpire).plcFill
  let used := s.plc.exch.isSome || decide (n < s.plc.busyUntil) || s.inWindow
  { s with plc.slots := s.plc.slots + 1, plc.used := s.plc.used + used.toNat }

/-- The instant of a boundary in ns of system time. -/
def State.bndNs (s : State) (b : Bnd) : Nat := ((s.time.ns : Int) + ((b.at_ : Int) - (s.time.index * 2 ^ 17 : Nat)) * 15625 / 2 ^ 17).toNat

/-- The difference in ns of a crossing from the interpolated crossings of its direction on the reference, modulo one cycle (R266). -/
def State.gridDiff (s : State) (ns : Nat) (rising : Bool) : Option Nat :=
  let y := s.vs s.plcVset
  let same := match y.last, y.prev with
    | some b, p => if b.rising = rising then some b else p.filter (·.rising == rising)
    | none, _ => none
  (same.filter fun b => !b.synth).bind fun b =>
    let t : Nat := y.tLast * 15625 / 2 ^ 17
    if t = 0 then none
    else
      let d := (((ns : Int) - s.bndNs b) % (t : Int)).toNat
      some (min d (t - d))

/-- A crossing no slot may be doubled at: within 2 ms of the one before (R266). -/
def State.gridFits (s : State) (ns : Nat) : Bool := s.plc.gNs == 0 || decide (s.plc.gNs + 2000000 < ns)

/-- ZC_GRID_CROSSING (R266): the comparator changed direction at `ns`; the grid crossing lies ZC_DELAY before it. -/
def execZcGridCrossing (ns : Nat) (rising : Bool) (s : State) : Host.Outcome State Fault Refusal :=
  .next (
    if !s.plcRun then s
    else
      let g := ((ns : Int) - s.keyS (kPlc 4) * 1000).toNat
      let s := match s.gridDiff g rising with
        | some d =>
          if 500000 < d then { s with plc.zcBad := s.plc.zcBad + 1, plc.zcGood := 0 }
          else { s with plc.zcGood := s.plc.zcGood + 1, plc.zcBad := 0 }
        | none => s
      if s.plc.zcFault ∨ !s.gridFits g then s else s.slotStart g rising)

/-- ZC_FAULT_ENTER (R266). -/
def execZcFaultEnter (s : State) : Host.Outcome State Fault Refusal :=
  .next (if s.plcRun ∧ 50 ≤ s.plc.zcBad ∧ !s.plc.zcFault then ({ s with plc.zcFault := true }).level 812 true else s)

/-- ZC_FAULT_CLEAR (R266). -/
def execZcFaultClear (s : State) : Host.Outcome State Fault Refusal :=
  .next (if s.plcRun ∧ 500 ≤ s.plc.zcGood ∧ s.plc.zcFault then ({ s with plc.zcFault := false }).level 812 false else s)

/-- What a boundary of a voltage set does at the port: the frequency hold (R267) and, in ZC_FAULT, the slot grid (R266). -/
def State.plcBoundary (s : State) (v : Nat) (b : Bnd) : State :=
  if !s.plcRun ∨ v ≠ s.plcVset then s
  else
    let lim := if vsNomF s.cfg.active v = 60 then 63200000 else 51500000
    let hold := decide (lim < (s.vs v).cycFreq)
    let s := if hold ∧ !s.plc.freqHold then ({ s with plc.freqHold := true }).plcMiss true else { s with plc.freqHold := hold }
    let ns := s.bndNs b
    if s.plc.zcFault ∧ s.gridFits ns then s.slotStart ns b.rising else s

/-! ### Messages of meters (R269 to R271) -/

/-- The verdict on a message: nothing (it is discarded), a failed MIC or counter, or accepted. -/
inductive MsgVerdict where
  | discard | reject | accept
  deriving DecidableEq

/-- Check a secured message of `n` body bytes, of which `len` are right, whose last accepted counter is `last` (R271). -/
def msgCheck (micOk : Bool) (ctr last n len : Nat) : MsgVerdict :=
  if n ≠ len then .discard else if !micOk ∨ ctr ≤ last then .reject else .accept

/-- A secured message of a type in the frames of an answer: its address, body and CTR. -/
def State.plcMessage (s : State) (e : PExch) (m : PlcMsg) (type : Nat) : Option (Nat × Bytes × Nat) :=
  (lineMessage s.kiln.devId (s.plcFrameMax e.robust) m.frames).bind fun x =>
    let n := x.2.2.length - 12
    if x.1 ≠ type ∨ x.2.2.length < 12 ∨ s.plc.slotN + 1 < e.start + e.down + m.frames.length then none
    else some (x.2.1, x.2.2.take n, fld x.2.2 n 4)

/-- SNR after a valid answer (R276). -/
def snrRuns (thr : Int) (snr : Int) (m : LeafMeter) : LeafMeter :=
  let lo := if snr < thr then m.lowRun + 1 else 0
  let hi := if thr + 3 ≤ snr then m.highRun + 1 else 0
  { m with lowRun := lo, highRun := hi, robust := if 2 ≤ lo then true else if 8 ≤ hi then false else m.robust }

/-- A valid answer of a confirmed meter: it is present again if it was absent (R275). -/
def State.meterAnswered (s : State) (a : Nat) (m : LeafMeter) (g : LeafMeter → LeafMeter) : State :=
  let s := s.modMeter a fun m => g { m with misses := 0, attempts := 0, repeatAt := none, again := none, waiting := none,
                                            lastFrame := s.time.mono }
  if m.present then s
  else ((s.modMeter a fun m => { m with present := true }).pulse (if chanOf a = 0 then 817 else 828)).presence a 2 m.identity

/-- The exchange ends with the present slot. -/
def State.exchDone (s : State) : State := { s with plc.exch := none, plc.busyUntil := max s.plc.busyUntil (s.plc.slotN + 1) }

/-- A message that answers the exchange in progress with a confirmed meter: `use` gets the kind, the address, the meter and the body. -/
def State.plcAnswer (s : State) (m : PlcMsg) (type len : Nat) (fits : PKind → Bytes → Bool)
    (use : PKind → Nat → LeafMeter → Bytes → State → State) : State :=
  match s.plc.exch with
  | none => s
  | some e =>
    match s.plcMessage e m type, s.meter e.addr with
    | some (a, body, ctr), some x =>
      if e.addr ≠ a ∨ a = 0 ∨ !fits e.kind body then s
      else match msgCheck m.micOk ctr x.ctrUp body.length len with
      | .discard => s
      | .reject => (s.plcMiss false).pulse 822
      | .accept =>
        use e.kind a x body (s.exchDone.meterAnswered a x fun y => snrRuns (s.key (kPlc 9)) m.snr { y with ctrUp := ctr })
    | _, _ => s

/-- PLC_READING_RECEIVE (R270). -/
def execPlcReadingReceive (m : PlcMsg) (s : State) : Host.Outcome State Fault Refusal :=
  .next (s.plcAnswer m 1 40 (fun k _ => match k with | .poll _ => true | _ => false) fun _ a x b s => s.takeReading a x b)

/-- PLC_LATCH_REPORT_RECEIVE (R284): the report enters the open pallet. -/
def execPlcLatchReportReceive (m : PlcMsg) (s : State) : Host.Outcome State Fault Refusal :=
  .next (s.plcAnswer m 8 40 (fun k b => match k with | .latchPoll id => id == fld b 0 4 | _ => false) fun _ a x b s =>
    (s.modMeter a fun x => { x with snap := none }).meterSnap a x.identity (fld b 0 4) (fld b 4 1 % 2)
      ((List.range 4).map fun i => fld b (8 + 8 * i) 8))

/-- PLC_PUSH_ACK_RECEIVE (R343). -/
def execPlcPushAckReceive (m : PlcMsg) (s : State) : Host.Outcome State Fault Refusal :=
  .next (s.plcAnswer m 0xA 12 (fun k b => match k with | .push id => id == fld b 0 4 | _ => false) fun _ _ x b s =>
    s.pushAck x.identity b)

/-- A meter no longer keeps the interval end it was asked for after a full buffer (NAK REASON 1): it is asked for the next one. -/
def State.unknownEnd (s : State) (a : Nat) : State :=
  let c := Tbl.get 0 s.ledger.catchUp a
  let n := c + s.interval
  if c = 0 then s else { s with ledger.catchUp := Tbl.set 0 s.ledger.catchUp a (if n ≤ s.utcMin then n else 0) }

/-- PLC_NAK_RECEIVE (R275): the exchange ends as a miss. -/
def execPlcNakReceive (m : PlcMsg) (s : State) : Host.Outcome State Fault Refusal :=
  .next (
    match s.plc.exch with
    | none => s
    | some e =>
      match s.plcMessage e m 0xB, s.meter e.addr with
      | some (a, body, ctr), some x =>
        if e.addr ≠ a ∨ a = 0 then s
        else match msgCheck m.micOk ctr x.ctrUp body.length 8 with
        | .discard => s
        | .reject => (s.plcMiss false).pulse 822
        | .accept =>
          let s := (s.modMeter a fun y => { y with ctrUp := ctr }).plcMiss false
          if fld body 0 1 = 1 then s.unknownEnd a else s
      | _, _ => s)

/-- PLC_EXCHANGE_MISSED (R272, R275): the next expected slot has passed without a valid fragment. -/
def execPlcExchangeMissed (s : State) : Host.Outcome State Fault Refusal :=
  .next (
    match s.plc.exch with
    | some e => if e.start + e.down + 1 ≤ s.plc.slotN then s.plcMiss false else s
    | none => s)

/-! ### Polling (R274, R275) -/

/-- The time into the cycle at which an address is due, ns. -/
def dueNs (sec i : Nat) : Nat := i * sec * second / 1024

/-- PLC_POLL_DUE (R274); an absent meter gets one attempt per cycle (R275). -/
def execPlcPollDue (a : Nat) (s : State) : Host.Outcome State Fault Refusal :=
  .next (
    let c := s.cycleOf (s.key (kPlc 5))
    match s.meter a with
    | some m =>
      if s.plcRun ∧ chanOf a = 0 ∧ c.1 = s.plc.cycle ∧ dueNs (s.key (kPlc 5)) (a - 1) ≤ c.2 ∧ !m.served ∧ !s.isLocked m.identity then
        let s := s.modMeter a fun m => { m with served := true }
        if m.present ∨ m.attempts = 0 then { s with plc.dueQ := s.plc.dueQ ++ [a] } else s
      else s
    | none => s)

/-- PLC_REPEAT_DUE (R275). -/
def execPlcRepeatDue (a : Nat) (s : State) : Host.Outcome State Fault Refusal :=
  .next (
    match s.meter a with
    | some m =>
      match m.repeatAt with
      | some t =>
        if chanOf a = 0 ∧ t ≤ s.time.mono ∧ !s.plc.repQ.contains a then { s with plc.repQ := s.plc.repQ ++ [a] } else s
      | none => s
    | none => s)

/-- The meters of a channel at the start of a poll cycle. -/
def State.newCycle (s : State) (chan : Nat) : State :=
  (s.metersOn chan).foldl (fun (s : State) x =>
    s.modMeter x.1 fun m => { m with served := false, attempts := 0, repeatAt := none }) s

/-- PLC_POLL_CYCLE_END (R274): unserved polls are dropped. -/
def execPlcPollCycleEnd (s : State) : Host.Outcome State Fault Refusal :=
  .next (
    let c := (s.cycleOf (s.key (kPlc 5))).1
    if !s.plcRun ∨ c = s.plc.cycle then s
    else
      let late := !s.plc.dueQ.isEmpty
      let use := if s.plc.slots = 0 then 0 else s.plc.used * 10000 / s.plc.slots
      let s := (s.newCycle 0).pushCycle 0
      ({ s with plc.overrun := late, plc.dueQ := [], plc.repQ := [], plc.slotUse := use, plc.used := 0, plc.slots := 0,
                plc.cycle := c }).level 823 late)

/-! ### Search (R277 to R281) -/

/-- SEARCH_ROUND_START (R277): at a slot no other source fills (a requested round the same), SEARCH goes out. -/
def execSearchRoundStart (s : State) : Host.Outcome State Fault Refusal :=
  .next (
    let due := match s.plc.lastRound with
      | some t => decide (t + s.key (kPlc 6) * second ≤ s.time.mono)
      | none => true
    if !s.plcFree ∨ s.plc.round.isSome ∨ !(s.plc.roundReq.isSome || due) ∨ (s.plc.latchQ.head?.map (·.due s.plc.slotN)).getD false then s
    else
      let w0 := s.plc.roundReq.getD 0
      let w := if w0 = 0 then max (s.key (kPlc 7)) s.plc.nextW else w0
      let num := (s.plc.roundNum + 1) % 2 ^ 16
      let s := s.slotUsed.plcBroadcast 2 (leBytes 2 num ++ leBytes 2 w ++ leBytes 2 (s.key (kPlc 8)) ++ zeros 2) 0 true 0
      { s with plc.roundNum := num, plc.roundReq := none, plc.lastRound := some s.time.mono,
               plc.round := some { w := w, s0 := s.plc.busyUntil - 1 } })

/-- Did the leaf itself send in a slot of the answer window (a LATCH takes it, R274)? -/
def State.sentIn (s : State) (slot : Nat) : Bool :=
  s.plc.sent.any fun f => f.type == 6 && decide (f.slot ≤ slot) && decide (slot < f.slot + s.plcSlots f.robust (f.body.length + 12))

/-- PLC_ANSWER_RECEIVE (R277): the frame of an answer slot is a clean ANSWER, or garbled where only its FCS fails; a second clean one of an identity locks
it (R280). -/
def execPlcAnswerReceive (slot : Nat) (a : PlcAnswer) (s : State) : Host.Outcome State Fault Refusal :=
  .next (
    match s.plc.round, lineFrame s.kiln.devId (s.plcFrameMax true) a.frame with
    | some r, some f =>
      if r.confirming ∨ slot ≤ r.s0 ∨ r.s0 + r.w < slot ∨ s.plc.slotN < slot ∨ r.answers.any (·.1 == slot) ∨ s.sentIn slot then s
      else if a.late < 100 ∨ 400 < a.late ∨ f.type ≠ 3 ∨ f.addr ≠ 0 ∨ f.payload.length ≠ 8 ∨ f.more ∨ f.frag ≠ 0 then s
      else
        let i := fld f.payload 0 8
        let s1 := { s with plc.round := some { r with answers := r.answers ++ [(slot, if f.fcsOk then some i else none)] } }
        if f.fcsOk ∧ r.singles.contains i then s1.cloneLock i else s1
    | _, _ => s)

/-- An address not in use, not quarantined and not assigned in the round: the lowest (log 22). -/
def freeAddr (s : State) (taken : List Nat) (lo hi : Nat) (quar : List (Nat × Nat)) : Option Nat :=
  (List.range (hi - lo)).findSome? fun i =>
    let a := lo + i
    if (s.meter a).isNone && !taken.contains a && !quar.any (·.1 == a) then some a else none

/-- What an answerer of a round gets (R279): a CONFIRM with an address, or none.  An identity whose entry is of the radio has no address the power line can
carry and gets none; one of the power line that answers by radio gets a radio address (R300). -/
def State.answerer (s : State) (chan identity : Nat) (taken : List Nat) : State × Option Nat :=
  let n := (s.metersOn chan).length
  let entry := s.meterAddr identity
  match entry.filter fun a => chanOf a = chan with
  | some a => if s.isLocked identity then (s, none) else (s, some a)
  | none =>
    if s.isLocked identity ∨ (chan = 0 ∧ entry.isSome) then (s, none)
    else if (s.heldKey identity).isNone then
      ((s.pulse (if chan = 0 then 819 else 838)).appendUp (keyRequestEntry chan 0 identity), none)
    else if 1024 ≤ n + (taken.filter fun a => (s.meter a).isNone).length then (s.tableLevels, none)
    else
      let lo := if chan = 0 then 1 else 1025
      (s, freeAddr s taken lo (lo + 1024) s.plc.quar)

/-- SEARCH_WINDOW_END (R277): after slot s0 + W the confirm phase begins. -/
def execSearchWindowEnd (s : State) : Host.Outcome State Fault Refusal :=
  .next (
    match s.plc.round with
    | some r =>
      if r.confirming ∨ s.plc.slotN ≤ r.s0 + r.w then s
      else
        let once := r.singles.filter fun i => (r.singles.filter (· == i)).length == 1
        let x := once.foldl (fun (x : State × List Confirm) i =>
          let y := x.1.answerer 0 i (x.2.map (·.addr))
          match y.2 with
          | some a => (y.1, x.2 ++ [{ identity := i, addr := a, tries := 0, done := false }])
          | none => (y.1, x.2)) (s, [])
        { x.1 with plc.round := some { r with confirming := true, confirms := x.2 } }
    | none => s)

/-- An identity becomes a confirmed meter (R277, R300), or its existing entry answers. -/
def State.confirmMeter (s : State) (a : Nat) (ev : Nat) (new : LeafMeter) : State :=
  match s.meter a with
  | some m => (s.meterAnswered a m fun x => { x with ctrUp := new.ctrUp, port := new.port, rank := new.rank, sleepy := new.sleepy }).pulse ev
  | none =>
    let s := { s with ledger.meter := Tbl.set none s.ledger.meter a (some { new with lastFrame := s.time.mono }),
                      ledger.ctrs := s.ledger.ctrs.filter (·.1 != new.identity) }.tableLevels
    (s.pulse ev).presence a 0 new.identity

/-- PLC_CONFIRM_ACK_RECEIVE (R277): the completed exchange confirms the identity. -/
def execPlcConfirmAckReceive (m : PlcMsg) (s : State) : Host.Outcome State Fault Refusal :=
  .next (
    match s.plc.exch, s.plc.round with
    | some e, some r =>
      match e.kind, s.plcMessage e m 5 with
      | .confirm id, some (a, body, ctr) =>
        if fld body 0 8 ≠ id ∨ a ≠ 0 then s
        else match r.confirms.find? (·.identity == id) with
        | none => s
        | some c =>
          let k := s.idCtr id
          match msgCheck m.micOk ctr k.2 body.length 12 with
          | .discard => s
          | .reject => (s.plcMiss false).pulse 822
          | .accept =>
            (s.exchDone.modConfirm id fun c => { c with done := true }).confirmMeter c.addr 815 { identity := id, ctrUp := ctr, ctrDown := k.1 }
      | _, _ => s
    | _, _ => s)

/-- SEARCH_ROUND_CLOSE (R277, R278): every answerer is confirmed or has used its attempts. -/
def execSearchRoundClose (s : State) : Host.Outcome State Fault Refusal :=
  .next (
    match s.plc.round with
    | some r =>
      if r.confirming ∧ s.plc.exch.isNone ∧ r.confirms.all (fun c => c.done || decide (4 ≤ c.tries)) then
        s.closeRound
      else s
    | none => s)

/-- ADDRESS_QUARANTINE_END (R279): RELEASE_S after the last frame that used the address; of the radio for a radio address. -/
def execAddressQuarantineEnd (a : Nat) (s : State) : Host.Outcome State Fault Refusal :=
  .next (
    let rel := if chanOf a = 0 then s.key (kPlc 8) else s.key (kRadio 8)
    if s.plc.quar.any fun x => x.1 = a ∧ x.2 + rel * second ≤ s.time.mono then
      { s with plc.quar := s.plc.quar.filter fun x => !(x.1 = a ∧ x.2 + rel * second ≤ s.time.mono) }
    else s)

/-! ### Latching (R282 to R284) -/

/-- LATCH_BROADCAST (R283): one of the three LATCH broadcasts, at least 10 slots apart and within 400 half-cycles of g_k.  After the
third every confirmed meter is polled once (R284). -/
def execLatchBroadcast (s : State) : Host.Outcome State Fault Refusal :=
  .next (
    match s.plc.latchQ with
    | [] => s
    | j :: t =>
      if !s.plcFree ∨ !j.due s.plc.slotN ∨ j.gk + 400 < s.plc.slotN then s
      else
        let ctr := s.plc.bcastCtr + 1
        let n := s.plc.slotN
        let s := s.slotUsed.plcBroadcast 6 (leBytes 4 j.snap ++ leBytes 2 (n - j.gk) ++ zeros 2) 12 true ctr
        let s := { s with plc.bcastCtr := ctr }
        if j.sent + 1 < 3 then { s with plc.latchQ := { j with sent := j.sent + 1, last := n } :: t }
        else
          let s := ({ s with plc.latchQ := t }).pulse 821
          ((s.metersOn 0).filter fun x => !s.isLocked x.2.identity).foldl (fun (s : State) x =>
            s.modMeter x.1 fun m => { m with snap := some j.snap }) s)

/-- The positive-going grid crossing nearest to an instant: its slot number and how far off it is, ns. -/
def nearestRise (ns : Nat) (l : List (Nat × Nat × Bool)) : Option (Nat × Nat) :=
  (l.filter (·.2.2)).foldl (fun (m : Option (Nat × Nat)) x =>
    let d := max (ns - x.2.1) (x.2.1 - ns)
    match m with | some y => if d < y.2 then some (x.1, d) else some y | none => some (x.1, d)) none

/-- A boundary at which a snapshot latches gives g_k (R283): the positive-going crossing within 500 µs of it, or the boundary itself
in ZC_FAULT; with none, or the port stopped, every meter is MISSED. -/
def State.latchAt (s : State) (snap : Nat) (b : Bnd) : State :=
  let ns := s.bndNs b
  if !s.plcRun then s.latchLost snap
  else match (nearestRise ns s.plc.crossings).filter fun x => s.plc.zcFault || decide (x.2 ≤ 500000) with
  | some x => { s with plc.latchQ := s.plc.latchQ ++ [{ snap := snap, gk := x.1, sent := 0, last := 0 }] }
  | none => s.latchLost snap

/-! ### Supply and line supervision (R264, R285) -/

/-- The level VIN asks for, with 0.3 V of hysteresis on the way up. -/
def vinLevel (mv old : Nat) : Nat :=
  if 10300 ≤ mv then 2 else if 10000 ≤ mv then (if old = 2 then 2 else 1)
  else if 6300 ≤ mv then 1 else if 6000 ≤ mv then (if old = 0 then 0 else 1) else 0

/-- PLC_VIN_LEVEL (R264): takes effect at the next slot start. -/
def execPlcVinLevel (mv : Nat) (s : State) : Host.Outcome State Fault Refusal :=
  .next { s with plc.vin := vinLevel mv s.plc.vin }

/-- PLC_LINE_SHORT (R285): 50 µs at the limit cut the frame being sent; the third consecutive cut stops transmission. -/
def execPlcLineShort (atLimitUs : Nat) (s : State) : Host.Outcome State Fault Refusal :=
  .next (
    match s.plc.sent with
    | f :: t =>
      let sending := match s.plc.exch with
        | some e => decide (s.plc.slotN < e.start + e.down)
        | none => decide (f.slot + s.plcSlots f.robust (f.body.length + 12) > s.plc.slotN)
      if atLimitUs < 50 ∨ !sending ∨ f.cut ∨ s.plc.lineShort then s
      else
        let run := if (t.head?.map (·.cut)).getD false then s.plc.cuts + 1 else 1
        let s := ({ s with plc.sent := { f with cut := true } :: t, plc.cuts := run }).plcMiss false
        if 3 ≤ run then
          ({ s with plc.lineShort := true, plc.testAt := s.time.mono }).level 809 true
        else s
    | [] => s)

/-- PLC_TEST_SYMBOL (R285). -/
def execPlcTestSymbol (below : Bool) (s : State) : Host.Outcome State Fault Refusal :=
  .next (
    if !s.plc.lineShort ∨ s.time.mono < s.plc.testAt + 10 * second then s
    else if below then ({ s with plc.lineShort := false, plc.cuts := 0, plc.testAt := s.time.mono }).level 809 false
    else { s with plc.testAt := s.time.mono })

/-- One frame's |Z| in 0.1 Ω. -/
def State.plcZ (s : State) (z : Nat) : State :=
  let hi := if 1000 < z then s.plc.zHigh + 1 else 0
  let lo := if z ≤ 800 then s.plc.zLow + 1 else 0
  let on := if 16 ≤ hi then true else if 16 ≤ lo then false else s.plc.openCoupling
  ({ s with plc.lineZ := z, plc.zHigh := hi, plc.zLow := lo, plc.openCoupling := on }).level 808 on

/-- PLC_OPEN_COUPLING (R285): |Z| over the frames sent since, oldest first. -/
def execPlcOpenCoupling (ohm10 : List Nat) (s : State) : Host.Outcome State Fault Refusal :=
  .next (if s.plcRun then ohm10.foldl (fun (s : State) z => s.plcZ z) s else s)

/-- One uncut frame's own preamble was detected or not. -/
def State.plcRx (s : State) (seen : Bool) : State :=
  let miss := if seen then 0 else s.plc.rxMiss + 1
  let hit := if seen then s.plc.rxHit + 1 else 0
  let on := if 16 ≤ miss then true else if 16 ≤ hit then false else s.plc.rxFault
  ({ s with plc.rxMiss := miss, plc.rxHit := hit, plc.rxFault := on }).level 813 on

/-- PLC_RX_FAULT (R285): the uncut frames sent since, oldest first. -/
def execPlcRxFault (detected : List Bool) (s : State) : Host.Outcome State Fault Refusal :=
  .next (if s.plcRun then detected.foldl (fun (s : State) d => s.plcRx d) s else s)

/-- PLC_NOISE_WINDOW (R285): the mean over 1,000 idle slots. -/
def execPlcNoiseWindow (meanDbuV : Nat) (s : State) : Host.Outcome State Fault Refusal :=
  .next (
    if !s.plcRun then s
    else
      let on := if 95 < meanDbuV then true else if meanDbuV < 90 then false else s.plc.noiseHigh
      ({ s with plc.noise := meanDbuV, plc.noiseHigh := on }).level 814 on)

/-! ### Commands (R273) -/

/-- PLC_SEARCH: starts a round at the next free slot. -/
def plcSearchBody : Body := fixedBody 8 [(2, 6)] fun _ p s =>
  let w := fld p.params 0 2
  if w ≠ 0 ∧ !([16, 32, 64, 128, 256, 512, 1024].contains w) then (s, .reply (Res.field 32))
  else if s.plc.round.isSome then (s, .reply (Res.err stBusy 0))
  else ({ s with plc.roundReq := some w }, .reply (Res.ok (leBytes 2 ((s.plc.roundNum + 1) % 2 ^ 16) ++ zeros 6)))

def execPlcSearch (p : Packet) (s : State) : Host.Outcome State Fault Refusal := .next (command 0x0801 plcSearchBody p s)

/-- PLC_STATUS.STATUS. -/
def State.plcWord (s : State) : Nat :=
  bitsNat [s.plcTxOn, s.plc.lev == 1, s.plc.openCoupling, s.plc.lineShort, s.plc.zcFault, s.plc.rxFault, s.plc.noiseHigh,
    s.plc.round.isSome, s.plc.tableFull, s.plc.overrun, s.plc.freqHold]

def plcStatusBody : Body := fixedBody 0 [] (readBody fun _ _ s =>
  let l := s.metersOn 0
  let here := l.filter (·.2.present)
  Res.ok (leBytes 4 s.plcWord ++ leBytes 2 here.length ++ leBytes 2 (l.length - here.length)
    ++ leBytes 2 (here.filter (·.2.robust)).length ++ leBytes 2 (satU 16 s.plc.lineZ) ++ leBytes 1 (satU 8 s.plc.noise) ++ zeros 1
    ++ leBytes 2 s.plc.slotUse))

def execPlcStatus (p : Packet) (s : State) : Host.Outcome State Fault Refusal := .next (command 0x0802 plcStatusBody p s)

end Sys2Proof.Machine
end

