-- ==== Sys2Proof/Machine/Radio.lean ====
section
/-! DEFINITION. Radio medium access (11): packet ports, link security, flooding at the leaf, joining, polling, sleepy children. -/

namespace Sys2Proof.Machine

/-! ### Ports (R288, R289) -/

def State.rport (s : State) (p : Nat) : RPort := Tbl.get {} s.radio.port p
def State.modRport (s : State) (p : Nat) (g : RPort → RPort) : State :=
  { s with radio.port := Tbl.upd {} s.radio.port p g }

/-- Is a port to run: LEAF, K6 open, enabled, the meter-facing island on? -/
def State.rpEnabled (s : State) (p : Nat) : Bool :=
  s.kiln.role == .leaf && s.kiln.ph.k6Open && !s.fault.f4 && s.keyOn (kRp p 0) && Tbl.get 0 s.host.island 93 == 0

/-- The ports that can carry a frame. -/
def State.rpUp (s : State) : List Nat := [0, 1].filter fun p => (s.rport p).started && !(s.rport p).fault && s.rpEnabled p

/-- EV0824 and EV0825 follow the faults, EV0837 BUSY_HIGH of either port. -/
def State.rpLevels (s : State) : State :=
  ((s.level 824 (s.rport 0).fault).level 825 (s.rport 1).fault).level 837 ((s.rport 0).busyHigh || (s.rport 1).busyHigh)

/-- READY bits RADIO0 and RADIO1: port started and LEDGER set (R490). -/
def State.rpReady (s : State) : State :=
  [0, 1].foldl (fun (s : State) p => s.setReady (28 + p) ((s.rport p).started && s.ready 25)) s

/-- A command goes to the transceiver; its response is awaited. -/
def State.rpCommand (s : State) (p op : Nat) : State :=
  s.modRport p fun x => { x with awaits := some (op, s.time.mono), seq := (x.seq + 1) % 256 }

/-- The payload of CONFIG (R288) from the port's keys (R290). -/
def State.rpConfigBytes (s : State) (p : Nat) : Bytes :=
  leBytes 2 (s.key (kRp p 1)) ++ leBytes 2 (s.key (kRp p 2)) ++ leInt 1 (s.keyS (kRp p 3)) ++ leBytes 1 (s.key (kRp p 4))
    ++ leBytes 1 (s.key (kRp p 6)) ++ zeros 1

/-- CONFIG is sent; at a start or reset RPp_RST_N has been low for 1 ms before it. -/
def State.rpConfigure (s : State) (p : Nat) : State :=
  let c := s.rpConfigBytes p
  ({ s with pins.rpRstN := Tbl.set false s.pins.rpRstN p true }.modRport p fun x =>
    { x with running := false, crcFails := 0, reconfig := false, config := c }).rpCommand p 2

/-- A reset after a failure (R289): the third within 60 s is a fault, which loses the queued frames. -/
def State.rpReset (s : State) (p : Nat) : State :=
  let x := s.rport p
  if x.fault then s.modRport p fun x => { x with awaits := none }
  else
    let times := (s.time.mono :: x.resetTimes).filter fun t => decide (s.time.mono < t + 60 * second)
    let s := s.modRport p fun x => { x with resets := bumpAllSat 255 1 x.resets, resetTimes := times }
    if 3 ≤ times.length then
      (s.modRport p fun x =>
        { x with fault := true, running := false, awaits := none, queue := [], retryAt := s.time.mono, crcFails := 0 }).rpLevels
    else s.rpConfigure p

/-- Frames sent at security level 0, which a meter without a network key can read (R295): ADVERT and CONFIRM. -/
def levelZeroSent (type : Nat) : Bool := type == 0xC || type == 4

/-- ORIGIN_SEQ of a message (R292): the link frame counter of its first transmission. -/
def State.originSeq (s : State) (msg : Nat) : Option Nat := (s.radio.sent.reverse.find? fun x => x.frame.msg == msg).map (·.counter)

/-- The head of the queue goes to an idle running transceiver (R288); at counter 0xFFFF_FFFF the leaf stops (R296). -/
def State.rpNext (s : State) (p : Nat) : State :=
  let x := s.rport p
  match x.queue with
  | [] => if x.reconfig ∧ x.awaits.isNone then s.rpConfigure p else s
  | f :: t =>
    if !x.running ∨ x.awaits.isSome ∨ 0xFFFFFFFF ≤ s.radio.txCtr then s
    else
      let s := (s.modRport p fun x => { x with queue := t }).rpCommand p 1
      let c := s.radio.txCtr + 1
      let x : RSent := { port := p, counter := c, level := if levelZeroSent f.type then 0 else 5, key := s.radio.keyIndex, frame := f }
      ({ s with radio.txCtr := c, radio.sent := x :: s.radio.sent }).level 836 (decide (0xFFFF0000 ≤ c))

/-- Hand a frame to a port. -/
def State.rpSend (s : State) (p : Nat) (f : RFrame) : State :=
  if s.rpUp.contains p then (s.modRport p fun x => { x with queue := x.queue ++ [f] }).rpNext p else s

def bcastAddr : Nat := 2 ^ 64 - 1

/-- A broadcast on every enabled port (R298); a secured one carries a counter of the broadcast key (R271). -/
def State.radioFlood (s : State) (type ttl : Nat) (body : Bytes) : State :=
  let ctr := if type = 0xC then s.plc.bcastCtr else s.plc.bcastCtr + 1
  let f : RFrame := { final := bcastAddr, type := type, ttl := ttl, endRank := 0xFF, body := body, ctr := if type = 0xC then 0 else ctr,
                      msg := s.radio.msgN + 1 }
  s.rpUp.foldl (fun (s : State) p => s.rpSend p f) { s with plc.bcastCtr := ctr, radio.msgN := s.radio.msgN + 1 }

/-- Frames of a child that have reached 60 s are dropped (R302). -/
def State.expireFrames (s : State) (child : Nat) : State :=
  match s.radio.child.find? (·.addr == child) with
  | none => s
  | some c =>
    let old := c.frames.filter fun x => decide (x.1 + 60 * second ≤ s.time.mono)
    let s := { s with radio.child := s.radio.child.map fun (x : Child) =>
      if x.addr = child then { x with frames := x.frames.filter fun y => decide (s.time.mono < y.1 + 60 * second) } else x }
    old.foldl (fun (s : State) _ => s.pulse 834) s

/-- A frame buffered for a sleepy child (R302): a fifth evicts the oldest. -/
def State.buffer (s : State) (f : RFrame) : State :=
  let s := s.expireFrames f.final
  match s.radio.child.find? (·.addr == f.final) with
  | none => s
  | some c =>
    let full := decide (4 ≤ c.frames.length)
    let l := (if full then c.frames.drop 1 else c.frames) ++ [(s.time.mono, f)]
    let s := { s with radio.child := s.radio.child.map fun x => if x.addr = f.final then { x with frames := l } else x }
    if full then s.pulse 834 else s

/-- A downstream frame to a meter (R298): on the port of its latest valid frame, under a counter of R271. -/
def State.radioSend (s : State) (p identity rank type ctr : Nat) (body : Bytes) : State :=
  let f : RFrame := { final := identity, type := type, ttl := min 15 (rank + 1), endRank := rank, body := body, ctr := ctr, msg := s.radio.msgN + 1 }
  ({ s with radio.msgN := s.radio.msgN + 1 }.buffer f).rpSend p f

/-- RP_PORT_START (R289). -/
def execRpPortStart (p : Fin 2) (s : State) : Host.Outcome State Fault Refusal :=
  .next (
    if !s.rpEnabled p ∨ (s.rport p).started then s
    else ((s.modRport p fun x => { x with started := true }).rpConfigure p).rpReady)

/-- A frame read from a transceiver is whole and its CRC right (R288). -/
def rpFrameOk (b : Bytes) : Bool :=
  let n := 4 + fld b 2 2
  b.length == n + 2 && decide (fld b 2 2 ≤ 2047) && (crc16 (b.take n)).toNat == fld b n 2

/-- RP_IRQ (R288): a frame is read; the third consecutive CRC failure resets the transceiver. -/
def execRpIrq (p : Fin 2) (frame : Bytes) (s : State) : Host.Outcome State Fault Refusal :=
  .next (
    let x := s.rport p
    if !x.started then s
    else if rpFrameOk frame then s.modRport p fun x => { x with crcFails := 0 }
    else if 3 ≤ x.crcFails + 1 then s.rpReset p
    else s.modRport p fun x => { x with crcFails := x.crcFails + 1 })

/-- The outcomes of TX over the last 60 s (R304). -/
def busyOver (now : Nat) (l : List (Nat × Bool)) : List (Nat × Bool) × Bool :=
  let l := l.filter fun x => decide (now < x.1 + 60 * second)
  (l, decide (l.length < 2 * (l.filter (·.2)).length))

/-- RP_TX_DONE (R288). -/
def execRpTxDone (p : Fin 2) (status : Nat) (s : State) : Host.Outcome State Fault Refusal :=
  .next (
    match (s.rport p).awaits with
    | some (1, _) =>
      let b := busyOver s.time.mono ((s.time.mono, status == 1) :: (s.rport p).tx)
      ((s.modRport p fun x => { x with awaits := none, tx := b.1, busyHigh := b.2 }).rpLevels).rpNext p
    | _ => s)

/-- RP_CONFIG_DONE (R289): the first accepted CONFIG clears the fault; a refused one resets. -/
def execRpConfigDone (p : Fin 2) (status : Nat) (s : State) : Host.Outcome State Fault Refusal :=
  .next (
    match (s.rport p).awaits with
    | some (2, _) =>
      if status = 0 then
        ((s.modRport p fun x => { x with awaits := none, running := true, fault := false, statusAt := s.time.mono }).rpLevels).rpNext p
      else s.rpReset p
    | _ => s)

/-- RP_STATUS_POLL (R289). -/
def execRpStatusPoll (p : Fin 2) (s : State) : Host.Outcome State Fault Refusal :=
  .next (
    let x := s.rport p
    if !x.started ∨ x.fault ∨ x.awaits.isSome ∨ s.time.mono < x.statusAt + second then s
    else (s.modRport p fun x => { x with statusAt := s.time.mono }).rpCommand p 3)

/-- RP_STATUS_DONE (R289, R304). -/
def execRpStatusDone (p : Fin 2) (status : Nat) (rssi : BitVec 8) (s : State) : Host.Outcome State Fault Refusal :=
  .next (
    match (s.rport p).awaits with
    | some (3, _) =>
      let b := busyOver s.time.mono (s.rport p).tx
      ((s.modRport p fun x => { x with awaits := none, running := status == 0, rssi := rssi.toNat, tx := b.1, busyHigh := b.2 }).rpLevels).rpNext p
    | _ => s)

/-- RP_RESPONSE_TIMEOUT (R289). -/
def execRpResponseTimeout (p : Fin 2) (s : State) : Host.Outcome State Fault Refusal :=
  .next (
    match (s.rport p).awaits with
    | some (_, t) => if t + 100000000 ≤ s.time.mono then s.rpReset p else s
    | none => s)

/-- RP_FAULT_RETRY (R289). -/
def execRpFaultRetry (p : Fin 2) (s : State) : Host.Outcome State Fault Refusal :=
  .next (
    let x := s.rport p
    if x.fault ∧ x.retryAt + 60 * second ≤ s.time.mono then (s.modRport p fun x => { x with retryAt := s.time.mono }).rpConfigure p
    else s)

/-! ### Link security (R294 to R296) -/

/-- Once ADVERTs have carried KEY_NEW for 3 advert periods the old network key is no longer accepted (R294). -/
def State.keyOverlap (s : State) : State :=
  match s.radio.keyAdv with
  | some t =>
    if t + 3 * s.key (kRadio 2) * second ≤ s.time.mono then
      { s with radio.keyNew := false, radio.keyAdv := none, radio.keys := s.radio.keys.filter (·.1 == s.radio.keyIndex) }
    else s
  | none => s

/-- A network key comes into force under a new index (R294); it restarts the counter at 0 (R296). -/
def State.newNetworkKey (s : State) (key : Bytes) : State :=
  let i := s.radio.keyIndex + 1
  ({ s with radio.keys := Tbl.insert (s.radio.keys.filter (·.1 == s.radio.keyIndex)) i key, radio.keyIndex := i,
            radio.keyNew := true, radio.keyAdv := none, radio.txCtr := 0 }).level 836 false

/-- The least recently heard entry leaves a full neighbour table. -/
def oldestNeigh : List (Nat × Nat × Nat) → Option (Nat × Nat × Nat)
  | [] => none
  | x :: t => match oldestNeigh t with
    | some y => if x.2.2 ≤ y.2.2 then some x else some y
    | none => some x

/-- Enter a verified frame of a transmitter. -/
def State.heard (s : State) (src ctr : Nat) : State :=
  let l := s.radio.neigh.filter fun x => x.1 ≠ src
  let l := if 2048 ≤ l.length then (match oldestNeigh l with | some o => l.erase o | none => l) else l
  { s with radio.neigh := (src, ctr, s.time.mono) :: l }

/-- Types that security level 0 is permitted for (R295): ADVERT, ANSWER, CONFIRM, CONFIRM_ACK. -/
def levelZeroOk (f : RadioFrame) : Bool := !f.dataRequest && [0xC, 3, 4, 5].contains f.type

/-- The link check of a frame (R296): the state after it, and whether the frame stands. -/
def State.linkCheck (s : State) (f : RadioFrame) : State × Bool :=
  if f.level = 0 then (s, levelZeroOk f)
  else if f.level ≠ 5 then (s, false)
  else if !f.micOk ∨ (s.radio.keys.lookup f.keyIndex).isNone then (s.pulse 830, false)
  else match s.radio.neigh.find? (·.1 == f.source) with
  | some n => if f.counter ≤ n.2.1 then (s.pulse 831, false) else (s.heard f.source f.counter, true)
  | none => (s.heard f.source f.counter, true)

/-! ### Flooding and children at the leaf (R298 to R303) -/

/-- The child table after a unicast SLEEPY frame (R302). -/
def State.childHeard (s : State) (src : Nat) : State :=
  if s.radio.child.any (·.addr == src) then
    { s with radio.child := s.radio.child.map fun c => if c.addr = src then { c with heard := s.time.mono } else c }
  else if 256 ≤ s.radio.child.length then ({ s with radio.childFull := true }).level 833 true
  else { s with radio.child := s.radio.child ++ [{ addr := src, heard := s.time.mono }] }

/-- A Data Request (R303): the oldest buffered frame goes out unicast before the frames that wait, with Frame Pending while further ones remain. -/
def State.dataRequest (s : State) (p : Nat) (src : Nat) : State :=
  let s := s.expireFrames src
  match s.radio.child.find? (·.addr == src) with
  | some c =>
    match c.frames with
    | f :: t =>
      let s := { s with radio.child := s.radio.child.map fun (x : Child) => if x.addr = src then { x with frames := t } else x }
      let g := { f.2 with pending := some !t.isEmpty }
      if s.rpUp.contains p then (s.modRport p fun x => { x with queue := g :: x.queue }).rpNext p else s
    | [] => s
  | none => s

/-- The seen cache (R299): the state after a frame, and whether the frame is new. -/
def State.seenCheck (s : State) (origin seq : Nat) : State × Bool :=
  let now := s.time.mono
  if s.radio.seen.any fun x => x.1 = origin ∧ x.2.1 = seq ∧ now < x.2.2 + 30 * second then (s, false)
  else
    let l := s.radio.seen.filter fun x => !(x.1 = origin ∧ x.2.1 = seq)
    if 2048 ≤ l.length then
      let live := (l.head?.map fun x => decide (now < x.2.2 + 30 * second)).getD false
      let s := { s with radio.seen := l.drop 1 ++ [(origin, seq, now)] }
      (if live then s.pulse 832 else s, true)
    else ({ s with radio.seen := l ++ [(origin, seq, now)] }, true)

/-- RP_RX (R291): a received PSDU is checked, link-verified and passed to flooding or parent handling; what it delivers to the
leaf comes by the row of its message. -/
def execRpRx (p : Fin 2) (f : RadioFrame) (s : State) : Host.Outcome State Fault Refusal :=
  .next (
    if !s.rpUp.contains p ∨ !f.formOk ∨ f.pan ≠ s.key (kRadio 0) then s
    else
      let k := s.keyOverlap.linkCheck f
      if !k.2 then k.1
      else if f.dataRequest then (if f.toMe ∧ f.level = 5 then k.1.dataRequest p f.source else k.1)
      else
        let s := if f.toMe ∧ f.sleepy ∧ !f.down then k.1.childHeard f.source else k.1
        let n := s.seenCheck f.origin f.originSeq
        if !n.2 ∨ f.down then n.1
        else match n.1.meterAddr f.origin with
        | some a =>
          if chanOf a = 1 then n.1.modMeter a fun m => { m with rank := f.endRank, sleepy := f.sleepy, port := p } else n.1
        | none => n.1)

/-- CHILD_FRAME_EXPIRE (R302). -/
def execChildFrameExpire (child : Nat) (s : State) : Host.Outcome State Fault Refusal := .next (s.expireFrames child)

/-- CHILD_ENTRY_EXPIRE (R302): no SLEEPY frame for 3,600 s. -/
def execChildEntryExpire (child : Nat) (s : State) : Host.Outcome State Fault Refusal :=
  .next (
    if s.radio.child.any fun c => c.addr = child ∧ c.heard + 3600 * second ≤ s.time.mono then
      ({ s with radio.child := s.radio.child.filter fun c => c.addr ≠ child, radio.childFull := false }).level 833 false
    else s)

/-- ADVERT_SEND (R293, R297). -/
def execAdvertSend (s : State) : Host.Outcome State Fault Refusal :=
  .next (
    if s.rpUp.isEmpty ∨ s.time.mono < s.radio.advertAt + s.key (kRadio 2) * second then s
    else
      let s := s.keyOverlap
      let opened := match s.radio.join with | some j => decide (s.time.mono < j.windowEnd) | none => false
      let body := leBytes 2 s.kiln.devId ++ leBytes 1 (bitsNat [opened, s.radio.keyNew])
        ++ leBytes 2 (if opened then s.key (kRadio 7) else 0) ++ leBytes 1 s.radio.keyIndex ++ zeros 2
      let carried := if s.radio.keyNew then some (s.radio.keyAdv.getD s.time.mono) else none
      { s with radio.advertAt := s.time.mono, radio.keyAdv := carried }.radioFlood 0xC 15 body)

/-! ### Polling (R301) -/

/-- A request goes to a radio meter under its next counter, and its answer is awaited. -/
def State.radioAsk (s : State) (a : Nat) (m : LeafMeter) (kind : PKind) (type : Nat) (body : Bytes) (again : Bool) : State :=
  (s.modMeter a fun m => { m with ctrDown := m.ctrDown + 1, attempts := if again then m.attempts + 1 else 1, repeatAt := none,
                                  again := some kind, waiting := some s.time.mono, lastFrame := s.time.mono }).radioSend
    m.port m.identity m.rank type (m.ctrDown + 1) body

/-- The PUSH_SEG a target wants next (R343, R344). -/
def State.radioPush (s : State) (a : Nat) (m : LeafMeter) (id : Nat) (again : Bool) : State :=
  match s.leafJob id with
  | some j =>
    match j.targets.find? (·.identity == m.identity) with
    | some t =>
      let x := s.jobFor j m.identity
      if !x.wants (j.run j.total 0 == j.total) t then s
      else
        let lim := s.key (kRadio 9) - 63
        let second := pushCount lim == 0 && j.half
        let body := if t.state = 2 then (x.segment lim t.next second).1 else x.query (t.state == 3) t.next
        let s := if pushCount lim = 0 ∧ t.state = 2 then s.modLeafJob id fun j => { j with half := !j.half } else s
        s.radioAsk a m (.push id) 9 body again
    | none => s
  | none => s

/-- Go on with the pushes of a meter that has just answered. -/
def State.radioPushNext (s : State) (a : Nat) : State :=
  match s.meter a with
  | some m =>
    match s.ledger.leafJobs.find? fun j => j.targets.any fun t => t.identity == m.identity && (s.jobFor j m.identity).wants (j.run j.total 0 == j.total) t with
    | some j => s.radioPush a m j.id false
    | none => s
  | none => s

/-- Blocks that have come are flooded (R343). -/
def State.radioPushCast (s : State) (j : LeafJob) (frm count : Nat) : State :=
  let lim := s.key (kRadio 9) - 63
  let n := pushCount lim
  if n = 0 then
    (List.range count).foldl (fun (s : State) i =>
      (s.radioFlood 9 15 (j.segment lim (frm + i) false).1).radioFlood 9 15 (j.segment lim (frm + i) true).1) s
  else
    (List.range (ceilDiv count n)).foldl (fun (s : State) i =>
      let k := min n (count - n * i)
      s.radioFlood 9 15 (pushSegBody j.id j.kind k (frm + n * i) j.total 0 j.version
        ((List.range k).flatMap fun x => j.block (frm + n * i + x)))) s

/-- Ask a meter for its reading, `none` while no POLL_READ may go out. -/
def State.radioPoll (s : State) (a : Nat) (again : Bool) : Option State :=
  (s.meter a).bind fun m =>
    if !s.rpUp.contains m.port ∨ m.waiting.isSome then none
    else (s.pollSelect a).map fun sel => s.radioAsk a m (.poll sel) 0 (leBytes 4 sel ++ zeros 4) again

/-- RADIO_POLL_DUE (R301): POLL_READ is flooded; a poll that cannot go out stays due. -/
def execRadioPollDue (a : Nat) (s : State) : Host.Outcome State Fault Refusal :=
  .next (
    let c := s.cycleOf (s.key (kRadio 4))
    match s.meter a with
    | some m =>
      let fresh := !m.served && decide (c.1 = s.radio.cycle) && decide (dueNs (s.key (kRadio 4)) (a - 1025) ≤ c.2)
      if chanOf a = 1 ∧ s.kiln.role = .leaf ∧ !s.isLocked m.identity ∧ (fresh || s.radio.dueQ.contains a) then
        let s := s.modMeter a fun m => { m with served := true }
        if !m.present ∧ 1 ≤ m.attempts then s
        else match s.radioPoll a false with
        | some s' => { s' with radio.dueQ := s'.radio.dueQ.filter (· != a) }
        | none => if s.radio.dueQ.contains a then s else { s with radio.dueQ := s.radio.dueQ ++ [a] }
      else s
    | none => s)

/-- A missed radio exchange; not counted while the port of the meter's latest frame is in fault (R289). -/
def State.radioMissed (s : State) (a : Nat) : State :=
  match s.meter a with
  | some m => (s.modMeter a fun m => { m with waiting := none }).meterMissed a (s.rport m.port).fault
  | none => s

/-- RADIO_REPLY_TIMEOUT (R301): REPLY_S, and 60 s more for a sleepy meter. -/
def execRadioReplyTimeout (a : Nat) (s : State) : Host.Outcome State Fault Refusal :=
  .next (
    match s.meter a with
    | some m =>
      match m.waiting with
      | some t => if t + (s.key (kRadio 5) + if m.sleepy then 60 else 0) * second ≤ s.time.mono then s.radioMissed a else s
      | none => s
    | none => s)

/-- RADIO_REPEAT_DUE (R301): every attempt in the same mode. -/
def execRadioRepeatDue (a : Nat) (s : State) : Host.Outcome State Fault Refusal :=
  .next (
    match s.meter a with
    | some m =>
      match m.repeatAt, m.again with
      | some t, some k =>
        if chanOf a ≠ 1 ∨ s.time.mono < t ∨ !s.rpUp.contains m.port then s
        else match k with
        | .push id => s.radioPush a m id true
        | _ => (s.radioPoll a true).getD s
      | _, _ => s
    | none => s)

/-- RADIO_POLL_CYCLE_END (R301). -/
def execRadioPollCycleEnd (s : State) : Host.Outcome State Fault Refusal :=
  .next (
    let c := (s.cycleOf (s.key (kRadio 4))).1
    if s.kiln.role ≠ .leaf ∨ c = s.radio.cycle ∨ !s.kiln.ph.k6Open then s
    else
      let late := !s.radio.dueQ.isEmpty
      let s := (s.newCycle 1).pushCycle 1
      { s with radio.overrun := late, radio.dueQ := [], radio.repQ := [], radio.cycle := c })

/-- A message of a confirmed radio meter (R271, R292): a failed MIC pulses EV0822, a counter EV0831 (R296), and both are misses. -/
def State.radioAnswer (s : State) (m : RadioMsg) (len : Nat) (use : Nat → LeafMeter → State → State) : State :=
  match (s.meterAddr m.identity).filter fun a => chanOf a = 1 with
  | none => s
  | some a =>
    match s.meter a with
    | none => s
    | some x =>
      match msgCheck m.micOk m.ctr x.ctrUp m.body.length len with
      | .discard => s
      | .reject => (if x.waiting.isSome then s.radioMissed a else s).pulse (if m.micOk then 831 else 822)
      | .accept =>
        let s := s.meterAnswered a x fun y => { y with ctrUp := m.ctr, port := m.port, sleepy := m.sleepy }
        (use a x s).radioPushNext a

/-- RADIO_READING_RECEIVE (R301). -/
def execRadioReadingReceive (m : RadioMsg) (s : State) : Host.Outcome State Fault Refusal :=
  .next (s.radioAnswer m 40 fun a x s => s.takeReading a x m.body)

/-- RADIO_PUSH_ACK_RECEIVE (R343). -/
def execRadioPushAckReceive (m : RadioMsg) (s : State) : Host.Outcome State Fault Refusal :=
  .next (s.radioAnswer m 12 fun _ x s => s.pushAck x.identity m.body)

/-! ### Joining (R300) -/

/-- A round opens. -/
def State.openJoin (s : State) : State :=
  { s with radio.join := some { windowEnd := s.time.mono + s.key (kRadio 7) * 100000000 }, radio.lastJoin := some s.time.mono,
           radio.roundNum := (s.radio.roundNum + 1) % 2 ^ 16 }

/-- RADIO_JOIN_ROUND_START (R300): JOIN_PERIOD has passed since the last round started. -/
def execRadioJoinRoundStart (s : State) : Host.Outcome State Fault Refusal :=
  .next (
    let due := match s.radio.lastJoin with
      | some t => decide (t + s.key (kRadio 6) * second ≤ s.time.mono)
      | none => true
    if s.rpUp.isEmpty ∨ s.radio.join.isSome ∨ !due then s else s.openJoin)

/-- The end of a round (R300): window end + 3 × REPLY_S. -/
def State.joinEnd (s : State) (j : JoinRound) : Nat := j.windowEnd + 3 * s.key (kRadio 5) * second

/-- A CONFIRM goes to an answerer. -/
def State.radioConfirm (s : State) (c : Confirm) : State :=
  let s := { s with radio.join := s.radio.join.map fun (j : JoinRound) =>
    { j with confirms := j.confirms.map fun (x : Confirm) =>
        if x.identity = c.identity then { x with tries := x.tries + 1, at_ := s.time.mono } else x } }
  let ctr := (s.idCtr c.identity).1 + 1
  (s.useCtr c.identity).radioSend c.port c.identity c.rank 4 ctr (leBytes 8 c.identity ++ leBytes 2 c.addr ++ zeros 2)

/-- RADIO_ANSWER_RECEIVE (R300): a copy is one answer; a second ORIGIN_SEQ locks the identity; one confirmed and present on the
power line is not confirmed. -/
def execRadioAnswerReceive (identity : Nat) (a : RadioAnswer) (port : Fin 2) (s : State) : Host.Outcome State Fault Refusal :=
  .next (
    match s.radio.join with
    | none => s
    | some j =>
      if s.joinEnd j ≤ s.time.mono then s
      else match j.answers.find? (·.1 == identity) with
      | some x =>
        if x.2 = a.originSeq then s
        else ({ s with radio.join := some { j with confirms := j.confirms.filter (·.identity != identity) } }).cloneLock identity
      | none =>
        let s := { s with radio.join := some { j with answers := j.answers ++ [(identity, a.originSeq)] } }
        let onLine := (s.meterAddr identity).bind s.meter
        if onLine.any fun m => m.present && (s.meterAddr identity).any fun a => chanOf a == 0 then s
        else
          let y := s.answerer 1 identity (j.confirms.map (·.addr))
          match y.2 with
          | none => y.1
          | some addr =>
            let c : Confirm := { identity := identity, addr := addr, tries := 0, done := false, port := port, rank := a.rank }
            ({ y.1 with radio.join := y.1.radio.join.map fun (j : JoinRound) => { j with confirms := j.confirms ++ [c] } }).radioConfirm c)

/-- RADIO_CONFIRM_REPEAT (R300): no CONFIRM_ACK within REPLY_S, up to 3 repeats. -/
def execRadioConfirmRepeat (identity : Nat) (s : State) : Host.Outcome State Fault Refusal :=
  .next (
    match s.radio.join.bind fun j => j.confirms.find? (·.identity == identity) with
    | some c => if !c.done ∧ c.tries < 4 ∧ c.at_ + s.key (kRadio 5) * second ≤ s.time.mono then s.radioConfirm c else s
    | none => s)

/-- RADIO_CONFIRM_ACK_RECEIVE (R300): an identity absent on the power line leaves its address there, which is quarantined. -/
def execRadioConfirmAckReceive (m : RadioMsg) (s : State) : Host.Outcome State Fault Refusal :=
  .next (
    match s.radio.join with
    | none => s
    | some j =>
      match j.confirms.find? fun c => c.identity == fld m.body 0 8 && !c.done with
      | none => s
      | some c =>
        let k := s.idCtr c.identity
        if s.joinEnd j ≤ s.time.mono ∨ m.identity ≠ c.identity then s
        else match msgCheck m.micOk m.ctr k.2 m.body.length 12 with
        | .discard => s
        | .reject => s.pulse (if m.micOk then 831 else 822)
        | .accept =>
          let done := j.confirms.map fun (x : Confirm) => if x.identity = c.identity then { x with done := true } else x
          let s := { s with radio.join := some { j with confirms := done } }
          let s := match (s.meterAddr c.identity).filter fun a => chanOf a = 0 with
            | some a => s.dropMeter a
            | none => s
          s.confirmMeter c.addr 826
            { identity := c.identity, ctrUp := m.ctr, ctrDown := k.1, port := m.port, sleepy := m.sleepy, rank := c.rank })

/-- RADIO_JOIN_CLOSE (R300). -/
def execRadioJoinClose (s : State) : Host.Outcome State Fault Refusal :=
  .next (
    match s.radio.join with
    | some j =>
      if s.time.mono < s.joinEnd j then s
      else
        let bad := (j.confirms.filter fun c => !c.done && (s.meterAddr c.identity).isNone).map fun c => (c.addr, c.at_)
        ({ s with radio.join := none, plc.quar := s.plc.quar ++ bad }).pulse 829
    | none => s)

/-! ### Commands (R300, R304) -/

/-- RADIO_JOIN. -/
def radioJoinBody : Body := fixedBody 8 [(0, 8)] fun _ _ s =>
  if s.radio.join.isSome then (s, .reply (Res.err stBusy 0))
  else
    let s := s.openJoin
    (s, .reply (Res.ok (leBytes 2 s.radio.roundNum ++ zeros 6)))

def execRadioJoin (p : Packet) (s : State) : Host.Outcome State Fault Refusal := .next (command 0x0901 radioJoinBody p s)

/-- The port word of R304 as a bay reads it. -/
def State.rpWord (s : State) (p bay : Nat) : Nat :=
  let x := s.rport p
  bitsNat [x.running, x.fault, x.busyHigh, s.radio.overrun, s.radio.join.isSome] + 256 * Tbl.get 0 x.resets bay + 65536 * x.rssi

/-- RADIO_STATUS: RESETS is cleared for the bay that read it. -/
def radioStatusBody : Body := fixedBody 0 [] fun c _ s =>
  let s := ([0, 1].foldl (fun (s : State) p => s.modRport p fun x => { x with busyHigh := (busyOver s.time.mono x.tx).2 }) s).rpLevels
  let l := s.metersOn 1
  let here := l.filter (·.2.present)
  let r := leBytes 2 here.length ++ leBytes 2 (l.length - here.length) ++ leBytes 2 (l.filter (·.2.sleepy)).length
    ++ leBytes 2 s.radio.child.length ++ leBytes 4 (s.rpWord 0 c.bay) ++ leBytes 4 (s.rpWord 1 c.bay)
  let s := [0, 1].foldl (fun (s : State) p => s.modRport p fun x => { x with resets := Tbl.set 0 x.resets c.bay 0 }) s
  (s, .reply (Res.ok r))

def execRadioStatus (p : Packet) (s : State) : Host.Outcome State Fault Refusal := .next (command 0x0902 radioStatusBody p s)

end Sys2Proof.Machine
end

