-- ==== Sys2Proof/Machine/Boundaries.lean ====
section
/-! DEFINITION. What a boundary of a voltage set and the end of a window hold (spec/95): ZC_CROSSING_DECIDE, SYNTH_BOUNDARY and
WINDOW_END. -/

namespace Sys2Proof.Machine

/-! ### The configuration of what lies before a swap (R94) -/

/-- The set in force at a course sample that lies at or before the latest swap sample, while it is another than the active one. -/
def State.setAt (s : State) (u : Nat) : Option KeySet :=
  match s.metro.before with
  | some (x, old) => if u ≤ 2 * x then some old else none
  | none => none

/-- Carry something out under a set that was in force before a swap. -/
def State.under (s : State) (ks : Option KeySet) (f : State → State) : State :=
  match ks with
  | some old => { f { s with cfg.active := old } with cfg.active := s.cfg.active }
  | none => f s

/-! ### Votes on half-cycle and window outputs (R153 to R155) -/

/-- The courses that give a set's outputs: its own and those of its metering points. -/
def setCourses (ks : KeySet) (v : Nat) : List Nat := ((vsCourse ks v).toList ++ (mpsOf ks v).filterMap (mpCourse ks)).eraseDups

/-- BOND_VOTE on the outputs of a boundary or a window: members that differ, and those late by D_zc + 3 ms. -/
def State.setVote (s : State) (v : Nat) (x : VoteIn) : State :=
  (setCourses s.cfg.active v).foldl (fun (s : State) k => s.vote k ((x.dissent ++ x.late).map (·.val)) true) s

/-! ### Boundaries -/

/-- The metering-point shares of a boundary: intervals that ended before it, creep runs, overcurrent, half-cycle and apparent transfers (R72, R80, R83, R123,
R125), an interval that ends with it. -/
def State.mpBoundary (s : State) (m : Nat) (b : Bnd) (half : Nat) : State :=
  let ks := s.cfg.active
  let s := s.settle (fun _ x => decide (x < b.index)) m
  let s := (mpPhases ks m).foldl (fun (s : State) c => s.modChm c (creepRuns ks m)) s
  let s := ((mpChannels ks m).filterMap id).foldl (fun (s : State) c => s.overcurrent m c b) s
  let s := (s.transferMp m b.u b.index b.ns).apparentTransfer m b half
  let s := s.settle (fun _ x => decide (x ≤ b.index)) m
  (mpElems ks m).foldl (fun (s : State) d => s.elemBoundary b (4 * m + d.e)) s

/-- A ZERO_CROSS swap of the set gets its swap sample at the first positive-going boundary after its acceptance (R409, R438). -/
def State.swapBoundary (s : State) (v : Nat) (b : Bnd) : State :=
  match s.cfg.pend with
  | some w =>
    if w.boundary = 1 ∧ w.vset = v ∧ b.rising ∧ w.sample.isNone ∧ w.from_ < b.index then
      { s with cfg.pend := some { w with sample := some (b.index + 32) } }
    else s
  | none => s

/-- A boundary of a set reaches its consumers (R64 to R68), under the set in force. -/
def State.boundaryNow (s : State) (v : Nat) (b : Bnd) : State :=
  let ks := s.cfg.active
  let y := s.vs v
  let before := y.last.orElse fun _ => y.notional
  let start := before.elim (b.index, b.ns) fun a => (a.index, a.ns)
  let half := before.elim 0 fun a => b.u - a.u
  let s := (vsAllChannels ks v ++ [48 + v]).foldl (fun (s : State) c => s.halfRefresh b c) s
  let s := (mpsOf ks v).foldl (fun (s : State) m => s.mpBoundary m b half) s
  let s := s.cycleFreq v b
  let s := s.windowBoundary v b
  let s := s.pqBoundary v b start
  let s := (s.mainsBoundary v b).swapBoundary v b
  let s := s.modVs v fun y =>
    { y with prev := y.last, last := some b, synths := if b.synth then y.synths ++ [b.ns] else y.synths }
  s.plcBoundary v b

/-- A boundary of a set: one at or before a swap sample that left its detector running ends its half-cycle under the old set (R94). -/
def State.boundary (s : State) (v : Nat) (b : Bnd) : State :=
  s.under ((s.setAt b.u).filter fun old => vsEnabled old v && !detRestarts old s.cfg.active v) fun s => s.boundaryNow v b

/-- ZC_CROSSING_DECIDE (R64): D_zc after the oldest crossing found it is decided; where it qualifies the members' values are voted and its boundary reaches the
consumers.  One whose totals are no longer held does not qualify (log 25). -/
def execZcCrossingDecide (v : Fin 8) (vote : VoteIn) (s : State) : Host.Outcome State Fault Refusal :=
  if !s.meters then .next s else
  .next (
    match (s.vs v).zc.found with
    | [] => s
    | f :: _ =>
      let wide := vsWide s.cfg.active v
      let b := s.bndAt wide f.x.at_ f.x.rising false
      if !vsEnabled s.cfg.active v || 2 * s.time.index + 2 < b.u + dzcU wide then s
      else
        let ok := s.crossingOk v f && s.decidable wide b.u
        let s := s.modVs v fun y => { y with zc := y.zc.decided ok f }
        if ok then (s.setVote v vote).boundary v b else s)

/-- SYNTH_BOUNDARY (R66). -/
def execSynthBoundary (v : Fin 8) (s : State) : Host.Outcome State Fault Refusal :=
  if !s.meters then .next s else
  .next (
    if !vsEnabled s.cfg.active v then s
    else match s.synthDue v with
    | some b => if s.decidable (vsWide s.cfg.active v) b.u then s.boundary v b else s
    | none => s)

/-! ### The end of a window -/

/-- The metering-point share of a window's end (R125). -/
def State.mpWindow (s : State) (p : WinPub) (m : Nat) : State :=
  if (mpCourse s.cfg.active m).any p.lost.contains then s
  else s.fundTransfer m ((mpElems s.cfg.active m).map fun d => (d, p.elemPow s.cfg.active m d)) p.w

/-- The RMS of CAL.STAT_CH over a window in µV, and whether the window's block carries none of INVALID, INCOMPLETE, FOOTING and PQ_FLAG (R195). -/
def State.windowRms (s : State) (p : WinPub) : Nat × Bool :=
  let c := s.key (kCal 3)
  (chanRms s.cfg.active c (p.cum c), (p.vsFlags s) &&& 0x113 == 0)

/-- The channels of metering points of a set that began in its window (R545). -/
def State.lateChannels (s : State) (v : Nat) : List Nat :=
  ((mpsOf s.cfg.active v).filter fun m => s.metro.mpCut.contains m).flatMap fun m => (mpChannels s.cfg.active m).filterMap id

/-- Everything that publishing a window takes (R74, R111); a window cut short has no spectra (R545). -/
def State.winPub (s : State) (v : Nat) (w : WinDone) (lost : List Nat) : WinPub :=
  let ks := s.cfg.active
  let chs := if w.cut then [] else (w.ch.map (·.1)).filter fun c => decide (c < 48) && !w.foot.contains (courseOf c)
  { v := v, w := w, sp := chs.map fun c => s.spectrumOf w (courseWide ks (courseOf c)) c, pq := (s.mon v).flagged w.start.index w.stop.index,
    late := s.lateChannels v, lost := lost }

/-- A window is published as one act (R90), with the transfers, aggregates, references and checks that hold at its end. -/
def State.windowEnd (s : State) (v : Nat) (w : WinDone) (lost : List Nat) : State :=
  let ks := s.cfg.active
  let p := s.winPub v w lost
  let s := s.publish p
  let s := (mpsOf ks v).foldl (fun (s : State) m => s.mpWindow p m) s
  let s := if (vsCourse ks v).any lost.contains then s else (s.aggWindow p).slidingUpdate p
  let s := ((List.range 6).filter fun k => !lost.contains k).foldl (fun (s : State) k => s.plausibility v k w) s
  let r := s.windowRms p
  s.statWindow v w.start.index w.stop.index r.1 r.2

/-- WINDOW_END (R68): the oldest window that has ended, once its filter taps are delivered: its values are voted (R153 to R155); a course whose members do not
agree falls, and gives no value for it. -/
def execWindowEnd (v : Fin 8) (vote : VoteIn) (s : State) : Host.Outcome State Fault Refusal :=
  if !s.meters then .next s else
  .next (
    match (s.vs v).done with
    | [] => s
    | w :: t =>
      if !w.cut && !s.tapsReached w then s
      else
        let s0 := s.modVs v fun y => { y with done := t }
        s0.under (s0.setAt w.stop.u) fun s =>
          let s1 := s.setVote v vote
          s1.windowEnd v w ((setCourses s.cfg.active v).filter fun k => !s.onFooting k && s1.onFooting k))

end Sys2Proof.Machine
end

