-- ==== Sys2Proof/Machine/Ledger.lean ====
section
/-! DEFINITION. The ledger engine (12): the root's records, validation, estimation and commit, key requests, clones, mirroring; the
leaf's pallets and the DOWN entries it takes. -/

namespace Sys2Proof.Machine

/-! ### Records (R308 to R311) -/

def State.record (s : State) (i : Nat) : Rec := Tbl.get {} s.ledger.recs i
def State.modRec_ (s : State) (i : Nat) (g : Rec → Rec) : State := { s with ledger.recs := Tbl.upd {} s.ledger.recs i g }

def recordCount : Nat := 1048576

/-- The record of an identity: its index. -/
def State.recIndex (s : State) (identity : Nat) : Option Nat :=
  (s.ledger.recs.find? fun x => x.2.identity == identity && x.2.state != 0).map (·.1)

/-- The lowest free index (R308). -/
def lowestFree (l : Tbl Rec) : Nat → Nat
  | i => match l with
    | [] => i
    | x :: t => if x.1 = i then (if x.2.state = 0 then i else lowestFree t (i + 1)) else if i < x.1 then i else lowestFree t i

/-- A HIST entry (R311): A_IMP increment in mWh and A_EXP increment in 10 mWh, saturating, and the code. -/
def histEntry (imp exp10 code : Nat) : Nat := satU 32 imp + 2 ^ 32 * satU 24 exp10 + 2 ^ 56 * code

def histCode (h : Nat) : Nat := h / 2 ^ 56
def histImp (h : Nat) : Nat := h % 2 ^ 32
def histExp (h : Nat) : Nat := h / 2 ^ 32 % 2 ^ 24

/-- An empty slot: code 0xFF and no value; the table holds it as 0xFF × 2^56, its default. -/
def histEmpty : Nat := 0xFF * 2 ^ 56

end Sys2Proof.Machine

namespace Sys2Proof

open Machine

def Rec.histAt (r : Rec) (slot : Nat) : Nat := Tbl.get histEmpty r.hist (slot % 112)
def Rec.setHist (r : Rec) (slot h : Nat) : Rec := { r with hist := Tbl.set histEmpty r.hist (slot % 112) h }

/-- The ring slot of an interval end `k` intervals before LAST_END. -/
def Rec.slotBack (r : Rec) (k : Nat) : Nat := (r.head + 112 - k % 112) % 112

end Sys2Proof

namespace Sys2Proof.Machine

/-- Does a slot hold a committed value (R323)? -/
def histHeld (h : Nat) : Bool := histCode h ≤ 5

/-- MISSED: consecutive interval ends not received, saturating. -/
def State.missed (s : State) (r : Rec) : Nat :=
  if r.lastEnd = 0 ∨ !s.time.valid then 0 else satU 16 ((s.intervalAt s.utcMin - r.lastEnd) / s.interval)

/-- The 1,024 bytes of a record (R309); WRAPPED_KEY reads 0 outside bay B0. -/
def State.recordBytes (s : State) (r : Rec) (key : Bool) : Bytes :=
  leBytes 8 r.identity ++ leBytes 1 r.state ++ leBytes 1 r.channel ++ leBytes 2 r.leaf ++ leBytes 2 r.addr ++ leBytes 1 r.feeder
    ++ leBytes 1 r.score ++ fitBytes 24 (if key ∧ !r.key.isEmpty then Config.keyWrap Config.recordKey r.key else []) ++ leBytes 4 r.keyVersion ++ leBytes 4 r.tariffVersion
    ++ leBytes 4 r.fwVersion ++ leBytes 2 (bitsNat [r.generation, r.clone, r.keyPending, r.editedAny]) ++ leBytes 1 r.head
    ++ leBytes 1 r.lastVee ++ leBytes 4 r.lastEnd ++ leBytes 2 r.lastStatus ++ leBytes 2 (s.missed r)
    ++ ((List.range 4).flatMap fun i => leBytes 8 (r.reg.getD i 0)) ++ leBytes 8 r.lastCommit ++ leBytes 4 r.job
    ++ leBytes 1 r.jobState ++ leBytes 1 r.jobTries ++ leBytes 2 r.jobNext ++ leBytes 4 r.estimates ++ leBytes 4 r.rejects ++ zeros 8
    ++ (List.range 112).flatMap fun i => leBytes 8 (r.histAt i)

/-! ### Commit log and mirror (R319) -/

def logCapacity : Nat := 6291456

/-- The 64 bytes of a commit-log entry. -/
def LogEnt.bytes (e : LogEnt) : Bytes :=
  leBytes 8 e.seq ++ leBytes 4 e.index ++ leBytes 1 e.vee ++ leBytes 1 (if e.type = 2 then 0x80 else Config.logType e.type) ++ zeros 2
    ++ leBytes 4 e.end_ ++ zeros 4 ++ leBytes 8 e.identity ++ (List.range 4).flatMap fun i => leBytes 8 (e.reg.getD i 0)

/-- Write a commit-log entry; a full log overwrites its oldest, and EV0846 pulses when the host had not read it. -/
def State.logAdd (s : State) (index vee type end_ identity : Nat) (reg : List Nat) : State :=
  let e : LogEnt := { seq := s.ledger.logSeq, index := index, vee := vee, type := type, end_ := end_, identity := identity, reg := reg }
  let full := decide (logCapacity ≤ s.ledger.log.length)
  let lost := full && decide (s.ledger.hostRead + logCapacity ≤ s.ledger.logSeq)
  let s := { s with ledger.log := e :: s.ledger.log.take (logCapacity - 1), ledger.logSeq := s.ledger.logSeq + 1,
                    ledger.mirrorBuf := s.ledger.mirrorBuf ++ [e] }
  if lost then s.pulse 846 else s

/-- The other device of the root pair: of the former standby after a takeover the former root. -/
def State.partner (s : State) : Nat := if s.kiln.devId = s.key (kMortar 1) then s.key (kMortar 0) else s.key (kMortar 1)

/-- Is a standby root linked: at the other end of the MIRROR lane, or the partner a member? -/
def State.standbyLinked (s : State) : Bool :=
  (s.upLanes 3).any (fun m => (s.lane m).peerRole == 3) || (s.partner != 0xFFFF && s.devMember s.partner)

/-- EV0863: no standby linked, at the root. -/
def State.mirrorLevel (s : State) : State := s.level 863 (s.kiln.role == .root && !s.standbyLinked)

/-- A source's pallet is committed (R317). -/
def SrcSeq.commit (x : SrcSeq) (seq : Nat) : SrcSeq :=
  let above := insertSorted seq x.above
  let rec go : List Nat → Nat → SrcSeq
    | [], b => { base := b, above := [] }
    | y :: t, b => if y ≤ b then go t b else if y = b + 1 then go t y else { base := b, above := y :: t }
  go above x.base

def State.srcSeq (s : State) (d : Nat) : SrcSeq := Tbl.get {} s.ledger.src d

/-- The ACK of a pallet whose entries are committed or rejected. -/
def State.ackCommitted (s : State) (src seq : Nat) : State :=
  ({ s with ledger.src := Tbl.upd {} s.ledger.src src fun x => x.commit seq }).sendAck src 0 seq

/-- Every wait for the standby ends: no standby is linked. -/
def State.mirrorRelease (s : State) : State :=
  let w := s.ledger.mirrorWait
  (w.foldl (fun (s : State) x => x.acks.foldl (fun (s : State) a => s.ackCommitted a.1 a.2) s)
    { s with ledger.mirrorWait := [] }).level 862 false

/-- The entries written so far go to the standby in MIRROR pallets of at most 63; `acks` wait for the last of them. -/
def State.mirror (s : State) (acks : List (Nat × Nat)) : State :=
  let s := s.mirrorLevel
  let buf := s.ledger.mirrorBuf
  let s := { s with ledger.mirrorBuf := [] }
  if !s.standbyLinked then
    acks.foldl (fun (s : State) a => s.ackCommitted a.1 a.2) s.mirrorRelease
  else if buf.isEmpty then acks.foldl (fun (s : State) a => s.ackCommitted a.1 a.2) s
  else
    let n := ceilDiv buf.length 63
    (List.range n).foldl (fun (s : State) i =>
      let part := (buf.drop (63 * i)).take 63
      let seq := s.ledger.mirrorSeq + 1
      let w : MirrorWait := { seq := seq, stop := (part.getLast?.elim 0 (·.seq)) + 1, at_ := s.time.mono, acks := if i + 1 = n then acks else [] }
      ({ s with ledger.mirrorSeq := seq, ledger.mirrorWait := s.ledger.mirrorWait ++ [w] }).emit 0
        (s.mkPallet 3 s.partner seq (part.map LogEnt.bytes))) s

/-- A root becomes FENCED_ROOT (R368): EV0797, no path to a root any more; what it committed after its last mirrored entry goes to the other root. -/
def State.fenceRoot (s : State) (other : Nat) : State :=
  let s := ({ s with mortar.stt := .fenced, mortar.hops := 0xFF }).level 797 true
  let rest := (s.ledger.log.filter fun e => decide (s.ledger.mirrored ≤ e.seq)).reverse
  (List.range (ceilDiv rest.length 63)).foldl (fun (s : State) i =>
    let seq := s.ledger.mirrorSeq + 1
    ({ s with ledger.mirrorSeq := seq }).emit 0 (s.mkPallet 3 other seq (((rest.drop (63 * i)).take 63).map LogEnt.bytes))) s

/-- A handover that waits goes on once the standby has acknowledged the last MIRROR pallet (R369). -/
def State.tryHandover (s : State) : State :=
  match s.mortar.handover with
  | some q =>
    if s.ledger.mirrorWait.isEmpty then
      let s := ({ s with mortar.handover := none }).fenceRoot s.partner
      match q with | some q => s.finishHeld q Res.ok | none => s
    else s
  | none => s

/-- MIRROR_ACK_RECEIVE (R319). -/
def execMirrorAckReceive (seq : Nat) (s : State) : Host.Outcome State Fault Refusal :=
  .next (
    match s.ledger.mirrorWait.find? (·.seq == seq) with
    | some w =>
      let s := { s with ledger.mirrorWait := s.ledger.mirrorWait.filter (·.seq != seq) }
      let s := { s with ledger.mirrored := max s.ledger.mirrored w.stop }
      let s := w.acks.foldl (fun (s : State) a => s.ackCommitted a.1 a.2) s
      let s := if s.ledger.mirrorWait.all fun x => decide (s.time.mono ≤ x.at_ + second) then s.level 862 false else s
      s.tryHandover
    | none => s)

/-- MIRROR_LAG (R319): the standby's acknowledgements lag by more than 1 s. -/
def execMirrorLag (ms : Nat) (s : State) : Host.Outcome State Fault Refusal :=
  .next (if 1000 < ms ∧ !s.ledger.mirrorWait.isEmpty ∧ s.standbyLinked then s.level 862 true else s)

/-! ### Scores and clones (R327, R341) -/

/-- Points for a record's score; a rise to SCORE_ALARM pulses EV0853. -/
def State.scoreUp (s : State) (i pts : Nat) : State :=
  let old := (s.record i).score
  let new := min 255 (old + pts)
  let al := s.key (kLedger 10)
  let s := s.modRec_ i fun r => { r with score := new }
  if old < al ∧ al ≤ new then s.pulse 853 else s

/-- Anomaly scoring is Q1 work: not done while Q1 is refused (R320, R321). -/
def State.score (s : State) (i pts : Nat) : State := if s.shed 1 then s else s.scoreUp i pts

/-- The clone alarm of a record (R327): LOCKED, FLAGS.CLONE, SCORE 255, LOCK to every leaf involved. -/
def State.cloneAlarm (s : State) (i : Nat) (leaves : List Nat) : State :=
  let r := s.record i
  let s := (s.modRec_ i fun r => { r with state := 5, clone := true }).scoreUp i 255
  ((leaves.filter (· != 0xFFFF)).foldl (fun (s : State) d => s.sendDown d (lockEntry 0 r.identity)) s).pulse 852

/-! ### Validation (R322) -/

/-- A committed reading of a record in the commit log that `sel` names, the newest first; a deprovision ends the readings before it. -/
def State.logged (s : State) (identity : Nat) (sel : Nat → Bool) : List LogEnt :=
  (s.ledger.log.takeWhile fun e => !(e.type == 2 && e.identity == identity)).filter fun e => e.identity == identity && e.type == 0 && decide (e.vee < 0x80) && sel e.end_

/-- The committed reading of an interval end. -/
def State.readingAt (s : State) (identity end_ : Nat) : Option LogEnt := (s.logged identity (· == end_)).head?

/-- Of committed readings the one with the largest (or smallest) END. -/
def pickEnd (largest : Bool) : List LogEnt → Option LogEnt
  | [] => none
  | e :: t => match pickEnd largest t with
    | none => some e
    | some x => if (if largest then decide (x.end_ < e.end_) else decide (e.end_ < x.end_)) then some e else some x

def State.readingBefore (s : State) (identity end_ : Nat) : Option LogEnt := pickEnd true (s.logged identity fun x => decide (x < end_))
def State.readingAfter (s : State) (identity end_ : Nat) : Option LogEnt := pickEnd false (s.logged identity fun x => decide (end_ < x))

/-- Is some register lower than before? -/
def regress (a b : List Nat) : Bool := (List.range 4).any fun i => decide (b.getD i 0 < a.getD i 0)

/-- Is some register lower than in a committed reading with an earlier END (R322 check 5)? -/
def State.regresses (s : State) (r : Rec) (end_ : Nat) (reg : List Nat) : Bool :=
  ((s.logged r.identity fun e => decide (e < end_)).any fun e => regress e.reg reg)
    || (decide (r.lastEnd ≠ 0) && decide (r.lastEnd < end_) && regress r.reg reg)

/-- The reading before an interval end: its END and registers. -/
def State.priorReading (s : State) (r : Rec) (end_ : Nat) : Option (Nat × List Nat) :=
  if r.lastEnd ≠ 0 ∧ r.lastEnd < end_ then some (r.lastEnd, r.reg)
  else (s.readingBefore r.identity end_).map fun e => (e.end_, e.reg)

/-- Is an increment over `k` intervals above MAX_KW for each (R322 check 6)? -/
def State.spike (s : State) (inc k : Nat) : Bool := decide (k * s.key (kLedger 2) * s.interval * 1000 < 60 * inc)

/-- The verdict of R322 on a reading of a record: a code, and whether an ESTIMATED slot is replaced. -/
def State.validate (s : State) (i src end_ status : Nat) (reg : List Nat) : Nat :=
  let r := s.record i
  if r.state = 5 then 0x81
  else if r.state < 2 ∨ 4 < r.state then 0x80
  else if r.leaf ≠ src ∧ r.state ≠ 4 then 0x82
  else if 128 ≤ status then 0x89
  else if end_ % s.interval ≠ 0 then 0x83
  else if s.time.valid ∧ s.utcNs / second + s.key (kLedger 1) < end_ * 60 then 0x84
  else
    let old := r.lastEnd ≠ 0 ∧ end_ ≤ r.lastEnd
    let back := (r.lastEnd - end_) / s.interval
    let h := r.histAt (r.slotBack back)
    if old ∧ 112 ≤ back then 0x87
    else if old ∧ histCode h = 2 then 0x86
    else
      let was := if end_ = r.lastEnd then some r.reg else (s.readingAt r.identity end_).map (·.reg)
      if old ∧ histHeld h ∧ was = some reg then 0x85
      else if old ∧ histHeld h ∧ histCode h ≠ 1 then 0x86
      else if s.regresses r end_ reg then 0x88
      else if old ∧ histCode h = 1 then 5
      else
        let fast := match s.priorReading r end_ with
          | some b =>
            let k := (end_ - b.1) / s.interval
            s.spike (reg.getD 0 0 - b.2.getD 0 0) k || s.spike (reg.getD 1 0 - b.2.getD 1 0) k
          | none => false
        if fast then 3 else if status % 8 ≠ 0 ∨ (status.testBit 3 ∧ !r.generation) then 4 else 0

/-! ### Estimation and commit (R324) -/

/-- Shares of a total in proportion to weights, by rounding the running sums (log 6); equal where every weight is 0. -/
def shares (total : Nat) (w : List Nat) : List Nat :=
  let w := if w.sum = 0 then w.map fun _ => 1 else w
  let all := w.sum
  let rec go : List Nat → Nat → Nat → List Nat
    | [], _, _ => []
    | x :: t, acc, given =>
      let upto := (roundDiv ((total * (acc + x) : Nat) : Int) all).toNat
      (upto - given) :: go t (acc + x) upto
  go w 0 0

end Sys2Proof.Machine

namespace Sys2Proof

open Machine

/-- Weights of the `k` slots of which the first lies `back` intervals before LAST_END (-1: the one after it): the A_IMP increment
96 intervals earlier where the ring holds a committed value there, else 1. -/
def Rec.weights (r : Rec) (back : Int) (k : Nat) : List Nat :=
  (List.range k).map fun (j : Nat) =>
    let b := 96 + back - (j : Int)
    let h := if 0 ≤ b ∧ b < 112 then r.histAt (r.slotBack b.toNat) else histEmpty
    if histHeld h then histImp h else 1

/-- Write `k` slots from `first` on, `back` intervals before LAST_END, with shares of the increments, coded ESTIMATED. -/
def Rec.estimate (r : Rec) (first : Nat) (back : Int) (k imp exp10 : Nat) : Rec :=
  let w := r.weights back k
  let a := shares imp w
  let b := shares exp10 w
  (List.range k).foldl (fun r j => r.setHist (first + j) (histEntry (a.getD j 0) (b.getD j 0) 1)) r

end Sys2Proof

namespace Sys2Proof.Machine

/-- Commit a reading later than LAST_END: its slot, and the gap before it. -/
def State.commitNew (s : State) (i end_ vee : Nat) (reg : List Nat) : State :=
  let r := s.record i
  let imp := reg.getD 0 0 - r.reg.getD 0 0
  let exp10 := (reg.getD 1 0 - r.reg.getD 1 0) / 10
  if r.lastEnd = 0 then
    -- no earlier reading: the increments of its slot are free values (log 3)
    let d := s.draw
    d.2.modRec_ i fun r => { r with head := 0, hist := Tbl.set histEmpty [] 0 (histEntry (d.1 % 2 ^ 32) (d.1 / 2 ^ 32 % 2 ^ 24) vee) }
  else
    let k := (end_ - r.lastEnd) / s.interval
    let head := (r.head + k) % 112
    if k = 1 then s.modRec_ i fun r => { r.setHist head (histEntry imp exp10 vee) with head := head }
    else if k - 1 ≤ s.key (kLedger 3) then
      (s.modRec_ i fun r =>
        { r.estimate (r.head + 1) (-1) k imp exp10 with head := head, estimates := (r.estimates + (k - 1)) % 2 ^ 32 }).pulse 845
    else
      s.modRec_ i fun r =>
        let r1 := (List.range (min 111 (k - 1))).foldl (fun r j => r.setHist (head + 111 - j) (histEntry 0 0 6)) r
        { r1.setHist head (histEntry imp exp10 1) with head := head }

/-- Put a late reading into the ring: its slot with what the registers rose since the value before it; for an estimate the estimates from there to the next
real reading again (R324), for a slot without value what is left in that reading's own slot. -/
def State.commitLate (s : State) (i end_ code : Nat) (reg : List Nat) : State :=
  let r := s.record i
  let back := (r.lastEnd - end_) / s.interval
  let slot := r.slotBack back
  let prev := s.readingBefore r.identity end_
  let next := s.readingAfter r.identity end_
  let gapBack := match prev with | some p => (end_ - p.end_) / s.interval - 1 | none => 0
  let between := (List.range gapBack).map fun j => r.histAt (slot + 111 - j % 112)
  let sumImp := (between.map fun h => if histHeld h then histImp h else 0).sum
  let sumExp := (between.map fun h => if histHeld h then histExp h else 0).sum
  let p := (prev.map (·.reg)).getD reg
  let imp := reg.getD 0 0 - p.getD 0 0 - sumImp
  let exp10 := (reg.getD 1 0 - p.getD 1 0) / 10 - sumExp
  let estimated := decide (histCode (r.histAt slot) = 1)
  let s := s.modRec_ i fun r => r.setHist slot (histEntry imp exp10 code)
  match next with
  | some n =>
    let k := (n.end_ - end_) / s.interval
    s.modRec_ i fun r =>
      if !estimated then r.setHist (slot + k) (histEntry (n.reg.getD 0 0 - reg.getD 0 0) ((n.reg.getD 1 0 - reg.getD 1 0) / 10) (histCode (r.histAt (slot + k))))
      else r.estimate (slot + 1) ((back : Int) - 1) k (n.reg.getD 0 0 - reg.getD 0 0) ((n.reg.getD 1 0 - reg.getD 1 0) / 10)
  | none => s

/-- READING_VALIDATE (R322): a READING is committed or rejected. -/
def State.reading (s : State) (src end_ identity status : Nat) (reg : List Nat) : State :=
  match s.recIndex identity with
  | none => (s.logAdd 0xFFFFFFFF 0x80 0 end_ identity reg).pulse 843
  | some i =>
    let v := s.validate i src end_ status reg
    let r := s.record i
    if v = 0x85 then s
    else if 0x80 ≤ v then
      let s := ((s.modRec_ i fun r => { r with rejects := (r.rejects + 1) % 2 ^ 32 }).logAdd i v 0 end_ identity reg).pulse 843
      if v = 0x86 then
        let edited := r.lastEnd = end_ ∧ histCode (r.histAt r.head) = 2
        (if edited then s.modRec_ i fun r => { r with reg := reg } else s).score i 40
      else if v = 0x88 then s.score i 40
      else if v = 0x82 then
        let s := s.score i 60
        let f := match r.foreign with
          | some (d, lo, hi) => if d = src then (src, min lo end_, max hi end_) else (src, end_, end_)
          | none => (src, end_, end_)
        let s := s.modRec_ i fun r => { r with foreign := some f }
        if r.spanFrom ≠ 0 ∧ r.spanFrom ≤ f.2.2 ∧ f.2.1 ≤ r.lastEnd then s.cloneAlarm i [r.leaf, src] else s
      else s
    else
      let late := decide (r.lastEnd ≠ 0 ∧ end_ < r.lastEnd)
      let s := if r.lastEnd ≠ 0 ∧ end_ ≤ r.lastEnd then s.commitLate i end_ v reg else s.commitNew i end_ v reg
      let s := s.modRec_ i fun r =>
        { r with lastVee := v, lastCommit := s.stampNs, spanFrom := if r.spanFrom = 0 then end_ else min r.spanFrom end_,
                 lastEnd := if late then r.lastEnd else end_, lastStatus := if late then r.lastStatus else status,
                 reg := if late then r.reg else reg }
      let s := s.logAdd i v 0 end_ identity reg
      let s := if v = 3 ∨ v = 4 then s.pulse 844 else s
      let s := if v = 3 then s.score i 10 else s
      let s := if status.testBit 1 ∨ status.testBit 2 then s.score i 50 else s
      if status.testBit 3 ∧ !r.generation then s.score i 30 else s

/-! ### Push reports (R345) -/

/-- The pallet key of a device's entry. -/
def State.devKey (s : State) (d : Nat) : Bytes := match Tbl.get none s.mortar.table d with | some e => e.key | none => []

def State.modJob (s : State) (id : Nat) (g : Job → Job) : State :=
  { s with ledger.jobs := s.ledger.jobs.map fun j => if j.id = id then g j else j }

end Sys2Proof.Machine

namespace Sys2Proof

open Machine

def Job.live (j : Job) : Bool := j.targets.any fun t => decide (t.state < 4)

end Sys2Proof

namespace Sys2Proof.Machine

/-- Blocks of 64 bytes of a content (R342, R343). -/
def blocksOf (data : Bytes) : Nat := ceilDiv data.length 64

/-- What a leaf gets of a job for its targets (R343): the targets, then the content.  Keys of meters go per leaf, in target order, a
block each (log 23); a broadcast or network key first as KEY_GRANT (R346). -/
def State.sendJob (s : State) (j : Job) (leaf : Nat) (ts : List (Nat × Nat)) : State :=
  let s := if j.kind = 3 then s.sendDown leaf (keyGrantEntry 0 j.version 0 (Config.keyWrap (s.devKey leaf) j.data))
    else if j.kind = 4 then s.sendDown leaf (keyGrantEntry 0 j.version bcastAddr (Config.keyWrap (s.devKey leaf) j.data)) else s
  let s := ts.foldl (fun (s : State) t => s.sendDown leaf (pushTargetEntry j.kind j.id t.2 j.activateAt j.version)) s
  let data := if j.kind = 2 then ts.flatMap fun t => fitBytes 64 ((j.data.drop (16 * t.1)).take 16) else j.data
  let n := blocksOf data
  (List.range (ceilDiv n 60)).foldl (fun (s : State) k =>
    let c := min 60 (n - 60 * k)
    s.sendDown leaf (pushDataEntry j.kind c (60 * k) j.id n ((data.drop (3840 * k)).take (64 * c)))) s

/-- Targets of a job by their place in its list, for the leaves that serve them, PENDING ones only. -/
def State.sendJobs (s : State) (j : Job) (only : Option Nat) : State :=
  let ts := (j.targets.zipIdx.filter fun x => x.1.state == 1).filterMap fun x =>
    (s.recIndex x.1.identity).map fun i => ((s.record i).leaf, x.2, x.1.identity)
  let ts := ts.filter fun x => x.1 != 0xFFFF && (match only with | some id => x.2.2 == id | none => true)
  (ts.map (·.1)).eraseDups.foldl (fun (s : State) d => s.sendJob j d ((ts.filter (·.1 == d)).map (·.2))) s

/-- The job of a meter ended for it: the next one that waits begins (R342). -/
def State.nextJob (s : State) (identity : Nat) : State :=
  match s.ledger.jobs.reverse.find? fun j => j.targets.any fun t => t.identity == identity && t.state == 0 with
  | none => s
  | some j =>
    let s := s.modJob j.id fun j => { j with targets := j.targets.map fun t => if t.identity = identity then { t with state := 1 } else t }
    let s := match s.recIndex identity with
      | some i => s.modRec_ i fun r => { r with job := j.id, jobState := 1, jobTries := 0, jobNext := 0, keyPending := r.keyPending || j.kind == 2 }
      | none => s
    match s.ledger.jobs.find? (·.id == j.id) with
    | some j => s.sendJobs j (some identity)
    | none => s

/-- EV0859, and EV0860 with a failed or expired target, once every target is terminal. -/
def State.jobEnd (s : State) (id : Nat) (wasLive : Bool) : State :=
  match s.ledger.jobs.find? (·.id == id) with
  | some j =>
    if wasLive ∧ !j.live then
      let s := s.pulse 859
      if j.targets.any fun t => t.state == 5 || t.state == 6 then s.pulse 860 else s
    else s
  | none => s

/-- A target takes a state: its record follows, and at DONE gets VERSION in the field of the job's KIND (R345, R346). -/
def State.jobTarget (s : State) (id identity st next tries : Nat) : State :=
  match s.ledger.jobs.find? (·.id == id) with
  | none => s
  | some j =>
    match j.targets.zipIdx.find? (·.1.identity == identity) with
    | none => s
    | some (t, place) =>
      if 4 ≤ t.state then s
      else
        let s := s.modJob id fun j =>
          { j with targets := j.targets.map fun t => if t.identity = identity then { t with state := st, next := next, tries := tries } else t }
        let done := decide (4 ≤ st)
        let s := match s.recIndex identity with
          | some i => s.modRec_ i fun r =>
              let r := if t.state = 0 then r else
                { r with job := if done then 0 else id, jobState := st, jobNext := next, jobTries := tries }
              if st ≠ 4 then (if done && j.kind == 2 && t.state != 0 then { r with keyPending := false } else r)
              else match j.kind with
              | 0 => { r with tariffVersion := j.version }
              | 1 => { r with fwVersion := j.version }
              | 2 => { r with keyVersion := j.version, key := (j.data.drop (16 * place)).take 16, keyPending := false }
              | _ => r
          | none => s
        let s := s.jobEnd id j.live
        if done ∧ t.state ≠ 0 then s.nextJob identity else s

/-- The push of a meter that a leaf serves anew goes on there (R345). -/
def State.resumeJob (s : State) (i : Nat) : State :=
  let r := s.record i
  match s.ledger.jobs.find? (·.id == r.job) with
  | some j =>
    match j.targets.zipIdx.find? (·.1.identity == r.identity) with
    | some t => if r.job ≠ 0 ∧ 1 ≤ t.1.state ∧ t.1.state ≤ 3 then s.sendJob j r.leaf [(t.2, r.identity)] else s
    | none => s
  | none => s

/-! ### Key requests and presence (R326) -/

/-- KEY_GRANT with a meter key wrapped under the pallet key. -/
def State.grant (s : State) (d result identity version : Nat) (key : Bytes) : State :=
  let s := s.sendDown d (keyGrantEntry result version identity (if result = 0 then Config.keyWrap (s.devKey d) key else []))
  if result = 0 then s else s.pulse 861

/-- KEY_REQUEST_HANDLE (R326). -/
def State.keyRequest (s : State) (src chan addr identity : Nat) : State :=
  match s.recIndex identity with
  | none => s.grant src 1 identity 0 []
  | some i =>
    let r := s.record i
    let give (s : State) : State :=
      ((s.modRec_ i fun r => { r with leaf := src, channel := chan, addr := addr, state := 2, spanFrom := 0, foreign := none }).grant
        src 0 identity r.keyVersion r.key).resumeJob i
    match r.state with
    | 1 => give s
    | 4 => (give s).pulse 849
    | 2 => if r.leaf = src then s.grant src 0 identity r.keyVersion r.key else s.grant src 3 identity 0 []
    | 3 =>
      if r.leaf = src then s.grant src 0 identity r.keyVersion r.key
      else give (s.sendDown r.leaf (lockEntry 1 identity))
    | 5 => s.grant src 2 identity 0 []
    | _ => s.grant src 1 identity 0 []

/-- PRESENCE_HANDLE (R326): ABSENT and ACTIVE by the record's own leaf; confirmations from two leaves within 3,600 s are a clone
(R327). -/
def State.presenceIn (s : State) (src chan addr event identity : Nat) : State :=
  match s.recIndex identity with
  | none => s
  | some i =>
    let r := s.record i
    let clone := event == 0 && (match r.confirmed with
      | some (d, t) => d != src && decide (s.time.mono < t + 3600 * second)
      | none => false)
    let s := if event = 0 then s.modRec_ i fun r => { r with confirmed := some (src, s.time.mono) } else s
    if r.state = 5 then s
    else if clone then s.cloneAlarm i [r.leaf, src, (r.confirmed.getD (0xFFFF, 0)).1].eraseDups
    else if r.leaf ≠ src then s
    else if event = 1 then
      if r.state = 2 then ((s.modRec_ i fun r => { r with state := 3 }).pulse 850).score i 5 else s
    else
      let s := s.modRec_ i fun r => { r with channel := chan, addr := addr }
      if r.state = 3 then (s.modRec_ i fun r => { r with state := 2 }).pulse 851 else s

/-! ### UP pallets at the root (R317) -/

def State.modSnap (s : State) (id : Nat) (g : Snap → Snap) : State :=
  { s with ledger.snaps := s.ledger.snaps.map fun x => if x.id = id then g x else x }

/-- A METER_SNAP: the latched value of a record (R331). -/
def State.meterSnapIn (s : State) (identity id latch : Nat) (reg : List Nat) : State :=
  match s.recIndex identity with
  | none => s
  | some i =>
    s.modSnap id fun x =>
      if x.closed then x
      else { x with vals := { index := i, latch := latch, reg := reg, how := if latch = 0 then 0 else 2 } :: x.vals.filter (·.index != i) }

/-- An MP_SNAP (R332). -/
def State.mpSnapIn (s : State) (src : Nat) (e : Bytes) : State :=
  s.modSnap (fld e 4 4) fun x =>
    if x.closed then x else { x with mps := (src, fld e 1 1, e) :: x.mps.filter fun y => !(y.1 = src ∧ y.2.1 = fld e 1 1) }

/-- Is a push Q1 work: issued from bay B0 or B1 (R320)? -/
def State.q1Job (s : State) (id : Nat) : Bool := s.ledger.jobs.any fun j => j.id == id && decide (j.bay ≤ 1)

/-- One entry of an UP pallet; Q1 work is left while it is refused (R321). -/
def State.upEntry (s : State) (src : Nat) (e : Bytes) : State :=
  let regs := (List.range 4).map fun i => fld e (24 + 8 * i) 8
  match fld e 0 1 with
  | 1 => s.reading src (fld e 4 4) (fld e 8 8) (fld e 16 2) regs
  | 2 => s.meterSnapIn (fld e 8 8) (fld e 4 4) (fld e 18 1) regs
  | 3 => s.mpSnapIn src e
  | 4 => if s.shed 1 then s else s.presenceIn src (fld e 1 1) (fld e 2 2) (fld e 4 1) (fld e 5 8)
  | 5 => if s.shed 1 then s else s.keyRequest src (fld e 1 1) (fld e 2 2) (fld e 8 8)
  | 6 => if s.q1Job (fld e 4 4) && s.shed 1 then s else s.jobTarget (fld e 4 4) (fld e 8 8) (fld e 1 1) (fld e 2 2) 0
  | _ => s

/-- The entries of a pallet whose header and tag stand (R312, R313). -/
def palletEntries (kind : Nat) (p : Pallet) : Option (List Bytes) :=
  if p.magic ≠ 0x504C ∨ p.version ≠ 1 ∨ p.kind ≠ kind ∨ !p.tagOk ∨ p.length ≠ 48 + p.body.length ∨ 4096 < p.length then none
  else if kind = 3 then
    if p.body.length = 64 * p.entries then some ((List.range p.entries).map fun i => (p.body.drop (64 * i)).take 64) else none
  else (splitEntries p.entries p.body).filter fun l => l.all fun e => entryKind (fld e 0 1) == kind

/-- Does a destination name this device: its ID, or ROOT_ID after a takeover (R367)? -/
def State.forMe (s : State) (dest : Nat) : Bool :=
  dest == s.kiln.devId || (s.isRoot && s.mortar.takeover && dest == s.key (kMortar 0))

/-- Does a DOWN or ACK pallet come from the root pair (R367)? -/
def State.fromPair (s : State) (src : Nat) : Bool := src == s.key (kMortar 0) || src == s.key (kMortar 1)

/-- PALLET_UP_RECEIVE (R317). -/
def execPalletUpReceive (p : Pallet) (s : State) : Host.Outcome State Fault Refusal :=
  .next (
    if !s.ready 25 ∨ !s.isRoot ∨ !s.forMe p.dest then s
    else match palletEntries 0 p with
    | none => s.pulse 841
    | some es =>
      let x := s.srcSeq p.source
      let waiting := (s.ledger.mirrorWait.map fun (w : MirrorWait) => w.acks.length).sum
      if p.seq ≤ x.base ∨ x.above.contains p.seq then s.sendAck p.source 0 p.seq
      else if s.ledger.mirrorWait.any fun w => w.acks.contains (p.source, p.seq) then s
      else if x.base + 4096 < p.seq ∨ 90 * palletBuffer < 100 * waiting then (s.sendAck p.source 1 p.seq).pulse 842
      else (es.foldl (fun (s : State) e => s.upEntry p.source e) s).mirror [(p.source, p.seq)])

/-! ### The standby (R319) -/

/-- The slot of an interval end in a record's ring, when it lies there (R311). -/
def State.slotOf (s : State) (r : Rec) (end_ : Nat) : Option Nat :=
  let back := (r.lastEnd - end_) / s.interval
  if r.lastEnd = 0 ∨ r.lastEnd < end_ ∨ (r.lastEnd - end_) % s.interval ≠ 0 ∨ 112 ≤ back then none else some (r.slotBack back)

/-- A mirrored edit (R325): the slot takes the new values of the entry, EDITED. -/
def State.mirrorEdit (s : State) (i end_ : Nat) (regs : List Nat) : State :=
  s.modRec_ i fun r =>
    let r := { r with editedAny := true }
    match s.slotOf r end_ with
    | some k => r.setHist k (histEntry (regs.getD 0 0) (regs.getD 1 0) 2)
    | none => r

/-- A mirrored commit-log entry acts on the standby's own records. -/
def State.applyMirror (s : State) (e : Bytes) : State :=
  let i := fld e 8 4
  let vee := fld e 12 1
  let regs := (List.range 4).map fun k => fld e (32 + 8 * k) 8
  let end_ := fld e 16 4
  let type := if fld e 13 1 = 0x80 then 2 else if vee = 2 then 1 else 0
  let ent : LogEnt := { seq := fld e 0 8, index := i, vee := vee, type := type, end_ := end_, identity := fld e 24 8, reg := regs }
  let s := { s with ledger.log := ent :: s.ledger.log, ledger.logSeq := ent.seq + 1 }
  if type = 2 then { s with ledger.recs := Tbl.set {} s.ledger.recs i {} }
  else if type = 1 then s.mirrorEdit i end_ regs
  else if 0x80 ≤ vee then s
  else
    let r := s.record i
    let s := s.modRec_ i fun r => { r with identity := ent.identity, state := if r.state = 0 then 2 else r.state }
    let late := decide (r.lastEnd ≠ 0 ∧ end_ ≤ r.lastEnd)
    let s := if late then s.commitLate i end_ vee regs else s.commitNew i end_ vee regs
    s.modRec_ i fun r =>
      { r with lastVee := vee, lastCommit := s.stampNs, lastEnd := if late then r.lastEnd else end_, reg := if late then r.reg else regs }

/-- A list with one item put in place of that of the same number, or added. -/
def putBy {α : Type} (f : α → Nat) (x : α) (l : List α) : List α := if l.any (fun y => f y == f x) then l.map fun y => if f y = f x then x else y else l ++ [x]

/-- The further content of a MIRROR pallet (R366): the standby holds the records, open snapshots, push jobs, device-table entries and epoch as the root does. -/
def State.mirrorTake (s : State) (m : MirrorData) : State :=
  { s with ledger.recs := m.recs.foldl (fun t x => Tbl.set {} t x.1 x.2) s.ledger.recs,
           ledger.snaps := m.snaps.foldl (fun l x => putBy (·.id) x l) s.ledger.snaps,
           ledger.snapNext := m.snaps.foldl (fun n x => max n (x.id + 1)) s.ledger.snapNext,
           ledger.jobs := m.jobs.foldl (fun l x => putBy (·.id) x l) s.ledger.jobs,
           ledger.jobNext := m.jobs.foldl (fun n x => max n (x.id + 1)) s.ledger.jobNext,
           mortar.table := m.table.foldl (fun t x => Tbl.set none t x.1 (some x.2)) s.mortar.table,
           mortar.epoch := m.epoch.getD s.mortar.epoch }

/-- A commit-log entry of a FENCED_ROOT is processed as a reading of its record's own leaf (R368). -/
def State.healEntry (s : State) (e : Bytes) : State :=
  let id := fld e 24 8
  if 0x80 ≤ fld e 12 1 ∨ fld e 12 1 = 2 then s
  else match s.recIndex id with
  | some i => s.reading (s.record i).leaf (fld e 16 4) id 0 ((List.range 4).map fun k => fld e (32 + 8 * k) 8)
  | none => s

/-- PALLET_MIRROR_RECEIVE (R319): the standby applies the entries and acknowledges; a root takes those of a FENCED_ROOT. -/
def execPalletMirrorReceive (p : MirrorPallet) (s : State) : Host.Outcome State Fault Refusal :=
  .next (
    if !s.ready 25 ∨ !(s.kiln.role = .standbyRoot ∨ s.isRoot) then s
    else match palletEntries 3 p.pallet with
    | none => s.pulse 841
    | some es =>
      if s.isRoot then ((es.foldl (fun (s : State) e => s.healEntry e) s).mirror []).sendAck p.pallet.source 0 p.pallet.seq
      else ((es.foldl (fun (s : State) e => s.applyMirror e) s).mirrorTake p.data).sendAck p.pallet.source 0 p.pallet.seq)

/-! ### The leaf (R316 to R318, R326, R327) -/

/-- LEAF_PALLET_CLOSE (R316): PALLET_MS after the first entry. -/
def execLeafPalletClose (s : State) : Host.Outcome State Fault Refusal :=
  .next (
    if s.ledger.openUp.isEmpty ∨ s.time.mono < s.ledger.openSince + s.key (kLedger 4) * 1000000 then s else s.closeUp)

/-- PALLET_RETRANSMIT (R317): every ACK_TIMEOUT while a pallet is not acknowledged. -/
def execPalletRetransmit (s : State) : Host.Outcome State Fault Refusal :=
  .next (s.resend fun p => decide (p.last + s.key (kLedger 5) * second ≤ s.time.mono))

/-- PALLET_ACK_RECEIVE (R317): a committed pallet is freed; after a RETRY it goes again ACK_TIMEOUT later. -/
def execPalletAckReceive (p : Pallet) (s : State) : Host.Outcome State Fault Refusal :=
  .next (
    if p.dest ≠ s.kiln.devId ∨ (s.kiln.role = .leaf ∧ !s.fromPair p.source) then s
    else match palletEntries 2 p with
    | none => s.pulse 841
    | some es => es.foldl (fun (s : State) e =>
        let seq := fld e 8 8
        if fld e 1 1 = 0 then s.dropSent seq
        else { s with ledger.sent := s.ledger.sent.map fun x => if x.seq = seq then { x with last := s.time.mono } else x }) s)

/-- A local record is freed and its address quarantined (R326, R329). -/
def State.freeMeter (s : State) (identity : Nat) : State :=
  let s := { s with ledger.keys := s.ledger.keys.filter (·.identity != identity) }
  match s.meterAddr identity with
  | some a => s.dropMeter a
  | none => s

/-- A KEY_GRANT: the key of an identity, the leaf's next broadcast key (IDENTITY 0) or the network key (all ones, log 23). -/
def State.grantIn (s : State) (e : Bytes) : State :=
  let id := fld e 8 8
  let key := slice e 16 24
  let ver := fld e 4 4
  if fld e 1 1 ≠ 0 then s.pulse 861
  else if id = 0 then { s with plc.bcastNext := some (key, ver) }
  else if id = bcastAddr then s
  else { s with ledger.keys := { identity := id, key := key, version := ver } :: s.ledger.keys.filter (·.identity != id) }

/-- The staged job of an entry, made when it is not there. -/
def State.stageJob (s : State) (id kind : Nat) : State :=
  if (s.leafJob id).isSome then s else { s with ledger.leafJobs := s.ledger.leafJobs ++ [{ id := id, kind := kind }] }

/-- One entry of a DOWN pallet at a leaf. -/
def State.downEntry (s : State) (e : Bytes) : State :=
  match fld e 0 1 with
  | 0x42 =>
    let x : LeafSnap := { id := fld e 4 4, t := fld e 8 8, late := decide (fld e 8 8 < s.nowNs), at_ := s.time.index }
    if s.ledger.leafSnaps.any (·.id == x.id) then s else { s with ledger.leafSnaps := s.ledger.leafSnaps ++ [x] }
  | 0x43 => s.grantIn e
  | 0x44 =>
    let id := fld e 5 4
    let n := fld e 2 1
    let b := fld e 3 2
    let s := (s.stageJob id (fld e 1 1)).modLeafJob id fun j =>
      { j with total := fld e 9 2, blocks := (List.range n).foldl (fun t i => Tbl.insert t (b + i) (slice e (16 + 64 * i) 64)) j.blocks }
    match s.leafJob id with
    | some j =>
      if j.kind = 2 then s.newKeys j ((List.range n).map fun i => slice e (16 + 64 * i) 64) else s.radioPushCast j b n
    | none => s
  | 0x45 =>
    let id := fld e 4 4
    let t : Target := { identity := fld e 8 8 }
    (s.stageJob id (fld e 1 1)).modLeafJob id fun j =>
      { j with activateAt := fld e 16 8, version := fld e 24 4, active := j.active || fld e 16 8 == 0,
               targets := putBy (·.identity) t j.targets }
  | 0x46 =>
    let id := fld e 8 8
    match fld e 4 4 with
    | 0 => s.cloneLock id
    | 2 => { s with ledger.locked := s.ledger.locked.filter (· != id) }
    | _ => s.freeMeter id
  | _ => s

/-- PALLET_DOWN_RECEIVE. -/
def execPalletDownReceive (p : Pallet) (s : State) : Host.Outcome State Fault Refusal :=
  .next (
    if s.kiln.role ≠ .leaf ∨ !s.ready 25 ∨ (p.dest ≠ s.kiln.devId ∧ p.dest ≠ 1023) ∨ !s.fromPair p.source then s
    else match palletEntries 1 p with
    | none => s.pulse 841
    | some es => es.foldl (fun (s : State) e => s.downEntry e) s)

/-- LEDGER_TASK_BOUNDARY (R168, R321): the queue is measured, a LEAF or RELAY first turning COLD ledger tiles on (R151), and a
conversion that waits takes effect. -/
def execLedgerTaskBoundary (t : Fin 72) (commit : Bool) (queuedUs : Nat) (s : State) : Host.Outcome State Fault Refusal :=
  .next (
    if !commit then { s with ledger.queueUs := queuedUs }
    else
      let need := decide (s.ledgerActive * 1000000 < queuedUs) && (s.kiln.role == .leaf || s.kiln.role == .relay)
      let cold := (s.tilesWhere fun x => x.role == .ledger && x.st == .cold).take (ceilDiv queuedUs 1000000 - s.ledgerActive)
      let s := if need then cold.foldl (fun (s : State) x => s.modTile x fun y => { y with st := .active }) s else s
      ((s.measureQueue queuedUs).convertTile t).tilesSettle)

end Sys2Proof.Machine
end

