-- ==== Sys2Proof/Machine/Storage.lean ====
section
/-! DEFINITION. Security and storage (17): the host identities, MRAM and its scrub, block retirement and read-only partitions, the external
flash, firmware slots, and STORE_STATUS. -/

namespace Sys2Proof.Machine

/-! ### Host identities (R417, R418, R442) -/

/-- May this session provision or remove an identity of a role and bay mask (R417)? -/
def identityRights (c : Ctx) (role mask : Nat) : Bool :=
  (c.bay == 0 && c.role == .legal)
    || (c.bay == 0 && c.role == .utility && decide (role ≤ 3))
    || (c.bay == 1 && c.role == .utility && decide (role ≤ 2) && mask % 2 == 0)

/-- Does a bay mask respect the bays of a role (R391)? -/
def maskOk (role mask : Nat) : Bool :=
  mask != 0 && (match role with | 4 => mask == 1 | 5 => decide (mask ≤ 3) | _ => true)

/-- The bytes of a credential a role uses, of 64 (R418). -/
def credLength (role : Nat) : Nat := if role ≤ 1 then 48 else if role ≤ 3 then 24 else 64

/-- EV0971 follows the fill of the identity store. -/
def State.identityLevel (s : State) : State := s.level 971 (decide (256 ≤ s.host.ident.length))

/-- IDENTITY_PROVISION (R418). -/
def identityProvisionBody : Body := fixedBody 80 [(10, 6)] fun c p s =>
  let b := p.params
  let id := fld b 0 8
  let code := fld b 8 1
  let mask := fld b 9 1
  match SessRole.ofCode code with
  | none => (s, .reply (Res.field 40))
  | some role =>
    if !maskOk code mask then (s, .reply (Res.field 41))
    else
      let n := credLength code
      let raw := slice b 16 n
      let cred := if code = 2 ∨ code = 3 then (Config.keyUnwrap c.key raw).map (fitBytes 16) else some raw
      if !allZero b (16 + n) (64 - n) then (s, .reply (Res.reserved (48 + n)))
      else if !identityRights c code mask then (s, .reply (Res.err stDenied subRole))
      else if (s.findIdent id).isSome then (s, .reply (Res.err stBusy 0))
      else if 256 ≤ s.host.ident.length then (s, .reply (Res.err stCapacity 0))
      else if s.store.ro.contains 2 then (s, .reply (Res.err stFault 0))
      else match cred with
      | none => (s, .reply (Res.field 48))
      | some k =>
        let x : Ident := { id := id, role := role, bayMask := BitVec.ofNat 8 mask, cred := k, fails := 0, locks := 0, lockEnd := none,
                           clone := false }
        (({ s with host.ident := s.host.ident ++ [x] }).identityLevel, .reply Res.ok)

def execIdentityProvision (p : Packet) (s : State) : Host.Outcome State Fault Refusal :=
  .next (command 0x0D01 identityProvisionBody p s)

/-- IDENTITY_REMOVE (R417): the identity's sessions end. -/
def identityRemoveBody : Body := fixedBody 8 [] fun c p s =>
  match s.findIdent (fld p.params 0 8) with
  | none => (s, .reply (Res.field 32))
  | some i =>
    if !identityRights c i.role.code i.bayMask.toNat then (s, .reply (Res.err stDenied subRole))
    else if s.store.ro.contains 2 then (s, .reply (Res.err stFault 0))
    else
      let s := (s.host.sess.filter (·.identity == i.id)).foldl (fun (s : State) x => s.endSess x.handle) s
      (({ s with host.ident := s.host.ident.filter (·.id != i.id) }).identityLevel, .reply Res.ok)

def execIdentityRemove (p : Packet) (s : State) : Host.Outcome State Fault Refusal :=
  .next (command 0x0D02 identityRemoveBody p s)

/-- IDENTITY_UNLOCK (R417): the counts of R396 are reset and a lock of R397 is released. -/
def identityUnlockBody : Body := fixedBody 8 [] fun c p s =>
  match s.findIdent (fld p.params 0 8) with
  | none => (s, .reply (Res.field 32))
  | some i =>
    if !identityRights c i.role.code i.bayMask.toNat then (s, .reply (Res.err stDenied subRole))
    else if !i.lockedAt s.time.mono then (s, .reply (Res.err stDenied subNotLocked))
    else (s.modIdent i.id fun i => { i with fails := 0, locks := 0, lockEnd := none, clone := false }, .reply Res.ok)

def execIdentityUnlock (p : Packet) (s : State) : Host.Outcome State Fault Refusal :=
  .next (command 0x0D03 identityUnlockBody p s)

/-! ### Flash (R447 to R453) -/

/-- A flash that answered and is large enough. -/
def State.flashUsable (s : State) : Bool := s.store.flashPresent

def sectorSize : Nat := 0x10000

/-- The 64 KiB sectors of a firmware slot and of a meter image slot (R448). -/
def fwSectors (slot : Nat) : List Nat := (List.range 128).map (· + (if slot = 0 then 1 else 129))
def imageSectors (n : Nat) : List Nat := (List.range 32).map (· + (257 + 32 * n))

/-- The dump partition (R448). -/
def dumpSectors : List Nat := (List.range 1024).map (· + 1024)

/-- A journaled erase of one sector (R450, R452): ERASE_START, then ERASE_DONE; an indeterminate mark ends. -/
def State.eraseSector (s : State) (x : Nat) : State :=
  let n := s.store.journalSeq
  let s := (s.journalAdd 0x01 1 (sectorSize * x) sectorSize []).journalAdd 0x02 1 (sectorSize * x) sectorSize [n]
  { s with store.indeterminate := s.store.indeterminate.filter (· != x), store.eraseOpen := s.store.eraseOpen.filter (· != x) }

/-- A journaled program. -/
def State.programFlash (s : State) (addr len : Nat) : State :=
  let n := s.store.journalSeq
  (s.journalAdd 0x03 1 addr len []).journalAdd 0x04 1 addr len [n]

/-- A meter image enters its slot (R342, R448). -/
def State.writeImage (s : State) (n : Nat) (data : Bytes) : State :=
  let s := (imageSectors n).foldl (fun (s : State) x => s.eraseSector x) s
  let s := s.programFlash (0x01010000 + n * 0x00200000) data.length
  { s with store.slot := Tbl.insert s.store.slot n data }

/-- A write to sectors of which one is retired ends with FAULT (R453). -/
def State.sectorsBad (s : State) (l : List Nat) : Bool := l.any fun x => s.store.flashRetired.contains x

/-- FLASH_ERASE_RESUME (R451). -/
def execFlashEraseResume (s : State) : Host.Outcome State Fault Refusal :=
  .next { s with store.eraseSuspended := none }

/-- INDETERMINATE_REERASE (R452): after K6 an indeterminate sector is erased again under new journal records. -/
def execIndeterminateReerase (sector : Nat) (s : State) : Host.Outcome State Fault Refusal :=
  .next (if s.kiln.ph.k6 ∧ s.store.indeterminate.contains sector then s.eraseSector sector else s)

/-- FLASH_OP_FAIL (R453): the sector is retired; the dump partition skips it, a staged image in it no longer stands. -/
def execFlashOpFail (sector : Nat) (s : State) : Host.Outcome State Fault Refusal :=
  .next (
    if s.store.flashRetired.contains sector ∨ !s.flashUsable then s
    else
      let s := (s.journalAdd 0x0A 1 (sectorSize * sector) sectorSize []).pulse 980
      let staged := s.store.fwStaged && (fwSectors (1 - s.store.fwActive)).contains sector
      { s with store.flashRetired := sector :: s.store.flashRetired, store.eraseOpen := s.store.eraseOpen.filter (· != sector),
               store.indeterminate := s.store.indeterminate.filter (· != sector), fault.flashDirty := s.fault.flashDirty.filter (· != sector),
               store.eraseSuspended := s.store.eraseSuspended.filter (· != sector), store.fwStaged := s.store.fwStaged && !staged })

/-! ### Firmware (R449) -/

def setSlot (slot v : Nat) (x : Nat × Nat) : Nat × Nat := if slot = 0 then (v, x.2) else (x.1, v)

/-- FW_STAGE (R449): the image goes into the slot that is not active; its signature and version are checked. -/
def fwStageData (data : Bytes) : Body := fun _ p s =>
  let v := fld p.params 0 4
  let slot := 1 - s.store.fwActive
  if 0x800000 < data.length then (s, .reply (Res.field 44))
  else if !s.store.eraseOpen.all fun x => !(fwSectors slot).contains x then (s, .reply (Res.err stBusy 0))
  else if s.sectorsBad (fwSectors slot) then ({ s with store.fwStaged := false }.pulse 982, .reply (Res.err stFault 0))
  else
    let s := (fwSectors slot).foldl (fun (s : State) x => s.eraseSector x) s
    let s := s.programFlash (if slot = 0 then 0x10000 else 0x810000) data.length
    let s := { s with store.fwVersion := setSlot slot v s.store.fwVersion, store.stagedImage := data }
    if Config.imageSigned v data ∧ s.store.minVersion ≤ v then
      (({ s with store.fwStaged := true }).pulse 981, .reply (Res.ok (leBytes 1 slot ++ zeros 7)))
    else (({ s with store.fwStaged := false }).pulse 982, .reply (Res.err stFault 0))

def fwStageBody : Body := bulkInBody 8 [(4, 4)] fwStageData

def execFwStage (p : Packet) (s : State) : Host.Outcome State Fault Refusal := .next (command 0x0D20 fwStageBody p s)

/-- A boot header is written to the copy that is not in force (R448). -/
def State.writeHeader (s : State) (active : Nat) (trial : Bool) : State :=
  let n := s.store.headerSeq + 1
  ({ s with store.headerSeq := n, store.fwActive := active, store.fwTrial := trial }).journalAdd 0x09 1 (if n % 2 = 0 then 0 else 0x1000) 4096 []

/-- FW_ACTIVATE (R449, R456): the staged slot runs in trial from the next start. -/
def fwActivateBody : Body := fixedBody 0 [] fun _ _ s =>
  let slot := 1 - s.store.fwActive
  if !s.store.fwStaged ∨ s.store.indeterminate.any fun x => (fwSectors slot).contains x then (s, .reply (Res.err stNotReady 0))
  else (({ s with store.fwStaged := false, store.trialFails := 0 }).writeHeader slot true, .reply (Res.ok (leBytes 1 slot ++ zeros 7)))

def execFwActivate (p : Packet) (s : State) : Host.Outcome State Fault Refusal := .next (command 0x0D21 fwActivateBody p s)

/-! ### MRAM (R444 to R446) -/

/-- The partition of a word: 0 profiles, 1 configuration, 2 keys and seal state, 3 journal and logs. -/
def partitionOf : MramUse → Option Nat
  | .profile _ _ => some 0
  | .config => some 1
  | .sealed _ _ _ => some 2
  | .log _ _ => some 3
  | .spare => none

/-- A partition needs a spare block and none remains (R446). -/
def State.partitionReadOnly (s : State) (part : Nat) : State :=
  if s.store.ro.contains part then s
  else if part = 1 ∧ s.cfg.pend.isSome then { s with store.roDue := true }
  else
    let s := ({ s with store.ro := part :: s.store.ro }).level 976 true
    if !s.flashUsable then (s.level 979 true).f2 0
    else match part with
    | 0 => ({ s with store.profileOverflow := true }).f1 0
    | 2 => ({ s with store.sealOverflow := true }).f2 0
    | 3 => (s.level 977 true).f1 0
    | _ => s.f2 0

/-- The configuration partition turns read-only after the completion record of a swap that was pending (R456). -/
def State.roFollow (s : State) : State := if s.store.roDue then { s with store.roDue := false }.partitionReadOnly 1 else s

/-- A block is retired to the lowest free spare (R445). -/
def State.retireBlock (s : State) (addr : Nat) (part : Option Nat) : State :=
  if s.store.spare = 0 then match part with | some k => s.partitionReadOnly k | none => s
  else
    let s := s.journalAdd 0x05 0 (addr / 4096 * 4096) 4096 []
    let s := { s with store.spare := s.store.spare - 1, store.retired := s.store.retired + 1 }
    (s.pulse 974).level 975 (decide (s.store.spare < 64))

/-- An uncorrectable word takes its content (R443, R445). -/
def State.losesWord (s : State) : MramUse → State
  | .profile m seq => (s.modBmp m fun b => { b with ring := b.ring.filter (·.seq != seq) }).pulse 973
  | .config => s.pulse 973
  | .log 0 seq => ({ s with store.journal := s.store.journal.filter (·.seq != seq) }).pulse 973
  | .log 1 seq => ({ s with pq.log := s.pq.log.filter (·.seq != seq) }).pulse 973
  | .log _ seq => ({ s with time.log := s.time.log.filter (·.seq != seq) }).pulse 973
  | .sealed n kind both =>
    if !both then s.pulse 973
    else
      let s := s.pulse 973 n
      match kind with
      | .palletKey => { s with mortar.palletKeyOk := false }
      | .tableKey d => { s with mortar.table := Tbl.upd none s.mortar.table d fun e => e.map fun e => { e with key := [] } }
      | .identity id => s.modIdent id fun i => { i with cred := [] }
      | .checkpoint =>
        let o := s.bill.older
        { s with acc.kept := o.1, bill.kept := o.2.1, tiles.avKept := o.2.2.1, bill.credits := o.2.2.2 ++ s.bill.credits, acc.keptBySave := false }
      | .other => s
      | k => { s with store.lostKeys := k :: s.store.lostKeys }
  | .spare => s.pulse 973

/-- One error of the scrub. -/
def State.mramHit (s : State) (last : List Nat) (e : EccHit) : State :=
  if e.uncorrectable then
    let s := { s with store.eccUncorrected := bumpAll (2 ^ 32) 1 s.store.eccUncorrected }
    ((s.losesWord e.what).f1 0).retireBlock e.addr (partitionOf e.what)
  else
    let s := ({ s with store.eccCorrected := bumpAll (2 ^ 32) 1 s.store.eccCorrected,
                       store.lastCorrected := e.addr :: s.store.lastCorrected }).f0.pulse 972
    if last.contains e.addr then s.retireBlock e.addr (partitionOf e.what) else s

/-- MRAM_SCRUB (R444): a pass over the whole array. -/
def execMramScrub (errs : List EccHit) (s : State) : Host.Outcome State Fault Refusal :=
  .next (
    if !s.ready 6 then s
    else
      let last := s.store.lastCorrected
      errs.foldl (fun (s : State) e => s.mramHit last e) { s with store.lastCorrected := [] })

/-! ### STORE_STATUS (R454) -/

/-- Journal records not freed: a START or SWAP_INTENT whose DONE has not been written (R450). -/
def State.journalLive (s : State) : Nat :=
  (s.store.journal.filter (JRec.live s.store.journal)).length

/-- The result of STORE_STATUS for a bay (R454). -/
def State.storeRecord (s : State) (bay : Nat) : Bytes :=
  let x := s.store
  let ro := bitsNat [x.ro.contains 0, x.ro.contains 1, x.ro.contains 2, x.ro.contains 3]
  let flags := bitsNat [x.ro.contains 3 && x.flashPresent, x.flashPresent, x.flashOctal, x.trialRun, x.fwStaged, x.sealOverflow,
                        x.profileOverflow]
  leBytes 2 x.spare ++ leBytes 2 x.retired ++ leBytes 1 ro ++ leBytes 1 flags ++ leBytes 1 x.fwActive
    ++ leBytes 1 (satU 8 x.indeterminate.length) ++ leBytes 4 (Tbl.get 0 x.eccCorrected bay) ++ leBytes 4 (Tbl.get 0 x.eccUncorrected bay)
    ++ leBytes 4 x.fwVersion.1 ++ leBytes 4 x.fwVersion.2 ++ leBytes 4 x.flashMib ++ leBytes 2 x.flashRetired.length
    ++ leBytes 2 s.host.ident.length ++ leBytes 2 (10000 * s.journalLive / 32768) ++ zeros 2 ++ leBytes 4 x.minVersion ++ zeros 8

/-- STORE_STATUS: its two ECC counts are read and cleared for the reading bay. -/
def storeStatusBody : Body := fixedBody 0 [] fun c _ s =>
  let x := s.store
  ({ s with store.eccCorrected := Tbl.set 0 x.eccCorrected c.bay 0, store.eccUncorrected := Tbl.set 0 x.eccUncorrected c.bay 0 },
   .reply (Res.ok (s.storeRecord c.bay)))

def execStoreStatus (p : Packet) (s : State) : Host.Outcome State Fault Refusal := .next (command 0x0D10 storeStatusBody p s)

end Sys2Proof.Machine
end

