-- ==== Sys2Proof/Machine/HeadEnd.lean ====
section
/-! DEFINITION. The head end (12): records read, edited and moved by command, cycle-stamped snapshots, feeder balances, anomaly scores
and pushes. -/

namespace Sys2Proof.Machine

/-- The records a descriptor of DIR 1 takes: whole items within LENGTH (R377). -/
def bulkRoom (p : Packet) (size : Nat) : Nat := (p.desc.elim 0 (·.length)) / size

/-! ### LEDGER_READ (R347) -/

/-- The record a leaf shows for a local address (R308): identity, key, state, latest reading; no HIST. -/
def State.leafRecord (s : State) (a : Nat) : Rec :=
  match s.meter a with
  | none => {}
  | some m =>
    let k := s.heldKey m.identity
    { identity := m.identity, state := if s.isLocked m.identity then 5 else if m.present then 2 else 3, channel := chanOf a,
      leaf := s.kiln.devId, addr := a, key := (k.map (·.key)).getD [], keyVersion := (k.map (·.version)).getD 0,
      keyPending := k.elim false fun x => x.new.isSome, lastEnd := m.lastEnd, lastStatus := m.lastStatus, reg := m.reg }

/-- Records of the running role: their number and the one at an index. -/
def State.recordCap (s : State) : Nat := match s.kiln.role with | .leaf => 2049 | _ => recordCount
def State.recordAt (s : State) (i : Nat) : Rec := match s.kiln.role with | .leaf => s.leafRecord i | _ => s.record i

/-- The index of an identity in the running role. -/
def State.anyIndex (s : State) (identity : Nat) : Option Nat :=
  match s.kiln.role with | .leaf => s.meterAddr identity | _ => s.recIndex identity

def readResult (next n : Nat) : Bytes := leBytes 8 next ++ leBytes 4 n

/-- LEDGER_READ: records by index, one by identity, or the commit log. -/
def ledgerReadBody : Body := bulkOutBody 24 [(1, 7), (20, 4)] fun c p s =>
  let b := p.params
  let from_ := fld b 8 8
  let count := fld b 16 4
  let show_ (r : Rec) := s.recordBytes r (c.bay == 0)
  if count = 0 ∨ 65536 < count then (s, .reply (Res.field 48))
  else match fld b 0 1 with
  | 0 =>
    let n := min (min count (bulkRoom p 1024)) (s.recordCap - from_)
    (s, .reply { Res.ok (readResult (from_ + n) n) with bulk := (List.range n).flatMap fun i => show_ (s.recordAt (from_ + i)) })
  | 1 =>
    match s.anyIndex from_ with
    | none => (s, .reply (Res.field 40))
    | some i =>
      -- NEXT of one record by identity: a free value (log 3)
      let d := s.draw
      let n := min 1 (bulkRoom p 1024)
      (d.2, .reply { Res.ok (readResult d.1 n) with bulk := if n = 1 then show_ (s.recordAt i) else [] })
  | 2 =>
    let l := ((s.ledger.log.filter fun e => decide (from_ ≤ e.seq)).reverse).take (min count (bulkRoom p 64))
    let next := (l.getLast?).elim from_ fun e => e.seq + 1
    ({ s with ledger.hostRead := max s.ledger.hostRead next },
     .reply { Res.ok (readResult next l.length) with bulk := l.flatMap LogEnt.bytes })
  | _ => (s, .reply (Res.field 32))

def execLedgerRead (p : Packet) (s : State) : Host.Outcome State Fault Refusal :=
  .next (command 0x0A01 (shedBody false ledgerReadBody) p s)

/-! ### Records by command (R325, R326, R328, R329, R335) -/

/-- LEDGER_EDIT (R325): the slot takes EDITED, the log the new and the old value (log 43). -/
def ledgerEditBody : Body := fixedBody 24 [(16, 8)] fun _ p s =>
  let b := p.params
  let i := fld b 0 4
  let e := fld b 4 4
  let r := s.record i
  if r.state = 0 then (s, .reply (Res.field 32))
  else match s.slotOf r e with
  | none => (s, .reply (Res.field 36))
  | some k =>
    let old := r.histAt k
    let new := histEntry (fld b 8 4) (fld b 12 4) 2
    let s := s.modRec_ i fun r => { r.setHist k new with editedAny := true }
    ((s.logAdd i 2 1 e r.identity [histImp new, histExp new, histImp old, histExp old]).mirror [], .reply Res.ok)

def execLedgerEdit (p : Packet) (s : State) : Host.Outcome State Fault Refusal :=
  .next (command 0x0A02 (shedBody false ledgerEditBody) p s)

/-- LEDGER_UNLOCK (R328): a LOCKED record becomes ABSENT at LEAF. -/
def ledgerUnlockBody : Body := fixedBody 16 [(10, 6)] fun _ p s =>
  let id := fld p.params 0 8
  let leaf := fld p.params 8 2
  match s.recIndex id with
  | none => (s, .reply (Res.field 32))
  | some i =>
    if (s.record i).state ≠ 5 then (s, .reply (Res.err stDenied subNotLocked))
    else
      let s := s.modRec_ i fun r => { r with state := 3, leaf := leaf, clone := false, confirmed := none, foreign := none }
      (s.sendDown leaf (lockEntry 2 id), .reply Res.ok)

def execLedgerUnlock (p : Packet) (s : State) : Host.Outcome State Fault Refusal :=
  .next (command 0x0A03 (shedBody false ledgerUnlockBody) p s)

/-- LEDGER_PROVISION (R326). -/
def ledgerProvisionBody : Body := fixedBody 40 [(38, 2)] fun c p s =>
  let b := p.params
  let id := fld b 0 8
  let i := lowestFree s.ledger.recs 0
  if (s.recIndex id).isSome then (s, .reply (Res.err stBusy 0))
  else if 15 < fld b 36 1 ∧ fld b 36 1 ≠ 0xFF then (s, .reply (Res.field 68))
  else if 1 < fld b 37 1 then (s, .reply (Res.reserved 69))
  else if recordCount ≤ i then (s.level 847 true, .reply (Res.err stCapacity 0))
  else if s.store.lostKeys.contains .recordKey then (s, .reply (Res.err stFault 0))
  else match Config.keyUnwrap c.key (slice b 8 24) with
  | none => (s, .reply (Res.field 40))
  | some k =>
    (s.modRec_ i fun _ =>
      { identity := id, state := 1, key := fitBytes 16 k, keyVersion := fld b 32 4, feeder := fld b 36 1,
        generation := fld b 37 1 == 1 }, .reply (Res.ok (leBytes 4 i ++ zeros 4)))

def execLedgerProvision (p : Packet) (s : State) : Host.Outcome State Fault Refusal :=
  .next (command 0x0A04 (shedBody false ledgerProvisionBody) p s)

/-- LEDGER_ASSIGN (R335). -/
def ledgerAssignBody : Body := fixedBody 16 [(10, 6)] fun _ p s =>
  let b := p.params
  if 15 < fld b 8 1 ∧ fld b 8 1 ≠ 0xFF then (s, .reply (Res.field 40))
  else if 1 < fld b 9 1 then (s, .reply (Res.reserved 41))
  else match s.recIndex (fld b 0 8) with
  | none => (s, .reply (Res.field 32))
  | some i => (s.modRec_ i fun r => { r with feeder := fld b 8 1, generation := fld b 9 1 == 1 }, .reply Res.ok)

def execLedgerAssign (p : Packet) (s : State) : Host.Outcome State Fault Refusal :=
  .next (command 0x0A05 (shedBody false ledgerAssignBody) p s)

/-- LEDGER_DEPROVISION (R329), in its order. -/
def ledgerDeprovisionBody : Body := fixedBody 16 [(8, 8)] fun _ p s =>
  let id := fld p.params 0 8
  match s.recIndex id with
  | none => (s, .reply (Res.field 32))
  | some i =>
    let r := s.record i
    let s := if r.leaf = 0xFFFF then s else s.sendDown r.leaf (lockEntry 3 id)
    let s := s.ledger.jobs.foldl (fun (s : State) j => s.jobTarget j.id id 7 0 0) s
    let s := (s.logAdd i 0 2 0 id r.reg).mirror []
    ((s.modRec_ i fun _ => {}).level 847 false, .reply Res.ok)

def execLedgerDeprovision (p : Packet) (s : State) : Host.Outcome State Fault Refusal :=
  .next (command 0x0A07 (shedBody false ledgerDeprovisionBody) p s)

/-- LEDGER_STATUS (R414). -/
def ledgerStatusBody : Body := fixedBody 0 [] (readBody fun _ _ s =>
  let recs : List Rec := match s.kiln.role with
    | .leaf => s.ledger.meter.map fun x => s.leafRecord x.1
    | _ => s.ledger.recs.map (·.2)
  let count (k : Nat) : Nat := (recs.filter fun r => r.state == k).length
  let cap := match s.kiln.role with | .leaf => 2048 | _ => recordCount
  let held := (recs.filter fun r => r.state != 0).length
  Res.ok (leBytes 4 (cap - held) ++ ((List.range 5).flatMap fun k => leBytes 4 (count (k + 1))) ++ leBytes 4 (satU 32 s.ledger.queueUs)
    ++ leBytes 1 s.ledger.refused.toNat ++ leBytes 1 s.ledgerActive ++ zeros 2 ++ leBytes 8 (s.ledger.logSeq - 1)))

def execLedgerStatus (p : Packet) (s : State) : Host.Outcome State Fault Refusal :=
  .next (command 0x0A06 (shedBody false ledgerStatusBody) p s)

/-! ### Snapshots (R330 to R334) -/

def State.snap (s : State) (id : Nat) : Option Snap := s.ledger.snaps.find? (·.id == id)

/-- A pending automatic balance names the previous automatic snapshot. -/
def State.snapNamed (s : State) (id : Nat) : Bool :=
  s.ledger.lastAuto == some id && s.ledger.snaps.any fun x => x.auto && !x.closed

/-- The snapshots with room for one more (R334): a seventh replaces the oldest closed one that no pending balance names. -/
def State.snapRoom (s : State) : Option (List Snap) :=
  if s.ledger.snaps.length < 6 then some s.ledger.snaps
  else match s.ledger.snaps.find? fun x => x.closed && !s.snapNamed x.id with
  | some x => some (s.ledger.snaps.filter (·.id != x.id))
  | none => none

/-- SNAPSHOT_AT (R330, step 1 of R331). -/
def snapshotAtBody : Body := fixedBody 16 [(11, 5)] fun _ p s =>
  let b := p.params
  let t := fld b 0 8
  let dev := fld b 8 2
  if !s.time.valid then (s, .reply (Res.err stNotReady 0))
  else if t < s.nowNs + s.key (kLedger 7) * 1000000 ∨ s.nowNs + 86400 * second < t then (s, .reply (Res.field 32))
  else if 1023 < dev then (s, .reply (Res.field 40))
  else if 1 < fld b 10 1 then (s, .reply (Res.field 42))
  else if 6 ≤ (s.ledger.snaps.filter fun x => !x.closed).length then (s, .reply (Res.err stCapacity 0))
  else match s.snapRoom with
  | none => (s, .reply (Res.err stCapacity 0))
  | some l =>
    let id := s.ledger.snapNext
    let x : Snap := { id := id, t := t, device := dev, auto := fld b 10 1 == 1 }
    let s := { s with ledger.snaps := l ++ [x], ledger.snapNext := (id + 1) % 2 ^ 32 }
    ((s.sendDown dev (snapCmdEntry id t)).pulse 854, .reply (Res.accepted (leBytes 4 id ++ zeros 4)))

def execSnapshotAt (p : Packet) (s : State) : Host.Outcome State Fault Refusal :=
  .next (command 0x0A10 (shedBody false snapshotAtBody) p s)

/-- Does a boundary latch a stored snapshot (R331 step 3): positive-going, at or after T, after a late reception? -/
def LeafSnap.takes (x : LeafSnap) (b : Bnd) : Bool := b.rising && decide (x.t ≤ b.ns) && (!x.late || decide (x.at_ < b.index))

/-- MP_SNAP of a metering point at a boundary (R332); INVALID is that of the block P_TOT comes from. -/
def State.mpSnapBytes (s : State) (x : LeafSnap) (m : Nat) (b : Bnd) : Bytes :=
  let blk := s.mpBlockOf m
  let a := s.mpAcc m
  let foot := s.ledger.footSince.contains m || s.mpFooting m
  leBytes 1 3 ++ leBytes 1 m
    ++ leBytes 2 (bitsNat [foot, b.synth, x.step, s.time.holdover, x.late, (BitVec.ofNat 8 (fld blk 16 1)).getLsbD 0])
    ++ leBytes 4 x.id ++ leBytes 8 b.index ++ leBytes 8 (if s.time.valid then b.ns else 0) ++ slice blk 112 8
    ++ leBytes 8 (a.regOf 0).int ++ leBytes 8 (a.regOf 1).int ++ leBytes 1 (a.regOf 0).wrap ++ leBytes 1 (a.regOf 1).wrap
    ++ zeros 2 ++ leBytes 4 s.kiln.startCount

def State.modLeafSnap (s : State) (id : Nat) (g : LeafSnap → LeafSnap) : State :=
  { s with ledger.leafSnaps := s.ledger.leafSnaps.map fun x => if x.id = id then g x else x }

/-- The leaf latches a metering point whose last boundary takes the snapshot. -/
def State.latchMp (s : State) (x : LeafSnap) (m : Nat) : State :=
  match (s.vs (mpVset s.cfg.active m)).last with
  | some b =>
    if mpEnabled s.cfg.active m ∧ !x.latched.contains m ∧ x.takes b then
      let s := s.appendUp (s.mpSnapBytes x m b)
      let s := { s with ledger.footSince := without m s.ledger.footSince }
      s.modLeafSnap x.id fun x => { x with latched := m :: x.latched }
    else s
  | none => s

/-- The leaf starts the latch of its power-line meters at the boundary of PLC.ZC_VSET's reference, and reports its radio meters. -/
def State.latchMeters (s : State) (x : LeafSnap) : State :=
  match (s.vs s.plcVset).last with
  | some b =>
    if !x.plcDone ∧ x.takes b then
      let s := (s.modLeafSnap x.id fun x => { x with plcDone := true }).latchAt x.id b
      (s.metersOn 1).foldl (fun (s : State) y => s.meterSnap y.1 y.2.identity x.id 3 []) s
    else s
  | none => s

/-- SNAPSHOT_LATCH (R331 steps 3 to 5). -/
def execSnapshotLatch (id : Nat) (m : Fin 16) (s : State) : Host.Outcome State Fault Refusal :=
  .next (
    if s.kiln.role ≠ .leaf ∨ !s.ready 25 then s
    else match s.ledger.leafSnaps.find? (·.id == id) with
    | some x => (s.latchMp x m).latchMeters x
    | none => s)

/-- The records a snapshot addresses: ACTIVE or ABSENT at its leaf, or at every leaf. -/
def State.snapRecords (s : State) (x : Snap) : List (Nat × Rec) :=
  s.ledger.recs.filter fun r =>
    (r.2.state == 2 || r.2.state == 3) && (x.device == 1023 || r.2.leaf == x.device)

/-- SNAPSHOT_TIMEOUT (R331 step 6). -/
def execSnapshotTimeout (id : Nat) (s : State) : Host.Outcome State Fault Refusal :=
  .next (
    match s.snap id with
    | some x =>
      if x.closed ∨ x.timedOut ∨ s.nowNs < x.t + s.key (kLedger 8) * second then s
      else
        let miss := (s.snapRecords x).filter fun r => r.2.channel == 0 && !x.vals.any fun v => v.index == r.1
        s.modSnap id fun x =>
          { x with timedOut := true, vals := miss.map (fun r => { index := r.1, latch := 1, reg := [], how := 2 }) ++ x.vals }
    | none => s)

/-- UTC of the boundary at which a record's leaf latched: its own metering point's, else any of the leaf's, else T. -/
def State.snapUtc (s : State) (x : Snap) (r : Rec) : Nat :=
  let of_ (sel : Nat × Nat × Bytes → Bool) := (x.mps.find? fun e => e.1 == r.leaf && fld e.2.2 16 8 != 0 && sel e).map fun e => fld e.2.2 16 8
  s.utcOf (((of_ fun e => e.2.1 == r.feeder).orElse fun _ => of_ fun _ => true).getD x.t)

/-- A value from interval readings (R333): registers rounded toward zero, and the interpolation term in mWh. -/
def State.interpolate (s : State) (x : Snap) (r : Rec) : Option (List Nat × Nat) :=
  let u := s.snapUtc x r
  let minNs := 60 * second
  let a := s.intervalAt (u / minNs)
  let whole := s.interval * minNs
  let f := u - a * minNs
  match s.readingAt r.identity a, s.readingAt r.identity (a + s.interval) with
  | some ra, some rb =>
    let at_ (k : Nat) : Nat := ra.reg.getD k 0 + (rb.reg.getD k 0 - ra.reg.getD k 0) * f / whole
    let da : Int := ((rb.reg.getD 0 0 : Int) - rb.reg.getD 1 0) - ((ra.reg.getD 0 0 : Int) - ra.reg.getD 1 0)
    some ((List.range 4).map at_, (roundDiv (max f (whole - f) * da.natAbs : Nat) whole).toNat)
  | _, _ => none

/-! ### Feeder balances (R335 to R340) -/

/-- The balance table of 16,384 entries; BALANCE_DEFINE sets one. -/
def balanceDefineBody : Body := fixedBody 40 [(6, 2)] fun _ p s =>
  let b := p.params
  let i := fld b 0 2
  if 16383 < i then (s, .reply (Res.field 32))
  else if 1022 < fld b 2 2 then (s, .reply (Res.field 34))
  else if 15 < fld b 4 1 then (s, .reply (Res.field 36))
  else if fld b 5 1 = 0 ∨ 16 < fld b 5 1 then (s, .reply (Res.field 37))
  else
    let f : Feeder := { leaf := fld b 2 2, mp := fld b 4 1, alarmRuns := fld b 5 1, epsF := fld b 8 4, epsM := fld b 12 4, pFix := fld b 16 4,
                        lossAtRef := fld b 20 4, pRef := fld b 24 4, lossU := fld b 28 4, alarmFrac := fld b 32 4, alarmMin := fld b 36 4 }
    ({ s with ledger.feeders := Tbl.set none s.ledger.feeders i (some f) }, .reply Res.ok)

def execBalanceDefine (p : Packet) (s : State) : Host.Outcome State Fault Refusal :=
  .next (command 0x0A12 (shedBody false balanceDefineBody) p s)

/-- The energy A_IMP − A_EXP of registers. -/
def netOf (reg : List Nat) : Int := (reg.getD 0 0 : Int) - reg.getD 1 0

/-- A meter's value at a snapshot as a balance takes it: net energy, interpolation term, interpolated. -/
def State.balanceValue (s : State) (x : Snap) (i : Nat) (r : Rec) : Option (Int × Nat × Bool) :=
  match x.vals.find? (·.index == i) with
  | some v =>
    if v.how = 0 then some (netOf v.reg, 0, false)
    else if v.how = 1 then some (netOf v.reg, v.term, true)
    else if r.channel = 0 then (s.interpolate x r).map fun y => (netOf y.1, y.2, true) else none
  | none => none

end Sys2Proof.Machine

namespace Sys2Proof

open Machine

/-- The sum of A_IMP − A_EXP over the committed HIST slots in mWh, and their number (R338). -/
def Rec.histNet (r : Rec) : Int × Nat :=
  r.hist.foldl (fun a h => if histHeld h.2 then (a.1 + (histImp h.2 : Int) - 10 * histExp h.2, a.2 + 1) else a) (0, 0)

end Sys2Proof

namespace Sys2Proof.Machine

/-- What a meter gives to a balance: ΔE, its U_interp and U_miss terms, interpolated, missed. -/
structure MeterBal where
  de : Int
  interp : Nat := 0
  miss : Nat := 0
  isInterp : Bool := false
  isMissed : Bool := false
  deriving DecidableEq, Repr

/-- A meter of a feeder over a span of `dt` ns (R337, R338). -/
def State.meterBalance (s : State) (x1 x2 : Snap) (dt : Nat) (i : Nat) (r : Rec) : MeterBal :=
  match s.balanceValue x1 i r, s.balanceValue x2 i r with
  | some a, some b => { de := b.1 - a.1, interp := a.2.1 + b.2.1, isInterp := a.2.2 || b.2.2 }
  | _, _ =>
    let h := r.histNet
    if h.2 = 0 then { de := 0, miss := (roundDiv (s.key (kLedger 2) * dt * 10 : Nat) (36 * second)).toNat, isMissed := true }
    else
      let e := roundDiv (h.1 * dt) (h.2 * s.interval * 60 * second)
      { de := e, miss := e.natAbs, isMissed := true }

/-- The increment of one register of two MP_SNAP entries, wraps included. -/
def wrapDelta (e1 e2 : Bytes) (reg wrap : Nat) : Nat :=
  let v (e : Bytes) : Nat := fld e reg 8 + 2 ^ 64 * fld e wrap 1
  (v e2 + 2 ^ 72 - v e1) % 2 ^ 72

/-- An MP_SNAP of a snapshot, or free bytes where it has none (log 3). -/
def State.mpSnapOf (s : State) (x : Snap) (f : Feeder) : Bytes × State :=
  match x.mps.find? fun e => e.1 == f.leaf && e.2.1 == f.mp with
  | some e => (e.2.2, s)
  | none => s.drawBytes 56

/-- E_TL of R336 in mWh over `dt` ns; with Δt or P_REF 0 the spec states no value (log 3). -/
def State.technicalLoss (s : State) (f : Feeder) (ef : Int) (dt : Int) : Int × State :=
  if dt = 0 ∨ f.pRef = 0 then s.drawInt 64
  else
    let num : Int := f.pFix * dt * 10 * (dt * f.pRef) + f.lossAtRef * ef * ef * 3600 * (36 * second)
    let den : Int := 36 * second * dt * f.pRef
    (if 0 < den then roundDiv num den.natAbs else roundDiv (-num) den.natAbs, s)

/-- One feeder's balance over the span of two snapshots (R336 to R340): the result, and what the run count, the events and the scores
follow. -/
def State.balance (s : State) (x1 x2 : Snap) (id : Nat) (f : Feeder) : Bytes × State :=
  let q1 := s.mpSnapOf x1 f
  let q2 := q1.2.mpSnapOf x2 f
  let s := q2.2
  let e1 := q1.1
  let e2 := q2.1
  let flag (n : Nat) : Bool := (fld e1 2 2).testBit n || (fld e2 2 2).testBit n
  let restart := fld e1 52 4 != fld e2 52 4
  let noTime := fld e1 16 8 == 0 || fld e2 16 8 == 0
  let dt : Int :=
    if !restart then ((fld e2 8 8 : Int) - fld e1 8 8) * 15625 else if noTime then 0 else (fld e2 16 8 : Int) - fld e1 16 8
  let ef : Int := (wrapDelta e1 e2 32 48 : Int) - wrapDelta e1 e2 40 49
  let meters := (s.ledger.recs.filter fun r => r.2.state != 0 && r.2.leaf == f.leaf && r.2.feeder == f.mp).map fun r =>
    (r.1, s.meterBalance x1 x2 dt.natAbs r.1 r.2)
  let em : Int := (meters.map fun m => m.2.de).sum
  let et := if restart ∧ noTime then (0, s) else s.technicalLoss f ef dt
  let s := et.2
  let etl := et.1
  let ent := ef - em - etl
  let ppm (k : Nat) (e : Int) : Int := roundDiv (k * e) 1000000
  let uMiss := (meters.map fun m => m.2.miss).sum
  let uF := ppm (f.epsF + if flag 0 then 2000 else 0) ef.natAbs
  let uM := ppm f.epsM ((meters.map fun m => m.2.de.natAbs).sum : Nat)
  let uSkew := roundDiv ((sfld e1 24 8).natAbs + (sfld e2 24 8).natAbs : Nat) 6000000000
  let uSkew := if restart && noTime then 0 else uSkew
  let u := (uF + uM + ppm f.lossU etl + uSkew + ((meters.map fun m => m.2.interp).sum : Nat) + uMiss).toNat
  let decides := !restart && !flag 4 && !flag 5 && !flag 2 && decide (10 * uMiss ≤ em.natAbs)
  let bar : Int := u + 1000 * f.alarmMin
  let counts := decides && decide (bar < ent) && decide ((f.alarmFrac * ef.natAbs : Nat) < ent * 1000000)
  let negative := decides && decide (ent < -bar)
  let run := if !decides then f.run else if counts then min 255 (f.run + 1) else 0
  let alarm := counts && decide (f.alarmRuns ≤ run)
  let status := bitsNat [alarm, negative, !decides, flag 0, flag 4, flag 2, restart]
  let cnt (g : MeterBal → Bool) : Nat := (meters.filter fun m => g m.2).length
  let out := leBytes 2 id ++ leBytes 2 status ++ leBytes 2 (cnt (·.isInterp)) ++ leBytes 2 (cnt (·.isMissed)) ++ leBytes 4 x1.id
    ++ leBytes 4 x2.id ++ leInt 8 dt ++ leInt 8 ef ++ leInt 8 em ++ leInt 8 etl ++ leInt 8 ent ++ leBytes 8 u ++ leBytes 1 run ++ zeros 7
  let s := { s with ledger.feeders := Tbl.set none s.ledger.feeders id (some { f with run := run }),
                    ledger.results := (out :: s.ledger.results).take 116508 }
  let s := s.pulse 857
  let s := if alarm then
      meters.foldl (fun (s : State) m =>
        let h := (s.record m.1).histNet
        if h.2 ≠ 0 ∧ 2 * m.2.de * (h.2 * s.interval * 60 * second : Nat) < h.1 * dt then s.score m.1 20 else s) (s.pulse 858)
    else s
  (out, s)

/-- Balances of the defined feeders of a range, in feeder order. -/
def State.balances (s : State) (x1 x2 : Snap) (lo hi : Nat) : List Bytes × State :=
  (s.ledger.feeders.filter fun e => decide (lo ≤ e.1) && decide (e.1 ≤ hi)).foldl (fun a e => match e.2 with
    | some f => let b := a.2.balance x1 x2 e.1 f; (a.1 ++ [b.1], b.2)
    | none => a) ([], s)

/-- BALANCE_RUN (R336). -/
def balanceRunBody : Body := bulkOutBody 16 [(12, 4)] fun _ p s =>
  let b := p.params
  match (s.snap (fld b 0 4)).filter (·.closed), (s.snap (fld b 4 4)).filter (·.closed) with
  | none, _ => (s, .reply (Res.field 32))
  | _, none => (s, .reply (Res.field 36))
  | some x1, some x2 =>
    let r := s.balances x1 x2 (fld b 8 2) (fld b 10 2)
    let l := r.1.take (bulkRoom p 72)
    (r.2, .reply { Res.ok (leBytes 4 l.length ++ zeros 4) with bulk := l.flatMap id })

def execBalanceRun (p : Packet) (s : State) : Host.Outcome State Fault Refusal :=
  .next (command 0x0A11 (shedBody false balanceRunBody) p s)

/-- SNAPSHOT_CLOSE (R331 step 7): radio values are resolved, the snapshot closes, its automatic balances run. -/
def execSnapshotClose (id : Nat) (s : State) : Host.Outcome State Fault Refusal :=
  .next (
    match s.snap id with
    | some x =>
      if x.closed ∨ s.nowNs < x.t + s.key (kLedger 9) * second then s
      else
        let radio := (s.snapRecords x).filter fun r => r.2.channel == 1
        let vals : List SnapVal := radio.map fun r => match s.interpolate x r.2 with
          | some v => ({ index := r.1, latch := 3, reg := v.1, term := v.2, how := 1 } : SnapVal)
          | none => { index := r.1, latch := 1, reg := [], how := 2 }
        let all : List SnapVal := vals ++ x.vals.filter fun v => !vals.any fun w => w.index == v.index
        let missed : Bool := all.any fun v => v.latch == 1
        let s := s.modSnap id fun x => { x with closed := true, missed := missed, vals := all }
        let s := s.pulse (if missed then 856 else 855)
        if !x.auto then s
        else
          let prev := s.ledger.lastAuto.bind s.snap
          let s := { s with ledger.lastAuto := some id }
          match prev, s.snap id with
          | some a, some b => if s.shed 1 ∨ !a.closed then s else (s.balances a b 0 16383).2
          | _, _ => s
    | none => s)

/-- SNAPSHOT_READ (R334): the values held of a record index range. -/
def snapshotReadBody : Body := bulkOutBody 16 [(4, 4)] fun _ p s =>
  let b := p.params
  match s.snap (fld b 0 4) with
  | none => (s, .reply (Res.field 32))
  | some x =>
    let lo := fld b 8 4
    let l := (x.vals.filter fun v => decide (lo ≤ v.index) && decide (v.index < lo + fld b 12 4))
    let l := (l.foldl (fun (t : Tbl SnapVal) v => Tbl.insert t v.index v) []).take (bulkRoom p 40)
    (s, .reply { Res.ok (leBytes 4 l.length ++ zeros 4) with
      bulk := l.flatMap fun v => fitBytes 40 (Config.snapValue v.2.index v.2.latch v.2.reg v.2.term v.2.how) })

def execSnapshotRead (p : Packet) (s : State) : Host.Outcome State Fault Refusal :=
  .next (command 0x0A13 (shedBody false snapshotReadBody) p s)

/-! ### Score decay (R341) -/

/-- floor(score × 2^(−1 / half)): the largest n with 2 × n^half ≤ score^half. -/
def decayed (half score : Nat) : Nat :=
  (((List.range (score + 1)).reverse).find? fun n => decide (2 * n ^ half ≤ score ^ half)).getD 0

/-- SCORE_DECAY: at each 00:00 UTC; Q1 work waits while it is refused (R320). -/
def execScoreDecay (s : State) : Host.Outcome State Fault Refusal :=
  .next (
    let day := s.utcNs / (86400 * second)
    if s.kiln.role ≠ .root ∨ !s.ready 25 ∨ !s.time.valid ∨ day ≤ s.ledger.scoreDay ∨ s.shed 1 then s
    else
      { s with ledger.scoreDay := day,
               ledger.recs := Tbl.mapV {} (fun (r : Rec) => { r with score := decayed (s.key (kLedger 11)) r.score }) s.ledger.recs })

/-! ### Pushes (R342 to R346) -/

/-- SIZE limits of R342; a key takes 16 bytes per target, a broadcast or network key 16. -/
def pushSizeOk (kind size targets : Nat) : Bool :=
  match kind with
  | 0 => decide (size ≤ 65536)
  | 1 => decide (size ≤ 2097152)
  | 2 => size == 16 * targets
  | _ => size == 16

/-- The kinds an opcode creates. -/
def pushKindOk (code kind : Nat) : Bool :=
  match code with
  | 0x0A20 => kind == 0
  | 0x0A21 => kind == 1
  | _ => kind == 2 || kind == 3 || kind == 4

/-- The identities a push names: a list at the front of its data, every ACTIVE or ABSENT meter, or those of LEAF. -/
def State.pushTargets (s : State) (mode leaf : Nat) (list : Bytes) : Option (List Nat) :=
  let live := s.ledger.recs.filter fun r => r.2.state == 2 || r.2.state == 3
  match mode with
  | 0 =>
    let ids := (List.range (list.length / 8)).map fun i => fld list (8 * i) 8
    if list.length % 8 = 0 ∧ ids.all fun i => (s.recIndex i).isSome then some ids.eraseDups else none
  | 1 => some (live.map fun r => r.2.identity)
  | 2 => some ((live.filter fun r => r.2.leaf == leaf).map fun r => r.2.identity)
  | _ => none

/-- Put a job's target into its record: in progress, or waiting behind another job. -/
def State.enterTarget (s : State) (job kind : Nat) (id : Nat) : Target × State :=
  match s.recIndex id with
  | none => ({ identity := id, state := 5 }, s)
  | some i =>
    if (s.record i).job ≠ 0 then ({ identity := id, state := 0 }, s)
    else ({ identity := id },
          s.modRec_ i fun r => { r with job := job, jobState := 1, jobTries := 0, jobNext := 0, keyPending := r.keyPending || kind == 2 })

/-- A push job with its targets. -/
def State.createJob (s : State) (c : Ctx) (b data : Bytes) (ids : List Nat) : State :=
  let id := s.ledger.jobNext
  let kind := fld b 1 1
  let r := ids.foldl (fun (a : List Target × State) t => let e := a.2.enterTarget id kind t; (a.1 ++ [e.1], e.2)) ([], s)
  let j : Job := { id := id, kind := kind, version := fld b 4 4, activateAt := fld b 8 8, expiry := fld b 16 8, size := fld b 24 4,
                   slot := fld b 28 1, data := data, targets := r.1, bay := c.bay, role := c.role }
  let s := { r.2 with ledger.jobs := j :: r.2.ledger.jobs, ledger.jobNext := (id + 1) % 2 ^ 32 }
  (s.sendJobs j none).jobEnd id true

/-- PUSH_TARIFF, PUSH_IMAGE and PUSH_KEY (R342) with their data. -/
def pushData (code : Nat) (data : Bytes) : Body := fun c p s =>
  let b := p.params
  let kind := fld b 1 1
  let size := fld b 24 4
  let list := data.take (data.length - size)
  if 2 < fld b 0 1 then (s, .reply (Res.field 32))
  else if !pushKindOk code kind then (s, .reply (Res.field 33))
  else if data.length < size ∨ (fld b 0 1 ≠ 0 ∧ data.length ≠ size) then (s, .reply (Res.field 56))
  else if 7 < fld b 28 1 ∨ (kind ≠ 1 ∧ fld b 28 1 ≠ 0) then (s, .reply (Res.field 60))
  else match s.pushTargets (fld b 0 1) (fld b 2 2) list with
  | none => (s, .reply (Res.field 32))
  | some ids =>
    if !pushSizeOk kind size ids.length then (s, .reply (Res.field 56))
    else if 16 ≤ (s.ledger.jobs.filter Job.live).length then (s, .reply (Res.err stCapacity 0))
    else if 2 ≤ kind ∧ s.store.ro.contains 2 then (s, .reply (Res.err stFault 0))
    else if kind = 1 ∧ !s.ready 3 then (s, .reply (Res.err stNotReady 0))
    else if kind = 1 ∧ s.sectorsBad (imageSectors (fld b 28 1)) then (s, .reply (Res.err stFault 0))
    else
      let content := data.drop (data.length - size)
      let s := if kind = 1 then s.writeImage (fld b 28 1) content else s
      let id := s.ledger.jobNext
      (s.createJob c b content ids, .reply (Res.ok (leBytes 4 id ++ zeros 4)))

/-- PUSH_TARIFF, PUSH_IMAGE and PUSH_KEY: parameters and a bulk descriptor of DIR 0. -/
def pushBody (code : Nat) : Body := bulkInBody 32 [(29, 3)] (pushData code)

def execPushTariff (p : Packet) (s : State) : Host.Outcome State Fault Refusal :=
  .next (command 0x0A20 (shedBody true (pushBody 0x0A20)) p s)
def execPushImage (p : Packet) (s : State) : Host.Outcome State Fault Refusal :=
  .next (command 0x0A21 (shedBody true (pushBody 0x0A21)) p s)
def execPushKey (p : Packet) (s : State) : Host.Outcome State Fault Refusal :=
  .next (command 0x0A22 (shedBody true (pushBody 0x0A22)) p s)

end Sys2Proof.Machine

namespace Sys2Proof

open Machine

/-- COUNT[8] of a job. -/
def Job.counts (j : Job) : Bytes :=
  (List.range 8).flatMap fun k => leBytes 4 (j.targets.filter fun t => t.state == k).length

end Sys2Proof

namespace Sys2Proof.Machine

/-- PUSH_STATUS: counts, and the targets in STATE through the descriptor. -/
def pushStatusInner : Body := fun _ p s =>
  match s.ledger.jobs.find? (·.id == fld p.params 0 4) with
  | none => (s, .reply (Res.field 32))
  | some j =>
    let l := (j.targets.filter fun t => t.state == fld p.params 4 1).take (bulkRoom p 8)
    (s, .reply { Res.ok j.counts with bulk := l.flatMap fun t => leBytes 8 t.identity })

def pushStatusBody : Body := fun c p s =>
  if fld p.params 4 1 = 0xFF then fixedBody 8 [(5, 3)] pushStatusInner c p s
  else if 7 < fld p.params 4 1 then (s, .reply (Res.field 36))
  else bulkOutBody 8 [(5, 3)] pushStatusInner c p s

def execPushStatus (p : Packet) (s : State) : Host.Outcome State Fault Refusal :=
  .next (command 0x0A28 (shedBody false pushStatusBody) p s)

/-- PUSH_CANCEL (R345), by the issuing bay and role (R347). -/
def pushCancelBody : Body := fixedBody 8 [(4, 4)] fun c p s =>
  match (s.ledger.jobs.find? (·.id == fld p.params 0 4)).filter Job.live with
  | none => (s, .reply (Res.field 32))
  | some j =>
    if c.bay ≠ j.bay ∨ c.role ≠ j.role then (s, .reply (Res.err stDenied subRole))
    else (j.targets.foldl (fun (s : State) t => s.jobTarget j.id t.identity 7 t.next t.tries) s, .reply Res.ok)

def execPushCancel (p : Packet) (s : State) : Host.Outcome State Fault Refusal :=
  .next (command 0x0A29 (shedBody false pushCancelBody) p s)

/-- PUSH_EXPIRY (R345): at EXPIRY every target not terminal becomes EXPIRED. -/
def execPushExpiry (job : Nat) (s : State) : Host.Outcome State Fault Refusal :=
  .next (
    match (s.ledger.jobs.find? (·.id == job)).filter Job.live with
    | some j =>
      if s.time.valid ∧ j.expiry ≤ s.nowNs then
        j.targets.foldl (fun (s : State) t => s.jobTarget j.id t.identity 6 t.next t.tries) s
      else s
    | none => s)

/-- PUSH_ACTIVATE_DUE (R345, R346): at ACTIVATE_AT, or on completion, COMPLETE targets get KIND 5; a broadcast or network key comes into
force at the leaf. -/
def execPushActivateDue (job : Nat) (s : State) : Host.Outcome State Fault Refusal :=
  .next (
    match s.leafJob job with
    | some j =>
      let due := if j.activateAt = 0 then j.targets.all fun t => decide (3 ≤ t.state) else s.time.valid && decide (j.activateAt ≤ s.nowNs)
      if j.installed ∨ !due then s
      else
        let s := s.modLeafJob job fun j => { j with active := true, installed := true }
        if j.kind = 3 then
          match s.plc.bcastNext with
          | some k => { s with plc.bcastKey := k.1, plc.bcastNext := none }
          | none => s
        else if j.kind = 4 then s.newNetworkKey ((j.block 0).take 16)
        else s
    | none => s)

end Sys2Proof.Machine
end

