-- ==== Sys2Proof/Machine/Mortar.lean ====
section
/-! DEFINITION. The mortar link (13): lanes, HELLO, routing, joining, epochs, departures, time exchange, the root pair; and the uplink lanes
(R385). -/

namespace Sys2Proof.Machine

/-! ### Lanes (R352) -/

/-- May a lane train: a mode in force, K6 begun, its island on? -/
def State.laneEnabled (s : State) (m : Nat) : Bool := s.laneMode m != 0 && s.kiln.ph.k6Open && !s.fault.f4 && Tbl.get 0 s.host.island (86 + m) == 0

/-- EV(776 + m): enabled and not UP; EV0798: a MIRROR lane not UP. -/
def State.laneLevels (s : State) (m : Nat) : State :=
  let s := s.level (776 + m) (s.laneMode m != 0 && !(s.lane m).up)
  s.level 798 ((List.range 4).any fun i => s.laneMode i == 3 && !(s.lane i).up)

/-- More than 10 frames per second fail: EV(780 + m). -/
def State.errLevel (s : State) (m : Nat) : State :=
  let l := (s.lane m).errTimes.filter fun t => decide (s.time.mono < t + second)
  (s.modLane m fun x => { x with errTimes := l }).level (780 + m) (decide (10 < l.length))

/-- LANE_TRAIN_ATTEMPT (R352). -/
def execLaneTrainAttempt (m : Fin 4) (s : State) : Host.Outcome State Fault Refusal :=
  .next (if s.laneEnabled m ∧ !(s.lane m).trained then (s.modLane m fun x => { x with training := true }).laneLevels m else s)

/-- LANE_TRAINED (R352): 1,024 consecutive valid code groups; inverted commas invert the input. -/
def execLaneTrained (m : Fin 4) (groups : Nat) (inverted : Bool) (s : State) : Host.Outcome State Fault Refusal :=
  .next (
    let x := s.lane m
    if s.laneEnabled m ∧ x.training ∧ !x.trained ∧ 1024 ≤ groups then
      let s := s.modLane m fun x =>
        { x with trained := true, training := false, polInv := inverted, hellos := 0,
                 retrains := if x.everLost then bumpAllSat 255 1 x.retrains else x.retrains }
      if inverted then s.pulse 786 else s
    else s)

/-! ### Epoch and upstream (R358, R361, R362) -/

/-- The topology epoch takes a value: EV0787. -/
def State.setEpoch (s : State) (e : Nat) : State :=
  if e = s.mortar.epoch then s else ({ s with mortar.epoch := e }).pulse 787

/-- The root increments the epoch (R361). -/
def State.incEpoch (s : State) : State := s.setEpoch ((s.mortar.epoch + 1) % 2 ^ 32)

/-- The UP lanes that qualify as upstream (R358): a partner within MAX_DEPTH, and one not yet active with fewer hops than this device. -/
def State.upCandidates (s : State) : List Nat :=
  (s.upLanes 1).filter fun m =>
    let h := (s.lane m).peerHops
    decide (h + 1 ≤ s.key (kMortar 2)) && (s.mortar.activeUp == some m || decide (h < s.mortar.hops))

/-- The candidate of the lowest HOPS_TO_ROOT, the lower lane number on equal values. -/
def bestLane (s : State) : List Nat → Option Nat
  | [] => none
  | m :: t => match bestLane s t with
    | some n => if (s.lane n).peerHops < (s.lane m).peerHops then some n else some m
    | none => some m

/-- A JOIN frame of this device (R360). -/
def State.joinFrame (s : State) (step epoch : Nat) (nonce : Bytes) : LaneTx :=
  .join step s.kiln.devId epoch nonce Config.deviceSerial
    (Config.gmac Config.palletKey (leBytes 1 step ++ leBytes 2 s.kiln.devId ++ leBytes 4 epoch ++ nonce ++ leBytes 8 Config.deviceSerial))

/-- A new exchange starts: JOIN REQ with a fresh NONCE on the active upstream (R360). -/
def State.startJoin (s : State) : State :=
  match s.mortar.activeUp with
  | some m =>
    if !s.mortar.palletKeyOk then s
    else
      let d := s.drawBytes 16
      let s := d.2
      ({ s with mortar.stt := .joining, mortar.joinNonce := d.1, mortar.joinAt := s.time.mono, mortar.offered := none }).laneSend m
        (s.joinFrame 0 s.mortar.epoch d.1)
  | none => s

/-- UNIT_ROUTE (R358) of a unit on its way: along its route, or back with UNREACHABLE. -/
def State.sendReturn (s : State) (src kind reason seq : Nat) : State :=
  let s := s.pulse 794
  match s.route src with
  | some m => s.laneSend m (.ret src kind reason seq)
  | none => s

/-- A pallet on its way (R358, R363): forwarded with the present epoch, held for a newer one, or returned. -/
def State.forwardPallet (s : State) (from_ : Option Nat) (cls : Nat) (p : Pallet) : State :=
  if s.mortar.epoch < p.epoch then { s with mortar.held := s.mortar.held ++ [(s.time.mono, .unit cls p.source p.dest p.seq (.pallet p))] }
  else
    let p := { p with epoch := s.mortar.epoch }
    let u : LaneTx := .unit cls p.source p.dest p.seq (.pallet p)
    if p.dest = 1023 then ((s.upLanes 2).filter fun m => from_ != some m).foldl (fun (s : State) m => s.laneSend m u) s
    else match s.route p.dest with
    | some m => s.laneSend m u
    | none => s.sendReturn p.source 0 0 p.seq

/-- Units that waited for an epoch now in force go on. -/
def State.releaseHeld (s : State) : State :=
  let go := s.mortar.held.filter fun h => match h.2 with | .unit _ _ _ _ (.pallet p) => decide (p.epoch ≤ s.mortar.epoch) | _ => true
  go.foldl (fun (s : State) h => match h.2 with | .unit c _ _ _ (.pallet p) => s.forwardPallet none c p | _ => s)
    { s with mortar.held := s.mortar.held.filter fun h => !go.contains h }

/-- The root is a new one: the leaf retransmits every unacknowledged pallet (R363). -/
def State.adopt (s : State) (epoch root : Nat) (takeover : Bool) : State :=
  let changed := s.mortar.rootId != root
  let s := ({ s with mortar.rootId := root, mortar.takeover := takeover }).setEpoch epoch
  let s := s.releaseHeld
  if changed ∧ s.kiln.role = .leaf then s.resend fun _ => true else s

/-- The active upstream is chosen again (R358): EV0792 at a switch, EV0793 without a path. -/
def State.chooseUp (s : State) : State :=
  match s.kiln.role with
  | .leaf | .relay =>
    let old := s.mortar.activeUp
    match bestLane s s.upCandidates with
    | some m =>
      let x := s.lane m
      let s1 := ({ s with mortar.activeUp := some m, mortar.hops := x.peerHops + 1 }).level 793 false
      let s1 := if old.isSome ∧ old ≠ some m then s1.pulse 792 else s1
      let s1 := s1.adopt x.peerEpoch x.peerRootId (x.peerFlags.testBit 1)
      let gone : Bool := match s.mortar.noPathSince with
        | some t => decide (t + s.key (kMortar 3) * 1000000 ≤ s.time.mono)
        | none => false
      let s1 := { s1 with mortar.noPathSince := none }
      if s1.mortar.stt = .alone ∨ (old.isNone ∧ gone) then s1.startJoin else s1
    | none =>
      ({ s with mortar.activeUp := none, mortar.hops := 0xFF,
                mortar.noPathSince := s.mortar.noPathSince.orElse fun _ => some s.time.mono }).level 793 true
  | _ => s

/-- What a lane forgets when it leaves UP. -/
def Lane.lost (x : Lane) : Lane :=
  { x with trained := false, training := true, up := false, hellos := 0, peerId := 0xFFFF, peerHops := 0xFF, peerUp := 0xFFFF, peerFlags := 0,
           rootHeardAt := none, exchanges := [], below := [], belowSeq := none, belowParts := [], segs := [], reqT1 := none, everLost := true }

/-- A handover that waited cannot go on: no standby is reachable (R369). -/
def State.dropHandover (s : State) : State :=
  match s.mortar.handover with
  | some q =>
    if s.standbyLinked then s
    else
      let s := { s with mortar.handover := none }
      match q with | some q => s.finishHeld q (Res.err stUnreachable 0) | none => s
  | none => s

/-- What follows when the standby may no longer be linked. -/
def State.standbyCheck (s : State) : State :=
  let s := s.mirrorLevel
  if s.kiln.role = .root ∧ !s.standbyLinked then s.dropHandover.mirrorRelease else s

/-- A lane is lost (R352): READY clears, the upstream is chosen again. -/
def State.laneDown (s : State) (m : Nat) : State :=
  ((((s.modLane m Lane.lost).setReady (30 + m) false).laneLevels m).chooseUp).standbyCheck

/-- LANE_LOSS (R352). -/
def execLaneLoss (m : Fin 4) (lockLost : Bool) (violations : Nat) (s : State) : Host.Outcome State Fault Refusal :=
  .next (if (s.lane m).trained ∧ (lockLost ∨ 16 ≤ violations) then s.laneDown m else s)

/-- HELLO_TIMEOUT (R352). -/
def execHelloTimeout (m : Fin 4) (us : Nat) (s : State) : Host.Outcome State Fault Refusal :=
  .next (if (s.lane m).up ∧ 3000 ≤ us then s.laneDown m else s)

/-- A lane is switched off: by its mode, or its island (R428). -/
def State.laneStop (s : State) (m : Nat) : State :=
  (s.laneDown m).modLane m fun x => { x with training := false }

/-- LANE_FRAME_CRC_FAIL (R352). -/
def execLaneFrameCrcFail (m : Fin 4) (s : State) : Host.Outcome State Fault Refusal :=
  .next (
    if (s.lane m).trained then
      (s.modLane m fun x => { x with errors := (x.errors + 1) % 2 ^ 32, errTimes := s.time.mono :: x.errTimes }).errLevel m
    else s)

/-! ### HELLO (R354) -/

/-- A root-pair member reaches a device other than its partner. -/
def State.reachOthers (s : State) : Bool :=
  (s.kiln.role == .root || s.kiln.role == .standbyRoot) && (s.upLanes 2).any fun m => (s.lane m).peerId != s.partner

/-- The HELLO this device sends on a lane. -/
def State.helloOf (s : State) (m : Nat) : LaneTx :=
  .hello s.kiln.devId s.kiln.role.code s.mortar.hops s.mortar.epoch s.mortar.rootId
    (s.mortar.activeUp.elim 0xFFFF fun u => (s.lane u).peerId) s.mortar.rootSeq
    (bitsNat [s.mortar.stt == .member || s.mortar.stt == .root, s.mortar.takeover, s.mortar.stt == .fenced, s.reachOthers]) m

/-- HELLO_SEND (R353): every 1 ms on every lane that is trained. -/
def execHelloSend (s : State) : Host.Outcome State Fault Refusal :=
  .next (((List.range 4).filter fun m => s.laneEnabled m && (s.lane m).trained).foldl (fun (s : State) m => s.laneSend m (s.helloOf m)) s)

def State.modDev (s : State) (d : Nat) (g : DevEntry → DevEntry) : State :=
  { s with mortar.table := Tbl.upd none s.mortar.table d fun e => e.map g }

/-- What the root learns of a neighbour from its HELLO: role, upstream, hops; a change of upstream increments the epoch (R361). -/
def State.helloTable (s : State) (h : Hello) : State :=
  match s.isRoot, Tbl.get none s.mortar.table h.devId with
  | true, some e =>
    let moved := e.state == 1 && e.activeUp != h.activeUp
    let s := if moved then s.incEpoch else s
    s.modDev h.devId fun e =>
      { e with role := h.role, activeUp := h.activeUp, hops := h.hops, epoch := if moved then s.mortar.epoch else e.epoch }
  | _, _ => s

/-- A joining device is a member once its active upstream shows the epoch offered, within 1 s (R358). -/
def State.joinSeen (s : State) (m epoch : Nat) : State :=
  match s.mortar.stt, s.mortar.offered with
  | .joining, some (e, t) =>
    if s.mortar.activeUp = some m ∧ e ≤ epoch ∧ s.time.mono < t + second then
      ({ s with mortar.stt := .member, mortar.offered := none }).resend fun _ => true
    else s
  | _, _ => s

/-- HELLO_RECEIVE (R354). -/
def execHelloReceive (m : Fin 4) (h : Hello) (s : State) : Host.Outcome State Fault Refusal :=
  .next (
    let x := s.lane m
    if !s.laneEnabled m ∨ !x.trained then s
    else
      let wasUp := x.up
      let heard := decide (x.peerRootSeq < h.rootSeq)
      let s := s.modLane m fun x =>
        { x with hellos := min 3 (x.hellos + 1), lastHello := s.time.mono, up := x.up || decide (2 ≤ x.hellos), peerId := h.devId,
                 peerRole := h.role, peerHops := h.hops, peerEpoch := h.epoch, peerRootId := h.rootId, peerUp := h.activeUp,
                 peerFlags := h.flags.toNat, peerRootSeq := max x.peerRootSeq h.rootSeq,
                 rootHeardAt := if heard then some s.time.mono else x.rootHeardAt }
      let s := if !wasUp ∧ (s.lane m).up then (s.setReady (30 + m) true).laneLevels m else s
      let s := s.errLevel m
      let s := if s.isRoot ∨ h.rootSeq ≤ s.mortar.rootSeq then s else ({ s with mortar.rootSeq := h.rootSeq }).level 795 false
      -- another root after a partition, or at a restart: its own HELLO, or one of a device that serves it (R368)
      let rival := !h.flags.getLsbD 2 && h.rootId != s.kiln.devId
        && ((h.role == 2 && h.hops == 0) || (h.flags.getLsbD 1 && h.hops != 0xFF))
      let s := if s.isRoot ∧ rival ∧ !s.mortar.takeover then s.fenceRoot h.rootId else s
      let s := s.helloTable h
      let s := if (s.lane m).up then s.chooseUp else s
      let s := if s.kiln.role = .standbyRoot ∧ h.role = 2 ∧ h.hops = 0 ∧ !h.flags.getLsbD 2 then
          s.adopt h.epoch h.rootId (h.flags.getLsbD 1) else s
      (s.joinSeen m h.epoch).standbyCheck)

/-! ### Time exchange (R364) -/

/-- The child side of a lane: UP mode, or a standby root's MIRROR lane. -/
def State.timeChild (s : State) (m : Nat) : Bool :=
  (s.lane m).up && (s.laneMode m == 1 || (s.kiln.role == .standbyRoot && s.laneMode m == 3))

/-- TIME_REQ_SEND: 16 per second; t1 is the system time of the transmission. -/
def execTimeReqSend (m : Fin 4) (s : State) : Host.Outcome State Fault Refusal :=
  .next (
    if s.timeChild m then
      let n := ((s.lane m).reqSeq + 1) % 65536
      (s.modLane m fun x => { x with reqSeq := n, reqT1 := some s.nowNs }).laneSend m (.timeReq n)
    else s)

/-- TIME_REQ_RECEIVE: the parent answers with T2 and T3. -/
def execTimeReqReceive (m : Fin 4) (seq t2 t3 : Nat) (s : State) : Host.Outcome State Fault Refusal :=
  .next (if (s.lane m).up ∧ !s.timeChild m then s.laneSend m (.timeResp seq t2 t3) else s)

/-- TIME_RESP_RECEIVE: delay and offset of the exchange; EV0799 when the delay changed by more than 100 ns. -/
def execTimeRespReceive (m : Fin 4) (seq t2 t3 t4 : Nat) (s : State) : Host.Outcome State Fault Refusal :=
  .next (
    let x := s.lane m
    match x.reqT1 with
    | some t1 =>
      if !s.timeChild m ∨ x.reqSeq ≠ seq then s
      else
        let d := roundDiv (((t2 : Int) - t1) + ((t4 : Int) - t3)) 2
        let off := roundDiv (((t1 : Int) - t2) + ((t4 : Int) - t3) + s.keyS (kLane m 2)) 2
        let ok := decide (t4 ≤ t1 + 10000000) && (decide (x.delays.length < 15) || decide ((d - medianInt x.delays).natAbs ≤ 100))
        let s := s.modLane m fun x => { x with reqT1 := none }
        if !ok then s
        else
          let s := s.modLane m fun x =>
            { x with delays := (d :: x.delays).take 15, linkDelay := d.toNat % 2 ^ 32,
                     exchanges := s.time.mono :: x.exchanges.filter fun t => decide (s.time.mono < t + second) }
          let s := if !x.delays.isEmpty ∧ 100 < (d - (x.linkDelay : Int)).natAbs then s.pulse 799 else s
          if s.mortar.activeUp = some m.val ∨ s.kiln.role = .standbyRoot then s.mortarExchange off else s
    | none => s)

/-! ### Segments and returns (R353, R358, R363, R388) -/

/-- The segments of a lane with one more: INDEX 0 starts a unit of its class, another must follow its predecessor. -/
def Lane.addSegment (x : Lane) (g : Segment) : Lane :=
  let mine := x.segs.filter fun y => y.cls == g.cls
  let others := x.segs.filter fun y => y.cls != g.cls
  if g.index = 0 then { x with segs := others ++ [g] }
  else if mine.length = g.index ∧ (mine.all fun y => y.kind == g.kind) then { x with segs := others ++ mine ++ [g] }
  else { x with segs := others }

/-- A command packet's envelope SEQ is taken once (R388, on the rule of R317). -/
def seqFresh (l : List Nat) (seq : Nat) : Bool := !l.contains seq && decide (l.foldl max 0 < seq + 4096)

/-- The reply a packet with OPCODE bit 15 set spells, for the end its command came from. -/
def replyOf (code : Nat) (peer : Peer) (p : Packet) : Reply :=
  let b := p.params
  let r : Reply := { code := code, peer := peer, tag := p.tag, bay := p.bay, queue := p.queue, session := p.session, target := p.target,
                     source := p.source, status := 0, sub := 0, detail := 0, doneTime := 0, result := b, bulk := [], cont := p.cont, more := p.more }
  if p.cont then r
  else { r with status := fld b 0 2, sub := fld b 2 2, detail := fld b 4 4, doneTime := fld b 8 8, result := b.drop 16 }

/-- Is a reply the last one to a forwarded command: not to a broadcast, nor before the continuations of a stream from the device (R377)? -/
def lastReply (f : Packet) (p : Packet) : Bool :=
  f.target != 1023 && (if p.cont then !p.more else !(f.desc.any (fun d => d.kind == 1 && d.dir == 1) && [stOk, stDegraded, stAccepted].contains (fld p.params 0 2)))

/-- A reply that reaches the device its command came from goes to the host that sent it. -/
def State.replyHome (s : State) (code : Nat) (p : Packet) : State :=
  match s.host.forwarded.find? fun f => f.1 + 0x8000 == code && f.2.tag == p.tag && f.2.bay == p.bay && f.2.queue == p.queue
      && f.2.session == p.session with
  | some f =>
    ({ s with host.forwarded := if lastReply f.2 p then s.host.forwarded.erase f else s.host.forwarded }).send f.2.transport
      (replyOf f.1 f.2.transport.peer p) false
  | none => s

/-- A command or reply unit for another device, or for every device, goes on with one hop less (R358, R388).  Without a route, or with its hops
spent, a command is answered and a reply is returned. -/
def State.unitOnward (s : State) (m cls src dest seq code : Nat) (p : Packet) : State :=
  let lanes := s.unitLanes (some m) src dest
  let u : LaneTx := .unit cls src dest seq (.command code (s.onward code p))
  if dest = 1023 then (if p.hopLimit ≤ 1 then s else s.unitSend lanes u)
  else if 0x8000 ≤ code then (if lanes.isEmpty then s.sendReturn src 1 0 seq else s.unitSend lanes u)
  else match (headCheck code p).orElse fun _ => remoteCheck p lanes with
  | some r => s.answer code p r
  | none => s.unitSend lanes u

/-- A command or reply unit is whole (R388).  The device it is for, every device for a broadcast that comes down, and the root for a unit
between two others open it: tag and SEQ.  What is for another goes on; a broadcast of this device's own only goes on. -/
def State.commandUnit (s : State) (m cls : Nat) (data : Bytes) (gcm : Bool) : State :=
  let src := fld data 0 2
  let dest := fld data 2 2
  let seq := fld data 8 8
  let inner := (data.drop 16).take (data.length - 32)
  match parsePacket (.mortar src) gcm [] inner with
  | none => s.pulse 841
  | some (code, p) =>
    let here := dest == s.kiln.devId || (dest == 1023 && !s.rootward (some m) src dest && src != s.kiln.devId)
    let opens := here || s.isRoot
    if opens ∧ (!gcm ∨ !seqFresh (Tbl.get [] s.mortar.cmdSeq src) seq) then s.pulse 841
    else
      let s := if opens then { s with mortar.cmdSeq := Tbl.upd [] s.mortar.cmdSeq src fun l => (seq :: l).take 4096 } else s
      let s := if dest ≠ s.kiln.devId ∧ s.mortar.stt ≠ .fenced then s.unitOnward m cls src dest seq code p else s
      if !here then s
      else if 0x8000 ≤ code then s.replyHome code p
      else if s.serving then arriveQueue code p s else s

/-- SEGMENT_RECEIVE (R353): the last segment completes the unit, which is terminated or sent on.  A terminated pallet is
the subject of the PALLET_… command that carries it. -/
def execSegmentReceive (m : Fin 4) (g : Segment) (s : State) : Host.Outcome State Fault Refusal :=
  .next (
    if !(s.lane m).up ∨ 64 ≤ g.hops ∨ 512 < g.data.length then s
    else
      let x := (s.lane m).addSegment g
      let unit := x.segs.filter fun y => y.cls == g.cls
      let s := s.modLane m fun _ => x
      if !g.last ∨ unit.isEmpty then s
      else
        let s := s.modLane m fun x => { x with segs := x.segs.filter fun y => y.cls != g.cls }
        if g.kind = 1 then s.commandUnit m g.cls (unit.flatMap (·.data)) g.gcm
        else match g.pallet with
        | some p =>
          if s.forMe p.dest ∨ s.mortar.stt = .fenced ∨ 63 ≤ g.hops then s else s.forwardPallet (some m.val) g.cls p
        | none => s.pulse 841)

/-- The unit a lane sent with a SEQ of this device. -/
def State.sentUnit (s : State) (seq : Nat) : Option UnitBody :=
  ((List.range 4).flatMap fun m => (s.lane m).sent).findSome? fun t => match t with
    | .unit _ src _ n b => if src = s.kiln.devId ∧ n = seq then some b else none
    | _ => none

/-- A forwarded command is the one that went out in the unit with this SEQ. -/
def State.sentCommand (s : State) (seq : Nat) (f : Nat × Packet) : Bool :=
  match s.sentUnit seq with | some (.command c p) => f.1 == c && s.onward f.1 f.2 == p | _ => false

/-- RETURN_RECEIVE (R363, R388). -/
def execReturnReceive (m : Fin 4) (r : ReturnFrame) (s : State) : Host.Outcome State Fault Refusal :=
  .next (
    if !(s.lane m).up then s
    else if r.source ≠ s.kiln.devId then
      if s.mortar.stt = .fenced ∨ 63 ≤ r.hops then s
      else match s.route r.source with
      | some n => s.laneSend n (.ret r.source r.kind r.reason r.seq)
      | none => s
    else
      let s := s.pulse 794
      if r.kind = 1 then
        match s.host.forwarded.find? (s.sentCommand r.seq) with
        | some f =>
          ({ s with host.forwarded := s.host.forwarded.erase f }).answer f.1 f.2
            (if r.reason = 1 then Res.err stRetry 0 else Res.err stUnreachable 0)
        | none => s
      else if s.kiln.role = .leaf then s.resend fun _ => true
      else match s.sentUnit r.seq with
      | some (.pallet p) =>
        let es := ((splitEntries p.entries p.body).getD []).filter requeued
        if p.kind = 1 then { s with ledger.downQ := s.ledger.downQ ++ es.map fun e => (p.dest, e) } else s
      | _ => s)

/-- EPOCH_HOLD_EXPIRE (R363): a pallet held for 10 ms goes back with reason EPOCH. -/
def execEpochHoldExpire (s : State) : Host.Outcome State Fault Refusal :=
  .next (
    let old := s.mortar.held.filter fun h => decide (h.1 + 10000000 ≤ s.time.mono)
    old.foldl (fun (s : State) h => match h.2 with | .unit _ src _ seq _ => s.sendReturn src 0 1 seq | _ => s)
      { s with mortar.held := s.mortar.held.filter fun h => !old.contains h })

/-! ### Joining (R360) -/

/-- A JOIN frame passes toward the root as it came, unless it would leave with HOPS = 64 (R353). -/
def State.passUp (s : State) (step : Nat) (j : JoinFrame) : State :=
  if 63 ≤ j.hops then s else
  match s.mortar.activeUp with
  | some n => s.laneSend n (.join step j.dev j.epoch j.nonce j.identity j.mac)
  | none => s

/-- JOIN_REQ_RECEIVE: the root answers a provisioned device with an OFFER that holds the epoch of its admission. -/
def execJoinReqReceive (m : Fin 4) (j : JoinFrame) (s : State) : Host.Outcome State Fault Refusal :=
  .next (
    if !(s.lane m).up ∨ s.mortar.stt = .fenced then s
    else if !s.isRoot then s.passUp 0 j
    else match Tbl.get none s.mortar.table j.dev with
    | some e =>
      if !j.macOk ∨ e.identity ≠ j.identity ∨ e.key.isEmpty then s.pulse 790
      else if e.state = 1 then
        (({ s with mortar.dupUntil := some (s.time.mono + 10 * second) }).pulse 790).level 791 true
      else
        let d := s.drawBytes 16
        let s := d.2
        let ep := (s.mortar.epoch + 1) % 2 ^ 32
        ({ s with mortar.offers := Tbl.set none s.mortar.offers j.dev (some (s.time.mono, d.1)) }).laneSend m
          (.join 1 j.dev ep d.1 e.identity (Config.gmac e.key (leBytes 1 1 ++ leBytes 2 j.dev ++ leBytes 4 ep ++ j.nonce)))
    | none => s.pulse 790)

/-- JOIN_OFFER_RECEIVE: the device it names answers with CONFIRM; a device on the way passes it down. -/
def execJoinOfferReceive (m : Fin 4) (j : JoinFrame) (s : State) : Host.Outcome State Fault Refusal :=
  .next (
    if !(s.lane m).up ∨ s.mortar.stt = .fenced then s
    else if j.dev = s.kiln.devId then
      if s.mortar.stt = .joining ∧ s.mortar.activeUp = some m.val ∧ j.macOk ∧ s.mortar.offered.isNone then
        ({ s with mortar.offered := some (j.epoch, s.time.mono) }).laneSend m (s.joinFrame 2 j.epoch j.nonce)
      else s
    else if 63 ≤ j.hops then s
    else (s.upLanes 2).foldl (fun (s : State) n => s.laneSend n (.join 1 j.dev j.epoch j.nonce j.identity j.mac)) s)

/-- JOIN_CONFIRM_RECEIVE: within 1 s of its OFFER the device is admitted, and what waited for it is sent (R363). -/
def execJoinConfirmReceive (m : Fin 4) (j : JoinFrame) (s : State) : Host.Outcome State Fault Refusal :=
  .next (
    if !(s.lane m).up ∨ s.mortar.stt = .fenced then s
    else if !s.isRoot then s.passUp 2 j
    else match Tbl.get none s.mortar.offers j.dev with
    | some (t, _) =>
      if !j.macOk ∨ t + second < s.time.mono then s
      else
        let s := ({ s with mortar.offers := Tbl.set none s.mortar.offers j.dev none }).incEpoch
        let s := s.modDev j.dev fun e => { e with state := 1, epoch := s.mortar.epoch }
        ((s.pulse 788 j.dev).flushDown j.dev).standbyCheck
    | none => s)

/-- JOIN_OFFER_LAPSE: an OFFER without CONFIRM lapses after 1 s. -/
def execJoinOfferLapse (d : Fin 1023) (s : State) : Host.Outcome State Fault Refusal :=
  .next (
    match Tbl.get none s.mortar.offers d with
    | some (t, _) => if t + second ≤ s.time.mono then { s with mortar.offers := Tbl.set none s.mortar.offers d none } else s
    | none => s)

/-- JOIN_RETRY: a device not yet a member 1 s after its exchange starts a new one. -/
def execJoinRetry (s : State) : Host.Outcome State Fault Refusal :=
  .next (
    if s.mortar.stt = .joining ∧ s.mortar.joinAt + second ≤ s.time.mono ∧ s.mortar.activeUp.isSome then s.startJoin else s)

/-- DUPLICATE_ID_ALARM_END: EV0791 deasserts 10 s after the REQ. -/
def execDuplicateIdAlarmEnd (s : State) : Host.Outcome State Fault Refusal :=
  .next (
    match s.mortar.dupUntil with
    | some t => if t ≤ s.time.mono then ({ s with mortar.dupUntil := none }).level 791 false else s
    | none => s)

/-! ### BELOW (R355) -/

/-- The devices this device announces: itself and those below its lanes other than the active upstream, ascending. -/
def State.belowIds (s : State) : List Nat :=
  ((List.range 4).filter fun m => s.mortar.activeUp != some m && (s.lane m).up).foldl
    (fun l m => (s.lane m).below.foldl (fun l d => insertSorted d l) l) [s.kiln.devId]

/-- BELOW_SEND: parts of up to 260 IDs under one SEQ. -/
def execBelowSend (s : State) : Host.Outcome State Fault Refusal :=
  .next (
    match s.mortar.stt, s.mortar.activeUp with
    | .member, some m =>
      let ids := s.belowIds
      let seq := (s.mortar.belowSeq + 1) % 65536
      let n := ceilDiv ids.length 260
      (List.range n).foldl (fun (s : State) i => s.laneSend m (.below seq i (i + 1 == n) ((ids.drop (260 * i)).take 260)))
        { s with mortar.belowSeq := seq }
    | _, _ => s)

/-- The parts of an announcement in order, when all are there. -/
def belowWhole (l : List (Nat × Bool × List Nat)) : Nat → Nat → Option (List Nat)
  | 0, _ => none
  | n + 1, i =>
    match l.find? (·.1 == i) with
    | some (_, last, ids) => if last then some ids else (belowWhole l n (i + 1)).map fun t => ids ++ t
    | none => none

/-- BELOW_RECEIVE: a complete announcement replaces the lane's below-set; a device that moved here increments the root's epoch (R361). -/
def execBelowReceive (m : Fin 4) (b : BelowPart) (s : State) : Host.Outcome State Fault Refusal :=
  .next (
    let x := s.lane m
    let newer : Bool := match x.belowSeq with | some q => decide (0 < (b.seq + 65536 - q) % 65536 ∧ (b.seq + 65536 - q) % 65536 < 32768) | none => true
    let same := x.belowSeq == some b.seq
    if !x.up ∨ !(newer || same) then s
    else
      let parts := (if newer then [] else x.belowParts.filter (·.1 != b.part)) ++ [(b.part, b.last, b.ids)]
      match belowWhole parts 4 0 with
      | none => s.modLane m fun x => { x with belowSeq := some b.seq, belowParts := parts }
      | some ids =>
        let moved := s.isRoot && ids.any fun d => !x.below.contains d && s.devMember d
          && (List.range 4).any fun n => n != m.val && (s.lane n).below.contains d
        let s := s.modLane m fun x => { x with belowSeq := some b.seq, belowParts := parts, below := ids }
        if moved then s.incEpoch else s)

/-! ### Departures (R362) -/

/-- Every record of a leaf becomes ORPHANED; a LOCKED one stays LOCKED (R310). EV0848 carries the device and the count. -/
def State.orphan (s : State) (d : Nat) : State :=
  let l := s.ledger.recs.filter fun r => r.2.leaf == d && (r.2.state == 2 || r.2.state == 3)
  (l.foldl (fun (s : State) r => s.modRec_ r.1 fun x => { x with state := 4 }) s).pulse 848 (Config.pairData d l.length)

/-- Has the root a path to a device: a member at the other end of a lane, or announced below one? -/
def State.pathTo (s : State) (d : Nat) : Bool := (List.range 4).any fun m => (s.lane m).up && ((s.lane m).below.contains d || ((s.lane m).peerId == d && (s.lane m).peerFlags.testBit 0))

/-- A device leaves the system. -/
def State.depart (s : State) (d : Nat) : State :=
  let s := s.incEpoch
  ((s.modDev d fun e => { e with state := 2, departedAt := s.time.mono, epoch := s.mortar.epoch }).pulse 789 d).standbyCheck

/-- DEVICE_LEAVE (R362): LEAVE_MS without a path from the root. -/
def execDeviceLeave (d : Fin 1023) (ms : Nat) (s : State) : Host.Outcome State Fault Refusal :=
  .next (if s.isRoot ∧ s.devMember d ∧ !s.pathTo d ∧ s.key (kMortar 3) ≤ ms then s.depart d else s)

/-- LEAF_ORPHAN (R362): ORPHAN_S after a leaf's departure. -/
def execLeafOrphan (d : Fin 1023) (s : State) : Host.Outcome State Fault Refusal :=
  .next (
    match Tbl.get none s.mortar.table d with
    | some e =>
      if s.isRoot ∧ e.state = 2 ∧ e.role = 0 ∧ e.departedAt + s.key (kMortar 4) * second ≤ s.time.mono then
        (s.modDev d fun e => { e with state := 3 }).orphan d
      else s
    | none => s)

/-- DEVICE_PROVISION (R359). -/
def deviceProvisionBody : Body := fixedBody 56 [(3, 5)] fun c p s =>
  let b := p.params
  let d := fld b 0 2
  if 1022 < d then (s, .reply (Res.field 32))
  else if 4 < fld b 2 1 then (s, .reply (Res.field 34))
  else if (Tbl.get none s.mortar.table d).isSome then (s, .reply (Res.err stBusy 0))
  else if s.store.ro.contains 2 then (s, .reply (Res.err stFault 0))
  else match Config.keyUnwrap c.key (slice b 16 40) with
  | none => (s, .reply (Res.field 48))
  | some k =>
    let e : DevEntry := { role := fld b 2 1, identity := fld b 8 8, key := fitBytes 32 k, epoch := s.mortar.epoch }
    ({ s with mortar.table := Tbl.set none s.mortar.table d (some e) }, .reply Res.ok)

def execDeviceProvision (p : Packet) (s : State) : Host.Outcome State Fault Refusal := .next (command 0x0B03 deviceProvisionBody p s)

/-- DEVICE_REMOVE (R362): the device leaves at once, its meters are orphaned, its entry and what waited for it go. -/
def deviceRemoveBody : Body := fixedBody 8 [(2, 6)] fun _ p s =>
  let d := fld p.params 0 2
  match Tbl.get none s.mortar.table d with
  | none => (s, .reply (Res.field 32))
  | some e =>
    let s := if e.state = 1 then s.depart d else s
    let s := if e.role = 0 ∧ e.state ≠ 3 then s.orphan d else s
    (({ s with mortar.table := Tbl.set none s.mortar.table d none, mortar.offers := Tbl.set none s.mortar.offers d none,
               ledger.downQ := s.ledger.downQ.filter fun x => x.1 ≠ d }).standbyCheck, .reply Res.ok)

def execDeviceRemove (p : Packet) (s : State) : Host.Outcome State Fault Refusal := .next (command 0x0B04 deviceRemoveBody p s)

/-! ### The root pair (R366 to R369) -/

/-- ROOT_HEARTBEAT (R366). -/
def execRootHeartbeat (s : State) : Host.Outcome State Fault Refusal :=
  .next (if s.isRoot then { s with mortar.rootSeq := (s.mortar.rootSeq + 1) % 2 ^ 32 } else s)

/-- A lane whose partner is the former root, now FENCED: the handover of R369. -/
def State.handedOver (s : State) : Bool :=
  (List.range 4).any fun m => (s.lane m).up && (s.lane m).peerId == s.key (kMortar 0) && (s.lane m).peerFlags.testBit 2

/-- ROOT_TAKEOVER (R367): after 20 ms of silence, or a handover, the standby's running role becomes ROOT. -/
def execRootTakeover (silentMs : Nat) (s : State) : Host.Outcome State Fault Refusal :=
  .next (
    if s.kiln.role ≠ .standbyRoot ∨ !s.kiln.ph.k6Open ∨ !(20 ≤ silentMs ∨ s.handedOver) then s
    else
      let s := s.level 795 true
      let s := { s with kiln.role := .root, mortar.stt := .root, mortar.takeover := true, mortar.hops := 0, mortar.activeUp := none,
                        mortar.rootId := s.kiln.devId, ledger.mirrored := s.ledger.logSeq }
      let s := (s.incEpoch.loseSource 1).standbyCheck
      s.pulse 796)

/-- Hand the root role over (R369): at once when the standby has acknowledged every MIRROR pallet. -/
def State.handOver (s : State) (q : Option Nat) : State := ({ s with mortar.handover := some q }).tryHandover

/-- ROOT_HANDOVER (R369). -/
def rootHandoverBody : Body := fixedBody 0 [] fun _ p s =>
  if !s.standbyLinked then (s, .reply (Res.err stUnreachable 0))
  else if s.ledger.mirrorWait.isEmpty then (s.handOver none, .reply Res.ok)
  else (s.handOver (some (queueId p.bay p.queue)), .hold .handover)

def execRootHandover (p : Packet) (s : State) : Host.Outcome State Fault Refusal := .next (command 0x0B05 rootHandoverBody p s)

/-- ROOT_CUT_HANDOVER (R368): for 20 ms only the standby is in reach, and it reaches others. -/
def execRootCutHandover (cutMs : Nat) (s : State) : Host.Outcome State Fault Refusal :=
  .next (
    let reaches := (List.range 4).any fun m => (s.lane m).up && (s.lane m).peerId == s.partner && (s.lane m).peerFlags.testBit 3
    if s.isRoot ∧ 20 ≤ cutMs ∧ !s.reachOthers ∧ reaches ∧ s.mortar.handover.isNone then s.handOver none else s)

/-! ### Status (R371, R372) -/

def MState.code : MState → Nat
  | .alone => 0 | .joining => 1 | .member => 2 | .root => 3 | .fenced => 4

/-- The 16-byte entry of a lane for a bay. -/
def State.laneEntry (s : State) (bay m : Nat) : Bytes :=
  let x := s.lane m
  let timeOk := decide (4 ≤ (x.exchanges.filter fun t => decide (s.time.mono < t + second)).length)
  let heard := match x.rootHeardAt with | some t => decide (s.time.mono < t + 5000000) | none => false
  let mode := s.laneMode m
  leBytes 4 (bitsNat [x.up, x.polInv, s.key (kLane m 1) == 1, mode.testBit 0, mode.testBit 1, s.mortar.activeUp == some m, timeOk, heard,
      s.asserted (780 + m)] + 65536 * Tbl.get 0 x.retrains bay)
    ++ leBytes 2 x.peerId ++ leBytes 1 x.peerHops ++ zeros 1 ++ leBytes 4 x.linkDelay ++ leBytes 4 x.errors

/-- MORTAR_STATUS: RETRAINS clears for the reading bay. -/
def mortarStatusBody : Body := fixedBody 0 [] fun c _ s =>
  let out := leBytes 2 s.kiln.devId ++ leBytes 1 s.mortar.stt.code ++ leBytes 1 s.mortar.hops ++ leBytes 4 s.mortar.epoch
    ++ leBytes 2 s.mortar.rootId ++ leBytes 1 (s.mortar.activeUp.getD 0xFF) ++ zeros 5 ++ (List.range 4).flatMap (s.laneEntry c.bay)
  ((List.range 4).foldl (fun (s : State) m => s.modLane m fun x => { x with retrains := Tbl.set 0 x.retrains c.bay 0 }) s, .reply (Res.ok out))

def execMortarStatus (p : Packet) (s : State) : Host.Outcome State Fault Refusal := .next (command 0x0B01 mortarStatusBody p s)

/-- An entry of TOPO_READ. No frame brings the root the upstream and hops of a member that is not its neighbour: free values (log 3). -/
def State.topoEntry (s : State) (d : Nat) (e : DevEntry) : Bytes × State :=
  let n := (s.ledger.recs.filter fun r => r.2.state != 0 && r.2.leaf == d).length
  let near := e.activeUp != 0xFFFF || e.state != 1
  let r := s.draw
  let up := if near then e.activeUp else r.1 % 65536
  let hops := if near then e.hops else r.1 / 65536 % 256
  (leBytes 2 d ++ leBytes 1 e.role ++ leBytes 1 e.state ++ leBytes 2 up ++ leBytes 1 hops ++ zeros 1 ++ leBytes 4 e.epoch ++ leBytes 4 n,
   if near then s else r.2)

/-- TOPO_READ. -/
def topoReadBody : Body := fixedBody 8 [(4, 4)] fun _ p s =>
  let from_ := fld p.params 0 2
  let n := fld p.params 2 2
  if n = 0 ∨ 1023 < n then (s, .reply (Res.field 34))
  else
    let l := (s.mortar.table.filterMap fun x => x.2.bind fun e => if from_ ≤ x.1 then some (x.1, e) else none).take n
    let r := l.foldl (fun (a : Bytes × State) x => let e := a.2.topoEntry x.1 x.2; (a.1 ++ e.1, e.2)) ([], s)
    (r.2, .reply (Res.ok r.1))

def execTopoRead (p : Packet) (s : State) : Host.Outcome State Fault Refusal := .next (command 0x0B02 topoReadBody p s)

/-! ### Uplink lanes (R385) -/

/-- An uplink lane runs: a mode, its island on. -/
def State.uplinkOn (s : State) (k : Nat) : Bool := s.key (kUp k 0) != 0 && !s.fault.f4 && Tbl.get 0 s.host.island (90 + k) == 0

/-- UPLINK_LINK_CHANGE: READY follows the link, EV0784 and EV0785 its absence. -/
def execUplinkLinkChange (k : Fin 2) (up : Bool) (s : State) : Host.Outcome State Fault Refusal :=
  .next (
    let on := s.uplinkOn k && up && s.kiln.ph.k6Open
    (s.setReady (34 + k) on).level (784 + k) (s.key (kUp k 0) != 0 && !on))

/-- ARP_REQUEST: for the lane's own IPv4 address. -/
def execArpRequest (k : Fin 2) (ip : Nat) (s : State) : Host.Outcome State Fault Refusal :=
  .next (
    if s.ready (34 + k) ∧ ip ≠ 0 ∧ ip = s.key (kUp k 1) then { s with host.net := .arp k ip (Config.macAddr k) :: s.host.net } else s)

/-- An IPv6 address of a lane: its global one, or its link-local one. -/
def State.ip6Mine (s : State) (k ip : Nat) : Bool := (ip == s.key (kUp k 4) && ip != 0) || ip == Config.linkLocal k

/-- ND_SOLICIT. -/
def execNdSolicit (k : Fin 2) (ip : Nat) (s : State) : Host.Outcome State Fault Refusal :=
  .next (if s.ready (34 + k) ∧ s.ip6Mine k ip then { s with host.net := .neighbour k ip (Config.macAddr k) :: s.host.net } else s)

/-- ICMP_ECHO. -/
def execIcmpEcho (k : Fin 2) (ip : Nat) (data : Bytes) (s : State) : Host.Outcome State Fault Refusal :=
  .next (
    if s.ready (34 + k) ∧ ((ip ≠ 0 ∧ ip = s.key (kUp k 1)) ∨ s.ip6Mine k ip) then { s with host.net := .echo k ip data :: s.host.net } else s)

/-- IP_REASSEMBLY_TIMEOUT: a datagram not complete within 2 s is dropped. -/
def execIpReassemblyTimeout (id : Nat) (s : State) : Host.Outcome State Fault Refusal :=
  .next { s with host.reasm := s.host.reasm.filter fun x => !(x.1 = id ∧ x.2 + 2 * second ≤ s.time.mono) }

end Sys2Proof.Machine
end

