-- ==== Sys2Proof/Machine/Restart.lean ====
section
/-! DEFINITION. What a stop leaves and a start brings back: the durable content of MRAM, flash and the backup domain (R24, R133, R174,
R225, R442, R470), the state save (R469), and the restores of kiln phase K2. -/

namespace Sys2Proof.Machine

/-! ### What survives a stop -/

/-- Put a report for kiln phase K6 (R481); one of a source replaces an earlier one that has not pulsed. -/
def State.report (s : State) (src data : Nat) : State :=
  { s with kiln.reports := s.kiln.reports.filter (fun r => r.1 != src) ++ [(src, data)] }

/-- The reports of the stop before are replaced (R471, R477). -/
def State.dropReports (s : State) : State :=
  { s with kiln.reports := s.kiln.reports.filter fun r => r.1 != 936 && r.1 != 937 && r.1 != 941 }

/-- A pending swap at a stop (R439, log 24): completed when its sample has passed, cancelled otherwise. -/
def State.swapAtStop (s : State) : State :=
  match s.cfg.pend with
  | none => s
  | some w =>
    if w.sample.any (· ≤ s.time.index) && s.time.indexOn then
      let s := s.journalAdd 0x07 0 0 0 [w.gen]
      { s with cfg := { s.cfg with active := s.cfg.shadow, shadow := s.cfg.active, pend := none, lastBoundary := w.boundary,
                                   lastSwapIndex := w.sample.getD 0,
                                   lastSwapTime := if s.time.valid then s.time.ns - (s.time.index - w.sample.getD 0) * 15625 else 0 } }.report 1001 s.cfg.shadow.gen
    else ({ s with cfg.pend := none }).report 1002 (1 + 256 * w.gen)

/-- Billing as MRAM holds it: the values of the checkpoint with the record ring and the transaction numbers of now (R242, R255). -/
def State.billDurable (s : State) : Tbl BillMp :=
  s.bill.mp.foldl (fun t e =>
    Tbl.upd {} t e.1 fun k => { k with ring := e.2.ring, profSeq := e.2.profSeq, txn := e.2.txn }) s.bill.kept

/-- A meter as the leaf's durable table holds it (R271, R470): its identity, address and counters. -/
def LeafMeter.durable (m : LeafMeter) : LeafMeter :=
  { identity := m.identity, present := m.present, robust := m.robust, ctrUp := m.ctrUp, ctrDown := m.ctrDown, sleepy := m.sleepy,
    port := m.port, rank := m.rank, savedEnd := m.savedEnd, lastEnd := m.savedEnd, acked := m.savedEnd, lastFrame := m.lastFrame }

/-- What DRAM does not hold of the ledger (R470). -/
def State.ledgerDurable (s : State) : Ledger :=
  { meter := Tbl.mapV none (fun m => m.map LeafMeter.durable) s.ledger.meter, keys := s.ledger.keys, locked := s.ledger.locked,
    ctrs := s.ledger.ctrs, upSeq := s.ledger.upSeq, downSeq := s.ledger.downSeq, ackSeq := s.ledger.ackSeq, mirrorSeq := s.ledger.mirrorSeq }

/-- Everything but durable content is lost; `s` is the state at the stop.  Records of the PQ log that a stop without a state save leaves OPEN stay OPEN, of which the
spec says nothing (log 67). -/
def State.stopped (s : State) (vinLost : Bool) : State :=
  let s := s.swapAtStop
  let running := s.kiln.ph.started
  { pending := s.pending
    freeCount := s.freeCount
    time := { mono := s.time.mono, utcOfs := s.time.utcOfs, savedErr := s.time.savedErr, savedNs := s.time.savedNs,
              log := s.time.log, logSeq := s.time.logSeq }
    rtc := { s.rtc with rewrite := false }
    pq := { log := s.pq.log, seq := s.pq.seq }
    acc := { kept := s.acc.kept, keptBySave := s.acc.keptBySave }
    tiles := { avKept := s.tiles.avKept }
    aux := { calCount := s.aux.calCount, calLast := s.aux.calLast }
    bill := { kept := s.billDurable, active := s.bill.active, passive := s.bill.passive, actAt := s.bill.actAt, resetAt := s.bill.resetAt,
              stored := s.bill.stored, lcv := s.bill.lcv, legal := s.bill.legal, credits := s.bill.credits, older := s.bill.older }
    plc := { bcastCtr := s.plc.bcastCtr, bcastKey := s.plc.bcastKey, bcastNext := s.plc.bcastNext, quar := s.plc.quar }
    radio := { keyIndex := s.radio.keyIndex, keys := s.radio.keys, keyNew := s.radio.keyNew, txCtr := s.radio.txCtr, neighSaved := s.radio.neighSaved }
    ledger := s.ledgerDurable
    mortar := { table := Tbl.mapV none (fun d => d.map fun d => { role := d.role, key := d.key, identity := d.identity }) s.mortar.table,
                mySeq := s.mortar.mySeq, cmdSeq := s.mortar.cmdSeq, palletKeyOk := s.mortar.palletKeyOk }
    host := { ident := s.host.ident, qos := s.host.qos }
    cfg := s.cfg
    store := { s.store with eccCorrected := [], eccUncorrected := [], lastCorrected := [], dramCorrected := [], flashPresent := false,
                            flashOctal := false, flashMib := 0, trialRun := false, eraseSuspended := none, foundIndeterminate := 0 }
    power := { supply := s.power.supply, vin := s.power.vin, pgood := s.power.pgood, pf := s.power.pf, pfExtLow := s.power.pfExtLow,
               vinNearPf := s.power.vinNearPf, vinHigh := s.power.vinHigh, saveOkLast := s.power.saveOkLast,
               saveCutLast := s.power.saveCutLast, saveCause := s.power.saveCause, reverseSeen := s.power.reverseSeen,
               reversePulse := s.power.reversePulse, railOut := s.power.railOut, resetLow := s.power.resetLow,
               stopped := if running then some (vinLost, if s.time.valid then some s.time.ns else none) else s.power.stopped }
    kiln := { startCount := s.kiln.startCount, reports := s.kiln.reports }
    fault := { dumpSeq := s.fault.dumpSeq, flash := s.fault.flash, flashDirty := s.fault.flashDirty } }

/-! ### The state save (R469) -/

/-- Step 2: at s_pf, the present boundary (log 19), intervals, windows and PQ records close. -/
def State.saveClose (s : State) : State :=
  let ks := s.cfg.active
  let s := (s.pushEnds s.time.index 0x10 0 true false).settleAll
  let s := (enabledVsets ks).foldl (fun (s : State) v =>
    let s := match (s.vs v).win with | some w => if w.start.u < s.cutBnd.u then s.closeWindow v s.cutBnd true [] else s | none => s
    s.pqClose v 0x10) s
  s

/-- Step 4: what is written to MRAM. -/
def State.saveWrite (s : State) : State :=
  if !s.writable 2 then s else
  let s := s.checkpoint
  { s with acc.keptBySave := true, time.savedErr := s.estError, time.savedNs := s.stampNs, radio.neighSaved := s.radio.neigh,
           ledger.meter := Tbl.mapV none (fun m => m.map fun (m : LeafMeter) => { m with savedEnd := m.acked }) s.ledger.meter }

/-- TOTAL of a dump (R505): the header block and its sections. -/
def Dump.total (d : Dump) : Nat := d.sections.foldl (fun n x => n + x.len) 4096

/-- The sectors of the dump partition a dump occupies; a retired one is skipped (R453). -/
def State.dumpSpan (s : State) (d : Dump) : List Nat :=
  (dumpSectors.filter fun y => !s.store.flashRetired.contains y).take (ceilDiv d.total sectorSize)

/-- A flash copy in progress stops at a power-fail decision (R504): it has no valid header, and its sectors are not erased.  How many
bytes it had written is a free value (log 3). -/
def State.cutCopy (s : State) : State :=
  match s.fault.flashCopy with
  | some d =>
    let x := s.draw
    let n := x.1 % d.total
    ({ x.2 with fault.flashCopy := none, fault.dumpBusy := false, fault.flashDirty := s.dumpSpan d }).pulse 1017 n
  | none => s

/-- What SUPPLY_STATUS says of the latest save (R475). -/
def State.saveResult (s : State) (done cut : Bool) : State := { s with power.saveOkLast := done, power.saveCutLast := cut }

/-- SAVED: PF_N stays low until the restart (R471). -/
def State.enterSaved (s : State) (vinLost : Bool) : State :=
  { s.stopped vinLost with power.supply := .saved, power.pgood := false, pins.pfN := .low }

/-- The save was cut short: the rails are gone (R470). -/
def State.saveCutOff (s : State) : State := { s.stopped true with power.supply := .off, power.pgood := false, power.pf := false }

/-- What is saved of a running device; before sample index 0 only the time. -/
def State.saveAll (s : State) : State :=
  if s.time.indexOn then s.saveClose.saveWrite else { s with time.savedErr := s.estError, time.savedNs := s.stampNs }

/-- The decision itself: PF, its cause, a flash copy in progress stops. -/
def State.pfBegin (s : State) (cause : Nat) : State := ({ s with power.pf := true, power.saveCause := cause }).cutCopy.dropReports

/-- The power-fail decision (R468, R469, R477): the save runs to its end, or the lockout cuts it; in K0 and K1 there is nothing to save. -/
def State.powerFail (s : State) (cause : Nat) (completes : Bool) : State :=
  let s := s.pfBegin cause
  if !s.kiln.ph.k2Open then (s.saveResult false false).enterSaved (cause == 0)
  else if completes then ((s.saveAll.saveResult true false).report 936 cause).enterSaved (cause == 0)
  else (((if s.time.indexOn then s.saveClose else s).saveResult false true).report 937 0).saveCutOff

/-! ### Restores of K2 (R133, R174, R197, R225, R255, R296) -/

/-- Billing comes back: running values start afresh; CREDIT records after a checkpoint are applied again (R255). -/
def State.billRestore (s : State) (checkpoint : Bool) : State :=
  let s := { s with bill.mp := Tbl.mapV {} (fun b : BillMp =>
    { b with subE := (0, 0), subFrom := 0, hist := [], profFrom := 0, profBase := [], profStatus := 0, deferred := false }) s.bill.kept }
  let s := if checkpoint then s.bill.credits.foldl (fun (s : State) c =>
      (s.modBmp c.1 fun b => { b with credit := b.credit + c.2.2,
                                      txn := if b.txn.contains c.2.1 then b.txn else (c.2.1 :: b.txn).take 64 })) s
    else s
  { s with bill.credits := [] }

/-- Everything that MRAM kept (R133, R174, R296, R397). -/
def State.restore (s : State) : State :=
  let cp := !s.acc.keptBySave
  let s := (s.accRestore cp).billRestore cp
  { s with tiles.av := { s.tiles.avKept with restored := cp }, kiln.restored := cp, radio.neigh := s.radio.neighSaved }

/-- The per-meter ENDs a leaf polls from after a start (R470). -/
def State.repoll (s : State) : State := if s.kiln.role = .leaf ∧ s.time.valid then s.startCatchUp else s

/-- System time from the RTC (R225): valid when RTC_VALID, in holdover; the prescaler's fraction is a free value (log 3), and the time that passed unpowered
counts as elapsed time. -/
def State.timeFromRtc (s : State) : State :=
  let s := s.srcLevels
  if s.rtc.rtcValid && !s.rtc.halted then
    let f := s.draw
    let s := { f.2 with rtc.prescaler := f.1 % second }
    let ns := ((s.rtc.toSec * second + s.rtc.prescaler : Nat) + s.time.utcOfs * (second : Nat) : Int).toNat
    let out := ns - s.time.savedNs
    let s := { s with time.ns := ns, time.valid := true, time.fromRtc := true,
                      time.mono := s.time.mono + (if s.time.savedNs = 0 then 0 else out) }
    let s := s.enterHoldover (s.time.savedErr + 2 * out / 1000000 + 31000)
    { s with bill.day := s.localDay }
  else s.level 904 true

end Sys2Proof.Machine
end

