-- ==== Sys2Proof/Machine/Faults.lean ====
section
/-! DEFINITION. Faults, recovery and the state dump (20): entry into F4 and its outputs (R502, R503), the F3 restart (R496, R500), the wardens
(R497, R498), the seal core (R499), the dump areas (R504 to R506) and the two dump opcodes (R419, R420). -/

namespace Sys2Proof.Machine

/-- Does a stamp (system time, sample index) lie within 3,600 s: of system time, or within 230,400,000 sample indexes while time is invalid
(R496; R498 and R499 are read the same way)? -/
def State.withinHour (s : State) (x : Nat × Nat) : Bool :=
  if s.time.valid then decide (s.time.ns ≤ x.1 + 3600 * second) else decide (s.time.index ≤ x.2 + 230400000)

/-! ### Dump content (R505, R506) -/

/-- Does the ledger-queue section exist: not in ANALYSER, and only with its region usable (R487, R506)? -/
def State.ledgerQueues (s : State) : Bool :=
  s.kiln.role != .analyser && (List.range 8).all fun i => s.kiln.slices.getLsbD (20 + i)

/-- The sections of a dump, in the order of R506, at their sizes. -/
def State.dumpSections (s : State) : List DumpSec :=
  let one (t sc u n : Nat) : DumpSec := ⟨t, sc, u, n⟩
  [one 1 1 0 0x2000, one 2 1 0 0x10000, one 2 1 1 0x10000, one 3 1 0 0x400000, one 3 1 1 0x400000]
    ++ ((List.range 7).map fun i => one 4 1 (i + 1) 0x20000)
    ++ [one 5 1 0 0x20000, one 6 1 0 0x10000, one 7 1 0 (if s.ledgerQueues then 0x1000000 else 0), one 8 0 0 0x40000,
        one 9 0 0 0x40000, one 10 1 0 0x40000, one 11 1 0 0x1000]

/-- A dump decided now; its SEQ counts it. -/
def State.newDump (s : State) (cls cause : Nat) (flashOnly : Bool) : Dump :=
  { cls := cls, cause := cause, seq := s.fault.dumpSeq + 1, index := s.time.index, time := s.stampNs, timeInvalid := !s.time.valid,
    flashOnly := flashOnly, sections := s.dumpSections }

/-- Byte offset of section `i` in a dump. -/
def Dump.offset (d : Dump) (i : Nat) : Nat := (d.sections.take i).foldl (fun n x => n + x.len) 4096

/-- The content of section `i`. -/
def Dump.secBytes (d : Dump) (i : Nat) : Bytes :=
  (List.range ((d.sections.getD i ⟨0, 0, 0, 0⟩).len)).map (Config.dumpByte d.seq i)

/-- The 4 KiB header block (R505). -/
def Dump.header (d : Dump) : Bytes :=
  let h := leBytes 4 0x504D5544 ++ leBytes 2 1 ++ leBytes 1 d.cls ++ leBytes 1 d.cause ++ leBytes 8 d.seq ++ leBytes 8 d.index
    ++ leBytes 8 d.time ++ leBytes 4 d.total ++ leBytes 2 d.sections.length ++ leBytes 2 (bitsNat [d.flashOnly, d.timeInvalid]) ++ zeros 20
  let dir := (List.range d.sections.length).flatMap fun i =>
    let x := d.sections.getD i ⟨0, 0, 0, 0⟩
    leBytes 1 x.type ++ leBytes 1 x.scope ++ leBytes 2 x.unit ++ leBytes 4 (d.offset i) ++ leBytes 4 x.len
      ++ leBytes 4 (if x.type = 7 then 0x6C000000 else 0) ++ zeros 12 ++ leBytes 4 (crc32c (d.secBytes i)).toNat
  fitBytes 4096 (h ++ leBytes 4 (crc32c h).toNat ++ dir)

/-- One byte of a dump as a bay reads it: a section of SCOPE 0 reads as 0 from B1 (R420). -/
def Dump.byteFor (d : Dump) (bay o : Nat) : Byte :=
  if o < 4096 then (d.header).getD o 0
  else match (List.range d.sections.length).find? fun i => d.offset i ≤ o && o < d.offset i + (d.sections.getD i ⟨0, 0, 0, 0⟩).len with
  | some i => if (d.sections.getD i ⟨0, 0, 0, 0⟩).scope = 0 ∧ bay ≠ 0 then 0 else Config.dumpByte d.seq i (o - d.offset i)
  | none => 0

/-! ### The flash copy (R504) -/

/-- The partition is clear: no valid header, every sector erased. -/
def State.dumpClear (s : State) : Bool := s.flashUsable && s.fault.flash.isNone && s.fault.flashDirty.isEmpty && s.fault.flashCopy.isNone

/-- May a flash copy start now: no power-fail decision, VIN at least PF_LEVEL + 1.00 V? -/
def State.copyPower (s : State) : Bool := !s.power.pf && decide (10 * s.key (kPwr 0) + 1000 ≤ s.power.vin)

/-- Order the flash copy of a dump: it starts at once, or waits for the input. -/
def State.orderCopy (s : State) (d : Dump) : State :=
  if !s.dumpClear then s
  else if s.copyPower then { s with fault.flashCopy := some d, fault.flashWait := none, fault.dumpBusy := true }
  else { s with fault.flashWait := some d }

/-- A copy that waits starts when the input allows it. -/
def State.resumeCopy (s : State) : State :=
  match s.fault.flashWait with
  | some d => if s.dumpClear && s.copyPower then s.orderCopy d else s
  | none => s

/-! ### F4 (R502, R503) -/

/-- The outputs of F4: FAULT_N and PPS_OUT low, radio resets low and selects high; pulse outputs at their inactive level where
accumulation does not run. -/
def State.f4Outputs (s : State) : State :=
  let s := { s with pins.faultN := .low, pins.ppsOut := false, time.ppsHigh := false,
                    pins.rpRstN := Tbl.set false (Tbl.set false s.pins.rpRstN 0 false) 1 false,
                    pins.rpCsN := Tbl.set false (Tbl.set false s.pins.rpCsN 0 true) 1 true }
  if s.fault.sealOk || s.fault.sealRestart || !s.kiln.ph.k3Open then s
  else (List.range 16).foldl (fun (s : State) p => s.drivePulse p false) s

/-- Transmitters go off: lanes lose their partners, uplinks their links, the meter-facing ports stop. -/
def State.f4Links (s : State) : State :=
  if !s.kiln.ph.k6Open then s
  else
    let s := (List.range 4).foldl (fun (s : State) m => if s.laneMode m != 0 then s.laneStop m else s) s
    let s := [0, 1].foldl (fun (s : State) k => (s.setReady (34 + k) false).level (784 + k) (s.key (kUp k 0) != 0)) s
    let s := if s.kiln.role = .leaf then s.plcStop else s
    [0, 1].foldl (fun (s : State) p => s.modRport p fun x => { x with running := false, awaits := none }) s

/-- Enter F4 with a cause (R502); an F4 that only a window caused ends with the window unless another cause comes. -/
def State.enterF4 (s : State) (cause : Nat) (window : Bool := false) : State :=
  let s := s.setCause cause
  if s.fault.f4 then { s with fault.f4Window := s.fault.f4Window && window }
  else
    let s := { s with fault.f4 := true, fault.f4Window := window, fault.f3 := none, fault.f3Halted := false, fault.f3Dump := none,
                      fault.f3Written := false, fault.dumpBusy := s.fault.flashCopy.isSome }
    let s := ((s.level 1011 true cause).f4Links).f4Outputs
    if 1 ≤ s.wardensUp ∧ cause ≠ 0x07 ∧ s.fault.flashCopy.isNone then
      ({ s with fault.dumpSeq := s.fault.dumpSeq + 1 }).orderCopy (s.newDump 4 cause true)
    else s

/-- Leave an F4 entered under R482. -/
def State.leaveF4 (s : State) : State :=
  if s.fault.f4 ∧ s.fault.f4Window then
    ({ s with fault.f4 := false, fault.f4Window := false, pins.faultN := .hiZ }).level 1011 false
  else s

/-! ### F3 (R496, R500) -/

/-- Commands of B1 to B7 end without a reply and their sessions end (R401, R500). -/
def State.dropTenants (s : State) : State :=
  (List.range 7).foldl (fun (s : State) i =>
    let b := i + 1
    let s := (List.range 16).foldl (fun (s : State) q => (s.setQueue (queueId b q) []).setBusy (queueId b q) none) s
    s.endBaySessions b) s

/-- An F3 is decided (R496): the third within 3,600 s is F4; else both pairs halt and the dump is ordered, unless one is being written
(R510). -/
def State.decideF3 (s : State) (pair cause : Nat) : State :=
  if !s.kiln.ph.k1 || s.kiln.halted || s.fault.f4 || s.fault.f3.isSome || s.wardensUp < 2 || !s.fault.pairOk.getLsbD pair then s
  else
    let recent := s.fault.f3Times.filter s.withinHour
    let s := { s with fault.f3Times := (s.time.ns, s.time.index) :: recent }
    if 2 ≤ recent.length then (s.setCause cause).enterF4 0x0B
    else
      let usable := s.ready 24 && s.kiln.slices.getLsbD 55
      let s := (s.setCause cause).dropTenants
      if s.fault.dumpBusy then { s with fault.f3 := some cause, fault.f3Halted := true }
      else { s with fault.f3 := some cause, fault.f3Halted := true, fault.f3Dump := some (s.newDump 3 cause (!usable)),
                    fault.dumpSeq := s.fault.dumpSeq + 1, fault.dumpBusy := true }

/-- CC_LOCKSTEP_MISMATCH (R496): causes 0x01, 0x03 and 0x04. -/
def execCcLockstepMismatch (pair : Fin 2) (cause : Fin 3) (s : State) : Host.Outcome State Fault Refusal :=
  .next (s.decideF3 pair (match cause with | 0 => 1 | 1 => 3 | 2 => 4))

/-- CC_HEARTBEAT_MISSING (R496): none from a pair for 10 ms. -/
def execCcHeartbeatMissing (pair : Fin 2) (ms : Nat) (s : State) : Host.Outcome State Fault Refusal :=
  .next (if 10 ≤ ms then s.decideF3 pair 2 else s)

/-- F3_DUMP_WRITTEN (R500 steps 3 and 4). -/
def execF3DumpWritten (s : State) : Host.Outcome State Fault Refusal :=
  .next (if s.fault.f3.isSome then { s with fault.f3Written := true } else s)

/-- The dump of the F3 that ends now stands in the DRAM dump area, where that is usable. -/
def State.f3Stored (s : State) : State :=
  match s.fault.f3Dump with
  | some d => if d.flashOnly then s else { s with fault.dram := some d }
  | none => s

/-- Pairs set aside (R500): EV1015 with the mask, F2 for each new one. -/
def State.asidePairs (s : State) (ok : List Bool) : State :=
  (List.range 2).foldl (fun (s : State) i =>
    if s.fault.pairOk.getLsbD i && !ok.getD i false then
      let m := s.fault.pairAside ||| (1#2 <<< i)
      ({ s with fault.pairOk := s.fault.pairOk &&& ~~~ (1#2 <<< i), fault.pairAside := m }.level 1015 true m.toNat).f2 0
    else s) s

/-- F3_PAIRS_RUNNING (R500 step 5): `ok` are the pairs whose SRAM and resident image passed.  Both lost is F4. -/
def execF3PairsRunning (ok : List Bool) (s : State) : Host.Outcome State Fault Refusal :=
  .next (match s.fault.f3 with
    | none => s
    | some cause =>
      if !s.fault.f3Written then s
      else
        let d := s.fault.f3Dump
        let s := (s.asidePairs ok).f3Stored
        if s.fault.pairOk = 0 then s.enterF4 0x08
        else
          let s := { s with fault.f3 := none, fault.f3Halted := false, fault.f3Dump := none, fault.f3Written := false,
                            fault.dumpBusy := s.fault.flashCopy.isSome }
          let s := (s.modAllWin fun w => { w with f3Count := min 255 (w.f3Count + 1) }).pulse 1010 cause
          match d with
          | some d => (if d.flashOnly then s else s.pulse 1016 (d.total * 2 ^ 32)).orderCopy d
          | none => s)

/-! ### The dump areas (R504) -/

/-- FLASH_DUMP_COPY_DONE: the header is written last. -/
def execFlashDumpCopyDone (s : State) : Host.Outcome State Fault Refusal :=
  .next (match s.fault.flashCopy with
    | some d =>
      (({ s with fault.flash := some d, fault.flashCopy := none, fault.dumpBusy := false }).programFlash 0x04000000 d.total).pulse 1016
        (1 + d.total * 2 ^ 32)
    | none => s)

/-- The erase of a dirty sector starts (R451). -/
def State.startErase (s : State) (x : Nat) : State :=
  ({ s with store.eraseOpen := x :: s.store.eraseOpen }).journalAdd 0x01 1 (sectorSize * x) sectorSize []

/-- An erase in progress ends: ERASE_DONE names its ERASE_START. -/
def State.endErase (s : State) (x : Nat) : State :=
  let n := ((s.store.journal.find? fun r => r.type == 1 && r.address == sectorSize * x).map (·.seq)).getD 0
  let s := s.journalAdd 0x02 1 (sectorSize * x) sectorSize [n]
  { s with store.eraseOpen := s.store.eraseOpen.filter (· != x), store.indeterminate := s.store.indeterminate.filter (· != x),
           store.eraseSuspended := s.store.eraseSuspended.filter (· != x) }

/-- DUMP_PARTITION_ERASE (R504): a sector of the partition that holds no valid dump is erased; an erase that DIAG_DUMP_CLEAR ordered goes on
with the next sector, one of low priority waits for K6. -/
def execDumpPartitionErase (sector : Nat) (s : State) : Host.Outcome State Fault Refusal :=
  .next (
    if !s.fault.flashDirty.contains sector || !s.flashUsable || s.store.eraseSuspended == some sector then s
    else if s.store.eraseOpen.contains sector then
      let s := s.endErase sector
      let rest := s.fault.flashDirty.filter (· != sector)
      let s := { s with fault.flashDirty := rest }
      match rest.head? with
      | some x => s.startErase x
      | none => s
    else if s.kiln.ph.k6 then { s.eraseSector sector with fault.flashDirty := s.fault.flashDirty.filter (· != sector) }
    else s)

/-- The bytes asked for move inline or through a descriptor of DIR 1. -/
def dumpAnswer (p : Packet) (bs : Bytes) : Res := if p.isBulk then { Res.ok with bulk := bs } else Res.ok bs

/-- Bytes a dump read may return: its descriptor's length, or 65,520 inline (R420). -/
def dumpRoom (p : Packet) : Nat := match p.desc with | some d => d.length | none => 65520

/-- DIAG_DUMP_READ (R420); a read of the flash dump suspends an erase (R456). -/
def diagDumpReadBody : Body := fun c p s =>
  let b := p.inline
  let src := fld b 0 1
  let len := fld b 4 4
  let ofs := fld b 8 4
  let room := dumpRoom p
  if p.isBulk && !descOk (some 1) p then (s, .reply (Res.field p.params.length))
  else if b.length ≠ 16 then (s, .reply (Res.err stBadParam subLength 12))
  else if !allZero b 1 3 then (s, .reply (Res.reserved 33))
  else if !allZero b 12 4 then (s, .reply (Res.reserved 44))
  else if 1 < src then (s, .reply (Res.field 32))
  else if len % 8 ≠ 0 ∨ room < len then (s, .reply (Res.field 36))
  else if ofs % 8 ≠ 0 then (s, .reply (Res.field 40))
  else if s.fault.dumpBusy then (s, .reply (Res.err stBusy 0))
  else match if src = 0 then s.fault.dram else s.fault.flash with
  | none => (s, .reply (Res.field 40))
  | some d =>
    if d.total ≤ ofs then (s, .reply (Res.field 40))
    else if d.total < ofs + len then (s, .reply (Res.field 36))
    else
      let s := if src = 1 ∧ !s.store.eraseOpen.isEmpty then { s with store.eraseSuspended := s.store.eraseOpen.head? } else s
      (s, .reply (dumpAnswer p ((List.range len).map fun i => d.byteFor c.bay (ofs + i))))

def execDiagDumpRead (p : Packet) (s : State) : Host.Outcome State Fault Refusal := .next (command 0x0E10 diagDumpReadBody p s)

/-- DIAG_DUMP_CLEAR (R419, R504): the dump is superseded; the flash partition's sectors are erased. -/
def diagDumpClearBody : Body := fixedBody 8 [(1, 7)] fun _ p s =>
  let src := fld p.params 0 1
  if 1 < src then (s, .reply (Res.field 32))
  else if s.fault.dumpBusy then (s, .reply (Res.err stBusy 0))
  else if src = 0 then ({ s with fault.dram := none }, .reply Res.ok)
  else match s.fault.flash with
  | none => (s, .reply Res.ok)
  | some d =>
    let l := s.dumpSpan d
    let s := { s with fault.flash := none, fault.flashDirty := l }
    (match l.head? with | some x => s.startErase x | none => s, .reply Res.ok)

def execDiagDumpClear (p : Packet) (s : State) : Host.Outcome State Fault Refusal := .next (command 0x0E11 diagDumpClearBody p s)

/-! ### Vendor service (R419) -/

/-- SERVICE_FUSE_READ: the 256-byte fuse image. -/
def serviceFuseReadBody : Body := fixedBody 0 [] (readBody fun _ _ _ => Res.ok ((List.range 256).map Config.fuseByte))

def execServiceFuseRead (p : Packet) (s : State) : Host.Outcome State Fault Refusal := .next (command 0x0F01 serviceFuseReadBody p s)

/-- SERVICE_TRACE: the trace of the console UART. -/
def serviceTraceBody : Body := fixedBody 8 [(1, 7)] fun _ p s =>
  let v := fld p.params 0 1
  if 1 < v then (s, .reply (Res.field 32)) else ({ s with host.trace := v == 1 }, .reply Res.ok)

def execServiceTrace (p : Packet) (s : State) : Host.Outcome State Fault Refusal := .next (command 0x0F02 serviceTraceBody p s)

/-! ### Wardens (R498) -/

/-- A warden leaves service until the next start: EV1013 with the mask, F1; two at once are F4 by hard logic. -/
def State.wardenLost (s : State) (w : Nat) : State :=
  let m := s.fault.wardenOut ||| (1#3 <<< w)
  let s := { s with fault.wardenOut := m, fault.wardenReset := s.fault.wardenReset &&& ~~~ (1#3 <<< w),
                    ev.level := if s.asserted 1013 then Tbl.set none s.ev.level 1013 (some m.toNat) else s.ev.level }
  let s := (s.level 1013 true m.toNat).f1 0x06
  if s.wardensUp < 2 then s.enterF4 0x07 else s

/-- WARDEN_HEARTBEAT_MISSING (R498): the votes of the two others reset it; where one of them is out or resetting, two wardens are lost
(R510). -/
def execWardenHeartbeatMissing (w : Fin 3) (s : State) : Host.Outcome State Fault Refusal :=
  let able (x : Nat) : Bool := !s.fault.wardenOut.getLsbD x && !s.fault.wardenReset.getLsbD x
  .next (
    if !s.kiln.ph.started || !able w then s
    else if ((List.range 3).filter fun x => x != w.val && able x).length = 2 then
      { s with fault.wardenReset := s.fault.wardenReset ||| (1#3 <<< w.val) }
    else s.enterF4 0x07)

/-- WARDEN_RESET_DONE (R498): EV1012; a failed self-test, or the third reset within 3,600 s, keeps it out of service. -/
def execWardenResetDone (w : Fin 3) (pass : Bool) (s : State) : Host.Outcome State Fault Refusal :=
  .next (
    if !s.fault.wardenReset.getLsbD w then s
    else
      let old := s.fault.wardenTimes.filter fun x => s.withinHour x.2
      let n := (old.filter fun x => x.1 == w.val).length + 1
      let s := { s with fault.wardenReset := s.fault.wardenReset &&& ~~~ (1#3 <<< w.val),
                        fault.wardenTimes := (w.val, s.time.ns, s.time.index) :: old }
      let s := s.pulse 1012 w
      if !pass || 3 ≤ n then s.wardenLost w else s)

/-! ### The seal core (R499) -/

/-- SEAL_LOCKSTEP_MISMATCH: restarted by two votes; sessions of B0 end, F2; a second one within 3,600 s is F4 and the core is lost. -/
def execSealLockstepMismatch (s : State) : Host.Outcome State Fault Refusal :=
  .next (
    if !s.fault.sealOk then s
    else
      let recent := s.fault.sealTimes.filter s.withinHour
      let s := { s with fault.sealOk := false, fault.sealTimes := (s.time.ns, s.time.index) :: recent }
      if !recent.isEmpty then (s.enterF4 0x0C).f4Outputs
      else if s.wardensUp < 2 then s.f4Outputs
      else ({ s with fault.sealRestart := true }.endBaySessions 0).f2 0x05)

/-- SEAL_RESTART_DONE: the core runs again from its resident image. -/
def execSealRestartDone (s : State) : Host.Outcome State Fault Refusal :=
  .next (if s.fault.sealRestart then ({ s with fault.sealRestart := false, fault.sealOk := true }).pulse 1014 else s)

end Sys2Proof.Machine
end

