-- ==== Sys2Proof/Machine/Supplies.lean ====
section
/-! DEFINITION. Supply (18) and islands (R428, R429): lockout, power-fail decision, SAVED, rails, buck limits, thermal levels, island supply
faults, and ISLAND_POWER. -/

namespace Sys2Proof.Machine

/-! ### Input (R457 to R459, R467, R468, R471) -/

/-- PF_LEVEL in mV. -/
def State.pfLevel (s : State) : Nat := 10 * s.key (kPwr 0)

/-- Regulators run: the rails start, or the device runs. -/
def State.powered (s : State) : Bool := s.power.supply == .rails || s.power.supply == .running

/-- VIN_RISE_UVLO (R457): within the range of the rising lockout, K0 starts. -/
def execVinRiseUvlo (mv : Nat) (s : State) : Host.Outcome State Fault Refusal :=
  .next (if s.power.supply = .off ∧ 4300 ≤ mv then { s with power.supply := .rails, power.vin := mv } else s)

/-- UVLO_FALL (R457): every regulator stops; without a completed save the checkpoint rule of R133 holds. -/
def execUvloFall (mv : Nat) (s : State) : Host.Outcome State Fault Refusal :=
  .next (
    if s.power.supply = .off ∨ 4000 < mv then s
    else
      let s := { s with power.vin := mv }
      let s := if s.power.supply = .saved then s
        else { (s.dropReports.stopped true) with power.saveOkLast := false, power.saveCutLast := false }
      { s with power.supply := .off, power.pgood := false, power.pf := false, power.railOut := 0, pins.pfN := .hiZ, pins.pgood := false })

/-- REVERSE_INPUT (R458): below -1.0 V for 1 ms while the backup domain runs on VBAT. -/
def execReverseInput (mv : Int) (ms : Nat) (s : State) : Host.Outcome State Fault Refusal :=
  .next (if s.rtc.onBattery ∧ mv < -1000 ∧ 1 ≤ ms then { s with power.reverseSeen := true, power.reversePulse := true } else s)

/-- VIN_HIGH (R459). -/
def execVinHigh (mv : Nat) (s : State) : Host.Outcome State Fault Refusal :=
  .next (
    if s.power.supply != .running then s
    else { s with power.vin := mv, power.vinHigh := decide (18000 < mv) }.level 939 (decide (18000 < mv)))

/-- VIN_NEAR_PF (R468): VIN in [PF_LEVEL, PF_LEVEL + 1.00 V); above it a flash copy that waits starts (R504). -/
def execVinNearPf (mv : Nat) (s : State) : Host.Outcome State Fault Refusal :=
  .next (
    if s.power.supply != .running then s
    else
      let near := decide (s.pfLevel ≤ mv ∧ mv < s.pfLevel + 1000)
      ({ s with power.vin := mv, power.vinNearPf := near }.level 938 near).resumeCopy)

/-- POWER_FAIL_DECISION (R468, R477): VIN below PF_LEVEL, else overvoltage, for 10 µs. -/
def execPowerFailDecision (c : PowerCause) (completes : Bool) (s : State) : Host.Outcome State Fault Refusal :=
  .next (
    if !s.powered || s.power.pf || c.us < 10 then s
    else
      let s := { s with power.vin := c.mv }
      if c.mv < s.pfLevel then s.powerFail 0 completes else if 19300 < c.mv then s.powerFail 2 completes else s)

/-- PF_N_EXTERNAL_LOW (R468): an external low for 10 µs (0 µs: released) takes the decision with PF_EXT = 1; with VIN low too its cause is
VIN (R477). -/
def execPfNExternalLow (us : Nat) (completes : Bool) (s : State) : Host.Outcome State Fault Refusal :=
  .next (
    let low := decide (10 ≤ us)
    let s := { s with power.pfExtLow := low }
    if low && s.powered && !s.power.pf && s.keyOn (kPwr 2) then s.powerFail (if s.power.vin < s.pfLevel then 0 else 1) completes else s)

/-- THERMAL_SHUTDOWN (R473): at or above 125 °C for 1 ms; with VIN low too its cause is VIN (R477). -/
def execThermalShutdown (maxMilli : Int) (ms : Nat) (completes : Bool) (s : State) : Host.Outcome State Fault Refusal :=
  .next (
    if s.powered && !s.power.pf && decide (125000 ≤ maxMilli ∧ 1 ≤ ms) then s.powerFail (if s.power.vin < s.pfLevel then 0 else 3) completes
    else s)

/-- Has the recovery condition of the save's cause come (R471)? -/
def State.recovered (s : State) (mv : Nat) (tempMilli : Int) : Bool :=
  let vinOk := decide (s.pfLevel + 10 * s.key (kPwr 1) ≤ mv)
  match s.power.saveCause with
  | 0 => vinOk
  | 1 => vinOk && !s.power.pfExtLow
  | 2 => decide (mv ≤ 18500)
  | _ => decide (tempMilli < 95000)

/-- SAVED_RESTART (R471): the condition has held for RESTART_MS; the device restarts from K0. -/
def execSavedRestart (mv : Nat) (tempMilli : Int) (heldMs : Nat) (s : State) : Host.Outcome State Fault Refusal :=
  .next (
    if s.power.supply = .saved ∧ s.key (kPwr 3) ≤ heldMs ∧ s.recovered mv tempMilli then
      { s with power.supply := .rails, power.vin := mv, power.pf := false, pins.pfN := .hiZ }
    else s)

/-! ### Rails (R464, R473) -/

/-- DRAM stops with VDDQ: READY of DRAM-based functions clears until the next start, and what DRAM held is lost. -/
def State.dramStops (s : State) : State :=
  let s := if s.kiln.role = .leaf then s.plcStop else s
  let s := [24, 25, 26, 27, 28, 29].foldl (fun (s : State) i => s.setReady i false) s
  { s with kiln.ph.dramTrained := false, kiln.slices := 0, fault.dram := none, ledger := s.ledgerDurable }

/-- RAIL_OUT_OF_WINDOW (R464): VCORE, VDD2, V1P8 and V3P3 stop the device without a save; VDDQ stops DRAM; AVDD faults the converters and
the power-line receiver. -/
def execRailOutOfWindow (rail : Fin 6) (back : Bool) (s : State) : Host.Outcome State Fault Refusal :=
  let r := rail.val
  .next (
    if !s.powered then s
    else if back then { s with power.railOut := s.power.railOut &&& ~~~ (1#6 <<< r) }.level (942 + r) false
    else
      let s := { s with power.railOut := s.power.railOut ||| (1#6 <<< r) }
      if r < 4 then
        let s := s.dropReports
        let s := { (s.stopped false) with power.supply := .rails, power.pgood := false, power.pf := false, power.saveOkLast := false,
                                          power.saveCutLast := false, pins.pgood := false }
        s.report 941 r
      else
        let s := s.level (942 + r) true
        if !s.kiln.ph.started then s
        else if r = 4 then s.dramStops
        else
          let s := (s.convFails 0).convFails 1
          if s.plcRun then { s with plc.rxFault := true }.level 813 true else s)

/-- BUCK_CURRENT_LIMIT (R464). -/
def execBuckCurrentLimit (b : Fin 4) (on : Bool) (s : State) : Host.Outcome State Fault Refusal :=
  .next (
    if s.power.supply != .running then s
    else
      let m := if on then s.power.buckLimit ||| (1#4 <<< b.val) else s.power.buckLimit &&& ~~~ (1#4 <<< b.val)
      { s with power.buckLimit := m }.level (948 + b.val) on)

/-- THERMAL_LEVEL (R473): warning from 105 °C to below 100 °C, throttle from 110 °C to below 105 °C. -/
def execThermalLevel (maxMilli : Int) (s : State) : Host.Outcome State Fault Refusal :=
  .next (
    if s.power.supply != .running then s
    else
      let w := if 105000 ≤ maxMilli then true else if maxMilli < 100000 then false else s.power.thermWarn
      let t := if 110000 ≤ maxMilli then true else if maxMilli < 105000 then false else s.power.throttle
      ({ s with power.thermWarn := w, power.throttle := t }.level 953 w).level 954 t)

/-! ### Islands (R428, R429, R466) -/

def State.islandOf (s : State) (i : Nat) : Nat := Tbl.get 0 s.host.island i

def State.setIsland (s : State) (i v : Nat) : State := { s with host.island := Tbl.set 0 s.host.island i v }

/-- Is an island pinned now (R428): a tile while it is METROLOGY or JOINING, and the islands the table names? -/
def State.pinned (s : State) (i : Nat) : Bool :=
  if i < 72 then (s.tile i).role == .metrology || (s.tile i).st == .joining
  else i ≤ 85 || i == 92 || i == 94 || i == 95

/-- A lane or port that loses its island (R287, R352, R373). -/
def State.islandGone (s : State) (i : Nat) : State :=
  if 86 ≤ i ∧ i ≤ 89 then s.laneStop (i - 86)
  else if i = 90 ∨ i = 91 then (s.setReady (34 + (i - 90)) false).level (784 + (i - 90)) (s.key (kUp (i - 90) 0) != 0)
  else if i = 93 then
    let s := if s.kiln.role = .leaf then s.plcStop else s
    [0, 1].foldl (fun (s : State) p => s.modRport p fun x => { x with started := false, running := false, awaits := none }) s
  else s

/-- A lane whose island runs again trains anew (R352). -/
def State.islandBack (s : State) (i : Nat) : State :=
  if 86 ≤ i ∧ i ≤ 89 then s.modLane (i - 86) fun x => { x with training := s.laneEnabled (i - 86) } else s

/-- A supply fault of a tile (R466): FENCED, at the second fault FAILED; a member leaves its bond by the vote, one that rebuilds or joins is replaced, and the
pool follows (R161, R165, R169). -/
def State.tileSupplyFault (s : State) (t n : Nat) : State :=
  let s := match (List.range 6).find? fun k => (s.bond k).members.contains t with
    | some k =>
      match (s.bond k).st with
      | .footing | .rebuilding => s.replaceRebuilding k [t]
      | _ => s.vote k [t] true
    | none =>
      match (List.range 6).find? fun k => (s.bond k).sub.any fun (x : Subst) => x.tile == t with
      | some k => if (s.tile t).st == TileState.joining then s.rejectJoining k s.time.index else ((s.fence t).f2 0).startSubst k s.time.index
      | none => s
  let s := match (s.tile t).st with
    | .fenced | .failed => s
    | _ => (s.fence t).f2 0
  ((if 2 ≤ n then s.modTile t fun x => { x with st := .failed, fencedAt := none } else s).tilesSettle.tryBonds).tileLevelsNow

/-- A second fault of a course keeps its island off until the next start; its READY bits clear (R466, R490). -/
def State.holdCourse (s : State) (k : Nat) : State :=
  { (s.setReady (10 + k) false).setReady (16 + k) false with power.islandHeld := (78 + k) :: s.power.islandHeld }

/-- An island supply fault (R466): zeroisation of pinned seal state, the switch opens, EV0952, then by kind of island. -/
def State.supplyFault (s : State) (i : Nat) : State :=
  let n := Tbl.get 0 s.power.islandFaults i + 1
  let s := if s.pinned i then { s with power.sealLost := i :: s.power.sealLost.filter (· != i) }.level 1004 true i else s
  let s := ({ s with power.islandFaults := Tbl.set 0 s.power.islandFaults i n }.setIsland i (3 + s.islandOf i)).pulse 952 i
  if i < 72 then s.tileSupplyFault i n
  else if 78 ≤ i ∧ i ≤ 83 then (if 2 ≤ n then s.holdCourse (i - 78) else s)
  else if s.pinned i then
    if 2 ≤ n then s.enterF4 0x09 else s
  else s.islandGone i

/-- Does an island have a rail to lose: not one powered off, one open already, or a COLD tile's? -/
def State.islandPowered (s : State) (i : Nat) : Bool := s.islandOf i < 2 && !(i < 72 && (s.tile i).st == .cold)

/-- ISLAND_SUPPLY_FAULT (R466). -/
def execIslandSupplyFault (i : Fin 96) (s : State) : Host.Outcome State Fault Refusal :=
  .next (if s.kiln.ph.started ∧ s.islandPowered i then s.supplyFault i else s)

/-- The switch holds: the island runs again, its seal state is reloaded before use (R429). -/
def State.islandReturns (s : State) (i : Nat) : State :=
  let lost := s.power.sealLost.filter (· != i)
  let s := ({ s with power.sealLost := lost }.setIsland i (s.islandOf i - 3)).level 1004 (s.asserted 1004 && !lost.isEmpty)
    (lost.head?.getD 0)
  if 78 ≤ i ∧ i ≤ 83 then (if (s.course (i - 78)).running then (s.startCourse (i - 78) false).flickerCourse (i - 78) else s)
  else s.islandBack i

/-- ISLAND_SWITCH_RETRY (R466, R497): two wardens vote; the switch turns on once more, and holds or faults again. -/
def execIslandSwitchRetry (i : Fin 96) (holds : Bool) (s : State) : Host.Outcome State Fault Refusal :=
  .next (
    if s.islandOf i < 3 || s.power.islandHeld.contains i.val || s.wardensUp < 2 || (i.val < 72 && (s.tile i).st == .failed) then s
    else if holds then s.islandReturns i
    else (s.setIsland i (s.islandOf i - 3)).supplyFault i)

/-- STATE as ISLAND_POWER reports it: 0 on, 1 gated, 2 off. -/
def State.islandState (s : State) (i : Nat) : Nat :=
  if (i < 72 && (s.tile i).st == .cold) || 3 ≤ s.islandOf i then 2
  else if i < 72 && (s.tile i).leave == some .toCold then 2
  else if i < 72 && (s.tile i).leave == some .toGate then 1
  else s.islandOf i

/-- ISLAND_POWER on a tile (R168, R170): a ledger tile leaves at its next task boundary, a grout acts at once; a COLD tile turned on is
tested. -/
def State.tilePower (s : State) (t action : Nat) : State :=
  let x := s.tile t
  let led := x.role == .ledger && x.st == .active
  let grout := x.role == .grout && (x.st == .warm || x.st == .cold)
  match action with
  | 0 =>
    if led then s.modTile t fun x => { x with leave := some .toCold }
    else if grout then (s.modTile t fun x => { x with st := .cold }).setIsland t 0 else s
  | 1 =>
    if x.st == .cold then (s.modTile t fun x => { x with st := .testing, fencedAt := none }).tileLevelsNow
    else if led ∧ x.leave == some .toCold then (s.modTile t fun x => { x with leave := none }).tilesSettle else s
  | 2 =>
    if led then s.modTile t fun x => { x with leave := some .toGate }
    else if grout && x.st == .warm then s.setIsland t 1 else s
  | _ =>
    if s.gated t then (s.setIsland t 0).tryBonds.tileLevelsNow
    else if led ∧ x.leave == some .toGate then s.modTile t fun x => { x with leave := none } else s

/-- ISLAND_POWER on a lane or the meter-facing island: off and gated go down, on and ungated start again. -/
def State.linkPower (s : State) (i action : Nat) : State :=
  let v := s.islandOf i
  let want := match action with | 0 => 2 | 1 => 0 | 2 => (if v = 2 ∨ v = 5 then 2 else 1) | _ => (if v = 2 ∨ v = 5 then 2 else 0)
  let next := if 3 ≤ v ∧ want ≠ 2 then 3 + want else want
  if next = v then s
  else
    let s := s.setIsland i next
    if next = 0 then s.islandBack i else if v = 0 then s.islandGone i else s

/-- ISLAND_POWER (R428, R429): judged at execution start. -/
def islandPowerBody : Body := fixedBody 8 [(2, 6)] fun c p s =>
  let i := fld p.params 0 1
  let a := fld p.params 1 1
  if 95 < i then (s, .reply (Res.field 32))
  else if 3 < a then (s, .reply (Res.field 33))
  else if s.pinned i then (s.pulse 1003 (c.bay + 256 * i), .reply (Res.err stDenied subPinned))
  else if c.bay ≠ 1 ∧ s.key (0x5C00 + i) ≠ c.bay then (s, .reply (Res.err stDenied subRole))
  else
    let s := if i < 72 then s.tilePower i a else s.linkPower i a
    (s, .reply (Res.ok (leBytes 1 (s.islandState i) ++ zeros 7)))

def execIslandPower (p : Packet) (s : State) : Host.Outcome State Fault Refusal := .next (command 0x0C20 islandPowerBody p s)

/-! ### SUPPLY_STATUS (R475) -/

/-- The word of R475. -/
def State.supplyStatus (s : State) : Nat :=
  let p := s.power
  bitsNat [p.pgood, p.pf, p.pfExtLow, p.vinNearPf, p.vinHigh, p.saveOkLast, p.saveCutLast] + 128 * (p.saveCause % 4)
    + 512 * bitsNat [p.reverseSeen, p.thermWarn, p.throttle, !p.islandHeld.isEmpty] + 8192 * p.buckLimit.toNat + 131072 * p.railOut.toNat

end Sys2Proof.Machine
end

