-- ==== Sys2Proof/Machine/Kiln.lean ====
section
/-! DEFINITION. Bring-up and self-test (19): the reference edge, the phases K1 to K6 with their tests, the test window, allocation, DRAM, the READY
map and the BIST report. -/

namespace Sys2Proof.Machine

/-! ### Reference edge (R478, R519) -/

/-- The kiln starts at K1; balls take their levels of R519. -/
def State.startKiln (s : State) (mode : Nat) (isReset : Bool) : State :=
  { s with kiln := { startCount := (s.kiln.startCount + 1) % 2 ^ 32, reports := s.kiln.reports, ph := { started := true }, mode := mode, resetStart := isReset },
           pins.faultN := .hiZ, pins.sealCsN := .high, pins.rpCsN := Tbl.set false (Tbl.set false [] 0 true) 1 true }

/-- PGOOD_RISE (R462): every rail inside its window. -/
def execPgoodRise (mode : Fin 4) (s : State) : Host.Outcome State Fault Refusal :=
  .next (
    if s.power.supply != .rails || s.power.railOut != 0 then s
    else
      let s := { s with power.supply := .running, power.pgood := true, pins.pgood := true }
      if s.power.resetLow then s else s.startKiln mode false)

/-- RESET_N_ASSERT (R478): held low at least 10 µs; no state save. -/
def execResetNAssert (lowUs : Nat) (s : State) : Host.Outcome State Fault Refusal :=
  .next (
    if lowUs < 10 then s
    else if s.power.supply != .running then { s with power.resetLow := true }
    else { (s.dropReports.stopped false) with power.resetLow := true, power.supply := .running, power.pgood := true, pins.pgood := true,
                                              power.saveOkLast := false, power.saveCutLast := false, power.saveCause := 0 })

/-- RESET_N_RELEASE (R478): while PGOOD is high it is the reference edge of a RESET_N start. -/
def execResetNRelease (mode : Fin 4) (s : State) : Host.Outcome State Fault Refusal :=
  .next (
    if !s.power.resetLow then s
    else
      let s := { s with power.resetLow := false }
      if s.power.supply = .running ∧ s.power.pgood ∧ !s.kiln.ph.started then s.startKiln mode true else s)

/-! ### K1 and K2 (R447, R449, R479, R483) -/

/-- The kiln stops after K1: FAULT_N low. -/
def State.haltKiln (s : State) : State := { s with kiln.halted := true, pins.faultN := .low }

/-- Return from a trial slot (R449): the header names the former slot; EV0983 in K6. -/
def State.returnSlot (s : State) : State :=
  ({ s.writeHeader (1 - s.store.fwActive) false with store.trialFails := 0, store.fwReturned := true }).report 983 0

/-- The slot that runs (R449, R483): a trial that has failed three times, or whose image fails, gives way to the former slot; `none` when no slot
holds a verified image. -/
def State.bootSlot (s : State) (ok : List Bool) : State × Option Nat :=
  let good (n : Nat) := ok.getD n false
  let s := if s.store.fwTrial && (3 ≤ s.store.trialFails || !good s.store.fwActive) then s.returnSlot else s
  let a := s.store.fwActive
  let s := if s.store.fwTrial then { s with store.trialFails := s.store.trialFails + 1, store.trialRun := true } else s
  (s, if good a then some a else if good (1 - a) then some (1 - a) else none)

/-- The version of a slot. -/
def Store.versionOf (x : Store) (slot : Nat) : Nat := if slot = 0 then x.fwVersion.1 else x.fwVersion.2

/-- Records of the BIST report, at most 256 (R493). -/
def State.bist (s : State) (l : List BistEntry) : State :=
  let all := s.kiln.entries ++ l
  { s with kiln.entries := all.take 256, kiln.overflow := s.kiln.overflow || decide (256 < all.length) }

/-- The journal scan of R452: what was being erased is indeterminate; EV0978 in K6 with the count found. -/
def State.journalScan (s : State) : State :=
  let l := s.store.eraseOpen
  let s := { s with store.indeterminate := s.store.indeterminate.filter (fun x => !l.contains x) ++ l, store.eraseOpen := [],
                    store.foundIndeterminate := l.length }
  if l.isEmpty then s else s.report 978 l.length

/-- Warden and pair results of K1. -/
def State.k1Cores (s : State) (r : K1Result) : State :=
  let bad := (List.range 3).filter fun w => !r.wardens.getD w false
  let out := BitVec.ofNat 3 (bitsNat ((List.range 3).map fun w => !r.wardens.getD w false))
  let s := { s with kiln.wardens := ~~~ out, fault.wardenOut := 0, fault.wardenReset := 0,
                    fault.voteMiss := [0, 0, 0], fault.pairOk := 0b11 }
  let s := bad.foldl (fun (s : State) w => if s.fault.wardenOut = 0 then s.wardenLost w else s) s
  let s := { s with fault.wardenOut := out }
  ({ s with kiln.sramRepairs := s.kiln.sramRepairs + r.repairs }.bist r.entries).asidePairs r.pairOk

/-- The factory factors of the auxiliary converters, from the fuses (R190). -/
def fusedFactors : Factors :=
  { ofs0 := Config.fusedOfs 0, ofs1 := Config.fusedOfs 1, gain0 := Config.fusedGain 0, gain1 := Config.fusedGain 1, ref := Config.fusedRefGain,
    skew := Config.fusedSkew }

/-- The flash that answered (R447): at least 128 MiB, else EV0979. -/
def State.k1Flash (s : State) (f : Option (Nat × Bool)) : State :=
  match f with
  | some (mib, octal) =>
    let okay := decide (128 ≤ mib)
    (({ s with store.flashPresent := okay, store.flashOctal := octal, store.flashMib := mib }).setReady 3 okay).level 979 (!okay)
  | none => s.level 979 true

/-- K1 has completed and K2 is open: the image that runs, its role and identity. -/
def State.openK2 (s : State) (slot us : Nat) : State :=
  { s with kiln.ph.k1 := true, kiln.ph.k2Open := true, kiln.doneUs := Tbl.set 0 s.kiln.doneUs 1 us, kiln.fwRunning := s.store.versionOf slot,
           kiln.sealFw := Config.sealFwVersion (s.store.versionOf slot), kiln.role := DevRole.ofCode (s.key kRole), kiln.devId := s.key kDevId }

/-- The levels of supply and storage whose conditions stand at a start. -/
def State.startLevels (s : State) : State :=
  let s := ((s.level 938 s.power.vinNearPf).level 939 s.power.vinHigh).identityLevel
  let s := (s.level 975 (decide (s.store.spare < 64))).level 976 (!s.store.ro.isEmpty)
  s.level 977 (s.store.ro.contains 3 && s.store.flashPresent)

/-- K2 begins: the running role, the restores, system time from the RTC, the journal scan, the legal check value. -/
def State.beginK2 (s : State) (slot us : Nat) : State :=
  let s := s.openK2 slot us
  s.restore.timeFromRtc.billStart.journalScan.publishLcv.startLevels

/-- The end of K1 with a slot to run: K2 begins; MODE other than normal stops the kiln here (R478). -/
def State.endK1 (s : State) (slot us : Nat) : State :=
  let s := (s.setReady 1 true).setReady 2 true
  let s := if s.fault.pairOk = 0 then s.enterF4 0x0D else s
  if s.kiln.mode != 0 then { s with kiln.ph.k1 := true, kiln.doneUs := Tbl.set 0 s.kiln.doneUs 1 us }.haltKiln
  else s.beginK2 slot us

/-- KILN_K2_START (R479, R483): K1 is complete, with its outcomes. -/
def execKilnK2Start (r : K1Result) (s : State) : Host.Outcome State Fault Refusal :=
  .next (
    if !s.kiln.ph.started || s.kiln.halted || s.kiln.ph.k2Open then s
    else if ((List.range 3).filter fun w => r.wardens.getD w false).length < 2 then
      ({ s with kiln.wardens := BitVec.ofNat 3 (bitsNat ((List.range 3).map fun w => r.wardens.getD w false)) }.enterF4 0x0D).haltKiln
    else
      let s := (s.k1Cores r).setReady 0 true
      if !r.fuseOk then s.haltKiln
      else
        let s := ({ s with aux.fac := fusedFactors } : State).k1Flash r.flash
        let b := s.bootSlot r.slotOk
        match b.2 with
        | none => b.1.haltKiln
        | some slot => b.1.endK1 slot r.us)

/-! ### The test window (R482) -/

/-- Does a check hold, and against which reference? -/
def windowHolds (w : WindowCheck) (rc : Bool) : Bool :=
  let within (x : Int) (n : Nat) := decide (x.natAbs ≤ n)
  within w.vcore 30000 && within w.v1p8 30000 && within w.v3p3 30000 && within w.refPpm (if rc then 20000 else 100) && w.pllLocked
    && w.temps.all fun t => decide (-40000 ≤ t ∧ t ≤ 110000)

/-- TEST_WINDOW_CHECK: a failing check makes the phase wait until the window has held for 10 consecutive checks; 500 checks without is F4
until it holds again. -/
def execTestWindowCheck (w : WindowCheck) (s : State) : Host.Outcome State Fault Refusal :=
  .next (
    if !s.kiln.ph.k2Open || s.kiln.mclkOn || s.kiln.halted then s
    else
      let rc := s.time.rtcOscFault
      let good := windowHolds w rc
      let s := { s with kiln.refRc := s.kiln.refRc || rc }
      if !s.kiln.winLost then
        if good then s else { s with kiln.winLost := true, kiln.windowWait := true, kiln.winRun := 0, kiln.winChecks := 1 }
      else
        let run := if good then s.kiln.winRun + 1 else 0
        let n := s.kiln.winChecks + 1
        if 10 ≤ run then { s with kiln.winLost := false, kiln.winRun := 0, kiln.winChecks := 0 }.leaveF4
        else
          let s := { s with kiln.winRun := run, kiln.winChecks := n }
          if 500 ≤ n ∧ !s.fault.f4 then s.enterF4 0x0A true else s)

/-! ### K2 complete: K3 and K4 (R479, R483, R484, R486) -/

/-- K2 has completed, with the seal core's verdict. -/
def State.markK2 (s : State) (r : K2Result) : State :=
  { s with kiln.ph.k2 := true, kiln.doneUs := Tbl.set 0 s.kiln.doneUs 2 r.us, fault.sealOk := r.sealOk }

/-- K2's outcomes and READY bits. -/
def State.k2Results (s : State) (r : K2Result) : State :=
  let s := (r.mram.foldl (fun (s : State) e => s.mramHit [e.addr] e) s).bist r.entries
  let s := s.markK2 r
  let s := (((s.setReady 4 (s.fault.pairOk != 0)).setReady 5 r.sealOk).setReady 6 true).setReady 8 true
  let s := (s.setReady 7 r.cryptoOk).level 984 (!r.cryptoOk)
  if r.sealOk then s else s.enterF4 0x0D

/-- Sample index 0 is placed at the first multiple of 15,625 ns of system time (R206). -/
def State.placeIndex (s : State) : State :=
  { s with time.indexOn := true, time.index := 0, time.ns := ceilDiv s.nowNs 15625 * 15625, time.sub := 0 }

/-- Front-end and footing tests: a failed decimator's channel stays invalid (F2); a failed footing unit is R166. -/
def State.frontTests (s : State) (front : List (Fin 48)) (foot : List (Fin 6)) : State :=
  let s := front.foldl (fun (s : State) c =>
    ({ s with kiln.frontFailed := s.kiln.frontFailed ||| (1#6 <<< courseOf c.val) }.modChan c.val fun x => { x with frontFailed := true }).f2 0) s
  foot.foldl (fun (s : State) k => { s with kiln.footingFailed := s.kiln.footingFailed ||| (1#6 <<< k.val) }.footingFail k.val) s

/-- K3 and K4 begin. -/
def State.openK3 (s : State) : State := { s with kiln.ph.k3Open := true, kiln.startNs := s.time.mono }

/-- KILN_K3_K4_START (R479, R484): K2 is complete; accumulation and billing run in every role but RELAY. -/
def execKilnK3K4Start (r : K2Result) (s : State) : Host.Outcome State Fault Refusal :=
  .next (
    if !s.kiln.ph.k2Open || s.kiln.ph.k3Open || s.kiln.halted || s.kiln.winLost then s
    else
      let s := (s.k2Results r).placeIndex.frontTests r.frontFail r.footFail
      let s := s.openK3
      let s := s.regrid
      let meter := s.meters
      let s := if meter && r.sealOk then (s.setReady 22 true).setReady 23 true else s
      let s := (List.range 16).foldl (fun (s : State) m => if meter then s.driveContactor m else s) s
      let s := (List.range 16).foldl (fun (s : State) p => if meter then s.drivePulse p false else s) s
      s.startAcb)

/-- The clocks of the enabled courses start, with their voltage sets' detectors; creep begins with each point's course. -/
def State.startCourses (s : State) : State :=
  let s := (enabledCourses s).foldl (fun (s : State) k => (s.startCourse k false).flickerCourse k) s
  let s := (enabledVsets s.cfg.active).foldl State.startDetector s
  { s with metro.creepFrom := enabledMps s.cfg.active }

/-- COURSE_MCLK_START (R484 step 3): 10 ms into K3 the enabled courses' clocks start; detectors and creep begin there. -/
def execCourseMclkStart (s : State) : Host.Outcome State Fault Refusal :=
  .next (
    if !s.kiln.ph.k3Open || s.kiln.mclkOn || s.kiln.winLost || s.time.index < 640 then s
    else
      let s := { s with kiln.mclkOn := true }
      (if s.meters then s.startCourses else s).k3Check)

/-- The time since the stop is counted at footing readiness (R174); without valid system time it is a free value (log 3). -/
def State.countGap (s : State) : State :=
  match s.power.stopped with
  | none => s
  | some (vinLost, t) =>
    let x : Nat × State := match t with
      | some t0 => if s.time.valid then (s.time.ns - t0, s) else s.draw
      | none => s.draw
    let a := x.2.tiles.av
    { x.2 with power.stopped := none,
               tiles.av := if vinLost then { a with outage := (a.outage + x.1) % 2 ^ 64 } else { a with resetGap := (a.resetGap + x.1) % 2 ^ 64 } }

/-- A metering point's first interval and its transfer points run from the present sample (R244). -/
def State.beginMp (s : State) (m : Nat) : State :=
  let x := s.time.index
  ((s.openInterval m (0x20 + if s.kiln.restored then 0x40 else 0)).modBmp m fun b => { b with subFrom := x }).modMpAcc m fun a =>
    { a with tp := x, aAt := x, qAt := x, sAt := x, fAt := x }

/-- FOOTINGk is set; at a start the metering points of the course begin, and with the last course the gap is counted. -/
def State.footingReady (s : State) (k : Nat) : State :=
  let s := s.setReady (10 + k) true
  let s := if s.kiln.ph.k3 then s else (courseMps s.cfg.active k).foldl State.beginMp s
  if (enabledCourses s).all fun k => s.ready (10 + k) || (s.bond k).footFail then s.countGap else s

/-- A course has left SETTLING (R484 step 4): FOOTINGk is set; at a start its metering points' first interval runs from here (R244). -/
def State.courseReady (s : State) (k : Nat) : State :=
  if s.ready (10 + k) || (s.bond k).footFail then s else (s.footingReady k).k3Check

/-- The outcome of one self-test group (R486): its failing tiles are FAILED with no role, its repairs are counted, the next group is due, and the
bonds fill from the tiles that passed. -/
def State.tileGroupTested (s : State) (g : Nat) (fails : List (Fin 72)) (repairs : List BistEntry) : State :=
  let f := fails.filter fun t => t.val / 8 == g
  let s := f.foldl (fun (s : State) t => s.modTile t.val fun x => { x with kilnFail := true, st := .failed, role := .none }) s
  let s := { s with kiln.tilesFailed := s.kiln.tilesFailed ++ f, kiln.sramRepairs := s.kiln.sramRepairs + repairs.length, kiln.bistGroup := g + 1 }
  (s.bist repairs).tileLevelsNow.fillBonds

/-- K4 ends (R486): the tiles left over are allocated and its completion time is noted. -/
def State.endK4 (s : State) : State :=
  let s := s.allocateRest
  { s with kiln.ph.k4 := true,
           kiln.doneUs := Tbl.set 0 s.kiln.doneUs 4 (Tbl.get 0 s.kiln.doneUs 2 + (s.time.mono - s.kiln.startNs) / 1000) }

/-- TILE_BIST_GROUP_END (R486): eight tiles are tested; bonds fill as groups end, the rest is allocated when group 8 ends. -/
def execTileBistGroupEnd (g : Fin 9) (fails : List (Fin 72)) (repairs : List BistEntry) (s : State) : Host.Outcome State Fault Refusal :=
  .next (
    if !s.kiln.ph.k3Open || s.kiln.bistGroup != g.val then s
    else
      let s := s.tileGroupTested g.val fails repairs
      if g.val = 8 then s.endK4 else s)

/-! ### K5: DRAM (R487 to R489) -/

/-- KILN_K5_START: K4 is complete. -/
def execKilnK5Start (s : State) : Host.Outcome State Fault Refusal :=
  .next (if s.kiln.ph.k4 ∧ !s.kiln.ph.k5Open then { s with kiln.ph.k5Open := true } else s)

/-- DRAM_TRAINING_DONE: DRAM is set, or F2 with an entry whose place is a free value (log 3), and the test ends. -/
def execDramTrainingDone (okay : Bool) (s : State) : Host.Outcome State Fault Refusal :=
  .next (
    if !s.kiln.ph.k5Open || s.kiln.ph.dramTrained || s.kiln.ph.k5 then s
    else if okay then { s with kiln.ph.dramTrained := true }.setReady 24 true
    else
      let x := s.draw
      let e : BistEntry := { memory := 1, unit := 0, outcome := 3, bit := x.1 % 72, address := x.1 / 72 % 2 ^ 32, phase := 5, kind := x.1 % 3 }
      ({ x.2 with kiln.ph.k5 := true }.bist [e]).f2 0)

/-- Slices `a` to `b` have passed. -/
def State.slicesOk (s : State) (a b : Nat) : Bool := (List.range (b + 1 - a)).all fun i => s.kiln.slices.getLsbD (a + i)

/-- PLC is set with its port started and LEDGER; so are the radio bits (R490). -/
def State.portsReady (s : State) : State :=
  let plc := s.kiln.role == .leaf && s.keyOn (kPlc 0) && s.kiln.ph.k6Open && s.ready 25
  (s.setReady 27 plc).rpReady

/-- A slice has its outcome: rows repaired from the pool of 1,024, or failed (F2); READY bits follow. -/
def State.sliceEnd (s : State) (i rows : Nat) (okay : Bool) (entries : List BistEntry) : State :=
  let s := { s with kiln.slicesTested := i + 1, kiln.dramRows := min 1024 (s.kiln.dramRows + rows),
                    kiln.slices := if okay then s.kiln.slices ||| (1#64 <<< i) else s.kiln.slices }
  let s := s.bist entries
  let s := if okay then s else s.f2 0
  let s := if s.kiln.role != .analyser && s.slicesOk 0 45 then s.setReady 25 true else s
  let s := if s.slicesOk 46 49 then s.setReady 26 true else s
  s.portsReady

/-- K5 ends with its last slice (R488): its completion time is noted. -/
def State.endK5 (s : State) : State :=
  { s with kiln.ph.k5 := true,
           kiln.doneUs := Tbl.set 0 s.kiln.doneUs 5 (Tbl.get 0 s.kiln.doneUs 2 + (s.time.mono - s.kiln.startNs) / 1000) }

/-- DRAM_SLICE_DONE: the last slice completes K5. -/
def execDramSliceDone (i : Fin 56) (rows : Nat) (pass : Bool) (entries : List BistEntry) (s : State) : Host.Outcome State Fault Refusal :=
  .next (
    if !s.kiln.ph.dramTrained || s.kiln.slicesTested != i.val then s
    else
      let s := s.sliceEnd i rows (pass && decide (s.kiln.dramRows + rows ≤ 1024)) entries
      if i.val = 55 then s.endK5 else s)

/-- One error of the daily read (R488, R489): a word corrected at two passes has its row repaired while the pool lasts. -/
def State.dramHit (s : State) (last : List Nat) (e : EccHit) : State :=
  if e.uncorrectable then s.f1 0
  else
    let s := { s with store.dramCorrected := e.addr :: s.store.dramCorrected }.f0
    if last.contains e.addr then
      if s.kiln.dramRows < 1024 then { s with kiln.dramRows := s.kiln.dramRows + 1 } else s.f2 0
    else s

/-- DRAM_SCRUB (R488). -/
def execDramScrub (errs : List EccHit) (s : State) : Host.Outcome State Fault Refusal :=
  .next (
    if !s.kiln.ph.dramTrained || !s.kiln.ph.k5 then s
    else
      let last := s.store.dramCorrected
      errs.foldl (fun (s : State) e => s.dramHit last e) { s with store.dramCorrected := [] })

/-! ### K6 (R481, R491) -/

/-- Occurrences held are queued in stamp order; then what pulses in K6. -/
def State.releaseHeld6 (s : State) : State :=
  let l := s.ev.held
  let s := l.foldl (fun (s : State) r => s.deliver r) { s with ev.held := [] }
  let s := s.kiln.reports.foldl (fun (s : State) r => s.pulse r.1 r.2) s
  let s := { s with kiln.reports := [] }
  let s := if s.power.reversePulse then ({ s with power.reversePulse := false }).pulse 940 else s
  let s := if s.rtc.almOnBat0 then ({ s with rtc.almOnBat0 := false }).pulse 914 else s
  let s := if s.rtc.almOnBat1 then ({ s with rtc.almOnBat1 := false }).pulse 915 else s
  let s := if s.rtc.batPulse then ({ s with rtc.batPulse := false }).pulse 916 else s
  if s.rtc.bporPulse then ({ s with rtc.bporPulse := false }).pulse 917 else s

/-- A start that reaches K6 confirms a trial (R449). -/
def State.confirmTrial (s : State) : State :=
  if s.store.trialRun then
    let s := s.writeHeader s.store.fwActive false
    { s with store.trialRun := false, store.trialFails := 0, store.minVersion := max s.store.minVersion (s.store.versionOf s.store.fwActive) }
  else s

/-- Links and ports start (R352, R354, R366, R373, R479). -/
def State.startLinks (s : State) : State :=
  let s := { s with mortar.stt := if s.kiln.role = .root then .root else .alone, mortar.hops := if s.kiln.role = .root then 0 else 0xFF,
                    mortar.rootId := if s.kiln.role = .root then s.kiln.devId else 0 }
  let s := (List.range 4).foldl (fun (s : State) m =>
    if s.laneEnabled m then (s.modLane m fun x => { x with training := true }).laneLevels m else s) s
  let s := if s.kiln.role = .leaf ∨ s.kiln.role = .relay then s.level 793 true else s
  let s := s.mirrorLevel
  let s := [0, 1].foldl (fun (s : State) k => s.level (784 + k) (s.key (kUp k 0) != 0)) s
  s.portsReady.repoll

/-- KILN_K6_START: K4 is complete; event delivery opens. -/
def execKilnK6Start (s : State) : Host.Outcome State Fault Refusal :=
  .next (
    if !s.kiln.ph.k4 || s.kiln.ph.k6Open then s
    else ({ s with kiln.ph.k6Open := true }.releaseHeld6.confirmTrial).startLinks)

/-- Has every function that K6 starts its bit, a lane or uplink also 300 ms after the reference edge (R491)? -/
def State.k6Done (s : State) (us : Nat) : Bool :=
  let late := decide (300000 ≤ us)
  (!(s.kiln.role == .leaf && s.keyOn (kPlc 0)) || s.ready 27)
    && ((List.range 2).all fun p => !(s.kiln.role == .leaf && s.keyOn (kRp p 0)) || s.ready (28 + p))
    && ((List.range 4).all fun m => s.laneMode m == 0 || late || s.ready (30 + m))
    && ((List.range 2).all fun k => s.key (kUp k 0) == 0 || late || s.ready (34 + k))

/-- KILN_COMPLETE (R491). -/
def execKilnComplete (us : Nat) (s : State) : Host.Outcome State Fault Refusal :=
  .next (
    if s.kiln.ph.k6Open && !s.kiln.ph.k6 && s.k6Done us then { s with kiln.ph.k6 := true, kiln.doneUs := Tbl.set 0 s.kiln.doneUs 6 us } else s)

/-! ### The BIST report (R493) -/

/-- One record of 16 bytes. -/
def bistBytes (e : BistEntry) : Bytes :=
  leBytes 1 e.memory ++ leBytes 1 e.unit ++ leBytes 1 e.outcome ++ leBytes 1 e.bit ++ leBytes 4 e.address ++ leBytes 1 e.phase
    ++ leBytes 1 e.kind ++ zeros 6

/-- The report of the current start. -/
def State.bistReport (s : State) : Bytes :=
  let k := s.kiln
  leBytes 4 k.startCount ++ leBytes 1 s.phase ++ leBytes 1 (bitsNat [k.windowWait, k.refRc, s.store.trialRun, k.resetStart, k.overflow])
    ++ leBytes 2 k.entries.length ++ ((List.range 6).flatMap fun i => leBytes 4 (Tbl.get 0 k.doneUs (i + 1)))
    ++ leBytes 9 (bitsNat ((List.range 72).map fun t => k.tilesFailed.any (·.val == t))) ++ leBytes 1 k.frontFailed.toNat
    ++ leBytes 1 k.footingFailed.toNat ++ leBytes 1 k.wardens.toNat ++ leBytes 2 k.dramRows ++ leBytes 2 (satU 16 k.sramRepairs)
    ++ leBytes 8 k.slices.toNat ++ zeros 8 ++ k.entries.flatMap bistBytes

/-- DIAG_BIST_REPORT. -/
def diagBistReportBody : Body := fixedBody 0 [] (readBody fun _ _ s => Res.ok s.bistReport)

def execDiagBistReport (p : Packet) (s : State) : Host.Outcome State Fault Refusal := .next (command 0x0E01 diagBistReportBody p s)

end Sys2Proof.Machine
end

