-- ==== Sys2Proof/Machine/Window.lean ====
section
/-! DEFINITION. The register window (22): what every offset reads, the latches and RC fields of each function, what writes do, and the SPI
register transactions. -/

namespace Sys2Proof.Machine

/-! ### Words derived from the state -/

/-- Is the window served for a function: HOST_PCIE or HOST_SPI set (R536)? -/
def State.windowOn (s : State) (f : Nat) : Bool := s.ready (if f = 7 then 2 else 1)

/-- Bay of a window function (R537). -/
def State.fnBay (s : State) (f : Nat) : Nat := if f = 7 then s.key (kUdp 2) else f + 1

/-- Does an F1 or F2 condition hold (R508): a warden, pair or seal core out, a bond, footing unit or tile out, a converter or oscillator in fault,
a partition read-only, a test failed? -/
def State.impaired (s : State) : Bool :=
  s.fault.wardenOut != 0 || s.fault.pairAside != 0 || (s.kiln.ph.k2 && !s.fault.sealOk)
    || (enabledCourses s).any (fun k => (s.bond k).footFail || (s.bond k).st == .duplex || (s.kiln.ph.k4 && (s.bond k).st == .footing))
    || allTiles.any (fun t => (s.tile t).st == .fenced || (s.tile t).st == .failed || ((s.tile t).st == .testing && (s.tile t).fencedAt.isSome))
    || s.convFault 0 || s.convFault 1 || s.time.xtalFault || s.time.rtcOscFault || !s.store.ro.isEmpty
    || s.kiln.frontFailed != 0 || s.kiln.footingFailed != 0
    || (List.range 48).any (fun c => decide (0 < (s.chan c).lostLeft))
    || (List.range s.kiln.slicesTested).any (fun i => !s.kiln.slices.getLsbD i)

/-- FAULT_SUMMARY (R508). -/
def State.faultSummary (s : State) (f3Count : Nat) : Nat :=
  let f := s.fault
  bitsNat [f.f4, s.impaired] + 4 * (~~~ f.wardenOut).toNat + 32 * f.pairOk.toNat
    + 128 * bitsNat [f.sealOk && s.islandOf 77 == 0, f.dram.isSome, f.flash.isSome, f.dumpBusy] + 65536 * f3Count + 2 ^ 24 * f.lastCause

/-- The newest completions of a pair that CQ_HEAD has not passed. -/
def State.cqLeft (s : State) (fn q : Nat) : List Completion :=
  let x := s.qpOf fn q
  if x.size = 0 then []
  else (s.host.cq.filter fun c => c.fn == fn && c.qp == q).take ((x.cqTail + x.cqSize - x.cqHead) % x.cqSize)

/-- INT_STATUS of a PCIe function (R542). -/
def State.intStatus (s : State) (f : Nat) : Nat :=
  let e := s.evBay (f + 1)
  let live := s.host.sess.any fun x => x.bay == 0 && (match x.peer with | .pcie fn => fn.val == f | _ => false)
  let b0 := live && (!(s.evBay 0).queue.isEmpty || (List.range 16).any fun q => (s.cqLeft f q).any fun c => c.bay == 0)
  bitsNat ((List.range 16).map fun q => !(s.cqLeft f q).isEmpty)
    + 65536 * bitsNat ((List.range 14).map fun g => e.queue.any fun r => evRange r.source == g)
    + 2 ^ 30 * bitsNat [e.dropped, e.resetDone, b0]

/-- INTx of PF0 is asserted while a bit of [32:0] is set (R542). -/
def State.intx (s : State) : Bool := s.intStatus 0 != 0

/-! ### 64-bit registers (R536, R537) -/

/-- The 64-bit registers by the offset of their low word: ID_SERIAL, SYSTEM_TIME, SAMPLE_INDEX, CAL_LAST_TIME, INT_STATUS, and the ring bases. -/
def State.wide (s : State) (f off : Nat) : Option Nat :=
  if off = 0x008 then some Config.deviceSerial
  else if off = 0x048 then some s.nowNs
  else if off = 0x050 then some s.time.index
  else if off = 0x0A4 then some s.aux.calLast
  else if off = 0x3000 ∧ f ≠ 7 then some (s.intStatus f)
  else if 0x2000 ≤ off ∧ off < 0x2400 ∧ f ≠ 7 then
    let x := s.qpOf f ((off - 0x2000) / 0x40)
    match (off - 0x2000) % 0x40 with
    | 0 => some (x.sqBaseLo.toNat + 2 ^ 32 * x.sqBaseHi.toNat)
    | 8 => some (x.cqBaseLo.toNat + 2 ^ 32 * x.cqBaseHi.toNat)
    | _ => none
  else none

/-! ### Reads -/

/-- A word of a queue pair but its bases (R540). -/
def Qp.word (x : Qp) (o : Nat) : Nat :=
  match o with
  | 0x10 => x.size.toNat | 0x14 => x.enable.toNat | 0x18 => x.sqTail | 0x1C => x.cqHead | 0x20 => x.sqHead | 0x24 => x.cqTail
  | 0x28 => bitsNat [x.running, x.error] + 16 * x.errCode | _ => 0

/-- A word of the RTC block (R538); the counting registers as the reader latched them, or as they are in an SPI transaction that covers RTC_SEC (R224). -/
def State.rtcWord (s : State) (f o : Nat) (live : Bool) : Nat :=
  let r := s.rtc
  let now := [r.sec, r.min, r.hour, r.wday, r.day, r.month, r.year, r.cent]
  if o < 0x20 then (if live || o == 0 then now else (s.winFn f).rtc).getD (o / 4) 0
  else if o = 0x20 then r.ctlWord
  else if o = 0x24 then r.statusWord
  else if o = 0x28 then unsignedOf 16 r.trim
  else if 0x40 ≤ o ∧ o < 0x58 then r.a0.list.getD ((o - 0x40) / 4) 0
  else if 0x60 ≤ o ∧ o < 0x78 then r.a1.list.getD ((o - 0x60) / 4) 0
  else 0

/-- What a 32-bit read of an offset returns to a function (R535, R537).  `live`: high words as they are, within one SPI transaction (R543). -/
def State.regWord (s : State) (f off : Nat) (live : Bool) : Nat :=
  let w := s.winFn f
  let hi (o : Nat) : Nat := if live then ((s.wide f (o - 4)).getD 0) / 2 ^ 32 else Tbl.get 0 w.latch o
  if off % 4 ≠ 0 then 0
  else if off = 0x050 then (if live then s.time.index % 2 ^ 32 else Tbl.get 0 w.latch 0x050)
  else if (s.wide f off).isSome then ((s.wide f off).getD 0) % 2 ^ 32
  else if 4 ≤ off ∧ (s.wide f (off - 4)).isSome then hi off
  else if 0x200 ≤ off ∧ off < 0x3B0 then fld w.av (off - 0x200) 4
  else if 0x1000 ≤ off ∧ off < 0x2000 then s.rtcWord f (off - 0x1000) live
  else if 0x2000 ≤ off ∧ off < 0x2400 then (if f = 7 then 0 else (s.qpOf f ((off - 0x2000) / 0x40)).word ((off - 0x2000) % 0x40))
  else if 0x8000 ≤ off ∧ off < 0x8400 then (if f = 7 then 0 else w.msixWord ((off - 0x8000) / 4))
  else if off = 0x9000 then (if f = 7 then 0 else w.pba.toNat % 2 ^ 32)
  else if off = 0x9004 then (if f = 7 then 0 else w.pba.toNat / 2 ^ 32)
  else match off with
  | 0x000 => Config.stepping % 256 + 256 * 0xED + 65536 * 0x4884
  | 0x004 => s.kiln.role.code + 256 * s.key kRole + 65536 * s.kiln.devId
  | 0x010 => s.kiln.fwRunning
  | 0x014 => s.kiln.sealFw
  | 0x018 => s.fnBay f + 8 * (f == 7).toNat
  | 0x020 => s.kiln.ready.toNat % 2 ^ 32
  | 0x024 => s.kiln.ready.toNat / 2 ^ 32 % 2 ^ 32
  | 0x028 => s.kiln.ready.toNat / 2 ^ 64 % 2 ^ 32
  | 0x02C => s.kiln.ready.toNat / 2 ^ 96
  | 0x030 => s.phase
  | 0x040 => s.timeStatus w.stepped
  | 0x044 => unsignedOf 16 s.time.utcOfs
  | 0x060 => s.supplyStatus
  | 0x070 => s.faultSummary w.f3Count
  | 0x074 => w.count0
  | 0x078 => w.count1
  | 0x07C => w.count2
  | 0x080 => unsignedOf 16 s.aux.fac.ofs0
  | 0x084 => unsignedOf 16 s.aux.fac.ofs1
  | 0x088 => s.aux.fac.gain0
  | 0x08C => s.aux.fac.gain1
  | 0x090 => s.aux.fac.ref
  | 0x094 => unsignedOf 16 s.aux.fac.skew
  | 0x098 => s.acbStatus + 4 * w.selfcalFail.toNat + 64 * w.refFail.toNat
  | 0x0A0 => s.aux.calCount
  | 0x0C0 => 2 * w.avValid.toNat
  | 0x0D0 => if f = 7 then s.win.writeCrc else 0
  | _ => 0

/-- What the host got by the access. -/
def State.gave (s : State) (l : List Nat) : State := { s with win.data := l.map (BitVec.ofNat 32) }

/-- RC fields of an offset return to 0 for the function that read them (R536). -/
def State.clearRc (s : State) (f off : Nat) : State :=
  match off with
  | 0x040 => s.modWin f fun w => { w with stepped := false }
  | 0x070 => s.modWin f fun w => { w with f3Count := 0 }
  | 0x074 => s.modWin f fun w => { w with count0 := 0 }
  | 0x078 => s.modWin f fun w => { w with count1 := 0 }
  | 0x07C => s.modWin f fun w => { w with count2 := 0 }
  | 0x098 => s.modWin f fun w => { w with selfcalFail := false, refFail := false }
  | 0x0D0 => if f = 7 then { s with win.writeCrc := 0 } else s
  | _ => s

/-- REG_RC_READ (R5, R536). -/
def execRegRcRead (f : Fin 8) (off : Nat) (s : State) : Host.Outcome State Fault Refusal :=
  .next (if s.windowOn f then (s.gave [s.regWord f off false]).clearRc f off else s)

/-- REG_LOW_WORD_READ (R536): the high word is latched for the reading function; SAMPLE_INDEX is latched with SYSTEM_TIME only. -/
def execRegLowWordRead (f : Fin 8) (off : Nat) (s : State) : Host.Outcome State Fault Refusal :=
  .next (
    if !s.windowOn f then s
    else
      let s' := s.gave [s.regWord f off false]
      match s.wide f off with
      | some v => if off = 0x050 ∨ off = 0x048 then s' else s'.modWin f fun w => { w with latch := Tbl.set 0 w.latch (off + 4) (v / 2 ^ 32) }
      | none => s')

/-- SYSTEM_TIME_READ (R537): the low word latches the high word and SAMPLE_INDEX. -/
def execSystemTimeRead (f : Fin 8) (s : State) : Host.Outcome State Fault Refusal :=
  .next (
    if !s.windowOn f then s
    else (s.gave [s.nowNs % 2 ^ 32]).modWin f fun w =>
      { w with latch := Tbl.set 0 (Tbl.set 0 (Tbl.set 0 w.latch 0x04C (s.nowNs / 2 ^ 32)) 0x050 (s.time.index % 2 ^ 32)) 0x054
                 (s.time.index / 2 ^ 32) })

/-- RTC_SEC_READ (R224). -/
def execRtcSecRead (f : Fin 8) (s : State) : Host.Outcome State Fault Refusal :=
  .next (if s.windowOn f then (s.gave [s.rtc.sec]).rtcLatch f else s)

/-! ### Writes (R539 to R542) -/

/-- Writes act: the window is served and the device is not in F4. -/
def State.windowWrites (s : State) (f : Nat) : Bool := s.windowOn f && !s.fault.f4

/-- RTC_HALT. -/
def execRtcHalt (f : Fin 8) (s : State) : Host.Outcome State Fault Refusal := .next (if s.windowWrites f then s.rtcHalt f else s)

/-- RTC_RELEASE. -/
def execRtcRelease (f : Fin 8) (s : State) : Host.Outcome State Fault Refusal := .next (if s.windowWrites f then s.rtcRelease f else s)

/-- RTC_COUNTER_WRITE. -/
def execRtcCounterWrite (f : Fin 8) (reg : Fin 8) (v : BitVec 32) (s : State) : Host.Outcome State Fault Refusal :=
  .next (if s.windowWrites f then s.rtcCounterWrite f reg v else s)

/-- RTC_TRIM_WRITE. -/
def execRtcTrimWrite (f : Fin 8) (v : BitVec 32) (s : State) : Host.Outcome State Fault Refusal :=
  .next (if s.windowWrites f then s.rtcTrimWrite f v else s)

/-- AV_CTL.LATCH: taken at the next sample index. -/
def State.avLatch (s : State) (f : Nat) : State := s.modWin f fun w => { w with avPending := true }

/-- AV_LATCH (R537). -/
def execAvLatch (f : Fin 8) (s : State) : Host.Outcome State Fault Refusal := .next (if s.windowWrites f then s.avLatch f else s)

/-- RTC_CTL: a change of HALT is the procedure of R226; the alarm enables act with no further condition (R539). -/
def State.rtcCtlWrite (s : State) (f : Nat) (v : BitVec 32) : State :=
  let s := { s with rtc.alm0En := v.getLsbD 1, rtc.alm1En := v.getLsbD 2 }
  if v.getLsbD 0 && !s.rtc.halt then s.rtcHalt f else if !v.getLsbD 0 && s.rtc.halted then s.rtcRelease f else s

/-- The W1C bits of RTC_STATUS. -/
def Rtc.clear (r : Rtc) (v : BitVec 32) : Rtc :=
  let keep (b : Bool) (i : Nat) := b && !v.getLsbD i
  { r with badDate := keep r.badDate 2, writeRej := keep r.writeRej 3, ranOnBattery := keep r.ranOnBattery 5, bpor := keep r.bpor 6,
           alm0 := keep r.alm0 7, alm1 := keep r.alm1 8 }

/-- A write to the RTC block (R538, R539). -/
def State.rtcWrite (s : State) (f o : Nat) (v : BitVec 32) : State :=
  if !s.rtcFn f then s.rtcReject
  else if o < 0x20 then s.rtcCounterWrite f (o / 4) v
  else if o = 0x20 then s.rtcCtlWrite f v
  else if o = 0x24 then { s with rtc := s.rtc.clear v }
  else if o = 0x28 then s.rtcTrimWrite f v
  else if 0x40 ≤ o ∧ o < 0x58 then { s with rtc.a0 := s.rtc.a0.put ((o - 0x40) / 4) v.toNat }
  else if 0x60 ≤ o ∧ o < 0x78 then { s with rtc.a1 := s.rtc.a1.put ((o - 0x60) / 4) v.toNat }
  else s

/-- A write to a queue pair (R540, R541): bases and size only while ENABLE = 0. -/
def State.qpWrite (s : State) (f : Fin 7) (q : Fin 16) (o : Nat) (v : BitVec 32) : State :=
  let setup (g : Qp → Qp) : State := if (s.qpOf f q).enable then s else s.modQp f q g
  match o with
  | 0x00 => setup fun x => { x with sqBaseLo := v }
  | 0x04 => setup fun x => { x with sqBaseHi := v }
  | 0x08 => setup fun x => { x with cqBaseLo := v }
  | 0x0C => setup fun x => { x with cqBaseHi := v }
  | 0x10 => setup fun x => { x with size := v &&& 0x0F0F#32 }
  | 0x14 => if v.getLsbD 0 then s.qpEnable f q else s.qpDisable f q
  | 0x18 => s.sqDoorbell f q v.toNat []
  | 0x1C => s.cqDoorbell f q v.toNat []
  | _ => s

/-- A word of the MSI-X table: a vector that is unmasked while pending is raised (PCIe, log 26). -/
def State.msixWrite (s : State) (f i : Nat) (v : BitVec 32) : State :=
  let s := s.modWin f fun w => { w with msix := Tbl.set (if i % 4 = 3 then 1 else 0) w.msix i v.toNat }
  if i % 4 = 3 ∧ !v.getLsbD 0 ∧ (s.winFn f).pba.getLsbD (i / 4) then
    (s.modWin f fun w => { w with pba := w.pba &&& ~~~ (1#64 <<< (i / 4)) }).raise (f + 1) (i / 4)
  else s

/-- A 32-bit write by its access code (R5): reads-only fields ignore it, W1C bits clear, RW fields take the value. -/
def State.regWrite (s : State) (f : Fin 8) (off : Nat) (v : BitVec 32) : State :=
  if !s.windowWrites f || off % 4 != 0 then s
  else if 0x1000 ≤ off ∧ off < 0x2000 then s.rtcWrite f (off - 0x1000) v
  else if off = 0x060 then (if s.rtcFn f ∧ v.getLsbD 9 then { s with power.reverseSeen := false } else s)
  else if off = 0x0C0 then (if v.getLsbD 0 then s.avLatch f else s)
  else if h : f.val < 7 then
    if 0x2000 ≤ off ∧ off < 0x2400 then
      s.qpWrite ⟨f.val, h⟩ (Fin.ofNat 16 ((off - 0x2000) / 0x40)) ((off - 0x2000) % 0x40) v
    else if off = 0x3000 then
      s.modEv (f.val + 1) fun e => { e with dropped := e.dropped && !v.getLsbD 30, resetDone := e.resetDone && !v.getLsbD 31 }
    else if 0x8000 ≤ off ∧ off < 0x8400 then s.msixWrite f ((off - 0x8000) / 4) v
    else s
  else s

/-- REG_WRITE_PLAIN (R5). -/
def execRegWritePlain (f : Fin 8) (off : Nat) (v : BitVec 32) (s : State) : Host.Outcome State Fault Refusal := .next (s.regWrite f off v)

/-! ### SPI transactions (R543) -/

/-- Is a transaction's address and count good: 1 to 64 words from a multiple of 4? -/
def spiRange (addr count : Nat) : Bool := decide (addr % 4 = 0 ∧ 1 ≤ count ∧ count ≤ 64)

/-- SPI_REG_READ: the words latched together, then their CRC-16; RC fields covered clear for the port, RTC_SEC takes its latch. -/
def execSpiRegRead (addr count : Nat) (s : State) : Host.Outcome State Fault Refusal :=
  .next (
    let s := s.spiFirst
    if !s.windowOn 7 || !spiRange addr count then { s with win.spiOut := [] }
    else
      let offs := (List.range count).map fun i => addr + 4 * i
      let rtcNow := offs.contains 0x1000
      let ws := offs.map fun o => if 0x1000 ≤ o ∧ o < 0x1020 then s.rtcWord 7 (o - 0x1000) rtcNow else s.regWord 7 o true
      let bs := ws.flatMap (leBytes 4)
      let s := { s.gave ws with win.spiOut := bs ++ leBytes 2 (crc16 bs).toNat }
      offs.foldl (fun (s : State) o => if o = 0x1000 then s.rtcLatch 7 else s.clearRc 7 o) s)

/-- SPI_REG_WRITE: the bytes after OP; a wrong length or CRC counts in WRITE_CRC, else the words act in ascending order. -/
def execSpiRegWrite (bytes : Bytes) (s : State) : Host.Outcome State Fault Refusal :=
  .next (
    let s := s.spiFirst
    let addr := fld bytes 0 2
    let count := fld bytes 2 1
    let body := bytes.take (3 + 4 * count)
    if !s.windowWrites 7 then s
    else if bytes.length ≠ 3 + 4 * count + 2 ∨ fld bytes (3 + 4 * count) 2 ≠ (crc16 body).toNat then
      { s with win.writeCrc := min 65535 (s.win.writeCrc + 1) }
    else if !spiRange addr count then s
    else (List.range count).foldl (fun (s : State) i => s.regWrite 7 (addr + 4 * i) (BitVec.ofNat 32 (fld bytes (3 + 4 * i) 4))) s)

/-! ### Balls derived from the state (R519, R503) -/

/-- MCLKj runs: its course's clock, or the course its SOURCE names (R31); not while its driver is at high impedance (R57). -/
def State.mclkBall (s : State) (j : Nat) : Bool :=
  let k := if j < 6 then j else s.key (kMclkSource j)
  decide (k < 6) && (s.course k).running && !(s.mclk j).hiZ

/-- PE_WAKE_N (R530): low while the link is in L2 and PF0 has a pending vector condition of R425. -/
def State.peWakeN (s : State) : Level := if s.host.pcieL2 && s.intStatus 0 != 0 then .low else .hiZ

/-- The transmitters drive their balls: power line, mortar lanes, uplinks. -/
def State.plcBall (s : State) : Bool := s.plcTxOn
def State.laneBall (s : State) (m : Nat) : Bool := s.laneEnabled m
def State.uplinkBall (s : State) (k : Nat) : Bool := s.uplinkOn k && s.kiln.ph.k6Open

end Sys2Proof.Machine
end

