-- ==== Sys2Proof/Machine/Swap.lean ====
section
/-! DEFINITION. Configuration sets (15, 16): editing, reading and copying a set (R406 to R408), the cross-key checks of every chapter, and the
acceptance, status and cancelling of a swap (R409, R410). -/

namespace Sys2Proof.Machine

/-! ### Entries of a set (R408) -/

/-- One entry: KEY, LEN, 4 reserved bytes, VALUE padded to a multiple of 8. -/
def keyEntry (ks : KeySet) (id : Nat) : Bytes :=
  let n := (keyInfo id).elim 0 (·.size)
  leBytes 2 id ++ leBytes 2 n ++ zeros 4 ++ pad8 (leBytes n (ks.get id))

/-- What checking the entries of a CFG_EDIT finds: the edits, or the reply to the first entry that fails. -/
inductive Edits where
  | bad (r : Res)
  | ok (l : List (Nat × Nat))
  deriving DecidableEq, Repr

/-- One entry at an offset of the parameters: its key, value and length with padding, or the reply. -/
def checkEntry (bs : Bytes) (o : Nat) : Res ⊕ (Nat × Nat × Nat) :=
  if bs.length < o + 8 then .inl (Res.err stBadParam subLength 12)
  else
    let id := fld bs o 2
    match keyInfo id with
    | none => .inl (Res.field (32 + o))
    | some i =>
      let n := ceilDiv i.size 8 * 8
      if fld bs (o + 2) 2 ≠ i.size then .inl (Res.field (32 + o))
      else if !allZero bs (o + 4) 4 then .inl (Res.reserved (36 + o))
      else if bs.length < o + 8 + n then .inl (Res.err stBadParam subLength 12)
      else
        let v := fld bs (o + 8) i.size
        if !i.range.ok i.size v || !allZero bs (o + 8 + i.size) (n - i.size) then .inl (Res.field (40 + o))
        else .inr (id, v, 8 + n)

/-- `k` entries from an offset; the block ends with the last. -/
def checkEdits (bs : Bytes) : Nat → Nat → List (Nat × Nat) → Edits
  | 0, o, l => if bs.length = o then .ok l.reverse else .bad (Res.err stBadParam subLength 12)
  | k + 1, o, l =>
    match checkEntry bs o with
    | .inl r => .bad r
    | .inr (id, v, n) => checkEdits bs k (o + n) ((id, v) :: l)

/-- Is the configuration partition read-only (R446)? -/
def State.cfgReadOnly (s : State) : Bool := s.store.ro.contains 1

/-- SHADOW_GEN and 4 reserved bytes. -/
def genResult (g : Nat) : Bytes := leBytes 4 g ++ zeros 4

/-- CFG_EDIT (R406 to R408): every entry is checked before any is applied. -/
def cfgEditBody : Body := fun c p s =>
  if p.isBulk then (s, .reply (Res.field 1))
  else if p.params.length < 8 then (s, .reply (Res.err stBadParam subLength 12))
  else
    let n := fld p.params 0 2
    if n < 1 ∨ 1024 < n then (s, .reply (Res.field 32))
    else if !allZero p.params 2 6 then (s, .reply (Res.reserved 34))
    else match checkEdits p.params n 8 [] with
    | .bad r => (s, .reply r)
    | .ok l =>
      if l.any (fun e => isLegalKey e.1) && !b0Legal c.bay c.role then (s, .reply (Res.err stDenied subLegalKey))
      else if s.cfg.pend.isSome then (s, .reply (Res.err stBusy 0))
      else if s.cfgReadOnly then (s, .reply (Res.err stFault 0))
      else
        let sh := l.foldl (fun (ks : KeySet) e => ks.put e.1 e.2) s.cfg.shadow
        let g := (sh.gen + 1) % 2 ^ 32
        ({ s with cfg.shadow := { sh with gen := g } }, .reply (Res.ok (genResult g)))

def execCfgEdit (p : Packet) (s : State) : Host.Outcome State Fault Refusal := .next (command 0x0101 cfgEditBody p s)

/-- CFG_READ (R407). -/
def cfgReadBody : Body := fun _ p s =>
  if p.isBulk then (s, .reply (Res.field 1))
  else if p.params.length < 8 then (s, .reply (Res.err stBadParam subLength 12))
  else
    let n := fld p.params 2 2
    let ids := (List.range n).map fun i => fld p.params (8 + 2 * i) 2
    if 1 < fld p.params 0 1 then (s, .reply (Res.field 32))
    else if !allZero p.params 1 1 then (s, .reply (Res.reserved 33))
    else if n < 1 ∨ 1024 < n then (s, .reply (Res.field 34))
    else if !allZero p.params 4 4 then (s, .reply (Res.reserved 36))
    else if p.params.length ≠ 8 + ceilDiv (2 * n) 8 * 8 then (s, .reply (Res.err stBadParam subLength 12))
    else if !allZero p.params (8 + 2 * n) 8 then (s, .reply (Res.reserved (40 + 2 * n)))
    else match (List.range n).find? fun i => (keyInfo (ids.getD i 0)).isNone with
    | some i => (s, .reply (Res.field (40 + 2 * i)))
    | none =>
      let ks := if fld p.params 0 1 = 0 then s.cfg.active else s.cfg.shadow
      (s, .reply (Res.ok (leBytes 4 ks.gen ++ zeros 4 ++ ids.flatMap (keyEntry ks))))

def execCfgRead (p : Packet) (s : State) : Host.Outcome State Fault Refusal := .next (command 0x0102 cfgReadBody p s)

/-- CFG_COPY (R406). -/
def cfgCopyBody : Body := fixedBody 0 [] fun _ _ s =>
  if s.cfg.pend.isSome then (s, .reply (Res.err stBusy 0))
  else if s.cfgReadOnly then (s, .reply (Res.err stFault 0))
  else
    let g := (s.cfg.active.gen + 1) % 2 ^ 32
    ({ s with cfg.shadow := { s.cfg.active with gen := g } }, .reply (Res.ok (genResult g)))

def execCfgCopy (p : Packet) (s : State) : Host.Outcome State Fault Refusal := .next (command 0x0103 cfgCopyBody p s)

/-! ### Cross-key checks: each gives the keys that fail in a set -/

/-- Keep the keys whose condition holds. -/
def failing (l : List (Bool × Nat)) : List Nat := (l.filter (·.1)).map (·.2)

/-- R18: wide mode requires a running ANALYSER. -/
def checkWide (role : DevRole) (ks : KeySet) : List Nat :=
  failing ((List.range 6).map fun k => (courseWide ks k && role != .analyser, kCourse k 1))

/-- R41: range pairs. -/
def checkPair (ks : KeySet) (h : Nat) : List Nat :=
  match pairOf ks h with
  | none => []
  | some l =>
    let others := (List.range 48).any fun x => x != h && (pairOf ks x == some l || pairOf ks x == some h)
    failing [(courseOf l != courseOf h || l == h || (pairOf ks l).isSome || others, kC h 7),
      (ks.get (kC h 0) != 2, kC h 0), (ks.get (kC l 0) != 2, kC l 0),
      (decide (primaryFs ks h < 2 * primaryFs ks l ∨ 1024 * primaryFs ks l < primaryFs ks h), kC h 1)]

/-- R41, R46: the entries of a TC_TABLE below TC_POINTS ascend, those from it on are 0. -/
def checkTc (ks : KeySet) (c : Nat) : List Nat :=
  let n := ks.get (kC c 0x0D)
  let t := ks.get (kC c 0x0E)
  failing [((List.range (n - 1)).any (fun i => decide ((tcEntry t (i + 1)).1 ≤ (tcEntry t i).1)) || natBits t (64 * n) (64 * (8 - n)) != 0,
    kC c 0x0E)]

/-- The channels that enabled voltage sets and metering points name, each with the key that names it. -/
def namedChannels (ks : KeySet) : List (Nat × Nat) :=
  let of (ch : List (Option Nat)) (key : Nat → Nat) := (List.range 4).filterMap fun i => ((ch[i]?).join).map fun c => (key i, c)
  ((enabledVsets ks).flatMap fun v => of (vsChannels ks v) fun i => kVs v (2 + i))
    ++ (enabledMps ks).flatMap fun m => of (mpChannels ks m) fun i => kMp m (3 + i)

/-- R62: types, courses, and channels named twice. -/
def checkNamed (ks : KeySet) : List Nat :=
  let l := namedChannels ks
  failing (l.map fun e =>
    (ks.get (kC e.2 0) != (if e.1 < kVs 0 0 then 2 else 1) || !courseEnabled ks (courseOf e.2)
      || l.any (fun x => x.1 != e.1 && x.2 == e.2), e.1))

/-- The channels of one object lie in one course (R62). -/
def oneCourse (ch : List (Option Nat)) : Bool := (((ch.filterMap id).map courseOf).eraseDups).length ≤ 1

def present (ch : List (Option Nat)) (i : Nat) : Bool := ((ch[i]?).join).isSome

/-- R62: an enabled voltage set. -/
def checkVset (ks : KeySet) (v : Nat) : List Nat :=
  let ch := vsChannels ks v
  let need := match vsConfig ks v with | 0 => [0] | 1 => [0, 1, 2] | _ => [0, 1]
  failing ([(!oneCourse ch, kVs v 2), ((vsRef ks v).isNone, kVs v 9)] ++ need.map fun i => (!present ch i, kVs v (2 + i)))

/-- R62: an enabled metering point. -/
def checkMp (ks : KeySet) (m : Nat) : List Nat :=
  let ch := mpChannels ks m
  let v := mpVset ks m
  let need := match mpWiring ks m with | 0 => [0] | 1 => [0, 1, 2] | _ => [0, 2]
  let wide (k : Option Nat) := k.elim false (courseWide ks)
  failing ([(!oneCourse ch, kMp m 3), (!vsEnabled ks v || wide (vsCourse ks v) != wide (mpCourse ks m), kMp m 1),
      (mpWiring ks m == 1 && vsConfig ks v != 1 || mpWiring ks m == 2 && vsConfig ks v != 2, kMp m 2)]
    ++ (need.map fun i => (!present ch i, kMp m (3 + i)))
    ++ (List.range 4).filterMap fun i => ((ch[i]?).join).map fun c => ((highOf ks c).isSome, kMp m (3 + i)))

/-- R97: power quality. -/
def checkPq (ks : KeySet) (v : Nat) : List Nat :=
  let g (i : Nat) := ks.get (kPq v i)
  failing [(g 0 == 1 && !vsEnabled ks v, kPq v 0), (decide (g 2 ≤ g 4 + g 5), kPq v 4), (decide (g 3 ≤ g 2 + 2 * g 5), kPq v 2),
    (decide (g 6 ≤ g 7), kPq v 7)]

/-- R134, R147: pulse outputs and contactor feedback name enabled objects. -/
def checkNames (ks : KeySet) : List Nat :=
  failing (((List.range 16).map fun p => (ks.get (kPulse p 0) == 1 && !mpEnabled ks (ks.get (kPulse p 1)), kPulse p 1))
    ++ (List.range 16).map fun m => (decide (ks.get (kMp m 0x0B) < 8) && !diEnabled ks (ks.get (kMp m 0x0B)), kMp m 0x0B))

/-- The weights of the enabled slots that convert on a converter (R183). -/
def weightOn (ks : KeySet) (k : Nat) : Nat :=
  (((List.range 16).map (slotCfg ks)).filter fun c => c.run && c.uses k).foldl (fun n c => n + c.weight) 0

/-- R183: accumulator slots. -/
def checkSlot (ks : KeySet) (i : Nat) : List Nat :=
  let c := slotCfg ks i
  if c.run then
    failing [((c.uses 0 && 64 < weightOn ks 0) || (c.uses 1 && 64 < weightOn ks 1), kSlot i 3),
      ((c.conv == 2 || c.ratio) && 7 < c.input, kSlot i 1)]
  else []

/-- R187: window comparators. -/
def checkWc (ks : KeySet) (w : Nat) : List Nat :=
  if ks.get (kWc w 0) = 1 then
    let lo := ks.getS (kWc w 2)
    let hi := ks.getS (kWc w 3)
    let hy : Int := ks.get (kWc w 6)
    failing [(ks.get (kSlot (ks.get (kWc w 1)) 0) != 1, kWc w 1), (decide (hi ≤ lo), kWc w 2),
      (ks.get (kWc w 4) == 0 && decide (hi - hy < lo + hy), kWc w 6)]
  else []

/-- R193: the statistics channel. -/
def checkCal (ks : KeySet) : List Nat :=
  let c := ks.get (kCal 3)
  failing [(ks.get (kCal 0) == 1 && !(ks.get (kC c 0) == 1 && (enabledVsets ks).any fun v => (vsChannels ks v).contains (some c)), kCal 3)]

/-- R210: the order of time sources. -/
def checkTime (ks : KeySet) : List Nat := failing [(!srcOrderOk (ks.get (kTime 0)), kTime 0)]

/-- R237: demand, prepayment and contactors. -/
def checkBill (ks : KeySet) : List Nat :=
  let dem := ks.get (kBill 2)
  let sub := ks.get (kBill 3)
  let gpio (m : Nat) := ks.get (kBillMp m 6)
  failing ([(dem % sub != 0, kBill 3), (dem / sub % ks.get (kBill 1) != 0, kBill 2)]
    ++ ((List.range 16).map fun m => (!mpEnabled ks m && ks.get (kBillMp m 0) == 1, kBillMp m 0))
    ++ (List.range 16).map fun m =>
      (gpio m != 0xFF && (!mpEnabled ks m || (List.range 16).any fun x => x != m && gpio x == gpio m), kBillMp m 6))

/-- R261: every SEAL.LIST entry names an object and one of its attributes. -/
def checkSeal (s : State) (ks : KeySet) : List Nat :=
  failing [(!(List.range 32).all fun i => sealEntryOk s (sealEntry ks i), kBill 8)]

/-- R273: the power-line port. -/
def checkPlc (ks : KeySet) : List Nat :=
  failing [(ks.get (kPlc 0) == 1 && !vsEnabled ks (ks.get (kPlc 3)), kPlc 3), (decide (ks.get (kPlc 8) < 3 * ks.get (kPlc 5)), kPlc 8)]

/-- R357: lane modes under the role of the set itself. -/
def checkLanes (ks : KeySet) : List Nat :=
  let role := DevRole.ofCode (ks.get kRole)
  let pair := role == .root || role == .standbyRoot
  let mode (m : Nat) := ks.get (kLane m 0)
  let n (x : Nat) := ((List.range 4).filter fun m => mode m == x).length
  failing (((List.range 4).map fun m =>
      ((mode m == 1 && (pair || 2 < n 1)) || (mode m == 3 && (!pair || 1 < n 3)), kLane m 0))
    ++ [((role == .leaf || role == .relay) && n 1 == 0, kLane 0 0), (ks.get (kMortar 0) == ks.get (kMortar 1), kMortar 0)])

/-- The islands whose row of R428 reads DENIED / PINNED. -/
def pinnedRows : List Nat := (List.range 14).map (· + 72) ++ [92, 94, 95]

/-- R428: the owner of a pinned island is 1. -/
def checkOwners (ks : KeySet) : List Nat := failing (pinnedRows.map fun i => (ks.get (kOwner i) != 1, kOwner i))

/-- R467: the power-fail level. -/
def checkPower (ks : KeySet) : List Nat := failing [(decide (ks.get (kPwr 0) + ks.get (kPwr 1) < 450), kPwr 0)]

/-- Every key of a set that fails a cross-key check of any chapter. -/
def State.crossFails (s : State) (ks : KeySet) : List Nat :=
  checkWide s.kiln.role ks ++ ((List.range 48).flatMap fun c => checkPair ks c ++ checkTc ks c) ++ checkNamed ks
    ++ (enabledVsets ks).flatMap (checkVset ks) ++ (enabledMps ks).flatMap (checkMp ks) ++ (List.range 8).flatMap (checkPq ks)
    ++ checkNames ks ++ (List.range 16).flatMap (checkSlot ks) ++ (List.range 8).flatMap (checkWc ks) ++ checkCal ks ++ checkTime ks
    ++ checkBill ks ++ checkSeal s ks ++ checkPlc ks ++ checkLanes ks ++ checkOwners ks ++ checkPower ks

/-- LAST_CHECK_KEY (R410): the failing key of the lowest identifier, 0xFFFF for none. -/
def State.firstFail (s : State) (ks : KeySet) : Nat := (s.crossFails ks).foldl min 0xFFFF

/-! ### Swapping (R409, R410, R438) -/

/-- Do two sets differ in a key that a test picks? -/
def KeySet.differ (a b : KeySet) (sel : Nat → Bool) : Bool :=
  ((a.vals ++ b.vals).map (·.1)).any fun k => sel k && a.get k != b.get k

/-- ACTIVE_GEN, 4 reserved bytes and SWAP_INDEX. -/
def swapResult (g i : Nat) : Bytes := leBytes 4 g ++ zeros 4 ++ leBytes 8 i

/-- CFG_SWAP (R409): the checks, then the swap is armed and its intent journaled (R438 step 1). -/
def cfgSwapBody : Body := fixedBody 16 [(2, 2)] fun c p s =>
  let b := fld p.params 0 1
  let v := fld p.params 1 1
  let g := fld p.params 4 4
  let t := fld p.params 8 8
  let sh := s.cfg.shadow
  if 3 < b then (s, .reply (Res.field 32))
  else if 7 < v ∨ (b ≠ 1 ∧ v ≠ 0) then (s, .reply (Res.field 33))
  else if b ≠ 3 ∧ t ≠ 0 then (s, .reply (Res.field 40))
  else if s.cfg.active.differ sh isLegalKey && !b0Legal c.bay c.role then (s, .reply (Res.err stDenied subLegalKey))
  else if s.cfg.pend.isSome then (s, .reply (Res.err stBusy 0))
  else if s.cfgReadOnly then (s, .reply (Res.err stFault 0))
  else if g ≠ sh.gen then (s, .reply (Res.err stDenied subCas sh.gen))
  else if b = 3 ∧ !s.time.valid then (s, .reply (Res.err stNotReady 0))
  else if b = 3 ∧ t ≤ s.nowNs then (s, .reply (Res.field 40))
  else if b = 1 ∧ !vsEnabled s.cfg.active v then (s, .reply (Res.field 33))
  else
    let k := s.firstFail sh
    let s := { s with cfg.lastCheckKey := k }
    if k ≠ 0xFFFF then (s, .reply (Res.field 0))
    else
      let w : Swap := { boundary := b, vset := v, atTime := t, from_ := s.time.index,
                        sample := if b = 0 then some (s.time.index + 1) else none, bay := c.bay, role := c.role, gen := sh.gen }
      let s := { s with cfg.pend := some w, cfg.lastBoundary := b }.journalAdd 0x06 0 0 0 [sh.gen, b]
      if b = 0 then (s, .hold .swap) else (s, .reply (Res.accepted (swapResult sh.gen 0)))

def execCfgSwap (p : Packet) (s : State) : Host.Outcome State Fault Refusal := .next (command 0x0110 cfgSwapBody p s)

/-- CFG_STATUS (R410). -/
def cfgStatusBody : Body := fixedBody 0 [] (readBody fun _ _ s =>
  let c := s.cfg
  Res.ok (leBytes 4 c.active.gen ++ leBytes 4 c.shadow.gen ++ leBytes 1 c.pend.isSome.toNat ++ leBytes 1 c.lastBoundary
    ++ leBytes 2 c.lastCheckKey ++ zeros 4 ++ leBytes 8 c.lastSwapIndex ++ leBytes 8 c.lastSwapTime))

def execCfgStatus (p : Packet) (s : State) : Host.Outcome State Fault Refusal := .next (command 0x0111 cfgStatusBody p s)

/-- CFG_CANCEL (R407, R439): by the bay and role that issued the swap, or B0 Legal.  The spec states no reply of an IMMEDIATE CFG_SWAP that is
cancelled: its status is a free value (log 3). -/
def cfgCancelBody : Body := fixedBody 0 [] fun c _ s =>
  match s.cfg.pend with
  | none => (s, .reply (Res.err stDenied subNotArmed))
  | some w =>
    if !(b0Legal c.bay c.role || (c.bay == w.bay && c.role == w.role)) then (s, .reply (Res.err stDenied subRole))
    else
      let s := (({ s with cfg.pend := none }).pulse 1002 (256 * w.gen)).roFollow
      if w.boundary = 0 then
        let x := s.draw
        (x.2.finishKind (fun f => decide (f.kind = .swap)) { status := x.1 % 65536 }, .reply (Res.ok))
      else (s, .reply (Res.ok))

def execCfgCancel (p : Packet) (s : State) : Host.Outcome State Fault Refusal := .next (command 0x0112 cfgCancelBody p s)

end Sys2Proof.Machine
end

