-- ==== Sys2Proof/Machine/SwapApply.lean ====
section
/-! DEFINITION. CFG_SWAP_APPLY (R438): what a configuration swap does at its swap sample, by chapter. -/

namespace Sys2Proof.Machine

/-! ### The swap sample (R409) -/

/-- Does the next boundary end the profile interval in progress (R241, R244)? -/
def State.intervalNext (s : State) : Bool := (s.timeAt (s.time.index + 1) 0).profGridNow != s.bill.profGrid

/-- The swap sample of the pending swap, once it is known. -/
def State.swapSample (s : State) : Option Nat :=
  match s.cfg.pend with
  | none => none
  | some w =>
    match w.sample with
    | some x => some x
    | none =>
      if w.boundary = 3 then
        if w.atTime ≤ s.time.ns then some (max (w.from_ + 1) (s.time.index - (s.time.ns - w.atTime) / 15625))
        else if w.atTime ≤ s.time.ns + 15625 then some (s.time.index + 1) else none
      else if w.boundary = 2 ∧ s.intervalNext then some (s.time.index + 1)
      else none

/-! ### What changes between two sets -/

def vsKeys (v : Nat) : List Nat := (List.range 12).map (kVs v)
def pqKeys (v : Nat) : List Nat := (List.range 14).map (kPq v)
def mpKeys (m : Nat) : List Nat := (List.range 14).map (kMp m)
/-- Channels, WIRING and VSET of a metering point: its phases begin in creep (R82). -/
def creepKeys (m : Nat) : List Nat := [1, 2, 3, 4, 5, 6].map (kMp m)
/-- PROFILE_MIN, DEMAND_MIN and DEMAND_SUB (R262). -/
def gridKeys : List Nat := [kBill 1, kBill 2, kBill 3]

/-- Does a metering point begin in creep? -/
def mpBegins (old new : KeySet) (m : Nat) : Bool := mpEnabled new m && (!mpEnabled old m || old.differAt new (creepKeys m))

/-! ### Under the old set -/

/-- A crossing of a reference before the swap sample that no decision has placed yet closes its half-cycle under the old set (R94); it is placed here
(log 25). -/
def State.lateCrossing (s : State) (v : Nat) (x : Crossing) : State :=
  let ks := s.cfg.active
  let b := s.bndAt (vsWide ks v) x.at_ x.rising false
  if vsEnabled ks v && s.crossingFits v x && decide (x.at_ < s.time.index * 2 ^ 17) then s.boundaryNow v b else s

/-- The window in progress of a set that restarts or ends is cut (R94, R545). -/
def State.swapWindow (s : State) (new : KeySet) (v : Nat) : State :=
  let ks := s.cfg.active
  if vsEnabled ks v && (!vsEnabled new v || detRestarts ks new v) then s.closeWindow v s.cutBnd true [] else s

/-- Open records of a monitor whose keys change close with SWAP_CUT (R120). -/
def State.swapRecords (s : State) (new : KeySet) (v : Nat) : State :=
  let ks := s.cfg.active
  if pqEnabled ks v && ks.differAt new (vsKeys v ++ pqKeys v) then s.pqClose v 4 else s

/-- The swap sample is a transfer point of a metering point it changes (R123); an interval closes when the grid changes or the metering point is
disabled (R262). -/
def State.swapTransfer (s : State) (new : KeySet) (m : Nat) : State :=
  let ks := s.cfg.active
  let s := if ks.differAt new (mpKeys m) then s.transferMp m (2 * s.time.index) s.time.index s.time.ns else s
  if !mpEnabled new m || ks.differAt new gridKeys then
    (s.pushEnd s.time.index 0x400 0x400 true (ks.differAt new gridKeys) m).settle (fun _ _ => true) m
  else s

/-- Everything that closes under the old set. -/
def State.swapCloses (s : State) (new : KeySet) (late : List (Fin 8 × Crossing)) : State :=
  let ks := s.cfg.active
  let s := late.foldl (fun (s : State) x => s.lateCrossing x.1 x.2) s
  let s := (if s.cfg.pend.any fun w => w.boundary = 2 then s.profGridEnd else s).settleAll
  let s := (List.range 8).foldl (fun (s : State) v => (s.swapWindow new v).swapRecords new v) s
  (enabledMps ks).foldl (fun (s : State) m => s.swapTransfer new m) s

/-! ### Under the new set -/

/-- Pulse outputs (R134, R139): a changed source or constant clears the generator; a disabled output sits at its inactive level. -/
def State.swapPulse (s : State) (old : KeySet) (p : Nat) : State :=
  let ks := s.cfg.active
  let s := if old.differAt ks [kPulse p 1, kPulse p 2, kPulse p 3] then s.modGen p PulseGen.cleared else s
  if !old.differAt ks [kPulse p 0, kPulse p 5, kPulse p 6] then s
  else if ks.get (kPulse p 0) = 1 then s.drivePulse p (s.gen p).stopAt.isSome
  else
    let s := s.modGen p fun x => { x.cleared with stopAt := none, short := false, overrun := false }
    ((s.drivePulse p false).level (608 + 2 * p) false).level (608 + 2 * p + 1) false

/-- A dual-channel input that is enabled starts as OPEN_CONTACT (R141); a disabled one asserts nothing; a running timer at or above a new T_DISC latches
(R145). -/
def State.swapDi (s : State) (old : KeySet) (d : Nat) : State :=
  if old.get (kDi d 0) = s.cfg.active.get (kDi d 0) then
    match (s.di d).timer with
    | some t => if diEnabled s.cfg.active d && decide (tDisc s.cfg.active d ≤ t) then s.diLatch d else s
    | none => s
  else [1, 2, 3].foldl (fun (s : State) n => s.level (640 + 4 * d + n) false) (s.modDi d fun _ => {})

/-- The MARKER that the next sample of a running course carries (R437). -/
def State.mark (s : State) (k n : Nat) : State := s.modCourse k fun x => { x with marker := n }

/-- A course at a swap (R32, R58, R165, R170, R437). -/
def State.swapCourse (s : State) (old : KeySet) (k : Nat) : State :=
  let ks := s.cfg.active
  let was := courseEnabled old k
  let is := courseEnabled ks k
  let s :=
    if is && !was then ((s.startCourse k false).mark k 2).bondOn k
    else if was && !is then (((s.stopCourse k).bondOff k).setReady (10 + k) false).setReady (16 + k) false
    else if is && courseWide old k != courseWide ks k then (s.startCourse k true).mark k 2
    else if is then s.mark k 1 else s
  if old.differAt ks ((List.range 5).map (kCourse k)) then s.unlatch k else s

/-- A clock copy that stops ends its fault (R57). -/
def State.swapCopy (s : State) (j : Nat) : State := if s.mclkRuns j then s else s.modMclk j fun _ => {}

/-- A channel keeps the correction it last applied; TC_HOLD is set where its slot gives no mean: it has just begun to use one, or the slot is not configured (R48). -/
def State.tcKeep (s : State) (old : KeySet) (c : Nat) : State :=
  let ks := s.cfg.active
  let x := s.chan c
  s.setTc c x.gT x.pT (x.tcHold || !tcUsed old c || ks.get (kSlot (ks.get (kC c 0x0C)) 0) != 1)

/-- A channel at a swap: the open test switched off (R50), a new or changed pair (R44, R58), temperature compensation (R47 to R49), where a mean that has come at
the swap sample is interpolated in the new table (R58). -/
def State.swapChannel (s : State) (old : KeySet) (c : Nat) : State :=
  let ks := s.cfg.active
  let s := if ks.get (kC c 0x0A) = 0 && (s.chan c).opn then
      (s.modChan c fun x => { x with opn := false, openRun := 0, openQuiet := 0 }).level (8 * c) false
    else s
  let s := if old.differAt ks [kC c 7] then s.modChan c fun x => { x with low := false, lowRun := 0, pairNew := (pairOf ks c).isSome } else s
  let x := s.chan c
  if !tcUsed ks c then s.setTc c 0 0 x.tcHold
  else match x.tcMean with
  | some (i, m) => if i = s.time.index then s.tcApply c m else s.tcKeep old c
  | none => s.tcKeep old c

/-- A channel that has left its metering point has no overcurrent and no creep source (R80). -/
def State.swapCurrent (s : State) (old : KeySet) (c : Nat) : State :=
  let ks := s.cfg.active
  let of (ks : KeySet) := (enabledMps ks).find? fun m => (mpChannels ks m).contains (some c)
  if (of old).isSome && of old != of ks then
    let s := s.modChm c fun x => { x with oc := false, ocRun := 0, creep := true, upRun := 0, downRun := 0 }
    let s := s.level (8 * c + 6) false
    if (of ks).isNone then s.level (8 * c + 7) false else s
  else s

/-- A voltage set at a swap: the detector restarts on the new reference, or the set ends (R66, R94). -/
def State.swapVset (s : State) (old : KeySet) (v : Nat) : State :=
  let ks := s.cfg.active
  if !vsEnabled ks v then
    if vsEnabled old v then s.modVs v fun y => { done := y.done, block := y.block, blkFlags := y.blkFlags } else s
  else if detRestarts old ks v then
    (if vsEnabled old v then s else s.modVs v fun y => { block := y.block, blkFlags := y.blkFlags }).startDetector v
  else s

/-- A metering point that begins: creep (R82), its integrators, its intervals (R262). -/
def State.mpBegin (s : State) (old : KeySet) (m : Nat) : State :=
  let ks := s.cfg.active
  let x := s.time.index
  let s := s.beginCreep m
  let s := (mpChannels ks m).foldl (fun (s : State) c => match c with
    | some c => s.modChm c fun x => { x with atLast := none, atPrev := none }
    | none => s) s
  let s := (mpElems ks m).foldl (fun (s : State) d => s.modElem (4 * m + d.e) fun e =>
    let on := mpEnabled old m || !(s.mpAcc m).due.isEmpty
    { e with atLast := none, atPrev := none, base := e.tot.inc, line := if on then e.line else [], qBase := if on then e.qBase else e.tot.q }) s
  let s := if ((s.vs (mpVset ks m)).win).isSome && !s.metro.mpCut.contains m then { s with metro.mpCut := m :: s.metro.mpCut } else s
  if mpEnabled old m then s
  else
    let r := s.calendarRate
    let s := s.modMpAcc m fun a => { a with tp := x, aAt := x, qAt := if a.due.isEmpty then x else a.qAt, sAt := x, fAt := x }
    (s.modBmp m fun b => { b with rate := r, rateNext := r, subFrom := x, subE := (0, 0), hist := [] }).openInterval m 0x400

/-- A metering point that is disabled: its sources deassert. -/
def State.mpEnd (s : State) (m : Nat) : State :=
  let s := s.modMpAcc m fun a => { a with misSince := none, liveSince := none, calm := none, mis := false, live := false }
  [0, 1, 3, 4, 5, 6].foldl (fun (s : State) n => s.level (384 + 8 * m + n) false) s

/-- A metering point at a swap; the sources of R78 and R79 follow its voltage set (R79). -/
def State.swapMp (s : State) (old : KeySet) (m : Nat) : State :=
  let ks := s.cfg.active
  if mpEnabled ks m then
    let s := if mpBegins old ks m then s.mpBegin old m else s
    let y := s.vs (mpVset ks m)
    (s.level (384 + 8 * m) y.seqErr).level (384 + 8 * m + 1) y.mn
  else if mpEnabled old m then s.mpEnd m else s

/-- The contactor of a metering point and its prepayment (R251 to R254). -/
def State.swapSupply (s : State) (old : KeySet) (m : Nat) : State :=
  let ks := s.cfg.active
  let g := old.get (kBillMp m 6)
  let s := if g < 24 && g != ks.get (kBillMp m 6) then { s with pins.gpio := Tbl.set none s.pins.gpio g none } else s
  if old.differAt ks [kBillMp m 0, kBillMp m 1, kBillMp m 2, kBillMp m 3] then s.decidePrepay m else s

/-- U_sr starts anew from U_din where a swap sets REF_MODE to 1 or changes NOMINAL_V, whether or not the monitor runs (R103). -/
def State.swapSliding (s : State) (old : KeySet) (v : Nat) : State :=
  let ks := s.cfg.active
  if old.differAt ks [kVs v 6] || (ks.get (kPq v 1) == 1 && old.get (kPq v 1) != 1) then
    (vsChannels ks v).foldl (fun (s : State) c => match c with
      | some c => s.modPqc c fun y => { y with sliding := none }
      | none => s) s
  else s

/-- A monitor at a swap (R106, R107, R109, R114, R120). -/
def State.swapPq (s : State) (old : KeySet) (v : Nat) : State :=
  let ks := s.cfg.active
  let s := s.swapSliding old v
  if !pqEnabled ks v then
    if pqEnabled old v then
      let s := (pqChannels old v).foldl (fun (s : State) c => (s.modPqc c fun y => { sliding := y.sliding }).level (8 * c + 6) false) s
      let s := (List.range 9).foldl (fun (s : State) n => s.level (512 + 12 * v + n) false) s
      s.modMon v fun y => { latest := y.latest, previous := y.previous, spans := y.spans }
    else s
  else
    let fresh := !pqEnabled old v
    let s := ((pqChannels old v).filter fun c => pqEnabled old v && !(pqChannels ks v).contains c).foldl (fun (s : State) c =>
      (s.modPqc c fun _ => {}).level (8 * c + 6) false) s
    let s := if fresh || old.differAt ks (vsKeys v ++ pqKeys v) then
        s.modMon v fun y => { y with armed := false, notBefore := (s.time.index, s.time.ns) }
      else s
    let rst := (vsCourse ks v).any fun k => !courseEnabled old k || courseWide old k != courseWide ks k
    if fresh || rst || old.differAt ks ([2, 3, 4, 5, 6, 7].map (kVs v) ++ [kPq v 8]) then s.flickerRestart v else s

/-- The power-line port at a swap (R273, R287). -/
def State.swapPlc (s : State) (old : KeySet) : State :=
  let ks := s.cfg.active
  let off := old.get (kPlc 0) == 1 && ks.get (kPlc 0) == 0 && s.kiln.role == .leaf
  let s := if off then s.plcStop else s
  if old.differAt ks [kPlc 3, kPlc 4] then { s with plc.zcBad := 0, plc.zcGood := 0 }.closeRound else s

/-- A radio port at a swap: reconfigured at the next idle moment (R306); a disabled one stops. -/
def State.swapRadio (s : State) (old : KeySet) (p : Nat) : State :=
  let ks := s.cfg.active
  if !old.differAt ks ((List.range 7).map (kRp p)) || !(s.rport p).started then s
  else if ks.get (kRp p 0) = 1 then (s.modRport p fun x => { x with reconfig := true }).rpNext p
  else ({ s with pins.rpRstN := Tbl.set false s.pins.rpRstN p false }.modRport p fun x =>
    { resets := x.resets, resetTimes := x.resetTimes, seq := x.seq }).rpLevels

/-- A mortar lane at a swap (R352): one whose mode or rate changes trains anew, one switched off is lost. -/
def State.swapLane (s : State) (was : Nat) (old : KeySet) (m : Nat) : State :=
  let rate := old.differAt s.cfg.active [kLane m 1]
  if s.laneMode m = was ∧ !rate then s
  else
    let s := if (s.lane m).trained ∨ (s.lane m).training then s.laneStop m else s
    (s.modLane m fun x => { x with training := s.laneEnabled m }).laneLevels m

/-- An uplink lane at a swap (R373, R385). -/
def State.swapUplink (s : State) (old : KeySet) (k : Nat) : State :=
  let mode := s.key (kUp k 0)
  if old.get (kUp k 0) = mode ∨ !s.kiln.ph.k6Open then s
  else (s.setReady (34 + k) false).level (784 + k) (mode != 0)

/-- Courses, channels, voltage sets and metering points; idle in RELAY (R13). -/
def State.swapMeter (s : State) (old : KeySet) : State :=
  let s := (List.range 6).foldl (fun (s : State) k => s.swapCourse old k) s
  let s := (List.range 48).foldl (fun (s : State) c => (s.swapChannel old c).swapCurrent old c) s
  let s := (List.range 8).foldl (fun (s : State) v => s.swapVset old v) s
  let s := (List.range 16).foldl (fun (s : State) m => s.swapMp old m) s
  let s := (List.range 8).foldl (fun (s : State) v => s.swapPq old v) s
  let s := (List.range 16).foldl (fun (s : State) p => s.swapPulse old p) s
  let s := (List.range 8).foldl (fun (s : State) d => s.swapDi old d) s
  let s := (List.range 16).foldl (fun (s : State) m => (s.swapSupply old m).driveContactor m) s
  let s := if old.differAt s.cfg.active gridKeys then { s with bill.profGrid := s.profGridNow, bill.subGrid := s.subGridNow } else s
  let s := if old.differAt s.cfg.active [kBill 0, kBill 5] then s.rateChange else s
  s.tilesSettle

/-- Does a swap give the MAINS source another reference (R211)? -/
def State.mainsMoved (s : State) (old : KeySet) : Bool :=
  let v := s.key (kTime 6)
  old.get (kTime 6) != v || vsEnabled old v != vsEnabled s.cfg.active v || detRestarts old s.cfg.active v

/-- The other functions that apply keys; `modes` are the lane modes before. -/
def State.swapOthers (s : State) (old : KeySet) (modes : List Nat) : State :=
  let s := (s.swapCopy 6).swapCopy 7
  let s := s.auxSwap old
  let s := (if s.mainsMoved old then s.mainsRestart else s).selectSource
  let s := (s.swapPlc old).portsReady
  let s := ((s.swapRadio old 0).swapRadio old 1).rpReady
  let s := (List.range 4).foldl (fun (s : State) m => s.swapLane (modes.getD m 0) old m) s
  let s := ((s.swapUplink old 0).swapUplink old 1)
  let s := if s.kiln.ph.k6Open then s.mirrorLevel else s
  if old.differ s.cfg.active isLegalKey then s.publishLcv else s

/-- The exchange of the sets and its record: PENDING ends, SWAP_DONE is journaled, EV1001 (R438 step 4). -/
def State.swapDone (s : State) (w : Swap) : State :=
  let s := s.journalAdd 0x07 0 0 0 [w.gen]
  ({ s with cfg.pend := none, cfg.lastBoundary := w.boundary, cfg.lastSwapIndex := s.time.index, cfg.lastSwapTime := s.stampNs }.pulse 1001
    w.gen).roFollow

/-- The swap at the present boundary. -/
def State.swapNow (s : State) (w : Swap) (late : List (Fin 8 × Crossing)) : State :=
  let old := s.cfg.active
  let new := s.cfg.shadow
  let modes := (List.range 4).map s.laneMode
  let meter := s.meters
  let s := if meter then s.swapCloses new late else s
  let s := { s with cfg.active := new, cfg.shadow := old, metro.before := some (s.time.index, old) }
  let s := if meter then s.swapMeter old else s
  (s.swapOthers old modes).swapDone w

/-- CFG_SWAP_APPLY (R438): at the swap sample; `late` are the crossings of old references before it that no decision has placed yet.  It is given
before the samples of the swap sample, or after them (log 25).  An IMMEDIATE swap replies. -/
def execCfgSwapApply (late : List (Fin 8 × Crossing)) (s : State) : Host.Outcome State Fault Refusal :=
  .next (
    match s.cfg.pend, s.swapSample with
    | some w, some x =>
      if s.time.indexOn ∧ x ≤ s.time.index + 1 then
        let s := s.atIndex x fun s => s.swapNow w late
        s.finishKind (fun f => decide (f.kind = .swap)) (Res.ok (swapResult w.gen x))
      else s
    | _, _ => s)

end Sys2Proof.Machine
end

