-- ==== Sys2Proof/Machine/Sampling.lean ====
section
/-! DEFINITION. SAMPLE_BOUNDARY (R38) with all that a sample index holds, the end of settling (R32) and the dwell of a polarity anomaly (R54). -/

namespace Sys2Proof.Machine

/-! ### Time (R206, R216) -/

/-- The next sample boundary: 15,625 ns on, a slew removing its part; the crystal's time without rate and slew, and the RTC's second, go on. -/
def State.tick (s : State) : State :=
  { s with time.index := s.time.index + 1, time.ns := s.time.ns + 15625, time.sub := 0, time.mono := s.time.mono + 15625,
           time.slewLeft := slewAfter s.time.slewRate s.time.slewLeft,
           time.crystal := s.time.crystal + 15625 * 2 ^ 56 / (2 ^ 40 + s.time.rate + s.time.slewRate).toNat,
           rtc.prescaler := s.rtc.prescaler + 15625 }

/-! ### The samples of a course (R27, R36 to R39, R437) -/

/-- 160 bits of density one half. -/
def idleBits : BitVec 160 := 0x5555555555555555555555555555555555555555

/-- What a channel's front end gets at a sub-sample; a channel that is not given has a bitstream of density one half (log 14). -/
def chanIn (i : SampleIn) (sub : Fin 2) (c : Fin 48) : ChanIn :=
  (i.chans.find? fun x => x.ch == c && x.sub == sub).getD ⟨c, sub, idleBits, none, none, false, false⟩

/-- A course whose island is off delivers invalid samples (R466). -/
def State.deadCourse (s : State) (k : Nat) : State :=
  (courseChannels k).foldl (fun (s : State) c => s.modChan c fun x => { x with y := 0, yc := 0, tag := tagInvalid, tagc := tagInvalid }) s

/-- Put the stream marker into the tags of a course and clear it (R437). -/
def State.marked (s : State) (k : Nat) : State :=
  let b := BitVec.ofNat 8 (16 * (s.course k).marker)
  let s := (courseChannels k).foldl (fun (s : State) c => s.modChan c fun x => { x with tag := x.tag ||| b, tagc := x.tagc ||| b }) s
  s.mark k 0

/-- Own samples, pairs and overrange of one course sample. -/
def State.courseSample (s : State) (i : SampleIn) (sub : Fin 2) (k : Nat) : State :=
  if Tbl.get 0 s.host.island (78 + k) != 0 then s.deadCourse k
  else
    let s := (courseChannels k).foldl (fun (s : State) c => if h : c < 48 then ownSample (chanIn i sub ⟨c, h⟩) s else s) s
    let s := combineStreams (courseChannels k) s
    if sub = 0 ∧ (s.course k).marker ≠ 0 then s.marked k else s

/-- Totals and increments of one course sample (R68, R69, R162): used channels, derived voltages, elements. -/
def State.courseTotals (s : State) (i : SampleIn) (sub : Fin 2) (k : Nat) : State :=
  let ks := s.cfg.active
  let u := 2 * s.time.index + sub.val
  let s := (courseUsed ks k).eraseDups.foldl (fun (s : State) c => s.pushChan u c) s
  let s := ((enabledVsets ks).filter fun v => vsCourse ks v == some k).foldl (fun (s : State) v => s.pushDerived u v) s
  let ppm := ((i.bias.find? fun x => x.1.val == k).map (·.2)).getD 0
  ((enabledMps ks).filter fun m => mpCourse ks m == some k).foldl (fun (s : State) m =>
    (mpElems ks m).foldl (fun s d => s.pushElem u m d ppm) s) s

/-- Running courses, those at 128 kS/s only when `wide`. -/
def State.runningCourses (s : State) (wide : Bool) : List Nat :=
  (List.range 6).filter fun k => (s.course k).running && (!wide || (s.course k).wide)

/-! ### Bonds (R155, R164, R166) -/

/-- The vote on the words of this index, and failed residue checks. -/
def State.courseVote (s : State) (i : SampleIn) (k : Nat) : State :=
  let s := if i.footFail.any (·.val == k) then s.footingFail k else s
  s.vote k ((i.dissent ++ i.late).map (·.val)) false

/-- Does a bond run with fewer members than three (R174)? -/
def State.reducedBond (s : State) (k : Nat) : Bool := (s.bond k).st == .substituting || (s.bond k).st == .duplex

/-! ### Reactive increments (R70, R124) -/

/-- At every fourth index: the elements of enabled metering points; those of a metering point that a swap disabled while a transfer of it is due
deliver what is on its way. -/
def State.reactive (s : State) : State :=
  let ks := s.cfg.active
  let k := s.time.index
  if k % 4 ≠ 0 then s
  else
    let s := (enabledMps ks).foldl (fun (s : State) m => (mpElems ks m).foldl (fun s d => s.pushReactive k m d) s) s
    let left := (List.range 16).filter fun m => !mpEnabled ks m && !(s.mpAcc m).due.isEmpty
    left.foldl (fun (s : State) m => (List.range 3).foldl (fun (s : State) e =>
      if (s.elem (4 * m + e)).line.isEmpty then s
      else s.pushTap k (4 * m + e) { ch := 0, v := 0, neg := false, c := 0, k := 0, valid := false }) s) s

/-! ### Detectors and flickermeters (R64, R109) -/

/-- The detectors of the voltage sets of running courses take a sub-sample of their references. -/
def State.detectors (s : State) (wide : Bool) (sub : Nat) : State :=
  ((enabledVsets s.cfg.active).filter fun v => (vsCourse s.cfg.active v).any (s.runningCourses wide).contains).foldl
    (fun (s : State) v => s.zcSample (2 * s.time.index + sub) v) s

/-- The flickermeters of enabled monitors. -/
def State.flickers (s : State) : State :=
  ((enabledVsets s.cfg.active).filter fun v => (vsCourse s.cfg.active v).any (s.runningCourses false).contains).foldl (fun (s : State) v => s.flicker v) s

/-! ### Consumers of the boundary -/

/-- STATUS of the intervals in progress: time, footing (R241). -/
def State.intervalBits (s : State) : State :=
  if !s.meters then s else
  let s := if s.timeBits = 0 then s else s.markIntervals s.timeBits
  (enabledMps s.cfg.active).foldl (fun (s : State) m =>
    if s.mpFooting m then
      let s := s.modBmp m fun b => { b with profStatus := b.profStatus ||| 0x80 }
      if s.ledger.footSince.contains m then s else { s with ledger.footSince := m :: s.ledger.footSince }
    else s) s

/-- Register-window readers that wait get the availability record of this boundary (R537). -/
def State.availLatch (s : State) : State :=
  let r := s.availRecord
  { s with win.fn := Tbl.mapV {} (fun (w : WinFn) => if w.avPending then { w with av := r, avValid := true, avPending := false } else w) s.win.fn }

/-- Pulses are generated while the seal core runs or restarts (R135, R502): each output on the sample grid of its metering point's course. -/
def State.pulses (s : State) : State :=
  if s.meters && (s.fault.sealOk || s.fault.sealRestart) then
    let s := (List.range 16).foldl (fun (s : State) p => s.pulseStep 0 p) s
    ((List.range 16).filter s.pulseWide).foldl (fun (s : State) p => s.pulseStep 1 p) s
  else s

/-- The first course samples of an index: samples, votes, totals, reactive increments, detectors. -/
def State.firstSamples (s : State) (i : SampleIn) : State :=
  let s := (s.runningCourses false).foldl (fun (s : State) k => s.courseSample i 0 k) s
  let s := (s.runningCourses false).foldl (fun (s : State) k => s.courseVote i k) s
  let s := (s.runningCourses false).foldl (fun (s : State) k => s.courseTotals i 0 k) s
  (s.reactive.detectors false 0).flickers

/-- The second course samples, of courses at 128 kS/s: all samples before any total (R59, R69). -/
def State.secondSamples (s : State) (i : SampleIn) : State :=
  let s := (s.runningCourses true).foldl (fun (s : State) k => s.courseSample i 1 k) s
  let s := (s.runningCourses true).foldl (fun (s : State) k => s.courseTotals i 1 k) s
  s.detectors true 1

/-- SAMPLE_BOUNDARY (R38): once sample index 0 is placed, the next sample index with all that it holds. -/
def execSampleBoundary (i : SampleIn) (s : State) : Host.Outcome State Fault Refusal :=
  .next (
    if !s.time.indexOn then s
    else
      let s := s.readsLatch.tick.timeChanges.billsNow.testsStart
      let reduced := (List.range 6).map s.reducedBond
      let s := ((s.firstSamples i).secondSamples i).creepStarts
      let s := (i.convs.foldl conversion s).tempMonitor
      let s := s.readsPulses.pulses
      let s := if s.meters then (enabledMps s.cfg.active).foldl (fun (s : State) m => s.discTrack m) s else s
      let s := (s.intervalBits.countIndex fun k => reduced.getD k false).availLatch
      s.presetsAtBoundary)

/-! ### Settling and polarity -/

/-- SETTLING_END (R32): the course of a channel has left SETTLING when each channel that its metering uses has. -/
def execSettlingEnd (c : Fin 48) (s : State) : Host.Outcome State Fault Refusal :=
  .next (
    let k := courseOf c
    let used := courseUsed s.cfg.active k
    let l := if used.isEmpty then courseChannels k else used
    if (s.course k).running && (s.chan c).settle == 0 && l.all (fun c => (s.chan c).settle == 0) then s.courseReady k else s)

/-- POLARITY_DWELL (R54): an anomaly, or its absence, has lasted POL_TIME; not while the course runs on footing.  A swap that sets POL_TIME to 0 or takes the channel
out of its three-phase point leaves POLARITY and EV(8c + 3) as they are, of which the spec says nothing (log 69). -/
def execPolarityDwell (c : Fin 48) (e : PolarityEvidence) (s : State) : Host.Outcome State Fault Refusal :=
  .next (
    let t := s.key (kC c 0x0B)
    if t = 0 || e.seconds < t || !s.chanRuns c || s.onFooting (courseOf c) then s
    else match polarityVerdict s.cfg.active c e with
    | some v => (s.modChan c fun x => { x with polarity := v }).level (8 * c.val + 3) v
    | none => s)

end Sys2Proof.Machine
end

