-- ==== Sys2Proof/Machine/Streams.lean ====
section
/-! DEFINITION. BULK_DATA (R377): a fragment of a KIND 1 stream of DIR 0, and the execution of its command once LENGTH bytes
have arrived. -/

namespace Sys2Proof.Machine

/-- What a command that awaited its data does with it: the opcodes with a bulk descriptor of DIR 0. -/
def streamBody (code : Nat) (data : Bytes) : Body :=
  if code = 0x0D20 then fwStageData data else pushData code data

/-- The command executes with all its data. -/
def State.streamRun (s : State) (f : InFlight) (data : Bytes) : State :=
  let p := f.entry.pkt
  let s := s.setBusy (queueId p.bay p.queue) none
  match streamBody f.entry.code data (s.ctx p) p s with
  | (s, .reply r) => s.answer f.entry.code p r
  | (s, .hold k) => s.setBusy (queueId p.bay p.queue) (some { f with kind := k })
  | (s, .silent) => s

/-- The stream of a command more than 10 s after its latest packet has ended (R377). -/
def State.endStalled (s : State) (q : Nat) : State :=
  match s.busyOf q with
  | some f =>
    match f.kind with
    | .stream _ _ last => if last + 10 * second < s.time.mono then s.finishHeld q (Res.err stDeadline subStream) else s
    | _ => s
  | none => s

/-- Put a fragment behind the bytes so far; at LENGTH bytes the command executes. -/
def State.streamTake (s : State) (f : InFlight) (got : Bytes) (need : Nat) (data : Bytes) : State :=
  let all := got ++ data
  if need ≤ all.length then s.streamRun f (all.take need)
  else s.setBusy (queueId f.entry.pkt.bay f.entry.pkt.queue) (some { f with kind := .stream all need s.time.mono })

/-- BULK_DATA (R377): OFFSET, 4 reserved bytes, data zero-padded to a multiple of 8. -/
def bulkDataBody : Body := fun _ p s =>
  let b := p.params
  let s := s.endStalled (queueId p.bay p.queue)
  if p.isBulk ∨ !p.cont then (s, .reply (Res.field 1))
  else if b.length < 8 then (s, .reply (Res.err stBadParam subLength 12))
  else match (s.busyOf (queueId p.bay p.queue)).filter (streamOwner p) with
  | none => (s, .reply (Res.field 4))
  | some f =>
    match f.kind with
    | .stream got need _ =>
      let data := b.drop 8
      if fld b 0 4 ≠ got.length then (s, .reply (Res.field 32))
      else if !allZero b 4 4 then (s, .reply (Res.reserved 36))
      else if 8 * ceilDiv (need - got.length) 8 < data.length then (s, .reply (Res.err stBadParam subLength 12))
      else if !allZero data (need - got.length) 8 then (s, .reply (Res.field (40 + (need - got.length))))
      else (s.streamTake f got need data, .silent)
    | _ => (s, .reply (Res.field 4))

def execBulkData (p : Packet) (s : State) : Host.Outcome State Fault Refusal :=
  .next (command 0x0020 bulkDataBody p s)

end Sys2Proof.Machine
end

