-- ==== Sys2Proof/Machine/Dispatch.lean ====
section
/-! DEFINITION. One arm per command: a direct call of its meaning. -/

namespace Sys2Proof.Machine

/-- The effect of a command on everything but the queue. -/
def exec (i : Instr) (s : State) : Host.Outcome State Fault Refusal :=
  match i with
  | .sessionOpen p => Sys2Proof.Machine.execSessionOpen p s
  | .sessionClose p => Sys2Proof.Machine.execSessionClose p s
  | .sessionAuth p => Sys2Proof.Machine.execSessionAuth p s
  | .getReadyMap p => Sys2Proof.Machine.execGetReadyMap p s
  | .deviceInfo p => Sys2Proof.Machine.execDeviceInfo p s
  | .bulkData p => Sys2Proof.Machine.execBulkData p s
  | .cfgEdit p => Sys2Proof.Machine.execCfgEdit p s
  | .cfgRead p => Sys2Proof.Machine.execCfgRead p s
  | .cfgCopy p => Sys2Proof.Machine.execCfgCopy p s
  | .cfgSwap p => Sys2Proof.Machine.execCfgSwap p s
  | .cfgStatus p => Sys2Proof.Machine.execCfgStatus p s
  | .cfgCancel p => Sys2Proof.Machine.execCfgCancel p s
  | .readSnapshot p => Sys2Proof.Machine.execReadSnapshot p s
  | .readHarmonics p => Sys2Proof.Machine.execReadHarmonics p s
  | .readChannelDiag p => Sys2Proof.Machine.execReadChannelDiag p s
  | .pqReadAgg p => Sys2Proof.Machine.execPqReadAgg p s
  | .pqReadIhg p => Sys2Proof.Machine.execPqReadIhg p s
  | .pqReadLog p => Sys2Proof.Machine.execPqReadLog p s
  | .pqReadBands p => Sys2Proof.Machine.execPqReadBands p s
  | .accPreset p => Sys2Proof.Machine.execAccPreset p s
  | .accRead p => Sys2Proof.Machine.execAccRead p s
  | .diClear p => Sys2Proof.Machine.execDiClear p s
  | .diRead p => Sys2Proof.Machine.execDiRead p s
  | .adcSelfcal p => Sys2Proof.Machine.execAdcSelfcal p s
  | .adcUrgent p => Sys2Proof.Machine.execAdcUrgent p s
  | .acbRead p => Sys2Proof.Machine.execAcbRead p s
  | .calRun p => Sys2Proof.Machine.execCalRun p s
  | .timeSet p => Sys2Proof.Machine.execTimeSet p s
  | .timeGet p => Sys2Proof.Machine.execTimeGet p s
  | .timeLogRead p => Sys2Proof.Machine.execTimeLogRead p s
  | .objGet p => Sys2Proof.Machine.execObjGet p s
  | .profileRead p => Sys2Proof.Machine.execProfileRead p s
  | .tariffStage p => Sys2Proof.Machine.execTariffStage p s
  | .tariffActivate p => Sys2Proof.Machine.execTariffActivate p s
  | .billReset p => Sys2Proof.Machine.execBillReset p s
  | .creditAdd p => Sys2Proof.Machine.execCreditAdd p s
  | .supplyControl p => Sys2Proof.Machine.execSupplyControl p s
  | .plcSearch p => Sys2Proof.Machine.execPlcSearch p s
  | .plcStatus p => Sys2Proof.Machine.execPlcStatus p s
  | .radioJoin p => Sys2Proof.Machine.execRadioJoin p s
  | .radioStatus p => Sys2Proof.Machine.execRadioStatus p s
  | .ledgerRead p => Sys2Proof.Machine.execLedgerRead p s
  | .ledgerEdit p => Sys2Proof.Machine.execLedgerEdit p s
  | .ledgerUnlock p => Sys2Proof.Machine.execLedgerUnlock p s
  | .ledgerProvision p => Sys2Proof.Machine.execLedgerProvision p s
  | .ledgerAssign p => Sys2Proof.Machine.execLedgerAssign p s
  | .ledgerStatus p => Sys2Proof.Machine.execLedgerStatus p s
  | .ledgerDeprovision p => Sys2Proof.Machine.execLedgerDeprovision p s
  | .snapshotAt p => Sys2Proof.Machine.execSnapshotAt p s
  | .balanceRun p => Sys2Proof.Machine.execBalanceRun p s
  | .balanceDefine p => Sys2Proof.Machine.execBalanceDefine p s
  | .snapshotRead p => Sys2Proof.Machine.execSnapshotRead p s
  | .pushTariff p => Sys2Proof.Machine.execPushTariff p s
  | .pushImage p => Sys2Proof.Machine.execPushImage p s
  | .pushKey p => Sys2Proof.Machine.execPushKey p s
  | .pushStatus p => Sys2Proof.Machine.execPushStatus p s
  | .pushCancel p => Sys2Proof.Machine.execPushCancel p s
  | .mortarStatus p => Sys2Proof.Machine.execMortarStatus p s
  | .topoRead p => Sys2Proof.Machine.execTopoRead p s
  | .deviceProvision p => Sys2Proof.Machine.execDeviceProvision p s
  | .deviceRemove p => Sys2Proof.Machine.execDeviceRemove p s
  | .rootHandover p => Sys2Proof.Machine.execRootHandover p s
  | .bayReset p => Sys2Proof.Machine.execBayReset p s
  | .eventSubscribe p => Sys2Proof.Machine.execEventSubscribe p s
  | .eventRead p => Sys2Proof.Machine.execEventRead p s
  | .islandPower p => Sys2Proof.Machine.execIslandPower p s
  | .qosSet p => Sys2Proof.Machine.execQosSet p s
  | .qosRead p => Sys2Proof.Machine.execQosRead p s
  | .identityProvision p => Sys2Proof.Machine.execIdentityProvision p s
  | .identityRemove p => Sys2Proof.Machine.execIdentityRemove p s
  | .identityUnlock p => Sys2Proof.Machine.execIdentityUnlock p s
  | .storeStatus p => Sys2Proof.Machine.execStoreStatus p s
  | .fwStage p => Sys2Proof.Machine.execFwStage p s
  | .fwActivate p => Sys2Proof.Machine.execFwActivate p s
  | .diagBistReport p => Sys2Proof.Machine.execDiagBistReport p s
  | .diagDumpRead p => Sys2Proof.Machine.execDiagDumpRead p s
  | .diagDumpClear p => Sys2Proof.Machine.execDiagDumpClear p s
  | .diagTileStatus p => Sys2Proof.Machine.execDiagTileStatus p s
  | .diagAvailRead p => Sys2Proof.Machine.execDiagAvailRead p s
  | .serviceFuseRead p => Sys2Proof.Machine.execServiceFuseRead p s
  | .serviceTrace p => Sys2Proof.Machine.execServiceTrace p s
  | .packetForward op p => Sys2Proof.Machine.execPacketForward op p s
  | .deadlineExpire bay queue pos => Sys2Proof.Machine.execDeadlineExpire bay queue pos s
  | .streamStall bay queue => Sys2Proof.Machine.execStreamStall bay queue s
  | .sessionIdleTimeout handle => Sys2Proof.Machine.execSessionIdleTimeout handle s
  | .challengeExpire handle => Sys2Proof.Machine.execChallengeExpire handle s
  | .identityLockEnd identity => Sys2Proof.Machine.execIdentityLockEnd identity s
  | .spiWrite bytes => Sys2Proof.Machine.execSpiWrite bytes s
  | .spiRead clocked => Sys2Proof.Machine.execSpiRead clocked s
  | .spiRegRead addr count => Sys2Proof.Machine.execSpiRegRead addr count s
  | .spiRegWrite bytes => Sys2Proof.Machine.execSpiRegWrite bytes s
  | .sqTailDoorbell fn q v host => Sys2Proof.Machine.execSqTailDoorbell fn q v host s
  | .cqHeadDoorbell fn q v host => Sys2Proof.Machine.execCqHeadDoorbell fn q v host s
  | .qpEnable fn q => Sys2Proof.Machine.execQpEnable fn q s
  | .qpDisable fn q => Sys2Proof.Machine.execQpDisable fn q s
  | .perstNAssert => Sys2Proof.Machine.execPerstNAssert s
  | .functionLevelReset fn => Sys2Proof.Machine.execFunctionLevelReset fn s
  | .rtcHalt f => Sys2Proof.Machine.execRtcHalt f s
  | .rtcRelease f => Sys2Proof.Machine.execRtcRelease f s
  | .rtcCounterWrite f reg v => Sys2Proof.Machine.execRtcCounterWrite f reg v s
  | .rtcTrimWrite f v => Sys2Proof.Machine.execRtcTrimWrite f v s
  | .rtcSecRead f => Sys2Proof.Machine.execRtcSecRead f s
  | .systemTimeRead f => Sys2Proof.Machine.execSystemTimeRead f s
  | .regLowWordRead f off => Sys2Proof.Machine.execRegLowWordRead f off s
  | .regRcRead f off => Sys2Proof.Machine.execRegRcRead f off s
  | .avLatch f => Sys2Proof.Machine.execAvLatch f s
  | .regWritePlain f off v => Sys2Proof.Machine.execRegWritePlain f off v s
  | .sampleBoundary inp => Sys2Proof.Machine.execSampleBoundary inp s
  | .rangeSwitchDown c => Sys2Proof.Machine.execRangeSwitchDown c s
  | .overrangeRelease c => Sys2Proof.Machine.execOverrangeRelease c s
  | .settlingEnd c => Sys2Proof.Machine.execSettlingEnd c s
  | .stuckRunDetect c run => Sys2Proof.Machine.execStuckRunDetect c run s
  | .bitstreamIdentical c d periods => Sys2Proof.Machine.execBitstreamIdentical c d periods s
  | .stuckClear c quietMs => Sys2Proof.Machine.execStuckClear c quietMs s
  | .openTest c follows => Sys2Proof.Machine.execOpenTest c follows s
  | .mclkFaultEnter j disagreements => Sys2Proof.Machine.execMclkFaultEnter j disagreements s
  | .mclkRetry j => Sys2Proof.Machine.execMclkRetry j s
  | .mclkFaultClear j agreements => Sys2Proof.Machine.execMclkFaultClear j agreements s
  | .polarityDwell c e => Sys2Proof.Machine.execPolarityDwell c e s
  | .pulseWidthEnd p => Sys2Proof.Machine.execPulseWidthEnd p s
  | .pulseShortDetect p atLimitUs => Sys2Proof.Machine.execPulseShortDetect p atLimitUs s
  | .pulseShortRetry p held => Sys2Proof.Machine.execPulseShortRetry p held s
  | .zcCrossingDecide v vote => Sys2Proof.Machine.execZcCrossingDecide v vote s
  | .synthBoundary v => Sys2Proof.Machine.execSynthBoundary v s
  | .reactiveTransfer m => Sys2Proof.Machine.execReactiveTransfer m s
  | .creepEnter c => Sys2Proof.Machine.execCreepEnter c s
  | .creepExit c => Sys2Proof.Machine.execCreepExit c s
  | .overcurrentRelease c => Sys2Proof.Machine.execOvercurrentRelease c s
  | .rvcEnd v => Sys2Proof.Machine.execRvcEnd v s
  | .rvcArm v => Sys2Proof.Machine.execRvcArm v s
  | .windowEnd v vote => Sys2Proof.Machine.execWindowEnd v vote s
  | .footingCheckFail k => Sys2Proof.Machine.execFootingCheckFail k s
  | .sequenceErrorAssert v => Sys2Proof.Machine.execSequenceErrorAssert v s
  | .sequenceErrorClear v => Sys2Proof.Machine.execSequenceErrorClear v s
  | .missingNeutralAssert v => Sys2Proof.Machine.execMissingNeutralAssert v s
  | .missingNeutralClear v => Sys2Proof.Machine.execMissingNeutralClear v s
  | .freq10sEnd v => Sys2Proof.Machine.execFreq10sEnd v s
  | .agg10minTick v tick => Sys2Proof.Machine.execAgg10minTick v tick s
  | .agg2hTick v => Sys2Proof.Machine.execAgg2hTick v s
  | .flickerSettled v seconds => Sys2Proof.Machine.execFlickerSettled v seconds s
  | .bandIntervalEnd c n => Sys2Proof.Machine.execBandIntervalEnd c n s
  | .accCheckpoint => Sys2Proof.Machine.execAccCheckpoint s
  | .diClassify d ohmA ohmB => Sys2Proof.Machine.execDiClassify d ohmA ohmB s
  | .diDebounce d chanB => Sys2Proof.Machine.execDiDebounce d chanB s
  | .diDiscrepancyLatch d => Sys2Proof.Machine.execDiDiscrepancyLatch d s
  | .diClearReady d => Sys2Proof.Machine.execDiClearReady d s
  | .discFeedbackConfirm m => Sys2Proof.Machine.execDiscFeedbackConfirm m s
  | .substWardenVote k votes => Sys2Proof.Machine.execSubstWardenVote k votes s
  | .substCheckpoint k => Sys2Proof.Machine.execSubstCheckpoint k s
  | .substImageArrived k => Sys2Proof.Machine.execSubstImageArrived k s
  | .substJoin k reached => Sys2Proof.Machine.execSubstJoin k reached s
  | .tileTestDone t pass => Sys2Proof.Machine.execTileTestDone t pass s
  | .bondRebuildStart k => Sys2Proof.Machine.execBondRebuildStart k s
  | .bondReturn k => Sys2Proof.Machine.execBondReturn k s
  | .ledgerTaskBoundary t commit queuedUs => Sys2Proof.Machine.execLedgerTaskBoundary t commit queuedUs s
  | .slotPeriodEnd idx => Sys2Proof.Machine.execSlotPeriodEnd idx s
  | .comparatorAlarm w => Sys2Proof.Machine.execComparatorAlarm w s
  | .comparatorRelease w => Sys2Proof.Machine.execComparatorRelease w s
  | .urgentBurstDone k raws => Sys2Proof.Machine.execUrgentBurstDone k raws s
  | .selfcalSar0Done ofs gain => Sys2Proof.Machine.execSelfcalSar0Done ofs gain s
  | .selfcalSar1Done ofs gain => Sys2Proof.Machine.execSelfcalSar1Done ofs gain s
  | .selfcalDone skew => Sys2Proof.Machine.execSelfcalDone skew s
  | .ts2MeanCheck code => Sys2Proof.Machine.execTs2MeanCheck code s
  | .calSpacingEnd => Sys2Proof.Machine.execCalSpacingEnd s
  | .rprecStepDone sumOn sumOff => Sys2Proof.Machine.execRprecStepDone sumOn sumOff s
  | .statStepDone rms => Sys2Proof.Machine.execStatStepDone rms s
  | .converterCheck k code21 code22 => Sys2Proof.Machine.execConverterCheck k code21 code22 s
  | .mortarSourceLoss => Sys2Proof.Machine.execMortarSourceLoss s
  | .ptpAnnounce a => Sys2Proof.Machine.execPtpAnnounce a s
  | .ptpSync m => Sys2Proof.Machine.execPtpSync m s
  | .ptpFollowUp m => Sys2Proof.Machine.execPtpFollowUp m s
  | .ptpDelayResp seq t4 => Sys2Proof.Machine.execPtpDelayResp seq t4 s
  | .ptpAnnounceTimeout => Sys2Proof.Machine.execPtpAnnounceTimeout s
  | .ppsInEdge stamp => Sys2Proof.Machine.execPpsInEdge stamp s
  | .ppsInLoss => Sys2Proof.Machine.execPpsInLoss s
  | .mainsQualify => Sys2Proof.Machine.execMainsQualify s
  | .sourcePromote => Sys2Proof.Machine.execSourcePromote s
  | .slewDone => Sys2Proof.Machine.execSlewDone s
  | .holdLimitExceeded => Sys2Proof.Machine.execHoldLimitExceeded s
  | .ppsOutPulse => Sys2Proof.Machine.execPpsOutPulse s
  | .ppsOutWidthEnd => Sys2Proof.Machine.execPpsOutWidthEnd s
  | .rtcSecondCompare => Sys2Proof.Machine.execRtcSecondCompare s
  | .rtcCountTick => Sys2Proof.Machine.execRtcCountTick s
  | .leapSecondApply => Sys2Proof.Machine.execLeapSecondApply s
  | .rtcTrimLearn measured => Sys2Proof.Machine.execRtcTrimLearn measured s
  | .xtalFault => Sys2Proof.Machine.execXtalFault s
  | .xtalRecover => Sys2Proof.Machine.execXtalRecover s
  | .rtcOscFault => Sys2Proof.Machine.execRtcOscFault s
  | .backupToVbat vmain vbat => Sys2Proof.Machine.execBackupToVbat vmain vbat s
  | .backupToVmain vmain vbat => Sys2Proof.Machine.execBackupToVmain vmain vbat s
  | .vbatCheck meanMv => Sys2Proof.Machine.execVbatCheck meanMv s
  | .backupPor mv => Sys2Proof.Machine.execBackupPor mv s
  | .profileIntervalEnd => Sys2Proof.Machine.execProfileIntervalEnd s
  | .demandSubperiodEnd => Sys2Proof.Machine.execDemandSubperiodEnd s
  | .tariffRateSwitch => Sys2Proof.Machine.execTariffRateSwitch s
  | .tariffActivateDue => Sys2Proof.Machine.execTariffActivateDue s
  | .billResetDue => Sys2Proof.Machine.execBillResetDue s
  | .standingCharge => Sys2Proof.Machine.execStandingCharge s
  | .friendlyDeferralEnd m => Sys2Proof.Machine.execFriendlyDeferralEnd m s
  | .sealDisplayDwell => Sys2Proof.Machine.execSealDisplayDwell s
  | .sealFrameSend => Sys2Proof.Machine.execSealFrameSend s
  | .sealBusyTimeout highMs => Sys2Proof.Machine.execSealBusyTimeout highMs s
  | .zcGridCrossing ns rising => Sys2Proof.Machine.execZcGridCrossing ns rising s
  | .zcFaultEnter => Sys2Proof.Machine.execZcFaultEnter s
  | .zcFaultClear => Sys2Proof.Machine.execZcFaultClear s
  | .plcReadingReceive m => Sys2Proof.Machine.execPlcReadingReceive m s
  | .plcAnswerReceive slot a => Sys2Proof.Machine.execPlcAnswerReceive slot a s
  | .plcConfirmAckReceive m => Sys2Proof.Machine.execPlcConfirmAckReceive m s
  | .plcLatchReportReceive m => Sys2Proof.Machine.execPlcLatchReportReceive m s
  | .plcPushAckReceive m => Sys2Proof.Machine.execPlcPushAckReceive m s
  | .plcNakReceive m => Sys2Proof.Machine.execPlcNakReceive m s
  | .plcExchangeMissed => Sys2Proof.Machine.execPlcExchangeMissed s
  | .plcPollDue a => Sys2Proof.Machine.execPlcPollDue a s
  | .plcRepeatDue a => Sys2Proof.Machine.execPlcRepeatDue a s
  | .plcPollCycleEnd => Sys2Proof.Machine.execPlcPollCycleEnd s
  | .searchRoundStart => Sys2Proof.Machine.execSearchRoundStart s
  | .searchWindowEnd => Sys2Proof.Machine.execSearchWindowEnd s
  | .searchRoundClose => Sys2Proof.Machine.execSearchRoundClose s
  | .addressQuarantineEnd a => Sys2Proof.Machine.execAddressQuarantineEnd a s
  | .latchBroadcast => Sys2Proof.Machine.execLatchBroadcast s
  | .plcVinLevel mv => Sys2Proof.Machine.execPlcVinLevel mv s
  | .plcLineShort atLimitUs => Sys2Proof.Machine.execPlcLineShort atLimitUs s
  | .plcTestSymbol below => Sys2Proof.Machine.execPlcTestSymbol below s
  | .plcOpenCoupling ohm10 => Sys2Proof.Machine.execPlcOpenCoupling ohm10 s
  | .plcRxFault detected => Sys2Proof.Machine.execPlcRxFault detected s
  | .plcNoiseWindow meanDbuV => Sys2Proof.Machine.execPlcNoiseWindow meanDbuV s
  | .rpPortStart p => Sys2Proof.Machine.execRpPortStart p s
  | .rpIrq p frame => Sys2Proof.Machine.execRpIrq p frame s
  | .rpTxDone p status => Sys2Proof.Machine.execRpTxDone p status s
  | .rpConfigDone p status => Sys2Proof.Machine.execRpConfigDone p status s
  | .rpStatusDone p status rssi => Sys2Proof.Machine.execRpStatusDone p status rssi s
  | .rpRx p f => Sys2Proof.Machine.execRpRx p f s
  | .rpStatusPoll p => Sys2Proof.Machine.execRpStatusPoll p s
  | .rpResponseTimeout p => Sys2Proof.Machine.execRpResponseTimeout p s
  | .rpFaultRetry p => Sys2Proof.Machine.execRpFaultRetry p s
  | .radioReadingReceive m => Sys2Proof.Machine.execRadioReadingReceive m s
  | .radioAnswerReceive identity a port => Sys2Proof.Machine.execRadioAnswerReceive identity a port s
  | .radioConfirmAckReceive m => Sys2Proof.Machine.execRadioConfirmAckReceive m s
  | .radioPushAckReceive m => Sys2Proof.Machine.execRadioPushAckReceive m s
  | .advertSend => Sys2Proof.Machine.execAdvertSend s
  | .radioJoinRoundStart => Sys2Proof.Machine.execRadioJoinRoundStart s
  | .radioConfirmRepeat identity => Sys2Proof.Machine.execRadioConfirmRepeat identity s
  | .radioJoinClose => Sys2Proof.Machine.execRadioJoinClose s
  | .radioPollDue a => Sys2Proof.Machine.execRadioPollDue a s
  | .radioReplyTimeout a => Sys2Proof.Machine.execRadioReplyTimeout a s
  | .childFrameExpire child => Sys2Proof.Machine.execChildFrameExpire child s
  | .childEntryExpire child => Sys2Proof.Machine.execChildEntryExpire child s
  | .leafPalletClose => Sys2Proof.Machine.execLeafPalletClose s
  | .palletRetransmit => Sys2Proof.Machine.execPalletRetransmit s
  | .palletUpReceive p => Sys2Proof.Machine.execPalletUpReceive p s
  | .mirrorAckReceive seq => Sys2Proof.Machine.execMirrorAckReceive seq s
  | .mirrorLag ms => Sys2Proof.Machine.execMirrorLag ms s
  | .palletAckReceive p => Sys2Proof.Machine.execPalletAckReceive p s
  | .palletDownReceive p => Sys2Proof.Machine.execPalletDownReceive p s
  | .palletMirrorReceive p => Sys2Proof.Machine.execPalletMirrorReceive p s
  | .snapshotLatch id m => Sys2Proof.Machine.execSnapshotLatch id m s
  | .snapshotTimeout id => Sys2Proof.Machine.execSnapshotTimeout id s
  | .snapshotClose id => Sys2Proof.Machine.execSnapshotClose id s
  | .scoreDecay => Sys2Proof.Machine.execScoreDecay s
  | .pushActivateDue job => Sys2Proof.Machine.execPushActivateDue job s
  | .pushExpiry job => Sys2Proof.Machine.execPushExpiry job s
  | .laneTrainAttempt m => Sys2Proof.Machine.execLaneTrainAttempt m s
  | .laneTrained m groups inverted => Sys2Proof.Machine.execLaneTrained m groups inverted s
  | .laneLoss m lockLost violations => Sys2Proof.Machine.execLaneLoss m lockLost violations s
  | .helloTimeout m us => Sys2Proof.Machine.execHelloTimeout m us s
  | .helloSend => Sys2Proof.Machine.execHelloSend s
  | .helloReceive m h => Sys2Proof.Machine.execHelloReceive m h s
  | .timeReqSend m => Sys2Proof.Machine.execTimeReqSend m s
  | .timeReqReceive m seq t2 t3 => Sys2Proof.Machine.execTimeReqReceive m seq t2 t3 s
  | .timeRespReceive m seq t2 t3 t4 => Sys2Proof.Machine.execTimeRespReceive m seq t2 t3 t4 s
  | .segmentReceive m g => Sys2Proof.Machine.execSegmentReceive m g s
  | .returnReceive m r => Sys2Proof.Machine.execReturnReceive m r s
  | .epochHoldExpire => Sys2Proof.Machine.execEpochHoldExpire s
  | .joinReqReceive m j => Sys2Proof.Machine.execJoinReqReceive m j s
  | .joinOfferReceive m j => Sys2Proof.Machine.execJoinOfferReceive m j s
  | .joinConfirmReceive m j => Sys2Proof.Machine.execJoinConfirmReceive m j s
  | .joinOfferLapse d => Sys2Proof.Machine.execJoinOfferLapse d s
  | .joinRetry => Sys2Proof.Machine.execJoinRetry s
  | .belowSend => Sys2Proof.Machine.execBelowSend s
  | .belowReceive m b => Sys2Proof.Machine.execBelowReceive m b s
  | .deviceLeave d ms => Sys2Proof.Machine.execDeviceLeave d ms s
  | .leafOrphan d => Sys2Proof.Machine.execLeafOrphan d s
  | .rootHeartbeat => Sys2Proof.Machine.execRootHeartbeat s
  | .rootTakeover silentMs => Sys2Proof.Machine.execRootTakeover silentMs s
  | .uplinkLinkChange k up => Sys2Proof.Machine.execUplinkLinkChange k up s
  | .arpRequest k ip => Sys2Proof.Machine.execArpRequest k ip s
  | .ndSolicit k ip => Sys2Proof.Machine.execNdSolicit k ip s
  | .icmpEcho k ip data => Sys2Proof.Machine.execIcmpEcho k ip data s
  | .ipReassemblyTimeout id => Sys2Proof.Machine.execIpReassemblyTimeout id s
  | .cfgSwapApply late => Sys2Proof.Machine.execCfgSwapApply late s
  | .mramScrub errs => Sys2Proof.Machine.execMramScrub errs s
  | .dramScrub errs => Sys2Proof.Machine.execDramScrub errs s
  | .flashEraseResume => Sys2Proof.Machine.execFlashEraseResume s
  | .indeterminateReerase sector => Sys2Proof.Machine.execIndeterminateReerase sector s
  | .flashOpFail sector => Sys2Proof.Machine.execFlashOpFail sector s
  | .vinRiseUvlo mv => Sys2Proof.Machine.execVinRiseUvlo mv s
  | .uvloFall mv => Sys2Proof.Machine.execUvloFall mv s
  | .pgoodRise mode => Sys2Proof.Machine.execPgoodRise mode s
  | .resetNAssert lowUs => Sys2Proof.Machine.execResetNAssert lowUs s
  | .resetNRelease mode => Sys2Proof.Machine.execResetNRelease mode s
  | .reverseInput mv ms => Sys2Proof.Machine.execReverseInput mv ms s
  | .vinHigh mv => Sys2Proof.Machine.execVinHigh mv s
  | .pfNExternalLow us completes => Sys2Proof.Machine.execPfNExternalLow us completes s
  | .powerFailDecision c completes => Sys2Proof.Machine.execPowerFailDecision c completes s
  | .savedRestart mv tempMilli heldMs => Sys2Proof.Machine.execSavedRestart mv tempMilli heldMs s
  | .railOutOfWindow rail back => Sys2Proof.Machine.execRailOutOfWindow rail back s
  | .buckCurrentLimit b on => Sys2Proof.Machine.execBuckCurrentLimit b on s
  | .islandSupplyFault idx => Sys2Proof.Machine.execIslandSupplyFault idx s
  | .islandSwitchRetry idx holds => Sys2Proof.Machine.execIslandSwitchRetry idx holds s
  | .thermalLevel maxMilli => Sys2Proof.Machine.execThermalLevel maxMilli s
  | .thermalShutdown maxMilli ms completes => Sys2Proof.Machine.execThermalShutdown maxMilli ms completes s
  | .kilnK2Start r => Sys2Proof.Machine.execKilnK2Start r s
  | .kilnK3K4Start r => Sys2Proof.Machine.execKilnK3K4Start r s
  | .testWindowCheck w => Sys2Proof.Machine.execTestWindowCheck w s
  | .courseMclkStart => Sys2Proof.Machine.execCourseMclkStart s
  | .tileBistGroupEnd g fails repairs => Sys2Proof.Machine.execTileBistGroupEnd g fails repairs s
  | .kilnK5Start => Sys2Proof.Machine.execKilnK5Start s
  | .dramTrainingDone ok => Sys2Proof.Machine.execDramTrainingDone ok s
  | .dramSliceDone idx rows pass entries => Sys2Proof.Machine.execDramSliceDone idx rows pass entries s
  | .kilnK6Start => Sys2Proof.Machine.execKilnK6Start s
  | .kilnComplete us => Sys2Proof.Machine.execKilnComplete us s
  | .ccLockstepMismatch pair cause => Sys2Proof.Machine.execCcLockstepMismatch pair cause s
  | .ccHeartbeatMissing pair ms => Sys2Proof.Machine.execCcHeartbeatMissing pair ms s
  | .f3DumpWritten => Sys2Proof.Machine.execF3DumpWritten s
  | .f3PairsRunning pairOk => Sys2Proof.Machine.execF3PairsRunning pairOk s
  | .flashDumpCopyDone => Sys2Proof.Machine.execFlashDumpCopyDone s
  | .dumpPartitionErase sector => Sys2Proof.Machine.execDumpPartitionErase sector s
  | .wardenHeartbeatMissing w => Sys2Proof.Machine.execWardenHeartbeatMissing w s
  | .wardenResetDone w pass => Sys2Proof.Machine.execWardenResetDone w pass s
  | .sealLockstepMismatch => Sys2Proof.Machine.execSealLockstepMismatch s
  | .sealRestartDone => Sys2Proof.Machine.execSealRestartDone s
  | .radioPollCycleEnd => Sys2Proof.Machine.execRadioPollCycleEnd s
  | .radioRepeatDue a => Sys2Proof.Machine.execRadioRepeatDue a s
  | .vinNearPf mv => Sys2Proof.Machine.execVinNearPf mv s
  | .rootCutHandover cutMs => Sys2Proof.Machine.execRootCutHandover cutMs s
  | .duplicateIdAlarmEnd => Sys2Proof.Machine.execDuplicateIdAlarmEnd s
  | .laneFrameCrcFail m => Sys2Proof.Machine.execLaneFrameCrcFail m s
  | .ptpDelayReqSend seq t3 => Sys2Proof.Machine.execPtpDelayReqSend seq t3 s

end Sys2Proof.Machine
end

