-- ==== Sys2Proof/Safety.lean ====
section
/-! DEFINITION. What a safe run keeps, and when a command starts: the terms the claims use. -/

namespace Sys2Proof.Machine

/-- The kiln's phases open and complete in the order of R478: K1 after the reference edge, K2 with K1, K3 and K4 with K2,
K5 and K6 after K4; DRAM counts as trained only in K5. -/
def Phases.ordered (p : Phases) : Bool :=
  (!p.k1 || p.started) && (!p.k2Open || p.k1) && (!p.k2 || p.k2Open) && (!p.k3Open || p.k2) && (!p.k3 || p.k3Open)
    && (!p.k4 || p.k3Open) && (!p.k5Open || p.k4) && (!p.dramTrained || p.k5Open) && (!p.k5 || p.k5Open)
    && (!p.k6Open || p.k4) && (!p.k6 || p.k6Open)

/-- Everything but the event router and the window functions' own words: what an event leaves as it is. -/
def State.still (s : State) : State := { s with ev := {}, win.fn := [] }

/-- Everything but the command path, the lanes' transmitters and the MSI-X vectors: what a reply leaves as it is. -/
def State.apart (s : State) : State :=
  { s with host := {}, mortar.lane := [], mortar.mySeq := 0, win.fn := [], ev.msi := [] }

/-- What a reply leaves as it is within the command path: all but the replies sent, the rings, the held command of a stream that ends and the
replies a session keeps. -/
def State.desk (s : State) : HostSt :=
  { s.host with out := [], spi := [], cq := [], qp := [], busy := [], sess := s.host.sess.map fun x => { x with kept := [] } }

/-- The record of an occurrence of a source decided at a sample index and system time (R432). -/
def State.evRecord (s : State) (index time src : Nat) (kind : EvKind) (data : Nat) : EvRec :=
  { seq := 0, source := src, kind := kind, afterLoss := false, timeHold := s.time.holdover,
    timeInvalid := !s.time.valid, replay := !s.kiln.ph.k6, index := index,
    time := if s.time.valid then time / 1000 else 0, data := data % 2 ^ 64 }

/-- The record of a pulse decided now. -/
def State.pulseRecord (s : State) (src : Nat) (data : Nat := 0) : EvRec :=
  s.evRecord s.time.index s.nowNs src .pulse data

/-! ### When a command starts -/

/-- TARGET is a legal value and names this device or every device (R376, R382). -/
def TargetHere (p : Packet) (s : State) : Bool :=
  p.target == 1023 || (targetLocal p s && (decide (p.target ≤ 1023) || p.target == 0xFFFF))

/-- Ingress takes the packet: steps 1 to 11 of R381 pass. -/
def Taken (code : Nat) (p : Packet) (s : State) : Bool :=
  match ingress code p s with | .accept => true | _ => false

/-- A broadcast that a host of this device sends: it goes to the other devices as well (R382). -/
def HostBroadcast (p : Packet) : Bool :=
  p.target == 1023 && match p.transport with | .mortar _ => false | _ => true

/-- A packet that arrives now for this device is taken and its command starts at once: every check of R381 passes, its queue is
empty and idle, its transport has room for the reply, and no supply fault holds the seal state it needs. -/
def Starts (code : Nat) (p : Packet) (s : State) : Bool :=
  !HostBroadcast p && s.serving && (s.queueOf (queueId p.bay p.queue)).isEmpty && Taken code p s && canStart code p s.time.mono (s.touch p)
    && (startCheck code p s.time.mono (s.touch p)).isNone && !bcRefused code p && !sealFault code p (s.touch p)

/-- The packet has no bulk descriptor, and its parameter block has `n` bytes with the reserved ranges at 0. -/
def Block (n : Nat) (res : List (Nat × Nat)) (p : Packet) : Bool :=
  !p.isBulk && p.params.length == n && res.all fun r => allZero p.params r.1 r.2

/-- The packet has a bulk descriptor of DIR `dir`, and its own parameters have `n` bytes with the reserved ranges at 0. -/
def BulkBlock (dir n : Nat) (res : List (Nat × Nat)) (p : Packet) : Bool :=
  descOk (some dir) p && p.inline.length == n && res.all fun r => allZero p.params r.1 r.2

/-- The head end does not shed the command: its bay's class, or its own, is not refused (R427, R428). -/
def Unshed (push : Bool) (p : Packet) (s : State) : Bool :=
  !s.shed (if 2 ≤ p.bay then (s.qosOf p.bay).cls else if push then 1 else 0)

/-- The phases of a state are in order. -/
def State.phasesOrdered (s : State) : Bool := s.kiln.ph.ordered

end Sys2Proof.Machine
end

