-- ==== Sys2Proof/Certificates/Slice0/Obligations.lean ====
section
/-! DEFINITION. The statements for the provers, in the order of OBLIGATIONS.json. -/

open Sys2Proof Sys2Proof.Machine

/-- Log 1: a step takes the command at the front of the queue and is its effect on the state with the queue's rest. Log 1, log 17 (DESIGN CHOICE): on an
empty queue the time base counts one 250 MHz tick of the held rate and the slew (R206) and nothing else changes; before the reference edge nothing
changes. The table gives no command any bits: no word spells one, and nothing is put into the queue for it. This rests on the model's own choices and
readings in log 1. -/
def Obligations.StepRunsTheFrontCommand : Prop :=
  (∀ (c : Instr) (q : List Instr) (s : State),
     step { s with pending := c :: q } = exec c { s with pending := q })
  ∧ (∀ s : State, s.pending = [] →
       step s = .next s.clockTick ∧ { s.clockTick with time.sub := s.time.sub } = s ∧ (s.kiln.ph.started = false → s.clockTick = s)
       ∧ (s.kiln.ph.started = true → s.time.indexOn = false →
           s.clockTick.time.sub = s.time.sub + ((2 ^ 40 + s.time.rate + s.time.slewRate).toNat) / 2 ^ 6))
  ∧ (  ∀ (n w : Nat) (s : State), decodeTableWord n w = none ∧ s.withFetchWord n w = s)

/-- No command touches the queue: whatever exec answers, the waiting commands are those of before. This rests on the model's own choices and readings in
log 1. -/
def Obligations.ExecLeavesTheQueue : Prop :=
  ∀ (c : Instr) (s t : State), exec c s = .next t → t.pending = s.pending

/-- Every command answers a next state in every state: no meaning faults and none refuses. This rests on the model's own choices and readings in log 1. -/
def Obligations.EveryCommandAnswers : Prop :=
  ∀ (c : Instr) (s : State), ∃ t, exec c s = .next t

/-- Sparse tables: a read of the key written gives the value written, a write leaves every other key alone, the canonical form is kept, and two tables in
it that read alike are the same data. This rests on the model's own choices and readings in log 75. -/
def Obligations.TableWritesReadBack : Prop :=
  ∀ (d : Nat) (t u : Tbl Nat), Tbl.wf d t → Tbl.wf d u →
    (∀ n a, Tbl.get d (Tbl.set d t n a) n = a)
    ∧ (∀ n m a, m ≠ n → Tbl.get d (Tbl.set d t n a) m = Tbl.get d t m)
    ∧ (∀ n a, Tbl.wf d (Tbl.set d t n a))
    ∧ ((∀ n, Tbl.get d t n = Tbl.get d u n) → t = u)

/-- The machine right after reset: nothing waits, no phase has begun and PHASE reads 0 (R480), every READY bit is 0 (R490), no session is live, the B1 map
holds every source but EV1004 and the maps of B2 to B7 none (R431), CFG keys read their blank-set values (R435), and the supply is off. The phases are
in order at reset. This rests on the model's own choices and readings in log 2. -/
def Obligations.ResetState : Prop :=
  (State.reset.pending = [] ∧ State.reset.phase = 0 ∧ (∀ i, State.reset.ready i = false)
   ∧ State.reset.host.sess = [] ∧ State.reset.host.chal = [] ∧ (∀ q, State.reset.queueOf q = [])
   ∧ (∀ b, b < 8 → (State.reset.evBay b).map = defaultMap b)
   ∧ (∀ b, b < 8 → State.reset.qosOf b = qosBlank b)
   ∧ (∀ k, State.reset.key k = keyBlank k) ∧ State.reset.power.supply = .off
   ∧ State.reset.serving = false)
  ∧ (State.reset.phasesOrdered = true)

/-- Every step keeps the kiln's phases in the order of R478 and R479: none opens before the phases it waits for have completed, none completes before it
opened. This rests on the model's own choices and readings in log 5. -/
def Obligations.StepKeepsThePhaseOrder : Prop :=
  ∀ s t : State, s.phasesOrdered = true → step s = .next t → t.phasesOrdered = true

/-- R480: PHASE reads the lowest phase that has not completed (0 before the reference edge); with K3 completed it reads 7 exactly when K5 and K6 have both
completed. -/
def Obligations.PhaseReadsTheLowestOpenPhase : Prop :=
  ∀ s : State,
    s.phase = [s.kiln.ph.started, s.kiln.ph.k1, s.kiln.ph.k2, s.kiln.ph.k3, s.kiln.ph.k4, s.kiln.ph.k5,
      s.kiln.ph.k6].findIdx (fun done => done == false)
    ∧ (s.phasesOrdered = true → s.kiln.ph.k3 = true → (s.phase = 7 ↔ s.kiln.ph.k5 = true ∧ s.kiln.ph.k6 = true))

/-- R432, R15: a pulse of a source whose function the role does not leave idle makes one record with the sample index and system time of its decision
(TIME 0 while system time is invalid), its flags, its data and the source; before K6 it is held (R481), from then on delivered; the levels and the
configuration stay. A source of an idle function makes none. R432, R15: a level source makes a record at each change of its value and none while it
keeps it; one of a function that the role leaves idle never changes. This rests on the model's own choices and readings in log 17. -/
def Obligations.SourcesMakeRecords : Prop :=
  (∀ (src data : Nat) (s : State), (sourceIdle s.kiln.role src = true → s.pulse src data = s) ∧ (sourceIdle s.kiln.role src = false →
     let r : EvRec := { seq := 0, source := src, kind := .pulse, afterLoss := false, timeHold := s.time.holdover,
                        timeInvalid := !s.time.valid, replay := !s.kiln.ph.k6, index := s.time.index,
                        time := if s.time.valid then s.nowNs / 1000 else 0, data := data % 2 ^ 64 }
     let s1 := { s with ev.last := (r :: s.ev.last).take 4096 }
     s.pulse src data = if s.kiln.ph.k6Open then s1.deliver r else { s1 with ev.held := s1.ev.held ++ [r] }))
  ∧ (∀ (src data : Nat) (s : State), Tbl.wf none s.ev.level → (sourceIdle s.kiln.role src = true → ∀ on, s.level src on data = s)
       ∧ (sourceIdle s.kiln.role src = false → (s.level src true data).asserted src = true
       ∧ (s.level src false data).asserted src = false
       ∧ (s.asserted src = true → (s.level src true data).ev.last = s.ev.last)
       ∧ (s.asserted src = false → s.level src false data = s)
       ∧ (s.asserted src = false →
           ∃ r, (s.level src true data).ev.last.head? = some r ∧ r.source = src ∧ r.kind = .assert ∧ r.data = data % 2 ^ 64
             ∧ r.index = s.time.index)
       ∧ (s.asserted src = true →
           ∃ r, (s.level src false data).ev.last.head? = some r ∧ r.source = src ∧ r.kind = .deassert ∧ r.index = s.time.index)))

/-- R431, R432: a record reaches exactly the bays whose map holds its source, EV1004 bay B0 alone; a bay that does not take it keeps its queue, its SEQ
and its drops. R433: when a bay's event queue holds 4,096 records, a further record for that bay is dropped and the count of drops is kept. This rests
on the model's own choices and readings in log 29. -/
def Obligations.RecordsReachSubscribedBays : Prop :=
  (∀ (r : EvRec) (b : Nat) (s : State), Tbl.wf {} s.ev.bay → b < 8 →
     (s.subscribed b r.source = false → (s.deliver r).evBay b = s.evBay b)
     ∧ (s.subscribed b r.source = true → (s.evBay b).queue.length < 4096 →
         (s.deliver r).evBay b
           = { s.evBay b with
               queue := (s.evBay b).queue ++ [{ r with seq := (s.evBay b).seq, data := evData b r.source r.data }],
               seq := ((s.evBay b).seq + 1) % 2 ^ 32,
               rangeSeen := (s.evBay b).rangeSeen ||| (1#14 <<< evRange r.source) }))
  ∧ (∀ (r : EvRec) (b : Nat) (s : State), Tbl.wf {} s.ev.bay → b < 8 → s.subscribed b r.source = true →
       4096 ≤ (s.evBay b).queue.length →
       (s.deliver r).evBay b = { s.evBay b with drops := (s.evBay b).drops + 1, dropped := true })

/-- An event touches the router and the window functions alone: every other field is as before. -/
def Obligations.EventsTouchTheRouterAlone : Prop :=
  ∀ (s : State) (src data : Nat) (on : Bool),
    (s.pulse src data).still = s.still ∧ (s.level src on data).still = s.still
    ∧ (∀ n, n ≠ src → (s.level src on data).asserted n = s.asserted n)
    ∧ (∀ n, (s.pulse src data).asserted n = s.asserted n)

/-- R26, R206: once sample index 0 is placed, a sample boundary advances the sample index by 1 and the elapsed time by 15,625 ns, and system time too
where no change of system time waits for this boundary; the configuration sets stay. This rests on the model's own choices and readings in log 16, 17. -/
def Obligations.SampleBoundaryAdvancesTime : Prop :=
  ∀ (i : SampleIn) (s : State), s.time.indexOn = true → ∃ t, exec (.sampleBoundary i) s = .next t
    ∧ t.time.index = s.time.index + 1 ∧ t.time.mono = s.time.mono + 15625 ∧ t.cfg.active = s.cfg.active ∧ t.cfg.shadow = s.cfg.shadow
    ∧ (s.time.due = [] → t.time.ns = s.time.ns + 15625)

/-- R34, R36, R37, R38, R39: a channel's own sample. Both decimators take the captured bits; where their values after scaling are equal that value is
delivered; a mismatch with one residue failure delivers the other decimator's, counts, and reloads the failed one from it; any other mismatch delivers
0 with INVALID, counts, pulses EV(8c + 5), restarts both decimators and settles at least 40 samples. A channel in settling, open, stuck or failed
delivers 0 with INVALID; no other channel changes. R44, R50 to R54, R57: each diagnostic of a channel changes its state and its level source when its
condition holds, and nothing else: the range switch, overrange release, stuck, open and polarity states, and the clock drivers' faults. This rests on
the model's own choices and readings in log 5, 14, 15, 59, 69. -/
def Obligations.ChannelSamplesAndDiagnostics : Prop :=
  (∀ (i : ChanIn) (s : State), Tbl.wf {} s.front.chan →
     let c := i.ch.val
     let x := Chan.decimate i (s.chan c)
     let tau := (trim s.cfg.active c x.pT).1
     let a := scaleSample s.cfg.active c x.gT (decOut tau x.a)
     let b := scaleSample s.cfg.active c x.gT (decOut tau x.b)
     let t := ownSample i s
     let same := decide (a.1 = b.1)
     let useB := !same && i.failA && !i.failB
     let useA := !same && i.failB && !i.failA
     let lost := !same && i.failA == i.failB
     let clean := decide (x.settle = 0) && !x.opn && !x.stuck && !x.frontFailed
     let d := if useB then b else a
     let u := s.modChan c (Chan.decimate i)
     ((t.chan c).a = x.a ∧ (t.chan c).b = x.b)
     ∧ (t.chan c).y = (if clean && !lost then d.1 else 0)
     ∧ (t.chan c).tag = (if clean && !lost then (if d.2 then tagOverrange else 0) else if 0 < x.settle then tagInvalid ||| tagSettling else tagInvalid)
     ∧ (t.chan c).reload = (if useB then 1 else if useA then 2 else if lost then 3 else x.reload)
     ∧ (t.chan c).fixed = (if useB || useA then bumpAllSat 255 1 x.fixed else x.fixed)
     ∧ (t.chan c).lost = (if lost then bumpAllSat 255 1 x.lost else x.lost)
     ∧ (t.chan c).settle = (if lost then max 40 (x.settle - 1) else x.settle - 1)
     ∧ t.ev = (if lost then (((u.modChan c fun x => { x with reload := 3, lost := bumpAllSat 255 1 x.lost }).pulse (8 * c + 5)).f1 0).ev
         else if useB || useA then ((u.modChan c fun x => { x with reload := if useB then 1 else 2, fixed := bumpAllSat 255 1 x.fixed }).f0).ev else s.ev)
     ∧ (∀ d, d ≠ c → t.chan d = s.chan d))
  ∧ (∀ (c d : Fin 48) (j : Fin 8) (n l : Nat) (e : PolarityEvidence) (v : Bool) (s : State),
       let x := s.chan c
       let k := s.mclk j
       (pairOf s.cfg.active c = some l → x.low = false → s.key (kCourse (courseOf c) 3) ≤ x.lowRun → exec (.rangeSwitchDown c) s
         = .next ((s.modChan c fun x => { x with low := true, lowRun := 0 }).pulse (8 * l + 4)))
       ∧ (x.ovr = true → s.key (kCourse (courseOf c) 3) ≤ x.ovrRun → exec (.overrangeRelease c) s
         = .next ((s.modChan c fun x => { x with ovr := false, ovrRun := 0 }).level (8 * c.val + 2) false))
       ∧ (s.chanRuns c = true → s.key (kC c 9) ≤ n → exec (.stuckRunDetect c n) s
         = .next ((s.modChan c fun x => { x with stuck := true, identical := x.identical || false }).level (8 * c + 1) true))
       ∧ (s.chanRuns c = true → courseOf c = courseOf d → c ≠ d → 4096 ≤ n → exec (.bitstreamIdentical c d n) s
         = .next ((s.setStuck c true).setStuck d true))
       ∧ (x.stuck = true → 100 ≤ n → (s.mclk (courseOf c)).fault = false → exec (.stuckClear c n) s
         = .next ((s.modChan c fun x => { x with stuck := false, identical := false }).level (8 * c.val + 1) false))
       ∧ (s.chanRuns c = true → s.keyOn (kC c 0x0A) = true →
           (x.openRun = 0 → exec (.openTest c true) s = .next (s.modChan c fun x => { x with openRun := x.openRun + 1, openQuiet := 0 }))
           ∧ (1 ≤ x.openRun → exec (.openTest c true) s
             = .next (((s.modChan c fun x => { x with openRun := x.openRun + 1, openQuiet := 0 }).modChan c fun x => { x with opn := true }).level
                 (8 * c.val) true))
           ∧ (x.opn = true → 99 ≤ x.openQuiet → exec (.openTest c false) s
             = .next (((s.modChan c fun x => { x with openRun := 0, openQuiet := x.openQuiet + 1 }).modChan c fun x =>
                 { x with opn := false, openQuiet := 0 }).level (8 * c.val) false)))
       ∧ (s.mclkRuns j = true → k.hiZ = false → 16 ≤ n →
           let u := s.modMclk j fun _ => { fault := true, hiZ := true, hiZAt := s.time.mono }
           exec (.mclkFaultEnter j n) s = .next (if j.val < 6 then (courseChannels j).foldl (fun s c => s.setStuck c false) u else u))
       ∧ (k.hiZ = true → k.hiZAt + 1000000 ≤ s.time.mono → exec (.mclkRetry j) s = .next (s.modMclk j fun x => { x with hiZ := false }))
       ∧ (k.fault = true → k.hiZ = false → 1024 ≤ n → exec (.mclkFaultClear j n) s = .next (s.modMclk j fun _ => {}))
       ∧ (1 ≤ s.key (kC c 0x0B) → s.key (kC c 0x0B) ≤ e.seconds → s.chanRuns c = true → s.onFooting (courseOf c) = false →
           polarityVerdict s.cfg.active c e = some v → exec (.polarityDwell c e) s
             = .next ((s.modChan c fun x => { x with polarity := v }).level (8 * c.val + 3) v))
       ∧ ((s.course (courseOf c)).running = true → x.settle = 0 →
           (∀ i ∈ courseUsed s.cfg.active (courseOf c), (s.chan i).settle = 0) → courseUsed s.cfg.active (courseOf c) ≠ [] →
           exec (.settlingEnd c) s = .next (s.courseReady (courseOf c))))

/-- R49: the total trim is τ = PHASE / 2^20 + p_T / 2^12 samples; outside −1.0 to +3.0 samples the nearer limit applies and TC_CLAMP is set. -/
def Obligations.TrimIsLimited : Prop :=
  ∀ (s : State) (c : Nat) (g p : Int) (hold : Bool), Tbl.wf {} s.front.chan →
    let τ := s.cfg.active.getS (kC c 5) + p * 256
    ((trim s.cfg.active c p).1 = if τ < -(2 ^ 20) then -(2 ^ 20) else if 3 * 2 ^ 20 < τ then 3 * 2 ^ 20 else τ)
    ∧ ((s.setTc c g p hold).chan c).tcClamp = decide (τ < -(2 ^ 20) ∨ 3 * 2 ^ 20 < τ)
    ∧ ((s.setTc c g p hold).chan c).pT = p

/-- R64, R65, R66, R75, R94, R153 to R155: D_zc after a crossing the oldest one found is decided; one that qualifies, voted, or a synthetic boundary that
is due, closes the half-cycle of its voltage set, and one that does not qualify only leaves the list. The oldest window that has ended is voted and,
once its filter taps are delivered, published; it reaches the metering points, the 3-second and 10-minute aggregations, the plausibility check and the
static step of its set, and leaves the queue; what ended before a swap sample does so under the set then in force. R67, R69, R85, R86, R124: creep
begins and ends, an overcurrent mark is released, the sequence-error and missing-neutral marks are set and cleared when their condition has held for
its count, and a due reactive transfer reaches the registers; the marks' level sources follow. This rests on the model's own choices and readings in
log 5, 14, 18, 25, 31, 61, 62. -/
def Obligations.BoundariesMarksAndWindows : Prop :=
  (∀ (v : Fin 8) (vote : VoteIn) (s : State),
     let ks := s.cfg.active
     let wide := vsWide ks v
     s.meters = true →
     (∀ f t, (s.vs v).zc.found = f :: t → vsEnabled ks v = true →
       let b := s.bndAt wide f.x.at_ f.x.rising false
       b.u + dzcU wide ≤ 2 * s.time.index + 2 →
       ((s.crossingOk v f && s.decidable wide b.u) = true → exec (.zcCrossingDecide v vote) s
         = .next (((s.modVs v fun y => { y with zc := { y.zc with found := t, wasLo := false, wasHi := false } }).setVote v vote).boundary v b))
       ∧ ((s.crossingOk v f && s.decidable wide b.u) = false → exec (.zcCrossingDecide v vote) s
         = .next (s.modVs v fun y => { y with zc := { y.zc with found := t, wasLo := y.zc.wasLo || f.lo, wasHi := y.zc.wasHi || f.hi } })))
     ∧ (∀ b, vsEnabled ks v = true → s.synthDue v = some b → s.decidable wide b.u = true →
       exec (.synthBoundary v) s = .next (s.boundary v b))
     ∧ (∀ w t, (s.vs v).done = w :: t → w.cut = true ∨ w.stop.u + 206 ≤ 2 * s.time.index →
       let s0 := s.modVs v fun y => { y with done := t }
       exec (.windowEnd v vote) s = .next (s0.under (s0.setAt w.stop.u) fun s =>
         let s1 := s.setVote v vote
         let lost := (setCourses s.cfg.active v).filter fun k => !s.onFooting k && s1.onFooting k
         let p := s1.winPub v w lost
         let u := (mpsOf s1.cfg.active v).foldl (fun (s : State) m => s.mpWindow p m) (s1.publish p)
         let u := if (vsCourse s1.cfg.active v).any lost.contains then u else (u.aggWindow p).slidingUpdate p
         let u := ((List.range 6).filter fun k => !lost.contains k).foldl (fun (s : State) k => s.plausibility v k w) u
         u.statWindow v w.start.index w.stop.index (u.windowRms p).1 (u.windowRms p).2)))
  ∧ (∀ (c : Fin 48) (v : Fin 8) (m : Fin 16) (s : State),
       let ks := s.cfg.active
       let x := s.chm c
       let y := s.vs v
       s.meters = true →
       (∀ i, mpOfChannel ks c = some i → x.creep = false → 2 * vsNc ks (mpVset ks i) ≤ x.downRun →
         exec (.creepEnter c) s = .next (s.setCreep i c true (s.lastBnd i).index (s.lastBnd i).ns))
       ∧ (∀ i, mpOfChannel ks c = some i → x.creep = true → 2 ≤ x.upRun →
         exec (.creepExit c) s = .next (s.setCreep i c false (s.lastBnd i).index (s.lastBnd i).ns))
       ∧ (x.oc = true → 2 ≤ x.ocRun →
         let b := s.lastBnd (((enabledMps ks).find? fun m => (mpChannels ks m).contains (some c.val)).getD 0)
         exec (.overcurrentRelease c) s
           = .next ((s.modChm c fun x => { x with oc := false, ocRun := 0 }).levelAt b.index b.ns (8 * c.val + 6) false))
       ∧ (y.seqErr = false → 5 ≤ y.seqIn → exec (.sequenceErrorAssert v) s
           = .next ((s.modVs v fun y => { y with seqErr := true, seqOut := 0 }).vsSource v 0 true))
       ∧ (y.seqErr = true → 5 ≤ y.seqOut → exec (.sequenceErrorClear v) s
           = .next ((s.modVs v fun y => { y with seqErr := false, seqIn := 0 }).vsSource v 0 false))
       ∧ (y.mn = false → 5 ≤ y.mnIn → exec (.missingNeutralAssert v) s
           = .next ((s.modVs v fun y => { y with mn := true, mnOut := 0 }).vsSource v 1 true))
       ∧ (y.mn = true → 5 ≤ y.mnOut → exec (.missingNeutralClear v) s
           = .next ((s.modVs v fun y => { y with mn := false, mnIn := 0 }).vsSource v 1 false))
       ∧ (∀ q t, (s.mpAcc m).due = q :: t → q.due ≤ s.time.index → exec (.reactiveTransfer m) s
           = .next ((s.modMpAcc m fun a => { a with due := t }).reactiveTransfer m q)))

/-- R55, R87 to R90, R101, R110, R117 to R119, R411: the metering and power quality reads return the blocks of what they name, DEGRADED with the data
where a course is on its footing unit; READ_CHANNEL_DIAG returns 48 words and clears the decimator counts of its own bay; READ_LOG returns records by
SEQ. This rests on the model's own choices and readings in log 8. -/
def Obligations.MeteringReadsReturnTheirBlocks : Prop :=
  ∀ (p : Packet) (s : State),
    let ks := s.cfg.active
    let chs := maskList 48 (fld p.params 0 8)
    let used := (chs.all fun c => (measuredChannels ks).contains c) = true
    (Starts 0x0201 p s = true → Block 8 [(1, 1), (4, 4)] p = true →
      let vs := maskList 8 (fld p.params 0 1)
      let ms := maskList 16 (fld p.params 2 2)
      vs.all (vsEnabled ks) = true → ms.all (mpEnabled ks) = true → exec (.readSnapshot p) s
        = .next ((s.touch p).answer 0x0201 p (Res.okOr (s.anyDegraded (vs.filterMap (vsCourse ks) ++ ms.filterMap (mpCourse ks)))
            (leBytes 8 s.time.index ++ zeros 8 ++ vs.flatMap s.vsBlockOf ++ ms.flatMap s.mpBlockOf))))
    ∧ (Block 8 [(6, 2)] p = true → used →
      (Starts 0x0202 p s = true → exec (.readHarmonics p) s
        = .next ((s.touch p).answer 0x0202 p (Res.okOr (s.anyDegraded (chs.map courseOf)) (chs.flatMap s.hBlockOf))))
      ∧ (Starts 0x0302 p s = true → exec (.pqReadIhg p) s
        = .next ((s.touch p).answer 0x0302 p (Res.okOr (s.anyDegraded (chs.map courseOf)) (chs.flatMap s.ihBlockOf))))
      ∧ (Starts 0x0320 p s = true → (∀ c ∈ chs, courseWide ks (courseOf c) = true) → exec (.pqReadBands p) s
        = .next ((s.touch p).answer 0x0320 p (Res.okOr (s.anyDegraded (chs.map courseOf)) (chs.flatMap s.bandBlockOf)))))
    ∧ (Starts 0x0203 p s = true → Block 0 [] p = true → exec (.readChannelDiag p) s
        = .next (((List.range 48).foldl (fun (s : State) i => s.modChan i fun x =>
            { x with fixed := Tbl.set 0 x.fixed p.bay 0, lost := Tbl.set 0 x.lost p.bay 0 }) (s.touch p)).answer 0x0203 p
              (Res.ok ((List.range 48).flatMap fun i => leBytes 4 (s.diagWord p.bay i)))))
    ∧ (Starts 0x0301 p s = true → Block 8 [(3, 5)] p = true →
      let v := fld p.params 0 1
      let l := fld p.params 1 1
      v < 8 → pqEnabled ks v = true → l ≤ 2 → fld p.params 2 1 ≤ 1 →
      let b := Tbl.get [] (if fld p.params 2 1 = 0 then (s.mon v).latest else (s.mon v).previous) l
      exec (.pqReadAgg p) s = .next ((s.touch p).answer 0x0301 p (Res.okOr (s.anyDegraded (vsCourse ks v).toList)
        (if b.isEmpty then zeros 16 ++ [1, 0] ++ leBytes 1 l ++ zeros 3 ++ leBytes 1 v ++ zeros 1633 else b))))
    ∧ (Starts 0x0310 p s = true → Block 8 [(6, 2)] p = true → 1 ≤ fld p.params 4 2 → fld p.params 4 2 ≤ 512 →
      exec (.pqReadLog p) s = .next ((s.touch p).answer 0x0310 p
        (Res.ok (seqResult (·.seq) PqRec.bytes s.pq.seq (fld p.params 0 4) (fld p.params 4 2) s.pq.log))))

/-- R102, R106, R107, R108, R109, R112, R114, R118: the power quality ticks. A rapid voltage change ends with a log record, its level cleared and the
monitor armed again; a steady monitor arms; the 10 s frequency, 10-minute and 2-hour intervals close and open on UTC ticks of valid time; 60 s after a
restart flicker counts; a wide channel's band interval publishes its block. This rests on the model's own choices and readings in log 5, 14, 65, 66. -/
def Obligations.PowerQualityIntervalsAndEventsEnd : Prop :=
  ∀ (v : Fin 8) (c : Fin 48) (s : State),
    let ks := s.cfg.active
    let m := s.mon v
    let base := 512 + 12 * v.val
    s.meters = true →
    (∀ r, m.rvc = some r → s.allSteady v (ks.get (kPq v 6) - ks.get (kPq v 7)) = true →
      ∃ q t, exec (.rvcEnd v) s = .next t
        ∧ t = ((s.pqAdd v q).modMon v fun m => { m with rvc := none, armed := true }).level (base + 3) false
        ∧ q.type = 3 ∧ q.vset = v.val ∧ q.seq = s.pq.seq ∧ q.status = r.status ∧ q.startIdx = r.startIdx ∧ q.uRef = uDin ks v / 1000
        ∧ q.thresh = ks.get (kPq v 6) ∧ q.extCh = s.rvcChannel v ∧ q.extreme = (s.pqc (s.rvcChannel v)).ext ∧ q.duMax = satU 32 (s.pqc (s.rvcChannel v)).duMax)
    ∧ (pqEnabled ks v = true → m.armed = false → m.rvc = none → m.dip = none → m.swell = none →
      s.allSteady v (s.key (kPq v 6)) = true → exec (.rvcArm v) s = .next (s.modMon v fun m => { m with armed := true }))
    ∧ (let lag := (if vsWide ks v then 250000 else 500000) + 30000
       let k := (s.time.ns - lag) / (10 * second)
       let cs := (s.vs v).cycles.filter fun x => (k - 1) * (10 * second) ≤ x.1 && x.2.1 ≤ k * (10 * second)
       let f := freqOfCycles (cs.map (·.2.2))
       let off := ((f : Int) - (vsNomF ks v * 1000000 : Nat)).natAbs
       vsEnabled ks v = true → k ≠ 0 → (s.vs v).f10Done < k → (s.vs v).f10From < (k - 1) * (10 * second) →
        let fl := flagBits cs.isEmpty false false ((s.vs v).synths.any fun x => (k - 1) * (10 * second) ≤ x && x < k * (10 * second)) false false false (!cs.isEmpty && freqOutside (vsNomF ks v) f) false
        let u := s.modVs v fun y => { y with f10 := f, f10Flags := fl, f10Done := k, cycles := y.cycles.filter (fun x => k * (10 * second) ≤ x.1), synths := y.synths.filter (k * (10 * second) ≤ ·) }
        let dev := ks.get (kPq v 9) * 1000
        exec (.freq10sEnd v) s = .next (
          if pqEnabled ks v = false ∨ dev = 0 ∨ cs = [] then u else if dev < off then u.level (base + 4) true
          else if 10 * off ≤ 9 * dev then u.level (base + 4) false else u))
    ∧ (pqEnabled ks v = true → s.time.valid = true →
        let now := s.tickOf s.time.ns
        let now2 := s.utcNs / (7200 * second)
        (m.a10.open_ = false → s.atTick v 600 = true → exec (.agg10minTick v now) s = .next (s.modMon v fun m =>
          { m with a10 := { open_ := true, tick := now, startUs := s.tickUs now 600 } }))
        ∧ (m.a2h.open_ = false → s.atTick v 7200 = true → exec (.agg2hTick v) s = .next (s.modMon v fun m =>
          { m with a2h := { open_ := true, tick := now2, startUs := s.tickUs now2 7200 }, pst := [] }))
        ∧ (m.a10.open_ = true → m.a10.cut.isSome = true ∨ m.a10.tick ≠ now → s.a10Done v = true →
          let u := (s.close10 v).modMon v fun m => { m with a10 := { tick := now } }
          exec (.agg10minTick v now) s = .next (if (u.mon v).a10.open_ = false ∧ u.atTick v 600 = true then u.modMon v fun m =>
            { m with a10 := { open_ := true, tick := now, startUs := u.tickUs now 600 } } else u))
        ∧ (m.ended2h now2 = true →
          (let plt := [pltOf m.pst 0, pltOf m.pst 1, pltOf m.pst 2]
           let short := m.a2h.seen < 12 || (m.pst.length < 12 || m.pst.any fun e => e.2 &&& 2 != 0)
           let a : Agg := { m.a2h with endUs := s.aggEnd m.a2h 7200, flags := m.a2h.flags ||| (if short then 2 else 0) }
           let u := (((s.aggStore v 2 (a.block v 2 [] (if a.count = 0 then [] else plt))).pulse (base + 10)).limit (base + 8)
              (a.outFlags ||| (m.pst.foldl (fun f e => f ||| (e.2 &&& 0x100)) 0)) (ks.get (kPq v 0x0D)) (plt.foldl max 0)).modMon v fun m => { m with a2h := { tick := now2 }, pst := [] }
           exec (.agg2hTick v) s = .next (if (u.mon v).a2h.open_ = false ∧ u.atTick v 7200 = true then u.modMon v fun m =>
            { m with a2h := { open_ := true, tick := now2, startUs := u.tickUs now2 7200 }, pst := [] } else u))))
    ∧ (∀ seconds, 60 ≤ seconds → m.settleFrom + 3840000 ≤ s.time.index → m.settled = false →
        exec (.flickerSettled v seconds) s = .next (s.modMon v fun m => { m with settled := true, flickCut := true }))
    ∧ (let stop := s.time.index - s.time.ns % 200000000 / 15625
       let smp := (s.chm c).raw.filter fun r => decide (2 * (stop - 12800) ≤ r.u) && decide (r.u < 2 * stop)
       (∃ w, (enabledVsets ks).find? (fun w => (vsAllChannels ks w).contains c.val) = some w) → courseWide ks (courseOf c) = true → s.time.stepAt + 12800 ≤ stop →
        ∀ n, n + 1 = s.time.ns / 200000000 → ∃ b : Bytes, exec (.bandIntervalEnd c n) s = .next { s with metro.bands := Tbl.set [] s.metro.bands c b }
        ∧ b.length = 160 ∧ b.take 8 = leBytes 8 (stop - 12800)
        ∧ (smp.length = 25600 → (∀ r ∈ smp, r.bad = false ∧ r.foot = false) → slice b 16 140 = (List.range 35).flatMap fun i => leBytes 4
            (satU 32 (sqrtRatio (2 * (List.range 40).foldl (fun t j => t + (dftBin 25600 (smp.reverse.map (·.y)) (401 + 40 * i + j)).sq) 0) (25600 ^ 2 * 2 ^ 36)))))

/-- R129, R130, R131, R132, R133, R259: ACC_READ and ACC_PRESET begin, and act at the next sample boundary. The latch returns the accumulators and pulse
counters named, with the time of the boundary, and clears their read-clear bits for the reading bay. A preset replaces a register or a pulse counter
only where EXPECTED and its wrap count hold, keeping a register's integrator content, is journaled and counts as a legal event, and returns the old
value; otherwise it answers DENIED with the present value. A checkpoint of a writable partition keeps the accumulators, billing and availability, and
the copies before it as the older checkpoint. This rests on the model's own choices and readings in log 63, 64, 73. -/
def Obligations.AccumulatorsAreReadAndPreset : Prop :=
  ∀ (p : Packet) (pulses : Bytes) (s : State),
    let b := p.params
    let q := queueId p.bay p.queue
    let tg := fld b 1 1
    let mps := maskList 16 (fld b 0 2)
    let pls := maskList 16 (fld b 4 2)
    (Starts 0x0402 p s = true → Block 8 [(6, 2)] p = true → exec (.accRead p) s = .next ((s.touch p).setBusy q (some ⟨⟨0x0402, p, s.time.mono⟩, .read none⟩)))
    ∧ accReadPulses p s = (pls.foldl (fun (s : State) q => s.modGen q fun x => { x with dropped := Tbl.set false x.dropped p.bay false }) s, pls.flatMap (pulseEntry s p.bay))
    ∧ (∀ n, s.host.busy = [(q, some ⟨⟨0x0402, p, n⟩, .read (some pulses)⟩)] →
        s.readsLatch = ((mps.foldl (fun (s : State) m => s.modMpAcc m fun a =>
            { a with invalid := Tbl.set false a.invalid p.bay false, restored := Tbl.set false a.restored p.bay false }) s).finishHeld q
          (Res.okOr (s.anyDegraded (mps.filterMap (mpCourse s.cfg.active)))
            (leBytes 8 s.time.index ++ leBytes 8 s.time.ns ++ b.take 6 ++ zeros 10 ++ mps.flatMap (mpEntry s p.bay · (fld b 2 2)) ++ pulses))))
    ∧ (Starts 0x0401 p s = true → Block 32 [(2, 6), (18, 6)] p = true →
      (tg < 16 ∧ fld b 0 1 < 16 ∧ mpEnabled s.cfg.active (fld b 0 1) = true) ∨ (0x80 ≤ tg ∧ tg < 0x90 ∧ fld b 12 4 = 0 ∧ fld b 28 4 = 0) →
      exec (.accPreset p) s = .next ((s.touch p).setBusy q (some ⟨⟨0x0401, p, s.time.mono⟩, .preset⟩)))
    ∧ (∀ n r u, s.host.busy = [(q, some ⟨⟨0x0401, p, n⟩, .preset⟩)] → applyPreset p { s with acc.presets := [] } = (u, .reply r) →
        s.presetsAtBoundary = u.finishHeld q r)
    ∧ (tg < 16 →
      let r := (s.mpAcc (fld b 0 1)).regOf tg
      (r.int = fld b 8 8 → r.wrap = fld b 16 1 → applyPreset p s
        = ((((s.modMpAcc (fld b 0 1) fun a =>
            { a with reg := Tbl.set {} a.reg tg { v := fld b 24 8 * 2 ^ 64 + r.v % 2 ^ 64, wrap := fld b 17 1 } }).journalAdd 0x08 0 0 0
              [fld b 0 1, tg, r.int, r.wrap, fld b 24 8, fld b 17 1]).markPreset b).legalEvent, .reply (Res.ok (presetResult s r.int r.wrap))))
      ∧ (¬ (r.int = fld b 8 8 ∧ r.wrap = fld b 16 1) → applyPreset p s
        = (s.markPreset b, .reply { status := stDenied, sub := subCas, result := presetResult s r.int r.wrap })))
    ∧ (0x80 ≤ tg →
      let x := s.gen (tg - 0x80)
      (x.count = fld b 8 8 → x.wrap = fld b 16 1 → applyPreset p s
        = ((((s.modGen (tg - 0x80) fun x => { x with count := fld b 24 8, wrap := fld b 17 1 }).journalAdd 0x08 0 0 0
              [fld b 0 1, tg, x.count, x.wrap, fld b 24 8, fld b 17 1]).markPreset b).legalEvent, .reply (Res.ok (presetResult s x.count x.wrap))))
      ∧ (¬ (x.count = fld b 8 8 ∧ x.wrap = fld b 16 1) → applyPreset p s
        = (s.markPreset b, .reply { status := stDenied, sub := subCas, result := presetResult s x.count x.wrap })))
    ∧ (s.writable 2 = true → exec .accCheckpoint s = .next { s with
        bill.older := (s.acc.kept, s.bill.kept, s.tiles.avKept, s.bill.credits),
        acc.kept := s.accKeep, bill.kept := s.bill.mp, tiles.avKept := s.tiles.av, bill.credits := [], acc.keptBySave := false })

/-- R136, R137, R138: a pulse ends at its width; an output in current limit for 1 ms is switched off with its level source asserted, and is tried again
after 100 ms; the disconnect's feedback check follows its timers. R139 to R146: discrete inputs. A 250 µs step classifies both loops and counts their
runs; a class that differs for DEBOUNCE becomes the loop's value; disagreement for T_DISC latches the input with its level source; agreement for
T_DISC makes it ready to clear; DI_CLEAR then releases it with the state of loop A, and is DENIED before; DI_READ returns one word per input. This
rests on the model's own choices and readings in log 5, 32. -/
def Obligations.PulseOutputsAndDiscreteInputs : Prop :=
  (∀ (q m : Fin 16) (us : Nat) (s : State),
     let x := s.gen q
     s.meters = true →
     (∀ e, x.stopAt = some e → e ≤ 2 * s.time.index + 1 → exec (.pulseWidthEnd q) s
       = .next ((s.modGen q fun x => { x with stopAt := none }).drivePulse q false))
     ∧ (s.keyOn (kPulse q 0) = true → x.short = false → 1000 ≤ us → exec (.pulseShortDetect q us) s
       = .next ({ s.modGen q fun x => { x with short := true, offAt := s.time.mono } with
           pins.pulse := Tbl.set none s.pins.pulse q none }.level (608 + 2 * q.val) true))
     ∧ (x.short = true → x.offAt + 100000000 ≤ s.time.mono →
       exec (.pulseShortRetry q true) s
         = .next (((s.modGen q fun x => { x with short := false }).drivePulse q x.stopAt.isSome).level (608 + 2 * q.val) false)
       ∧ exec (.pulseShortRetry q false) s = .next (s.modGen q fun x => { x with offAt := s.time.mono }))
     ∧ (mpEnabled s.cfg.active m = true →
       let a := s.mpAcc m
       let due := fun o : Option Nat => match o with | some t => decide (t + s.key (kMp m 0x0D) * 1000000 ≤ s.time.mono) | none => false
       let mis := (a.mis || due a.misSince) && !due a.calm
       let live := (a.live || due a.liveSince) && !due a.calm
       exec (.discFeedbackConfirm m) s
         = .next ((s.modMpAcc m fun a => { a with mis := mis, live := live }).level (384 + 8 * m.val + 6) (mis || live))))
  ∧ (∀ (d : Fin 8) (a b : Nat) (onB : Bool) (p : Packet) (s : State),
       let ks := s.cfg.active
       let x := s.di d
       let anti := ks.get (kDi d 1) == 1
       (s.meters = true → diEnabled ks d = true →
         let sup := ks.get (kDi d 5) == 1
         exec (.diClassify d a b) s = .next ((s.modDi d fun x =>
           { x with clsA := classify sup x.clsA a, clsB := classify sup x.clsB b, runA := (if classify sup x.clsA a = x.clsA then x.runA + 1 else 1),
                    runB := (if classify sup x.clsB b = x.clsB then x.runB + 1 else 1), timer := x.timer.map (· + 1),
                    agree := (if x.agrees anti then x.agree + 1 else 0), clearReady := x.clearReady && x.agrees anti }).diSettle d)
         ∧ (let run := if onB then x.runB else x.runA
            let cls := if onB then x.clsB else x.clsA
            4 * ks.get (kDi d 3) ≤ run → 1 ≤ run → cls ≠ (if onB then x.b else x.a) →
             let s1 := s.modDi d fun x => if onB then { x with b := cls } else { x with a := cls }
             let ag := (s1.di d).agrees anti
             exec (.diDebounce d onB) s = .next (((s1.modDi d fun x => { x with
               timer := (if (s.di d).agrees anti && !ag && !x.latched then some 0 else x.timer),
               agree := (if ag then x.agree else 0), clearReady := x.clearReady && ag }).diFaults d).diSettle d)))
       ∧ (∀ t, x.timer = some t →
           (tDisc ks d ≤ t → s.diSettle d = s.diLatch d)
           ∧ (t < tDisc ks d → x.agrees anti = true → s.diSettle d = s.diAccept d)
           ∧ (t < tDisc ks d → x.agrees anti = false → s.diSettle d = s))
       ∧ (x.timer = none → s.diSettle d = if x.agrees anti && !x.latched then s.diAccept d else s)
       ∧ (s.diAccept d = let u := s.modDi d fun y => { y with timer := none, state := x.a == .closed }
           if (x.a == .closed) = x.state then u else u.pulse (640 + 4 * d.val))
       ∧ (∀ t, s.meters = true → x.timer = some t → tDisc ks d ≤ t → exec (.diDiscrepancyLatch d) s
           = .next ((s.modDi d fun x => { x with latched := true, timer := none, clearReady := false }).level (640 + 4 * d.val + 1) true))
       ∧ (s.meters = true → x.latched = true → x.agrees anti = true → tDisc ks d ≤ x.agree → exec (.diClearReady d) s
           = .next (s.modDi d fun x => { x with clearReady := true }))
       ∧ (Starts 0x0410 p s = true → Block 8 [(1, 7)] p = true → fld p.params 0 1 = d.val → diEnabled ks d = true →
         (x.clearReady = true →
           let v := x.a == .closed
           let u := ((s.touch p).modDi d fun x => { x with latched := false, clearReady := false, state := v }).level (640 + 4 * d.val + 1) false
           exec (.diClear p) s = .next ((if u.diState d != s.diState d then u.pulse (640 + 4 * d.val) else u).answer 0x0410 p Res.ok))
         ∧ (x.clearReady = false → exec (.diClear p) s = .next ((s.touch p).answer 0x0410 p (Res.err stDenied subNotAgreed))))
       ∧ (Starts 0x0411 p s = true → Block 0 [] p = true → exec (.diRead p) s
           = .next ((s.touch p).answer 0x0411 p (Res.ok ((List.range 8).flatMap fun d => leBytes 4 (if diEnabled ks d then s.diWord d else 0))))))

/-- R157 to R159, R161, R498: a substitution ends its vote with two wardens in its three boundaries or is called off; it freezes at its checkpoint, takes
the image, and at its join boundary the joining tile becomes an active metrology tile of a TRIPLEX bond, or is rejected when it did not freeze, load
or reach the image. This rests on the model's own choices and readings in log 5, 36, 53. -/
def Obligations.TilesJoinBySubstitution : Prop :=
  ∀ (k : Fin 6) (votes : List (Fin 3)) (reached : Bool) (x : Subst) (s : State), (s.bond k).sub = some x →
    let n := ((List.range 3).filter fun w => !s.fault.wardenOut.getLsbD w && !s.fault.wardenReset.getLsbD w && votes.any (·.val == w)).length
    (x.voted = false → 2 ≤ n → x.sd + 1 ≤ s.time.index → s.time.index ≤ x.sd + 3 → exec (.substWardenVote k votes) s
      = .next ((s.wardenVotes votes).modBond k fun b => { b with sub := some { x with voted := true } }))
    ∧ (x.voted = false → n < 2 → x.sd + 3 ≤ s.time.index → exec (.substWardenVote k votes) s
      = .next (((((s.wardenVotes votes).releaseTile x.tile).toDuplex k).tilesSettle).tryBondsBut k).tileLevelsNow)
    ∧ (x.voted = true → (s.tile x.tile).st = .joining → x.sc ≤ s.time.index + 1 → exec (.substCheckpoint k) s
      = .next (s.modBond k fun b => { b with sub := some { x with frozen := true } }))
    ∧ (x.frozen = true → exec (.substImageArrived k) s = .next (s.modBond k fun b => { b with sub := some { x with image := true } }))
    ∧ (x.voted = true → x.sj ≤ s.time.index + 1 →
      let i := max x.sj s.time.index
      (x.frozen = true → x.image = true → exec (.substJoin k true) s
        = .next ((((s.modTile x.tile fun y => { y with role := .metrology, st := .active, course := some k.val }).modBond k fun b =>
            { b with st := .triplex, members := b.members ++ [x.tile], alloc := b.members ++ [x.tile], sub := none }).tileLevels i
              (s.time.ns + (i - s.time.index) * 15625))))
      ∧ (¬ (x.frozen = true ∧ x.image = true ∧ reached = true) → exec (.substJoin k reached) s = .next (s.rejectJoining k i)))

/-- R160, R163 to R165, R168, R170, R174: bonds fall, rebuild and return, tiles are tested. A footing check that has failed for CHECK_WINDOWS counts the
indexes of its run as suspect, marks CHECK_FAIL for every bay and drops the course to its footing unit from the next index; a rebuild starts with
members that joined; 8,192 boundaries after it the bond carries the course again from its boundary, its windows cut, READY set. R168, R171, R172,
R174: DIAG_TILE_STATUS returns the words of the 72 tiles and the 6 bonds and clears their read-clear counts for its bay; DIAG_AVAIL_READ returns the
availability record. This rests on the model's own choices and readings in log 5, 36, 68, 70. -/
def Obligations.BondsFallRebuildReturnAndReport : Prop :=
  (∀ (k : Fin 6) (t : Fin 72) (q : Nat) (s : State),
     let b := s.bond k
     (s.key (kTiles 2) ≤ b.failRun →
       (∀ a, b.footFail = false → b.runFrom = some a → exec (.footingCheckFail k) s
         = .next (((s.rebucket k a b.runTo fun x _ => if x = 0 then 0 else 1).modBond k fun b =>
             { b with checkFail := (List.range 8).foldl (fun t i => Tbl.set false t i true) b.checkFail }).fallNext k))
       ∧ (b.footFail = true → exec (.footingCheckFail k) s = .next (s.modBond k fun b => { b with failRun := 0, runFrom := none })))
     ∧ (2 ≤ b.members.length → b.rebuildAt = none → (b.st = .footing ∨ b.st = .rebuilding) →
       (∀ m ∈ b.members, (s.tile m).st = .joining ∨ ((s.tile m).st = .active ∧ (s.tile m).role = .metrology)) →
       let go := fun i : Nat => ((b.members.foldl (fun (s : State) t => s.modTile t fun x => { x with role := .metrology, st := .active, course := some k.val }) s).modBond k
         fun b => { b with st := .rebuilding, rebuildAt := some i }).tileLevelsNow
       (b.atStart = true → s.courseSettled k = true → b.readyAt ≤ s.time.index → exec (.bondRebuildStart k) s = .next (go s.time.index))
       ∧ (∀ v x, b.atStart = false → s.courseBnd k = some (v, x) → b.readyAt ≤ x.index → exec (.bondRebuildStart k) s = .next (go x.index)))
     ∧ (∀ i v x, b.st = .rebuilding → b.rebuildAt = some i → s.courseBnd k = some (v, x) → i + 8192 ≤ x.index →
       let s1 := s.cutWindows k x
       let s2 := if (s1.vs v).win.isNone then s1.openWindow v x else s1
       let s3 := (courseMps s2.cfg.active k).foldl (fun (s : State) m =>
         (mpElems s.cfg.active m).foldl (fun s d => s.modElem (4 * m + d.e) (Elem.rebase x.u)) s) s2
       let s3 := s3.rebucket k x.index (s.time.index + 1) fun o n => if o ≠ 2 then o else if n = 6 ∧ b.members.length < 3 then 5 else n
       let s3 := (courseVsets s3.cfg.active k).foldl (fun (s : State) v => s.flickerRestart v) s3
       let s4 := (s3.modBond k fun b => { b with st := .triplex, alloc := b.members, rebuildAt := none, atStart := false }).setReady (16 + k) true
       exec (.bondReturn k) s = .next ((if b.members.length < 3 then (s4.toDuplex k).tryBonds else s4).tileLevels x.index x.ns))
     ∧ (let x := s.tile t
        x.st = .testing → Tbl.get 0 s.host.island t = 0 →
        let full := x.fencedAt.isNone && 8 ≤ s.pool
        exec (.tileTestDone t false) s = .next (s.modTile t fun x => { x with st := .failed, fencedAt := none }).tileLevelsNow
        ∧ exec (.tileTestDone t true) s = .next ((s.modTile t fun x =>
           { x with role := (if full then .ledger else .grout), st := (if full then .active else .warm), course := none,
                    transients := (if x.fencedAt.isSome then bump255 x.transients else x.transients), fencedAt := none }).tilesSettle.tryBonds).tileLevelsNow)
     ∧ exec (.ledgerTaskBoundary t false q) s = .next { s with ledger.queueUs := q }
     ∧ (let need := decide (s.ledgerActive * 1000000 < q) && (s.kiln.role == .leaf || s.kiln.role == .relay)
        let cold := (s.tilesWhere fun x => x.role == .ledger && x.st == .cold).take (ceilDiv q 1000000 - s.ledgerActive)
        exec (.ledgerTaskBoundary t true q) s
         = .next (((if need then cold.foldl (fun (s : State) x => s.modTile x fun y => { y with st := .active }) s else s).measureQueue q).convertTile t).tilesSettle))
  ∧ (∀ (p : Packet) (s : State), Block 0 [] p = true →
       (Starts 0x0E20 p s = true →
         let u := allTiles.foldl (fun (s : State) t => s.modTile t fun x =>
           { x with transients := Tbl.set 0 x.transients p.bay 0, fences := Tbl.set 0 x.fences p.bay 0 }) (s.touch p)
         exec (.diagTileStatus p) s
           = .next (((List.range 6).foldl (fun (s : State) k => s.modBond k fun x => { x with checkFail := Tbl.set false x.checkFail p.bay false }) u).answer 0x0E20 p
             (Res.ok ((allTiles.flatMap fun t => leBytes 4 ((s.tile t).word p.bay)) ++ ((List.range 6).flatMap fun k => leBytes 4 ((s.bond k).word p.bay))))))
       ∧ (Starts 0x0E21 p s = true → exec (.diagAvailRead p) s = .next ((s.touch p).answer 0x0E21 p (Res.ok s.availRecord))))

/-- R184, R186, R188, R189: ACB_READ returns the slots named at a frame boundary and resets their extremes when asked; the oldest change of a comparator
that waits, an alarm or a release, moves its level source with the stamp of its conversion; a slot's period closes and starts the next; an urgent
request waits its turn, four at most, and its burst's codes answer it. This rests on the model's own choices and readings in log 3, 5, 14, 35. -/
def Obligations.ConverterSlotsAndUrgentRequests : Prop :=
  ∀ (p : Packet) (w : Fin 8) (i : Fin 16) (k : Fin 2) (raws : List Int) (s : State),
    (Starts 0x0503 p s = true → Block 8 [(3, 5)] p = true → fld p.params 2 1 ≤ 1 →
      let l := maskList 16 (fld p.params 0 2)
      exec (.acbRead p) s = .next ((if fld p.params 2 1 = 1 then
          l.foldl (fun (s : State) i => s.modSlot i fun x => { x with min_ := 32767, max_ := -32768 }) (s.touch p) else s.touch p).answer 0x0503 p
        (Res.okOr (l.any fun i => [0, 1].any fun k => (s.slot i).cfg.uses k && s.convFault k) (leBytes 8 (s.time.ns - (s.time.mono + Config.framePhase) % 12800) ++ l.flatMap fun i => (s.slot i).bytes))))
    ∧ (∀ on t l, (s.wcomp w).changes = (on, t) :: l →
        let u := (s.modWcomp w fun x => { x with changes := l }).levelAt t.1 t.2 (672 + w.val) on
        (on = true → exec (.comparatorAlarm w) s = .next u) ∧ (on = false → exec (.comparatorRelease w) s = .next u))
    ∧ (let x := s.slot i
       x.cfg.run = true → s.ready 9 = true → x.ends ≤ s.time.mono →
       let r := s.slotStats x
       let next := if x.cutAt == some x.ends then slotCfg r.2.cfg.active i else x.cfg
       let y := x.close next (r.2.time.ns - (r.2.time.mono - x.ends)) r.1.1 r.1.2 (r.2.gapNow i next)
       let u := r.2.modSlot i fun _ => y
       exec (.slotPeriodEnd i) s = .next ((if y.flags &&& bitClip != 0 then u.pulse (680 + i) else u).tcMean i
         (if y.flags &&& (bitInvalid ||| bitConvFault) != 0 then none else some y.mean)))
    ∧ (let input := fld p.params 0 1
       let n := fld p.params 2 2
       Starts 0x0502 p s = true → Block 8 [(5, 3)] p = true → input ≤ 22 → fld p.params 1 1 = k.val → 16 ≤ n → n ≤ 4096 → fld p.params 4 1 ≤ 1 →
       (4 ≤ (s.urgents k).length → exec (.adcUrgent p) s = .next ((s.touch p).answer 0x0502 p (Res.err stBusy 0)))
       ∧ ((s.urgents k).length < 4 → exec (.adcUrgent p) s
          = .next (((((s.touch p).setUrgents k (s.urgents k ++ [⟨queueId p.bay p.queue, input, fld p.params 4 1 == 1, n, none⟩])).startUrgent k).setBusy (queueId p.bay p.queue)
              (some ⟨⟨0x0502, p, s.time.mono⟩, .urgent⟩)))))
    ∧ (∀ u l t, s.urgents k = u :: l → u.start = some t → t + 200 * u.count ≤ s.time.mono → raws.length = u.count →
        exec (.urgentBurstDone k raws) s = .next (((s.markGaps.setUrgents k l).finishHeld u.queue (Res.okOr (s.markGaps.convFault k)
          (burstResult (s.time.ns - (s.time.mono - t)) (raws.map fun r => (corrected s.aux.fac k u.input (s.gref u.ratio) r).1)))).startUrgent k))

/-- R190, R191, R200: ADC_SELFCAL starts a self-calibration, and is BUSY during a run of it or of a device calibration. A run takes SAR0's factors 5.7344
ms after its start, SAR1's after 11.4688 ms and the skew after 12.8 ms: while every factor was in range each is written, else those of before the run
stay. It ends with EV0696, or with EV0697 and SELFCAL_FAIL, and answers, sets ACB in the kiln, or hands on to the reference step. R192, R194 to R198:
device calibration. CAL_RUN triggers a run in the temperature-triggered mode, is BUSY during one, and is DENIED in the factory mode. The 1 s mean of
TS2 moves the factory model, or in the temperature-triggered mode triggers a run at a difference of at least TEMP_DELTA; a trigger starts a run, or
inside 60 s of the last one is delayed with EV0703 and starts at their end. The reference step with the precision resistor, and the one with the
line's RMS values, give REF_GAIN, which is written where it is in range (EV0698), else REF_FAIL and EV0699. Three failed converter checks in a row
fault a converter and ten good ones in fault end it. This rests on the model's own choices and readings in log 5, 14, 35. -/
def Obligations.CalibrationsTakeTheirSteps : Prop :=
  (∀ (p : Packet) (ofs skew : Int) (gain : Nat) (s : State),
     (Starts 0x0501 p s = true → Block 0 [] p = true →
       (s.aux.selfStep = 0 → s.aux.calBusy = false → exec (.adcSelfcal p) s
         = .next (((s.touch p).startSelf (.host (queueId p.bay p.queue))).setBusy (queueId p.bay p.queue) (some ⟨⟨0x0501, p, s.time.mono⟩, .selfcal⟩)))
       ∧ ((s.aux.selfStep ≠ 0 ∨ s.aux.calBusy = true) → exec (.adcSelfcal p) s = .next ((s.touch p).answer 0x0501 p (Res.err stBusy 0))))
     ∧ (∀ f, (s.aux.selfBad = false → s.selfFactors true f = s.setFactors f)
         ∧ (∀ ok, ok = false ∨ s.aux.selfBad = true →
           s.selfFactors ok f = { (s.setFactors { s.aux.selfPrev with ref := s.aux.fac.ref }) with aux.selfBad := true }))
     ∧ (s.aux.selfStep = 1 → s.aux.selfStart + 5734400 ≤ s.time.mono → exec (.selfcalSar0Done ofs gain) s
         = .next ((({ s.selfFactors (factorOk ofs gain) { s.aux.fac with ofs0 := ofs, gain0 := gain } with aux.selfStep := 2 }).markGaps).startUrgent 0))
     ∧ (s.aux.selfStep = 2 → s.aux.selfStart + 11468800 ≤ s.time.mono → exec (.selfcalSar1Done ofs gain) s
         = .next ({ s.selfFactors (factorOk ofs gain) { s.aux.fac with ofs1 := ofs, gain1 := gain } with aux.selfStep := 3 }).markGaps)
     ∧ (s.aux.selfStep = 3 → s.aux.selfStart + 12800000 ≤ s.time.mono →
       let ok := decide (-512 ≤ skew ∧ skew ≤ 511) && !s.aux.selfBad
       let s0 := s.selfFactors ok { s.aux.fac with skew := skew }
       let s1 := if ok then ({ s0 with aux.selfStep := 0, aux.selfValid := true }).pulse 696
         else (({ s0 with aux.selfStep := 0 }).modAllWin fun w => { w with selfcalFail := true }).pulse 697
       let s2 := match s1.aux.selfBy with
         | .host q => s1.finishHeld q (if ok then Res.ok else Res.err stFault 0)
         | .kiln => s1.selfInKiln
         | .cal => s1
       exec (.selfcalDone skew) s = .next (((if s2.aux.calBusy && s2.aux.selfStep == 0 then s2.startRef else s2).startUrgent 0).startUrgent 1)))
  ∧ (∀ (p : Packet) (code c1 c2 on off : Int) (rms : List Nat) (k : Fin 2) (s : State),
       (Starts 0x0510 p s = true → Block 0 [] p = true → s.aux.mode = true → s.aux.calBusy = false →
         exec (.calRun p) s = .next (((s.touch p).calTrigger).answer 0x0510 p Res.accepted))
       ∧ (Starts 0x0510 p s = true → Block 0 [] p = true → s.aux.mode = true → s.aux.calBusy = true →
         exec (.calRun p) s = .next ((s.touch p).answer 0x0510 p (Res.err stBusy 0)))
       ∧ (s.aux.calBusy = false → s.aux.calDelayed = false →
         (s.aux.calAt = none → s.calTrigger = s.startCal)
         ∧ ∀ t, s.aux.calAt = some t → s.calTrigger = if s.time.mono < t + 60 * second then ({ s with aux.calDelayed := true }).pulse 703 else s.startCal)
       ∧ (∀ n, s.convFault 0 = false ∨ s.convFault 1 = false →
           let gone := ((s.modAllWin fun w => { w with refFail := true }).pulse 699).calEnd
           s.refResult none n = gone
           ∧ ∀ g, s.refResult (some g) n = if 200 * ((g : Int) - Config.fusedRefGain).natAbs ≤ Config.fusedRefGain ∧ g < 2 ^ 32 then
               (let u := s.setFactors { s.aux.fac with ref := g }
                let w : State := { u with aux.tLast := u.aux.calT, aux.refSource := n, aux.calCount := (u.aux.calCount + 1) % 2 ^ 32, aux.calLast := u.calTime }
                (w.pulse 698).calEnd)
             else gone)
       ∧ (Starts 0x0510 p s = true → Block 0 [] p = true → s.aux.mode = false →
         exec (.calRun p) s = .next ((s.touch p).answer 0x0510 p (Res.err stDenied subFactoryOnly)))
       ∧ (s.ready 9 = true → s.aux.ts2At + second ≤ s.time.mono →
         let u : State := { s with aux.ts2 := some code, aux.ts2At := s.time.mono }
         (u.aux.mode = false → exec (.ts2MeanCheck code) s
           = .next { (u.setFactors { u.aux.fac with ref := Config.refModel code }) with aux.refSource := 0 })
         ∧ (u.aux.mode = true → exec (.ts2MeanCheck code) s
           = .next (if u.key (kCal 1) * 128 ≤ 10 * (code - u.aux.tLast).natAbs then u.calTrigger else u)))
       ∧ (∀ t, s.aux.calAt = some t → s.aux.calDelayed = true → s.aux.mode = true → s.aux.calBusy = false → t + 60 * second ≤ s.time.mono →
         exec .calSpacingEnd s = .next s.startCal)
       ∧ (s.aux.step = some .rprec → s.aux.stepAt + 7680000 ≤ s.time.mono → exec (.rprecStepDone on off) s
           = .next (s.refResult (if 12000 * 4000 ≤ on ∧ on ≤ 14200 * 4000 ∧ 0 < on - off then some (roundDiv (131072 * 400 * 2 ^ 30) (on - off).toNat).toNat else none) 1))
       ∧ (∀ l, s.aux.step = some (.stat l) → s.aux.stepAt + s.key (kCal 5) * second ≤ s.time.mono → rms.length = l.length →
         let ws := ((rms.zip l.reverse).filter fun e => e.2.2).map fun e => (e.1, e.2.1)
         let a := (ws.map fun e => e.1 * e.1).sum
         let b := (ws.map fun e => e.1 * e.2).sum
         let c := (ws.map fun e => e.2 * e.2).sum
         let m := (ws.map (·.1)).sum
         exec (.statStepDone rms) s = .next (s.refResult
           (if 4 * l.length ≤ 5 * ws.length ∧ 0 < b ∧ (a * c - b * b) * ws.length * 10 ^ 8 ≤ c * (m * m)
            then some (roundDiv ((s.key (kCal 4) * 250 * c : Nat) : Int) b).toNat else none) 2))
       ∧ (s.ready 9 = true → Tbl.get 0 s.aux.checkAt k + second ≤ s.time.mono →
         let s1 := ({ s with aux.checkAt := Tbl.set 0 s.aux.checkAt k s.time.mono }).displaceOne k
         let good := checkPasses c1 c2
         let fr := if good then 0 else Tbl.get 0 s1.aux.failRun k + 1
         let pr := if good && s1.convFault k then Tbl.get 0 s1.aux.passRun k + 1 else 0
         let u : State := { s1 with aux.failRun := Tbl.set 0 s1.aux.failRun k fr, aux.passRun := Tbl.set 0 s1.aux.passRun k pr }
         exec (.converterCheck k c1 c2) s = .next (
           if u.convFault k = false ∧ 3 ≤ fr then u.convFails k
           else if u.convFault k = true ∧ 10 ≤ pr then ({ u with aux.fault := Tbl.set false u.aux.fault k false }).level (701 + k.val) false
           else u)))

/-- R208, R215, R217, R218: TIME_SET begins with its change held for the next sample boundary, where no source disciplines the time it sets. There MODE 0
steps system time to VALUE, MODE 1 moves it by SHIFT (slewed within STEP_LARGE, else stepped), MODE 2 sets the UTC offset and schedules a leap second,
and the reply names the index and the times before and after. TIME_GET returns the time and clears its bay's TIME_STEPPED; TIME_LOG_READ returns
records by SEQ. R211, R212: the four time sources. A PTP Announce of the configured port, transport and domain enters the clocks heard of, of which
the default algorithm chooses the master; its Sync and Follow_Up give offsets and the Delay_Resp the mean path delay; PPS edges 1 s apart within 100
µs give offsets; the mains counts cycles. A source qualifies after its count of good samples and is lost after its timeout; an earlier source
qualified for 10 s is promoted. This rests on the model's own choices and readings in log 3, 5, 16, 20, 34, 71, 73. -/
def Obligations.TimeIsSetReadAndDisciplined : Prop :=
  (∀ (p : Packet) (s : State),
     let b := p.params
     let u := s.touch p
     let q := queueId p.bay p.queue
     (Starts 0x0601 p s = true → Block 16 [(4, 4)] p = true →
       let v := ({ u with time.due := s.time.due ++ [.set q] } : State).setBusy q (some ⟨⟨0x0601, p, s.time.mono⟩, .timeSet⟩)
       (s.time.source = 0 → fld b 1 1 = 0 → fld b 2 2 = 0 →
         (fld b 0 1 = 0 → fld b 8 8 ≤ timeMax → exec (.timeSet p) s = .next v)
         ∧ (fld b 0 1 = 1 → s.time.valid = true → 0 ≤ (s.nowNs : Int) + sfld b 8 8 → s.nowNs + sfld b 8 8 ≤ (timeMax : Int) → exec (.timeSet p) s = .next v))
       ∧ (fld b 0 1 = 2 → fld b 1 1 ≤ 2 → fld b 8 8 = 0 → (s.time.source = 2 → s.time.ptp.utcValid = false) → exec (.timeSet p) s = .next v))
     ∧ (∀ f, s.busyOf q = some f → f.kind = .timeSet → f.entry.pkt = p →
         s.timeChange (.set q) = (timeSetApply p s).1.finishHeld q (timeSetApply p s).2)
     ∧ (let stepped (adv : Int) (cause : Nat) := (s.applyStep adv cause p.bay, Res.ok (timeSetResult 1 (s.applyStep adv cause p.bay).time.index s.time.ns (s.applyStep adv cause p.bay).time.ns))
        (fld b 0 1 = 0 → timeSetApply p s = stepped ((fld b 8 8 : Int) - s.time.ns) 2)
        ∧ (fld b 0 1 = 1 → s.key (kBill 4) * second < (sfld b 8 8).natAbs → timeSetApply p s = stepped (sfld b 8 8) 3)
        ∧ (fld b 0 1 = 1 → (sfld b 8 8).natAbs ≤ s.key (kBill 4) * second →
           timeSetApply p s = (s.startSlew (sfld b 8 8), Res.ok (timeSetResult 0 s.time.index s.time.ns s.time.ns)))
        ∧ (fld b 0 1 = 2 → timeSetApply p s
           = ((s.setUtcOffset (sfld b 2 2) 5).scheduleLeap (fld b 1 1), Res.ok (timeSetResult 2 s.time.index s.time.ns s.time.ns))))
     ∧ (Starts 0x0602 p s = true → Block 0 [] p = true → exec (.timeGet p) s
       = .next ({ u with time.stepped := Tbl.set false s.time.stepped p.bay false }.answer 0x0602 p
           (Res.ok (leBytes 8 s.nowNs ++ leBytes 8 s.time.index ++ leBytes 4 (s.timeStatus (Tbl.get false s.time.stepped p.bay))
             ++ leInt 2 s.time.utcOfs ++ zeros 2 ++ leBytes 4 (satU 32 s.estError) ++ leInt 4 s.time.rate
             ++ leInt 8 (if s.time.holdover then 0 else s.time.lastOffset)))))
     ∧ (Starts 0x0610 p s = true → Block 8 [(6, 2)] p = true → 1 ≤ fld b 4 2 → fld b 4 2 ≤ 1024 → exec (.timeLogRead p) s
       = .next (u.answer 0x0610 p (Res.ok (seqResult (·.seq) TimeRec.bytes s.time.logSeq (fld b 0 4) (fld b 4 2) s.time.log)))))
  ∧ (∀ (a : Announce) (m : PtpStamp) (seq t3 stamp : Nat) (s : State),
       let p := s.time.ptp
       (a.domain = s.key (kTime 3) → a.port = s.key (kTime 4) → a.transport = s.key (kTime 5) →
         let l := heard a s.time.mono p.foreign
         let u : State := { s with time.ptp.foreign := l }
         let best := bestSet ((l.filter fun x => x.counts s.time.mono).map (·.dataset))
         (best = none → exec (.ptpAnnounce a) s = .next u)
         ∧ (∀ d, best = some d →
           let v := u.followMaster d
           (setIdentity d ≠ setIdentity a.dataset → exec (.ptpAnnounce a) s = .next v)
           ∧ (setIdentity d = setIdentity a.dataset →
             let w : State := { v with time.ptp := { v.time.ptp with announceMs := a.intervalMs, utcValid := a.utcValid, lastAnnounce := v.time.mono } }
             exec (.ptpAnnounce a) s = .next (if w.time.source = 2 ∧ a.utcValid = true then w.setUtcOffset a.utcOffset 5 else w))))
       ∧ (∀ d,
           (p.master.map setIdentity = some (setIdentity d) → s.followMaster d = { s with time.ptp := { p with master := some d } })
           ∧ (p.master.map setIdentity ≠ some (setIdentity d) → s.followMaster d
             = let v := if (s.src 2).qualified then s else s.modSrc 2 fun x => { x with good := 0 }
               { v with time.ptp := { foreign := p.foreign, master := some d, lastSync := v.time.mono } }))
       ∧ (s.fromMaster m.identity = true →
         let u := { s with time.ptp := { p with syncSeq := some m.seq, t2 := m.rx, t1 := none, lastSync := s.time.mono } }.modSrc 2 fun x =>
           { x with good := x.good + 1, last := s.time.mono }
         exec (.ptpSync m) s = .next (match m.origin with | some t => (u.ptpOffset t).ptpQualify | none => u.ptpQualify)
         ∧ (∀ t, p.syncSeq = some m.seq → m.origin = some t → exec (.ptpFollowUp m) s = .next (s.ptpOffset t).ptpQualify))
       ∧ (p.master.isSome = true → exec (.ptpDelayReqSend seq t3) s = .next { s with time.ptp.reqSeq := some seq, time.ptp.t3 := t3 })
       ∧ (∀ t1 t4, p.t1 = some t1 → p.reqSeq = some seq → exec (.ptpDelayResp seq t4) s
         = .next { s with time.ptp.msDelay := some ((((p.t2 : Int) - t1) + ((t4 : Int) - p.t3)) / 2), time.ptp.reqSeq := none })
       ∧ (p.master.isSome = true → (p.lastAnnounce + 3 * p.announceMs * 1000000 ≤ s.time.mono ∨ (s.src 2).qualified = true ∧ p.lastSync + 3 * second ≤ s.time.mono) →
         exec .ptpAnnounceTimeout s = .next ({ s with time.ptp := {} }.loseSource 2))
       ∧ (let u := { s with time.ppsIn := some stamp }
          (∀ q, s.time.ppsIn = some q → ((stamp : Int) - q - second).natAbs ≤ 100000 →
           let v := u.modSrc 3 fun x => { x with good := x.good + 1, last := s.time.mono }
           let t : Int := stamp - v.keyS (kTime 9)
           let w := v.offsetSample 3 (t - roundDiv t second * second)
           exec (.ppsInEdge stamp) s = .next (if w.time.valid = true ∧ 4 ≤ (w.src 3).good then w.qualify 3 else w))
          ∧ (s.time.ppsIn = none → exec (.ppsInEdge stamp) s
             = .next (if (u.src 3).qualified then u else u.modSrc 3 fun x => { x with good := 1 })))
       ∧ ((s.src 3).qualified = true → (s.src 3).last + 2 * second ≤ s.time.mono → exec .ppsInLoss s = .next ({ s with time.ppsIn := none }.loseSource 3))
       ∧ (s.srcUsable 4 = true → 0 < s.time.mainsCycles → s.time.mainsStart + 600 * second ≤ s.time.mono → (s.src 4).qualified = false →
         exec .mainsQualify s = .next ({ s with time.mainsEdges := [] }.qualify 4))
       ∧ (0 < (s.src 1).good → (s.src 1).last + second ≤ s.time.mono → exec .mortarSourceLoss s = .next (s.loseSource 1))
       ∧ (∀ c, ((s.srcOrder.takeWhile (· != s.time.source)).filter fun c => s.srcQualified c && decide ((s.src c).since + 10 * second ≤ s.time.mono)).head? = some c →
         s.time.source ≠ 0 → exec .sourcePromote s = .next (s.takeSource c)))

/-- R204, R206, R212 to R216, R219, R220: the time base's events: a slew ends, the holdover limit passes (EV0925), the PPS output rises on a second of
valid time and falls after its width, a scheduled leap second moves the UTC offset at the day's end, oscillator faults assert their sources. R221 to
R233: the RTC. Each second its counters advance (a leap second as scheduled) and the alarms compare; it is compared with valid time at each second and
rewritten at the next on a difference (EV0923); its trim follows the measured rate (EV0924); the supply switches over to VBAT and back, a low battery
is watched, and a power-on reset of the domain resets its registers. This rests on the model's own choices and readings in log 5, 16, 34. -/
def Obligations.TimeBaseAndRtcEvents : Prop :=
  (∀ s : State,
     (s.time.slewing = true → s.time.slewLeft = 0 → exec .slewDone s = .next (s.startSlew 0))
     ∧ (s.time.holdover = true → s.time.holdExceeded = false → s.key (kTime 0x0B) * 1000 < s.estError →
       exec .holdLimitExceeded s = .next ({ s with time.holdExceeded := true }.level 925 true))
     ∧ (s.time.valid = true → s.fault.f4 = false → s.time.ppsHigh = false → (s.nowNs + 10) % second ≤ 20 → (∀ t, s.time.ppsRise = some t → t + 500000000 ≤ s.time.mono) →
       exec .ppsOutPulse s = .next { s with time.ppsHigh := true, time.ppsRise := some s.time.mono, pins.ppsOut := true })
     ∧ (∀ t, s.time.ppsRise = some t → s.time.ppsHigh = true → t + s.key (kTime 8) * 1000000 ≤ s.time.mono →
       exec .ppsOutWidthEnd s = .next { s with time.ppsHigh := false, pins.ppsOut := false })
     ∧ (s.time.valid = true →
       (s.time.leap = 1 → (s.time.leapDay + 1) * 86400 ≤ s.utcNs / second → exec .leapSecondApply s
         = .next (({ s with time.leap := 0 }.level 921 false).setUtcOffset (s.time.utcOfs + 1) 6))
       ∧ (s.time.leap = 2 → (s.time.leapDay + 1) * 86400 ≤ s.utcNs / second + 1 → exec .leapSecondApply s
         = .next (({ s with time.leap := 0 }.level 921 false).setUtcOffset (s.time.utcOfs - 1) 6)))
     ∧ (s.time.xtalFault = false → exec .xtalFault s = .next (({ s with time.xtalFault := true }.level 920 true).f1 0))
     ∧ (s.time.xtalFault = true → exec .xtalRecover s = .next ({ s with time.xtalFault := false }.level 920 false))
     ∧ (s.time.rtcOscFault = false → exec .rtcOscFault s = .next ((({ s with time.rtcOscFault := true }.level 919 true).f1 0).holdRate))
     ∧ (s.time.holdover = true → s.time.rtcOscFault = true → s.holdRate = { s with time.rate := s.time.rHat }))
  ∧ (∀ (measured : Int) (mv vb : Nat) (s : State),
       let r := s.rtc
       (r.halted = false → (s.time.rtcOscFault = true → r.onBattery = false) → exec .rtcCountTick s = .next (({ s with rtc := { (
           if r.sec = 0x60 then r.load r.toSec
           else if (s.time.leap != 0 && r.toSec / 86400 == s.time.leapDay) = true ∧ s.time.leap = 1 ∧ (r.toSec % 86400 == 86399 && r.sec == 0x59) = true then { r with sec := 0x60 }
           else if (s.time.leap != 0 && r.toSec / 86400 == s.time.leapDay) = true ∧ s.time.leap = 2 ∧ r.toSec % 86400 = 86398 then r.load (r.toSec + 2)
           else r.load (r.toSec + 1)) with prescaler := 0 } } : State).alarms.holdRate))
       ∧ (s.time.valid = true → s.time.ns % second = 0 → (r.halted = true → s.rtcHostWrite = false) →
         let t := s.utcNs / second
         (r.rewrite = true → exec .rtcSecondCompare s
           = .next ({ s with rtc := { r.load t with rtcValid := true, halt := false, halted := false, prescaler := 0, rewrite := false } }.pulse 923))
         ∧ (r.rewrite = false → r.sec ≠ 0x60 → (r.toSec ≠ t ∨ r.rtcValid = false) → exec .rtcSecondCompare s = .next { s with rtc.rewrite := true })
         ∧ (r.rewrite = false → r.toSec = t → r.rtcValid = true → exec .rtcSecondCompare s = .next s))
       ∧ (s.keyOn (kTime 0x0A) = true → (s.time.locked = true ∨ (s.time.source = 4 ∧ (s.src 4).since + s.key (kTime 7) * second ≤ s.time.mono)) → 2 ≤ (measured - r.trim).natAbs →
         exec (.rtcTrimLearn measured) s = .next ({ s with rtc.trim := satS 16 measured }.pulse 924))
       ∧ (r.onBattery = false → (mv < vb ∨ mv < 2600) → exec (.backupToVbat mv vb) s
         = .next { s with rtc := { r with onBattery := true, ranOnBattery := true, batPulse := true, vmain := mv } })
       ∧ (r.onBattery = true → max vb 2600 + 100 < mv → exec (.backupToVmain mv vb) s = .next { s with rtc := { r with onBattery := false, vmain := mv } })
       ∧ exec (.vbatCheck mv) s = .next (s.level 918 (decide (mv < 2200)))
       ∧ (mv < 1500 → exec (.backupPor mv) s = .next { s with rtc := { bporPulse := true, onBattery := r.onBattery, vmain := r.vmain }, time.utcOfs := 0, power.reverseSeen := false }))

/-- R239, R240, R241, R249, R250, R251, R253: billing's own times. Where the grid has gone on, a profile interval or a demand subperiod ends at the grid's
instant for every metering point, and what waits is carried out once the boundaries up to it are known, a profile interval before the subperiod that
ends with it; the calendar's rate is set as each point's next from the present boundary; a dated activation or reset acts when valid time reaches it;
each local day the standing charge is taken from prepayment points; a deferral ends when the friendly time ends. This rests on the model's own choices
and readings in log 5, 33. -/
def Obligations.BillingFollowsTheClock : Prop :=
  ∀ (m : Fin 16) (s : State), s.meters = true →
    let known (u : State) : State := (enabledMps u.cfg.active).foldl (fun (s : State) m => s.settle (fun s x => s.bndsKnown m x) m) u
    let endAt := s.gridStart (s.key (kBill 1))
    (s.profGridNow ≠ s.bill.profGrid → exec .profileIntervalEnd s
      = .next (known { (s.billMps.foldl (fun (s : State) m => s.pushEnd endAt 0 0 true false m) s).swapInterval endAt with bill.profGrid := s.profGridNow }))
    ∧ (s.profGridNow = s.bill.profGrid → exec .profileIntervalEnd s = .next (known s))
    ∧ (s.profGridNow = s.bill.profGrid → s.subGridNow ≠ s.bill.subGrid → exec .demandSubperiodEnd s
      = .next (known { s.billMps.foldl (fun (u : State) m => u.pushEnd (s.gridStart (subMin s.cfg.active)) 0 0 false true m) s with bill.subGrid := s.subGridNow }))
    ∧ exec .tariffRateSwitch s
        = .next ((enabledMps s.cfg.active).foldl (fun (s' : State) m => s'.modBmp m fun b =>
          if b.rateNext = s.calendarRate then b else { b with rateNext := s.calendarRate, rateAt := s'.time.index }) s)
    ∧ (s.time.valid = true →
      (∀ t, s.bill.actAt = some t → t ≤ s.time.ns → exec .tariffActivateDue s = .next s.activateTariff)
      ∧ (∀ t, s.bill.resetAt = some t → t ≤ s.time.ns → exec .billResetDue s = .next s.billReset)
      ∧ (s.bill.day < s.localDay → exec .standingCharge s
        = .next ((enabledMps s.cfg.active).foldl (fun (s : State) m => if s.keyOn (kBillMp m 0) then
            (s.modBmp m fun b => { b with credit := b.credit - s.key (kBillMp m 4) }).decidePrepay m else s) { s with bill.day := s.localDay })))
    ∧ ((s.bmp m).deferred = true → s.friendly = false → exec (.friendlyDeferralEnd m) s
        = .next ((s.modBmp m fun b => { b with deferred := false, demandOpen := b.prepay.demandsOpen }).decideSupply m))

/-- R245, R248, R249, R250, R253, R255: TARIFF_STAGE replaces the passive calendar when it is well formed and no activation waits; TARIFF_ACTIVATE and
BILL_RESET at time 0 act and reply at the next sample boundary, or are dated under valid time with ACCEPTED; CREDIT_ADD adds a credit once per
transaction, journaled; SUPPLY_CONTROL opens, allows, closes an armed supply, or takes the emergency credit offered. R241, R242, R256, R257, R261:
PROFILE_READ returns profile records by SEQ and OBJ_GET an object's value with its type; the sealed display moves to its next entry after its dwell
and sends each frame of an entry twice; a busy line longer than 1 s asserts EV0991. This rests on the model's own choices and readings in log 5, 33. -/
def Obligations.BillingCommandsAndReads : Prop :=
  (∀ (p : Packet) (s : State),
     let b := p.params
     let u := s.touch p
     let t := fld b 0 8
     let m := fld b 0 1
     (Starts 0x0710 p s = true → p.isBulk = false → b.length = 2704 →
       (calReservedOk b = false → exec (.tariffStage p) s = .next (u.answer 0x0710 p (Res.reserved 32)))
       ∧ (calReservedOk b = true → s.bill.actAt.isSome = true → exec (.tariffStage p) s = .next (u.answer 0x0710 p (Res.err stBusy 0)))
       ∧ (calReservedOk b = true → s.bill.actAt = none → calendarOk b = false → exec (.tariffStage p) s = .next (u.answer 0x0710 p (Res.field 32)))
       ∧ (calReservedOk b = true → s.bill.actAt = none → calendarOk b = true →
         exec (.tariffStage p) s = .next ({ u with bill.passive := b }.answer 0x0710 p Res.ok)))
     ∧ (∀ q f, s.host.busy = [(q, some f)] → f.kind = .billNow →
         s.billsNow = (if f.entry.code = 0x0711 then s.activateTariff else s.billReset).finishHeld q Res.ok)
     ∧ (Block 16 [(8, 8)] p = true →
       (Starts 0x0711 p s = true → (t = 0 → exec (.tariffActivate p) s = .next (u.setBusy (queueId p.bay p.queue) (some ⟨⟨0x0711, p, s.time.mono⟩, .billNow⟩)))
         ∧ (t ≠ 0 → s.time.valid = true → exec (.tariffActivate p) s = .next ({ u with bill.actAt := some t }.answer 0x0711 p Res.accepted)))
       ∧ (Starts 0x0720 p s = true → (t = 0 → exec (.billReset p) s = .next (u.setBusy (queueId p.bay p.queue) (some ⟨⟨0x0720, p, s.time.mono⟩, .billNow⟩)))
         ∧ (t ≠ 0 → s.time.valid = true → exec (.billReset p) s = .next ({ u with bill.resetAt := some t }.answer 0x0720 p Res.accepted))))
     ∧ (Starts 0x0730 p s = true → Block 16 [(1, 3)] p = true → m < 16 → s.keyOn (kBillMp m 0) = true → 1 ≤ sfld b 8 8 → sfld b 8 8 ≤ 10 ^ 12 →
       ((s.bmp m).txn.contains (fld b 4 4) = true → exec (.creditAdd p) s = .next (u.answer 0x0730 p (Res.err stDenied subDuplicate)))
       ∧ ((s.bmp m).txn.contains (fld b 4 4) = false →
         let v := u.addCredit m (fld b 4 4) (sfld b 8 8)
         let w := v.journalAdd 0x0B 0 0 0 [m, fld b 4 4, (sfld b 8 8).toNat, unsignedOf 64 (v.bmp m).credit]
         exec (.creditAdd p) s = .next ({ w with bill.credits := w.bill.credits ++ [(m, fld b 4 4, (sfld b 8 8).toNat)] }.answer 0x0730 p
           (Res.ok (supplyResult w m)))))
     ∧ (Starts 0x0740 p s = true → Block 8 [(2, 6)] p = true → m < 16 → mpEnabled s.cfg.active m = true →
       (fld b 1 1 ≤ 1 → b0Util p.bay (u.ctx p).role = true →
         let v := (u.modBmp m fun x => { x with hostDisc := fld b 1 1 == 0 }).decideSupply m
         exec (.supplyControl p) s = .next (v.answer 0x0740 p (Res.ok (supplyResult v m))))
       ∧ (fld b 1 1 ≤ 1 → b0Util p.bay (u.ctx p).role = false → exec (.supplyControl p) s = .next (u.answer 0x0740 p (Res.err stDenied subRole)))
       ∧ (fld b 1 1 = 2 → (s.bmp m).supply = .armed →
         exec (.supplyControl p) s = .next ((u.setSupply m .closed).answer 0x0740 p (Res.ok (supplyResult (u.setSupply m .closed) m))))
       ∧ (fld b 1 1 = 3 → s.keyOn (kBillMp m 0) = true → (s.bmp m).prepay = .ecOffered →
         let v := (u.modBmp m fun x => { x with ecTaken := true }).decidePrepay m
         exec (.supplyControl p) s = .next (v.answer 0x0740 p (Res.ok (supplyResult v m))))))
  ∧ (∀ (p : Packet) (ms : Nat) (s : State),
       let b := p.params
       let m := fld b 0 1
       (Starts 0x0702 p s = true → Block 16 [(1, 3), (10, 6)] p = true → m < 16 → mpEnabled s.cfg.active m = true → 1 ≤ fld b 8 2 → fld b 8 2 ≤ 512 →
         exec (.profileRead p) s = .next ((s.touch p).answer 0x0702 p (Res.okOr (s.anyDegraded ((mpCourse s.cfg.active m).toList))
           (seqResult (·.seq) ProfRec.bytes (s.bmp m).profSeq (fld b 4 4) (fld b 8 2) (s.bmp m).ring))))
       ∧ (∀ o ty v, Starts 0x0701 p s = true → Block 8 [(7, 1)] p = true → objOfBytes b = some o → o.readable ((s.touch p).ctx p).role = true →
         o.value (s.touch p) (fld b 6 1) = some (ty, v) → exec (.objGet p) s
           = .next ((s.touch p).answer 0x0701 p (Res.okOr (s.anyDegraded ((o.mp.bind (mpCourse s.cfg.active)).toList))
               (b.take 6 ++ leBytes 1 (fld b 6 1) ++ leBytes 1 ty ++ leBytes 4 v.length ++ zeros 4 ++ v))))
       ∧ (s.bill.dSince + s.key (kBill 7) * second ≤ s.time.mono → exec .sealDisplayDwell s
         = .next { s with bill.dEntry := (s.bill.dEntry + 1) % ((sealShown s.cfg.active).length + 1), bill.dLine := 0, bill.dSent := 0, bill.dSince := s.time.mono })
       ∧ (s.fault.sealOk = true → s.bill.dSent < 2 → exec .sealFrameSend s
         = .next ({ s with bill.frames := sealFrame s s.bill.dEntry s.bill.dLine :: s.bill.frames, bill.dLine := 1, bill.dSent := s.bill.dSent + 1 }.level 991 false))
       ∧ (1000 < ms → s.bill.frames ≠ [] → exec (.sealBusyTimeout ms) s = .next (s.level 991 true)))

/-- R264 to R268, R283, R285, R289: the power line's grid and faults. A qualified mains crossing keeps the slot grid and starts a slot; 50 crossings off
it set the fault, 500 good ones clear it; VIN sets the level; a line in current limit cuts the frame, and the third in a row shorts the line until a
test symbol passes; coupling, receiver and noise are watched. R270 to R276, R284, R318: a message that answers the exchange with its meter and passes
its checks ends the exchange, keeps its counter and serves what was asked: a reading, a latch report, a push acknowledgement; one whose MIC or counter
fails counts as a miss and pulses EV0822; one of a wrong length is discarded. A NAK ends the exchange as a miss and, of REASON 1, moves a catch-up on;
an exchange that got no answer is missed; polls and repeats queue when due; each poll cycle starts anew. This rests on the model's own choices and
readings in log 4, 5, 38. -/
def Obligations.PowerLinePortAndItsMeters : Prop :=
  (∀ (ns mv us : Nat) (rising : Bool) (zs : List Nat) (ds : List Bool) (s : State),
     exec (.plcVinLevel mv) s = .next { s with plc.vin := vinLevel mv s.plc.vin }
     ∧ (s.plcRun = true →
       (let g := ((ns : Int) - s.keyS (kPlc 4) * 1000).toNat
        ∀ d, s.gridDiff g rising = some d →
         let u : State := if 500000 < d then { s with plc.zcBad := s.plc.zcBad + 1, plc.zcGood := 0 } else { s with plc.zcGood := s.plc.zcGood + 1, plc.zcBad := 0 }
         exec (.zcGridCrossing ns rising) s = .next (if u.plc.zcFault = true ∨ u.gridFits g = false then u else u.slotStart g rising))
       ∧ (50 ≤ s.plc.zcBad → s.plc.zcFault = false → exec .zcFaultEnter s = .next ({ s with plc.zcFault := true }.level 812 true))
       ∧ (500 ≤ s.plc.zcGood → s.plc.zcFault = true → exec .zcFaultClear s = .next ({ s with plc.zcFault := false }.level 812 false))
       ∧ exec (.plcOpenCoupling zs) s = .next (zs.foldl (fun (s : State) z => s.plcZ z) s)
       ∧ exec (.plcRxFault ds) s = .next (ds.foldl (fun (s : State) d => s.plcRx d) s)
       ∧ (let on := if 95 < mv then true else if mv < 90 then false else s.plc.noiseHigh
          exec (.plcNoiseWindow mv) s = .next ({ s with plc.noise := mv, plc.noiseHigh := on }.level 814 on)))
     ∧ (∀ f t e, s.plc.sent = f :: t → 50 ≤ us → s.plc.exch = some e → s.plc.slotN < e.start + e.down → f.cut = false → s.plc.lineShort = false →
       let run := if (t.head?.map (·.cut)).getD false then s.plc.cuts + 1 else 1
       let u := ({ s with plc.sent := { f with cut := true } :: t, plc.cuts := run } : State).plcMiss false
       exec (.plcLineShort us) s = .next (if 3 ≤ run
         then { u with plc.lineShort := true, plc.testAt := u.time.mono }.level 809 true else u))
     ∧ (s.plc.lineShort = true → s.plc.testAt + 10 * second ≤ s.time.mono →
       exec (.plcTestSymbol true) s = .next ({ s with plc.lineShort := false, plc.cuts := 0, plc.testAt := s.time.mono }.level 809 false)
       ∧ exec (.plcTestSymbol false) s = .next { s with plc.testAt := s.time.mono }))
  ∧ (∀ (m : PlcMsg) (type a ctr : Nat) (body : Bytes) (e : PExch) (x : LeafMeter) (s : State),
       (s.plc.exch = some e → s.meter e.addr = some x → s.plcMessage e m type = some (e.addr, body, ctr) → e.addr ≠ 0 →
         let len := if type = 0xA then 12 else if type = 0xB then 8 else 40
         let fits := match e.kind with
           | .poll _ => type == 1
           | .latchPoll id => type == 8 && id == fld body 0 4
           | .push id => type == 0xA && id == fld body 0 4
           | .confirm _ => false
         let v := msgCheck m.micOk ctr x.ctrUp body.length len
         let u := { s with plc.exch := none, plc.busyUntil := max s.plc.busyUntil (s.plc.slotN + 1) }.meterAnswered e.addr x fun y =>
           snrRuns (s.key (kPlc 9)) m.snr { y with ctrUp := ctr }
         (fits = true →
           (type = 1 → exec (.plcReadingReceive m) s = .next (match v with
             | .accept => u.takeReading e.addr x body | .reject => (s.plcMiss false).pulse 822 | .discard => s))
           ∧ (type = 8 → exec (.plcLatchReportReceive m) s = .next (match v with
             | .accept => (u.modMeter e.addr fun x => { x with snap := none }).meterSnap e.addr x.identity (fld body 0 4) (fld body 4 1 % 2) ((List.range 4).map fun i => fld body (8 + 8 * i) 8)
             | .reject => (s.plcMiss false).pulse 822 | .discard => s))
           ∧ (type = 0xA → exec (.plcPushAckReceive m) s = .next (match v with
             | .accept => u.pushAck x.identity body | .reject => (s.plcMiss false).pulse 822 | .discard => s)))
         ∧ (type = 0xB → exec (.plcNakReceive m) s = .next (match v with
             | .accept =>
               let w := (s.modMeter e.addr fun y => { y with ctrUp := ctr }).plcMiss false
               let c := Tbl.get 0 w.ledger.catchUp e.addr
               if fld body 0 1 = 1 ∧ c ≠ 0 then { w with ledger.catchUp := Tbl.set 0 w.ledger.catchUp e.addr (if c + w.interval ≤ w.utcMin then c + w.interval else 0) } else w
             | .reject => (s.plcMiss false).pulse 822 | .discard => s)))
       ∧ (s.plc.exch = some e → e.start + e.down + 1 ≤ s.plc.slotN → exec .plcExchangeMissed s = .next (s.plcMiss false))
       ∧ (let c := s.cycleOf (s.key (kPlc 5))
          s.plcRun = true →
           (s.meter a = some x → chanOf a = 0 → c.1 = s.plc.cycle → dueNs (s.key (kPlc 5)) (a - 1) ≤ c.2 → x.served = false → s.isLocked x.identity = false →
             exec (.plcPollDue a) s = .next (let u := s.modMeter a (fun m => { m with served := true })
               if x.present = true ∨ x.attempts = 0 then { u with plc.dueQ := s.plc.dueQ ++ [a] } else u))
           ∧ (c.1 ≠ s.plc.cycle → exec .plcPollCycleEnd s = .next ({ (s.newCycle 0).pushCycle 0 with
               plc.overrun := !s.plc.dueQ.isEmpty, plc.dueQ := [], plc.repQ := [], plc.slotUse := (if s.plc.slots = 0 then 0 else s.plc.used * 10000 / s.plc.slots),
               plc.used := 0, plc.slots := 0, plc.cycle := c.1 }.level 823 (!s.plc.dueQ.isEmpty))))
       ∧ (∀ t, s.meter a = some x → x.repeatAt = some t → chanOf a = 0 → t ≤ s.time.mono → s.plc.repQ.contains a = false →
         exec (.plcRepeatDue a) s = .next { s with plc.repQ := s.plc.repQ ++ [a] }))

/-- R273, R277, R279, R280, R283: a search round starts when asked or due on a free line and collects the answers of its window, where a frame whose FCS
fails makes its slot garbled and an identity that answers twice is locked; then every identity with one clean answer that can have an address gets it,
is confirmed by its CONFIRM_ACK, and the round closes when each has been confirmed or has used its attempts; quarantined addresses are released after
the key's time. A LATCH is broadcast three times, and then every confirmed meter is polled for it. PLC_SEARCH asks for a round and answers with its
number; PLC_STATUS reports the port. This rests on the model's own choices and readings in log 4, 5, 22, 38. -/
def Obligations.SearchRoundsFindAndConfirmMeters : Prop :=
  ∀ (p : Packet) (m : PlcMsg) (a slot ctr : Nat) (late : Int) (frame body : Bytes) (r : SearchRound) (s : State),
    (s.plcFree = true → s.plc.round = none → (s.plc.latchQ.head?.map (·.due s.plc.slotN)).getD false = false →
      (s.plc.roundReq.isSome = true ∨ s.plc.lastRound = none ∨ ∃ t, s.plc.lastRound = some t ∧ t + s.key (kPlc 6) * second ≤ s.time.mono) →
      let w := if s.plc.roundReq.getD 0 = 0 then max (s.key (kPlc 7)) s.plc.nextW else s.plc.roundReq.getD 0
      let num := (s.plc.roundNum + 1) % 2 ^ 16
      let u := { s with plc.used := s.plc.used + (if s.inWindow then 0 else 1) }.plcBroadcast 2 (leBytes 2 num ++ leBytes 2 w ++ leBytes 2 (s.key (kPlc 8)) ++ zeros 2) 0 true 0
      exec .searchRoundStart s = .next { u with plc.roundNum := num, plc.roundReq := none, plc.lastRound := some u.time.mono,
                                                plc.round := some { w := w, s0 := u.plc.busyUntil - 1 } })
    ∧ (∀ f, s.plc.round = some r → r.confirming = false → r.s0 < slot → slot ≤ r.s0 + r.w → slot ≤ s.plc.slotN → (r.answers.any (·.1 == slot)) = false → s.sentIn slot = false →
      lineFrame s.kiln.devId (s.plcFrameMax true) frame = some f → 100 ≤ late → late ≤ 400 → f.type = 3 → f.addr = 0 → f.payload.length = 8 → f.more = false → f.frag = 0 →
      let got (o : Option Nat) : State := { s with plc.round := some { r with answers := r.answers ++ [(slot, o)] } }
      (f.fcsOk = false → exec (.plcAnswerReceive slot { late := late, frame := frame }) s = .next (got none))
      ∧ (f.fcsOk = true → exec (.plcAnswerReceive slot { late := late, frame := frame }) s = .next (let u := got (some (fld f.payload 0 8))
          if r.singles.contains (fld f.payload 0 8) then u.cloneLock (fld f.payload 0 8) else u)))
    ∧ (s.plc.round = some r → r.confirming = false → r.s0 + r.w < s.plc.slotN →
      let once := r.singles.filter fun i => (r.singles.filter (· == i)).length == 1
      let x := once.foldl (fun (x : State × List Confirm) i =>
        let y := x.1.answerer 0 i (x.2.map (·.addr))
        match y.2 with
        | some a => (y.1, x.2 ++ [{ identity := i, addr := a, tries := 0, done := false }])
        | none => (y.1, x.2)) (s, [])
      exec .searchWindowEnd s = .next { x.1 with plc.round := some { r with confirming := true, confirms := x.2 } })
    ∧ (∀ e i c, s.plc.exch = some e → s.plc.round = some r → e.kind = .confirm i → s.plcMessage e m 5 = some (0, body, ctr) → fld body 0 8 = i →
      r.confirms.find? (·.identity == i) = some c → msgCheck m.micOk ctr (s.idCtr i).2 body.length 12 = .accept →
      exec (.plcConfirmAckReceive m) s = .next (({ s with plc.exch := none, plc.busyUntil := max s.plc.busyUntil (s.plc.slotN + 1) }.modConfirm i fun c =>
        { c with done := true }).confirmMeter c.addr 815 { identity := i, ctrUp := ctr, ctrDown := (s.idCtr i).1 }))
    ∧ (s.plc.round = some r → r.confirming = true → s.plc.exch = none → (∀ c ∈ r.confirms, c.done = true ∨ 4 ≤ c.tries) →
      exec .searchRoundClose s = .next s.closeRound ∧ s.closeRound.plc.round = none)
    ∧ (let rel := if chanOf a = 0 then s.key (kPlc 8) else s.key (kRadio 8)
       (∃ x ∈ s.plc.quar, x.1 = a ∧ x.2 + rel * second ≤ s.time.mono) → exec (.addressQuarantineEnd a) s
        = .next { s with plc.quar := s.plc.quar.filter fun x => !(x.1 = a ∧ x.2 + rel * second ≤ s.time.mono) })
    ∧ (∀ j t, s.plc.latchQ = j :: t → s.plcFree = true → j.due s.plc.slotN = true → s.plc.slotN ≤ j.gk + 400 →
      let n := s.plc.slotN
      let ctr := s.plc.bcastCtr + 1
      let u : State := { { s with plc.used := s.plc.used + (if s.inWindow then 0 else 1) }.plcBroadcast 6 (leBytes 4 j.snap ++ leBytes 2 (n - j.gk) ++ zeros 2) 12 true ctr with plc.bcastCtr := ctr }
      (j.sent < 2 → exec .latchBroadcast s = .next { u with plc.latchQ := { j with sent := j.sent + 1, last := n } :: t })
      ∧ (2 ≤ j.sent → let v := { u with plc.latchQ := t }.pulse 821
        exec .latchBroadcast s = .next (((v.metersOn 0).filter fun x => !v.isLocked x.2.identity).foldl (fun (s : State) x => s.modMeter x.1 fun m => { m with snap := some j.snap }) v)))
    ∧ (Starts 0x0801 p s = true → Block 8 [(2, 6)] p = true → s.plc.round = none →
      (fld p.params 0 2 = 0 ∨ fld p.params 0 2 ∈ [16, 32, 64, 128, 256, 512, 1024]) → exec (.plcSearch p) s
        = .next ({ s.touch p with plc.roundReq := some (fld p.params 0 2) }.answer 0x0801 p (Res.ok (leBytes 2 ((s.plc.roundNum + 1) % 2 ^ 16) ++ zeros 6))))
    ∧ (Starts 0x0802 p s = true → Block 0 [] p = true →
      let l := s.metersOn 0
      let here := l.filter (·.2.present)
      exec (.plcStatus p) s = .next ((s.touch p).answer 0x0802 p (Res.ok (leBytes 4 s.plcWord ++ leBytes 2 here.length ++ leBytes 2 (l.length - here.length)
        ++ leBytes 2 (here.filter (·.2.robust)).length ++ leBytes 2 (satU 16 s.plc.lineZ) ++ leBytes 1 (satU 8 s.plc.noise) ++ zeros 1 ++ leBytes 2 s.plc.slotUse))))

/-- R293 to R299, R302 to R305: the radio ports. An enabled port starts and is configured; a third consecutive frame CRC failure, a failed configuration
and a missing response reset it; done messages end what it awaits; a status poll goes out each second; a faulty port is tried again after 60 s;
received frames pass the link checks; children's frames and entries expire; ADVERT floods go out at the key's period. R301 to R303, R343: radio
meters. A meter is polled when due (or queued), a poll without answer within its time is missed and repeated when due, each cycle starts anew; a
reading or a push acknowledgement of the meter's own identity that passes the checks keeps its counter and is used; a failed check pulses EV0831 or
EV0822. This rests on the model's own choices and readings in log 4, 5, 39. -/
def Obligations.RadioPortsAndTheirMeters : Prop :=
  (∀ (q : Fin 2) (st t c : Nat) (rssi : BitVec 8) (frame : Bytes) (f : RadioFrame) (s : State),
     let x := s.rport q
     (s.rpEnabled q = true → x.started = false → exec (.rpPortStart q) s = .next ((s.modRport q fun x => { x with started := true }).rpConfigure q).rpReady)
     ∧ (x.started = true →
       (rpFrameOk frame = true → exec (.rpIrq q frame) s = .next (s.modRport q fun x => { x with crcFails := 0 }))
       ∧ (rpFrameOk frame = false → 2 ≤ x.crcFails → exec (.rpIrq q frame) s = .next (s.rpReset q))
       ∧ (rpFrameOk frame = false → x.crcFails < 2 → exec (.rpIrq q frame) s = .next (s.modRport q fun x => { x with crcFails := x.crcFails + 1 }))
       ∧ (x.fault = false → x.awaits = none → x.statusAt + second ≤ s.time.mono → exec (.rpStatusPoll q) s
         = .next ((s.modRport q fun x => { x with statusAt := s.time.mono }).rpCommand q 3)))
     ∧ (x.awaits = some (1, t) → exec (.rpTxDone q st) s = .next (((s.modRport q fun x =>
         { x with awaits := none, tx := (busyOver s.time.mono ((s.time.mono, st == 1) :: (s.rport q).tx)).1,
                  busyHigh := (busyOver s.time.mono ((s.time.mono, st == 1) :: (s.rport q).tx)).2 }).rpLevels).rpNext q))
     ∧ (x.awaits = some (2, t) → exec (.rpConfigDone q 0) s
         = .next (((s.modRport q fun x => { x with awaits := none, running := true, fault := false, statusAt := s.time.mono }).rpLevels).rpNext q)
       ∧ (st ≠ 0 → exec (.rpConfigDone q st) s = .next (s.rpReset q)))
     ∧ (x.awaits = some (3, t) → exec (.rpStatusDone q st rssi) s
         = .next (((s.modRport q fun x => { x with awaits := none, running := st == 0, rssi := rssi.toNat, tx := (busyOver s.time.mono (s.rport q).tx).1, busyHigh := (busyOver s.time.mono (s.rport q).tx).2 }).rpLevels).rpNext q))
     ∧ (∀ k, x.awaits = some (k, t) → t + 100000000 ≤ s.time.mono → exec (.rpResponseTimeout q) s = .next (s.rpReset q))
     ∧ (x.fault = true → x.retryAt + 60 * second ≤ s.time.mono → exec (.rpFaultRetry q) s
         = .next ((s.modRport q fun x => { x with retryAt := s.time.mono }).rpConfigure q))
     ∧ (s.rpUp.contains q.val = true → f.formOk = true → f.pan = s.key (kRadio 0) →
       let k := s.keyOverlap.linkCheck f
       (k.2 = false → exec (.rpRx q f) s = .next k.1)
       ∧ (k.2 = true → f.dataRequest = true → f.toMe = true → f.level = 5 → exec (.rpRx q f) s = .next (k.1.dataRequest q f.source))
       ∧ (k.2 = true → f.dataRequest = false →
         let u := if f.toMe = true ∧ f.sleepy = true ∧ f.down = false then k.1.childHeard f.source else k.1
         let n := u.seenCheck f.origin f.originSeq
         exec (.rpRx q f) s = .next (if n.2 = false ∨ f.down = true then n.1 else match n.1.meterAddr f.origin with
           | some a => if chanOf a = 1 then n.1.modMeter a fun m => { m with rank := f.endRank, sleepy := f.sleepy, port := q } else n.1
           | none => n.1)))
     ∧ exec (.childFrameExpire c) s = .next (s.expireFrames c)
     ∧ ((∃ x ∈ s.radio.child, x.addr = c ∧ x.heard + 3600 * second ≤ s.time.mono) → exec (.childEntryExpire c) s
         = .next ({ s with radio.child := s.radio.child.filter fun x => x.addr ≠ c, radio.childFull := false }.level 833 false))
     ∧ (s.rpUp ≠ [] → s.radio.advertAt + s.key (kRadio 2) * second ≤ s.time.mono →
       let u := s.keyOverlap
       let opened := match u.radio.join with | some j => decide (u.time.mono < j.windowEnd) | none => false
       let carried := if u.radio.keyNew then some (u.radio.keyAdv.getD u.time.mono) else none
       exec .advertSend s = .next ({ u with radio.advertAt := u.time.mono, radio.keyAdv := carried }.radioFlood 0xC 15 (leBytes 2 u.kiln.devId
         ++ leBytes 1 (bitsNat [opened, u.radio.keyNew]) ++ leBytes 2 (if opened then u.key (kRadio 7) else 0) ++ leBytes 1 u.radio.keyIndex ++ zeros 2))))
  ∧ (∀ (m : RadioMsg) (a : Nat) (x : LeafMeter) (s : State),
       (s.meter a = some x → chanOf a = 1 →
         (s.kiln.role = .leaf → s.isLocked x.identity = false →
           ((x.served = false ∧ (s.cycleOf (s.key (kRadio 4))).1 = s.radio.cycle ∧ dueNs (s.key (kRadio 4)) (a - 1025) ≤ (s.cycleOf (s.key (kRadio 4))).2) ∨ a ∈ s.radio.dueQ) →
           let u := s.modMeter a fun m => { m with served := true }
           exec (.radioPollDue a) s = .next (if (!x.present) = true ∧ 1 ≤ x.attempts then u else match u.radioPoll a false with
             | some v => { v with radio.dueQ := v.radio.dueQ.filter (· != a) }
             | none => if s.radio.dueQ.contains a then u else { u with radio.dueQ := s.radio.dueQ ++ [a] }))
         ∧ (∀ t, x.waiting = some t → t + (s.key (kRadio 5) + if x.sleepy then 60 else 0) * second ≤ s.time.mono → exec (.radioReplyTimeout a) s = .next (s.radioMissed a))
         ∧ (∀ t k, x.repeatAt = some t → x.again = some k → t ≤ s.time.mono → s.rpUp.contains x.port = true → exec (.radioRepeatDue a) s
           = .next (match k with | .push id => s.radioPush a x id true | _ => (s.radioPoll a true).getD s)))
       ∧ (s.kiln.role = .leaf → s.kiln.ph.k6Open = true → (s.cycleOf (s.key (kRadio 4))).1 ≠ s.radio.cycle → exec .radioPollCycleEnd s
         = .next { (s.newCycle 1).pushCycle 1 with radio.overrun := !s.radio.dueQ.isEmpty, radio.dueQ := [], radio.repQ := [], radio.cycle := (s.cycleOf (s.key (kRadio 4))).1 })
       ∧ ((s.meterAddr m.identity).filter (fun a => chanOf a = 1) = some a → s.meter a = some x →
         let u := s.meterAnswered a x fun y => { y with ctrUp := m.ctr, port := m.port, sleepy := m.sleepy }
         let bad := (if x.waiting.isSome then s.radioMissed a else s).pulse (if m.micOk then 831 else 822)
         (msgCheck m.micOk m.ctr x.ctrUp m.body.length 40 = .accept → exec (.radioReadingReceive m) s = .next ((u.takeReading a x m.body).radioPushNext a))
         ∧ (msgCheck m.micOk m.ctr x.ctrUp m.body.length 40 = .reject → exec (.radioReadingReceive m) s = .next bad)
         ∧ (msgCheck m.micOk m.ctr x.ctrUp m.body.length 40 = .discard → exec (.radioReadingReceive m) s = .next s)
         ∧ (msgCheck m.micOk m.ctr x.ctrUp m.body.length 12 = .accept → exec (.radioPushAckReceive m) s = .next ((u.pushAck x.identity m.body).radioPushNext a))
         ∧ (msgCheck m.micOk m.ctr x.ctrUp m.body.length 12 = .reject → exec (.radioPushAckReceive m) s = .next bad)
         ∧ (msgCheck m.micOk m.ctr x.ctrUp m.body.length 12 = .discard → exec (.radioPushAckReceive m) s = .next s)))

/-- R300, R304, R305: radio joining. A join round opens when due or asked; a copy of an answer counts once and a second ORIGIN_SEQ locks the identity;
each new answer gets an address and is confirmed up to four times; a confirmed meter leaves its power-line address; the round closes with EV0829;
RADIO_STATUS returns the counts and port words and clears RESETS for its bay. This rests on the model's own choices and readings in log 4, 5, 39. -/
def Obligations.RadioJoinRoundsAddMeters : Prop :=
  ∀ (p : Packet) (m : RadioMsg) (id seq rank : Nat) (q : Fin 2) (j : JoinRound) (c : Confirm) (s : State),
    (s.rpUp ≠ [] → s.radio.join = none → (∀ t, s.radio.lastJoin = some t → t + s.key (kRadio 6) * second ≤ s.time.mono) → exec .radioJoinRoundStart s = .next s.openJoin)
    ∧ (s.radio.join = some j → s.time.mono < s.joinEnd j → ∀ n, j.answers.find? (·.1 == id) = some (id, n) →
      (n = seq → exec (.radioAnswerReceive id { originSeq := seq, rank := rank } q) s = .next s)
      ∧ (n ≠ seq → exec (.radioAnswerReceive id { originSeq := seq, rank := rank } q) s
        = .next (({ s with radio.join := some { j with confirms := j.confirms.filter (·.identity != id) } } : State).cloneLock id)))
    ∧ (s.radio.join = some j → s.time.mono < s.joinEnd j → j.answers.find? (·.1 == id) = none →
      ((s.meterAddr id).bind s.meter).any (fun m => m.present && (s.meterAddr id).any fun a => chanOf a == 0) = false →
      let u : State := { s with radio.join := some { j with answers := j.answers ++ [(id, seq)] } }
      let y := u.answerer 1 id (j.confirms.map (·.addr))
      exec (.radioAnswerReceive id { originSeq := seq, rank := rank } q) s = .next (match y.2 with
        | none => y.1
        | some a =>
          let k : Confirm := { identity := id, addr := a, tries := 0, done := false, port := q, rank := rank }
          ({ y.1 with radio.join := y.1.radio.join.map fun (j : JoinRound) => { j with confirms := j.confirms ++ [k] } }).radioConfirm k))
    ∧ (s.radio.join = some j → j.confirms.find? (·.identity == id) = some c → c.done = false → c.tries < 4 → c.at_ + s.key (kRadio 5) * second ≤ s.time.mono →
      exec (.radioConfirmRepeat id) s = .next (s.radioConfirm c))
    ∧ (s.radio.join = some j → j.confirms.find? (fun c => c.identity == fld m.body 0 8 && !c.done) = some c → s.time.mono < s.joinEnd j →
      m.identity = c.identity → msgCheck m.micOk m.ctr (s.idCtr c.identity).2 m.body.length 12 = .accept →
      let u : State := { s with radio.join := some { j with confirms := j.confirms.map fun (x : Confirm) => if x.identity = c.identity then { x with done := true } else x } }
      let v : State := match (u.meterAddr c.identity).filter fun a => chanOf a = 0 with
        | some a => u.dropMeter a
        | none => u
      exec (.radioConfirmAckReceive m) s = .next (v.confirmMeter c.addr 826
        { identity := c.identity, ctrUp := m.ctr, ctrDown := (s.idCtr c.identity).1, port := m.port, sleepy := m.sleepy, rank := c.rank }))
    ∧ (s.radio.join = some j → s.joinEnd j ≤ s.time.mono → exec .radioJoinClose s = .next ({ s with radio.join := none, plc.quar := s.plc.quar ++ (j.confirms.filter fun (c : Confirm) => !c.done && (s.meterAddr c.identity).isNone).map fun (c : Confirm) => (c.addr, c.at_) }.pulse 829))
    ∧ (Starts 0x0901 p s = true → Block 8 [(0, 8)] p = true →
      (s.radio.join = none → exec (.radioJoin p) s = .next ((s.touch p).openJoin.answer 0x0901 p (Res.ok (leBytes 2 (s.touch p).openJoin.radio.roundNum ++ zeros 6))))
      ∧ (s.radio.join.isSome = true → exec (.radioJoin p) s = .next ((s.touch p).answer 0x0901 p (Res.err stBusy 0))))
    ∧ (Starts 0x0902 p s = true → Block 0 [] p = true →
      let u := ([0, 1].foldl (fun (s : State) q => s.modRport q fun x => { x with busyHigh := (busyOver s.time.mono x.tx).2 }) (s.touch p)).rpLevels
      let l := u.metersOn 1
      let here := l.filter (·.2.present)
      exec (.radioStatus p) s = .next (([0, 1].foldl (fun (s : State) q => s.modRport q fun x => { x with resets := Tbl.set 0 x.resets p.bay 0 }) u).answer 0x0902 p
        (Res.ok (leBytes 2 here.length ++ leBytes 2 (l.length - here.length) ++ leBytes 2 (l.filter (·.2.sleepy)).length ++ leBytes 2 u.radio.child.length
          ++ leBytes 4 (u.rpWord 0 p.bay) ++ leBytes 4 (u.rpWord 1 p.bay)))))

/-- R310 to R320, R324, R325: pallets. A pallet for this device whose header and tag pass is opened: at the root a new reading pallet is taken and
mirrored, one already had is acknowledged again, one out of reach is refused with RETRY; the standby applies mirror pallets with the further content
they carry (R366) and acknowledges them; acknowledged ones are dropped, due ones sent again; a leaf uses the entries sent down; one that does not open
pulses EV0841. This rests on the model's own choices and readings in log 4, 5, 21, 37, 40. -/
def Obligations.PalletsCarryTheLedger : Prop :=
  ∀ (p : Pallet) (md : MirrorData) (seq ms : Nat) (s : State),
    (∀ w, s.ledger.mirrorWait.find? (·.seq == seq) = some w →
      let u : State := { s with ledger.mirrorWait := s.ledger.mirrorWait.filter (·.seq != seq), ledger.mirrored := max s.ledger.mirrored w.stop }
      let v := w.acks.foldl (fun (s : State) a => s.ackCommitted a.1 a.2) u
      exec (.mirrorAckReceive seq) s = .next (if v.ledger.mirrorWait.all fun x => decide (v.time.mono ≤ x.at_ + second) then v.level 862 false else v).tryHandover)
    ∧ (1000 < ms → s.ledger.mirrorWait ≠ [] → s.standbyLinked = true → exec (.mirrorLag ms) s = .next (s.level 862 true))
    ∧ (s.ready 25 = true →
      (s.isRoot = true → s.forMe p.dest = true →
        (palletEntries 0 p = none → exec (.palletUpReceive p) s = .next (s.pulse 841))
        ∧ (∀ es, palletEntries 0 p = some es →
          let x := s.srcSeq p.source
          let waiting := (s.ledger.mirrorWait.map fun (w : MirrorWait) => w.acks.length).sum
          ((p.seq ≤ x.base ∨ x.above.contains p.seq = true) → exec (.palletUpReceive p) s = .next (s.sendAck p.source 0 p.seq))
          ∧ (x.base < p.seq → x.above.contains p.seq = false → (s.ledger.mirrorWait.any fun w => w.acks.contains (p.source, p.seq)) = false →
            ((x.base + 4096 < p.seq ∨ 90 * palletBuffer < 100 * waiting) → exec (.palletUpReceive p) s = .next ((s.sendAck p.source 1 p.seq).pulse 842))
            ∧ (p.seq ≤ x.base + 4096 → 100 * waiting ≤ 90 * palletBuffer → exec (.palletUpReceive p) s
              = .next ((es.foldl (fun (s : State) e => s.upEntry p.source e) s).mirror [(p.source, p.seq)])))))
      ∧ (∀ es, palletEntries 3 p = some es →
        (s.isRoot = true → exec (.palletMirrorReceive { pallet := p, data := md }) s = .next (((es.foldl (fun (s : State) e => s.healEntry e) s).mirror []).sendAck p.source 0 p.seq))
        ∧ (s.kiln.role = .standbyRoot → s.isRoot = false → exec (.palletMirrorReceive { pallet := p, data := md }) s = .next (((es.foldl (fun (s : State) e => s.applyMirror e) s).mirrorTake md).sendAck p.source 0 p.seq)))
      ∧ (s.kiln.role = .leaf → (p.dest = s.kiln.devId ∨ p.dest = 1023) → s.fromPair p.source = true →
        (∀ es, palletEntries 1 p = some es → exec (.palletDownReceive p) s = .next (es.foldl (fun (s : State) e => s.downEntry e) s))
        ∧ (palletEntries 1 p = none → exec (.palletDownReceive p) s = .next (s.pulse 841))))
    ∧ (s.ledger.openUp ≠ [] → s.ledger.openSince + s.key (kLedger 4) * 1000000 ≤ s.time.mono → exec .leafPalletClose s = .next s.closeUp)
    ∧ exec .palletRetransmit s = .next (s.resend fun x => decide (x.last + s.key (kLedger 5) * second ≤ s.time.mono))
    ∧ (p.dest = s.kiln.devId → (s.kiln.role = .leaf → s.fromPair p.source = true) → ∀ es, palletEntries 2 p = some es → exec (.palletAckReceive p) s
      = .next (es.foldl (fun (s : State) e => if fld e 1 1 = 0 then s.dropSent (fld e 8 8)
          else { s with ledger.sent := s.ledger.sent.map fun x => if x.seq = fld e 8 8 then { x with last := s.time.mono } else x }) s))

/-- R308, R325 to R329, R335, R347, R414: the records by command. LEDGER_READ returns records by index, one by identity, or the commit log; LEDGER_EDIT
writes an EDITED slot of the ring and logs the new and the old value (layout of the entry: log 43); LEDGER_UNLOCK makes a LOCKED record ABSENT at its
leaf; LEDGER_PROVISION fills the lowest free record; LEDGER_ASSIGN sets feeder and generation; LEDGER_DEPROVISION cancels its pushes, logs and frees
it; LEDGER_STATUS counts. This rests on the model's own choices and readings in log 3, 41, 44. -/
def Obligations.LedgerCommandsActOnRecords : Prop :=
  ∀ (p : Packet) (s : State), Unshed false p s = true →
    let b := p.params
    let u := s.touch p
    let id := fld b 0 8
    (Starts 0x0A01 p s = true → BulkBlock 1 24 [(1, 7), (20, 4)] p = true → 1 ≤ fld b 16 4 → fld b 16 4 ≤ 65536 →
      let from_ := fld b 8 8
      let count := fld b 16 4
      (fld b 0 1 = 0 → let n := min (min count (bulkRoom p 1024)) (s.recordCap - from_)
        exec (.ledgerRead p) s = .next (u.answer 0x0A01 p { Res.ok (readResult (from_ + n) n) with
          bulk := (List.range n).flatMap fun i => s.recordBytes (s.recordAt (from_ + i)) (p.bay == 0) }))
      ∧ (∀ i, fld b 0 1 = 1 → s.anyIndex from_ = some i → let n := min 1 (bulkRoom p 1024)
        exec (.ledgerRead p) s = .next (u.draw.2.answer 0x0A01 p { Res.ok (readResult u.draw.1 n) with
          bulk := if n = 1 then s.recordBytes (s.recordAt i) (p.bay == 0) else [] }))
      ∧ (fld b 0 1 = 2 → let l := ((s.ledger.log.filter fun e => decide (from_ ≤ e.seq)).reverse).take (min count (bulkRoom p 64))
        let next := (l.getLast?).elim from_ fun e => e.seq + 1
        exec (.ledgerRead p) s = .next ({ u with ledger.hostRead := max s.ledger.hostRead next }.answer 0x0A01 p
          { Res.ok (readResult next l.length) with bulk := l.flatMap LogEnt.bytes })))
    ∧ (Starts 0x0A02 p s = true → Block 24 [(16, 8)] p = true →
      let i := fld b 0 4
      let e := fld b 4 4
      let r := s.record i
      let back := (r.lastEnd - e) / s.interval
      let k := r.slotBack back
      let old := r.histAt k
      let new := histEntry (fld b 8 4) (fld b 12 4) 2
      r.state ≠ 0 → r.lastEnd ≠ 0 → e ≤ r.lastEnd → (r.lastEnd - e) % s.interval = 0 → back < 112 → exec (.ledgerEdit p) s
        = .next ((((u.modRec_ i fun r => { r.setHist k new with editedAny := true }).logAdd i 2 1 e r.identity
            [histImp new, histExp new, histImp old, histExp old]).mirror []).answer 0x0A02 p Res.ok))
    ∧ (∀ i, Starts 0x0A03 p s = true → Block 16 [(10, 6)] p = true → s.recIndex id = some i →
      ((s.record i).state = 5 → exec (.ledgerUnlock p) s = .next (((u.modRec_ i fun r =>
          { r with state := 3, leaf := fld b 8 2, clone := false, confirmed := none, foreign := none }).sendDown (fld b 8 2) (lockEntry 2 id)).answer 0x0A03 p Res.ok))
      ∧ ((s.record i).state ≠ 5 → exec (.ledgerUnlock p) s = .next (u.answer 0x0A03 p (Res.err stDenied subNotLocked))))
    ∧ (Starts 0x0A04 p s = true → Block 40 [(38, 2)] p = true → s.recIndex id = none → (fld b 36 1 ≤ 15 ∨ fld b 36 1 = 0xFF) → fld b 37 1 ≤ 1 →
      let i := lowestFree s.ledger.recs 0
      i < recordCount → s.store.lostKeys.contains .recordKey = false → exec (.ledgerProvision p) s = .next (match Config.keyUnwrap (u.ctx p).key (slice b 8 24) with
        | some k => (u.modRec_ i fun _ => { identity := id, state := 1, key := fitBytes 16 k, keyVersion := fld b 32 4, feeder := fld b 36 1, generation := fld b 37 1 == 1 }).answer 0x0A04 p (Res.ok (leBytes 4 i ++ zeros 4))
        | none => u.answer 0x0A04 p (Res.field 40)))
    ∧ (∀ i, Starts 0x0A05 p s = true → Block 16 [(10, 6)] p = true → (fld b 8 1 ≤ 15 ∨ fld b 8 1 = 0xFF) → fld b 9 1 ≤ 1 → s.recIndex id = some i →
      exec (.ledgerAssign p) s = .next ((u.modRec_ i fun r => { r with feeder := fld b 8 1, generation := fld b 9 1 == 1 }).answer 0x0A05 p Res.ok))
    ∧ (∀ i, Starts 0x0A07 p s = true → Block 16 [(8, 8)] p = true → s.recIndex id = some i →
      let r := s.record i
      let s1 := if r.leaf = 0xFFFF then u else u.sendDown r.leaf (lockEntry 3 id)
      let s2 := s1.ledger.jobs.foldl (fun (s : State) j => s.jobTarget j.id id 7 0 0) s1
      exec (.ledgerDeprovision p) s = .next (((((s2.logAdd i 0 2 0 id r.reg).mirror []).modRec_ i fun _ => {}).level 847 false).answer 0x0A07 p Res.ok))
    ∧ (Starts 0x0A06 p s = true → Block 0 [] p = true →
      let recs : List Rec := match s.kiln.role with | .leaf => s.ledger.meter.map fun x => s.leafRecord x.1 | _ => s.ledger.recs.map (·.2)
      let count := fun k : Nat => (recs.filter fun r => r.state == k).length
      let cap := match s.kiln.role with | .leaf => 2048 | _ => recordCount
      exec (.ledgerStatus p) s = .next (u.answer 0x0A06 p (Res.ok (leBytes 4 (cap - (recs.filter fun r => r.state != 0).length)
        ++ ((List.range 5).flatMap fun k => leBytes 4 (count (k + 1))) ++ leBytes 4 (satU 32 s.ledger.queueUs) ++ leBytes 1 s.ledger.refused.toNat
        ++ leBytes 1 s.ledgerActive ++ zeros 2 ++ leBytes 8 (s.ledger.logSeq - 1)))))

/-- R330 to R341: cycle-stamped snapshots and feeder balances. SNAPSHOT_AT takes a time far enough ahead and sends it down with EV0854; a leaf latches its
points and meters; missing power-line values are MISSED at the timeout; a snapshot closes with its radio values interpolated, EV0856 where a value is
MISSED and else EV0855, and an automatic one runs the balances from the automatic one before it, unless Q1 is refused; BALANCE_DEFINE sets a feeder,
BALANCE_RUN balances two closed snapshots; SNAPSHOT_READ returns values by index; scores decay daily (the pending balance of automatic snapshots and
the layout of a value: log 42). R342 to R347: pushes. A push whose descriptor, targets and content pass makes a job whose number it returns, an image
being written to its flash slot first; PUSH_STATUS counts its targets by state and lists those of one state; PUSH_CANCEL by its issuer cancels them,
EXPIRY expires them; at ACTIVATE_AT or on completion a leaf's job is activated, installing a broadcast or network key. This rests on the model's own
choices and readings in log 3, 5, 23, 42, 43, 44. -/
def Obligations.SnapshotsAndPushes : Prop :=
  (∀ (p : Packet) (id : Nat) (m : Fin 16) (s : State),
     let b := p.params
     let u := s.touch p
     (Unshed false p s = true →
       (∀ l, Starts 0x0A10 p s = true → Block 16 [(11, 5)] p = true → s.time.valid = true → s.nowNs + s.key (kLedger 7) * 1000000 ≤ fld b 0 8 →
         fld b 0 8 ≤ s.nowNs + 86400 * second → fld b 8 2 ≤ 1023 → fld b 10 1 ≤ 1 → (s.ledger.snaps.filter fun x => !x.closed).length < 6 → s.snapRoom = some l →
         let n := s.ledger.snapNext
         exec (.snapshotAt p) s = .next ((({ u with ledger.snaps := l ++ [({ id := n, t := fld b 0 8, device := fld b 8 2, auto := fld b 10 1 == 1 } : Snap)], ledger.snapNext := (n + 1) % 2 ^ 32 }.sendDown
           (fld b 8 2) (snapCmdEntry n (fld b 0 8))).pulse 854).answer 0x0A10 p (Res.accepted (leBytes 4 n ++ zeros 4))))
       ∧ (Starts 0x0A12 p s = true → Block 40 [(6, 2)] p = true → fld b 0 2 ≤ 16383 → fld b 2 2 ≤ 1022 → fld b 4 1 ≤ 15 → 1 ≤ fld b 5 1 → fld b 5 1 ≤ 16 →
         let f : Feeder := { leaf := fld b 2 2, mp := fld b 4 1, alarmRuns := fld b 5 1, epsF := fld b 8 4, epsM := fld b 12 4, pFix := fld b 16 4, lossAtRef := fld b 20 4, pRef := fld b 24 4, lossU := fld b 28 4, alarmFrac := fld b 32 4, alarmMin := fld b 36 4 }
         exec (.balanceDefine p) s = .next ({ u with ledger.feeders := Tbl.set none s.ledger.feeders (fld b 0 2) (some f) }.answer 0x0A12 p Res.ok))
       ∧ (∀ x y, Starts 0x0A11 p s = true → BulkBlock 1 16 [(12, 4)] p = true → s.snap (fld b 0 4) = some x → x.closed = true → s.snap (fld b 4 4) = some y → y.closed = true →
         let r := u.balances x y (fld b 8 2) (fld b 10 2)
         let l := r.1.take (bulkRoom p 72)
         exec (.balanceRun p) s = .next (r.2.answer 0x0A11 p { Res.ok (leBytes 4 l.length ++ zeros 4) with bulk := l.flatMap fun x => x }))
       ∧ (∀ x, Starts 0x0A13 p s = true → BulkBlock 1 16 [(4, 4)] p = true → s.snap (fld b 0 4) = some x →
         let l := ((x.vals.filter fun v => decide (fld b 8 4 ≤ v.index) && decide (v.index < fld b 8 4 + fld b 12 4)).foldl (fun (t : Tbl SnapVal) v =>
           Tbl.insert t v.index v) []).take (bulkRoom p 40)
         exec (.snapshotRead p) s = .next (u.answer 0x0A13 p { Res.ok (leBytes 4 l.length ++ zeros 4) with
           bulk := l.flatMap fun v => fitBytes 40 (Config.snapValue v.2.index v.2.latch v.2.reg v.2.term v.2.how) })))
     ∧ (∀ x, s.kiln.role = .leaf → s.ready 25 = true → s.ledger.leafSnaps.find? (·.id == id) = some x → exec (.snapshotLatch id m) s = .next ((s.latchMp x m).latchMeters x))
     ∧ (∀ x, s.snap id = some x → x.closed = false →
       (x.timedOut = false → x.t + s.key (kLedger 8) * second ≤ s.nowNs →
         let miss : List (Nat × Rec) := (s.snapRecords x).filter fun r => r.2.channel == 0 && !x.vals.any fun v => v.index == r.1
         exec (.snapshotTimeout id) s = .next (s.modSnap id fun x : Snap => { x with timedOut := true, vals := miss.map (fun r => ({ index := r.1, latch := 1, reg := [], how := 2 } : SnapVal)) ++ x.vals }))
       ∧ (x.t + s.key (kLedger 9) * second ≤ s.nowNs →
         let radio : List (Nat × Rec) := (s.snapRecords x).filter fun r => r.2.channel == 1
         let vals : List SnapVal := radio.map fun r => match s.interpolate x r.2 with
           | some v => ({ index := r.1, latch := 3, reg := v.1, term := v.2, how := 1 } : SnapVal)
           | none => { index := r.1, latch := 1, reg := [], how := 2 }
         let all : List SnapVal := vals ++ x.vals.filter fun v => !vals.any fun w => w.index == v.index
         let miss : Bool := all.any fun v => v.latch == 1
         let shut := (s.modSnap id fun x => { x with closed := true, missed := miss, vals := all }).pulse (if miss then 856 else 855)
         (x.auto = false → exec (.snapshotClose id) s = .next shut)
         ∧ (x.auto = true → exec (.snapshotClose id) s = .next (
           let v : State := { shut with ledger.lastAuto := some id }
           match shut.ledger.lastAuto.bind shut.snap, v.snap id with
           | some a, some c => if v.shed 1 = true ∨ (!a.closed) = true then v else (v.balances a c 0 16383).2
           | _, _ => v))))
     ∧ (s.kiln.role = .root → s.ready 25 = true → s.time.valid = true → s.ledger.scoreDay < s.utcNs / (86400 * second) → s.shed 1 = false → exec .scoreDecay s
       = .next { s with ledger.scoreDay := s.utcNs / (86400 * second), ledger.recs := Tbl.mapV {} (fun (r : Rec) => { r with score := decayed (s.key (kLedger 11)) r.score }) s.ledger.recs }))
  ∧ (∀ (p : Packet) (job : Nat) (s : State),
       let b := p.params
       let u := s.touch p
       (∀ (code : Nat) (d : BulkDesc) (ids : List Nat), code ∈ [0x0A20, 0x0A21, 0x0A22] → Unshed true p s = true → Starts code p s = true → BulkBlock 0 32 [(29, 3)] p = true → p.desc = some d → d.kind = 0 →
         let data := fitBytes d.length p.bulk
         let kind := fld b 1 1
         let size := fld b 24 4
         let body := data.drop (data.length - size)
         fld b 0 1 ≤ 2 → pushKindOk code kind = true → size ≤ data.length → (fld b 0 1 ≠ 0 → data.length = size) → (if kind = 1 then fld b 28 1 ≤ 7 else fld b 28 1 = 0) →
         s.pushTargets (fld b 0 1) (fld b 2 2) (data.take (data.length - size)) = some ids → pushSizeOk kind size ids.length = true → (s.ledger.jobs.filter Job.live).length < 16 →
         (2 ≤ kind → s.store.ro.contains 2 = false) → (kind = 1 → s.ready 3 = true ∧ s.sectorsBad (imageSectors (fld b 28 1)) = false) →
         let w := if kind = 1 then u.writeImage (fld b 28 1) body else u
         let t := (w.createJob (u.ctx p) b body ids).answer code p (Res.ok (leBytes 4 w.ledger.jobNext ++ zeros 4))
         (code = 0x0A20 → exec (.pushTariff p) s = .next t) ∧ (code = 0x0A21 → exec (.pushImage p) s = .next t) ∧ (code = 0x0A22 → exec (.pushKey p) s = .next t))
       ∧ (∀ j, Unshed false p s = true → s.ledger.jobs.find? (·.id == fld b 0 4) = some j →
         (Starts 0x0A28 p s = true → fld b 4 1 = 0xFF → Block 8 [(5, 3)] p = true →
           exec (.pushStatus p) s = .next (u.answer 0x0A28 p (Res.ok j.counts)))
         ∧ (Starts 0x0A28 p s = true → fld b 4 1 ≤ 7 → BulkBlock 1 8 [(5, 3)] p = true → exec (.pushStatus p) s = .next (u.answer 0x0A28 p
             { Res.ok j.counts with bulk := ((j.targets.filter fun t => t.state == fld b 4 1).take (bulkRoom p 8)).flatMap fun t => leBytes 8 t.identity }))
         ∧ (Starts 0x0A29 p s = true → Block 8 [(4, 4)] p = true → j.live = true → p.bay = j.bay → (u.ctx p).role = j.role → exec (.pushCancel p) s
           = .next ((j.targets.foldl (fun (s : State) t => s.jobTarget j.id t.identity 7 t.next t.tries) u).answer 0x0A29 p Res.ok)))
       ∧ (∀ j, s.ledger.jobs.find? (·.id == job) = some j → j.live = true → s.time.valid = true → j.expiry ≤ s.nowNs → exec (.pushExpiry job) s
         = .next (j.targets.foldl (fun (s : State) t => s.jobTarget j.id t.identity 6 t.next t.tries) s))
       ∧ (∀ j, s.leafJob job = some j → j.installed = false → (if j.activateAt = 0 then ∀ t ∈ j.targets, 3 ≤ t.state else s.time.valid = true ∧ j.activateAt ≤ s.nowNs) →
         let v := s.modLeafJob job fun j => { j with active := true, installed := true }
         exec (.pushActivateDue job) s = .next (if j.kind = 3 then (match v.plc.bcastNext with | some k => { v with plc.bcastKey := k.1, plc.bcastNext := none } | none => v)
           else if j.kind = 4 then v.newNetworkKey ((j.block 0).take 16) else v)))

/-- R350 to R352, R354, R370, R372: the mortar lanes. A lane that is enabled trains until it is trained with 1,024 groups; loss of lock, 16 violations in
a window or 3 ms without HELLO take it down; frame CRC failures count; HELLO goes out on the trained lanes, and a received one updates the neighbour,
raises the lane at the third in a row carries root, epoch and standby knowledge and, at a root that did not take over, fences it when the HELLO shows
a rival root (R368); time exchanges measure the delay and discipline the time. R385: the uplinks. READY and the level source follow the link of an
enabled lane; the lane answers ARP, neighbour solicitations and echo requests for its own addresses, and drops a datagram whose fragments did not
arrive in 2 s. This rests on the model's own choices and readings in log 4, 5, 46. -/
def Obligations.LanesUplinksAndTime : Prop :=
  (∀ (m : Fin 4) (n us seq t2 t3 t4 : Nat) (inv lost : Bool) (h : Hello) (s : State),
     let x := s.lane m
     (s.laneEnabled m = true →
       (x.trained = false → exec (.laneTrainAttempt m) s = .next ((s.modLane m fun x => { x with training := true }).laneLevels m))
       ∧ (x.training = true → x.trained = false → 1024 ≤ n →
         let u := s.modLane m fun x => { x with trained := true, training := false, polInv := inv, hellos := 0, retrains := (if x.everLost then bumpAllSat 255 1 x.retrains else x.retrains) }
         exec (.laneTrained m n inv) s = .next (if inv then u.pulse 786 else u)))
     ∧ (x.trained = true →
       ((lost = true ∨ 16 ≤ n) → exec (.laneLoss m lost n) s = .next (s.laneDown m))
       ∧ exec (.laneFrameCrcFail m) s = .next ((s.modLane m fun x => { x with errors := (x.errors + 1) % 2 ^ 32, errTimes := s.time.mono :: x.errTimes }).errLevel m))
     ∧ (x.up = true → 3000 ≤ us → exec (.helloTimeout m us) s = .next (s.laneDown m))
     ∧ exec .helloSend s = .next (((List.range 4).filter fun m => s.laneEnabled m && (s.lane m).trained).foldl (fun (s : State) m => s.laneSend m (s.helloOf m)) s)
     ∧ (s.laneEnabled m = true → x.trained = true →
       let s1 := s.modLane m fun x =>
         { x with hellos := min 3 (x.hellos + 1), lastHello := s.time.mono, up := x.up || decide (2 ≤ x.hellos), peerId := h.devId, peerRole := h.role, peerHops := h.hops,
                  peerEpoch := h.epoch, peerRootId := h.rootId, peerUp := h.activeUp, peerFlags := h.flags.toNat, peerRootSeq := max x.peerRootSeq h.rootSeq,
                  rootHeardAt := (if decide ((s.lane m).peerRootSeq < h.rootSeq) then some s.time.mono else x.rootHeardAt) }
       let s2 := (if !x.up ∧ (s1.lane m).up then (s1.setReady (30 + m) true).laneLevels m else s1).errLevel m
       let s3 := if s2.isRoot ∨ h.rootSeq ≤ s2.mortar.rootSeq then s2 else { s2 with mortar.rootSeq := h.rootSeq }.level 795 false
       let rival := !h.flags.getLsbD 2 && h.rootId != s3.kiln.devId && ((h.role == 2 && h.hops == 0) || (h.flags.getLsbD 1 && h.hops != 0xFF))
       let s4 := (if s3.isRoot ∧ rival ∧ !s3.mortar.takeover then s3.fenceRoot h.rootId else s3).helloTable h
       let s5 := if (s4.lane m).up then s4.chooseUp else s4
       let s6 := if s5.kiln.role = .standbyRoot ∧ h.role = 2 ∧ h.hops = 0 ∧ !h.flags.getLsbD 2 then s5.adopt h.epoch h.rootId (h.flags.getLsbD 1) else s5
       exec (.helloReceive m h) s = .next (s6.joinSeen m h.epoch).standbyCheck)
     ∧ (s.timeChild m = true → let k := (x.reqSeq + 1) % 65536
       exec (.timeReqSend m) s = .next ((s.modLane m fun x => { x with reqSeq := k, reqT1 := some s.nowNs }).laneSend m (.timeReq k)))
     ∧ (x.up = true → s.timeChild m = false → exec (.timeReqReceive m seq t2 t3) s = .next (s.laneSend m (.timeResp seq t2 t3)))
     ∧ (∀ t1, x.reqT1 = some t1 → s.timeChild m = true → x.reqSeq = seq →
       let d := roundDiv (((t2 : Int) - t1) + ((t4 : Int) - t3)) 2
       let off := roundDiv (((t1 : Int) - t2) + ((t4 : Int) - t3) + s.keyS (kLane m 2)) 2
       let u := s.modLane m fun x => { x with reqT1 := none }
       (t1 + 10000000 < t4 → exec (.timeRespReceive m seq t2 t3 t4) s = .next u)
       ∧ (t4 ≤ t1 + 10000000 → (x.delays.length < 15 ∨ (d - medianInt x.delays).natAbs ≤ 100) →
         let v := u.modLane m fun x => { x with delays := (d :: x.delays).take 15, linkDelay := d.toNat % 2 ^ 32, exchanges := u.time.mono :: x.exchanges.filter fun t => decide (u.time.mono < t + second) }
         let w := if x.delays ≠ [] ∧ 100 < (d - (x.linkDelay : Int)).natAbs then v.pulse 799 else v
         exec (.timeRespReceive m seq t2 t3 t4) s = .next (if w.mortar.activeUp = some m.val ∨ w.kiln.role = .standbyRoot then w.mortarExchange off else w))))
  ∧ (∀ (k : Fin 2) (up : Bool) (ip : Nat) (data : Bytes) (s : State),
       (let on := s.uplinkOn k && up && s.kiln.ph.k6Open
        exec (.uplinkLinkChange k up) s = .next ((s.setReady (34 + k) on).level (784 + k) (s.key (kUp k 0) != 0 && !on)))
       ∧ (s.ready (34 + k) = true →
         (ip ≠ 0 → ip = s.key (kUp k 1) → exec (.arpRequest k ip) s = .next { s with host.net := .arp k ip (Config.macAddr k) :: s.host.net })
         ∧ (s.ip6Mine k ip = true → exec (.ndSolicit k ip) s = .next { s with host.net := .neighbour k ip (Config.macAddr k) :: s.host.net })
         ∧ ((ip ≠ 0 ∧ ip = s.key (kUp k 1) ∨ s.ip6Mine k ip = true) → exec (.icmpEcho k ip data) s = .next { s with host.net := .echo k ip data :: s.host.net }))
       ∧ exec (.ipReassemblyTimeout ip) s = .next { s with host.reasm := s.host.reasm.filter fun x => !(x.1 = ip ∧ x.2 + 2 * second ≤ s.time.mono) })

/-- R353, R355, R356, R361: segments and returned units. The segments of a class are joined up to the last; a whole command unit for this device is opened
and taken, one for another device goes on, a whole pallet is forwarded unless it is for this device (then its own command carries it), and one that
does not open pulses EV0841; a RETURN goes back to its source, where it pulses EV0794 and ends the command it was for, has a leaf send its pallets
again, and puts a DOWN pallet's entries back into the queue; a unit held 10 ms for its epoch is returned. R357 to R363: membership. The root answers a
JOIN request of a device of its table with an offer, pulses EV0790 on a bad one and EV0791 on a device already a member, and makes it a member on its
confirmation with EV0788 and a new epoch; the joining device answers its offer; BELOW tells the lanes who is under them, and a device that moved
raises the root's epoch; a device without path for the key's time leaves, a leaf gone longer is orphaned; the table is provisioned and removed by
command. This rests on the model's own choices and readings in log 4, 5, 46, 48. -/
def Obligations.UnitsAndMembership : Prop :=
  (∀ (m : Fin 4) (g : Segment) (r : ReturnFrame) (s : State),
     ((s.lane m).up = true → g.hops < 64 → g.data.length ≤ 512 →
       let x := (s.lane m).addSegment g
       let unit := x.segs.filter fun y => y.cls == g.cls
       let u := s.modLane m fun _ => x
       let v := u.modLane m fun x => { x with segs := x.segs.filter fun y => y.cls != g.cls }
       ((g.last = false ∨ unit = []) → exec (.segmentReceive m g) s = .next u)
       ∧ (g.last = true → unit ≠ [] →
         (g.kind = 1 →
           let data := unit.flatMap (·.data)
           let src := fld data 0 2
           let dest := fld data 2 2
           let inner := (data.drop 16).take (data.length - 32)
           (parsePacket (.mortar src) g.gcm [] inner = none → exec (.segmentReceive m g) s = .next (v.pulse 841))
           ∧ (∀ code pk, parsePacket (.mortar src) g.gcm [] inner = some (code, pk) →
             (dest = s.kiln.devId →
               ((g.gcm = false ∨ seqFresh (Tbl.get [] v.mortar.cmdSeq src) (fld data 8 8) = false) → exec (.segmentReceive m g) s = .next (v.pulse 841))
               ∧ (g.gcm = true → seqFresh (Tbl.get [] v.mortar.cmdSeq src) (fld data 8 8) = true →
                 let w : State := { v with mortar.cmdSeq := Tbl.upd [] v.mortar.cmdSeq src fun l => (fld data 8 8 :: l).take 4096 }
                 exec (.segmentReceive m g) s = .next (if 0x8000 ≤ code then w.replyHome code pk else if w.serving then arriveQueue code pk w else w)))
             ∧ (dest ≠ s.kiln.devId → dest ≠ 1023 → s.isRoot = false → s.mortar.stt ≠ .fenced →
               exec (.segmentReceive m g) s = .next (v.unitOnward m g.cls src dest (fld data 8 8) code pk))))
         ∧ (g.kind ≠ 1 → g.pallet = none → exec (.segmentReceive m g) s = .next (v.pulse 841))
         ∧ (∀ p, g.kind ≠ 1 → g.pallet = some p → v.forMe p.dest = true → exec (.segmentReceive m g) s = .next v)
         ∧ (∀ p, g.kind ≠ 1 → g.pallet = some p → v.forMe p.dest = false → v.mortar.stt ≠ .fenced → g.hops < 63 → exec (.segmentReceive m g) s = .next (v.forwardPallet (some m.val) g.cls p))))
     ∧ ((s.lane m).up = true →
       (r.source ≠ s.kiln.devId → s.mortar.stt ≠ .fenced → r.hops < 63 → ∀ n, s.route r.source = some n → exec (.returnReceive m r) s = .next (s.laneSend n (.ret r.source r.kind r.reason r.seq)))
       ∧ (r.source = s.kiln.devId → r.kind = 1 →
         let u := s.pulse 794
         ∀ f, u.host.forwarded.find? (u.sentCommand r.seq) = some f →
           exec (.returnReceive m r) s = .next ({ u with host.forwarded := u.host.forwarded.erase f }.answer f.1 f.2 (if r.reason = 1 then Res.err stRetry 0 else Res.err stUnreachable 0)))
       ∧ (r.source = s.kiln.devId → r.kind ≠ 1 → s.kiln.role = .leaf → exec (.returnReceive m r) s = .next ((s.pulse 794).resend fun _ => true))
       ∧ (∀ p, r.source = s.kiln.devId → r.kind ≠ 1 → s.kiln.role ≠ .leaf → (s.pulse 794).sentUnit r.seq = some (.pallet p) → p.kind = 1 →
         let u := s.pulse 794
         let es := ((splitEntries p.entries p.body).getD []).filter requeued
         exec (.returnReceive m r) s = .next { u with ledger.downQ := u.ledger.downQ ++ es.map fun e => (p.dest, e) }))
     ∧ (let old := s.mortar.held.filter fun h => decide (h.1 + 10000000 ≤ s.time.mono)
        exec .epochHoldExpire s = .next (old.foldl (fun (s : State) h => match h.2 with | .unit _ src _ seq _ => s.sendReturn src 0 1 seq | _ => s)
         { s with mortar.held := s.mortar.held.filter fun h => !old.contains h })))
  ∧ (∀ (m : Fin 4) (j : JoinFrame) (b : BelowPart) (d : Fin 1023) (ms : Nat) (p : Packet) (s : State),
       ((s.lane m).up = true → s.mortar.stt ≠ .fenced →
         (s.isRoot = false → exec (.joinReqReceive m j) s = .next (s.passUp 0 j) ∧ exec (.joinConfirmReceive m j) s = .next (s.passUp 2 j))
         ∧ (s.isRoot = true →
           (∀ e, Tbl.get none s.mortar.table j.dev = some e →
             ((j.macOk = false ∨ e.identity ≠ j.identity ∨ e.key = []) → exec (.joinReqReceive m j) s = .next (s.pulse 790))
             ∧ (j.macOk = true → e.identity = j.identity → e.key ≠ [] →
               (e.state = 1 → exec (.joinReqReceive m j) s = .next ((({ s with mortar.dupUntil := some (s.time.mono + 10 * second) }).pulse 790).level 791 true))
               ∧ (e.state ≠ 1 → let x := s.drawBytes 16
                 let ep := (x.2.mortar.epoch + 1) % 2 ^ 32
                 exec (.joinReqReceive m j) s = .next ({ x.2 with mortar.offers := Tbl.set none x.2.mortar.offers j.dev (some (x.2.time.mono, x.1)) }.laneSend m
                   (.join 1 j.dev ep x.1 e.identity (Config.gmac e.key (leBytes 1 1 ++ leBytes 2 j.dev ++ leBytes 4 ep ++ j.nonce)))))))
           ∧ (Tbl.get none s.mortar.table j.dev = none → exec (.joinReqReceive m j) s = .next (s.pulse 790))
           ∧ (∀ t n, Tbl.get none s.mortar.offers j.dev = some (t, n) → j.macOk = true → s.time.mono ≤ t + second →
             let u := { s with mortar.offers := Tbl.set none s.mortar.offers j.dev none }.incEpoch
             exec (.joinConfirmReceive m j) s = .next ((((u.modDev j.dev fun e => { e with state := 1, epoch := u.mortar.epoch }).pulse 788 j.dev).flushDown j.dev).standbyCheck)))
         ∧ (j.dev = s.kiln.devId → s.mortar.stt = .joining → s.mortar.activeUp = some m.val → j.macOk = true → s.mortar.offered = none → exec (.joinOfferReceive m j) s
           = .next ({ s with mortar.offered := some (j.epoch, s.time.mono) }.laneSend m (s.joinFrame 2 j.epoch j.nonce)))
         ∧ (j.dev ≠ s.kiln.devId → j.hops < 63 → exec (.joinOfferReceive m j) s = .next ((s.upLanes 2).foldl (fun (s : State) n => s.laneSend n (.join 1 j.dev j.epoch j.nonce j.identity j.mac)) s)))
       ∧ (∀ t n, Tbl.get none s.mortar.offers d = some (t, n) → t + second ≤ s.time.mono → exec (.joinOfferLapse d) s = .next { s with mortar.offers := Tbl.set none s.mortar.offers d none })
       ∧ (s.mortar.stt = .joining → s.mortar.joinAt + second ≤ s.time.mono → s.mortar.activeUp.isSome = true → exec .joinRetry s = .next s.startJoin)
       ∧ (∀ t, s.mortar.dupUntil = some t → t ≤ s.time.mono → exec .duplicateIdAlarmEnd s = .next ({ s with mortar.dupUntil := none }.level 791 false))
       ∧ (∀ k, s.mortar.stt = .member → s.mortar.activeUp = some k →
         let q := (s.mortar.belowSeq + 1) % 65536
         let n := ceilDiv s.belowIds.length 260
         exec .belowSend s = .next ((List.range n).foldl (fun (u : State) i => u.laneSend k (.below q i (i + 1 == n) ((s.belowIds.drop (260 * i)).take 260))) { s with mortar.belowSeq := q }))
       ∧ ((s.lane m).up = true →
         let x := s.lane m
         let newer : Bool := match x.belowSeq with | some q => decide (0 < (b.seq + 65536 - q) % 65536 ∧ (b.seq + 65536 - q) % 65536 < 32768) | none => true
         (newer || x.belowSeq == some b.seq) = true →
         let parts := (if newer then [] else x.belowParts.filter (·.1 != b.part)) ++ [(b.part, b.last, b.ids)]
         (belowWhole parts 4 0 = none → exec (.belowReceive m b) s = .next (s.modLane m fun x => { x with belowSeq := some b.seq, belowParts := parts }))
         ∧ (∀ ids, belowWhole parts 4 0 = some ids →
           let moved := s.isRoot && ids.any fun d => !x.below.contains d && s.devMember d && (List.range 4).any fun n => n != m.val && (s.lane n).below.contains d
           let u := s.modLane m fun x => { x with belowSeq := some b.seq, belowParts := parts, below := ids }
           exec (.belowReceive m b) s = .next (if moved then u.incEpoch else u)))
       ∧ (s.isRoot = true →
         (s.devMember d = true → s.pathTo d = false → s.key (kMortar 3) ≤ ms → exec (.deviceLeave d ms) s = .next (s.depart d))
         ∧ (∀ e, Tbl.get none s.mortar.table d = some e → e.state = 2 → e.role = 0 → e.departedAt + s.key (kMortar 4) * second ≤ s.time.mono → exec (.leafOrphan d) s
           = .next ((s.modDev d fun e => { e with state := 3 }).orphan d)))
       ∧ (let c := p.params
          (Starts 0x0B03 p s = true → Block 56 [(3, 5)] p = true → fld c 0 2 ≤ 1022 → fld c 2 1 ≤ 4 → Tbl.get none s.mortar.table (fld c 0 2) = none → s.store.ro.contains 2 = false →
           exec (.deviceProvision p) s = .next (match Config.keyUnwrap ((s.touch p).ctx p).key (slice c 16 40) with
             | some k => { s.touch p with mortar.table := Tbl.set none s.mortar.table (fld c 0 2) (some { role := fld c 2 1, identity := fld c 8 8, key := fitBytes 32 k, epoch := s.mortar.epoch }) }.answer 0x0B03 p Res.ok
             | none => (s.touch p).answer 0x0B03 p (Res.field 48)))
          ∧ (∀ e, Starts 0x0B04 p s = true → Block 8 [(2, 6)] p = true → Tbl.get none s.mortar.table (fld c 0 2) = some e →
           let u := if e.state = 1 then (s.touch p).depart (fld c 0 2) else s.touch p
           let v := if e.role = 0 ∧ e.state ≠ 3 then u.orphan (fld c 0 2) else u
           exec (.deviceRemove p) s = .next ({ v with mortar.table := Tbl.set none v.mortar.table (fld c 0 2) none, mortar.offers := Tbl.set none v.mortar.offers (fld c 0 2) none, ledger.downQ := v.ledger.downQ.filter fun x => x.1 ≠ fld c 0 2 }.standbyCheck.answer 0x0B04 p Res.ok))))

/-- R364 to R372: the root pair. The root counts its heartbeat; the standby takes over after 20 ms of silence, becomes the root with a new epoch and
EV0796; ROOT_HANDOVER hands over at once when nothing waits for the mirror, else when it is done; a root cut off hands over by itself. MORTAR_STATUS
and TOPO_READ answer. This rests on the model's own choices and readings in log 3, 5, 41, 47. -/
def Obligations.RootPairHandsOver : Prop :=
  ∀ (p : Packet) (ms : Nat) (s : State),
    (s.isRoot = true →
      exec .rootHeartbeat s = .next { s with mortar.rootSeq := (s.mortar.rootSeq + 1) % 2 ^ 32 }
      ∧ (s.mortar.handover = none → 20 ≤ ms → s.reachOthers = false → (∃ m < 4, (s.lane m).up = true ∧ (s.lane m).peerId = s.partner ∧ (s.lane m).peerFlags.testBit 3 = true) →
        exec (.rootCutHandover ms) s = .next (s.handOver none)))
    ∧ (s.kiln.role = .standbyRoot → s.kiln.ph.k6Open = true → (20 ≤ ms ∨ s.handedOver = true) →
      let u := s.level 795 true
      let v : State := { u with kiln.role := .root, mortar.stt := .root, mortar.takeover := true, mortar.hops := 0, mortar.activeUp := none, mortar.rootId := u.kiln.devId, ledger.mirrored := u.ledger.logSeq }
      exec (.rootTakeover ms) s = .next ((v.incEpoch.loseSource 1).standbyCheck.pulse 796))
    ∧ (Starts 0x0B05 p s = true → Block 0 [] p = true →
      (s.standbyLinked = false → exec (.rootHandover p) s = .next ((s.touch p).answer 0x0B05 p (Res.err stUnreachable 0)))
      ∧ (s.standbyLinked = true → s.ledger.mirrorWait = [] → exec (.rootHandover p) s = .next (((s.touch p).handOver none).answer 0x0B05 p Res.ok))
      ∧ (s.standbyLinked = true → s.ledger.mirrorWait ≠ [] → exec (.rootHandover p) s
        = .next (((s.touch p).handOver (some (queueId p.bay p.queue))).setBusy (queueId p.bay p.queue) (some ⟨⟨0x0B05, p, s.time.mono⟩, .handover⟩))))
    ∧ (Starts 0x0B01 p s = true → Block 0 [] p = true → exec (.mortarStatus p) s
      = .next (((List.range 4).foldl (fun (s : State) m => s.modLane m fun x => { x with retrains := Tbl.set 0 x.retrains p.bay 0 }) (s.touch p)).answer 0x0B01 p
        (Res.ok (leBytes 2 s.kiln.devId ++ leBytes 1 s.mortar.stt.code ++ leBytes 1 s.mortar.hops ++ leBytes 4 s.mortar.epoch ++ leBytes 2 s.mortar.rootId
          ++ leBytes 1 (s.mortar.activeUp.getD 0xFF) ++ zeros 5 ++ (List.range 4).flatMap (s.laneEntry p.bay)))))
    ∧ (Starts 0x0B02 p s = true → Block 8 [(4, 4)] p = true → 1 ≤ fld p.params 2 2 → fld p.params 2 2 ≤ 1023 →
      let l := (s.mortar.table.filterMap fun x => x.2.bind fun e => if fld p.params 0 2 ≤ x.1 then some (x.1, e) else none).take (fld p.params 2 2)
      let r := l.foldl (fun (a : Bytes × State) x => (a.1 ++ (a.2.topoEntry x.1 x.2).1, (a.2.topoEntry x.1 x.2).2)) ([], s.touch p)
      exec (.topoRead p) s = .next (r.2.answer 0x0B02 p (Res.ok r.1)))

/-- R381, steps 1 to 6: a packet of any opcode whose row takes it from the wire (nothing of its queue waits for it) gets the reply of the first failing
check and nothing is executed; a failed GCM tag of a UDP packet, BAD_CRC, then VERSION, LENGTH, RESERVED, the fields of the header, and BAD_OPCODE.
R381, steps 7 to 11, for a packet that passes steps 1 to 6: the bay of its transport, its session, its role, the running role, and the depth of its
queue (256, R390), with EV1007 at QUEUE_FULL. This rests on the model's own choices and readings in log 4, 9, 10. -/
def Obligations.FirstFailingCheckDecidesTheReply : Prop :=
  (∀ (code : Nat) (body : Body) (p : Packet) (s : State), s.serving = true →
     waitsHere code p (s.queueOf (queueId p.bay p.queue)) = none →
     let answers := fun r => command code body p s = s.answer code p r
     let udp := p.transport.isUdp
     (udp = true → p.gcmOk = false → command code body p s = s)
     ∧ ((udp = true → p.gcmOk = true) → (p.crc ≠ p.crcOf code → answers (Res.err stBadCrc 0))
       ∧ (p.crc = p.crcOf code →
         (p.version ≠ 1 → answers (Res.err stBadParam subVersion))
         ∧ (p.version = 1 →
             (p.paramLen % 8 ≠ 0 ∨ paramLimit p < p.paramLen ∨ p.paramLen ≠ p.params.length →
               answers (Res.err stBadParam subLength 12))
             ∧ (p.paramLen % 8 = 0 → p.paramLen ≤ paramLimit p → p.paramLen = p.params.length →
                 (32 ≤ p.flags.toNat → answers (Res.reserved 1))
                 ∧ (p.flags.toNat < 32 →
                     (p.reserved ≠ 0 → answers (Res.reserved 23))
                     ∧ (p.reserved = 0 →
                       (p.tagged ≠ mustTag code p → answers (Res.field 1))
                       ∧ (p.tagged = mustTag code p →
                         (7 < p.bay → answers (Res.field 8))
                         ∧ (p.bay ≤ 7 → 15 < p.queue → answers (Res.field 9))
                         ∧ (p.bay ≤ 7 → p.queue ≤ 15 → 1023 < p.target → p.target ≠ 0xFFFF → answers (Res.field 20))
                         ∧ (p.bay ≤ 7 → p.queue ≤ 15 → TargetHere p s = true → card code = none → answers (Res.err stBadOpcode 0))))))))))
  ∧ (∀ (code : Nat) (p : Packet) (c : Card) (s : State),
       p.crc = p.crcOf code → (p.transport.isUdp = true → p.gcmOk = true) → p.version = 1 → p.paramLen % 8 = 0 → p.paramLen ≤ paramLimit p →
       p.paramLen = p.params.length → p.flags.toNat < 32 → p.reserved = 0 → p.tagged = mustTag code p → p.bay ≤ 7 → p.queue ≤ 15 →
       TargetHere p s = true → card code = some c → replayOf p s = none → tagStale p s = false → code ≠ 0x0020 →
       let full := 256 ≤ (s.queueOf (queueId p.bay p.queue)).length
       (bayPermitted code p s = false → ingress code p s = .refuse (Res.err stDenied subWrongBay))
       ∧ (bayPermitted code p s = true → ∀ r, sessionCheck code p s = some r → ingress code p s = .refuse r)
       ∧ (bayPermitted code p s = true → sessionCheck code p s = none →
           (c.may p.bay (s.ctx p).role = false → ingress code p s = .refuse (Res.err stDenied subRole))
           ∧ (c.may p.bay (s.ctx p).role = true →
               (c.idle s.kiln.role = true → ingress code p s = .refuse (Res.err stDenied subRoleIdle))
               ∧ (c.idle s.kiln.role = false → fencedIdle code s = false →
                   (full → ingress code p s = .refuse (Res.err stBusy subQueueFull 256)
                     ∧ s.turnedAway code p (ingress code p s)
                         = (s.pulse 1007 (p.bay + 256 * p.queue)).answer code p (Res.err stBusy subQueueFull 256))
                   ∧ (¬ full → ingress code p s = .accept ∧ Taken code p s = true)))))

/-- R390: a packet (no host's broadcast) taken while its queue holds others, or while a command of its queue has not replied, waits behind them with its
ingress stamp, and its session takes its last use and, where R387 keeps it, its TAG. This rests on the model's own choices and readings in log 9. -/
def Obligations.PacketsOfOneQueueWaitInOrder : Prop :=
  ∀ (code : Nat) (body : Body) (p : Packet) (s : State), s.serving = true → Taken code p s = true → HostBroadcast p = false → code ≠ 0x0020 →
    waitsHere code p (s.queueOf (queueId p.bay p.queue)) = none →
    (s.queueOf (queueId p.bay p.queue) ≠ [] ∨ (s.busyOf (queueId p.bay p.queue)).isSome = true) →
    command code body p s
      = (s.touch p).setQueue (queueId p.bay p.queue)
          (s.queueOf (queueId p.bay p.queue) ++ [⟨code, p, s.time.mono⟩])

/-- R389, R381 step 12: execution starts only inside the window [ingress stamp, stamp + DEADLINE); a waiting packet whose window has ended gets DEADLINE
and its body is not run, at its own turn or at DEADLINE_EXPIRE wherever it waits, as do urgent conversions that still wait for their converter. This
rests on the model's own choices and readings in log 9, 16. -/
def Obligations.DeadlineEndsTheWindow : Prop :=
  (∀ (code : Nat) (body : Body) (p : Packet) (stamp : Nat) (s : State), p.deadline ≠ 0 →
    stamp + p.deadline * 1000 ≤ s.time.mono → execNow code body p stamp s = s.answer code p (Res.err stDeadline 0))
  ∧ (∀ (code : Nat) (p : Packet) (stamp : Nat) (s : State),
      (p.deadline = 0 ∨ s.time.mono < stamp + p.deadline * 1000) → sessionCheck code p s = none →
      (readyFor code p s = true ↔ startCheck code p stamp s = none)
      ∧ (readyFor code p s = false → startCheck code p stamp s = some (Res.err stNotReady 0)))
  ∧ (∀ (bay : Fin 8) (queue : Fin 16) (pos : Nat) (e : QEntry) (s : State),
      (s.queueOf (queueId bay queue))[pos]? = some e → e.pkt.deadline ≠ 0 →
      e.stamp + e.pkt.deadline * 1000 ≤ s.time.mono →
      (s.heldLate (queueId bay queue) && ((s.urgents 0 ++ s.urgents 1).any fun u => u.start.isNone && u.queue == queueId bay queue)) = false →
      exec (.deadlineExpire bay queue pos) s
        = .next ((s.setQueue (queueId bay queue) ((s.queueOf (queueId bay queue)).eraseIdx pos)).answer e.code e.pkt
            (Res.err stDeadline 0)))
  ∧ (∀ (bay : Fin 8) (queue : Fin 16) (pos : Nat) (s : State),
      (s.heldLate (queueId bay queue) && ((s.urgents 0 ++ s.urgents 1).any fun u => u.start.isNone && u.queue == queueId bay queue)) = true →
      exec (.deadlineExpire bay queue pos) s = .next ((s.dropLate 0).dropLate 1))

/-- R378, R383, R384: the reply echoes TAG, BAY, QUEUE and SESSION, goes to the device the packet entered at and carries the status block; QUIET with OK
sends none; on the SPI port its bytes, and those of its continuations, join the port's replies; on a PCIe queue pair with room, while no continuation
waits, it takes one completion entry, QUIET or not. (A packet whose copies do not wait for it, R387.) R384, R492, R502: while CONTROL is 0, an F3
holds the host ports or the device is in F4, a packet has no effect; on the SPI port it sets DROPPED. This rests on the model's own choices and
readings in log 9. -/
def Obligations.RepliesEchoTheirCommand : Prop :=
  (∀ (code : Nat) (p : Packet) (a : Res) (s : State), s.copiesOf p = 0 →
     let quiet := p.quiet && a.status == stOk
     let r : Reply := { code := code, peer := p.transport.peer, tag := p.tag, bay := p.bay, queue := p.queue, session := p.session, target := (match p.transport with | .mortar _ => p.source | _ => s.kiln.devId), source := s.kiln.devId, status := a.status, sub := a.sub, detail := a.detail, doneTime := if s.time.valid then s.nowNs else 0, result := a.result, bulk := a.bulk, stream := p.desc.any fun d => d.kind == 1 }
     (p.transport = .spi → quiet = false →
       (s.answer code p a).host.out = r.conts.reverse ++ r :: s.host.out
       ∧ (s.answer code p a).host.spi = s.host.spi ++ (r :: r.conts).map Reply.bytes)
     ∧ (∀ u v, p.transport = .udp u v → quiet = false → (s.answer code p a).host.out = r.conts.reverse ++ r :: s.host.out)
     ∧ (quiet = true → (p.transport = .spi ∨ p.transport.isUdp = true) → (s.answer code p a).host.out = s.host.out)
     ∧ (∀ fn q cap, p.transport = .pcie fn q cap →
       let x := s.qpOf fn q
       let len := if quiet then 0 else r.bytes.length
       x.size ≠ 0 → x.cqFull = false → r.stream = false → (∀ e ∈ s.host.qp, e.2.conts = []) →
       (s.answer code p a).host.cq = ({ fn := fn, qp := q, bay := p.bay, sqHead := x.sqHead, phase := x.phase, truncated := decide (cap < len), more := false, tag := p.tag, status := a.status, sub := a.sub, rspLen := min cap len } : Completion) :: s.host.cq
       ∧ (s.answer code p a).host.out = if quiet then s.host.out else r :: s.host.out))
  ∧ (∀ (code : Nat) (body : Body) (p : Packet) (s : State), s.serving = false →
       (p.transport = .spi → command code body p s = { s with host.spiDropped := true })
       ∧ (p.transport ≠ .spi → command code body p s = s))

/-- R405, R480: GET_READY_MAP returns the READY map and PHASE, DEVICE_INFO the serial number, the ID, the role and the versions. -/
def Obligations.DeviceQueriesAnswer : Prop :=
  ∀ (p : Packet) (s : State), Block 0 [] p = true →
    (Starts 0x0010 p s = true → exec (.getReadyMap p) s
      = .next ((s.touch p).answer 0x0010 p (Res.ok (leBytes 16 s.kiln.ready.toNat ++ leBytes 1 s.phase ++ zeros 7))))
    ∧ (Starts 0x0011 p s = true → exec (.deviceInfo p) s
      = .next ((s.touch p).answer 0x0011 p (Res.ok (leBytes 8 Config.deviceSerial ++ leBytes 2 s.kiln.devId
          ++ leBytes 1 s.kiln.role.code ++ leBytes 1 Config.stepping ++ leBytes 4 s.kiln.fwRunning
          ++ leBytes 4 s.kiln.sealFw ++ zeros 4))))

/-- R392: SESSION_OPEN with a defined role, a legal idle time, an identity that is not locked and room in the bay issues a challenge, live from now, that
can pass only for the identity's own role and bays; its reply carries the handle, the nonce, the device's key and its signature over the transcript.
This rests on the model's own choices and readings in log 3, 4. -/
def Obligations.SessionOpenIssuesAChallenge : Prop :=
  ∀ (p : Packet) (s : State) (role : SessRole), Starts 0x0001 p s = true → Block 96 [(9, 1), (12, 4)] p = true →
    SessRole.ofCode (fld p.params 8 1) = some role → s.store.lostKeys.contains .identityKey = false →
    (fld p.params 10 2 = 0 ∨ 10 ≤ fld p.params 10 2) →
    (∀ i, s.findIdent (fld p.params 0 8) = some i → i.lockedAt s.time.mono = false) →
    let same := fun x : Chal => x.identity == fld p.params 0 8 && x.bay == p.bay && x.peer == p.transport.peer && x.answer.isNone
    let keep := s.host.chal.filter fun x => !same x
    (keep.filter (·.bay == p.bay)).length < 8 → (s.host.sess.filter (·.bay == p.bay)).length < 8 →
    ∃ (h n : Nat) (nonce eph sig : Bytes) (c : Chal),
      exec (.sessionOpen p) s
        = .next ({ s.touch p with
            freeCount := n,
            host.chal := keep ++ [c],
            host.expired := ((s.host.chal.filter same).map fun x : Chal => (x.handle, x.identity)) ++ s.host.expired }.answer 0x0001 p
              (Res.ok (leBytes 2 h ++ zeros 6 ++ nonce ++ eph ++ sig)))
      ∧ c.handle = h ∧ c.bay = p.bay ∧ c.identity = fld p.params 0 8 ∧ c.role = role ∧ c.peer = p.transport.peer
      ∧ c.issued = s.time.mono ∧ c.answer = none ∧ c.idleS = (if fld p.params 10 2 = 0 then 600 else fld p.params 10 2)
      ∧ c.transcript = transcript (fld p.params 0 8) role.code p.bay h (slice p.params 16 16) (slice p.params 32 64) nonce eph
      ∧ sig = fitBytes 64 (Config.deviceSign c.transcript)
      ∧ (c.canPass = true ↔ role.bayOk p.bay = true ∧
          ∃ i, s.findIdent (fld p.params 0 8) = some i ∧ i.role = role ∧ i.bayMask.getLsbD p.bay = true)

/-- R394, R396, R397: a valid answer to a live challenge that no rival keeps waiting opens the session of its identity, role, bay and end; both failure
counts return to 0 and the challenge is gone; with a rival challenge it waits, with a rival's valid answer the identity is locked as a clone. A valid
answer for an identity that has a session in the bay is BUSY, in a full bay CAPACITY. An invalid answer leaves no session, discards the handle, counts
and makes EV0970; so does one to a challenge that has expired. This rests on the model's own choices and readings in log 4. -/
def Obligations.SessionAuthOpensTheSession : Prop :=
  ∀ (p : Packet) (s : State) (c : Chal) (i : Ident), Starts 0x0003 p s = true → Block 72 [(1, 7)] p = true →
    (s.findChal p.session = none → exec (.sessionAuth p) s
      = .next (((s.touch p).pulse 970 (((s.host.expired.find? (·.1 == p.session)).map (·.2)).getD 0)).answer 0x0003 p (Res.err stAuthFail subExpired)))
    ∧ (s.findChal p.session = some c → c.issued + 10 * second ≤ s.time.mono → exec (.sessionAuth p) s
      = .next (((((s.touch p).dropChal c).pulse 970 c.identity).resolveWaiting c.identity c.bay).answer 0x0003 p (Res.err stAuthFail subExpired)))
    ∧ (s.findChal p.session = some c → s.time.mono < c.issued + 10 * second →
    proofLenOk c.role (fld p.params 0 1) = true →
    allZero p.params (8 + fld p.params 0 1) (64 - fld p.params 0 1) = true →
    s.findIdent c.identity = some i → i.lockedAt s.time.mono = false →
    let valid := p.gcmOk = true ∧ c.canPass = true ∧ proofOk i c.transcript (slice p.params 8 (fld p.params 0 1)) = true
    let u := s.touch p
    (valid → rivals s c = [] →
      ((s.host.sess.any fun x => x.bay == c.bay && x.identity == c.identity) = true → exec (.sessionAuth p) s = .next ((u.dropChal c).answer 0x0003 p (Res.err stBusy 0)))
      ∧ ((s.host.sess.any fun x => x.bay == c.bay && x.identity == c.identity) = false →
        (8 ≤ (s.host.sess.filter (·.bay == c.bay)).length → exec (.sessionAuth p) s = .next ((u.dropChal c).answer 0x0003 p (Res.err stCapacity subSessionsFull)))
        ∧ ((s.host.sess.filter (·.bay == c.bay)).length < 8 →
          let s1 : State := { u with host.chal := s.host.chal.filter (·.handle != c.handle) }
          let s2 := s1.modIdent c.identity fun i => { i with fails := 0, locks := 0 }
          let x : Session := { handle := c.handle, bay := c.bay, identity := c.identity, role := c.role, peer := c.peer,
                               idleS := c.idleS, lastUse := s.time.mono, key := c.key, kept := [] }
          exec (.sessionAuth p) s = .next ({ s2 with host.sess := s2.host.sess ++ [x] }.answer 0x0003 p
            (Res.ok (leBytes 2 c.handle ++ leBytes 1 c.role.code ++ zeros 5))))))
    ∧ (valid → rivals s c ≠ [] → (rivals s c).find? (·.answer.isSome) = none → exec (.sessionAuth p) s
        = .next (({ u with host.chal := s.host.chal.map fun x => if x.handle = c.handle then { x with answer := some ⟨0x0003, p, s.time.mono⟩ } else x } : State).setBusy
            (queueId p.bay p.queue) (some ⟨⟨0x0003, p, s.time.mono⟩, .auth⟩)))
    ∧ (∀ r e, valid → (rivals s c).find? (·.answer.isSome) = some r → r.answer = some e → exec (.sessionAuth p) s
        = .next (((((((u.dropChal c).dropChal r).modIdent c.identity fun i => { i with clone := true }).pulse 968 c.identity).replyWaiting e (Res.err stLockedOut subClone))).answer
            0x0003 p (Res.err stLockedOut subClone)))
    ∧ (¬ valid → exec (.sessionAuth p) s
        = .next ((((u.dropChal c).authFail c.identity).resolveWaiting c.identity c.bay).answer 0x0003 p (Res.err stAuthFail 0))))

/-- R395, R392, R396: SESSION_CLOSE and the idle time end a session (its handle is kept with the time of its end), a challenge ends 10 s after its issue,
and at the end of a lock the failure count returns to 0. R396: an authentication failure of a provisioned identity counts, with EV0970; the fifth in a
row locks it for 60 × 2^(n − 1) s, at most 3,600 s, n counting the locks, with EV0969. After a lock that has run out the count begins again (the end
of the lock need not have been carried out: DEDUCED, log 29). This rests on the model's own choices and readings in log 5, 12, 16. -/
def Obligations.SessionsChallengesAndLocksEnd : Prop :=
  (∀ (p : Packet) (s : State) (h : Nat),
     (Starts 0x0002 p s = true → Block 0 [] p = true → exec (.sessionClose p) s
       = .next ({ s.touch p with host.sess := (s.touch p).host.sess.filter (·.handle != p.session),
                                 host.ended := (p.session, s.time.mono) :: s.host.ended }.answer 0x0002 p Res.ok))
     ∧ (∀ x, s.findSess h = some x → x.lastUse + x.idleS * second ≤ s.time.mono →
         exec (.sessionIdleTimeout h) s = .next { s with host.sess := s.host.sess.filter (·.handle != h),
                                                          host.ended := (h, s.time.mono) :: s.host.ended })
     ∧ (∀ c, s.findChal h = some c → c.answer = none → c.issued + 10 * second ≤ s.time.mono →
         exec (.challengeExpire h) s
           = .next (({ s with host.chal := s.host.chal.filter (·.handle != c.handle),
                              host.expired := (c.handle, c.identity) :: s.host.expired } : State).resolveWaiting c.identity c.bay))
     ∧ (∀ i e, s.findIdent h = some i → i.lockEnd = some e → e ≤ s.time.mono →
         exec (.identityLockEnd h) s = .next { s with
           host.ident := s.host.ident.map fun x => if x.id = h then { x with lockEnd := none, fails := 0 } else x }))
  ∧ (∀ (s : State) (id : Nat) (i : Ident), s.findIdent id = some i →
       let n := if i.lockEnd.any (fun e => decide (e ≤ s.time.mono)) then 1 else i.fails + 1
       (n < 5 → s.authFail id = (s.pulse 970 id).modIdent id fun i => { i with fails := n, lockEnd := none })
       ∧ (5 ≤ n → s.authFail id = ((s.pulse 970 id).modIdent id fun i => { i with fails := n, locks := i.locks + 1, lockEnd := some (s.time.mono + min 3600 (60 * 2 ^ i.locks) * second) }).pulse 969 id))

/-- R377: a BULK_DATA packet at the stream's next OFFSET adds its data; while fewer than LENGTH bytes have arrived the command goes on holding its queue
and nothing is replied; with all of them it executes. More than 10 s without one ends the stream with DEADLINE / STREAM. R382, R376, R388: a packet
for another device that passes CRC and header and that some lane leads on to is sent on in one unit of this device's next SEQ, with SOURCE filled in
where it entered from a host, one hop less on its way, and its CRC over both; a host's packet is remembered for its replies and nothing is executed
here. Without a lane, or with no hop left, it is answered UNREACHABLE; a host's HOP_LIMIT outside 1 to 63 is refused (hops: log 48). R382: an accepted
broadcast of a host runs here as any command does, and goes on as well: with a HOP_LIMIT, a card that permits it and outside FENCED_ROOT, down the
lanes of a broadcast in one unit; else nowhere. This rests on the model's own choices and readings in log 29, 30, 48, 74. -/
def Obligations.BulkDataAndForwarding : Prop :=
  (∀ (p : Packet) (s : State) (f : InFlight) (got : Bytes) (need last : Nat),
     let q := queueId p.bay p.queue
     s.busyOf q = some f → f.kind = .stream got need last → streamOwner p f = true →
     (s.serving = true → (s.queueOf q).all (fun e => e.code != 0x0020) = true → Taken 0x0020 p s = true →
       startCheck 0x0020 p s.time.mono (s.touch p) = none → p.target ≠ 1023 → sealFault 0x0020 p (s.touch p) = false →
       p.isBulk = false → p.cont = true → 8 ≤ p.params.length → s.time.mono ≤ last + 10 * second →
       fld p.params 0 4 = got.length → allZero p.params 4 4 = true →
       (got.length + (p.params.drop 8).length < need →
         exec (.bulkData p) s = .next ((s.touch p).setBusy (queueId f.entry.pkt.bay f.entry.pkt.queue)
           (some { f with kind := .stream (got ++ p.params.drop 8) need s.time.mono })))
       ∧ (need ≤ got.length + (p.params.drop 8).length → (p.params.drop 8).length ≤ 8 * ceilDiv (need - got.length) 8 →
           allZero (p.params.drop 8) (need - got.length) 8 = true →
           exec (.bulkData p) s = .next ((s.touch p).streamRun f ((got ++ p.params.drop 8).take need))))
     ∧ (∀ (bay : Fin 8) (queue : Fin 16), queueId bay queue = q → last + 10 * second < s.time.mono →
         exec (.streamStall bay queue) s
           = .next ((s.setBusy q none).answer f.entry.code f.entry.pkt (Res.err stDeadline subStream))))
  ∧ (∀ (op : Nat) (p : Packet) (s : State), s.serving = true → p.target ≠ 1023 → targetLocal p s = false →
       (p.transport.isUdp = true → p.gcmOk = true) → p.crc = p.crcOf op → headCheck op p = none →
       let fromHost : Bool := match p.transport with | .mortar _ => false | _ => true
       let src := match p.transport with | .mortar d => d | _ => s.kiln.devId
       let lanes := s.unitLanes none src p.target
       let on : Packet := { p with source := if fromHost then s.kiln.devId else p.source, hopLimit := if fromHost then p.hopLimit else p.hopLimit - 1 }
       let sent : Packet := { on with crc := on.crcOf op }
       ((if fromHost then p.hopLimit = 0 ∨ 63 < p.hopLimit else False) → exec (.packetForward op p) s = .next (s.answer op p (Res.field 22)))
       ∧ (fromHost = false → p.hopLimit ≤ 1 → exec (.packetForward op p) s = .next (s.answer op p (Res.err stUnreachable subHopLimit)))
       ∧ ((if fromHost then 1 ≤ p.hopLimit ∧ p.hopLimit ≤ 63 else 2 ≤ p.hopLimit) →
         (lanes = [] → exec (.packetForward op p) s = .next (s.answer op p (Res.err stUnreachable 0)))
         ∧ (lanes ≠ [] → exec (.packetForward op p) s = .next (lanes.foldl (fun (u : State) m => u.modLane m fun l =>
             { l with sent := .unit (s.qosOf p.bay).cls src p.target (s.mortar.mySeq + 1) (.command op sent) :: l.sent })
           { s with mortar.mySeq := s.mortar.mySeq + 1, host.forwarded := if fromHost then (op, p) :: s.host.forwarded else s.host.forwarded }))))
  ∧ (∀ (code : Nat) (body : Body) (p : Packet) (s : State), s.serving = true → HostBroadcast p = true → Taken code p s = true →
       waitsHere code p (s.queueOf (queueId p.bay p.queue)) = none → p.crc = p.crcOf code → headCheck code p = none →
       let on : Packet := { p with source := s.kiln.devId }
       let sent : Packet := { on with crc := on.crcOf code }
       let permitted := p.hopLimit ≠ 0 ∧ ((card code).any fun c => c.bc) = true ∧ s.mortar.stt ≠ .fenced
       let u := (s.unitLanes none s.kiln.devId 1023).foldl (fun (u : State) m => u.modLane m fun l =>
           { l with sent := .unit (s.qosOf p.bay).cls s.kiln.devId 1023 (s.mortar.mySeq + 1) (.command code sent) :: l.sent })
         { s with mortar.mySeq := s.mortar.mySeq + 1, host.forwarded := (code, p) :: s.host.forwarded }
       (permitted → command code body p s = takeIn code body p .accept u)
       ∧ (¬ permitted → command code body p s = takeIn code body p .accept s))

/-- R406 to R408: a CFG_EDIT whose entries all pass writes them into the shadow set, whose generation rises by 1; CFG_COPY makes the shadow the active
set's copy with the next generation; the active set stays. R407, R410: CFG_READ returns the generation and the entries of the keys named, from the set
SET names; CFG_STATUS returns both generations, PENDING and the last swap. This rests on the model's own choices and readings in log 57. -/
def Obligations.EditsAndConfigurationReads : Prop :=
  (∀ (p : Packet) (s : State), s.cfg.pend = none → s.cfgReadOnly = false →
     (∀ l : List (Nat × Nat), Starts 0x0101 p s = true → p.isBulk = false → 8 ≤ p.params.length → 1 ≤ fld p.params 0 2 → fld p.params 0 2 ≤ 1024 →
       allZero p.params 2 6 = true → checkEdits p.params (fld p.params 0 2) 8 [] = .ok l →
       (l.any (fun e => isLegalKey e.1) = true → b0Legal p.bay ((s.touch p).ctx p).role = true) →
       let g := (s.cfg.shadow.gen + 1) % 2 ^ 32
       let sh : KeySet := l.foldl (fun ks e => ks.put e.1 e.2) s.cfg.shadow
       exec (.cfgEdit p) s
         = .next ({ s.touch p with
             cfg.shadow := { sh with gen := g } }.answer 0x0101 p
               (Res.ok (leBytes 4 g ++ zeros 4))))
     ∧ (Starts 0x0103 p s = true → Block 0 [] p = true →
       let g := (s.cfg.active.gen + 1) % 2 ^ 32
       exec (.cfgCopy p) s
         = .next ({ s.touch p with cfg.shadow := { s.cfg.active with gen := g } }.answer 0x0103 p
             (Res.ok (leBytes 4 g ++ zeros 4)))))
  ∧ (∀ (p : Packet) (s : State),
       (let n := fld p.params 2 2
        let ids := (List.range n).map fun i => fld p.params (8 + 2 * i) 2
        let ks := if fld p.params 0 1 = 0 then s.cfg.active else s.cfg.shadow
        Starts 0x0102 p s = true → p.isBulk = false → 8 ≤ p.params.length → fld p.params 0 1 ≤ 1 → allZero p.params 1 1 = true →
         1 ≤ n → n ≤ 1024 → allZero p.params 4 4 = true → p.params.length = 8 + ceilDiv (2 * n) 8 * 8 →
         allZero p.params (8 + 2 * n) 8 = true → (∀ i, i < n → (keyInfo (ids.getD i 0)).isSome = true) →
         exec (.cfgRead p) s
           = .next ((s.touch p).answer 0x0102 p (Res.ok (leBytes 4 ks.gen ++ zeros 4 ++ ids.flatMap (keyEntry ks)))))
       ∧ (Starts 0x0111 p s = true → Block 0 [] p = true → exec (.cfgStatus p) s
           = .next ((s.touch p).answer 0x0111 p (Res.ok (leBytes 4 s.cfg.active.gen ++ leBytes 4 s.cfg.shadow.gen
               ++ leBytes 1 s.cfg.pend.isSome.toNat ++ leBytes 1 s.cfg.lastBoundary ++ leBytes 2 s.cfg.lastCheckKey ++ zeros 4
               ++ leBytes 8 s.cfg.lastSwapIndex ++ leBytes 8 s.cfg.lastSwapTime)))))

/-- R409, R438, R439: a CFG_SWAP with the shadow's generation that passes every check arms the swap and journals its intent, with ACCEPTED, or holding its
reply when IMMEDIATE; the sets stay. CFG_CANCEL by its issuer takes an armed one back, with EV1002 (data: the generation of the cancelled swap, log
57). At the swap sample x the two sets change places, the swap is over, EV1001 carries its generation, and the sample index is as before. This rests
on the model's own choices and readings in log 25, 57, 58. -/
def Obligations.SwapsAreArmedAppliedAndCancelled : Prop :=
  ∀ (p : Packet) (s : State),
    (let b := fld p.params 0 1
     let t := fld p.params 8 8
     let gen := s.cfg.shadow.gen
     Starts 0x0110 p s = true → Block 16 [(2, 2)] p = true → b ≤ 3 → fld p.params 1 1 ≤ 7 → (b ≠ 1 → fld p.params 1 1 = 0) →
      (b ≠ 3 → t = 0) → (s.cfg.active.differ s.cfg.shadow isLegalKey = true → b0Legal p.bay ((s.touch p).ctx p).role = true) →
      s.cfg.pend = none → s.cfgReadOnly = false → fld p.params 4 4 = gen → (b = 3 → s.time.valid = true ∧ s.nowNs < t) →
      (b = 1 → vsEnabled s.cfg.active (fld p.params 1 1) = true) → s.firstFail s.cfg.shadow = 0xFFFF →
      let w : Swap := { boundary := b, vset := fld p.params 1 1, atTime := t, from_ := s.time.index, bay := p.bay, gen := gen,
                        role := ((s.touch p).ctx p).role, sample := if b = 0 then some (s.time.index + 1) else none }
           let u := ({ s.touch p with
              cfg.lastCheckKey := 0xFFFF, cfg.pend := some w, cfg.lastBoundary := b } : State).journalAdd 0x06 0 0 0 [gen, b]
           exec (.cfgSwap p) s = .next (
             if b = 0 then u.setBusy (queueId p.bay p.queue) (some ⟨⟨0x0110, p, s.time.mono⟩, .swap⟩)
             else u.answer 0x0110 p (Res.accepted (leBytes 4 gen ++ zeros 4 ++ leBytes 8 0))))
    ∧ (∀ w, Starts 0x0112 p s = true → Block 0 [] p = true → s.cfg.pend = some w → w.boundary ≠ 0 →
      (b0Legal p.bay ((s.touch p).ctx p).role = true ∨ p.bay = w.bay ∧ ((s.touch p).ctx p).role = w.role) →
      exec (.cfgCancel p) s
        = .next (({ s.touch p with cfg.pend := none }.pulse 1002 (256 * w.gen)).roFollow.answer 0x0112 p Res.ok))
    ∧ (∀ (w : Swap) (x : Nat) (late : List (Fin 8 × Crossing)), s.cfg.pend = some w → s.swapSample = some x → s.time.indexOn = true →
      x ≤ s.time.index + 1 → ∃ t, exec (.cfgSwapApply late) s = .next t ∧ t.cfg.active = s.cfg.shadow ∧ t.cfg.shadow = s.cfg.active
        ∧ t.cfg.pend = none ∧ t.cfg.lastSwapIndex = x ∧ t.cfg.lastBoundary = w.boundary ∧ t.time.index = s.time.index
        ∧ ∃ r ∈ t.ev.last, r.source = 1001 ∧ r.kind = .pulse ∧ r.index = x ∧ r.data = w.gen % 2 ^ 64)

/-- R416, R432 to R434: EVENT_SUBSCRIBE sets, adds to or takes from the bay's map, returns it, sorts what is stamped exactly at its start by the new map,
and each asserted level it adds gives a record; EVENT_READ returns the oldest records in stamp order, numbered on, at most MAX, and removes them; a
bay that dropped records gets EV1005 with AFTER_LOSS and the count; QOS_SET and QOS_READ write and read a bay's class and shares (R415, R424). This
rests on the model's own choices and readings in log 29. -/
def Obligations.EventAndQosCommandsAnswer : Prop :=
  ∀ (p : Packet) (s : State),
    (let mode := fld p.params 0 1
     let given := BitVec.ofNat 1024 (fld p.params 8 128)
     let old := (s.evBay p.bay).map
     let new := mapInForce p.bay (if mode = 0 then given else if mode = 1 then old ||| given else old &&& ~~~ given)
     Starts 0x0C10 p s = true → Block 136 [(1, 7)] p = true → mode ≤ 2 → exec (.eventSubscribe p) s
      = .next (((((s.touch p).modEv p.bay fun q => { q with map := new }).atStart p.bay (mapInForce p.bay old) new).atSubscribe p.bay (new &&& ~~~ old)).answer 0x0C10 p
          (Res.ok (leBytes 128 new.toNat))))
    ∧ (let q := s.evBay p.bay
       let out := q.ordered.take (fld p.params 0 2)
       Starts 0x0C11 p s = true → Block 8 [(2, 6)] p = true → 1 ≤ fld p.params 0 2 → fld p.params 0 2 ≤ 1024 → exec (.eventRead p) s
      = .next ((((s.touch p).modEv p.bay fun q => { q with queue := q.ordered.drop (fld p.params 0 2), rangeSeen := 0 }).afterDrops p.bay).answer
          0x0C11 p (Res.ok (leBytes 2 out.length ++ zeros 6 ++ out.flatMap EvRec.bytes))))
    ∧ (∀ q : EvBay, q.ordered.length = q.queue.length
      ∧ (∀ (i : Nat) (r : EvRec), q.ordered[i]? = some r → r.seq = (q.first + i) % 2 ^ 32)
      ∧ ((∀ r ∈ q.queue, r.afterLoss = false) → List.Pairwise (fun x y : EvRec => y.before x = false) q.ordered))
    ∧ (∀ b, (s.evBay b).drops = 0 → s.afterDrops b = s)
    ∧ (∀ b, Tbl.wf {} s.ev.bay → b < 8 → (s.evBay b).drops ≠ 0 → (s.evBay b).queue.length < 4096 →
      ((s.afterDrops b).evBay b).drops = 0
      ∧ ∃ r, ((s.afterDrops b).evBay b).queue = (s.evBay b).queue ++ [r] ∧ r.source = 1005 ∧ r.kind = .pulse ∧ r.afterLoss = true
          ∧ r.index = s.time.index ∧ r.data = b + (s.evBay b).drops % 2 ^ 32 * 256)
    ∧ (let q : Qos := ⟨fld p.params 1 1, fld p.params 4 2, fld p.params 6 2, fld p.params 8 2, fld p.params 10 2⟩
       Starts 0x0C30 p s = true → Block 16 [(2, 2), (12, 4)] p = true → 1 ≤ fld p.params 0 1 → fld p.params 0 1 ≤ 7 →
       1 ≤ q.cls → q.cls ≤ 3 → (∀ x ∈ [q.tile, q.dram, q.link, q.cmd], 1 ≤ x ∧ x ≤ 1000) → sharesFit (s.touch p) (fld p.params 0 1) q = true →
       exec (.qosSet p) s = .next ((({ s.touch p with host.qos := Tbl.set none s.host.qos (fld p.params 0 1) (some q) } : State).pulse 1006
          (fld p.params 0 1)).answer 0x0C30 p Res.ok))
    ∧ (let q := s.qosOf (fld p.params 0 1)
       Starts 0x0C31 p s = true → Block 8 [(1, 7)] p = true → fld p.params 0 1 ≤ 7 → exec (.qosRead p) s
      = .next ((s.touch p).answer 0x0C31 p (Res.ok (leBytes 1 q.cls ++ zeros 1 ++ leBytes 2 q.tile ++ leBytes 2 q.dram
          ++ leBytes 2 q.link ++ leBytes 2 q.cmd))))

/-- R427: a bay reset empties the bay's queues, ends its sessions and challenges, returns its map to the default and pulses EV1000 with the bay; BAY_RESET
of the issuing bay replies before it acts, and a function-level reset acts on the function's bay (R383). R383, R426: PERST_N ends every session bound
to PCIe, empties the queues of B1 to B7 and returns their maps to the default, and the link leaves L2; no other session ends. This rests on the
model's own choices and readings in log 12, 13. -/
def Obligations.BayResetsEmptyTheirBays : Prop :=
  (∀ (s : State) (b : Nat), b < 8 → Tbl.wf [] s.host.queue → Tbl.wf {} s.ev.bay →
     ((∀ q, q < 16 → (s.bayReset b).queueOf (queueId b q) = []) ∧ (∀ x ∈ (s.bayReset b).host.sess, x.bay ≠ b)
       ∧ (∀ c ∈ (s.bayReset b).host.chal, c.bay ≠ b) ∧ ((s.bayReset b).evBay b).map = defaultMap b
       ∧ ∃ r, (s.bayReset b).ev.last.head? = some r ∧ r.source = 1000 ∧ r.kind = .pulse ∧ r.data = b)
     ∧ (∀ fn : Fin 7, exec (.functionLevelReset fn) s = .next (s.bayReset (fn.val + 1)))
     ∧ (∀ p, Starts 0x0C01 p s = true → Block 8 [(1, 7)] p = true → fld p.params 0 1 = b →
         ((b = p.bay ∧ ((s.touch p).ctx p).role.meets .operator = true) →
           exec (.bayReset p) s = .next (((s.touch p).answer 0x0C01 p Res.ok).bayReset b))
         ∧ (b ≠ p.bay → (p.bay = 0 ∧ ((s.touch p).ctx p).role = .legal ∨ p.bay = 1 ∧ ((s.touch p).ctx p).role.meets .operator = true ∧ 2 ≤ b) →
           exec (.bayReset p) s = .next (((s.touch p).bayReset b).answer 0x0C01 p Res.ok))))
  ∧ (∀ s : State, Tbl.wf [] s.host.queue → Tbl.wf {} s.ev.bay → ∃ t, exec .perstNAssert s = .next t
       ∧ t.host.sess = s.host.sess.filter (fun x =>
           !(s.host.sess.any fun y => y.peer.isPcie && y.handle == x.handle))
       ∧ (∀ b q, 1 ≤ b → b < 8 → q < 16 → t.queueOf (queueId b q) = [])
       ∧ (∀ b, 1 ≤ b → b < 8 → (t.evBay b).map = defaultMap b ∧ (t.evBay b).queue = [])
       ∧ t.evBay 0 = s.evBay 0 ∧ t.host.pcieL2 = false)

/-- R384: on the SPI port a packet written while RX_READY is 1 goes through ingress to its queue, one written while it is 0 is discarded and sets DROPPED;
a READ clocks out LEN and the oldest reply, which leaves once it is out completely. R540, R541: ENABLE with a sound configuration zeroes the indexes
and runs the pair, with an unsound one sets ERROR with ERR_CODE 1; clearing it stops the pair and clears the errors; a doorbell value at or above the
ring size sets ERROR with ERR_CODE 3, a legal one moves the index and fetches: a packet arrives, an entry of PKT_LEN 0 serves a continuation reply, a
rejected access sets ERR_CODE 2. This rests on the model's own choices and readings in log 9, 56. -/
def Obligations.HostPortsMovePackets : Prop :=
  (∀ (s : State) (bytes : Bytes) (n : Nat),
     let s1 : State := { s with win.spiStatus := spiStatusByte s, host.spiDropped := false }
     (rxReady s = false → exec (.spiWrite bytes) s = .next { s1 with host.spiDropped := true })
     ∧ (∀ code p, rxReady s = true → parsePacket .spi true [] bytes = some (code, p) →
         exec (.spiWrite bytes) s = .next (arriveQueue code p s1)
         ∧ (Taken code p s1 = true → HostBroadcast p = false → arriveQueue code p s1 = (s1.touch p).enqueue code p))
     ∧ (s.host.spi = [] → exec (.spiRead n) s = .next { s1 with win.spiOut := (zeros 4).take n })
     ∧ (∀ r rest, s.host.spi = r :: rest →
         (4 + r.length ≤ n → exec (.spiRead n) s
           = .next { s1 with win.spiOut := (leBytes 4 r.length ++ r).take n, host.spi := rest })
         ∧ (n < 4 + r.length → exec (.spiRead n) s
           = .next { s1 with win.spiOut := (leBytes 4 r.length ++ r).take n })))
  ∧ (∀ (fn : Fin 7) (q : Fin 16) (v : Nat) (l : List Fetch) (s : State), s.fault.f4 = false →
       let x := s.qpOf fn q
       (x.enable = false → x.configOk = true → exec (.qpEnable fn q) s = .next (s.modQp fn q fun x =>
           { x with enable := true, sqTail := 0, cqHead := 0, sqHead := 0, cqTail := 0, running := true, phase := true, waiting := [], caps := [], conts := [] }))
       ∧ (x.enable = false → x.configOk = false → exec (.qpEnable fn q) s = .next (s.modQp fn q fun x =>
           { x with enable := true, error := true, errCode := 1 }))
       ∧ exec (.qpDisable fn q) s = .next (s.modQp fn q fun x =>
           { x with enable := false, running := false, error := false, errCode := 0 })
       ∧ (x.enable = true →
           (x.sqSize ≤ v → exec (.sqTailDoorbell fn q v l) s = .next (s.modQp fn q fun x => { x with error := true, errCode := 3 }))
           ∧ (v < x.sqSize → exec (.sqTailDoorbell fn q v l) s
               = .next ((s.modQp fn q fun x => { x with sqTail := v }).fetchAll fn q l))
           ∧ (x.cqSize ≤ v → exec (.cqHeadDoorbell fn q v l) s = .next (s.modQp fn q fun x => { x with error := true, errCode := 3 }))
           ∧ (v < x.cqSize → exec (.cqHeadDoorbell fn q v l) s
               = .next (((s.modQp fn q fun x => { x with cqHead := v }).drainCq fn q x.waiting).fetchAll fn q l)))
       ∧ (∀ (e : Fetch) (bs : Bytes) (code : Nat) (p : Packet), x.running = true → x.error = false → x.sqHead ≠ x.sqTail → s.serving = true →
           e.pkt = some bs → e.pktLen ≠ 0 → parsePacket (.pcie fn q e.rspCap) true e.bulk (fitBytes e.pktLen bs) = some (code, p) →
           s.fetchAll fn q [e] = arriveQueue code p (s.modQp fn q fun x => { x with sqHead := (x.sqHead + 1) % x.sqSize }))
       ∧ (∀ e : Fetch, x.running = true → x.error = false → x.sqHead ≠ x.sqTail → s.serving = true →
           (e.pkt = none → s.fetchAll fn q [e] = s.modQp fn q fun x => { x with error := true, errCode := 2 })
           ∧ (e.pkt.isSome = true → e.pktLen = 0 → s.fetchAll fn q [e] = ((s.modQp fn q fun x => { x with sqHead := (x.sqHead + 1) % x.sqSize }).modQp fn q fun x =>
               { x with caps := x.caps ++ [e.rspCap] }).addConts fn q [])))

/-- R417, R418: a bay mask that the role may not have is a parameter error; without the rights over the role and mask the session is DENIED with ROLE;
with them it provisions an identity with its credential (the utility and legal roles' keys unwrapped under the session key), removes one (its sessions
end), or releases a lock; an identity that is not locked is DENIED with NOT_LOCKED. This rests on the model's own choices and readings in log 4. -/
def Obligations.IdentitiesAreProvisionedAndRemoved : Prop :=
  ∀ (p : Packet) (s : State),
    let b := p.params
    let u := s.touch p
    let c := u.ctx p
    (∀ role, Starts 0x0D01 p s = true → Block 80 [(10, 6)] p = true → SessRole.ofCode (fld b 8 1) = some role →
      (maskOk (fld b 8 1) (fld b 9 1) = false → exec (.identityProvision p) s = .next (u.answer 0x0D01 p (Res.field 41)))
      ∧ (maskOk (fld b 8 1) (fld b 9 1) = true → allZero b (16 + credLength (fld b 8 1)) (64 - credLength (fld b 8 1)) = true →
        identityRights c (fld b 8 1) (fld b 9 1) = false → exec (.identityProvision p) s = .next (u.answer 0x0D01 p (Res.err stDenied subRole)))
      ∧ (∀ k, identityRights c (fld b 8 1) (fld b 9 1) = true → maskOk (fld b 8 1) (fld b 9 1) = true → allZero b (16 + credLength (fld b 8 1)) (64 - credLength (fld b 8 1)) = true →
        s.findIdent (fld b 0 8) = none → s.host.ident.length < 256 → s.store.ro.contains 2 = false →
        (if fld b 8 1 = 2 ∨ fld b 8 1 = 3 then (Config.keyUnwrap c.key (slice b 16 (credLength (fld b 8 1)))).map (fitBytes 16) else some (slice b 16 (credLength (fld b 8 1)))) = some k →
        exec (.identityProvision p) s = .next ({ u with host.ident := s.host.ident ++ [({ id := fld b 0 8, role := role, bayMask := BitVec.ofNat 8 (fld b 9 1), cred := k, fails := 0, locks := 0, lockEnd := none, clone := false } : Ident)] }.identityLevel.answer 0x0D01 p Res.ok)))
    ∧ (∀ i, Block 8 [] p = true → s.findIdent (fld b 0 8) = some i → identityRights c i.role.code i.bayMask.toNat = true →
      (Starts 0x0D02 p s = true → s.store.ro.contains 2 = false →
        let v := (u.host.sess.filter (·.identity == i.id)).foldl (fun (s : State) x => s.endSess x.handle) u
        exec (.identityRemove p) s = .next ({ v with host.ident := v.host.ident.filter (·.id != i.id) }.identityLevel.answer 0x0D02 p Res.ok))
      ∧ (Starts 0x0D03 p s = true → i.lockedAt s.time.mono = true → exec (.identityUnlock p) s
        = .next ((u.modIdent i.id fun i => { i with fails := 0, locks := 0, lockEnd := none, clone := false }).answer 0x0D03 p Res.ok))
      ∧ (Starts 0x0D03 p s = true → i.lockedAt s.time.mono = false → exec (.identityUnlock p) s = .next (u.answer 0x0D03 p (Res.err stDenied subNotLocked))))

/-- R444, R445, R449 to R454: storage. An MRAM scrub treats each word it found in error as `State.mramHit` says, against the words the scrub before
corrected; a suspended erase is resumed; STORE_STATUS reports and clears its bay's error counts; FW_STAGE erases and programs the slot that is not
active and stages the image when its signature and version pass, with EV0981 or EV0982; FW_ACTIVATE writes the boot header for a trial of it and
answers NOT_READY with no staged image; a flash operation that fails retires its sector with EV0980; an indeterminate sector is erased again after K6.
This rests on the model's own choices and readings in log 4, 5, 45. -/
def Obligations.StorageScrubsStagesAndRetires : Prop :=
  ∀ (p : Packet) (errs : List EccHit) (x : Nat) (s : State),
    let u := s.touch p
    (s.ready 6 = true → exec (.mramScrub errs) s = .next (errs.foldl (fun (u : State) e => u.mramHit s.store.lastCorrected e) { s with store.lastCorrected := [] }))
    ∧ exec .flashEraseResume s = .next { s with store.eraseSuspended := none }
    ∧ (s.kiln.ph.k6 = true → s.store.indeterminate.contains x = true → exec (.indeterminateReerase x) s = .next (s.eraseSector x))
    ∧ (s.store.flashRetired.contains x = false → s.flashUsable = true →
      let v := (s.journalAdd 0x0A 1 (sectorSize * x) sectorSize []).pulse 980
      exec (.flashOpFail x) s = .next { v with store.flashRetired := x :: v.store.flashRetired, store.eraseOpen := v.store.eraseOpen.filter (· != x), store.indeterminate := v.store.indeterminate.filter (· != x), fault.flashDirty := v.fault.flashDirty.filter (· != x), store.eraseSuspended := v.store.eraseSuspended.filter (· != x), store.fwStaged := v.store.fwStaged && !(v.store.fwStaged && (fwSectors (1 - v.store.fwActive)).contains x) })
    ∧ (∀ d : BulkDesc, Starts 0x0D20 p s = true → BulkBlock 0 8 [(4, 4)] p = true → p.desc = some d → d.kind = 0 →
      let data := fitBytes d.length p.bulk
      let v := fld p.params 0 4
      let slot := 1 - s.store.fwActive
      data.length ≤ 0x800000 → (∀ y ∈ s.store.eraseOpen, (fwSectors slot).contains y = false) → s.sectorsBad (fwSectors slot) = false →
      let e := ((fwSectors slot).foldl (fun (s : State) x => s.eraseSector x) u).programFlash (if slot = 0 then 0x10000 else 0x810000) data.length
      let w : State := { e with store.fwVersion := setSlot slot v e.store.fwVersion, store.stagedImage := data }
      exec (.fwStage p) s = .next (if Config.imageSigned v data = true ∧ w.store.minVersion ≤ v
        then (({ w with store.fwStaged := true }).pulse 981).answer 0x0D20 p (Res.ok (leBytes 1 slot ++ zeros 7))
        else (({ w with store.fwStaged := false }).pulse 982).answer 0x0D20 p (Res.err stFault 0)))
    ∧ (Starts 0x0D21 p s = true → Block 0 [] p = true → s.store.fwStaged = false → exec (.fwActivate p) s = .next (u.answer 0x0D21 p (Res.err stNotReady 0)))
    ∧ (let slot := 1 - s.store.fwActive
       Starts 0x0D21 p s = true → Block 0 [] p = true → s.store.fwStaged = true → (∀ y ∈ s.store.indeterminate, (fwSectors slot).contains y = false) → exec (.fwActivate p) s
        = .next (({ u with store.fwStaged := false, store.trialFails := 0 }.writeHeader slot true).answer 0x0D21 p (Res.ok (leBytes 1 slot ++ zeros 7))))
    ∧ (Starts 0x0D10 p s = true → Block 0 [] p = true → exec (.storeStatus p) s
      = .next ({ u with store.eccCorrected := Tbl.set 0 s.store.eccCorrected p.bay 0, store.eccUncorrected := Tbl.set 0 s.store.eccUncorrected p.bay 0 }.answer 0x0D10 p (Res.ok (s.storeRecord p.bay))))

/-- R464 to R477: the input supply. VIN at 4.3 V starts the rails; UVLO stops the device without a save unless it is saved; VIN above 18 V, near the
power-fail level, reversed, buck limits and die temperatures are noted with their level sources; VIN below the power-fail level for 10 µs, an external
PF_N low with PF_EXT, overvoltage, or 125 °C for 1 ms take the power-fail decision with its cause; the saved device restarts when the cause has
recovered for RESTART_MS; a core rail out of its window stops the device. R465 to R467, R421, R422: the islands. A supply fault of a powered island
takes it out, a retry brings it back or faults it again; ISLAND_POWER by the owner or bay 1 switches tiles and links, and is DENIED with PINNED and
EV1003 for a pinned island. This rests on the model's own choices and readings in log 5, 49, 50, 51, 55, 67. -/
def Obligations.SupplyEventsAndIslands : Prop :=
  (∀ (mv us ms : Nat) (v t : Int) (ok on : Bool) (c : PowerCause) (r : Fin 6) (b : Fin 4) (s : State),
     let w := s.power
     (w.supply = .off → 4300 ≤ mv → exec (.vinRiseUvlo mv) s = .next { s with power.supply := .rails, power.vin := mv })
     ∧ (w.supply ≠ .off → mv ≤ 4000 →
       let u : State := { s with power.vin := mv }
       let d : State := if w.supply = .saved then u else { (u.dropReports.stopped true) with power.saveOkLast := false, power.saveCutLast := false }
       exec (.uvloFall mv) s = .next { d with power.supply := .off, power.pgood := false, power.pf := false, power.railOut := 0, pins.pfN := .hiZ, pins.pgood := false })
     ∧ (s.rtc.onBattery = true → v < -1000 → 1 ≤ ms → exec (.reverseInput v ms) s = .next { s with power.reverseSeen := true, power.reversePulse := true })
     ∧ (w.supply = .running →
       exec (.vinHigh mv) s = .next ({ s with power.vin := mv, power.vinHigh := decide (18000 < mv) }.level 939 (decide (18000 < mv)))
       ∧ (let near := decide (s.pfLevel ≤ mv ∧ mv < s.pfLevel + 1000)
          exec (.vinNearPf mv) s = .next ({ s with power.vin := mv, power.vinNearPf := near }.level 938 near).resumeCopy)
       ∧ exec (.buckCurrentLimit b on) s = .next ({ s with power.buckLimit := if on then w.buckLimit ||| (1#4 <<< b.val) else w.buckLimit &&& ~~~ (1#4 <<< b.val) }.level (948 + b.val) on)
       ∧ (let a := if 105000 ≤ t then true else if t < 100000 then false else w.thermWarn
          let d := if 110000 ≤ t then true else if t < 105000 then false else w.throttle
          exec (.thermalLevel t) s = .next (({ s with power.thermWarn := a, power.throttle := d }.level 953 a).level 954 d)))
     ∧ (s.powered = true → w.pf = false →
       (10 ≤ c.us → let u : State := { s with power.vin := c.mv }
         (c.mv < s.pfLevel → exec (.powerFailDecision c ok) s = .next (u.powerFail 0 ok))
         ∧ (s.pfLevel ≤ c.mv → 19300 < c.mv → exec (.powerFailDecision c ok) s = .next (u.powerFail 2 ok)))
       ∧ (10 ≤ us → s.keyOn (kPwr 2) = true → exec (.pfNExternalLow us ok) s = .next ({ s with power.pfExtLow := true }.powerFail (if w.vin < s.pfLevel then 0 else 1) ok))
       ∧ (125000 ≤ t → 1 ≤ ms → exec (.thermalShutdown t ms ok) s = .next (s.powerFail (if w.vin < s.pfLevel then 0 else 3) ok)))
     ∧ (w.supply = .saved → s.key (kPwr 3) ≤ ms → s.recovered mv t = true → exec (.savedRestart mv t ms) s
       = .next { s with power.supply := .rails, power.vin := mv, power.pf := false, pins.pfN := .hiZ })
     ∧ (s.powered = true →
       exec (.railOutOfWindow r true) s = .next ({ s with power.railOut := w.railOut &&& ~~~ (1#6 <<< r.val) }.level (942 + r.val) false)
       ∧ (let u : State := { s with power.railOut := w.railOut ||| (1#6 <<< r.val) }
          (r.val < 4 → exec (.railOutOfWindow r false) s = .next ({ (u.dropReports.stopped false) with
             power.supply := .rails, power.pgood := false, power.pf := false, power.saveOkLast := false, power.saveCutLast := false, pins.pgood := false }.report 941 r.val))
          ∧ (r.val = 4 → s.kiln.ph.started = true → exec (.railOutOfWindow r false) s = .next (u.level (942 + r.val) true).dramStops))))
  ∧ (∀ (p : Packet) (i : Fin 96) (s : State),
       (s.kiln.ph.started = true → s.islandPowered i = true → exec (.islandSupplyFault i) s = .next (s.supplyFault i))
       ∧ (3 ≤ s.islandOf i → s.power.islandHeld.contains i.val = false → 2 ≤ s.wardensUp → (i.val < 72 → (s.tile i).st ≠ .failed) →
         exec (.islandSwitchRetry i true) s = .next (s.islandReturns i)
         ∧ exec (.islandSwitchRetry i false) s = .next ((s.setIsland i (s.islandOf i - 3)).supplyFault i))
       ∧ (let j := fld p.params 0 1
          let a := fld p.params 1 1
          let u := s.touch p
          Starts 0x0C20 p s = true → Block 8 [(2, 6)] p = true → j ≤ 95 → a ≤ 3 →
           (s.pinned j = true → exec (.islandPower p) s = .next ((u.pulse 1003 (p.bay + 256 * j)).answer 0x0C20 p (Res.err stDenied subPinned)))
           ∧ (s.pinned j = false → p.bay ≠ 1 → s.key (0x5C00 + j) ≠ p.bay → exec (.islandPower p) s = .next (u.answer 0x0C20 p (Res.err stDenied subRole)))
           ∧ (s.pinned j = false → (p.bay = 1 ∨ s.key (0x5C00 + j) = p.bay) →
             let v := if j < 72 then u.tilePower j a else u.linkPower j a
             exec (.islandPower p) s = .next (v.answer 0x0C20 p (Res.ok (leBytes 1 (v.islandState j) ++ zeros 7))))))

/-- R478 to R484, R487: bring-up from the rails to the courses. PGOOD or a RESET_N release begins K1; at K2 fewer than two wardens, an unreadable fuse
block or no bootable slot halts the kiln (F4 0x0D for the wardens), and otherwise the cores, the flash and the slot give K1's end; the test window is
watched every 1 ms, lost by a bad check (K3 and the clocks then wait), held again by ten good checks in a row and F4 0x0A after 500 checks without it;
K3 records K2's results, places sample index 0, and in a device that meters drives the contactors and the pulse outputs; 640 sample indices later the
courses' master clocks and the detectors start, and every enabled point's creep begins with its first boundary. In a device that does not meter
(RELAY) neither outputs nor courses start. This rests on the model's own choices and readings in log 2, 5, 52, 72. -/
def Obligations.BringUpRunsFromRailsToCourses : Prop :=
  ∀ (mode : Fin 4) (low : Nat) (r : K1Result) (q : K2Result) (w : WindowCheck) (s : State),
    let up := fun (i : Nat) => r.wardens.getD i false
    let held := (List.range 3).filter up
    let cores : State := (s.k1Cores r).setReady 0 true
    let fused : State := { cores with aux.fac := fusedFactors }
    let boot := (fused.k1Flash r.flash).bootSlot r.slotOk
    (s.power.supply = .rails → s.power.railOut = 0 →
      let u : State := { s with power.supply := .running, power.pgood := true, pins.pgood := true }
      (s.power.resetLow = true → exec (.pgoodRise mode) s = .next u)
      ∧ (s.power.resetLow = false → exec (.pgoodRise mode) s = .next (u.startKiln mode false)))
    ∧ (10 ≤ low → s.power.supply = .running → exec (.resetNAssert low) s
      = .next { (s.dropReports.stopped false) with power.resetLow := true, power.supply := .running, power.pgood := true, pins.pgood := true, power.saveOkLast := false, power.saveCutLast := false, power.saveCause := 0 })
    ∧ (s.power.resetLow = true → s.power.supply = .running → s.power.pgood = true → s.kiln.ph.started = false →
      exec (.resetNRelease mode) s = .next (State.startKiln { s with power.resetLow := false } mode true))
    ∧ (s.kiln.ph.started = true → s.kiln.halted = false → s.kiln.ph.k2Open = false →
      (held.length < 2 → exec (.kilnK2Start r) s = .next (State.enterF4 { s with kiln.wardens := BitVec.ofNat 3 (bitsNat ((List.range 3).map up)) } 0x0D).haltKiln)
      ∧ (2 ≤ held.length → r.fuseOk = false → exec (.kilnK2Start r) s = .next cores.haltKiln)
      ∧ (2 ≤ held.length → r.fuseOk = true →
        (boot.2 = none → exec (.kilnK2Start r) s = .next boot.1.haltKiln)
        ∧ (∀ slot, boot.2 = some slot → exec (.kilnK2Start r) s = .next (boot.1.endK1 slot r.us))))
    ∧ (s.kiln.ph.k2Open = true → s.kiln.mclkOn = false → s.kiln.halted = false →
      let rc := s.time.rtcOscFault
      let good := windowHolds w rc
      let u : State := { s with kiln.refRc := s.kiln.refRc || rc }
      let n := s.kiln.winChecks + 1
      (s.kiln.winLost = false → good = true → exec (.testWindowCheck w) s = .next u)
      ∧ (s.kiln.winLost = false → good = false → exec (.testWindowCheck w) s = .next { u with kiln.winLost := true, kiln.windowWait := true, kiln.winRun := 0, kiln.winChecks := 1 })
      ∧ (s.kiln.winLost = true → good = true → 9 ≤ s.kiln.winRun → exec (.testWindowCheck w) s = .next (State.leaveF4 { u with kiln.winLost := false, kiln.winRun := 0, kiln.winChecks := 0 }))
      ∧ (s.kiln.winLost = true → good = true → s.kiln.winRun < 9 → n < 500 → exec (.testWindowCheck w) s = .next { u with kiln.winRun := s.kiln.winRun + 1, kiln.winChecks := n })
      ∧ (s.kiln.winLost = true → good = false → n < 500 → exec (.testWindowCheck w) s = .next { u with kiln.winRun := 0, kiln.winChecks := n })
      ∧ (s.kiln.winLost = true → (good = true → s.kiln.winRun < 9) → 500 ≤ n → s.fault.f4 = false → exec (.testWindowCheck w) s
        = .next (State.enterF4 { u with kiln.winRun := if good then s.kiln.winRun + 1 else 0, kiln.winChecks := n } 0x0A true)))
    ∧ (s.kiln.winLost = true → exec (.kilnK3K4Start q) s = .next s ∧ exec .courseMclkStart s = .next s)
    ∧ (s.kiln.ph.k2Open = true → s.kiln.ph.k3Open = false → s.kiln.halted = false → s.kiln.winLost = false →
      let u := ((s.k2Results q).placeIndex.frontTests q.frontFail q.footFail).openK3.regrid
      (u.meters = false → exec (.kilnK3K4Start q) s = .next u.startAcb)
      ∧ (u.meters = true →
        let o : State := if q.sealOk then (u.setReady 22 true).setReady 23 true else u
        let c := (List.range 16).foldl (fun (s : State) m => s.driveContactor m) o
        exec (.kilnK3K4Start q) s = .next ((List.range 16).foldl (fun (s : State) p => s.drivePulse p false) c).startAcb))
    ∧ (s.kiln.ph.k3Open = true → s.kiln.mclkOn = false → s.kiln.winLost = false → 640 ≤ s.time.index →
      let u : State := { s with kiln.mclkOn := true }
      (s.meters = false → exec .courseMclkStart s = .next u.k3Check)
      ∧ (s.meters = true →
        let c := (enabledCourses u).foldl (fun (s : State) k => (s.startCourse k false).flickerCourse k) u
        let d := (enabledVsets c.cfg.active).foldl (fun (s : State) v => s.startDetector v) c
        exec .courseMclkStart s = .next (State.k3Check { d with metro.creepFrom := enabledMps d.cfg.active })))

/-- R485, R486, R488 to R491, R441, R355: the self-tests and the end of bring-up. A tile group's test fails its tiles, adds its repairs and opens the next
group, the ninth completing K4; K5 trains the DRAM (a failure completes K5 with F2) and tests its slices in order, the last completing K5 and a pass
needing no more than 1,024 repaired rows in all; the scrub treats each error it finds; K6 releases the held reports and starts the links, and
completes when its functions are ready; DIAG_BIST_REPORT answers the report. This rests on the model's own choices and readings in log 3, 5, 52. -/
def Obligations.SelfTestsFinishBringUp : Prop :=
  ∀ (g : Fin 9) (fails : List (Fin 72)) (reps : List BistEntry) (i : Fin 56) (rows us : Nat) (pass : Bool) (errs : List EccHit) (p : Packet) (s : State),
    (s.kiln.ph.k3Open = true → s.kiln.bistGroup = g.val →
      (g.val < 8 → exec (.tileBistGroupEnd g fails reps) s = .next (s.tileGroupTested g.val fails reps))
      ∧ (g.val = 8 → exec (.tileBistGroupEnd g fails reps) s = .next (s.tileGroupTested g.val fails reps).endK4))
    ∧ (s.kiln.ph.k4 = true → s.kiln.ph.k5Open = false → exec .kilnK5Start s = .next { s with kiln.ph.k5Open := true })
    ∧ (s.kiln.ph.k5Open = true → s.kiln.ph.dramTrained = false → s.kiln.ph.k5 = false →
      exec (.dramTrainingDone true) s = .next (State.setReady { s with kiln.ph.dramTrained := true } 24 true)
      ∧ (let x := s.draw
         let e : BistEntry := { memory := 1, unit := 0, outcome := 3, bit := x.1 % 72, address := x.1 / 72 % 2 ^ 32, phase := 5, kind := x.1 % 3 }
         exec (.dramTrainingDone false) s = .next ((State.bist { x.2 with kiln.ph.k5 := true } [e]).f2 0)))
    ∧ (s.kiln.ph.dramTrained = true → s.kiln.slicesTested = i.val →
      let t := s.sliceEnd i rows (pass && decide (s.kiln.dramRows + rows ≤ 1024)) reps
      (i.val < 55 → exec (.dramSliceDone i rows pass reps) s = .next t)
      ∧ (i.val = 55 → exec (.dramSliceDone i rows pass reps) s = .next t.endK5))
    ∧ (s.kiln.ph.dramTrained = true → s.kiln.ph.k5 = true →
      exec (.dramScrub errs) s = .next (errs.foldl (fun (t : State) e => t.dramHit s.store.dramCorrected e) { s with store.dramCorrected := [] }))
    ∧ (s.kiln.ph.k4 = true → s.kiln.ph.k6Open = false →
      exec .kilnK6Start s = .next (State.confirmTrial (State.releaseHeld6 { s with kiln.ph.k6Open := true })).startLinks)
    ∧ (s.kiln.ph.k6Open = true → s.kiln.ph.k6 = false → s.k6Done us = true →
      exec (.kilnComplete us) s = .next { s with kiln.ph.k6 := true, kiln.doneUs := Tbl.set 0 s.kiln.doneUs 6 us })
    ∧ (Starts 0x0E01 p s = true → Block 0 [] p = true →
      exec (.diagBistReport p) s = .next ((s.touch p).answer 0x0E01 p (Res.ok (s.touch p).bistReport)))

/-- R494 to R499, R510: core faults. A lockstep mismatch or 10 ms without the heartbeat of a pair in use decides F3 with its cause, halting the cores with
a dump unless one is being written, and F4 0x0B when it is the third within the hour; a warden without heartbeats is reset by the two others, and is
F4 0x07 without them; a warden reset gives EV1012 and keeps the warden unless its test fails or it is the third within an hour; a seal-core mismatch
restarts the seal core under F2 0x05 when it is the first within an hour and two wardens are up, and is F4 0x0C when a second; the restart's end gives
EV1014. R500 to R504, R419, R420: the F3 restart and the dumps. Once the dump is written the pairs start; with neither pair it is F4 0x08, otherwise
F3 ends, F3_COUNT counts, EV1010 gives the cause, EV1016 the dump, and the flash copy is ordered; the flash copy's end makes it valid with EV1016;
dirty sectors are erased one after another; DIAG_DUMP_READ returns the dump's bytes and suspends an erase for a read of the flash; DIAG_DUMP_CLEAR
drops the DRAM dump, or the flash dump with the erase of its sectors; SERVICE_FUSE_READ and SERVICE_TRACE act. This rests on the model's own choices
and readings in log 5, 53, 54. -/
def Obligations.FaultsAndDumps : Prop :=
  (∀ (pair : Fin 2) (cause : Fin 3) (ms : Nat) (w : Fin 3) (pass : Bool) (s : State),
     let able := fun (x : Nat) => !s.fault.wardenOut.getLsbD x && !s.fault.wardenReset.getLsbD x
     (s.kiln.ph.k1 = true → s.kiln.halted = false → s.fault.f4 = false → s.fault.f3 = none → 2 ≤ s.wardensUp → s.fault.pairOk.getLsbD pair = true →
       let recent := s.fault.f3Times.filter s.withinHour
       let t : State := { s with fault.f3Times := (s.time.ns, s.time.index) :: recent }
       let third := fun (n : Nat) => (t.setCause n).enterF4 0x0B
       let v := fun (n : Nat) => (t.setCause n).dropTenants
       let halt := fun (n : Nat) => ({ v n with fault.f3 := some n, fault.f3Halted := true } : State)
       let dump := fun (n : Nat) => ({ v n with fault.f3 := some n, fault.f3Halted := true, fault.f3Dump := some ((v n).newDump 3 n (!(t.ready 24 && t.kiln.slices.getLsbD 55))), fault.dumpSeq := (v n).fault.dumpSeq + 1, fault.dumpBusy := true } : State)
       let n := if cause = 0 then 1 else if cause = 1 then 3 else 4
       (2 ≤ recent.length → exec (.ccLockstepMismatch pair cause) s = .next (third n) ∧ (10 ≤ ms → exec (.ccHeartbeatMissing pair ms) s = .next (third 2)))
       ∧ (recent.length < 2 → (v n).fault.dumpBusy = true → exec (.ccLockstepMismatch pair cause) s = .next (halt n))
       ∧ (recent.length < 2 → (v n).fault.dumpBusy = false → exec (.ccLockstepMismatch pair cause) s = .next (dump n))
       ∧ (recent.length < 2 → 10 ≤ ms → (v 2).fault.dumpBusy = true → exec (.ccHeartbeatMissing pair ms) s = .next (halt 2))
       ∧ (recent.length < 2 → 10 ≤ ms → (v 2).fault.dumpBusy = false → exec (.ccHeartbeatMissing pair ms) s = .next (dump 2)))
     ∧ (s.kiln.ph.started = true → able w = true →
       let others := ((List.range 3).filter fun x => x != w.val && able x).length
       (others = 2 → exec (.wardenHeartbeatMissing w) s = .next { s with fault.wardenReset := s.fault.wardenReset ||| (1#3 <<< w.val) })
       ∧ (others ≠ 2 → exec (.wardenHeartbeatMissing w) s = .next (s.enterF4 0x07)))
     ∧ (s.fault.wardenReset.getLsbD w = true →
       let old := s.fault.wardenTimes.filter fun x => s.withinHour x.2
       let n := (old.filter fun x => x.1 == w.val).length + 1
       let u : State := { s with fault.wardenReset := s.fault.wardenReset &&& ~~~ (1#3 <<< w.val), fault.wardenTimes := (w.val, s.time.ns, s.time.index) :: old }
       (pass = true → n < 3 → exec (.wardenResetDone w pass) s = .next (u.pulse 1012 w))
       ∧ (pass = false ∨ 3 ≤ n → exec (.wardenResetDone w pass) s = .next ((u.pulse 1012 w).wardenLost w)))
     ∧ (s.fault.sealOk = true →
       let recent := s.fault.sealTimes.filter s.withinHour
       let u : State := { s with fault.sealOk := false, fault.sealTimes := (s.time.ns, s.time.index) :: recent }
       (recent = [] → s.wardensUp < 2 → exec .sealLockstepMismatch s = .next u.f4Outputs)
       ∧ (recent = [] → 2 ≤ s.wardensUp → exec .sealLockstepMismatch s = .next ((State.endBaySessions { u with fault.sealRestart := true } 0).f2 0x05))
       ∧ (recent ≠ [] → exec .sealLockstepMismatch s = .next (u.enterF4 0x0C).f4Outputs))
     ∧ (s.fault.sealRestart = true →
       exec .sealRestartDone s = .next (State.pulse { s with fault.sealRestart := false, fault.sealOk := true } 1014)))
  ∧ (∀ (ok : List Bool) (sector : Nat) (p : Packet) (s : State),
       (s.fault.f3.isSome = true → exec .f3DumpWritten s = .next { s with fault.f3Written := true })
       ∧ (∀ cause, s.fault.f3 = some cause → s.fault.f3Written = true →
         let u := (s.asidePairs ok).f3Stored
         let v : State := { u with fault.f3 := none, fault.f3Halted := false, fault.f3Dump := none, fault.f3Written := false, fault.dumpBusy := u.fault.flashCopy.isSome }
         let x := (v.modAllWin fun w => { w with f3Count := min 255 (w.f3Count + 1) }).pulse 1010 cause
         (u.fault.pairOk = 0 → exec (.f3PairsRunning ok) s = .next (u.enterF4 0x08))
         ∧ (u.fault.pairOk ≠ 0 → s.fault.f3Dump = none → exec (.f3PairsRunning ok) s = .next x)
         ∧ (∀ d, u.fault.pairOk ≠ 0 → s.fault.f3Dump = some d →
           (d.flashOnly = false → exec (.f3PairsRunning ok) s = .next ((x.pulse 1016 (d.total * 2 ^ 32)).orderCopy d))
           ∧ (d.flashOnly = true → exec (.f3PairsRunning ok) s = .next (x.orderCopy d))))
       ∧ (∀ d, s.fault.flashCopy = some d → exec .flashDumpCopyDone s
         = .next ((State.programFlash { s with fault.flash := some d, fault.flashCopy := none, fault.dumpBusy := false } 0x04000000 d.total).pulse 1016 (1 + d.total * 2 ^ 32)))
       ∧ (s.fault.flashDirty.contains sector = true → s.flashUsable = true → s.store.eraseSuspended ≠ some sector →
         (s.store.eraseOpen.contains sector = true →
           let e := s.endErase sector
           let rest := e.fault.flashDirty.filter (· != sector)
           let u : State := { e with fault.flashDirty := rest }
           (rest = [] → exec (.dumpPartitionErase sector) s = .next u)
           ∧ (∀ x l, rest = x :: l → exec (.dumpPartitionErase sector) s = .next (u.startErase x)))
         ∧ (s.store.eraseOpen.contains sector = false → s.kiln.ph.k6 = true →
           let e := s.eraseSector sector
           exec (.dumpPartitionErase sector) s = .next { e with fault.flashDirty := s.fault.flashDirty.filter (· != sector) }))
       ∧ (let u := s.touch p
          let b := p.inline
          let len := fld b 4 4
          let ofs := fld b 8 4
          let give := fun (d : Dump) (v : State) => v.answer 0x0E10 p (dumpAnswer p ((List.range len).map fun i => d.byteFor p.bay (ofs + i)))
          Starts 0x0E10 p s = true → (p.isBulk = true → descOk (some 1) p = true) → b.length = 16 → allZero b 1 3 = true → allZero b 12 4 = true →
          len % 8 = 0 → len ≤ dumpRoom p → ofs % 8 = 0 → u.fault.dumpBusy = false →
           (∀ d, fld b 0 1 = 0 → u.fault.dram = some d → ofs < d.total → ofs + len ≤ d.total → exec (.diagDumpRead p) s = .next (give d u))
           ∧ (∀ d, fld b 0 1 = 1 → u.fault.flash = some d → ofs < d.total → ofs + len ≤ d.total →
             exec (.diagDumpRead p) s = .next (give d (if u.store.eraseOpen = [] then u else { u with store.eraseSuspended := u.store.eraseOpen.head? }))))
       ∧ (let u := s.touch p
          Starts 0x0E11 p s = true → Block 8 [(1, 7)] p = true → u.fault.dumpBusy = false →
           (fld p.params 0 1 = 0 → exec (.diagDumpClear p) s = .next (State.answer { u with fault.dram := none } 0x0E11 p Res.ok))
           ∧ (fld p.params 0 1 = 1 →
             (u.fault.flash = none → exec (.diagDumpClear p) s = .next (u.answer 0x0E11 p Res.ok))
             ∧ (∀ d x l, u.fault.flash = some d → u.dumpSpan d = x :: l →
               exec (.diagDumpClear p) s = .next ((State.startErase { u with fault.flash := none, fault.flashDirty := x :: l } x).answer 0x0E11 p Res.ok))))
       ∧ (Starts 0x0F01 p s = true → Block 0 [] p = true →
         exec (.serviceFuseRead p) s = .next ((s.touch p).answer 0x0F01 p (Res.ok ((List.range 256).map Config.fuseByte))))
       ∧ (Starts 0x0F02 p s = true → Block 8 [(1, 7)] p = true → fld p.params 0 1 ≤ 1 →
         exec (.serviceTrace p) s = .next (State.answer { s.touch p with host.trace := fld p.params 0 1 == 1 } 0x0F02 p Res.ok)))

/-- R5, R224, R536, R537, R543: reads of the window. A read gives the register's word; an RC field clears for the reading function alone; the low word of
a 64-bit register latches its high word for the reader, SYSTEM_TIME latches SAMPLE_INDEX with it, and RTC_SEC all counting registers; an SPI read
gives its words as they are together (the RTC registers as running when it covers RTC_SEC, else as latched), then their CRC-16, and then clears and
latches what it covered. R5, R226, R229, R502, R536, R539 to R543: writes of the window. In F4, or before the window is served, every write is
discarded; otherwise HALT and RELEASE (which makes a step of the system time due at the next boundary), the counting registers and the trim of the RTC
act under their conditions, or set WRITE_REJ; AV_CTL latches; a write of a function's queue pair, of its event flags and of its MSI-X table acts on
that function, SUPPLY_STATUS.REVERSE_SEEN clears under the rule of the RTC block, every other offset takes nothing; an SPI write with the right
length, CRC and range writes its words in ascending order, and one with a wrong length or CRC counts in WRITE_CRC. This rests on the model's own
choices and readings in log 26, 34, 56. -/
def Obligations.WindowReadsAndWrites : Prop :=
  (∀ (f : Fin 8) (off addr count : Nat) (s : State),
     (s.windowOn f = true →
       exec (.regRcRead f off) s = .next (State.clearRc { s with win.data := [BitVec.ofNat 32 (s.regWord f off false)] } f off)
       ∧ (s.wide f off = none → exec (.regLowWordRead f off) s = .next { s with win.data := [BitVec.ofNat 32 (s.regWord f off false)] })
       ∧ (∀ v, s.wide f off = some v → off ≠ 0x048 → off ≠ 0x050 → exec (.regLowWordRead f off) s
         = .next (State.modWin { s with win.data := [BitVec.ofNat 32 (s.regWord f off false)] } f fun w => { w with latch := Tbl.set 0 w.latch (off + 4) (v / 2 ^ 32) }))
       ∧ exec (.systemTimeRead f) s = .next (State.modWin { s with win.data := [BitVec.ofNat 32 (s.nowNs % 2 ^ 32)] } f fun w =>
           { w with latch := Tbl.set 0 (Tbl.set 0 (Tbl.set 0 w.latch 0x04C (s.nowNs / 2 ^ 32)) 0x050 (s.time.index % 2 ^ 32)) 0x054 (s.time.index / 2 ^ 32) })
       ∧ exec (.rtcSecRead f) s = .next (State.modWin { s with win.data := [BitVec.ofNat 32 s.rtc.sec] } f fun w =>
           { w with rtc := [s.rtc.sec, s.rtc.min, s.rtc.hour, s.rtc.wday, s.rtc.day, s.rtc.month, s.rtc.year, s.rtc.cent] }))
     ∧ (let u := s.spiFirst
        let offs := (List.range count).map fun i => addr + 4 * i
        let ws := offs.map fun o => if 0x1000 ≤ o ∧ o < 0x1020 then u.rtcWord 7 (o - 0x1000) (offs.contains 0x1000) else u.regWord 7 o true
        let bs := ws.flatMap (leBytes 4)
        u.windowOn 7 = true → addr % 4 = 0 → 1 ≤ count → count ≤ 64 →
         exec (.spiRegRead addr count) s = .next (offs.foldl (fun (s : State) o => if o = 0x1000 then s.rtcLatch 7 else s.clearRc 7 o)
           { u with win.data := ws.map (BitVec.ofNat 32), win.spiOut := bs ++ leBytes 2 (crc16 bs).toNat })))
  ∧ (∀ (f : Fin 8) (reg : Fin 8) (off : Nat) (v : BitVec 32) (bytes : Bytes) (s : State),
       (s.windowOn f = false ∨ s.fault.f4 = true →
         exec (.rtcHalt f) s = .next s ∧ exec (.rtcRelease f) s = .next s ∧ exec (.rtcCounterWrite f reg v) s = .next s
         ∧ exec (.rtcTrimWrite f v) s = .next s ∧ exec (.avLatch f) s = .next s ∧ exec (.regWritePlain f off v) s = .next s)
       ∧ (s.windowOn f = true → s.fault.f4 = false →
         (s.rtcFn f = true → s.rtcHostWrite = true →
           exec (.rtcHalt f) s = .next { s with rtc.halt := true, rtc.halted := true, rtc.rtcValid := false }
           ∧ (s.rtc.halted = true → s.rtc.dateOk = false → exec (.rtcRelease f) s = .next { s with rtc.halt := false, rtc.badDate := true })
           ∧ (s.rtc.halted = true → s.rtc.dateOk = true →
             let u : State := { s with rtc := { s.rtc.setWday with halt := false, halted := false, rtcValid := true, prescaler := 0, rewrite := false } }
             exec (.rtcRelease f) s = .next (u.stepDue (((u.rtc.toSec : Int) + s.time.utcOfs) * second - s.nowNs) 4 (if f.val = 7 then s.key (kUdp 2) else f.val + 1)))
           ∧ (s.rtc.halted = true →
             (reg = 0 → exec (.rtcCounterWrite f reg v) s = .next { s with rtc.sec := v.toNat % 256 })
             ∧ (reg = 1 → exec (.rtcCounterWrite f reg v) s = .next { s with rtc.min := v.toNat % 256 })
             ∧ (reg = 2 → exec (.rtcCounterWrite f reg v) s = .next { s with rtc.hour := v.toNat % 256 })
             ∧ (reg = 3 → exec (.rtcCounterWrite f reg v) s = .next s)
             ∧ (reg = 4 → exec (.rtcCounterWrite f reg v) s = .next { s with rtc.day := v.toNat % 256 })
             ∧ (reg = 5 → exec (.rtcCounterWrite f reg v) s = .next { s with rtc.month := v.toNat % 256 })
             ∧ (reg = 6 → exec (.rtcCounterWrite f reg v) s = .next { s with rtc.year := v.toNat % 256 })
             ∧ (reg = 7 → exec (.rtcCounterWrite f reg v) s = .next { s with rtc.cent := v.toNat % 256 })))
         ∧ (s.rtcFn f = false ∨ s.rtcHostWrite = false → exec (.rtcHalt f) s = .next s.rtcReject ∧ exec (.rtcRelease f) s = .next s.rtcReject
           ∧ exec (.rtcCounterWrite f reg v) s = .next s.rtcReject)
         ∧ (s.rtcFn f = false ∨ s.keyOn (kTime 0x0A) = true ∨ s.keyOn (kTime 0x0C) = false → exec (.rtcTrimWrite f v) s = .next s.rtcReject)
         ∧ (s.rtcFn f = true → s.keyOn (kTime 0x0A) = false → s.keyOn (kTime 0x0C) = true →
           exec (.rtcTrimWrite f v) s = .next { s with rtc.trim := signedOf 16 v.toNat })
         ∧ exec (.avLatch f) s = .next (s.modWin f fun w => { w with avPending := true })
         ∧ (off % 4 = 0 →
           (0x1000 ≤ off → off < 0x2000 → exec (.regWritePlain f off v) s = .next (s.rtcWrite f (off - 0x1000) v))
           ∧ (off = 0x060 → s.rtcFn f = true → v.getLsbD 9 = true → exec (.regWritePlain f off v) s = .next { s with power.reverseSeen := false })
           ∧ (∀ h : f.val < 7, 0x2000 ≤ off → off < 0x2400 → exec (.regWritePlain f off v) s
             = .next (s.qpWrite ⟨f.val, h⟩ (Fin.ofNat 16 ((off - 0x2000) / 0x40)) ((off - 0x2000) % 0x40) v))
           ∧ (f.val < 7 → off = 0x3000 → exec (.regWritePlain f off v) s
             = .next (s.modEv (f.val + 1) fun e => { e with dropped := e.dropped && !v.getLsbD 30, resetDone := e.resetDone && !v.getLsbD 31 }))
           ∧ (f.val < 7 → 0x8000 ≤ off → off < 0x8400 → exec (.regWritePlain f off v) s = .next (s.msixWrite f ((off - 0x8000) / 4) v))
           ∧ (off < 0x1000 → off ≠ 0x060 → off ≠ 0x0C0 → exec (.regWritePlain f off v) s = .next s)))
       ∧ (let u := s.spiFirst
          let addr := fld bytes 0 2
          let count := fld bytes 2 1
          let sealed := bytes.length = 3 + 4 * count + 2 ∧ fld bytes (3 + 4 * count) 2 = (crc16 (bytes.take (3 + 4 * count))).toNat
          u.windowOn 7 = true → u.fault.f4 = false →
           (sealed → addr % 4 = 0 → 1 ≤ count → count ≤ 64 → exec (.spiRegWrite bytes) s
             = .next ((List.range count).foldl (fun (s : State) i => s.regWrite 7 (addr + 4 * i) (BitVec.ofNat 32 (fld bytes (3 + 4 * i) 4))) u))
           ∧ (¬ sealed → exec (.spiRegWrite bytes) s = .next { u with win.writeCrc := min 65535 (u.win.writeCrc + 1) })))

/-- R14: a command that passes the checks before it and addresses a function the running role leaves idle gets DENIED / ROLE_IDLE whatever its body and
whatever is ready, and executes nothing: the reply is all it does (a host's broadcast goes on to the other devices besides, R382); waiting for its
queue or NOT_READY do not come first. -/
def Obligations.IdleFunctionsAreDeniedRoleIdle : Prop :=
  ∀ (code : Nat) (body : Body) (p : Packet) (c : Card) (s : State), s.serving = true →
    waitsHere code p (s.queueOf (queueId p.bay p.queue)) = none →
    p.crc = p.crcOf code → (p.transport.isUdp = true → p.gcmOk = true) → p.version = 1 → p.paramLen % 8 = 0 → p.paramLen ≤ paramLimit p →
    p.paramLen = p.params.length → p.flags.toNat < 32 → p.reserved = 0 → p.tagged = mustTag code p → p.bay ≤ 7 → p.queue ≤ 15 →
    TargetHere p s = true → card code = some c → replayOf p s = none → tagStale p s = false →
    bayPermitted code p s = true → sessionCheck code p s = none → c.may p.bay (s.ctx p).role = true →
    c.idle s.kiln.role = true →
    let r := Res.err stDenied subRoleIdle
    command code body p s = (s.broadcast code p (.refuse r)).answer code p r
      ∧ (HostBroadcast p = false → command code body p s = s.answer code p r)

/-- R245: while VALID = 0, TARIFF_ACTIVATE with ACT_TIME ≠ 0 and BILL_RESET with AT_TIME ≠ 0 return NOT_READY and change nothing; their immediate forms
are accepted: the command begins and holds its reply until the next sample boundary, where it acts. -/
def Obligations.DatedBillingNeedsValidTime : Prop :=
  ∀ (p : Packet) (s : State), s.time.valid = false → Block 16 [(8, 8)] p = true →
    (Starts 0x0711 p s = true →
      (fld p.params 0 8 ≠ 0 → exec (.tariffActivate p) s = .next ((s.touch p).answer 0x0711 p (Res.err stNotReady 0)))
      ∧ (fld p.params 0 8 = 0 → exec (.tariffActivate p) s = .next ((s.touch p).setBusy (queueId p.bay p.queue) (some ⟨⟨0x0711, p, s.time.mono⟩, .billNow⟩))))
    ∧ (Starts 0x0720 p s = true →
      (fld p.params 0 8 ≠ 0 → exec (.billReset p) s = .next ((s.touch p).answer 0x0720 p (Res.err stNotReady 0)))
      ∧ (fld p.params 0 8 = 0 → exec (.billReset p) s = .next ((s.touch p).setBusy (queueId p.bay p.queue) (some ⟨⟨0x0720, p, s.time.mono⟩, .billNow⟩))))

/-- R97: when in the shadow set a monitor is enabled without its voltage set, or INT_LEVEL + HYST ≥ DIP_LEVEL, or DIP_LEVEL + HYST ≥ SWELL_LEVEL − HYST,
or RVC_HYST ≥ RVC_LEVEL, a CFG_SWAP that passes every check before returns BAD_PARAM and the active set stays in force, no swap armed. -/
def Obligations.PowerQualityLevelsBarTheSwap : Prop :=
  ∀ (p : Packet) (v : Nat) (s : State),
    let b := fld p.params 0 1
    let sh := s.cfg.shadow
    let g := fun i => sh.get (kPq v i)
    Starts 0x0110 p s = true → Block 16 [(2, 2)] p = true → b ≤ 3 → fld p.params 1 1 ≤ 7 → (b ≠ 1 → fld p.params 1 1 = 0) →
    (b ≠ 3 → fld p.params 8 8 = 0) → (s.cfg.active.differ sh isLegalKey = true → b0Legal p.bay ((s.touch p).ctx p).role = true) →
    s.cfg.pend = none → s.cfgReadOnly = false → fld p.params 4 4 = sh.gen → (b = 3 → s.time.valid = true ∧ s.nowNs < fld p.params 8 8) →
    (b = 1 → vsEnabled s.cfg.active (fld p.params 1 1) = true) → v < 8 →
    (g 0 = 1 ∧ vsEnabled sh v = false ∨ g 4 + g 5 ≥ g 2 ∨ g 2 + g 5 + g 5 ≥ g 3 ∨ g 7 ≥ g 6) →
    let u : State := { s.touch p with cfg.lastCheckKey := s.firstFail sh }
    exec (.cfgSwap p) s = .next (u.answer 0x0110 p (Res.field 0))
      ∧ (u.answer 0x0110 p (Res.field 0)).cfg.active = s.cfg.active ∧ (u.answer 0x0110 p (Res.field 0)).cfg.pend = none
end

