-- ==== Sys2Proof/Laws/Commands.lean ====
section
/-! SUPPORT. What the command path does, once for every opcode: a command that starts runs its body and answers. -/

namespace Sys2Proof.Machine

/-- How a started command ends: with its reply, or holding its queue. -/
def finish (code : Nat) (p : Packet) (stamp : Nat) : State × Done → State
  | (s', .reply r) => s'.answer code p r
  | (s', .hold k) => s'.setBusy (queueId p.bay p.queue) (some ⟨⟨code, p, stamp⟩, k⟩)
  | (s', .silent) => s'

theorem execNow_passed {code : Nat} {body : Body} {p : Packet} {stamp : Nat} {s : State}
    (h1 : startCheck code p stamp s = none) (h2 : bcRefused code p = false) (h3 : sealFault code p s = false) :
    execNow code body p stamp s = finish code p stamp (body (s.ctx p) p s) := by
  unfold execNow
  rw [h1]
  simp only [h2, h3]
  rcases body (s.ctx p) p s with ⟨s', r | k | _⟩ <;> rfl

/-- Only a host's broadcast goes to other devices. -/
theorem broadcast_own {code : Nat} {p : Packet} {s : State} {i : Ing} (h : HostBroadcast p = false) : s.broadcast code p i = s := by
  unfold HostBroadcast at h
  unfold State.broadcast
  cases i <;> simp only
  all_goals
    split at h <;> rename_i q <;> try simp only [q]
    all_goals first
      | rfl
      | (split
         · simp_all
         · rfl)

theorem waitsHere_empty (code : Nat) (p : Packet) : waitsHere code p [] = none := by
  unfold waitsHere; split <;> rfl

/-- A command that starts runs its body on the state after acceptance. -/
theorem command_starts {code : Nat} {body : Body} {p : Packet} {s : State} (h : Starts code p s = true) :
    command code body p s
      = finish code p s.time.mono (body ((s.touch p).ctx p) p (s.touch p)) := by
  simp only [Starts, Bool.and_eq_true, Bool.not_eq_true', List.isEmpty_iff, Option.isNone_iff_eq_none] at h
  obtain ⟨⟨⟨⟨⟨⟨⟨h0, h1⟩, h2⟩, h3⟩, h4⟩, h5⟩, h6⟩, h7⟩ := h
  have hq : ((s.touch p).queueOf (queueId p.bay p.queue)) = [] := h2
  have ha : ingress code p s = .accept := by
    unfold Taken at h3; split at h3
    · assumption
    · cases h3
  unfold command
  simp only [h1, h2, waitsHere_empty, Bool.not_true, Bool.false_eq_true, if_false]
  unfold arrive
  simp only [ha, broadcast_own h0]
  unfold takeIn
  have hm : (s.touch p).time.mono = s.time.mono := rfl
  simp only [hm, hq, h4, List.isEmpty_nil, Bool.and_true, if_true, execNow_passed h5 h6 h7, ite_self]

theorem fixedBody_block {n : Nat} {res : List (Nat × Nat)} {f : Body} {c : Ctx} {p : Packet} {s : State}
    (h : Block n res p = true) : fixedBody n res f c p s = f c p s := by
  simp only [Block, Bool.and_eq_true, Bool.not_eq_true', beq_iff_eq, List.all_eq_true] at h
  obtain ⟨⟨h1, h2⟩, h3⟩ := h
  have h4 : res.find? (fun r => !allZero p.params r.1 r.2) = none := by
    rw [List.find?_eq_none]; intro x hx; simp [h3 x hx]
  simp only [fixedBody, h1, h2, h4]
  simp

theorem bulkOutBody_block {n : Nat} {res : List (Nat × Nat)} {f : Body} {c : Ctx} {p : Packet} {s : State}
    (h : BulkBlock 1 n res p = true) : bulkOutBody n res f c p s = f c p s := by
  simp only [BulkBlock, Bool.and_eq_true, beq_iff_eq, List.all_eq_true] at h
  obtain ⟨⟨h1, h2⟩, h3⟩ := h
  have h4 : res.find? (fun r => !allZero p.params r.1 r.2) = none := by
    rw [List.find?_eq_none]; intro x hx; simp [h3 x hx]
  simp only [bulkOutBody, h1, h2, h4]
  simp

/-- A fixed-block command that starts: its body's end. -/
theorem command_fixed {code n : Nat} {res : List (Nat × Nat)} {f : Body} {p : Packet} {s : State}
    (h : Starts code p s = true) (hb : Block n res p = true) :
    command code (fixedBody n res f) p s
      = finish code p s.time.mono (f ((s.touch p).ctx p) p (s.touch p)) := by
  rw [command_starts h, fixedBody_block hb]

/-- A command with a DIR 1 descriptor that starts: its body's end. -/
theorem command_bulkOut {code n : Nat} {res : List (Nat × Nat)} {f : Body} {p : Packet} {s : State}
    (h : Starts code p s = true) (hb : BulkBlock 1 n res p = true) :
    command code (bulkOutBody n res f) p s
      = finish code p s.time.mono (f ((s.touch p).ctx p) p (s.touch p)) := by
  rw [command_starts h, bulkOutBody_block hb]

theorem ctx_bay (s : State) (p : Packet) : (s.ctx p).bay = p.bay := by unfold State.ctx; split <;> rfl

/-- A head-end command that starts and is not shed: as without shedding. -/
theorem command_unshed {code : Nat} {push : Bool} {f : Body} {p : Packet} {s : State}
    (h : Starts code p s = true) (hu : Unshed push p s = true) :
    command code (shedBody push f) p s = command code f p s := by
  rw [command_starts h, command_starts h]
  unfold shedBody
  rw [ctx_bay]
  have e : (s.touch p).shed (if 2 ≤ p.bay then ((s.touch p).qosOf p.bay).cls else if push then 1 else 0) = false := by
    simp only [Unshed, Bool.not_eq_true'] at hu; exact hu
  simp only [e, Bool.false_and, Bool.false_eq_true, if_false]

theorem bulkInBody_block {n : Nat} {res : List (Nat × Nat)} {f : Bytes → Body} {c : Ctx} {p : Packet} {s : State} {d : BulkDesc}
    (h : BulkBlock 0 n res p = true) (hd : p.desc = some d) : bulkInBody n res f c p s =
      if d.kind = 0 then f (fitBytes d.length p.bulk) c p s
      else if d.length = 0 then f [] c p s
      else (s, .hold (.stream [] d.length s.time.mono)) := by
  simp only [BulkBlock, Bool.and_eq_true, beq_iff_eq, List.all_eq_true] at h
  obtain ⟨⟨h1, h2⟩, h3⟩ := h
  have h4 : res.find? (fun r => !allZero p.params r.1 r.2) = none := by
    rw [List.find?_eq_none]; intro x hx; simp [h3 x hx]
  simp only [bulkInBody, h1, h2, h4, hd]
  simp

/-- A command with a DIR 0 descriptor of KIND 0 that starts: its body's end, on the data of the descriptor. -/
theorem command_bulkIn {code n : Nat} {res : List (Nat × Nat)} {f : Bytes → Body} {p : Packet} {s : State} {d : BulkDesc}
    (h : Starts code p s = true) (hb : BulkBlock 0 n res p = true) (hd : p.desc = some d) (hk : d.kind = 0) :
    command code (bulkInBody n res f) p s
      = finish code p s.time.mono (f (fitBytes d.length p.bulk) ((s.touch p).ctx p) p (s.touch p)) := by
  rw [command_starts h, bulkInBody_block hb hd, if_pos hk]

end Sys2Proof.Machine
end

