-- ==== Sys2Proof/Laws/Tables.lean ====
section
/-! SUPPORT. Sparse tables: what a read gives after a write, and that every write keeps the canonical form. -/

namespace Sys2Proof.Machine

variable {α : Type}

theorem Tbl.get_insert_same (d : α) (t : Tbl α) (n : Nat) (a : α) : Tbl.get d (Tbl.insert t n a) n = a := by
  induction t with
  | nil => simp [Tbl.insert, Tbl.get]
  | cons x t ih =>
    obtain ⟨k, v⟩ := x
    simp only [Tbl.insert]
    split
    · simp [Tbl.get]
    · split
      · simp [Tbl.get]
      · rename_i h1 h2
        have : k ≠ n := fun h => h2 h.symm
        simp [Tbl.get, this, ih]

theorem Tbl.get_insert_other (d : α) (t : Tbl α) {n m : Nat} (h : m ≠ n) (a : α) :
    Tbl.get d (Tbl.insert t n a) m = Tbl.get d t m := by
  induction t with
  | nil => simp [Tbl.insert, Tbl.get, Ne.symm h]
  | cons x t ih =>
    obtain ⟨k, v⟩ := x
    simp only [Tbl.insert]
    split
    · simp [Tbl.get, Ne.symm h]
    · split
      · rename_i h2; subst h2; simp [Tbl.get, Ne.symm h]
      · simp [Tbl.get, ih]

theorem Tbl.get_below (d : α) (t : Tbl α) {n : Nat} (h : ∀ e ∈ t, n < e.1) : Tbl.get d t n = d := by
  induction t with
  | nil => rfl
  | cons x t ih =>
    have h1 := h x (by simp)
    have : x.1 ≠ n := by omega
    simp [Tbl.get, this]
    exact ih fun e he => h e (by simp [he])

theorem Tbl.erase_sub (t : Tbl α) (n : Nat) : ∀ e ∈ Tbl.erase t n, e ∈ t := by
  induction t with
  | nil => simp [Tbl.erase]
  | cons x t ih =>
    intro e he
    simp only [Tbl.erase] at he
    split at he
    · simp [he]
    · rcases List.mem_cons.1 he with rfl | h
      · simp
      · simp [ih e h]

theorem Tbl.insert_mem (t : Tbl α) (n : Nat) (a : α) : ∀ e ∈ Tbl.insert t n a, e = (n, a) ∨ e ∈ t := by
  induction t with
  | nil => simp [Tbl.insert]
  | cons x t ih =>
    intro e he
    simp only [Tbl.insert] at he
    split at he
    · simpa using he
    · split at he
      · rcases List.mem_cons.1 he with rfl | h
        · simp
        · simp [h]
      · rcases List.mem_cons.1 he with rfl | h
        · simp
        · rcases ih e h with rfl | h
          · simp
          · simp [h]

theorem Tbl.get_erase_same [DecidableEq α] (d : α) {t : Tbl α} (h : Tbl.wf d t) (n : Nat) :
    Tbl.get d (Tbl.erase t n) n = d := by
  obtain ⟨hp, hd⟩ := h
  clear hd
  induction t with
  | nil => rfl
  | cons x t ih =>
    rw [List.pairwise_cons] at hp
    simp only [Tbl.erase]
    split
    · rename_i he; subst he; exact Tbl.get_below d t fun e he => hp.1 e he
    · rename_i he; simp [Tbl.get, he, ih hp.2]

theorem Tbl.get_erase_other (d : α) (t : Tbl α) {n m : Nat} (h : m ≠ n) :
    Tbl.get d (Tbl.erase t n) m = Tbl.get d t m := by
  induction t with
  | nil => rfl
  | cons x t ih =>
    simp only [Tbl.erase]
    split
    · rename_i he; subst he; simp [Tbl.get, Ne.symm h]
    · simp [Tbl.get, ih]

/-- A read of the key written gives the value written. -/
theorem Tbl.get_set_same [DecidableEq α] (d : α) {t : Tbl α} (h : Tbl.wf d t) (n : Nat) (a : α) :
    Tbl.get d (Tbl.set d t n a) n = a := by
  unfold Tbl.set; split
  · rename_i ha; subst ha; exact Tbl.get_erase_same a h n
  · exact Tbl.get_insert_same d t n a

/-- A write leaves every other key alone. -/
theorem Tbl.get_set_other [DecidableEq α] (d : α) (t : Tbl α) {n m : Nat} (h : m ≠ n) (a : α) :
    Tbl.get d (Tbl.set d t n a) m = Tbl.get d t m := by
  unfold Tbl.set; split
  · exact Tbl.get_erase_other d t h
  · exact Tbl.get_insert_other d t h a

theorem Tbl.erase_wf [DecidableEq α] (d : α) {t : Tbl α} (h : Tbl.wf d t) (n : Nat) : Tbl.wf d (Tbl.erase t n) := by
  obtain ⟨hp, hd⟩ := h
  refine ⟨?_, fun e he => hd e (Tbl.erase_sub t n e he)⟩
  clear hd
  induction t with
  | nil => exact hp
  | cons x t ih =>
    rw [List.pairwise_cons] at hp
    simp only [Tbl.erase]
    split
    · exact hp.2
    · exact List.pairwise_cons.2 ⟨fun e he => hp.1 e (Tbl.erase_sub t n e he), ih hp.2⟩

theorem Tbl.insert_wf [DecidableEq α] (d : α) {t : Tbl α} (h : Tbl.wf d t) (n : Nat) {a : α} (ha : a ≠ d) :
    Tbl.wf d (Tbl.insert t n a) := by
  obtain ⟨hp, hd⟩ := h
  refine ⟨?_, fun e he => by rcases Tbl.insert_mem t n a e he with rfl | h; exacts [ha, hd e h]⟩
  clear hd
  induction t with
  | nil => simp [Tbl.insert]
  | cons x t ih =>
    obtain ⟨k, v⟩ := x
    have hp' := hp
    rw [List.pairwise_cons] at hp
    simp only [Tbl.insert]
    split
    · rename_i h1
      refine List.pairwise_cons.2 ⟨fun e he => ?_, hp'⟩
      rcases List.mem_cons.1 he with rfl | he
      · exact h1
      · exact Nat.lt_trans h1 (hp.1 e he)
    · split
      · rename_i h1 h2; subst h2
        exact List.pairwise_cons.2 ⟨fun e he => hp.1 e he, hp.2⟩
      · rename_i h1 h2
        refine List.pairwise_cons.2 ⟨fun e he => ?_, ih hp.2⟩
        rcases Tbl.insert_mem t n a e he with rfl | he
        · show k < n; omega
        · exact hp.1 e he

/-- A write keeps the canonical form. -/
theorem Tbl.set_wf [DecidableEq α] (d : α) {t : Tbl α} (h : Tbl.wf d t) (n : Nat) (a : α) : Tbl.wf d (Tbl.set d t n a) := by
  unfold Tbl.set; split
  · exact Tbl.erase_wf d h n
  · rename_i ha; exact Tbl.insert_wf d h n ha

theorem Tbl.upd_wf [DecidableEq α] (d : α) {t : Tbl α} (h : Tbl.wf d t) (n : Nat) (f : α → α) : Tbl.wf d (Tbl.upd d t n f) :=
  Tbl.set_wf d h n _

theorem Tbl.get_upd_same [DecidableEq α] (d : α) {t : Tbl α} (h : Tbl.wf d t) (n : Nat) (f : α → α) :
    Tbl.get d (Tbl.upd d t n f) n = f (Tbl.get d t n) := Tbl.get_set_same d h n _

theorem Tbl.mapV_wf [DecidableEq α] (d : α) (f : α → α) (t : Tbl α) : Tbl.wf d (Tbl.mapV d f t) := by
  unfold Tbl.mapV
  have : ∀ (l : List (Nat × α)) (r : Tbl α), Tbl.wf d r →
      Tbl.wf d (l.foldl (fun r e => Tbl.set d r e.1 (f e.2)) r) := by
    intro l
    induction l with
    | nil => intro r h; exact h
    | cons x l ih => intro r h; exact ih _ (Tbl.set_wf d h _ _)
  exact this t [] ⟨List.Pairwise.nil, by simp⟩

/-- Two tables in the canonical form that read alike are equal. -/
theorem Tbl.ext_wf [DecidableEq α] (d : α) {t u : Tbl α} (ht : Tbl.wf d t) (hu : Tbl.wf d u)
    (h : ∀ n, Tbl.get d t n = Tbl.get d u n) : t = u := by
  induction t generalizing u with
  | nil =>
    cases u with
    | nil => rfl
    | cons y u =>
      have := h y.1; simp [Tbl.get] at this
      exact absurd this.symm (hu.2 y (by simp))
  | cons x t ih =>
    cases u with
    | nil =>
      have := h x.1; simp [Tbl.get] at this
      exact absurd this (ht.2 x (by simp))
    | cons y u =>
      obtain ⟨tp, td⟩ := ht
      obtain ⟨up, ud⟩ := hu
      rw [List.pairwise_cons] at tp up
      have hxd := td x (by simp)
      have hyd := ud y (by simp)
      have hk : x.1 = y.1 := by
        rcases Nat.lt_trichotomy x.1 y.1 with hl | he | hl
        · have h1 := h x.1
          have h2 : Tbl.get d (y :: u) x.1 = d := Tbl.get_below d (y :: u) fun e he => by
            rcases List.mem_cons.1 he with rfl | he
            · exact hl
            · exact Nat.lt_trans hl (up.1 e he)
          rw [h2] at h1; simp [Tbl.get] at h1; exact absurd h1 hxd
        · exact he
        · have h1 := h y.1
          have h2 : Tbl.get d (x :: t) y.1 = d := Tbl.get_below d (x :: t) fun e he => by
            rcases List.mem_cons.1 he with rfl | he
            · exact hl
            · exact Nat.lt_trans hl (tp.1 e he)
          rw [h2] at h1; simp [Tbl.get] at h1; exact absurd h1.symm hyd
      have hv : x.2 = y.2 := by
        have h1 := h x.1; simp [Tbl.get, ← hk] at h1; exact h1
      have htl : t = u := by
        refine ih ⟨tp.2, fun e he => td e (by simp [he])⟩ ⟨up.2, fun e he => ud e (by simp [he])⟩ fun n => ?_
        by_cases hn : x.1 = n
        · subst hn
          rw [Tbl.get_below d t fun e he => tp.1 e he, Tbl.get_below d u fun e he => by rw [hk]; exact up.1 e he]
        · have h1 := h n
          have hn' : y.1 ≠ n := by omega
          simpa [Tbl.get, hn, hn'] using h1
      rw [htl]; congr 1; exact Prod.ext hk hv

end Sys2Proof.Machine
end

