-- ==== Sys2Proof/Laws/Events.lean ====
section
/-! SUPPORT. The event router: what each of its operations does to each bay's queue, the levels and the record log. -/

namespace Sys2Proof.Machine

/-- The router without its MSI-X list. -/
def Ev.core (e : Ev) : Tbl EvBay × Tbl (Option Nat) × List EvRec × List EvRec := (e.bay, e.level, e.held, e.last)

theorem raise_core (s : State) (b v : Nat) : (s.raise b v).ev.core = s.ev.core := by
  unfold State.raise; split
  · split <;> rfl
  · rfl

theorem raise_still (s : State) (b v : Nat) : (s.raise b v).still = s.still := by
  unfold State.raise; split
  · split <;> rfl
  · rfl

theorem foldl_inv {α β γ : Type} (g : β → γ) (f : β → α → β) (h : ∀ b a, g (f b a) = g b) (l : List α) (b : β) :
    g (l.foldl f b) = g b := by
  induction l generalizing b with
  | nil => rfl
  | cons a l ih => rw [List.foldl_cons, ih, h]

theorem raiseB0_core (s : State) : s.raiseB0.ev.core = s.ev.core := by
  unfold State.raiseB0
  apply foldl_inv (g := fun s : State => s.ev.core)
  intro s x; split
  · exact raise_core _ _ _
  · rfl

theorem raiseB0_still (s : State) : s.raiseB0.still = s.still := by
  unfold State.raiseB0
  apply foldl_inv (g := State.still)
  intro s x; split
  · exact raise_still _ _ _
  · rfl

/-- What a bay's part of the router becomes when a record is put into it. -/
def EvBay.take (q : EvBay) (b : Nat) (r : EvRec) : EvBay :=
  if 4096 ≤ q.queue.length then { q with drops := q.drops + 1, dropped := true }
  else { q with queue := q.queue ++ [{ r with seq := q.seq, data := evData b r.source r.data }],
                seq := (q.seq + 1) % 2 ^ 32, rangeSeen := q.rangeSeen ||| (1#14 <<< evRange r.source) }

theorem evPut_core (s : State) (b : Nat) (r : EvRec) :
    (s.evPut b r).ev.core = (Tbl.set {} s.ev.bay b ((s.evBay b).take b r), s.ev.level, s.ev.held, s.ev.last) := by
  unfold State.evPut EvBay.take
  dsimp only
  by_cases hf : 4096 ≤ (s.evBay b).queue.length
  · simp only [ge_iff_le, hf, if_true]; rw [raise_core]; rfl
  · simp only [ge_iff_le, hf, if_false]
    have key : ∀ u : State, u.ev.core = (Tbl.set {} s.ev.bay b
        { s.evBay b with queue := (s.evBay b).queue ++ [{ r with seq := (s.evBay b).seq, data := evData b r.source r.data }],
                         seq := ((s.evBay b).seq + 1) % 2 ^ 32,
                         rangeSeen := (s.evBay b).rangeSeen ||| (1#14 <<< evRange r.source) }, s.ev.level, s.ev.held, s.ev.last) →
        (if (s.evBay b).rangeSeen.getLsbD (evRange r.source) = true then u
          else u.raise b (16 + evRange r.source)).ev.core = u.ev.core := by
      intro u _; split
      · rfl
      · exact raise_core _ _ _
    by_cases hb : b = 0
    · subst hb
      simp only [if_true]
      rw [key _ (by rw [raiseB0_core]; rfl), raiseB0_core]; rfl
    · simp only [hb, if_false]
      rw [key _ rfl]; rfl

theorem evPut_still (s : State) (b : Nat) (r : EvRec) : (s.evPut b r).still = s.still := by
  unfold State.evPut
  dsimp only
  by_cases hf : 4096 ≤ (s.evBay b).queue.length
  · simp only [ge_iff_le, hf, if_true]; rw [raise_still]; rfl
  · simp only [ge_iff_le, hf, if_false]
    split
    · split
      · rw [raiseB0_still]; rfl
      · rfl
    · rw [raise_still]; split
      · rw [raiseB0_still]; rfl
      · rfl

theorem core_bay {s t : State} (h : s.ev.core = t.ev.core) : s.ev.bay = t.ev.bay := congrArg (·.1) h
theorem evBay_of {s t : State} (h : s.ev.bay = t.ev.bay) (b : Nat) : s.evBay b = t.evBay b := by
  unfold State.evBay; rw [h]

theorem evPut_bay (s : State) (b : Nat) (r : EvRec) :
    (s.evPut b r).ev.bay = Tbl.set {} s.ev.bay b ((s.evBay b).take b r) := congrArg (·.1) (evPut_core s b r)

theorem evPut_rest (s : State) (b : Nat) (r : EvRec) :
    (s.evPut b r).ev.level = s.ev.level ∧ (s.evPut b r).ev.held = s.ev.held ∧ (s.evPut b r).ev.last = s.ev.last := by
  have h := evPut_core s b r
  simp only [Ev.core, Prod.mk.injEq] at h
  exact ⟨h.2.1, h.2.2.1, h.2.2.2⟩

/-- One bay's turn in a delivery. -/
def State.offer (r : EvRec) (s : State) (b : Nat) : State := if s.subscribed b r.source then s.evPut b r else s

theorem offer_wf {s : State} (h : Tbl.wf {} s.ev.bay) (r : EvRec) (b : Nat) : Tbl.wf {} (s.offer r b).ev.bay := by
  unfold State.offer; split
  · rw [evPut_bay]; exact Tbl.set_wf _ h _ _
  · exact h

theorem offer_other {s : State} (r : EvRec) {b n : Nat} (hn : n ≠ b) : (s.offer r b).evBay n = s.evBay n := by
  unfold State.offer; split
  · unfold State.evBay; rw [evPut_bay]; exact Tbl.get_set_other _ _ hn _
  · rfl

theorem offer_same {s : State} (h : Tbl.wf {} s.ev.bay) (r : EvRec) (b : Nat) :
    (s.offer r b).evBay b = if s.subscribed b r.source then (s.evBay b).take b r else s.evBay b := by
  unfold State.offer; split
  · unfold State.evBay; rw [evPut_bay]; exact Tbl.get_set_same _ h _ _
  · rfl

theorem offers (r : EvRec) (l : List Nat) (hl : l.Nodup) (s : State) (h : Tbl.wf {} s.ev.bay) (b : Nat) :
    (l.foldl (State.offer r) s).evBay b
      = if b ∈ l ∧ s.subscribed b r.source then (s.evBay b).take b r else s.evBay b := by
  induction l generalizing s with
  | nil => simp
  | cons a l ih =>
    rw [List.nodup_cons] at hl
    rw [List.foldl_cons, ih hl.2 _ (offer_wf h r a)]
    by_cases hb : b = a
    · subst hb
      have : b ∉ l := hl.1
      simp only [this, false_and, if_false, List.mem_cons, true_or, true_and]
      exact offer_same h r b
    · have he : (s.offer r a).evBay b = s.evBay b := offer_other r hb
      have hs : (s.offer r a).subscribed b r.source = s.subscribed b r.source := by
        unfold State.subscribed; rw [he]
      rw [he, hs]; simp [hb]

/-- A delivery: each of the eight bays that subscribes takes the record, the others keep their part. -/
theorem deliver_evBay (r : EvRec) {s : State} (h : Tbl.wf {} s.ev.bay) {b : Nat} (hb : b < 8) :
    (s.deliver r).evBay b = if s.subscribed b r.source then (s.evBay b).take b r else s.evBay b := by
  have := offers r (List.range 8) List.nodup_range s h b
  simp only [List.mem_range, hb, true_and] at this
  exact this

theorem deliver_rest (r : EvRec) (s : State) :
    (s.deliver r).ev.level = s.ev.level ∧ (s.deliver r).ev.held = s.ev.held ∧ (s.deliver r).ev.last = s.ev.last := by
  have h := foldl_inv (fun s : State => (s.ev.level, s.ev.held, s.ev.last)) (State.offer r) (by
    intro s b; unfold State.offer; split
    · obtain ⟨h1, h2, h3⟩ := evPut_rest s b r; rw [h1, h2, h3]
    · rfl) (List.range 8) s
  simp only [Prod.mk.injEq] at h
  exact h

theorem deliver_still (r : EvRec) (s : State) : (s.deliver r).still = s.still :=
  foldl_inv State.still (State.offer r) (by
    intro s b; unfold State.offer; split
    · exact evPut_still s b r
    · rfl) (List.range 8) s

/-- A source that the role leaves idle makes no occurrence (R15). -/
theorem occurAt_idle {s : State} {src : Nat} (hi : sourceIdle s.kiln.role src = true) (index time : Nat) (kind : EvKind) (data : Nat) :
    s.occurAt index time src kind data = s := if_pos hi

/-- An occurrence of a source that is not idle, as a delivery of its record. -/
theorem occurAt_eq {s : State} {src : Nat} (hi : sourceIdle s.kiln.role src = false) (index time : Nat) (kind : EvKind) (data : Nat) :
    s.occurAt index time src kind data
      = if s.kiln.ph.k6Open then
          ({ s with ev.last := (s.evRecord index time src kind data :: s.ev.last).take 4096 } : State).deliver
            (s.evRecord index time src kind data)
        else { s with ev.last := (s.evRecord index time src kind data :: s.ev.last).take 4096,
                      ev.held := s.ev.held ++ [s.evRecord index time src kind data] } :=
  if_neg (by simp [hi])

/-- An occurrence is the newest record of the log. -/
theorem occurAt_last {s : State} {src : Nat} (hi : sourceIdle s.kiln.role src = false) (index time : Nat) (kind : EvKind) (data : Nat) :
    (s.occurAt index time src kind data).ev.last = (s.evRecord index time src kind data :: s.ev.last).take 4096 := by
  rw [occurAt_eq hi]
  split
  · exact (deliver_rest _ _).2.2
  · rfl

theorem occurAt_level (s : State) (index time src : Nat) (kind : EvKind) (data : Nat) :
    (s.occurAt index time src kind data).ev.level = s.ev.level := by
  cases hi : sourceIdle s.kiln.role src
  · rw [occurAt_eq hi]
    split
    · exact (deliver_rest _ _).1
    · rfl
  · rw [occurAt_idle hi]

/-- An occurrence touches the router and the window functions alone. -/
@[simp] theorem occurAt_still (s : State) (index time src : Nat) (kind : EvKind) (data : Nat) :
    (s.occurAt index time src kind data).still = s.still := by
  cases hi : sourceIdle s.kiln.role src
  · rw [occurAt_eq hi]
    split
    · exact deliver_still _ _
    · rfl
  · rw [occurAt_idle hi]

@[simp] theorem occur_still (s : State) (src : Nat) (kind : EvKind) (data : Nat) : (s.occur src kind data).still = s.still :=
  occurAt_still _ _ _ _ _ _

@[simp] theorem pulse_still (s : State) (src data : Nat) : (s.pulse src data).still = s.still := occur_still _ _ _ _

@[simp] theorem levelAt_still (s : State) (index time src : Nat) (on : Bool) (data : Nat) :
    (s.levelAt index time src on data).still = s.still := by
  unfold State.levelAt
  split
  · rfl
  · split
    · dsimp only
      split
      · rfl
      · exact occurAt_still _ _ _ _ _ _
    · split
      · exact occurAt_still _ _ _ _ _ _
      · rfl

@[simp] theorem level_still (s : State) (src : Nat) (on : Bool) (data : Nat) : (s.level src on data).still = s.still :=
  levelAt_still _ _ _ _ _ _

theorem pulse_last {s : State} {src : Nat} (hi : sourceIdle s.kiln.role src = false) (data : Nat) :
    (s.pulse src data).ev.last = (s.pulseRecord src data :: s.ev.last).take 4096 :=
  occurAt_last hi _ _ _ _

theorem pulse_head {s : State} {src : Nat} (hi : sourceIdle s.kiln.role src = false) (data : Nat) :
    (s.pulse src data).ev.last.head? = some (s.pulseRecord src data) := by
  rw [pulse_last hi]; rfl

theorem pulse_level (s : State) (src data : Nat) : (s.pulse src data).ev.level = s.ev.level := occurAt_level _ _ _ _ _ _

theorem pulse_asserted (s : State) (src data n : Nat) : (s.pulse src data).asserted n = s.asserted n := by
  unfold State.asserted; rw [pulse_level]

/-- The levels after a level source is brought to a value. -/
theorem levelAt_level {s : State} {src : Nat} (hi : sourceIdle s.kiln.role src = false) (index time : Nat) (on : Bool) (data : Nat) :
    (s.levelAt index time src on data).ev.level
      = if on then Tbl.set none s.ev.level src (some data)
        else if s.asserted src then Tbl.set none s.ev.level src none else s.ev.level := by
  unfold State.levelAt
  rw [if_neg (by simp [hi])]
  cases on
  · simp only [Bool.false_eq_true, if_false]
    split
    · exact occurAt_level _ _ _ _ _ _
    · rfl
  · simp only [if_true]
    split
    · rfl
    · exact occurAt_level _ _ _ _ _ _

/-- A level source that the role leaves idle keeps its value (R15). -/
theorem levelAt_idle {s : State} {src : Nat} (hi : sourceIdle s.kiln.role src = true) (index time : Nat) (on : Bool) (data : Nat) :
    s.levelAt index time src on data = s := if_pos hi

theorem level_asserted {s : State} (h : Tbl.wf none s.ev.level) {src : Nat} (hi : sourceIdle s.kiln.role src = false) (on : Bool) (data : Nat) :
    (s.level src on data).asserted src = on := by
  unfold State.level State.asserted
  rw [levelAt_level hi]
  cases on
  · simp only [Bool.false_eq_true, if_false]
    split
    · rw [Tbl.get_set_same _ h]; rfl
    · rename_i hn; simpa [State.asserted] using hn
  · simp only [if_true]; rw [Tbl.get_set_same _ h]; rfl

theorem level_asserted_other (s : State) {src n : Nat} (hn : n ≠ src) (on : Bool) (data : Nat) :
    (s.level src on data).asserted n = s.asserted n := by
  unfold State.level
  cases hi : sourceIdle s.kiln.role src
  · unfold State.asserted
    rw [levelAt_level hi]
    cases on
    · simp only [Bool.false_eq_true, if_false]
      split
      · rw [Tbl.get_set_other _ _ hn]
      · rfl
    · simp only [if_true]; rw [Tbl.get_set_other _ _ hn]
  · rw [levelAt_idle hi]

/-- A level source that changes makes the newest record. -/
theorem level_changes {s : State} {src : Nat} (hi : sourceIdle s.kiln.role src = false) (on : Bool) (data : Nat) (h : s.asserted src = !on) :
    (s.level src on data).ev.last.head?
      = some (s.evRecord s.time.index s.nowNs src (if on then .assert else .deassert) data) := by
  unfold State.level State.levelAt
  rw [if_neg (by simp [hi])]
  cases on <;> simp only [Bool.not_true, Bool.not_false] at h <;> simp only [h, if_true, if_false, Bool.false_eq_true]
  · exact congrArg List.head? (occurAt_last (s := { s with ev.level := Tbl.set none s.ev.level src none }) hi _ _ _ _)
  · exact congrArg List.head? (occurAt_last (s := { s with ev.level := Tbl.set none s.ev.level src (some data) }) hi _ _ _ _)

/-- A level source that keeps its value makes no record. -/
theorem level_keeps {s : State} (src : Nat) (on : Bool) (data : Nat) (h : s.asserted src = on) :
    (s.level src on data).ev.last = s.ev.last := by
  unfold State.level State.levelAt
  split
  · rfl
  · cases on <;> simp [h]

/-- Each bay's part of the router after an occurrence of a source that is not idle: from K6 on, a subscribed bay takes the record. -/
theorem occurAt_evBay {s : State} (h : Tbl.wf {} s.ev.bay) {b : Nat} (hb : b < 8) (index time : Nat) {src : Nat}
    (hi : sourceIdle s.kiln.role src = false) (kind : EvKind) (data : Nat) :
    (s.occurAt index time src kind data).evBay b
      = if s.kiln.ph.k6Open ∧ s.subscribed b src then (s.evBay b).take b (s.evRecord index time src kind data) else s.evBay b := by
  rw [occurAt_eq hi]
  by_cases hk : s.kiln.ph.k6Open = true
  · rw [if_pos hk]
    rw [deliver_evBay _ (s := { s with ev.last := (s.evRecord index time src kind data :: s.ev.last).take 4096 }) h hb]
    simp only [hk, true_and]
    rfl
  · rw [if_neg hk]; simp only [hk]; rfl

theorem take_map (q : EvBay) (b : Nat) (r : EvRec) : (q.take b r).map = q.map := by unfold EvBay.take; split <;> rfl

theorem core_last {s t : State} (h : s.ev.core = t.ev.core) : s.ev.last = t.ev.last := congrArg (·.2.2.2) h

/-- An event changes no bay's map. -/
theorem occurAt_map {s : State} (h : Tbl.wf {} s.ev.bay) {b : Nat} (hb : b < 8) (index time src : Nat) (kind : EvKind) (data : Nat) :
    ((s.occurAt index time src kind data).evBay b).map = (s.evBay b).map := by
  cases hi : sourceIdle s.kiln.role src
  · rw [occurAt_evBay h hb index time hi]; split
    · rw [take_map]
    · rfl
  · rw [occurAt_idle hi]

/-! ### Fields an event leaves alone -/

theorem still_pending {a b : State} (h : a.still = b.still) : a.pending = b.pending := by
  have h' := congrArg State.pending h; exact h'
theorem still_freeCount {a b : State} (h : a.still = b.still) : a.freeCount = b.freeCount := by
  have h' := congrArg State.freeCount h; exact h'
theorem still_time {a b : State} (h : a.still = b.still) : a.time = b.time := by
  have h' := congrArg State.time h; exact h'
theorem still_rtc {a b : State} (h : a.still = b.still) : a.rtc = b.rtc := by
  have h' := congrArg State.rtc h; exact h'
theorem still_front {a b : State} (h : a.still = b.still) : a.front = b.front := by
  have h' := congrArg State.front h; exact h'
theorem still_metro {a b : State} (h : a.still = b.still) : a.metro = b.metro := by
  have h' := congrArg State.metro h; exact h'
theorem still_pq {a b : State} (h : a.still = b.still) : a.pq = b.pq := by
  have h' := congrArg State.pq h; exact h'
theorem still_acc {a b : State} (h : a.still = b.still) : a.acc = b.acc := by
  have h' := congrArg State.acc h; exact h'
theorem still_tiles {a b : State} (h : a.still = b.still) : a.tiles = b.tiles := by
  have h' := congrArg State.tiles h; exact h'
theorem still_aux {a b : State} (h : a.still = b.still) : a.aux = b.aux := by
  have h' := congrArg State.aux h; exact h'
theorem still_bill {a b : State} (h : a.still = b.still) : a.bill = b.bill := by
  have h' := congrArg State.bill h; exact h'
theorem still_plc {a b : State} (h : a.still = b.still) : a.plc = b.plc := by
  have h' := congrArg State.plc h; exact h'
theorem still_radio {a b : State} (h : a.still = b.still) : a.radio = b.radio := by
  have h' := congrArg State.radio h; exact h'
theorem still_ledger {a b : State} (h : a.still = b.still) : a.ledger = b.ledger := by
  have h' := congrArg State.ledger h; exact h'
theorem still_mortar {a b : State} (h : a.still = b.still) : a.mortar = b.mortar := by
  have h' := congrArg State.mortar h; exact h'
theorem still_host {a b : State} (h : a.still = b.still) : a.host = b.host := by
  have h' := congrArg State.host h; exact h'
theorem still_cfg {a b : State} (h : a.still = b.still) : a.cfg = b.cfg := by
  have h' := congrArg State.cfg h; exact h'
theorem still_store {a b : State} (h : a.still = b.still) : a.store = b.store := by
  have h' := congrArg State.store h; exact h'
theorem still_power {a b : State} (h : a.still = b.still) : a.power = b.power := by
  have h' := congrArg State.power h; exact h'
theorem still_kiln {a b : State} (h : a.still = b.still) : a.kiln = b.kiln := by
  have h' := congrArg State.kiln h; exact h'
theorem still_fault {a b : State} (h : a.still = b.still) : a.fault = b.fault := by
  have h' := congrArg State.fault h; exact h'
theorem still_pins {a b : State} (h : a.still = b.still) : a.pins = b.pins := by
  have h' := congrArg State.pins h; exact h'

@[simp] theorem pulse_pending (s : State) (src data : Nat) : (s.pulse src data).pending = s.pending := still_pending (pulse_still s src data)
@[simp] theorem pulse_freeCount (s : State) (src data : Nat) : (s.pulse src data).freeCount = s.freeCount := still_freeCount (pulse_still s src data)
@[simp] theorem pulse_time (s : State) (src data : Nat) : (s.pulse src data).time = s.time := still_time (pulse_still s src data)
@[simp] theorem pulse_rtc (s : State) (src data : Nat) : (s.pulse src data).rtc = s.rtc := still_rtc (pulse_still s src data)
@[simp] theorem pulse_front (s : State) (src data : Nat) : (s.pulse src data).front = s.front := still_front (pulse_still s src data)
@[simp] theorem pulse_metro (s : State) (src data : Nat) : (s.pulse src data).metro = s.metro := still_metro (pulse_still s src data)
@[simp] theorem pulse_pq (s : State) (src data : Nat) : (s.pulse src data).pq = s.pq := still_pq (pulse_still s src data)
@[simp] theorem pulse_acc (s : State) (src data : Nat) : (s.pulse src data).acc = s.acc := still_acc (pulse_still s src data)
@[simp] theorem pulse_tiles (s : State) (src data : Nat) : (s.pulse src data).tiles = s.tiles := still_tiles (pulse_still s src data)
@[simp] theorem pulse_aux (s : State) (src data : Nat) : (s.pulse src data).aux = s.aux := still_aux (pulse_still s src data)
@[simp] theorem pulse_bill (s : State) (src data : Nat) : (s.pulse src data).bill = s.bill := still_bill (pulse_still s src data)
@[simp] theorem pulse_plc (s : State) (src data : Nat) : (s.pulse src data).plc = s.plc := still_plc (pulse_still s src data)
@[simp] theorem pulse_radio (s : State) (src data : Nat) : (s.pulse src data).radio = s.radio := still_radio (pulse_still s src data)
@[simp] theorem pulse_ledger (s : State) (src data : Nat) : (s.pulse src data).ledger = s.ledger := still_ledger (pulse_still s src data)
@[simp] theorem pulse_mortar (s : State) (src data : Nat) : (s.pulse src data).mortar = s.mortar := still_mortar (pulse_still s src data)
@[simp] theorem pulse_host (s : State) (src data : Nat) : (s.pulse src data).host = s.host := still_host (pulse_still s src data)
@[simp] theorem pulse_cfg (s : State) (src data : Nat) : (s.pulse src data).cfg = s.cfg := still_cfg (pulse_still s src data)
@[simp] theorem pulse_store (s : State) (src data : Nat) : (s.pulse src data).store = s.store := still_store (pulse_still s src data)
@[simp] theorem pulse_power (s : State) (src data : Nat) : (s.pulse src data).power = s.power := still_power (pulse_still s src data)
@[simp] theorem pulse_kiln (s : State) (src data : Nat) : (s.pulse src data).kiln = s.kiln := still_kiln (pulse_still s src data)
@[simp] theorem pulse_fault (s : State) (src data : Nat) : (s.pulse src data).fault = s.fault := still_fault (pulse_still s src data)
@[simp] theorem pulse_pins (s : State) (src data : Nat) : (s.pulse src data).pins = s.pins := still_pins (pulse_still s src data)

@[simp] theorem level_pending (s : State) (src : Nat) (on : Bool) (data : Nat) : (s.level src on data).pending = s.pending := still_pending (level_still s src on data)
@[simp] theorem level_freeCount (s : State) (src : Nat) (on : Bool) (data : Nat) : (s.level src on data).freeCount = s.freeCount := still_freeCount (level_still s src on data)
@[simp] theorem level_time (s : State) (src : Nat) (on : Bool) (data : Nat) : (s.level src on data).time = s.time := still_time (level_still s src on data)
@[simp] theorem level_rtc (s : State) (src : Nat) (on : Bool) (data : Nat) : (s.level src on data).rtc = s.rtc := still_rtc (level_still s src on data)
@[simp] theorem level_front (s : State) (src : Nat) (on : Bool) (data : Nat) : (s.level src on data).front = s.front := still_front (level_still s src on data)
@[simp] theorem level_metro (s : State) (src : Nat) (on : Bool) (data : Nat) : (s.level src on data).metro = s.metro := still_metro (level_still s src on data)
@[simp] theorem level_pq (s : State) (src : Nat) (on : Bool) (data : Nat) : (s.level src on data).pq = s.pq := still_pq (level_still s src on data)
@[simp] theorem level_acc (s : State) (src : Nat) (on : Bool) (data : Nat) : (s.level src on data).acc = s.acc := still_acc (level_still s src on data)
@[simp] theorem level_tiles (s : State) (src : Nat) (on : Bool) (data : Nat) : (s.level src on data).tiles = s.tiles := still_tiles (level_still s src on data)
@[simp] theorem level_aux (s : State) (src : Nat) (on : Bool) (data : Nat) : (s.level src on data).aux = s.aux := still_aux (level_still s src on data)
@[simp] theorem level_bill (s : State) (src : Nat) (on : Bool) (data : Nat) : (s.level src on data).bill = s.bill := still_bill (level_still s src on data)
@[simp] theorem level_plc (s : State) (src : Nat) (on : Bool) (data : Nat) : (s.level src on data).plc = s.plc := still_plc (level_still s src on data)
@[simp] theorem level_radio (s : State) (src : Nat) (on : Bool) (data : Nat) : (s.level src on data).radio = s.radio := still_radio (level_still s src on data)
@[simp] theorem level_ledger (s : State) (src : Nat) (on : Bool) (data : Nat) : (s.level src on data).ledger = s.ledger := still_ledger (level_still s src on data)
@[simp] theorem level_mortar (s : State) (src : Nat) (on : Bool) (data : Nat) : (s.level src on data).mortar = s.mortar := still_mortar (level_still s src on data)
@[simp] theorem level_host (s : State) (src : Nat) (on : Bool) (data : Nat) : (s.level src on data).host = s.host := still_host (level_still s src on data)
@[simp] theorem level_cfg (s : State) (src : Nat) (on : Bool) (data : Nat) : (s.level src on data).cfg = s.cfg := still_cfg (level_still s src on data)
@[simp] theorem level_store (s : State) (src : Nat) (on : Bool) (data : Nat) : (s.level src on data).store = s.store := still_store (level_still s src on data)
@[simp] theorem level_power (s : State) (src : Nat) (on : Bool) (data : Nat) : (s.level src on data).power = s.power := still_power (level_still s src on data)
@[simp] theorem level_kiln (s : State) (src : Nat) (on : Bool) (data : Nat) : (s.level src on data).kiln = s.kiln := still_kiln (level_still s src on data)
@[simp] theorem level_fault (s : State) (src : Nat) (on : Bool) (data : Nat) : (s.level src on data).fault = s.fault := still_fault (level_still s src on data)
@[simp] theorem level_pins (s : State) (src : Nat) (on : Bool) (data : Nat) : (s.level src on data).pins = s.pins := still_pins (level_still s src on data)

@[simp] theorem levelAt_pending (s : State) (index time src : Nat) (on : Bool) (data : Nat) : (s.levelAt index time src on data).pending = s.pending := still_pending (levelAt_still s index time src on data)
@[simp] theorem levelAt_freeCount (s : State) (index time src : Nat) (on : Bool) (data : Nat) : (s.levelAt index time src on data).freeCount = s.freeCount := still_freeCount (levelAt_still s index time src on data)
@[simp] theorem levelAt_time (s : State) (index time src : Nat) (on : Bool) (data : Nat) : (s.levelAt index time src on data).time = s.time := still_time (levelAt_still s index time src on data)
@[simp] theorem levelAt_rtc (s : State) (index time src : Nat) (on : Bool) (data : Nat) : (s.levelAt index time src on data).rtc = s.rtc := still_rtc (levelAt_still s index time src on data)
@[simp] theorem levelAt_front (s : State) (index time src : Nat) (on : Bool) (data : Nat) : (s.levelAt index time src on data).front = s.front := still_front (levelAt_still s index time src on data)
@[simp] theorem levelAt_metro (s : State) (index time src : Nat) (on : Bool) (data : Nat) : (s.levelAt index time src on data).metro = s.metro := still_metro (levelAt_still s index time src on data)
@[simp] theorem levelAt_pq (s : State) (index time src : Nat) (on : Bool) (data : Nat) : (s.levelAt index time src on data).pq = s.pq := still_pq (levelAt_still s index time src on data)
@[simp] theorem levelAt_acc (s : State) (index time src : Nat) (on : Bool) (data : Nat) : (s.levelAt index time src on data).acc = s.acc := still_acc (levelAt_still s index time src on data)
@[simp] theorem levelAt_tiles (s : State) (index time src : Nat) (on : Bool) (data : Nat) : (s.levelAt index time src on data).tiles = s.tiles := still_tiles (levelAt_still s index time src on data)
@[simp] theorem levelAt_aux (s : State) (index time src : Nat) (on : Bool) (data : Nat) : (s.levelAt index time src on data).aux = s.aux := still_aux (levelAt_still s index time src on data)
@[simp] theorem levelAt_bill (s : State) (index time src : Nat) (on : Bool) (data : Nat) : (s.levelAt index time src on data).bill = s.bill := still_bill (levelAt_still s index time src on data)
@[simp] theorem levelAt_plc (s : State) (index time src : Nat) (on : Bool) (data : Nat) : (s.levelAt index time src on data).plc = s.plc := still_plc (levelAt_still s index time src on data)
@[simp] theorem levelAt_radio (s : State) (index time src : Nat) (on : Bool) (data : Nat) : (s.levelAt index time src on data).radio = s.radio := still_radio (levelAt_still s index time src on data)
@[simp] theorem levelAt_ledger (s : State) (index time src : Nat) (on : Bool) (data : Nat) : (s.levelAt index time src on data).ledger = s.ledger := still_ledger (levelAt_still s index time src on data)
@[simp] theorem levelAt_mortar (s : State) (index time src : Nat) (on : Bool) (data : Nat) : (s.levelAt index time src on data).mortar = s.mortar := still_mortar (levelAt_still s index time src on data)
@[simp] theorem levelAt_host (s : State) (index time src : Nat) (on : Bool) (data : Nat) : (s.levelAt index time src on data).host = s.host := still_host (levelAt_still s index time src on data)
@[simp] theorem levelAt_cfg (s : State) (index time src : Nat) (on : Bool) (data : Nat) : (s.levelAt index time src on data).cfg = s.cfg := still_cfg (levelAt_still s index time src on data)
@[simp] theorem levelAt_store (s : State) (index time src : Nat) (on : Bool) (data : Nat) : (s.levelAt index time src on data).store = s.store := still_store (levelAt_still s index time src on data)
@[simp] theorem levelAt_power (s : State) (index time src : Nat) (on : Bool) (data : Nat) : (s.levelAt index time src on data).power = s.power := still_power (levelAt_still s index time src on data)
@[simp] theorem levelAt_kiln (s : State) (index time src : Nat) (on : Bool) (data : Nat) : (s.levelAt index time src on data).kiln = s.kiln := still_kiln (levelAt_still s index time src on data)
@[simp] theorem levelAt_fault (s : State) (index time src : Nat) (on : Bool) (data : Nat) : (s.levelAt index time src on data).fault = s.fault := still_fault (levelAt_still s index time src on data)
@[simp] theorem levelAt_pins (s : State) (index time src : Nat) (on : Bool) (data : Nat) : (s.levelAt index time src on data).pins = s.pins := still_pins (levelAt_still s index time src on data)

@[simp] theorem occur_pending (s : State) (src : Nat) (kind : EvKind) (data : Nat) : (s.occur src kind data).pending = s.pending := still_pending (occur_still s src kind data)
@[simp] theorem occur_freeCount (s : State) (src : Nat) (kind : EvKind) (data : Nat) : (s.occur src kind data).freeCount = s.freeCount := still_freeCount (occur_still s src kind data)
@[simp] theorem occur_time (s : State) (src : Nat) (kind : EvKind) (data : Nat) : (s.occur src kind data).time = s.time := still_time (occur_still s src kind data)
@[simp] theorem occur_rtc (s : State) (src : Nat) (kind : EvKind) (data : Nat) : (s.occur src kind data).rtc = s.rtc := still_rtc (occur_still s src kind data)
@[simp] theorem occur_front (s : State) (src : Nat) (kind : EvKind) (data : Nat) : (s.occur src kind data).front = s.front := still_front (occur_still s src kind data)
@[simp] theorem occur_metro (s : State) (src : Nat) (kind : EvKind) (data : Nat) : (s.occur src kind data).metro = s.metro := still_metro (occur_still s src kind data)
@[simp] theorem occur_pq (s : State) (src : Nat) (kind : EvKind) (data : Nat) : (s.occur src kind data).pq = s.pq := still_pq (occur_still s src kind data)
@[simp] theorem occur_acc (s : State) (src : Nat) (kind : EvKind) (data : Nat) : (s.occur src kind data).acc = s.acc := still_acc (occur_still s src kind data)
@[simp] theorem occur_tiles (s : State) (src : Nat) (kind : EvKind) (data : Nat) : (s.occur src kind data).tiles = s.tiles := still_tiles (occur_still s src kind data)
@[simp] theorem occur_aux (s : State) (src : Nat) (kind : EvKind) (data : Nat) : (s.occur src kind data).aux = s.aux := still_aux (occur_still s src kind data)
@[simp] theorem occur_bill (s : State) (src : Nat) (kind : EvKind) (data : Nat) : (s.occur src kind data).bill = s.bill := still_bill (occur_still s src kind data)
@[simp] theorem occur_plc (s : State) (src : Nat) (kind : EvKind) (data : Nat) : (s.occur src kind data).plc = s.plc := still_plc (occur_still s src kind data)
@[simp] theorem occur_radio (s : State) (src : Nat) (kind : EvKind) (data : Nat) : (s.occur src kind data).radio = s.radio := still_radio (occur_still s src kind data)
@[simp] theorem occur_ledger (s : State) (src : Nat) (kind : EvKind) (data : Nat) : (s.occur src kind data).ledger = s.ledger := still_ledger (occur_still s src kind data)
@[simp] theorem occur_mortar (s : State) (src : Nat) (kind : EvKind) (data : Nat) : (s.occur src kind data).mortar = s.mortar := still_mortar (occur_still s src kind data)
@[simp] theorem occur_host (s : State) (src : Nat) (kind : EvKind) (data : Nat) : (s.occur src kind data).host = s.host := still_host (occur_still s src kind data)
@[simp] theorem occur_cfg (s : State) (src : Nat) (kind : EvKind) (data : Nat) : (s.occur src kind data).cfg = s.cfg := still_cfg (occur_still s src kind data)
@[simp] theorem occur_store (s : State) (src : Nat) (kind : EvKind) (data : Nat) : (s.occur src kind data).store = s.store := still_store (occur_still s src kind data)
@[simp] theorem occur_power (s : State) (src : Nat) (kind : EvKind) (data : Nat) : (s.occur src kind data).power = s.power := still_power (occur_still s src kind data)
@[simp] theorem occur_kiln (s : State) (src : Nat) (kind : EvKind) (data : Nat) : (s.occur src kind data).kiln = s.kiln := still_kiln (occur_still s src kind data)
@[simp] theorem occur_fault (s : State) (src : Nat) (kind : EvKind) (data : Nat) : (s.occur src kind data).fault = s.fault := still_fault (occur_still s src kind data)
@[simp] theorem occur_pins (s : State) (src : Nat) (kind : EvKind) (data : Nat) : (s.occur src kind data).pins = s.pins := still_pins (occur_still s src kind data)

@[simp] theorem occurAt_pending (s : State) (index time src : Nat) (kind : EvKind) (data : Nat) : (s.occurAt index time src kind data).pending = s.pending := still_pending (occurAt_still s index time src kind data)
@[simp] theorem occurAt_freeCount (s : State) (index time src : Nat) (kind : EvKind) (data : Nat) : (s.occurAt index time src kind data).freeCount = s.freeCount := still_freeCount (occurAt_still s index time src kind data)
@[simp] theorem occurAt_time (s : State) (index time src : Nat) (kind : EvKind) (data : Nat) : (s.occurAt index time src kind data).time = s.time := still_time (occurAt_still s index time src kind data)
@[simp] theorem occurAt_rtc (s : State) (index time src : Nat) (kind : EvKind) (data : Nat) : (s.occurAt index time src kind data).rtc = s.rtc := still_rtc (occurAt_still s index time src kind data)
@[simp] theorem occurAt_front (s : State) (index time src : Nat) (kind : EvKind) (data : Nat) : (s.occurAt index time src kind data).front = s.front := still_front (occurAt_still s index time src kind data)
@[simp] theorem occurAt_metro (s : State) (index time src : Nat) (kind : EvKind) (data : Nat) : (s.occurAt index time src kind data).metro = s.metro := still_metro (occurAt_still s index time src kind data)
@[simp] theorem occurAt_pq (s : State) (index time src : Nat) (kind : EvKind) (data : Nat) : (s.occurAt index time src kind data).pq = s.pq := still_pq (occurAt_still s index time src kind data)
@[simp] theorem occurAt_acc (s : State) (index time src : Nat) (kind : EvKind) (data : Nat) : (s.occurAt index time src kind data).acc = s.acc := still_acc (occurAt_still s index time src kind data)
@[simp] theorem occurAt_tiles (s : State) (index time src : Nat) (kind : EvKind) (data : Nat) : (s.occurAt index time src kind data).tiles = s.tiles := still_tiles (occurAt_still s index time src kind data)
@[simp] theorem occurAt_aux (s : State) (index time src : Nat) (kind : EvKind) (data : Nat) : (s.occurAt index time src kind data).aux = s.aux := still_aux (occurAt_still s index time src kind data)
@[simp] theorem occurAt_bill (s : State) (index time src : Nat) (kind : EvKind) (data : Nat) : (s.occurAt index time src kind data).bill = s.bill := still_bill (occurAt_still s index time src kind data)
@[simp] theorem occurAt_plc (s : State) (index time src : Nat) (kind : EvKind) (data : Nat) : (s.occurAt index time src kind data).plc = s.plc := still_plc (occurAt_still s index time src kind data)
@[simp] theorem occurAt_radio (s : State) (index time src : Nat) (kind : EvKind) (data : Nat) : (s.occurAt index time src kind data).radio = s.radio := still_radio (occurAt_still s index time src kind data)
@[simp] theorem occurAt_ledger (s : State) (index time src : Nat) (kind : EvKind) (data : Nat) : (s.occurAt index time src kind data).ledger = s.ledger := still_ledger (occurAt_still s index time src kind data)
@[simp] theorem occurAt_mortar (s : State) (index time src : Nat) (kind : EvKind) (data : Nat) : (s.occurAt index time src kind data).mortar = s.mortar := still_mortar (occurAt_still s index time src kind data)
@[simp] theorem occurAt_host (s : State) (index time src : Nat) (kind : EvKind) (data : Nat) : (s.occurAt index time src kind data).host = s.host := still_host (occurAt_still s index time src kind data)
@[simp] theorem occurAt_cfg (s : State) (index time src : Nat) (kind : EvKind) (data : Nat) : (s.occurAt index time src kind data).cfg = s.cfg := still_cfg (occurAt_still s index time src kind data)
@[simp] theorem occurAt_store (s : State) (index time src : Nat) (kind : EvKind) (data : Nat) : (s.occurAt index time src kind data).store = s.store := still_store (occurAt_still s index time src kind data)
@[simp] theorem occurAt_power (s : State) (index time src : Nat) (kind : EvKind) (data : Nat) : (s.occurAt index time src kind data).power = s.power := still_power (occurAt_still s index time src kind data)
@[simp] theorem occurAt_kiln (s : State) (index time src : Nat) (kind : EvKind) (data : Nat) : (s.occurAt index time src kind data).kiln = s.kiln := still_kiln (occurAt_still s index time src kind data)
@[simp] theorem occurAt_fault (s : State) (index time src : Nat) (kind : EvKind) (data : Nat) : (s.occurAt index time src kind data).fault = s.fault := still_fault (occurAt_still s index time src kind data)
@[simp] theorem occurAt_pins (s : State) (index time src : Nat) (kind : EvKind) (data : Nat) : (s.occurAt index time src kind data).pins = s.pins := still_pins (occurAt_still s index time src kind data)

theorem modAllWin_still (s : State) (g : WinFn → WinFn) : (s.modAllWin g).still = s.still :=
  foldl_inv State.still (fun (s : State) f => s.modWin f g) (fun _ _ => rfl) (List.range 8) s

theorem modAllWin_ev (s : State) (g : WinFn → WinFn) : (s.modAllWin g).ev = s.ev :=
  foldl_inv State.ev (fun (s : State) f => s.modWin f g) (fun _ _ => rfl) (List.range 8) s

theorem f0_still (s : State) : s.f0.still = s.still := modAllWin_still _ _

theorem f0_ev (s : State) : s.f0.ev = s.ev := modAllWin_ev _ _

/-- The state without what a fault count changes: the router, the window functions, LAST_CAUSE. -/
def State.calm (s : State) : State := { s.still with fault.lastCause := 0 }

theorem calm_of_still {s t : State} (h : s.still = t.still) : s.calm = t.calm := by unfold State.calm; rw [h]

theorem setCause_calm (s : State) (n : Nat) : (s.setCause n).calm = s.calm := by
  unfold State.setCause; split <;> rfl

theorem f1_calm (s : State) (n : Nat) : (s.f1 n).calm = s.calm := by
  unfold State.f1
  rw [calm_of_still (pulse_still _ _ _), setCause_calm, calm_of_still (modAllWin_still _ _)]

theorem f2_calm (s : State) (n : Nat) : (s.f2 n).calm = s.calm := by
  unfold State.f2
  rw [calm_of_still (pulse_still _ _ _), setCause_calm, calm_of_still (modAllWin_still _ _)]

@[simp] theorem f0_pending (s : State) : s.f0.pending = s.pending := still_pending (f0_still s)
theorem calm_pending {a b : State} (h : a.calm = b.calm) : a.pending = b.pending := by
  have h' := congrArg State.pending h; exact h'
@[simp] theorem f1_pending (s : State) (n : Nat) : (s.f1 n).pending = s.pending := calm_pending (f1_calm s n)
@[simp] theorem f2_pending (s : State) (n : Nat) : (s.f2 n).pending = s.pending := calm_pending (f2_calm s n)
@[simp] theorem f0_freeCount (s : State) : s.f0.freeCount = s.freeCount := still_freeCount (f0_still s)
theorem calm_freeCount {a b : State} (h : a.calm = b.calm) : a.freeCount = b.freeCount := by
  have h' := congrArg State.freeCount h; exact h'
@[simp] theorem f1_freeCount (s : State) (n : Nat) : (s.f1 n).freeCount = s.freeCount := calm_freeCount (f1_calm s n)
@[simp] theorem f2_freeCount (s : State) (n : Nat) : (s.f2 n).freeCount = s.freeCount := calm_freeCount (f2_calm s n)
@[simp] theorem f0_time (s : State) : s.f0.time = s.time := still_time (f0_still s)
theorem calm_time {a b : State} (h : a.calm = b.calm) : a.time = b.time := by
  have h' := congrArg State.time h; exact h'
@[simp] theorem f1_time (s : State) (n : Nat) : (s.f1 n).time = s.time := calm_time (f1_calm s n)
@[simp] theorem f2_time (s : State) (n : Nat) : (s.f2 n).time = s.time := calm_time (f2_calm s n)
@[simp] theorem f0_rtc (s : State) : s.f0.rtc = s.rtc := still_rtc (f0_still s)
theorem calm_rtc {a b : State} (h : a.calm = b.calm) : a.rtc = b.rtc := by
  have h' := congrArg State.rtc h; exact h'
@[simp] theorem f1_rtc (s : State) (n : Nat) : (s.f1 n).rtc = s.rtc := calm_rtc (f1_calm s n)
@[simp] theorem f2_rtc (s : State) (n : Nat) : (s.f2 n).rtc = s.rtc := calm_rtc (f2_calm s n)
@[simp] theorem f0_front (s : State) : s.f0.front = s.front := still_front (f0_still s)
theorem calm_front {a b : State} (h : a.calm = b.calm) : a.front = b.front := by
  have h' := congrArg State.front h; exact h'
@[simp] theorem f1_front (s : State) (n : Nat) : (s.f1 n).front = s.front := calm_front (f1_calm s n)
@[simp] theorem f2_front (s : State) (n : Nat) : (s.f2 n).front = s.front := calm_front (f2_calm s n)
@[simp] theorem f0_metro (s : State) : s.f0.metro = s.metro := still_metro (f0_still s)
theorem calm_metro {a b : State} (h : a.calm = b.calm) : a.metro = b.metro := by
  have h' := congrArg State.metro h; exact h'
@[simp] theorem f1_metro (s : State) (n : Nat) : (s.f1 n).metro = s.metro := calm_metro (f1_calm s n)
@[simp] theorem f2_metro (s : State) (n : Nat) : (s.f2 n).metro = s.metro := calm_metro (f2_calm s n)
@[simp] theorem f0_pq (s : State) : s.f0.pq = s.pq := still_pq (f0_still s)
theorem calm_pq {a b : State} (h : a.calm = b.calm) : a.pq = b.pq := by
  have h' := congrArg State.pq h; exact h'
@[simp] theorem f1_pq (s : State) (n : Nat) : (s.f1 n).pq = s.pq := calm_pq (f1_calm s n)
@[simp] theorem f2_pq (s : State) (n : Nat) : (s.f2 n).pq = s.pq := calm_pq (f2_calm s n)
@[simp] theorem f0_acc (s : State) : s.f0.acc = s.acc := still_acc (f0_still s)
theorem calm_acc {a b : State} (h : a.calm = b.calm) : a.acc = b.acc := by
  have h' := congrArg State.acc h; exact h'
@[simp] theorem f1_acc (s : State) (n : Nat) : (s.f1 n).acc = s.acc := calm_acc (f1_calm s n)
@[simp] theorem f2_acc (s : State) (n : Nat) : (s.f2 n).acc = s.acc := calm_acc (f2_calm s n)
@[simp] theorem f0_tiles (s : State) : s.f0.tiles = s.tiles := still_tiles (f0_still s)
theorem calm_tiles {a b : State} (h : a.calm = b.calm) : a.tiles = b.tiles := by
  have h' := congrArg State.tiles h; exact h'
@[simp] theorem f1_tiles (s : State) (n : Nat) : (s.f1 n).tiles = s.tiles := calm_tiles (f1_calm s n)
@[simp] theorem f2_tiles (s : State) (n : Nat) : (s.f2 n).tiles = s.tiles := calm_tiles (f2_calm s n)
@[simp] theorem f0_aux (s : State) : s.f0.aux = s.aux := still_aux (f0_still s)
theorem calm_aux {a b : State} (h : a.calm = b.calm) : a.aux = b.aux := by
  have h' := congrArg State.aux h; exact h'
@[simp] theorem f1_aux (s : State) (n : Nat) : (s.f1 n).aux = s.aux := calm_aux (f1_calm s n)
@[simp] theorem f2_aux (s : State) (n : Nat) : (s.f2 n).aux = s.aux := calm_aux (f2_calm s n)
@[simp] theorem f0_bill (s : State) : s.f0.bill = s.bill := still_bill (f0_still s)
theorem calm_bill {a b : State} (h : a.calm = b.calm) : a.bill = b.bill := by
  have h' := congrArg State.bill h; exact h'
@[simp] theorem f1_bill (s : State) (n : Nat) : (s.f1 n).bill = s.bill := calm_bill (f1_calm s n)
@[simp] theorem f2_bill (s : State) (n : Nat) : (s.f2 n).bill = s.bill := calm_bill (f2_calm s n)
@[simp] theorem f0_plc (s : State) : s.f0.plc = s.plc := still_plc (f0_still s)
theorem calm_plc {a b : State} (h : a.calm = b.calm) : a.plc = b.plc := by
  have h' := congrArg State.plc h; exact h'
@[simp] theorem f1_plc (s : State) (n : Nat) : (s.f1 n).plc = s.plc := calm_plc (f1_calm s n)
@[simp] theorem f2_plc (s : State) (n : Nat) : (s.f2 n).plc = s.plc := calm_plc (f2_calm s n)
@[simp] theorem f0_radio (s : State) : s.f0.radio = s.radio := still_radio (f0_still s)
theorem calm_radio {a b : State} (h : a.calm = b.calm) : a.radio = b.radio := by
  have h' := congrArg State.radio h; exact h'
@[simp] theorem f1_radio (s : State) (n : Nat) : (s.f1 n).radio = s.radio := calm_radio (f1_calm s n)
@[simp] theorem f2_radio (s : State) (n : Nat) : (s.f2 n).radio = s.radio := calm_radio (f2_calm s n)
@[simp] theorem f0_ledger (s : State) : s.f0.ledger = s.ledger := still_ledger (f0_still s)
theorem calm_ledger {a b : State} (h : a.calm = b.calm) : a.ledger = b.ledger := by
  have h' := congrArg State.ledger h; exact h'
@[simp] theorem f1_ledger (s : State) (n : Nat) : (s.f1 n).ledger = s.ledger := calm_ledger (f1_calm s n)
@[simp] theorem f2_ledger (s : State) (n : Nat) : (s.f2 n).ledger = s.ledger := calm_ledger (f2_calm s n)
@[simp] theorem f0_mortar (s : State) : s.f0.mortar = s.mortar := still_mortar (f0_still s)
theorem calm_mortar {a b : State} (h : a.calm = b.calm) : a.mortar = b.mortar := by
  have h' := congrArg State.mortar h; exact h'
@[simp] theorem f1_mortar (s : State) (n : Nat) : (s.f1 n).mortar = s.mortar := calm_mortar (f1_calm s n)
@[simp] theorem f2_mortar (s : State) (n : Nat) : (s.f2 n).mortar = s.mortar := calm_mortar (f2_calm s n)
@[simp] theorem f0_host (s : State) : s.f0.host = s.host := still_host (f0_still s)
theorem calm_host {a b : State} (h : a.calm = b.calm) : a.host = b.host := by
  have h' := congrArg State.host h; exact h'
@[simp] theorem f1_host (s : State) (n : Nat) : (s.f1 n).host = s.host := calm_host (f1_calm s n)
@[simp] theorem f2_host (s : State) (n : Nat) : (s.f2 n).host = s.host := calm_host (f2_calm s n)
@[simp] theorem f0_cfg (s : State) : s.f0.cfg = s.cfg := still_cfg (f0_still s)
theorem calm_cfg {a b : State} (h : a.calm = b.calm) : a.cfg = b.cfg := by
  have h' := congrArg State.cfg h; exact h'
@[simp] theorem f1_cfg (s : State) (n : Nat) : (s.f1 n).cfg = s.cfg := calm_cfg (f1_calm s n)
@[simp] theorem f2_cfg (s : State) (n : Nat) : (s.f2 n).cfg = s.cfg := calm_cfg (f2_calm s n)
@[simp] theorem f0_store (s : State) : s.f0.store = s.store := still_store (f0_still s)
theorem calm_store {a b : State} (h : a.calm = b.calm) : a.store = b.store := by
  have h' := congrArg State.store h; exact h'
@[simp] theorem f1_store (s : State) (n : Nat) : (s.f1 n).store = s.store := calm_store (f1_calm s n)
@[simp] theorem f2_store (s : State) (n : Nat) : (s.f2 n).store = s.store := calm_store (f2_calm s n)
@[simp] theorem f0_power (s : State) : s.f0.power = s.power := still_power (f0_still s)
theorem calm_power {a b : State} (h : a.calm = b.calm) : a.power = b.power := by
  have h' := congrArg State.power h; exact h'
@[simp] theorem f1_power (s : State) (n : Nat) : (s.f1 n).power = s.power := calm_power (f1_calm s n)
@[simp] theorem f2_power (s : State) (n : Nat) : (s.f2 n).power = s.power := calm_power (f2_calm s n)
@[simp] theorem f0_kiln (s : State) : s.f0.kiln = s.kiln := still_kiln (f0_still s)
theorem calm_kiln {a b : State} (h : a.calm = b.calm) : a.kiln = b.kiln := by
  have h' := congrArg State.kiln h; exact h'
@[simp] theorem f1_kiln (s : State) (n : Nat) : (s.f1 n).kiln = s.kiln := calm_kiln (f1_calm s n)
@[simp] theorem f2_kiln (s : State) (n : Nat) : (s.f2 n).kiln = s.kiln := calm_kiln (f2_calm s n)
@[simp] theorem f0_fault (s : State) : s.f0.fault = s.fault := still_fault (f0_still s)
@[simp] theorem f0_pins (s : State) : s.f0.pins = s.pins := still_pins (f0_still s)
theorem calm_pins {a b : State} (h : a.calm = b.calm) : a.pins = b.pins := by
  have h' := congrArg State.pins h; exact h'
@[simp] theorem f1_pins (s : State) (n : Nat) : (s.f1 n).pins = s.pins := calm_pins (f1_calm s n)
@[simp] theorem f2_pins (s : State) (n : Nat) : (s.f2 n).pins = s.pins := calm_pins (f2_calm s n)

end Sys2Proof.Machine
end

