-- ==== Sys2Proof/Laws/Replies.lean ====
section
/-! SUPPORT. What a reply can change: the command path's way out, a lane's transmitter and the MSI-X vectors; the rest stays. -/

namespace Sys2Proof.Machine

theorem raise_apart (s : State) (b v : Nat) : (s.raise b v).apart = s.apart := by
  unfold State.raise; split
  · split <;> rfl
  · rfl

theorem raise_host (s : State) (b v : Nat) : (s.raise b v).host = s.host := by
  unfold State.raise; split
  · split <;> rfl
  · rfl

theorem raiseB0_apart (s : State) : s.raiseB0.apart = s.apart := by
  unfold State.raiseB0
  apply foldl_inv (g := State.apart)
  intro s x; split
  · exact raise_apart _ _ _
  · rfl

theorem raiseB0_host (s : State) : s.raiseB0.host = s.host := by
  unfold State.raiseB0
  apply foldl_inv (g := State.host)
  intro s x; split
  · exact raise_host _ _ _
  · rfl

theorem desk_of {s t : State} (h : s.host = t.host) : s.desk = t.desk := by unfold State.desk; rw [h]

theorem complete_apart (s : State) (fn q cap : Nat) (r : Reply) (b : Bool) : (s.complete fn q cap r b).apart = s.apart := by
  unfold State.complete; dsimp only; split
  · rfl
  · split
    · rfl
    · split
      · rw [raiseB0_apart, raise_apart]; rfl
      · rw [raise_apart]; rfl

theorem complete_desk (s : State) (fn q cap : Nat) (r : Reply) (b : Bool) : (s.complete fn q cap r b).desk = s.desk := by
  unfold State.complete; dsimp only; split
  · rfl
  · split
    · rfl
    · split
      · rw [desk_of (raiseB0_host _), desk_of (raise_host _ _ _)]; rfl
      · rw [desk_of (raise_host _ _ _)]; rfl

theorem serveConts_apart (s : State) (fn q : Nat) (l : List Reply) (caps : List Nat) : (s.serveConts fn q l caps).apart = s.apart := by
  induction l generalizing s caps with
  | nil => cases caps <;> rfl
  | cons r rs ih =>
    cases caps with
    | nil => rfl
    | cons c cs => unfold State.serveConts; rw [ih, complete_apart]; rfl

theorem addConts_apart (s : State) (fn q : Nat) (l : List Reply) : (s.addConts fn q l).apart = s.apart := by
  unfold State.addConts; dsimp only; rw [serveConts_apart]; rfl

theorem unitSend_apart (s : State) (l : List Nat) (u : LaneTx) : (s.unitSend l u).apart = s.apart :=
  foldl_inv State.apart (fun (s : State) m => s.laneSend m u) (fun _ _ => rfl) l s

theorem sendUnits_apart (s : State) (d : Nat) (l : List Reply) : (s.sendUnits d l).apart = s.apart := by
  induction l generalizing s with
  | nil => rfl
  | cons r rs ih => unfold State.sendUnits; dsimp only; rw [ih, unitSend_apart]; rfl

theorem send_apart (s : State) (tr : Transport) (r : Reply) (b : Bool) : (s.send tr r b).apart = s.apart := by
  unfold State.send; split
  · split
    · exact complete_apart _ _ _ _ _ _
    · dsimp only; split
      · rw [addConts_apart]; rfl
      · rw [addConts_apart, complete_apart]; rfl
  · split <;> rfl
  · split <;> rfl
  · split
    · rfl
    · rw [sendUnits_apart]; rfl

theorem sendTimes_apart (s : State) (tr : Transport) (r : Reply) (b : Bool) (n : Nat) : (s.sendTimes tr r b n).apart = s.apart := by
  induction n generalizing s with
  | zero => rfl
  | succ n ih => unfold State.sendTimes; rw [ih, send_apart]

theorem serveConts_desk (s : State) (fn q : Nat) (l : List Reply) (caps : List Nat) : (s.serveConts fn q l caps).desk = s.desk := by
  induction l generalizing s caps with
  | nil => cases caps <;> rfl
  | cons r rs ih =>
    cases caps with
    | nil => rfl
    | cons c cs => unfold State.serveConts; rw [ih, complete_desk]; rfl

theorem addConts_desk (s : State) (fn q : Nat) (l : List Reply) : (s.addConts fn q l).desk = s.desk := by
  unfold State.addConts; dsimp only; rw [serveConts_desk]; rfl

theorem unitSend_desk (s : State) (l : List Nat) (u : LaneTx) : (s.unitSend l u).desk = s.desk :=
  foldl_inv State.desk (fun (s : State) m => s.laneSend m u) (fun _ _ => rfl) l s

theorem sendUnits_desk (s : State) (d : Nat) (l : List Reply) : (s.sendUnits d l).desk = s.desk := by
  induction l generalizing s with
  | nil => rfl
  | cons r rs ih => unfold State.sendUnits; dsimp only; rw [ih, unitSend_desk]; rfl

theorem send_desk (s : State) (tr : Transport) (r : Reply) (b : Bool) : (s.send tr r b).desk = s.desk := by
  unfold State.send; split
  · split
    · exact complete_desk _ _ _ _ _ _
    · dsimp only; split
      · rw [addConts_desk]; rfl
      · rw [addConts_desk, complete_desk]; rfl
  · split <;> rfl
  · split <;> rfl
  · split
    · rfl
    · rw [sendUnits_desk]; rfl

theorem sendTimes_desk (s : State) (tr : Transport) (r : Reply) (b : Bool) (n : Nat) : (s.sendTimes tr r b n).desk = s.desk := by
  induction n generalizing s with
  | zero => rfl
  | succ n ih => unfold State.sendTimes; rw [ih, send_desk]

theorem dropStream_apart (s : State) (p : Packet) : (s.dropStream p).apart = s.apart := by
  unfold State.dropStream; split
  · split <;> rfl
  · rfl

theorem dropStream_desk (s : State) (p : Packet) : (s.dropStream p).desk = s.desk := by
  unfold State.dropStream; split
  · split <;> rfl
  · rfl

theorem modSess_kept_desk (s : State) (h : Nat) (g : List KeptTag → List KeptTag) :
    (s.modSess h fun x => { x with kept := g x.kept }).desk = s.desk := by
  unfold State.modSess State.desk
  simp only [List.map_map]
  congr 1
  apply List.map_congr_left
  intro x _
  simp only [Function.comp]; split <;> rfl

/-- A reply leaves everything but the command path, the lanes' transmitters and the MSI-X vectors as it is. -/
theorem answer_apart (s : State) (code : Nat) (p : Packet) (a : Res) : (s.answer code p a).apart = s.apart := by
  unfold State.answer; dsimp only
  rw [sendTimes_apart]
  show State.apart (if code = 0x0020 then s.dropStream p else s) = _
  split
  · exact dropStream_apart s p
  · rfl

/-- A reply leaves the queues, the challenges, the identities and every session but its kept replies as they are. -/
theorem answer_desk (s : State) (code : Nat) (p : Packet) (a : Res) : (s.answer code p a).desk = s.desk := by
  unfold State.answer; dsimp only
  rw [sendTimes_desk, modSess_kept_desk]
  split
  · exact dropStream_desk s p
  · rfl

theorem finishHeld_apart (s : State) (q : Nat) (a : Res) : (s.finishHeld q a).apart = s.apart := by
  unfold State.finishHeld; split
  · rw [answer_apart]; rfl
  · rfl

theorem finishHeld_desk (s : State) (q : Nat) (a : Res) : (s.finishHeld q a).desk = s.desk := by
  unfold State.finishHeld; split
  · rw [answer_desk]; rfl
  · rfl

theorem finishKind_apart (s : State) (sel : InFlight → Bool) (a : Res) : (s.finishKind sel a).apart = s.apart := by
  unfold State.finishKind
  apply foldl_inv (g := State.apart)
  intro s x; split
  · split
    · exact finishHeld_apart _ _ _
    · rfl
  · rfl

theorem finishKind_desk (s : State) (sel : InFlight → Bool) (a : Res) : (s.finishKind sel a).desk = s.desk := by
  unfold State.finishKind
  apply foldl_inv (g := State.desk)
  intro s x; split
  · split
    · exact finishHeld_desk _ _ _
    · rfl
  · rfl

theorem setQueue_queue (s : State) (q : Nat) (l : List QEntry) :
    (s.setQueue q l).host.queue = Tbl.set [] s.host.queue q l := by unfold State.setQueue; rfl

theorem setQueue_same {s : State} (h : Tbl.wf [] s.host.queue) (q : Nat) (l : List QEntry) : (s.setQueue q l).queueOf q = l := by
  unfold State.queueOf; rw [setQueue_queue]; exact Tbl.get_set_same _ h _ _

theorem setQueue_other (s : State) {q k : Nat} (h : k ≠ q) (l : List QEntry) : (s.setQueue q l).queueOf k = s.queueOf k := by
  unfold State.queueOf; rw [setQueue_queue]; exact Tbl.get_set_other _ _ h _

theorem modEv_bay (s : State) (b : Nat) (g : EvBay → EvBay) : (s.modEv b g).ev.bay = Tbl.upd {} s.ev.bay b g := by
  unfold State.modEv; rfl

theorem modEv_same {s : State} (h : Tbl.wf {} s.ev.bay) (b : Nat) (g : EvBay → EvBay) : (s.modEv b g).evBay b = g (s.evBay b) := by
  unfold State.evBay; rw [modEv_bay]; exact Tbl.get_upd_same _ h _ _

theorem modEv_other (s : State) {b n : Nat} (h : n ≠ b) (g : EvBay → EvBay) : (s.modEv b g).evBay n = s.evBay n := by
  unfold State.evBay; rw [modEv_bay]; exact Tbl.get_set_other _ _ h _

theorem modEv_wf {s : State} (h : Tbl.wf {} s.ev.bay) (b : Nat) (g : EvBay → EvBay) : Tbl.wf {} (s.modEv b g).ev.bay := by
  rw [modEv_bay]; exact Tbl.upd_wf _ h _ _

theorem apart_cfg {s t : State} (h : s.apart = t.apart) : s.cfg = t.cfg := by have h' := congrArg State.cfg h; exact h'
theorem apart_time {s t : State} (h : s.apart = t.apart) : s.time = t.time := by have h' := congrArg State.time h; exact h'
theorem apart_kiln {s t : State} (h : s.apart = t.apart) : s.kiln = t.kiln := by have h' := congrArg State.kiln h; exact h'
theorem apart_evBay {s t : State} (h : s.apart = t.apart) : s.ev.bay = t.ev.bay := by
  have h' := congrArg (fun s : State => s.ev.bay) h; exact h'
theorem apart_last {s t : State} (h : s.apart = t.apart) : s.ev.last = t.ev.last := by
  have h' := congrArg (fun s : State => s.ev.last) h; exact h'
theorem desk_queue {s t : State} (h : s.desk = t.desk) : s.host.queue = t.host.queue := by
  have h' := congrArg HostSt.queue h; exact h'
theorem desk_chal {s t : State} (h : s.desk = t.desk) : s.host.chal = t.host.chal := by
  have h' := congrArg HostSt.chal h; exact h'
theorem desk_sess {s t : State} (h : s.desk = t.desk) :
    s.host.sess.map (fun x : Session => { x with kept := [] }) = t.host.sess.map fun x => { x with kept := [] } := by
  have h' := congrArg HostSt.sess h; exact h'

end Sys2Proof.Machine
end

