-- ==== Sys2Proof/Laws/BayReset.lean ====
section
/-! SUPPORT. What the resets of bays and of the endpoint do to queues, sessions and the event router. -/

namespace Sys2Proof.Machine

theorem clear_fold (b : Nat) (l : List Nat) (s : State) (hw : Tbl.wf [] s.host.queue) :
    Tbl.wf [] (l.foldl (fun s q => s.setQueue (queueId b q) []) s).host.queue
    ∧ (∀ q ∈ l, (l.foldl (fun s q => s.setQueue (queueId b q) []) s).queueOf (queueId b q) = [])
    ∧ (∀ k, s.queueOf k = [] → (l.foldl (fun s q => s.setQueue (queueId b q) []) s).queueOf k = [])
    ∧ { (l.foldl (fun s q => s.setQueue (queueId b q) []) s) with host.queue := [] } = { s with host.queue := [] } := by
  induction l generalizing s with
  | nil => exact ⟨hw, by simp, fun k h => h, rfl⟩
  | cons a l ih =>
    rw [List.foldl_cons]
    have hw' : Tbl.wf [] (s.setQueue (queueId b a) []).host.queue := by rw [setQueue_queue]; exact Tbl.set_wf _ hw _ _
    obtain ⟨i1, i2, i3, i4⟩ := ih _ hw'
    have h0 : (s.setQueue (queueId b a) []).queueOf (queueId b a) = [] := setQueue_same hw _ _
    refine ⟨i1, ?_, ?_, i4.trans rfl⟩
    · intro q hq
      rcases List.mem_cons.1 hq with rfl | hq
      · exact i3 _ h0
      · exact i2 q hq
    · intro k hk
      apply i3
      by_cases hka : k = queueId b a
      · rw [hka]; exact h0
      · rw [setQueue_other _ hka]; exact hk
theorem end_fold (hs : List Nat) (s : State) :
    (hs.foldl State.endSess s).host.sess = s.host.sess.filter (fun x => !hs.contains x.handle)
    ∧ (hs.foldl State.endSess s).host.queue = s.host.queue
    ∧ (hs.foldl State.endSess s).host.chal = s.host.chal
    ∧ (hs.foldl State.endSess s).ev = s.ev := by
  induction hs generalizing s with
  | nil => simp
  | cons a l ih =>
    rw [List.foldl_cons]
    obtain ⟨i1, i2, i3, i4⟩ := ih (s.endSess a)
    refine ⟨?_, i2, i3, i4⟩
    rw [i1]
    show List.filter _ (List.filter _ _) = _
    rw [List.filter_filter]
    apply List.filter_congr
    intro x _
    by_cases hx : x.handle = a
    · simp [hx]
    · simp [hx, bne]
theorem pairs_fold (fn : Nat) (s : State) :
    (s.resetPairs fn).host.sess = s.host.sess ∧ (s.resetPairs fn).host.queue = s.host.queue
    ∧ (s.resetPairs fn).host.chal = s.host.chal ∧ (s.resetPairs fn).ev = s.ev := by
  have := foldl_inv (fun s : State => (s.host.sess, s.host.queue, s.host.chal, s.ev))
    (fun (s : State) q => { s with host.qp := Tbl.set {} s.host.qp (16 * fn + q) {} }) (fun _ _ => rfl) (List.range 16) s
  simp only [Prod.mk.injEq] at this
  exact this
/-- What PERST_N does to one function and its bay. -/
def State.portReset (s : State) (i : Nat) : State := ((s.clearQueues (i + 1)).resetPairs i).resetEvents (i + 1)

theorem portReset_facts {s : State} (hw : Tbl.wf [] s.host.queue) (he : Tbl.wf {} s.ev.bay) (i : Nat) :
    Tbl.wf [] (s.portReset i).host.queue ∧ Tbl.wf {} (s.portReset i).ev.bay
    ∧ (s.portReset i).host.sess = s.host.sess
    ∧ (∀ q, q < 16 → (s.portReset i).queueOf (queueId (i + 1) q) = [])
    ∧ (∀ k, s.queueOf k = [] → (s.portReset i).queueOf k = [])
    ∧ ((s.portReset i).evBay (i + 1)).map = defaultMap (i + 1) ∧ ((s.portReset i).evBay (i + 1)).queue = []
    ∧ ∀ b, b ≠ i + 1 → (s.portReset i).evBay b = s.evBay b := by
  obtain ⟨c1, c2, c3, c4⟩ := clear_fold (i + 1) (List.range 16) s hw
  obtain ⟨p1, p2, p3, p4⟩ := pairs_fold i (s.clearQueues (i + 1))
  have ce : (s.clearQueues (i + 1)).ev = s.ev := by
    have := congrArg (fun s : State => s.ev) c4; exact this
  have cs : (s.clearQueues (i + 1)).host.sess = s.host.sess := by
    have := congrArg (fun s : State => s.host.sess) c4; exact this
  unfold State.portReset
  generalize (s.clearQueues (i + 1)).resetPairs i = v at p1 p2 p3 p4
  have ve : Tbl.wf {} v.ev.bay := by rw [p4, ce]; exact he
  have vq : (v.resetEvents (i + 1)).host.queue = (s.clearQueues (i + 1)).host.queue := p2
  have qo : ∀ k, (v.resetEvents (i + 1)).queueOf k = (s.clearQueues (i + 1)).queueOf k := by
    intro k; unfold State.queueOf; rw [vq]
  have m : (v.resetEvents (i + 1)).evBay (i + 1) = _ := modEv_same ve (i + 1) _
  refine ⟨by rw [vq]; exact c1, modEv_wf ve _ _, p1.trans cs, fun q hq => ?_, fun k hk => ?_, by rw [m], by rw [m], fun b hb => ?_⟩
  · rw [qo]; exact c2 q (List.mem_range.2 hq)
  · rw [qo]; exact c3 k hk
  · unfold State.resetEvents; rw [modEv_other _ hb]; unfold State.evBay; rw [p4, ce]

theorem portResets (l : List Nat) {s : State} (hw : Tbl.wf [] s.host.queue) (he : Tbl.wf {} s.ev.bay) :
    (l.foldl State.portReset s).host.sess = s.host.sess
    ∧ (∀ i ∈ l, ∀ q, q < 16 → (l.foldl State.portReset s).queueOf (queueId (i + 1) q) = [])
    ∧ (∀ k, s.queueOf k = [] → (l.foldl State.portReset s).queueOf k = [])
    ∧ (∀ i ∈ l, ((l.foldl State.portReset s).evBay (i + 1)).map = defaultMap (i + 1)
        ∧ ((l.foldl State.portReset s).evBay (i + 1)).queue = [])
    ∧ (∀ b, (s.evBay b).map = defaultMap b ∧ (s.evBay b).queue = [] →
        ((l.foldl State.portReset s).evBay b).map = defaultMap b ∧ ((l.foldl State.portReset s).evBay b).queue = [])
    ∧ (l.foldl State.portReset s).evBay 0 = s.evBay 0 := by
  induction l generalizing s with
  | nil => simp
  | cons a l ih =>
    obtain ⟨f1, f2, f3, f4, f5, f6, f7, f8⟩ := portReset_facts hw he a
    rw [List.foldl_cons]
    generalize s.portReset a = v at f1 f2 f3 f4 f5 f6 f7 f8
    obtain ⟨i1, i2, i3, i4, i5, i6⟩ := ih f1 f2
    refine ⟨i1.trans f3, ?_, fun k hk => i3 k (f5 k hk), ?_, ?_, by rw [i6]; exact f8 0 (by omega)⟩
    · intro i hi q hq
      rcases List.mem_cons.1 hi with rfl | hi
      · exact i3 _ (f4 q hq)
      · exact i2 i hi q hq
    · intro i hi
      rcases List.mem_cons.1 hi with rfl | hi
      · exact i5 _ ⟨f6, f7⟩
      · exact i4 i hi
    · intro b hb
      by_cases hba : b = a + 1
      · rw [hba]; exact i5 _ ⟨f6, f7⟩
      · apply i5; rw [f8 b hba]; exact hb

end Sys2Proof.Machine
end

