-- ==== Sys2Proof/Laws/Clock.lean ====
section
/-! SUPPORT. What a sample boundary does besides advancing time leaves time and the configuration sets as they are. -/

set_option linter.all false

namespace Sys2Proof.Machine

/-- Sample index, system time, elapsed time and the configuration sets. -/
def State.clock (s : State) : Nat × Nat × Nat × KeySet × KeySet := (s.time.index, s.time.ns, s.time.mono, s.cfg.active, s.cfg.shadow)
@[simp] theorem clock_mk (a1 a2 a3 a4 a5 a6 a7 a8 a9 a10 a11 a12 a13 a14 a15 a16 a17 a18 a19 a20 a21 a22 a23 a24) : State.clock (State.mk a1 a2 a3 a4 a5 a6 a7 a8 a9 a10 a11 a12 a13 a14 a15 a16 a17 a18 a19 a20 a21 a22 a23 a24) = (a3.index, a3.ns, a3.mono, a19.active, a19.shadow) := rfl
@[simp] theorem clock_eta (s : State) : (s.time.index, s.time.ns, s.time.mono, s.cfg.active, s.cfg.shadow) = s.clock := rfl
theorem foldl_clock {α} {g : State → α → State} (h : ∀ s a, (g s a).clock = s.clock) {l : List α} {s : State} : (l.foldl g s).clock = s.clock := by
  induction l generalizing s with
  | nil => rfl
  | cons a t ih => rw [List.foldl_cons, ih, h]
theorem ite_clock {c : Prop} [Decidable c] {a b : State} {x} (ha : a.clock = x) (hb : b.clock = x) : (if c then a else b).clock = x := by split <;> assumption
theorem ite_fst_clock {β} {c : Prop} [Decidable c] {a b : State × β} {x} (ha : a.1.clock = x) (hb : b.1.clock = x) : (if c then a else b).1.clock = x := by split <;> assumption
theorem ite_snd_clock {β} {c : Prop} [Decidable c] {a b : β × State} {x} (ha : a.2.clock = x) (hb : b.2.clock = x) : (if c then a else b).2.clock = x := by split <;> assumption
/-- What is kept of an outcome: of the next state, else of the state before. -/
def out_clock (s : State) : Host.Outcome State Fault Refusal → Nat × Nat × Nat × KeySet × KeySet
  | .next t => t.clock
  | _ => s.clock
@[simp] theorem out_clock_next (s t : State) : out_clock s (.next t) = t.clock := rfl
theorem ite_out_clock {c : Prop} [Decidable c] {s : State} {a b} {x} (ha : out_clock s a = x) (hb : out_clock s b = x) : out_clock s (if c then a else b) = x := by split <;> assumption
/-- What is kept of an optional state. -/
def opt_clock (s : State) : Option State → Nat × Nat × Nat × KeySet × KeySet
  | some t => t.clock
  | none => s.clock
@[simp] theorem opt_clock_some (s t : State) : opt_clock s (some t) = t.clock := rfl
@[simp] theorem opt_clock_none (s : State) : opt_clock s none = s.clock := rfl
theorem foldl_fst_clock {α β} {g : State × β → α → State × β} (h : ∀ x a, (g x a).1.clock = x.1.clock) {l : List α} {x : State × β} : (l.foldl g x).1.clock = x.1.clock := by
  induction l generalizing x with
  | nil => rfl
  | cons a t ih => rw [List.foldl_cons, ih, h]
theorem foldl_snd_clock {α β} {g : β × State → α → β × State} (h : ∀ x a, (g x a).2.clock = x.2.clock) {l : List α} {x : β × State} : (l.foldl g x).2.clock = x.2.clock := by
  induction l generalizing x with
  | nil => rfl
  | cons a t ih => rw [List.foldl_cons, ih, h]


@[simp] theorem modWin_clock {s0 x1 x2} : (State.modWin s0 x1 x2).clock = s0.clock := by
  unfold State.modWin
  simp only [clock_mk, clock_eta]

@[simp] theorem modAllWin_clock {s0 x1} : (State.modAllWin s0 x1).clock = s0.clock := by
  unfold State.modAllWin
  with_reducible repeat' first
    | assumption
    | rfl
    | (refine (foldl_clock ?_).trans ?_; on_goal 1 => intro s0 _)
    | (simp only [*, modWin_clock, clock_mk, clock_eta]; done)
    | split
    | (simp [*]; done)
    | simp only [*, modWin_clock, clock_mk, clock_eta]

@[simp] theorem modEv_clock {s0 x1 x2} : (State.modEv s0 x1 x2).clock = s0.clock := by
  unfold State.modEv
  simp only [clock_mk, clock_eta]

@[simp] theorem raise_clock {s0 x1 x2} : (State.raise s0 x1 x2).clock = s0.clock := by
  unfold State.raise
  with_reducible repeat' first
    | assumption
    | rfl
    | (extract_lets +onlyGivenNames y; clear_value y)
    | refine ite_clock ?_ ?_
    | (simp only [*, modWin_clock, clock_mk, clock_eta]; done)
    | split
    | (simp [*]; done)
    | simp only [*, modWin_clock, clock_mk, clock_eta]

@[simp] theorem raiseB0_clock {s0} : (State.raiseB0 s0).clock = s0.clock := by
  unfold State.raiseB0
  with_reducible repeat' first
    | assumption
    | rfl
    | (extract_lets +onlyGivenNames y; clear_value y)
    | (refine (foldl_clock ?_).trans ?_; on_goal 1 => intro s0 _)
    | (simp only [*, raise_clock, clock_mk, clock_eta]; done)
    | split
    | (simp [*]; done)
    | simp only [*, raise_clock, clock_mk, clock_eta]

@[simp] theorem evPut_clock {s0 x1 x2} : (State.evPut s0 x1 x2).clock = s0.clock := by
  unfold State.evPut
  with_reducible repeat' first
    | assumption
    | rfl
    | (extract_lets +onlyGivenNames y
       refine (show (y.clock = s0.clock → _) from fun h => ?_) ?_
       on_goal 1 => clear_value y
       on_goal 2 => (simp only [y]; try clear y))
    | (extract_lets +onlyGivenNames y; clear_value y)
    | refine ite_clock ?_ ?_
    | (simp only [*, raise_clock, modEv_clock, raiseB0_clock, clock_mk, clock_eta]; done)
    | split
    | (simp [*]; done)
    | simp only [*, raise_clock, modEv_clock, raiseB0_clock, clock_mk, clock_eta]

@[simp] theorem deliver_clock {s0 x1} : (State.deliver s0 x1).clock = s0.clock := by
  unfold State.deliver
  with_reducible repeat' first
    | assumption
    | rfl
    | (refine (foldl_clock ?_).trans ?_; on_goal 1 => intro s0 _)
    | refine ite_clock ?_ ?_
    | (simp only [*, evPut_clock, clock_mk, clock_eta]; done)
    | split
    | (simp [*]; done)
    | simp only [*, evPut_clock, clock_mk, clock_eta]

@[simp] theorem occurAt_clock {s0 x1 x2 x3 x4 x5} : (State.occurAt s0 x1 x2 x3 x4 x5).clock = s0.clock := by
  unfold State.occurAt
  with_reducible repeat' first
    | assumption
    | rfl
    | (extract_lets +onlyGivenNames y
       refine (show (y.clock = s0.clock → _) from fun h => ?_) ?_
       on_goal 1 => clear_value y
       on_goal 2 => (simp only [y]; try clear y))
    | (extract_lets +onlyGivenNames y
       have hk : Kiln.ph y = Kiln.ph (State.kiln _) := rfl
       clear_value y)
    | (extract_lets +onlyGivenNames y; clear_value y)
    | refine ite_clock ?_ ?_
    | (simp only [*, deliver_clock, clock_mk, clock_eta]; done)
    | split
    | (simp [*]; done)
    | simp only [*, deliver_clock, clock_mk, clock_eta]

@[simp] theorem occur_clock {s0 x1 x2 x3} : (State.occur s0 x1 x2 x3).clock = s0.clock := by
  unfold State.occur
  simp only [occurAt_clock, clock_mk, clock_eta]

@[simp] theorem pulse_clock {s0 x1 x2} : (State.pulse s0 x1 x2).clock = s0.clock := by
  unfold State.pulse
  simp only [occur_clock, clock_mk, clock_eta]

@[simp] theorem levelAt_clock {s0 x1 x2 x3 x4 x5} : (State.levelAt s0 x1 x2 x3 x4 x5).clock = s0.clock := by
  unfold State.levelAt
  with_reducible repeat' first
    | assumption
    | rfl
    | (extract_lets +onlyGivenNames y
       refine (show (y.clock = s0.clock → _) from fun h => ?_) ?_
       on_goal 1 => clear_value y
       on_goal 2 => (simp only [y]; try clear y))
    | (extract_lets +onlyGivenNames y
       have hk : Kiln.ph y = Kiln.ph (State.kiln _) := rfl
       clear_value y)
    | (extract_lets +onlyGivenNames y; clear_value y)
    | refine ite_clock ?_ ?_
    | (simp only [*, occurAt_clock, clock_mk, clock_eta]; done)
    | split
    | (simp [*]; done)
    | simp only [*, occurAt_clock, clock_mk, clock_eta]

@[simp] theorem level_clock {s0 x1 x2 x3} : (State.level s0 x1 x2 x3).clock = s0.clock := by
  unfold State.level
  simp only [levelAt_clock, clock_mk, clock_eta]

@[simp] theorem f0_clock {s0} : (State.f0 s0).clock = s0.clock := by
  unfold State.f0
  simp only [modAllWin_clock, clock_mk, clock_eta]

@[simp] theorem setCause_clock {s0 x1} : (State.setCause s0 x1).clock = s0.clock := by
  unfold State.setCause
  with_reducible repeat' first
    | assumption
    | rfl
    | (extract_lets +onlyGivenNames y; clear_value y)
    | refine ite_clock ?_ ?_
    | (simp only [*, clock_mk, clock_eta]; done)
    | split
    | (simp [*]; done)
    | simp only [*, clock_mk, clock_eta]

@[simp] theorem f1_clock {s0 x1} : (State.f1 s0 x1).clock = s0.clock := by
  unfold State.f1
  simp only [pulse_clock, setCause_clock, modAllWin_clock, clock_mk, clock_eta]

@[simp] theorem f2_clock {s0 x1} : (State.f2 s0 x1).clock = s0.clock := by
  unfold State.f2
  simp only [pulse_clock, setCause_clock, modAllWin_clock, clock_mk, clock_eta]

@[simp] theorem journalAdd_clock {s0 x1 x2 x3 x4 x5} : (State.journalAdd s0 x1 x2 x3 x4 x5).clock = s0.clock := by
  unfold State.journalAdd
  with_reducible repeat' first
    | assumption
    | rfl
    | (extract_lets +onlyGivenNames y
       refine (show (y.clock = s0.clock → _) from fun h => ?_) ?_
       on_goal 1 => clear_value y
       on_goal 2 => (simp only [y]; try clear y))
    | (extract_lets +onlyGivenNames y; clear_value y)
    | refine ite_clock ?_ ?_
    | (simp only [*, clock_mk, clock_eta]; done)
    | split
    | (simp [*]; done)
    | simp only [*, clock_mk, clock_eta]

@[simp] theorem modLane_clock {s0 x1 x2} : (State.modLane s0 x1 x2).clock = s0.clock := by
  unfold State.modLane
  simp only [clock_mk, clock_eta]

@[simp] theorem laneSend_clock {s0 x1 x2} : (State.laneSend s0 x1 x2).clock = s0.clock := by
  unfold State.laneSend
  simp only [modLane_clock, clock_mk, clock_eta]

@[simp] theorem unitSend_clock {s0 x1 x2} : (State.unitSend s0 x1 x2).clock = s0.clock := by
  unfold State.unitSend
  with_reducible repeat' first
    | assumption
    | rfl
    | (refine (foldl_clock ?_).trans ?_; on_goal 1 => intro s0 _)
    | (simp only [*, laneSend_clock, clock_mk, clock_eta]; done)
    | split
    | (simp [*]; done)
    | simp only [*, laneSend_clock, clock_mk, clock_eta]

@[simp] theorem setBusy_clock {s0 x1 x2} : (State.setBusy s0 x1 x2).clock = s0.clock := by
  unfold State.setBusy
  simp only [clock_mk, clock_eta]

@[simp] theorem modSess_clock {s0 x1 x2} : (State.modSess s0 x1 x2).clock = s0.clock := by
  unfold State.modSess
  simp only [clock_mk, clock_eta]

@[simp] theorem modQp_clock {s0 x1 x2 x3} : (State.modQp s0 x1 x2 x3).clock = s0.clock := by
  unfold State.modQp
  simp only [clock_mk, clock_eta]

@[simp] theorem complete_clock {s0 x1 x2 x3 x4 x5} : (State.complete s0 x1 x2 x3 x4 x5).clock = s0.clock := by
  unfold State.complete
  with_reducible repeat' first
    | assumption
    | rfl
    | (extract_lets +onlyGivenNames y
       refine (show (y.clock = s0.clock → _) from fun h => ?_) ?_
       on_goal 1 => clear_value y
       on_goal 2 => (simp only [y]; try clear y))
    | (extract_lets +onlyGivenNames y; clear_value y)
    | refine ite_clock ?_ ?_
    | (simp only [*, modQp_clock, raise_clock, raiseB0_clock, clock_mk, clock_eta]; done)
    | split
    | (simp [*]; done)
    | simp only [*, modQp_clock, raise_clock, raiseB0_clock, clock_mk, clock_eta]

@[simp] theorem serveConts_clock {s0 x1 x2 x3 x4} : (State.serveConts s0 x1 x2 x3 x4).clock = s0.clock := by
  induction x3 generalizing s0 x4 with
  | nil => cases x4 <;> rfl
  | cons r rs ih =>
    cases x4 with
    | nil => rfl
    | cons a l =>
      unfold State.serveConts
      exact ih.trans (complete_clock.trans modQp_clock)

@[simp] theorem addConts_clock {s0 x1 x2 x3} : (State.addConts s0 x1 x2 x3).clock = s0.clock := by
  unfold State.addConts
  simp only [modQp_clock, serveConts_clock, clock_mk, clock_eta]

@[simp] theorem sendUnits_clock {s0 x1 x2} : (State.sendUnits s0 x1 x2).clock = s0.clock := by
  induction x2 generalizing s0 with
  | nil => rfl
  | cons r rs ih =>
    unfold State.sendUnits
    exact ih.trans unitSend_clock

@[simp] theorem send_clock {s0 x1 x2 x3} : (State.send s0 x1 x2 x3).clock = s0.clock := by
  unfold State.send
  with_reducible repeat' first
    | assumption
    | rfl
    | (extract_lets +onlyGivenNames y
       refine (show (y.clock = s0.clock → _) from fun h => ?_) ?_
       on_goal 1 => clear_value y
       on_goal 2 => (simp only [y]; try clear y))
    | (extract_lets +onlyGivenNames y; clear_value y)
    | refine ite_clock ?_ ?_
    | (simp only [*, complete_clock, addConts_clock, sendUnits_clock, clock_mk, clock_eta]; done)
    | split
    | (simp [*]; done)
    | simp only [*, complete_clock, addConts_clock, sendUnits_clock, clock_mk, clock_eta]

@[simp] theorem sendTimes_clock {s0 x1 x2 x3 x4} : (State.sendTimes s0 x1 x2 x3 x4).clock = s0.clock := by
  induction x4 generalizing s0 with
  | zero => rfl
  | succ n ih =>
    unfold State.sendTimes
    exact ih.trans send_clock

@[simp] theorem dropStream_clock {s0 x1} : (State.dropStream s0 x1).clock = s0.clock := by
  unfold State.dropStream
  with_reducible repeat' first
    | assumption
    | rfl
    | (extract_lets +onlyGivenNames y; clear_value y)
    | refine ite_clock ?_ ?_
    | (simp only [*, setBusy_clock, clock_mk, clock_eta]; done)
    | split
    | (simp [*]; done)
    | simp only [*, setBusy_clock, clock_mk, clock_eta]

@[simp] theorem answer_clock {s0 x1 x2 x3} : (State.answer s0 x1 x2 x3).clock = s0.clock := by
  unfold State.answer
  with_reducible repeat' first
    | assumption
    | rfl
    | (extract_lets +onlyGivenNames y
       refine (show (y.clock = s0.clock → _) from fun h => ?_) ?_
       on_goal 1 => clear_value y
       on_goal 2 => (simp only [y]; try clear y))
    | (extract_lets +onlyGivenNames y; clear_value y)
    | refine ite_clock ?_ ?_
    | (simp only [*, dropStream_clock, modSess_clock, sendTimes_clock, clock_mk, clock_eta]; done)
    | split
    | (simp [*]; done)
    | simp only [*, dropStream_clock, modSess_clock, sendTimes_clock, clock_mk, clock_eta]

@[simp] theorem finishHeld_clock {s0 x1 x2} : (State.finishHeld s0 x1 x2).clock = s0.clock := by
  unfold State.finishHeld
  with_reducible repeat' first
    | assumption
    | rfl
    | (extract_lets +onlyGivenNames y; clear_value y)
    | (simp only [*, answer_clock, setBusy_clock, clock_mk, clock_eta]; done)
    | split
    | (simp [*]; done)
    | simp only [*, answer_clock, setBusy_clock, clock_mk, clock_eta]

@[simp] theorem modBmp_clock {s0 x1 x2} : (State.modBmp s0 x1 x2).clock = s0.clock := by
  unfold State.modBmp
  simp only [clock_mk, clock_eta]

@[simp] theorem modMpAcc_clock {s0 x1 x2} : (State.modMpAcc s0 x1 x2).clock = s0.clock := by
  unfold State.modMpAcc
  simp only [clock_mk, clock_eta]

@[simp] theorem legalEvent_clock {s0} : (State.legalEvent s0).clock = s0.clock := by
  unfold State.legalEvent
  with_reducible repeat' first
    | assumption
    | rfl
    | (extract_lets +onlyGivenNames y; clear_value y)
    | refine ite_clock ?_ ?_
    | (simp only [*, pulse_clock, clock_mk, clock_eta]; done)
    | split
    | (simp [*]; done)
    | simp only [*, pulse_clock, clock_mk, clock_eta]

@[simp] theorem modChan_clock {s0 x1 x2} : (State.modChan s0 x1 x2).clock = s0.clock := by
  unfold State.modChan
  simp only [clock_mk, clock_eta]

@[simp] theorem modCourse_clock {s0 x1 x2} : (State.modCourse s0 x1 x2).clock = s0.clock := by
  unfold State.modCourse
  simp only [clock_mk, clock_eta]

@[simp] theorem ownSample_clock {x1 s0} : (ownSample x1 s0).clock = s0.clock := by
  unfold ownSample
  with_reducible repeat' first
    | assumption
    | rfl
    | (extract_lets +onlyGivenNames y
       refine (show (y.clock = s0.clock → _) from fun h => ?_) ?_
       on_goal 1 => clear_value y
       on_goal 2 => (simp only [y]; try clear y))
    | (extract_lets +onlyGivenNames y; clear_value y)
    | refine ite_clock ?_ ?_
    | (simp only [*, modChan_clock, f0_clock, f1_clock, pulse_clock, clock_mk, clock_eta]; done)
    | split
    | (simp [*]; done)
    | simp only [*, modChan_clock, f0_clock, f1_clock, pulse_clock, clock_mk, clock_eta]

@[simp] theorem ovrStream_clock {x1 x2 s0} : (ovrStream x1 x2 s0).clock = s0.clock := by
  unfold ovrStream
  with_reducible repeat' first
    | assumption
    | rfl
    | (extract_lets +onlyGivenNames y
       refine (show (y.clock = s0.clock → _) from fun h => ?_) ?_
       on_goal 1 => clear_value y
       on_goal 2 => (simp only [y]; try clear y))
    | (extract_lets +onlyGivenNames y; clear_value y)
    | refine ite_clock ?_ ?_
    | (simp only [*, modChan_clock, level_clock, clock_mk, clock_eta]; done)
    | split
    | (simp [*]; done)
    | simp only [*, modChan_clock, level_clock, clock_mk, clock_eta]

@[simp] theorem plainStream_clock {x1 s0} : (plainStream x1 s0).clock = s0.clock := by
  unfold plainStream
  simp only [ovrStream_clock, modChan_clock, clock_mk, clock_eta]

@[simp] theorem lowStream_clock {x1 x2 s0} : (lowStream x1 x2 s0).clock = s0.clock := by
  unfold lowStream
  with_reducible repeat' first
    | assumption
    | rfl
    | (extract_lets +onlyGivenNames y
       refine (show (y.clock = s0.clock → _) from fun h => ?_) ?_
       on_goal 1 => clear_value y
       on_goal 2 => (simp only [y]; try clear y))
    | (extract_lets +onlyGivenNames y; clear_value y)
    | refine ite_clock ?_ ?_
    | (simp only [*, ovrStream_clock, modChan_clock, clock_mk, clock_eta]; done)
    | split
    | (simp [*]; done)
    | simp only [*, ovrStream_clock, modChan_clock, clock_mk, clock_eta]

@[simp] theorem pairStream_clock {x1 x2 s0} : (pairStream x1 x2 s0).clock = s0.clock := by
  unfold pairStream
  with_reducible repeat' first
    | assumption
    | rfl
    | (extract_lets +onlyGivenNames y
       refine (show (y.clock = s0.clock → _) from fun h => ?_) ?_
       on_goal 1 => clear_value y
       on_goal 2 => (simp only [y]; try clear y))
    | (extract_lets +onlyGivenNames y; clear_value y)
    | refine ite_clock ?_ ?_
    | (simp only [*, modChan_clock, pulse_clock, lowStream_clock, ovrStream_clock, clock_mk, clock_eta]; done)
    | split
    | (simp [*]; done)
    | simp only [*, modChan_clock, pulse_clock, lowStream_clock, ovrStream_clock, clock_mk, clock_eta]

@[simp] theorem combineStreams_clock {x1 s0} : (combineStreams x1 s0).clock = s0.clock := by
  unfold combineStreams
  with_reducible repeat' first
    | assumption
    | rfl
    | (extract_lets +onlyGivenNames y; clear_value y)
    | (refine (foldl_clock ?_).trans ?_; on_goal 1 => intro s0 _)
    | (simp only [*, pairStream_clock, plainStream_clock, clock_mk, clock_eta]; done)
    | split
    | (simp [*]; done)
    | simp only [*, pairStream_clock, plainStream_clock, clock_mk, clock_eta]

@[simp] theorem modChm_clock {s0 x1 x2} : (State.modChm s0 x1 x2).clock = s0.clock := by
  unfold State.modChm
  simp only [clock_mk, clock_eta]

@[simp] theorem modElem_clock {s0 x1 x2} : (State.modElem s0 x1 x2).clock = s0.clock := by
  unfold State.modElem
  simp only [clock_mk, clock_eta]

@[simp] theorem modVs_clock {s0 x1 x2} : (State.modVs s0 x1 x2).clock = s0.clock := by
  unfold State.modVs
  simp only [clock_mk, clock_eta]

@[simp] theorem modBond_clock {s0 x1 x2} : (State.modBond s0 x1 x2).clock = s0.clock := by
  unfold State.modBond
  simp only [clock_mk, clock_eta]

@[simp] theorem pushChan_clock {s0 x1 x2} : (State.pushChan s0 x1 x2).clock = s0.clock := by
  unfold State.pushChan
  simp only [modChm_clock, clock_mk, clock_eta]

@[simp] theorem pushDerived_clock {s0 x1 x2} : (State.pushDerived s0 x1 x2).clock = s0.clock := by
  unfold State.pushDerived
  with_reducible repeat' first
    | assumption
    | rfl
    | (extract_lets +onlyGivenNames y
       refine (show (y.clock = s0.clock → _) from fun h => ?_) ?_
       on_goal 1 => clear_value y
       on_goal 2 => (simp only [y]; try clear y))
    | (extract_lets +onlyGivenNames y; clear_value y)
    | (simp only [*, modChm_clock, clock_mk, clock_eta]; done)
    | split
    | (simp [*]; done)
    | simp only [*, modChm_clock, clock_mk, clock_eta]

@[simp] theorem markInvalid_clock {s0 x1} : (State.markInvalid s0 x1).clock = s0.clock := by
  unfold State.markInvalid
  simp only [modMpAcc_clock, modBmp_clock, clock_mk, clock_eta]

@[simp] theorem pushElem_clock {s0 x1 x2 x3 x4} : (State.pushElem s0 x1 x2 x3 x4).clock = s0.clock := by
  unfold State.pushElem
  with_reducible repeat' first
    | assumption
    | rfl
    | (extract_lets +onlyGivenNames y
       refine (show (y.clock = s0.clock → _) from fun h => ?_) ?_
       on_goal 1 => clear_value y
       on_goal 2 => (simp only [y]; try clear y))
    | (extract_lets +onlyGivenNames y; clear_value y)
    | refine ite_clock ?_ ?_
    | (simp only [*, modElem_clock, markInvalid_clock, clock_mk, clock_eta]; done)
    | split
    | (simp [*]; done)
    | simp only [*, modElem_clock, markInvalid_clock, clock_mk, clock_eta]

@[simp] theorem pushTap_clock {s0 x1 x2 x3} : (State.pushTap s0 x1 x2 x3).clock = s0.clock := by
  unfold State.pushTap
  simp only [modElem_clock, clock_mk, clock_eta]

@[simp] theorem pushReactive_clock {s0 x1 x2 x3} : (State.pushReactive s0 x1 x2 x3).clock = s0.clock := by
  unfold State.pushReactive
  simp only [pushTap_clock, clock_mk, clock_eta]

@[simp] theorem zcSample_clock {s0 x1 x2} : (State.zcSample s0 x1 x2).clock = s0.clock := by
  unfold State.zcSample
  with_reducible repeat' first
    | assumption
    | rfl
    | (extract_lets +onlyGivenNames y
       refine (show (y.clock = s0.clock → _) from fun h => ?_) ?_
       on_goal 1 => clear_value y
       on_goal 2 => (simp only [y]; try clear y))
    | (extract_lets +onlyGivenNames y; clear_value y)
    | refine ite_clock ?_ ?_
    | (simp only [*, modVs_clock, clock_mk, clock_eta]; done)
    | split
    | (simp [*]; done)
    | simp only [*, modVs_clock, clock_mk, clock_eta]

@[simp] theorem registerLevel_clock {s0 x1 x2 x3} : (State.registerLevel s0 x1 x2 x3).clock = s0.clock := by
  unfold State.registerLevel
  simp only [levelAt_clock, clock_mk, clock_eta]

@[simp] theorem setCreep_clock {s0 x1 x2 x3 x4 x5} : (State.setCreep s0 x1 x2 x3 x4 x5).clock = s0.clock := by
  unfold State.setCreep
  simp only [modChm_clock, registerLevel_clock, levelAt_clock, clock_mk, clock_eta]

@[simp] theorem beginCreep_clock {s0 x1} : (State.beginCreep s0 x1).clock = s0.clock := by
  unfold State.beginCreep
  with_reducible repeat' first
    | assumption
    | rfl
    | (refine (foldl_clock ?_).trans ?_; on_goal 1 => intro s0 _)
    | (simp only [*, setCreep_clock, clock_mk, clock_eta]; done)
    | split
    | (simp [*]; done)
    | simp only [*, setCreep_clock, clock_mk, clock_eta]

@[simp] theorem creepStarts_clock {s0} : (State.creepStarts s0).clock = s0.clock := by
  unfold State.creepStarts
  with_reducible repeat' first
    | assumption
    | rfl
    | (extract_lets +onlyGivenNames y
       refine (show (y.clock = s0.clock → _) from fun h => ?_) ?_
       on_goal 1 => clear_value y
       on_goal 2 => (simp only [y]; try clear y))
    | (extract_lets +onlyGivenNames y; clear_value y)
    | (refine (foldl_clock ?_).trans ?_; on_goal 1 => intro s0 _)
    | (simp only [*, beginCreep_clock, clock_mk, clock_eta]; done)
    | split
    | (simp [*]; done)
    | simp only [*, beginCreep_clock, clock_mk, clock_eta]

@[simp] theorem closeWindow_clock {s0 x1 x2 x3 x4} : (State.closeWindow s0 x1 x2 x3 x4).clock = s0.clock := by
  unfold State.closeWindow
  with_reducible repeat' first
    | assumption
    | rfl
    | (extract_lets +onlyGivenNames y
       refine (show (y.clock = s0.clock → _) from fun h => ?_) ?_
       on_goal 1 => clear_value y
       on_goal 2 => (simp only [y]; try clear y))
    | (extract_lets +onlyGivenNames y; clear_value y)
    | (simp only [*, modVs_clock, clock_mk, clock_eta]; done)
    | split
    | (simp [*]; done)
    | simp only [*, modVs_clock, clock_mk, clock_eta]

@[simp] theorem modGen_clock {s0 x1 x2} : (State.modGen s0 x1 x2).clock = s0.clock := by
  unfold State.modGen
  simp only [clock_mk, clock_eta]

@[simp] theorem drivePulse_clock {s0 x1 x2} : (State.drivePulse s0 x1 x2).clock = s0.clock := by
  unfold State.drivePulse
  simp only [clock_mk, clock_eta]

@[simp] theorem pulseStep_clock {s0 x1 x2} : (State.pulseStep s0 x1 x2).clock = s0.clock := by
  unfold State.pulseStep
  with_reducible repeat' first
    | assumption
    | rfl
    | (extract_lets +onlyGivenNames y
       refine (show (y.clock = s0.clock → _) from fun h => ?_) ?_
       on_goal 1 => clear_value y
       on_goal 2 => (simp only [y]; try clear y))
    | (extract_lets +onlyGivenNames y; clear_value y)
    | refine ite_clock ?_ ?_
    | (simp only [*, modGen_clock, drivePulse_clock, level_clock, clock_mk, clock_eta]; done)
    | split
    | (simp [*]; done)
    | simp only [*, modGen_clock, drivePulse_clock, level_clock, clock_mk, clock_eta]

@[simp] theorem accReadPulses_clock {x1 s0} : (accReadPulses x1 s0).1.clock = s0.clock := by
  unfold accReadPulses
  with_reducible repeat' first
    | assumption
    | rfl
    | (extract_lets +onlyGivenNames y
       refine (show (y.clock = s0.clock → _) from fun h => ?_) ?_
       on_goal 1 => clear_value y
       on_goal 2 => (simp only [y]; try clear y))
    | (extract_lets +onlyGivenNames y; clear_value y)
    | (refine (foldl_clock ?_).trans ?_; on_goal 1 => intro s0 _)
    | (simp only [*, modGen_clock, clock_mk, clock_eta]; done)
    | split
    | (simp [*]; done)
    | simp only [*, modGen_clock, clock_mk, clock_eta]

@[simp] theorem accReadLatch_clock {x1 x2 s0} : (accReadLatch x1 x2 s0).1.clock = s0.clock := by
  unfold accReadLatch
  with_reducible repeat' first
    | assumption
    | rfl
    | (extract_lets +onlyGivenNames y
       refine (show (y.clock = s0.clock → _) from fun h => ?_) ?_
       on_goal 1 => clear_value y
       on_goal 2 => (simp only [y]; try clear y))
    | (extract_lets +onlyGivenNames y; clear_value y)
    | (refine (foldl_clock ?_).trans ?_; on_goal 1 => intro s0 _)
    | (simp only [*, modMpAcc_clock, clock_mk, clock_eta]; done)
    | split
    | (simp [*]; done)
    | simp only [*, modMpAcc_clock, clock_mk, clock_eta]

@[simp] theorem readsPulses_clock {s0} : (State.readsPulses s0).clock = s0.clock := by
  unfold State.readsPulses
  with_reducible repeat' first
    | assumption
    | rfl
    | (extract_lets +onlyGivenNames y
       refine (show (y.clock = s0.clock → _) from fun h => ?_) ?_
       on_goal 1 => clear_value y
       on_goal 2 => (simp only [y]; try clear y))
    | (extract_lets +onlyGivenNames y
       refine (show (y.1.clock = s0.clock → _) from fun h => ?_) ?_
       on_goal 1 => clear_value y
       on_goal 2 => (simp only [y]; try clear y))
    | (extract_lets +onlyGivenNames y; clear_value y)
    | (refine (foldl_clock ?_).trans ?_; on_goal 1 => intro s0 _)
    | refine ite_clock ?_ ?_
    | (simp only [*, accReadPulses_clock, setBusy_clock, clock_mk, clock_eta]; done)
    | (split <;> (try (rename_i q; obtain ⟨q1, q2⟩ := Prod.ext_iff.mp q; simp only at q1 q2; subst q1 q2)))
    | (simp [*]; done)
    | simp only [*, accReadPulses_clock, setBusy_clock, clock_mk, clock_eta]

@[simp] theorem readsLatch_clock {s0} : (State.readsLatch s0).clock = s0.clock := by
  unfold State.readsLatch
  with_reducible repeat' first
    | assumption
    | rfl
    | (extract_lets +onlyGivenNames y
       refine (show (y.clock = s0.clock → _) from fun h => ?_) ?_
       on_goal 1 => clear_value y
       on_goal 2 => (simp only [y]; try clear y))
    | (extract_lets +onlyGivenNames y
       refine (show (y.1.clock = s0.clock → _) from fun h => ?_) ?_
       on_goal 1 => clear_value y
       on_goal 2 => (simp only [y]; try clear y))
    | (extract_lets +onlyGivenNames y; clear_value y)
    | (refine (foldl_clock ?_).trans ?_; on_goal 1 => intro s0 _)
    | (simp only [*, accReadLatch_clock, finishHeld_clock, clock_mk, clock_eta]; done)
    | (split <;> (try (rename_i q; obtain ⟨q1, q2⟩ := Prod.ext_iff.mp q; simp only at q1 q2; subst q1 q2)))
    | (simp [*]; done)
    | simp only [*, accReadLatch_clock, finishHeld_clock, clock_mk, clock_eta]

@[simp] theorem markPreset_clock {s0 x1} : (State.markPreset s0 x1).clock = s0.clock := by
  unfold State.markPreset
  simp only [clock_mk, clock_eta]

@[simp] theorem applyPreset_clock {x1 s0} : (applyPreset x1 s0).1.clock = s0.clock := by
  unfold applyPreset
  with_reducible repeat' first
    | assumption
    | rfl
    | (extract_lets +onlyGivenNames y
       refine (show (y.clock = s0.clock → _) from fun h => ?_) ?_
       on_goal 1 => clear_value y
       on_goal 2 => (simp only [y]; try clear y))
    | (extract_lets +onlyGivenNames y; clear_value y)
    | refine ite_clock ?_ ?_
    | refine ite_fst_clock ?_ ?_
    | (simp only [*, modMpAcc_clock, legalEvent_clock, markPreset_clock, journalAdd_clock, modGen_clock, clock_mk, clock_eta]; done)
    | split
    | (simp [*]; done)
    | simp only [*, modMpAcc_clock, legalEvent_clock, markPreset_clock, journalAdd_clock, modGen_clock, clock_mk, clock_eta]

@[simp] theorem presetsAtBoundary_clock {s0} : (State.presetsAtBoundary s0).clock = s0.clock := by
  unfold State.presetsAtBoundary
  dsimp only
  refine (foldl_clock ?_).trans ?_
  · intro s e
    split
    · split
      · have hb := applyPreset_clock (x1 := (by assumption : InFlight).entry.pkt) (s0 := s)
        split <;> rename_i q <;> rw [q] at hb <;> simpa using hb
      · rfl
    · rfl
  · rfl

@[simp] theorem discTrack_clock {s0 x1} : (State.discTrack s0 x1).clock = s0.clock := by
  unfold State.discTrack
  simp only [modMpAcc_clock, clock_mk, clock_eta]

@[simp] theorem markIntervals_clock {s0 x1} : (State.markIntervals s0 x1).clock = s0.clock := by
  unfold State.markIntervals
  with_reducible repeat' first
    | assumption
    | rfl
    | (extract_lets +onlyGivenNames y; clear_value y)
    | (refine (foldl_clock ?_).trans ?_; on_goal 1 => intro s0 _)
    | (simp only [*, modBmp_clock, clock_mk, clock_eta]; done)
    | split
    | (simp [*]; done)
    | simp only [*, modBmp_clock, clock_mk, clock_eta]

@[simp] theorem pushEnd_clock {s0 x1 x2 x3 x4 x5 x6} : (State.pushEnd s0 x1 x2 x3 x4 x5 x6).clock = s0.clock := by
  unfold State.pushEnd
  simp only [modBmp_clock, clock_mk, clock_eta]

@[simp] theorem capture_clock {s0 x1 x2} : (State.capture s0 x1 x2).clock = s0.clock := by
  unfold State.capture
  simp only [modBmp_clock, clock_mk, clock_eta]

@[simp] theorem pushEnds_clock {s0 x1 x2 x3 x4 x5} : (State.pushEnds s0 x1 x2 x3 x4 x5).clock = s0.clock := by
  unfold State.pushEnds
  with_reducible repeat' first
    | assumption
    | rfl
    | (refine (foldl_clock ?_).trans ?_; on_goal 1 => intro s0 _)
    | (simp only [*, pushEnd_clock, clock_mk, clock_eta]; done)
    | split
    | (simp [*]; done)
    | simp only [*, pushEnd_clock, clock_mk, clock_eta]

@[simp] theorem swapInterval_clock {s0 x1} : (State.swapInterval s0 x1).clock = s0.clock := by
  unfold State.swapInterval
  simp only [clock_mk, clock_eta]

@[simp] theorem profGridEnd_clock {s0} : (State.profGridEnd s0).clock = s0.clock := by
  unfold State.profGridEnd
  with_reducible repeat' first
    | assumption
    | rfl
    | (extract_lets +onlyGivenNames y
       refine (show (y.clock = s0.clock → _) from fun h => ?_) ?_
       on_goal 1 => clear_value y
       on_goal 2 => (simp only [y]; try clear y))
    | (extract_lets +onlyGivenNames y; clear_value y)
    | refine ite_clock ?_ ?_
    | (simp only [*, swapInterval_clock, pushEnds_clock, clock_mk, clock_eta]; done)
    | split
    | (simp [*]; done)
    | simp only [*, swapInterval_clock, pushEnds_clock, clock_mk, clock_eta]

@[simp] theorem subGridEnd_clock {s0} : (State.subGridEnd s0).clock = s0.clock := by
  unfold State.subGridEnd
  exact ite_clock rfl pushEnds_clock

@[simp] theorem rateChange_clock {s0} : (State.rateChange s0).clock = s0.clock := by
  unfold State.rateChange
  with_reducible repeat' first
    | assumption
    | rfl
    | (extract_lets +onlyGivenNames y
       refine (show (y.clock = s0.clock → _) from fun h => ?_) ?_
       on_goal 1 => clear_value y
       on_goal 2 => (simp only [y]; try clear y))
    | (extract_lets +onlyGivenNames y; clear_value y)
    | (refine (foldl_clock ?_).trans ?_; on_goal 1 => intro s0 _)
    | refine ite_clock ?_ ?_
    | (simp only [*, modBmp_clock, clock_mk, clock_eta]; done)
    | split
    | (simp [*]; done)
    | simp only [*, modBmp_clock, clock_mk, clock_eta]

@[simp] theorem activateTariff_clock {s0} : (State.activateTariff s0).clock = s0.clock := by
  unfold State.activateTariff
  simp only [markIntervals_clock, rateChange_clock, clock_mk, clock_eta]

@[simp] theorem billReset_clock {s0} : (State.billReset s0).clock = s0.clock := by
  unfold State.billReset
  with_reducible repeat' first
    | assumption
    | rfl
    | (extract_lets +onlyGivenNames y
       refine (show (y.clock = s0.clock → _) from fun h => ?_) ?_
       on_goal 1 => clear_value y
       on_goal 2 => (simp only [y]; try clear y))
    | (extract_lets +onlyGivenNames y; clear_value y)
    | (refine (foldl_clock ?_).trans ?_; on_goal 1 => intro s0 _)
    | refine ite_clock ?_ ?_
    | (simp only [*, subGridEnd_clock, profGridEnd_clock, modBmp_clock, capture_clock, markIntervals_clock, clock_mk, clock_eta]; done)
    | split
    | (simp [*]; done)
    | simp only [*, subGridEnd_clock, profGridEnd_clock, modBmp_clock, capture_clock, markIntervals_clock, clock_mk, clock_eta]

@[simp] theorem billsNow_clock {s0} : (State.billsNow s0).clock = s0.clock := by
  unfold State.billsNow
  with_reducible repeat' first
    | assumption
    | rfl
    | (extract_lets +onlyGivenNames y; clear_value y)
    | (refine (foldl_clock ?_).trans ?_; on_goal 1 => intro s0 _)
    | refine ite_clock ?_ ?_
    | (simp only [*, finishHeld_clock, activateTariff_clock, billReset_clock, clock_mk, clock_eta]; done)
    | split
    | (simp [*]; done)
    | simp only [*, finishHeld_clock, activateTariff_clock, billReset_clock, clock_mk, clock_eta]

@[simp] theorem modMon_clock {s0 x1 x2} : (State.modMon s0 x1 x2).clock = s0.clock := by
  unfold State.modMon
  simp only [clock_mk, clock_eta]

@[simp] theorem modPqc_clock {s0 x1 x2} : (State.modPqc s0 x1 x2).clock = s0.clock := by
  unfold State.modPqc
  simp only [clock_mk, clock_eta]

@[simp] theorem modRec_clock {s0 x1 x2} : (State.modRec s0 x1 x2).clock = s0.clock := by
  unfold State.modRec
  simp only [clock_mk, clock_eta]

@[simp] theorem rvcDiscard_clock {s0 x1} : (State.rvcDiscard s0 x1).clock = s0.clock := by
  unfold State.rvcDiscard
  simp only [level_clock, modMon_clock, clock_mk, clock_eta]

@[simp] theorem pqClose_clock {s0 x1 x2} : (State.pqClose s0 x1 x2).clock = s0.clock := by
  unfold State.pqClose
  with_reducible repeat' first
    | assumption
    | rfl
    | (extract_lets +onlyGivenNames y
       refine (show (y.clock = s0.clock → _) from fun h => ?_) ?_
       on_goal 1 => clear_value y
       on_goal 2 => (simp only [y]; try clear y))
    | (extract_lets +onlyGivenNames y; clear_value y)
    | (refine (foldl_clock ?_).trans ?_; on_goal 1 => intro s0 _)
    | refine ite_clock ?_ ?_
    | (simp only [*, modRec_clock, level_clock, modMon_clock, rvcDiscard_clock, modPqc_clock, clock_mk, clock_eta]; done)
    | split
    | (simp [*]; done)
    | simp only [*, modRec_clock, level_clock, modMon_clock, rvcDiscard_clock, modPqc_clock, clock_mk, clock_eta]

@[simp] theorem flickChannel_clock {s0 x1 x2} : (State.flickChannel s0 x1 x2).clock = s0.clock := by
  unfold State.flickChannel
  simp only [modPqc_clock, clock_mk, clock_eta]

@[simp] theorem flickCutAt_clock {s0 x1} : (State.flickCutAt s0 x1).clock = s0.clock := by
  unfold State.flickCutAt
  with_reducible repeat' first
    | assumption
    | rfl
    | (extract_lets +onlyGivenNames y
       refine (show (y.clock = s0.clock → _) from fun h => ?_) ?_
       on_goal 1 => clear_value y
       on_goal 2 => (simp only [y]; try clear y))
    | (extract_lets +onlyGivenNames y; clear_value y)
    | (refine (foldl_clock ?_).trans ?_; on_goal 1 => intro s0 _)
    | (simp only [*, modPqc_clock, modMon_clock, clock_mk, clock_eta]; done)
    | split
    | (simp [*]; done)
    | simp only [*, modPqc_clock, modMon_clock, clock_mk, clock_eta]

@[simp] theorem flicker_clock {s0 x1} : (State.flicker s0 x1).clock = s0.clock := by
  unfold State.flicker
  with_reducible repeat' first
    | assumption
    | rfl
    | (extract_lets +onlyGivenNames y
       refine (show (y.clock = s0.clock → _) from fun h => ?_) ?_
       on_goal 1 => clear_value y
       on_goal 2 => (simp only [y]; try clear y))
    | (extract_lets +onlyGivenNames y; clear_value y)
    | (refine (foldl_clock ?_).trans ?_; on_goal 1 => intro s0 _)
    | refine ite_clock ?_ ?_
    | (simp only [*, modMon_clock, flickCutAt_clock, flickChannel_clock, clock_mk, clock_eta]; done)
    | split
    | (simp [*]; done)
    | simp only [*, modMon_clock, flickCutAt_clock, flickChannel_clock, clock_mk, clock_eta]

@[simp] theorem modSlot_clock {s0 x1 x2} : (State.modSlot s0 x1 x2).clock = s0.clock := by
  unfold State.modSlot
  simp only [clock_mk, clock_eta]

@[simp] theorem modWcomp_clock {s0 x1 x2} : (State.modWcomp s0 x1 x2).clock = s0.clock := by
  unfold State.modWcomp
  simp only [clock_mk, clock_eta]

@[simp] theorem markSlots_clock {s0 x1 x2} : (State.markSlots s0 x1 x2).clock = s0.clock := by
  unfold State.markSlots
  with_reducible repeat' first
    | assumption
    | rfl
    | (extract_lets +onlyGivenNames y; clear_value y)
    | (refine (foldl_clock ?_).trans ?_; on_goal 1 => intro s0 _)
    | refine ite_clock ?_ ?_
    | (simp only [*, modSlot_clock, clock_mk, clock_eta]; done)
    | split
    | (simp [*]; done)
    | simp only [*, modSlot_clock, clock_mk, clock_eta]

@[simp] theorem statTouch_clock {s0 x1 x2} : (State.statTouch s0 x1 x2).clock = s0.clock := by
  unfold State.statTouch
  with_reducible repeat' first
    | assumption
    | rfl
    | (extract_lets +onlyGivenNames y; clear_value y)
    | (simp only [*, clock_mk, clock_eta]; done)
    | split
    | (simp [*]; done)
    | simp only [*, clock_mk, clock_eta]

@[simp] theorem displaceOne_clock {s0 x1} : (State.displaceOne s0 x1).clock = s0.clock := by
  unfold State.displaceOne
  with_reducible repeat' first
    | assumption
    | rfl
    | (extract_lets +onlyGivenNames y
       refine (show (y.clock = s0.clock → _) from fun h => ?_) ?_
       on_goal 1 => clear_value y
       on_goal 2 => (simp only [y]; try clear y))
    | (extract_lets +onlyGivenNames y; clear_value y)
    | refine ite_clock ?_ ?_
    | (simp only [*, markSlots_clock, statTouch_clock, clock_mk, clock_eta]; done)
    | split
    | (simp [*]; done)
    | simp only [*, markSlots_clock, statTouch_clock, clock_mk, clock_eta]

@[simp] theorem judgeSlot_clock {s0 x1 x2} : (State.judgeSlot s0 x1 x2).clock = s0.clock := by
  unfold State.judgeSlot
  with_reducible repeat' first
    | assumption
    | rfl
    | (extract_lets +onlyGivenNames y
       refine (show (y.clock = s0.clock → _) from fun h => ?_) ?_
       on_goal 1 => clear_value y
       on_goal 2 => (simp only [y]; try clear y))
    | (extract_lets +onlyGivenNames y; clear_value y)
    | (refine (foldl_clock ?_).trans ?_; on_goal 1 => intro s0 _)
    | (simp only [*, modWcomp_clock, clock_mk, clock_eta]; done)
    | split
    | (simp [*]; done)
    | simp only [*, modWcomp_clock, clock_mk, clock_eta]

@[simp] theorem conversion_clock {s0 x1} : (conversion s0 x1).clock = s0.clock := by
  unfold conversion
  with_reducible repeat' first
    | assumption
    | rfl
    | (extract_lets +onlyGivenNames y
       refine (show (y.clock = s0.clock → _) from fun h => ?_) ?_
       on_goal 1 => clear_value y
       on_goal 2 => (simp only [y]; try clear y))
    | (extract_lets +onlyGivenNames y; clear_value y)
    | refine ite_clock ?_ ?_
    | (simp only [*, judgeSlot_clock, modSlot_clock, clock_mk, clock_eta]; done)
    | split
    | (simp [*]; done)
    | simp only [*, judgeSlot_clock, modSlot_clock, clock_mk, clock_eta]

@[simp] theorem tempMonitor_clock {s0} : (State.tempMonitor s0).clock = s0.clock := by
  unfold State.tempMonitor
  with_reducible repeat' first
    | assumption
    | rfl
    | refine ite_clock ?_ ?_
    | (simp only [*, displaceOne_clock, clock_mk, clock_eta]; done)
    | split
    | (simp [*]; done)
    | simp only [*, displaceOne_clock, clock_mk, clock_eta]

@[simp] theorem modTile_clock {s0 x1 x2} : (State.modTile s0 x1 x2).clock = s0.clock := by
  unfold State.modTile
  simp only [clock_mk, clock_eta]

@[simp] theorem tileLevels_clock {s0 x1 x2} : (State.tileLevels s0 x1 x2).clock = s0.clock := by
  unfold State.tileLevels
  with_reducible repeat' first
    | assumption
    | rfl
    | (refine (foldl_clock ?_).trans ?_; on_goal 1 => intro s0 _)
    | refine ite_clock ?_ ?_
    | (simp only [*, levelAt_clock, clock_mk, clock_eta]; done)
    | split
    | (simp [*]; done)
    | simp only [*, levelAt_clock, clock_mk, clock_eta]

@[simp] theorem tileLevelsNow_clock {s0} : (State.tileLevelsNow s0).clock = s0.clock := by
  unfold State.tileLevelsNow
  simp only [tileLevels_clock, clock_mk, clock_eta]

@[simp] theorem fence_clock {s0 x1} : (State.fence s0 x1).clock = s0.clock := by
  unfold State.fence
  simp only [modTile_clock, clock_mk, clock_eta]

@[simp] theorem testsStart_clock {s0} : (State.testsStart s0).clock = s0.clock := by
  unfold State.testsStart
  simp only [clock_mk, clock_eta]

@[simp] theorem takeTile_clock {s0 x1 x2} : (State.takeTile s0 x1 x2).clock = s0.clock := by
  unfold State.takeTile
  simp only [modTile_clock, clock_mk, clock_eta]

@[simp] theorem replenish_clock {x1 s0} : (State.replenish x1 s0).clock = s0.clock := by
  induction x1 generalizing s0 with
  | zero => rfl
  | succ n ih =>
    unfold State.replenish
    refine ite_clock ?_ rfl
    split
    · exact ih.trans modTile_clock
    · rfl

@[simp] theorem settleGrouts_clock {s0} : (State.settleGrouts s0).clock = s0.clock := by
  unfold State.settleGrouts
  with_reducible repeat' first
    | assumption
    | rfl
    | (extract_lets +onlyGivenNames y
       refine (show (y.clock = s0.clock → _) from fun h => ?_) ?_
       on_goal 1 => clear_value y
       on_goal 2 => (simp only [y]; try clear y))
    | (extract_lets +onlyGivenNames y
       have hk : Kiln.ph y = Kiln.ph (State.kiln _) := rfl
       clear_value y)
    | (extract_lets +onlyGivenNames y; clear_value y)
    | (refine (foldl_clock ?_).trans ?_; on_goal 1 => intro s0 _)
    | refine ite_clock ?_ ?_
    | (simp only [*, modTile_clock, clock_mk, clock_eta]; done)
    | split
    | (simp [*]; done)
    | simp only [*, modTile_clock, clock_mk, clock_eta]

@[simp] theorem tilesSettle_clock {s0} : (State.tilesSettle s0).clock = s0.clock := by
  unfold State.tilesSettle
  simp only [tileLevelsNow_clock, settleGrouts_clock, replenish_clock, clock_mk, clock_eta]

@[simp] theorem toDuplex_clock {s0 x1} : (State.toDuplex s0 x1).clock = s0.clock := by
  unfold State.toDuplex
  with_reducible repeat' first
    | assumption
    | rfl
    | (extract_lets +onlyGivenNames y; clear_value y)
    | refine ite_clock ?_ ?_
    | (simp only [*, modBond_clock, f1_clock, clock_mk, clock_eta]; done)
    | split
    | (simp [*]; done)
    | simp only [*, modBond_clock, f1_clock, clock_mk, clock_eta]

@[simp] theorem startSubst_clock {s0 x1 x2} : (State.startSubst s0 x1 x2).clock = s0.clock := by
  unfold State.startSubst
  with_reducible repeat' first
    | assumption
    | rfl
    | (extract_lets +onlyGivenNames y
       refine (show (y.clock = s0.clock → _) from fun h => ?_) ?_
       on_goal 1 => clear_value y
       on_goal 2 => (simp only [y]; try clear y))
    | (extract_lets +onlyGivenNames y; clear_value y)
    | refine ite_clock ?_ ?_
    | (simp only [*, toDuplex_clock, tilesSettle_clock, modBond_clock, takeTile_clock, clock_mk, clock_eta]; done)
    | split
    | (simp [*]; done)
    | simp only [*, toDuplex_clock, tilesSettle_clock, modBond_clock, takeTile_clock, clock_mk, clock_eta]

@[simp] theorem releaseTile_clock {s0 x1} : (State.releaseTile s0 x1).clock = s0.clock := by
  unfold State.releaseTile
  simp only [modTile_clock, clock_mk, clock_eta]

@[simp] theorem pickTiles_clock {x1 x2 s0} : (State.pickTiles x1 x2 s0).2.2.clock = s0.clock := by
  induction x1 generalizing s0 with
  | zero => rfl
  | succ n ih =>
    unfold State.pickTiles
    split
    · rfl
    · dsimp only
      simp only [ih, takeTile_clock]

@[simp] theorem gather_clock {s0 x1 x2 x3 x4 x5} : (State.gather s0 x1 x2 x3 x4 x5).clock = s0.clock := by
  unfold State.gather
  with_reducible repeat' first
    | assumption
    | rfl
    | (extract_lets +onlyGivenNames y
       refine (show (y.clock = s0.clock → _) from fun h => ?_) ?_
       on_goal 1 => clear_value y
       on_goal 2 => (simp only [y]; try clear y))
    | (extract_lets +onlyGivenNames y
       refine (show (y.2.2.clock = s0.clock → _) from fun h => ?_) ?_
       on_goal 1 => clear_value y
       on_goal 2 => (simp only [y]; try clear y))
    | (extract_lets +onlyGivenNames y; clear_value y)
    | (refine (foldl_clock ?_).trans ?_; on_goal 1 => intro s0 _)
    | refine ite_clock ?_ ?_
    | (simp only [*, pickTiles_clock, tilesSettle_clock, modBond_clock, releaseTile_clock, clock_mk, clock_eta]; done)
    | (split <;> (try (rename_i q; obtain ⟨q1, q2⟩ := Prod.ext_iff.mp q; simp only at q1 q2; subst q1 q2)))
    | (simp [*]; done)
    | simp only [*, pickTiles_clock, tilesSettle_clock, modBond_clock, releaseTile_clock, clock_mk, clock_eta]

@[simp] theorem startRebuild_clock {s0 x1 x2} : (State.startRebuild s0 x1 x2).clock = s0.clock := by
  unfold State.startRebuild
  with_reducible repeat' first
    | assumption
    | rfl
    | refine ite_clock ?_ ?_
    | (simp only [*, gather_clock, clock_mk, clock_eta]; done)
    | split
    | (simp [*]; done)
    | simp only [*, gather_clock, clock_mk, clock_eta]

@[simp] theorem tryBondsBut_clock {s0 x1} : (State.tryBondsBut s0 x1).clock = s0.clock := by
  unfold State.tryBondsBut
  with_reducible repeat' first
    | assumption
    | rfl
    | (extract_lets +onlyGivenNames y
       refine (show (y.clock = s0.clock → _) from fun h => ?_) ?_
       on_goal 1 => clear_value y
       on_goal 2 => (simp only [y]; try clear y))
    | (extract_lets +onlyGivenNames y
       have hk : Kiln.ph y = Kiln.ph (State.kiln _) := rfl
       clear_value y)
    | (extract_lets +onlyGivenNames y; clear_value y)
    | (refine (foldl_clock ?_).trans ?_; on_goal 1 => intro s0 _)
    | refine ite_clock ?_ ?_
    | (simp only [*, startSubst_clock, startRebuild_clock, clock_mk, clock_eta]; done)
    | split
    | (simp [*]; done)
    | simp only [*, startSubst_clock, startRebuild_clock, clock_mk, clock_eta]

@[simp] theorem rejectJoining_clock {s0 x1 x2} : (State.rejectJoining s0 x1 x2).clock = s0.clock := by
  unfold State.rejectJoining
  with_reducible repeat' first
    | assumption
    | rfl
    | (extract_lets +onlyGivenNames y; clear_value y)
    | (simp only [*, tileLevels_clock, startSubst_clock, f0_clock, fence_clock, clock_mk, clock_eta]; done)
    | split
    | (simp [*]; done)
    | simp only [*, tileLevels_clock, startSubst_clock, f0_clock, fence_clock, clock_mk, clock_eta]

@[simp] theorem cutWindows_clock {s0 x1 x2} : (State.cutWindows s0 x1 x2).clock = s0.clock := by
  unfold State.cutWindows
  with_reducible repeat' first
    | assumption
    | rfl
    | (extract_lets +onlyGivenNames y; clear_value y)
    | (refine (foldl_clock ?_).trans ?_; on_goal 1 => intro s0 _)
    | refine ite_clock ?_ ?_
    | (simp only [*, closeWindow_clock, clock_mk, clock_eta]; done)
    | split
    | (simp [*]; done)
    | simp only [*, closeWindow_clock, clock_mk, clock_eta]

@[simp] theorem fall_clock {s0 x1} : (State.fall s0 x1).clock = s0.clock := by
  unfold State.fall
  with_reducible repeat' first
    | assumption
    | rfl
    | (extract_lets +onlyGivenNames y
       refine (show (y.clock = s0.clock → _) from fun h => ?_) ?_
       on_goal 1 => clear_value y
       on_goal 2 => (simp only [y]; try clear y))
    | (extract_lets +onlyGivenNames y; clear_value y)
    | (refine (foldl_clock ?_).trans ?_; on_goal 1 => intro s0 _)
    | refine ite_clock ?_ ?_
    | (simp only [*, cutWindows_clock, modMon_clock, pqClose_clock, f2_clock, fence_clock, releaseTile_clock, modBond_clock, tileLevelsNow_clock, tryBondsBut_clock, tilesSettle_clock, startRebuild_clock, clock_mk, clock_eta]; done)
    | split
    | (simp [*]; done)
    | simp only [*, cutWindows_clock, modMon_clock, pqClose_clock, f2_clock, fence_clock, releaseTile_clock, modBond_clock, tileLevelsNow_clock, tryBondsBut_clock, tilesSettle_clock, startRebuild_clock, clock_mk, clock_eta]

theorem timeAt_clock_back {a b : State} (i : Nat) (h : b.clock = (a.timeAt (a.time.index + 1) 0).clock) (k : Nat) (hk : k = a.time.index) :
    (b.timeAt k i).clock = a.clock := by
  unfold State.clock at *
  simp only [Prod.mk.injEq] at h
  obtain ⟨h1, h2, h3, h4, h5⟩ := h
  subst hk
  unfold State.timeAt at *
  simp only [Prod.mk.injEq, true_and] at *
  refine ⟨?_, ?_, h4, h5⟩
  · rw [h1, h2]; omega
  · rw [h1, h3]; omega

@[simp] theorem fallNext_clock {s0 x1} : (State.fallNext s0 x1).clock = s0.clock := by
  unfold State.fallNext State.atIndex
  exact timeAt_clock_back _ fall_clock _ rfl

@[simp] theorem footingFail_clock {s0 x1} : (State.footingFail s0 x1).clock = s0.clock := by
  unfold State.footingFail
  with_reducible repeat' first
    | assumption
    | rfl
    | (extract_lets +onlyGivenNames y; clear_value y)
    | refine ite_clock ?_ ?_
    | (simp only [*, f1_clock, modBond_clock, clock_mk, clock_eta]; done)
    | split
    | (simp [*]; done)
    | simp only [*, f1_clock, modBond_clock, clock_mk, clock_eta]

@[simp] theorem replaceRebuilding_clock {s0 x1 x2} : (State.replaceRebuilding s0 x1 x2).clock = s0.clock := by
  unfold State.replaceRebuilding
  with_reducible repeat' first
    | assumption
    | rfl
    | (extract_lets +onlyGivenNames y
       refine (show (y.clock = s0.clock → _) from fun h => ?_) ?_
       on_goal 1 => clear_value y
       on_goal 2 => (simp only [y]; try clear y))
    | (extract_lets +onlyGivenNames y; clear_value y)
    | (refine (foldl_clock ?_).trans ?_; on_goal 1 => intro s0 _)
    | (simp only [*, f2_clock, fence_clock, gather_clock, clock_mk, clock_eta]; done)
    | split
    | (simp [*]; done)
    | simp only [*, f2_clock, fence_clock, gather_clock, clock_mk, clock_eta]

@[simp] theorem vote_clock {s0 x1 x2 x3} : (State.vote s0 x1 x2 x3).clock = s0.clock := by
  unfold State.vote
  with_reducible repeat' first
    | assumption
    | rfl
    | (extract_lets +onlyGivenNames y
       refine (show (y.clock = s0.clock → _) from fun h => ?_) ?_
       on_goal 1 => clear_value y
       on_goal 2 => (simp only [y]; try clear y))
    | (extract_lets +onlyGivenNames y; clear_value y)
    | refine ite_clock ?_ ?_
    | (simp only [*, fallNext_clock, fall_clock, f2_clock, fence_clock, tileLevelsNow_clock, startSubst_clock, modBond_clock, rejectJoining_clock, replaceRebuilding_clock, clock_mk, clock_eta]; done)
    | split
    | (simp [*]; done)
    | simp only [*, fallNext_clock, fall_clock, f2_clock, fence_clock, tileLevelsNow_clock, startSubst_clock, modBond_clock, rejectJoining_clock, replaceRebuilding_clock, clock_mk, clock_eta]

@[simp] theorem countIndex_clock {s0 x1} : (State.countIndex s0 x1).clock = s0.clock := by
  unfold State.countIndex
  simp only [clock_mk, clock_eta]

@[simp] theorem mark_clock {s0 x1 x2} : (State.mark s0 x1 x2).clock = s0.clock := by
  unfold State.mark
  simp only [modCourse_clock, clock_mk, clock_eta]

@[simp] theorem deadCourse_clock {s0 x1} : (State.deadCourse s0 x1).clock = s0.clock := by
  unfold State.deadCourse
  with_reducible repeat' first
    | assumption
    | rfl
    | (extract_lets +onlyGivenNames y; clear_value y)
    | (refine (foldl_clock ?_).trans ?_; on_goal 1 => intro s0 _)
    | (simp only [*, modChan_clock, clock_mk, clock_eta]; done)
    | split
    | (simp [*]; done)
    | simp only [*, modChan_clock, clock_mk, clock_eta]

@[simp] theorem marked_clock {s0 x1} : (State.marked s0 x1).clock = s0.clock := by
  unfold State.marked
  with_reducible repeat' first
    | assumption
    | rfl
    | (extract_lets +onlyGivenNames y
       refine (show (y.clock = s0.clock → _) from fun h => ?_) ?_
       on_goal 1 => clear_value y
       on_goal 2 => (simp only [y]; try clear y))
    | (extract_lets +onlyGivenNames y; clear_value y)
    | (refine (foldl_clock ?_).trans ?_; on_goal 1 => intro s0 _)
    | (simp only [*, modChan_clock, mark_clock, clock_mk, clock_eta]; done)
    | split
    | (simp [*]; done)
    | simp only [*, modChan_clock, mark_clock, clock_mk, clock_eta]

@[simp] theorem courseSample_clock {s0 x1 x2 x3} : (State.courseSample s0 x1 x2 x3).clock = s0.clock := by
  unfold State.courseSample
  with_reducible repeat' first
    | assumption
    | rfl
    | (extract_lets +onlyGivenNames y
       refine (show (y.clock = s0.clock → _) from fun h => ?_) ?_
       on_goal 1 => clear_value y
       on_goal 2 => (simp only [y]; try clear y))
    | (extract_lets +onlyGivenNames y; clear_value y)
    | (refine (foldl_clock ?_).trans ?_; on_goal 1 => intro s0 _)
    | refine ite_clock ?_ ?_
    | (simp only [*, deadCourse_clock, ownSample_clock, combineStreams_clock, marked_clock, clock_mk, clock_eta]; done)
    | split
    | (simp [*]; done)
    | simp only [*, deadCourse_clock, ownSample_clock, combineStreams_clock, marked_clock, clock_mk, clock_eta]

@[simp] theorem courseTotals_clock {s0 x1 x2 x3} : (State.courseTotals s0 x1 x2 x3).clock = s0.clock := by
  unfold State.courseTotals
  with_reducible repeat' first
    | assumption
    | rfl
    | (extract_lets +onlyGivenNames y
       refine (show (y.clock = s0.clock → _) from fun h => ?_) ?_
       on_goal 1 => clear_value y
       on_goal 2 => (simp only [y]; try clear y))
    | (extract_lets +onlyGivenNames y; clear_value y)
    | (refine (foldl_clock ?_).trans ?_; on_goal 1 => intro s0 _)
    | (simp only [*, pushChan_clock, pushDerived_clock, pushElem_clock, clock_mk, clock_eta]; done)
    | split
    | (simp [*]; done)
    | simp only [*, pushChan_clock, pushDerived_clock, pushElem_clock, clock_mk, clock_eta]

@[simp] theorem courseVote_clock {s0 x1 x2} : (State.courseVote s0 x1 x2).clock = s0.clock := by
  unfold State.courseVote
  with_reducible repeat' first
    | assumption
    | rfl
    | (extract_lets +onlyGivenNames y
       refine (show (y.clock = s0.clock → _) from fun h => ?_) ?_
       on_goal 1 => clear_value y
       on_goal 2 => (simp only [y]; try clear y))
    | (extract_lets +onlyGivenNames y; clear_value y)
    | refine ite_clock ?_ ?_
    | (simp only [*, footingFail_clock, vote_clock, clock_mk, clock_eta]; done)
    | split
    | (simp [*]; done)
    | simp only [*, footingFail_clock, vote_clock, clock_mk, clock_eta]

@[simp] theorem reactive_clock {s0} : (State.reactive s0).clock = s0.clock := by
  unfold State.reactive
  with_reducible repeat' first
    | assumption
    | rfl
    | (extract_lets +onlyGivenNames y
       refine (show (y.clock = s0.clock → _) from fun h => ?_) ?_
       on_goal 1 => clear_value y
       on_goal 2 => (simp only [y]; try clear y))
    | (extract_lets +onlyGivenNames y; clear_value y)
    | (refine (foldl_clock ?_).trans ?_; on_goal 1 => intro s0 _)
    | refine ite_clock ?_ ?_
    | (simp only [*, pushReactive_clock, pushTap_clock, clock_mk, clock_eta]; done)
    | split
    | (simp [*]; done)
    | simp only [*, pushReactive_clock, pushTap_clock, clock_mk, clock_eta]

@[simp] theorem detectors_clock {s0 x1 x2} : (State.detectors s0 x1 x2).clock = s0.clock := by
  unfold State.detectors
  with_reducible repeat' first
    | assumption
    | rfl
    | (refine (foldl_clock ?_).trans ?_; on_goal 1 => intro s0 _)
    | (simp only [*, zcSample_clock, clock_mk, clock_eta]; done)
    | split
    | (simp [*]; done)
    | simp only [*, zcSample_clock, clock_mk, clock_eta]

@[simp] theorem flickers_clock {s0} : (State.flickers s0).clock = s0.clock := by
  unfold State.flickers
  with_reducible repeat' first
    | assumption
    | rfl
    | (refine (foldl_clock ?_).trans ?_; on_goal 1 => intro s0 _)
    | (simp only [*, flicker_clock, clock_mk, clock_eta]; done)
    | split
    | (simp [*]; done)
    | simp only [*, flicker_clock, clock_mk, clock_eta]

@[simp] theorem intervalBits_clock {s0} : (State.intervalBits s0).clock = s0.clock := by
  unfold State.intervalBits
  with_reducible repeat' first
    | assumption
    | rfl
    | (extract_lets +onlyGivenNames y
       refine (show (y.clock = s0.clock → _) from fun h => ?_) ?_
       on_goal 1 => clear_value y
       on_goal 2 => (simp only [y]; try clear y))
    | (extract_lets +onlyGivenNames y; clear_value y)
    | (refine (foldl_clock ?_).trans ?_; on_goal 1 => intro s0 _)
    | refine ite_clock ?_ ?_
    | (simp only [*, markIntervals_clock, modBmp_clock, clock_mk, clock_eta]; done)
    | split
    | (simp [*]; done)
    | simp only [*, markIntervals_clock, modBmp_clock, clock_mk, clock_eta]

@[simp] theorem availLatch_clock {s0} : (State.availLatch s0).clock = s0.clock := by
  unfold State.availLatch
  simp only [clock_mk, clock_eta]

@[simp] theorem pulses_clock {s0} : (State.pulses s0).clock = s0.clock := by
  unfold State.pulses
  with_reducible repeat' first
    | assumption
    | rfl
    | (extract_lets +onlyGivenNames y
       refine (show (y.clock = s0.clock → _) from fun h => ?_) ?_
       on_goal 1 => clear_value y
       on_goal 2 => (simp only [y]; try clear y))
    | (extract_lets +onlyGivenNames y; clear_value y)
    | (refine (foldl_clock ?_).trans ?_; on_goal 1 => intro s0 _)
    | refine ite_clock ?_ ?_
    | (simp only [*, pulseStep_clock, clock_mk, clock_eta]; done)
    | split
    | (simp [*]; done)
    | simp only [*, pulseStep_clock, clock_mk, clock_eta]

@[simp] theorem firstSamples_clock {s0 x1} : (State.firstSamples s0 x1).clock = s0.clock := by
  unfold State.firstSamples
  with_reducible repeat' first
    | assumption
    | rfl
    | (extract_lets +onlyGivenNames y
       refine (show (y.clock = s0.clock → _) from fun h => ?_) ?_
       on_goal 1 => clear_value y
       on_goal 2 => (simp only [y]; try clear y))
    | (extract_lets +onlyGivenNames y; clear_value y)
    | (refine (foldl_clock ?_).trans ?_; on_goal 1 => intro s0 _)
    | (simp only [*, courseSample_clock, courseVote_clock, courseTotals_clock, flickers_clock, detectors_clock, reactive_clock, clock_mk, clock_eta]; done)
    | split
    | (simp [*]; done)
    | simp only [*, courseSample_clock, courseVote_clock, courseTotals_clock, flickers_clock, detectors_clock, reactive_clock, clock_mk, clock_eta]

@[simp] theorem secondSamples_clock {s0 x1} : (State.secondSamples s0 x1).clock = s0.clock := by
  unfold State.secondSamples
  with_reducible repeat' first
    | assumption
    | rfl
    | (extract_lets +onlyGivenNames y
       refine (show (y.clock = s0.clock → _) from fun h => ?_) ?_
       on_goal 1 => clear_value y
       on_goal 2 => (simp only [y]; try clear y))
    | (extract_lets +onlyGivenNames y; clear_value y)
    | (refine (foldl_clock ?_).trans ?_; on_goal 1 => intro s0 _)
    | (simp only [*, courseSample_clock, courseTotals_clock, detectors_clock, clock_mk, clock_eta]; done)
    | split
    | (simp [*]; done)
    | simp only [*, courseSample_clock, courseTotals_clock, detectors_clock, clock_mk, clock_eta]

end Sys2Proof.Machine
end

