-- ==== Sys2Proof/Laws/Spine.lean ====
section
/-! SUPPORT. The queue of commands and the phases of the kiln as one projection, and the closure lemmas its frame lemmas use. -/

set_option linter.all false

namespace Sys2Proof.Machine

/-- The queue and the phases of a state. -/
def State.spine (s : State) : List Instr × Phases := (s.pending, s.kiln.ph)
@[simp] theorem spine_mk (a1 a2 a3 a4 a5 a6 a7 a8 a9 a10 a11 a12 a13 a14 a15 a16 a17 a18 a19 a20 a21 a22 a23 a24) : State.spine (State.mk a1 a2 a3 a4 a5 a6 a7 a8 a9 a10 a11 a12 a13 a14 a15 a16 a17 a18 a19 a20 a21 a22 a23 a24) = (a1, a22.ph) := rfl
@[simp] theorem spine_eta (s : State) : (s.pending, s.kiln.ph) = s.spine := rfl
theorem foldl_spine {α} {g : State → α → State} (h : ∀ s a, (g s a).spine = s.spine) {l : List α} {s : State} : (l.foldl g s).spine = s.spine := by
  induction l generalizing s with
  | nil => rfl
  | cons a t ih => rw [List.foldl_cons, ih, h]
theorem ite_spine {c : Prop} [Decidable c] {a b : State} {x} (ha : a.spine = x) (hb : b.spine = x) : (if c then a else b).spine = x := by split <;> assumption
theorem ite_fst {β} {c : Prop} [Decidable c] {a b : State × β} {x} (ha : a.1.spine = x) (hb : b.1.spine = x) : (if c then a else b).1.spine = x := by split <;> assumption
theorem ite_snd {β} {c : Prop} [Decidable c] {a b : β × State} {x} (ha : a.2.spine = x) (hb : b.2.spine = x) : (if c then a else b).2.spine = x := by split <;> assumption
/-- The spine of an outcome: of the next state, else of the state before. -/
def outSpine (s : State) : Host.Outcome State Fault Refusal → List Instr × Phases
  | .next t => t.spine
  | _ => s.spine
@[simp] theorem outSpine_next (s t : State) : outSpine s (.next t) = t.spine := rfl
theorem ite_out {c : Prop} [Decidable c] {s : State} {a b} {x} (ha : outSpine s a = x) (hb : outSpine s b = x) : outSpine s (if c then a else b) = x := by split <;> assumption
/-- The spine of an optional state. -/
def optSpine (s : State) : Option State → List Instr × Phases
  | some t => t.spine
  | none => s.spine
@[simp] theorem optSpine_some (s t : State) : optSpine s (some t) = t.spine := rfl
@[simp] theorem optSpine_none (s : State) : optSpine s none = s.spine := rfl
theorem foldl_fst_spine {α β} {g : State × β → α → State × β} (h : ∀ x a, (g x a).1.spine = x.1.spine) {l : List α} {x : State × β} : (l.foldl g x).1.spine = x.1.spine := by
  induction l generalizing x with
  | nil => rfl
  | cons a t ih => rw [List.foldl_cons, ih, h]
theorem foldl_snd_spine {α β} {g : β × State → α → β × State} (h : ∀ x a, (g x a).2.spine = x.2.spine) {l : List α} {x : β × State} : (l.foldl g x).2.spine = x.2.spine := by
  induction l generalizing x with
  | nil => rfl
  | cons a t ih => rw [List.foldl_cons, ih, h]

end Sys2Proof.Machine
end

