-- ==== Sys2Proof/Laws/FrameA.lean ====
section
/-! SUPPORT. One frame lemma per operation that neither touches the queue of commands nor a phase of the kiln (part 1). -/

set_option linter.all false

namespace Sys2Proof.Machine

@[simp] theorem draw_spine {s0} : (State.draw s0).2.spine = s0.spine := by
  unfold State.draw
  simp only [spine_mk, spine_eta]

@[simp] theorem drawBytes_spine {x1 s0} : (State.drawBytes x1 s0).2.spine = s0.spine := by
  unfold State.drawBytes
  simp only [draw_spine, spine_mk, spine_eta]

@[simp] theorem drawInt_spine {x1 s0} : (State.drawInt x1 s0).2.spine = s0.spine := by
  unfold State.drawInt
  simp only [draw_spine, spine_mk, spine_eta]

@[simp] theorem modWin_spine {s0 x1 x2} : (State.modWin s0 x1 x2).spine = s0.spine := by
  unfold State.modWin
  simp only [spine_mk, spine_eta]

@[simp] theorem modAllWin_spine {s0 x1} : (State.modAllWin s0 x1).spine = s0.spine := by
  unfold State.modAllWin
  with_reducible repeat' first
    | assumption
    | rfl
    | (refine (foldl_spine ?_).trans ?_; on_goal 1 => intro s0 _)
    | (simp only [*, modWin_spine, spine_mk, spine_eta]; done)
    | split
    | (simp [*]; done)
    | simp only [*, modWin_spine, spine_mk, spine_eta]

@[simp] theorem modEv_spine {s0 x1 x2} : (State.modEv s0 x1 x2).spine = s0.spine := by
  unfold State.modEv
  simp only [spine_mk, spine_eta]

@[simp] theorem raise_spine {s0 x1 x2} : (State.raise s0 x1 x2).spine = s0.spine := by
  unfold State.raise
  with_reducible repeat' first
    | assumption
    | rfl
    | (extract_lets +onlyGivenNames y; clear_value y)
    | refine ite_spine ?_ ?_
    | (simp only [*, modWin_spine, spine_mk, spine_eta]; done)
    | split
    | (simp [*]; done)
    | simp only [*, modWin_spine, spine_mk, spine_eta]

@[simp] theorem raiseB0_spine {s0} : (State.raiseB0 s0).spine = s0.spine := by
  unfold State.raiseB0
  with_reducible repeat' first
    | assumption
    | rfl
    | (extract_lets +onlyGivenNames y; clear_value y)
    | (refine (foldl_spine ?_).trans ?_; on_goal 1 => intro s0 _)
    | (simp only [*, raise_spine, spine_mk, spine_eta]; done)
    | split
    | (simp [*]; done)
    | simp only [*, raise_spine, spine_mk, spine_eta]

@[simp] theorem evPut_spine {s0 x1 x2} : (State.evPut s0 x1 x2).spine = s0.spine := by
  unfold State.evPut
  with_reducible repeat' first
    | assumption
    | rfl
    | (extract_lets +onlyGivenNames y
       refine (show (y.spine = s0.spine → _) from fun h => ?_) ?_
       on_goal 1 => clear_value y
       on_goal 2 => (simp only [y]; try clear y))
    | (extract_lets +onlyGivenNames y; clear_value y)
    | refine ite_spine ?_ ?_
    | (simp only [*, raise_spine, modEv_spine, raiseB0_spine, spine_mk, spine_eta]; done)
    | split
    | (simp [*]; done)
    | simp only [*, raise_spine, modEv_spine, raiseB0_spine, spine_mk, spine_eta]

@[simp] theorem deliver_spine {s0 x1} : (State.deliver s0 x1).spine = s0.spine := by
  unfold State.deliver
  with_reducible repeat' first
    | assumption
    | rfl
    | (refine (foldl_spine ?_).trans ?_; on_goal 1 => intro s0 _)
    | refine ite_spine ?_ ?_
    | (simp only [*, evPut_spine, spine_mk, spine_eta]; done)
    | split
    | (simp [*]; done)
    | simp only [*, evPut_spine, spine_mk, spine_eta]

@[simp] theorem occurAt_spine {s0 x1 x2 x3 x4 x5} : (State.occurAt s0 x1 x2 x3 x4 x5).spine = s0.spine := by
  unfold State.occurAt
  with_reducible repeat' first
    | assumption
    | rfl
    | (extract_lets +onlyGivenNames y
       refine (show (y.spine = s0.spine → _) from fun h => ?_) ?_
       on_goal 1 => clear_value y
       on_goal 2 => (simp only [y]; try clear y))
    | (extract_lets +onlyGivenNames y
       have hk : Kiln.ph y = Kiln.ph (State.kiln _) := rfl
       clear_value y)
    | (extract_lets +onlyGivenNames y; clear_value y)
    | refine ite_spine ?_ ?_
    | (simp only [*, deliver_spine, spine_mk, spine_eta]; done)
    | split
    | (simp [*]; done)
    | simp only [*, deliver_spine, spine_mk, spine_eta]

@[simp] theorem occur_spine {s0 x1 x2 x3} : (State.occur s0 x1 x2 x3).spine = s0.spine := by
  unfold State.occur
  simp only [occurAt_spine, spine_mk, spine_eta]

@[simp] theorem pulse_spine {s0 x1 x2} : (State.pulse s0 x1 x2).spine = s0.spine := by
  unfold State.pulse
  simp only [occur_spine, spine_mk, spine_eta]

@[simp] theorem levelAt_spine {s0 x1 x2 x3 x4 x5} : (State.levelAt s0 x1 x2 x3 x4 x5).spine = s0.spine := by
  unfold State.levelAt
  with_reducible repeat' first
    | assumption
    | rfl
    | (extract_lets +onlyGivenNames y
       refine (show (y.spine = s0.spine → _) from fun h => ?_) ?_
       on_goal 1 => clear_value y
       on_goal 2 => (simp only [y]; try clear y))
    | (extract_lets +onlyGivenNames y
       have hk : Kiln.ph y = Kiln.ph (State.kiln _) := rfl
       clear_value y)
    | (extract_lets +onlyGivenNames y; clear_value y)
    | refine ite_spine ?_ ?_
    | (simp only [*, occurAt_spine, spine_mk, spine_eta]; done)
    | split
    | (simp [*]; done)
    | simp only [*, occurAt_spine, spine_mk, spine_eta]

@[simp] theorem level_spine {s0 x1 x2 x3} : (State.level s0 x1 x2 x3).spine = s0.spine := by
  unfold State.level
  simp only [levelAt_spine, spine_mk, spine_eta]

@[simp] theorem f0_spine {s0} : (State.f0 s0).spine = s0.spine := by
  unfold State.f0
  simp only [modAllWin_spine, spine_mk, spine_eta]

@[simp] theorem setCause_spine {s0 x1} : (State.setCause s0 x1).spine = s0.spine := by
  unfold State.setCause
  with_reducible repeat' first
    | assumption
    | rfl
    | (extract_lets +onlyGivenNames y; clear_value y)
    | refine ite_spine ?_ ?_
    | (simp only [*, spine_mk, spine_eta]; done)
    | split
    | (simp [*]; done)
    | simp only [*, spine_mk, spine_eta]

@[simp] theorem f1_spine {s0 x1} : (State.f1 s0 x1).spine = s0.spine := by
  unfold State.f1
  simp only [pulse_spine, setCause_spine, modAllWin_spine, spine_mk, spine_eta]

@[simp] theorem f2_spine {s0 x1} : (State.f2 s0 x1).spine = s0.spine := by
  unfold State.f2
  simp only [pulse_spine, setCause_spine, modAllWin_spine, spine_mk, spine_eta]

@[simp] theorem setReady_spine {s0 x1 x2} : (State.setReady s0 x1 x2).spine = s0.spine := by
  unfold State.setReady
  simp only [spine_mk, spine_eta]

@[simp] theorem timeAt_spine {s0 x1 x2} : (State.timeAt s0 x1 x2).spine = s0.spine := by
  unfold State.timeAt
  simp only [spine_mk, spine_eta]

@[simp] theorem atIndex_spine {s0 x1 x2} (h : ∀ s, (x2 s).spine = s.spine) : (State.atIndex s0 x1 x2).spine = s0.spine :=
  h _

@[simp] theorem journalAdd_spine {s0 x1 x2 x3 x4 x5} : (State.journalAdd s0 x1 x2 x3 x4 x5).spine = s0.spine := by
  unfold State.journalAdd
  with_reducible repeat' first
    | assumption
    | rfl
    | (extract_lets +onlyGivenNames y
       refine (show (y.spine = s0.spine → _) from fun h => ?_) ?_
       on_goal 1 => clear_value y
       on_goal 2 => (simp only [y]; try clear y))
    | (extract_lets +onlyGivenNames y; clear_value y)
    | refine ite_spine ?_ ?_
    | (simp only [*, spine_mk, spine_eta]; done)
    | split
    | (simp [*]; done)
    | simp only [*, spine_mk, spine_eta]

@[simp] theorem modLane_spine {s0 x1 x2} : (State.modLane s0 x1 x2).spine = s0.spine := by
  unfold State.modLane
  simp only [spine_mk, spine_eta]

@[simp] theorem laneSend_spine {s0 x1 x2} : (State.laneSend s0 x1 x2).spine = s0.spine := by
  unfold State.laneSend
  simp only [modLane_spine, spine_mk, spine_eta]

@[simp] theorem unitSend_spine {s0 x1 x2} : (State.unitSend s0 x1 x2).spine = s0.spine := by
  unfold State.unitSend
  with_reducible repeat' first
    | assumption
    | rfl
    | (refine (foldl_spine ?_).trans ?_; on_goal 1 => intro s0 _)
    | (simp only [*, laneSend_spine, spine_mk, spine_eta]; done)
    | split
    | (simp [*]; done)
    | simp only [*, laneSend_spine, spine_mk, spine_eta]

@[simp] theorem setQueue_spine {s0 x1 x2} : (State.setQueue s0 x1 x2).spine = s0.spine := by
  unfold State.setQueue
  simp only [spine_mk, spine_eta]

@[simp] theorem setBusy_spine {s0 x1 x2} : (State.setBusy s0 x1 x2).spine = s0.spine := by
  unfold State.setBusy
  simp only [spine_mk, spine_eta]

@[simp] theorem modSess_spine {s0 x1 x2} : (State.modSess s0 x1 x2).spine = s0.spine := by
  unfold State.modSess
  simp only [spine_mk, spine_eta]

@[simp] theorem modIdent_spine {s0 x1 x2} : (State.modIdent s0 x1 x2).spine = s0.spine := by
  unfold State.modIdent
  simp only [spine_mk, spine_eta]

@[simp] theorem endSess_spine {s0 x1} : (State.endSess s0 x1).spine = s0.spine := by
  unfold State.endSess
  simp only [spine_mk, spine_eta]

@[simp] theorem modQp_spine {s0 x1 x2 x3} : (State.modQp s0 x1 x2 x3).spine = s0.spine := by
  unfold State.modQp
  simp only [spine_mk, spine_eta]

@[simp] theorem complete_spine {s0 x1 x2 x3 x4 x5} : (State.complete s0 x1 x2 x3 x4 x5).spine = s0.spine := by
  unfold State.complete
  with_reducible repeat' first
    | assumption
    | rfl
    | (extract_lets +onlyGivenNames y
       refine (show (y.spine = s0.spine → _) from fun h => ?_) ?_
       on_goal 1 => clear_value y
       on_goal 2 => (simp only [y]; try clear y))
    | (extract_lets +onlyGivenNames y; clear_value y)
    | refine ite_spine ?_ ?_
    | (simp only [*, modQp_spine, raise_spine, raiseB0_spine, spine_mk, spine_eta]; done)
    | split
    | (simp [*]; done)
    | simp only [*, modQp_spine, raise_spine, raiseB0_spine, spine_mk, spine_eta]

@[simp] theorem serveConts_spine {s0 x1 x2 x3 x4} : (State.serveConts s0 x1 x2 x3 x4).spine = s0.spine := by
  induction x3 generalizing s0 x4 with
  | nil => cases x4 <;> rfl
  | cons r rs ih =>
    cases x4 with
    | nil => rfl
    | cons a l =>
      unfold State.serveConts
      exact ih.trans (complete_spine.trans modQp_spine)

@[simp] theorem addConts_spine {s0 x1 x2 x3} : (State.addConts s0 x1 x2 x3).spine = s0.spine := by
  unfold State.addConts
  simp only [modQp_spine, serveConts_spine, spine_mk, spine_eta]

@[simp] theorem sendUnits_spine {s0 x1 x2} : (State.sendUnits s0 x1 x2).spine = s0.spine := by
  induction x2 generalizing s0 with
  | nil => rfl
  | cons r rs ih =>
    unfold State.sendUnits
    exact ih.trans unitSend_spine

@[simp] theorem send_spine {s0 x1 x2 x3} : (State.send s0 x1 x2 x3).spine = s0.spine := by
  unfold State.send
  with_reducible repeat' first
    | assumption
    | rfl
    | (extract_lets +onlyGivenNames y
       refine (show (y.spine = s0.spine → _) from fun h => ?_) ?_
       on_goal 1 => clear_value y
       on_goal 2 => (simp only [y]; try clear y))
    | (extract_lets +onlyGivenNames y; clear_value y)
    | refine ite_spine ?_ ?_
    | (simp only [*, complete_spine, addConts_spine, sendUnits_spine, spine_mk, spine_eta]; done)
    | split
    | (simp [*]; done)
    | simp only [*, complete_spine, addConts_spine, sendUnits_spine, spine_mk, spine_eta]

@[simp] theorem sendTimes_spine {s0 x1 x2 x3 x4} : (State.sendTimes s0 x1 x2 x3 x4).spine = s0.spine := by
  induction x4 generalizing s0 with
  | zero => rfl
  | succ n ih =>
    unfold State.sendTimes
    exact ih.trans send_spine

@[simp] theorem dropStream_spine {s0 x1} : (State.dropStream s0 x1).spine = s0.spine := by
  unfold State.dropStream
  with_reducible repeat' first
    | assumption
    | rfl
    | (extract_lets +onlyGivenNames y; clear_value y)
    | refine ite_spine ?_ ?_
    | (simp only [*, setBusy_spine, spine_mk, spine_eta]; done)
    | split
    | (simp [*]; done)
    | simp only [*, setBusy_spine, spine_mk, spine_eta]

@[simp] theorem answer_spine {s0 x1 x2 x3} : (State.answer s0 x1 x2 x3).spine = s0.spine := by
  unfold State.answer
  with_reducible repeat' first
    | assumption
    | rfl
    | (extract_lets +onlyGivenNames y
       refine (show (y.spine = s0.spine → _) from fun h => ?_) ?_
       on_goal 1 => clear_value y
       on_goal 2 => (simp only [y]; try clear y))
    | (extract_lets +onlyGivenNames y; clear_value y)
    | refine ite_spine ?_ ?_
    | (simp only [*, dropStream_spine, modSess_spine, sendTimes_spine, spine_mk, spine_eta]; done)
    | split
    | (simp [*]; done)
    | simp only [*, dropStream_spine, modSess_spine, sendTimes_spine, spine_mk, spine_eta]

@[simp] theorem touch_spine {s0 x1} : (State.touch s0 x1).spine = s0.spine := by
  unfold State.touch
  simp only [modSess_spine, spine_mk, spine_eta]

@[simp] theorem execNow_spine {x1 x2 x3 x4 s0} (h : ∀ c p s, (x2 c p s).1.spine = s.spine) : (execNow x1 x2 x3 x4 s0).spine = s0.spine := by
  unfold execNow
  have hb := h (s0.ctx x3) x3 s0
  split
  · simp
  · split
    · simp
    · split
      · simp
      · split <;> rename_i q <;> rw [q] at hb <;> simpa using hb

@[simp] theorem enqueue_spine {s0 x1 x2} : (State.enqueue s0 x1 x2).spine = s0.spine := by
  unfold State.enqueue
  simp only [setQueue_spine, spine_mk, spine_eta]

@[simp] theorem forwardPacket_spine {s0 x1 x2} : (State.forwardPacket s0 x1 x2).spine = s0.spine := by
  unfold State.forwardPacket
  simp only [unitSend_spine, spine_mk, spine_eta]

@[simp] theorem broadcast_spine {s0 x1 x2 x3} : (State.broadcast s0 x1 x2 x3).spine = s0.spine := by
  unfold State.broadcast
  with_reducible repeat' first
    | assumption
    | rfl
    | (extract_lets +onlyGivenNames y; clear_value y)
    | refine ite_spine ?_ ?_
    | (simp only [*, forwardPacket_spine, spine_mk, spine_eta]; done)
    | split
    | (simp [*]; done)
    | simp only [*, forwardPacket_spine, spine_mk, spine_eta]

@[simp] theorem unserved_spine {s0 x1} : (State.unserved s0 x1).spine = s0.spine := by
  unfold State.unserved
  with_reducible repeat' first
    | assumption
    | rfl
    | (extract_lets +onlyGivenNames y; clear_value y)
    | (simp only [*, spine_mk, spine_eta]; done)
    | split
    | (simp [*]; done)
    | simp only [*, spine_mk, spine_eta]

@[simp] theorem turnedAway_spine {s0 x1 x2 x3} : (State.turnedAway s0 x1 x2 x3).spine = s0.spine := by
  unfold State.turnedAway
  with_reducible repeat' first
    | assumption
    | rfl
    | (extract_lets +onlyGivenNames y
       refine (show (y.spine = s0.spine → _) from fun h => ?_) ?_
       on_goal 1 => clear_value y
       on_goal 2 => (simp only [y]; try clear y))
    | (extract_lets +onlyGivenNames y; clear_value y)
    | refine ite_spine ?_ ?_
    | (simp only [*, modSess_spine, pulse_spine, answer_spine, send_spine, forwardPacket_spine, spine_mk, spine_eta]; done)
    | split
    | (simp [*]; done)
    | simp only [*, modSess_spine, pulse_spine, answer_spine, send_spine, forwardPacket_spine, spine_mk, spine_eta]

@[simp] theorem takeIn_spine {x1 x2 x3 x4 s0} (h : ∀ c p s, (x2 c p s).1.spine = s.spine) : (takeIn x1 x2 x3 x4 s0).spine = s0.spine := by
  unfold takeIn
  with_reducible repeat' first
    | assumption
    | rfl
    | (extract_lets +onlyGivenNames y
       refine (show (y.spine = s0.spine → _) from fun h => ?_) ?_
       on_goal 1 => clear_value y
       on_goal 2 => (simp only [y]; try clear y))
    | (extract_lets +onlyGivenNames y; clear_value y)
    | refine ite_spine ?_ ?_
    | (simp only [*, touch_spine, execNow_spine, enqueue_spine, turnedAway_spine, spine_mk, spine_eta]; done)
    | split
    | (simp [*]; done)
    | simp only [*, touch_spine, execNow_spine, enqueue_spine, turnedAway_spine, spine_mk, spine_eta]

@[simp] theorem arrive_spine {x1 x2 x3 s0} (h : ∀ c p s, (x2 c p s).1.spine = s.spine) : (arrive x1 x2 x3 s0).spine = s0.spine := by
  unfold arrive
  with_reducible repeat' first
    | assumption
    | rfl
    | (extract_lets +onlyGivenNames y
       refine (show (y.spine = s0.spine → _) from fun h => ?_) ?_
       on_goal 1 => clear_value y
       on_goal 2 => (simp only [y]; try clear y))
    | (extract_lets +onlyGivenNames y; clear_value y)
    | refine ite_spine ?_ ?_
    | (simp only [*, broadcast_spine, takeIn_spine, spine_mk, spine_eta]; done)
    | split
    | (simp [*]; done)
    | simp only [*, broadcast_spine, takeIn_spine, spine_mk, spine_eta]

@[simp] theorem arriveQueue_spine {x1 x2 s0} : (arriveQueue x1 x2 s0).spine = s0.spine := by
  unfold arriveQueue
  with_reducible repeat' first
    | assumption
    | rfl
    | (extract_lets +onlyGivenNames y
       refine (show (y.spine = s0.spine → _) from fun h => ?_) ?_
       on_goal 1 => clear_value y
       on_goal 2 => (simp only [y]; try clear y))
    | (extract_lets +onlyGivenNames y; clear_value y)
    | (simp only [*, broadcast_spine, enqueue_spine, touch_spine, turnedAway_spine, spine_mk, spine_eta]; done)
    | split
    | (simp [*]; done)
    | simp only [*, broadcast_spine, enqueue_spine, touch_spine, turnedAway_spine, spine_mk, spine_eta]

@[simp] theorem command_spine {x1 x2 x3 s0} (h : ∀ c p s, (x2 c p s).1.spine = s.spine) : (command x1 x2 x3 s0).spine = s0.spine := by
  unfold command
  with_reducible repeat' first
    | assumption
    | rfl
    | (extract_lets +onlyGivenNames y
       refine (show (y.spine = s0.spine → _) from fun h => ?_) ?_
       on_goal 1 => clear_value y
       on_goal 2 => (simp only [y]; try clear y))
    | (extract_lets +onlyGivenNames y; clear_value y)
    | refine ite_spine ?_ ?_
    | (simp only [*, unserved_spine, execNow_spine, setQueue_spine, arrive_spine, spine_mk, spine_eta]; done)
    | split
    | (simp [*]; done)
    | simp only [*, unserved_spine, execNow_spine, setQueue_spine, arrive_spine, spine_mk, spine_eta]

@[simp] theorem finishHeld_spine {s0 x1 x2} : (State.finishHeld s0 x1 x2).spine = s0.spine := by
  unfold State.finishHeld
  with_reducible repeat' first
    | assumption
    | rfl
    | (extract_lets +onlyGivenNames y; clear_value y)
    | (simp only [*, answer_spine, setBusy_spine, spine_mk, spine_eta]; done)
    | split
    | (simp [*]; done)
    | simp only [*, answer_spine, setBusy_spine, spine_mk, spine_eta]

@[simp] theorem finishKind_spine {s0 x1 x2} : (State.finishKind s0 x1 x2).spine = s0.spine := by
  unfold State.finishKind
  with_reducible repeat' first
    | assumption
    | rfl
    | (extract_lets +onlyGivenNames y; clear_value y)
    | (refine (foldl_spine ?_).trans ?_; on_goal 1 => intro s0 _)
    | refine ite_spine ?_ ?_
    | (simp only [*, finishHeld_spine, spine_mk, spine_eta]; done)
    | split
    | (simp [*]; done)
    | simp only [*, finishHeld_spine, spine_mk, spine_eta]

@[simp] theorem readBody_spine {x1 x2 x3 s0} : (readBody x1 x2 x3 s0).1.spine = s0.spine := by
  unfold readBody
  simp only [spine_mk, spine_eta]

@[simp] theorem fixedBody_spine {x1 x2 x3 x4 x5 s0} (h : ∀ c p s, (x3 c p s).1.spine = s.spine) : (fixedBody x1 x2 x3 x4 x5 s0).1.spine = s0.spine := by
  unfold fixedBody
  with_reducible repeat' first
    | assumption
    | rfl
    | (extract_lets +onlyGivenNames y; clear_value y)
    | refine ite_spine ?_ ?_
    | refine ite_fst ?_ ?_
    | (simp only [*, spine_mk, spine_eta]; done)
    | split
    | (simp [*]; done)
    | simp only [*, spine_mk, spine_eta]

@[simp] theorem bulkOutBody_spine {x1 x2 x3 x4 x5 s0} (h : ∀ c p s, (x3 c p s).1.spine = s.spine) : (bulkOutBody x1 x2 x3 x4 x5 s0).1.spine = s0.spine := by
  unfold bulkOutBody
  with_reducible repeat' first
    | assumption
    | rfl
    | (extract_lets +onlyGivenNames y; clear_value y)
    | refine ite_spine ?_ ?_
    | refine ite_fst ?_ ?_
    | (simp only [*, spine_mk, spine_eta]; done)
    | split
    | (simp [*]; done)
    | simp only [*, spine_mk, spine_eta]

@[simp] theorem bulkInBody_spine {x1 x2 x3 x4 x5 s0} (h : ∀ d c p s, (x3 d c p s).1.spine = s.spine) : (bulkInBody x1 x2 x3 x4 x5 s0).1.spine = s0.spine := by
  unfold bulkInBody
  with_reducible repeat' first
    | assumption
    | rfl
    | (extract_lets +onlyGivenNames y; clear_value y)
    | refine ite_spine ?_ ?_
    | refine ite_fst ?_ ?_
    | (simp only [*, spine_mk, spine_eta]; done)
    | split
    | (simp [*]; done)
    | simp only [*, spine_mk, spine_eta]

@[simp] theorem modBmp_spine {s0 x1 x2} : (State.modBmp s0 x1 x2).spine = s0.spine := by
  unfold State.modBmp
  simp only [spine_mk, spine_eta]

@[simp] theorem modMpAcc_spine {s0 x1 x2} : (State.modMpAcc s0 x1 x2).spine = s0.spine := by
  unfold State.modMpAcc
  simp only [spine_mk, spine_eta]

@[simp] theorem driveContactor_spine {s0 x1} : (State.driveContactor s0 x1).spine = s0.spine := by
  unfold State.driveContactor
  with_reducible repeat' first
    | assumption
    | rfl
    | (extract_lets +onlyGivenNames y
       refine (show (y.spine = s0.spine → _) from fun h => ?_) ?_
       on_goal 1 => clear_value y
       on_goal 2 => (simp only [y]; try clear y))
    | (extract_lets +onlyGivenNames y
       have hk : Kiln.ph y = Kiln.ph (State.kiln _) := rfl
       clear_value y)
    | (extract_lets +onlyGivenNames y; clear_value y)
    | refine ite_spine ?_ ?_
    | (simp only [*, spine_mk, spine_eta]; done)
    | split
    | (simp [*]; done)
    | simp only [*, spine_mk, spine_eta]

@[simp] theorem setSupply_spine {s0 x1 x2} : (State.setSupply s0 x1 x2).spine = s0.spine := by
  unfold State.setSupply
  with_reducible repeat' first
    | assumption
    | rfl
    | (extract_lets +onlyGivenNames y
       refine (show (y.spine = s0.spine → _) from fun h => ?_) ?_
       on_goal 1 => clear_value y
       on_goal 2 => (simp only [y]; try clear y))
    | (extract_lets +onlyGivenNames y; clear_value y)
    | refine ite_spine ?_ ?_
    | (simp only [*, modBmp_spine, modMpAcc_spine, driveContactor_spine, spine_mk, spine_eta]; done)
    | split
    | (simp [*]; done)
    | simp only [*, modBmp_spine, modMpAcc_spine, driveContactor_spine, spine_mk, spine_eta]

@[simp] theorem decideSupply_spine {s0 x1} : (State.decideSupply s0 x1).spine = s0.spine := by
  unfold State.decideSupply
  with_reducible repeat' first
    | assumption
    | rfl
    | (extract_lets +onlyGivenNames y
       refine (show (y.spine = s0.spine → _) from fun h => ?_) ?_
       on_goal 1 => clear_value y
       on_goal 2 => (simp only [y]; try clear y))
    | (extract_lets +onlyGivenNames y; clear_value y)
    | refine ite_spine ?_ ?_
    | (simp only [*, setSupply_spine, spine_mk, spine_eta]; done)
    | split
    | (simp [*]; done)
    | simp only [*, setSupply_spine, spine_mk, spine_eta]

@[simp] theorem decidePrepay_spine {s0 x1} : (State.decidePrepay s0 x1).spine = s0.spine := by
  unfold State.decidePrepay
  simp only [modBmp_spine, level_spine, decideSupply_spine, spine_mk, spine_eta]

@[simp] theorem charge_spine {s0 x1 x2 x3 x4} : (State.charge s0 x1 x2 x3 x4).spine = s0.spine := by
  unfold State.charge
  with_reducible repeat' first
    | assumption
    | rfl
    | (extract_lets +onlyGivenNames y
       refine (show (y.spine = s0.spine → _) from fun h => ?_) ?_
       on_goal 1 => clear_value y
       on_goal 2 => (simp only [y]; try clear y))
    | (extract_lets +onlyGivenNames y; clear_value y)
    | refine ite_spine ?_ ?_
    | (simp only [*, modBmp_spine, decidePrepay_spine, spine_mk, spine_eta]; done)
    | split
    | (simp [*]; done)
    | simp only [*, modBmp_spine, decidePrepay_spine, spine_mk, spine_eta]

@[simp] theorem legalEvent_spine {s0} : (State.legalEvent s0).spine = s0.spine := by
  unfold State.legalEvent
  with_reducible repeat' first
    | assumption
    | rfl
    | (extract_lets +onlyGivenNames y; clear_value y)
    | refine ite_spine ?_ ?_
    | (simp only [*, pulse_spine, spine_mk, spine_eta]; done)
    | split
    | (simp [*]; done)
    | simp only [*, pulse_spine, spine_mk, spine_eta]

@[simp] theorem publishLcv_spine {s0} : (State.publishLcv s0).spine = s0.spine := by
  unfold State.publishLcv
  with_reducible repeat' first
    | assumption
    | rfl
    | (extract_lets +onlyGivenNames y
       refine (show (y.spine = s0.spine → _) from fun h => ?_) ?_
       on_goal 1 => clear_value y
       on_goal 2 => (simp only [y]; try clear y))
    | (extract_lets +onlyGivenNames y; clear_value y)
    | refine ite_spine ?_ ?_
    | (simp only [*, legalEvent_spine, spine_mk, spine_eta]; done)
    | split
    | (simp [*]; done)
    | simp only [*, legalEvent_spine, spine_mk, spine_eta]

@[simp] theorem newHandle_spine {s0} : (newHandle s0).2.spine = s0.spine := by
  unfold newHandle
  with_reducible repeat' first
    | assumption
    | rfl
    | (extract_lets +onlyGivenNames y
       refine (show (y.spine = s0.spine → _) from fun h => ?_) ?_
       on_goal 1 => clear_value y
       on_goal 2 => (simp only [y]; try clear y))
    | (extract_lets +onlyGivenNames y
       refine (show (y.2.spine = s0.spine → _) from fun h => ?_) ?_
       on_goal 1 => clear_value y
       on_goal 2 => (simp only [y]; try clear y))
    | (extract_lets +onlyGivenNames y; clear_value y)
    | refine ite_spine ?_ ?_
    | refine ite_snd ?_ ?_
    | (simp only [*, draw_spine, spine_mk, spine_eta]; done)
    | (split <;> (try (rename_i q; obtain ⟨q1, q2⟩ := Prod.ext_iff.mp q; simp only at q1 q2; subst q1 q2)))
    | (simp [*]; done)
    | simp only [*, draw_spine, spine_mk, spine_eta]

@[simp] theorem authFail_spine {s0 x1} : (State.authFail s0 x1).spine = s0.spine := by
  unfold State.authFail
  with_reducible repeat' first
    | assumption
    | rfl
    | (extract_lets +onlyGivenNames y
       refine (show (y.spine = s0.spine → _) from fun h => ?_) ?_
       on_goal 1 => clear_value y
       on_goal 2 => (simp only [y]; try clear y))
    | (extract_lets +onlyGivenNames y; clear_value y)
    | refine ite_spine ?_ ?_
    | (simp only [*, pulse_spine, modIdent_spine, spine_mk, spine_eta]; done)
    | split
    | (simp [*]; done)
    | simp only [*, pulse_spine, modIdent_spine, spine_mk, spine_eta]

@[simp] theorem dropChal_spine {s0 x1} : (State.dropChal s0 x1).spine = s0.spine := by
  unfold State.dropChal
  simp only [spine_mk, spine_eta]

@[simp] theorem openSession_spine {s0 x1} : (State.openSession s0 x1).1.spine = s0.spine := by
  unfold State.openSession
  simp only [modIdent_spine, spine_mk, spine_eta]

@[simp] theorem settleAuth_spine {s0 x1} : (State.settleAuth s0 x1).1.spine = s0.spine := by
  unfold State.settleAuth
  with_reducible repeat' first
    | assumption
    | rfl
    | (extract_lets +onlyGivenNames y; clear_value y)
    | refine ite_spine ?_ ?_
    | refine ite_fst ?_ ?_
    | (simp only [*, dropChal_spine, openSession_spine, spine_mk, spine_eta]; done)
    | (split <;> (try (rename_i q; obtain ⟨q1, q2⟩ := Prod.ext_iff.mp q; simp only at q1 q2; subst q1 q2)))
    | (simp [*]; done)
    | simp only [*, dropChal_spine, openSession_spine, spine_mk, spine_eta]

@[simp] theorem replyWaiting_spine {s0 x1 x2} : (State.replyWaiting s0 x1 x2).spine = s0.spine := by
  unfold State.replyWaiting
  simp only [finishHeld_spine, spine_mk, spine_eta]

@[simp] theorem resolveWaiting_spine {s0 x1 x2} : (State.resolveWaiting s0 x1 x2).spine = s0.spine := by
  unfold State.resolveWaiting
  with_reducible repeat' first
    | assumption
    | rfl
    | (extract_lets +onlyGivenNames y
       refine (show (y.spine = s0.spine → _) from fun h => ?_) ?_
       on_goal 1 => clear_value y
       on_goal 2 => (simp only [y]; try clear y))
    | (extract_lets +onlyGivenNames y
       refine (show (y.1.spine = s0.spine → _) from fun h => ?_) ?_
       on_goal 1 => clear_value y
       on_goal 2 => (simp only [y]; try clear y))
    | (extract_lets +onlyGivenNames y; clear_value y)
    | (simp only [*, settleAuth_spine, replyWaiting_spine, spine_mk, spine_eta]; done)
    | (split <;> (try (rename_i q; obtain ⟨q1, q2⟩ := Prod.ext_iff.mp q; simp only at q1 q2; subst q1 q2)))
    | (simp [*]; done)
    | simp only [*, settleAuth_spine, replyWaiting_spine, spine_mk, spine_eta]

@[simp] theorem issueChallenge_spine {x1 x2 x3 s0} : (issueChallenge x1 x2 x3 s0).1.spine = s0.spine := by
  unfold issueChallenge
  with_reducible repeat' first
    | assumption
    | rfl
    | (extract_lets +onlyGivenNames y
       refine (show (y.spine = s0.spine → _) from fun h => ?_) ?_
       on_goal 1 => clear_value y
       on_goal 2 => (simp only [y]; try clear y))
    | (extract_lets +onlyGivenNames y
       refine (show (y.2.spine = s0.spine → _) from fun h => ?_) ?_
       on_goal 1 => clear_value y
       on_goal 2 => (simp only [y]; try clear y))
    | (extract_lets +onlyGivenNames y; clear_value y)
    | refine ite_spine ?_ ?_
    | refine ite_fst ?_ ?_
    | (simp only [*, newHandle_spine, drawBytes_spine, draw_spine, spine_mk, spine_eta]; done)
    | (split <;> (try (rename_i q; obtain ⟨q1, q2⟩ := Prod.ext_iff.mp q; simp only at q1 q2; subst q1 q2)))
    | (simp [*]; done)
    | simp only [*, newHandle_spine, drawBytes_spine, draw_spine, spine_mk, spine_eta]

@[simp] theorem bodySessionOpen_spine {x1 x2 s0} : (bodySessionOpen x1 x2 s0).1.spine = s0.spine := by
  unfold bodySessionOpen
  with_reducible repeat' first
    | assumption
    | rfl
    | (extract_lets +onlyGivenNames y
       refine (show (y.spine = s0.spine → _) from fun h => ?_) ?_
       on_goal 1 => clear_value y
       on_goal 2 => (simp only [y]; try clear y))
    | (extract_lets +onlyGivenNames y
       refine (show (y.1.spine = s0.spine → _) from fun h => ?_) ?_
       on_goal 1 => clear_value y
       on_goal 2 => (simp only [y]; try clear y))
    | (extract_lets +onlyGivenNames y; clear_value y)
    | (refine fixedBody_spine ?_; intro _ _ s0)
    | refine ite_spine ?_ ?_
    | refine ite_fst ?_ ?_
    | (simp only [*, fixedBody_spine, issueChallenge_spine, spine_mk, spine_eta]; done)
    | (split <;> (try (rename_i q; obtain ⟨q1, q2⟩ := Prod.ext_iff.mp q; simp only at q1 q2; subst q1 q2)))
    | (simp [*]; done)
    | simp only [*, fixedBody_spine, issueChallenge_spine, spine_mk, spine_eta]

@[simp] theorem bodySessionClose_spine {x1 x2 s0} : (bodySessionClose x1 x2 s0).1.spine = s0.spine := by
  unfold bodySessionClose
  with_reducible repeat' first
    | assumption
    | rfl
    | (refine fixedBody_spine ?_; intro _ _ s0)
    | (simp only [*, fixedBody_spine, endSess_spine, spine_mk, spine_eta]; done)
    | (split <;> (try (rename_i q; obtain ⟨q1, q2⟩ := Prod.ext_iff.mp q; simp only at q1 q2; subst q1 q2)))
    | (simp [*]; done)
    | simp only [*, fixedBody_spine, endSess_spine, spine_mk, spine_eta]

@[simp] theorem authInvalid_spine {x1 s0} : (authInvalid x1 s0).1.spine = s0.spine := by
  unfold authInvalid
  simp only [authFail_spine, dropChal_spine, resolveWaiting_spine, spine_mk, spine_eta]

@[simp] theorem authValid_spine {x1 x2 s0} : (authValid x1 x2 s0).1.spine = s0.spine := by
  unfold authValid
  with_reducible repeat' first
    | assumption
    | rfl
    | (extract_lets +onlyGivenNames y
       refine (show (y.spine = s0.spine → _) from fun h => ?_) ?_
       on_goal 1 => clear_value y
       on_goal 2 => (simp only [y]; try clear y))
    | (extract_lets +onlyGivenNames y
       refine (show (y.1.spine = s0.spine → _) from fun h => ?_) ?_
       on_goal 1 => clear_value y
       on_goal 2 => (simp only [y]; try clear y))
    | (extract_lets +onlyGivenNames y; clear_value y)
    | refine ite_spine ?_ ?_
    | refine ite_fst ?_ ?_
    | (simp only [*, modIdent_spine, dropChal_spine, pulse_spine, replyWaiting_spine, settleAuth_spine, spine_mk, spine_eta]; done)
    | (split <;> (try (rename_i q; obtain ⟨q1, q2⟩ := Prod.ext_iff.mp q; simp only at q1 q2; subst q1 q2)))
    | (simp [*]; done)
    | simp only [*, modIdent_spine, dropChal_spine, pulse_spine, replyWaiting_spine, settleAuth_spine, spine_mk, spine_eta]

@[simp] theorem bodySessionAuth_spine {x1 x2 s0} : (bodySessionAuth x1 x2 s0).1.spine = s0.spine := by
  unfold bodySessionAuth
  with_reducible repeat' first
    | assumption
    | rfl
    | (extract_lets +onlyGivenNames y
       refine (show (y.spine = s0.spine → _) from fun h => ?_) ?_
       on_goal 1 => clear_value y
       on_goal 2 => (simp only [y]; try clear y))
    | (extract_lets +onlyGivenNames y
       refine (show (y.1.spine = s0.spine → _) from fun h => ?_) ?_
       on_goal 1 => clear_value y
       on_goal 2 => (simp only [y]; try clear y))
    | (extract_lets +onlyGivenNames y; clear_value y)
    | (refine fixedBody_spine ?_; intro _ _ s0)
    | refine ite_spine ?_ ?_
    | refine ite_fst ?_ ?_
    | (simp only [*, fixedBody_spine, pulse_spine, resolveWaiting_spine, dropChal_spine, authValid_spine, authInvalid_spine, spine_mk, spine_eta]; done)
    | (split <;> (try (rename_i q; obtain ⟨q1, q2⟩ := Prod.ext_iff.mp q; simp only at q1 q2; subst q1 q2)))
    | (simp [*]; done)
    | simp only [*, fixedBody_spine, pulse_spine, resolveWaiting_spine, dropChal_spine, authValid_spine, authInvalid_spine, spine_mk, spine_eta]

@[simp] theorem bodyGetReadyMap_spine {x1 x2 s0} : (bodyGetReadyMap x1 x2 s0).1.spine = s0.spine := by
  unfold bodyGetReadyMap
  with_reducible repeat' first
    | assumption
    | rfl
    | (refine fixedBody_spine ?_; intro _ _ s0)
    | (simp only [*, fixedBody_spine, readBody_spine, spine_mk, spine_eta]; done)
    | (split <;> (try (rename_i q; obtain ⟨q1, q2⟩ := Prod.ext_iff.mp q; simp only at q1 q2; subst q1 q2)))
    | (simp [*]; done)
    | simp only [*, fixedBody_spine, readBody_spine, spine_mk, spine_eta]

@[simp] theorem bodyDeviceInfo_spine {x1 x2 s0} : (bodyDeviceInfo x1 x2 s0).1.spine = s0.spine := by
  unfold bodyDeviceInfo
  with_reducible repeat' first
    | assumption
    | rfl
    | (refine fixedBody_spine ?_; intro _ _ s0)
    | (simp only [*, fixedBody_spine, readBody_spine, spine_mk, spine_eta]; done)
    | (split <;> (try (rename_i q; obtain ⟨q1, q2⟩ := Prod.ext_iff.mp q; simp only at q1 q2; subst q1 q2)))
    | (simp [*]; done)
    | simp only [*, fixedBody_spine, readBody_spine, spine_mk, spine_eta]

@[simp] theorem execSessionOpen_spine {x1 s0} : outSpine s0 (execSessionOpen x1 s0) = s0.spine := by
  unfold execSessionOpen
  with_reducible repeat' first
    | assumption
    | rfl
    | rw [outSpine_next]
    | (simp only [*, command_spine, bodySessionOpen_spine, spine_mk, spine_eta, outSpine_next]; done)
    | (split <;> (try (rename_i q; obtain ⟨q1, q2⟩ := Prod.ext_iff.mp q; simp only at q1 q2; subst q1 q2)))
    | (simp [*]; done)
    | simp only [*, command_spine, bodySessionOpen_spine, spine_mk, spine_eta, outSpine_next]

@[simp] theorem execSessionClose_spine {x1 s0} : outSpine s0 (execSessionClose x1 s0) = s0.spine := by
  unfold execSessionClose
  with_reducible repeat' first
    | assumption
    | rfl
    | rw [outSpine_next]
    | (simp only [*, command_spine, bodySessionClose_spine, spine_mk, spine_eta, outSpine_next]; done)
    | (split <;> (try (rename_i q; obtain ⟨q1, q2⟩ := Prod.ext_iff.mp q; simp only at q1 q2; subst q1 q2)))
    | (simp [*]; done)
    | simp only [*, command_spine, bodySessionClose_spine, spine_mk, spine_eta, outSpine_next]

@[simp] theorem execSessionAuth_spine {x1 s0} : outSpine s0 (execSessionAuth x1 s0) = s0.spine := by
  unfold execSessionAuth
  with_reducible repeat' first
    | assumption
    | rfl
    | rw [outSpine_next]
    | (simp only [*, command_spine, bodySessionAuth_spine, spine_mk, spine_eta, outSpine_next]; done)
    | (split <;> (try (rename_i q; obtain ⟨q1, q2⟩ := Prod.ext_iff.mp q; simp only at q1 q2; subst q1 q2)))
    | (simp [*]; done)
    | simp only [*, command_spine, bodySessionAuth_spine, spine_mk, spine_eta, outSpine_next]

@[simp] theorem execGetReadyMap_spine {x1 s0} : outSpine s0 (execGetReadyMap x1 s0) = s0.spine := by
  unfold execGetReadyMap
  with_reducible repeat' first
    | assumption
    | rfl
    | rw [outSpine_next]
    | (simp only [*, command_spine, bodyGetReadyMap_spine, spine_mk, spine_eta, outSpine_next]; done)
    | (split <;> (try (rename_i q; obtain ⟨q1, q2⟩ := Prod.ext_iff.mp q; simp only at q1 q2; subst q1 q2)))
    | (simp [*]; done)
    | simp only [*, command_spine, bodyGetReadyMap_spine, spine_mk, spine_eta, outSpine_next]

@[simp] theorem execDeviceInfo_spine {x1 s0} : outSpine s0 (execDeviceInfo x1 s0) = s0.spine := by
  unfold execDeviceInfo
  with_reducible repeat' first
    | assumption
    | rfl
    | rw [outSpine_next]
    | (simp only [*, command_spine, bodyDeviceInfo_spine, spine_mk, spine_eta, outSpine_next]; done)
    | (split <;> (try (rename_i q; obtain ⟨q1, q2⟩ := Prod.ext_iff.mp q; simp only at q1 q2; subst q1 q2)))
    | (simp [*]; done)
    | simp only [*, command_spine, bodyDeviceInfo_spine, spine_mk, spine_eta, outSpine_next]

@[simp] theorem execPacketForward_spine {x1 x2 s0} : outSpine s0 (execPacketForward x1 x2 s0) = s0.spine := by
  unfold execPacketForward
  with_reducible repeat' first
    | assumption
    | rfl
    | rw [outSpine_next]
    | refine ite_spine ?_ ?_
    | refine ite_out ?_ ?_
    | (simp only [*, turnedAway_spine, spine_mk, spine_eta, outSpine_next]; done)
    | split
    | (simp [*]; done)
    | simp only [*, turnedAway_spine, spine_mk, spine_eta, outSpine_next]

@[simp] theorem execStreamStall_spine {x1 x2 s0} : outSpine s0 (execStreamStall x1 x2 s0) = s0.spine := by
  unfold execStreamStall
  with_reducible repeat' first
    | assumption
    | rfl
    | rw [outSpine_next]
    | (extract_lets +onlyGivenNames y; clear_value y)
    | refine ite_spine ?_ ?_
    | refine ite_out ?_ ?_
    | (simp only [*, finishHeld_spine, spine_mk, spine_eta, outSpine_next]; done)
    | split
    | (simp [*]; done)
    | simp only [*, finishHeld_spine, spine_mk, spine_eta, outSpine_next]

@[simp] theorem execSessionIdleTimeout_spine {x1 s0} : outSpine s0 (execSessionIdleTimeout x1 s0) = s0.spine := by
  unfold execSessionIdleTimeout
  with_reducible repeat' first
    | assumption
    | rfl
    | rw [outSpine_next]
    | (extract_lets +onlyGivenNames y; clear_value y)
    | refine ite_spine ?_ ?_
    | refine ite_out ?_ ?_
    | (simp only [*, endSess_spine, spine_mk, spine_eta, outSpine_next]; done)
    | split
    | (simp [*]; done)
    | simp only [*, endSess_spine, spine_mk, spine_eta, outSpine_next]

@[simp] theorem execChallengeExpire_spine {x1 s0} : outSpine s0 (execChallengeExpire x1 s0) = s0.spine := by
  unfold execChallengeExpire
  with_reducible repeat' first
    | assumption
    | rfl
    | rw [outSpine_next]
    | (extract_lets +onlyGivenNames y; clear_value y)
    | refine ite_spine ?_ ?_
    | refine ite_out ?_ ?_
    | (simp only [*, resolveWaiting_spine, dropChal_spine, spine_mk, spine_eta, outSpine_next]; done)
    | split
    | (simp [*]; done)
    | simp only [*, resolveWaiting_spine, dropChal_spine, spine_mk, spine_eta, outSpine_next]

@[simp] theorem execIdentityLockEnd_spine {x1 s0} : outSpine s0 (execIdentityLockEnd x1 s0) = s0.spine := by
  unfold execIdentityLockEnd
  with_reducible repeat' first
    | assumption
    | rfl
    | rw [outSpine_next]
    | (extract_lets +onlyGivenNames y; clear_value y)
    | refine ite_spine ?_ ?_
    | refine ite_out ?_ ?_
    | (simp only [*, modIdent_spine, spine_mk, spine_eta, outSpine_next]; done)
    | split
    | (simp [*]; done)
    | simp only [*, modIdent_spine, spine_mk, spine_eta, outSpine_next]

@[simp] theorem resetPairs_spine {s0 x1} : (State.resetPairs s0 x1).spine = s0.spine := by
  unfold State.resetPairs
  with_reducible repeat' first
    | assumption
    | rfl
    | (extract_lets +onlyGivenNames y; clear_value y)
    | (refine (foldl_spine ?_).trans ?_; on_goal 1 => intro s0 _)
    | (simp only [*, spine_mk, spine_eta]; done)
    | split
    | (simp [*]; done)
    | simp only [*, spine_mk, spine_eta]

@[simp] theorem resetEvents_spine {s0 x1} : (State.resetEvents s0 x1).spine = s0.spine := by
  unfold State.resetEvents
  simp only [modEv_spine, spine_mk, spine_eta]

@[simp] theorem clearQueues_spine {s0 x1} : (State.clearQueues s0 x1).spine = s0.spine := by
  unfold State.clearQueues
  with_reducible repeat' first
    | assumption
    | rfl
    | (refine (foldl_spine ?_).trans ?_; on_goal 1 => intro s0 _)
    | (simp only [*, setQueue_spine, spine_mk, spine_eta]; done)
    | split
    | (simp [*]; done)
    | simp only [*, setQueue_spine, spine_mk, spine_eta]

@[simp] theorem endStreams_spine {s0 x1} : (State.endStreams s0 x1).spine = s0.spine := by
  unfold State.endStreams
  simp only [finishKind_spine, spine_mk, spine_eta]

@[simp] theorem endBaySessions_spine {s0 x1} : (State.endBaySessions s0 x1).spine = s0.spine := by
  unfold State.endBaySessions
  with_reducible repeat' first
    | assumption
    | rfl
    | (extract_lets +onlyGivenNames y
       refine (show (y.spine = s0.spine → _) from fun h => ?_) ?_
       on_goal 1 => clear_value y
       on_goal 2 => (simp only [y]; try clear y))
    | (extract_lets +onlyGivenNames y; clear_value y)
    | (refine (foldl_spine ?_).trans ?_; on_goal 1 => intro s0 _)
    | (simp only [*, endSess_spine, spine_mk, spine_eta]; done)
    | split
    | (simp [*]; done)
    | simp only [*, endSess_spine, spine_mk, spine_eta]

@[simp] theorem bayReset_spine {s0 x1} : (State.bayReset s0 x1).spine = s0.spine := by
  unfold State.bayReset
  with_reducible repeat' first
    | assumption
    | rfl
    | (extract_lets +onlyGivenNames y
       refine (show (y.spine = s0.spine → _) from fun h => ?_) ?_
       on_goal 1 => clear_value y
       on_goal 2 => (simp only [y]; try clear y))
    | (extract_lets +onlyGivenNames y; clear_value y)
    | refine ite_spine ?_ ?_
    | (simp only [*, endBaySessions_spine, clearQueues_spine, endStreams_spine, resetPairs_spine, pulse_spine, modEv_spine, resetEvents_spine, raise_spine, spine_mk, spine_eta]; done)
    | split
    | (simp [*]; done)
    | simp only [*, endBaySessions_spine, clearQueues_spine, endStreams_spine, resetPairs_spine, pulse_spine, modEv_spine, resetEvents_spine, raise_spine, spine_mk, spine_eta]

@[simp] theorem bodyBayReset_spine {x1 x2 s0} : (bodyBayReset x1 x2 s0).1.spine = s0.spine := by
  unfold bodyBayReset
  with_reducible repeat' first
    | assumption
    | rfl
    | (extract_lets +onlyGivenNames y
       refine (show (y.spine = s0.spine → _) from fun h => ?_) ?_
       on_goal 1 => clear_value y
       on_goal 2 => (simp only [y]; try clear y))
    | (extract_lets +onlyGivenNames y
       refine (show (y.1.spine = s0.spine → _) from fun h => ?_) ?_
       on_goal 1 => clear_value y
       on_goal 2 => (simp only [y]; try clear y))
    | (extract_lets +onlyGivenNames y; clear_value y)
    | (refine fixedBody_spine ?_; intro _ _ s0)
    | refine ite_spine ?_ ?_
    | refine ite_fst ?_ ?_
    | (simp only [*, fixedBody_spine, bayReset_spine, answer_spine, spine_mk, spine_eta]; done)
    | (split <;> (try (rename_i q; obtain ⟨q1, q2⟩ := Prod.ext_iff.mp q; simp only at q1 q2; subst q1 q2)))
    | (simp [*]; done)
    | simp only [*, fixedBody_spine, bayReset_spine, answer_spine, spine_mk, spine_eta]

@[simp] theorem atSubscribe_spine {s0 x1 x2} : (State.atSubscribe s0 x1 x2).spine = s0.spine := by
  unfold State.atSubscribe
  with_reducible repeat' first
    | assumption
    | rfl
    | (extract_lets +onlyGivenNames y; clear_value y)
    | (refine (foldl_spine ?_).trans ?_; on_goal 1 => intro s0 _)
    | refine ite_spine ?_ ?_
    | (simp only [*, evPut_spine, spine_mk, spine_eta]; done)
    | split
    | (simp [*]; done)
    | simp only [*, evPut_spine, spine_mk, spine_eta]

@[simp] theorem atStart_spine {s0 x1 x2 x3} : (State.atStart s0 x1 x2 x3).spine = s0.spine := by
  unfold State.atStart
  with_reducible repeat' first
    | assumption
    | rfl
    | (extract_lets +onlyGivenNames y
       refine (show (y.spine = s0.spine → _) from fun h => ?_) ?_
       on_goal 1 => clear_value y
       on_goal 2 => (simp only [y]; try clear y))
    | (extract_lets +onlyGivenNames y; clear_value y)
    | (refine (foldl_spine ?_).trans ?_; on_goal 1 => intro s0 _)
    | (simp only [*, modEv_spine, evPut_spine, spine_mk, spine_eta]; done)
    | split
    | (simp [*]; done)
    | simp only [*, modEv_spine, evPut_spine, spine_mk, spine_eta]

@[simp] theorem bodyEventSubscribe_spine {x1 x2 s0} : (bodyEventSubscribe x1 x2 s0).1.spine = s0.spine := by
  unfold bodyEventSubscribe
  with_reducible repeat' first
    | assumption
    | rfl
    | (extract_lets +onlyGivenNames y
       refine (show (y.spine = s0.spine → _) from fun h => ?_) ?_
       on_goal 1 => clear_value y
       on_goal 2 => (simp only [y]; try clear y))
    | (extract_lets +onlyGivenNames y
       refine (show (y.1.spine = s0.spine → _) from fun h => ?_) ?_
       on_goal 1 => clear_value y
       on_goal 2 => (simp only [y]; try clear y))
    | (extract_lets +onlyGivenNames y; clear_value y)
    | (refine fixedBody_spine ?_; intro _ _ s0)
    | refine ite_spine ?_ ?_
    | refine ite_fst ?_ ?_
    | (simp only [*, fixedBody_spine, modEv_spine, atStart_spine, atSubscribe_spine, spine_mk, spine_eta]; done)
    | (split <;> (try (rename_i q; obtain ⟨q1, q2⟩ := Prod.ext_iff.mp q; simp only at q1 q2; subst q1 q2)))
    | (simp [*]; done)
    | simp only [*, fixedBody_spine, modEv_spine, atStart_spine, atSubscribe_spine, spine_mk, spine_eta]

@[simp] theorem afterDrops_spine {s0 x1} : (State.afterDrops s0 x1).spine = s0.spine := by
  unfold State.afterDrops
  with_reducible repeat' first
    | assumption
    | rfl
    | (extract_lets +onlyGivenNames y
       refine (show (y.spine = s0.spine → _) from fun h => ?_) ?_
       on_goal 1 => clear_value y
       on_goal 2 => (simp only [y]; try clear y))
    | (extract_lets +onlyGivenNames y
       have hk : Kiln.ph y = Kiln.ph (State.kiln _) := rfl
       clear_value y)
    | (extract_lets +onlyGivenNames y; clear_value y)
    | (refine (foldl_spine ?_).trans ?_; on_goal 1 => intro s0 _)
    | refine ite_spine ?_ ?_
    | (simp only [*, evPut_spine, modEv_spine, spine_mk, spine_eta]; done)
    | split
    | (simp [*]; done)
    | simp only [*, evPut_spine, modEv_spine, spine_mk, spine_eta]

@[simp] theorem bodyEventRead_spine {x1 x2 s0} : (bodyEventRead x1 x2 s0).1.spine = s0.spine := by
  unfold bodyEventRead
  with_reducible repeat' first
    | assumption
    | rfl
    | (extract_lets +onlyGivenNames y
       refine (show (y.spine = s0.spine → _) from fun h => ?_) ?_
       on_goal 1 => clear_value y
       on_goal 2 => (simp only [y]; try clear y))
    | (extract_lets +onlyGivenNames y
       refine (show (y.1.spine = s0.spine → _) from fun h => ?_) ?_
       on_goal 1 => clear_value y
       on_goal 2 => (simp only [y]; try clear y))
    | (extract_lets +onlyGivenNames y; clear_value y)
    | (refine fixedBody_spine ?_; intro _ _ s0)
    | refine ite_spine ?_ ?_
    | refine ite_fst ?_ ?_
    | (simp only [*, fixedBody_spine, modEv_spine, afterDrops_spine, spine_mk, spine_eta]; done)
    | (split <;> (try (rename_i q; obtain ⟨q1, q2⟩ := Prod.ext_iff.mp q; simp only at q1 q2; subst q1 q2)))
    | (simp [*]; done)
    | simp only [*, fixedBody_spine, modEv_spine, afterDrops_spine, spine_mk, spine_eta]

@[simp] theorem bodyQosSet_spine {x1 x2 s0} : (bodyQosSet x1 x2 s0).1.spine = s0.spine := by
  unfold bodyQosSet
  with_reducible repeat' first
    | assumption
    | rfl
    | (extract_lets +onlyGivenNames y
       refine (show (y.spine = s0.spine → _) from fun h => ?_) ?_
       on_goal 1 => clear_value y
       on_goal 2 => (simp only [y]; try clear y))
    | (extract_lets +onlyGivenNames y
       refine (show (y.1.spine = s0.spine → _) from fun h => ?_) ?_
       on_goal 1 => clear_value y
       on_goal 2 => (simp only [y]; try clear y))
    | (extract_lets +onlyGivenNames y; clear_value y)
    | (refine fixedBody_spine ?_; intro _ _ s0)
    | refine ite_spine ?_ ?_
    | refine ite_fst ?_ ?_
    | (simp only [*, fixedBody_spine, pulse_spine, spine_mk, spine_eta]; done)
    | (split <;> (try (rename_i q; obtain ⟨q1, q2⟩ := Prod.ext_iff.mp q; simp only at q1 q2; subst q1 q2)))
    | (simp [*]; done)
    | simp only [*, fixedBody_spine, pulse_spine, spine_mk, spine_eta]

@[simp] theorem bodyQosRead_spine {x1 x2 s0} : (bodyQosRead x1 x2 s0).1.spine = s0.spine := by
  unfold bodyQosRead
  with_reducible repeat' first
    | assumption
    | rfl
    | (extract_lets +onlyGivenNames y
       refine (show (y.spine = s0.spine → _) from fun h => ?_) ?_
       on_goal 1 => clear_value y
       on_goal 2 => (simp only [y]; try clear y))
    | (extract_lets +onlyGivenNames y
       refine (show (y.1.spine = s0.spine → _) from fun h => ?_) ?_
       on_goal 1 => clear_value y
       on_goal 2 => (simp only [y]; try clear y))
    | (extract_lets +onlyGivenNames y; clear_value y)
    | (refine fixedBody_spine ?_; intro _ _ s0)
    | refine ite_spine ?_ ?_
    | refine ite_fst ?_ ?_
    | (simp only [*, fixedBody_spine, readBody_spine, spine_mk, spine_eta]; done)
    | (split <;> (try (rename_i q; obtain ⟨q1, q2⟩ := Prod.ext_iff.mp q; simp only at q1 q2; subst q1 q2)))
    | (simp [*]; done)
    | simp only [*, fixedBody_spine, readBody_spine, spine_mk, spine_eta]

@[simp] theorem execBayReset_spine {x1 s0} : outSpine s0 (execBayReset x1 s0) = s0.spine := by
  unfold execBayReset
  with_reducible repeat' first
    | assumption
    | rfl
    | rw [outSpine_next]
    | (simp only [*, command_spine, bodyBayReset_spine, spine_mk, spine_eta, outSpine_next]; done)
    | (split <;> (try (rename_i q; obtain ⟨q1, q2⟩ := Prod.ext_iff.mp q; simp only at q1 q2; subst q1 q2)))
    | (simp [*]; done)
    | simp only [*, command_spine, bodyBayReset_spine, spine_mk, spine_eta, outSpine_next]

@[simp] theorem execEventSubscribe_spine {x1 s0} : outSpine s0 (execEventSubscribe x1 s0) = s0.spine := by
  unfold execEventSubscribe
  with_reducible repeat' first
    | assumption
    | rfl
    | rw [outSpine_next]
    | (simp only [*, command_spine, bodyEventSubscribe_spine, spine_mk, spine_eta, outSpine_next]; done)
    | (split <;> (try (rename_i q; obtain ⟨q1, q2⟩ := Prod.ext_iff.mp q; simp only at q1 q2; subst q1 q2)))
    | (simp [*]; done)
    | simp only [*, command_spine, bodyEventSubscribe_spine, spine_mk, spine_eta, outSpine_next]

@[simp] theorem execEventRead_spine {x1 s0} : outSpine s0 (execEventRead x1 s0) = s0.spine := by
  unfold execEventRead
  with_reducible repeat' first
    | assumption
    | rfl
    | rw [outSpine_next]
    | (simp only [*, command_spine, bodyEventRead_spine, spine_mk, spine_eta, outSpine_next]; done)
    | (split <;> (try (rename_i q; obtain ⟨q1, q2⟩ := Prod.ext_iff.mp q; simp only at q1 q2; subst q1 q2)))
    | (simp [*]; done)
    | simp only [*, command_spine, bodyEventRead_spine, spine_mk, spine_eta, outSpine_next]

@[simp] theorem execQosSet_spine {x1 s0} : outSpine s0 (execQosSet x1 s0) = s0.spine := by
  unfold execQosSet
  with_reducible repeat' first
    | assumption
    | rfl
    | rw [outSpine_next]
    | (simp only [*, command_spine, bodyQosSet_spine, spine_mk, spine_eta, outSpine_next]; done)
    | (split <;> (try (rename_i q; obtain ⟨q1, q2⟩ := Prod.ext_iff.mp q; simp only at q1 q2; subst q1 q2)))
    | (simp [*]; done)
    | simp only [*, command_spine, bodyQosSet_spine, spine_mk, spine_eta, outSpine_next]

@[simp] theorem execQosRead_spine {x1 s0} : outSpine s0 (execQosRead x1 s0) = s0.spine := by
  unfold execQosRead
  with_reducible repeat' first
    | assumption
    | rfl
    | rw [outSpine_next]
    | (simp only [*, command_spine, bodyQosRead_spine, spine_mk, spine_eta, outSpine_next]; done)
    | (split <;> (try (rename_i q; obtain ⟨q1, q2⟩ := Prod.ext_iff.mp q; simp only at q1 q2; subst q1 q2)))
    | (simp [*]; done)
    | simp only [*, command_spine, bodyQosRead_spine, spine_mk, spine_eta, outSpine_next]

@[simp] theorem spiFirst_spine {s0} : (State.spiFirst s0).spine = s0.spine := by
  unfold State.spiFirst
  simp only [spine_mk, spine_eta]

@[simp] theorem execSpiWrite_spine {x1 s0} : outSpine s0 (execSpiWrite x1 s0) = s0.spine := by
  unfold execSpiWrite
  with_reducible repeat' first
    | assumption
    | rfl
    | rw [outSpine_next]
    | (extract_lets +onlyGivenNames y
       refine (show (y.spine = s0.spine → _) from fun h => ?_) ?_
       on_goal 1 => clear_value y
       on_goal 2 => (simp only [y]; try clear y))
    | (extract_lets +onlyGivenNames y; clear_value y)
    | refine ite_spine ?_ ?_
    | refine ite_out ?_ ?_
    | (simp only [*, spiFirst_spine, arriveQueue_spine, spine_mk, spine_eta, outSpine_next]; done)
    | split
    | (simp [*]; done)
    | simp only [*, spiFirst_spine, arriveQueue_spine, spine_mk, spine_eta, outSpine_next]

@[simp] theorem execSpiRead_spine {x1 s0} : outSpine s0 (execSpiRead x1 s0) = s0.spine := by
  unfold execSpiRead
  with_reducible repeat' first
    | assumption
    | rfl
    | rw [outSpine_next]
    | (extract_lets +onlyGivenNames y
       refine (show (y.spine = s0.spine → _) from fun h => ?_) ?_
       on_goal 1 => clear_value y
       on_goal 2 => (simp only [y]; try clear y))
    | (extract_lets +onlyGivenNames y; clear_value y)
    | refine ite_spine ?_ ?_
    | refine ite_out ?_ ?_
    | (simp only [*, spiFirst_spine, spine_mk, spine_eta, outSpine_next]; done)
    | split
    | (simp [*]; done)
    | simp only [*, spiFirst_spine, spine_mk, spine_eta, outSpine_next]

@[simp] theorem fetchOne_spine {s0 x1 x2 x3} : (State.fetchOne s0 x1 x2 x3).spine = s0.spine := by
  unfold State.fetchOne
  with_reducible repeat' first
    | assumption
    | rfl
    | (extract_lets +onlyGivenNames y
       refine (show (y.spine = s0.spine → _) from fun h => ?_) ?_
       on_goal 1 => clear_value y
       on_goal 2 => (simp only [y]; try clear y))
    | (extract_lets +onlyGivenNames y; clear_value y)
    | refine ite_spine ?_ ?_
    | (simp only [*, modQp_spine, addConts_spine, arriveQueue_spine, spine_mk, spine_eta]; done)
    | split
    | (simp [*]; done)
    | simp only [*, modQp_spine, addConts_spine, arriveQueue_spine, spine_mk, spine_eta]

@[simp] theorem fetchAll_spine {s0 x1 x2 x3} : (State.fetchAll s0 x1 x2 x3).spine = s0.spine := by
  induction x3 generalizing s0 with
  | nil => rfl
  | cons e l ih =>
    unfold State.fetchAll
    exact ite_spine (ih.trans fetchOne_spine) rfl

@[simp] theorem sqDoorbell_spine {s0 x1 x2 x3 x4} : (State.sqDoorbell s0 x1 x2 x3 x4).spine = s0.spine := by
  unfold State.sqDoorbell
  with_reducible repeat' first
    | assumption
    | rfl
    | (extract_lets +onlyGivenNames y
       refine (show (y.spine = s0.spine → _) from fun h => ?_) ?_
       on_goal 1 => clear_value y
       on_goal 2 => (simp only [y]; try clear y))
    | (extract_lets +onlyGivenNames y; clear_value y)
    | refine ite_spine ?_ ?_
    | (simp only [*, modQp_spine, fetchAll_spine, spine_mk, spine_eta]; done)
    | split
    | (simp [*]; done)
    | simp only [*, modQp_spine, fetchAll_spine, spine_mk, spine_eta]

@[simp] theorem execSqTailDoorbell_spine {x1 x2 x3 x4 s0} : outSpine s0 (execSqTailDoorbell x1 x2 x3 x4 s0) = s0.spine := by
  unfold execSqTailDoorbell
  simp only [sqDoorbell_spine, spine_mk, spine_eta, outSpine_next]

@[simp] theorem drainCq_spine {s0 x1 x2 x3} : (State.drainCq s0 x1 x2 x3).spine = s0.spine := by
  induction x3 generalizing s0 with
  | nil => rfl
  | cons e l ih =>
    unfold State.drainCq
    refine ite_spine rfl (ih.trans ?_)
    rw [complete_spine, modQp_spine]

@[simp] theorem cqDoorbell_spine {s0 x1 x2 x3 x4} : (State.cqDoorbell s0 x1 x2 x3 x4).spine = s0.spine := by
  unfold State.cqDoorbell
  with_reducible repeat' first
    | assumption
    | rfl
    | (extract_lets +onlyGivenNames y
       refine (show (y.spine = s0.spine → _) from fun h => ?_) ?_
       on_goal 1 => clear_value y
       on_goal 2 => (simp only [y]; try clear y))
    | (extract_lets +onlyGivenNames y; clear_value y)
    | refine ite_spine ?_ ?_
    | (simp only [*, modQp_spine, fetchAll_spine, drainCq_spine, spine_mk, spine_eta]; done)
    | split
    | (simp [*]; done)
    | simp only [*, modQp_spine, fetchAll_spine, drainCq_spine, spine_mk, spine_eta]

@[simp] theorem execCqHeadDoorbell_spine {x1 x2 x3 x4 s0} : outSpine s0 (execCqHeadDoorbell x1 x2 x3 x4 s0) = s0.spine := by
  unfold execCqHeadDoorbell
  simp only [cqDoorbell_spine, spine_mk, spine_eta, outSpine_next]

@[simp] theorem qpEnable_spine {s0 x1 x2} : (State.qpEnable s0 x1 x2).spine = s0.spine := by
  unfold State.qpEnable
  with_reducible repeat' first
    | assumption
    | rfl
    | (extract_lets +onlyGivenNames y
       refine (show (y.spine = s0.spine → _) from fun h => ?_) ?_
       on_goal 1 => clear_value y
       on_goal 2 => (simp only [y]; try clear y))
    | (extract_lets +onlyGivenNames y; clear_value y)
    | refine ite_spine ?_ ?_
    | (simp only [*, modQp_spine, spine_mk, spine_eta]; done)
    | split
    | (simp [*]; done)
    | simp only [*, modQp_spine, spine_mk, spine_eta]

@[simp] theorem execQpEnable_spine {x1 x2 s0} : outSpine s0 (execQpEnable x1 x2 s0) = s0.spine := by
  unfold execQpEnable
  simp only [qpEnable_spine, spine_mk, spine_eta, outSpine_next]

@[simp] theorem qpDisable_spine {s0 x1 x2} : (State.qpDisable s0 x1 x2).spine = s0.spine := by
  unfold State.qpDisable
  with_reducible repeat' first
    | assumption
    | rfl
    | (extract_lets +onlyGivenNames y; clear_value y)
    | refine ite_spine ?_ ?_
    | (simp only [*, modQp_spine, spine_mk, spine_eta]; done)
    | split
    | (simp [*]; done)
    | simp only [*, modQp_spine, spine_mk, spine_eta]

@[simp] theorem execQpDisable_spine {x1 x2 s0} : outSpine s0 (execQpDisable x1 x2 s0) = s0.spine := by
  unfold execQpDisable
  simp only [qpDisable_spine, spine_mk, spine_eta, outSpine_next]

@[simp] theorem execPerstNAssert_spine {s0} : outSpine s0 (execPerstNAssert s0) = s0.spine := by
  unfold execPerstNAssert
  with_reducible repeat' first
    | assumption
    | rfl
    | rw [outSpine_next]
    | (extract_lets +onlyGivenNames y
       refine (show (y.spine = s0.spine → _) from fun h => ?_) ?_
       on_goal 1 => clear_value y
       on_goal 2 => (simp only [y]; try clear y))
    | (extract_lets +onlyGivenNames y; clear_value y)
    | (refine (foldl_spine ?_).trans ?_; on_goal 1 => intro s0 _)
    | (simp only [*, endSess_spine, resetEvents_spine, resetPairs_spine, clearQueues_spine, spine_mk, spine_eta, outSpine_next]; done)
    | split
    | (simp [*]; done)
    | simp only [*, endSess_spine, resetEvents_spine, resetPairs_spine, clearQueues_spine, spine_mk, spine_eta, outSpine_next]

@[simp] theorem execFunctionLevelReset_spine {x1 s0} : outSpine s0 (execFunctionLevelReset x1 s0) = s0.spine := by
  unfold execFunctionLevelReset
  simp only [bayReset_spine, spine_mk, spine_eta, outSpine_next]

@[simp] theorem modChan_spine {s0 x1 x2} : (State.modChan s0 x1 x2).spine = s0.spine := by
  unfold State.modChan
  simp only [spine_mk, spine_eta]

@[simp] theorem modCourse_spine {s0 x1 x2} : (State.modCourse s0 x1 x2).spine = s0.spine := by
  unfold State.modCourse
  simp only [spine_mk, spine_eta]

@[simp] theorem modMclk_spine {s0 x1 x2} : (State.modMclk s0 x1 x2).spine = s0.spine := by
  unfold State.modMclk
  simp only [spine_mk, spine_eta]

@[simp] theorem ownSample_spine {x1 s0} : (ownSample x1 s0).spine = s0.spine := by
  unfold ownSample
  with_reducible repeat' first
    | assumption
    | rfl
    | (extract_lets +onlyGivenNames y
       refine (show (y.spine = s0.spine → _) from fun h => ?_) ?_
       on_goal 1 => clear_value y
       on_goal 2 => (simp only [y]; try clear y))
    | (extract_lets +onlyGivenNames y; clear_value y)
    | refine ite_spine ?_ ?_
    | (simp only [*, modChan_spine, f0_spine, f1_spine, pulse_spine, spine_mk, spine_eta]; done)
    | split
    | (simp [*]; done)
    | simp only [*, modChan_spine, f0_spine, f1_spine, pulse_spine, spine_mk, spine_eta]

@[simp] theorem ovrStream_spine {x1 x2 s0} : (ovrStream x1 x2 s0).spine = s0.spine := by
  unfold ovrStream
  with_reducible repeat' first
    | assumption
    | rfl
    | (extract_lets +onlyGivenNames y
       refine (show (y.spine = s0.spine → _) from fun h => ?_) ?_
       on_goal 1 => clear_value y
       on_goal 2 => (simp only [y]; try clear y))
    | (extract_lets +onlyGivenNames y; clear_value y)
    | refine ite_spine ?_ ?_
    | (simp only [*, modChan_spine, level_spine, spine_mk, spine_eta]; done)
    | split
    | (simp [*]; done)
    | simp only [*, modChan_spine, level_spine, spine_mk, spine_eta]

@[simp] theorem plainStream_spine {x1 s0} : (plainStream x1 s0).spine = s0.spine := by
  unfold plainStream
  simp only [ovrStream_spine, modChan_spine, spine_mk, spine_eta]

@[simp] theorem lowStream_spine {x1 x2 s0} : (lowStream x1 x2 s0).spine = s0.spine := by
  unfold lowStream
  with_reducible repeat' first
    | assumption
    | rfl
    | (extract_lets +onlyGivenNames y
       refine (show (y.spine = s0.spine → _) from fun h => ?_) ?_
       on_goal 1 => clear_value y
       on_goal 2 => (simp only [y]; try clear y))
    | (extract_lets +onlyGivenNames y; clear_value y)
    | refine ite_spine ?_ ?_
    | (simp only [*, ovrStream_spine, modChan_spine, spine_mk, spine_eta]; done)
    | split
    | (simp [*]; done)
    | simp only [*, ovrStream_spine, modChan_spine, spine_mk, spine_eta]

@[simp] theorem pairStream_spine {x1 x2 s0} : (pairStream x1 x2 s0).spine = s0.spine := by
  unfold pairStream
  with_reducible repeat' first
    | assumption
    | rfl
    | (extract_lets +onlyGivenNames y
       refine (show (y.spine = s0.spine → _) from fun h => ?_) ?_
       on_goal 1 => clear_value y
       on_goal 2 => (simp only [y]; try clear y))
    | (extract_lets +onlyGivenNames y; clear_value y)
    | refine ite_spine ?_ ?_
    | (simp only [*, modChan_spine, pulse_spine, lowStream_spine, ovrStream_spine, spine_mk, spine_eta]; done)
    | split
    | (simp [*]; done)
    | simp only [*, modChan_spine, pulse_spine, lowStream_spine, ovrStream_spine, spine_mk, spine_eta]

@[simp] theorem combineStreams_spine {x1 s0} : (combineStreams x1 s0).spine = s0.spine := by
  unfold combineStreams
  with_reducible repeat' first
    | assumption
    | rfl
    | (extract_lets +onlyGivenNames y; clear_value y)
    | (refine (foldl_spine ?_).trans ?_; on_goal 1 => intro s0 _)
    | (simp only [*, pairStream_spine, plainStream_spine, spine_mk, spine_eta]; done)
    | split
    | (simp [*]; done)
    | simp only [*, pairStream_spine, plainStream_spine, spine_mk, spine_eta]

@[simp] theorem startCourse_spine {s0 x1 x2} : (State.startCourse s0 x1 x2).spine = s0.spine := by
  unfold State.startCourse
  with_reducible repeat' first
    | assumption
    | rfl
    | (extract_lets +onlyGivenNames y
       refine (show (y.spine = s0.spine → _) from fun h => ?_) ?_
       on_goal 1 => clear_value y
       on_goal 2 => (simp only [y]; try clear y))
    | (extract_lets +onlyGivenNames y; clear_value y)
    | (refine (foldl_spine ?_).trans ?_; on_goal 1 => intro s0 _)
    | (simp only [*, modCourse_spine, modChan_spine, spine_mk, spine_eta]; done)
    | split
    | (simp [*]; done)
    | simp only [*, modCourse_spine, modChan_spine, spine_mk, spine_eta]

@[simp] theorem quietChannel_spine {s0 x1} : (State.quietChannel s0 x1).spine = s0.spine := by
  unfold State.quietChannel
  with_reducible repeat' first
    | assumption
    | rfl
    | (refine (foldl_spine ?_).trans ?_; on_goal 1 => intro s0 _)
    | (simp only [*, level_spine, spine_mk, spine_eta]; done)
    | split
    | (simp [*]; done)
    | simp only [*, level_spine, spine_mk, spine_eta]

@[simp] theorem stopCourse_spine {s0 x1} : (State.stopCourse s0 x1).spine = s0.spine := by
  unfold State.stopCourse
  with_reducible repeat' first
    | assumption
    | rfl
    | (extract_lets +onlyGivenNames y
       refine (show (y.spine = s0.spine → _) from fun h => ?_) ?_
       on_goal 1 => clear_value y
       on_goal 2 => (simp only [y]; try clear y))
    | (extract_lets +onlyGivenNames y; clear_value y)
    | (refine (foldl_spine ?_).trans ?_; on_goal 1 => intro s0 _)
    | (simp only [*, modCourse_spine, modMclk_spine, quietChannel_spine, modChan_spine, spine_mk, spine_eta]; done)
    | split
    | (simp [*]; done)
    | simp only [*, modCourse_spine, modMclk_spine, quietChannel_spine, modChan_spine, spine_mk, spine_eta]

@[simp] theorem setTc_spine {s0 x1 x2 x3 x4} : (State.setTc s0 x1 x2 x3 x4).spine = s0.spine := by
  unfold State.setTc
  simp only [modChan_spine, spine_mk, spine_eta]

@[simp] theorem tcApply_spine {s0 x1 x2} : (State.tcApply s0 x1 x2).spine = s0.spine := by
  unfold State.tcApply
  simp only [setTc_spine, spine_mk, spine_eta]

@[simp] theorem tcMean_spine {s0 x1 x2} : (State.tcMean s0 x1 x2).spine = s0.spine := by
  unfold State.tcMean
  with_reducible repeat' first
    | assumption
    | rfl
    | (extract_lets +onlyGivenNames y
       refine (show (y.spine = s0.spine → _) from fun h => ?_) ?_
       on_goal 1 => clear_value y
       on_goal 2 => (simp only [y]; try clear y))
    | (extract_lets +onlyGivenNames y; clear_value y)
    | (refine (foldl_spine ?_).trans ?_; on_goal 1 => intro s0 _)
    | (simp only [*, tcApply_spine, modChan_spine, spine_mk, spine_eta]; done)
    | split
    | (simp [*]; done)
    | simp only [*, tcApply_spine, modChan_spine, spine_mk, spine_eta]

@[simp] theorem setStuck_spine {s0 x1 x2} : (State.setStuck s0 x1 x2).spine = s0.spine := by
  unfold State.setStuck
  simp only [level_spine, modChan_spine, spine_mk, spine_eta]

@[simp] theorem execRangeSwitchDown_spine {x1 s0} : outSpine s0 (execRangeSwitchDown x1 s0) = s0.spine := by
  unfold execRangeSwitchDown
  with_reducible repeat' first
    | assumption
    | rfl
    | rw [outSpine_next]
    | (extract_lets +onlyGivenNames y
       refine (show (y.spine = s0.spine → _) from fun h => ?_) ?_
       on_goal 1 => clear_value y
       on_goal 2 => (simp only [y]; try clear y))
    | (extract_lets +onlyGivenNames y; clear_value y)
    | refine ite_spine ?_ ?_
    | refine ite_out ?_ ?_
    | (simp only [*, pulse_spine, modChan_spine, spine_mk, spine_eta, outSpine_next]; done)
    | split
    | (simp [*]; done)
    | simp only [*, pulse_spine, modChan_spine, spine_mk, spine_eta, outSpine_next]

@[simp] theorem execOverrangeRelease_spine {x1 s0} : outSpine s0 (execOverrangeRelease x1 s0) = s0.spine := by
  unfold execOverrangeRelease
  with_reducible repeat' first
    | assumption
    | rfl
    | rw [outSpine_next]
    | (extract_lets +onlyGivenNames y
       refine (show (y.spine = s0.spine → _) from fun h => ?_) ?_
       on_goal 1 => clear_value y
       on_goal 2 => (simp only [y]; try clear y))
    | (extract_lets +onlyGivenNames y; clear_value y)
    | refine ite_spine ?_ ?_
    | refine ite_out ?_ ?_
    | (simp only [*, level_spine, modChan_spine, spine_mk, spine_eta, outSpine_next]; done)
    | split
    | (simp [*]; done)
    | simp only [*, level_spine, modChan_spine, spine_mk, spine_eta, outSpine_next]

@[simp] theorem execStuckRunDetect_spine {x1 x2 s0} : outSpine s0 (execStuckRunDetect x1 x2 s0) = s0.spine := by
  unfold execStuckRunDetect
  with_reducible repeat' first
    | assumption
    | rfl
    | rw [outSpine_next]
    | refine ite_spine ?_ ?_
    | refine ite_out ?_ ?_
    | (simp only [*, setStuck_spine, spine_mk, spine_eta, outSpine_next]; done)
    | split
    | (simp [*]; done)
    | simp only [*, setStuck_spine, spine_mk, spine_eta, outSpine_next]

@[simp] theorem execBitstreamIdentical_spine {x1 x2 x3 s0} : outSpine s0 (execBitstreamIdentical x1 x2 x3 s0) = s0.spine := by
  unfold execBitstreamIdentical
  with_reducible repeat' first
    | assumption
    | rfl
    | rw [outSpine_next]
    | refine ite_spine ?_ ?_
    | refine ite_out ?_ ?_
    | (simp only [*, setStuck_spine, spine_mk, spine_eta, outSpine_next]; done)
    | split
    | (simp [*]; done)
    | simp only [*, setStuck_spine, spine_mk, spine_eta, outSpine_next]

@[simp] theorem execStuckClear_spine {x1 x2 s0} : outSpine s0 (execStuckClear x1 x2 s0) = s0.spine := by
  unfold execStuckClear
  with_reducible repeat' first
    | assumption
    | rfl
    | rw [outSpine_next]
    | (extract_lets +onlyGivenNames y; clear_value y)
    | refine ite_spine ?_ ?_
    | refine ite_out ?_ ?_
    | (simp only [*, level_spine, modChan_spine, spine_mk, spine_eta, outSpine_next]; done)
    | split
    | (simp [*]; done)
    | simp only [*, level_spine, modChan_spine, spine_mk, spine_eta, outSpine_next]

@[simp] theorem execOpenTest_spine {x1 x2 s0} : outSpine s0 (execOpenTest x1 x2 s0) = s0.spine := by
  unfold execOpenTest
  with_reducible repeat' first
    | assumption
    | rfl
    | rw [outSpine_next]
    | (extract_lets +onlyGivenNames y
       refine (show (y.spine = s0.spine → _) from fun h => ?_) ?_
       on_goal 1 => clear_value y
       on_goal 2 => (simp only [y]; try clear y))
    | (extract_lets +onlyGivenNames y; clear_value y)
    | refine ite_spine ?_ ?_
    | refine ite_out ?_ ?_
    | (simp only [*, modChan_spine, level_spine, spine_mk, spine_eta, outSpine_next]; done)
    | split
    | (simp [*]; done)
    | simp only [*, modChan_spine, level_spine, spine_mk, spine_eta, outSpine_next]

@[simp] theorem execMclkFaultEnter_spine {x1 x2 s0} : outSpine s0 (execMclkFaultEnter x1 x2 s0) = s0.spine := by
  unfold execMclkFaultEnter
  with_reducible repeat' first
    | assumption
    | rfl
    | rw [outSpine_next]
    | (extract_lets +onlyGivenNames y
       refine (show (y.spine = s0.spine → _) from fun h => ?_) ?_
       on_goal 1 => clear_value y
       on_goal 2 => (simp only [y]; try clear y))
    | (extract_lets +onlyGivenNames y; clear_value y)
    | (refine (foldl_spine ?_).trans ?_; on_goal 1 => intro s0 _)
    | refine ite_spine ?_ ?_
    | refine ite_out ?_ ?_
    | (simp only [*, modMclk_spine, setStuck_spine, spine_mk, spine_eta, outSpine_next]; done)
    | split
    | (simp [*]; done)
    | simp only [*, modMclk_spine, setStuck_spine, spine_mk, spine_eta, outSpine_next]

@[simp] theorem execMclkRetry_spine {x1 s0} : outSpine s0 (execMclkRetry x1 s0) = s0.spine := by
  unfold execMclkRetry
  with_reducible repeat' first
    | assumption
    | rfl
    | rw [outSpine_next]
    | (extract_lets +onlyGivenNames y
       refine (show (y.spine = s0.spine → _) from fun h => ?_) ?_
       on_goal 1 => clear_value y
       on_goal 2 => (simp only [y]; try clear y))
    | (extract_lets +onlyGivenNames y; clear_value y)
    | refine ite_spine ?_ ?_
    | refine ite_out ?_ ?_
    | (simp only [*, modMclk_spine, spine_mk, spine_eta, outSpine_next]; done)
    | split
    | (simp [*]; done)
    | simp only [*, modMclk_spine, spine_mk, spine_eta, outSpine_next]

@[simp] theorem execMclkFaultClear_spine {x1 x2 s0} : outSpine s0 (execMclkFaultClear x1 x2 s0) = s0.spine := by
  unfold execMclkFaultClear
  with_reducible repeat' first
    | assumption
    | rfl
    | rw [outSpine_next]
    | (extract_lets +onlyGivenNames y
       refine (show (y.spine = s0.spine → _) from fun h => ?_) ?_
       on_goal 1 => clear_value y
       on_goal 2 => (simp only [y]; try clear y))
    | (extract_lets +onlyGivenNames y; clear_value y)
    | refine ite_spine ?_ ?_
    | refine ite_out ?_ ?_
    | (simp only [*, modMclk_spine, spine_mk, spine_eta, outSpine_next]; done)
    | split
    | (simp [*]; done)
    | simp only [*, modMclk_spine, spine_mk, spine_eta, outSpine_next]

@[simp] theorem modChm_spine {s0 x1 x2} : (State.modChm s0 x1 x2).spine = s0.spine := by
  unfold State.modChm
  simp only [spine_mk, spine_eta]

@[simp] theorem modElem_spine {s0 x1 x2} : (State.modElem s0 x1 x2).spine = s0.spine := by
  unfold State.modElem
  simp only [spine_mk, spine_eta]

@[simp] theorem modVs_spine {s0 x1 x2} : (State.modVs s0 x1 x2).spine = s0.spine := by
  unfold State.modVs
  simp only [spine_mk, spine_eta]

@[simp] theorem modBond_spine {s0 x1 x2} : (State.modBond s0 x1 x2).spine = s0.spine := by
  unfold State.modBond
  simp only [spine_mk, spine_eta]

@[simp] theorem pushChan_spine {s0 x1 x2} : (State.pushChan s0 x1 x2).spine = s0.spine := by
  unfold State.pushChan
  simp only [modChm_spine, spine_mk, spine_eta]

@[simp] theorem pushDerived_spine {s0 x1 x2} : (State.pushDerived s0 x1 x2).spine = s0.spine := by
  unfold State.pushDerived
  with_reducible repeat' first
    | assumption
    | rfl
    | (extract_lets +onlyGivenNames y
       refine (show (y.spine = s0.spine → _) from fun h => ?_) ?_
       on_goal 1 => clear_value y
       on_goal 2 => (simp only [y]; try clear y))
    | (extract_lets +onlyGivenNames y; clear_value y)
    | (simp only [*, modChm_spine, spine_mk, spine_eta]; done)
    | split
    | (simp [*]; done)
    | simp only [*, modChm_spine, spine_mk, spine_eta]

@[simp] theorem markInvalid_spine {s0 x1} : (State.markInvalid s0 x1).spine = s0.spine := by
  unfold State.markInvalid
  simp only [modMpAcc_spine, modBmp_spine, spine_mk, spine_eta]

@[simp] theorem pushElem_spine {s0 x1 x2 x3 x4} : (State.pushElem s0 x1 x2 x3 x4).spine = s0.spine := by
  unfold State.pushElem
  with_reducible repeat' first
    | assumption
    | rfl
    | (extract_lets +onlyGivenNames y
       refine (show (y.spine = s0.spine → _) from fun h => ?_) ?_
       on_goal 1 => clear_value y
       on_goal 2 => (simp only [y]; try clear y))
    | (extract_lets +onlyGivenNames y; clear_value y)
    | refine ite_spine ?_ ?_
    | (simp only [*, modElem_spine, markInvalid_spine, spine_mk, spine_eta]; done)
    | split
    | (simp [*]; done)
    | simp only [*, modElem_spine, markInvalid_spine, spine_mk, spine_eta]

@[simp] theorem pushTap_spine {s0 x1 x2 x3} : (State.pushTap s0 x1 x2 x3).spine = s0.spine := by
  unfold State.pushTap
  simp only [modElem_spine, spine_mk, spine_eta]

@[simp] theorem pushReactive_spine {s0 x1 x2 x3} : (State.pushReactive s0 x1 x2 x3).spine = s0.spine := by
  unfold State.pushReactive
  simp only [pushTap_spine, spine_mk, spine_eta]

@[simp] theorem zcSample_spine {s0 x1 x2} : (State.zcSample s0 x1 x2).spine = s0.spine := by
  unfold State.zcSample
  with_reducible repeat' first
    | assumption
    | rfl
    | (extract_lets +onlyGivenNames y
       refine (show (y.spine = s0.spine → _) from fun h => ?_) ?_
       on_goal 1 => clear_value y
       on_goal 2 => (simp only [y]; try clear y))
    | (extract_lets +onlyGivenNames y; clear_value y)
    | refine ite_spine ?_ ?_
    | (simp only [*, modVs_spine, spine_mk, spine_eta]; done)
    | split
    | (simp [*]; done)
    | simp only [*, modVs_spine, spine_mk, spine_eta]

@[simp] theorem startDetector_spine {s0 x1} : (State.startDetector s0 x1).spine = s0.spine := by
  unfold State.startDetector
  with_reducible repeat' first
    | assumption
    | rfl
    | (extract_lets +onlyGivenNames y
       refine (show (y.spine = s0.spine → _) from fun h => ?_) ?_
       on_goal 1 => clear_value y
       on_goal 2 => (simp only [y]; try clear y))
    | (extract_lets +onlyGivenNames y; clear_value y)
    | (refine (foldl_spine ?_).trans ?_; on_goal 1 => intro s0 _)
    | (simp only [*, modVs_spine, modChm_spine, modElem_spine, spine_mk, spine_eta]; done)
    | split
    | (simp [*]; done)
    | simp only [*, modVs_spine, modChm_spine, modElem_spine, spine_mk, spine_eta]

@[simp] theorem cycleFreq_spine {s0 x1 x2} : (State.cycleFreq s0 x1 x2).spine = s0.spine := by
  unfold State.cycleFreq
  with_reducible repeat' first
    | assumption
    | rfl
    | (extract_lets +onlyGivenNames y
       refine (show (y.spine = s0.spine → _) from fun h => ?_) ?_
       on_goal 1 => clear_value y
       on_goal 2 => (simp only [y]; try clear y))
    | (extract_lets +onlyGivenNames y; clear_value y)
    | refine ite_spine ?_ ?_
    | (simp only [*, modVs_spine, spine_mk, spine_eta]; done)
    | split
    | (simp [*]; done)
    | simp only [*, modVs_spine, spine_mk, spine_eta]

@[simp] theorem overcurrent_spine {s0 x1 x2 x3} : (State.overcurrent s0 x1 x2 x3).spine = s0.spine := by
  unfold State.overcurrent
  with_reducible repeat' first
    | assumption
    | rfl
    | (extract_lets +onlyGivenNames y
       refine (show (y.spine = s0.spine → _) from fun h => ?_) ?_
       on_goal 1 => clear_value y
       on_goal 2 => (simp only [y]; try clear y))
    | (extract_lets +onlyGivenNames y; clear_value y)
    | refine ite_spine ?_ ?_
    | (simp only [*, levelAt_spine, modChm_spine, spine_mk, spine_eta]; done)
    | split
    | (simp [*]; done)
    | simp only [*, levelAt_spine, modChm_spine, spine_mk, spine_eta]

@[simp] theorem halfRefresh_spine {s0 x1 x2} : (State.halfRefresh s0 x1 x2).spine = s0.spine := by
  unfold State.halfRefresh
  with_reducible repeat' first
    | assumption
    | rfl
    | (extract_lets +onlyGivenNames y
       refine (show (y.spine = s0.spine → _) from fun h => ?_) ?_
       on_goal 1 => clear_value y
       on_goal 2 => (simp only [y]; try clear y))
    | (extract_lets +onlyGivenNames y; clear_value y)
    | (simp only [*, modChm_spine, spine_mk, spine_eta]; done)
    | split
    | (simp [*]; done)
    | simp only [*, modChm_spine, spine_mk, spine_eta]

@[simp] theorem elemBoundary_spine {s0 x1 x2} : (State.elemBoundary s0 x1 x2).spine = s0.spine := by
  unfold State.elemBoundary
  simp only [modElem_spine, spine_mk, spine_eta]

@[simp] theorem registerLevel_spine {s0 x1 x2 x3} : (State.registerLevel s0 x1 x2 x3).spine = s0.spine := by
  unfold State.registerLevel
  simp only [levelAt_spine, spine_mk, spine_eta]

@[simp] theorem setCreep_spine {s0 x1 x2 x3 x4 x5} : (State.setCreep s0 x1 x2 x3 x4 x5).spine = s0.spine := by
  unfold State.setCreep
  simp only [modChm_spine, registerLevel_spine, levelAt_spine, spine_mk, spine_eta]

@[simp] theorem execCreepEnter_spine {x1 s0} : outSpine s0 (execCreepEnter x1 s0) = s0.spine := by
  unfold execCreepEnter
  with_reducible repeat' first
    | assumption
    | rfl
    | rw [outSpine_next]
    | (extract_lets +onlyGivenNames y
       refine (show (y.spine = s0.spine → _) from fun h => ?_) ?_
       on_goal 1 => clear_value y
       on_goal 2 => (simp only [y]; try clear y))
    | (extract_lets +onlyGivenNames y; clear_value y)
    | refine ite_spine ?_ ?_
    | refine ite_out ?_ ?_
    | (simp only [*, setCreep_spine, spine_mk, spine_eta, outSpine_next]; done)
    | split
    | (simp [*]; done)
    | simp only [*, setCreep_spine, spine_mk, spine_eta, outSpine_next]

@[simp] theorem execCreepExit_spine {x1 s0} : outSpine s0 (execCreepExit x1 s0) = s0.spine := by
  unfold execCreepExit
  with_reducible repeat' first
    | assumption
    | rfl
    | rw [outSpine_next]
    | (extract_lets +onlyGivenNames y
       refine (show (y.spine = s0.spine → _) from fun h => ?_) ?_
       on_goal 1 => clear_value y
       on_goal 2 => (simp only [y]; try clear y))
    | (extract_lets +onlyGivenNames y; clear_value y)
    | refine ite_spine ?_ ?_
    | refine ite_out ?_ ?_
    | (simp only [*, setCreep_spine, spine_mk, spine_eta, outSpine_next]; done)
    | split
    | (simp [*]; done)
    | simp only [*, setCreep_spine, spine_mk, spine_eta, outSpine_next]

@[simp] theorem execOvercurrentRelease_spine {x1 s0} : outSpine s0 (execOvercurrentRelease x1 s0) = s0.spine := by
  unfold execOvercurrentRelease
  with_reducible repeat' first
    | assumption
    | rfl
    | rw [outSpine_next]
    | (extract_lets +onlyGivenNames y
       refine (show (y.spine = s0.spine → _) from fun h => ?_) ?_
       on_goal 1 => clear_value y
       on_goal 2 => (simp only [y]; try clear y))
    | (extract_lets +onlyGivenNames y; clear_value y)
    | refine ite_spine ?_ ?_
    | refine ite_out ?_ ?_
    | (simp only [*, levelAt_spine, modChm_spine, spine_mk, spine_eta, outSpine_next]; done)
    | split
    | (simp [*]; done)
    | simp only [*, levelAt_spine, modChm_spine, spine_mk, spine_eta, outSpine_next]

@[simp] theorem beginCreep_spine {s0 x1} : (State.beginCreep s0 x1).spine = s0.spine := by
  unfold State.beginCreep
  with_reducible repeat' first
    | assumption
    | rfl
    | (refine (foldl_spine ?_).trans ?_; on_goal 1 => intro s0 _)
    | (simp only [*, setCreep_spine, spine_mk, spine_eta]; done)
    | split
    | (simp [*]; done)
    | simp only [*, setCreep_spine, spine_mk, spine_eta]

@[simp] theorem creepStarts_spine {s0} : (State.creepStarts s0).spine = s0.spine := by
  unfold State.creepStarts
  with_reducible repeat' first
    | assumption
    | rfl
    | (extract_lets +onlyGivenNames y
       refine (show (y.spine = s0.spine → _) from fun h => ?_) ?_
       on_goal 1 => clear_value y
       on_goal 2 => (simp only [y]; try clear y))
    | (extract_lets +onlyGivenNames y; clear_value y)
    | (refine (foldl_spine ?_).trans ?_; on_goal 1 => intro s0 _)
    | (simp only [*, beginCreep_spine, spine_mk, spine_eta]; done)
    | split
    | (simp [*]; done)
    | simp only [*, beginCreep_spine, spine_mk, spine_eta]

@[simp] theorem openWindow_spine {s0 x1 x2} : (State.openWindow s0 x1 x2).spine = s0.spine := by
  unfold State.openWindow
  simp only [modVs_spine, spine_mk, spine_eta]

@[simp] theorem closeWindow_spine {s0 x1 x2 x3 x4} : (State.closeWindow s0 x1 x2 x3 x4).spine = s0.spine := by
  unfold State.closeWindow
  with_reducible repeat' first
    | assumption
    | rfl
    | (extract_lets +onlyGivenNames y
       refine (show (y.spine = s0.spine → _) from fun h => ?_) ?_
       on_goal 1 => clear_value y
       on_goal 2 => (simp only [y]; try clear y))
    | (extract_lets +onlyGivenNames y; clear_value y)
    | (simp only [*, modVs_spine, spine_mk, spine_eta]; done)
    | split
    | (simp [*]; done)
    | simp only [*, modVs_spine, spine_mk, spine_eta]

@[simp] theorem windowBoundary_spine {s0 x1 x2} : (State.windowBoundary s0 x1 x2).spine = s0.spine := by
  unfold State.windowBoundary
  with_reducible repeat' first
    | assumption
    | rfl
    | (extract_lets +onlyGivenNames y
       refine (show (y.spine = s0.spine → _) from fun h => ?_) ?_
       on_goal 1 => clear_value y
       on_goal 2 => (simp only [y]; try clear y))
    | (extract_lets +onlyGivenNames y; clear_value y)
    | refine ite_spine ?_ ?_
    | (simp only [*, openWindow_spine, modVs_spine, closeWindow_spine, spine_mk, spine_eta]; done)
    | split
    | (simp [*]; done)
    | simp only [*, openWindow_spine, modVs_spine, closeWindow_spine, spine_mk, spine_eta]

@[simp] theorem vsSource_spine {s0 x1 x2 x3} : (State.vsSource s0 x1 x2 x3).spine = s0.spine := by
  unfold State.vsSource
  with_reducible repeat' first
    | assumption
    | rfl
    | (refine (foldl_spine ?_).trans ?_; on_goal 1 => intro s0 _)
    | (simp only [*, level_spine, spine_mk, spine_eta]; done)
    | split
    | (simp [*]; done)
    | simp only [*, level_spine, spine_mk, spine_eta]

@[simp] theorem execSequenceErrorAssert_spine {x1 s0} : outSpine s0 (execSequenceErrorAssert x1 s0) = s0.spine := by
  unfold execSequenceErrorAssert
  with_reducible repeat' first
    | assumption
    | rfl
    | rw [outSpine_next]
    | (extract_lets +onlyGivenNames y; clear_value y)
    | refine ite_spine ?_ ?_
    | refine ite_out ?_ ?_
    | (simp only [*, vsSource_spine, modVs_spine, spine_mk, spine_eta, outSpine_next]; done)
    | split
    | (simp [*]; done)
    | simp only [*, vsSource_spine, modVs_spine, spine_mk, spine_eta, outSpine_next]

@[simp] theorem execSequenceErrorClear_spine {x1 s0} : outSpine s0 (execSequenceErrorClear x1 s0) = s0.spine := by
  unfold execSequenceErrorClear
  with_reducible repeat' first
    | assumption
    | rfl
    | rw [outSpine_next]
    | (extract_lets +onlyGivenNames y; clear_value y)
    | refine ite_spine ?_ ?_
    | refine ite_out ?_ ?_
    | (simp only [*, vsSource_spine, modVs_spine, spine_mk, spine_eta, outSpine_next]; done)
    | split
    | (simp [*]; done)
    | simp only [*, vsSource_spine, modVs_spine, spine_mk, spine_eta, outSpine_next]

@[simp] theorem execMissingNeutralAssert_spine {x1 s0} : outSpine s0 (execMissingNeutralAssert x1 s0) = s0.spine := by
  unfold execMissingNeutralAssert
  with_reducible repeat' first
    | assumption
    | rfl
    | rw [outSpine_next]
    | (extract_lets +onlyGivenNames y; clear_value y)
    | refine ite_spine ?_ ?_
    | refine ite_out ?_ ?_
    | (simp only [*, vsSource_spine, modVs_spine, spine_mk, spine_eta, outSpine_next]; done)
    | split
    | (simp [*]; done)
    | simp only [*, vsSource_spine, modVs_spine, spine_mk, spine_eta, outSpine_next]

@[simp] theorem execMissingNeutralClear_spine {x1 s0} : outSpine s0 (execMissingNeutralClear x1 s0) = s0.spine := by
  unfold execMissingNeutralClear
  with_reducible repeat' first
    | assumption
    | rfl
    | rw [outSpine_next]
    | (extract_lets +onlyGivenNames y; clear_value y)
    | refine ite_spine ?_ ?_
    | refine ite_out ?_ ?_
    | (simp only [*, vsSource_spine, modVs_spine, spine_mk, spine_eta, outSpine_next]; done)
    | split
    | (simp [*]; done)
    | simp only [*, vsSource_spine, modVs_spine, spine_mk, spine_eta, outSpine_next]

@[simp] theorem publish_spine {s0 x1} : (State.publish s0 x1).spine = s0.spine := by
  unfold State.publish
  with_reducible repeat' first
    | assumption
    | rfl
    | (extract_lets +onlyGivenNames y
       refine (show (y.spine = s0.spine → _) from fun h => ?_) ?_
       on_goal 1 => clear_value y
       on_goal 2 => (simp only [y]; try clear y))
    | (extract_lets +onlyGivenNames y; clear_value y)
    | (refine (foldl_spine ?_).trans ?_; on_goal 1 => intro s0 _)
    | refine ite_spine ?_ ?_
    | (simp only [*, modVs_spine, modChm_spine, spine_mk, spine_eta]; done)
    | split
    | (simp [*]; done)
    | simp only [*, modVs_spine, modChm_spine, spine_mk, spine_eta]

@[simp] theorem modGen_spine {s0 x1 x2} : (State.modGen s0 x1 x2).spine = s0.spine := by
  unfold State.modGen
  simp only [spine_mk, spine_eta]

@[simp] theorem feedPulses_spine {s0 x1 x2 x3 x4} : (State.feedPulses s0 x1 x2 x3 x4).spine = s0.spine := by
  unfold State.feedPulses
  with_reducible repeat' first
    | assumption
    | rfl
    | (refine (foldl_spine ?_).trans ?_; on_goal 1 => intro s0 _)
    | refine ite_spine ?_ ?_
    | (simp only [*, modGen_spine, spine_mk, spine_eta]; done)
    | split
    | (simp [*]; done)
    | simp only [*, modGen_spine, spine_mk, spine_eta]

@[simp] theorem drivePulse_spine {s0 x1 x2} : (State.drivePulse s0 x1 x2).spine = s0.spine := by
  unfold State.drivePulse
  simp only [spine_mk, spine_eta]

@[simp] theorem pulseStep_spine {s0 x1 x2} : (State.pulseStep s0 x1 x2).spine = s0.spine := by
  unfold State.pulseStep
  with_reducible repeat' first
    | assumption
    | rfl
    | (extract_lets +onlyGivenNames y
       refine (show (y.spine = s0.spine → _) from fun h => ?_) ?_
       on_goal 1 => clear_value y
       on_goal 2 => (simp only [y]; try clear y))
    | (extract_lets +onlyGivenNames y; clear_value y)
    | refine ite_spine ?_ ?_
    | (simp only [*, modGen_spine, drivePulse_spine, level_spine, spine_mk, spine_eta]; done)
    | split
    | (simp [*]; done)
    | simp only [*, modGen_spine, drivePulse_spine, level_spine, spine_mk, spine_eta]

@[simp] theorem execPulseWidthEnd_spine {x1 s0} : outSpine s0 (execPulseWidthEnd x1 s0) = s0.spine := by
  unfold execPulseWidthEnd
  with_reducible repeat' first
    | assumption
    | rfl
    | rw [outSpine_next]
    | (extract_lets +onlyGivenNames y; clear_value y)
    | refine ite_spine ?_ ?_
    | refine ite_out ?_ ?_
    | (simp only [*, drivePulse_spine, modGen_spine, spine_mk, spine_eta, outSpine_next]; done)
    | split
    | (simp [*]; done)
    | simp only [*, drivePulse_spine, modGen_spine, spine_mk, spine_eta, outSpine_next]

@[simp] theorem execPulseShortDetect_spine {x1 x2 s0} : outSpine s0 (execPulseShortDetect x1 x2 s0) = s0.spine := by
  unfold execPulseShortDetect
  with_reducible repeat' first
    | assumption
    | rfl
    | rw [outSpine_next]
    | (extract_lets +onlyGivenNames y
       refine (show (y.spine = s0.spine → _) from fun h => ?_) ?_
       on_goal 1 => clear_value y
       on_goal 2 => (simp only [y]; try clear y))
    | (extract_lets +onlyGivenNames y; clear_value y)
    | refine ite_spine ?_ ?_
    | refine ite_out ?_ ?_
    | (simp only [*, modGen_spine, level_spine, spine_mk, spine_eta, outSpine_next]; done)
    | split
    | (simp [*]; done)
    | simp only [*, modGen_spine, level_spine, spine_mk, spine_eta, outSpine_next]

@[simp] theorem execPulseShortRetry_spine {x1 x2 s0} : outSpine s0 (execPulseShortRetry x1 x2 s0) = s0.spine := by
  unfold execPulseShortRetry
  with_reducible repeat' first
    | assumption
    | rfl
    | rw [outSpine_next]
    | (extract_lets +onlyGivenNames y
       refine (show (y.spine = s0.spine → _) from fun h => ?_) ?_
       on_goal 1 => clear_value y
       on_goal 2 => (simp only [y]; try clear y))
    | (extract_lets +onlyGivenNames y; clear_value y)
    | refine ite_spine ?_ ?_
    | refine ite_out ?_ ?_
    | (simp only [*, level_spine, drivePulse_spine, modGen_spine, spine_mk, spine_eta, outSpine_next]; done)
    | split
    | (simp [*]; done)
    | simp only [*, level_spine, drivePulse_spine, modGen_spine, spine_mk, spine_eta, outSpine_next]

@[simp] theorem addReg_spine {s0 x1 x2 x3 x4 x5} : (State.addReg s0 x1 x2 x3 x4 x5).spine = s0.spine := by
  unfold State.addReg
  with_reducible repeat' first
    | assumption
    | rfl
    | (extract_lets +onlyGivenNames y
       refine (show (y.spine = s0.spine → _) from fun h => ?_) ?_
       on_goal 1 => clear_value y
       on_goal 2 => (simp only [y]; try clear y))
    | (extract_lets +onlyGivenNames y; clear_value y)
    | refine ite_spine ?_ ?_
    | (simp only [*, modMpAcc_spine, modBmp_spine, feedPulses_spine, spine_mk, spine_eta]; done)
    | split
    | (simp [*]; done)
    | simp only [*, modMpAcc_spine, modBmp_spine, feedPulses_spine, spine_mk, spine_eta]

@[simp] theorem elemTransfer_spine {s0 x1 x2 x3 x4} : (State.elemTransfer s0 x1 x2 x3 x4).spine = s0.spine := by
  unfold State.elemTransfer
  with_reducible repeat' first
    | assumption
    | rfl
    | (extract_lets +onlyGivenNames y
       refine (show (y.spine = s0.spine → _) from fun h => ?_) ?_
       on_goal 1 => clear_value y
       on_goal 2 => (simp only [y]; try clear y))
    | (extract_lets +onlyGivenNames y; clear_value y)
    | refine ite_spine ?_ ?_
    | (simp only [*, addReg_spine, modElem_spine, spine_mk, spine_eta]; done)
    | split
    | (simp [*]; done)
    | simp only [*, addReg_spine, modElem_spine, spine_mk, spine_eta]

@[simp] theorem setDir_spine {s0 x1 x2 x3 x4} : (State.setDir s0 x1 x2 x3 x4).spine = s0.spine := by
  unfold State.setDir
  with_reducible repeat' first
    | assumption
    | rfl
    | (extract_lets +onlyGivenNames y; clear_value y)
    | refine ite_spine ?_ ?_
    | (simp only [*, occurAt_spine, modMpAcc_spine, spine_mk, spine_eta]; done)
    | split
    | (simp [*]; done)
    | simp only [*, occurAt_spine, modMpAcc_spine, spine_mk, spine_eta]

@[simp] theorem transferMp_spine {s0 x1 x2 x3 x4} : (State.transferMp s0 x1 x2 x3 x4).spine = s0.spine := by
  unfold State.transferMp
  with_reducible repeat' first
    | assumption
    | rfl
    | (extract_lets +onlyGivenNames y
       refine (show (y.spine = s0.spine → _) from fun h => ?_) ?_
       on_goal 1 => clear_value y
       on_goal 2 => (simp only [y]; try clear y))
    | (extract_lets +onlyGivenNames y; clear_value y)
    | (refine (foldl_spine ?_).trans ?_; on_goal 1 => intro s0 _)
    | refine ite_spine ?_ ?_
    | (simp only [*, elemTransfer_spine, setDir_spine, addReg_spine, charge_spine, modBmp_spine, modMpAcc_spine, spine_mk, spine_eta]; done)
    | split
    | (simp [*]; done)
    | simp only [*, elemTransfer_spine, setDir_spine, addReg_spine, charge_spine, modBmp_spine, modMpAcc_spine, spine_mk, spine_eta]

@[simp] theorem reactiveTransfer_spine {s0 x1 x2} : (State.reactiveTransfer s0 x1 x2).spine = s0.spine := by
  unfold State.reactiveTransfer
  with_reducible repeat' first
    | assumption
    | rfl
    | (extract_lets +onlyGivenNames y
       refine (show (y.spine = s0.spine → _) from fun h => ?_) ?_
       on_goal 1 => clear_value y
       on_goal 2 => (simp only [y]; try clear y))
    | (extract_lets +onlyGivenNames y; clear_value y)
    | (refine (foldl_spine ?_).trans ?_; on_goal 1 => intro s0 _)
    | refine ite_spine ?_ ?_
    | (simp only [*, modElem_spine, modMpAcc_spine, addReg_spine, spine_mk, spine_eta]; done)
    | split
    | (simp [*]; done)
    | simp only [*, modElem_spine, modMpAcc_spine, addReg_spine, spine_mk, spine_eta]

@[simp] theorem execReactiveTransfer_spine {x1 s0} : outSpine s0 (execReactiveTransfer x1 s0) = s0.spine := by
  unfold execReactiveTransfer
  with_reducible repeat' first
    | assumption
    | rfl
    | rw [outSpine_next]
    | (extract_lets +onlyGivenNames y; clear_value y)
    | refine ite_spine ?_ ?_
    | refine ite_out ?_ ?_
    | (simp only [*, reactiveTransfer_spine, modMpAcc_spine, spine_mk, spine_eta, outSpine_next]; done)
    | split
    | (simp [*]; done)
    | simp only [*, reactiveTransfer_spine, modMpAcc_spine, spine_mk, spine_eta, outSpine_next]

@[simp] theorem fundTransfer_spine {s0 x1 x2 x3} : (State.fundTransfer s0 x1 x2 x3).spine = s0.spine := by
  unfold State.fundTransfer
  with_reducible repeat' first
    | assumption
    | rfl
    | (extract_lets +onlyGivenNames y
       refine (show (y.spine = s0.spine → _) from fun h => ?_) ?_
       on_goal 1 => clear_value y
       on_goal 2 => (simp only [y]; try clear y))
    | (extract_lets +onlyGivenNames y; clear_value y)
    | (refine (foldl_spine ?_).trans ?_; on_goal 1 => intro s0 _)
    | refine ite_spine ?_ ?_
    | (simp only [*, modMpAcc_spine, addReg_spine, spine_mk, spine_eta]; done)
    | split
    | (simp [*]; done)
    | simp only [*, modMpAcc_spine, addReg_spine, spine_mk, spine_eta]

@[simp] theorem apparentTransfer_spine {s0 x1 x2 x3} : (State.apparentTransfer s0 x1 x2 x3).spine = s0.spine := by
  unfold State.apparentTransfer
  with_reducible repeat' first
    | assumption
    | rfl
    | (extract_lets +onlyGivenNames y
       refine (show (y.spine = s0.spine → _) from fun h => ?_) ?_
       on_goal 1 => clear_value y
       on_goal 2 => (simp only [y]; try clear y))
    | (extract_lets +onlyGivenNames y; clear_value y)
    | (refine (foldl_spine ?_).trans ?_; on_goal 1 => intro s0 _)
    | refine ite_spine ?_ ?_
    | (simp only [*, modMpAcc_spine, addReg_spine, spine_mk, spine_eta]; done)
    | split
    | (simp [*]; done)
    | simp only [*, modMpAcc_spine, addReg_spine, spine_mk, spine_eta]

@[simp] theorem accReadBody_spine {x1 x2 s0} : (accReadBody x1 x2 s0).1.spine = s0.spine := by
  unfold accReadBody
  with_reducible repeat' first
    | assumption
    | rfl
    | (refine fixedBody_spine ?_; intro _ _ s0)
    | (simp only [*, fixedBody_spine, spine_mk, spine_eta]; done)
    | (split <;> (try (rename_i q; obtain ⟨q1, q2⟩ := Prod.ext_iff.mp q; simp only at q1 q2; subst q1 q2)))
    | (simp [*]; done)
    | simp only [*, fixedBody_spine, spine_mk, spine_eta]

@[simp] theorem execAccRead_spine {x1 s0} : outSpine s0 (execAccRead x1 s0) = s0.spine := by
  unfold execAccRead
  with_reducible repeat' first
    | assumption
    | rfl
    | rw [outSpine_next]
    | (simp only [*, command_spine, accReadBody_spine, spine_mk, spine_eta, outSpine_next]; done)
    | (split <;> (try (rename_i q; obtain ⟨q1, q2⟩ := Prod.ext_iff.mp q; simp only at q1 q2; subst q1 q2)))
    | (simp [*]; done)
    | simp only [*, command_spine, accReadBody_spine, spine_mk, spine_eta, outSpine_next]

@[simp] theorem accReadPulses_spine {x1 s0} : (accReadPulses x1 s0).1.spine = s0.spine := by
  unfold accReadPulses
  with_reducible repeat' first
    | assumption
    | rfl
    | (extract_lets +onlyGivenNames y
       refine (show (y.spine = s0.spine → _) from fun h => ?_) ?_
       on_goal 1 => clear_value y
       on_goal 2 => (simp only [y]; try clear y))
    | (extract_lets +onlyGivenNames y; clear_value y)
    | (refine (foldl_spine ?_).trans ?_; on_goal 1 => intro s0 _)
    | (simp only [*, modGen_spine, spine_mk, spine_eta]; done)
    | split
    | (simp [*]; done)
    | simp only [*, modGen_spine, spine_mk, spine_eta]

@[simp] theorem accReadLatch_spine {x1 x2 s0} : (accReadLatch x1 x2 s0).1.spine = s0.spine := by
  unfold accReadLatch
  with_reducible repeat' first
    | assumption
    | rfl
    | (extract_lets +onlyGivenNames y
       refine (show (y.spine = s0.spine → _) from fun h => ?_) ?_
       on_goal 1 => clear_value y
       on_goal 2 => (simp only [y]; try clear y))
    | (extract_lets +onlyGivenNames y; clear_value y)
    | (refine (foldl_spine ?_).trans ?_; on_goal 1 => intro s0 _)
    | (simp only [*, modMpAcc_spine, spine_mk, spine_eta]; done)
    | split
    | (simp [*]; done)
    | simp only [*, modMpAcc_spine, spine_mk, spine_eta]

@[simp] theorem readsPulses_spine {s0} : (State.readsPulses s0).spine = s0.spine := by
  unfold State.readsPulses
  with_reducible repeat' first
    | assumption
    | rfl
    | (extract_lets +onlyGivenNames y
       refine (show (y.spine = s0.spine → _) from fun h => ?_) ?_
       on_goal 1 => clear_value y
       on_goal 2 => (simp only [y]; try clear y))
    | (extract_lets +onlyGivenNames y
       refine (show (y.1.spine = s0.spine → _) from fun h => ?_) ?_
       on_goal 1 => clear_value y
       on_goal 2 => (simp only [y]; try clear y))
    | (extract_lets +onlyGivenNames y; clear_value y)
    | (refine (foldl_spine ?_).trans ?_; on_goal 1 => intro s0 _)
    | refine ite_spine ?_ ?_
    | (simp only [*, accReadPulses_spine, setBusy_spine, spine_mk, spine_eta]; done)
    | (split <;> (try (rename_i q; obtain ⟨q1, q2⟩ := Prod.ext_iff.mp q; simp only at q1 q2; subst q1 q2)))
    | (simp [*]; done)
    | simp only [*, accReadPulses_spine, setBusy_spine, spine_mk, spine_eta]

@[simp] theorem readsLatch_spine {s0} : (State.readsLatch s0).spine = s0.spine := by
  unfold State.readsLatch
  with_reducible repeat' first
    | assumption
    | rfl
    | (extract_lets +onlyGivenNames y
       refine (show (y.spine = s0.spine → _) from fun h => ?_) ?_
       on_goal 1 => clear_value y
       on_goal 2 => (simp only [y]; try clear y))
    | (extract_lets +onlyGivenNames y
       refine (show (y.1.spine = s0.spine → _) from fun h => ?_) ?_
       on_goal 1 => clear_value y
       on_goal 2 => (simp only [y]; try clear y))
    | (extract_lets +onlyGivenNames y; clear_value y)
    | (refine (foldl_spine ?_).trans ?_; on_goal 1 => intro s0 _)
    | (simp only [*, accReadLatch_spine, finishHeld_spine, spine_mk, spine_eta]; done)
    | (split <;> (try (rename_i q; obtain ⟨q1, q2⟩ := Prod.ext_iff.mp q; simp only at q1 q2; subst q1 q2)))
    | (simp [*]; done)
    | simp only [*, accReadLatch_spine, finishHeld_spine, spine_mk, spine_eta]

@[simp] theorem markPreset_spine {s0 x1} : (State.markPreset s0 x1).spine = s0.spine := by
  unfold State.markPreset
  simp only [spine_mk, spine_eta]

@[simp] theorem applyPreset_spine {x1 s0} : (applyPreset x1 s0).1.spine = s0.spine := by
  unfold applyPreset
  with_reducible repeat' first
    | assumption
    | rfl
    | (extract_lets +onlyGivenNames y
       refine (show (y.spine = s0.spine → _) from fun h => ?_) ?_
       on_goal 1 => clear_value y
       on_goal 2 => (simp only [y]; try clear y))
    | (extract_lets +onlyGivenNames y; clear_value y)
    | refine ite_spine ?_ ?_
    | refine ite_fst ?_ ?_
    | (simp only [*, modMpAcc_spine, legalEvent_spine, markPreset_spine, journalAdd_spine, modGen_spine, spine_mk, spine_eta]; done)
    | split
    | (simp [*]; done)
    | simp only [*, modMpAcc_spine, legalEvent_spine, markPreset_spine, journalAdd_spine, modGen_spine, spine_mk, spine_eta]

@[simp] theorem accPresetBody_spine {x1 x2 s0} : (accPresetBody x1 x2 s0).1.spine = s0.spine := by
  unfold accPresetBody
  with_reducible repeat' first
    | assumption
    | rfl
    | (extract_lets +onlyGivenNames y
       refine (show (y.spine = s0.spine → _) from fun h => ?_) ?_
       on_goal 1 => clear_value y
       on_goal 2 => (simp only [y]; try clear y))
    | (extract_lets +onlyGivenNames y
       refine (show (y.1.spine = s0.spine → _) from fun h => ?_) ?_
       on_goal 1 => clear_value y
       on_goal 2 => (simp only [y]; try clear y))
    | (extract_lets +onlyGivenNames y; clear_value y)
    | (refine fixedBody_spine ?_; intro _ _ s0)
    | refine ite_spine ?_ ?_
    | refine ite_fst ?_ ?_
    | (simp only [*, fixedBody_spine, spine_mk, spine_eta]; done)
    | (split <;> (try (rename_i q; obtain ⟨q1, q2⟩ := Prod.ext_iff.mp q; simp only at q1 q2; subst q1 q2)))
    | (simp [*]; done)
    | simp only [*, fixedBody_spine, spine_mk, spine_eta]

@[simp] theorem execAccPreset_spine {x1 s0} : outSpine s0 (execAccPreset x1 s0) = s0.spine := by
  unfold execAccPreset
  with_reducible repeat' first
    | assumption
    | rfl
    | rw [outSpine_next]
    | (simp only [*, command_spine, accPresetBody_spine, spine_mk, spine_eta, outSpine_next]; done)
    | (split <;> (try (rename_i q; obtain ⟨q1, q2⟩ := Prod.ext_iff.mp q; simp only at q1 q2; subst q1 q2)))
    | (simp [*]; done)
    | simp only [*, command_spine, accPresetBody_spine, spine_mk, spine_eta, outSpine_next]

@[simp] theorem presetsAtBoundary_spine {s0} : (State.presetsAtBoundary s0).spine = s0.spine := by
  unfold State.presetsAtBoundary
  dsimp only
  refine (foldl_spine ?_).trans ?_
  · intro s e
    split
    · split
      · have hb := applyPreset_spine (x1 := (by assumption : InFlight).entry.pkt) (s0 := s)
        split <;> rename_i q <;> rw [q] at hb <;> simpa using hb
      · rfl
    · rfl
  · rfl

@[simp] theorem checkpoint_spine {s0} : (State.checkpoint s0).spine = s0.spine := by
  unfold State.checkpoint
  with_reducible repeat' first
    | assumption
    | rfl
    | (extract_lets +onlyGivenNames y; clear_value y)
    | refine ite_spine ?_ ?_
    | (simp only [*, spine_mk, spine_eta]; done)
    | split
    | (simp [*]; done)
    | simp only [*, spine_mk, spine_eta]

@[simp] theorem execAccCheckpoint_spine {s0} : outSpine s0 (execAccCheckpoint s0) = s0.spine := by
  unfold execAccCheckpoint
  simp only [checkpoint_spine, spine_mk, spine_eta, outSpine_next]

@[simp] theorem accRestore_spine {s0 x1} : (State.accRestore s0 x1).spine = s0.spine := by
  unfold State.accRestore
  with_reducible repeat' first
    | assumption
    | rfl
    | (extract_lets +onlyGivenNames y
       refine (show (y.spine = s0.spine → _) from fun h => ?_) ?_
       on_goal 1 => clear_value y
       on_goal 2 => (simp only [y]; try clear y))
    | (extract_lets +onlyGivenNames y; clear_value y)
    | (refine (foldl_spine ?_).trans ?_; on_goal 1 => intro s0 _)
    | refine ite_spine ?_ ?_
    | (simp only [*, modElem_spine, level_spine, spine_mk, spine_eta]; done)
    | split
    | (simp [*]; done)
    | simp only [*, modElem_spine, level_spine, spine_mk, spine_eta]

@[simp] theorem modDi_spine {s0 x1 x2} : (State.modDi s0 x1 x2).spine = s0.spine := by
  unfold State.modDi
  simp only [spine_mk, spine_eta]

@[simp] theorem diLatch_spine {s0 x1} : (State.diLatch s0 x1).spine = s0.spine := by
  unfold State.diLatch
  simp only [level_spine, modDi_spine, spine_mk, spine_eta]

@[simp] theorem diAccept_spine {s0 x1} : (State.diAccept s0 x1).spine = s0.spine := by
  unfold State.diAccept
  with_reducible repeat' first
    | assumption
    | rfl
    | (extract_lets +onlyGivenNames y
       refine (show (y.spine = s0.spine → _) from fun h => ?_) ?_
       on_goal 1 => clear_value y
       on_goal 2 => (simp only [y]; try clear y))
    | (extract_lets +onlyGivenNames y; clear_value y)
    | refine ite_spine ?_ ?_
    | (simp only [*, modDi_spine, pulse_spine, spine_mk, spine_eta]; done)
    | split
    | (simp [*]; done)
    | simp only [*, modDi_spine, pulse_spine, spine_mk, spine_eta]

@[simp] theorem diSettle_spine {s0 x1} : (State.diSettle s0 x1).spine = s0.spine := by
  unfold State.diSettle
  with_reducible repeat' first
    | assumption
    | rfl
    | (extract_lets +onlyGivenNames y
       refine (show (y.spine = s0.spine → _) from fun h => ?_) ?_
       on_goal 1 => clear_value y
       on_goal 2 => (simp only [y]; try clear y))
    | (extract_lets +onlyGivenNames y; clear_value y)
    | refine ite_spine ?_ ?_
    | (simp only [*, diLatch_spine, diAccept_spine, spine_mk, spine_eta]; done)
    | split
    | (simp [*]; done)
    | simp only [*, diLatch_spine, diAccept_spine, spine_mk, spine_eta]

@[simp] theorem diFaults_spine {s0 x1} : (State.diFaults s0 x1).spine = s0.spine := by
  unfold State.diFaults
  simp only [level_spine, spine_mk, spine_eta]

@[simp] theorem execDiClassify_spine {x1 x2 x3 s0} : outSpine s0 (execDiClassify x1 x2 x3 s0) = s0.spine := by
  unfold execDiClassify
  with_reducible repeat' first
    | assumption
    | rfl
    | rw [outSpine_next]
    | (extract_lets +onlyGivenNames y
       refine (show (y.spine = s0.spine → _) from fun h => ?_) ?_
       on_goal 1 => clear_value y
       on_goal 2 => (simp only [y]; try clear y))
    | (extract_lets +onlyGivenNames y; clear_value y)
    | refine ite_spine ?_ ?_
    | refine ite_out ?_ ?_
    | (simp only [*, modDi_spine, diSettle_spine, spine_mk, spine_eta, outSpine_next]; done)
    | split
    | (simp [*]; done)
    | simp only [*, modDi_spine, diSettle_spine, spine_mk, spine_eta, outSpine_next]

@[simp] theorem execDiDebounce_spine {x1 x2 s0} : outSpine s0 (execDiDebounce x1 x2 s0) = s0.spine := by
  unfold execDiDebounce
  with_reducible repeat' first
    | assumption
    | rfl
    | rw [outSpine_next]
    | (extract_lets +onlyGivenNames y
       refine (show (y.spine = s0.spine → _) from fun h => ?_) ?_
       on_goal 1 => clear_value y
       on_goal 2 => (simp only [y]; try clear y))
    | (extract_lets +onlyGivenNames y; clear_value y)
    | refine ite_spine ?_ ?_
    | refine ite_out ?_ ?_
    | (simp only [*, modDi_spine, diSettle_spine, diFaults_spine, spine_mk, spine_eta, outSpine_next]; done)
    | split
    | (simp [*]; done)
    | simp only [*, modDi_spine, diSettle_spine, diFaults_spine, spine_mk, spine_eta, outSpine_next]

@[simp] theorem execDiDiscrepancyLatch_spine {x1 s0} : outSpine s0 (execDiDiscrepancyLatch x1 s0) = s0.spine := by
  unfold execDiDiscrepancyLatch
  with_reducible repeat' first
    | assumption
    | rfl
    | rw [outSpine_next]
    | (extract_lets +onlyGivenNames y; clear_value y)
    | refine ite_spine ?_ ?_
    | refine ite_out ?_ ?_
    | (simp only [*, diLatch_spine, spine_mk, spine_eta, outSpine_next]; done)
    | split
    | (simp [*]; done)
    | simp only [*, diLatch_spine, spine_mk, spine_eta, outSpine_next]

@[simp] theorem execDiClearReady_spine {x1 s0} : outSpine s0 (execDiClearReady x1 s0) = s0.spine := by
  unfold execDiClearReady
  with_reducible repeat' first
    | assumption
    | rfl
    | rw [outSpine_next]
    | (extract_lets +onlyGivenNames y
       refine (show (y.spine = s0.spine → _) from fun h => ?_) ?_
       on_goal 1 => clear_value y
       on_goal 2 => (simp only [y]; try clear y))
    | (extract_lets +onlyGivenNames y; clear_value y)
    | refine ite_spine ?_ ?_
    | refine ite_out ?_ ?_
    | (simp only [*, modDi_spine, spine_mk, spine_eta, outSpine_next]; done)
    | split
    | (simp [*]; done)
    | simp only [*, modDi_spine, spine_mk, spine_eta, outSpine_next]

@[simp] theorem diClearBody_spine {x1 x2 s0} : (diClearBody x1 x2 s0).1.spine = s0.spine := by
  unfold diClearBody
  with_reducible repeat' first
    | assumption
    | rfl
    | (extract_lets +onlyGivenNames y
       refine (show (y.spine = s0.spine → _) from fun h => ?_) ?_
       on_goal 1 => clear_value y
       on_goal 2 => (simp only [y]; try clear y))
    | (extract_lets +onlyGivenNames y
       refine (show (y.1.spine = s0.spine → _) from fun h => ?_) ?_
       on_goal 1 => clear_value y
       on_goal 2 => (simp only [y]; try clear y))
    | (extract_lets +onlyGivenNames y; clear_value y)
    | (refine fixedBody_spine ?_; intro _ _ s0)
    | refine ite_spine ?_ ?_
    | refine ite_fst ?_ ?_
    | (simp only [*, fixedBody_spine, level_spine, modDi_spine, pulse_spine, spine_mk, spine_eta]; done)
    | (split <;> (try (rename_i q; obtain ⟨q1, q2⟩ := Prod.ext_iff.mp q; simp only at q1 q2; subst q1 q2)))
    | (simp [*]; done)
    | simp only [*, fixedBody_spine, level_spine, modDi_spine, pulse_spine, spine_mk, spine_eta]

@[simp] theorem execDiClear_spine {x1 s0} : outSpine s0 (execDiClear x1 s0) = s0.spine := by
  unfold execDiClear
  with_reducible repeat' first
    | assumption
    | rfl
    | rw [outSpine_next]
    | (simp only [*, command_spine, diClearBody_spine, spine_mk, spine_eta, outSpine_next]; done)
    | (split <;> (try (rename_i q; obtain ⟨q1, q2⟩ := Prod.ext_iff.mp q; simp only at q1 q2; subst q1 q2)))
    | (simp [*]; done)
    | simp only [*, command_spine, diClearBody_spine, spine_mk, spine_eta, outSpine_next]

@[simp] theorem diReadBody_spine {x1 x2 s0} : (diReadBody x1 x2 s0).1.spine = s0.spine := by
  unfold diReadBody
  with_reducible repeat' first
    | assumption
    | rfl
    | (refine fixedBody_spine ?_; intro _ _ s0)
    | refine ite_spine ?_ ?_
    | refine ite_fst ?_ ?_
    | (simp only [*, fixedBody_spine, spine_mk, spine_eta]; done)
    | (split <;> (try (rename_i q; obtain ⟨q1, q2⟩ := Prod.ext_iff.mp q; simp only at q1 q2; subst q1 q2)))
    | (simp [*]; done)
    | simp only [*, fixedBody_spine, spine_mk, spine_eta]

@[simp] theorem execDiRead_spine {x1 s0} : outSpine s0 (execDiRead x1 s0) = s0.spine := by
  unfold execDiRead
  with_reducible repeat' first
    | assumption
    | rfl
    | rw [outSpine_next]
    | (simp only [*, command_spine, diReadBody_spine, spine_mk, spine_eta, outSpine_next]; done)
    | (split <;> (try (rename_i q; obtain ⟨q1, q2⟩ := Prod.ext_iff.mp q; simp only at q1 q2; subst q1 q2)))
    | (simp [*]; done)
    | simp only [*, command_spine, diReadBody_spine, spine_mk, spine_eta, outSpine_next]

@[simp] theorem discTrack_spine {s0 x1} : (State.discTrack s0 x1).spine = s0.spine := by
  unfold State.discTrack
  simp only [modMpAcc_spine, spine_mk, spine_eta]

@[simp] theorem execDiscFeedbackConfirm_spine {x1 s0} : outSpine s0 (execDiscFeedbackConfirm x1 s0) = s0.spine := by
  unfold execDiscFeedbackConfirm
  with_reducible repeat' first
    | assumption
    | rfl
    | rw [outSpine_next]
    | (extract_lets +onlyGivenNames y
       refine (show (y.spine = s0.spine → _) from fun h => ?_) ?_
       on_goal 1 => clear_value y
       on_goal 2 => (simp only [y]; try clear y))
    | (extract_lets +onlyGivenNames y; clear_value y)
    | refine ite_spine ?_ ?_
    | refine ite_out ?_ ?_
    | (simp only [*, level_spine, modMpAcc_spine, spine_mk, spine_eta, outSpine_next]; done)
    | split
    | (simp [*]; done)
    | simp only [*, level_spine, modMpAcc_spine, spine_mk, spine_eta, outSpine_next]

@[simp] theorem markIntervals_spine {s0 x1} : (State.markIntervals s0 x1).spine = s0.spine := by
  unfold State.markIntervals
  with_reducible repeat' first
    | assumption
    | rfl
    | (extract_lets +onlyGivenNames y; clear_value y)
    | (refine (foldl_spine ?_).trans ?_; on_goal 1 => intro s0 _)
    | (simp only [*, modBmp_spine, spine_mk, spine_eta]; done)
    | split
    | (simp [*]; done)
    | simp only [*, modBmp_spine, spine_mk, spine_eta]

@[simp] theorem openInterval_spine {s0 x1 x2} : (State.openInterval s0 x1 x2).spine = s0.spine := by
  unfold State.openInterval
  simp only [modBmp_spine, spine_mk, spine_eta]

@[simp] theorem pushEnd_spine {s0 x1 x2 x3 x4 x5 x6} : (State.pushEnd s0 x1 x2 x3 x4 x5 x6).spine = s0.spine := by
  unfold State.pushEnd
  simp only [modBmp_spine, spine_mk, spine_eta]

@[simp] theorem closeInterval_spine {s0 x1 x2} : (State.closeInterval s0 x1 x2).spine = s0.spine := by
  unfold State.closeInterval
  simp only [transferMp_spine, pulse_spine, modBmp_spine, spine_mk, spine_eta]

@[simp] theorem closeSub_spine {s0 x1 x2} : (State.closeSub s0 x1 x2).spine = s0.spine := by
  unfold State.closeSub
  simp only [modBmp_spine, spine_mk, spine_eta]

@[simp] theorem capture_spine {s0 x1 x2} : (State.capture s0 x1 x2).spine = s0.spine := by
  unfold State.capture
  simp only [modBmp_spine, spine_mk, spine_eta]

@[simp] theorem settleEnd_spine {s0 x1} : (State.settleEnd s0 x1).spine = s0.spine := by
  unfold State.settleEnd
  with_reducible repeat' first
    | assumption
    | rfl
    | (extract_lets +onlyGivenNames y
       refine (show (y.spine = s0.spine → _) from fun h => ?_) ?_
       on_goal 1 => clear_value y
       on_goal 2 => (simp only [y]; try clear y))
    | (extract_lets +onlyGivenNames y; clear_value y)
    | refine ite_spine ?_ ?_
    | (simp only [*, modBmp_spine, closeInterval_spine, closeSub_spine, capture_spine, spine_mk, spine_eta]; done)
    | split
    | (simp [*]; done)
    | simp only [*, modBmp_spine, closeInterval_spine, closeSub_spine, capture_spine, spine_mk, spine_eta]

@[simp] theorem settle_spine {s0 x1 x2} : (State.settle s0 x1 x2).spine = s0.spine := by
  unfold State.settle
  with_reducible repeat' first
    | assumption
    | rfl
    | (extract_lets +onlyGivenNames y; clear_value y)
    | (refine (foldl_spine ?_).trans ?_; on_goal 1 => intro s0 _)
    | refine ite_spine ?_ ?_
    | (simp only [*, settleEnd_spine, spine_mk, spine_eta]; done)
    | split
    | (simp [*]; done)
    | simp only [*, settleEnd_spine, spine_mk, spine_eta]

@[simp] theorem settleKnown_spine {s0} : (State.settleKnown s0).spine = s0.spine := by
  unfold State.settleKnown
  with_reducible repeat' first
    | assumption
    | rfl
    | (refine (foldl_spine ?_).trans ?_; on_goal 1 => intro s0 _)
    | (simp only [*, settle_spine, spine_mk, spine_eta]; done)
    | split
    | (simp [*]; done)
    | simp only [*, settle_spine, spine_mk, spine_eta]

@[simp] theorem settleAll_spine {s0} : (State.settleAll s0).spine = s0.spine := by
  unfold State.settleAll
  with_reducible repeat' first
    | assumption
    | rfl
    | (refine (foldl_spine ?_).trans ?_; on_goal 1 => intro s0 _)
    | (simp only [*, settle_spine, spine_mk, spine_eta]; done)
    | split
    | (simp [*]; done)
    | simp only [*, settle_spine, spine_mk, spine_eta]

@[simp] theorem pushEnds_spine {s0 x1 x2 x3 x4 x5} : (State.pushEnds s0 x1 x2 x3 x4 x5).spine = s0.spine := by
  unfold State.pushEnds
  with_reducible repeat' first
    | assumption
    | rfl
    | (refine (foldl_spine ?_).trans ?_; on_goal 1 => intro s0 _)
    | (simp only [*, pushEnd_spine, spine_mk, spine_eta]; done)
    | split
    | (simp [*]; done)
    | simp only [*, pushEnd_spine, spine_mk, spine_eta]

@[simp] theorem swapInterval_spine {s0 x1} : (State.swapInterval s0 x1).spine = s0.spine := by
  unfold State.swapInterval
  simp only [spine_mk, spine_eta]

@[simp] theorem profGridEnd_spine {s0} : (State.profGridEnd s0).spine = s0.spine := by
  unfold State.profGridEnd
  with_reducible repeat' first
    | assumption
    | rfl
    | (extract_lets +onlyGivenNames y
       refine (show (y.spine = s0.spine → _) from fun h => ?_) ?_
       on_goal 1 => clear_value y
       on_goal 2 => (simp only [y]; try clear y))
    | (extract_lets +onlyGivenNames y; clear_value y)
    | refine ite_spine ?_ ?_
    | (simp only [*, swapInterval_spine, pushEnds_spine, spine_mk, spine_eta]; done)
    | split
    | (simp [*]; done)
    | simp only [*, swapInterval_spine, pushEnds_spine, spine_mk, spine_eta]

@[simp] theorem subGridEnd_spine {s0} : (State.subGridEnd s0).spine = s0.spine := by
  unfold State.subGridEnd
  exact ite_spine rfl pushEnds_spine

@[simp] theorem execProfileIntervalEnd_spine {s0} : outSpine s0 (execProfileIntervalEnd s0) = s0.spine := by
  unfold execProfileIntervalEnd
  simp only [settleKnown_spine, profGridEnd_spine, spine_mk, spine_eta, outSpine_next]

@[simp] theorem execDemandSubperiodEnd_spine {s0} : outSpine s0 (execDemandSubperiodEnd s0) = s0.spine := by
  unfold execDemandSubperiodEnd
  with_reducible repeat' first
    | assumption
    | rfl
    | rw [outSpine_next]
    | refine ite_spine ?_ ?_
    | refine ite_out ?_ ?_
    | (simp only [*, settleKnown_spine, subGridEnd_spine, spine_mk, spine_eta, outSpine_next]; done)
    | split
    | (simp [*]; done)
    | simp only [*, settleKnown_spine, subGridEnd_spine, spine_mk, spine_eta, outSpine_next]

@[simp] theorem rateChange_spine {s0} : (State.rateChange s0).spine = s0.spine := by
  unfold State.rateChange
  with_reducible repeat' first
    | assumption
    | rfl
    | (extract_lets +onlyGivenNames y
       refine (show (y.spine = s0.spine → _) from fun h => ?_) ?_
       on_goal 1 => clear_value y
       on_goal 2 => (simp only [y]; try clear y))
    | (extract_lets +onlyGivenNames y; clear_value y)
    | (refine (foldl_spine ?_).trans ?_; on_goal 1 => intro s0 _)
    | refine ite_spine ?_ ?_
    | (simp only [*, modBmp_spine, spine_mk, spine_eta]; done)
    | split
    | (simp [*]; done)
    | simp only [*, modBmp_spine, spine_mk, spine_eta]

@[simp] theorem execTariffRateSwitch_spine {s0} : outSpine s0 (execTariffRateSwitch s0) = s0.spine := by
  unfold execTariffRateSwitch
  with_reducible repeat' first
    | assumption
    | rfl
    | rw [outSpine_next]
    | refine ite_spine ?_ ?_
    | refine ite_out ?_ ?_
    | (simp only [*, rateChange_spine, spine_mk, spine_eta, outSpine_next]; done)
    | split
    | (simp [*]; done)
    | simp only [*, rateChange_spine, spine_mk, spine_eta, outSpine_next]

@[simp] theorem activateTariff_spine {s0} : (State.activateTariff s0).spine = s0.spine := by
  unfold State.activateTariff
  simp only [markIntervals_spine, rateChange_spine, spine_mk, spine_eta]

@[simp] theorem execTariffActivateDue_spine {s0} : outSpine s0 (execTariffActivateDue s0) = s0.spine := by
  unfold execTariffActivateDue
  with_reducible repeat' first
    | assumption
    | rfl
    | rw [outSpine_next]
    | (extract_lets +onlyGivenNames y; clear_value y)
    | refine ite_spine ?_ ?_
    | refine ite_out ?_ ?_
    | (simp only [*, activateTariff_spine, spine_mk, spine_eta, outSpine_next]; done)
    | split
    | (simp [*]; done)
    | simp only [*, activateTariff_spine, spine_mk, spine_eta, outSpine_next]

@[simp] theorem tariffStageBody_spine {x1 x2 s0} : (tariffStageBody x1 x2 s0).1.spine = s0.spine := by
  unfold tariffStageBody
  with_reducible repeat' first
    | assumption
    | rfl
    | (extract_lets +onlyGivenNames y; clear_value y)
    | refine ite_spine ?_ ?_
    | refine ite_fst ?_ ?_
    | (simp only [*, spine_mk, spine_eta]; done)
    | split
    | (simp [*]; done)
    | simp only [*, spine_mk, spine_eta]

@[simp] theorem execTariffStage_spine {x1 s0} : outSpine s0 (execTariffStage x1 s0) = s0.spine := by
  unfold execTariffStage
  with_reducible repeat' first
    | assumption
    | rfl
    | rw [outSpine_next]
    | (simp only [*, command_spine, tariffStageBody_spine, spine_mk, spine_eta, outSpine_next]; done)
    | (split <;> (try (rename_i q; obtain ⟨q1, q2⟩ := Prod.ext_iff.mp q; simp only at q1 q2; subst q1 q2)))
    | (simp [*]; done)
    | simp only [*, command_spine, tariffStageBody_spine, spine_mk, spine_eta, outSpine_next]

@[simp] theorem tariffActivateBody_spine {x1 x2 s0} : (tariffActivateBody x1 x2 s0).1.spine = s0.spine := by
  unfold tariffActivateBody
  with_reducible repeat' first
    | assumption
    | rfl
    | (extract_lets +onlyGivenNames y
       refine (show (y.spine = s0.spine → _) from fun h => ?_) ?_
       on_goal 1 => clear_value y
       on_goal 2 => (simp only [y]; try clear y))
    | (extract_lets +onlyGivenNames y
       refine (show (y.1.spine = s0.spine → _) from fun h => ?_) ?_
       on_goal 1 => clear_value y
       on_goal 2 => (simp only [y]; try clear y))
    | (extract_lets +onlyGivenNames y; clear_value y)
    | (refine fixedBody_spine ?_; intro _ _ s0)
    | refine ite_spine ?_ ?_
    | refine ite_fst ?_ ?_
    | (simp only [*, fixedBody_spine, spine_mk, spine_eta]; done)
    | (split <;> (try (rename_i q; obtain ⟨q1, q2⟩ := Prod.ext_iff.mp q; simp only at q1 q2; subst q1 q2)))
    | (simp [*]; done)
    | simp only [*, fixedBody_spine, spine_mk, spine_eta]

@[simp] theorem execTariffActivate_spine {x1 s0} : outSpine s0 (execTariffActivate x1 s0) = s0.spine := by
  unfold execTariffActivate
  with_reducible repeat' first
    | assumption
    | rfl
    | rw [outSpine_next]
    | (simp only [*, command_spine, tariffActivateBody_spine, spine_mk, spine_eta, outSpine_next]; done)
    | (split <;> (try (rename_i q; obtain ⟨q1, q2⟩ := Prod.ext_iff.mp q; simp only at q1 q2; subst q1 q2)))
    | (simp [*]; done)
    | simp only [*, command_spine, tariffActivateBody_spine, spine_mk, spine_eta, outSpine_next]

@[simp] theorem billReset_spine {s0} : (State.billReset s0).spine = s0.spine := by
  unfold State.billReset
  with_reducible repeat' first
    | assumption
    | rfl
    | (extract_lets +onlyGivenNames y
       refine (show (y.spine = s0.spine → _) from fun h => ?_) ?_
       on_goal 1 => clear_value y
       on_goal 2 => (simp only [y]; try clear y))
    | (extract_lets +onlyGivenNames y; clear_value y)
    | (refine (foldl_spine ?_).trans ?_; on_goal 1 => intro s0 _)
    | refine ite_spine ?_ ?_
    | (simp only [*, subGridEnd_spine, profGridEnd_spine, modBmp_spine, capture_spine, markIntervals_spine, spine_mk, spine_eta]; done)
    | split
    | (simp [*]; done)
    | simp only [*, subGridEnd_spine, profGridEnd_spine, modBmp_spine, capture_spine, markIntervals_spine, spine_mk, spine_eta]

@[simp] theorem execBillResetDue_spine {s0} : outSpine s0 (execBillResetDue s0) = s0.spine := by
  unfold execBillResetDue
  with_reducible repeat' first
    | assumption
    | rfl
    | rw [outSpine_next]
    | (extract_lets +onlyGivenNames y; clear_value y)
    | refine ite_spine ?_ ?_
    | refine ite_out ?_ ?_
    | (simp only [*, billReset_spine, spine_mk, spine_eta, outSpine_next]; done)
    | split
    | (simp [*]; done)
    | simp only [*, billReset_spine, spine_mk, spine_eta, outSpine_next]

@[simp] theorem billResetBody_spine {x1 x2 s0} : (billResetBody x1 x2 s0).1.spine = s0.spine := by
  unfold billResetBody
  with_reducible repeat' first
    | assumption
    | rfl
    | (extract_lets +onlyGivenNames y
       refine (show (y.spine = s0.spine → _) from fun h => ?_) ?_
       on_goal 1 => clear_value y
       on_goal 2 => (simp only [y]; try clear y))
    | (extract_lets +onlyGivenNames y
       refine (show (y.1.spine = s0.spine → _) from fun h => ?_) ?_
       on_goal 1 => clear_value y
       on_goal 2 => (simp only [y]; try clear y))
    | (extract_lets +onlyGivenNames y; clear_value y)
    | (refine fixedBody_spine ?_; intro _ _ s0)
    | refine ite_spine ?_ ?_
    | refine ite_fst ?_ ?_
    | (simp only [*, fixedBody_spine, spine_mk, spine_eta]; done)
    | (split <;> (try (rename_i q; obtain ⟨q1, q2⟩ := Prod.ext_iff.mp q; simp only at q1 q2; subst q1 q2)))
    | (simp [*]; done)
    | simp only [*, fixedBody_spine, spine_mk, spine_eta]

@[simp] theorem execBillReset_spine {x1 s0} : outSpine s0 (execBillReset x1 s0) = s0.spine := by
  unfold execBillReset
  with_reducible repeat' first
    | assumption
    | rfl
    | rw [outSpine_next]
    | (simp only [*, command_spine, billResetBody_spine, spine_mk, spine_eta, outSpine_next]; done)
    | (split <;> (try (rename_i q; obtain ⟨q1, q2⟩ := Prod.ext_iff.mp q; simp only at q1 q2; subst q1 q2)))
    | (simp [*]; done)
    | simp only [*, command_spine, billResetBody_spine, spine_mk, spine_eta, outSpine_next]

@[simp] theorem billsNow_spine {s0} : (State.billsNow s0).spine = s0.spine := by
  unfold State.billsNow
  with_reducible repeat' first
    | assumption
    | rfl
    | (extract_lets +onlyGivenNames y; clear_value y)
    | (refine (foldl_spine ?_).trans ?_; on_goal 1 => intro s0 _)
    | refine ite_spine ?_ ?_
    | (simp only [*, finishHeld_spine, activateTariff_spine, billReset_spine, spine_mk, spine_eta]; done)
    | split
    | (simp [*]; done)
    | simp only [*, finishHeld_spine, activateTariff_spine, billReset_spine, spine_mk, spine_eta]

@[simp] theorem billBeforeStep_spine {s0 x1} : (State.billBeforeStep s0 x1).spine = s0.spine := by
  unfold State.billBeforeStep
  simp only [pushEnds_spine, spine_mk, spine_eta]

@[simp] theorem billAfterStep_spine {s0 x1} : (State.billAfterStep s0 x1).spine = s0.spine := by
  unfold State.billAfterStep
  with_reducible repeat' first
    | assumption
    | rfl
    | (extract_lets +onlyGivenNames y
       refine (show (y.spine = s0.spine → _) from fun h => ?_) ?_
       on_goal 1 => clear_value y
       on_goal 2 => (simp only [y]; try clear y))
    | (extract_lets +onlyGivenNames y; clear_value y)
    | refine ite_spine ?_ ?_
    | (simp only [*, rateChange_spine, legalEvent_spine, activateTariff_spine, spine_mk, spine_eta]; done)
    | split
    | (simp [*]; done)
    | simp only [*, rateChange_spine, legalEvent_spine, activateTariff_spine, spine_mk, spine_eta]

@[simp] theorem billStart_spine {s0} : (State.billStart s0).spine = s0.spine := by
  unfold State.billStart
  with_reducible repeat' first
    | assumption
    | rfl
    | (extract_lets +onlyGivenNames y
       refine (show (y.spine = s0.spine → _) from fun h => ?_) ?_
       on_goal 1 => clear_value y
       on_goal 2 => (simp only [y]; try clear y))
    | (extract_lets +onlyGivenNames y; clear_value y)
    | (refine (foldl_spine ?_).trans ?_; on_goal 1 => intro s0 _)
    | refine ite_spine ?_ ?_
    | (simp only [*, modBmp_spine, decidePrepay_spine, spine_mk, spine_eta]; done)
    | split
    | (simp [*]; done)
    | simp only [*, modBmp_spine, decidePrepay_spine, spine_mk, spine_eta]

@[simp] theorem execStandingCharge_spine {s0} : outSpine s0 (execStandingCharge s0) = s0.spine := by
  unfold execStandingCharge
  with_reducible repeat' first
    | assumption
    | rfl
    | rw [outSpine_next]
    | (extract_lets +onlyGivenNames y
       refine (show (y.spine = s0.spine → _) from fun h => ?_) ?_
       on_goal 1 => clear_value y
       on_goal 2 => (simp only [y]; try clear y))
    | (extract_lets +onlyGivenNames y; clear_value y)
    | (refine (foldl_spine ?_).trans ?_; on_goal 1 => intro s0 _)
    | refine ite_spine ?_ ?_
    | refine ite_out ?_ ?_
    | (simp only [*, decidePrepay_spine, modBmp_spine, spine_mk, spine_eta, outSpine_next]; done)
    | split
    | (simp [*]; done)
    | simp only [*, decidePrepay_spine, modBmp_spine, spine_mk, spine_eta, outSpine_next]

@[simp] theorem execFriendlyDeferralEnd_spine {x1 s0} : outSpine s0 (execFriendlyDeferralEnd x1 s0) = s0.spine := by
  unfold execFriendlyDeferralEnd
  with_reducible repeat' first
    | assumption
    | rfl
    | rw [outSpine_next]
    | (extract_lets +onlyGivenNames y; clear_value y)
    | refine ite_spine ?_ ?_
    | refine ite_out ?_ ?_
    | (simp only [*, decideSupply_spine, modBmp_spine, spine_mk, spine_eta, outSpine_next]; done)
    | split
    | (simp [*]; done)
    | simp only [*, decideSupply_spine, modBmp_spine, spine_mk, spine_eta, outSpine_next]

@[simp] theorem addCredit_spine {s0 x1 x2 x3} : (State.addCredit s0 x1 x2 x3).spine = s0.spine := by
  unfold State.addCredit
  simp only [decidePrepay_spine, modBmp_spine, spine_mk, spine_eta]

@[simp] theorem creditAddBody_spine {x1 x2 s0} : (creditAddBody x1 x2 s0).1.spine = s0.spine := by
  unfold creditAddBody
  with_reducible repeat' first
    | assumption
    | rfl
    | (extract_lets +onlyGivenNames y
       refine (show (y.spine = s0.spine → _) from fun h => ?_) ?_
       on_goal 1 => clear_value y
       on_goal 2 => (simp only [y]; try clear y))
    | (extract_lets +onlyGivenNames y
       refine (show (y.1.spine = s0.spine → _) from fun h => ?_) ?_
       on_goal 1 => clear_value y
       on_goal 2 => (simp only [y]; try clear y))
    | (extract_lets +onlyGivenNames y; clear_value y)
    | (refine fixedBody_spine ?_; intro _ _ s0)
    | refine ite_spine ?_ ?_
    | refine ite_fst ?_ ?_
    | (simp only [*, fixedBody_spine, addCredit_spine, journalAdd_spine, spine_mk, spine_eta]; done)
    | (split <;> (try (rename_i q; obtain ⟨q1, q2⟩ := Prod.ext_iff.mp q; simp only at q1 q2; subst q1 q2)))
    | (simp [*]; done)
    | simp only [*, fixedBody_spine, addCredit_spine, journalAdd_spine, spine_mk, spine_eta]

@[simp] theorem execCreditAdd_spine {x1 s0} : outSpine s0 (execCreditAdd x1 s0) = s0.spine := by
  unfold execCreditAdd
  with_reducible repeat' first
    | assumption
    | rfl
    | rw [outSpine_next]
    | (simp only [*, command_spine, creditAddBody_spine, spine_mk, spine_eta, outSpine_next]; done)
    | (split <;> (try (rename_i q; obtain ⟨q1, q2⟩ := Prod.ext_iff.mp q; simp only at q1 q2; subst q1 q2)))
    | (simp [*]; done)
    | simp only [*, command_spine, creditAddBody_spine, spine_mk, spine_eta, outSpine_next]

@[simp] theorem supplyControlBody_spine {x1 x2 s0} : (supplyControlBody x1 x2 s0).1.spine = s0.spine := by
  unfold supplyControlBody
  with_reducible repeat' first
    | assumption
    | rfl
    | (extract_lets +onlyGivenNames y
       refine (show (y.spine = s0.spine → _) from fun h => ?_) ?_
       on_goal 1 => clear_value y
       on_goal 2 => (simp only [y]; try clear y))
    | (extract_lets +onlyGivenNames y
       refine (show (y.1.spine = s0.spine → _) from fun h => ?_) ?_
       on_goal 1 => clear_value y
       on_goal 2 => (simp only [y]; try clear y))
    | (extract_lets +onlyGivenNames y; clear_value y)
    | (refine fixedBody_spine ?_; intro _ _ s0)
    | refine ite_spine ?_ ?_
    | refine ite_fst ?_ ?_
    | (simp only [*, fixedBody_spine, decideSupply_spine, modBmp_spine, setSupply_spine, decidePrepay_spine, spine_mk, spine_eta]; done)
    | (split <;> (try (rename_i q; obtain ⟨q1, q2⟩ := Prod.ext_iff.mp q; simp only at q1 q2; subst q1 q2)))
    | (simp [*]; done)
    | simp only [*, fixedBody_spine, decideSupply_spine, modBmp_spine, setSupply_spine, decidePrepay_spine, spine_mk, spine_eta]

@[simp] theorem execSupplyControl_spine {x1 s0} : outSpine s0 (execSupplyControl x1 s0) = s0.spine := by
  unfold execSupplyControl
  with_reducible repeat' first
    | assumption
    | rfl
    | rw [outSpine_next]
    | (simp only [*, command_spine, supplyControlBody_spine, spine_mk, spine_eta, outSpine_next]; done)
    | (split <;> (try (rename_i q; obtain ⟨q1, q2⟩ := Prod.ext_iff.mp q; simp only at q1 q2; subst q1 q2)))
    | (simp [*]; done)
    | simp only [*, command_spine, supplyControlBody_spine, spine_mk, spine_eta, outSpine_next]

@[simp] theorem profileReadBody_spine {x1 x2 s0} : (profileReadBody x1 x2 s0).1.spine = s0.spine := by
  unfold profileReadBody
  with_reducible repeat' first
    | assumption
    | rfl
    | (extract_lets +onlyGivenNames y
       refine (show (y.spine = s0.spine → _) from fun h => ?_) ?_
       on_goal 1 => clear_value y
       on_goal 2 => (simp only [y]; try clear y))
    | (extract_lets +onlyGivenNames y
       refine (show (y.1.spine = s0.spine → _) from fun h => ?_) ?_
       on_goal 1 => clear_value y
       on_goal 2 => (simp only [y]; try clear y))
    | (extract_lets +onlyGivenNames y; clear_value y)
    | (refine fixedBody_spine ?_; intro _ _ s0)
    | refine ite_spine ?_ ?_
    | refine ite_fst ?_ ?_
    | (simp only [*, fixedBody_spine, spine_mk, spine_eta]; done)
    | (split <;> (try (rename_i q; obtain ⟨q1, q2⟩ := Prod.ext_iff.mp q; simp only at q1 q2; subst q1 q2)))
    | (simp [*]; done)
    | simp only [*, fixedBody_spine, spine_mk, spine_eta]

@[simp] theorem execProfileRead_spine {x1 s0} : outSpine s0 (execProfileRead x1 s0) = s0.spine := by
  unfold execProfileRead
  with_reducible repeat' first
    | assumption
    | rfl
    | rw [outSpine_next]
    | (simp only [*, command_spine, profileReadBody_spine, spine_mk, spine_eta, outSpine_next]; done)
    | (split <;> (try (rename_i q; obtain ⟨q1, q2⟩ := Prod.ext_iff.mp q; simp only at q1 q2; subst q1 q2)))
    | (simp [*]; done)
    | simp only [*, command_spine, profileReadBody_spine, spine_mk, spine_eta, outSpine_next]

@[simp] theorem objGetBody_spine {x1 x2 s0} : (objGetBody x1 x2 s0).1.spine = s0.spine := by
  unfold objGetBody
  with_reducible repeat' first
    | assumption
    | rfl
    | (extract_lets +onlyGivenNames y
       refine (show (y.spine = s0.spine → _) from fun h => ?_) ?_
       on_goal 1 => clear_value y
       on_goal 2 => (simp only [y]; try clear y))
    | (extract_lets +onlyGivenNames y
       refine (show (y.1.spine = s0.spine → _) from fun h => ?_) ?_
       on_goal 1 => clear_value y
       on_goal 2 => (simp only [y]; try clear y))
    | (extract_lets +onlyGivenNames y; clear_value y)
    | (refine fixedBody_spine ?_; intro _ _ s0)
    | refine ite_spine ?_ ?_
    | refine ite_fst ?_ ?_
    | (simp only [*, fixedBody_spine, spine_mk, spine_eta]; done)
    | (split <;> (try (rename_i q; obtain ⟨q1, q2⟩ := Prod.ext_iff.mp q; simp only at q1 q2; subst q1 q2)))
    | (simp [*]; done)
    | simp only [*, fixedBody_spine, spine_mk, spine_eta]

@[simp] theorem execObjGet_spine {x1 s0} : outSpine s0 (execObjGet x1 s0) = s0.spine := by
  unfold execObjGet
  with_reducible repeat' first
    | assumption
    | rfl
    | rw [outSpine_next]
    | (simp only [*, command_spine, objGetBody_spine, spine_mk, spine_eta, outSpine_next]; done)
    | (split <;> (try (rename_i q; obtain ⟨q1, q2⟩ := Prod.ext_iff.mp q; simp only at q1 q2; subst q1 q2)))
    | (simp [*]; done)
    | simp only [*, command_spine, objGetBody_spine, spine_mk, spine_eta, outSpine_next]

@[simp] theorem execSealDisplayDwell_spine {s0} : outSpine s0 (execSealDisplayDwell s0) = s0.spine := by
  unfold execSealDisplayDwell
  with_reducible repeat' first
    | assumption
    | rfl
    | rw [outSpine_next]
    | (extract_lets +onlyGivenNames y
       refine (show (y.spine = s0.spine → _) from fun h => ?_) ?_
       on_goal 1 => clear_value y
       on_goal 2 => (simp only [y]; try clear y))
    | (extract_lets +onlyGivenNames y; clear_value y)
    | refine ite_spine ?_ ?_
    | refine ite_out ?_ ?_
    | (simp only [*, spine_mk, spine_eta, outSpine_next]; done)
    | split
    | (simp [*]; done)
    | simp only [*, spine_mk, spine_eta, outSpine_next]

@[simp] theorem execSealFrameSend_spine {s0} : outSpine s0 (execSealFrameSend s0) = s0.spine := by
  unfold execSealFrameSend
  with_reducible repeat' first
    | assumption
    | rfl
    | rw [outSpine_next]
    | (extract_lets +onlyGivenNames y
       refine (show (y.spine = s0.spine → _) from fun h => ?_) ?_
       on_goal 1 => clear_value y
       on_goal 2 => (simp only [y]; try clear y))
    | (extract_lets +onlyGivenNames y; clear_value y)
    | refine ite_spine ?_ ?_
    | refine ite_out ?_ ?_
    | (simp only [*, level_spine, spine_mk, spine_eta, outSpine_next]; done)
    | split
    | (simp [*]; done)
    | simp only [*, level_spine, spine_mk, spine_eta, outSpine_next]

@[simp] theorem execSealBusyTimeout_spine {x1 s0} : outSpine s0 (execSealBusyTimeout x1 s0) = s0.spine := by
  unfold execSealBusyTimeout
  with_reducible repeat' first
    | assumption
    | rfl
    | rw [outSpine_next]
    | refine ite_spine ?_ ?_
    | refine ite_out ?_ ?_
    | (simp only [*, level_spine, spine_mk, spine_eta, outSpine_next]; done)
    | split
    | (simp [*]; done)
    | simp only [*, level_spine, spine_mk, spine_eta, outSpine_next]

@[simp] theorem modMon_spine {s0 x1 x2} : (State.modMon s0 x1 x2).spine = s0.spine := by
  unfold State.modMon
  simp only [spine_mk, spine_eta]

@[simp] theorem modPqc_spine {s0 x1 x2} : (State.modPqc s0 x1 x2).spine = s0.spine := by
  unfold State.modPqc
  simp only [spine_mk, spine_eta]

@[simp] theorem pqAdd_spine {s0 x1 x2} : (State.pqAdd s0 x1 x2).spine = s0.spine := by
  unfold State.pqAdd
  with_reducible repeat' first
    | assumption
    | rfl
    | (extract_lets +onlyGivenNames y
       refine (show (y.spine = s0.spine → _) from fun h => ?_) ?_
       on_goal 1 => clear_value y
       on_goal 2 => (simp only [y]; try clear y))
    | (extract_lets +onlyGivenNames y; clear_value y)
    | refine ite_spine ?_ ?_
    | (simp only [*, pulse_spine, spine_mk, spine_eta]; done)
    | split
    | (simp [*]; done)
    | simp only [*, pulse_spine, spine_mk, spine_eta]

@[simp] theorem modRec_spine {s0 x1 x2} : (State.modRec s0 x1 x2).spine = s0.spine := by
  unfold State.modRec
  simp only [spine_mk, spine_eta]

@[simp] theorem markOpen_spine {s0 x1 x2} : (State.markOpen s0 x1 x2).spine = s0.spine := by
  unfold State.markOpen
  with_reducible repeat' first
    | assumption
    | rfl
    | (extract_lets +onlyGivenNames y; clear_value y)
    | (refine (foldl_spine ?_).trans ?_; on_goal 1 => intro s0 _)
    | (simp only [*, modMon_spine, modRec_spine, spine_mk, spine_eta]; done)
    | split
    | (simp [*]; done)
    | simp only [*, modMon_spine, modRec_spine, spine_mk, spine_eta]

@[simp] theorem evalEvent_spine {s0 x1 x2 x3 x4 x5 x6} : (State.evalEvent s0 x1 x2 x3 x4 x5 x6).spine = s0.spine := by
  unfold State.evalEvent
  with_reducible repeat' first
    | assumption
    | rfl
    | (extract_lets +onlyGivenNames y
       refine (show (y.spine = s0.spine → _) from fun h => ?_) ?_
       on_goal 1 => clear_value y
       on_goal 2 => (simp only [y]; try clear y))
    | (extract_lets +onlyGivenNames y; clear_value y)
    | (refine (foldl_spine ?_).trans ?_; on_goal 1 => intro s0 _)
    | refine ite_spine ?_ ?_
    | (simp only [*, modMon_spine, pqAdd_spine, modRec_spine, levelAt_spine, spine_mk, spine_eta]; done)
    | split
    | (simp [*]; done)
    | simp only [*, modMon_spine, pqAdd_spine, modRec_spine, levelAt_spine, spine_mk, spine_eta]

@[simp] theorem pqSource_spine {s0 x1 x2 x3 x4} : (State.pqSource s0 x1 x2 x3 x4).spine = s0.spine := by
  unfold State.pqSource
  with_reducible repeat' first
    | assumption
    | rfl
    | (extract_lets +onlyGivenNames y
       refine (show (y.spine = s0.spine → _) from fun h => ?_) ?_
       on_goal 1 => clear_value y
       on_goal 2 => (simp only [y]; try clear y))
    | (extract_lets +onlyGivenNames y; clear_value y)
    | refine ite_spine ?_ ?_
    | (simp only [*, levelAt_spine, modPqc_spine, spine_mk, spine_eta]; done)
    | split
    | (simp [*]; done)
    | simp only [*, levelAt_spine, modPqc_spine, spine_mk, spine_eta]

@[simp] theorem rvcDiscard_spine {s0 x1} : (State.rvcDiscard s0 x1).spine = s0.spine := by
  unfold State.rvcDiscard
  simp only [level_spine, modMon_spine, spine_mk, spine_eta]

@[simp] theorem rvcEval_spine {s0 x1 x2 x3 x4 x5} : (State.rvcEval s0 x1 x2 x3 x4 x5).spine = s0.spine := by
  unfold State.rvcEval
  with_reducible repeat' first
    | assumption
    | rfl
    | (extract_lets +onlyGivenNames y
       refine (show (y.spine = s0.spine → _) from fun h => ?_) ?_
       on_goal 1 => clear_value y
       on_goal 2 => (simp only [y]; try clear y))
    | (extract_lets +onlyGivenNames y; clear_value y)
    | (refine (foldl_spine ?_).trans ?_; on_goal 1 => intro s0 _)
    | refine ite_spine ?_ ?_
    | (simp only [*, rvcDiscard_spine, modPqc_spine, levelAt_spine, modMon_spine, spine_mk, spine_eta]; done)
    | split
    | (simp [*]; done)
    | simp only [*, rvcDiscard_spine, modPqc_spine, levelAt_spine, modMon_spine, spine_mk, spine_eta]

@[simp] theorem execRvcArm_spine {x1 s0} : outSpine s0 (execRvcArm x1 s0) = s0.spine := by
  unfold execRvcArm
  with_reducible repeat' first
    | assumption
    | rfl
    | rw [outSpine_next]
    | (extract_lets +onlyGivenNames y
       refine (show (y.spine = s0.spine → _) from fun h => ?_) ?_
       on_goal 1 => clear_value y
       on_goal 2 => (simp only [y]; try clear y))
    | (extract_lets +onlyGivenNames y; clear_value y)
    | refine ite_spine ?_ ?_
    | refine ite_out ?_ ?_
    | (simp only [*, modMon_spine, spine_mk, spine_eta, outSpine_next]; done)
    | split
    | (simp [*]; done)
    | simp only [*, modMon_spine, spine_mk, spine_eta, outSpine_next]

@[simp] theorem execRvcEnd_spine {x1 s0} : outSpine s0 (execRvcEnd x1 s0) = s0.spine := by
  unfold execRvcEnd
  with_reducible repeat' first
    | assumption
    | rfl
    | rw [outSpine_next]
    | (extract_lets +onlyGivenNames y
       refine (show (y.spine = s0.spine → _) from fun h => ?_) ?_
       on_goal 1 => clear_value y
       on_goal 2 => (simp only [y]; try clear y))
    | (extract_lets +onlyGivenNames y; clear_value y)
    | (refine (foldl_spine ?_).trans ?_; on_goal 1 => intro s0 _)
    | refine ite_spine ?_ ?_
    | refine ite_out ?_ ?_
    | (simp only [*, level_spine, modMon_spine, pqAdd_spine, spine_mk, spine_eta, outSpine_next]; done)
    | split
    | (simp [*]; done)
    | simp only [*, level_spine, modMon_spine, pqAdd_spine, spine_mk, spine_eta, outSpine_next]

@[simp] theorem pqBoundary_spine {s0 x1 x2 x3} : (State.pqBoundary s0 x1 x2 x3).spine = s0.spine := by
  unfold State.pqBoundary
  with_reducible repeat' first
    | assumption
    | rfl
    | (extract_lets +onlyGivenNames y
       refine (show (y.spine = s0.spine → _) from fun h => ?_) ?_
       on_goal 1 => clear_value y
       on_goal 2 => (simp only [y]; try clear y))
    | (extract_lets +onlyGivenNames y; clear_value y)
    | (refine (foldl_spine ?_).trans ?_; on_goal 1 => intro s0 _)
    | refine ite_spine ?_ ?_
    | (simp only [*, markOpen_spine, evalEvent_spine, pqSource_spine, rvcEval_spine, modPqc_spine, spine_mk, spine_eta]; done)
    | split
    | (simp [*]; done)
    | simp only [*, markOpen_spine, evalEvent_spine, pqSource_spine, rvcEval_spine, modPqc_spine, spine_mk, spine_eta]

@[simp] theorem pqClose_spine {s0 x1 x2} : (State.pqClose s0 x1 x2).spine = s0.spine := by
  unfold State.pqClose
  with_reducible repeat' first
    | assumption
    | rfl
    | (extract_lets +onlyGivenNames y
       refine (show (y.spine = s0.spine → _) from fun h => ?_) ?_
       on_goal 1 => clear_value y
       on_goal 2 => (simp only [y]; try clear y))
    | (extract_lets +onlyGivenNames y; clear_value y)
    | (refine (foldl_spine ?_).trans ?_; on_goal 1 => intro s0 _)
    | refine ite_spine ?_ ?_
    | (simp only [*, modRec_spine, level_spine, modMon_spine, rvcDiscard_spine, modPqc_spine, spine_mk, spine_eta]; done)
    | split
    | (simp [*]; done)
    | simp only [*, modRec_spine, level_spine, modMon_spine, rvcDiscard_spine, modPqc_spine, spine_mk, spine_eta]

@[simp] theorem slidingUpdate_spine {s0 x1} : (State.slidingUpdate s0 x1).spine = s0.spine := by
  unfold State.slidingUpdate
  with_reducible repeat' first
    | assumption
    | rfl
    | (extract_lets +onlyGivenNames y
       refine (show (y.spine = s0.spine → _) from fun h => ?_) ?_
       on_goal 1 => clear_value y
       on_goal 2 => (simp only [y]; try clear y))
    | (extract_lets +onlyGivenNames y; clear_value y)
    | (refine (foldl_spine ?_).trans ?_; on_goal 1 => intro s0 _)
    | refine ite_spine ?_ ?_
    | (simp only [*, modPqc_spine, spine_mk, spine_eta]; done)
    | split
    | (simp [*]; done)
    | simp only [*, modPqc_spine, spine_mk, spine_eta]

@[simp] theorem aggStore_spine {s0 x1 x2 x3} : (State.aggStore s0 x1 x2 x3).spine = s0.spine := by
  unfold State.aggStore
  simp only [modMon_spine, spine_mk, spine_eta]

@[simp] theorem close150_spine {s0 x1 x2} : (State.close150 s0 x1 x2).spine = s0.spine := by
  unfold State.close150
  simp only [modMon_spine, aggStore_spine, spine_mk, spine_eta]

@[simp] theorem aggWindow_spine {s0 x1} : (State.aggWindow s0 x1).spine = s0.spine := by
  unfold State.aggWindow
  with_reducible repeat' first
    | assumption
    | rfl
    | (extract_lets +onlyGivenNames y
       refine (show (y.spine = s0.spine → _) from fun h => ?_) ?_
       on_goal 1 => clear_value y
       on_goal 2 => (simp only [y]; try clear y))
    | (extract_lets +onlyGivenNames y; clear_value y)
    | refine ite_spine ?_ ?_
    | (simp only [*, close150_spine, modMon_spine, spine_mk, spine_eta]; done)
    | split
    | (simp [*]; done)
    | simp only [*, close150_spine, modMon_spine, spine_mk, spine_eta]

@[simp] theorem limit_spine {s0 x1 x2 x3 x4} : (State.limit s0 x1 x2 x3 x4).spine = s0.spine := by
  unfold State.limit
  with_reducible repeat' first
    | assumption
    | rfl
    | refine ite_spine ?_ ?_
    | (simp only [*, level_spine, spine_mk, spine_eta]; done)
    | split
    | (simp [*]; done)
    | simp only [*, level_spine, spine_mk, spine_eta]

@[simp] theorem close10_spine {s0 x1} : (State.close10 s0 x1).spine = s0.spine := by
  unfold State.close10
  simp only [aggStore_spine, modMon_spine, pulse_spine, limit_spine, spine_mk, spine_eta]

@[simp] theorem execAgg10minTick_spine {x1 x2 s0} : outSpine s0 (execAgg10minTick x1 x2 s0) = s0.spine := by
  unfold execAgg10minTick
  with_reducible repeat' first
    | assumption
    | rfl
    | rw [outSpine_next]
    | (extract_lets +onlyGivenNames y
       refine (show (y.spine = s0.spine → _) from fun h => ?_) ?_
       on_goal 1 => clear_value y
       on_goal 2 => (simp only [y]; try clear y))
    | (extract_lets +onlyGivenNames y; clear_value y)
    | refine ite_spine ?_ ?_
    | refine ite_out ?_ ?_
    | (simp only [*, modMon_spine, close10_spine, spine_mk, spine_eta, outSpine_next]; done)
    | split
    | (simp [*]; done)
    | simp only [*, modMon_spine, close10_spine, spine_mk, spine_eta, outSpine_next]

@[simp] theorem execAgg2hTick_spine {x1 s0} : outSpine s0 (execAgg2hTick x1 s0) = s0.spine := by
  unfold execAgg2hTick
  with_reducible repeat' first
    | assumption
    | rfl
    | rw [outSpine_next]
    | (extract_lets +onlyGivenNames y
       refine (show (y.spine = s0.spine → _) from fun h => ?_) ?_
       on_goal 1 => clear_value y
       on_goal 2 => (simp only [y]; try clear y))
    | (extract_lets +onlyGivenNames y; clear_value y)
    | (refine (foldl_spine ?_).trans ?_; on_goal 1 => intro s0 _)
    | refine ite_spine ?_ ?_
    | refine ite_out ?_ ?_
    | (simp only [*, aggStore_spine, pulse_spine, limit_spine, modMon_spine, spine_mk, spine_eta, outSpine_next]; done)
    | split
    | (simp [*]; done)
    | simp only [*, aggStore_spine, pulse_spine, limit_spine, modMon_spine, spine_mk, spine_eta, outSpine_next]

@[simp] theorem flickChannel_spine {s0 x1 x2} : (State.flickChannel s0 x1 x2).spine = s0.spine := by
  unfold State.flickChannel
  simp only [modPqc_spine, spine_mk, spine_eta]

@[simp] theorem flickCutAt_spine {s0 x1} : (State.flickCutAt s0 x1).spine = s0.spine := by
  unfold State.flickCutAt
  with_reducible repeat' first
    | assumption
    | rfl
    | (extract_lets +onlyGivenNames y
       refine (show (y.spine = s0.spine → _) from fun h => ?_) ?_
       on_goal 1 => clear_value y
       on_goal 2 => (simp only [y]; try clear y))
    | (extract_lets +onlyGivenNames y; clear_value y)
    | (refine (foldl_spine ?_).trans ?_; on_goal 1 => intro s0 _)
    | (simp only [*, modPqc_spine, modMon_spine, spine_mk, spine_eta]; done)
    | split
    | (simp [*]; done)
    | simp only [*, modPqc_spine, modMon_spine, spine_mk, spine_eta]

@[simp] theorem flicker_spine {s0 x1} : (State.flicker s0 x1).spine = s0.spine := by
  unfold State.flicker
  with_reducible repeat' first
    | assumption
    | rfl
    | (extract_lets +onlyGivenNames y
       refine (show (y.spine = s0.spine → _) from fun h => ?_) ?_
       on_goal 1 => clear_value y
       on_goal 2 => (simp only [y]; try clear y))
    | (extract_lets +onlyGivenNames y; clear_value y)
    | (refine (foldl_spine ?_).trans ?_; on_goal 1 => intro s0 _)
    | refine ite_spine ?_ ?_
    | (simp only [*, modMon_spine, flickCutAt_spine, flickChannel_spine, spine_mk, spine_eta]; done)
    | split
    | (simp [*]; done)
    | simp only [*, modMon_spine, flickCutAt_spine, flickChannel_spine, spine_mk, spine_eta]

@[simp] theorem execFlickerSettled_spine {x1 x2 s0} : outSpine s0 (execFlickerSettled x1 x2 s0) = s0.spine := by
  unfold execFlickerSettled
  with_reducible repeat' first
    | assumption
    | rfl
    | rw [outSpine_next]
    | (extract_lets +onlyGivenNames y; clear_value y)
    | refine ite_spine ?_ ?_
    | refine ite_out ?_ ?_
    | (simp only [*, modMon_spine, spine_mk, spine_eta, outSpine_next]; done)
    | split
    | (simp [*]; done)
    | simp only [*, modMon_spine, spine_mk, spine_eta, outSpine_next]

@[simp] theorem flickerRestart_spine {s0 x1} : (State.flickerRestart s0 x1).spine = s0.spine := by
  unfold State.flickerRestart
  with_reducible repeat' first
    | assumption
    | rfl
    | (extract_lets +onlyGivenNames y
       refine (show (y.spine = s0.spine → _) from fun h => ?_) ?_
       on_goal 1 => clear_value y
       on_goal 2 => (simp only [y]; try clear y))
    | (extract_lets +onlyGivenNames y; clear_value y)
    | (refine (foldl_spine ?_).trans ?_; on_goal 1 => intro s0 _)
    | (simp only [*, modMon_spine, modPqc_spine, spine_mk, spine_eta]; done)
    | split
    | (simp [*]; done)
    | simp only [*, modMon_spine, modPqc_spine, spine_mk, spine_eta]

@[simp] theorem flickerCourse_spine {s0 x1} : (State.flickerCourse s0 x1).spine = s0.spine := by
  unfold State.flickerCourse
  with_reducible repeat' first
    | assumption
    | rfl
    | (refine (foldl_spine ?_).trans ?_; on_goal 1 => intro s0 _)
    | (simp only [*, flickerRestart_spine, spine_mk, spine_eta]; done)
    | split
    | (simp [*]; done)
    | simp only [*, flickerRestart_spine, spine_mk, spine_eta]

@[simp] theorem pqStep_spine {s0} : (State.pqStep s0).spine = s0.spine := by
  unfold State.pqStep
  with_reducible repeat' first
    | assumption
    | rfl
    | (extract_lets +onlyGivenNames y
       refine (show (y.spine = s0.spine → _) from fun h => ?_) ?_
       on_goal 1 => clear_value y
       on_goal 2 => (simp only [y]; try clear y))
    | (extract_lets +onlyGivenNames y; clear_value y)
    | (refine (foldl_spine ?_).trans ?_; on_goal 1 => intro s0 _)
    | refine ite_spine ?_ ?_
    | (simp only [*, markOpen_spine, flickCutAt_spine, modMon_spine, spine_mk, spine_eta]; done)
    | split
    | (simp [*]; done)
    | simp only [*, markOpen_spine, flickCutAt_spine, modMon_spine, spine_mk, spine_eta]

@[simp] theorem execFreq10sEnd_spine {x1 s0} : outSpine s0 (execFreq10sEnd x1 s0) = s0.spine := by
  unfold execFreq10sEnd
  with_reducible repeat' first
    | assumption
    | rfl
    | rw [outSpine_next]
    | (extract_lets +onlyGivenNames y
       refine (show (y.spine = s0.spine → _) from fun h => ?_) ?_
       on_goal 1 => clear_value y
       on_goal 2 => (simp only [y]; try clear y))
    | (extract_lets +onlyGivenNames y; clear_value y)
    | refine ite_spine ?_ ?_
    | refine ite_out ?_ ?_
    | (simp only [*, modVs_spine, level_spine, spine_mk, spine_eta, outSpine_next]; done)
    | split
    | (simp [*]; done)
    | simp only [*, modVs_spine, level_spine, spine_mk, spine_eta, outSpine_next]

@[simp] theorem execBandIntervalEnd_spine {x1 x2 s0} : outSpine s0 (execBandIntervalEnd x1 x2 s0) = s0.spine := by
  unfold execBandIntervalEnd
  with_reducible repeat' first
    | assumption
    | rfl
    | rw [outSpine_next]
    | (extract_lets +onlyGivenNames y
       refine (show (y.spine = s0.spine → _) from fun h => ?_) ?_
       on_goal 1 => clear_value y
       on_goal 2 => (simp only [y]; try clear y))
    | (extract_lets +onlyGivenNames y; clear_value y)
    | (refine (foldl_spine ?_).trans ?_; on_goal 1 => intro s0 _)
    | refine ite_spine ?_ ?_
    | refine ite_out ?_ ?_
    | (simp only [*, spine_mk, spine_eta, outSpine_next]; done)
    | split
    | (simp [*]; done)
    | simp only [*, spine_mk, spine_eta, outSpine_next]

@[simp] theorem readSnapshotBody_spine {x1 x2 s0} : (readSnapshotBody x1 x2 s0).1.spine = s0.spine := by
  unfold readSnapshotBody
  with_reducible repeat' first
    | assumption
    | rfl
    | (extract_lets +onlyGivenNames y
       refine (show (y.spine = s0.spine → _) from fun h => ?_) ?_
       on_goal 1 => clear_value y
       on_goal 2 => (simp only [y]; try clear y))
    | (extract_lets +onlyGivenNames y
       refine (show (y.1.spine = s0.spine → _) from fun h => ?_) ?_
       on_goal 1 => clear_value y
       on_goal 2 => (simp only [y]; try clear y))
    | (extract_lets +onlyGivenNames y; clear_value y)
    | (refine fixedBody_spine ?_; intro _ _ s0)
    | refine ite_spine ?_ ?_
    | refine ite_fst ?_ ?_
    | (simp only [*, fixedBody_spine, readBody_spine, spine_mk, spine_eta]; done)
    | (split <;> (try (rename_i q; obtain ⟨q1, q2⟩ := Prod.ext_iff.mp q; simp only at q1 q2; subst q1 q2)))
    | (simp [*]; done)
    | simp only [*, fixedBody_spine, readBody_spine, spine_mk, spine_eta]

@[simp] theorem execReadSnapshot_spine {x1 s0} : outSpine s0 (execReadSnapshot x1 s0) = s0.spine := by
  unfold execReadSnapshot
  with_reducible repeat' first
    | assumption
    | rfl
    | rw [outSpine_next]
    | (simp only [*, command_spine, readSnapshotBody_spine, spine_mk, spine_eta, outSpine_next]; done)
    | (split <;> (try (rename_i q; obtain ⟨q1, q2⟩ := Prod.ext_iff.mp q; simp only at q1 q2; subst q1 q2)))
    | (simp [*]; done)
    | simp only [*, command_spine, readSnapshotBody_spine, spine_mk, spine_eta, outSpine_next]

@[simp] theorem chanBlockRead_spine {x1 x2 x3 x4 s0} : (chanBlockRead x1 x2 x3 x4 s0).1.spine = s0.spine := by
  unfold chanBlockRead
  with_reducible repeat' first
    | assumption
    | rfl
    | (extract_lets +onlyGivenNames y
       refine (show (y.spine = s0.spine → _) from fun h => ?_) ?_
       on_goal 1 => clear_value y
       on_goal 2 => (simp only [y]; try clear y))
    | (extract_lets +onlyGivenNames y
       refine (show (y.1.spine = s0.spine → _) from fun h => ?_) ?_
       on_goal 1 => clear_value y
       on_goal 2 => (simp only [y]; try clear y))
    | (extract_lets +onlyGivenNames y; clear_value y)
    | (refine fixedBody_spine ?_; intro _ _ s0)
    | refine ite_spine ?_ ?_
    | refine ite_fst ?_ ?_
    | (simp only [*, fixedBody_spine, readBody_spine, spine_mk, spine_eta]; done)
    | (split <;> (try (rename_i q; obtain ⟨q1, q2⟩ := Prod.ext_iff.mp q; simp only at q1 q2; subst q1 q2)))
    | (simp [*]; done)
    | simp only [*, fixedBody_spine, readBody_spine, spine_mk, spine_eta]

@[simp] theorem readHarmonicsBody_spine {x1 x2 s0} : (readHarmonicsBody x1 x2 s0).1.spine = s0.spine := by
  unfold readHarmonicsBody
  simp only [chanBlockRead_spine, spine_mk, spine_eta]

@[simp] theorem execReadHarmonics_spine {x1 s0} : outSpine s0 (execReadHarmonics x1 s0) = s0.spine := by
  unfold execReadHarmonics
  with_reducible repeat' first
    | assumption
    | rfl
    | rw [outSpine_next]
    | (simp only [*, command_spine, readHarmonicsBody_spine, spine_mk, spine_eta, outSpine_next]; done)
    | (split <;> (try (rename_i q; obtain ⟨q1, q2⟩ := Prod.ext_iff.mp q; simp only at q1 q2; subst q1 q2)))
    | (simp [*]; done)
    | simp only [*, command_spine, readHarmonicsBody_spine, spine_mk, spine_eta, outSpine_next]

@[simp] theorem pqReadIhgBody_spine {x1 x2 s0} : (pqReadIhgBody x1 x2 s0).1.spine = s0.spine := by
  unfold pqReadIhgBody
  simp only [chanBlockRead_spine, spine_mk, spine_eta]

@[simp] theorem execPqReadIhg_spine {x1 s0} : outSpine s0 (execPqReadIhg x1 s0) = s0.spine := by
  unfold execPqReadIhg
  with_reducible repeat' first
    | assumption
    | rfl
    | rw [outSpine_next]
    | (simp only [*, command_spine, pqReadIhgBody_spine, spine_mk, spine_eta, outSpine_next]; done)
    | (split <;> (try (rename_i q; obtain ⟨q1, q2⟩ := Prod.ext_iff.mp q; simp only at q1 q2; subst q1 q2)))
    | (simp [*]; done)
    | simp only [*, command_spine, pqReadIhgBody_spine, spine_mk, spine_eta, outSpine_next]

@[simp] theorem pqReadBandsBody_spine {x1 x2 s0} : (pqReadBandsBody x1 x2 s0).1.spine = s0.spine := by
  unfold pqReadBandsBody
  simp only [chanBlockRead_spine, spine_mk, spine_eta]

@[simp] theorem execPqReadBands_spine {x1 s0} : outSpine s0 (execPqReadBands x1 s0) = s0.spine := by
  unfold execPqReadBands
  with_reducible repeat' first
    | assumption
    | rfl
    | rw [outSpine_next]
    | (simp only [*, command_spine, pqReadBandsBody_spine, spine_mk, spine_eta, outSpine_next]; done)
    | (split <;> (try (rename_i q; obtain ⟨q1, q2⟩ := Prod.ext_iff.mp q; simp only at q1 q2; subst q1 q2)))
    | (simp [*]; done)
    | simp only [*, command_spine, pqReadBandsBody_spine, spine_mk, spine_eta, outSpine_next]

@[simp] theorem readChannelDiagBody_spine {x1 x2 s0} : (readChannelDiagBody x1 x2 s0).1.spine = s0.spine := by
  unfold readChannelDiagBody
  with_reducible repeat' first
    | assumption
    | rfl
    | (extract_lets +onlyGivenNames y
       refine (show (y.spine = s0.spine → _) from fun h => ?_) ?_
       on_goal 1 => clear_value y
       on_goal 2 => (simp only [y]; try clear y))
    | (extract_lets +onlyGivenNames y
       refine (show (y.1.spine = s0.spine → _) from fun h => ?_) ?_
       on_goal 1 => clear_value y
       on_goal 2 => (simp only [y]; try clear y))
    | (extract_lets +onlyGivenNames y; clear_value y)
    | (refine (foldl_spine ?_).trans ?_; on_goal 1 => intro s0 _)
    | (refine fixedBody_spine ?_; intro _ _ s0)
    | (simp only [*, fixedBody_spine, modChan_spine, spine_mk, spine_eta]; done)
    | (split <;> (try (rename_i q; obtain ⟨q1, q2⟩ := Prod.ext_iff.mp q; simp only at q1 q2; subst q1 q2)))
    | (simp [*]; done)
    | simp only [*, fixedBody_spine, modChan_spine, spine_mk, spine_eta]

@[simp] theorem execReadChannelDiag_spine {x1 s0} : outSpine s0 (execReadChannelDiag x1 s0) = s0.spine := by
  unfold execReadChannelDiag
  with_reducible repeat' first
    | assumption
    | rfl
    | rw [outSpine_next]
    | (simp only [*, command_spine, readChannelDiagBody_spine, spine_mk, spine_eta, outSpine_next]; done)
    | (split <;> (try (rename_i q; obtain ⟨q1, q2⟩ := Prod.ext_iff.mp q; simp only at q1 q2; subst q1 q2)))
    | (simp [*]; done)
    | simp only [*, command_spine, readChannelDiagBody_spine, spine_mk, spine_eta, outSpine_next]

@[simp] theorem pqReadAggBody_spine {x1 x2 s0} : (pqReadAggBody x1 x2 s0).1.spine = s0.spine := by
  unfold pqReadAggBody
  with_reducible repeat' first
    | assumption
    | rfl
    | (extract_lets +onlyGivenNames y
       refine (show (y.spine = s0.spine → _) from fun h => ?_) ?_
       on_goal 1 => clear_value y
       on_goal 2 => (simp only [y]; try clear y))
    | (extract_lets +onlyGivenNames y
       refine (show (y.1.spine = s0.spine → _) from fun h => ?_) ?_
       on_goal 1 => clear_value y
       on_goal 2 => (simp only [y]; try clear y))
    | (extract_lets +onlyGivenNames y; clear_value y)
    | (refine fixedBody_spine ?_; intro _ _ s0)
    | refine ite_spine ?_ ?_
    | refine ite_fst ?_ ?_
    | (simp only [*, fixedBody_spine, readBody_spine, spine_mk, spine_eta]; done)
    | (split <;> (try (rename_i q; obtain ⟨q1, q2⟩ := Prod.ext_iff.mp q; simp only at q1 q2; subst q1 q2)))
    | (simp [*]; done)
    | simp only [*, fixedBody_spine, readBody_spine, spine_mk, spine_eta]

@[simp] theorem execPqReadAgg_spine {x1 s0} : outSpine s0 (execPqReadAgg x1 s0) = s0.spine := by
  unfold execPqReadAgg
  with_reducible repeat' first
    | assumption
    | rfl
    | rw [outSpine_next]
    | (simp only [*, command_spine, pqReadAggBody_spine, spine_mk, spine_eta, outSpine_next]; done)
    | (split <;> (try (rename_i q; obtain ⟨q1, q2⟩ := Prod.ext_iff.mp q; simp only at q1 q2; subst q1 q2)))
    | (simp [*]; done)
    | simp only [*, command_spine, pqReadAggBody_spine, spine_mk, spine_eta, outSpine_next]

@[simp] theorem pqReadLogBody_spine {x1 x2 s0} : (pqReadLogBody x1 x2 s0).1.spine = s0.spine := by
  unfold pqReadLogBody
  with_reducible repeat' first
    | assumption
    | rfl
    | (extract_lets +onlyGivenNames y
       refine (show (y.spine = s0.spine → _) from fun h => ?_) ?_
       on_goal 1 => clear_value y
       on_goal 2 => (simp only [y]; try clear y))
    | (extract_lets +onlyGivenNames y
       refine (show (y.1.spine = s0.spine → _) from fun h => ?_) ?_
       on_goal 1 => clear_value y
       on_goal 2 => (simp only [y]; try clear y))
    | (extract_lets +onlyGivenNames y; clear_value y)
    | (refine fixedBody_spine ?_; intro _ _ s0)
    | refine ite_spine ?_ ?_
    | refine ite_fst ?_ ?_
    | (simp only [*, fixedBody_spine, readBody_spine, spine_mk, spine_eta]; done)
    | (split <;> (try (rename_i q; obtain ⟨q1, q2⟩ := Prod.ext_iff.mp q; simp only at q1 q2; subst q1 q2)))
    | (simp [*]; done)
    | simp only [*, fixedBody_spine, readBody_spine, spine_mk, spine_eta]

@[simp] theorem execPqReadLog_spine {x1 s0} : outSpine s0 (execPqReadLog x1 s0) = s0.spine := by
  unfold execPqReadLog
  with_reducible repeat' first
    | assumption
    | rfl
    | rw [outSpine_next]
    | (simp only [*, command_spine, pqReadLogBody_spine, spine_mk, spine_eta, outSpine_next]; done)
    | (split <;> (try (rename_i q; obtain ⟨q1, q2⟩ := Prod.ext_iff.mp q; simp only at q1 q2; subst q1 q2)))
    | (simp [*]; done)
    | simp only [*, command_spine, pqReadLogBody_spine, spine_mk, spine_eta, outSpine_next]

end Sys2Proof.Machine
end

