-- ==== Sys2Proof/Laws/FrameB.lean ====
section
/-! SUPPORT. One frame lemma per operation that neither touches the queue of commands nor a phase of the kiln (part 2). -/

set_option linter.all false

namespace Sys2Proof.Machine

@[simp] theorem timeLog_spine {s0 x1 x2 x3 x4} : (State.timeLog s0 x1 x2 x3 x4).spine = s0.spine := by
  unfold State.timeLog
  simp only [spine_mk, spine_eta]

@[simp] theorem markStepped_spine {s0} : (State.markStepped s0).spine = s0.spine := by
  unfold State.markStepped
  simp only [modAllWin_spine, spine_mk, spine_eta]

@[simp] theorem timeStep_spine {s0 x1 x2 x3} : (State.timeStep s0 x1 x2 x3).spine = s0.spine := by
  unfold State.timeStep
  simp only [pqStep_spine, billBeforeStep_spine, markStepped_spine, timeLog_spine, billAfterStep_spine, pulse_spine, spine_mk, spine_eta]

@[simp] theorem startSlew_spine {s0 x1} : (State.startSlew s0 x1).spine = s0.spine := by
  unfold State.startSlew
  with_reducible repeat' first
    | assumption
    | rfl
    | (extract_lets +onlyGivenNames y; clear_value y)
    | refine ite_spine ?_ ?_
    | (simp only [*, level_spine, spine_mk, spine_eta]; done)
    | split
    | (simp [*]; done)
    | simp only [*, level_spine, spine_mk, spine_eta]

@[simp] theorem execSlewDone_spine {s0} : outSpine s0 (execSlewDone s0) = s0.spine := by
  unfold execSlewDone
  with_reducible repeat' first
    | assumption
    | rfl
    | rw [outSpine_next]
    | refine ite_spine ?_ ?_
    | refine ite_out ?_ ?_
    | (simp only [*, startSlew_spine, spine_mk, spine_eta, outSpine_next]; done)
    | split
    | (simp [*]; done)
    | simp only [*, startSlew_spine, spine_mk, spine_eta, outSpine_next]

@[simp] theorem stepDue_spine {s0 x1 x2 x3} : (State.stepDue s0 x1 x2 x3).spine = s0.spine := by
  unfold State.stepDue
  simp only [spine_mk, spine_eta]

@[simp] theorem removeOffset_spine {s0 x1 x2} : (State.removeOffset s0 x1 x2).spine = s0.spine := by
  unfold State.removeOffset
  with_reducible repeat' first
    | assumption
    | rfl
    | refine ite_spine ?_ ?_
    | (simp only [*, startSlew_spine, stepDue_spine, spine_mk, spine_eta]; done)
    | split
    | (simp [*]; done)
    | simp only [*, startSlew_spine, stepDue_spine, spine_mk, spine_eta]

@[simp] theorem becomeValid_spine {s0} : (State.becomeValid s0).spine = s0.spine := by
  unfold State.becomeValid
  with_reducible repeat' first
    | assumption
    | rfl
    | (extract_lets +onlyGivenNames y
       refine (show (y.spine = s0.spine → _) from fun h => ?_) ?_
       on_goal 1 => clear_value y
       on_goal 2 => (simp only [y]; try clear y))
    | (extract_lets +onlyGivenNames y; clear_value y)
    | refine ite_spine ?_ ?_
    | (simp only [*, level_spine, spine_mk, spine_eta]; done)
    | split
    | (simp [*]; done)
    | simp only [*, level_spine, spine_mk, spine_eta]

@[simp] theorem drawRate_spine {s0} : (State.drawRate s0).2.spine = s0.spine := by
  unfold State.drawRate
  simp only [draw_spine, spine_mk, spine_eta]

@[simp] theorem holdRate_spine {s0} : (State.holdRate s0).spine = s0.spine := by
  unfold State.holdRate
  exact ite_spine rfl (ite_spine rfl drawRate_spine)

@[simp] theorem enterHoldover_spine {s0 x1} : (State.enterHoldover s0 x1).spine = s0.spine := by
  unfold State.enterHoldover
  simp only [holdRate_spine, markIntervals_spine, level_spine, startSlew_spine, spine_mk, spine_eta]

@[simp] theorem leaveHoldover_spine {s0} : (State.leaveHoldover s0).spine = s0.spine := by
  unfold State.leaveHoldover
  simp only [level_spine, spine_mk, spine_eta]

@[simp] theorem execHoldLimitExceeded_spine {s0} : outSpine s0 (execHoldLimitExceeded s0) = s0.spine := by
  unfold execHoldLimitExceeded
  with_reducible repeat' first
    | assumption
    | rfl
    | rw [outSpine_next]
    | (extract_lets +onlyGivenNames y; clear_value y)
    | refine ite_spine ?_ ?_
    | refine ite_out ?_ ?_
    | (simp only [*, level_spine, spine_mk, spine_eta, outSpine_next]; done)
    | split
    | (simp [*]; done)
    | simp only [*, level_spine, spine_mk, spine_eta, outSpine_next]

@[simp] theorem modSrc_spine {s0 x1 x2} : (State.modSrc s0 x1 x2).spine = s0.spine := by
  unfold State.modSrc
  simp only [spine_mk, spine_eta]

@[simp] theorem srcLevels_spine {s0} : (State.srcLevels s0).spine = s0.spine := by
  unfold State.srcLevels
  with_reducible repeat' first
    | assumption
    | rfl
    | (refine (foldl_spine ?_).trans ?_; on_goal 1 => intro s0 _)
    | (simp only [*, level_spine, spine_mk, spine_eta]; done)
    | split
    | (simp [*]; done)
    | simp only [*, level_spine, spine_mk, spine_eta]

@[simp] theorem pickSource_spine {s0 x1 x2} : (State.pickSource s0 x1 x2).spine = s0.spine := by
  unfold State.pickSource
  simp only [spine_mk, spine_eta]

@[simp] theorem regrid_spine {s0} : (State.regrid s0).spine = s0.spine := by
  unfold State.regrid
  simp only [spine_mk, spine_eta]

@[simp] theorem dropSourceSteps_spine {s0} : (State.dropSourceSteps s0).spine = s0.spine := by
  unfold State.dropSourceSteps
  simp only [spine_mk, spine_eta]

@[simp] theorem takeSource_spine {s0 x1} : (State.takeSource s0 x1).spine = s0.spine := by
  unfold State.takeSource
  with_reducible repeat' first
    | assumption
    | rfl
    | (extract_lets +onlyGivenNames y
       refine (show (y.spine = s0.spine → _) from fun h => ?_) ?_
       on_goal 1 => clear_value y
       on_goal 2 => (simp only [y]; try clear y))
    | (extract_lets +onlyGivenNames y; clear_value y)
    | refine ite_spine ?_ ?_
    | (simp only [*, dropSourceSteps_spine, pulse_spine, enterHoldover_spine, startSlew_spine, leaveHoldover_spine, pickSource_spine, modSrc_spine, stepDue_spine, removeOffset_spine, spine_mk, spine_eta]; done)
    | split
    | (simp [*]; done)
    | simp only [*, dropSourceSteps_spine, pulse_spine, enterHoldover_spine, startSlew_spine, leaveHoldover_spine, pickSource_spine, modSrc_spine, stepDue_spine, removeOffset_spine, spine_mk, spine_eta]

@[simp] theorem selectSource_spine {s0} : (State.selectSource s0).spine = s0.spine := by
  unfold State.selectSource
  with_reducible repeat' first
    | assumption
    | rfl
    | (extract_lets +onlyGivenNames y
       refine (show (y.spine = s0.spine → _) from fun h => ?_) ?_
       on_goal 1 => clear_value y
       on_goal 2 => (simp only [y]; try clear y))
    | (extract_lets +onlyGivenNames y; clear_value y)
    | refine ite_spine ?_ ?_
    | (simp only [*, srcLevels_spine, takeSource_spine, spine_mk, spine_eta]; done)
    | split
    | (simp [*]; done)
    | simp only [*, srcLevels_spine, takeSource_spine, spine_mk, spine_eta]

@[simp] theorem execSourcePromote_spine {s0} : outSpine s0 (execSourcePromote s0) = s0.spine := by
  unfold execSourcePromote
  with_reducible repeat' first
    | assumption
    | rfl
    | rw [outSpine_next]
    | (extract_lets +onlyGivenNames y
       refine (show (y.spine = s0.spine → _) from fun h => ?_) ?_
       on_goal 1 => clear_value y
       on_goal 2 => (simp only [y]; try clear y))
    | (extract_lets +onlyGivenNames y; clear_value y)
    | refine ite_spine ?_ ?_
    | refine ite_out ?_ ?_
    | (simp only [*, takeSource_spine, spine_mk, spine_eta, outSpine_next]; done)
    | split
    | (simp [*]; done)
    | simp only [*, takeSource_spine, spine_mk, spine_eta, outSpine_next]

@[simp] theorem loseSource_spine {s0 x1} : (State.loseSource s0 x1).spine = s0.spine := by
  unfold State.loseSource
  simp only [selectSource_spine, modSrc_spine, spine_mk, spine_eta]

@[simp] theorem qualify_spine {s0 x1} : (State.qualify s0 x1).spine = s0.spine := by
  unfold State.qualify
  with_reducible repeat' first
    | assumption
    | rfl
    | (extract_lets +onlyGivenNames y; clear_value y)
    | refine ite_spine ?_ ?_
    | (simp only [*, selectSource_spine, modSrc_spine, spine_mk, spine_eta]; done)
    | split
    | (simp [*]; done)
    | simp only [*, selectSource_spine, modSrc_spine, spine_mk, spine_eta]

@[simp] theorem steerRate_spine {s0} : (State.steerRate s0).spine = s0.spine := by
  unfold State.steerRate
  simp only [drawRate_spine, spine_mk, spine_eta]

@[simp] theorem acceptSample_spine {s0 x1 x2 x3} : (State.acceptSample s0 x1 x2 x3).spine = s0.spine := by
  unfold State.acceptSample
  with_reducible repeat' first
    | assumption
    | rfl
    | (extract_lets +onlyGivenNames y
       refine (show (y.spine = s0.spine → _) from fun h => ?_) ?_
       on_goal 1 => clear_value y
       on_goal 2 => (simp only [y]; try clear y))
    | (extract_lets +onlyGivenNames y; clear_value y)
    | refine ite_spine ?_ ?_
    | (simp only [*, modSrc_spine, steerRate_spine, removeOffset_spine, spine_mk, spine_eta]; done)
    | split
    | (simp [*]; done)
    | simp only [*, modSrc_spine, steerRate_spine, removeOffset_spine, spine_mk, spine_eta]

@[simp] theorem offsetSample_spine {s0 x1 x2} : (State.offsetSample s0 x1 x2).spine = s0.spine := by
  unfold State.offsetSample
  with_reducible repeat' first
    | assumption
    | rfl
    | (extract_lets +onlyGivenNames y
       refine (show (y.spine = s0.spine → _) from fun h => ?_) ?_
       on_goal 1 => clear_value y
       on_goal 2 => (simp only [y]; try clear y))
    | (extract_lets +onlyGivenNames y; clear_value y)
    | refine ite_spine ?_ ?_
    | (simp only [*, acceptSample_spine, pulse_spine, modSrc_spine, spine_mk, spine_eta]; done)
    | split
    | (simp [*]; done)
    | simp only [*, acceptSample_spine, pulse_spine, modSrc_spine, spine_mk, spine_eta]

@[simp] theorem mortarExchange_spine {s0 x1} : (State.mortarExchange s0 x1).spine = s0.spine := by
  unfold State.mortarExchange
  with_reducible repeat' first
    | assumption
    | rfl
    | (extract_lets +onlyGivenNames y
       refine (show (y.spine = s0.spine → _) from fun h => ?_) ?_
       on_goal 1 => clear_value y
       on_goal 2 => (simp only [y]; try clear y))
    | (extract_lets +onlyGivenNames y; clear_value y)
    | refine ite_spine ?_ ?_
    | (simp only [*, modSrc_spine, offsetSample_spine, qualify_spine, spine_mk, spine_eta]; done)
    | split
    | (simp [*]; done)
    | simp only [*, modSrc_spine, offsetSample_spine, qualify_spine, spine_mk, spine_eta]

@[simp] theorem execMortarSourceLoss_spine {s0} : outSpine s0 (execMortarSourceLoss s0) = s0.spine := by
  unfold execMortarSourceLoss
  with_reducible repeat' first
    | assumption
    | rfl
    | rw [outSpine_next]
    | (extract_lets +onlyGivenNames y
       refine (show (y.spine = s0.spine → _) from fun h => ?_) ?_
       on_goal 1 => clear_value y
       on_goal 2 => (simp only [y]; try clear y))
    | (extract_lets +onlyGivenNames y; clear_value y)
    | refine ite_spine ?_ ?_
    | refine ite_out ?_ ?_
    | (simp only [*, loseSource_spine, spine_mk, spine_eta, outSpine_next]; done)
    | split
    | (simp [*]; done)
    | simp only [*, loseSource_spine, spine_mk, spine_eta, outSpine_next]

@[simp] theorem setUtcOffset_spine {s0 x1 x2} : (State.setUtcOffset s0 x1 x2).spine = s0.spine := by
  unfold State.setUtcOffset
  with_reducible repeat' first
    | assumption
    | rfl
    | (extract_lets +onlyGivenNames y; clear_value y)
    | refine ite_spine ?_ ?_
    | (simp only [*, pulse_spine, timeLog_spine, spine_mk, spine_eta]; done)
    | split
    | (simp [*]; done)
    | simp only [*, pulse_spine, timeLog_spine, spine_mk, spine_eta]

@[simp] theorem followMaster_spine {s0 x1} : (State.followMaster s0 x1).spine = s0.spine := by
  unfold State.followMaster
  with_reducible repeat' first
    | assumption
    | rfl
    | (extract_lets +onlyGivenNames y
       refine (show (y.spine = s0.spine → _) from fun h => ?_) ?_
       on_goal 1 => clear_value y
       on_goal 2 => (simp only [y]; try clear y))
    | (extract_lets +onlyGivenNames y; clear_value y)
    | refine ite_spine ?_ ?_
    | (simp only [*, modSrc_spine, spine_mk, spine_eta]; done)
    | split
    | (simp [*]; done)
    | simp only [*, modSrc_spine, spine_mk, spine_eta]

@[simp] theorem execPtpAnnounce_spine {x1 s0} : outSpine s0 (execPtpAnnounce x1 s0) = s0.spine := by
  unfold execPtpAnnounce
  with_reducible repeat' first
    | assumption
    | rfl
    | rw [outSpine_next]
    | (extract_lets +onlyGivenNames y
       refine (show (y.spine = s0.spine → _) from fun h => ?_) ?_
       on_goal 1 => clear_value y
       on_goal 2 => (simp only [y]; try clear y))
    | (extract_lets +onlyGivenNames y; clear_value y)
    | refine ite_spine ?_ ?_
    | refine ite_out ?_ ?_
    | (simp only [*, followMaster_spine, setUtcOffset_spine, spine_mk, spine_eta, outSpine_next]; done)
    | split
    | (simp [*]; done)
    | simp only [*, followMaster_spine, setUtcOffset_spine, spine_mk, spine_eta, outSpine_next]

@[simp] theorem ptpOffset_spine {s0 x1} : (State.ptpOffset s0 x1).spine = s0.spine := by
  unfold State.ptpOffset
  with_reducible repeat' first
    | assumption
    | rfl
    | (extract_lets +onlyGivenNames y
       refine (show (y.spine = s0.spine → _) from fun h => ?_) ?_
       on_goal 1 => clear_value y
       on_goal 2 => (simp only [y]; try clear y))
    | (extract_lets +onlyGivenNames y; clear_value y)
    | (simp only [*, offsetSample_spine, spine_mk, spine_eta]; done)
    | split
    | (simp [*]; done)
    | simp only [*, offsetSample_spine, spine_mk, spine_eta]

@[simp] theorem ptpQualify_spine {s0} : (State.ptpQualify s0).spine = s0.spine := by
  unfold State.ptpQualify
  with_reducible repeat' first
    | assumption
    | rfl
    | refine ite_spine ?_ ?_
    | (simp only [*, qualify_spine, spine_mk, spine_eta]; done)
    | split
    | (simp [*]; done)
    | simp only [*, qualify_spine, spine_mk, spine_eta]

@[simp] theorem execPtpSync_spine {x1 s0} : outSpine s0 (execPtpSync x1 s0) = s0.spine := by
  unfold execPtpSync
  with_reducible repeat' first
    | assumption
    | rfl
    | rw [outSpine_next]
    | (extract_lets +onlyGivenNames y
       refine (show (y.spine = s0.spine → _) from fun h => ?_) ?_
       on_goal 1 => clear_value y
       on_goal 2 => (simp only [y]; try clear y))
    | (extract_lets +onlyGivenNames y; clear_value y)
    | refine ite_spine ?_ ?_
    | refine ite_out ?_ ?_
    | (simp only [*, modSrc_spine, ptpQualify_spine, ptpOffset_spine, spine_mk, spine_eta, outSpine_next]; done)
    | split
    | (simp [*]; done)
    | simp only [*, modSrc_spine, ptpQualify_spine, ptpOffset_spine, spine_mk, spine_eta, outSpine_next]

@[simp] theorem execPtpFollowUp_spine {x1 s0} : outSpine s0 (execPtpFollowUp x1 s0) = s0.spine := by
  unfold execPtpFollowUp
  with_reducible repeat' first
    | assumption
    | rfl
    | rw [outSpine_next]
    | (extract_lets +onlyGivenNames y; clear_value y)
    | refine ite_spine ?_ ?_
    | refine ite_out ?_ ?_
    | (simp only [*, ptpQualify_spine, ptpOffset_spine, spine_mk, spine_eta, outSpine_next]; done)
    | split
    | (simp [*]; done)
    | simp only [*, ptpQualify_spine, ptpOffset_spine, spine_mk, spine_eta, outSpine_next]

@[simp] theorem execPtpDelayReqSend_spine {x1 x2 s0} : outSpine s0 (execPtpDelayReqSend x1 x2 s0) = s0.spine := by
  unfold execPtpDelayReqSend
  with_reducible repeat' first
    | assumption
    | rfl
    | rw [outSpine_next]
    | (extract_lets +onlyGivenNames y; clear_value y)
    | refine ite_spine ?_ ?_
    | refine ite_out ?_ ?_
    | (simp only [*, spine_mk, spine_eta, outSpine_next]; done)
    | split
    | (simp [*]; done)
    | simp only [*, spine_mk, spine_eta, outSpine_next]

@[simp] theorem execPtpDelayResp_spine {x1 x2 s0} : outSpine s0 (execPtpDelayResp x1 x2 s0) = s0.spine := by
  unfold execPtpDelayResp
  with_reducible repeat' first
    | assumption
    | rfl
    | rw [outSpine_next]
    | (extract_lets +onlyGivenNames y
       refine (show (y.spine = s0.spine → _) from fun h => ?_) ?_
       on_goal 1 => clear_value y
       on_goal 2 => (simp only [y]; try clear y))
    | (extract_lets +onlyGivenNames y; clear_value y)
    | refine ite_spine ?_ ?_
    | refine ite_out ?_ ?_
    | (simp only [*, spine_mk, spine_eta, outSpine_next]; done)
    | split
    | (simp [*]; done)
    | simp only [*, spine_mk, spine_eta, outSpine_next]

@[simp] theorem execPtpAnnounceTimeout_spine {s0} : outSpine s0 (execPtpAnnounceTimeout s0) = s0.spine := by
  unfold execPtpAnnounceTimeout
  with_reducible repeat' first
    | assumption
    | rfl
    | rw [outSpine_next]
    | (extract_lets +onlyGivenNames y
       refine (show (y.spine = s0.spine → _) from fun h => ?_) ?_
       on_goal 1 => clear_value y
       on_goal 2 => (simp only [y]; try clear y))
    | (extract_lets +onlyGivenNames y; clear_value y)
    | refine ite_spine ?_ ?_
    | refine ite_out ?_ ?_
    | (simp only [*, loseSource_spine, spine_mk, spine_eta, outSpine_next]; done)
    | split
    | (simp [*]; done)
    | simp only [*, loseSource_spine, spine_mk, spine_eta, outSpine_next]

@[simp] theorem execPpsInEdge_spine {x1 s0} : outSpine s0 (execPpsInEdge x1 s0) = s0.spine := by
  unfold execPpsInEdge
  with_reducible repeat' first
    | assumption
    | rfl
    | rw [outSpine_next]
    | (extract_lets +onlyGivenNames y
       refine (show (y.spine = s0.spine → _) from fun h => ?_) ?_
       on_goal 1 => clear_value y
       on_goal 2 => (simp only [y]; try clear y))
    | (extract_lets +onlyGivenNames y; clear_value y)
    | refine ite_spine ?_ ?_
    | refine ite_out ?_ ?_
    | (simp only [*, modSrc_spine, offsetSample_spine, qualify_spine, spine_mk, spine_eta, outSpine_next]; done)
    | split
    | (simp [*]; done)
    | simp only [*, modSrc_spine, offsetSample_spine, qualify_spine, spine_mk, spine_eta, outSpine_next]

@[simp] theorem execPpsInLoss_spine {s0} : outSpine s0 (execPpsInLoss s0) = s0.spine := by
  unfold execPpsInLoss
  with_reducible repeat' first
    | assumption
    | rfl
    | rw [outSpine_next]
    | (extract_lets +onlyGivenNames y
       refine (show (y.spine = s0.spine → _) from fun h => ?_) ?_
       on_goal 1 => clear_value y
       on_goal 2 => (simp only [y]; try clear y))
    | (extract_lets +onlyGivenNames y; clear_value y)
    | refine ite_spine ?_ ?_
    | refine ite_out ?_ ?_
    | (simp only [*, loseSource_spine, spine_mk, spine_eta, outSpine_next]; done)
    | split
    | (simp [*]; done)
    | simp only [*, loseSource_spine, spine_mk, spine_eta, outSpine_next]

@[simp] theorem execMainsQualify_spine {s0} : outSpine s0 (execMainsQualify s0) = s0.spine := by
  unfold execMainsQualify
  with_reducible repeat' first
    | assumption
    | rfl
    | rw [outSpine_next]
    | (extract_lets +onlyGivenNames y; clear_value y)
    | refine ite_spine ?_ ?_
    | refine ite_out ?_ ?_
    | (simp only [*, qualify_spine, spine_mk, spine_eta, outSpine_next]; done)
    | split
    | (simp [*]; done)
    | simp only [*, qualify_spine, spine_mk, spine_eta, outSpine_next]

@[simp] theorem mainsRestart_spine {s0} : (State.mainsRestart s0).spine = s0.spine := by
  unfold State.mainsRestart
  with_reducible repeat' first
    | assumption
    | rfl
    | (extract_lets +onlyGivenNames y
       refine (show (y.spine = s0.spine → _) from fun h => ?_) ?_
       on_goal 1 => clear_value y
       on_goal 2 => (simp only [y]; try clear y))
    | (extract_lets +onlyGivenNames y; clear_value y)
    | refine ite_spine ?_ ?_
    | (simp only [*, loseSource_spine, spine_mk, spine_eta]; done)
    | split
    | (simp [*]; done)
    | simp only [*, loseSource_spine, spine_mk, spine_eta]

@[simp] theorem mainsBoundary_spine {s0 x1 x2} : (State.mainsBoundary s0 x1 x2).spine = s0.spine := by
  unfold State.mainsBoundary
  with_reducible repeat' first
    | assumption
    | rfl
    | (extract_lets +onlyGivenNames y
       refine (show (y.spine = s0.spine → _) from fun h => ?_) ?_
       on_goal 1 => clear_value y
       on_goal 2 => (simp only [y]; try clear y))
    | (extract_lets +onlyGivenNames y; clear_value y)
    | refine ite_spine ?_ ?_
    | (simp only [*, mainsRestart_spine, spine_mk, spine_eta]; done)
    | split
    | (simp [*]; done)
    | simp only [*, mainsRestart_spine, spine_mk, spine_eta]

@[simp] theorem execPpsOutPulse_spine {s0} : outSpine s0 (execPpsOutPulse s0) = s0.spine := by
  unfold execPpsOutPulse
  with_reducible repeat' first
    | assumption
    | rfl
    | rw [outSpine_next]
    | (extract_lets +onlyGivenNames y
       refine (show (y.spine = s0.spine → _) from fun h => ?_) ?_
       on_goal 1 => clear_value y
       on_goal 2 => (simp only [y]; try clear y))
    | (extract_lets +onlyGivenNames y; clear_value y)
    | refine ite_spine ?_ ?_
    | refine ite_out ?_ ?_
    | (simp only [*, spine_mk, spine_eta, outSpine_next]; done)
    | split
    | (simp [*]; done)
    | simp only [*, spine_mk, spine_eta, outSpine_next]

@[simp] theorem execPpsOutWidthEnd_spine {s0} : outSpine s0 (execPpsOutWidthEnd s0) = s0.spine := by
  unfold execPpsOutWidthEnd
  with_reducible repeat' first
    | assumption
    | rfl
    | rw [outSpine_next]
    | (extract_lets +onlyGivenNames y; clear_value y)
    | refine ite_spine ?_ ?_
    | refine ite_out ?_ ?_
    | (simp only [*, spine_mk, spine_eta, outSpine_next]; done)
    | split
    | (simp [*]; done)
    | simp only [*, spine_mk, spine_eta, outSpine_next]

@[simp] theorem scheduleLeap_spine {s0 x1} : (State.scheduleLeap s0 x1).spine = s0.spine := by
  unfold State.scheduleLeap
  simp only [level_spine, spine_mk, spine_eta]

@[simp] theorem execLeapSecondApply_spine {s0} : outSpine s0 (execLeapSecondApply s0) = s0.spine := by
  unfold execLeapSecondApply
  with_reducible repeat' first
    | assumption
    | rfl
    | rw [outSpine_next]
    | (extract_lets +onlyGivenNames y
       refine (show (y.spine = s0.spine → _) from fun h => ?_) ?_
       on_goal 1 => clear_value y
       on_goal 2 => (simp only [y]; try clear y))
    | (extract_lets +onlyGivenNames y; clear_value y)
    | refine ite_spine ?_ ?_
    | refine ite_out ?_ ?_
    | (simp only [*, setUtcOffset_spine, level_spine, spine_mk, spine_eta, outSpine_next]; done)
    | split
    | (simp [*]; done)
    | simp only [*, setUtcOffset_spine, level_spine, spine_mk, spine_eta, outSpine_next]

@[simp] theorem execXtalFault_spine {s0} : outSpine s0 (execXtalFault s0) = s0.spine := by
  unfold execXtalFault
  with_reducible repeat' first
    | assumption
    | rfl
    | rw [outSpine_next]
    | (extract_lets +onlyGivenNames y; clear_value y)
    | refine ite_spine ?_ ?_
    | refine ite_out ?_ ?_
    | (simp only [*, f1_spine, level_spine, spine_mk, spine_eta, outSpine_next]; done)
    | split
    | (simp [*]; done)
    | simp only [*, f1_spine, level_spine, spine_mk, spine_eta, outSpine_next]

@[simp] theorem execXtalRecover_spine {s0} : outSpine s0 (execXtalRecover s0) = s0.spine := by
  unfold execXtalRecover
  with_reducible repeat' first
    | assumption
    | rfl
    | rw [outSpine_next]
    | (extract_lets +onlyGivenNames y; clear_value y)
    | refine ite_spine ?_ ?_
    | refine ite_out ?_ ?_
    | (simp only [*, level_spine, spine_mk, spine_eta, outSpine_next]; done)
    | split
    | (simp [*]; done)
    | simp only [*, level_spine, spine_mk, spine_eta, outSpine_next]

@[simp] theorem execRtcOscFault_spine {s0} : outSpine s0 (execRtcOscFault s0) = s0.spine := by
  unfold execRtcOscFault
  with_reducible repeat' first
    | assumption
    | rfl
    | rw [outSpine_next]
    | (extract_lets +onlyGivenNames y; clear_value y)
    | refine ite_spine ?_ ?_
    | refine ite_out ?_ ?_
    | (simp only [*, holdRate_spine, f1_spine, level_spine, spine_mk, spine_eta, outSpine_next]; done)
    | split
    | (simp [*]; done)
    | simp only [*, holdRate_spine, f1_spine, level_spine, spine_mk, spine_eta, outSpine_next]

@[simp] theorem timeGetBody_spine {x1 x2 s0} : (timeGetBody x1 x2 s0).1.spine = s0.spine := by
  unfold timeGetBody
  with_reducible repeat' first
    | assumption
    | rfl
    | (extract_lets +onlyGivenNames y
       refine (show (y.spine = s0.spine → _) from fun h => ?_) ?_
       on_goal 1 => clear_value y
       on_goal 2 => (simp only [y]; try clear y))
    | (extract_lets +onlyGivenNames y
       refine (show (y.1.spine = s0.spine → _) from fun h => ?_) ?_
       on_goal 1 => clear_value y
       on_goal 2 => (simp only [y]; try clear y))
    | (extract_lets +onlyGivenNames y; clear_value y)
    | (refine fixedBody_spine ?_; intro _ _ s0)
    | refine ite_spine ?_ ?_
    | refine ite_fst ?_ ?_
    | (simp only [*, fixedBody_spine, spine_mk, spine_eta]; done)
    | (split <;> (try (rename_i q; obtain ⟨q1, q2⟩ := Prod.ext_iff.mp q; simp only at q1 q2; subst q1 q2)))
    | (simp [*]; done)
    | simp only [*, fixedBody_spine, spine_mk, spine_eta]

@[simp] theorem execTimeGet_spine {x1 s0} : outSpine s0 (execTimeGet x1 s0) = s0.spine := by
  unfold execTimeGet
  with_reducible repeat' first
    | assumption
    | rfl
    | rw [outSpine_next]
    | (simp only [*, command_spine, timeGetBody_spine, spine_mk, spine_eta, outSpine_next]; done)
    | (split <;> (try (rename_i q; obtain ⟨q1, q2⟩ := Prod.ext_iff.mp q; simp only at q1 q2; subst q1 q2)))
    | (simp [*]; done)
    | simp only [*, command_spine, timeGetBody_spine, spine_mk, spine_eta, outSpine_next]

@[simp] theorem timeLogReadBody_spine {x1 x2 s0} : (timeLogReadBody x1 x2 s0).1.spine = s0.spine := by
  unfold timeLogReadBody
  with_reducible repeat' first
    | assumption
    | rfl
    | (extract_lets +onlyGivenNames y
       refine (show (y.spine = s0.spine → _) from fun h => ?_) ?_
       on_goal 1 => clear_value y
       on_goal 2 => (simp only [y]; try clear y))
    | (extract_lets +onlyGivenNames y
       refine (show (y.1.spine = s0.spine → _) from fun h => ?_) ?_
       on_goal 1 => clear_value y
       on_goal 2 => (simp only [y]; try clear y))
    | (extract_lets +onlyGivenNames y; clear_value y)
    | (refine fixedBody_spine ?_; intro _ _ s0)
    | refine ite_spine ?_ ?_
    | refine ite_fst ?_ ?_
    | (simp only [*, fixedBody_spine, readBody_spine, spine_mk, spine_eta]; done)
    | (split <;> (try (rename_i q; obtain ⟨q1, q2⟩ := Prod.ext_iff.mp q; simp only at q1 q2; subst q1 q2)))
    | (simp [*]; done)
    | simp only [*, fixedBody_spine, readBody_spine, spine_mk, spine_eta]

@[simp] theorem execTimeLogRead_spine {x1 s0} : outSpine s0 (execTimeLogRead x1 s0) = s0.spine := by
  unfold execTimeLogRead
  with_reducible repeat' first
    | assumption
    | rfl
    | rw [outSpine_next]
    | (simp only [*, command_spine, timeLogReadBody_spine, spine_mk, spine_eta, outSpine_next]; done)
    | (split <;> (try (rename_i q; obtain ⟨q1, q2⟩ := Prod.ext_iff.mp q; simp only at q1 q2; subst q1 q2)))
    | (simp [*]; done)
    | simp only [*, command_spine, timeLogReadBody_spine, spine_mk, spine_eta, outSpine_next]

@[simp] theorem holdAfterSet_spine {s0 x1} : (State.holdAfterSet s0 x1).spine = s0.spine := by
  unfold State.holdAfterSet
  with_reducible repeat' first
    | assumption
    | rfl
    | (extract_lets +onlyGivenNames y
       refine (show (y.spine = s0.spine → _) from fun h => ?_) ?_
       on_goal 1 => clear_value y
       on_goal 2 => (simp only [y]; try clear y))
    | (extract_lets +onlyGivenNames y
       refine (show (y.2.spine = s0.spine → _) from fun h => ?_) ?_
       on_goal 1 => clear_value y
       on_goal 2 => (simp only [y]; try clear y))
    | (extract_lets +onlyGivenNames y; clear_value y)
    | refine ite_spine ?_ ?_
    | (simp only [*, draw_spine, enterHoldover_spine, spine_mk, spine_eta]; done)
    | (split <;> (try (rename_i q; obtain ⟨q1, q2⟩ := Prod.ext_iff.mp q; simp only at q1 q2; subst q1 q2)))
    | (simp [*]; done)
    | simp only [*, draw_spine, enterHoldover_spine, spine_mk, spine_eta]

@[simp] theorem applyStep_spine {s0 x1 x2 x3} : (State.applyStep s0 x1 x2 x3).spine = s0.spine := by
  unfold State.applyStep
  with_reducible repeat' first
    | assumption
    | rfl
    | (extract_lets +onlyGivenNames y
       refine (show (y.spine = s0.spine → _) from fun h => ?_) ?_
       on_goal 1 => clear_value y
       on_goal 2 => (simp only [y]; try clear y))
    | (extract_lets +onlyGivenNames y; clear_value y)
    | refine ite_spine ?_ ?_
    | (simp only [*, becomeValid_spine, timeStep_spine, regrid_spine, holdAfterSet_spine, startSlew_spine, spine_mk, spine_eta]; done)
    | split
    | (simp [*]; done)
    | simp only [*, becomeValid_spine, timeStep_spine, regrid_spine, holdAfterSet_spine, startSlew_spine, spine_mk, spine_eta]

@[simp] theorem timeSetApply_spine {x1 s0} : (timeSetApply x1 s0).1.spine = s0.spine := by
  unfold timeSetApply
  dsimp only
  split
  · exact applyStep_spine
  · split
    · exact startSlew_spine
    · exact applyStep_spine
  · dsimp only
    rw [scheduleLeap_spine, setUtcOffset_spine]

@[simp] theorem timeChange_spine {s0 x1} : (State.timeChange s0 x1).spine = s0.spine := by
  unfold State.timeChange
  with_reducible repeat' first
    | assumption
    | rfl
    | (extract_lets +onlyGivenNames y
       refine (show (y.spine = s0.spine → _) from fun h => ?_) ?_
       on_goal 1 => clear_value y
       on_goal 2 => (simp only [y]; try clear y))
    | (extract_lets +onlyGivenNames y
       refine (show (y.1.spine = s0.spine → _) from fun h => ?_) ?_
       on_goal 1 => clear_value y
       on_goal 2 => (simp only [y]; try clear y))
    | (extract_lets +onlyGivenNames y; clear_value y)
    | refine ite_spine ?_ ?_
    | (simp only [*, applyStep_spine, timeSetApply_spine, finishHeld_spine, spine_mk, spine_eta]; done)
    | (split <;> (try (rename_i q; obtain ⟨q1, q2⟩ := Prod.ext_iff.mp q; simp only at q1 q2; subst q1 q2)))
    | (simp [*]; done)
    | simp only [*, applyStep_spine, timeSetApply_spine, finishHeld_spine, spine_mk, spine_eta]

@[simp] theorem timeChanges_spine {s0} : (State.timeChanges s0).spine = s0.spine := by
  unfold State.timeChanges
  with_reducible repeat' first
    | assumption
    | rfl
    | (extract_lets +onlyGivenNames y; clear_value y)
    | (refine (foldl_spine ?_).trans ?_; on_goal 1 => intro s0 _)
    | (simp only [*, timeChange_spine, spine_mk, spine_eta]; done)
    | split
    | (simp [*]; done)
    | simp only [*, timeChange_spine, spine_mk, spine_eta]

@[simp] theorem timeSetBody_spine {x1 x2 s0} : (timeSetBody x1 x2 s0).1.spine = s0.spine := by
  unfold timeSetBody
  with_reducible repeat' first
    | assumption
    | rfl
    | (extract_lets +onlyGivenNames y
       refine (show (y.spine = s0.spine → _) from fun h => ?_) ?_
       on_goal 1 => clear_value y
       on_goal 2 => (simp only [y]; try clear y))
    | (extract_lets +onlyGivenNames y
       refine (show (y.1.spine = s0.spine → _) from fun h => ?_) ?_
       on_goal 1 => clear_value y
       on_goal 2 => (simp only [y]; try clear y))
    | (extract_lets +onlyGivenNames y; clear_value y)
    | (refine fixedBody_spine ?_; intro _ _ s0)
    | refine ite_spine ?_ ?_
    | refine ite_fst ?_ ?_
    | (simp only [*, fixedBody_spine, spine_mk, spine_eta]; done)
    | (split <;> (try (rename_i q; obtain ⟨q1, q2⟩ := Prod.ext_iff.mp q; simp only at q1 q2; subst q1 q2)))
    | (simp [*]; done)
    | simp only [*, fixedBody_spine, spine_mk, spine_eta]

@[simp] theorem execTimeSet_spine {x1 s0} : outSpine s0 (execTimeSet x1 s0) = s0.spine := by
  unfold execTimeSet
  with_reducible repeat' first
    | assumption
    | rfl
    | rw [outSpine_next]
    | (simp only [*, command_spine, timeSetBody_spine, spine_mk, spine_eta, outSpine_next]; done)
    | (split <;> (try (rename_i q; obtain ⟨q1, q2⟩ := Prod.ext_iff.mp q; simp only at q1 q2; subst q1 q2)))
    | (simp [*]; done)
    | simp only [*, command_spine, timeSetBody_spine, spine_mk, spine_eta, outSpine_next]

@[simp] theorem clockTick_spine {s0} : (State.clockTick s0).spine = s0.spine := by
  unfold State.clockTick
  with_reducible repeat' first
    | assumption
    | rfl
    | (extract_lets +onlyGivenNames y
       refine (show (y.spine = s0.spine → _) from fun h => ?_) ?_
       on_goal 1 => clear_value y
       on_goal 2 => (simp only [y]; try clear y))
    | (extract_lets +onlyGivenNames y
       have hk : Kiln.ph y = Kiln.ph (State.kiln _) := rfl
       clear_value y)
    | (extract_lets +onlyGivenNames y; clear_value y)
    | refine ite_spine ?_ ?_
    | (simp only [*, spine_mk, spine_eta]; done)
    | split
    | (simp [*]; done)
    | simp only [*, spine_mk, spine_eta]

@[simp] theorem alarms_spine {s0} : (State.alarms s0).spine = s0.spine := by
  unfold State.alarms
  with_reducible repeat' first
    | assumption
    | rfl
    | (extract_lets +onlyGivenNames y
       refine (show (y.spine = s0.spine → _) from fun h => ?_) ?_
       on_goal 1 => clear_value y
       on_goal 2 => (simp only [y]; try clear y))
    | (extract_lets +onlyGivenNames y; clear_value y)
    | refine ite_spine ?_ ?_
    | (simp only [*, pulse_spine, spine_mk, spine_eta]; done)
    | split
    | (simp [*]; done)
    | simp only [*, pulse_spine, spine_mk, spine_eta]

@[simp] theorem execRtcCountTick_spine {s0} : outSpine s0 (execRtcCountTick s0) = s0.spine := by
  unfold execRtcCountTick
  with_reducible repeat' first
    | assumption
    | rfl
    | rw [outSpine_next]
    | (extract_lets +onlyGivenNames y
       refine (show (y.spine = s0.spine → _) from fun h => ?_) ?_
       on_goal 1 => clear_value y
       on_goal 2 => (simp only [y]; try clear y))
    | (extract_lets +onlyGivenNames y; clear_value y)
    | refine ite_spine ?_ ?_
    | refine ite_out ?_ ?_
    | (simp only [*, holdRate_spine, alarms_spine, spine_mk, spine_eta, outSpine_next]; done)
    | split
    | (simp [*]; done)
    | simp only [*, holdRate_spine, alarms_spine, spine_mk, spine_eta, outSpine_next]

@[simp] theorem execRtcSecondCompare_spine {s0} : outSpine s0 (execRtcSecondCompare s0) = s0.spine := by
  unfold execRtcSecondCompare
  with_reducible repeat' first
    | assumption
    | rfl
    | rw [outSpine_next]
    | (extract_lets +onlyGivenNames y
       refine (show (y.spine = s0.spine → _) from fun h => ?_) ?_
       on_goal 1 => clear_value y
       on_goal 2 => (simp only [y]; try clear y))
    | (extract_lets +onlyGivenNames y; clear_value y)
    | refine ite_spine ?_ ?_
    | refine ite_out ?_ ?_
    | (simp only [*, pulse_spine, spine_mk, spine_eta, outSpine_next]; done)
    | split
    | (simp [*]; done)
    | simp only [*, pulse_spine, spine_mk, spine_eta, outSpine_next]

@[simp] theorem execRtcTrimLearn_spine {x1 s0} : outSpine s0 (execRtcTrimLearn x1 s0) = s0.spine := by
  unfold execRtcTrimLearn
  with_reducible repeat' first
    | assumption
    | rfl
    | rw [outSpine_next]
    | (extract_lets +onlyGivenNames y
       refine (show (y.spine = s0.spine → _) from fun h => ?_) ?_
       on_goal 1 => clear_value y
       on_goal 2 => (simp only [y]; try clear y))
    | (extract_lets +onlyGivenNames y; clear_value y)
    | refine ite_spine ?_ ?_
    | refine ite_out ?_ ?_
    | (simp only [*, pulse_spine, spine_mk, spine_eta, outSpine_next]; done)
    | split
    | (simp [*]; done)
    | simp only [*, pulse_spine, spine_mk, spine_eta, outSpine_next]

@[simp] theorem execBackupToVbat_spine {x1 x2 s0} : outSpine s0 (execBackupToVbat x1 x2 s0) = s0.spine := by
  unfold execBackupToVbat
  with_reducible repeat' first
    | assumption
    | rfl
    | rw [outSpine_next]
    | (extract_lets +onlyGivenNames y; clear_value y)
    | refine ite_spine ?_ ?_
    | refine ite_out ?_ ?_
    | (simp only [*, spine_mk, spine_eta, outSpine_next]; done)
    | split
    | (simp [*]; done)
    | simp only [*, spine_mk, spine_eta, outSpine_next]

@[simp] theorem execBackupToVmain_spine {x1 x2 s0} : outSpine s0 (execBackupToVmain x1 x2 s0) = s0.spine := by
  unfold execBackupToVmain
  with_reducible repeat' first
    | assumption
    | rfl
    | rw [outSpine_next]
    | (extract_lets +onlyGivenNames y; clear_value y)
    | refine ite_spine ?_ ?_
    | refine ite_out ?_ ?_
    | (simp only [*, spine_mk, spine_eta, outSpine_next]; done)
    | split
    | (simp [*]; done)
    | simp only [*, spine_mk, spine_eta, outSpine_next]

@[simp] theorem execVbatCheck_spine {x1 s0} : outSpine s0 (execVbatCheck x1 s0) = s0.spine := by
  unfold execVbatCheck
  simp only [level_spine, spine_mk, spine_eta, outSpine_next]

@[simp] theorem execBackupPor_spine {x1 s0} : outSpine s0 (execBackupPor x1 s0) = s0.spine := by
  unfold execBackupPor
  with_reducible repeat' first
    | assumption
    | rfl
    | rw [outSpine_next]
    | (extract_lets +onlyGivenNames y; clear_value y)
    | refine ite_spine ?_ ?_
    | refine ite_out ?_ ?_
    | (simp only [*, spine_mk, spine_eta, outSpine_next]; done)
    | split
    | (simp [*]; done)
    | simp only [*, spine_mk, spine_eta, outSpine_next]

@[simp] theorem rtcReject_spine {s0} : (State.rtcReject s0).spine = s0.spine := by
  unfold State.rtcReject
  simp only [spine_mk, spine_eta]

@[simp] theorem rtcHalt_spine {s0 x1} : (State.rtcHalt s0 x1).spine = s0.spine := by
  unfold State.rtcHalt
  with_reducible repeat' first
    | assumption
    | rfl
    | (extract_lets +onlyGivenNames y; clear_value y)
    | refine ite_spine ?_ ?_
    | (simp only [*, rtcReject_spine, spine_mk, spine_eta]; done)
    | split
    | (simp [*]; done)
    | simp only [*, rtcReject_spine, spine_mk, spine_eta]

@[simp] theorem rtcRelease_spine {s0 x1} : (State.rtcRelease s0 x1).spine = s0.spine := by
  unfold State.rtcRelease
  with_reducible repeat' first
    | assumption
    | rfl
    | (extract_lets +onlyGivenNames y
       refine (show (y.spine = s0.spine → _) from fun h => ?_) ?_
       on_goal 1 => clear_value y
       on_goal 2 => (simp only [y]; try clear y))
    | (extract_lets +onlyGivenNames y; clear_value y)
    | refine ite_spine ?_ ?_
    | (simp only [*, rtcReject_spine, stepDue_spine, spine_mk, spine_eta]; done)
    | split
    | (simp [*]; done)
    | simp only [*, rtcReject_spine, stepDue_spine, spine_mk, spine_eta]

@[simp] theorem rtcCounterWrite_spine {s0 x1 x2 x3} : (State.rtcCounterWrite s0 x1 x2 x3).spine = s0.spine := by
  unfold State.rtcCounterWrite
  with_reducible repeat' first
    | assumption
    | rfl
    | (extract_lets +onlyGivenNames y
       refine (show (y.spine = s0.spine → _) from fun h => ?_) ?_
       on_goal 1 => clear_value y
       on_goal 2 => (simp only [y]; try clear y))
    | (extract_lets +onlyGivenNames y; clear_value y)
    | refine ite_spine ?_ ?_
    | (simp only [*, rtcReject_spine, spine_mk, spine_eta]; done)
    | split
    | (simp [*]; done)
    | simp only [*, rtcReject_spine, spine_mk, spine_eta]

@[simp] theorem rtcTrimWrite_spine {s0 x1 x2} : (State.rtcTrimWrite s0 x1 x2).spine = s0.spine := by
  unfold State.rtcTrimWrite
  with_reducible repeat' first
    | assumption
    | rfl
    | (extract_lets +onlyGivenNames y; clear_value y)
    | refine ite_spine ?_ ?_
    | (simp only [*, rtcReject_spine, spine_mk, spine_eta]; done)
    | split
    | (simp [*]; done)
    | simp only [*, rtcReject_spine, spine_mk, spine_eta]

@[simp] theorem rtcLatch_spine {s0 x1} : (State.rtcLatch s0 x1).spine = s0.spine := by
  unfold State.rtcLatch
  simp only [modWin_spine, spine_mk, spine_eta]

@[simp] theorem modSlot_spine {s0 x1 x2} : (State.modSlot s0 x1 x2).spine = s0.spine := by
  unfold State.modSlot
  simp only [spine_mk, spine_eta]

@[simp] theorem modWcomp_spine {s0 x1 x2} : (State.modWcomp s0 x1 x2).spine = s0.spine := by
  unfold State.modWcomp
  simp only [spine_mk, spine_eta]

@[simp] theorem markGaps_spine {s0} : (State.markGaps s0).spine = s0.spine := by
  unfold State.markGaps
  with_reducible repeat' first
    | assumption
    | rfl
    | (extract_lets +onlyGivenNames y; clear_value y)
    | (refine (foldl_spine ?_).trans ?_; on_goal 1 => intro s0 _)
    | refine ite_spine ?_ ?_
    | (simp only [*, modSlot_spine, spine_mk, spine_eta]; done)
    | split
    | (simp [*]; done)
    | simp only [*, modSlot_spine, spine_mk, spine_eta]

@[simp] theorem markSlots_spine {s0 x1 x2} : (State.markSlots s0 x1 x2).spine = s0.spine := by
  unfold State.markSlots
  with_reducible repeat' first
    | assumption
    | rfl
    | (extract_lets +onlyGivenNames y; clear_value y)
    | (refine (foldl_spine ?_).trans ?_; on_goal 1 => intro s0 _)
    | refine ite_spine ?_ ?_
    | (simp only [*, modSlot_spine, spine_mk, spine_eta]; done)
    | split
    | (simp [*]; done)
    | simp only [*, modSlot_spine, spine_mk, spine_eta]

@[simp] theorem statTouch_spine {s0 x1 x2} : (State.statTouch s0 x1 x2).spine = s0.spine := by
  unfold State.statTouch
  with_reducible repeat' first
    | assumption
    | rfl
    | (extract_lets +onlyGivenNames y; clear_value y)
    | (simp only [*, spine_mk, spine_eta]; done)
    | split
    | (simp [*]; done)
    | simp only [*, spine_mk, spine_eta]

@[simp] theorem displaceOne_spine {s0 x1} : (State.displaceOne s0 x1).spine = s0.spine := by
  unfold State.displaceOne
  with_reducible repeat' first
    | assumption
    | rfl
    | (extract_lets +onlyGivenNames y
       refine (show (y.spine = s0.spine → _) from fun h => ?_) ?_
       on_goal 1 => clear_value y
       on_goal 2 => (simp only [y]; try clear y))
    | (extract_lets +onlyGivenNames y; clear_value y)
    | refine ite_spine ?_ ?_
    | (simp only [*, markSlots_spine, statTouch_spine, spine_mk, spine_eta]; done)
    | split
    | (simp [*]; done)
    | simp only [*, markSlots_spine, statTouch_spine, spine_mk, spine_eta]

@[simp] theorem setFactors_spine {s0 x1} : (State.setFactors s0 x1).spine = s0.spine := by
  unfold State.setFactors
  simp only [markSlots_spine, spine_mk, spine_eta]

@[simp] theorem judgeSlot_spine {s0 x1 x2} : (State.judgeSlot s0 x1 x2).spine = s0.spine := by
  unfold State.judgeSlot
  with_reducible repeat' first
    | assumption
    | rfl
    | (extract_lets +onlyGivenNames y
       refine (show (y.spine = s0.spine → _) from fun h => ?_) ?_
       on_goal 1 => clear_value y
       on_goal 2 => (simp only [y]; try clear y))
    | (extract_lets +onlyGivenNames y; clear_value y)
    | (refine (foldl_spine ?_).trans ?_; on_goal 1 => intro s0 _)
    | (simp only [*, modWcomp_spine, spine_mk, spine_eta]; done)
    | split
    | (simp [*]; done)
    | simp only [*, modWcomp_spine, spine_mk, spine_eta]

@[simp] theorem conversion_spine {s0 x1} : (conversion s0 x1).spine = s0.spine := by
  unfold conversion
  with_reducible repeat' first
    | assumption
    | rfl
    | (extract_lets +onlyGivenNames y
       refine (show (y.spine = s0.spine → _) from fun h => ?_) ?_
       on_goal 1 => clear_value y
       on_goal 2 => (simp only [y]; try clear y))
    | (extract_lets +onlyGivenNames y; clear_value y)
    | refine ite_spine ?_ ?_
    | (simp only [*, judgeSlot_spine, modSlot_spine, spine_mk, spine_eta]; done)
    | split
    | (simp [*]; done)
    | simp only [*, judgeSlot_spine, modSlot_spine, spine_mk, spine_eta]

@[simp] theorem compChange_spine {s0 x1 x2} : (State.compChange s0 x1 x2).spine = s0.spine := by
  unfold State.compChange
  with_reducible repeat' first
    | assumption
    | rfl
    | (extract_lets +onlyGivenNames y; clear_value y)
    | refine ite_spine ?_ ?_
    | (simp only [*, levelAt_spine, modWcomp_spine, spine_mk, spine_eta]; done)
    | split
    | (simp [*]; done)
    | simp only [*, levelAt_spine, modWcomp_spine, spine_mk, spine_eta]

@[simp] theorem execComparatorAlarm_spine {x1 s0} : outSpine s0 (execComparatorAlarm x1 s0) = s0.spine := by
  unfold execComparatorAlarm
  simp only [compChange_spine, spine_mk, spine_eta, outSpine_next]

@[simp] theorem execComparatorRelease_spine {x1 s0} : outSpine s0 (execComparatorRelease x1 s0) = s0.spine := by
  unfold execComparatorRelease
  simp only [compChange_spine, spine_mk, spine_eta, outSpine_next]

@[simp] theorem slotStats_spine {s0 x1} : (State.slotStats s0 x1).2.spine = s0.spine := by
  unfold State.slotStats
  with_reducible repeat' first
    | assumption
    | rfl
    | (extract_lets +onlyGivenNames y
       refine (show (y.spine = s0.spine → _) from fun h => ?_) ?_
       on_goal 1 => clear_value y
       on_goal 2 => (simp only [y]; try clear y))
    | (extract_lets +onlyGivenNames y
       refine (show (y.2.spine = s0.spine → _) from fun h => ?_) ?_
       on_goal 1 => clear_value y
       on_goal 2 => (simp only [y]; try clear y))
    | (extract_lets +onlyGivenNames y; clear_value y)
    | refine ite_spine ?_ ?_
    | refine ite_snd ?_ ?_
    | (simp only [*, drawInt_spine, draw_spine, spine_mk, spine_eta]; done)
    | (split <;> (try (rename_i q; obtain ⟨q1, q2⟩ := Prod.ext_iff.mp q; simp only at q1 q2; subst q1 q2)))
    | (simp [*]; done)
    | simp only [*, drawInt_spine, draw_spine, spine_mk, spine_eta]

@[simp] theorem execSlotPeriodEnd_spine {x1 s0} : outSpine s0 (execSlotPeriodEnd x1 s0) = s0.spine := by
  unfold execSlotPeriodEnd
  with_reducible repeat' first
    | assumption
    | rfl
    | rw [outSpine_next]
    | (extract_lets +onlyGivenNames y
       refine (show (y.spine = s0.spine → _) from fun h => ?_) ?_
       on_goal 1 => clear_value y
       on_goal 2 => (simp only [y]; try clear y))
    | (extract_lets +onlyGivenNames y
       refine (show (y.2.spine = s0.spine → _) from fun h => ?_) ?_
       on_goal 1 => clear_value y
       on_goal 2 => (simp only [y]; try clear y))
    | (extract_lets +onlyGivenNames y; clear_value y)
    | refine ite_spine ?_ ?_
    | refine ite_out ?_ ?_
    | (simp only [*, slotStats_spine, modSlot_spine, pulse_spine, tcMean_spine, spine_mk, spine_eta, outSpine_next]; done)
    | (split <;> (try (rename_i q; obtain ⟨q1, q2⟩ := Prod.ext_iff.mp q; simp only at q1 q2; subst q1 q2)))
    | (simp [*]; done)
    | simp only [*, slotStats_spine, modSlot_spine, pulse_spine, tcMean_spine, spine_mk, spine_eta, outSpine_next]

@[simp] theorem bodyAcbRead_spine {x1 x2 s0} : (bodyAcbRead x1 x2 s0).1.spine = s0.spine := by
  unfold bodyAcbRead
  with_reducible repeat' first
    | assumption
    | rfl
    | (extract_lets +onlyGivenNames y
       refine (show (y.spine = s0.spine → _) from fun h => ?_) ?_
       on_goal 1 => clear_value y
       on_goal 2 => (simp only [y]; try clear y))
    | (extract_lets +onlyGivenNames y
       refine (show (y.1.spine = s0.spine → _) from fun h => ?_) ?_
       on_goal 1 => clear_value y
       on_goal 2 => (simp only [y]; try clear y))
    | (extract_lets +onlyGivenNames y; clear_value y)
    | (refine (foldl_spine ?_).trans ?_; on_goal 1 => intro s0 _)
    | (refine fixedBody_spine ?_; intro _ _ s0)
    | refine ite_spine ?_ ?_
    | refine ite_fst ?_ ?_
    | (simp only [*, fixedBody_spine, modSlot_spine, spine_mk, spine_eta]; done)
    | (split <;> (try (rename_i q; obtain ⟨q1, q2⟩ := Prod.ext_iff.mp q; simp only at q1 q2; subst q1 q2)))
    | (simp [*]; done)
    | simp only [*, fixedBody_spine, modSlot_spine, spine_mk, spine_eta]

@[simp] theorem execAcbRead_spine {x1 s0} : outSpine s0 (execAcbRead x1 s0) = s0.spine := by
  unfold execAcbRead
  with_reducible repeat' first
    | assumption
    | rfl
    | rw [outSpine_next]
    | (simp only [*, command_spine, bodyAcbRead_spine, spine_mk, spine_eta, outSpine_next]; done)
    | (split <;> (try (rename_i q; obtain ⟨q1, q2⟩ := Prod.ext_iff.mp q; simp only at q1 q2; subst q1 q2)))
    | (simp [*]; done)
    | simp only [*, command_spine, bodyAcbRead_spine, spine_mk, spine_eta, outSpine_next]

@[simp] theorem setUrgents_spine {s0 x1 x2} : (State.setUrgents s0 x1 x2).spine = s0.spine := by
  unfold State.setUrgents
  simp only [spine_mk, spine_eta]

@[simp] theorem dropLate_spine {s0 x1} : (State.dropLate s0 x1).spine = s0.spine := by
  unfold State.dropLate
  with_reducible repeat' first
    | assumption
    | rfl
    | (extract_lets +onlyGivenNames y
       refine (show (y.spine = s0.spine → _) from fun h => ?_) ?_
       on_goal 1 => clear_value y
       on_goal 2 => (simp only [y]; try clear y))
    | (extract_lets +onlyGivenNames y; clear_value y)
    | (refine (foldl_spine ?_).trans ?_; on_goal 1 => intro s0 _)
    | (simp only [*, finishHeld_spine, setUrgents_spine, spine_mk, spine_eta]; done)
    | split
    | (simp [*]; done)
    | simp only [*, finishHeld_spine, setUrgents_spine, spine_mk, spine_eta]

@[simp] theorem startUrgent_spine {s0 x1} : (State.startUrgent s0 x1).spine = s0.spine := by
  unfold State.startUrgent
  with_reducible repeat' first
    | assumption
    | rfl
    | (extract_lets +onlyGivenNames y
       refine (show (y.spine = s0.spine → _) from fun h => ?_) ?_
       on_goal 1 => clear_value y
       on_goal 2 => (simp only [y]; try clear y))
    | (extract_lets +onlyGivenNames y
       refine (show (y.2.spine = s0.spine → _) from fun h => ?_) ?_
       on_goal 1 => clear_value y
       on_goal 2 => (simp only [y]; try clear y))
    | (extract_lets +onlyGivenNames y; clear_value y)
    | refine ite_spine ?_ ?_
    | (simp only [*, dropLate_spine, draw_spine, markGaps_spine, setUrgents_spine, statTouch_spine, spine_mk, spine_eta]; done)
    | (split <;> (try (rename_i q; obtain ⟨q1, q2⟩ := Prod.ext_iff.mp q; simp only at q1 q2; subst q1 q2)))
    | (simp [*]; done)
    | simp only [*, dropLate_spine, draw_spine, markGaps_spine, setUrgents_spine, statTouch_spine, spine_mk, spine_eta]

@[simp] theorem execDeadlineExpire_spine {x1 x2 x3 s0} : outSpine s0 (execDeadlineExpire x1 x2 x3 s0) = s0.spine := by
  unfold execDeadlineExpire
  with_reducible repeat' first
    | assumption
    | rfl
    | rw [outSpine_next]
    | (extract_lets +onlyGivenNames y
       refine (show (y.spine = s0.spine → _) from fun h => ?_) ?_
       on_goal 1 => clear_value y
       on_goal 2 => (simp only [y]; try clear y))
    | (extract_lets +onlyGivenNames y; clear_value y)
    | refine ite_spine ?_ ?_
    | refine ite_out ?_ ?_
    | (simp only [*, dropLate_spine, answer_spine, setQueue_spine, spine_mk, spine_eta, outSpine_next]; done)
    | split
    | (simp [*]; done)
    | simp only [*, dropLate_spine, answer_spine, setQueue_spine, spine_mk, spine_eta, outSpine_next]

@[simp] theorem bodyAdcUrgent_spine {x1 x2 s0} : (bodyAdcUrgent x1 x2 s0).1.spine = s0.spine := by
  unfold bodyAdcUrgent
  with_reducible repeat' first
    | assumption
    | rfl
    | (extract_lets +onlyGivenNames y
       refine (show (y.spine = s0.spine → _) from fun h => ?_) ?_
       on_goal 1 => clear_value y
       on_goal 2 => (simp only [y]; try clear y))
    | (extract_lets +onlyGivenNames y
       refine (show (y.1.spine = s0.spine → _) from fun h => ?_) ?_
       on_goal 1 => clear_value y
       on_goal 2 => (simp only [y]; try clear y))
    | (extract_lets +onlyGivenNames y; clear_value y)
    | (refine fixedBody_spine ?_; intro _ _ s0)
    | refine ite_spine ?_ ?_
    | refine ite_fst ?_ ?_
    | (simp only [*, fixedBody_spine, startUrgent_spine, setUrgents_spine, spine_mk, spine_eta]; done)
    | (split <;> (try (rename_i q; obtain ⟨q1, q2⟩ := Prod.ext_iff.mp q; simp only at q1 q2; subst q1 q2)))
    | (simp [*]; done)
    | simp only [*, fixedBody_spine, startUrgent_spine, setUrgents_spine, spine_mk, spine_eta]

@[simp] theorem execAdcUrgent_spine {x1 s0} : outSpine s0 (execAdcUrgent x1 s0) = s0.spine := by
  unfold execAdcUrgent
  with_reducible repeat' first
    | assumption
    | rfl
    | rw [outSpine_next]
    | (simp only [*, command_spine, bodyAdcUrgent_spine, spine_mk, spine_eta, outSpine_next]; done)
    | (split <;> (try (rename_i q; obtain ⟨q1, q2⟩ := Prod.ext_iff.mp q; simp only at q1 q2; subst q1 q2)))
    | (simp [*]; done)
    | simp only [*, command_spine, bodyAdcUrgent_spine, spine_mk, spine_eta, outSpine_next]

@[simp] theorem execUrgentBurstDone_spine {x1 x2 s0} : outSpine s0 (execUrgentBurstDone x1 x2 s0) = s0.spine := by
  unfold execUrgentBurstDone
  with_reducible repeat' first
    | assumption
    | rfl
    | rw [outSpine_next]
    | (extract_lets +onlyGivenNames y
       refine (show (y.spine = s0.spine → _) from fun h => ?_) ?_
       on_goal 1 => clear_value y
       on_goal 2 => (simp only [y]; try clear y))
    | (extract_lets +onlyGivenNames y; clear_value y)
    | refine ite_spine ?_ ?_
    | refine ite_out ?_ ?_
    | (simp only [*, markGaps_spine, finishHeld_spine, setUrgents_spine, startUrgent_spine, spine_mk, spine_eta, outSpine_next]; done)
    | split
    | (simp [*]; done)
    | simp only [*, markGaps_spine, finishHeld_spine, setUrgents_spine, startUrgent_spine, spine_mk, spine_eta, outSpine_next]

@[simp] theorem startSelf_spine {s0 x1} : (State.startSelf s0 x1).spine = s0.spine := by
  unfold State.startSelf
  simp only [markGaps_spine, spine_mk, spine_eta]

@[simp] theorem bodyAdcSelfcal_spine {x1 x2 s0} : (bodyAdcSelfcal x1 x2 s0).1.spine = s0.spine := by
  unfold bodyAdcSelfcal
  with_reducible repeat' first
    | assumption
    | rfl
    | (refine fixedBody_spine ?_; intro _ _ s0)
    | refine ite_spine ?_ ?_
    | refine ite_fst ?_ ?_
    | (simp only [*, fixedBody_spine, startSelf_spine, spine_mk, spine_eta]; done)
    | (split <;> (try (rename_i q; obtain ⟨q1, q2⟩ := Prod.ext_iff.mp q; simp only at q1 q2; subst q1 q2)))
    | (simp [*]; done)
    | simp only [*, fixedBody_spine, startSelf_spine, spine_mk, spine_eta]

@[simp] theorem execAdcSelfcal_spine {x1 s0} : outSpine s0 (execAdcSelfcal x1 s0) = s0.spine := by
  unfold execAdcSelfcal
  with_reducible repeat' first
    | assumption
    | rfl
    | rw [outSpine_next]
    | (simp only [*, command_spine, bodyAdcSelfcal_spine, spine_mk, spine_eta, outSpine_next]; done)
    | (split <;> (try (rename_i q; obtain ⟨q1, q2⟩ := Prod.ext_iff.mp q; simp only at q1 q2; subst q1 q2)))
    | (simp [*]; done)
    | simp only [*, command_spine, bodyAdcSelfcal_spine, spine_mk, spine_eta, outSpine_next]

@[simp] theorem selfFactors_spine {s0 x1 x2} : (State.selfFactors s0 x1 x2).spine = s0.spine := by
  unfold State.selfFactors
  have h : ∀ (a : State) v, ({ a with aux.selfBad := v } : State).spine = a.spine := fun _ _ => rfl
  refine ite_spine setFactors_spine ?_
  rw [h, setFactors_spine]

@[simp] theorem execSelfcalSar0Done_spine {x1 x2 s0} : outSpine s0 (execSelfcalSar0Done x1 x2 s0) = s0.spine := by
  unfold execSelfcalSar0Done
  with_reducible repeat' first
    | assumption
    | rfl
    | rw [outSpine_next]
    | (extract_lets +onlyGivenNames y
       refine (show (y.spine = s0.spine → _) from fun h => ?_) ?_
       on_goal 1 => clear_value y
       on_goal 2 => (simp only [y]; try clear y))
    | (extract_lets +onlyGivenNames y; clear_value y)
    | refine ite_spine ?_ ?_
    | refine ite_out ?_ ?_
    | (simp only [*, selfFactors_spine, startUrgent_spine, markGaps_spine, spine_mk, spine_eta, outSpine_next]; done)
    | split
    | (simp [*]; done)
    | simp only [*, selfFactors_spine, startUrgent_spine, markGaps_spine, spine_mk, spine_eta, outSpine_next]

@[simp] theorem execSelfcalSar1Done_spine {x1 x2 s0} : outSpine s0 (execSelfcalSar1Done x1 x2 s0) = s0.spine := by
  unfold execSelfcalSar1Done
  with_reducible repeat' first
    | assumption
    | rfl
    | rw [outSpine_next]
    | (extract_lets +onlyGivenNames y
       refine (show (y.spine = s0.spine → _) from fun h => ?_) ?_
       on_goal 1 => clear_value y
       on_goal 2 => (simp only [y]; try clear y))
    | (extract_lets +onlyGivenNames y; clear_value y)
    | refine ite_spine ?_ ?_
    | refine ite_out ?_ ?_
    | (simp only [*, selfFactors_spine, markGaps_spine, spine_mk, spine_eta, outSpine_next]; done)
    | split
    | (simp [*]; done)
    | simp only [*, selfFactors_spine, markGaps_spine, spine_mk, spine_eta, outSpine_next]

@[simp] theorem startCal_spine {s0} : (State.startCal s0).spine = s0.spine := by
  unfold State.startCal
  with_reducible repeat' first
    | assumption
    | rfl
    | (extract_lets +onlyGivenNames y
       refine (show (y.spine = s0.spine → _) from fun h => ?_) ?_
       on_goal 1 => clear_value y
       on_goal 2 => (simp only [y]; try clear y))
    | (extract_lets +onlyGivenNames y
       refine (show (y.2.spine = s0.spine → _) from fun h => ?_) ?_
       on_goal 1 => clear_value y
       on_goal 2 => (simp only [y]; try clear y))
    | (extract_lets +onlyGivenNames y; clear_value y)
    | refine ite_spine ?_ ?_
    | (simp only [*, drawInt_spine, startSelf_spine, spine_mk, spine_eta]; done)
    | (split <;> (try (rename_i q; obtain ⟨q1, q2⟩ := Prod.ext_iff.mp q; simp only at q1 q2; subst q1 q2)))
    | (simp [*]; done)
    | simp only [*, drawInt_spine, startSelf_spine, spine_mk, spine_eta]

@[simp] theorem calTrigger_spine {s0} : (State.calTrigger s0).spine = s0.spine := by
  unfold State.calTrigger
  with_reducible repeat' first
    | assumption
    | rfl
    | (extract_lets +onlyGivenNames y; clear_value y)
    | refine ite_spine ?_ ?_
    | (simp only [*, pulse_spine, startCal_spine, spine_mk, spine_eta]; done)
    | split
    | (simp [*]; done)
    | simp only [*, pulse_spine, startCal_spine, spine_mk, spine_eta]

@[simp] theorem calModeFollow_spine {s0} : (State.calModeFollow s0).spine = s0.spine := by
  unfold State.calModeFollow
  with_reducible repeat' first
    | assumption
    | rfl
    | (extract_lets +onlyGivenNames y
       refine (show (y.spine = s0.spine → _) from fun h => ?_) ?_
       on_goal 1 => clear_value y
       on_goal 2 => (simp only [y]; try clear y))
    | (extract_lets +onlyGivenNames y; clear_value y)
    | refine ite_spine ?_ ?_
    | (simp only [*, pulse_spine, calTrigger_spine, spine_mk, spine_eta]; done)
    | split
    | (simp [*]; done)
    | simp only [*, pulse_spine, calTrigger_spine, spine_mk, spine_eta]

@[simp] theorem calEnd_spine {s0} : (State.calEnd s0).spine = s0.spine := by
  unfold State.calEnd
  simp only [calModeFollow_spine, spine_mk, spine_eta]

@[simp] theorem startRef_spine {s0} : (State.startRef s0).spine = s0.spine := by
  unfold State.startRef
  simp only [markGaps_spine, spine_mk, spine_eta]

@[simp] theorem selfOutcome_spine {s0 x1 x2} : (State.selfOutcome s0 x1 x2).spine = s0.spine := by
  unfold State.selfOutcome
  with_reducible repeat' first
    | assumption
    | rfl
    | (extract_lets +onlyGivenNames y
       refine (show (y.spine = s0.spine → _) from fun h => ?_) ?_
       on_goal 1 => clear_value y
       on_goal 2 => (simp only [y]; try clear y))
    | (extract_lets +onlyGivenNames y; clear_value y)
    | refine ite_spine ?_ ?_
    | (simp only [*, selfFactors_spine, pulse_spine, modAllWin_spine, spine_mk, spine_eta]; done)
    | split
    | (simp [*]; done)
    | simp only [*, selfFactors_spine, pulse_spine, modAllWin_spine, spine_mk, spine_eta]

@[simp] theorem refResult_spine {s0 x1 x2} : (State.refResult s0 x1 x2).spine = s0.spine := by
  unfold State.refResult
  with_reducible repeat' first
    | assumption
    | rfl
    | (extract_lets +onlyGivenNames y
       refine (show (y.spine = s0.spine → _) from fun h => ?_) ?_
       on_goal 1 => clear_value y
       on_goal 2 => (simp only [y]; try clear y))
    | (extract_lets +onlyGivenNames y; clear_value y)
    | refine ite_spine ?_ ?_
    | (simp only [*, setFactors_spine, calEnd_spine, pulse_spine, modAllWin_spine, spine_mk, spine_eta]; done)
    | split
    | (simp [*]; done)
    | simp only [*, setFactors_spine, calEnd_spine, pulse_spine, modAllWin_spine, spine_mk, spine_eta]

@[simp] theorem execRprecStepDone_spine {x1 x2 s0} : outSpine s0 (execRprecStepDone x1 x2 s0) = s0.spine := by
  unfold execRprecStepDone
  with_reducible repeat' first
    | assumption
    | rfl
    | rw [outSpine_next]
    | (extract_lets +onlyGivenNames y
       refine (show (y.spine = s0.spine → _) from fun h => ?_) ?_
       on_goal 1 => clear_value y
       on_goal 2 => (simp only [y]; try clear y))
    | (extract_lets +onlyGivenNames y; clear_value y)
    | refine ite_spine ?_ ?_
    | refine ite_out ?_ ?_
    | (simp only [*, refResult_spine, spine_mk, spine_eta, outSpine_next]; done)
    | split
    | (simp [*]; done)
    | simp only [*, refResult_spine, spine_mk, spine_eta, outSpine_next]

@[simp] theorem statWindow_spine {s0 x1 x2 x3 x4 x5} : (State.statWindow s0 x1 x2 x3 x4 x5).spine = s0.spine := by
  unfold State.statWindow
  with_reducible repeat' first
    | assumption
    | rfl
    | (extract_lets +onlyGivenNames y; clear_value y)
    | refine ite_spine ?_ ?_
    | (simp only [*, spine_mk, spine_eta]; done)
    | split
    | (simp [*]; done)
    | simp only [*, spine_mk, spine_eta]

@[simp] theorem execStatStepDone_spine {x1 s0} : outSpine s0 (execStatStepDone x1 s0) = s0.spine := by
  unfold execStatStepDone
  with_reducible repeat' first
    | assumption
    | rfl
    | rw [outSpine_next]
    | (extract_lets +onlyGivenNames y
       refine (show (y.spine = s0.spine → _) from fun h => ?_) ?_
       on_goal 1 => clear_value y
       on_goal 2 => (simp only [y]; try clear y))
    | (extract_lets +onlyGivenNames y; clear_value y)
    | (refine (foldl_spine ?_).trans ?_; on_goal 1 => intro s0 _)
    | refine ite_spine ?_ ?_
    | refine ite_out ?_ ?_
    | (simp only [*, refResult_spine, spine_mk, spine_eta, outSpine_next]; done)
    | split
    | (simp [*]; done)
    | simp only [*, refResult_spine, spine_mk, spine_eta, outSpine_next]

@[simp] theorem bodyCalRun_spine {x1 x2 s0} : (bodyCalRun x1 x2 s0).1.spine = s0.spine := by
  unfold bodyCalRun
  with_reducible repeat' first
    | assumption
    | rfl
    | (refine fixedBody_spine ?_; intro _ _ s0)
    | refine ite_spine ?_ ?_
    | refine ite_fst ?_ ?_
    | (simp only [*, fixedBody_spine, calTrigger_spine, spine_mk, spine_eta]; done)
    | (split <;> (try (rename_i q; obtain ⟨q1, q2⟩ := Prod.ext_iff.mp q; simp only at q1 q2; subst q1 q2)))
    | (simp [*]; done)
    | simp only [*, fixedBody_spine, calTrigger_spine, spine_mk, spine_eta]

@[simp] theorem execCalRun_spine {x1 s0} : outSpine s0 (execCalRun x1 s0) = s0.spine := by
  unfold execCalRun
  with_reducible repeat' first
    | assumption
    | rfl
    | rw [outSpine_next]
    | (simp only [*, command_spine, bodyCalRun_spine, spine_mk, spine_eta, outSpine_next]; done)
    | (split <;> (try (rename_i q; obtain ⟨q1, q2⟩ := Prod.ext_iff.mp q; simp only at q1 q2; subst q1 q2)))
    | (simp [*]; done)
    | simp only [*, command_spine, bodyCalRun_spine, spine_mk, spine_eta, outSpine_next]

@[simp] theorem execTs2MeanCheck_spine {x1 s0} : outSpine s0 (execTs2MeanCheck x1 s0) = s0.spine := by
  unfold execTs2MeanCheck
  with_reducible repeat' first
    | assumption
    | rfl
    | rw [outSpine_next]
    | (extract_lets +onlyGivenNames y
       refine (show (y.spine = s0.spine → _) from fun h => ?_) ?_
       on_goal 1 => clear_value y
       on_goal 2 => (simp only [y]; try clear y))
    | (extract_lets +onlyGivenNames y; clear_value y)
    | refine ite_spine ?_ ?_
    | refine ite_out ?_ ?_
    | (simp only [*, setFactors_spine, calTrigger_spine, spine_mk, spine_eta, outSpine_next]; done)
    | split
    | (simp [*]; done)
    | simp only [*, setFactors_spine, calTrigger_spine, spine_mk, spine_eta, outSpine_next]

@[simp] theorem tempMonitor_spine {s0} : (State.tempMonitor s0).spine = s0.spine := by
  unfold State.tempMonitor
  with_reducible repeat' first
    | assumption
    | rfl
    | refine ite_spine ?_ ?_
    | (simp only [*, displaceOne_spine, spine_mk, spine_eta]; done)
    | split
    | (simp [*]; done)
    | simp only [*, displaceOne_spine, spine_mk, spine_eta]

@[simp] theorem execCalSpacingEnd_spine {s0} : outSpine s0 (execCalSpacingEnd s0) = s0.spine := by
  unfold execCalSpacingEnd
  with_reducible repeat' first
    | assumption
    | rfl
    | rw [outSpine_next]
    | (extract_lets +onlyGivenNames y; clear_value y)
    | refine ite_spine ?_ ?_
    | refine ite_out ?_ ?_
    | (simp only [*, startCal_spine, spine_mk, spine_eta, outSpine_next]; done)
    | split
    | (simp [*]; done)
    | simp only [*, startCal_spine, spine_mk, spine_eta, outSpine_next]

@[simp] theorem convFails_spine {s0 x1} : (State.convFails s0 x1).spine = s0.spine := by
  unfold State.convFails
  with_reducible repeat' first
    | assumption
    | rfl
    | (extract_lets +onlyGivenNames y; clear_value y)
    | refine ite_spine ?_ ?_
    | (simp only [*, f1_spine, level_spine, markGaps_spine, spine_mk, spine_eta]; done)
    | split
    | (simp [*]; done)
    | simp only [*, f1_spine, level_spine, markGaps_spine, spine_mk, spine_eta]

@[simp] theorem execConverterCheck_spine {x1 x2 x3 s0} : outSpine s0 (execConverterCheck x1 x2 x3 s0) = s0.spine := by
  unfold execConverterCheck
  refine ite_out ?_ rfl
  extract_lets _ a p fr pr _ b
  have ha : a.spine = s0.spine := by simp only [a, displaceOne_spine]; rfl
  have hb : b.spine = s0.spine := ha
  clear_value b
  refine ite_out ?_ (ite_out ?_ ?_)
  · simp only [outSpine_next, convFails_spine, hb]
  · simp only [outSpine_next, level_spine]; exact hb
  · exact hb

@[simp] theorem startAcb_spine {s0} : (State.startAcb s0).spine = s0.spine := by
  unfold State.startAcb
  simp only [startSelf_spine, spine_mk, spine_eta]

@[simp] theorem slotSwap_spine {s0 x1} : (State.slotSwap s0 x1).spine = s0.spine := by
  unfold State.slotSwap
  with_reducible repeat' first
    | assumption
    | rfl
    | (extract_lets +onlyGivenNames y
       refine (show (y.spine = s0.spine → _) from fun h => ?_) ?_
       on_goal 1 => clear_value y
       on_goal 2 => (simp only [y]; try clear y))
    | (extract_lets +onlyGivenNames y; clear_value y)
    | refine ite_spine ?_ ?_
    | (simp only [*, modSlot_spine, spine_mk, spine_eta]; done)
    | split
    | (simp [*]; done)
    | simp only [*, modSlot_spine, spine_mk, spine_eta]

@[simp] theorem wcSwap_spine {s0 x1 x2} : (State.wcSwap s0 x1 x2).spine = s0.spine := by
  unfold State.wcSwap
  with_reducible repeat' first
    | assumption
    | rfl
    | (extract_lets +onlyGivenNames y
       refine (show (y.spine = s0.spine → _) from fun h => ?_) ?_
       on_goal 1 => clear_value y
       on_goal 2 => (simp only [y]; try clear y))
    | (extract_lets +onlyGivenNames y; clear_value y)
    | refine ite_spine ?_ ?_
    | (simp only [*, modWcomp_spine, level_spine, spine_mk, spine_eta]; done)
    | split
    | (simp [*]; done)
    | simp only [*, modWcomp_spine, level_spine, spine_mk, spine_eta]

@[simp] theorem auxSwap_spine {s0 x1} : (State.auxSwap s0 x1).spine = s0.spine := by
  unfold State.auxSwap
  with_reducible repeat' first
    | assumption
    | rfl
    | (extract_lets +onlyGivenNames y
       refine (show (y.spine = s0.spine → _) from fun h => ?_) ?_
       on_goal 1 => clear_value y
       on_goal 2 => (simp only [y]; try clear y))
    | (extract_lets +onlyGivenNames y; clear_value y)
    | (refine (foldl_spine ?_).trans ?_; on_goal 1 => intro s0 _)
    | (simp only [*, slotSwap_spine, wcSwap_spine, calModeFollow_spine, spine_mk, spine_eta]; done)
    | split
    | (simp [*]; done)
    | simp only [*, slotSwap_spine, wcSwap_spine, calModeFollow_spine, spine_mk, spine_eta]

@[simp] theorem modTile_spine {s0 x1 x2} : (State.modTile s0 x1 x2).spine = s0.spine := by
  unfold State.modTile
  simp only [spine_mk, spine_eta]

@[simp] theorem tileLevels_spine {s0 x1 x2} : (State.tileLevels s0 x1 x2).spine = s0.spine := by
  unfold State.tileLevels
  with_reducible repeat' first
    | assumption
    | rfl
    | (refine (foldl_spine ?_).trans ?_; on_goal 1 => intro s0 _)
    | refine ite_spine ?_ ?_
    | (simp only [*, levelAt_spine, spine_mk, spine_eta]; done)
    | split
    | (simp [*]; done)
    | simp only [*, levelAt_spine, spine_mk, spine_eta]

@[simp] theorem tileLevelsNow_spine {s0} : (State.tileLevelsNow s0).spine = s0.spine := by
  unfold State.tileLevelsNow
  simp only [tileLevels_spine, spine_mk, spine_eta]

@[simp] theorem fence_spine {s0 x1} : (State.fence s0 x1).spine = s0.spine := by
  unfold State.fence
  simp only [modTile_spine, spine_mk, spine_eta]

@[simp] theorem testsStart_spine {s0} : (State.testsStart s0).spine = s0.spine := by
  unfold State.testsStart
  simp only [spine_mk, spine_eta]

@[simp] theorem takeTile_spine {s0 x1 x2} : (State.takeTile s0 x1 x2).spine = s0.spine := by
  unfold State.takeTile
  simp only [modTile_spine, spine_mk, spine_eta]

@[simp] theorem replenish_spine {x1 s0} : (State.replenish x1 s0).spine = s0.spine := by
  induction x1 generalizing s0 with
  | zero => rfl
  | succ n ih =>
    unfold State.replenish
    refine ite_spine ?_ rfl
    split
    · exact ih.trans modTile_spine
    · rfl

@[simp] theorem settleGrouts_spine {s0} : (State.settleGrouts s0).spine = s0.spine := by
  unfold State.settleGrouts
  with_reducible repeat' first
    | assumption
    | rfl
    | (extract_lets +onlyGivenNames y
       refine (show (y.spine = s0.spine → _) from fun h => ?_) ?_
       on_goal 1 => clear_value y
       on_goal 2 => (simp only [y]; try clear y))
    | (extract_lets +onlyGivenNames y
       have hk : Kiln.ph y = Kiln.ph (State.kiln _) := rfl
       clear_value y)
    | (extract_lets +onlyGivenNames y; clear_value y)
    | (refine (foldl_spine ?_).trans ?_; on_goal 1 => intro s0 _)
    | refine ite_spine ?_ ?_
    | (simp only [*, modTile_spine, spine_mk, spine_eta]; done)
    | split
    | (simp [*]; done)
    | simp only [*, modTile_spine, spine_mk, spine_eta]

@[simp] theorem tilesSettle_spine {s0} : (State.tilesSettle s0).spine = s0.spine := by
  unfold State.tilesSettle
  simp only [tileLevelsNow_spine, settleGrouts_spine, replenish_spine, spine_mk, spine_eta]

@[simp] theorem toDuplex_spine {s0 x1} : (State.toDuplex s0 x1).spine = s0.spine := by
  unfold State.toDuplex
  with_reducible repeat' first
    | assumption
    | rfl
    | (extract_lets +onlyGivenNames y; clear_value y)
    | refine ite_spine ?_ ?_
    | (simp only [*, modBond_spine, f1_spine, spine_mk, spine_eta]; done)
    | split
    | (simp [*]; done)
    | simp only [*, modBond_spine, f1_spine, spine_mk, spine_eta]

@[simp] theorem startSubst_spine {s0 x1 x2} : (State.startSubst s0 x1 x2).spine = s0.spine := by
  unfold State.startSubst
  with_reducible repeat' first
    | assumption
    | rfl
    | (extract_lets +onlyGivenNames y
       refine (show (y.spine = s0.spine → _) from fun h => ?_) ?_
       on_goal 1 => clear_value y
       on_goal 2 => (simp only [y]; try clear y))
    | (extract_lets +onlyGivenNames y; clear_value y)
    | refine ite_spine ?_ ?_
    | (simp only [*, toDuplex_spine, tilesSettle_spine, modBond_spine, takeTile_spine, spine_mk, spine_eta]; done)
    | split
    | (simp [*]; done)
    | simp only [*, toDuplex_spine, tilesSettle_spine, modBond_spine, takeTile_spine, spine_mk, spine_eta]

@[simp] theorem releaseTile_spine {s0 x1} : (State.releaseTile s0 x1).spine = s0.spine := by
  unfold State.releaseTile
  simp only [modTile_spine, spine_mk, spine_eta]

@[simp] theorem pickTiles_spine {x1 x2 s0} : (State.pickTiles x1 x2 s0).2.2.spine = s0.spine := by
  induction x1 generalizing s0 with
  | zero => rfl
  | succ n ih =>
    unfold State.pickTiles
    split
    · rfl
    · dsimp only
      simp only [ih, takeTile_spine]

@[simp] theorem gather_spine {s0 x1 x2 x3 x4 x5} : (State.gather s0 x1 x2 x3 x4 x5).spine = s0.spine := by
  unfold State.gather
  with_reducible repeat' first
    | assumption
    | rfl
    | (extract_lets +onlyGivenNames y
       refine (show (y.spine = s0.spine → _) from fun h => ?_) ?_
       on_goal 1 => clear_value y
       on_goal 2 => (simp only [y]; try clear y))
    | (extract_lets +onlyGivenNames y
       refine (show (y.2.2.spine = s0.spine → _) from fun h => ?_) ?_
       on_goal 1 => clear_value y
       on_goal 2 => (simp only [y]; try clear y))
    | (extract_lets +onlyGivenNames y; clear_value y)
    | (refine (foldl_spine ?_).trans ?_; on_goal 1 => intro s0 _)
    | refine ite_spine ?_ ?_
    | (simp only [*, pickTiles_spine, tilesSettle_spine, modBond_spine, releaseTile_spine, spine_mk, spine_eta]; done)
    | (split <;> (try (rename_i q; obtain ⟨q1, q2⟩ := Prod.ext_iff.mp q; simp only at q1 q2; subst q1 q2)))
    | (simp [*]; done)
    | simp only [*, pickTiles_spine, tilesSettle_spine, modBond_spine, releaseTile_spine, spine_mk, spine_eta]

@[simp] theorem startRebuild_spine {s0 x1 x2} : (State.startRebuild s0 x1 x2).spine = s0.spine := by
  unfold State.startRebuild
  with_reducible repeat' first
    | assumption
    | rfl
    | refine ite_spine ?_ ?_
    | (simp only [*, gather_spine, spine_mk, spine_eta]; done)
    | split
    | (simp [*]; done)
    | simp only [*, gather_spine, spine_mk, spine_eta]

@[simp] theorem tryBondsBut_spine {s0 x1} : (State.tryBondsBut s0 x1).spine = s0.spine := by
  unfold State.tryBondsBut
  with_reducible repeat' first
    | assumption
    | rfl
    | (extract_lets +onlyGivenNames y
       refine (show (y.spine = s0.spine → _) from fun h => ?_) ?_
       on_goal 1 => clear_value y
       on_goal 2 => (simp only [y]; try clear y))
    | (extract_lets +onlyGivenNames y
       have hk : Kiln.ph y = Kiln.ph (State.kiln _) := rfl
       clear_value y)
    | (extract_lets +onlyGivenNames y; clear_value y)
    | (refine (foldl_spine ?_).trans ?_; on_goal 1 => intro s0 _)
    | refine ite_spine ?_ ?_
    | (simp only [*, startSubst_spine, startRebuild_spine, spine_mk, spine_eta]; done)
    | split
    | (simp [*]; done)
    | simp only [*, startSubst_spine, startRebuild_spine, spine_mk, spine_eta]

@[simp] theorem tryBonds_spine {s0} : (State.tryBonds s0).spine = s0.spine := by
  unfold State.tryBonds
  simp only [tryBondsBut_spine, spine_mk, spine_eta]

@[simp] theorem wardenVotes_spine {s0 x1} : (State.wardenVotes s0 x1).spine = s0.spine := by
  unfold State.wardenVotes
  with_reducible repeat' first
    | assumption
    | rfl
    | (extract_lets +onlyGivenNames y
       refine (show (y.spine = s0.spine → _) from fun h => ?_) ?_
       on_goal 1 => clear_value y
       on_goal 2 => (simp only [y]; try clear y))
    | (extract_lets +onlyGivenNames y; clear_value y)
    | refine ite_spine ?_ ?_
    | (simp only [*, spine_mk, spine_eta]; done)
    | split
    | (simp [*]; done)
    | simp only [*, spine_mk, spine_eta]

@[simp] theorem execSubstWardenVote_spine {x1 x2 s0} : outSpine s0 (execSubstWardenVote x1 x2 s0) = s0.spine := by
  unfold execSubstWardenVote
  with_reducible repeat' first
    | assumption
    | rfl
    | rw [outSpine_next]
    | (extract_lets +onlyGivenNames y
       refine (show (y.spine = s0.spine → _) from fun h => ?_) ?_
       on_goal 1 => clear_value y
       on_goal 2 => (simp only [y]; try clear y))
    | (extract_lets +onlyGivenNames y; clear_value y)
    | refine ite_spine ?_ ?_
    | refine ite_out ?_ ?_
    | (simp only [*, modBond_spine, wardenVotes_spine, tileLevelsNow_spine, tryBondsBut_spine, tilesSettle_spine, toDuplex_spine, releaseTile_spine, spine_mk, spine_eta, outSpine_next]; done)
    | split
    | (simp [*]; done)
    | simp only [*, modBond_spine, wardenVotes_spine, tileLevelsNow_spine, tryBondsBut_spine, tilesSettle_spine, toDuplex_spine, releaseTile_spine, spine_mk, spine_eta, outSpine_next]

@[simp] theorem execSubstCheckpoint_spine {x1 s0} : outSpine s0 (execSubstCheckpoint x1 s0) = s0.spine := by
  unfold execSubstCheckpoint
  with_reducible repeat' first
    | assumption
    | rfl
    | rw [outSpine_next]
    | (extract_lets +onlyGivenNames y; clear_value y)
    | refine ite_spine ?_ ?_
    | refine ite_out ?_ ?_
    | (simp only [*, modBond_spine, spine_mk, spine_eta, outSpine_next]; done)
    | split
    | (simp [*]; done)
    | simp only [*, modBond_spine, spine_mk, spine_eta, outSpine_next]

@[simp] theorem execSubstImageArrived_spine {x1 s0} : outSpine s0 (execSubstImageArrived x1 s0) = s0.spine := by
  unfold execSubstImageArrived
  with_reducible repeat' first
    | assumption
    | rfl
    | rw [outSpine_next]
    | (extract_lets +onlyGivenNames y; clear_value y)
    | refine ite_spine ?_ ?_
    | refine ite_out ?_ ?_
    | (simp only [*, modBond_spine, spine_mk, spine_eta, outSpine_next]; done)
    | split
    | (simp [*]; done)
    | simp only [*, modBond_spine, spine_mk, spine_eta, outSpine_next]

@[simp] theorem rejectJoining_spine {s0 x1 x2} : (State.rejectJoining s0 x1 x2).spine = s0.spine := by
  unfold State.rejectJoining
  with_reducible repeat' first
    | assumption
    | rfl
    | (extract_lets +onlyGivenNames y; clear_value y)
    | (simp only [*, tileLevels_spine, startSubst_spine, f0_spine, fence_spine, spine_mk, spine_eta]; done)
    | split
    | (simp [*]; done)
    | simp only [*, tileLevels_spine, startSubst_spine, f0_spine, fence_spine, spine_mk, spine_eta]

@[simp] theorem execSubstJoin_spine {x1 x2 s0} : outSpine s0 (execSubstJoin x1 x2 s0) = s0.spine := by
  unfold execSubstJoin
  with_reducible repeat' first
    | assumption
    | rfl
    | rw [outSpine_next]
    | (extract_lets +onlyGivenNames y
       refine (show (y.spine = s0.spine → _) from fun h => ?_) ?_
       on_goal 1 => clear_value y
       on_goal 2 => (simp only [y]; try clear y))
    | (extract_lets +onlyGivenNames y; clear_value y)
    | refine ite_spine ?_ ?_
    | refine ite_out ?_ ?_
    | (simp only [*, modTile_spine, modBond_spine, tileLevels_spine, rejectJoining_spine, spine_mk, spine_eta, outSpine_next]; done)
    | split
    | (simp [*]; done)
    | simp only [*, modTile_spine, modBond_spine, tileLevels_spine, rejectJoining_spine, spine_mk, spine_eta, outSpine_next]

@[simp] theorem cutWindows_spine {s0 x1 x2} : (State.cutWindows s0 x1 x2).spine = s0.spine := by
  unfold State.cutWindows
  with_reducible repeat' first
    | assumption
    | rfl
    | (extract_lets +onlyGivenNames y; clear_value y)
    | (refine (foldl_spine ?_).trans ?_; on_goal 1 => intro s0 _)
    | refine ite_spine ?_ ?_
    | (simp only [*, closeWindow_spine, spine_mk, spine_eta]; done)
    | split
    | (simp [*]; done)
    | simp only [*, closeWindow_spine, spine_mk, spine_eta]

@[simp] theorem rebucket_spine {s0 x1 x2 x3 x4} : (State.rebucket s0 x1 x2 x3 x4).spine = s0.spine := by
  unfold State.rebucket
  simp only [spine_mk, spine_eta]

@[simp] theorem fall_spine {s0 x1} : (State.fall s0 x1).spine = s0.spine := by
  unfold State.fall
  with_reducible repeat' first
    | assumption
    | rfl
    | (extract_lets +onlyGivenNames y
       refine (show (y.spine = s0.spine → _) from fun h => ?_) ?_
       on_goal 1 => clear_value y
       on_goal 2 => (simp only [y]; try clear y))
    | (extract_lets +onlyGivenNames y; clear_value y)
    | (refine (foldl_spine ?_).trans ?_; on_goal 1 => intro s0 _)
    | refine ite_spine ?_ ?_
    | (simp only [*, cutWindows_spine, modMon_spine, pqClose_spine, f2_spine, fence_spine, releaseTile_spine, modBond_spine, tileLevelsNow_spine, tryBondsBut_spine, tilesSettle_spine, startRebuild_spine, spine_mk, spine_eta]; done)
    | split
    | (simp [*]; done)
    | simp only [*, cutWindows_spine, modMon_spine, pqClose_spine, f2_spine, fence_spine, releaseTile_spine, modBond_spine, tileLevelsNow_spine, tryBondsBut_spine, tilesSettle_spine, startRebuild_spine, spine_mk, spine_eta]

@[simp] theorem fallNext_spine {s0 x1} : (State.fallNext s0 x1).spine = s0.spine := by
  unfold State.fallNext
  with_reducible repeat' first
    | assumption
    | rfl
    | (simp only [*, atIndex_spine, fall_spine, spine_mk, spine_eta]; done)
    | split
    | (simp [*]; done)
    | simp only [*, atIndex_spine, fall_spine, spine_mk, spine_eta]

@[simp] theorem footingFail_spine {s0 x1} : (State.footingFail s0 x1).spine = s0.spine := by
  unfold State.footingFail
  with_reducible repeat' first
    | assumption
    | rfl
    | (extract_lets +onlyGivenNames y; clear_value y)
    | refine ite_spine ?_ ?_
    | (simp only [*, f1_spine, modBond_spine, spine_mk, spine_eta]; done)
    | split
    | (simp [*]; done)
    | simp only [*, f1_spine, modBond_spine, spine_mk, spine_eta]

@[simp] theorem execFootingCheckFail_spine {x1 s0} : outSpine s0 (execFootingCheckFail x1 s0) = s0.spine := by
  unfold execFootingCheckFail
  with_reducible repeat' first
    | assumption
    | rfl
    | rw [outSpine_next]
    | (extract_lets +onlyGivenNames y
       refine (show (y.spine = s0.spine → _) from fun h => ?_) ?_
       on_goal 1 => clear_value y
       on_goal 2 => (simp only [y]; try clear y))
    | (extract_lets +onlyGivenNames y; clear_value y)
    | (refine (foldl_spine ?_).trans ?_; on_goal 1 => intro s0 _)
    | refine ite_spine ?_ ?_
    | refine ite_out ?_ ?_
    | (simp only [*, modBond_spine, rebucket_spine, fallNext_spine, spine_mk, spine_eta, outSpine_next]; done)
    | split
    | (simp [*]; done)
    | simp only [*, modBond_spine, rebucket_spine, fallNext_spine, spine_mk, spine_eta, outSpine_next]

@[simp] theorem plausibility_spine {s0 x1 x2 x3} : (State.plausibility s0 x1 x2 x3).spine = s0.spine := by
  unfold State.plausibility
  with_reducible repeat' first
    | assumption
    | rfl
    | (extract_lets +onlyGivenNames y
       refine (show (y.spine = s0.spine → _) from fun h => ?_) ?_
       on_goal 1 => clear_value y
       on_goal 2 => (simp only [y]; try clear y))
    | (extract_lets +onlyGivenNames y; clear_value y)
    | refine ite_spine ?_ ?_
    | (simp only [*, modBond_spine, spine_mk, spine_eta]; done)
    | split
    | (simp [*]; done)
    | simp only [*, modBond_spine, spine_mk, spine_eta]

@[simp] theorem execBondRebuildStart_spine {x1 s0} : outSpine s0 (execBondRebuildStart x1 s0) = s0.spine := by
  unfold execBondRebuildStart
  extract_lets b able inner go
  have hg : ∀ i, (go i).spine = s0.spine := by
    intro i
    simp only [go, inner, tileLevelsNow_spine, modBond_spine]
    exact foldl_spine (fun _ _ => modTile_spine)
  clear_value go
  split
  · rfl
  · split
    · split
      · exact hg _
      · rfl
    · split
      · split
        · exact hg _
        · rfl
      · rfl

@[simp] theorem execBondReturn_spine {x1 s0} : outSpine s0 (execBondReturn x1 s0) = s0.spine := by
  unfold execBondReturn
  with_reducible repeat' first
    | assumption
    | rfl
    | rw [outSpine_next]
    | (extract_lets +onlyGivenNames y
       refine (show (y.spine = s0.spine → _) from fun h => ?_) ?_
       on_goal 1 => clear_value y
       on_goal 2 => (simp only [y]; try clear y))
    | (extract_lets +onlyGivenNames y; clear_value y)
    | (refine (foldl_spine ?_).trans ?_; on_goal 1 => intro s0 _)
    | refine ite_spine ?_ ?_
    | refine ite_out ?_ ?_
    | (simp only [*, cutWindows_spine, openWindow_spine, modElem_spine, rebucket_spine, flickerRestart_spine, setReady_spine, modBond_spine, tryBonds_spine, toDuplex_spine, tileLevels_spine, spine_mk, spine_eta, outSpine_next]; done)
    | split
    | (simp [*]; done)
    | simp only [*, cutWindows_spine, openWindow_spine, modElem_spine, rebucket_spine, flickerRestart_spine, setReady_spine, modBond_spine, tryBonds_spine, toDuplex_spine, tileLevels_spine, spine_mk, spine_eta, outSpine_next]

@[simp] theorem replaceRebuilding_spine {s0 x1 x2} : (State.replaceRebuilding s0 x1 x2).spine = s0.spine := by
  unfold State.replaceRebuilding
  with_reducible repeat' first
    | assumption
    | rfl
    | (extract_lets +onlyGivenNames y
       refine (show (y.spine = s0.spine → _) from fun h => ?_) ?_
       on_goal 1 => clear_value y
       on_goal 2 => (simp only [y]; try clear y))
    | (extract_lets +onlyGivenNames y; clear_value y)
    | (refine (foldl_spine ?_).trans ?_; on_goal 1 => intro s0 _)
    | (simp only [*, f2_spine, fence_spine, gather_spine, spine_mk, spine_eta]; done)
    | split
    | (simp [*]; done)
    | simp only [*, f2_spine, fence_spine, gather_spine, spine_mk, spine_eta]

@[simp] theorem vote_spine {s0 x1 x2 x3} : (State.vote s0 x1 x2 x3).spine = s0.spine := by
  unfold State.vote
  with_reducible repeat' first
    | assumption
    | rfl
    | (extract_lets +onlyGivenNames y
       refine (show (y.spine = s0.spine → _) from fun h => ?_) ?_
       on_goal 1 => clear_value y
       on_goal 2 => (simp only [y]; try clear y))
    | (extract_lets +onlyGivenNames y; clear_value y)
    | refine ite_spine ?_ ?_
    | (simp only [*, fallNext_spine, fall_spine, f2_spine, fence_spine, tileLevelsNow_spine, startSubst_spine, modBond_spine, rejectJoining_spine, replaceRebuilding_spine, spine_mk, spine_eta]; done)
    | split
    | (simp [*]; done)
    | simp only [*, fallNext_spine, fall_spine, f2_spine, fence_spine, tileLevelsNow_spine, startSubst_spine, modBond_spine, rejectJoining_spine, replaceRebuilding_spine, spine_mk, spine_eta]

@[simp] theorem execTileTestDone_spine {x1 x2 s0} : outSpine s0 (execTileTestDone x1 x2 s0) = s0.spine := by
  unfold execTileTestDone
  with_reducible repeat' first
    | assumption
    | rfl
    | rw [outSpine_next]
    | (extract_lets +onlyGivenNames y
       refine (show (y.spine = s0.spine → _) from fun h => ?_) ?_
       on_goal 1 => clear_value y
       on_goal 2 => (simp only [y]; try clear y))
    | (extract_lets +onlyGivenNames y; clear_value y)
    | refine ite_spine ?_ ?_
    | refine ite_out ?_ ?_
    | (simp only [*, tileLevelsNow_spine, modTile_spine, tryBonds_spine, tilesSettle_spine, spine_mk, spine_eta, outSpine_next]; done)
    | split
    | (simp [*]; done)
    | simp only [*, tileLevelsNow_spine, modTile_spine, tryBonds_spine, tilesSettle_spine, spine_mk, spine_eta, outSpine_next]

@[simp] theorem convertTile_spine {s0 x1} : (State.convertTile s0 x1).spine = s0.spine := by
  unfold State.convertTile
  with_reducible repeat' first
    | assumption
    | rfl
    | (extract_lets +onlyGivenNames y
       refine (show (y.spine = s0.spine → _) from fun h => ?_) ?_
       on_goal 1 => clear_value y
       on_goal 2 => (simp only [y]; try clear y))
    | (extract_lets +onlyGivenNames y; clear_value y)
    | (simp only [*, modTile_spine, tileLevelsNow_spine, tryBonds_spine, tilesSettle_spine, spine_mk, spine_eta]; done)
    | split
    | (simp [*]; done)
    | simp only [*, modTile_spine, tileLevelsNow_spine, tryBonds_spine, tilesSettle_spine, spine_mk, spine_eta]

@[simp] theorem giveBond_spine {s0 x1 x2} : (State.giveBond s0 x1 x2).spine = s0.spine := by
  unfold State.giveBond
  with_reducible repeat' first
    | assumption
    | rfl
    | (extract_lets +onlyGivenNames y
       refine (show (y.spine = s0.spine → _) from fun h => ?_) ?_
       on_goal 1 => clear_value y
       on_goal 2 => (simp only [y]; try clear y))
    | (extract_lets +onlyGivenNames y; clear_value y)
    | (refine (foldl_spine ?_).trans ?_; on_goal 1 => intro s0 _)
    | refine ite_spine ?_ ?_
    | (simp only [*, modTile_spine, modBond_spine, spine_mk, spine_eta]; done)
    | split
    | (simp [*]; done)
    | simp only [*, modTile_spine, modBond_spine, spine_mk, spine_eta]

@[simp] theorem fillBonds_spine {s0} : (State.fillBonds s0).spine = s0.spine := by
  unfold State.fillBonds
  with_reducible repeat' first
    | assumption
    | rfl
    | (extract_lets +onlyGivenNames y
       refine (show (y.spine = s0.spine → _) from fun h => ?_) ?_
       on_goal 1 => clear_value y
       on_goal 2 => (simp only [y]; try clear y))
    | (extract_lets +onlyGivenNames y; clear_value y)
    | (refine (foldl_spine ?_).trans ?_; on_goal 1 => intro s0 _)
    | refine ite_spine ?_ ?_
    | (simp only [*, giveBond_spine, spine_mk, spine_eta]; done)
    | split
    | (simp [*]; done)
    | simp only [*, giveBond_spine, spine_mk, spine_eta]

@[simp] theorem noBond_spine {s0 x1} : (State.noBond s0 x1).spine = s0.spine := by
  unfold State.noBond
  with_reducible repeat' first
    | assumption
    | rfl
    | (extract_lets +onlyGivenNames y; clear_value y)
    | refine ite_spine ?_ ?_
    | (simp only [*, modBond_spine, spine_mk, spine_eta]; done)
    | split
    | (simp [*]; done)
    | simp only [*, modBond_spine, spine_mk, spine_eta]

@[simp] theorem allocateRest_spine {s0} : (State.allocateRest s0).spine = s0.spine := by
  unfold State.allocateRest
  extract_lets h n a rest g led b c d
  have ha : a.spine = s0.spine := by
    simp only [a]
    exact ite_spine (by simp only [giveBond_spine]) rfl
  have hb : b.spine = s0.spine := (foldl_spine (fun _ _ => modTile_spine)).trans ha
  have hc : c.spine = s0.spine := (foldl_spine (fun _ _ => modTile_spine)).trans hb
  have hd : d.2.spine = s0.spine := by simp only [d, draw_spine, hc]
  clear_value a b c d
  split
  rename_i q
  extract_lets f
  have hq : f.spine = s0.spine := by
    refine (foldl_spine (fun _ _ => modTile_spine)).trans ?_
    split at q <;> (obtain ⟨q1, q2⟩ := Prod.ext_iff.mp q; simp only at q1 q2; subst q2; first | exact hc | exact hd)
  rw [tilesSettle_spine]
  exact (foldl_spine (fun _ _ => noBond_spine)).trans hq

@[simp] theorem bondOn_spine {s0 x1} : (State.bondOn s0 x1).spine = s0.spine := by
  unfold State.bondOn
  with_reducible repeat' first
    | assumption
    | rfl
    | (extract_lets +onlyGivenNames y
       refine (show (y.spine = s0.spine → _) from fun h => ?_) ?_
       on_goal 1 => clear_value y
       on_goal 2 => (simp only [y]; try clear y))
    | (extract_lets +onlyGivenNames y; clear_value y)
    | (refine (foldl_spine ?_).trans ?_; on_goal 1 => intro s0 _)
    | refine ite_spine ?_ ?_
    | (simp only [*, modTile_spine, gather_spine, modBond_spine, spine_mk, spine_eta]; done)
    | split
    | (simp [*]; done)
    | simp only [*, modTile_spine, gather_spine, modBond_spine, spine_mk, spine_eta]

@[simp] theorem bondOff_spine {s0 x1} : (State.bondOff s0 x1).spine = s0.spine := by
  unfold State.bondOff
  with_reducible repeat' first
    | assumption
    | rfl
    | (extract_lets +onlyGivenNames y
       refine (show (y.spine = s0.spine → _) from fun h => ?_) ?_
       on_goal 1 => clear_value y
       on_goal 2 => (simp only [y]; try clear y))
    | (extract_lets +onlyGivenNames y; clear_value y)
    | (refine (foldl_spine ?_).trans ?_; on_goal 1 => intro s0 _)
    | refine ite_spine ?_ ?_
    | (simp only [*, releaseTile_spine, modTile_spine, modBond_spine, tileLevelsNow_spine, tryBonds_spine, tilesSettle_spine, spine_mk, spine_eta]; done)
    | split
    | (simp [*]; done)
    | simp only [*, releaseTile_spine, modTile_spine, modBond_spine, tileLevelsNow_spine, tryBonds_spine, tilesSettle_spine, spine_mk, spine_eta]

@[simp] theorem unlatch_spine {s0 x1} : (State.unlatch s0 x1).spine = s0.spine := by
  unfold State.unlatch
  with_reducible repeat' first
    | assumption
    | rfl
    | (extract_lets +onlyGivenNames y; clear_value y)
    | refine ite_spine ?_ ?_
    | (simp only [*, tileLevelsNow_spine, tryBonds_spine, modBond_spine, spine_mk, spine_eta]; done)
    | split
    | (simp [*]; done)
    | simp only [*, tileLevelsNow_spine, tryBonds_spine, modBond_spine, spine_mk, spine_eta]

@[simp] theorem countIndex_spine {s0 x1} : (State.countIndex s0 x1).spine = s0.spine := by
  unfold State.countIndex
  simp only [spine_mk, spine_eta]

@[simp] theorem bodyDiagTileStatus_spine {x1 x2 s0} : (bodyDiagTileStatus x1 x2 s0).1.spine = s0.spine := by
  unfold bodyDiagTileStatus
  with_reducible repeat' first
    | assumption
    | rfl
    | (extract_lets +onlyGivenNames y
       refine (show (y.spine = s0.spine → _) from fun h => ?_) ?_
       on_goal 1 => clear_value y
       on_goal 2 => (simp only [y]; try clear y))
    | (extract_lets +onlyGivenNames y
       refine (show (y.1.spine = s0.spine → _) from fun h => ?_) ?_
       on_goal 1 => clear_value y
       on_goal 2 => (simp only [y]; try clear y))
    | (extract_lets +onlyGivenNames y; clear_value y)
    | (refine (foldl_spine ?_).trans ?_; on_goal 1 => intro s0 _)
    | (refine fixedBody_spine ?_; intro _ _ s0)
    | (simp only [*, fixedBody_spine, modTile_spine, modBond_spine, spine_mk, spine_eta]; done)
    | (split <;> (try (rename_i q; obtain ⟨q1, q2⟩ := Prod.ext_iff.mp q; simp only at q1 q2; subst q1 q2)))
    | (simp [*]; done)
    | simp only [*, fixedBody_spine, modTile_spine, modBond_spine, spine_mk, spine_eta]

@[simp] theorem execDiagTileStatus_spine {x1 s0} : outSpine s0 (execDiagTileStatus x1 s0) = s0.spine := by
  unfold execDiagTileStatus
  with_reducible repeat' first
    | assumption
    | rfl
    | rw [outSpine_next]
    | (simp only [*, command_spine, bodyDiagTileStatus_spine, spine_mk, spine_eta, outSpine_next]; done)
    | (split <;> (try (rename_i q; obtain ⟨q1, q2⟩ := Prod.ext_iff.mp q; simp only at q1 q2; subst q1 q2)))
    | (simp [*]; done)
    | simp only [*, command_spine, bodyDiagTileStatus_spine, spine_mk, spine_eta, outSpine_next]

@[simp] theorem bodyDiagAvailRead_spine {x1 x2 s0} : (bodyDiagAvailRead x1 x2 s0).1.spine = s0.spine := by
  unfold bodyDiagAvailRead
  with_reducible repeat' first
    | assumption
    | rfl
    | (refine fixedBody_spine ?_; intro _ _ s0)
    | (simp only [*, fixedBody_spine, readBody_spine, spine_mk, spine_eta]; done)
    | (split <;> (try (rename_i q; obtain ⟨q1, q2⟩ := Prod.ext_iff.mp q; simp only at q1 q2; subst q1 q2)))
    | (simp [*]; done)
    | simp only [*, fixedBody_spine, readBody_spine, spine_mk, spine_eta]

@[simp] theorem execDiagAvailRead_spine {x1 s0} : outSpine s0 (execDiagAvailRead x1 s0) = s0.spine := by
  unfold execDiagAvailRead
  with_reducible repeat' first
    | assumption
    | rfl
    | rw [outSpine_next]
    | (simp only [*, command_spine, bodyDiagAvailRead_spine, spine_mk, spine_eta, outSpine_next]; done)
    | (split <;> (try (rename_i q; obtain ⟨q1, q2⟩ := Prod.ext_iff.mp q; simp only at q1 q2; subst q1 q2)))
    | (simp [*]; done)
    | simp only [*, command_spine, bodyDiagAvailRead_spine, spine_mk, spine_eta, outSpine_next]

@[simp] theorem emit_spine {s0 x1 x2} : (State.emit s0 x1 x2).spine = s0.spine := by
  unfold State.emit
  with_reducible repeat' first
    | assumption
    | rfl
    | (extract_lets +onlyGivenNames y
       refine (show (y.spine = s0.spine → _) from fun h => ?_) ?_
       on_goal 1 => clear_value y
       on_goal 2 => (simp only [y]; try clear y))
    | (extract_lets +onlyGivenNames y; clear_value y)
    | (refine (foldl_spine ?_).trans ?_; on_goal 1 => intro s0 _)
    | refine ite_spine ?_ ?_
    | (simp only [*, laneSend_spine, spine_mk, spine_eta]; done)
    | split
    | (simp [*]; done)
    | simp only [*, laneSend_spine, spine_mk, spine_eta]

@[simp] theorem backlog_spine {s0} : (State.backlog s0).spine = s0.spine := by
  unfold State.backlog
  simp only [level_spine, spine_mk, spine_eta]

@[simp] theorem closeUp_spine {s0} : (State.closeUp s0).spine = s0.spine := by
  unfold State.closeUp
  with_reducible repeat' first
    | assumption
    | rfl
    | (extract_lets +onlyGivenNames y
       refine (show (y.spine = s0.spine → _) from fun h => ?_) ?_
       on_goal 1 => clear_value y
       on_goal 2 => (simp only [y]; try clear y))
    | (extract_lets +onlyGivenNames y; clear_value y)
    | refine ite_spine ?_ ?_
    | (simp only [*, backlog_spine, emit_spine, spine_mk, spine_eta]; done)
    | split
    | (simp [*]; done)
    | simp only [*, backlog_spine, emit_spine, spine_mk, spine_eta]

@[simp] theorem appendUp_spine {s0 x1} : (State.appendUp s0 x1).spine = s0.spine := by
  unfold State.appendUp
  with_reducible repeat' first
    | assumption
    | rfl
    | (extract_lets +onlyGivenNames y
       refine (show (y.spine = s0.spine → _) from fun h => ?_) ?_
       on_goal 1 => clear_value y
       on_goal 2 => (simp only [y]; try clear y))
    | (extract_lets +onlyGivenNames y; clear_value y)
    | refine ite_spine ?_ ?_
    | (simp only [*, closeUp_spine, spine_mk, spine_eta]; done)
    | split
    | (simp [*]; done)
    | simp only [*, closeUp_spine, spine_mk, spine_eta]

@[simp] theorem resend_spine {s0 x1} : (State.resend s0 x1).spine = s0.spine := by
  unfold State.resend
  with_reducible repeat' first
    | assumption
    | rfl
    | (extract_lets +onlyGivenNames y
       refine (show (y.spine = s0.spine → _) from fun h => ?_) ?_
       on_goal 1 => clear_value y
       on_goal 2 => (simp only [y]; try clear y))
    | (extract_lets +onlyGivenNames y; clear_value y)
    | (refine (foldl_spine ?_).trans ?_; on_goal 1 => intro s0 _)
    | refine ite_spine ?_ ?_
    | (simp only [*, emit_spine, spine_mk, spine_eta]; done)
    | split
    | (simp [*]; done)
    | simp only [*, emit_spine, spine_mk, spine_eta]

@[simp] theorem sendDown_spine {s0 x1 x2} : (State.sendDown s0 x1 x2).spine = s0.spine := by
  unfold State.sendDown
  with_reducible repeat' first
    | assumption
    | rfl
    | (extract_lets +onlyGivenNames y
       refine (show (y.spine = s0.spine → _) from fun h => ?_) ?_
       on_goal 1 => clear_value y
       on_goal 2 => (simp only [y]; try clear y))
    | (extract_lets +onlyGivenNames y; clear_value y)
    | refine ite_spine ?_ ?_
    | (simp only [*, emit_spine, spine_mk, spine_eta]; done)
    | split
    | (simp [*]; done)
    | simp only [*, emit_spine, spine_mk, spine_eta]

@[simp] theorem flushDown_spine {s0 x1} : (State.flushDown s0 x1).spine = s0.spine := by
  unfold State.flushDown
  with_reducible repeat' first
    | assumption
    | rfl
    | (extract_lets +onlyGivenNames y
       refine (show (y.spine = s0.spine → _) from fun h => ?_) ?_
       on_goal 1 => clear_value y
       on_goal 2 => (simp only [y]; try clear y))
    | (extract_lets +onlyGivenNames y; clear_value y)
    | (refine (foldl_spine ?_).trans ?_; on_goal 1 => intro s0 _)
    | (simp only [*, sendDown_spine, spine_mk, spine_eta]; done)
    | split
    | (simp [*]; done)
    | simp only [*, sendDown_spine, spine_mk, spine_eta]

@[simp] theorem sendAck_spine {s0 x1 x2 x3} : (State.sendAck s0 x1 x2 x3).spine = s0.spine := by
  unfold State.sendAck
  simp only [emit_spine, spine_mk, spine_eta]

@[simp] theorem measureQueue_spine {s0 x1} : (State.measureQueue s0 x1).spine = s0.spine := by
  unfold State.measureQueue
  simp only [level_spine, spine_mk, spine_eta]

@[simp] theorem shedBody_spine {x1 x2 x3 x4 s0} (h : ∀ c p s, (x2 c p s).1.spine = s.spine) : (shedBody x1 x2 x3 x4 s0).1.spine = s0.spine := by
  unfold shedBody
  exact ite_fst rfl (h _ _ _)

@[simp] theorem modMeter_spine {s0 x1 x2} : (State.modMeter s0 x1 x2).spine = s0.spine := by
  unfold State.modMeter
  simp only [spine_mk, spine_eta]

@[simp] theorem keepCtr_spine {s0 x1 x2 x3} : (State.keepCtr s0 x1 x2 x3).spine = s0.spine := by
  unfold State.keepCtr
  simp only [spine_mk, spine_eta]

@[simp] theorem useCtr_spine {s0 x1} : (State.useCtr s0 x1).spine = s0.spine := by
  unfold State.useCtr
  with_reducible repeat' first
    | assumption
    | rfl
    | (extract_lets +onlyGivenNames y
       refine (show (y.spine = s0.spine → _) from fun h => ?_) ?_
       on_goal 1 => clear_value y
       on_goal 2 => (simp only [y]; try clear y))
    | (extract_lets +onlyGivenNames y; clear_value y)
    | (simp only [*, modMeter_spine, keepCtr_spine, spine_mk, spine_eta]; done)
    | split
    | (simp [*]; done)
    | simp only [*, modMeter_spine, keepCtr_spine, spine_mk, spine_eta]

@[simp] theorem tableLevels_spine {s0} : (State.tableLevels s0).spine = s0.spine := by
  unfold State.tableLevels
  simp only [level_spine, spine_mk, spine_eta]

@[simp] theorem dropMeter_spine {s0 x1} : (State.dropMeter s0 x1).spine = s0.spine := by
  unfold State.dropMeter
  with_reducible repeat' first
    | assumption
    | rfl
    | (extract_lets +onlyGivenNames y
       refine (show (y.spine = s0.spine → _) from fun h => ?_) ?_
       on_goal 1 => clear_value y
       on_goal 2 => (simp only [y]; try clear y))
    | (extract_lets +onlyGivenNames y; clear_value y)
    | (simp only [*, keepCtr_spine, tableLevels_spine, spine_mk, spine_eta]; done)
    | split
    | (simp [*]; done)
    | simp only [*, keepCtr_spine, tableLevels_spine, spine_mk, spine_eta]

@[simp] theorem presence_spine {s0 x1 x2 x3} : (State.presence s0 x1 x2 x3).spine = s0.spine := by
  unfold State.presence
  simp only [appendUp_spine, spine_mk, spine_eta]

@[simp] theorem cloneLock_spine {s0 x1} : (State.cloneLock s0 x1).spine = s0.spine := by
  unfold State.cloneLock
  with_reducible repeat' first
    | assumption
    | rfl
    | (extract_lets +onlyGivenNames y
       refine (show (y.spine = s0.spine → _) from fun h => ?_) ?_
       on_goal 1 => clear_value y
       on_goal 2 => (simp only [y]; try clear y))
    | (extract_lets +onlyGivenNames y; clear_value y)
    | refine ite_spine ?_ ?_
    | (simp only [*, pulse_spine, spine_mk, spine_eta]; done)
    | split
    | (simp [*]; done)
    | simp only [*, pulse_spine, spine_mk, spine_eta]

@[simp] theorem takeReading_spine {s0 x1 x2 x3} : (State.takeReading s0 x1 x2 x3).spine = s0.spine := by
  unfold State.takeReading
  simp only [modMeter_spine, appendUp_spine, spine_mk, spine_eta]

@[simp] theorem startCatchUp_spine {s0} : (State.startCatchUp s0).spine = s0.spine := by
  unfold State.startCatchUp
  simp only [spine_mk, spine_eta]

@[simp] theorem ackReadings_spine {s0 x1} : (State.ackReadings s0 x1).spine = s0.spine := by
  unfold State.ackReadings
  with_reducible repeat' first
    | assumption
    | rfl
    | (extract_lets +onlyGivenNames y; clear_value y)
    | (refine (foldl_spine ?_).trans ?_; on_goal 1 => intro s0 _)
    | refine ite_spine ?_ ?_
    | (simp only [*, modMeter_spine, spine_mk, spine_eta]; done)
    | split
    | (simp [*]; done)
    | simp only [*, modMeter_spine, spine_mk, spine_eta]

@[simp] theorem dropSent_spine {s0 x1} : (State.dropSent s0 x1).spine = s0.spine := by
  unfold State.dropSent
  with_reducible repeat' first
    | assumption
    | rfl
    | (extract_lets +onlyGivenNames y
       refine (show (y.spine = s0.spine → _) from fun h => ?_) ?_
       on_goal 1 => clear_value y
       on_goal 2 => (simp only [y]; try clear y))
    | (extract_lets +onlyGivenNames y; clear_value y)
    | (refine (foldl_spine ?_).trans ?_; on_goal 1 => intro s0 _)
    | refine ite_spine ?_ ?_
    | (simp only [*, ackReadings_spine, backlog_spine, startCatchUp_spine, spine_mk, spine_eta]; done)
    | split
    | (simp [*]; done)
    | simp only [*, ackReadings_spine, backlog_spine, startCatchUp_spine, spine_mk, spine_eta]

@[simp] theorem meterSnap_spine {s0 x1 x2 x3 x4 x5} : (State.meterSnap s0 x1 x2 x3 x4 x5).spine = s0.spine := by
  unfold State.meterSnap
  simp only [draw_spine, appendUp_spine, spine_mk, spine_eta]

@[simp] theorem modLeafJob_spine {s0 x1 x2} : (State.modLeafJob s0 x1 x2).spine = s0.spine := by
  unfold State.modLeafJob
  simp only [spine_mk, spine_eta]

@[simp] theorem newKeys_spine {s0 x1 x2} : (State.newKeys s0 x1 x2).spine = s0.spine := by
  unfold State.newKeys
  with_reducible repeat' first
    | assumption
    | rfl
    | (extract_lets +onlyGivenNames y
       refine (show (y.spine = s0.spine → _) from fun h => ?_) ?_
       on_goal 1 => clear_value y
       on_goal 2 => (simp only [y]; try clear y))
    | (extract_lets +onlyGivenNames y; clear_value y)
    | (refine (foldl_spine ?_).trans ?_; on_goal 1 => intro s0 _)
    | refine ite_spine ?_ ?_
    | (simp only [*, spine_mk, spine_eta]; done)
    | split
    | (simp [*]; done)
    | simp only [*, spine_mk, spine_eta]

@[simp] theorem targetTo_spine {s0 x1 x2 x3} : (State.targetTo s0 x1 x2 x3).spine = s0.spine := by
  unfold State.targetTo
  with_reducible repeat' first
    | assumption
    | rfl
    | (extract_lets +onlyGivenNames y
       refine (show (y.spine = s0.spine → _) from fun h => ?_) ?_
       on_goal 1 => clear_value y
       on_goal 2 => (simp only [y]; try clear y))
    | (extract_lets +onlyGivenNames y; clear_value y)
    | refine ite_spine ?_ ?_
    | (simp only [*, modLeafJob_spine, appendUp_spine, spine_mk, spine_eta]; done)
    | split
    | (simp [*]; done)
    | simp only [*, modLeafJob_spine, appendUp_spine, spine_mk, spine_eta]

@[simp] theorem pushAck_spine {s0 x1 x2} : (State.pushAck s0 x1 x2).spine = s0.spine := by
  unfold State.pushAck
  with_reducible repeat' first
    | assumption
    | rfl
    | (extract_lets +onlyGivenNames y
       refine (show (y.spine = s0.spine → _) from fun h => ?_) ?_
       on_goal 1 => clear_value y
       on_goal 2 => (simp only [y]; try clear y))
    | (extract_lets +onlyGivenNames y; clear_value y)
    | refine ite_spine ?_ ?_
    | (simp only [*, modLeafJob_spine, targetTo_spine, spine_mk, spine_eta]; done)
    | split
    | (simp [*]; done)
    | simp only [*, modLeafJob_spine, targetTo_spine, spine_mk, spine_eta]

@[simp] theorem pushCycle_spine {s0 x1} : (State.pushCycle s0 x1).spine = s0.spine := by
  unfold State.pushCycle
  with_reducible repeat' first
    | assumption
    | rfl
    | (extract_lets +onlyGivenNames y
       refine (show (y.spine = s0.spine → _) from fun h => ?_) ?_
       on_goal 1 => clear_value y
       on_goal 2 => (simp only [y]; try clear y))
    | (extract_lets +onlyGivenNames y; clear_value y)
    | (refine (foldl_spine ?_).trans ?_; on_goal 1 => intro s0 _)
    | refine ite_spine ?_ ?_
    | (simp only [*, modLeafJob_spine, targetTo_spine, spine_mk, spine_eta]; done)
    | split
    | (simp [*]; done)
    | simp only [*, modLeafJob_spine, targetTo_spine, spine_mk, spine_eta]

@[simp] theorem plcSend_spine {s0 x1 x2 x3 x4 x5} : (State.plcSend s0 x1 x2 x3 x4 x5).spine = s0.spine := by
  unfold State.plcSend
  simp only [spine_mk, spine_eta]

@[simp] theorem plcExchange_spine {s0 x1 x2 x3 x4 x5 x6 x7} : (State.plcExchange s0 x1 x2 x3 x4 x5 x6 x7).spine = s0.spine := by
  unfold State.plcExchange
  simp only [plcSend_spine, spine_mk, spine_eta]

@[simp] theorem plcBroadcast_spine {s0 x1 x2 x3 x4 x5} : (State.plcBroadcast s0 x1 x2 x3 x4 x5).spine = s0.spine := by
  unfold State.plcBroadcast
  simp only [plcSend_spine, spine_mk, spine_eta]

@[simp] theorem plcToMeter_spine {s0 x1 x2 x3 x4 x5 x6 x7} : (State.plcToMeter s0 x1 x2 x3 x4 x5 x6 x7).spine = s0.spine := by
  unfold State.plcToMeter
  simp only [modMeter_spine, plcExchange_spine, spine_mk, spine_eta]

@[simp] theorem plcServe_spine {s0 x1 x2 x3 x4} : (State.plcServe s0 x1 x2 x3 x4).spine = s0.spine := by
  unfold State.plcServe
  with_reducible repeat' first
    | assumption
    | rfl
    | (extract_lets +onlyGivenNames y
       refine (show (y.spine = s0.spine → _) from fun h => ?_) ?_
       on_goal 1 => clear_value y
       on_goal 2 => (simp only [y]; try clear y))
    | (extract_lets +onlyGivenNames y; clear_value y)
    | refine ite_spine ?_ ?_
    | (simp only [*, plcToMeter_spine, modLeafJob_spine, spine_mk, spine_eta]; done)
    | split
    | (simp [*]; done)
    | simp only [*, plcToMeter_spine, modLeafJob_spine, spine_mk, spine_eta]

@[simp] theorem meterAbsent_spine {s0 x1 x2 x3} : (State.meterAbsent s0 x1 x2 x3).spine = s0.spine := by
  unfold State.meterAbsent
  with_reducible repeat' first
    | assumption
    | rfl
    | (extract_lets +onlyGivenNames y
       refine (show (y.spine = s0.spine → _) from fun h => ?_) ?_
       on_goal 1 => clear_value y
       on_goal 2 => (simp only [y]; try clear y))
    | (extract_lets +onlyGivenNames y; clear_value y)
    | (simp only [*, presence_spine, pulse_spine, modMeter_spine, meterSnap_spine, spine_mk, spine_eta]; done)
    | split
    | (simp [*]; done)
    | simp only [*, presence_spine, pulse_spine, modMeter_spine, meterSnap_spine, spine_mk, spine_eta]

@[simp] theorem meterMissed_spine {s0 x1 x2} : (State.meterMissed s0 x1 x2).spine = s0.spine := by
  unfold State.meterMissed
  with_reducible repeat' first
    | assumption
    | rfl
    | (extract_lets +onlyGivenNames y
       refine (show (y.spine = s0.spine → _) from fun h => ?_) ?_
       on_goal 1 => clear_value y
       on_goal 2 => (simp only [y]; try clear y))
    | (extract_lets +onlyGivenNames y; clear_value y)
    | refine ite_spine ?_ ?_
    | (simp only [*, modMeter_spine, meterSnap_spine, meterAbsent_spine, spine_mk, spine_eta]; done)
    | split
    | (simp [*]; done)
    | simp only [*, modMeter_spine, meterSnap_spine, meterAbsent_spine, spine_mk, spine_eta]

@[simp] theorem modConfirm_spine {s0 x1 x2} : (State.modConfirm s0 x1 x2).spine = s0.spine := by
  unfold State.modConfirm
  simp only [spine_mk, spine_eta]

@[simp] theorem plcMiss_spine {s0 x1} : (State.plcMiss s0 x1).spine = s0.spine := by
  unfold State.plcMiss
  with_reducible repeat' first
    | assumption
    | rfl
    | (extract_lets +onlyGivenNames y
       refine (show (y.spine = s0.spine → _) from fun h => ?_) ?_
       on_goal 1 => clear_value y
       on_goal 2 => (simp only [y]; try clear y))
    | (extract_lets +onlyGivenNames y; clear_value y)
    | refine ite_spine ?_ ?_
    | (simp only [*, modConfirm_spine, meterMissed_spine, spine_mk, spine_eta]; done)
    | split
    | (simp [*]; done)
    | simp only [*, modConfirm_spine, meterMissed_spine, spine_mk, spine_eta]

@[simp] theorem latchLost_spine {s0 x1} : (State.latchLost s0 x1).spine = s0.spine := by
  unfold State.latchLost
  with_reducible repeat' first
    | assumption
    | rfl
    | (refine (foldl_spine ?_).trans ?_; on_goal 1 => intro s0 _)
    | (simp only [*, meterSnap_spine, spine_mk, spine_eta]; done)
    | split
    | (simp [*]; done)
    | simp only [*, meterSnap_spine, spine_mk, spine_eta]

@[simp] theorem closeRound_spine {s0} : (State.closeRound s0).spine = s0.spine := by
  unfold State.closeRound
  with_reducible repeat' first
    | assumption
    | rfl
    | (extract_lets +onlyGivenNames y
       refine (show (y.spine = s0.spine → _) from fun h => ?_) ?_
       on_goal 1 => clear_value y
       on_goal 2 => (simp only [y]; try clear y))
    | (extract_lets +onlyGivenNames y; clear_value y)
    | (simp only [*, pulse_spine, spine_mk, spine_eta]; done)
    | split
    | (simp [*]; done)
    | simp only [*, pulse_spine, spine_mk, spine_eta]

@[simp] theorem plcStop_spine {s0} : (State.plcStop s0).spine = s0.spine := by
  unfold State.plcStop
  with_reducible repeat' first
    | assumption
    | rfl
    | (extract_lets +onlyGivenNames y
       refine (show (y.spine = s0.spine → _) from fun h => ?_) ?_
       on_goal 1 => clear_value y
       on_goal 2 => (simp only [y]; try clear y))
    | (extract_lets +onlyGivenNames y; clear_value y)
    | (refine (foldl_spine ?_).trans ?_; on_goal 1 => intro s0 _)
    | (simp only [*, closeRound_spine, latchLost_spine, spine_mk, spine_eta]; done)
    | split
    | (simp [*]; done)
    | simp only [*, closeRound_spine, latchLost_spine, spine_mk, spine_eta]

@[simp] theorem plcLevel_spine {s0} : (State.plcLevel s0).spine = s0.spine := by
  unfold State.plcLevel
  with_reducible repeat' first
    | assumption
    | rfl
    | (extract_lets +onlyGivenNames y
       refine (show (y.spine = s0.spine → _) from fun h => ?_) ?_
       on_goal 1 => clear_value y
       on_goal 2 => (simp only [y]; try clear y))
    | (extract_lets +onlyGivenNames y; clear_value y)
    | refine ite_spine ?_ ?_
    | (simp only [*, level_spine, closeRound_spine, spine_mk, spine_eta]; done)
    | split
    | (simp [*]; done)
    | simp only [*, level_spine, closeRound_spine, spine_mk, spine_eta]

theorem plcConfirm_spine {s0 s1} (h : State.plcConfirm s0 = some s1) : s1.spine = s0.spine := by
  unfold State.plcConfirm at h
  split at h
  · split at h
    · cases h
    · rw [Option.map_eq_some_iff] at h
      obtain ⟨c, -, rfl⟩ := h
      dsimp only
      rw [plcExchange_spine, useCtr_spine, modConfirm_spine]
  · cases h

theorem plcDue_spine {s0 s1} (h : State.plcDue s0 = some s1) : s1.spine = s0.spine := by
  unfold State.plcDue at h
  dsimp only at h
  split at h
  · rw [Option.some.injEq] at h; rw [← h]; exact plcServe_spine
  · split at h
    · rw [Option.some.injEq] at h; rw [← h]; exact plcServe_spine
    · split at h
      · rw [Option.some.injEq] at h; rw [← h]; exact plcServe_spine
      · rw [Option.map_eq_some_iff] at h
        obtain ⟨x, -, rfl⟩ := h
        exact plcServe_spine

@[simp] theorem setBcastCtr_spine {s0 x1} : (State.setBcastCtr s0 x1).spine = s0.spine := by
  unfold State.setBcastCtr
  simp only [spine_mk, spine_eta]

theorem plcPushCast_spine {s0 x1 s1} (h : State.plcPushCast s0 x1 = some s1) : s1.spine = s0.spine := by
  unfold State.plcPushCast at h
  split at h
  · cases h
  · dsimp only at h
    rw [Option.some.injEq] at h
    rw [← h]
    simp only [setBcastCtr_spine, plcBroadcast_spine, modLeafJob_spine]

theorem plcPush_spine {s0 s1} (h : State.plcPush s0 = some s1) : s1.spine = s0.spine := by
  unfold State.plcPush at h
  obtain ⟨j, -, hj⟩ := List.exists_of_findSome?_eq_some h
  split at hj
  · rename_i q
    rw [Option.some.injEq] at hj; rw [← hj]; exact plcPushCast_spine q
  · rw [Option.map_eq_some_iff] at hj
    obtain ⟨x, -, rfl⟩ := hj
    exact plcServe_spine

@[simp] theorem plcFill_spine {s0} : (State.plcFill s0).spine = s0.spine := by
  unfold State.plcFill
  repeat' refine ite_spine ?_ ?_
  · rfl
  · rfl
  · rfl
  · split
    · exact plcConfirm_spine ‹_›
    · split
      · exact plcDue_spine ‹_›
      · cases q : State.plcPush s0 with
        | none => rfl
        | some t => exact plcPush_spine q

@[simp] theorem latchExpire_spine {s0} : (State.latchExpire s0).spine = s0.spine := by
  unfold State.latchExpire
  with_reducible repeat' first
    | assumption
    | rfl
    | (extract_lets +onlyGivenNames y
       refine (show (y.spine = s0.spine → _) from fun h => ?_) ?_
       on_goal 1 => clear_value y
       on_goal 2 => (simp only [y]; try clear y))
    | (extract_lets +onlyGivenNames y; clear_value y)
    | (refine (foldl_spine ?_).trans ?_; on_goal 1 => intro s0 _)
    | (simp only [*, latchLost_spine, spine_mk, spine_eta]; done)
    | split
    | (simp [*]; done)
    | simp only [*, latchLost_spine, spine_mk, spine_eta]

@[simp] theorem slotUsed_spine {s0} : (State.slotUsed s0).spine = s0.spine := by
  unfold State.slotUsed
  simp only [spine_mk, spine_eta]

@[simp] theorem slotStart_spine {s0 x1 x2} : (State.slotStart s0 x1 x2).spine = s0.spine := by
  unfold State.slotStart
  simp only [plcFill_spine, latchExpire_spine, plcLevel_spine, spine_mk, spine_eta]

@[simp] theorem execZcGridCrossing_spine {x1 x2 s0} : outSpine s0 (execZcGridCrossing x1 x2 s0) = s0.spine := by
  unfold execZcGridCrossing
  with_reducible repeat' first
    | assumption
    | rfl
    | rw [outSpine_next]
    | (extract_lets +onlyGivenNames y
       refine (show (y.spine = s0.spine → _) from fun h => ?_) ?_
       on_goal 1 => clear_value y
       on_goal 2 => (simp only [y]; try clear y))
    | (extract_lets +onlyGivenNames y; clear_value y)
    | refine ite_spine ?_ ?_
    | refine ite_out ?_ ?_
    | (simp only [*, slotStart_spine, spine_mk, spine_eta, outSpine_next]; done)
    | split
    | (simp [*]; done)
    | simp only [*, slotStart_spine, spine_mk, spine_eta, outSpine_next]

@[simp] theorem execZcFaultEnter_spine {s0} : outSpine s0 (execZcFaultEnter s0) = s0.spine := by
  unfold execZcFaultEnter
  with_reducible repeat' first
    | assumption
    | rfl
    | rw [outSpine_next]
    | (extract_lets +onlyGivenNames y; clear_value y)
    | refine ite_spine ?_ ?_
    | refine ite_out ?_ ?_
    | (simp only [*, level_spine, spine_mk, spine_eta, outSpine_next]; done)
    | split
    | (simp [*]; done)
    | simp only [*, level_spine, spine_mk, spine_eta, outSpine_next]

@[simp] theorem execZcFaultClear_spine {s0} : outSpine s0 (execZcFaultClear s0) = s0.spine := by
  unfold execZcFaultClear
  with_reducible repeat' first
    | assumption
    | rfl
    | rw [outSpine_next]
    | (extract_lets +onlyGivenNames y; clear_value y)
    | refine ite_spine ?_ ?_
    | refine ite_out ?_ ?_
    | (simp only [*, level_spine, spine_mk, spine_eta, outSpine_next]; done)
    | split
    | (simp [*]; done)
    | simp only [*, level_spine, spine_mk, spine_eta, outSpine_next]

@[simp] theorem plcBoundary_spine {s0 x1 x2} : (State.plcBoundary s0 x1 x2).spine = s0.spine := by
  unfold State.plcBoundary
  with_reducible repeat' first
    | assumption
    | rfl
    | (extract_lets +onlyGivenNames y
       refine (show (y.spine = s0.spine → _) from fun h => ?_) ?_
       on_goal 1 => clear_value y
       on_goal 2 => (simp only [y]; try clear y))
    | (extract_lets +onlyGivenNames y; clear_value y)
    | refine ite_spine ?_ ?_
    | (simp only [*, plcMiss_spine, slotStart_spine, spine_mk, spine_eta]; done)
    | split
    | (simp [*]; done)
    | simp only [*, plcMiss_spine, slotStart_spine, spine_mk, spine_eta]

@[simp] theorem meterAnswered_spine {s0 x1 x2 x3} : (State.meterAnswered s0 x1 x2 x3).spine = s0.spine := by
  unfold State.meterAnswered
  with_reducible repeat' first
    | assumption
    | rfl
    | (extract_lets +onlyGivenNames y
       refine (show (y.spine = s0.spine → _) from fun h => ?_) ?_
       on_goal 1 => clear_value y
       on_goal 2 => (simp only [y]; try clear y))
    | (extract_lets +onlyGivenNames y; clear_value y)
    | refine ite_spine ?_ ?_
    | (simp only [*, modMeter_spine, presence_spine, pulse_spine, spine_mk, spine_eta]; done)
    | split
    | (simp [*]; done)
    | simp only [*, modMeter_spine, presence_spine, pulse_spine, spine_mk, spine_eta]

@[simp] theorem exchDone_spine {s0} : (State.exchDone s0).spine = s0.spine := by
  unfold State.exchDone
  simp only [spine_mk, spine_eta]

@[simp] theorem plcAnswer_spine {s0 x1 x2 x3 x4 x5} (h : ∀ k a m b s, (x5 k a m b s).spine = s.spine) : (State.plcAnswer s0 x1 x2 x3 x4 x5).spine = s0.spine := by
  unfold State.plcAnswer
  split
  · rfl
  · split
    · split
      · rfl
      · split
        · rfl
        · rw [pulse_spine, plcMiss_spine]
        · rw [h, meterAnswered_spine, exchDone_spine]
    · rfl

@[simp] theorem execPlcReadingReceive_spine {x1 s0} : outSpine s0 (execPlcReadingReceive x1 s0) = s0.spine := by
  unfold execPlcReadingReceive
  with_reducible repeat' first
    | assumption
    | rfl
    | rw [outSpine_next]
    | (extract_lets +onlyGivenNames y; clear_value y)
    | (simp only [*, plcAnswer_spine, takeReading_spine, spine_mk, spine_eta, outSpine_next]; done)
    | split
    | (simp [*]; done)
    | simp only [*, plcAnswer_spine, takeReading_spine, spine_mk, spine_eta, outSpine_next]

@[simp] theorem execPlcLatchReportReceive_spine {x1 s0} : outSpine s0 (execPlcLatchReportReceive x1 s0) = s0.spine := by
  unfold execPlcLatchReportReceive
  with_reducible repeat' first
    | assumption
    | rfl
    | rw [outSpine_next]
    | (extract_lets +onlyGivenNames y; clear_value y)
    | (simp only [*, plcAnswer_spine, meterSnap_spine, modMeter_spine, spine_mk, spine_eta, outSpine_next]; done)
    | split
    | (simp [*]; done)
    | simp only [*, plcAnswer_spine, meterSnap_spine, modMeter_spine, spine_mk, spine_eta, outSpine_next]

@[simp] theorem execPlcPushAckReceive_spine {x1 s0} : outSpine s0 (execPlcPushAckReceive x1 s0) = s0.spine := by
  unfold execPlcPushAckReceive
  with_reducible repeat' first
    | assumption
    | rfl
    | rw [outSpine_next]
    | (extract_lets +onlyGivenNames y; clear_value y)
    | (simp only [*, plcAnswer_spine, pushAck_spine, spine_mk, spine_eta, outSpine_next]; done)
    | split
    | (simp [*]; done)
    | simp only [*, plcAnswer_spine, pushAck_spine, spine_mk, spine_eta, outSpine_next]

@[simp] theorem unknownEnd_spine {s0 x1} : (State.unknownEnd s0 x1).spine = s0.spine := by
  unfold State.unknownEnd
  with_reducible repeat' first
    | assumption
    | rfl
    | (extract_lets +onlyGivenNames y
       refine (show (y.spine = s0.spine → _) from fun h => ?_) ?_
       on_goal 1 => clear_value y
       on_goal 2 => (simp only [y]; try clear y))
    | (extract_lets +onlyGivenNames y; clear_value y)
    | refine ite_spine ?_ ?_
    | (simp only [*, spine_mk, spine_eta]; done)
    | split
    | (simp [*]; done)
    | simp only [*, spine_mk, spine_eta]

@[simp] theorem execPlcNakReceive_spine {x1 s0} : outSpine s0 (execPlcNakReceive x1 s0) = s0.spine := by
  unfold execPlcNakReceive
  with_reducible repeat' first
    | assumption
    | rfl
    | rw [outSpine_next]
    | (extract_lets +onlyGivenNames y
       refine (show (y.spine = s0.spine → _) from fun h => ?_) ?_
       on_goal 1 => clear_value y
       on_goal 2 => (simp only [y]; try clear y))
    | (extract_lets +onlyGivenNames y; clear_value y)
    | refine ite_spine ?_ ?_
    | refine ite_out ?_ ?_
    | (simp only [*, pulse_spine, plcMiss_spine, modMeter_spine, unknownEnd_spine, spine_mk, spine_eta, outSpine_next]; done)
    | split
    | (simp [*]; done)
    | simp only [*, pulse_spine, plcMiss_spine, modMeter_spine, unknownEnd_spine, spine_mk, spine_eta, outSpine_next]

@[simp] theorem execPlcExchangeMissed_spine {s0} : outSpine s0 (execPlcExchangeMissed s0) = s0.spine := by
  unfold execPlcExchangeMissed
  with_reducible repeat' first
    | assumption
    | rfl
    | rw [outSpine_next]
    | (extract_lets +onlyGivenNames y; clear_value y)
    | refine ite_spine ?_ ?_
    | refine ite_out ?_ ?_
    | (simp only [*, plcMiss_spine, spine_mk, spine_eta, outSpine_next]; done)
    | split
    | (simp [*]; done)
    | simp only [*, plcMiss_spine, spine_mk, spine_eta, outSpine_next]

@[simp] theorem execPlcPollDue_spine {x1 s0} : outSpine s0 (execPlcPollDue x1 s0) = s0.spine := by
  unfold execPlcPollDue
  with_reducible repeat' first
    | assumption
    | rfl
    | rw [outSpine_next]
    | (extract_lets +onlyGivenNames y
       refine (show (y.spine = s0.spine → _) from fun h => ?_) ?_
       on_goal 1 => clear_value y
       on_goal 2 => (simp only [y]; try clear y))
    | (extract_lets +onlyGivenNames y; clear_value y)
    | refine ite_spine ?_ ?_
    | refine ite_out ?_ ?_
    | (simp only [*, modMeter_spine, spine_mk, spine_eta, outSpine_next]; done)
    | split
    | (simp [*]; done)
    | simp only [*, modMeter_spine, spine_mk, spine_eta, outSpine_next]

@[simp] theorem execPlcRepeatDue_spine {x1 s0} : outSpine s0 (execPlcRepeatDue x1 s0) = s0.spine := by
  unfold execPlcRepeatDue
  with_reducible repeat' first
    | assumption
    | rfl
    | rw [outSpine_next]
    | (extract_lets +onlyGivenNames y; clear_value y)
    | refine ite_spine ?_ ?_
    | refine ite_out ?_ ?_
    | (simp only [*, spine_mk, spine_eta, outSpine_next]; done)
    | split
    | (simp [*]; done)
    | simp only [*, spine_mk, spine_eta, outSpine_next]

@[simp] theorem newCycle_spine {s0 x1} : (State.newCycle s0 x1).spine = s0.spine := by
  unfold State.newCycle
  with_reducible repeat' first
    | assumption
    | rfl
    | (extract_lets +onlyGivenNames y; clear_value y)
    | (refine (foldl_spine ?_).trans ?_; on_goal 1 => intro s0 _)
    | (simp only [*, modMeter_spine, spine_mk, spine_eta]; done)
    | split
    | (simp [*]; done)
    | simp only [*, modMeter_spine, spine_mk, spine_eta]

@[simp] theorem execPlcPollCycleEnd_spine {s0} : outSpine s0 (execPlcPollCycleEnd s0) = s0.spine := by
  unfold execPlcPollCycleEnd
  with_reducible repeat' first
    | assumption
    | rfl
    | rw [outSpine_next]
    | (extract_lets +onlyGivenNames y
       refine (show (y.spine = s0.spine → _) from fun h => ?_) ?_
       on_goal 1 => clear_value y
       on_goal 2 => (simp only [y]; try clear y))
    | (extract_lets +onlyGivenNames y; clear_value y)
    | refine ite_spine ?_ ?_
    | refine ite_out ?_ ?_
    | (simp only [*, pushCycle_spine, newCycle_spine, level_spine, spine_mk, spine_eta, outSpine_next]; done)
    | split
    | (simp [*]; done)
    | simp only [*, pushCycle_spine, newCycle_spine, level_spine, spine_mk, spine_eta, outSpine_next]

@[simp] theorem execSearchRoundStart_spine {s0} : outSpine s0 (execSearchRoundStart s0) = s0.spine := by
  unfold execSearchRoundStart
  with_reducible repeat' first
    | assumption
    | rfl
    | rw [outSpine_next]
    | (extract_lets +onlyGivenNames y
       refine (show (y.spine = s0.spine → _) from fun h => ?_) ?_
       on_goal 1 => clear_value y
       on_goal 2 => (simp only [y]; try clear y))
    | (extract_lets +onlyGivenNames y; clear_value y)
    | refine ite_spine ?_ ?_
    | refine ite_out ?_ ?_
    | (simp only [*, plcBroadcast_spine, slotUsed_spine, spine_mk, spine_eta, outSpine_next]; done)
    | split
    | (simp [*]; done)
    | simp only [*, plcBroadcast_spine, slotUsed_spine, spine_mk, spine_eta, outSpine_next]

@[simp] theorem execPlcAnswerReceive_spine {x1 x2 s0} : outSpine s0 (execPlcAnswerReceive x1 x2 s0) = s0.spine := by
  unfold execPlcAnswerReceive
  with_reducible repeat' first
    | assumption
    | rfl
    | rw [outSpine_next]
    | (extract_lets +onlyGivenNames y
       refine (show (y.spine = s0.spine → _) from fun h => ?_) ?_
       on_goal 1 => clear_value y
       on_goal 2 => (simp only [y]; try clear y))
    | (extract_lets +onlyGivenNames y
       have hk : Kiln.ph y = Kiln.ph (State.kiln _) := rfl
       clear_value y)
    | (extract_lets +onlyGivenNames y; clear_value y)
    | refine ite_spine ?_ ?_
    | refine ite_out ?_ ?_
    | (simp only [*, cloneLock_spine, spine_mk, spine_eta, outSpine_next]; done)
    | split
    | (simp [*]; done)
    | simp only [*, cloneLock_spine, spine_mk, spine_eta, outSpine_next]

@[simp] theorem answerer_spine {s0 x1 x2 x3} : (State.answerer s0 x1 x2 x3).1.spine = s0.spine := by
  unfold State.answerer
  with_reducible repeat' first
    | assumption
    | rfl
    | (extract_lets +onlyGivenNames y
       refine (show (y.spine = s0.spine → _) from fun h => ?_) ?_
       on_goal 1 => clear_value y
       on_goal 2 => (simp only [y]; try clear y))
    | (extract_lets +onlyGivenNames y; clear_value y)
    | refine ite_spine ?_ ?_
    | refine ite_fst ?_ ?_
    | (simp only [*, appendUp_spine, pulse_spine, tableLevels_spine, spine_mk, spine_eta]; done)
    | split
    | (simp [*]; done)
    | simp only [*, appendUp_spine, pulse_spine, tableLevels_spine, spine_mk, spine_eta]

@[simp] theorem execSearchWindowEnd_spine {s0} : outSpine s0 (execSearchWindowEnd s0) = s0.spine := by
  unfold execSearchWindowEnd
  rw [outSpine_next]
  split
  · refine ite_spine rfl ?_
    dsimp only
    refine (foldl_fst_spine (fun x i => ?_)).trans rfl
    split <;> exact answerer_spine
  · rfl

@[simp] theorem confirmMeter_spine {s0 x1 x2 x3} : (State.confirmMeter s0 x1 x2 x3).spine = s0.spine := by
  unfold State.confirmMeter
  with_reducible repeat' first
    | assumption
    | rfl
    | (extract_lets +onlyGivenNames y
       refine (show (y.spine = s0.spine → _) from fun h => ?_) ?_
       on_goal 1 => clear_value y
       on_goal 2 => (simp only [y]; try clear y))
    | (extract_lets +onlyGivenNames y; clear_value y)
    | (simp only [*, pulse_spine, meterAnswered_spine, tableLevels_spine, presence_spine, spine_mk, spine_eta]; done)
    | split
    | (simp [*]; done)
    | simp only [*, pulse_spine, meterAnswered_spine, tableLevels_spine, presence_spine, spine_mk, spine_eta]

@[simp] theorem execPlcConfirmAckReceive_spine {x1 s0} : outSpine s0 (execPlcConfirmAckReceive x1 s0) = s0.spine := by
  unfold execPlcConfirmAckReceive
  with_reducible repeat' first
    | assumption
    | rfl
    | rw [outSpine_next]
    | (extract_lets +onlyGivenNames y
       refine (show (y.spine = s0.spine → _) from fun h => ?_) ?_
       on_goal 1 => clear_value y
       on_goal 2 => (simp only [y]; try clear y))
    | (extract_lets +onlyGivenNames y; clear_value y)
    | refine ite_spine ?_ ?_
    | refine ite_out ?_ ?_
    | (simp only [*, pulse_spine, plcMiss_spine, confirmMeter_spine, modConfirm_spine, exchDone_spine, spine_mk, spine_eta, outSpine_next]; done)
    | split
    | (simp [*]; done)
    | simp only [*, pulse_spine, plcMiss_spine, confirmMeter_spine, modConfirm_spine, exchDone_spine, spine_mk, spine_eta, outSpine_next]

@[simp] theorem execSearchRoundClose_spine {s0} : outSpine s0 (execSearchRoundClose s0) = s0.spine := by
  unfold execSearchRoundClose
  with_reducible repeat' first
    | assumption
    | rfl
    | rw [outSpine_next]
    | (extract_lets +onlyGivenNames y; clear_value y)
    | refine ite_spine ?_ ?_
    | refine ite_out ?_ ?_
    | (simp only [*, closeRound_spine, spine_mk, spine_eta, outSpine_next]; done)
    | split
    | (simp [*]; done)
    | simp only [*, closeRound_spine, spine_mk, spine_eta, outSpine_next]

@[simp] theorem execAddressQuarantineEnd_spine {x1 s0} : outSpine s0 (execAddressQuarantineEnd x1 s0) = s0.spine := by
  unfold execAddressQuarantineEnd
  with_reducible repeat' first
    | assumption
    | rfl
    | rw [outSpine_next]
    | (extract_lets +onlyGivenNames y
       refine (show (y.spine = s0.spine → _) from fun h => ?_) ?_
       on_goal 1 => clear_value y
       on_goal 2 => (simp only [y]; try clear y))
    | (extract_lets +onlyGivenNames y; clear_value y)
    | refine ite_spine ?_ ?_
    | refine ite_out ?_ ?_
    | (simp only [*, spine_mk, spine_eta, outSpine_next]; done)
    | split
    | (simp [*]; done)
    | simp only [*, spine_mk, spine_eta, outSpine_next]

@[simp] theorem execLatchBroadcast_spine {s0} : outSpine s0 (execLatchBroadcast s0) = s0.spine := by
  unfold execLatchBroadcast
  with_reducible repeat' first
    | assumption
    | rfl
    | rw [outSpine_next]
    | (extract_lets +onlyGivenNames y
       refine (show (y.spine = s0.spine → _) from fun h => ?_) ?_
       on_goal 1 => clear_value y
       on_goal 2 => (simp only [y]; try clear y))
    | (extract_lets +onlyGivenNames y; clear_value y)
    | (refine (foldl_spine ?_).trans ?_; on_goal 1 => intro s0 _)
    | refine ite_spine ?_ ?_
    | refine ite_out ?_ ?_
    | (simp only [*, plcBroadcast_spine, slotUsed_spine, pulse_spine, modMeter_spine, spine_mk, spine_eta, outSpine_next]; done)
    | split
    | (simp [*]; done)
    | simp only [*, plcBroadcast_spine, slotUsed_spine, pulse_spine, modMeter_spine, spine_mk, spine_eta, outSpine_next]

@[simp] theorem latchAt_spine {s0 x1 x2} : (State.latchAt s0 x1 x2).spine = s0.spine := by
  unfold State.latchAt
  with_reducible repeat' first
    | assumption
    | rfl
    | (extract_lets +onlyGivenNames y
       refine (show (y.spine = s0.spine → _) from fun h => ?_) ?_
       on_goal 1 => clear_value y
       on_goal 2 => (simp only [y]; try clear y))
    | (extract_lets +onlyGivenNames y; clear_value y)
    | refine ite_spine ?_ ?_
    | (simp only [*, latchLost_spine, spine_mk, spine_eta]; done)
    | split
    | (simp [*]; done)
    | simp only [*, latchLost_spine, spine_mk, spine_eta]

@[simp] theorem execPlcVinLevel_spine {x1 s0} : outSpine s0 (execPlcVinLevel x1 s0) = s0.spine := by
  unfold execPlcVinLevel
  simp only [spine_mk, spine_eta, outSpine_next]

@[simp] theorem execPlcLineShort_spine {x1 s0} : outSpine s0 (execPlcLineShort x1 s0) = s0.spine := by
  unfold execPlcLineShort
  with_reducible repeat' first
    | assumption
    | rfl
    | rw [outSpine_next]
    | (extract_lets +onlyGivenNames y
       refine (show (y.spine = s0.spine → _) from fun h => ?_) ?_
       on_goal 1 => clear_value y
       on_goal 2 => (simp only [y]; try clear y))
    | (extract_lets +onlyGivenNames y; clear_value y)
    | refine ite_spine ?_ ?_
    | refine ite_out ?_ ?_
    | (simp only [*, plcMiss_spine, level_spine, spine_mk, spine_eta, outSpine_next]; done)
    | split
    | (simp [*]; done)
    | simp only [*, plcMiss_spine, level_spine, spine_mk, spine_eta, outSpine_next]

@[simp] theorem execPlcTestSymbol_spine {x1 s0} : outSpine s0 (execPlcTestSymbol x1 s0) = s0.spine := by
  unfold execPlcTestSymbol
  with_reducible repeat' first
    | assumption
    | rfl
    | rw [outSpine_next]
    | (extract_lets +onlyGivenNames y; clear_value y)
    | refine ite_spine ?_ ?_
    | refine ite_out ?_ ?_
    | (simp only [*, level_spine, spine_mk, spine_eta, outSpine_next]; done)
    | split
    | (simp [*]; done)
    | simp only [*, level_spine, spine_mk, spine_eta, outSpine_next]

@[simp] theorem plcZ_spine {s0 x1} : (State.plcZ s0 x1).spine = s0.spine := by
  unfold State.plcZ
  simp only [level_spine, spine_mk, spine_eta]

@[simp] theorem execPlcOpenCoupling_spine {x1 s0} : outSpine s0 (execPlcOpenCoupling x1 s0) = s0.spine := by
  unfold execPlcOpenCoupling
  with_reducible repeat' first
    | assumption
    | rfl
    | rw [outSpine_next]
    | (refine (foldl_spine ?_).trans ?_; on_goal 1 => intro s0 _)
    | refine ite_spine ?_ ?_
    | refine ite_out ?_ ?_
    | (simp only [*, plcZ_spine, spine_mk, spine_eta, outSpine_next]; done)
    | split
    | (simp [*]; done)
    | simp only [*, plcZ_spine, spine_mk, spine_eta, outSpine_next]

@[simp] theorem plcRx_spine {s0 x1} : (State.plcRx s0 x1).spine = s0.spine := by
  unfold State.plcRx
  simp only [level_spine, spine_mk, spine_eta]

@[simp] theorem execPlcRxFault_spine {x1 s0} : outSpine s0 (execPlcRxFault x1 s0) = s0.spine := by
  unfold execPlcRxFault
  with_reducible repeat' first
    | assumption
    | rfl
    | rw [outSpine_next]
    | (refine (foldl_spine ?_).trans ?_; on_goal 1 => intro s0 _)
    | refine ite_spine ?_ ?_
    | refine ite_out ?_ ?_
    | (simp only [*, plcRx_spine, spine_mk, spine_eta, outSpine_next]; done)
    | split
    | (simp [*]; done)
    | simp only [*, plcRx_spine, spine_mk, spine_eta, outSpine_next]

@[simp] theorem execPlcNoiseWindow_spine {x1 s0} : outSpine s0 (execPlcNoiseWindow x1 s0) = s0.spine := by
  unfold execPlcNoiseWindow
  with_reducible repeat' first
    | assumption
    | rfl
    | rw [outSpine_next]
    | (extract_lets +onlyGivenNames y
       refine (show (y.spine = s0.spine → _) from fun h => ?_) ?_
       on_goal 1 => clear_value y
       on_goal 2 => (simp only [y]; try clear y))
    | (extract_lets +onlyGivenNames y; clear_value y)
    | refine ite_spine ?_ ?_
    | refine ite_out ?_ ?_
    | (simp only [*, level_spine, spine_mk, spine_eta, outSpine_next]; done)
    | split
    | (simp [*]; done)
    | simp only [*, level_spine, spine_mk, spine_eta, outSpine_next]

@[simp] theorem plcSearchBody_spine {x1 x2 s0} : (plcSearchBody x1 x2 s0).1.spine = s0.spine := by
  unfold plcSearchBody
  with_reducible repeat' first
    | assumption
    | rfl
    | (extract_lets +onlyGivenNames y
       refine (show (y.spine = s0.spine → _) from fun h => ?_) ?_
       on_goal 1 => clear_value y
       on_goal 2 => (simp only [y]; try clear y))
    | (extract_lets +onlyGivenNames y
       refine (show (y.1.spine = s0.spine → _) from fun h => ?_) ?_
       on_goal 1 => clear_value y
       on_goal 2 => (simp only [y]; try clear y))
    | (extract_lets +onlyGivenNames y; clear_value y)
    | (refine fixedBody_spine ?_; intro _ _ s0)
    | refine ite_spine ?_ ?_
    | refine ite_fst ?_ ?_
    | (simp only [*, fixedBody_spine, spine_mk, spine_eta]; done)
    | (split <;> (try (rename_i q; obtain ⟨q1, q2⟩ := Prod.ext_iff.mp q; simp only at q1 q2; subst q1 q2)))
    | (simp [*]; done)
    | simp only [*, fixedBody_spine, spine_mk, spine_eta]

@[simp] theorem execPlcSearch_spine {x1 s0} : outSpine s0 (execPlcSearch x1 s0) = s0.spine := by
  unfold execPlcSearch
  with_reducible repeat' first
    | assumption
    | rfl
    | rw [outSpine_next]
    | (simp only [*, command_spine, plcSearchBody_spine, spine_mk, spine_eta, outSpine_next]; done)
    | (split <;> (try (rename_i q; obtain ⟨q1, q2⟩ := Prod.ext_iff.mp q; simp only at q1 q2; subst q1 q2)))
    | (simp [*]; done)
    | simp only [*, command_spine, plcSearchBody_spine, spine_mk, spine_eta, outSpine_next]

@[simp] theorem plcStatusBody_spine {x1 x2 s0} : (plcStatusBody x1 x2 s0).1.spine = s0.spine := by
  unfold plcStatusBody
  with_reducible repeat' first
    | assumption
    | rfl
    | (extract_lets +onlyGivenNames y
       refine (show (y.spine = s0.spine → _) from fun h => ?_) ?_
       on_goal 1 => clear_value y
       on_goal 2 => (simp only [y]; try clear y))
    | (extract_lets +onlyGivenNames y
       refine (show (y.1.spine = s0.spine → _) from fun h => ?_) ?_
       on_goal 1 => clear_value y
       on_goal 2 => (simp only [y]; try clear y))
    | (extract_lets +onlyGivenNames y; clear_value y)
    | (refine fixedBody_spine ?_; intro _ _ s0)
    | (simp only [*, fixedBody_spine, readBody_spine, spine_mk, spine_eta]; done)
    | (split <;> (try (rename_i q; obtain ⟨q1, q2⟩ := Prod.ext_iff.mp q; simp only at q1 q2; subst q1 q2)))
    | (simp [*]; done)
    | simp only [*, fixedBody_spine, readBody_spine, spine_mk, spine_eta]

@[simp] theorem execPlcStatus_spine {x1 s0} : outSpine s0 (execPlcStatus x1 s0) = s0.spine := by
  unfold execPlcStatus
  with_reducible repeat' first
    | assumption
    | rfl
    | rw [outSpine_next]
    | (simp only [*, command_spine, plcStatusBody_spine, spine_mk, spine_eta, outSpine_next]; done)
    | (split <;> (try (rename_i q; obtain ⟨q1, q2⟩ := Prod.ext_iff.mp q; simp only at q1 q2; subst q1 q2)))
    | (simp [*]; done)
    | simp only [*, command_spine, plcStatusBody_spine, spine_mk, spine_eta, outSpine_next]

@[simp] theorem modRport_spine {s0 x1 x2} : (State.modRport s0 x1 x2).spine = s0.spine := by
  unfold State.modRport
  simp only [spine_mk, spine_eta]

@[simp] theorem rpLevels_spine {s0} : (State.rpLevels s0).spine = s0.spine := by
  unfold State.rpLevels
  simp only [level_spine, spine_mk, spine_eta]

@[simp] theorem rpReady_spine {s0} : (State.rpReady s0).spine = s0.spine := by
  unfold State.rpReady
  with_reducible repeat' first
    | assumption
    | rfl
    | (refine (foldl_spine ?_).trans ?_; on_goal 1 => intro s0 _)
    | (simp only [*, setReady_spine, spine_mk, spine_eta]; done)
    | split
    | (simp [*]; done)
    | simp only [*, setReady_spine, spine_mk, spine_eta]

@[simp] theorem rpCommand_spine {s0 x1 x2} : (State.rpCommand s0 x1 x2).spine = s0.spine := by
  unfold State.rpCommand
  simp only [modRport_spine, spine_mk, spine_eta]

@[simp] theorem rpConfigure_spine {s0 x1} : (State.rpConfigure s0 x1).spine = s0.spine := by
  unfold State.rpConfigure
  simp only [rpCommand_spine, modRport_spine, spine_mk, spine_eta]

@[simp] theorem rpReset_spine {s0 x1} : (State.rpReset s0 x1).spine = s0.spine := by
  unfold State.rpReset
  with_reducible repeat' first
    | assumption
    | rfl
    | (extract_lets +onlyGivenNames y
       refine (show (y.spine = s0.spine → _) from fun h => ?_) ?_
       on_goal 1 => clear_value y
       on_goal 2 => (simp only [y]; try clear y))
    | (extract_lets +onlyGivenNames y; clear_value y)
    | refine ite_spine ?_ ?_
    | (simp only [*, modRport_spine, rpLevels_spine, rpConfigure_spine, spine_mk, spine_eta]; done)
    | split
    | (simp [*]; done)
    | simp only [*, modRport_spine, rpLevels_spine, rpConfigure_spine, spine_mk, spine_eta]

@[simp] theorem rpNext_spine {s0 x1} : (State.rpNext s0 x1).spine = s0.spine := by
  unfold State.rpNext
  with_reducible repeat' first
    | assumption
    | rfl
    | (extract_lets +onlyGivenNames y
       refine (show (y.spine = s0.spine → _) from fun h => ?_) ?_
       on_goal 1 => clear_value y
       on_goal 2 => (simp only [y]; try clear y))
    | (extract_lets +onlyGivenNames y; clear_value y)
    | refine ite_spine ?_ ?_
    | (simp only [*, rpConfigure_spine, rpCommand_spine, modRport_spine, level_spine, spine_mk, spine_eta]; done)
    | split
    | (simp [*]; done)
    | simp only [*, rpConfigure_spine, rpCommand_spine, modRport_spine, level_spine, spine_mk, spine_eta]

@[simp] theorem rpSend_spine {s0 x1 x2} : (State.rpSend s0 x1 x2).spine = s0.spine := by
  unfold State.rpSend
  with_reducible repeat' first
    | assumption
    | rfl
    | (extract_lets +onlyGivenNames y; clear_value y)
    | refine ite_spine ?_ ?_
    | (simp only [*, rpNext_spine, modRport_spine, spine_mk, spine_eta]; done)
    | split
    | (simp [*]; done)
    | simp only [*, rpNext_spine, modRport_spine, spine_mk, spine_eta]

@[simp] theorem radioFlood_spine {s0 x1 x2 x3} : (State.radioFlood s0 x1 x2 x3).spine = s0.spine := by
  unfold State.radioFlood
  with_reducible repeat' first
    | assumption
    | rfl
    | (extract_lets +onlyGivenNames y
       refine (show (y.spine = s0.spine → _) from fun h => ?_) ?_
       on_goal 1 => clear_value y
       on_goal 2 => (simp only [y]; try clear y))
    | (extract_lets +onlyGivenNames y; clear_value y)
    | (refine (foldl_spine ?_).trans ?_; on_goal 1 => intro s0 _)
    | refine ite_spine ?_ ?_
    | (simp only [*, rpSend_spine, spine_mk, spine_eta]; done)
    | split
    | (simp [*]; done)
    | simp only [*, rpSend_spine, spine_mk, spine_eta]

@[simp] theorem expireFrames_spine {s0 x1} : (State.expireFrames s0 x1).spine = s0.spine := by
  unfold State.expireFrames
  with_reducible repeat' first
    | assumption
    | rfl
    | (extract_lets +onlyGivenNames y
       refine (show (y.spine = s0.spine → _) from fun h => ?_) ?_
       on_goal 1 => clear_value y
       on_goal 2 => (simp only [y]; try clear y))
    | (extract_lets +onlyGivenNames y; clear_value y)
    | (refine (foldl_spine ?_).trans ?_; on_goal 1 => intro s0 _)
    | refine ite_spine ?_ ?_
    | (simp only [*, pulse_spine, spine_mk, spine_eta]; done)
    | split
    | (simp [*]; done)
    | simp only [*, pulse_spine, spine_mk, spine_eta]

@[simp] theorem buffer_spine {s0 x1} : (State.buffer s0 x1).spine = s0.spine := by
  unfold State.buffer
  with_reducible repeat' first
    | assumption
    | rfl
    | (extract_lets +onlyGivenNames y
       refine (show (y.spine = s0.spine → _) from fun h => ?_) ?_
       on_goal 1 => clear_value y
       on_goal 2 => (simp only [y]; try clear y))
    | (extract_lets +onlyGivenNames y; clear_value y)
    | refine ite_spine ?_ ?_
    | (simp only [*, expireFrames_spine, pulse_spine, spine_mk, spine_eta]; done)
    | split
    | (simp [*]; done)
    | simp only [*, expireFrames_spine, pulse_spine, spine_mk, spine_eta]

@[simp] theorem radioSend_spine {s0 x1 x2 x3 x4 x5 x6} : (State.radioSend s0 x1 x2 x3 x4 x5 x6).spine = s0.spine := by
  unfold State.radioSend
  simp only [rpSend_spine, buffer_spine, spine_mk, spine_eta]

@[simp] theorem execRpPortStart_spine {x1 s0} : outSpine s0 (execRpPortStart x1 s0) = s0.spine := by
  unfold execRpPortStart
  with_reducible repeat' first
    | assumption
    | rfl
    | rw [outSpine_next]
    | (extract_lets +onlyGivenNames y; clear_value y)
    | refine ite_spine ?_ ?_
    | refine ite_out ?_ ?_
    | (simp only [*, rpReady_spine, rpConfigure_spine, modRport_spine, spine_mk, spine_eta, outSpine_next]; done)
    | split
    | (simp [*]; done)
    | simp only [*, rpReady_spine, rpConfigure_spine, modRport_spine, spine_mk, spine_eta, outSpine_next]

@[simp] theorem execRpIrq_spine {x1 x2 s0} : outSpine s0 (execRpIrq x1 x2 s0) = s0.spine := by
  unfold execRpIrq
  with_reducible repeat' first
    | assumption
    | rfl
    | rw [outSpine_next]
    | (extract_lets +onlyGivenNames y
       refine (show (y.spine = s0.spine → _) from fun h => ?_) ?_
       on_goal 1 => clear_value y
       on_goal 2 => (simp only [y]; try clear y))
    | (extract_lets +onlyGivenNames y; clear_value y)
    | refine ite_spine ?_ ?_
    | refine ite_out ?_ ?_
    | (simp only [*, modRport_spine, rpReset_spine, spine_mk, spine_eta, outSpine_next]; done)
    | split
    | (simp [*]; done)
    | simp only [*, modRport_spine, rpReset_spine, spine_mk, spine_eta, outSpine_next]

@[simp] theorem execRpTxDone_spine {x1 x2 s0} : outSpine s0 (execRpTxDone x1 x2 s0) = s0.spine := by
  unfold execRpTxDone
  with_reducible repeat' first
    | assumption
    | rfl
    | rw [outSpine_next]
    | (extract_lets +onlyGivenNames y
       refine (show (y.spine = s0.spine → _) from fun h => ?_) ?_
       on_goal 1 => clear_value y
       on_goal 2 => (simp only [y]; try clear y))
    | (extract_lets +onlyGivenNames y; clear_value y)
    | (simp only [*, rpNext_spine, rpLevels_spine, modRport_spine, spine_mk, spine_eta, outSpine_next]; done)
    | split
    | (simp [*]; done)
    | simp only [*, rpNext_spine, rpLevels_spine, modRport_spine, spine_mk, spine_eta, outSpine_next]

@[simp] theorem execRpConfigDone_spine {x1 x2 s0} : outSpine s0 (execRpConfigDone x1 x2 s0) = s0.spine := by
  unfold execRpConfigDone
  with_reducible repeat' first
    | assumption
    | rfl
    | rw [outSpine_next]
    | (extract_lets +onlyGivenNames y; clear_value y)
    | refine ite_spine ?_ ?_
    | refine ite_out ?_ ?_
    | (simp only [*, rpNext_spine, rpLevels_spine, modRport_spine, rpReset_spine, spine_mk, spine_eta, outSpine_next]; done)
    | split
    | (simp [*]; done)
    | simp only [*, rpNext_spine, rpLevels_spine, modRport_spine, rpReset_spine, spine_mk, spine_eta, outSpine_next]

@[simp] theorem execRpStatusPoll_spine {x1 s0} : outSpine s0 (execRpStatusPoll x1 s0) = s0.spine := by
  unfold execRpStatusPoll
  with_reducible repeat' first
    | assumption
    | rfl
    | rw [outSpine_next]
    | (extract_lets +onlyGivenNames y
       refine (show (y.spine = s0.spine → _) from fun h => ?_) ?_
       on_goal 1 => clear_value y
       on_goal 2 => (simp only [y]; try clear y))
    | (extract_lets +onlyGivenNames y; clear_value y)
    | refine ite_spine ?_ ?_
    | refine ite_out ?_ ?_
    | (simp only [*, rpCommand_spine, modRport_spine, spine_mk, spine_eta, outSpine_next]; done)
    | split
    | (simp [*]; done)
    | simp only [*, rpCommand_spine, modRport_spine, spine_mk, spine_eta, outSpine_next]

@[simp] theorem execRpStatusDone_spine {x1 x2 x3 s0} : outSpine s0 (execRpStatusDone x1 x2 x3 s0) = s0.spine := by
  unfold execRpStatusDone
  with_reducible repeat' first
    | assumption
    | rfl
    | rw [outSpine_next]
    | (extract_lets +onlyGivenNames y
       refine (show (y.spine = s0.spine → _) from fun h => ?_) ?_
       on_goal 1 => clear_value y
       on_goal 2 => (simp only [y]; try clear y))
    | (extract_lets +onlyGivenNames y; clear_value y)
    | (simp only [*, rpNext_spine, rpLevels_spine, modRport_spine, spine_mk, spine_eta, outSpine_next]; done)
    | split
    | (simp [*]; done)
    | simp only [*, rpNext_spine, rpLevels_spine, modRport_spine, spine_mk, spine_eta, outSpine_next]

@[simp] theorem execRpResponseTimeout_spine {x1 s0} : outSpine s0 (execRpResponseTimeout x1 s0) = s0.spine := by
  unfold execRpResponseTimeout
  with_reducible repeat' first
    | assumption
    | rfl
    | rw [outSpine_next]
    | (extract_lets +onlyGivenNames y; clear_value y)
    | refine ite_spine ?_ ?_
    | refine ite_out ?_ ?_
    | (simp only [*, rpReset_spine, spine_mk, spine_eta, outSpine_next]; done)
    | split
    | (simp [*]; done)
    | simp only [*, rpReset_spine, spine_mk, spine_eta, outSpine_next]

@[simp] theorem execRpFaultRetry_spine {x1 s0} : outSpine s0 (execRpFaultRetry x1 s0) = s0.spine := by
  unfold execRpFaultRetry
  with_reducible repeat' first
    | assumption
    | rfl
    | rw [outSpine_next]
    | (extract_lets +onlyGivenNames y
       refine (show (y.spine = s0.spine → _) from fun h => ?_) ?_
       on_goal 1 => clear_value y
       on_goal 2 => (simp only [y]; try clear y))
    | (extract_lets +onlyGivenNames y; clear_value y)
    | refine ite_spine ?_ ?_
    | refine ite_out ?_ ?_
    | (simp only [*, rpConfigure_spine, modRport_spine, spine_mk, spine_eta, outSpine_next]; done)
    | split
    | (simp [*]; done)
    | simp only [*, rpConfigure_spine, modRport_spine, spine_mk, spine_eta, outSpine_next]

@[simp] theorem keyOverlap_spine {s0} : (State.keyOverlap s0).spine = s0.spine := by
  unfold State.keyOverlap
  with_reducible repeat' first
    | assumption
    | rfl
    | (extract_lets +onlyGivenNames y; clear_value y)
    | refine ite_spine ?_ ?_
    | (simp only [*, spine_mk, spine_eta]; done)
    | split
    | (simp [*]; done)
    | simp only [*, spine_mk, spine_eta]

@[simp] theorem newNetworkKey_spine {s0 x1} : (State.newNetworkKey s0 x1).spine = s0.spine := by
  unfold State.newNetworkKey
  simp only [level_spine, spine_mk, spine_eta]

@[simp] theorem heard_spine {s0 x1 x2} : (State.heard s0 x1 x2).spine = s0.spine := by
  unfold State.heard
  simp only [spine_mk, spine_eta]

@[simp] theorem linkCheck_spine {s0 x1} : (State.linkCheck s0 x1).1.spine = s0.spine := by
  unfold State.linkCheck
  with_reducible repeat' first
    | assumption
    | rfl
    | (extract_lets +onlyGivenNames y; clear_value y)
    | refine ite_spine ?_ ?_
    | refine ite_fst ?_ ?_
    | (simp only [*, pulse_spine, heard_spine, spine_mk, spine_eta]; done)
    | split
    | (simp [*]; done)
    | simp only [*, pulse_spine, heard_spine, spine_mk, spine_eta]

@[simp] theorem childHeard_spine {s0 x1} : (State.childHeard s0 x1).spine = s0.spine := by
  unfold State.childHeard
  with_reducible repeat' first
    | assumption
    | rfl
    | (extract_lets +onlyGivenNames y; clear_value y)
    | refine ite_spine ?_ ?_
    | (simp only [*, level_spine, spine_mk, spine_eta]; done)
    | split
    | (simp [*]; done)
    | simp only [*, level_spine, spine_mk, spine_eta]

@[simp] theorem dataRequest_spine {s0 x1 x2} : (State.dataRequest s0 x1 x2).spine = s0.spine := by
  unfold State.dataRequest
  with_reducible repeat' first
    | assumption
    | rfl
    | (extract_lets +onlyGivenNames y
       refine (show (y.spine = s0.spine → _) from fun h => ?_) ?_
       on_goal 1 => clear_value y
       on_goal 2 => (simp only [y]; try clear y))
    | (extract_lets +onlyGivenNames y; clear_value y)
    | refine ite_spine ?_ ?_
    | (simp only [*, expireFrames_spine, rpNext_spine, modRport_spine, spine_mk, spine_eta]; done)
    | split
    | (simp [*]; done)
    | simp only [*, expireFrames_spine, rpNext_spine, modRport_spine, spine_mk, spine_eta]

@[simp] theorem seenCheck_spine {s0 x1 x2} : (State.seenCheck s0 x1 x2).1.spine = s0.spine := by
  unfold State.seenCheck
  with_reducible repeat' first
    | assumption
    | rfl
    | (extract_lets +onlyGivenNames y
       refine (show (y.spine = s0.spine → _) from fun h => ?_) ?_
       on_goal 1 => clear_value y
       on_goal 2 => (simp only [y]; try clear y))
    | (extract_lets +onlyGivenNames y; clear_value y)
    | refine ite_spine ?_ ?_
    | refine ite_fst ?_ ?_
    | (simp only [*, pulse_spine, spine_mk, spine_eta]; done)
    | split
    | (simp [*]; done)
    | simp only [*, pulse_spine, spine_mk, spine_eta]

@[simp] theorem execRpRx_spine {x1 x2 s0} : outSpine s0 (execRpRx x1 x2 s0) = s0.spine := by
  unfold execRpRx
  with_reducible repeat' first
    | assumption
    | rfl
    | rw [outSpine_next]
    | (extract_lets +onlyGivenNames y
       refine (show (y.spine = s0.spine → _) from fun h => ?_) ?_
       on_goal 1 => clear_value y
       on_goal 2 => (simp only [y]; try clear y))
    | (extract_lets +onlyGivenNames y
       refine (show (y.1.spine = s0.spine → _) from fun h => ?_) ?_
       on_goal 1 => clear_value y
       on_goal 2 => (simp only [y]; try clear y))
    | (extract_lets +onlyGivenNames y; clear_value y)
    | refine ite_spine ?_ ?_
    | refine ite_out ?_ ?_
    | (simp only [*, linkCheck_spine, keyOverlap_spine, dataRequest_spine, childHeard_spine, seenCheck_spine, modMeter_spine, spine_mk, spine_eta, outSpine_next]; done)
    | (split <;> (try (rename_i q; obtain ⟨q1, q2⟩ := Prod.ext_iff.mp q; simp only at q1 q2; subst q1 q2)))
    | (simp [*]; done)
    | simp only [*, linkCheck_spine, keyOverlap_spine, dataRequest_spine, childHeard_spine, seenCheck_spine, modMeter_spine, spine_mk, spine_eta, outSpine_next]

@[simp] theorem execChildFrameExpire_spine {x1 s0} : outSpine s0 (execChildFrameExpire x1 s0) = s0.spine := by
  unfold execChildFrameExpire
  simp only [expireFrames_spine, spine_mk, spine_eta, outSpine_next]

@[simp] theorem execChildEntryExpire_spine {x1 s0} : outSpine s0 (execChildEntryExpire x1 s0) = s0.spine := by
  unfold execChildEntryExpire
  with_reducible repeat' first
    | assumption
    | rfl
    | rw [outSpine_next]
    | (extract_lets +onlyGivenNames y; clear_value y)
    | refine ite_spine ?_ ?_
    | refine ite_out ?_ ?_
    | (simp only [*, level_spine, spine_mk, spine_eta, outSpine_next]; done)
    | split
    | (simp [*]; done)
    | simp only [*, level_spine, spine_mk, spine_eta, outSpine_next]

@[simp] theorem execAdvertSend_spine {s0} : outSpine s0 (execAdvertSend s0) = s0.spine := by
  unfold execAdvertSend
  with_reducible repeat' first
    | assumption
    | rfl
    | rw [outSpine_next]
    | (extract_lets +onlyGivenNames y
       refine (show (y.spine = s0.spine → _) from fun h => ?_) ?_
       on_goal 1 => clear_value y
       on_goal 2 => (simp only [y]; try clear y))
    | (extract_lets +onlyGivenNames y
       have hk : Kiln.ph y = Kiln.ph (State.kiln _) := rfl
       clear_value y)
    | (extract_lets +onlyGivenNames y; clear_value y)
    | refine ite_spine ?_ ?_
    | refine ite_out ?_ ?_
    | (simp only [*, keyOverlap_spine, radioFlood_spine, spine_mk, spine_eta, outSpine_next]; done)
    | split
    | (simp [*]; done)
    | simp only [*, keyOverlap_spine, radioFlood_spine, spine_mk, spine_eta, outSpine_next]

@[simp] theorem radioAsk_spine {s0 x1 x2 x3 x4 x5 x6} : (State.radioAsk s0 x1 x2 x3 x4 x5 x6).spine = s0.spine := by
  unfold State.radioAsk
  simp only [radioSend_spine, modMeter_spine, spine_mk, spine_eta]

@[simp] theorem radioPush_spine {s0 x1 x2 x3 x4} : (State.radioPush s0 x1 x2 x3 x4).spine = s0.spine := by
  unfold State.radioPush
  with_reducible repeat' first
    | assumption
    | rfl
    | (extract_lets +onlyGivenNames y
       refine (show (y.spine = s0.spine → _) from fun h => ?_) ?_
       on_goal 1 => clear_value y
       on_goal 2 => (simp only [y]; try clear y))
    | (extract_lets +onlyGivenNames y; clear_value y)
    | refine ite_spine ?_ ?_
    | (simp only [*, modLeafJob_spine, radioAsk_spine, spine_mk, spine_eta]; done)
    | split
    | (simp [*]; done)
    | simp only [*, modLeafJob_spine, radioAsk_spine, spine_mk, spine_eta]

@[simp] theorem radioPushNext_spine {s0 x1} : (State.radioPushNext s0 x1).spine = s0.spine := by
  unfold State.radioPushNext
  with_reducible repeat' first
    | assumption
    | rfl
    | (extract_lets +onlyGivenNames y; clear_value y)
    | (simp only [*, radioPush_spine, spine_mk, spine_eta]; done)
    | split
    | (simp [*]; done)
    | simp only [*, radioPush_spine, spine_mk, spine_eta]

@[simp] theorem radioPushCast_spine {s0 x1 x2 x3} : (State.radioPushCast s0 x1 x2 x3).spine = s0.spine := by
  unfold State.radioPushCast
  with_reducible repeat' first
    | assumption
    | rfl
    | (extract_lets +onlyGivenNames y
       refine (show (y.spine = s0.spine → _) from fun h => ?_) ?_
       on_goal 1 => clear_value y
       on_goal 2 => (simp only [y]; try clear y))
    | (extract_lets +onlyGivenNames y; clear_value y)
    | (refine (foldl_spine ?_).trans ?_; on_goal 1 => intro s0 _)
    | refine ite_spine ?_ ?_
    | (simp only [*, radioFlood_spine, spine_mk, spine_eta]; done)
    | split
    | (simp [*]; done)
    | simp only [*, radioFlood_spine, spine_mk, spine_eta]

theorem radioPoll_spine {s0 x1 x2 s1} (h : State.radioPoll s0 x1 x2 = some s1) : s1.spine = s0.spine := by
  unfold State.radioPoll at h
  rw [Option.bind_eq_some_iff] at h
  obtain ⟨m, -, h⟩ := h
  split at h
  · cases h
  · rw [Option.map_eq_some_iff] at h
    obtain ⟨x, -, rfl⟩ := h
    exact radioAsk_spine

@[simp] theorem execRadioPollDue_spine {x1 s0} : outSpine s0 (execRadioPollDue x1 s0) = s0.spine := by
  unfold execRadioPollDue
  rw [outSpine_next]
  dsimp only
  split
  · split
    · split
      · exact modMeter_spine
      · split
        · rename_i q
          exact (radioPoll_spine q).trans modMeter_spine
        · exact ite_spine modMeter_spine (by simp only [spine_mk, spine_eta, modMeter_spine])
    · rfl
  · rfl

@[simp] theorem radioMissed_spine {s0 x1} : (State.radioMissed s0 x1).spine = s0.spine := by
  unfold State.radioMissed
  with_reducible repeat' first
    | assumption
    | rfl
    | (extract_lets +onlyGivenNames y; clear_value y)
    | (simp only [*, meterMissed_spine, modMeter_spine, spine_mk, spine_eta]; done)
    | split
    | (simp [*]; done)
    | simp only [*, meterMissed_spine, modMeter_spine, spine_mk, spine_eta]

@[simp] theorem execRadioReplyTimeout_spine {x1 s0} : outSpine s0 (execRadioReplyTimeout x1 s0) = s0.spine := by
  unfold execRadioReplyTimeout
  with_reducible repeat' first
    | assumption
    | rfl
    | rw [outSpine_next]
    | (extract_lets +onlyGivenNames y; clear_value y)
    | refine ite_spine ?_ ?_
    | refine ite_out ?_ ?_
    | (simp only [*, radioMissed_spine, spine_mk, spine_eta, outSpine_next]; done)
    | split
    | (simp [*]; done)
    | simp only [*, radioMissed_spine, spine_mk, spine_eta, outSpine_next]

@[simp] theorem execRadioRepeatDue_spine {x1 s0} : outSpine s0 (execRadioRepeatDue x1 s0) = s0.spine := by
  unfold execRadioRepeatDue
  rw [outSpine_next]
  split
  · split
    · refine ite_spine rfl ?_
      split
      · exact radioPush_spine
      · cases q : State.radioPoll s0 x1 true with
        | none => rfl
        | some t => exact radioPoll_spine q
    · rfl
  · rfl

@[simp] theorem execRadioPollCycleEnd_spine {s0} : outSpine s0 (execRadioPollCycleEnd s0) = s0.spine := by
  unfold execRadioPollCycleEnd
  with_reducible repeat' first
    | assumption
    | rfl
    | rw [outSpine_next]
    | (extract_lets +onlyGivenNames y
       refine (show (y.spine = s0.spine → _) from fun h => ?_) ?_
       on_goal 1 => clear_value y
       on_goal 2 => (simp only [y]; try clear y))
    | (extract_lets +onlyGivenNames y
       have hk : Kiln.ph y = Kiln.ph (State.kiln _) := rfl
       clear_value y)
    | (extract_lets +onlyGivenNames y; clear_value y)
    | refine ite_spine ?_ ?_
    | refine ite_out ?_ ?_
    | (simp only [*, pushCycle_spine, newCycle_spine, spine_mk, spine_eta, outSpine_next]; done)
    | split
    | (simp [*]; done)
    | simp only [*, pushCycle_spine, newCycle_spine, spine_mk, spine_eta, outSpine_next]

@[simp] theorem radioAnswer_spine {s0 x1 x2 x3} (h : ∀ a m s, (x3 a m s).spine = s.spine) : (State.radioAnswer s0 x1 x2 x3).spine = s0.spine := by
  unfold State.radioAnswer
  split
  · rfl
  · split
    · rfl
    · split
      · rfl
      · rw [pulse_spine]
        exact ite_spine radioMissed_spine rfl
      · dsimp only
        rw [radioPushNext_spine, h, meterAnswered_spine]

@[simp] theorem execRadioReadingReceive_spine {x1 s0} : outSpine s0 (execRadioReadingReceive x1 s0) = s0.spine := by
  unfold execRadioReadingReceive
  with_reducible repeat' first
    | assumption
    | rfl
    | rw [outSpine_next]
    | (simp only [*, radioAnswer_spine, takeReading_spine, spine_mk, spine_eta, outSpine_next]; done)
    | split
    | (simp [*]; done)
    | simp only [*, radioAnswer_spine, takeReading_spine, spine_mk, spine_eta, outSpine_next]

@[simp] theorem execRadioPushAckReceive_spine {x1 s0} : outSpine s0 (execRadioPushAckReceive x1 s0) = s0.spine := by
  unfold execRadioPushAckReceive
  with_reducible repeat' first
    | assumption
    | rfl
    | rw [outSpine_next]
    | (simp only [*, radioAnswer_spine, pushAck_spine, spine_mk, spine_eta, outSpine_next]; done)
    | split
    | (simp [*]; done)
    | simp only [*, radioAnswer_spine, pushAck_spine, spine_mk, spine_eta, outSpine_next]

@[simp] theorem openJoin_spine {s0} : (State.openJoin s0).spine = s0.spine := by
  unfold State.openJoin
  simp only [spine_mk, spine_eta]

@[simp] theorem execRadioJoinRoundStart_spine {s0} : outSpine s0 (execRadioJoinRoundStart s0) = s0.spine := by
  unfold execRadioJoinRoundStart
  with_reducible repeat' first
    | assumption
    | rfl
    | rw [outSpine_next]
    | (extract_lets +onlyGivenNames y
       refine (show (y.spine = s0.spine → _) from fun h => ?_) ?_
       on_goal 1 => clear_value y
       on_goal 2 => (simp only [y]; try clear y))
    | (extract_lets +onlyGivenNames y; clear_value y)
    | refine ite_spine ?_ ?_
    | refine ite_out ?_ ?_
    | (simp only [*, openJoin_spine, spine_mk, spine_eta, outSpine_next]; done)
    | split
    | (simp [*]; done)
    | simp only [*, openJoin_spine, spine_mk, spine_eta, outSpine_next]

@[simp] theorem radioConfirm_spine {s0 x1} : (State.radioConfirm s0 x1).spine = s0.spine := by
  unfold State.radioConfirm
  simp only [radioSend_spine, useCtr_spine, spine_mk, spine_eta]

@[simp] theorem execRadioAnswerReceive_spine {x1 x2 x3 s0} : outSpine s0 (execRadioAnswerReceive x1 x2 x3 s0) = s0.spine := by
  unfold execRadioAnswerReceive
  with_reducible repeat' first
    | assumption
    | rfl
    | rw [outSpine_next]
    | (extract_lets +onlyGivenNames y
       refine (show (y.spine = s0.spine → _) from fun h => ?_) ?_
       on_goal 1 => clear_value y
       on_goal 2 => (simp only [y]; try clear y))
    | (extract_lets +onlyGivenNames y
       refine (show (y.1.spine = s0.spine → _) from fun h => ?_) ?_
       on_goal 1 => clear_value y
       on_goal 2 => (simp only [y]; try clear y))
    | (extract_lets +onlyGivenNames y; clear_value y)
    | refine ite_spine ?_ ?_
    | refine ite_out ?_ ?_
    | (simp only [*, cloneLock_spine, answerer_spine, radioConfirm_spine, spine_mk, spine_eta, outSpine_next]; done)
    | (split <;> (try (rename_i q; obtain ⟨q1, q2⟩ := Prod.ext_iff.mp q; simp only at q1 q2; subst q1 q2)))
    | (simp [*]; done)
    | simp only [*, cloneLock_spine, answerer_spine, radioConfirm_spine, spine_mk, spine_eta, outSpine_next]

@[simp] theorem execRadioConfirmRepeat_spine {x1 s0} : outSpine s0 (execRadioConfirmRepeat x1 s0) = s0.spine := by
  unfold execRadioConfirmRepeat
  with_reducible repeat' first
    | assumption
    | rfl
    | rw [outSpine_next]
    | (extract_lets +onlyGivenNames y; clear_value y)
    | refine ite_spine ?_ ?_
    | refine ite_out ?_ ?_
    | (simp only [*, radioConfirm_spine, spine_mk, spine_eta, outSpine_next]; done)
    | split
    | (simp [*]; done)
    | simp only [*, radioConfirm_spine, spine_mk, spine_eta, outSpine_next]

@[simp] theorem execRadioConfirmAckReceive_spine {x1 s0} : outSpine s0 (execRadioConfirmAckReceive x1 s0) = s0.spine := by
  unfold execRadioConfirmAckReceive
  with_reducible repeat' first
    | assumption
    | rfl
    | rw [outSpine_next]
    | (extract_lets +onlyGivenNames y
       refine (show (y.spine = s0.spine → _) from fun h => ?_) ?_
       on_goal 1 => clear_value y
       on_goal 2 => (simp only [y]; try clear y))
    | (extract_lets +onlyGivenNames y; clear_value y)
    | refine ite_spine ?_ ?_
    | refine ite_out ?_ ?_
    | (simp only [*, pulse_spine, dropMeter_spine, confirmMeter_spine, spine_mk, spine_eta, outSpine_next]; done)
    | split
    | (simp [*]; done)
    | simp only [*, pulse_spine, dropMeter_spine, confirmMeter_spine, spine_mk, spine_eta, outSpine_next]

@[simp] theorem execRadioJoinClose_spine {s0} : outSpine s0 (execRadioJoinClose s0) = s0.spine := by
  unfold execRadioJoinClose
  with_reducible repeat' first
    | assumption
    | rfl
    | rw [outSpine_next]
    | (extract_lets +onlyGivenNames y
       refine (show (y.spine = s0.spine → _) from fun h => ?_) ?_
       on_goal 1 => clear_value y
       on_goal 2 => (simp only [y]; try clear y))
    | (extract_lets +onlyGivenNames y; clear_value y)
    | refine ite_spine ?_ ?_
    | refine ite_out ?_ ?_
    | (simp only [*, pulse_spine, spine_mk, spine_eta, outSpine_next]; done)
    | split
    | (simp [*]; done)
    | simp only [*, pulse_spine, spine_mk, spine_eta, outSpine_next]

@[simp] theorem radioJoinBody_spine {x1 x2 s0} : (radioJoinBody x1 x2 s0).1.spine = s0.spine := by
  unfold radioJoinBody
  with_reducible repeat' first
    | assumption
    | rfl
    | (extract_lets +onlyGivenNames y
       refine (show (y.spine = s0.spine → _) from fun h => ?_) ?_
       on_goal 1 => clear_value y
       on_goal 2 => (simp only [y]; try clear y))
    | (extract_lets +onlyGivenNames y
       refine (show (y.1.spine = s0.spine → _) from fun h => ?_) ?_
       on_goal 1 => clear_value y
       on_goal 2 => (simp only [y]; try clear y))
    | (extract_lets +onlyGivenNames y; clear_value y)
    | (refine fixedBody_spine ?_; intro _ _ s0)
    | refine ite_spine ?_ ?_
    | refine ite_fst ?_ ?_
    | (simp only [*, fixedBody_spine, openJoin_spine, spine_mk, spine_eta]; done)
    | (split <;> (try (rename_i q; obtain ⟨q1, q2⟩ := Prod.ext_iff.mp q; simp only at q1 q2; subst q1 q2)))
    | (simp [*]; done)
    | simp only [*, fixedBody_spine, openJoin_spine, spine_mk, spine_eta]

@[simp] theorem execRadioJoin_spine {x1 s0} : outSpine s0 (execRadioJoin x1 s0) = s0.spine := by
  unfold execRadioJoin
  with_reducible repeat' first
    | assumption
    | rfl
    | rw [outSpine_next]
    | (simp only [*, command_spine, radioJoinBody_spine, spine_mk, spine_eta, outSpine_next]; done)
    | (split <;> (try (rename_i q; obtain ⟨q1, q2⟩ := Prod.ext_iff.mp q; simp only at q1 q2; subst q1 q2)))
    | (simp [*]; done)
    | simp only [*, command_spine, radioJoinBody_spine, spine_mk, spine_eta, outSpine_next]

@[simp] theorem radioStatusBody_spine {x1 x2 s0} : (radioStatusBody x1 x2 s0).1.spine = s0.spine := by
  unfold radioStatusBody
  with_reducible repeat' first
    | assumption
    | rfl
    | (extract_lets +onlyGivenNames y
       refine (show (y.spine = s0.spine → _) from fun h => ?_) ?_
       on_goal 1 => clear_value y
       on_goal 2 => (simp only [y]; try clear y))
    | (extract_lets +onlyGivenNames y
       refine (show (y.1.spine = s0.spine → _) from fun h => ?_) ?_
       on_goal 1 => clear_value y
       on_goal 2 => (simp only [y]; try clear y))
    | (extract_lets +onlyGivenNames y; clear_value y)
    | (refine (foldl_spine ?_).trans ?_; on_goal 1 => intro s0 _)
    | (refine fixedBody_spine ?_; intro _ _ s0)
    | (simp only [*, fixedBody_spine, rpLevels_spine, modRport_spine, spine_mk, spine_eta]; done)
    | (split <;> (try (rename_i q; obtain ⟨q1, q2⟩ := Prod.ext_iff.mp q; simp only at q1 q2; subst q1 q2)))
    | (simp [*]; done)
    | simp only [*, fixedBody_spine, rpLevels_spine, modRport_spine, spine_mk, spine_eta]

@[simp] theorem execRadioStatus_spine {x1 s0} : outSpine s0 (execRadioStatus x1 s0) = s0.spine := by
  unfold execRadioStatus
  with_reducible repeat' first
    | assumption
    | rfl
    | rw [outSpine_next]
    | (simp only [*, command_spine, radioStatusBody_spine, spine_mk, spine_eta, outSpine_next]; done)
    | (split <;> (try (rename_i q; obtain ⟨q1, q2⟩ := Prod.ext_iff.mp q; simp only at q1 q2; subst q1 q2)))
    | (simp [*]; done)
    | simp only [*, command_spine, radioStatusBody_spine, spine_mk, spine_eta, outSpine_next]

end Sys2Proof.Machine
end

