-- ==== Sys2Proof/Laws/FrameC.lean ====
section
/-! SUPPORT. One frame lemma per operation that neither touches the queue of commands nor a phase of the kiln (part 3). -/

set_option linter.all false

namespace Sys2Proof.Machine

@[simp] theorem under_spine {s0 x1 x2} (h : ∀ s, (x2 s).spine = s.spine) : (State.under s0 x1 x2).spine = s0.spine := by
  unfold State.under
  split
  · exact h _
  · exact h _

@[simp] theorem setVote_spine {s0 x1 x2} : (State.setVote s0 x1 x2).spine = s0.spine := by
  unfold State.setVote
  with_reducible repeat' first
    | assumption
    | rfl
    | (refine (foldl_spine ?_).trans ?_; on_goal 1 => intro s0 _)
    | (simp only [*, vote_spine, spine_mk, spine_eta]; done)
    | split
    | (simp [*]; done)
    | simp only [*, vote_spine, spine_mk, spine_eta]

@[simp] theorem mpBoundary_spine {s0 x1 x2 x3} : (State.mpBoundary s0 x1 x2 x3).spine = s0.spine := by
  unfold State.mpBoundary
  with_reducible repeat' first
    | assumption
    | rfl
    | (extract_lets +onlyGivenNames y
       refine (show (y.spine = s0.spine → _) from fun h => ?_) ?_
       on_goal 1 => clear_value y
       on_goal 2 => (simp only [y]; try clear y))
    | (extract_lets +onlyGivenNames y; clear_value y)
    | (refine (foldl_spine ?_).trans ?_; on_goal 1 => intro s0 _)
    | (simp only [*, settle_spine, modChm_spine, overcurrent_spine, apparentTransfer_spine, transferMp_spine, elemBoundary_spine, spine_mk, spine_eta]; done)
    | split
    | (simp [*]; done)
    | simp only [*, settle_spine, modChm_spine, overcurrent_spine, apparentTransfer_spine, transferMp_spine, elemBoundary_spine, spine_mk, spine_eta]

@[simp] theorem swapBoundary_spine {s0 x1 x2} : (State.swapBoundary s0 x1 x2).spine = s0.spine := by
  unfold State.swapBoundary
  with_reducible repeat' first
    | assumption
    | rfl
    | (extract_lets +onlyGivenNames y; clear_value y)
    | refine ite_spine ?_ ?_
    | (simp only [*, spine_mk, spine_eta]; done)
    | split
    | (simp [*]; done)
    | simp only [*, spine_mk, spine_eta]

@[simp] theorem boundaryNow_spine {s0 x1 x2} : (State.boundaryNow s0 x1 x2).spine = s0.spine := by
  unfold State.boundaryNow
  with_reducible repeat' first
    | assumption
    | rfl
    | (extract_lets +onlyGivenNames y
       refine (show (y.spine = s0.spine → _) from fun h => ?_) ?_
       on_goal 1 => clear_value y
       on_goal 2 => (simp only [y]; try clear y))
    | (extract_lets +onlyGivenNames y; clear_value y)
    | (refine (foldl_spine ?_).trans ?_; on_goal 1 => intro s0 _)
    | refine ite_spine ?_ ?_
    | (simp only [*, halfRefresh_spine, mpBoundary_spine, cycleFreq_spine, windowBoundary_spine, pqBoundary_spine, swapBoundary_spine, mainsBoundary_spine, modVs_spine, plcBoundary_spine, spine_mk, spine_eta]; done)
    | split
    | (simp [*]; done)
    | simp only [*, halfRefresh_spine, mpBoundary_spine, cycleFreq_spine, windowBoundary_spine, pqBoundary_spine, swapBoundary_spine, mainsBoundary_spine, modVs_spine, plcBoundary_spine, spine_mk, spine_eta]

@[simp] theorem boundary_spine {s0 x1 x2} : (State.boundary s0 x1 x2).spine = s0.spine := by
  unfold State.boundary
  with_reducible repeat' first
    | assumption
    | rfl
    | (simp only [*, under_spine, boundaryNow_spine, spine_mk, spine_eta]; done)
    | split
    | (simp [*]; done)
    | simp only [*, under_spine, boundaryNow_spine, spine_mk, spine_eta]

@[simp] theorem execZcCrossingDecide_spine {x1 x2 s0} : outSpine s0 (execZcCrossingDecide x1 x2 s0) = s0.spine := by
  unfold execZcCrossingDecide
  with_reducible repeat' first
    | assumption
    | rfl
    | rw [outSpine_next]
    | (extract_lets +onlyGivenNames y
       refine (show (y.spine = s0.spine → _) from fun h => ?_) ?_
       on_goal 1 => clear_value y
       on_goal 2 => (simp only [y]; try clear y))
    | (extract_lets +onlyGivenNames y; clear_value y)
    | refine ite_spine ?_ ?_
    | refine ite_out ?_ ?_
    | (simp only [*, modVs_spine, boundary_spine, setVote_spine, spine_mk, spine_eta, outSpine_next]; done)
    | split
    | (simp [*]; done)
    | simp only [*, modVs_spine, boundary_spine, setVote_spine, spine_mk, spine_eta, outSpine_next]

@[simp] theorem execSynthBoundary_spine {x1 s0} : outSpine s0 (execSynthBoundary x1 s0) = s0.spine := by
  unfold execSynthBoundary
  with_reducible repeat' first
    | assumption
    | rfl
    | rw [outSpine_next]
    | (extract_lets +onlyGivenNames y; clear_value y)
    | refine ite_spine ?_ ?_
    | refine ite_out ?_ ?_
    | (simp only [*, boundary_spine, spine_mk, spine_eta, outSpine_next]; done)
    | split
    | (simp [*]; done)
    | simp only [*, boundary_spine, spine_mk, spine_eta, outSpine_next]

@[simp] theorem mpWindow_spine {s0 x1 x2} : (State.mpWindow s0 x1 x2).spine = s0.spine := by
  unfold State.mpWindow
  with_reducible repeat' first
    | assumption
    | rfl
    | refine ite_spine ?_ ?_
    | (simp only [*, fundTransfer_spine, spine_mk, spine_eta]; done)
    | split
    | (simp [*]; done)
    | simp only [*, fundTransfer_spine, spine_mk, spine_eta]

@[simp] theorem windowEnd_spine {s0 x1 x2 x3} : (State.windowEnd s0 x1 x2 x3).spine = s0.spine := by
  unfold State.windowEnd
  with_reducible repeat' first
    | assumption
    | rfl
    | (extract_lets +onlyGivenNames y
       refine (show (y.spine = s0.spine → _) from fun h => ?_) ?_
       on_goal 1 => clear_value y
       on_goal 2 => (simp only [y]; try clear y))
    | (extract_lets +onlyGivenNames y; clear_value y)
    | (refine (foldl_spine ?_).trans ?_; on_goal 1 => intro s0 _)
    | refine ite_spine ?_ ?_
    | (simp only [*, publish_spine, mpWindow_spine, slidingUpdate_spine, aggWindow_spine, plausibility_spine, statWindow_spine, spine_mk, spine_eta]; done)
    | split
    | (simp [*]; done)
    | simp only [*, publish_spine, mpWindow_spine, slidingUpdate_spine, aggWindow_spine, plausibility_spine, statWindow_spine, spine_mk, spine_eta]

@[simp] theorem execWindowEnd_spine {x1 x2 s0} : outSpine s0 (execWindowEnd x1 x2 s0) = s0.spine := by
  unfold execWindowEnd
  with_reducible repeat' first
    | assumption
    | rfl
    | rw [outSpine_next]
    | (extract_lets +onlyGivenNames y
       refine (show (y.spine = s0.spine → _) from fun h => ?_) ?_
       on_goal 1 => clear_value y
       on_goal 2 => (simp only [y]; try clear y))
    | (extract_lets +onlyGivenNames y; clear_value y)
    | refine ite_spine ?_ ?_
    | refine ite_out ?_ ?_
    | (simp only [*, modVs_spine, under_spine, setVote_spine, windowEnd_spine, spine_mk, spine_eta, outSpine_next]; done)
    | split
    | (simp [*]; done)
    | simp only [*, modVs_spine, under_spine, setVote_spine, windowEnd_spine, spine_mk, spine_eta, outSpine_next]

@[simp] theorem modRec__spine {s0 x1 x2} : (State.modRec_ s0 x1 x2).spine = s0.spine := by
  unfold State.modRec_
  simp only [spine_mk, spine_eta]

@[simp] theorem logAdd_spine {s0 x1 x2 x3 x4 x5 x6} : (State.logAdd s0 x1 x2 x3 x4 x5 x6).spine = s0.spine := by
  unfold State.logAdd
  with_reducible repeat' first
    | assumption
    | rfl
    | (extract_lets +onlyGivenNames y
       refine (show (y.spine = s0.spine → _) from fun h => ?_) ?_
       on_goal 1 => clear_value y
       on_goal 2 => (simp only [y]; try clear y))
    | (extract_lets +onlyGivenNames y; clear_value y)
    | refine ite_spine ?_ ?_
    | (simp only [*, pulse_spine, spine_mk, spine_eta]; done)
    | split
    | (simp [*]; done)
    | simp only [*, pulse_spine, spine_mk, spine_eta]

@[simp] theorem mirrorLevel_spine {s0} : (State.mirrorLevel s0).spine = s0.spine := by
  unfold State.mirrorLevel
  simp only [level_spine, spine_mk, spine_eta]

@[simp] theorem ackCommitted_spine {s0 x1 x2} : (State.ackCommitted s0 x1 x2).spine = s0.spine := by
  unfold State.ackCommitted
  simp only [sendAck_spine, spine_mk, spine_eta]

@[simp] theorem mirrorRelease_spine {s0} : (State.mirrorRelease s0).spine = s0.spine := by
  unfold State.mirrorRelease
  with_reducible repeat' first
    | assumption
    | rfl
    | (extract_lets +onlyGivenNames y
       refine (show (y.spine = s0.spine → _) from fun h => ?_) ?_
       on_goal 1 => clear_value y
       on_goal 2 => (simp only [y]; try clear y))
    | (extract_lets +onlyGivenNames y; clear_value y)
    | (refine (foldl_spine ?_).trans ?_; on_goal 1 => intro s0 _)
    | (simp only [*, level_spine, ackCommitted_spine, spine_mk, spine_eta]; done)
    | split
    | (simp [*]; done)
    | simp only [*, level_spine, ackCommitted_spine, spine_mk, spine_eta]

@[simp] theorem mirror_spine {s0 x1} : (State.mirror s0 x1).spine = s0.spine := by
  unfold State.mirror
  with_reducible repeat' first
    | assumption
    | rfl
    | (extract_lets +onlyGivenNames y
       refine (show (y.spine = s0.spine → _) from fun h => ?_) ?_
       on_goal 1 => clear_value y
       on_goal 2 => (simp only [y]; try clear y))
    | (extract_lets +onlyGivenNames y; clear_value y)
    | (refine (foldl_spine ?_).trans ?_; on_goal 1 => intro s0 _)
    | refine ite_spine ?_ ?_
    | (simp only [*, mirrorLevel_spine, ackCommitted_spine, mirrorRelease_spine, emit_spine, spine_mk, spine_eta]; done)
    | split
    | (simp [*]; done)
    | simp only [*, mirrorLevel_spine, ackCommitted_spine, mirrorRelease_spine, emit_spine, spine_mk, spine_eta]

@[simp] theorem fenceRoot_spine {s0 x1} : (State.fenceRoot s0 x1).spine = s0.spine := by
  unfold State.fenceRoot
  with_reducible repeat' first
    | assumption
    | rfl
    | (extract_lets +onlyGivenNames y
       refine (show (y.spine = s0.spine → _) from fun h => ?_) ?_
       on_goal 1 => clear_value y
       on_goal 2 => (simp only [y]; try clear y))
    | (extract_lets +onlyGivenNames y; clear_value y)
    | (refine (foldl_spine ?_).trans ?_; on_goal 1 => intro s0 _)
    | (simp only [*, level_spine, emit_spine, spine_mk, spine_eta]; done)
    | split
    | (simp [*]; done)
    | simp only [*, level_spine, emit_spine, spine_mk, spine_eta]

@[simp] theorem tryHandover_spine {s0} : (State.tryHandover s0).spine = s0.spine := by
  unfold State.tryHandover
  with_reducible repeat' first
    | assumption
    | rfl
    | (extract_lets +onlyGivenNames y
       refine (show (y.spine = s0.spine → _) from fun h => ?_) ?_
       on_goal 1 => clear_value y
       on_goal 2 => (simp only [y]; try clear y))
    | (extract_lets +onlyGivenNames y; clear_value y)
    | refine ite_spine ?_ ?_
    | (simp only [*, fenceRoot_spine, finishHeld_spine, spine_mk, spine_eta]; done)
    | split
    | (simp [*]; done)
    | simp only [*, fenceRoot_spine, finishHeld_spine, spine_mk, spine_eta]

@[simp] theorem execMirrorAckReceive_spine {x1 s0} : outSpine s0 (execMirrorAckReceive x1 s0) = s0.spine := by
  unfold execMirrorAckReceive
  with_reducible repeat' first
    | assumption
    | rfl
    | rw [outSpine_next]
    | (extract_lets +onlyGivenNames y
       refine (show (y.spine = s0.spine → _) from fun h => ?_) ?_
       on_goal 1 => clear_value y
       on_goal 2 => (simp only [y]; try clear y))
    | (extract_lets +onlyGivenNames y; clear_value y)
    | (refine (foldl_spine ?_).trans ?_; on_goal 1 => intro s0 _)
    | refine ite_spine ?_ ?_
    | refine ite_out ?_ ?_
    | (simp only [*, ackCommitted_spine, level_spine, tryHandover_spine, spine_mk, spine_eta, outSpine_next]; done)
    | split
    | (simp [*]; done)
    | simp only [*, ackCommitted_spine, level_spine, tryHandover_spine, spine_mk, spine_eta, outSpine_next]

@[simp] theorem execMirrorLag_spine {x1 s0} : outSpine s0 (execMirrorLag x1 s0) = s0.spine := by
  unfold execMirrorLag
  with_reducible repeat' first
    | assumption
    | rfl
    | rw [outSpine_next]
    | refine ite_spine ?_ ?_
    | refine ite_out ?_ ?_
    | (simp only [*, level_spine, spine_mk, spine_eta, outSpine_next]; done)
    | split
    | (simp [*]; done)
    | simp only [*, level_spine, spine_mk, spine_eta, outSpine_next]

@[simp] theorem scoreUp_spine {s0 x1 x2} : (State.scoreUp s0 x1 x2).spine = s0.spine := by
  unfold State.scoreUp
  with_reducible repeat' first
    | assumption
    | rfl
    | (extract_lets +onlyGivenNames y
       refine (show (y.spine = s0.spine → _) from fun h => ?_) ?_
       on_goal 1 => clear_value y
       on_goal 2 => (simp only [y]; try clear y))
    | (extract_lets +onlyGivenNames y; clear_value y)
    | refine ite_spine ?_ ?_
    | (simp only [*, modRec__spine, pulse_spine, spine_mk, spine_eta]; done)
    | split
    | (simp [*]; done)
    | simp only [*, modRec__spine, pulse_spine, spine_mk, spine_eta]

@[simp] theorem score_spine {s0 x1 x2} : (State.score s0 x1 x2).spine = s0.spine := by
  unfold State.score
  with_reducible repeat' first
    | assumption
    | rfl
    | refine ite_spine ?_ ?_
    | (simp only [*, scoreUp_spine, spine_mk, spine_eta]; done)
    | split
    | (simp [*]; done)
    | simp only [*, scoreUp_spine, spine_mk, spine_eta]

@[simp] theorem cloneAlarm_spine {s0 x1 x2} : (State.cloneAlarm s0 x1 x2).spine = s0.spine := by
  unfold State.cloneAlarm
  with_reducible repeat' first
    | assumption
    | rfl
    | (extract_lets +onlyGivenNames y
       refine (show (y.spine = s0.spine → _) from fun h => ?_) ?_
       on_goal 1 => clear_value y
       on_goal 2 => (simp only [y]; try clear y))
    | (extract_lets +onlyGivenNames y; clear_value y)
    | (refine (foldl_spine ?_).trans ?_; on_goal 1 => intro s0 _)
    | (simp only [*, scoreUp_spine, modRec__spine, pulse_spine, sendDown_spine, spine_mk, spine_eta]; done)
    | split
    | (simp [*]; done)
    | simp only [*, scoreUp_spine, modRec__spine, pulse_spine, sendDown_spine, spine_mk, spine_eta]

@[simp] theorem commitNew_spine {s0 x1 x2 x3 x4} : (State.commitNew s0 x1 x2 x3 x4).spine = s0.spine := by
  unfold State.commitNew
  with_reducible repeat' first
    | assumption
    | rfl
    | (extract_lets +onlyGivenNames y
       refine (show (y.spine = s0.spine → _) from fun h => ?_) ?_
       on_goal 1 => clear_value y
       on_goal 2 => (simp only [y]; try clear y))
    | (extract_lets +onlyGivenNames y
       refine (show (y.2.spine = s0.spine → _) from fun h => ?_) ?_
       on_goal 1 => clear_value y
       on_goal 2 => (simp only [y]; try clear y))
    | (extract_lets +onlyGivenNames y; clear_value y)
    | (refine (foldl_spine ?_).trans ?_; on_goal 1 => intro s0 _)
    | refine ite_spine ?_ ?_
    | (simp only [*, draw_spine, modRec__spine, pulse_spine, spine_mk, spine_eta]; done)
    | (split <;> (try (rename_i q; obtain ⟨q1, q2⟩ := Prod.ext_iff.mp q; simp only at q1 q2; subst q1 q2)))
    | (simp [*]; done)
    | simp only [*, draw_spine, modRec__spine, pulse_spine, spine_mk, spine_eta]

@[simp] theorem commitLate_spine {s0 x1 x2 x3 x4} : (State.commitLate s0 x1 x2 x3 x4).spine = s0.spine := by
  unfold State.commitLate
  with_reducible repeat' first
    | assumption
    | rfl
    | (extract_lets +onlyGivenNames y
       refine (show (y.spine = s0.spine → _) from fun h => ?_) ?_
       on_goal 1 => clear_value y
       on_goal 2 => (simp only [y]; try clear y))
    | (extract_lets +onlyGivenNames y; clear_value y)
    | refine ite_spine ?_ ?_
    | (simp only [*, modRec__spine, spine_mk, spine_eta]; done)
    | split
    | (simp [*]; done)
    | simp only [*, modRec__spine, spine_mk, spine_eta]

@[simp] theorem reading_spine {s0 x1 x2 x3 x4 x5} : (State.reading s0 x1 x2 x3 x4 x5).spine = s0.spine := by
  unfold State.reading
  with_reducible repeat' first
    | assumption
    | rfl
    | (extract_lets +onlyGivenNames y
       refine (show (y.spine = s0.spine → _) from fun h => ?_) ?_
       on_goal 1 => clear_value y
       on_goal 2 => (simp only [y]; try clear y))
    | (extract_lets +onlyGivenNames y; clear_value y)
    | refine ite_spine ?_ ?_
    | (simp only [*, pulse_spine, logAdd_spine, modRec__spine, score_spine, cloneAlarm_spine, commitLate_spine, commitNew_spine, spine_mk, spine_eta]; done)
    | split
    | (simp [*]; done)
    | simp only [*, pulse_spine, logAdd_spine, modRec__spine, score_spine, cloneAlarm_spine, commitLate_spine, commitNew_spine, spine_mk, spine_eta]

@[simp] theorem modJob_spine {s0 x1 x2} : (State.modJob s0 x1 x2).spine = s0.spine := by
  unfold State.modJob
  simp only [spine_mk, spine_eta]

@[simp] theorem sendJob_spine {s0 x1 x2 x3} : (State.sendJob s0 x1 x2 x3).spine = s0.spine := by
  unfold State.sendJob
  with_reducible repeat' first
    | assumption
    | rfl
    | (extract_lets +onlyGivenNames y
       refine (show (y.spine = s0.spine → _) from fun h => ?_) ?_
       on_goal 1 => clear_value y
       on_goal 2 => (simp only [y]; try clear y))
    | (extract_lets +onlyGivenNames y; clear_value y)
    | (refine (foldl_spine ?_).trans ?_; on_goal 1 => intro s0 _)
    | refine ite_spine ?_ ?_
    | (simp only [*, sendDown_spine, spine_mk, spine_eta]; done)
    | split
    | (simp [*]; done)
    | simp only [*, sendDown_spine, spine_mk, spine_eta]

@[simp] theorem sendJobs_spine {s0 x1 x2} : (State.sendJobs s0 x1 x2).spine = s0.spine := by
  unfold State.sendJobs
  with_reducible repeat' first
    | assumption
    | rfl
    | (extract_lets +onlyGivenNames y
       refine (show (y.spine = s0.spine → _) from fun h => ?_) ?_
       on_goal 1 => clear_value y
       on_goal 2 => (simp only [y]; try clear y))
    | (extract_lets +onlyGivenNames y; clear_value y)
    | (refine (foldl_spine ?_).trans ?_; on_goal 1 => intro s0 _)
    | (simp only [*, sendJob_spine, spine_mk, spine_eta]; done)
    | split
    | (simp [*]; done)
    | simp only [*, sendJob_spine, spine_mk, spine_eta]

@[simp] theorem nextJob_spine {s0 x1} : (State.nextJob s0 x1).spine = s0.spine := by
  unfold State.nextJob
  with_reducible repeat' first
    | assumption
    | rfl
    | (extract_lets +onlyGivenNames y
       refine (show (y.spine = s0.spine → _) from fun h => ?_) ?_
       on_goal 1 => clear_value y
       on_goal 2 => (simp only [y]; try clear y))
    | (extract_lets +onlyGivenNames y; clear_value y)
    | refine ite_spine ?_ ?_
    | (simp only [*, modJob_spine, modRec__spine, sendJobs_spine, spine_mk, spine_eta]; done)
    | split
    | (simp [*]; done)
    | simp only [*, modJob_spine, modRec__spine, sendJobs_spine, spine_mk, spine_eta]

@[simp] theorem jobEnd_spine {s0 x1 x2} : (State.jobEnd s0 x1 x2).spine = s0.spine := by
  unfold State.jobEnd
  with_reducible repeat' first
    | assumption
    | rfl
    | (extract_lets +onlyGivenNames y
       refine (show (y.spine = s0.spine → _) from fun h => ?_) ?_
       on_goal 1 => clear_value y
       on_goal 2 => (simp only [y]; try clear y))
    | (extract_lets +onlyGivenNames y; clear_value y)
    | refine ite_spine ?_ ?_
    | (simp only [*, pulse_spine, spine_mk, spine_eta]; done)
    | split
    | (simp [*]; done)
    | simp only [*, pulse_spine, spine_mk, spine_eta]

@[simp] theorem jobTarget_spine {s0 x1 x2 x3 x4 x5} : (State.jobTarget s0 x1 x2 x3 x4 x5).spine = s0.spine := by
  unfold State.jobTarget
  with_reducible repeat' first
    | assumption
    | rfl
    | (extract_lets +onlyGivenNames y
       refine (show (y.spine = s0.spine → _) from fun h => ?_) ?_
       on_goal 1 => clear_value y
       on_goal 2 => (simp only [y]; try clear y))
    | (extract_lets +onlyGivenNames y; clear_value y)
    | refine ite_spine ?_ ?_
    | (simp only [*, modJob_spine, modRec__spine, jobEnd_spine, nextJob_spine, spine_mk, spine_eta]; done)
    | split
    | (simp [*]; done)
    | simp only [*, modJob_spine, modRec__spine, jobEnd_spine, nextJob_spine, spine_mk, spine_eta]

@[simp] theorem resumeJob_spine {s0 x1} : (State.resumeJob s0 x1).spine = s0.spine := by
  unfold State.resumeJob
  with_reducible repeat' first
    | assumption
    | rfl
    | (extract_lets +onlyGivenNames y
       refine (show (y.spine = s0.spine → _) from fun h => ?_) ?_
       on_goal 1 => clear_value y
       on_goal 2 => (simp only [y]; try clear y))
    | (extract_lets +onlyGivenNames y; clear_value y)
    | refine ite_spine ?_ ?_
    | (simp only [*, sendJob_spine, spine_mk, spine_eta]; done)
    | split
    | (simp [*]; done)
    | simp only [*, sendJob_spine, spine_mk, spine_eta]

@[simp] theorem grant_spine {s0 x1 x2 x3 x4 x5} : (State.grant s0 x1 x2 x3 x4 x5).spine = s0.spine := by
  unfold State.grant
  with_reducible repeat' first
    | assumption
    | rfl
    | (extract_lets +onlyGivenNames y
       refine (show (y.spine = s0.spine → _) from fun h => ?_) ?_
       on_goal 1 => clear_value y
       on_goal 2 => (simp only [y]; try clear y))
    | (extract_lets +onlyGivenNames y; clear_value y)
    | refine ite_spine ?_ ?_
    | (simp only [*, sendDown_spine, pulse_spine, spine_mk, spine_eta]; done)
    | split
    | (simp [*]; done)
    | simp only [*, sendDown_spine, pulse_spine, spine_mk, spine_eta]

@[simp] theorem keyRequest_spine {s0 x1 x2 x3 x4} : (State.keyRequest s0 x1 x2 x3 x4).spine = s0.spine := by
  unfold State.keyRequest
  split
  · simp only [grant_spine]
  · extract_lets r give
    have hg : ∀ s, (give s).spine = s.spine := fun s => by simp only [give, resumeJob_spine, grant_spine, modRec__spine]
    clear_value give
    split
    · exact hg _
    · rw [pulse_spine, hg]
    · exact ite_spine grant_spine grant_spine
    · refine ite_spine grant_spine ?_
      rw [hg, sendDown_spine]
    · exact grant_spine
    · exact grant_spine

@[simp] theorem presenceIn_spine {s0 x1 x2 x3 x4 x5} : (State.presenceIn s0 x1 x2 x3 x4 x5).spine = s0.spine := by
  unfold State.presenceIn
  with_reducible repeat' first
    | assumption
    | rfl
    | (extract_lets +onlyGivenNames y
       refine (show (y.spine = s0.spine → _) from fun h => ?_) ?_
       on_goal 1 => clear_value y
       on_goal 2 => (simp only [y]; try clear y))
    | (extract_lets +onlyGivenNames y; clear_value y)
    | refine ite_spine ?_ ?_
    | (simp only [*, modRec__spine, cloneAlarm_spine, score_spine, pulse_spine, spine_mk, spine_eta]; done)
    | split
    | (simp [*]; done)
    | simp only [*, modRec__spine, cloneAlarm_spine, score_spine, pulse_spine, spine_mk, spine_eta]

@[simp] theorem modSnap_spine {s0 x1 x2} : (State.modSnap s0 x1 x2).spine = s0.spine := by
  unfold State.modSnap
  simp only [spine_mk, spine_eta]

@[simp] theorem meterSnapIn_spine {s0 x1 x2 x3 x4} : (State.meterSnapIn s0 x1 x2 x3 x4).spine = s0.spine := by
  unfold State.meterSnapIn
  with_reducible repeat' first
    | assumption
    | rfl
    | (extract_lets +onlyGivenNames y; clear_value y)
    | refine ite_spine ?_ ?_
    | (simp only [*, modSnap_spine, spine_mk, spine_eta]; done)
    | split
    | (simp [*]; done)
    | simp only [*, modSnap_spine, spine_mk, spine_eta]

@[simp] theorem mpSnapIn_spine {s0 x1 x2} : (State.mpSnapIn s0 x1 x2).spine = s0.spine := by
  unfold State.mpSnapIn
  simp only [modSnap_spine, spine_mk, spine_eta]

@[simp] theorem upEntry_spine {s0 x1 x2} : (State.upEntry s0 x1 x2).spine = s0.spine := by
  unfold State.upEntry
  with_reducible repeat' first
    | assumption
    | rfl
    | (extract_lets +onlyGivenNames y
       refine (show (y.spine = s0.spine → _) from fun h => ?_) ?_
       on_goal 1 => clear_value y
       on_goal 2 => (simp only [y]; try clear y))
    | (extract_lets +onlyGivenNames y; clear_value y)
    | refine ite_spine ?_ ?_
    | (simp only [*, reading_spine, meterSnapIn_spine, mpSnapIn_spine, presenceIn_spine, keyRequest_spine, jobTarget_spine, spine_mk, spine_eta]; done)
    | split
    | (simp [*]; done)
    | simp only [*, reading_spine, meterSnapIn_spine, mpSnapIn_spine, presenceIn_spine, keyRequest_spine, jobTarget_spine, spine_mk, spine_eta]

@[simp] theorem execPalletUpReceive_spine {x1 s0} : outSpine s0 (execPalletUpReceive x1 s0) = s0.spine := by
  unfold execPalletUpReceive
  with_reducible repeat' first
    | assumption
    | rfl
    | rw [outSpine_next]
    | (extract_lets +onlyGivenNames y
       refine (show (y.spine = s0.spine → _) from fun h => ?_) ?_
       on_goal 1 => clear_value y
       on_goal 2 => (simp only [y]; try clear y))
    | (extract_lets +onlyGivenNames y; clear_value y)
    | (refine (foldl_spine ?_).trans ?_; on_goal 1 => intro s0 _)
    | refine ite_spine ?_ ?_
    | refine ite_out ?_ ?_
    | (simp only [*, pulse_spine, sendAck_spine, mirror_spine, upEntry_spine, spine_mk, spine_eta, outSpine_next]; done)
    | split
    | (simp [*]; done)
    | simp only [*, pulse_spine, sendAck_spine, mirror_spine, upEntry_spine, spine_mk, spine_eta, outSpine_next]

@[simp] theorem mirrorEdit_spine {s0 x1 x2 x3} : (State.mirrorEdit s0 x1 x2 x3).spine = s0.spine := by
  unfold State.mirrorEdit
  simp only [modRec__spine, spine_mk, spine_eta]

@[simp] theorem applyMirror_spine {s0 x1} : (State.applyMirror s0 x1).spine = s0.spine := by
  unfold State.applyMirror
  with_reducible repeat' first
    | assumption
    | rfl
    | (extract_lets +onlyGivenNames y
       refine (show (y.spine = s0.spine → _) from fun h => ?_) ?_
       on_goal 1 => clear_value y
       on_goal 2 => (simp only [y]; try clear y))
    | (extract_lets +onlyGivenNames y; clear_value y)
    | refine ite_spine ?_ ?_
    | (simp only [*, mirrorEdit_spine, modRec__spine, commitLate_spine, commitNew_spine, spine_mk, spine_eta]; done)
    | split
    | (simp [*]; done)
    | simp only [*, mirrorEdit_spine, modRec__spine, commitLate_spine, commitNew_spine, spine_mk, spine_eta]

@[simp] theorem mirrorTake_spine {s0 x1} : (State.mirrorTake s0 x1).spine = s0.spine := by
  unfold State.mirrorTake
  simp only [spine_mk, spine_eta]

@[simp] theorem healEntry_spine {s0 x1} : (State.healEntry s0 x1).spine = s0.spine := by
  unfold State.healEntry
  with_reducible repeat' first
    | assumption
    | rfl
    | (extract_lets +onlyGivenNames y
       refine (show (y.spine = s0.spine → _) from fun h => ?_) ?_
       on_goal 1 => clear_value y
       on_goal 2 => (simp only [y]; try clear y))
    | (extract_lets +onlyGivenNames y; clear_value y)
    | refine ite_spine ?_ ?_
    | (simp only [*, reading_spine, spine_mk, spine_eta]; done)
    | split
    | (simp [*]; done)
    | simp only [*, reading_spine, spine_mk, spine_eta]

@[simp] theorem execPalletMirrorReceive_spine {x1 s0} : outSpine s0 (execPalletMirrorReceive x1 s0) = s0.spine := by
  unfold execPalletMirrorReceive
  with_reducible repeat' first
    | assumption
    | rfl
    | rw [outSpine_next]
    | (extract_lets +onlyGivenNames y; clear_value y)
    | (refine (foldl_spine ?_).trans ?_; on_goal 1 => intro s0 _)
    | refine ite_spine ?_ ?_
    | refine ite_out ?_ ?_
    | (simp only [*, pulse_spine, sendAck_spine, mirror_spine, healEntry_spine, mirrorTake_spine, applyMirror_spine, spine_mk, spine_eta, outSpine_next]; done)
    | split
    | (simp [*]; done)
    | simp only [*, pulse_spine, sendAck_spine, mirror_spine, healEntry_spine, mirrorTake_spine, applyMirror_spine, spine_mk, spine_eta, outSpine_next]

@[simp] theorem execLeafPalletClose_spine {s0} : outSpine s0 (execLeafPalletClose s0) = s0.spine := by
  unfold execLeafPalletClose
  with_reducible repeat' first
    | assumption
    | rfl
    | rw [outSpine_next]
    | refine ite_spine ?_ ?_
    | refine ite_out ?_ ?_
    | (simp only [*, closeUp_spine, spine_mk, spine_eta, outSpine_next]; done)
    | split
    | (simp [*]; done)
    | simp only [*, closeUp_spine, spine_mk, spine_eta, outSpine_next]

@[simp] theorem execPalletRetransmit_spine {s0} : outSpine s0 (execPalletRetransmit s0) = s0.spine := by
  unfold execPalletRetransmit
  simp only [resend_spine, spine_mk, spine_eta, outSpine_next]

@[simp] theorem execPalletAckReceive_spine {x1 s0} : outSpine s0 (execPalletAckReceive x1 s0) = s0.spine := by
  unfold execPalletAckReceive
  with_reducible repeat' first
    | assumption
    | rfl
    | rw [outSpine_next]
    | (extract_lets +onlyGivenNames y
       refine (show (y.spine = s0.spine → _) from fun h => ?_) ?_
       on_goal 1 => clear_value y
       on_goal 2 => (simp only [y]; try clear y))
    | (extract_lets +onlyGivenNames y
       have hk : Kiln.ph y = Kiln.ph (State.kiln _) := rfl
       clear_value y)
    | (extract_lets +onlyGivenNames y; clear_value y)
    | (refine (foldl_spine ?_).trans ?_; on_goal 1 => intro s0 _)
    | refine ite_spine ?_ ?_
    | refine ite_out ?_ ?_
    | (simp only [*, pulse_spine, dropSent_spine, spine_mk, spine_eta, outSpine_next]; done)
    | split
    | (simp [*]; done)
    | simp only [*, pulse_spine, dropSent_spine, spine_mk, spine_eta, outSpine_next]

@[simp] theorem freeMeter_spine {s0 x1} : (State.freeMeter s0 x1).spine = s0.spine := by
  unfold State.freeMeter
  with_reducible repeat' first
    | assumption
    | rfl
    | (extract_lets +onlyGivenNames y
       refine (show (y.spine = s0.spine → _) from fun h => ?_) ?_
       on_goal 1 => clear_value y
       on_goal 2 => (simp only [y]; try clear y))
    | (extract_lets +onlyGivenNames y; clear_value y)
    | (simp only [*, dropMeter_spine, spine_mk, spine_eta]; done)
    | split
    | (simp [*]; done)
    | simp only [*, dropMeter_spine, spine_mk, spine_eta]

@[simp] theorem grantIn_spine {s0 x1} : (State.grantIn s0 x1).spine = s0.spine := by
  unfold State.grantIn
  with_reducible repeat' first
    | assumption
    | rfl
    | (extract_lets +onlyGivenNames y
       refine (show (y.spine = s0.spine → _) from fun h => ?_) ?_
       on_goal 1 => clear_value y
       on_goal 2 => (simp only [y]; try clear y))
    | (extract_lets +onlyGivenNames y; clear_value y)
    | refine ite_spine ?_ ?_
    | (simp only [*, pulse_spine, spine_mk, spine_eta]; done)
    | split
    | (simp [*]; done)
    | simp only [*, pulse_spine, spine_mk, spine_eta]

@[simp] theorem stageJob_spine {s0 x1 x2} : (State.stageJob s0 x1 x2).spine = s0.spine := by
  unfold State.stageJob
  with_reducible repeat' first
    | assumption
    | rfl
    | (extract_lets +onlyGivenNames y; clear_value y)
    | refine ite_spine ?_ ?_
    | (simp only [*, spine_mk, spine_eta]; done)
    | split
    | (simp [*]; done)
    | simp only [*, spine_mk, spine_eta]

@[simp] theorem downEntry_spine {s0 x1} : (State.downEntry s0 x1).spine = s0.spine := by
  unfold State.downEntry
  with_reducible repeat' first
    | assumption
    | rfl
    | (extract_lets +onlyGivenNames y
       refine (show (y.spine = s0.spine → _) from fun h => ?_) ?_
       on_goal 1 => clear_value y
       on_goal 2 => (simp only [y]; try clear y))
    | (extract_lets +onlyGivenNames y; clear_value y)
    | (refine (foldl_spine ?_).trans ?_; on_goal 1 => intro s0 _)
    | refine ite_spine ?_ ?_
    | (simp only [*, grantIn_spine, modLeafJob_spine, stageJob_spine, newKeys_spine, radioPushCast_spine, cloneLock_spine, freeMeter_spine, spine_mk, spine_eta]; done)
    | split
    | (simp [*]; done)
    | simp only [*, grantIn_spine, modLeafJob_spine, stageJob_spine, newKeys_spine, radioPushCast_spine, cloneLock_spine, freeMeter_spine, spine_mk, spine_eta]

@[simp] theorem execPalletDownReceive_spine {x1 s0} : outSpine s0 (execPalletDownReceive x1 s0) = s0.spine := by
  unfold execPalletDownReceive
  with_reducible repeat' first
    | assumption
    | rfl
    | rw [outSpine_next]
    | (extract_lets +onlyGivenNames y; clear_value y)
    | (refine (foldl_spine ?_).trans ?_; on_goal 1 => intro s0 _)
    | refine ite_spine ?_ ?_
    | refine ite_out ?_ ?_
    | (simp only [*, pulse_spine, downEntry_spine, spine_mk, spine_eta, outSpine_next]; done)
    | split
    | (simp [*]; done)
    | simp only [*, pulse_spine, downEntry_spine, spine_mk, spine_eta, outSpine_next]

@[simp] theorem execLedgerTaskBoundary_spine {x1 x2 x3 s0} : outSpine s0 (execLedgerTaskBoundary x1 x2 x3 s0) = s0.spine := by
  unfold execLedgerTaskBoundary
  with_reducible repeat' first
    | assumption
    | rfl
    | rw [outSpine_next]
    | (extract_lets +onlyGivenNames y
       refine (show (y.spine = s0.spine → _) from fun h => ?_) ?_
       on_goal 1 => clear_value y
       on_goal 2 => (simp only [y]; try clear y))
    | (extract_lets +onlyGivenNames y
       have hk : Kiln.ph y = Kiln.ph (State.kiln _) := rfl
       clear_value y)
    | (extract_lets +onlyGivenNames y; clear_value y)
    | (refine (foldl_spine ?_).trans ?_; on_goal 1 => intro s0 _)
    | refine ite_spine ?_ ?_
    | refine ite_out ?_ ?_
    | (simp only [*, modTile_spine, tilesSettle_spine, convertTile_spine, measureQueue_spine, spine_mk, spine_eta, outSpine_next]; done)
    | split
    | (simp [*]; done)
    | simp only [*, modTile_spine, tilesSettle_spine, convertTile_spine, measureQueue_spine, spine_mk, spine_eta, outSpine_next]

@[simp] theorem identityLevel_spine {s0} : (State.identityLevel s0).spine = s0.spine := by
  unfold State.identityLevel
  simp only [level_spine, spine_mk, spine_eta]

@[simp] theorem identityProvisionBody_spine {x1 x2 s0} : (identityProvisionBody x1 x2 s0).1.spine = s0.spine := by
  unfold identityProvisionBody
  with_reducible repeat' first
    | assumption
    | rfl
    | (extract_lets +onlyGivenNames y
       refine (show (y.spine = s0.spine → _) from fun h => ?_) ?_
       on_goal 1 => clear_value y
       on_goal 2 => (simp only [y]; try clear y))
    | (extract_lets +onlyGivenNames y
       refine (show (y.1.spine = s0.spine → _) from fun h => ?_) ?_
       on_goal 1 => clear_value y
       on_goal 2 => (simp only [y]; try clear y))
    | (extract_lets +onlyGivenNames y; clear_value y)
    | (refine fixedBody_spine ?_; intro _ _ s0)
    | refine ite_spine ?_ ?_
    | refine ite_fst ?_ ?_
    | (simp only [*, fixedBody_spine, identityLevel_spine, spine_mk, spine_eta]; done)
    | (split <;> (try (rename_i q; obtain ⟨q1, q2⟩ := Prod.ext_iff.mp q; simp only at q1 q2; subst q1 q2)))
    | (simp [*]; done)
    | simp only [*, fixedBody_spine, identityLevel_spine, spine_mk, spine_eta]

@[simp] theorem execIdentityProvision_spine {x1 s0} : outSpine s0 (execIdentityProvision x1 s0) = s0.spine := by
  unfold execIdentityProvision
  with_reducible repeat' first
    | assumption
    | rfl
    | rw [outSpine_next]
    | (simp only [*, command_spine, identityProvisionBody_spine, spine_mk, spine_eta, outSpine_next]; done)
    | (split <;> (try (rename_i q; obtain ⟨q1, q2⟩ := Prod.ext_iff.mp q; simp only at q1 q2; subst q1 q2)))
    | (simp [*]; done)
    | simp only [*, command_spine, identityProvisionBody_spine, spine_mk, spine_eta, outSpine_next]

@[simp] theorem identityRemoveBody_spine {x1 x2 s0} : (identityRemoveBody x1 x2 s0).1.spine = s0.spine := by
  unfold identityRemoveBody
  with_reducible repeat' first
    | assumption
    | rfl
    | (extract_lets +onlyGivenNames y
       refine (show (y.spine = s0.spine → _) from fun h => ?_) ?_
       on_goal 1 => clear_value y
       on_goal 2 => (simp only [y]; try clear y))
    | (extract_lets +onlyGivenNames y
       refine (show (y.1.spine = s0.spine → _) from fun h => ?_) ?_
       on_goal 1 => clear_value y
       on_goal 2 => (simp only [y]; try clear y))
    | (extract_lets +onlyGivenNames y; clear_value y)
    | (refine (foldl_spine ?_).trans ?_; on_goal 1 => intro s0 _)
    | (refine fixedBody_spine ?_; intro _ _ s0)
    | refine ite_spine ?_ ?_
    | refine ite_fst ?_ ?_
    | (simp only [*, fixedBody_spine, endSess_spine, identityLevel_spine, spine_mk, spine_eta]; done)
    | (split <;> (try (rename_i q; obtain ⟨q1, q2⟩ := Prod.ext_iff.mp q; simp only at q1 q2; subst q1 q2)))
    | (simp [*]; done)
    | simp only [*, fixedBody_spine, endSess_spine, identityLevel_spine, spine_mk, spine_eta]

@[simp] theorem execIdentityRemove_spine {x1 s0} : outSpine s0 (execIdentityRemove x1 s0) = s0.spine := by
  unfold execIdentityRemove
  with_reducible repeat' first
    | assumption
    | rfl
    | rw [outSpine_next]
    | (simp only [*, command_spine, identityRemoveBody_spine, spine_mk, spine_eta, outSpine_next]; done)
    | (split <;> (try (rename_i q; obtain ⟨q1, q2⟩ := Prod.ext_iff.mp q; simp only at q1 q2; subst q1 q2)))
    | (simp [*]; done)
    | simp only [*, command_spine, identityRemoveBody_spine, spine_mk, spine_eta, outSpine_next]

@[simp] theorem identityUnlockBody_spine {x1 x2 s0} : (identityUnlockBody x1 x2 s0).1.spine = s0.spine := by
  unfold identityUnlockBody
  with_reducible repeat' first
    | assumption
    | rfl
    | (extract_lets +onlyGivenNames y; clear_value y)
    | (refine fixedBody_spine ?_; intro _ _ s0)
    | refine ite_spine ?_ ?_
    | refine ite_fst ?_ ?_
    | (simp only [*, fixedBody_spine, modIdent_spine, spine_mk, spine_eta]; done)
    | (split <;> (try (rename_i q; obtain ⟨q1, q2⟩ := Prod.ext_iff.mp q; simp only at q1 q2; subst q1 q2)))
    | (simp [*]; done)
    | simp only [*, fixedBody_spine, modIdent_spine, spine_mk, spine_eta]

@[simp] theorem execIdentityUnlock_spine {x1 s0} : outSpine s0 (execIdentityUnlock x1 s0) = s0.spine := by
  unfold execIdentityUnlock
  with_reducible repeat' first
    | assumption
    | rfl
    | rw [outSpine_next]
    | (simp only [*, command_spine, identityUnlockBody_spine, spine_mk, spine_eta, outSpine_next]; done)
    | (split <;> (try (rename_i q; obtain ⟨q1, q2⟩ := Prod.ext_iff.mp q; simp only at q1 q2; subst q1 q2)))
    | (simp [*]; done)
    | simp only [*, command_spine, identityUnlockBody_spine, spine_mk, spine_eta, outSpine_next]

@[simp] theorem eraseSector_spine {s0 x1} : (State.eraseSector s0 x1).spine = s0.spine := by
  unfold State.eraseSector
  simp only [journalAdd_spine, spine_mk, spine_eta]

@[simp] theorem programFlash_spine {s0 x1 x2} : (State.programFlash s0 x1 x2).spine = s0.spine := by
  unfold State.programFlash
  simp only [journalAdd_spine, spine_mk, spine_eta]

@[simp] theorem writeImage_spine {s0 x1 x2} : (State.writeImage s0 x1 x2).spine = s0.spine := by
  unfold State.writeImage
  with_reducible repeat' first
    | assumption
    | rfl
    | (extract_lets +onlyGivenNames y
       refine (show (y.spine = s0.spine → _) from fun h => ?_) ?_
       on_goal 1 => clear_value y
       on_goal 2 => (simp only [y]; try clear y))
    | (extract_lets +onlyGivenNames y; clear_value y)
    | (refine (foldl_spine ?_).trans ?_; on_goal 1 => intro s0 _)
    | (simp only [*, eraseSector_spine, programFlash_spine, spine_mk, spine_eta]; done)
    | split
    | (simp [*]; done)
    | simp only [*, eraseSector_spine, programFlash_spine, spine_mk, spine_eta]

@[simp] theorem execFlashEraseResume_spine {s0} : outSpine s0 (execFlashEraseResume s0) = s0.spine := by
  unfold execFlashEraseResume
  simp only [spine_mk, spine_eta, outSpine_next]

@[simp] theorem execIndeterminateReerase_spine {x1 s0} : outSpine s0 (execIndeterminateReerase x1 s0) = s0.spine := by
  unfold execIndeterminateReerase
  with_reducible repeat' first
    | assumption
    | rfl
    | rw [outSpine_next]
    | refine ite_spine ?_ ?_
    | refine ite_out ?_ ?_
    | (simp only [*, eraseSector_spine, spine_mk, spine_eta, outSpine_next]; done)
    | split
    | (simp [*]; done)
    | simp only [*, eraseSector_spine, spine_mk, spine_eta, outSpine_next]

@[simp] theorem execFlashOpFail_spine {x1 s0} : outSpine s0 (execFlashOpFail x1 s0) = s0.spine := by
  unfold execFlashOpFail
  with_reducible repeat' first
    | assumption
    | rfl
    | rw [outSpine_next]
    | (extract_lets +onlyGivenNames y
       refine (show (y.spine = s0.spine → _) from fun h => ?_) ?_
       on_goal 1 => clear_value y
       on_goal 2 => (simp only [y]; try clear y))
    | (extract_lets +onlyGivenNames y; clear_value y)
    | refine ite_spine ?_ ?_
    | refine ite_out ?_ ?_
    | (simp only [*, pulse_spine, journalAdd_spine, spine_mk, spine_eta, outSpine_next]; done)
    | split
    | (simp [*]; done)
    | simp only [*, pulse_spine, journalAdd_spine, spine_mk, spine_eta, outSpine_next]

@[simp] theorem fwStageData_spine {x1 x2 x3 s0} : (fwStageData x1 x2 x3 s0).1.spine = s0.spine := by
  unfold fwStageData
  with_reducible repeat' first
    | assumption
    | rfl
    | (extract_lets +onlyGivenNames y
       refine (show (y.spine = s0.spine → _) from fun h => ?_) ?_
       on_goal 1 => clear_value y
       on_goal 2 => (simp only [y]; try clear y))
    | (extract_lets +onlyGivenNames y; clear_value y)
    | (refine (foldl_spine ?_).trans ?_; on_goal 1 => intro s0 _)
    | refine ite_spine ?_ ?_
    | refine ite_fst ?_ ?_
    | (simp only [*, pulse_spine, eraseSector_spine, programFlash_spine, spine_mk, spine_eta]; done)
    | split
    | (simp [*]; done)
    | simp only [*, pulse_spine, eraseSector_spine, programFlash_spine, spine_mk, spine_eta]

@[simp] theorem fwStageBody_spine {x1 x2 s0} : (fwStageBody x1 x2 s0).1.spine = s0.spine := by
  unfold fwStageBody
  with_reducible repeat' first
    | assumption
    | rfl
    | (refine bulkInBody_spine ?_; intro _ _ _ s0)
    | (simp only [*, bulkInBody_spine, fwStageData_spine, spine_mk, spine_eta]; done)
    | (split <;> (try (rename_i q; obtain ⟨q1, q2⟩ := Prod.ext_iff.mp q; simp only at q1 q2; subst q1 q2)))
    | (simp [*]; done)
    | simp only [*, bulkInBody_spine, fwStageData_spine, spine_mk, spine_eta]

@[simp] theorem execFwStage_spine {x1 s0} : outSpine s0 (execFwStage x1 s0) = s0.spine := by
  unfold execFwStage
  with_reducible repeat' first
    | assumption
    | rfl
    | rw [outSpine_next]
    | (simp only [*, command_spine, fwStageBody_spine, spine_mk, spine_eta, outSpine_next]; done)
    | (split <;> (try (rename_i q; obtain ⟨q1, q2⟩ := Prod.ext_iff.mp q; simp only at q1 q2; subst q1 q2)))
    | (simp [*]; done)
    | simp only [*, command_spine, fwStageBody_spine, spine_mk, spine_eta, outSpine_next]

@[simp] theorem writeHeader_spine {s0 x1 x2} : (State.writeHeader s0 x1 x2).spine = s0.spine := by
  unfold State.writeHeader
  simp only [journalAdd_spine, spine_mk, spine_eta]

@[simp] theorem fwActivateBody_spine {x1 x2 s0} : (fwActivateBody x1 x2 s0).1.spine = s0.spine := by
  unfold fwActivateBody
  with_reducible repeat' first
    | assumption
    | rfl
    | (extract_lets +onlyGivenNames y
       refine (show (y.spine = s0.spine → _) from fun h => ?_) ?_
       on_goal 1 => clear_value y
       on_goal 2 => (simp only [y]; try clear y))
    | (extract_lets +onlyGivenNames y
       refine (show (y.1.spine = s0.spine → _) from fun h => ?_) ?_
       on_goal 1 => clear_value y
       on_goal 2 => (simp only [y]; try clear y))
    | (extract_lets +onlyGivenNames y; clear_value y)
    | (refine fixedBody_spine ?_; intro _ _ s0)
    | refine ite_spine ?_ ?_
    | refine ite_fst ?_ ?_
    | (simp only [*, fixedBody_spine, writeHeader_spine, spine_mk, spine_eta]; done)
    | (split <;> (try (rename_i q; obtain ⟨q1, q2⟩ := Prod.ext_iff.mp q; simp only at q1 q2; subst q1 q2)))
    | (simp [*]; done)
    | simp only [*, fixedBody_spine, writeHeader_spine, spine_mk, spine_eta]

@[simp] theorem execFwActivate_spine {x1 s0} : outSpine s0 (execFwActivate x1 s0) = s0.spine := by
  unfold execFwActivate
  with_reducible repeat' first
    | assumption
    | rfl
    | rw [outSpine_next]
    | (simp only [*, command_spine, fwActivateBody_spine, spine_mk, spine_eta, outSpine_next]; done)
    | (split <;> (try (rename_i q; obtain ⟨q1, q2⟩ := Prod.ext_iff.mp q; simp only at q1 q2; subst q1 q2)))
    | (simp [*]; done)
    | simp only [*, command_spine, fwActivateBody_spine, spine_mk, spine_eta, outSpine_next]

@[simp] theorem partitionReadOnly_spine {s0 x1} : (State.partitionReadOnly s0 x1).spine = s0.spine := by
  unfold State.partitionReadOnly
  with_reducible repeat' first
    | assumption
    | rfl
    | (extract_lets +onlyGivenNames y
       refine (show (y.spine = s0.spine → _) from fun h => ?_) ?_
       on_goal 1 => clear_value y
       on_goal 2 => (simp only [y]; try clear y))
    | (extract_lets +onlyGivenNames y; clear_value y)
    | refine ite_spine ?_ ?_
    | (simp only [*, level_spine, f2_spine, f1_spine, spine_mk, spine_eta]; done)
    | split
    | (simp [*]; done)
    | simp only [*, level_spine, f2_spine, f1_spine, spine_mk, spine_eta]

@[simp] theorem roFollow_spine {s0} : (State.roFollow s0).spine = s0.spine := by
  unfold State.roFollow
  with_reducible repeat' first
    | assumption
    | rfl
    | (extract_lets +onlyGivenNames y; clear_value y)
    | refine ite_spine ?_ ?_
    | (simp only [*, partitionReadOnly_spine, spine_mk, spine_eta]; done)
    | split
    | (simp [*]; done)
    | simp only [*, partitionReadOnly_spine, spine_mk, spine_eta]

@[simp] theorem retireBlock_spine {s0 x1 x2} : (State.retireBlock s0 x1 x2).spine = s0.spine := by
  unfold State.retireBlock
  with_reducible repeat' first
    | assumption
    | rfl
    | (extract_lets +onlyGivenNames y
       refine (show (y.spine = s0.spine → _) from fun h => ?_) ?_
       on_goal 1 => clear_value y
       on_goal 2 => (simp only [y]; try clear y))
    | (extract_lets +onlyGivenNames y; clear_value y)
    | refine ite_spine ?_ ?_
    | (simp only [*, partitionReadOnly_spine, journalAdd_spine, level_spine, pulse_spine, spine_mk, spine_eta]; done)
    | split
    | (simp [*]; done)
    | simp only [*, partitionReadOnly_spine, journalAdd_spine, level_spine, pulse_spine, spine_mk, spine_eta]

@[simp] theorem losesWord_spine {s0 x1} : (State.losesWord s0 x1).spine = s0.spine := by
  unfold State.losesWord
  with_reducible repeat' first
    | assumption
    | rfl
    | (extract_lets +onlyGivenNames y
       refine (show (y.spine = s0.spine → _) from fun h => ?_) ?_
       on_goal 1 => clear_value y
       on_goal 2 => (simp only [y]; try clear y))
    | (extract_lets +onlyGivenNames y; clear_value y)
    | refine ite_spine ?_ ?_
    | (simp only [*, pulse_spine, modBmp_spine, modIdent_spine, spine_mk, spine_eta]; done)
    | split
    | (simp [*]; done)
    | simp only [*, pulse_spine, modBmp_spine, modIdent_spine, spine_mk, spine_eta]

@[simp] theorem mramHit_spine {s0 x1 x2} : (State.mramHit s0 x1 x2).spine = s0.spine := by
  unfold State.mramHit
  with_reducible repeat' first
    | assumption
    | rfl
    | (extract_lets +onlyGivenNames y
       refine (show (y.spine = s0.spine → _) from fun h => ?_) ?_
       on_goal 1 => clear_value y
       on_goal 2 => (simp only [y]; try clear y))
    | (extract_lets +onlyGivenNames y; clear_value y)
    | refine ite_spine ?_ ?_
    | (simp only [*, retireBlock_spine, f1_spine, losesWord_spine, pulse_spine, f0_spine, spine_mk, spine_eta]; done)
    | split
    | (simp [*]; done)
    | simp only [*, retireBlock_spine, f1_spine, losesWord_spine, pulse_spine, f0_spine, spine_mk, spine_eta]

@[simp] theorem execMramScrub_spine {x1 s0} : outSpine s0 (execMramScrub x1 s0) = s0.spine := by
  unfold execMramScrub
  with_reducible repeat' first
    | assumption
    | rfl
    | rw [outSpine_next]
    | (extract_lets +onlyGivenNames y
       refine (show (y.spine = s0.spine → _) from fun h => ?_) ?_
       on_goal 1 => clear_value y
       on_goal 2 => (simp only [y]; try clear y))
    | (extract_lets +onlyGivenNames y; clear_value y)
    | (refine (foldl_spine ?_).trans ?_; on_goal 1 => intro s0 _)
    | refine ite_spine ?_ ?_
    | refine ite_out ?_ ?_
    | (simp only [*, mramHit_spine, spine_mk, spine_eta, outSpine_next]; done)
    | split
    | (simp [*]; done)
    | simp only [*, mramHit_spine, spine_mk, spine_eta, outSpine_next]

@[simp] theorem storeStatusBody_spine {x1 x2 s0} : (storeStatusBody x1 x2 s0).1.spine = s0.spine := by
  unfold storeStatusBody
  with_reducible repeat' first
    | assumption
    | rfl
    | (extract_lets +onlyGivenNames y
       refine (show (y.spine = s0.spine → _) from fun h => ?_) ?_
       on_goal 1 => clear_value y
       on_goal 2 => (simp only [y]; try clear y))
    | (extract_lets +onlyGivenNames y
       refine (show (y.1.spine = s0.spine → _) from fun h => ?_) ?_
       on_goal 1 => clear_value y
       on_goal 2 => (simp only [y]; try clear y))
    | (extract_lets +onlyGivenNames y; clear_value y)
    | (refine fixedBody_spine ?_; intro _ _ s0)
    | (simp only [*, fixedBody_spine, spine_mk, spine_eta]; done)
    | (split <;> (try (rename_i q; obtain ⟨q1, q2⟩ := Prod.ext_iff.mp q; simp only at q1 q2; subst q1 q2)))
    | (simp [*]; done)
    | simp only [*, fixedBody_spine, spine_mk, spine_eta]

@[simp] theorem execStoreStatus_spine {x1 s0} : outSpine s0 (execStoreStatus x1 s0) = s0.spine := by
  unfold execStoreStatus
  with_reducible repeat' first
    | assumption
    | rfl
    | rw [outSpine_next]
    | (simp only [*, command_spine, storeStatusBody_spine, spine_mk, spine_eta, outSpine_next]; done)
    | (split <;> (try (rename_i q; obtain ⟨q1, q2⟩ := Prod.ext_iff.mp q; simp only at q1 q2; subst q1 q2)))
    | (simp [*]; done)
    | simp only [*, command_spine, storeStatusBody_spine, spine_mk, spine_eta, outSpine_next]

@[simp] theorem ledgerReadBody_spine {x1 x2 s0} : (ledgerReadBody x1 x2 s0).1.spine = s0.spine := by
  unfold ledgerReadBody
  with_reducible repeat' first
    | assumption
    | rfl
    | (extract_lets +onlyGivenNames y
       refine (show (y.spine = s0.spine → _) from fun h => ?_) ?_
       on_goal 1 => clear_value y
       on_goal 2 => (simp only [y]; try clear y))
    | (extract_lets +onlyGivenNames y
       refine (show (y.2.spine = s0.spine → _) from fun h => ?_) ?_
       on_goal 1 => clear_value y
       on_goal 2 => (simp only [y]; try clear y))
    | (extract_lets +onlyGivenNames y
       refine (show (y.1.spine = s0.spine → _) from fun h => ?_) ?_
       on_goal 1 => clear_value y
       on_goal 2 => (simp only [y]; try clear y))
    | (extract_lets +onlyGivenNames y; clear_value y)
    | (refine bulkOutBody_spine ?_; intro _ _ s0)
    | refine ite_spine ?_ ?_
    | refine ite_fst ?_ ?_
    | (simp only [*, bulkOutBody_spine, draw_spine, spine_mk, spine_eta]; done)
    | (split <;> (try (rename_i q; obtain ⟨q1, q2⟩ := Prod.ext_iff.mp q; simp only at q1 q2; subst q1 q2)))
    | (simp [*]; done)
    | simp only [*, bulkOutBody_spine, draw_spine, spine_mk, spine_eta]

@[simp] theorem execLedgerRead_spine {x1 s0} : outSpine s0 (execLedgerRead x1 s0) = s0.spine := by
  unfold execLedgerRead
  with_reducible repeat' first
    | assumption
    | rfl
    | rw [outSpine_next]
    | (refine shedBody_spine ?_; intro _ _ s0)
    | (simp only [*, command_spine, shedBody_spine, ledgerReadBody_spine, spine_mk, spine_eta, outSpine_next]; done)
    | (split <;> (try (rename_i q; obtain ⟨q1, q2⟩ := Prod.ext_iff.mp q; simp only at q1 q2; subst q1 q2)))
    | (simp [*]; done)
    | simp only [*, command_spine, shedBody_spine, ledgerReadBody_spine, spine_mk, spine_eta, outSpine_next]

@[simp] theorem ledgerEditBody_spine {x1 x2 s0} : (ledgerEditBody x1 x2 s0).1.spine = s0.spine := by
  unfold ledgerEditBody
  with_reducible repeat' first
    | assumption
    | rfl
    | (extract_lets +onlyGivenNames y
       refine (show (y.spine = s0.spine → _) from fun h => ?_) ?_
       on_goal 1 => clear_value y
       on_goal 2 => (simp only [y]; try clear y))
    | (extract_lets +onlyGivenNames y
       refine (show (y.1.spine = s0.spine → _) from fun h => ?_) ?_
       on_goal 1 => clear_value y
       on_goal 2 => (simp only [y]; try clear y))
    | (extract_lets +onlyGivenNames y; clear_value y)
    | (refine fixedBody_spine ?_; intro _ _ s0)
    | refine ite_spine ?_ ?_
    | refine ite_fst ?_ ?_
    | (simp only [*, fixedBody_spine, modRec__spine, mirror_spine, logAdd_spine, spine_mk, spine_eta]; done)
    | (split <;> (try (rename_i q; obtain ⟨q1, q2⟩ := Prod.ext_iff.mp q; simp only at q1 q2; subst q1 q2)))
    | (simp [*]; done)
    | simp only [*, fixedBody_spine, modRec__spine, mirror_spine, logAdd_spine, spine_mk, spine_eta]

@[simp] theorem execLedgerEdit_spine {x1 s0} : outSpine s0 (execLedgerEdit x1 s0) = s0.spine := by
  unfold execLedgerEdit
  with_reducible repeat' first
    | assumption
    | rfl
    | rw [outSpine_next]
    | (refine shedBody_spine ?_; intro _ _ s0)
    | (simp only [*, command_spine, shedBody_spine, ledgerEditBody_spine, spine_mk, spine_eta, outSpine_next]; done)
    | (split <;> (try (rename_i q; obtain ⟨q1, q2⟩ := Prod.ext_iff.mp q; simp only at q1 q2; subst q1 q2)))
    | (simp [*]; done)
    | simp only [*, command_spine, shedBody_spine, ledgerEditBody_spine, spine_mk, spine_eta, outSpine_next]

@[simp] theorem ledgerUnlockBody_spine {x1 x2 s0} : (ledgerUnlockBody x1 x2 s0).1.spine = s0.spine := by
  unfold ledgerUnlockBody
  with_reducible repeat' first
    | assumption
    | rfl
    | (extract_lets +onlyGivenNames y
       refine (show (y.spine = s0.spine → _) from fun h => ?_) ?_
       on_goal 1 => clear_value y
       on_goal 2 => (simp only [y]; try clear y))
    | (extract_lets +onlyGivenNames y
       refine (show (y.1.spine = s0.spine → _) from fun h => ?_) ?_
       on_goal 1 => clear_value y
       on_goal 2 => (simp only [y]; try clear y))
    | (extract_lets +onlyGivenNames y; clear_value y)
    | (refine fixedBody_spine ?_; intro _ _ s0)
    | refine ite_spine ?_ ?_
    | refine ite_fst ?_ ?_
    | (simp only [*, fixedBody_spine, modRec__spine, sendDown_spine, spine_mk, spine_eta]; done)
    | (split <;> (try (rename_i q; obtain ⟨q1, q2⟩ := Prod.ext_iff.mp q; simp only at q1 q2; subst q1 q2)))
    | (simp [*]; done)
    | simp only [*, fixedBody_spine, modRec__spine, sendDown_spine, spine_mk, spine_eta]

@[simp] theorem execLedgerUnlock_spine {x1 s0} : outSpine s0 (execLedgerUnlock x1 s0) = s0.spine := by
  unfold execLedgerUnlock
  with_reducible repeat' first
    | assumption
    | rfl
    | rw [outSpine_next]
    | (refine shedBody_spine ?_; intro _ _ s0)
    | (simp only [*, command_spine, shedBody_spine, ledgerUnlockBody_spine, spine_mk, spine_eta, outSpine_next]; done)
    | (split <;> (try (rename_i q; obtain ⟨q1, q2⟩ := Prod.ext_iff.mp q; simp only at q1 q2; subst q1 q2)))
    | (simp [*]; done)
    | simp only [*, command_spine, shedBody_spine, ledgerUnlockBody_spine, spine_mk, spine_eta, outSpine_next]

@[simp] theorem ledgerProvisionBody_spine {x1 x2 s0} : (ledgerProvisionBody x1 x2 s0).1.spine = s0.spine := by
  unfold ledgerProvisionBody
  with_reducible repeat' first
    | assumption
    | rfl
    | (extract_lets +onlyGivenNames y
       refine (show (y.spine = s0.spine → _) from fun h => ?_) ?_
       on_goal 1 => clear_value y
       on_goal 2 => (simp only [y]; try clear y))
    | (extract_lets +onlyGivenNames y
       refine (show (y.1.spine = s0.spine → _) from fun h => ?_) ?_
       on_goal 1 => clear_value y
       on_goal 2 => (simp only [y]; try clear y))
    | (extract_lets +onlyGivenNames y; clear_value y)
    | (refine fixedBody_spine ?_; intro _ _ s0)
    | refine ite_spine ?_ ?_
    | refine ite_fst ?_ ?_
    | (simp only [*, fixedBody_spine, level_spine, modRec__spine, spine_mk, spine_eta]; done)
    | (split <;> (try (rename_i q; obtain ⟨q1, q2⟩ := Prod.ext_iff.mp q; simp only at q1 q2; subst q1 q2)))
    | (simp [*]; done)
    | simp only [*, fixedBody_spine, level_spine, modRec__spine, spine_mk, spine_eta]

@[simp] theorem execLedgerProvision_spine {x1 s0} : outSpine s0 (execLedgerProvision x1 s0) = s0.spine := by
  unfold execLedgerProvision
  with_reducible repeat' first
    | assumption
    | rfl
    | rw [outSpine_next]
    | (refine shedBody_spine ?_; intro _ _ s0)
    | (simp only [*, command_spine, shedBody_spine, ledgerProvisionBody_spine, spine_mk, spine_eta, outSpine_next]; done)
    | (split <;> (try (rename_i q; obtain ⟨q1, q2⟩ := Prod.ext_iff.mp q; simp only at q1 q2; subst q1 q2)))
    | (simp [*]; done)
    | simp only [*, command_spine, shedBody_spine, ledgerProvisionBody_spine, spine_mk, spine_eta, outSpine_next]

@[simp] theorem ledgerAssignBody_spine {x1 x2 s0} : (ledgerAssignBody x1 x2 s0).1.spine = s0.spine := by
  unfold ledgerAssignBody
  with_reducible repeat' first
    | assumption
    | rfl
    | (extract_lets +onlyGivenNames y
       refine (show (y.spine = s0.spine → _) from fun h => ?_) ?_
       on_goal 1 => clear_value y
       on_goal 2 => (simp only [y]; try clear y))
    | (extract_lets +onlyGivenNames y
       refine (show (y.1.spine = s0.spine → _) from fun h => ?_) ?_
       on_goal 1 => clear_value y
       on_goal 2 => (simp only [y]; try clear y))
    | (extract_lets +onlyGivenNames y; clear_value y)
    | (refine fixedBody_spine ?_; intro _ _ s0)
    | refine ite_spine ?_ ?_
    | refine ite_fst ?_ ?_
    | (simp only [*, fixedBody_spine, modRec__spine, spine_mk, spine_eta]; done)
    | (split <;> (try (rename_i q; obtain ⟨q1, q2⟩ := Prod.ext_iff.mp q; simp only at q1 q2; subst q1 q2)))
    | (simp [*]; done)
    | simp only [*, fixedBody_spine, modRec__spine, spine_mk, spine_eta]

@[simp] theorem execLedgerAssign_spine {x1 s0} : outSpine s0 (execLedgerAssign x1 s0) = s0.spine := by
  unfold execLedgerAssign
  with_reducible repeat' first
    | assumption
    | rfl
    | rw [outSpine_next]
    | (refine shedBody_spine ?_; intro _ _ s0)
    | (simp only [*, command_spine, shedBody_spine, ledgerAssignBody_spine, spine_mk, spine_eta, outSpine_next]; done)
    | (split <;> (try (rename_i q; obtain ⟨q1, q2⟩ := Prod.ext_iff.mp q; simp only at q1 q2; subst q1 q2)))
    | (simp [*]; done)
    | simp only [*, command_spine, shedBody_spine, ledgerAssignBody_spine, spine_mk, spine_eta, outSpine_next]

@[simp] theorem ledgerDeprovisionBody_spine {x1 x2 s0} : (ledgerDeprovisionBody x1 x2 s0).1.spine = s0.spine := by
  unfold ledgerDeprovisionBody
  with_reducible repeat' first
    | assumption
    | rfl
    | (extract_lets +onlyGivenNames y
       refine (show (y.spine = s0.spine → _) from fun h => ?_) ?_
       on_goal 1 => clear_value y
       on_goal 2 => (simp only [y]; try clear y))
    | (extract_lets +onlyGivenNames y
       refine (show (y.1.spine = s0.spine → _) from fun h => ?_) ?_
       on_goal 1 => clear_value y
       on_goal 2 => (simp only [y]; try clear y))
    | (extract_lets +onlyGivenNames y; clear_value y)
    | (refine (foldl_spine ?_).trans ?_; on_goal 1 => intro s0 _)
    | (refine fixedBody_spine ?_; intro _ _ s0)
    | refine ite_spine ?_ ?_
    | refine ite_fst ?_ ?_
    | (simp only [*, fixedBody_spine, sendDown_spine, jobTarget_spine, mirror_spine, logAdd_spine, level_spine, modRec__spine, spine_mk, spine_eta]; done)
    | (split <;> (try (rename_i q; obtain ⟨q1, q2⟩ := Prod.ext_iff.mp q; simp only at q1 q2; subst q1 q2)))
    | (simp [*]; done)
    | simp only [*, fixedBody_spine, sendDown_spine, jobTarget_spine, mirror_spine, logAdd_spine, level_spine, modRec__spine, spine_mk, spine_eta]

@[simp] theorem execLedgerDeprovision_spine {x1 s0} : outSpine s0 (execLedgerDeprovision x1 s0) = s0.spine := by
  unfold execLedgerDeprovision
  with_reducible repeat' first
    | assumption
    | rfl
    | rw [outSpine_next]
    | (refine shedBody_spine ?_; intro _ _ s0)
    | (simp only [*, command_spine, shedBody_spine, ledgerDeprovisionBody_spine, spine_mk, spine_eta, outSpine_next]; done)
    | (split <;> (try (rename_i q; obtain ⟨q1, q2⟩ := Prod.ext_iff.mp q; simp only at q1 q2; subst q1 q2)))
    | (simp [*]; done)
    | simp only [*, command_spine, shedBody_spine, ledgerDeprovisionBody_spine, spine_mk, spine_eta, outSpine_next]

@[simp] theorem ledgerStatusBody_spine {x1 x2 s0} : (ledgerStatusBody x1 x2 s0).1.spine = s0.spine := by
  unfold ledgerStatusBody
  with_reducible repeat' first
    | assumption
    | rfl
    | (extract_lets +onlyGivenNames y
       refine (show (y.spine = s0.spine → _) from fun h => ?_) ?_
       on_goal 1 => clear_value y
       on_goal 2 => (simp only [y]; try clear y))
    | (extract_lets +onlyGivenNames y
       refine (show (y.1.spine = s0.spine → _) from fun h => ?_) ?_
       on_goal 1 => clear_value y
       on_goal 2 => (simp only [y]; try clear y))
    | (extract_lets +onlyGivenNames y
       have hk : Kiln.ph y = Kiln.ph (State.kiln _) := rfl
       clear_value y)
    | (extract_lets +onlyGivenNames y; clear_value y)
    | (refine fixedBody_spine ?_; intro _ _ s0)
    | (simp only [*, fixedBody_spine, readBody_spine, spine_mk, spine_eta]; done)
    | (split <;> (try (rename_i q; obtain ⟨q1, q2⟩ := Prod.ext_iff.mp q; simp only at q1 q2; subst q1 q2)))
    | (simp [*]; done)
    | simp only [*, fixedBody_spine, readBody_spine, spine_mk, spine_eta]

@[simp] theorem execLedgerStatus_spine {x1 s0} : outSpine s0 (execLedgerStatus x1 s0) = s0.spine := by
  unfold execLedgerStatus
  with_reducible repeat' first
    | assumption
    | rfl
    | rw [outSpine_next]
    | (refine shedBody_spine ?_; intro _ _ s0)
    | (simp only [*, command_spine, shedBody_spine, ledgerStatusBody_spine, spine_mk, spine_eta, outSpine_next]; done)
    | (split <;> (try (rename_i q; obtain ⟨q1, q2⟩ := Prod.ext_iff.mp q; simp only at q1 q2; subst q1 q2)))
    | (simp [*]; done)
    | simp only [*, command_spine, shedBody_spine, ledgerStatusBody_spine, spine_mk, spine_eta, outSpine_next]

@[simp] theorem snapshotAtBody_spine {x1 x2 s0} : (snapshotAtBody x1 x2 s0).1.spine = s0.spine := by
  unfold snapshotAtBody
  with_reducible repeat' first
    | assumption
    | rfl
    | (extract_lets +onlyGivenNames y
       refine (show (y.spine = s0.spine → _) from fun h => ?_) ?_
       on_goal 1 => clear_value y
       on_goal 2 => (simp only [y]; try clear y))
    | (extract_lets +onlyGivenNames y
       refine (show (y.1.spine = s0.spine → _) from fun h => ?_) ?_
       on_goal 1 => clear_value y
       on_goal 2 => (simp only [y]; try clear y))
    | (extract_lets +onlyGivenNames y; clear_value y)
    | (refine fixedBody_spine ?_; intro _ _ s0)
    | refine ite_spine ?_ ?_
    | refine ite_fst ?_ ?_
    | (simp only [*, fixedBody_spine, pulse_spine, sendDown_spine, spine_mk, spine_eta]; done)
    | (split <;> (try (rename_i q; obtain ⟨q1, q2⟩ := Prod.ext_iff.mp q; simp only at q1 q2; subst q1 q2)))
    | (simp [*]; done)
    | simp only [*, fixedBody_spine, pulse_spine, sendDown_spine, spine_mk, spine_eta]

@[simp] theorem execSnapshotAt_spine {x1 s0} : outSpine s0 (execSnapshotAt x1 s0) = s0.spine := by
  unfold execSnapshotAt
  with_reducible repeat' first
    | assumption
    | rfl
    | rw [outSpine_next]
    | (refine shedBody_spine ?_; intro _ _ s0)
    | (simp only [*, command_spine, shedBody_spine, snapshotAtBody_spine, spine_mk, spine_eta, outSpine_next]; done)
    | (split <;> (try (rename_i q; obtain ⟨q1, q2⟩ := Prod.ext_iff.mp q; simp only at q1 q2; subst q1 q2)))
    | (simp [*]; done)
    | simp only [*, command_spine, shedBody_spine, snapshotAtBody_spine, spine_mk, spine_eta, outSpine_next]

@[simp] theorem modLeafSnap_spine {s0 x1 x2} : (State.modLeafSnap s0 x1 x2).spine = s0.spine := by
  unfold State.modLeafSnap
  simp only [spine_mk, spine_eta]

@[simp] theorem latchMp_spine {s0 x1 x2} : (State.latchMp s0 x1 x2).spine = s0.spine := by
  unfold State.latchMp
  with_reducible repeat' first
    | assumption
    | rfl
    | (extract_lets +onlyGivenNames y
       refine (show (y.spine = s0.spine → _) from fun h => ?_) ?_
       on_goal 1 => clear_value y
       on_goal 2 => (simp only [y]; try clear y))
    | (extract_lets +onlyGivenNames y; clear_value y)
    | refine ite_spine ?_ ?_
    | (simp only [*, appendUp_spine, modLeafSnap_spine, spine_mk, spine_eta]; done)
    | split
    | (simp [*]; done)
    | simp only [*, appendUp_spine, modLeafSnap_spine, spine_mk, spine_eta]

@[simp] theorem latchMeters_spine {s0 x1} : (State.latchMeters s0 x1).spine = s0.spine := by
  unfold State.latchMeters
  with_reducible repeat' first
    | assumption
    | rfl
    | (extract_lets +onlyGivenNames y
       refine (show (y.spine = s0.spine → _) from fun h => ?_) ?_
       on_goal 1 => clear_value y
       on_goal 2 => (simp only [y]; try clear y))
    | (extract_lets +onlyGivenNames y; clear_value y)
    | (refine (foldl_spine ?_).trans ?_; on_goal 1 => intro s0 _)
    | refine ite_spine ?_ ?_
    | (simp only [*, latchAt_spine, modLeafSnap_spine, meterSnap_spine, spine_mk, spine_eta]; done)
    | split
    | (simp [*]; done)
    | simp only [*, latchAt_spine, modLeafSnap_spine, meterSnap_spine, spine_mk, spine_eta]

@[simp] theorem execSnapshotLatch_spine {x1 x2 s0} : outSpine s0 (execSnapshotLatch x1 x2 s0) = s0.spine := by
  unfold execSnapshotLatch
  with_reducible repeat' first
    | assumption
    | rfl
    | rw [outSpine_next]
    | (extract_lets +onlyGivenNames y; clear_value y)
    | refine ite_spine ?_ ?_
    | refine ite_out ?_ ?_
    | (simp only [*, latchMeters_spine, latchMp_spine, spine_mk, spine_eta, outSpine_next]; done)
    | split
    | (simp [*]; done)
    | simp only [*, latchMeters_spine, latchMp_spine, spine_mk, spine_eta, outSpine_next]

@[simp] theorem execSnapshotTimeout_spine {x1 s0} : outSpine s0 (execSnapshotTimeout x1 s0) = s0.spine := by
  unfold execSnapshotTimeout
  with_reducible repeat' first
    | assumption
    | rfl
    | rw [outSpine_next]
    | (extract_lets +onlyGivenNames y
       refine (show (y.spine = s0.spine → _) from fun h => ?_) ?_
       on_goal 1 => clear_value y
       on_goal 2 => (simp only [y]; try clear y))
    | (extract_lets +onlyGivenNames y; clear_value y)
    | refine ite_spine ?_ ?_
    | refine ite_out ?_ ?_
    | (simp only [*, modSnap_spine, spine_mk, spine_eta, outSpine_next]; done)
    | split
    | (simp [*]; done)
    | simp only [*, modSnap_spine, spine_mk, spine_eta, outSpine_next]

@[simp] theorem balanceDefineBody_spine {x1 x2 s0} : (balanceDefineBody x1 x2 s0).1.spine = s0.spine := by
  unfold balanceDefineBody
  with_reducible repeat' first
    | assumption
    | rfl
    | (extract_lets +onlyGivenNames y
       refine (show (y.spine = s0.spine → _) from fun h => ?_) ?_
       on_goal 1 => clear_value y
       on_goal 2 => (simp only [y]; try clear y))
    | (extract_lets +onlyGivenNames y
       refine (show (y.1.spine = s0.spine → _) from fun h => ?_) ?_
       on_goal 1 => clear_value y
       on_goal 2 => (simp only [y]; try clear y))
    | (extract_lets +onlyGivenNames y; clear_value y)
    | (refine fixedBody_spine ?_; intro _ _ s0)
    | refine ite_spine ?_ ?_
    | refine ite_fst ?_ ?_
    | (simp only [*, fixedBody_spine, spine_mk, spine_eta]; done)
    | (split <;> (try (rename_i q; obtain ⟨q1, q2⟩ := Prod.ext_iff.mp q; simp only at q1 q2; subst q1 q2)))
    | (simp [*]; done)
    | simp only [*, fixedBody_spine, spine_mk, spine_eta]

@[simp] theorem execBalanceDefine_spine {x1 s0} : outSpine s0 (execBalanceDefine x1 s0) = s0.spine := by
  unfold execBalanceDefine
  with_reducible repeat' first
    | assumption
    | rfl
    | rw [outSpine_next]
    | (refine shedBody_spine ?_; intro _ _ s0)
    | (simp only [*, command_spine, shedBody_spine, balanceDefineBody_spine, spine_mk, spine_eta, outSpine_next]; done)
    | (split <;> (try (rename_i q; obtain ⟨q1, q2⟩ := Prod.ext_iff.mp q; simp only at q1 q2; subst q1 q2)))
    | (simp [*]; done)
    | simp only [*, command_spine, shedBody_spine, balanceDefineBody_spine, spine_mk, spine_eta, outSpine_next]

@[simp] theorem mpSnapOf_spine {s0 x1 x2} : (State.mpSnapOf s0 x1 x2).2.spine = s0.spine := by
  unfold State.mpSnapOf
  with_reducible repeat' first
    | assumption
    | rfl
    | (extract_lets +onlyGivenNames y; clear_value y)
    | (simp only [*, drawBytes_spine, spine_mk, spine_eta]; done)
    | (split <;> (try (rename_i q; obtain ⟨q1, q2⟩ := Prod.ext_iff.mp q; simp only at q1 q2; subst q1 q2)))
    | (simp [*]; done)
    | simp only [*, drawBytes_spine, spine_mk, spine_eta]

@[simp] theorem technicalLoss_spine {s0 x1 x2 x3} : (State.technicalLoss s0 x1 x2 x3).2.spine = s0.spine := by
  unfold State.technicalLoss
  with_reducible repeat' first
    | assumption
    | rfl
    | (extract_lets +onlyGivenNames y
       refine (show (y.spine = s0.spine → _) from fun h => ?_) ?_
       on_goal 1 => clear_value y
       on_goal 2 => (simp only [y]; try clear y))
    | (extract_lets +onlyGivenNames y
       refine (show (y.2.spine = s0.spine → _) from fun h => ?_) ?_
       on_goal 1 => clear_value y
       on_goal 2 => (simp only [y]; try clear y))
    | (extract_lets +onlyGivenNames y; clear_value y)
    | refine ite_spine ?_ ?_
    | refine ite_snd ?_ ?_
    | (simp only [*, drawInt_spine, spine_mk, spine_eta]; done)
    | (split <;> (try (rename_i q; obtain ⟨q1, q2⟩ := Prod.ext_iff.mp q; simp only at q1 q2; subst q1 q2)))
    | (simp [*]; done)
    | simp only [*, drawInt_spine, spine_mk, spine_eta]

@[simp] theorem balance_spine {s0 x1 x2 x3 x4} : (State.balance s0 x1 x2 x3 x4).2.spine = s0.spine := by
  unfold State.balance
  with_reducible repeat' first
    | assumption
    | rfl
    | (extract_lets +onlyGivenNames y
       refine (show (y.spine = s0.spine → _) from fun h => ?_) ?_
       on_goal 1 => clear_value y
       on_goal 2 => (simp only [y]; try clear y))
    | (extract_lets +onlyGivenNames y
       refine (show (y.2.spine = s0.spine → _) from fun h => ?_) ?_
       on_goal 1 => clear_value y
       on_goal 2 => (simp only [y]; try clear y))
    | (extract_lets +onlyGivenNames y; clear_value y)
    | (refine (foldl_spine ?_).trans ?_; on_goal 1 => intro s0 _)
    | refine ite_spine ?_ ?_
    | refine ite_snd ?_ ?_
    | (simp only [*, mpSnapOf_spine, technicalLoss_spine, pulse_spine, score_spine, spine_mk, spine_eta]; done)
    | (split <;> (try (rename_i q; obtain ⟨q1, q2⟩ := Prod.ext_iff.mp q; simp only at q1 q2; subst q1 q2)))
    | (simp [*]; done)
    | simp only [*, mpSnapOf_spine, technicalLoss_spine, pulse_spine, score_spine, spine_mk, spine_eta]

@[simp] theorem balances_spine {s0 x1 x2 x3 x4} : (State.balances s0 x1 x2 x3 x4).2.spine = s0.spine := by
  unfold State.balances
  refine (foldl_snd_spine (fun a e => ?_)).trans rfl
  split
  · exact balance_spine
  · rfl

@[simp] theorem balanceRunBody_spine {x1 x2 s0} : (balanceRunBody x1 x2 s0).1.spine = s0.spine := by
  unfold balanceRunBody
  with_reducible repeat' first
    | assumption
    | rfl
    | (extract_lets +onlyGivenNames y
       refine (show (y.spine = s0.spine → _) from fun h => ?_) ?_
       on_goal 1 => clear_value y
       on_goal 2 => (simp only [y]; try clear y))
    | (extract_lets +onlyGivenNames y
       refine (show (y.2.spine = s0.spine → _) from fun h => ?_) ?_
       on_goal 1 => clear_value y
       on_goal 2 => (simp only [y]; try clear y))
    | (extract_lets +onlyGivenNames y
       refine (show (y.1.spine = s0.spine → _) from fun h => ?_) ?_
       on_goal 1 => clear_value y
       on_goal 2 => (simp only [y]; try clear y))
    | (extract_lets +onlyGivenNames y; clear_value y)
    | (refine bulkOutBody_spine ?_; intro _ _ s0)
    | (simp only [*, bulkOutBody_spine, balances_spine, spine_mk, spine_eta]; done)
    | (split <;> (try (rename_i q; obtain ⟨q1, q2⟩ := Prod.ext_iff.mp q; simp only at q1 q2; subst q1 q2)))
    | (simp [*]; done)
    | simp only [*, bulkOutBody_spine, balances_spine, spine_mk, spine_eta]

@[simp] theorem execBalanceRun_spine {x1 s0} : outSpine s0 (execBalanceRun x1 s0) = s0.spine := by
  unfold execBalanceRun
  with_reducible repeat' first
    | assumption
    | rfl
    | rw [outSpine_next]
    | (refine shedBody_spine ?_; intro _ _ s0)
    | (simp only [*, command_spine, shedBody_spine, balanceRunBody_spine, spine_mk, spine_eta, outSpine_next]; done)
    | (split <;> (try (rename_i q; obtain ⟨q1, q2⟩ := Prod.ext_iff.mp q; simp only at q1 q2; subst q1 q2)))
    | (simp [*]; done)
    | simp only [*, command_spine, shedBody_spine, balanceRunBody_spine, spine_mk, spine_eta, outSpine_next]

@[simp] theorem execSnapshotClose_spine {x1 s0} : outSpine s0 (execSnapshotClose x1 s0) = s0.spine := by
  unfold execSnapshotClose
  with_reducible repeat' first
    | assumption
    | rfl
    | rw [outSpine_next]
    | (extract_lets +onlyGivenNames y
       refine (show (y.spine = s0.spine → _) from fun h => ?_) ?_
       on_goal 1 => clear_value y
       on_goal 2 => (simp only [y]; try clear y))
    | (extract_lets +onlyGivenNames y
       refine (show (y.2.spine = s0.spine → _) from fun h => ?_) ?_
       on_goal 1 => clear_value y
       on_goal 2 => (simp only [y]; try clear y))
    | (extract_lets +onlyGivenNames y; clear_value y)
    | refine ite_spine ?_ ?_
    | refine ite_out ?_ ?_
    | (simp only [*, modSnap_spine, pulse_spine, balances_spine, spine_mk, spine_eta, outSpine_next]; done)
    | (split <;> (try (rename_i q; obtain ⟨q1, q2⟩ := Prod.ext_iff.mp q; simp only at q1 q2; subst q1 q2)))
    | (simp [*]; done)
    | simp only [*, modSnap_spine, pulse_spine, balances_spine, spine_mk, spine_eta, outSpine_next]

@[simp] theorem snapshotReadBody_spine {x1 x2 s0} : (snapshotReadBody x1 x2 s0).1.spine = s0.spine := by
  unfold snapshotReadBody
  with_reducible repeat' first
    | assumption
    | rfl
    | (extract_lets +onlyGivenNames y
       refine (show (y.spine = s0.spine → _) from fun h => ?_) ?_
       on_goal 1 => clear_value y
       on_goal 2 => (simp only [y]; try clear y))
    | (extract_lets +onlyGivenNames y
       refine (show (y.1.spine = s0.spine → _) from fun h => ?_) ?_
       on_goal 1 => clear_value y
       on_goal 2 => (simp only [y]; try clear y))
    | (extract_lets +onlyGivenNames y; clear_value y)
    | (refine (foldl_spine ?_).trans ?_; on_goal 1 => intro s0 _)
    | (refine bulkOutBody_spine ?_; intro _ _ s0)
    | (simp only [*, bulkOutBody_spine, spine_mk, spine_eta]; done)
    | (split <;> (try (rename_i q; obtain ⟨q1, q2⟩ := Prod.ext_iff.mp q; simp only at q1 q2; subst q1 q2)))
    | (simp [*]; done)
    | simp only [*, bulkOutBody_spine, spine_mk, spine_eta]

@[simp] theorem execSnapshotRead_spine {x1 s0} : outSpine s0 (execSnapshotRead x1 s0) = s0.spine := by
  unfold execSnapshotRead
  with_reducible repeat' first
    | assumption
    | rfl
    | rw [outSpine_next]
    | (refine shedBody_spine ?_; intro _ _ s0)
    | (simp only [*, command_spine, shedBody_spine, snapshotReadBody_spine, spine_mk, spine_eta, outSpine_next]; done)
    | (split <;> (try (rename_i q; obtain ⟨q1, q2⟩ := Prod.ext_iff.mp q; simp only at q1 q2; subst q1 q2)))
    | (simp [*]; done)
    | simp only [*, command_spine, shedBody_spine, snapshotReadBody_spine, spine_mk, spine_eta, outSpine_next]

@[simp] theorem execScoreDecay_spine {s0} : outSpine s0 (execScoreDecay s0) = s0.spine := by
  unfold execScoreDecay
  with_reducible repeat' first
    | assumption
    | rfl
    | rw [outSpine_next]
    | (extract_lets +onlyGivenNames y
       refine (show (y.spine = s0.spine → _) from fun h => ?_) ?_
       on_goal 1 => clear_value y
       on_goal 2 => (simp only [y]; try clear y))
    | (extract_lets +onlyGivenNames y
       have hk : Kiln.ph y = Kiln.ph (State.kiln _) := rfl
       clear_value y)
    | (extract_lets +onlyGivenNames y; clear_value y)
    | refine ite_spine ?_ ?_
    | refine ite_out ?_ ?_
    | (simp only [*, spine_mk, spine_eta, outSpine_next]; done)
    | split
    | (simp [*]; done)
    | simp only [*, spine_mk, spine_eta, outSpine_next]

@[simp] theorem enterTarget_spine {s0 x1 x2 x3} : (State.enterTarget s0 x1 x2 x3).2.spine = s0.spine := by
  unfold State.enterTarget
  with_reducible repeat' first
    | assumption
    | rfl
    | (extract_lets +onlyGivenNames y; clear_value y)
    | refine ite_spine ?_ ?_
    | refine ite_snd ?_ ?_
    | (simp only [*, modRec__spine, spine_mk, spine_eta]; done)
    | split
    | (simp [*]; done)
    | simp only [*, modRec__spine, spine_mk, spine_eta]

@[simp] theorem createJob_spine {s0 x1 x2 x3 x4} : (State.createJob s0 x1 x2 x3 x4).spine = s0.spine := by
  unfold State.createJob
  extract_lets id kind r j _ _ a
  have hr : r.2.spine = s0.spine := by
    simp only [r]
    refine (foldl_snd_spine (fun a e => ?_)).trans rfl
    exact enterTarget_spine
  have ha : a.spine = s0.spine := hr
  simp only [jobEnd_spine, sendJobs_spine, ha]

@[simp] theorem pushData_spine {x1 x2 x3 x4 s0} : (pushData x1 x2 x3 x4 s0).1.spine = s0.spine := by
  unfold pushData
  with_reducible repeat' first
    | assumption
    | rfl
    | (extract_lets +onlyGivenNames y
       refine (show (y.spine = s0.spine → _) from fun h => ?_) ?_
       on_goal 1 => clear_value y
       on_goal 2 => (simp only [y]; try clear y))
    | (extract_lets +onlyGivenNames y; clear_value y)
    | refine ite_spine ?_ ?_
    | refine ite_fst ?_ ?_
    | (simp only [*, writeImage_spine, createJob_spine, spine_mk, spine_eta]; done)
    | split
    | (simp [*]; done)
    | simp only [*, writeImage_spine, createJob_spine, spine_mk, spine_eta]

@[simp] theorem pushBody_spine {x1 x2 x3 s0} : (pushBody x1 x2 x3 s0).1.spine = s0.spine := by
  unfold pushBody
  with_reducible repeat' first
    | assumption
    | rfl
    | (refine bulkInBody_spine ?_; intro _ _ _ s0)
    | (simp only [*, bulkInBody_spine, pushData_spine, spine_mk, spine_eta]; done)
    | (split <;> (try (rename_i q; obtain ⟨q1, q2⟩ := Prod.ext_iff.mp q; simp only at q1 q2; subst q1 q2)))
    | (simp [*]; done)
    | simp only [*, bulkInBody_spine, pushData_spine, spine_mk, spine_eta]

@[simp] theorem execPushTariff_spine {x1 s0} : outSpine s0 (execPushTariff x1 s0) = s0.spine := by
  unfold execPushTariff
  with_reducible repeat' first
    | assumption
    | rfl
    | rw [outSpine_next]
    | (refine shedBody_spine ?_; intro _ _ s0)
    | (simp only [*, command_spine, shedBody_spine, pushBody_spine, spine_mk, spine_eta, outSpine_next]; done)
    | (split <;> (try (rename_i q; obtain ⟨q1, q2⟩ := Prod.ext_iff.mp q; simp only at q1 q2; subst q1 q2)))
    | (simp [*]; done)
    | simp only [*, command_spine, shedBody_spine, pushBody_spine, spine_mk, spine_eta, outSpine_next]

@[simp] theorem execPushImage_spine {x1 s0} : outSpine s0 (execPushImage x1 s0) = s0.spine := by
  unfold execPushImage
  with_reducible repeat' first
    | assumption
    | rfl
    | rw [outSpine_next]
    | (refine shedBody_spine ?_; intro _ _ s0)
    | (simp only [*, command_spine, shedBody_spine, pushBody_spine, spine_mk, spine_eta, outSpine_next]; done)
    | (split <;> (try (rename_i q; obtain ⟨q1, q2⟩ := Prod.ext_iff.mp q; simp only at q1 q2; subst q1 q2)))
    | (simp [*]; done)
    | simp only [*, command_spine, shedBody_spine, pushBody_spine, spine_mk, spine_eta, outSpine_next]

@[simp] theorem execPushKey_spine {x1 s0} : outSpine s0 (execPushKey x1 s0) = s0.spine := by
  unfold execPushKey
  with_reducible repeat' first
    | assumption
    | rfl
    | rw [outSpine_next]
    | (refine shedBody_spine ?_; intro _ _ s0)
    | (simp only [*, command_spine, shedBody_spine, pushBody_spine, spine_mk, spine_eta, outSpine_next]; done)
    | (split <;> (try (rename_i q; obtain ⟨q1, q2⟩ := Prod.ext_iff.mp q; simp only at q1 q2; subst q1 q2)))
    | (simp [*]; done)
    | simp only [*, command_spine, shedBody_spine, pushBody_spine, spine_mk, spine_eta, outSpine_next]

@[simp] theorem pushStatusInner_spine {x1 x2 s0} : (pushStatusInner x1 x2 s0).1.spine = s0.spine := by
  unfold pushStatusInner
  with_reducible repeat' first
    | assumption
    | rfl
    | (extract_lets +onlyGivenNames y
       refine (show (y.spine = s0.spine → _) from fun h => ?_) ?_
       on_goal 1 => clear_value y
       on_goal 2 => (simp only [y]; try clear y))
    | (extract_lets +onlyGivenNames y; clear_value y)
    | (simp only [*, spine_mk, spine_eta]; done)
    | split
    | (simp [*]; done)
    | simp only [*, spine_mk, spine_eta]

@[simp] theorem pushStatusBody_spine {x1 x2 s0} : (pushStatusBody x1 x2 s0).1.spine = s0.spine := by
  unfold pushStatusBody
  with_reducible repeat' first
    | assumption
    | rfl
    | (refine fixedBody_spine ?_; intro _ _ s0)
    | (refine bulkOutBody_spine ?_; intro _ _ s0)
    | refine ite_spine ?_ ?_
    | refine ite_fst ?_ ?_
    | (simp only [*, fixedBody_spine, pushStatusInner_spine, bulkOutBody_spine, spine_mk, spine_eta]; done)
    | (split <;> (try (rename_i q; obtain ⟨q1, q2⟩ := Prod.ext_iff.mp q; simp only at q1 q2; subst q1 q2)))
    | (simp [*]; done)
    | simp only [*, fixedBody_spine, pushStatusInner_spine, bulkOutBody_spine, spine_mk, spine_eta]

@[simp] theorem execPushStatus_spine {x1 s0} : outSpine s0 (execPushStatus x1 s0) = s0.spine := by
  unfold execPushStatus
  with_reducible repeat' first
    | assumption
    | rfl
    | rw [outSpine_next]
    | (refine shedBody_spine ?_; intro _ _ s0)
    | (simp only [*, command_spine, shedBody_spine, pushStatusBody_spine, spine_mk, spine_eta, outSpine_next]; done)
    | (split <;> (try (rename_i q; obtain ⟨q1, q2⟩ := Prod.ext_iff.mp q; simp only at q1 q2; subst q1 q2)))
    | (simp [*]; done)
    | simp only [*, command_spine, shedBody_spine, pushStatusBody_spine, spine_mk, spine_eta, outSpine_next]

@[simp] theorem pushCancelBody_spine {x1 x2 s0} : (pushCancelBody x1 x2 s0).1.spine = s0.spine := by
  unfold pushCancelBody
  with_reducible repeat' first
    | assumption
    | rfl
    | (extract_lets +onlyGivenNames y; clear_value y)
    | (refine (foldl_spine ?_).trans ?_; on_goal 1 => intro s0 _)
    | (refine fixedBody_spine ?_; intro _ _ s0)
    | refine ite_spine ?_ ?_
    | refine ite_fst ?_ ?_
    | (simp only [*, fixedBody_spine, jobTarget_spine, spine_mk, spine_eta]; done)
    | (split <;> (try (rename_i q; obtain ⟨q1, q2⟩ := Prod.ext_iff.mp q; simp only at q1 q2; subst q1 q2)))
    | (simp [*]; done)
    | simp only [*, fixedBody_spine, jobTarget_spine, spine_mk, spine_eta]

@[simp] theorem execPushCancel_spine {x1 s0} : outSpine s0 (execPushCancel x1 s0) = s0.spine := by
  unfold execPushCancel
  with_reducible repeat' first
    | assumption
    | rfl
    | rw [outSpine_next]
    | (refine shedBody_spine ?_; intro _ _ s0)
    | (simp only [*, command_spine, shedBody_spine, pushCancelBody_spine, spine_mk, spine_eta, outSpine_next]; done)
    | (split <;> (try (rename_i q; obtain ⟨q1, q2⟩ := Prod.ext_iff.mp q; simp only at q1 q2; subst q1 q2)))
    | (simp [*]; done)
    | simp only [*, command_spine, shedBody_spine, pushCancelBody_spine, spine_mk, spine_eta, outSpine_next]

@[simp] theorem execPushExpiry_spine {x1 s0} : outSpine s0 (execPushExpiry x1 s0) = s0.spine := by
  unfold execPushExpiry
  with_reducible repeat' first
    | assumption
    | rfl
    | rw [outSpine_next]
    | (extract_lets +onlyGivenNames y; clear_value y)
    | (refine (foldl_spine ?_).trans ?_; on_goal 1 => intro s0 _)
    | refine ite_spine ?_ ?_
    | refine ite_out ?_ ?_
    | (simp only [*, jobTarget_spine, spine_mk, spine_eta, outSpine_next]; done)
    | split
    | (simp [*]; done)
    | simp only [*, jobTarget_spine, spine_mk, spine_eta, outSpine_next]

@[simp] theorem execPushActivateDue_spine {x1 s0} : outSpine s0 (execPushActivateDue x1 s0) = s0.spine := by
  unfold execPushActivateDue
  with_reducible repeat' first
    | assumption
    | rfl
    | rw [outSpine_next]
    | (extract_lets +onlyGivenNames y
       refine (show (y.spine = s0.spine → _) from fun h => ?_) ?_
       on_goal 1 => clear_value y
       on_goal 2 => (simp only [y]; try clear y))
    | (extract_lets +onlyGivenNames y; clear_value y)
    | refine ite_spine ?_ ?_
    | refine ite_out ?_ ?_
    | (simp only [*, modLeafJob_spine, newNetworkKey_spine, spine_mk, spine_eta, outSpine_next]; done)
    | split
    | (simp [*]; done)
    | simp only [*, modLeafJob_spine, newNetworkKey_spine, spine_mk, spine_eta, outSpine_next]

@[simp] theorem laneLevels_spine {s0 x1} : (State.laneLevels s0 x1).spine = s0.spine := by
  unfold State.laneLevels
  simp only [level_spine, spine_mk, spine_eta]

@[simp] theorem errLevel_spine {s0 x1} : (State.errLevel s0 x1).spine = s0.spine := by
  unfold State.errLevel
  simp only [level_spine, modLane_spine, spine_mk, spine_eta]

@[simp] theorem execLaneTrainAttempt_spine {x1 s0} : outSpine s0 (execLaneTrainAttempt x1 s0) = s0.spine := by
  unfold execLaneTrainAttempt
  with_reducible repeat' first
    | assumption
    | rfl
    | rw [outSpine_next]
    | (extract_lets +onlyGivenNames y; clear_value y)
    | refine ite_spine ?_ ?_
    | refine ite_out ?_ ?_
    | (simp only [*, laneLevels_spine, modLane_spine, spine_mk, spine_eta, outSpine_next]; done)
    | split
    | (simp [*]; done)
    | simp only [*, laneLevels_spine, modLane_spine, spine_mk, spine_eta, outSpine_next]

@[simp] theorem execLaneTrained_spine {x1 x2 x3 s0} : outSpine s0 (execLaneTrained x1 x2 x3 s0) = s0.spine := by
  unfold execLaneTrained
  with_reducible repeat' first
    | assumption
    | rfl
    | rw [outSpine_next]
    | (extract_lets +onlyGivenNames y
       refine (show (y.spine = s0.spine → _) from fun h => ?_) ?_
       on_goal 1 => clear_value y
       on_goal 2 => (simp only [y]; try clear y))
    | (extract_lets +onlyGivenNames y; clear_value y)
    | refine ite_spine ?_ ?_
    | refine ite_out ?_ ?_
    | (simp only [*, modLane_spine, pulse_spine, spine_mk, spine_eta, outSpine_next]; done)
    | split
    | (simp [*]; done)
    | simp only [*, modLane_spine, pulse_spine, spine_mk, spine_eta, outSpine_next]

@[simp] theorem setEpoch_spine {s0 x1} : (State.setEpoch s0 x1).spine = s0.spine := by
  unfold State.setEpoch
  with_reducible repeat' first
    | assumption
    | rfl
    | (extract_lets +onlyGivenNames y; clear_value y)
    | refine ite_spine ?_ ?_
    | (simp only [*, pulse_spine, spine_mk, spine_eta]; done)
    | split
    | (simp [*]; done)
    | simp only [*, pulse_spine, spine_mk, spine_eta]

@[simp] theorem incEpoch_spine {s0} : (State.incEpoch s0).spine = s0.spine := by
  unfold State.incEpoch
  simp only [setEpoch_spine, spine_mk, spine_eta]

@[simp] theorem startJoin_spine {s0} : (State.startJoin s0).spine = s0.spine := by
  unfold State.startJoin
  with_reducible repeat' first
    | assumption
    | rfl
    | (extract_lets +onlyGivenNames y
       refine (show (y.spine = s0.spine → _) from fun h => ?_) ?_
       on_goal 1 => clear_value y
       on_goal 2 => (simp only [y]; try clear y))
    | (extract_lets +onlyGivenNames y
       refine (show (y.2.spine = s0.spine → _) from fun h => ?_) ?_
       on_goal 1 => clear_value y
       on_goal 2 => (simp only [y]; try clear y))
    | (extract_lets +onlyGivenNames y; clear_value y)
    | refine ite_spine ?_ ?_
    | (simp only [*, drawBytes_spine, laneSend_spine, spine_mk, spine_eta]; done)
    | (split <;> (try (rename_i q; obtain ⟨q1, q2⟩ := Prod.ext_iff.mp q; simp only at q1 q2; subst q1 q2)))
    | (simp [*]; done)
    | simp only [*, drawBytes_spine, laneSend_spine, spine_mk, spine_eta]

@[simp] theorem sendReturn_spine {s0 x1 x2 x3 x4} : (State.sendReturn s0 x1 x2 x3 x4).spine = s0.spine := by
  unfold State.sendReturn
  with_reducible repeat' first
    | assumption
    | rfl
    | (extract_lets +onlyGivenNames y
       refine (show (y.spine = s0.spine → _) from fun h => ?_) ?_
       on_goal 1 => clear_value y
       on_goal 2 => (simp only [y]; try clear y))
    | (extract_lets +onlyGivenNames y; clear_value y)
    | (simp only [*, pulse_spine, laneSend_spine, spine_mk, spine_eta]; done)
    | split
    | (simp [*]; done)
    | simp only [*, pulse_spine, laneSend_spine, spine_mk, spine_eta]

@[simp] theorem forwardPallet_spine {s0 x1 x2 x3} : (State.forwardPallet s0 x1 x2 x3).spine = s0.spine := by
  unfold State.forwardPallet
  with_reducible repeat' first
    | assumption
    | rfl
    | (extract_lets +onlyGivenNames y
       refine (show (y.spine = s0.spine → _) from fun h => ?_) ?_
       on_goal 1 => clear_value y
       on_goal 2 => (simp only [y]; try clear y))
    | (extract_lets +onlyGivenNames y; clear_value y)
    | (refine (foldl_spine ?_).trans ?_; on_goal 1 => intro s0 _)
    | refine ite_spine ?_ ?_
    | (simp only [*, laneSend_spine, sendReturn_spine, spine_mk, spine_eta]; done)
    | split
    | (simp [*]; done)
    | simp only [*, laneSend_spine, sendReturn_spine, spine_mk, spine_eta]

@[simp] theorem releaseHeld_spine {s0} : (State.releaseHeld s0).spine = s0.spine := by
  unfold State.releaseHeld
  with_reducible repeat' first
    | assumption
    | rfl
    | (extract_lets +onlyGivenNames y
       refine (show (y.spine = s0.spine → _) from fun h => ?_) ?_
       on_goal 1 => clear_value y
       on_goal 2 => (simp only [y]; try clear y))
    | (extract_lets +onlyGivenNames y; clear_value y)
    | (refine (foldl_spine ?_).trans ?_; on_goal 1 => intro s0 _)
    | (simp only [*, forwardPallet_spine, spine_mk, spine_eta]; done)
    | split
    | (simp [*]; done)
    | simp only [*, forwardPallet_spine, spine_mk, spine_eta]

@[simp] theorem adopt_spine {s0 x1 x2 x3} : (State.adopt s0 x1 x2 x3).spine = s0.spine := by
  unfold State.adopt
  with_reducible repeat' first
    | assumption
    | rfl
    | (extract_lets +onlyGivenNames y
       refine (show (y.spine = s0.spine → _) from fun h => ?_) ?_
       on_goal 1 => clear_value y
       on_goal 2 => (simp only [y]; try clear y))
    | (extract_lets +onlyGivenNames y
       have hk : Kiln.ph y = Kiln.ph (State.kiln _) := rfl
       clear_value y)
    | (extract_lets +onlyGivenNames y; clear_value y)
    | refine ite_spine ?_ ?_
    | (simp only [*, setEpoch_spine, releaseHeld_spine, resend_spine, spine_mk, spine_eta]; done)
    | split
    | (simp [*]; done)
    | simp only [*, setEpoch_spine, releaseHeld_spine, resend_spine, spine_mk, spine_eta]

@[simp] theorem chooseUp_spine {s0} : (State.chooseUp s0).spine = s0.spine := by
  unfold State.chooseUp
  with_reducible repeat' first
    | assumption
    | rfl
    | (extract_lets +onlyGivenNames y
       refine (show (y.spine = s0.spine → _) from fun h => ?_) ?_
       on_goal 1 => clear_value y
       on_goal 2 => (simp only [y]; try clear y))
    | (extract_lets +onlyGivenNames y
       have hk : Kiln.ph y = Kiln.ph (State.kiln _) := rfl
       clear_value y)
    | (extract_lets +onlyGivenNames y; clear_value y)
    | refine ite_spine ?_ ?_
    | (simp only [*, level_spine, pulse_spine, adopt_spine, startJoin_spine, spine_mk, spine_eta]; done)
    | split
    | (simp [*]; done)
    | simp only [*, level_spine, pulse_spine, adopt_spine, startJoin_spine, spine_mk, spine_eta]

@[simp] theorem dropHandover_spine {s0} : (State.dropHandover s0).spine = s0.spine := by
  unfold State.dropHandover
  with_reducible repeat' first
    | assumption
    | rfl
    | (extract_lets +onlyGivenNames y
       refine (show (y.spine = s0.spine → _) from fun h => ?_) ?_
       on_goal 1 => clear_value y
       on_goal 2 => (simp only [y]; try clear y))
    | (extract_lets +onlyGivenNames y; clear_value y)
    | refine ite_spine ?_ ?_
    | (simp only [*, finishHeld_spine, spine_mk, spine_eta]; done)
    | split
    | (simp [*]; done)
    | simp only [*, finishHeld_spine, spine_mk, spine_eta]

@[simp] theorem standbyCheck_spine {s0} : (State.standbyCheck s0).spine = s0.spine := by
  unfold State.standbyCheck
  with_reducible repeat' first
    | assumption
    | rfl
    | (extract_lets +onlyGivenNames y
       refine (show (y.spine = s0.spine → _) from fun h => ?_) ?_
       on_goal 1 => clear_value y
       on_goal 2 => (simp only [y]; try clear y))
    | (extract_lets +onlyGivenNames y
       have hk : Kiln.ph y = Kiln.ph (State.kiln _) := rfl
       clear_value y)
    | (extract_lets +onlyGivenNames y; clear_value y)
    | refine ite_spine ?_ ?_
    | (simp only [*, mirrorLevel_spine, mirrorRelease_spine, dropHandover_spine, spine_mk, spine_eta]; done)
    | split
    | (simp [*]; done)
    | simp only [*, mirrorLevel_spine, mirrorRelease_spine, dropHandover_spine, spine_mk, spine_eta]

@[simp] theorem laneDown_spine {s0 x1} : (State.laneDown s0 x1).spine = s0.spine := by
  unfold State.laneDown
  simp only [standbyCheck_spine, chooseUp_spine, laneLevels_spine, setReady_spine, modLane_spine, spine_mk, spine_eta]

@[simp] theorem execLaneLoss_spine {x1 x2 x3 s0} : outSpine s0 (execLaneLoss x1 x2 x3 s0) = s0.spine := by
  unfold execLaneLoss
  with_reducible repeat' first
    | assumption
    | rfl
    | rw [outSpine_next]
    | refine ite_spine ?_ ?_
    | refine ite_out ?_ ?_
    | (simp only [*, laneDown_spine, spine_mk, spine_eta, outSpine_next]; done)
    | split
    | (simp [*]; done)
    | simp only [*, laneDown_spine, spine_mk, spine_eta, outSpine_next]

@[simp] theorem execHelloTimeout_spine {x1 x2 s0} : outSpine s0 (execHelloTimeout x1 x2 s0) = s0.spine := by
  unfold execHelloTimeout
  with_reducible repeat' first
    | assumption
    | rfl
    | rw [outSpine_next]
    | refine ite_spine ?_ ?_
    | refine ite_out ?_ ?_
    | (simp only [*, laneDown_spine, spine_mk, spine_eta, outSpine_next]; done)
    | split
    | (simp [*]; done)
    | simp only [*, laneDown_spine, spine_mk, spine_eta, outSpine_next]

@[simp] theorem laneStop_spine {s0 x1} : (State.laneStop s0 x1).spine = s0.spine := by
  unfold State.laneStop
  simp only [modLane_spine, laneDown_spine, spine_mk, spine_eta]

@[simp] theorem execLaneFrameCrcFail_spine {x1 s0} : outSpine s0 (execLaneFrameCrcFail x1 s0) = s0.spine := by
  unfold execLaneFrameCrcFail
  with_reducible repeat' first
    | assumption
    | rfl
    | rw [outSpine_next]
    | (extract_lets +onlyGivenNames y; clear_value y)
    | refine ite_spine ?_ ?_
    | refine ite_out ?_ ?_
    | (simp only [*, errLevel_spine, modLane_spine, spine_mk, spine_eta, outSpine_next]; done)
    | split
    | (simp [*]; done)
    | simp only [*, errLevel_spine, modLane_spine, spine_mk, spine_eta, outSpine_next]

@[simp] theorem execHelloSend_spine {s0} : outSpine s0 (execHelloSend s0) = s0.spine := by
  unfold execHelloSend
  with_reducible repeat' first
    | assumption
    | rfl
    | rw [outSpine_next]
    | (refine (foldl_spine ?_).trans ?_; on_goal 1 => intro s0 _)
    | (simp only [*, laneSend_spine, spine_mk, spine_eta, outSpine_next]; done)
    | split
    | (simp [*]; done)
    | simp only [*, laneSend_spine, spine_mk, spine_eta, outSpine_next]

@[simp] theorem modDev_spine {s0 x1 x2} : (State.modDev s0 x1 x2).spine = s0.spine := by
  unfold State.modDev
  simp only [spine_mk, spine_eta]

@[simp] theorem helloTable_spine {s0 x1} : (State.helloTable s0 x1).spine = s0.spine := by
  unfold State.helloTable
  with_reducible repeat' first
    | assumption
    | rfl
    | (extract_lets +onlyGivenNames y
       refine (show (y.spine = s0.spine → _) from fun h => ?_) ?_
       on_goal 1 => clear_value y
       on_goal 2 => (simp only [y]; try clear y))
    | (extract_lets +onlyGivenNames y; clear_value y)
    | refine ite_spine ?_ ?_
    | (simp only [*, incEpoch_spine, modDev_spine, spine_mk, spine_eta]; done)
    | split
    | (simp [*]; done)
    | simp only [*, incEpoch_spine, modDev_spine, spine_mk, spine_eta]

@[simp] theorem joinSeen_spine {s0 x1 x2} : (State.joinSeen s0 x1 x2).spine = s0.spine := by
  unfold State.joinSeen
  with_reducible repeat' first
    | assumption
    | rfl
    | (extract_lets +onlyGivenNames y; clear_value y)
    | refine ite_spine ?_ ?_
    | (simp only [*, resend_spine, spine_mk, spine_eta]; done)
    | split
    | (simp [*]; done)
    | simp only [*, resend_spine, spine_mk, spine_eta]

@[simp] theorem execHelloReceive_spine {x1 x2 s0} : outSpine s0 (execHelloReceive x1 x2 s0) = s0.spine := by
  unfold execHelloReceive
  with_reducible repeat' first
    | assumption
    | rfl
    | rw [outSpine_next]
    | (extract_lets +onlyGivenNames y
       refine (show (y.spine = s0.spine → _) from fun h => ?_) ?_
       on_goal 1 => clear_value y
       on_goal 2 => (simp only [y]; try clear y))
    | (extract_lets +onlyGivenNames y
       have hk : Kiln.ph y = Kiln.ph (State.kiln _) := rfl
       clear_value y)
    | (extract_lets +onlyGivenNames y; clear_value y)
    | refine ite_spine ?_ ?_
    | refine ite_out ?_ ?_
    | (simp only [*, modLane_spine, laneLevels_spine, setReady_spine, errLevel_spine, level_spine, fenceRoot_spine, helloTable_spine, chooseUp_spine, adopt_spine, standbyCheck_spine, joinSeen_spine, spine_mk, spine_eta, outSpine_next]; done)
    | split
    | (simp [*]; done)
    | simp only [*, modLane_spine, laneLevels_spine, setReady_spine, errLevel_spine, level_spine, fenceRoot_spine, helloTable_spine, chooseUp_spine, adopt_spine, standbyCheck_spine, joinSeen_spine, spine_mk, spine_eta, outSpine_next]

@[simp] theorem execTimeReqSend_spine {x1 s0} : outSpine s0 (execTimeReqSend x1 s0) = s0.spine := by
  unfold execTimeReqSend
  with_reducible repeat' first
    | assumption
    | rfl
    | rw [outSpine_next]
    | (extract_lets +onlyGivenNames y
       refine (show (y.spine = s0.spine → _) from fun h => ?_) ?_
       on_goal 1 => clear_value y
       on_goal 2 => (simp only [y]; try clear y))
    | (extract_lets +onlyGivenNames y; clear_value y)
    | refine ite_spine ?_ ?_
    | refine ite_out ?_ ?_
    | (simp only [*, laneSend_spine, modLane_spine, spine_mk, spine_eta, outSpine_next]; done)
    | split
    | (simp [*]; done)
    | simp only [*, laneSend_spine, modLane_spine, spine_mk, spine_eta, outSpine_next]

@[simp] theorem execTimeReqReceive_spine {x1 x2 x3 x4 s0} : outSpine s0 (execTimeReqReceive x1 x2 x3 x4 s0) = s0.spine := by
  unfold execTimeReqReceive
  with_reducible repeat' first
    | assumption
    | rfl
    | rw [outSpine_next]
    | refine ite_spine ?_ ?_
    | refine ite_out ?_ ?_
    | (simp only [*, laneSend_spine, spine_mk, spine_eta, outSpine_next]; done)
    | split
    | (simp [*]; done)
    | simp only [*, laneSend_spine, spine_mk, spine_eta, outSpine_next]

@[simp] theorem execTimeRespReceive_spine {x1 x2 x3 x4 x5 s0} : outSpine s0 (execTimeRespReceive x1 x2 x3 x4 x5 s0) = s0.spine := by
  unfold execTimeRespReceive
  with_reducible repeat' first
    | assumption
    | rfl
    | rw [outSpine_next]
    | (extract_lets +onlyGivenNames y
       refine (show (y.spine = s0.spine → _) from fun h => ?_) ?_
       on_goal 1 => clear_value y
       on_goal 2 => (simp only [y]; try clear y))
    | (extract_lets +onlyGivenNames y
       have hk : Kiln.ph y = Kiln.ph (State.kiln _) := rfl
       clear_value y)
    | (extract_lets +onlyGivenNames y; clear_value y)
    | refine ite_spine ?_ ?_
    | refine ite_out ?_ ?_
    | (simp only [*, modLane_spine, pulse_spine, mortarExchange_spine, spine_mk, spine_eta, outSpine_next]; done)
    | split
    | (simp [*]; done)
    | simp only [*, modLane_spine, pulse_spine, mortarExchange_spine, spine_mk, spine_eta, outSpine_next]

@[simp] theorem replyHome_spine {s0 x1 x2} : (State.replyHome s0 x1 x2).spine = s0.spine := by
  unfold State.replyHome
  with_reducible repeat' first
    | assumption
    | rfl
    | (extract_lets +onlyGivenNames y; clear_value y)
    | refine ite_spine ?_ ?_
    | (simp only [*, send_spine, spine_mk, spine_eta]; done)
    | split
    | (simp [*]; done)
    | simp only [*, send_spine, spine_mk, spine_eta]

@[simp] theorem unitOnward_spine {s0 x1 x2 x3 x4 x5 x6 x7} : (State.unitOnward s0 x1 x2 x3 x4 x5 x6 x7).spine = s0.spine := by
  unfold State.unitOnward
  with_reducible repeat' first
    | assumption
    | rfl
    | (extract_lets +onlyGivenNames y
       refine (show (y.spine = s0.spine → _) from fun h => ?_) ?_
       on_goal 1 => clear_value y
       on_goal 2 => (simp only [y]; try clear y))
    | (extract_lets +onlyGivenNames y; clear_value y)
    | refine ite_spine ?_ ?_
    | (simp only [*, unitSend_spine, sendReturn_spine, answer_spine, spine_mk, spine_eta]; done)
    | split
    | (simp [*]; done)
    | simp only [*, unitSend_spine, sendReturn_spine, answer_spine, spine_mk, spine_eta]

@[simp] theorem commandUnit_spine {s0 x1 x2 x3 x4} : (State.commandUnit s0 x1 x2 x3 x4).spine = s0.spine := by
  unfold State.commandUnit
  with_reducible repeat' first
    | assumption
    | rfl
    | (extract_lets +onlyGivenNames y
       refine (show (y.spine = s0.spine → _) from fun h => ?_) ?_
       on_goal 1 => clear_value y
       on_goal 2 => (simp only [y]; try clear y))
    | (extract_lets +onlyGivenNames y
       have hk : Kiln.ph y = Kiln.ph (State.kiln _) := rfl
       clear_value y)
    | (extract_lets +onlyGivenNames y; clear_value y)
    | refine ite_spine ?_ ?_
    | (simp only [*, pulse_spine, unitOnward_spine, replyHome_spine, arriveQueue_spine, spine_mk, spine_eta]; done)
    | split
    | (simp [*]; done)
    | simp only [*, pulse_spine, unitOnward_spine, replyHome_spine, arriveQueue_spine, spine_mk, spine_eta]

@[simp] theorem execSegmentReceive_spine {x1 x2 s0} : outSpine s0 (execSegmentReceive x1 x2 s0) = s0.spine := by
  unfold execSegmentReceive
  with_reducible repeat' first
    | assumption
    | rfl
    | rw [outSpine_next]
    | (extract_lets +onlyGivenNames y
       refine (show (y.spine = s0.spine → _) from fun h => ?_) ?_
       on_goal 1 => clear_value y
       on_goal 2 => (simp only [y]; try clear y))
    | (extract_lets +onlyGivenNames y; clear_value y)
    | refine ite_spine ?_ ?_
    | refine ite_out ?_ ?_
    | (simp only [*, modLane_spine, commandUnit_spine, forwardPallet_spine, pulse_spine, spine_mk, spine_eta, outSpine_next]; done)
    | split
    | (simp [*]; done)
    | simp only [*, modLane_spine, commandUnit_spine, forwardPallet_spine, pulse_spine, spine_mk, spine_eta, outSpine_next]

@[simp] theorem execReturnReceive_spine {x1 x2 s0} : outSpine s0 (execReturnReceive x1 x2 s0) = s0.spine := by
  unfold execReturnReceive
  with_reducible repeat' first
    | assumption
    | rfl
    | rw [outSpine_next]
    | (extract_lets +onlyGivenNames y
       refine (show (y.spine = s0.spine → _) from fun h => ?_) ?_
       on_goal 1 => clear_value y
       on_goal 2 => (simp only [y]; try clear y))
    | (extract_lets +onlyGivenNames y
       have hk : Kiln.ph y = Kiln.ph (State.kiln _) := rfl
       clear_value y)
    | (extract_lets +onlyGivenNames y; clear_value y)
    | refine ite_spine ?_ ?_
    | refine ite_out ?_ ?_
    | (simp only [*, laneSend_spine, pulse_spine, answer_spine, resend_spine, spine_mk, spine_eta, outSpine_next]; done)
    | split
    | (simp [*]; done)
    | simp only [*, laneSend_spine, pulse_spine, answer_spine, resend_spine, spine_mk, spine_eta, outSpine_next]

@[simp] theorem execEpochHoldExpire_spine {s0} : outSpine s0 (execEpochHoldExpire s0) = s0.spine := by
  unfold execEpochHoldExpire
  with_reducible repeat' first
    | assumption
    | rfl
    | rw [outSpine_next]
    | (extract_lets +onlyGivenNames y
       refine (show (y.spine = s0.spine → _) from fun h => ?_) ?_
       on_goal 1 => clear_value y
       on_goal 2 => (simp only [y]; try clear y))
    | (extract_lets +onlyGivenNames y; clear_value y)
    | (refine (foldl_spine ?_).trans ?_; on_goal 1 => intro s0 _)
    | (simp only [*, sendReturn_spine, spine_mk, spine_eta, outSpine_next]; done)
    | split
    | (simp [*]; done)
    | simp only [*, sendReturn_spine, spine_mk, spine_eta, outSpine_next]

@[simp] theorem passUp_spine {s0 x1 x2} : (State.passUp s0 x1 x2).spine = s0.spine := by
  unfold State.passUp
  with_reducible repeat' first
    | assumption
    | rfl
    | (extract_lets +onlyGivenNames y; clear_value y)
    | (simp only [*, laneSend_spine, spine_mk, spine_eta]; done)
    | split
    | (simp [*]; done)
    | simp only [*, laneSend_spine, spine_mk, spine_eta]

@[simp] theorem execJoinReqReceive_spine {x1 x2 s0} : outSpine s0 (execJoinReqReceive x1 x2 s0) = s0.spine := by
  unfold execJoinReqReceive
  with_reducible repeat' first
    | assumption
    | rfl
    | rw [outSpine_next]
    | (extract_lets +onlyGivenNames y
       refine (show (y.spine = s0.spine → _) from fun h => ?_) ?_
       on_goal 1 => clear_value y
       on_goal 2 => (simp only [y]; try clear y))
    | (extract_lets +onlyGivenNames y
       refine (show (y.2.spine = s0.spine → _) from fun h => ?_) ?_
       on_goal 1 => clear_value y
       on_goal 2 => (simp only [y]; try clear y))
    | (extract_lets +onlyGivenNames y; clear_value y)
    | refine ite_spine ?_ ?_
    | refine ite_out ?_ ?_
    | (simp only [*, passUp_spine, pulse_spine, level_spine, drawBytes_spine, laneSend_spine, spine_mk, spine_eta, outSpine_next]; done)
    | (split <;> (try (rename_i q; obtain ⟨q1, q2⟩ := Prod.ext_iff.mp q; simp only at q1 q2; subst q1 q2)))
    | (simp [*]; done)
    | simp only [*, passUp_spine, pulse_spine, level_spine, drawBytes_spine, laneSend_spine, spine_mk, spine_eta, outSpine_next]

@[simp] theorem execJoinOfferReceive_spine {x1 x2 s0} : outSpine s0 (execJoinOfferReceive x1 x2 s0) = s0.spine := by
  unfold execJoinOfferReceive
  with_reducible repeat' first
    | assumption
    | rfl
    | rw [outSpine_next]
    | (extract_lets +onlyGivenNames y; clear_value y)
    | (refine (foldl_spine ?_).trans ?_; on_goal 1 => intro s0 _)
    | refine ite_spine ?_ ?_
    | refine ite_out ?_ ?_
    | (simp only [*, laneSend_spine, spine_mk, spine_eta, outSpine_next]; done)
    | split
    | (simp [*]; done)
    | simp only [*, laneSend_spine, spine_mk, spine_eta, outSpine_next]

@[simp] theorem execJoinConfirmReceive_spine {x1 x2 s0} : outSpine s0 (execJoinConfirmReceive x1 x2 s0) = s0.spine := by
  unfold execJoinConfirmReceive
  with_reducible repeat' first
    | assumption
    | rfl
    | rw [outSpine_next]
    | (extract_lets +onlyGivenNames y
       refine (show (y.spine = s0.spine → _) from fun h => ?_) ?_
       on_goal 1 => clear_value y
       on_goal 2 => (simp only [y]; try clear y))
    | (extract_lets +onlyGivenNames y; clear_value y)
    | refine ite_spine ?_ ?_
    | refine ite_out ?_ ?_
    | (simp only [*, passUp_spine, incEpoch_spine, modDev_spine, standbyCheck_spine, flushDown_spine, pulse_spine, spine_mk, spine_eta, outSpine_next]; done)
    | split
    | (simp [*]; done)
    | simp only [*, passUp_spine, incEpoch_spine, modDev_spine, standbyCheck_spine, flushDown_spine, pulse_spine, spine_mk, spine_eta, outSpine_next]

@[simp] theorem execJoinOfferLapse_spine {x1 s0} : outSpine s0 (execJoinOfferLapse x1 s0) = s0.spine := by
  unfold execJoinOfferLapse
  with_reducible repeat' first
    | assumption
    | rfl
    | rw [outSpine_next]
    | (extract_lets +onlyGivenNames y; clear_value y)
    | refine ite_spine ?_ ?_
    | refine ite_out ?_ ?_
    | (simp only [*, spine_mk, spine_eta, outSpine_next]; done)
    | split
    | (simp [*]; done)
    | simp only [*, spine_mk, spine_eta, outSpine_next]

@[simp] theorem execJoinRetry_spine {s0} : outSpine s0 (execJoinRetry s0) = s0.spine := by
  unfold execJoinRetry
  with_reducible repeat' first
    | assumption
    | rfl
    | rw [outSpine_next]
    | refine ite_spine ?_ ?_
    | refine ite_out ?_ ?_
    | (simp only [*, startJoin_spine, spine_mk, spine_eta, outSpine_next]; done)
    | split
    | (simp [*]; done)
    | simp only [*, startJoin_spine, spine_mk, spine_eta, outSpine_next]

@[simp] theorem execDuplicateIdAlarmEnd_spine {s0} : outSpine s0 (execDuplicateIdAlarmEnd s0) = s0.spine := by
  unfold execDuplicateIdAlarmEnd
  with_reducible repeat' first
    | assumption
    | rfl
    | rw [outSpine_next]
    | (extract_lets +onlyGivenNames y; clear_value y)
    | refine ite_spine ?_ ?_
    | refine ite_out ?_ ?_
    | (simp only [*, level_spine, spine_mk, spine_eta, outSpine_next]; done)
    | split
    | (simp [*]; done)
    | simp only [*, level_spine, spine_mk, spine_eta, outSpine_next]

@[simp] theorem execBelowSend_spine {s0} : outSpine s0 (execBelowSend s0) = s0.spine := by
  unfold execBelowSend
  with_reducible repeat' first
    | assumption
    | rfl
    | rw [outSpine_next]
    | (extract_lets +onlyGivenNames y
       refine (show (y.spine = s0.spine → _) from fun h => ?_) ?_
       on_goal 1 => clear_value y
       on_goal 2 => (simp only [y]; try clear y))
    | (extract_lets +onlyGivenNames y; clear_value y)
    | (refine (foldl_spine ?_).trans ?_; on_goal 1 => intro s0 _)
    | (simp only [*, laneSend_spine, spine_mk, spine_eta, outSpine_next]; done)
    | split
    | (simp [*]; done)
    | simp only [*, laneSend_spine, spine_mk, spine_eta, outSpine_next]

@[simp] theorem execBelowReceive_spine {x1 x2 s0} : outSpine s0 (execBelowReceive x1 x2 s0) = s0.spine := by
  unfold execBelowReceive
  with_reducible repeat' first
    | assumption
    | rfl
    | rw [outSpine_next]
    | (extract_lets +onlyGivenNames y
       refine (show (y.spine = s0.spine → _) from fun h => ?_) ?_
       on_goal 1 => clear_value y
       on_goal 2 => (simp only [y]; try clear y))
    | (extract_lets +onlyGivenNames y; clear_value y)
    | refine ite_spine ?_ ?_
    | refine ite_out ?_ ?_
    | (simp only [*, modLane_spine, incEpoch_spine, spine_mk, spine_eta, outSpine_next]; done)
    | split
    | (simp [*]; done)
    | simp only [*, modLane_spine, incEpoch_spine, spine_mk, spine_eta, outSpine_next]

@[simp] theorem orphan_spine {s0 x1} : (State.orphan s0 x1).spine = s0.spine := by
  unfold State.orphan
  with_reducible repeat' first
    | assumption
    | rfl
    | (extract_lets +onlyGivenNames y
       refine (show (y.spine = s0.spine → _) from fun h => ?_) ?_
       on_goal 1 => clear_value y
       on_goal 2 => (simp only [y]; try clear y))
    | (extract_lets +onlyGivenNames y; clear_value y)
    | (refine (foldl_spine ?_).trans ?_; on_goal 1 => intro s0 _)
    | (simp only [*, pulse_spine, modRec__spine, spine_mk, spine_eta]; done)
    | split
    | (simp [*]; done)
    | simp only [*, pulse_spine, modRec__spine, spine_mk, spine_eta]

@[simp] theorem depart_spine {s0 x1} : (State.depart s0 x1).spine = s0.spine := by
  unfold State.depart
  simp only [incEpoch_spine, standbyCheck_spine, pulse_spine, modDev_spine, spine_mk, spine_eta]

@[simp] theorem execDeviceLeave_spine {x1 x2 s0} : outSpine s0 (execDeviceLeave x1 x2 s0) = s0.spine := by
  unfold execDeviceLeave
  with_reducible repeat' first
    | assumption
    | rfl
    | rw [outSpine_next]
    | refine ite_spine ?_ ?_
    | refine ite_out ?_ ?_
    | (simp only [*, depart_spine, spine_mk, spine_eta, outSpine_next]; done)
    | split
    | (simp [*]; done)
    | simp only [*, depart_spine, spine_mk, spine_eta, outSpine_next]

@[simp] theorem execLeafOrphan_spine {x1 s0} : outSpine s0 (execLeafOrphan x1 s0) = s0.spine := by
  unfold execLeafOrphan
  with_reducible repeat' first
    | assumption
    | rfl
    | rw [outSpine_next]
    | (extract_lets +onlyGivenNames y; clear_value y)
    | refine ite_spine ?_ ?_
    | refine ite_out ?_ ?_
    | (simp only [*, orphan_spine, modDev_spine, spine_mk, spine_eta, outSpine_next]; done)
    | split
    | (simp [*]; done)
    | simp only [*, orphan_spine, modDev_spine, spine_mk, spine_eta, outSpine_next]

@[simp] theorem deviceProvisionBody_spine {x1 x2 s0} : (deviceProvisionBody x1 x2 s0).1.spine = s0.spine := by
  unfold deviceProvisionBody
  with_reducible repeat' first
    | assumption
    | rfl
    | (extract_lets +onlyGivenNames y
       refine (show (y.spine = s0.spine → _) from fun h => ?_) ?_
       on_goal 1 => clear_value y
       on_goal 2 => (simp only [y]; try clear y))
    | (extract_lets +onlyGivenNames y
       refine (show (y.1.spine = s0.spine → _) from fun h => ?_) ?_
       on_goal 1 => clear_value y
       on_goal 2 => (simp only [y]; try clear y))
    | (extract_lets +onlyGivenNames y; clear_value y)
    | (refine fixedBody_spine ?_; intro _ _ s0)
    | refine ite_spine ?_ ?_
    | refine ite_fst ?_ ?_
    | (simp only [*, fixedBody_spine, spine_mk, spine_eta]; done)
    | (split <;> (try (rename_i q; obtain ⟨q1, q2⟩ := Prod.ext_iff.mp q; simp only at q1 q2; subst q1 q2)))
    | (simp [*]; done)
    | simp only [*, fixedBody_spine, spine_mk, spine_eta]

@[simp] theorem execDeviceProvision_spine {x1 s0} : outSpine s0 (execDeviceProvision x1 s0) = s0.spine := by
  unfold execDeviceProvision
  with_reducible repeat' first
    | assumption
    | rfl
    | rw [outSpine_next]
    | (simp only [*, command_spine, deviceProvisionBody_spine, spine_mk, spine_eta, outSpine_next]; done)
    | (split <;> (try (rename_i q; obtain ⟨q1, q2⟩ := Prod.ext_iff.mp q; simp only at q1 q2; subst q1 q2)))
    | (simp [*]; done)
    | simp only [*, command_spine, deviceProvisionBody_spine, spine_mk, spine_eta, outSpine_next]

@[simp] theorem deviceRemoveBody_spine {x1 x2 s0} : (deviceRemoveBody x1 x2 s0).1.spine = s0.spine := by
  unfold deviceRemoveBody
  with_reducible repeat' first
    | assumption
    | rfl
    | (extract_lets +onlyGivenNames y
       refine (show (y.spine = s0.spine → _) from fun h => ?_) ?_
       on_goal 1 => clear_value y
       on_goal 2 => (simp only [y]; try clear y))
    | (extract_lets +onlyGivenNames y
       refine (show (y.1.spine = s0.spine → _) from fun h => ?_) ?_
       on_goal 1 => clear_value y
       on_goal 2 => (simp only [y]; try clear y))
    | (extract_lets +onlyGivenNames y; clear_value y)
    | (refine fixedBody_spine ?_; intro _ _ s0)
    | refine ite_spine ?_ ?_
    | refine ite_fst ?_ ?_
    | (simp only [*, fixedBody_spine, depart_spine, orphan_spine, standbyCheck_spine, spine_mk, spine_eta]; done)
    | (split <;> (try (rename_i q; obtain ⟨q1, q2⟩ := Prod.ext_iff.mp q; simp only at q1 q2; subst q1 q2)))
    | (simp [*]; done)
    | simp only [*, fixedBody_spine, depart_spine, orphan_spine, standbyCheck_spine, spine_mk, spine_eta]

@[simp] theorem execDeviceRemove_spine {x1 s0} : outSpine s0 (execDeviceRemove x1 s0) = s0.spine := by
  unfold execDeviceRemove
  with_reducible repeat' first
    | assumption
    | rfl
    | rw [outSpine_next]
    | (simp only [*, command_spine, deviceRemoveBody_spine, spine_mk, spine_eta, outSpine_next]; done)
    | (split <;> (try (rename_i q; obtain ⟨q1, q2⟩ := Prod.ext_iff.mp q; simp only at q1 q2; subst q1 q2)))
    | (simp [*]; done)
    | simp only [*, command_spine, deviceRemoveBody_spine, spine_mk, spine_eta, outSpine_next]

@[simp] theorem execRootHeartbeat_spine {s0} : outSpine s0 (execRootHeartbeat s0) = s0.spine := by
  unfold execRootHeartbeat
  with_reducible repeat' first
    | assumption
    | rfl
    | rw [outSpine_next]
    | (extract_lets +onlyGivenNames y; clear_value y)
    | refine ite_spine ?_ ?_
    | refine ite_out ?_ ?_
    | (simp only [*, spine_mk, spine_eta, outSpine_next]; done)
    | split
    | (simp [*]; done)
    | simp only [*, spine_mk, spine_eta, outSpine_next]

@[simp] theorem execRootTakeover_spine {x1 s0} : outSpine s0 (execRootTakeover x1 s0) = s0.spine := by
  unfold execRootTakeover
  with_reducible repeat' first
    | assumption
    | rfl
    | rw [outSpine_next]
    | (extract_lets +onlyGivenNames y
       refine (show (y.spine = s0.spine → _) from fun h => ?_) ?_
       on_goal 1 => clear_value y
       on_goal 2 => (simp only [y]; try clear y))
    | (extract_lets +onlyGivenNames y
       have hk : Kiln.ph y = Kiln.ph (State.kiln _) := rfl
       clear_value y)
    | (extract_lets +onlyGivenNames y; clear_value y)
    | refine ite_spine ?_ ?_
    | refine ite_out ?_ ?_
    | (simp only [*, level_spine, standbyCheck_spine, loseSource_spine, incEpoch_spine, pulse_spine, spine_mk, spine_eta, outSpine_next]; done)
    | split
    | (simp [*]; done)
    | simp only [*, level_spine, standbyCheck_spine, loseSource_spine, incEpoch_spine, pulse_spine, spine_mk, spine_eta, outSpine_next]

@[simp] theorem handOver_spine {s0 x1} : (State.handOver s0 x1).spine = s0.spine := by
  unfold State.handOver
  simp only [tryHandover_spine, spine_mk, spine_eta]

@[simp] theorem rootHandoverBody_spine {x1 x2 s0} : (rootHandoverBody x1 x2 s0).1.spine = s0.spine := by
  unfold rootHandoverBody
  with_reducible repeat' first
    | assumption
    | rfl
    | (refine fixedBody_spine ?_; intro _ _ s0)
    | refine ite_spine ?_ ?_
    | refine ite_fst ?_ ?_
    | (simp only [*, fixedBody_spine, handOver_spine, spine_mk, spine_eta]; done)
    | (split <;> (try (rename_i q; obtain ⟨q1, q2⟩ := Prod.ext_iff.mp q; simp only at q1 q2; subst q1 q2)))
    | (simp [*]; done)
    | simp only [*, fixedBody_spine, handOver_spine, spine_mk, spine_eta]

@[simp] theorem execRootHandover_spine {x1 s0} : outSpine s0 (execRootHandover x1 s0) = s0.spine := by
  unfold execRootHandover
  with_reducible repeat' first
    | assumption
    | rfl
    | rw [outSpine_next]
    | (simp only [*, command_spine, rootHandoverBody_spine, spine_mk, spine_eta, outSpine_next]; done)
    | (split <;> (try (rename_i q; obtain ⟨q1, q2⟩ := Prod.ext_iff.mp q; simp only at q1 q2; subst q1 q2)))
    | (simp [*]; done)
    | simp only [*, command_spine, rootHandoverBody_spine, spine_mk, spine_eta, outSpine_next]

@[simp] theorem execRootCutHandover_spine {x1 s0} : outSpine s0 (execRootCutHandover x1 s0) = s0.spine := by
  unfold execRootCutHandover
  with_reducible repeat' first
    | assumption
    | rfl
    | rw [outSpine_next]
    | (extract_lets +onlyGivenNames y
       refine (show (y.spine = s0.spine → _) from fun h => ?_) ?_
       on_goal 1 => clear_value y
       on_goal 2 => (simp only [y]; try clear y))
    | (extract_lets +onlyGivenNames y; clear_value y)
    | refine ite_spine ?_ ?_
    | refine ite_out ?_ ?_
    | (simp only [*, handOver_spine, spine_mk, spine_eta, outSpine_next]; done)
    | split
    | (simp [*]; done)
    | simp only [*, handOver_spine, spine_mk, spine_eta, outSpine_next]

@[simp] theorem mortarStatusBody_spine {x1 x2 s0} : (mortarStatusBody x1 x2 s0).1.spine = s0.spine := by
  unfold mortarStatusBody
  with_reducible repeat' first
    | assumption
    | rfl
    | (extract_lets +onlyGivenNames y
       refine (show (y.spine = s0.spine → _) from fun h => ?_) ?_
       on_goal 1 => clear_value y
       on_goal 2 => (simp only [y]; try clear y))
    | (extract_lets +onlyGivenNames y
       refine (show (y.1.spine = s0.spine → _) from fun h => ?_) ?_
       on_goal 1 => clear_value y
       on_goal 2 => (simp only [y]; try clear y))
    | (extract_lets +onlyGivenNames y
       have hk : Kiln.ph y = Kiln.ph (State.kiln _) := rfl
       clear_value y)
    | (extract_lets +onlyGivenNames y; clear_value y)
    | (refine (foldl_spine ?_).trans ?_; on_goal 1 => intro s0 _)
    | (refine fixedBody_spine ?_; intro _ _ s0)
    | (simp only [*, fixedBody_spine, modLane_spine, spine_mk, spine_eta]; done)
    | (split <;> (try (rename_i q; obtain ⟨q1, q2⟩ := Prod.ext_iff.mp q; simp only at q1 q2; subst q1 q2)))
    | (simp [*]; done)
    | simp only [*, fixedBody_spine, modLane_spine, spine_mk, spine_eta]

@[simp] theorem execMortarStatus_spine {x1 s0} : outSpine s0 (execMortarStatus x1 s0) = s0.spine := by
  unfold execMortarStatus
  with_reducible repeat' first
    | assumption
    | rfl
    | rw [outSpine_next]
    | (simp only [*, command_spine, mortarStatusBody_spine, spine_mk, spine_eta, outSpine_next]; done)
    | (split <;> (try (rename_i q; obtain ⟨q1, q2⟩ := Prod.ext_iff.mp q; simp only at q1 q2; subst q1 q2)))
    | (simp [*]; done)
    | simp only [*, command_spine, mortarStatusBody_spine, spine_mk, spine_eta, outSpine_next]

@[simp] theorem topoEntry_spine {s0 x1 x2} : (State.topoEntry s0 x1 x2).2.spine = s0.spine := by
  unfold State.topoEntry
  with_reducible repeat' first
    | assumption
    | rfl
    | (extract_lets +onlyGivenNames y
       refine (show (y.spine = s0.spine → _) from fun h => ?_) ?_
       on_goal 1 => clear_value y
       on_goal 2 => (simp only [y]; try clear y))
    | (extract_lets +onlyGivenNames y
       refine (show (y.2.spine = s0.spine → _) from fun h => ?_) ?_
       on_goal 1 => clear_value y
       on_goal 2 => (simp only [y]; try clear y))
    | (extract_lets +onlyGivenNames y; clear_value y)
    | refine ite_spine ?_ ?_
    | refine ite_snd ?_ ?_
    | (simp only [*, draw_spine, spine_mk, spine_eta]; done)
    | (split <;> (try (rename_i q; obtain ⟨q1, q2⟩ := Prod.ext_iff.mp q; simp only at q1 q2; subst q1 q2)))
    | (simp [*]; done)
    | simp only [*, draw_spine, spine_mk, spine_eta]

@[simp] theorem topoReadBody_spine {x1 x2 s0} : (topoReadBody x1 x2 s0).1.spine = s0.spine := by
  unfold topoReadBody
  refine fixedBody_spine ?_
  intro c p s
  dsimp only
  refine ite_fst rfl ?_
  show (List.foldl _ (([] : Bytes), s) _).2.spine = _
  refine (foldl_snd_spine (fun a e => ?_)).trans rfl
  exact topoEntry_spine (x1 := e.1) (x2 := e.2)

@[simp] theorem execTopoRead_spine {x1 s0} : outSpine s0 (execTopoRead x1 s0) = s0.spine := by
  unfold execTopoRead
  with_reducible repeat' first
    | assumption
    | rfl
    | rw [outSpine_next]
    | (simp only [*, command_spine, topoReadBody_spine, spine_mk, spine_eta, outSpine_next]; done)
    | (split <;> (try (rename_i q; obtain ⟨q1, q2⟩ := Prod.ext_iff.mp q; simp only at q1 q2; subst q1 q2)))
    | (simp [*]; done)
    | simp only [*, command_spine, topoReadBody_spine, spine_mk, spine_eta, outSpine_next]

@[simp] theorem execUplinkLinkChange_spine {x1 x2 s0} : outSpine s0 (execUplinkLinkChange x1 x2 s0) = s0.spine := by
  unfold execUplinkLinkChange
  simp only [level_spine, setReady_spine, spine_mk, spine_eta, outSpine_next]

@[simp] theorem execArpRequest_spine {x1 x2 s0} : outSpine s0 (execArpRequest x1 x2 s0) = s0.spine := by
  unfold execArpRequest
  with_reducible repeat' first
    | assumption
    | rfl
    | rw [outSpine_next]
    | (extract_lets +onlyGivenNames y; clear_value y)
    | refine ite_spine ?_ ?_
    | refine ite_out ?_ ?_
    | (simp only [*, spine_mk, spine_eta, outSpine_next]; done)
    | split
    | (simp [*]; done)
    | simp only [*, spine_mk, spine_eta, outSpine_next]

@[simp] theorem execNdSolicit_spine {x1 x2 s0} : outSpine s0 (execNdSolicit x1 x2 s0) = s0.spine := by
  unfold execNdSolicit
  with_reducible repeat' first
    | assumption
    | rfl
    | rw [outSpine_next]
    | (extract_lets +onlyGivenNames y; clear_value y)
    | refine ite_spine ?_ ?_
    | refine ite_out ?_ ?_
    | (simp only [*, spine_mk, spine_eta, outSpine_next]; done)
    | split
    | (simp [*]; done)
    | simp only [*, spine_mk, spine_eta, outSpine_next]

@[simp] theorem execIcmpEcho_spine {x1 x2 x3 s0} : outSpine s0 (execIcmpEcho x1 x2 x3 s0) = s0.spine := by
  unfold execIcmpEcho
  with_reducible repeat' first
    | assumption
    | rfl
    | rw [outSpine_next]
    | (extract_lets +onlyGivenNames y; clear_value y)
    | refine ite_spine ?_ ?_
    | refine ite_out ?_ ?_
    | (simp only [*, spine_mk, spine_eta, outSpine_next]; done)
    | split
    | (simp [*]; done)
    | simp only [*, spine_mk, spine_eta, outSpine_next]

@[simp] theorem execIpReassemblyTimeout_spine {x1 s0} : outSpine s0 (execIpReassemblyTimeout x1 s0) = s0.spine := by
  unfold execIpReassemblyTimeout
  simp only [spine_mk, spine_eta, outSpine_next]

@[simp] theorem report_spine {s0 x1 x2} : (State.report s0 x1 x2).spine = s0.spine := by
  unfold State.report
  simp only [spine_mk, spine_eta]

@[simp] theorem dropReports_spine {s0} : (State.dropReports s0).spine = s0.spine := by
  unfold State.dropReports
  simp only [spine_mk, spine_eta]

@[simp] theorem swapAtStop_spine {s0} : (State.swapAtStop s0).spine = s0.spine := by
  unfold State.swapAtStop
  with_reducible repeat' first
    | assumption
    | rfl
    | (extract_lets +onlyGivenNames y
       refine (show (y.spine = s0.spine → _) from fun h => ?_) ?_
       on_goal 1 => clear_value y
       on_goal 2 => (simp only [y]; try clear y))
    | (extract_lets +onlyGivenNames y; clear_value y)
    | refine ite_spine ?_ ?_
    | (simp only [*, journalAdd_spine, report_spine, spine_mk, spine_eta]; done)
    | split
    | (simp [*]; done)
    | simp only [*, journalAdd_spine, report_spine, spine_mk, spine_eta]

@[simp] theorem saveClose_spine {s0} : (State.saveClose s0).spine = s0.spine := by
  unfold State.saveClose
  with_reducible repeat' first
    | assumption
    | rfl
    | (extract_lets +onlyGivenNames y
       refine (show (y.spine = s0.spine → _) from fun h => ?_) ?_
       on_goal 1 => clear_value y
       on_goal 2 => (simp only [y]; try clear y))
    | (extract_lets +onlyGivenNames y; clear_value y)
    | (refine (foldl_spine ?_).trans ?_; on_goal 1 => intro s0 _)
    | refine ite_spine ?_ ?_
    | (simp only [*, settleAll_spine, pushEnds_spine, closeWindow_spine, pqClose_spine, spine_mk, spine_eta]; done)
    | split
    | (simp [*]; done)
    | simp only [*, settleAll_spine, pushEnds_spine, closeWindow_spine, pqClose_spine, spine_mk, spine_eta]

@[simp] theorem saveWrite_spine {s0} : (State.saveWrite s0).spine = s0.spine := by
  unfold State.saveWrite
  with_reducible repeat' first
    | assumption
    | rfl
    | (extract_lets +onlyGivenNames y
       refine (show (y.spine = s0.spine → _) from fun h => ?_) ?_
       on_goal 1 => clear_value y
       on_goal 2 => (simp only [y]; try clear y))
    | (extract_lets +onlyGivenNames y; clear_value y)
    | refine ite_spine ?_ ?_
    | (simp only [*, checkpoint_spine, spine_mk, spine_eta]; done)
    | split
    | (simp [*]; done)
    | simp only [*, checkpoint_spine, spine_mk, spine_eta]

@[simp] theorem cutCopy_spine {s0} : (State.cutCopy s0).spine = s0.spine := by
  unfold State.cutCopy
  with_reducible repeat' first
    | assumption
    | rfl
    | (extract_lets +onlyGivenNames y
       refine (show (y.spine = s0.spine → _) from fun h => ?_) ?_
       on_goal 1 => clear_value y
       on_goal 2 => (simp only [y]; try clear y))
    | (extract_lets +onlyGivenNames y
       refine (show (y.2.spine = s0.spine → _) from fun h => ?_) ?_
       on_goal 1 => clear_value y
       on_goal 2 => (simp only [y]; try clear y))
    | (extract_lets +onlyGivenNames y; clear_value y)
    | (simp only [*, draw_spine, pulse_spine, spine_mk, spine_eta]; done)
    | (split <;> (try (rename_i q; obtain ⟨q1, q2⟩ := Prod.ext_iff.mp q; simp only at q1 q2; subst q1 q2)))
    | (simp [*]; done)
    | simp only [*, draw_spine, pulse_spine, spine_mk, spine_eta]

@[simp] theorem saveResult_spine {s0 x1 x2} : (State.saveResult s0 x1 x2).spine = s0.spine := by
  unfold State.saveResult
  simp only [spine_mk, spine_eta]

@[simp] theorem saveAll_spine {s0} : (State.saveAll s0).spine = s0.spine := by
  unfold State.saveAll
  with_reducible repeat' first
    | assumption
    | rfl
    | (extract_lets +onlyGivenNames y; clear_value y)
    | refine ite_spine ?_ ?_
    | (simp only [*, saveWrite_spine, saveClose_spine, spine_mk, spine_eta]; done)
    | split
    | (simp [*]; done)
    | simp only [*, saveWrite_spine, saveClose_spine, spine_mk, spine_eta]

@[simp] theorem pfBegin_spine {s0 x1} : (State.pfBegin s0 x1).spine = s0.spine := by
  unfold State.pfBegin
  simp only [dropReports_spine, cutCopy_spine, spine_mk, spine_eta]

@[simp] theorem billRestore_spine {s0 x1} : (State.billRestore s0 x1).spine = s0.spine := by
  unfold State.billRestore
  with_reducible repeat' first
    | assumption
    | rfl
    | (extract_lets +onlyGivenNames y
       refine (show (y.spine = s0.spine → _) from fun h => ?_) ?_
       on_goal 1 => clear_value y
       on_goal 2 => (simp only [y]; try clear y))
    | (extract_lets +onlyGivenNames y; clear_value y)
    | (refine (foldl_spine ?_).trans ?_; on_goal 1 => intro s0 _)
    | refine ite_spine ?_ ?_
    | (simp only [*, modBmp_spine, spine_mk, spine_eta]; done)
    | split
    | (simp [*]; done)
    | simp only [*, modBmp_spine, spine_mk, spine_eta]

@[simp] theorem restore_spine {s0} : (State.restore s0).spine = s0.spine := by
  unfold State.restore
  simp only [billRestore_spine, accRestore_spine, spine_mk, spine_eta]

@[simp] theorem repoll_spine {s0} : (State.repoll s0).spine = s0.spine := by
  unfold State.repoll
  with_reducible repeat' first
    | assumption
    | rfl
    | refine ite_spine ?_ ?_
    | (simp only [*, startCatchUp_spine, spine_mk, spine_eta]; done)
    | split
    | (simp [*]; done)
    | simp only [*, startCatchUp_spine, spine_mk, spine_eta]

@[simp] theorem timeFromRtc_spine {s0} : (State.timeFromRtc s0).spine = s0.spine := by
  unfold State.timeFromRtc
  with_reducible repeat' first
    | assumption
    | rfl
    | (extract_lets +onlyGivenNames y
       refine (show (y.spine = s0.spine → _) from fun h => ?_) ?_
       on_goal 1 => clear_value y
       on_goal 2 => (simp only [y]; try clear y))
    | (extract_lets +onlyGivenNames y
       refine (show (y.2.spine = s0.spine → _) from fun h => ?_) ?_
       on_goal 1 => clear_value y
       on_goal 2 => (simp only [y]; try clear y))
    | (extract_lets +onlyGivenNames y; clear_value y)
    | refine ite_spine ?_ ?_
    | (simp only [*, srcLevels_spine, draw_spine, enterHoldover_spine, level_spine, spine_mk, spine_eta]; done)
    | (split <;> (try (rename_i q; obtain ⟨q1, q2⟩ := Prod.ext_iff.mp q; simp only at q1 q2; subst q1 q2)))
    | (simp [*]; done)
    | simp only [*, srcLevels_spine, draw_spine, enterHoldover_spine, level_spine, spine_mk, spine_eta]

@[simp] theorem orderCopy_spine {s0 x1} : (State.orderCopy s0 x1).spine = s0.spine := by
  unfold State.orderCopy
  with_reducible repeat' first
    | assumption
    | rfl
    | (extract_lets +onlyGivenNames y; clear_value y)
    | refine ite_spine ?_ ?_
    | (simp only [*, spine_mk, spine_eta]; done)
    | split
    | (simp [*]; done)
    | simp only [*, spine_mk, spine_eta]

@[simp] theorem resumeCopy_spine {s0} : (State.resumeCopy s0).spine = s0.spine := by
  unfold State.resumeCopy
  with_reducible repeat' first
    | assumption
    | rfl
    | (extract_lets +onlyGivenNames y; clear_value y)
    | refine ite_spine ?_ ?_
    | (simp only [*, orderCopy_spine, spine_mk, spine_eta]; done)
    | split
    | (simp [*]; done)
    | simp only [*, orderCopy_spine, spine_mk, spine_eta]

@[simp] theorem f4Outputs_spine {s0} : (State.f4Outputs s0).spine = s0.spine := by
  unfold State.f4Outputs
  with_reducible repeat' first
    | assumption
    | rfl
    | (extract_lets +onlyGivenNames y
       refine (show (y.spine = s0.spine → _) from fun h => ?_) ?_
       on_goal 1 => clear_value y
       on_goal 2 => (simp only [y]; try clear y))
    | (extract_lets +onlyGivenNames y
       have hk : Kiln.ph y = Kiln.ph (State.kiln _) := rfl
       clear_value y)
    | (extract_lets +onlyGivenNames y; clear_value y)
    | (refine (foldl_spine ?_).trans ?_; on_goal 1 => intro s0 _)
    | refine ite_spine ?_ ?_
    | (simp only [*, drivePulse_spine, spine_mk, spine_eta]; done)
    | split
    | (simp [*]; done)
    | simp only [*, drivePulse_spine, spine_mk, spine_eta]

@[simp] theorem f4Links_spine {s0} : (State.f4Links s0).spine = s0.spine := by
  unfold State.f4Links
  with_reducible repeat' first
    | assumption
    | rfl
    | (extract_lets +onlyGivenNames y
       refine (show (y.spine = s0.spine → _) from fun h => ?_) ?_
       on_goal 1 => clear_value y
       on_goal 2 => (simp only [y]; try clear y))
    | (extract_lets +onlyGivenNames y
       have hk : Kiln.ph y = Kiln.ph (State.kiln _) := rfl
       clear_value y)
    | (extract_lets +onlyGivenNames y; clear_value y)
    | (refine (foldl_spine ?_).trans ?_; on_goal 1 => intro s0 _)
    | refine ite_spine ?_ ?_
    | (simp only [*, laneStop_spine, level_spine, setReady_spine, plcStop_spine, modRport_spine, spine_mk, spine_eta]; done)
    | split
    | (simp [*]; done)
    | simp only [*, laneStop_spine, level_spine, setReady_spine, plcStop_spine, modRport_spine, spine_mk, spine_eta]

@[simp] theorem enterF4_spine {s0 x1 x2} : (State.enterF4 s0 x1 x2).spine = s0.spine := by
  unfold State.enterF4
  extract_lets a _ b c
  have ha : a.spine = s0.spine := setCause_spine
  have hb : b.spine = s0.spine := ha
  have hc : c.spine = s0.spine := by simp only [c, f4Outputs_spine, f4Links_spine, level_spine, hb]
  refine ite_spine ha (ite_spine ?_ hc)
  rw [orderCopy_spine]
  exact hc

@[simp] theorem leaveF4_spine {s0} : (State.leaveF4 s0).spine = s0.spine := by
  unfold State.leaveF4
  with_reducible repeat' first
    | assumption
    | rfl
    | (extract_lets +onlyGivenNames y; clear_value y)
    | refine ite_spine ?_ ?_
    | (simp only [*, level_spine, spine_mk, spine_eta]; done)
    | split
    | (simp [*]; done)
    | simp only [*, level_spine, spine_mk, spine_eta]

@[simp] theorem dropTenants_spine {s0} : (State.dropTenants s0).spine = s0.spine := by
  unfold State.dropTenants
  with_reducible repeat' first
    | assumption
    | rfl
    | (extract_lets +onlyGivenNames y
       refine (show (y.spine = s0.spine → _) from fun h => ?_) ?_
       on_goal 1 => clear_value y
       on_goal 2 => (simp only [y]; try clear y))
    | (extract_lets +onlyGivenNames y; clear_value y)
    | (refine (foldl_spine ?_).trans ?_; on_goal 1 => intro s0 _)
    | (simp only [*, setBusy_spine, setQueue_spine, endBaySessions_spine, spine_mk, spine_eta]; done)
    | split
    | (simp [*]; done)
    | simp only [*, setBusy_spine, setQueue_spine, endBaySessions_spine, spine_mk, spine_eta]

@[simp] theorem decideF3_spine {s0 x1 x2} : (State.decideF3 s0 x1 x2).spine = s0.spine := by
  unfold State.decideF3
  with_reducible repeat' first
    | assumption
    | rfl
    | (extract_lets +onlyGivenNames y
       refine (show (y.spine = s0.spine → _) from fun h => ?_) ?_
       on_goal 1 => clear_value y
       on_goal 2 => (simp only [y]; try clear y))
    | (extract_lets +onlyGivenNames y
       have hk : Kiln.ph y = Kiln.ph (State.kiln _) := rfl
       clear_value y)
    | (extract_lets +onlyGivenNames y; clear_value y)
    | refine ite_spine ?_ ?_
    | (simp only [*, enterF4_spine, setCause_spine, dropTenants_spine, spine_mk, spine_eta]; done)
    | split
    | (simp [*]; done)
    | simp only [*, enterF4_spine, setCause_spine, dropTenants_spine, spine_mk, spine_eta]

@[simp] theorem execCcLockstepMismatch_spine {x1 x2 s0} : outSpine s0 (execCcLockstepMismatch x1 x2 s0) = s0.spine := by
  unfold execCcLockstepMismatch
  simp only [decideF3_spine, spine_mk, spine_eta, outSpine_next]

@[simp] theorem execCcHeartbeatMissing_spine {x1 x2 s0} : outSpine s0 (execCcHeartbeatMissing x1 x2 s0) = s0.spine := by
  unfold execCcHeartbeatMissing
  with_reducible repeat' first
    | assumption
    | rfl
    | rw [outSpine_next]
    | refine ite_spine ?_ ?_
    | refine ite_out ?_ ?_
    | (simp only [*, decideF3_spine, spine_mk, spine_eta, outSpine_next]; done)
    | split
    | (simp [*]; done)
    | simp only [*, decideF3_spine, spine_mk, spine_eta, outSpine_next]

@[simp] theorem execF3DumpWritten_spine {s0} : outSpine s0 (execF3DumpWritten s0) = s0.spine := by
  unfold execF3DumpWritten
  with_reducible repeat' first
    | assumption
    | rfl
    | rw [outSpine_next]
    | (extract_lets +onlyGivenNames y; clear_value y)
    | refine ite_spine ?_ ?_
    | refine ite_out ?_ ?_
    | (simp only [*, spine_mk, spine_eta, outSpine_next]; done)
    | split
    | (simp [*]; done)
    | simp only [*, spine_mk, spine_eta, outSpine_next]

@[simp] theorem f3Stored_spine {s0} : (State.f3Stored s0).spine = s0.spine := by
  unfold State.f3Stored
  with_reducible repeat' first
    | assumption
    | rfl
    | (extract_lets +onlyGivenNames y; clear_value y)
    | refine ite_spine ?_ ?_
    | (simp only [*, spine_mk, spine_eta]; done)
    | split
    | (simp [*]; done)
    | simp only [*, spine_mk, spine_eta]

@[simp] theorem asidePairs_spine {s0 x1} : (State.asidePairs s0 x1).spine = s0.spine := by
  unfold State.asidePairs
  with_reducible repeat' first
    | assumption
    | rfl
    | (extract_lets +onlyGivenNames y
       refine (show (y.spine = s0.spine → _) from fun h => ?_) ?_
       on_goal 1 => clear_value y
       on_goal 2 => (simp only [y]; try clear y))
    | (extract_lets +onlyGivenNames y; clear_value y)
    | (refine (foldl_spine ?_).trans ?_; on_goal 1 => intro s0 _)
    | refine ite_spine ?_ ?_
    | (simp only [*, f2_spine, level_spine, spine_mk, spine_eta]; done)
    | split
    | (simp [*]; done)
    | simp only [*, f2_spine, level_spine, spine_mk, spine_eta]

@[simp] theorem execF3PairsRunning_spine {x1 s0} : outSpine s0 (execF3PairsRunning x1 s0) = s0.spine := by
  unfold execF3PairsRunning
  with_reducible repeat' first
    | assumption
    | rfl
    | rw [outSpine_next]
    | (extract_lets +onlyGivenNames y
       refine (show (y.spine = s0.spine → _) from fun h => ?_) ?_
       on_goal 1 => clear_value y
       on_goal 2 => (simp only [y]; try clear y))
    | (extract_lets +onlyGivenNames y; clear_value y)
    | refine ite_spine ?_ ?_
    | refine ite_out ?_ ?_
    | (simp only [*, f3Stored_spine, asidePairs_spine, enterF4_spine, pulse_spine, modAllWin_spine, orderCopy_spine, spine_mk, spine_eta, outSpine_next]; done)
    | split
    | (simp [*]; done)
    | simp only [*, f3Stored_spine, asidePairs_spine, enterF4_spine, pulse_spine, modAllWin_spine, orderCopy_spine, spine_mk, spine_eta, outSpine_next]

@[simp] theorem execFlashDumpCopyDone_spine {s0} : outSpine s0 (execFlashDumpCopyDone s0) = s0.spine := by
  unfold execFlashDumpCopyDone
  with_reducible repeat' first
    | assumption
    | rfl
    | rw [outSpine_next]
    | (extract_lets +onlyGivenNames y; clear_value y)
    | (simp only [*, pulse_spine, programFlash_spine, spine_mk, spine_eta, outSpine_next]; done)
    | split
    | (simp [*]; done)
    | simp only [*, pulse_spine, programFlash_spine, spine_mk, spine_eta, outSpine_next]

@[simp] theorem startErase_spine {s0 x1} : (State.startErase s0 x1).spine = s0.spine := by
  unfold State.startErase
  simp only [journalAdd_spine, spine_mk, spine_eta]

@[simp] theorem endErase_spine {s0 x1} : (State.endErase s0 x1).spine = s0.spine := by
  unfold State.endErase
  simp only [journalAdd_spine, spine_mk, spine_eta]

@[simp] theorem execDumpPartitionErase_spine {x1 s0} : outSpine s0 (execDumpPartitionErase x1 s0) = s0.spine := by
  unfold execDumpPartitionErase
  with_reducible repeat' first
    | assumption
    | rfl
    | rw [outSpine_next]
    | (extract_lets +onlyGivenNames y
       refine (show (y.spine = s0.spine → _) from fun h => ?_) ?_
       on_goal 1 => clear_value y
       on_goal 2 => (simp only [y]; try clear y))
    | (extract_lets +onlyGivenNames y
       have hk : Kiln.ph y = Kiln.ph (State.kiln _) := rfl
       clear_value y)
    | (extract_lets +onlyGivenNames y; clear_value y)
    | refine ite_spine ?_ ?_
    | refine ite_out ?_ ?_
    | (simp only [*, endErase_spine, startErase_spine, eraseSector_spine, spine_mk, spine_eta, outSpine_next]; done)
    | split
    | (simp [*]; done)
    | simp only [*, endErase_spine, startErase_spine, eraseSector_spine, spine_mk, spine_eta, outSpine_next]

@[simp] theorem diagDumpReadBody_spine {x1 x2 s0} : (diagDumpReadBody x1 x2 s0).1.spine = s0.spine := by
  unfold diagDumpReadBody
  with_reducible repeat' first
    | assumption
    | rfl
    | (extract_lets +onlyGivenNames y
       refine (show (y.spine = s0.spine → _) from fun h => ?_) ?_
       on_goal 1 => clear_value y
       on_goal 2 => (simp only [y]; try clear y))
    | (extract_lets +onlyGivenNames y; clear_value y)
    | refine ite_spine ?_ ?_
    | refine ite_fst ?_ ?_
    | (simp only [*, spine_mk, spine_eta]; done)
    | split
    | (simp [*]; done)
    | simp only [*, spine_mk, spine_eta]

@[simp] theorem execDiagDumpRead_spine {x1 s0} : outSpine s0 (execDiagDumpRead x1 s0) = s0.spine := by
  unfold execDiagDumpRead
  with_reducible repeat' first
    | assumption
    | rfl
    | rw [outSpine_next]
    | (simp only [*, command_spine, diagDumpReadBody_spine, spine_mk, spine_eta, outSpine_next]; done)
    | (split <;> (try (rename_i q; obtain ⟨q1, q2⟩ := Prod.ext_iff.mp q; simp only at q1 q2; subst q1 q2)))
    | (simp [*]; done)
    | simp only [*, command_spine, diagDumpReadBody_spine, spine_mk, spine_eta, outSpine_next]

@[simp] theorem diagDumpClearBody_spine {x1 x2 s0} : (diagDumpClearBody x1 x2 s0).1.spine = s0.spine := by
  unfold diagDumpClearBody
  with_reducible repeat' first
    | assumption
    | rfl
    | (extract_lets +onlyGivenNames y
       refine (show (y.spine = s0.spine → _) from fun h => ?_) ?_
       on_goal 1 => clear_value y
       on_goal 2 => (simp only [y]; try clear y))
    | (extract_lets +onlyGivenNames y
       refine (show (y.1.spine = s0.spine → _) from fun h => ?_) ?_
       on_goal 1 => clear_value y
       on_goal 2 => (simp only [y]; try clear y))
    | (extract_lets +onlyGivenNames y; clear_value y)
    | (refine fixedBody_spine ?_; intro _ _ s0)
    | refine ite_spine ?_ ?_
    | refine ite_fst ?_ ?_
    | (simp only [*, fixedBody_spine, startErase_spine, spine_mk, spine_eta]; done)
    | (split <;> (try (rename_i q; obtain ⟨q1, q2⟩ := Prod.ext_iff.mp q; simp only at q1 q2; subst q1 q2)))
    | (simp [*]; done)
    | simp only [*, fixedBody_spine, startErase_spine, spine_mk, spine_eta]

@[simp] theorem execDiagDumpClear_spine {x1 s0} : outSpine s0 (execDiagDumpClear x1 s0) = s0.spine := by
  unfold execDiagDumpClear
  with_reducible repeat' first
    | assumption
    | rfl
    | rw [outSpine_next]
    | (simp only [*, command_spine, diagDumpClearBody_spine, spine_mk, spine_eta, outSpine_next]; done)
    | (split <;> (try (rename_i q; obtain ⟨q1, q2⟩ := Prod.ext_iff.mp q; simp only at q1 q2; subst q1 q2)))
    | (simp [*]; done)
    | simp only [*, command_spine, diagDumpClearBody_spine, spine_mk, spine_eta, outSpine_next]

@[simp] theorem serviceFuseReadBody_spine {x1 x2 s0} : (serviceFuseReadBody x1 x2 s0).1.spine = s0.spine := by
  unfold serviceFuseReadBody
  with_reducible repeat' first
    | assumption
    | rfl
    | (refine fixedBody_spine ?_; intro _ _ s0)
    | (simp only [*, fixedBody_spine, readBody_spine, spine_mk, spine_eta]; done)
    | (split <;> (try (rename_i q; obtain ⟨q1, q2⟩ := Prod.ext_iff.mp q; simp only at q1 q2; subst q1 q2)))
    | (simp [*]; done)
    | simp only [*, fixedBody_spine, readBody_spine, spine_mk, spine_eta]

@[simp] theorem execServiceFuseRead_spine {x1 s0} : outSpine s0 (execServiceFuseRead x1 s0) = s0.spine := by
  unfold execServiceFuseRead
  with_reducible repeat' first
    | assumption
    | rfl
    | rw [outSpine_next]
    | (simp only [*, command_spine, serviceFuseReadBody_spine, spine_mk, spine_eta, outSpine_next]; done)
    | (split <;> (try (rename_i q; obtain ⟨q1, q2⟩ := Prod.ext_iff.mp q; simp only at q1 q2; subst q1 q2)))
    | (simp [*]; done)
    | simp only [*, command_spine, serviceFuseReadBody_spine, spine_mk, spine_eta, outSpine_next]

@[simp] theorem serviceTraceBody_spine {x1 x2 s0} : (serviceTraceBody x1 x2 s0).1.spine = s0.spine := by
  unfold serviceTraceBody
  with_reducible repeat' first
    | assumption
    | rfl
    | (extract_lets +onlyGivenNames y
       refine (show (y.spine = s0.spine → _) from fun h => ?_) ?_
       on_goal 1 => clear_value y
       on_goal 2 => (simp only [y]; try clear y))
    | (extract_lets +onlyGivenNames y
       refine (show (y.1.spine = s0.spine → _) from fun h => ?_) ?_
       on_goal 1 => clear_value y
       on_goal 2 => (simp only [y]; try clear y))
    | (extract_lets +onlyGivenNames y; clear_value y)
    | (refine fixedBody_spine ?_; intro _ _ s0)
    | refine ite_spine ?_ ?_
    | refine ite_fst ?_ ?_
    | (simp only [*, fixedBody_spine, spine_mk, spine_eta]; done)
    | (split <;> (try (rename_i q; obtain ⟨q1, q2⟩ := Prod.ext_iff.mp q; simp only at q1 q2; subst q1 q2)))
    | (simp [*]; done)
    | simp only [*, fixedBody_spine, spine_mk, spine_eta]

@[simp] theorem execServiceTrace_spine {x1 s0} : outSpine s0 (execServiceTrace x1 s0) = s0.spine := by
  unfold execServiceTrace
  with_reducible repeat' first
    | assumption
    | rfl
    | rw [outSpine_next]
    | (simp only [*, command_spine, serviceTraceBody_spine, spine_mk, spine_eta, outSpine_next]; done)
    | (split <;> (try (rename_i q; obtain ⟨q1, q2⟩ := Prod.ext_iff.mp q; simp only at q1 q2; subst q1 q2)))
    | (simp [*]; done)
    | simp only [*, command_spine, serviceTraceBody_spine, spine_mk, spine_eta, outSpine_next]

@[simp] theorem wardenLost_spine {s0 x1} : (State.wardenLost s0 x1).spine = s0.spine := by
  unfold State.wardenLost
  with_reducible repeat' first
    | assumption
    | rfl
    | (extract_lets +onlyGivenNames y
       refine (show (y.spine = s0.spine → _) from fun h => ?_) ?_
       on_goal 1 => clear_value y
       on_goal 2 => (simp only [y]; try clear y))
    | (extract_lets +onlyGivenNames y; clear_value y)
    | refine ite_spine ?_ ?_
    | (simp only [*, f1_spine, level_spine, enterF4_spine, spine_mk, spine_eta]; done)
    | split
    | (simp [*]; done)
    | simp only [*, f1_spine, level_spine, enterF4_spine, spine_mk, spine_eta]

@[simp] theorem execWardenHeartbeatMissing_spine {x1 s0} : outSpine s0 (execWardenHeartbeatMissing x1 s0) = s0.spine := by
  unfold execWardenHeartbeatMissing
  with_reducible repeat' first
    | assumption
    | rfl
    | rw [outSpine_next]
    | (extract_lets +onlyGivenNames y
       refine (show (y.spine = s0.spine → _) from fun h => ?_) ?_
       on_goal 1 => clear_value y
       on_goal 2 => (simp only [y]; try clear y))
    | (extract_lets +onlyGivenNames y
       have hk : Kiln.ph y = Kiln.ph (State.kiln _) := rfl
       clear_value y)
    | (extract_lets +onlyGivenNames y; clear_value y)
    | refine ite_spine ?_ ?_
    | refine ite_out ?_ ?_
    | (simp only [*, enterF4_spine, spine_mk, spine_eta, outSpine_next]; done)
    | split
    | (simp [*]; done)
    | simp only [*, enterF4_spine, spine_mk, spine_eta, outSpine_next]

@[simp] theorem execWardenResetDone_spine {x1 x2 s0} : outSpine s0 (execWardenResetDone x1 x2 s0) = s0.spine := by
  unfold execWardenResetDone
  with_reducible repeat' first
    | assumption
    | rfl
    | rw [outSpine_next]
    | (extract_lets +onlyGivenNames y
       refine (show (y.spine = s0.spine → _) from fun h => ?_) ?_
       on_goal 1 => clear_value y
       on_goal 2 => (simp only [y]; try clear y))
    | (extract_lets +onlyGivenNames y; clear_value y)
    | refine ite_spine ?_ ?_
    | refine ite_out ?_ ?_
    | (simp only [*, pulse_spine, wardenLost_spine, spine_mk, spine_eta, outSpine_next]; done)
    | split
    | (simp [*]; done)
    | simp only [*, pulse_spine, wardenLost_spine, spine_mk, spine_eta, outSpine_next]

@[simp] theorem execSealLockstepMismatch_spine {s0} : outSpine s0 (execSealLockstepMismatch s0) = s0.spine := by
  unfold execSealLockstepMismatch
  rw [outSpine_next]
  refine ite_spine rfl ?_
  extract_lets r _ a
  have ha : a.spine = s0.spine := rfl
  refine ite_spine ?_ (ite_spine ?_ ?_)
  · simp only [f4Outputs_spine, enterF4_spine, ha]
  · simp only [f4Outputs_spine, ha]
  · simp only [f2_spine, endBaySessions_spine]; exact ha

@[simp] theorem execSealRestartDone_spine {s0} : outSpine s0 (execSealRestartDone s0) = s0.spine := by
  unfold execSealRestartDone
  with_reducible repeat' first
    | assumption
    | rfl
    | rw [outSpine_next]
    | (extract_lets +onlyGivenNames y; clear_value y)
    | refine ite_spine ?_ ?_
    | refine ite_out ?_ ?_
    | (simp only [*, pulse_spine, spine_mk, spine_eta, outSpine_next]; done)
    | split
    | (simp [*]; done)
    | simp only [*, pulse_spine, spine_mk, spine_eta, outSpine_next]

end Sys2Proof.Machine
end

