-- ==== Sys2Proof/Laws/FrameD.lean ====
section
/-! SUPPORT. One frame lemma per operation that neither touches the queue of commands nor a phase of the kiln (part 4). -/

set_option linter.all false

namespace Sys2Proof.Machine

@[simp] theorem execVinRiseUvlo_spine {x1 s0} : outSpine s0 (execVinRiseUvlo x1 s0) = s0.spine := by
  unfold execVinRiseUvlo
  with_reducible repeat' first
    | assumption
    | rfl
    | rw [outSpine_next]
    | (extract_lets +onlyGivenNames y; clear_value y)
    | refine ite_spine ?_ ?_
    | refine ite_out ?_ ?_
    | (simp only [*, spine_mk, spine_eta, outSpine_next]; done)
    | split
    | (simp [*]; done)
    | simp only [*, spine_mk, spine_eta, outSpine_next]

@[simp] theorem execReverseInput_spine {x1 x2 s0} : outSpine s0 (execReverseInput x1 x2 s0) = s0.spine := by
  unfold execReverseInput
  with_reducible repeat' first
    | assumption
    | rfl
    | rw [outSpine_next]
    | (extract_lets +onlyGivenNames y; clear_value y)
    | refine ite_spine ?_ ?_
    | refine ite_out ?_ ?_
    | (simp only [*, spine_mk, spine_eta, outSpine_next]; done)
    | split
    | (simp [*]; done)
    | simp only [*, spine_mk, spine_eta, outSpine_next]

@[simp] theorem execVinHigh_spine {x1 s0} : outSpine s0 (execVinHigh x1 s0) = s0.spine := by
  unfold execVinHigh
  with_reducible repeat' first
    | assumption
    | rfl
    | rw [outSpine_next]
    | (extract_lets +onlyGivenNames y; clear_value y)
    | refine ite_spine ?_ ?_
    | refine ite_out ?_ ?_
    | (simp only [*, level_spine, spine_mk, spine_eta, outSpine_next]; done)
    | split
    | (simp [*]; done)
    | simp only [*, level_spine, spine_mk, spine_eta, outSpine_next]

@[simp] theorem execVinNearPf_spine {x1 s0} : outSpine s0 (execVinNearPf x1 s0) = s0.spine := by
  unfold execVinNearPf
  with_reducible repeat' first
    | assumption
    | rfl
    | rw [outSpine_next]
    | (extract_lets +onlyGivenNames y
       refine (show (y.spine = s0.spine → _) from fun h => ?_) ?_
       on_goal 1 => clear_value y
       on_goal 2 => (simp only [y]; try clear y))
    | (extract_lets +onlyGivenNames y; clear_value y)
    | refine ite_spine ?_ ?_
    | refine ite_out ?_ ?_
    | (simp only [*, resumeCopy_spine, level_spine, spine_mk, spine_eta, outSpine_next]; done)
    | split
    | (simp [*]; done)
    | simp only [*, resumeCopy_spine, level_spine, spine_mk, spine_eta, outSpine_next]

@[simp] theorem execSavedRestart_spine {x1 x2 x3 s0} : outSpine s0 (execSavedRestart x1 x2 x3 s0) = s0.spine := by
  unfold execSavedRestart
  with_reducible repeat' first
    | assumption
    | rfl
    | rw [outSpine_next]
    | (extract_lets +onlyGivenNames y; clear_value y)
    | refine ite_spine ?_ ?_
    | refine ite_out ?_ ?_
    | (simp only [*, spine_mk, spine_eta, outSpine_next]; done)
    | split
    | (simp [*]; done)
    | simp only [*, spine_mk, spine_eta, outSpine_next]

@[simp] theorem execBuckCurrentLimit_spine {x1 x2 s0} : outSpine s0 (execBuckCurrentLimit x1 x2 s0) = s0.spine := by
  unfold execBuckCurrentLimit
  with_reducible repeat' first
    | assumption
    | rfl
    | rw [outSpine_next]
    | (extract_lets +onlyGivenNames y
       refine (show (y.spine = s0.spine → _) from fun h => ?_) ?_
       on_goal 1 => clear_value y
       on_goal 2 => (simp only [y]; try clear y))
    | (extract_lets +onlyGivenNames y; clear_value y)
    | refine ite_spine ?_ ?_
    | refine ite_out ?_ ?_
    | (simp only [*, level_spine, spine_mk, spine_eta, outSpine_next]; done)
    | split
    | (simp [*]; done)
    | simp only [*, level_spine, spine_mk, spine_eta, outSpine_next]

@[simp] theorem execThermalLevel_spine {x1 s0} : outSpine s0 (execThermalLevel x1 s0) = s0.spine := by
  unfold execThermalLevel
  with_reducible repeat' first
    | assumption
    | rfl
    | rw [outSpine_next]
    | (extract_lets +onlyGivenNames y
       refine (show (y.spine = s0.spine → _) from fun h => ?_) ?_
       on_goal 1 => clear_value y
       on_goal 2 => (simp only [y]; try clear y))
    | (extract_lets +onlyGivenNames y; clear_value y)
    | refine ite_spine ?_ ?_
    | refine ite_out ?_ ?_
    | (simp only [*, level_spine, spine_mk, spine_eta, outSpine_next]; done)
    | split
    | (simp [*]; done)
    | simp only [*, level_spine, spine_mk, spine_eta, outSpine_next]

@[simp] theorem setIsland_spine {s0 x1 x2} : (State.setIsland s0 x1 x2).spine = s0.spine := by
  unfold State.setIsland
  simp only [spine_mk, spine_eta]

@[simp] theorem islandGone_spine {s0 x1} : (State.islandGone s0 x1).spine = s0.spine := by
  unfold State.islandGone
  with_reducible repeat' first
    | assumption
    | rfl
    | (extract_lets +onlyGivenNames y
       refine (show (y.spine = s0.spine → _) from fun h => ?_) ?_
       on_goal 1 => clear_value y
       on_goal 2 => (simp only [y]; try clear y))
    | (extract_lets +onlyGivenNames y
       have hk : Kiln.ph y = Kiln.ph (State.kiln _) := rfl
       clear_value y)
    | (extract_lets +onlyGivenNames y; clear_value y)
    | (refine (foldl_spine ?_).trans ?_; on_goal 1 => intro s0 _)
    | refine ite_spine ?_ ?_
    | (simp only [*, laneStop_spine, level_spine, setReady_spine, plcStop_spine, modRport_spine, spine_mk, spine_eta]; done)
    | split
    | (simp [*]; done)
    | simp only [*, laneStop_spine, level_spine, setReady_spine, plcStop_spine, modRport_spine, spine_mk, spine_eta]

@[simp] theorem islandBack_spine {s0 x1} : (State.islandBack s0 x1).spine = s0.spine := by
  unfold State.islandBack
  with_reducible repeat' first
    | assumption
    | rfl
    | (extract_lets +onlyGivenNames y; clear_value y)
    | refine ite_spine ?_ ?_
    | (simp only [*, modLane_spine, spine_mk, spine_eta]; done)
    | split
    | (simp [*]; done)
    | simp only [*, modLane_spine, spine_mk, spine_eta]

@[simp] theorem tileSupplyFault_spine {s0 x1 x2} : (State.tileSupplyFault s0 x1 x2).spine = s0.spine := by
  unfold State.tileSupplyFault
  with_reducible repeat' first
    | assumption
    | rfl
    | (extract_lets +onlyGivenNames y
       refine (show (y.spine = s0.spine → _) from fun h => ?_) ?_
       on_goal 1 => clear_value y
       on_goal 2 => (simp only [y]; try clear y))
    | (extract_lets +onlyGivenNames y; clear_value y)
    | refine ite_spine ?_ ?_
    | (simp only [*, replaceRebuilding_spine, vote_spine, rejectJoining_spine, startSubst_spine, f2_spine, fence_spine, tileLevelsNow_spine, tryBonds_spine, tilesSettle_spine, modTile_spine, spine_mk, spine_eta]; done)
    | split
    | (simp [*]; done)
    | simp only [*, replaceRebuilding_spine, vote_spine, rejectJoining_spine, startSubst_spine, f2_spine, fence_spine, tileLevelsNow_spine, tryBonds_spine, tilesSettle_spine, modTile_spine, spine_mk, spine_eta]

@[simp] theorem holdCourse_spine {s0 x1} : (State.holdCourse s0 x1).spine = s0.spine := by
  unfold State.holdCourse
  simp only [setReady_spine, spine_mk, spine_eta]

@[simp] theorem supplyFault_spine {s0 x1} : (State.supplyFault s0 x1).spine = s0.spine := by
  unfold State.supplyFault
  with_reducible repeat' first
    | assumption
    | rfl
    | (extract_lets +onlyGivenNames y
       refine (show (y.spine = s0.spine → _) from fun h => ?_) ?_
       on_goal 1 => clear_value y
       on_goal 2 => (simp only [y]; try clear y))
    | (extract_lets +onlyGivenNames y; clear_value y)
    | refine ite_spine ?_ ?_
    | (simp only [*, level_spine, pulse_spine, setIsland_spine, tileSupplyFault_spine, holdCourse_spine, enterF4_spine, islandGone_spine, spine_mk, spine_eta]; done)
    | split
    | (simp [*]; done)
    | simp only [*, level_spine, pulse_spine, setIsland_spine, tileSupplyFault_spine, holdCourse_spine, enterF4_spine, islandGone_spine, spine_mk, spine_eta]

@[simp] theorem execIslandSupplyFault_spine {x1 s0} : outSpine s0 (execIslandSupplyFault x1 s0) = s0.spine := by
  unfold execIslandSupplyFault
  with_reducible repeat' first
    | assumption
    | rfl
    | rw [outSpine_next]
    | refine ite_spine ?_ ?_
    | refine ite_out ?_ ?_
    | (simp only [*, supplyFault_spine, spine_mk, spine_eta, outSpine_next]; done)
    | split
    | (simp [*]; done)
    | simp only [*, supplyFault_spine, spine_mk, spine_eta, outSpine_next]

@[simp] theorem islandReturns_spine {s0 x1} : (State.islandReturns s0 x1).spine = s0.spine := by
  unfold State.islandReturns
  with_reducible repeat' first
    | assumption
    | rfl
    | (extract_lets +onlyGivenNames y
       refine (show (y.spine = s0.spine → _) from fun h => ?_) ?_
       on_goal 1 => clear_value y
       on_goal 2 => (simp only [y]; try clear y))
    | (extract_lets +onlyGivenNames y; clear_value y)
    | refine ite_spine ?_ ?_
    | (simp only [*, level_spine, setIsland_spine, flickerCourse_spine, startCourse_spine, islandBack_spine, spine_mk, spine_eta]; done)
    | split
    | (simp [*]; done)
    | simp only [*, level_spine, setIsland_spine, flickerCourse_spine, startCourse_spine, islandBack_spine, spine_mk, spine_eta]

@[simp] theorem execIslandSwitchRetry_spine {x1 x2 s0} : outSpine s0 (execIslandSwitchRetry x1 x2 s0) = s0.spine := by
  unfold execIslandSwitchRetry
  with_reducible repeat' first
    | assumption
    | rfl
    | rw [outSpine_next]
    | refine ite_spine ?_ ?_
    | refine ite_out ?_ ?_
    | (simp only [*, islandReturns_spine, supplyFault_spine, setIsland_spine, spine_mk, spine_eta, outSpine_next]; done)
    | split
    | (simp [*]; done)
    | simp only [*, islandReturns_spine, supplyFault_spine, setIsland_spine, spine_mk, spine_eta, outSpine_next]

@[simp] theorem tilePower_spine {s0 x1 x2} : (State.tilePower s0 x1 x2).spine = s0.spine := by
  unfold State.tilePower
  with_reducible repeat' first
    | assumption
    | rfl
    | (extract_lets +onlyGivenNames y
       refine (show (y.spine = s0.spine → _) from fun h => ?_) ?_
       on_goal 1 => clear_value y
       on_goal 2 => (simp only [y]; try clear y))
    | (extract_lets +onlyGivenNames y; clear_value y)
    | refine ite_spine ?_ ?_
    | (simp only [*, modTile_spine, setIsland_spine, tileLevelsNow_spine, tilesSettle_spine, tryBonds_spine, spine_mk, spine_eta]; done)
    | split
    | (simp [*]; done)
    | simp only [*, modTile_spine, setIsland_spine, tileLevelsNow_spine, tilesSettle_spine, tryBonds_spine, spine_mk, spine_eta]

@[simp] theorem linkPower_spine {s0 x1 x2} : (State.linkPower s0 x1 x2).spine = s0.spine := by
  unfold State.linkPower
  with_reducible repeat' first
    | assumption
    | rfl
    | (extract_lets +onlyGivenNames y
       refine (show (y.spine = s0.spine → _) from fun h => ?_) ?_
       on_goal 1 => clear_value y
       on_goal 2 => (simp only [y]; try clear y))
    | (extract_lets +onlyGivenNames y; clear_value y)
    | refine ite_spine ?_ ?_
    | (simp only [*, setIsland_spine, islandBack_spine, islandGone_spine, spine_mk, spine_eta]; done)
    | split
    | (simp [*]; done)
    | simp only [*, setIsland_spine, islandBack_spine, islandGone_spine, spine_mk, spine_eta]

@[simp] theorem islandPowerBody_spine {x1 x2 s0} : (islandPowerBody x1 x2 s0).1.spine = s0.spine := by
  unfold islandPowerBody
  with_reducible repeat' first
    | assumption
    | rfl
    | (extract_lets +onlyGivenNames y
       refine (show (y.spine = s0.spine → _) from fun h => ?_) ?_
       on_goal 1 => clear_value y
       on_goal 2 => (simp only [y]; try clear y))
    | (extract_lets +onlyGivenNames y
       refine (show (y.1.spine = s0.spine → _) from fun h => ?_) ?_
       on_goal 1 => clear_value y
       on_goal 2 => (simp only [y]; try clear y))
    | (extract_lets +onlyGivenNames y; clear_value y)
    | (refine fixedBody_spine ?_; intro _ _ s0)
    | refine ite_spine ?_ ?_
    | refine ite_fst ?_ ?_
    | (simp only [*, fixedBody_spine, pulse_spine, tilePower_spine, linkPower_spine, spine_mk, spine_eta]; done)
    | (split <;> (try (rename_i q; obtain ⟨q1, q2⟩ := Prod.ext_iff.mp q; simp only at q1 q2; subst q1 q2)))
    | (simp [*]; done)
    | simp only [*, fixedBody_spine, pulse_spine, tilePower_spine, linkPower_spine, spine_mk, spine_eta]

@[simp] theorem execIslandPower_spine {x1 s0} : outSpine s0 (execIslandPower x1 s0) = s0.spine := by
  unfold execIslandPower
  with_reducible repeat' first
    | assumption
    | rfl
    | rw [outSpine_next]
    | (simp only [*, command_spine, islandPowerBody_spine, spine_mk, spine_eta, outSpine_next]; done)
    | (split <;> (try (rename_i q; obtain ⟨q1, q2⟩ := Prod.ext_iff.mp q; simp only at q1 q2; subst q1 q2)))
    | (simp [*]; done)
    | simp only [*, command_spine, islandPowerBody_spine, spine_mk, spine_eta, outSpine_next]

@[simp] theorem haltKiln_spine {s0} : (State.haltKiln s0).spine = s0.spine := by
  unfold State.haltKiln
  simp only [spine_mk, spine_eta]

@[simp] theorem returnSlot_spine {s0} : (State.returnSlot s0).spine = s0.spine := by
  unfold State.returnSlot
  simp only [report_spine, writeHeader_spine, spine_mk, spine_eta]

@[simp] theorem bootSlot_spine {s0 x1} : (State.bootSlot s0 x1).1.spine = s0.spine := by
  unfold State.bootSlot
  with_reducible repeat' first
    | assumption
    | rfl
    | (extract_lets +onlyGivenNames y
       refine (show (y.spine = s0.spine → _) from fun h => ?_) ?_
       on_goal 1 => clear_value y
       on_goal 2 => (simp only [y]; try clear y))
    | (extract_lets +onlyGivenNames y; clear_value y)
    | refine ite_spine ?_ ?_
    | refine ite_fst ?_ ?_
    | (simp only [*, returnSlot_spine, spine_mk, spine_eta]; done)
    | split
    | (simp [*]; done)
    | simp only [*, returnSlot_spine, spine_mk, spine_eta]

@[simp] theorem bist_spine {s0 x1} : (State.bist s0 x1).spine = s0.spine := by
  unfold State.bist
  simp only [spine_mk, spine_eta]

@[simp] theorem journalScan_spine {s0} : (State.journalScan s0).spine = s0.spine := by
  unfold State.journalScan
  with_reducible repeat' first
    | assumption
    | rfl
    | (extract_lets +onlyGivenNames y
       refine (show (y.spine = s0.spine → _) from fun h => ?_) ?_
       on_goal 1 => clear_value y
       on_goal 2 => (simp only [y]; try clear y))
    | (extract_lets +onlyGivenNames y; clear_value y)
    | refine ite_spine ?_ ?_
    | (simp only [*, report_spine, spine_mk, spine_eta]; done)
    | split
    | (simp [*]; done)
    | simp only [*, report_spine, spine_mk, spine_eta]

@[simp] theorem k1Cores_spine {s0 x1} : (State.k1Cores s0 x1).spine = s0.spine := by
  unfold State.k1Cores
  with_reducible repeat' first
    | assumption
    | rfl
    | (extract_lets +onlyGivenNames y
       refine (show (y.spine = s0.spine → _) from fun h => ?_) ?_
       on_goal 1 => clear_value y
       on_goal 2 => (simp only [y]; try clear y))
    | (extract_lets +onlyGivenNames y
       have hk : Kiln.ph y = Kiln.ph (State.kiln _) := rfl
       clear_value y)
    | (extract_lets +onlyGivenNames y; clear_value y)
    | (refine (foldl_spine ?_).trans ?_; on_goal 1 => intro s0 _)
    | refine ite_spine ?_ ?_
    | (simp only [*, wardenLost_spine, asidePairs_spine, bist_spine, spine_mk, spine_eta]; done)
    | split
    | (simp [*]; done)
    | simp only [*, wardenLost_spine, asidePairs_spine, bist_spine, spine_mk, spine_eta]

@[simp] theorem k1Flash_spine {s0 x1} : (State.k1Flash s0 x1).spine = s0.spine := by
  unfold State.k1Flash
  with_reducible repeat' first
    | assumption
    | rfl
    | (extract_lets +onlyGivenNames y
       refine (show (y.spine = s0.spine → _) from fun h => ?_) ?_
       on_goal 1 => clear_value y
       on_goal 2 => (simp only [y]; try clear y))
    | (extract_lets +onlyGivenNames y; clear_value y)
    | (simp only [*, level_spine, setReady_spine, spine_mk, spine_eta]; done)
    | split
    | (simp [*]; done)
    | simp only [*, level_spine, setReady_spine, spine_mk, spine_eta]

@[simp] theorem startLevels_spine {s0} : (State.startLevels s0).spine = s0.spine := by
  unfold State.startLevels
  simp only [identityLevel_spine, level_spine, spine_mk, spine_eta]

@[simp] theorem execTestWindowCheck_spine {x1 s0} : outSpine s0 (execTestWindowCheck x1 s0) = s0.spine := by
  unfold execTestWindowCheck
  with_reducible repeat' first
    | assumption
    | rfl
    | rw [outSpine_next]
    | (extract_lets +onlyGivenNames y
       refine (show (y.spine = s0.spine → _) from fun h => ?_) ?_
       on_goal 1 => clear_value y
       on_goal 2 => (simp only [y]; try clear y))
    | (extract_lets +onlyGivenNames y
       have hk : Kiln.ph y = Kiln.ph (State.kiln _) := rfl
       clear_value y)
    | (extract_lets +onlyGivenNames y; clear_value y)
    | refine ite_spine ?_ ?_
    | refine ite_out ?_ ?_
    | (simp only [*, leaveF4_spine, enterF4_spine, spine_mk, spine_eta, outSpine_next]; done)
    | split
    | (simp [*]; done)
    | simp only [*, leaveF4_spine, enterF4_spine, spine_mk, spine_eta, outSpine_next]

@[simp] theorem placeIndex_spine {s0} : (State.placeIndex s0).spine = s0.spine := by
  unfold State.placeIndex
  simp only [spine_mk, spine_eta]

@[simp] theorem frontTests_spine {s0 x1 x2} : (State.frontTests s0 x1 x2).spine = s0.spine := by
  unfold State.frontTests
  with_reducible repeat' first
    | assumption
    | rfl
    | (extract_lets +onlyGivenNames y
       refine (show (y.spine = s0.spine → _) from fun h => ?_) ?_
       on_goal 1 => clear_value y
       on_goal 2 => (simp only [y]; try clear y))
    | (extract_lets +onlyGivenNames y
       have hk : Kiln.ph y = Kiln.ph (State.kiln _) := rfl
       clear_value y)
    | (extract_lets +onlyGivenNames y; clear_value y)
    | (refine (foldl_spine ?_).trans ?_; on_goal 1 => intro s0 _)
    | (simp only [*, f2_spine, modChan_spine, footingFail_spine, spine_mk, spine_eta]; done)
    | split
    | (simp [*]; done)
    | simp only [*, f2_spine, modChan_spine, footingFail_spine, spine_mk, spine_eta]

@[simp] theorem startCourses_spine {s0} : (State.startCourses s0).spine = s0.spine := by
  unfold State.startCourses
  with_reducible repeat' first
    | assumption
    | rfl
    | (extract_lets +onlyGivenNames y
       refine (show (y.spine = s0.spine → _) from fun h => ?_) ?_
       on_goal 1 => clear_value y
       on_goal 2 => (simp only [y]; try clear y))
    | (extract_lets +onlyGivenNames y; clear_value y)
    | (refine (foldl_spine ?_).trans ?_; on_goal 1 => intro s0 _)
    | (simp only [*, flickerCourse_spine, startCourse_spine, startDetector_spine, spine_mk, spine_eta]; done)
    | split
    | (simp [*]; done)
    | simp only [*, flickerCourse_spine, startCourse_spine, startDetector_spine, spine_mk, spine_eta]

@[simp] theorem countGap_spine {s0} : (State.countGap s0).spine = s0.spine := by
  unfold State.countGap
  with_reducible repeat' first
    | assumption
    | rfl
    | (extract_lets +onlyGivenNames y
       refine (show (y.spine = s0.spine → _) from fun h => ?_) ?_
       on_goal 1 => clear_value y
       on_goal 2 => (simp only [y]; try clear y))
    | (extract_lets +onlyGivenNames y
       refine (show (y.2.spine = s0.spine → _) from fun h => ?_) ?_
       on_goal 1 => clear_value y
       on_goal 2 => (simp only [y]; try clear y))
    | (extract_lets +onlyGivenNames y; clear_value y)
    | refine ite_spine ?_ ?_
    | (simp only [*, draw_spine, spine_mk, spine_eta]; done)
    | (split <;> (try (rename_i q; obtain ⟨q1, q2⟩ := Prod.ext_iff.mp q; simp only at q1 q2; subst q1 q2)))
    | (simp [*]; done)
    | simp only [*, draw_spine, spine_mk, spine_eta]

@[simp] theorem beginMp_spine {s0 x1} : (State.beginMp s0 x1).spine = s0.spine := by
  unfold State.beginMp
  simp only [modMpAcc_spine, modBmp_spine, openInterval_spine, spine_mk, spine_eta]

@[simp] theorem footingReady_spine {s0 x1} : (State.footingReady s0 x1).spine = s0.spine := by
  unfold State.footingReady
  with_reducible repeat' first
    | assumption
    | rfl
    | (extract_lets +onlyGivenNames y
       refine (show (y.spine = s0.spine → _) from fun h => ?_) ?_
       on_goal 1 => clear_value y
       on_goal 2 => (simp only [y]; try clear y))
    | (extract_lets +onlyGivenNames y
       have hk : Kiln.ph y = Kiln.ph (State.kiln _) := rfl
       clear_value y)
    | (extract_lets +onlyGivenNames y; clear_value y)
    | (refine (foldl_spine ?_).trans ?_; on_goal 1 => intro s0 _)
    | refine ite_spine ?_ ?_
    | (simp only [*, setReady_spine, beginMp_spine, countGap_spine, spine_mk, spine_eta]; done)
    | split
    | (simp [*]; done)
    | simp only [*, setReady_spine, beginMp_spine, countGap_spine, spine_mk, spine_eta]

@[simp] theorem tileGroupTested_spine {s0 x1 x2 x3} : (State.tileGroupTested s0 x1 x2 x3).spine = s0.spine := by
  unfold State.tileGroupTested
  with_reducible repeat' first
    | assumption
    | rfl
    | (extract_lets +onlyGivenNames y
       refine (show (y.spine = s0.spine → _) from fun h => ?_) ?_
       on_goal 1 => clear_value y
       on_goal 2 => (simp only [y]; try clear y))
    | (extract_lets +onlyGivenNames y
       have hk : Kiln.ph y = Kiln.ph (State.kiln _) := rfl
       clear_value y)
    | (extract_lets +onlyGivenNames y; clear_value y)
    | (refine (foldl_spine ?_).trans ?_; on_goal 1 => intro s0 _)
    | (simp only [*, modTile_spine, fillBonds_spine, tileLevelsNow_spine, bist_spine, spine_mk, spine_eta]; done)
    | split
    | (simp [*]; done)
    | simp only [*, modTile_spine, fillBonds_spine, tileLevelsNow_spine, bist_spine, spine_mk, spine_eta]

@[simp] theorem portsReady_spine {s0} : (State.portsReady s0).spine = s0.spine := by
  unfold State.portsReady
  simp only [rpReady_spine, setReady_spine, spine_mk, spine_eta]

@[simp] theorem sliceEnd_spine {s0 x1 x2 x3 x4} : (State.sliceEnd s0 x1 x2 x3 x4).spine = s0.spine := by
  unfold State.sliceEnd
  with_reducible repeat' first
    | assumption
    | rfl
    | (extract_lets +onlyGivenNames y
       refine (show (y.spine = s0.spine → _) from fun h => ?_) ?_
       on_goal 1 => clear_value y
       on_goal 2 => (simp only [y]; try clear y))
    | (extract_lets +onlyGivenNames y
       have hk : Kiln.ph y = Kiln.ph (State.kiln _) := rfl
       clear_value y)
    | (extract_lets +onlyGivenNames y; clear_value y)
    | refine ite_spine ?_ ?_
    | (simp only [*, bist_spine, f2_spine, setReady_spine, portsReady_spine, spine_mk, spine_eta]; done)
    | split
    | (simp [*]; done)
    | simp only [*, bist_spine, f2_spine, setReady_spine, portsReady_spine, spine_mk, spine_eta]

@[simp] theorem dramHit_spine {s0 x1 x2} : (State.dramHit s0 x1 x2).spine = s0.spine := by
  unfold State.dramHit
  with_reducible repeat' first
    | assumption
    | rfl
    | (extract_lets +onlyGivenNames y
       refine (show (y.spine = s0.spine → _) from fun h => ?_) ?_
       on_goal 1 => clear_value y
       on_goal 2 => (simp only [y]; try clear y))
    | (extract_lets +onlyGivenNames y
       have hk : Kiln.ph y = Kiln.ph (State.kiln _) := rfl
       clear_value y)
    | (extract_lets +onlyGivenNames y; clear_value y)
    | refine ite_spine ?_ ?_
    | (simp only [*, f1_spine, f0_spine, f2_spine, spine_mk, spine_eta]; done)
    | split
    | (simp [*]; done)
    | simp only [*, f1_spine, f0_spine, f2_spine, spine_mk, spine_eta]

@[simp] theorem execDramScrub_spine {x1 s0} : outSpine s0 (execDramScrub x1 s0) = s0.spine := by
  unfold execDramScrub
  with_reducible repeat' first
    | assumption
    | rfl
    | rw [outSpine_next]
    | (extract_lets +onlyGivenNames y
       refine (show (y.spine = s0.spine → _) from fun h => ?_) ?_
       on_goal 1 => clear_value y
       on_goal 2 => (simp only [y]; try clear y))
    | (extract_lets +onlyGivenNames y
       have hk : Kiln.ph y = Kiln.ph (State.kiln _) := rfl
       clear_value y)
    | (extract_lets +onlyGivenNames y; clear_value y)
    | (refine (foldl_spine ?_).trans ?_; on_goal 1 => intro s0 _)
    | refine ite_spine ?_ ?_
    | refine ite_out ?_ ?_
    | (simp only [*, dramHit_spine, spine_mk, spine_eta, outSpine_next]; done)
    | split
    | (simp [*]; done)
    | simp only [*, dramHit_spine, spine_mk, spine_eta, outSpine_next]

@[simp] theorem releaseHeld6_spine {s0} : (State.releaseHeld6 s0).spine = s0.spine := by
  unfold State.releaseHeld6
  with_reducible repeat' first
    | assumption
    | rfl
    | (extract_lets +onlyGivenNames y
       refine (show (y.spine = s0.spine → _) from fun h => ?_) ?_
       on_goal 1 => clear_value y
       on_goal 2 => (simp only [y]; try clear y))
    | (extract_lets +onlyGivenNames y
       have hk : Kiln.ph y = Kiln.ph (State.kiln _) := rfl
       clear_value y)
    | (extract_lets +onlyGivenNames y; clear_value y)
    | (refine (foldl_spine ?_).trans ?_; on_goal 1 => intro s0 _)
    | refine ite_spine ?_ ?_
    | (simp only [*, deliver_spine, pulse_spine, spine_mk, spine_eta]; done)
    | split
    | (simp [*]; done)
    | simp only [*, deliver_spine, pulse_spine, spine_mk, spine_eta]

@[simp] theorem confirmTrial_spine {s0} : (State.confirmTrial s0).spine = s0.spine := by
  unfold State.confirmTrial
  with_reducible repeat' first
    | assumption
    | rfl
    | (extract_lets +onlyGivenNames y
       refine (show (y.spine = s0.spine → _) from fun h => ?_) ?_
       on_goal 1 => clear_value y
       on_goal 2 => (simp only [y]; try clear y))
    | (extract_lets +onlyGivenNames y; clear_value y)
    | refine ite_spine ?_ ?_
    | (simp only [*, writeHeader_spine, spine_mk, spine_eta]; done)
    | split
    | (simp [*]; done)
    | simp only [*, writeHeader_spine, spine_mk, spine_eta]

@[simp] theorem startLinks_spine {s0} : (State.startLinks s0).spine = s0.spine := by
  unfold State.startLinks
  with_reducible repeat' first
    | assumption
    | rfl
    | (extract_lets +onlyGivenNames y
       refine (show (y.spine = s0.spine → _) from fun h => ?_) ?_
       on_goal 1 => clear_value y
       on_goal 2 => (simp only [y]; try clear y))
    | (extract_lets +onlyGivenNames y
       have hk : Kiln.ph y = Kiln.ph (State.kiln _) := rfl
       clear_value y)
    | (extract_lets +onlyGivenNames y; clear_value y)
    | (refine (foldl_spine ?_).trans ?_; on_goal 1 => intro s0 _)
    | refine ite_spine ?_ ?_
    | (simp only [*, laneLevels_spine, modLane_spine, level_spine, mirrorLevel_spine, repoll_spine, portsReady_spine, spine_mk, spine_eta]; done)
    | split
    | (simp [*]; done)
    | simp only [*, laneLevels_spine, modLane_spine, level_spine, mirrorLevel_spine, repoll_spine, portsReady_spine, spine_mk, spine_eta]

@[simp] theorem diagBistReportBody_spine {x1 x2 s0} : (diagBistReportBody x1 x2 s0).1.spine = s0.spine := by
  unfold diagBistReportBody
  with_reducible repeat' first
    | assumption
    | rfl
    | (refine fixedBody_spine ?_; intro _ _ s0)
    | (simp only [*, fixedBody_spine, readBody_spine, spine_mk, spine_eta]; done)
    | (split <;> (try (rename_i q; obtain ⟨q1, q2⟩ := Prod.ext_iff.mp q; simp only at q1 q2; subst q1 q2)))
    | (simp [*]; done)
    | simp only [*, fixedBody_spine, readBody_spine, spine_mk, spine_eta]

@[simp] theorem execDiagBistReport_spine {x1 s0} : outSpine s0 (execDiagBistReport x1 s0) = s0.spine := by
  unfold execDiagBistReport
  with_reducible repeat' first
    | assumption
    | rfl
    | rw [outSpine_next]
    | (simp only [*, command_spine, diagBistReportBody_spine, spine_mk, spine_eta, outSpine_next]; done)
    | (split <;> (try (rename_i q; obtain ⟨q1, q2⟩ := Prod.ext_iff.mp q; simp only at q1 q2; subst q1 q2)))
    | (simp [*]; done)
    | simp only [*, command_spine, diagBistReportBody_spine, spine_mk, spine_eta, outSpine_next]

@[simp] theorem gave_spine {s0 x1} : (State.gave s0 x1).spine = s0.spine := by
  unfold State.gave
  simp only [spine_mk, spine_eta]

@[simp] theorem clearRc_spine {s0 x1 x2} : (State.clearRc s0 x1 x2).spine = s0.spine := by
  unfold State.clearRc
  with_reducible repeat' first
    | assumption
    | rfl
    | (extract_lets +onlyGivenNames y; clear_value y)
    | refine ite_spine ?_ ?_
    | (simp only [*, modWin_spine, spine_mk, spine_eta]; done)
    | split
    | (simp [*]; done)
    | simp only [*, modWin_spine, spine_mk, spine_eta]

@[simp] theorem execRegRcRead_spine {x1 x2 s0} : outSpine s0 (execRegRcRead x1 x2 s0) = s0.spine := by
  unfold execRegRcRead
  with_reducible repeat' first
    | assumption
    | rfl
    | rw [outSpine_next]
    | refine ite_spine ?_ ?_
    | refine ite_out ?_ ?_
    | (simp only [*, clearRc_spine, gave_spine, spine_mk, spine_eta, outSpine_next]; done)
    | split
    | (simp [*]; done)
    | simp only [*, clearRc_spine, gave_spine, spine_mk, spine_eta, outSpine_next]

@[simp] theorem execRegLowWordRead_spine {x1 x2 s0} : outSpine s0 (execRegLowWordRead x1 x2 s0) = s0.spine := by
  unfold execRegLowWordRead
  with_reducible repeat' first
    | assumption
    | rfl
    | rw [outSpine_next]
    | (extract_lets +onlyGivenNames y
       refine (show (y.spine = s0.spine → _) from fun h => ?_) ?_
       on_goal 1 => clear_value y
       on_goal 2 => (simp only [y]; try clear y))
    | (extract_lets +onlyGivenNames y; clear_value y)
    | refine ite_spine ?_ ?_
    | refine ite_out ?_ ?_
    | (simp only [*, gave_spine, modWin_spine, spine_mk, spine_eta, outSpine_next]; done)
    | split
    | (simp [*]; done)
    | simp only [*, gave_spine, modWin_spine, spine_mk, spine_eta, outSpine_next]

@[simp] theorem execSystemTimeRead_spine {x1 s0} : outSpine s0 (execSystemTimeRead x1 s0) = s0.spine := by
  unfold execSystemTimeRead
  with_reducible repeat' first
    | assumption
    | rfl
    | rw [outSpine_next]
    | (extract_lets +onlyGivenNames y; clear_value y)
    | refine ite_spine ?_ ?_
    | refine ite_out ?_ ?_
    | (simp only [*, modWin_spine, gave_spine, spine_mk, spine_eta, outSpine_next]; done)
    | split
    | (simp [*]; done)
    | simp only [*, modWin_spine, gave_spine, spine_mk, spine_eta, outSpine_next]

@[simp] theorem execRtcSecRead_spine {x1 s0} : outSpine s0 (execRtcSecRead x1 s0) = s0.spine := by
  unfold execRtcSecRead
  with_reducible repeat' first
    | assumption
    | rfl
    | rw [outSpine_next]
    | refine ite_spine ?_ ?_
    | refine ite_out ?_ ?_
    | (simp only [*, rtcLatch_spine, gave_spine, spine_mk, spine_eta, outSpine_next]; done)
    | split
    | (simp [*]; done)
    | simp only [*, rtcLatch_spine, gave_spine, spine_mk, spine_eta, outSpine_next]

@[simp] theorem execRtcHalt_spine {x1 s0} : outSpine s0 (execRtcHalt x1 s0) = s0.spine := by
  unfold execRtcHalt
  with_reducible repeat' first
    | assumption
    | rfl
    | rw [outSpine_next]
    | refine ite_spine ?_ ?_
    | refine ite_out ?_ ?_
    | (simp only [*, rtcHalt_spine, spine_mk, spine_eta, outSpine_next]; done)
    | split
    | (simp [*]; done)
    | simp only [*, rtcHalt_spine, spine_mk, spine_eta, outSpine_next]

@[simp] theorem execRtcRelease_spine {x1 s0} : outSpine s0 (execRtcRelease x1 s0) = s0.spine := by
  unfold execRtcRelease
  with_reducible repeat' first
    | assumption
    | rfl
    | rw [outSpine_next]
    | refine ite_spine ?_ ?_
    | refine ite_out ?_ ?_
    | (simp only [*, rtcRelease_spine, spine_mk, spine_eta, outSpine_next]; done)
    | split
    | (simp [*]; done)
    | simp only [*, rtcRelease_spine, spine_mk, spine_eta, outSpine_next]

@[simp] theorem execRtcCounterWrite_spine {x1 x2 x3 s0} : outSpine s0 (execRtcCounterWrite x1 x2 x3 s0) = s0.spine := by
  unfold execRtcCounterWrite
  with_reducible repeat' first
    | assumption
    | rfl
    | rw [outSpine_next]
    | refine ite_spine ?_ ?_
    | refine ite_out ?_ ?_
    | (simp only [*, rtcCounterWrite_spine, spine_mk, spine_eta, outSpine_next]; done)
    | split
    | (simp [*]; done)
    | simp only [*, rtcCounterWrite_spine, spine_mk, spine_eta, outSpine_next]

@[simp] theorem execRtcTrimWrite_spine {x1 x2 s0} : outSpine s0 (execRtcTrimWrite x1 x2 s0) = s0.spine := by
  unfold execRtcTrimWrite
  with_reducible repeat' first
    | assumption
    | rfl
    | rw [outSpine_next]
    | refine ite_spine ?_ ?_
    | refine ite_out ?_ ?_
    | (simp only [*, rtcTrimWrite_spine, spine_mk, spine_eta, outSpine_next]; done)
    | split
    | (simp [*]; done)
    | simp only [*, rtcTrimWrite_spine, spine_mk, spine_eta, outSpine_next]

@[simp] theorem avLatch_spine {s0 x1} : (State.avLatch s0 x1).spine = s0.spine := by
  unfold State.avLatch
  simp only [modWin_spine, spine_mk, spine_eta]

@[simp] theorem execAvLatch_spine {x1 s0} : outSpine s0 (execAvLatch x1 s0) = s0.spine := by
  unfold execAvLatch
  with_reducible repeat' first
    | assumption
    | rfl
    | rw [outSpine_next]
    | refine ite_spine ?_ ?_
    | refine ite_out ?_ ?_
    | (simp only [*, avLatch_spine, spine_mk, spine_eta, outSpine_next]; done)
    | split
    | (simp [*]; done)
    | simp only [*, avLatch_spine, spine_mk, spine_eta, outSpine_next]

@[simp] theorem rtcCtlWrite_spine {s0 x1 x2} : (State.rtcCtlWrite s0 x1 x2).spine = s0.spine := by
  unfold State.rtcCtlWrite
  with_reducible repeat' first
    | assumption
    | rfl
    | (extract_lets +onlyGivenNames y
       refine (show (y.spine = s0.spine → _) from fun h => ?_) ?_
       on_goal 1 => clear_value y
       on_goal 2 => (simp only [y]; try clear y))
    | (extract_lets +onlyGivenNames y; clear_value y)
    | refine ite_spine ?_ ?_
    | (simp only [*, rtcHalt_spine, rtcRelease_spine, spine_mk, spine_eta]; done)
    | split
    | (simp [*]; done)
    | simp only [*, rtcHalt_spine, rtcRelease_spine, spine_mk, spine_eta]

@[simp] theorem rtcWrite_spine {s0 x1 x2 x3} : (State.rtcWrite s0 x1 x2 x3).spine = s0.spine := by
  unfold State.rtcWrite
  with_reducible repeat' first
    | assumption
    | rfl
    | (extract_lets +onlyGivenNames y; clear_value y)
    | refine ite_spine ?_ ?_
    | (simp only [*, rtcReject_spine, rtcCounterWrite_spine, rtcCtlWrite_spine, rtcTrimWrite_spine, spine_mk, spine_eta]; done)
    | split
    | (simp [*]; done)
    | simp only [*, rtcReject_spine, rtcCounterWrite_spine, rtcCtlWrite_spine, rtcTrimWrite_spine, spine_mk, spine_eta]

@[simp] theorem qpWrite_spine {s0 x1 x2 x3 x4} : (State.qpWrite s0 x1 x2 x3 x4).spine = s0.spine := by
  unfold State.qpWrite
  extract_lets setup
  have hs : ∀ g, (setup g).spine = s0.spine := fun g => ite_spine rfl modQp_spine
  clear_value setup
  split
  · exact hs _
  · exact hs _
  · exact hs _
  · exact hs _
  · exact hs _
  · exact ite_spine qpEnable_spine qpDisable_spine
  · exact sqDoorbell_spine
  · exact cqDoorbell_spine
  · rfl

@[simp] theorem msixWrite_spine {s0 x1 x2 x3} : (State.msixWrite s0 x1 x2 x3).spine = s0.spine := by
  unfold State.msixWrite
  with_reducible repeat' first
    | assumption
    | rfl
    | (extract_lets +onlyGivenNames y
       refine (show (y.spine = s0.spine → _) from fun h => ?_) ?_
       on_goal 1 => clear_value y
       on_goal 2 => (simp only [y]; try clear y))
    | (extract_lets +onlyGivenNames y; clear_value y)
    | refine ite_spine ?_ ?_
    | (simp only [*, modWin_spine, raise_spine, spine_mk, spine_eta]; done)
    | split
    | (simp [*]; done)
    | simp only [*, modWin_spine, raise_spine, spine_mk, spine_eta]

@[simp] theorem regWrite_spine {s0 x1 x2 x3} : (State.regWrite s0 x1 x2 x3).spine = s0.spine := by
  unfold State.regWrite
  with_reducible repeat' first
    | assumption
    | rfl
    | (extract_lets +onlyGivenNames y; clear_value y)
    | refine ite_spine ?_ ?_
    | (simp only [*, rtcWrite_spine, avLatch_spine, qpWrite_spine, modEv_spine, msixWrite_spine, spine_mk, spine_eta]; done)
    | split
    | (simp [*]; done)
    | simp only [*, rtcWrite_spine, avLatch_spine, qpWrite_spine, modEv_spine, msixWrite_spine, spine_mk, spine_eta]

@[simp] theorem execRegWritePlain_spine {x1 x2 x3 s0} : outSpine s0 (execRegWritePlain x1 x2 x3 s0) = s0.spine := by
  unfold execRegWritePlain
  simp only [regWrite_spine, spine_mk, spine_eta, outSpine_next]

@[simp] theorem execSpiRegRead_spine {x1 x2 s0} : outSpine s0 (execSpiRegRead x1 x2 s0) = s0.spine := by
  unfold execSpiRegRead
  with_reducible repeat' first
    | assumption
    | rfl
    | rw [outSpine_next]
    | (extract_lets +onlyGivenNames y
       refine (show (y.spine = s0.spine → _) from fun h => ?_) ?_
       on_goal 1 => clear_value y
       on_goal 2 => (simp only [y]; try clear y))
    | (extract_lets +onlyGivenNames y; clear_value y)
    | (refine (foldl_spine ?_).trans ?_; on_goal 1 => intro s0 _)
    | refine ite_spine ?_ ?_
    | refine ite_out ?_ ?_
    | (simp only [*, spiFirst_spine, gave_spine, rtcLatch_spine, clearRc_spine, spine_mk, spine_eta, outSpine_next]; done)
    | split
    | (simp [*]; done)
    | simp only [*, spiFirst_spine, gave_spine, rtcLatch_spine, clearRc_spine, spine_mk, spine_eta, outSpine_next]

@[simp] theorem execSpiRegWrite_spine {x1 s0} : outSpine s0 (execSpiRegWrite x1 s0) = s0.spine := by
  unfold execSpiRegWrite
  with_reducible repeat' first
    | assumption
    | rfl
    | rw [outSpine_next]
    | (extract_lets +onlyGivenNames y
       refine (show (y.spine = s0.spine → _) from fun h => ?_) ?_
       on_goal 1 => clear_value y
       on_goal 2 => (simp only [y]; try clear y))
    | (extract_lets +onlyGivenNames y; clear_value y)
    | (refine (foldl_spine ?_).trans ?_; on_goal 1 => intro s0 _)
    | refine ite_spine ?_ ?_
    | refine ite_out ?_ ?_
    | (simp only [*, spiFirst_spine, regWrite_spine, spine_mk, spine_eta, outSpine_next]; done)
    | split
    | (simp [*]; done)
    | simp only [*, spiFirst_spine, regWrite_spine, spine_mk, spine_eta, outSpine_next]

@[simp] theorem cfgEditBody_spine {x1 x2 s0} : (cfgEditBody x1 x2 s0).1.spine = s0.spine := by
  unfold cfgEditBody
  with_reducible repeat' first
    | assumption
    | rfl
    | (extract_lets +onlyGivenNames y
       refine (show (y.spine = s0.spine → _) from fun h => ?_) ?_
       on_goal 1 => clear_value y
       on_goal 2 => (simp only [y]; try clear y))
    | (extract_lets +onlyGivenNames y; clear_value y)
    | (refine (foldl_spine ?_).trans ?_; on_goal 1 => intro s0 _)
    | refine ite_spine ?_ ?_
    | refine ite_fst ?_ ?_
    | (simp only [*, spine_mk, spine_eta]; done)
    | split
    | (simp [*]; done)
    | simp only [*, spine_mk, spine_eta]

@[simp] theorem execCfgEdit_spine {x1 s0} : outSpine s0 (execCfgEdit x1 s0) = s0.spine := by
  unfold execCfgEdit
  with_reducible repeat' first
    | assumption
    | rfl
    | rw [outSpine_next]
    | (simp only [*, command_spine, cfgEditBody_spine, spine_mk, spine_eta, outSpine_next]; done)
    | (split <;> (try (rename_i q; obtain ⟨q1, q2⟩ := Prod.ext_iff.mp q; simp only at q1 q2; subst q1 q2)))
    | (simp [*]; done)
    | simp only [*, command_spine, cfgEditBody_spine, spine_mk, spine_eta, outSpine_next]

@[simp] theorem cfgReadBody_spine {x1 x2 s0} : (cfgReadBody x1 x2 s0).1.spine = s0.spine := by
  unfold cfgReadBody
  with_reducible repeat' first
    | assumption
    | rfl
    | (extract_lets +onlyGivenNames y
       refine (show (y.spine = s0.spine → _) from fun h => ?_) ?_
       on_goal 1 => clear_value y
       on_goal 2 => (simp only [y]; try clear y))
    | (extract_lets +onlyGivenNames y; clear_value y)
    | refine ite_spine ?_ ?_
    | refine ite_fst ?_ ?_
    | (simp only [*, spine_mk, spine_eta]; done)
    | split
    | (simp [*]; done)
    | simp only [*, spine_mk, spine_eta]

@[simp] theorem execCfgRead_spine {x1 s0} : outSpine s0 (execCfgRead x1 s0) = s0.spine := by
  unfold execCfgRead
  with_reducible repeat' first
    | assumption
    | rfl
    | rw [outSpine_next]
    | (simp only [*, command_spine, cfgReadBody_spine, spine_mk, spine_eta, outSpine_next]; done)
    | (split <;> (try (rename_i q; obtain ⟨q1, q2⟩ := Prod.ext_iff.mp q; simp only at q1 q2; subst q1 q2)))
    | (simp [*]; done)
    | simp only [*, command_spine, cfgReadBody_spine, spine_mk, spine_eta, outSpine_next]

@[simp] theorem cfgCopyBody_spine {x1 x2 s0} : (cfgCopyBody x1 x2 s0).1.spine = s0.spine := by
  unfold cfgCopyBody
  with_reducible repeat' first
    | assumption
    | rfl
    | (extract_lets +onlyGivenNames y
       refine (show (y.spine = s0.spine → _) from fun h => ?_) ?_
       on_goal 1 => clear_value y
       on_goal 2 => (simp only [y]; try clear y))
    | (extract_lets +onlyGivenNames y
       refine (show (y.1.spine = s0.spine → _) from fun h => ?_) ?_
       on_goal 1 => clear_value y
       on_goal 2 => (simp only [y]; try clear y))
    | (extract_lets +onlyGivenNames y; clear_value y)
    | (refine fixedBody_spine ?_; intro _ _ s0)
    | refine ite_spine ?_ ?_
    | refine ite_fst ?_ ?_
    | (simp only [*, fixedBody_spine, spine_mk, spine_eta]; done)
    | (split <;> (try (rename_i q; obtain ⟨q1, q2⟩ := Prod.ext_iff.mp q; simp only at q1 q2; subst q1 q2)))
    | (simp [*]; done)
    | simp only [*, fixedBody_spine, spine_mk, spine_eta]

@[simp] theorem execCfgCopy_spine {x1 s0} : outSpine s0 (execCfgCopy x1 s0) = s0.spine := by
  unfold execCfgCopy
  with_reducible repeat' first
    | assumption
    | rfl
    | rw [outSpine_next]
    | (simp only [*, command_spine, cfgCopyBody_spine, spine_mk, spine_eta, outSpine_next]; done)
    | (split <;> (try (rename_i q; obtain ⟨q1, q2⟩ := Prod.ext_iff.mp q; simp only at q1 q2; subst q1 q2)))
    | (simp [*]; done)
    | simp only [*, command_spine, cfgCopyBody_spine, spine_mk, spine_eta, outSpine_next]

@[simp] theorem cfgSwapBody_spine {x1 x2 s0} : (cfgSwapBody x1 x2 s0).1.spine = s0.spine := by
  unfold cfgSwapBody
  with_reducible repeat' first
    | assumption
    | rfl
    | (extract_lets +onlyGivenNames y
       refine (show (y.spine = s0.spine → _) from fun h => ?_) ?_
       on_goal 1 => clear_value y
       on_goal 2 => (simp only [y]; try clear y))
    | (extract_lets +onlyGivenNames y
       refine (show (y.1.spine = s0.spine → _) from fun h => ?_) ?_
       on_goal 1 => clear_value y
       on_goal 2 => (simp only [y]; try clear y))
    | (extract_lets +onlyGivenNames y; clear_value y)
    | (refine fixedBody_spine ?_; intro _ _ s0)
    | refine ite_spine ?_ ?_
    | refine ite_fst ?_ ?_
    | (simp only [*, fixedBody_spine, journalAdd_spine, spine_mk, spine_eta]; done)
    | (split <;> (try (rename_i q; obtain ⟨q1, q2⟩ := Prod.ext_iff.mp q; simp only at q1 q2; subst q1 q2)))
    | (simp [*]; done)
    | simp only [*, fixedBody_spine, journalAdd_spine, spine_mk, spine_eta]

@[simp] theorem execCfgSwap_spine {x1 s0} : outSpine s0 (execCfgSwap x1 s0) = s0.spine := by
  unfold execCfgSwap
  with_reducible repeat' first
    | assumption
    | rfl
    | rw [outSpine_next]
    | (simp only [*, command_spine, cfgSwapBody_spine, spine_mk, spine_eta, outSpine_next]; done)
    | (split <;> (try (rename_i q; obtain ⟨q1, q2⟩ := Prod.ext_iff.mp q; simp only at q1 q2; subst q1 q2)))
    | (simp [*]; done)
    | simp only [*, command_spine, cfgSwapBody_spine, spine_mk, spine_eta, outSpine_next]

@[simp] theorem cfgStatusBody_spine {x1 x2 s0} : (cfgStatusBody x1 x2 s0).1.spine = s0.spine := by
  unfold cfgStatusBody
  with_reducible repeat' first
    | assumption
    | rfl
    | (extract_lets +onlyGivenNames y
       refine (show (y.spine = s0.spine → _) from fun h => ?_) ?_
       on_goal 1 => clear_value y
       on_goal 2 => (simp only [y]; try clear y))
    | (extract_lets +onlyGivenNames y
       refine (show (y.1.spine = s0.spine → _) from fun h => ?_) ?_
       on_goal 1 => clear_value y
       on_goal 2 => (simp only [y]; try clear y))
    | (extract_lets +onlyGivenNames y; clear_value y)
    | (refine fixedBody_spine ?_; intro _ _ s0)
    | (simp only [*, fixedBody_spine, readBody_spine, spine_mk, spine_eta]; done)
    | (split <;> (try (rename_i q; obtain ⟨q1, q2⟩ := Prod.ext_iff.mp q; simp only at q1 q2; subst q1 q2)))
    | (simp [*]; done)
    | simp only [*, fixedBody_spine, readBody_spine, spine_mk, spine_eta]

@[simp] theorem execCfgStatus_spine {x1 s0} : outSpine s0 (execCfgStatus x1 s0) = s0.spine := by
  unfold execCfgStatus
  with_reducible repeat' first
    | assumption
    | rfl
    | rw [outSpine_next]
    | (simp only [*, command_spine, cfgStatusBody_spine, spine_mk, spine_eta, outSpine_next]; done)
    | (split <;> (try (rename_i q; obtain ⟨q1, q2⟩ := Prod.ext_iff.mp q; simp only at q1 q2; subst q1 q2)))
    | (simp [*]; done)
    | simp only [*, command_spine, cfgStatusBody_spine, spine_mk, spine_eta, outSpine_next]

@[simp] theorem cfgCancelBody_spine {x1 x2 s0} : (cfgCancelBody x1 x2 s0).1.spine = s0.spine := by
  unfold cfgCancelBody
  with_reducible repeat' first
    | assumption
    | rfl
    | (extract_lets +onlyGivenNames y
       refine (show (y.spine = s0.spine → _) from fun h => ?_) ?_
       on_goal 1 => clear_value y
       on_goal 2 => (simp only [y]; try clear y))
    | (extract_lets +onlyGivenNames y
       refine (show (y.2.spine = s0.spine → _) from fun h => ?_) ?_
       on_goal 1 => clear_value y
       on_goal 2 => (simp only [y]; try clear y))
    | (extract_lets +onlyGivenNames y
       refine (show (y.1.spine = s0.spine → _) from fun h => ?_) ?_
       on_goal 1 => clear_value y
       on_goal 2 => (simp only [y]; try clear y))
    | (extract_lets +onlyGivenNames y; clear_value y)
    | (refine fixedBody_spine ?_; intro _ _ s0)
    | refine ite_spine ?_ ?_
    | refine ite_fst ?_ ?_
    | (simp only [*, fixedBody_spine, roFollow_spine, pulse_spine, draw_spine, finishKind_spine, spine_mk, spine_eta]; done)
    | (split <;> (try (rename_i q; obtain ⟨q1, q2⟩ := Prod.ext_iff.mp q; simp only at q1 q2; subst q1 q2)))
    | (simp [*]; done)
    | simp only [*, fixedBody_spine, roFollow_spine, pulse_spine, draw_spine, finishKind_spine, spine_mk, spine_eta]

@[simp] theorem execCfgCancel_spine {x1 s0} : outSpine s0 (execCfgCancel x1 s0) = s0.spine := by
  unfold execCfgCancel
  with_reducible repeat' first
    | assumption
    | rfl
    | rw [outSpine_next]
    | (simp only [*, command_spine, cfgCancelBody_spine, spine_mk, spine_eta, outSpine_next]; done)
    | (split <;> (try (rename_i q; obtain ⟨q1, q2⟩ := Prod.ext_iff.mp q; simp only at q1 q2; subst q1 q2)))
    | (simp [*]; done)
    | simp only [*, command_spine, cfgCancelBody_spine, spine_mk, spine_eta, outSpine_next]

@[simp] theorem lateCrossing_spine {s0 x1 x2} : (State.lateCrossing s0 x1 x2).spine = s0.spine := by
  unfold State.lateCrossing
  with_reducible repeat' first
    | assumption
    | rfl
    | (extract_lets +onlyGivenNames y
       refine (show (y.spine = s0.spine → _) from fun h => ?_) ?_
       on_goal 1 => clear_value y
       on_goal 2 => (simp only [y]; try clear y))
    | (extract_lets +onlyGivenNames y; clear_value y)
    | refine ite_spine ?_ ?_
    | (simp only [*, boundaryNow_spine, spine_mk, spine_eta]; done)
    | split
    | (simp [*]; done)
    | simp only [*, boundaryNow_spine, spine_mk, spine_eta]

@[simp] theorem swapWindow_spine {s0 x1 x2} : (State.swapWindow s0 x1 x2).spine = s0.spine := by
  unfold State.swapWindow
  with_reducible repeat' first
    | assumption
    | rfl
    | (extract_lets +onlyGivenNames y
       refine (show (y.spine = s0.spine → _) from fun h => ?_) ?_
       on_goal 1 => clear_value y
       on_goal 2 => (simp only [y]; try clear y))
    | (extract_lets +onlyGivenNames y; clear_value y)
    | refine ite_spine ?_ ?_
    | (simp only [*, closeWindow_spine, spine_mk, spine_eta]; done)
    | split
    | (simp [*]; done)
    | simp only [*, closeWindow_spine, spine_mk, spine_eta]

@[simp] theorem swapRecords_spine {s0 x1 x2} : (State.swapRecords s0 x1 x2).spine = s0.spine := by
  unfold State.swapRecords
  with_reducible repeat' first
    | assumption
    | rfl
    | (extract_lets +onlyGivenNames y
       refine (show (y.spine = s0.spine → _) from fun h => ?_) ?_
       on_goal 1 => clear_value y
       on_goal 2 => (simp only [y]; try clear y))
    | (extract_lets +onlyGivenNames y; clear_value y)
    | refine ite_spine ?_ ?_
    | (simp only [*, pqClose_spine, spine_mk, spine_eta]; done)
    | split
    | (simp [*]; done)
    | simp only [*, pqClose_spine, spine_mk, spine_eta]

@[simp] theorem swapTransfer_spine {s0 x1 x2} : (State.swapTransfer s0 x1 x2).spine = s0.spine := by
  unfold State.swapTransfer
  with_reducible repeat' first
    | assumption
    | rfl
    | (extract_lets +onlyGivenNames y
       refine (show (y.spine = s0.spine → _) from fun h => ?_) ?_
       on_goal 1 => clear_value y
       on_goal 2 => (simp only [y]; try clear y))
    | (extract_lets +onlyGivenNames y; clear_value y)
    | refine ite_spine ?_ ?_
    | (simp only [*, transferMp_spine, settle_spine, pushEnd_spine, spine_mk, spine_eta]; done)
    | split
    | (simp [*]; done)
    | simp only [*, transferMp_spine, settle_spine, pushEnd_spine, spine_mk, spine_eta]

@[simp] theorem swapCloses_spine {s0 x1 x2} : (State.swapCloses s0 x1 x2).spine = s0.spine := by
  unfold State.swapCloses
  with_reducible repeat' first
    | assumption
    | rfl
    | (extract_lets +onlyGivenNames y
       refine (show (y.spine = s0.spine → _) from fun h => ?_) ?_
       on_goal 1 => clear_value y
       on_goal 2 => (simp only [y]; try clear y))
    | (extract_lets +onlyGivenNames y; clear_value y)
    | (refine (foldl_spine ?_).trans ?_; on_goal 1 => intro s0 _)
    | refine ite_spine ?_ ?_
    | (simp only [*, lateCrossing_spine, settleAll_spine, profGridEnd_spine, swapRecords_spine, swapWindow_spine, swapTransfer_spine, spine_mk, spine_eta]; done)
    | split
    | (simp [*]; done)
    | simp only [*, lateCrossing_spine, settleAll_spine, profGridEnd_spine, swapRecords_spine, swapWindow_spine, swapTransfer_spine, spine_mk, spine_eta]

@[simp] theorem swapPulse_spine {s0 x1 x2} : (State.swapPulse s0 x1 x2).spine = s0.spine := by
  unfold State.swapPulse
  with_reducible repeat' first
    | assumption
    | rfl
    | (extract_lets +onlyGivenNames y
       refine (show (y.spine = s0.spine → _) from fun h => ?_) ?_
       on_goal 1 => clear_value y
       on_goal 2 => (simp only [y]; try clear y))
    | (extract_lets +onlyGivenNames y; clear_value y)
    | refine ite_spine ?_ ?_
    | (simp only [*, modGen_spine, drivePulse_spine, level_spine, spine_mk, spine_eta]; done)
    | split
    | (simp [*]; done)
    | simp only [*, modGen_spine, drivePulse_spine, level_spine, spine_mk, spine_eta]

@[simp] theorem swapDi_spine {s0 x1 x2} : (State.swapDi s0 x1 x2).spine = s0.spine := by
  unfold State.swapDi
  with_reducible repeat' first
    | assumption
    | rfl
    | (extract_lets +onlyGivenNames y; clear_value y)
    | (refine (foldl_spine ?_).trans ?_; on_goal 1 => intro s0 _)
    | refine ite_spine ?_ ?_
    | (simp only [*, diLatch_spine, level_spine, modDi_spine, spine_mk, spine_eta]; done)
    | split
    | (simp [*]; done)
    | simp only [*, diLatch_spine, level_spine, modDi_spine, spine_mk, spine_eta]

@[simp] theorem mark_spine {s0 x1 x2} : (State.mark s0 x1 x2).spine = s0.spine := by
  unfold State.mark
  simp only [modCourse_spine, spine_mk, spine_eta]

@[simp] theorem swapCourse_spine {s0 x1 x2} : (State.swapCourse s0 x1 x2).spine = s0.spine := by
  unfold State.swapCourse
  with_reducible repeat' first
    | assumption
    | rfl
    | (extract_lets +onlyGivenNames y
       refine (show (y.spine = s0.spine → _) from fun h => ?_) ?_
       on_goal 1 => clear_value y
       on_goal 2 => (simp only [y]; try clear y))
    | (extract_lets +onlyGivenNames y; clear_value y)
    | refine ite_spine ?_ ?_
    | (simp only [*, bondOn_spine, mark_spine, startCourse_spine, setReady_spine, bondOff_spine, stopCourse_spine, unlatch_spine, spine_mk, spine_eta]; done)
    | split
    | (simp [*]; done)
    | simp only [*, bondOn_spine, mark_spine, startCourse_spine, setReady_spine, bondOff_spine, stopCourse_spine, unlatch_spine, spine_mk, spine_eta]

@[simp] theorem swapCopy_spine {s0 x1} : (State.swapCopy s0 x1).spine = s0.spine := by
  unfold State.swapCopy
  with_reducible repeat' first
    | assumption
    | rfl
    | refine ite_spine ?_ ?_
    | (simp only [*, modMclk_spine, spine_mk, spine_eta]; done)
    | split
    | (simp [*]; done)
    | simp only [*, modMclk_spine, spine_mk, spine_eta]

@[simp] theorem tcKeep_spine {s0 x1 x2} : (State.tcKeep s0 x1 x2).spine = s0.spine := by
  unfold State.tcKeep
  simp only [setTc_spine, spine_mk, spine_eta]

@[simp] theorem swapChannel_spine {s0 x1 x2} : (State.swapChannel s0 x1 x2).spine = s0.spine := by
  unfold State.swapChannel
  with_reducible repeat' first
    | assumption
    | rfl
    | (extract_lets +onlyGivenNames y
       refine (show (y.spine = s0.spine → _) from fun h => ?_) ?_
       on_goal 1 => clear_value y
       on_goal 2 => (simp only [y]; try clear y))
    | (extract_lets +onlyGivenNames y; clear_value y)
    | refine ite_spine ?_ ?_
    | (simp only [*, level_spine, modChan_spine, setTc_spine, tcApply_spine, tcKeep_spine, spine_mk, spine_eta]; done)
    | split
    | (simp [*]; done)
    | simp only [*, level_spine, modChan_spine, setTc_spine, tcApply_spine, tcKeep_spine, spine_mk, spine_eta]

@[simp] theorem swapCurrent_spine {s0 x1 x2} : (State.swapCurrent s0 x1 x2).spine = s0.spine := by
  unfold State.swapCurrent
  with_reducible repeat' first
    | assumption
    | rfl
    | (extract_lets +onlyGivenNames y
       refine (show (y.spine = s0.spine → _) from fun h => ?_) ?_
       on_goal 1 => clear_value y
       on_goal 2 => (simp only [y]; try clear y))
    | (extract_lets +onlyGivenNames y; clear_value y)
    | refine ite_spine ?_ ?_
    | (simp only [*, modChm_spine, level_spine, spine_mk, spine_eta]; done)
    | split
    | (simp [*]; done)
    | simp only [*, modChm_spine, level_spine, spine_mk, spine_eta]

@[simp] theorem swapVset_spine {s0 x1 x2} : (State.swapVset s0 x1 x2).spine = s0.spine := by
  unfold State.swapVset
  with_reducible repeat' first
    | assumption
    | rfl
    | (extract_lets +onlyGivenNames y
       refine (show (y.spine = s0.spine → _) from fun h => ?_) ?_
       on_goal 1 => clear_value y
       on_goal 2 => (simp only [y]; try clear y))
    | (extract_lets +onlyGivenNames y; clear_value y)
    | refine ite_spine ?_ ?_
    | (simp only [*, modVs_spine, startDetector_spine, spine_mk, spine_eta]; done)
    | split
    | (simp [*]; done)
    | simp only [*, modVs_spine, startDetector_spine, spine_mk, spine_eta]

@[simp] theorem mpBegin_spine {s0 x1 x2} : (State.mpBegin s0 x1 x2).spine = s0.spine := by
  unfold State.mpBegin
  with_reducible repeat' first
    | assumption
    | rfl
    | (extract_lets +onlyGivenNames y
       refine (show (y.spine = s0.spine → _) from fun h => ?_) ?_
       on_goal 1 => clear_value y
       on_goal 2 => (simp only [y]; try clear y))
    | (extract_lets +onlyGivenNames y; clear_value y)
    | (refine (foldl_spine ?_).trans ?_; on_goal 1 => intro s0 _)
    | refine ite_spine ?_ ?_
    | (simp only [*, beginCreep_spine, modChm_spine, modElem_spine, modMpAcc_spine, openInterval_spine, modBmp_spine, spine_mk, spine_eta]; done)
    | split
    | (simp [*]; done)
    | simp only [*, beginCreep_spine, modChm_spine, modElem_spine, modMpAcc_spine, openInterval_spine, modBmp_spine, spine_mk, spine_eta]

@[simp] theorem mpEnd_spine {s0 x1} : (State.mpEnd s0 x1).spine = s0.spine := by
  unfold State.mpEnd
  with_reducible repeat' first
    | assumption
    | rfl
    | (extract_lets +onlyGivenNames y
       refine (show (y.spine = s0.spine → _) from fun h => ?_) ?_
       on_goal 1 => clear_value y
       on_goal 2 => (simp only [y]; try clear y))
    | (extract_lets +onlyGivenNames y; clear_value y)
    | (refine (foldl_spine ?_).trans ?_; on_goal 1 => intro s0 _)
    | (simp only [*, modMpAcc_spine, level_spine, spine_mk, spine_eta]; done)
    | split
    | (simp [*]; done)
    | simp only [*, modMpAcc_spine, level_spine, spine_mk, spine_eta]

@[simp] theorem swapMp_spine {s0 x1 x2} : (State.swapMp s0 x1 x2).spine = s0.spine := by
  unfold State.swapMp
  with_reducible repeat' first
    | assumption
    | rfl
    | (extract_lets +onlyGivenNames y
       refine (show (y.spine = s0.spine → _) from fun h => ?_) ?_
       on_goal 1 => clear_value y
       on_goal 2 => (simp only [y]; try clear y))
    | (extract_lets +onlyGivenNames y; clear_value y)
    | refine ite_spine ?_ ?_
    | (simp only [*, mpBegin_spine, level_spine, mpEnd_spine, spine_mk, spine_eta]; done)
    | split
    | (simp [*]; done)
    | simp only [*, mpBegin_spine, level_spine, mpEnd_spine, spine_mk, spine_eta]

@[simp] theorem swapSupply_spine {s0 x1 x2} : (State.swapSupply s0 x1 x2).spine = s0.spine := by
  unfold State.swapSupply
  with_reducible repeat' first
    | assumption
    | rfl
    | (extract_lets +onlyGivenNames y
       refine (show (y.spine = s0.spine → _) from fun h => ?_) ?_
       on_goal 1 => clear_value y
       on_goal 2 => (simp only [y]; try clear y))
    | (extract_lets +onlyGivenNames y; clear_value y)
    | refine ite_spine ?_ ?_
    | (simp only [*, decidePrepay_spine, spine_mk, spine_eta]; done)
    | split
    | (simp [*]; done)
    | simp only [*, decidePrepay_spine, spine_mk, spine_eta]

@[simp] theorem swapSliding_spine {s0 x1 x2} : (State.swapSliding s0 x1 x2).spine = s0.spine := by
  unfold State.swapSliding
  with_reducible repeat' first
    | assumption
    | rfl
    | (extract_lets +onlyGivenNames y
       refine (show (y.spine = s0.spine → _) from fun h => ?_) ?_
       on_goal 1 => clear_value y
       on_goal 2 => (simp only [y]; try clear y))
    | (extract_lets +onlyGivenNames y; clear_value y)
    | (refine (foldl_spine ?_).trans ?_; on_goal 1 => intro s0 _)
    | refine ite_spine ?_ ?_
    | (simp only [*, modPqc_spine, spine_mk, spine_eta]; done)
    | split
    | (simp [*]; done)
    | simp only [*, modPqc_spine, spine_mk, spine_eta]

@[simp] theorem swapPq_spine {s0 x1 x2} : (State.swapPq s0 x1 x2).spine = s0.spine := by
  unfold State.swapPq
  with_reducible repeat' first
    | assumption
    | rfl
    | (extract_lets +onlyGivenNames y
       refine (show (y.spine = s0.spine → _) from fun h => ?_) ?_
       on_goal 1 => clear_value y
       on_goal 2 => (simp only [y]; try clear y))
    | (extract_lets +onlyGivenNames y; clear_value y)
    | (refine (foldl_spine ?_).trans ?_; on_goal 1 => intro s0 _)
    | refine ite_spine ?_ ?_
    | (simp only [*, swapSliding_spine, level_spine, modPqc_spine, modMon_spine, flickerRestart_spine, spine_mk, spine_eta]; done)
    | split
    | (simp [*]; done)
    | simp only [*, swapSliding_spine, level_spine, modPqc_spine, modMon_spine, flickerRestart_spine, spine_mk, spine_eta]

@[simp] theorem swapPlc_spine {s0 x1} : (State.swapPlc s0 x1).spine = s0.spine := by
  unfold State.swapPlc
  with_reducible repeat' first
    | assumption
    | rfl
    | (extract_lets +onlyGivenNames y
       refine (show (y.spine = s0.spine → _) from fun h => ?_) ?_
       on_goal 1 => clear_value y
       on_goal 2 => (simp only [y]; try clear y))
    | (extract_lets +onlyGivenNames y
       have hk : Kiln.ph y = Kiln.ph (State.kiln _) := rfl
       clear_value y)
    | (extract_lets +onlyGivenNames y; clear_value y)
    | refine ite_spine ?_ ?_
    | (simp only [*, plcStop_spine, closeRound_spine, spine_mk, spine_eta]; done)
    | split
    | (simp [*]; done)
    | simp only [*, plcStop_spine, closeRound_spine, spine_mk, spine_eta]

@[simp] theorem swapRadio_spine {s0 x1 x2} : (State.swapRadio s0 x1 x2).spine = s0.spine := by
  unfold State.swapRadio
  with_reducible repeat' first
    | assumption
    | rfl
    | (extract_lets +onlyGivenNames y
       refine (show (y.spine = s0.spine → _) from fun h => ?_) ?_
       on_goal 1 => clear_value y
       on_goal 2 => (simp only [y]; try clear y))
    | (extract_lets +onlyGivenNames y; clear_value y)
    | refine ite_spine ?_ ?_
    | (simp only [*, rpNext_spine, modRport_spine, rpLevels_spine, spine_mk, spine_eta]; done)
    | split
    | (simp [*]; done)
    | simp only [*, rpNext_spine, modRport_spine, rpLevels_spine, spine_mk, spine_eta]

@[simp] theorem swapLane_spine {s0 x1 x2 x3} : (State.swapLane s0 x1 x2 x3).spine = s0.spine := by
  unfold State.swapLane
  with_reducible repeat' first
    | assumption
    | rfl
    | (extract_lets +onlyGivenNames y
       refine (show (y.spine = s0.spine → _) from fun h => ?_) ?_
       on_goal 1 => clear_value y
       on_goal 2 => (simp only [y]; try clear y))
    | (extract_lets +onlyGivenNames y; clear_value y)
    | refine ite_spine ?_ ?_
    | (simp only [*, laneStop_spine, laneLevels_spine, modLane_spine, spine_mk, spine_eta]; done)
    | split
    | (simp [*]; done)
    | simp only [*, laneStop_spine, laneLevels_spine, modLane_spine, spine_mk, spine_eta]

@[simp] theorem swapUplink_spine {s0 x1 x2} : (State.swapUplink s0 x1 x2).spine = s0.spine := by
  unfold State.swapUplink
  with_reducible repeat' first
    | assumption
    | rfl
    | (extract_lets +onlyGivenNames y
       refine (show (y.spine = s0.spine → _) from fun h => ?_) ?_
       on_goal 1 => clear_value y
       on_goal 2 => (simp only [y]; try clear y))
    | (extract_lets +onlyGivenNames y
       have hk : Kiln.ph y = Kiln.ph (State.kiln _) := rfl
       clear_value y)
    | (extract_lets +onlyGivenNames y; clear_value y)
    | refine ite_spine ?_ ?_
    | (simp only [*, level_spine, setReady_spine, spine_mk, spine_eta]; done)
    | split
    | (simp [*]; done)
    | simp only [*, level_spine, setReady_spine, spine_mk, spine_eta]

@[simp] theorem swapMeter_spine {s0 x1} : (State.swapMeter s0 x1).spine = s0.spine := by
  unfold State.swapMeter
  with_reducible repeat' first
    | assumption
    | rfl
    | (extract_lets +onlyGivenNames y
       refine (show (y.spine = s0.spine → _) from fun h => ?_) ?_
       on_goal 1 => clear_value y
       on_goal 2 => (simp only [y]; try clear y))
    | (extract_lets +onlyGivenNames y; clear_value y)
    | (refine (foldl_spine ?_).trans ?_; on_goal 1 => intro s0 _)
    | refine ite_spine ?_ ?_
    | (simp only [*, swapCourse_spine, swapCurrent_spine, swapChannel_spine, swapVset_spine, swapMp_spine, swapPq_spine, swapPulse_spine, swapDi_spine, driveContactor_spine, swapSupply_spine, rateChange_spine, tilesSettle_spine, spine_mk, spine_eta]; done)
    | split
    | (simp [*]; done)
    | simp only [*, swapCourse_spine, swapCurrent_spine, swapChannel_spine, swapVset_spine, swapMp_spine, swapPq_spine, swapPulse_spine, swapDi_spine, driveContactor_spine, swapSupply_spine, rateChange_spine, tilesSettle_spine, spine_mk, spine_eta]

@[simp] theorem swapOthers_spine {s0 x1 x2} : (State.swapOthers s0 x1 x2).spine = s0.spine := by
  unfold State.swapOthers
  with_reducible repeat' first
    | assumption
    | rfl
    | (extract_lets +onlyGivenNames y
       refine (show (y.spine = s0.spine → _) from fun h => ?_) ?_
       on_goal 1 => clear_value y
       on_goal 2 => (simp only [y]; try clear y))
    | (extract_lets +onlyGivenNames y
       have hk : Kiln.ph y = Kiln.ph (State.kiln _) := rfl
       clear_value y)
    | (extract_lets +onlyGivenNames y; clear_value y)
    | (refine (foldl_spine ?_).trans ?_; on_goal 1 => intro s0 _)
    | refine ite_spine ?_ ?_
    | (simp only [*, swapCopy_spine, auxSwap_spine, selectSource_spine, mainsRestart_spine, portsReady_spine, swapPlc_spine, rpReady_spine, swapRadio_spine, swapLane_spine, swapUplink_spine, mirrorLevel_spine, publishLcv_spine, spine_mk, spine_eta]; done)
    | split
    | (simp [*]; done)
    | simp only [*, swapCopy_spine, auxSwap_spine, selectSource_spine, mainsRestart_spine, portsReady_spine, swapPlc_spine, rpReady_spine, swapRadio_spine, swapLane_spine, swapUplink_spine, mirrorLevel_spine, publishLcv_spine, spine_mk, spine_eta]

@[simp] theorem swapDone_spine {s0 x1} : (State.swapDone s0 x1).spine = s0.spine := by
  unfold State.swapDone
  simp only [journalAdd_spine, roFollow_spine, pulse_spine, spine_mk, spine_eta]

@[simp] theorem swapNow_spine {s0 x1 x2} : (State.swapNow s0 x1 x2).spine = s0.spine := by
  unfold State.swapNow
  with_reducible repeat' first
    | assumption
    | rfl
    | (extract_lets +onlyGivenNames y
       refine (show (y.spine = s0.spine → _) from fun h => ?_) ?_
       on_goal 1 => clear_value y
       on_goal 2 => (simp only [y]; try clear y))
    | (extract_lets +onlyGivenNames y; clear_value y)
    | refine ite_spine ?_ ?_
    | (simp only [*, swapCloses_spine, swapMeter_spine, swapDone_spine, swapOthers_spine, spine_mk, spine_eta]; done)
    | split
    | (simp [*]; done)
    | simp only [*, swapCloses_spine, swapMeter_spine, swapDone_spine, swapOthers_spine, spine_mk, spine_eta]

@[simp] theorem execCfgSwapApply_spine {x1 s0} : outSpine s0 (execCfgSwapApply x1 s0) = s0.spine := by
  unfold execCfgSwapApply
  with_reducible repeat' first
    | assumption
    | rfl
    | rw [outSpine_next]
    | (extract_lets +onlyGivenNames y
       refine (show (y.spine = s0.spine → _) from fun h => ?_) ?_
       on_goal 1 => clear_value y
       on_goal 2 => (simp only [y]; try clear y))
    | (extract_lets +onlyGivenNames y; clear_value y)
    | refine ite_spine ?_ ?_
    | refine ite_out ?_ ?_
    | (simp only [*, atIndex_spine, swapNow_spine, finishKind_spine, spine_mk, spine_eta, outSpine_next]; done)
    | split
    | (simp [*]; done)
    | simp only [*, atIndex_spine, swapNow_spine, finishKind_spine, spine_mk, spine_eta, outSpine_next]

@[simp] theorem tick_spine {s0} : (State.tick s0).spine = s0.spine := by
  unfold State.tick
  simp only [spine_mk, spine_eta]

@[simp] theorem deadCourse_spine {s0 x1} : (State.deadCourse s0 x1).spine = s0.spine := by
  unfold State.deadCourse
  with_reducible repeat' first
    | assumption
    | rfl
    | (extract_lets +onlyGivenNames y; clear_value y)
    | (refine (foldl_spine ?_).trans ?_; on_goal 1 => intro s0 _)
    | (simp only [*, modChan_spine, spine_mk, spine_eta]; done)
    | split
    | (simp [*]; done)
    | simp only [*, modChan_spine, spine_mk, spine_eta]

@[simp] theorem marked_spine {s0 x1} : (State.marked s0 x1).spine = s0.spine := by
  unfold State.marked
  with_reducible repeat' first
    | assumption
    | rfl
    | (extract_lets +onlyGivenNames y
       refine (show (y.spine = s0.spine → _) from fun h => ?_) ?_
       on_goal 1 => clear_value y
       on_goal 2 => (simp only [y]; try clear y))
    | (extract_lets +onlyGivenNames y; clear_value y)
    | (refine (foldl_spine ?_).trans ?_; on_goal 1 => intro s0 _)
    | (simp only [*, modChan_spine, mark_spine, spine_mk, spine_eta]; done)
    | split
    | (simp [*]; done)
    | simp only [*, modChan_spine, mark_spine, spine_mk, spine_eta]

@[simp] theorem courseSample_spine {s0 x1 x2 x3} : (State.courseSample s0 x1 x2 x3).spine = s0.spine := by
  unfold State.courseSample
  with_reducible repeat' first
    | assumption
    | rfl
    | (extract_lets +onlyGivenNames y
       refine (show (y.spine = s0.spine → _) from fun h => ?_) ?_
       on_goal 1 => clear_value y
       on_goal 2 => (simp only [y]; try clear y))
    | (extract_lets +onlyGivenNames y; clear_value y)
    | (refine (foldl_spine ?_).trans ?_; on_goal 1 => intro s0 _)
    | refine ite_spine ?_ ?_
    | (simp only [*, deadCourse_spine, ownSample_spine, combineStreams_spine, marked_spine, spine_mk, spine_eta]; done)
    | split
    | (simp [*]; done)
    | simp only [*, deadCourse_spine, ownSample_spine, combineStreams_spine, marked_spine, spine_mk, spine_eta]

@[simp] theorem courseTotals_spine {s0 x1 x2 x3} : (State.courseTotals s0 x1 x2 x3).spine = s0.spine := by
  unfold State.courseTotals
  with_reducible repeat' first
    | assumption
    | rfl
    | (extract_lets +onlyGivenNames y
       refine (show (y.spine = s0.spine → _) from fun h => ?_) ?_
       on_goal 1 => clear_value y
       on_goal 2 => (simp only [y]; try clear y))
    | (extract_lets +onlyGivenNames y; clear_value y)
    | (refine (foldl_spine ?_).trans ?_; on_goal 1 => intro s0 _)
    | (simp only [*, pushChan_spine, pushDerived_spine, pushElem_spine, spine_mk, spine_eta]; done)
    | split
    | (simp [*]; done)
    | simp only [*, pushChan_spine, pushDerived_spine, pushElem_spine, spine_mk, spine_eta]

@[simp] theorem courseVote_spine {s0 x1 x2} : (State.courseVote s0 x1 x2).spine = s0.spine := by
  unfold State.courseVote
  with_reducible repeat' first
    | assumption
    | rfl
    | (extract_lets +onlyGivenNames y
       refine (show (y.spine = s0.spine → _) from fun h => ?_) ?_
       on_goal 1 => clear_value y
       on_goal 2 => (simp only [y]; try clear y))
    | (extract_lets +onlyGivenNames y; clear_value y)
    | refine ite_spine ?_ ?_
    | (simp only [*, footingFail_spine, vote_spine, spine_mk, spine_eta]; done)
    | split
    | (simp [*]; done)
    | simp only [*, footingFail_spine, vote_spine, spine_mk, spine_eta]

@[simp] theorem reactive_spine {s0} : (State.reactive s0).spine = s0.spine := by
  unfold State.reactive
  with_reducible repeat' first
    | assumption
    | rfl
    | (extract_lets +onlyGivenNames y
       refine (show (y.spine = s0.spine → _) from fun h => ?_) ?_
       on_goal 1 => clear_value y
       on_goal 2 => (simp only [y]; try clear y))
    | (extract_lets +onlyGivenNames y; clear_value y)
    | (refine (foldl_spine ?_).trans ?_; on_goal 1 => intro s0 _)
    | refine ite_spine ?_ ?_
    | (simp only [*, pushReactive_spine, pushTap_spine, spine_mk, spine_eta]; done)
    | split
    | (simp [*]; done)
    | simp only [*, pushReactive_spine, pushTap_spine, spine_mk, spine_eta]

@[simp] theorem detectors_spine {s0 x1 x2} : (State.detectors s0 x1 x2).spine = s0.spine := by
  unfold State.detectors
  with_reducible repeat' first
    | assumption
    | rfl
    | (refine (foldl_spine ?_).trans ?_; on_goal 1 => intro s0 _)
    | (simp only [*, zcSample_spine, spine_mk, spine_eta]; done)
    | split
    | (simp [*]; done)
    | simp only [*, zcSample_spine, spine_mk, spine_eta]

@[simp] theorem flickers_spine {s0} : (State.flickers s0).spine = s0.spine := by
  unfold State.flickers
  with_reducible repeat' first
    | assumption
    | rfl
    | (refine (foldl_spine ?_).trans ?_; on_goal 1 => intro s0 _)
    | (simp only [*, flicker_spine, spine_mk, spine_eta]; done)
    | split
    | (simp [*]; done)
    | simp only [*, flicker_spine, spine_mk, spine_eta]

@[simp] theorem intervalBits_spine {s0} : (State.intervalBits s0).spine = s0.spine := by
  unfold State.intervalBits
  with_reducible repeat' first
    | assumption
    | rfl
    | (extract_lets +onlyGivenNames y
       refine (show (y.spine = s0.spine → _) from fun h => ?_) ?_
       on_goal 1 => clear_value y
       on_goal 2 => (simp only [y]; try clear y))
    | (extract_lets +onlyGivenNames y; clear_value y)
    | (refine (foldl_spine ?_).trans ?_; on_goal 1 => intro s0 _)
    | refine ite_spine ?_ ?_
    | (simp only [*, markIntervals_spine, modBmp_spine, spine_mk, spine_eta]; done)
    | split
    | (simp [*]; done)
    | simp only [*, markIntervals_spine, modBmp_spine, spine_mk, spine_eta]

@[simp] theorem availLatch_spine {s0} : (State.availLatch s0).spine = s0.spine := by
  unfold State.availLatch
  simp only [spine_mk, spine_eta]

@[simp] theorem pulses_spine {s0} : (State.pulses s0).spine = s0.spine := by
  unfold State.pulses
  with_reducible repeat' first
    | assumption
    | rfl
    | (extract_lets +onlyGivenNames y
       refine (show (y.spine = s0.spine → _) from fun h => ?_) ?_
       on_goal 1 => clear_value y
       on_goal 2 => (simp only [y]; try clear y))
    | (extract_lets +onlyGivenNames y; clear_value y)
    | (refine (foldl_spine ?_).trans ?_; on_goal 1 => intro s0 _)
    | refine ite_spine ?_ ?_
    | (simp only [*, pulseStep_spine, spine_mk, spine_eta]; done)
    | split
    | (simp [*]; done)
    | simp only [*, pulseStep_spine, spine_mk, spine_eta]

@[simp] theorem firstSamples_spine {s0 x1} : (State.firstSamples s0 x1).spine = s0.spine := by
  unfold State.firstSamples
  with_reducible repeat' first
    | assumption
    | rfl
    | (extract_lets +onlyGivenNames y
       refine (show (y.spine = s0.spine → _) from fun h => ?_) ?_
       on_goal 1 => clear_value y
       on_goal 2 => (simp only [y]; try clear y))
    | (extract_lets +onlyGivenNames y; clear_value y)
    | (refine (foldl_spine ?_).trans ?_; on_goal 1 => intro s0 _)
    | (simp only [*, courseSample_spine, courseVote_spine, courseTotals_spine, flickers_spine, detectors_spine, reactive_spine, spine_mk, spine_eta]; done)
    | split
    | (simp [*]; done)
    | simp only [*, courseSample_spine, courseVote_spine, courseTotals_spine, flickers_spine, detectors_spine, reactive_spine, spine_mk, spine_eta]

@[simp] theorem secondSamples_spine {s0 x1} : (State.secondSamples s0 x1).spine = s0.spine := by
  unfold State.secondSamples
  with_reducible repeat' first
    | assumption
    | rfl
    | (extract_lets +onlyGivenNames y
       refine (show (y.spine = s0.spine → _) from fun h => ?_) ?_
       on_goal 1 => clear_value y
       on_goal 2 => (simp only [y]; try clear y))
    | (extract_lets +onlyGivenNames y; clear_value y)
    | (refine (foldl_spine ?_).trans ?_; on_goal 1 => intro s0 _)
    | (simp only [*, courseSample_spine, courseTotals_spine, detectors_spine, spine_mk, spine_eta]; done)
    | split
    | (simp [*]; done)
    | simp only [*, courseSample_spine, courseTotals_spine, detectors_spine, spine_mk, spine_eta]

@[simp] theorem execSampleBoundary_spine {x1 s0} : outSpine s0 (execSampleBoundary x1 s0) = s0.spine := by
  unfold execSampleBoundary
  with_reducible repeat' first
    | assumption
    | rfl
    | rw [outSpine_next]
    | (extract_lets +onlyGivenNames y
       refine (show (y.spine = s0.spine → _) from fun h => ?_) ?_
       on_goal 1 => clear_value y
       on_goal 2 => (simp only [y]; try clear y))
    | (extract_lets +onlyGivenNames y; clear_value y)
    | (refine (foldl_spine ?_).trans ?_; on_goal 1 => intro s0 _)
    | refine ite_spine ?_ ?_
    | refine ite_out ?_ ?_
    | (simp only [*, testsStart_spine, billsNow_spine, timeChanges_spine, tick_spine, readsLatch_spine, creepStarts_spine, secondSamples_spine, firstSamples_spine, tempMonitor_spine, conversion_spine, pulses_spine, readsPulses_spine, discTrack_spine, availLatch_spine, countIndex_spine, intervalBits_spine, presetsAtBoundary_spine, spine_mk, spine_eta, outSpine_next]; done)
    | split
    | (simp [*]; done)
    | simp only [*, testsStart_spine, billsNow_spine, timeChanges_spine, tick_spine, readsLatch_spine, creepStarts_spine, secondSamples_spine, firstSamples_spine, tempMonitor_spine, conversion_spine, pulses_spine, readsPulses_spine, discTrack_spine, availLatch_spine, countIndex_spine, intervalBits_spine, presetsAtBoundary_spine, spine_mk, spine_eta, outSpine_next]

@[simp] theorem execPolarityDwell_spine {x1 x2 s0} : outSpine s0 (execPolarityDwell x1 x2 s0) = s0.spine := by
  unfold execPolarityDwell
  with_reducible repeat' first
    | assumption
    | rfl
    | rw [outSpine_next]
    | (extract_lets +onlyGivenNames y
       refine (show (y.spine = s0.spine → _) from fun h => ?_) ?_
       on_goal 1 => clear_value y
       on_goal 2 => (simp only [y]; try clear y))
    | (extract_lets +onlyGivenNames y; clear_value y)
    | refine ite_spine ?_ ?_
    | refine ite_out ?_ ?_
    | (simp only [*, level_spine, modChan_spine, spine_mk, spine_eta, outSpine_next]; done)
    | split
    | (simp [*]; done)
    | simp only [*, level_spine, modChan_spine, spine_mk, spine_eta, outSpine_next]

@[simp] theorem streamBody_spine {x1 x2 x3 x4 s0} : (streamBody x1 x2 x3 x4 s0).1.spine = s0.spine := by
  unfold streamBody
  with_reducible repeat' first
    | assumption
    | rfl
    | refine ite_spine ?_ ?_
    | refine ite_fst ?_ ?_
    | (simp only [*, fwStageData_spine, pushData_spine, spine_mk, spine_eta]; done)
    | (split <;> (try (rename_i q; obtain ⟨q1, q2⟩ := Prod.ext_iff.mp q; simp only at q1 q2; subst q1 q2)))
    | (simp [*]; done)
    | simp only [*, fwStageData_spine, pushData_spine, spine_mk, spine_eta]

@[simp] theorem streamRun_spine {s0 x1 x2} : (State.streamRun s0 x1 x2).spine = s0.spine := by
  unfold State.streamRun
  extract_lets p a
  have ha : a.spine = s0.spine := setBusy_spine
  clear_value a
  have hb := (streamBody_spine (x1 := x1.entry.code) (x2 := x2) (x3 := a.ctx p) (x4 := p) (s0 := a)).trans ha
  split <;> rename_i q <;> rw [q] at hb <;> simpa using hb

@[simp] theorem endStalled_spine {s0 x1} : (State.endStalled s0 x1).spine = s0.spine := by
  unfold State.endStalled
  with_reducible repeat' first
    | assumption
    | rfl
    | (extract_lets +onlyGivenNames y; clear_value y)
    | refine ite_spine ?_ ?_
    | (simp only [*, finishHeld_spine, spine_mk, spine_eta]; done)
    | split
    | (simp [*]; done)
    | simp only [*, finishHeld_spine, spine_mk, spine_eta]

@[simp] theorem streamTake_spine {s0 x1 x2 x3 x4} : (State.streamTake s0 x1 x2 x3 x4).spine = s0.spine := by
  unfold State.streamTake
  with_reducible repeat' first
    | assumption
    | rfl
    | (extract_lets +onlyGivenNames y
       refine (show (y.spine = s0.spine → _) from fun h => ?_) ?_
       on_goal 1 => clear_value y
       on_goal 2 => (simp only [y]; try clear y))
    | (extract_lets +onlyGivenNames y; clear_value y)
    | refine ite_spine ?_ ?_
    | (simp only [*, streamRun_spine, setBusy_spine, spine_mk, spine_eta]; done)
    | split
    | (simp [*]; done)
    | simp only [*, streamRun_spine, setBusy_spine, spine_mk, spine_eta]

@[simp] theorem bulkDataBody_spine {x1 x2 s0} : (bulkDataBody x1 x2 s0).1.spine = s0.spine := by
  unfold bulkDataBody
  with_reducible repeat' first
    | assumption
    | rfl
    | (extract_lets +onlyGivenNames y
       refine (show (y.spine = s0.spine → _) from fun h => ?_) ?_
       on_goal 1 => clear_value y
       on_goal 2 => (simp only [y]; try clear y))
    | (extract_lets +onlyGivenNames y; clear_value y)
    | refine ite_spine ?_ ?_
    | refine ite_fst ?_ ?_
    | (simp only [*, endStalled_spine, streamTake_spine, spine_mk, spine_eta]; done)
    | split
    | (simp [*]; done)
    | simp only [*, endStalled_spine, streamTake_spine, spine_mk, spine_eta]

@[simp] theorem execBulkData_spine {x1 s0} : outSpine s0 (execBulkData x1 s0) = s0.spine := by
  unfold execBulkData
  with_reducible repeat' first
    | assumption
    | rfl
    | rw [outSpine_next]
    | (simp only [*, command_spine, bulkDataBody_spine, spine_mk, spine_eta, outSpine_next]; done)
    | (split <;> (try (rename_i q; obtain ⟨q1, q2⟩ := Prod.ext_iff.mp q; simp only at q1 q2; subst q1 q2)))
    | (simp [*]; done)
    | simp only [*, command_spine, bulkDataBody_spine, spine_mk, spine_eta, outSpine_next]

end Sys2Proof.Machine
end

