-- ==== Sys2Proof/Laws/Phases.lean ====
section
/-! SUPPORT. What the operations that open or complete a phase of the kiln, or end a run, keep: the queue, and the order of the phases. -/

set_option linter.all false

namespace Sys2Proof.Machine

/-- `t` has the queue of `s`, and its phases are in order if those of `s` are. -/
def Keeps (s t : State) : Prop := t.pending = s.pending ∧ (s.kiln.ph.ordered = true → t.kiln.ph.ordered = true)

theorem Keeps.refl (s : State) : Keeps s s := ⟨rfl, id⟩
theorem Keeps.trans {a b c : State} (h : Keeps a b) (k : Keeps b c) : Keeps a c := ⟨k.1.trans h.1, fun x => k.2 (h.2 x)⟩
theorem Keeps.of_spine {s t : State} (h : t.spine = s.spine) : Keeps s t := by
  unfold State.spine at h
  rw [Prod.mk.injEq] at h
  exact ⟨h.1, fun x => by rw [h.2]; exact x⟩
/-- The phases follow the projection. -/
theorem ph_of_spine {a b : State} (h : a.spine = b.spine) : a.kiln.ph = b.kiln.ph := congrArg Prod.snd h
theorem Keeps.then_spine {a s t : State} (k : Keeps a s) (h : t.spine = s.spine) : Keeps a t := k.trans (.of_spine h)
theorem Keeps.ite {a : State} {c : Prop} [Decidable c] {x y : State} (hx : c → Keeps a x) (hy : ¬c → Keeps a y) : Keeps a (if c then x else y) := by
  split <;> simp_all

/-- What an outcome keeps. -/
def OutKeeps (s : State) : Host.Outcome State Fault Refusal → Prop
  | .next t => Keeps s t
  | _ => True

theorem OutKeeps.of_spine {s : State} {o} (h : outSpine s o = s.spine) : OutKeeps s o := by
  cases o with
  | next t => exact Keeps.of_spine h
  | fault r => trivial
  | refused r => trivial

theorem OutKeeps.ite {a : State} {c : Prop} [Decidable c] {x y} (hx : c → OutKeeps a x) (hy : ¬c → OutKeeps a y) : OutKeeps a (if c then x else y) := by
  split <;> simp_all

theorem stopped_keeps {s} (x) : Keeps s (State.stopped s x) := by
  unfold State.stopped
  refine ⟨?_, fun _ => rfl⟩
  exact congrArg Prod.fst (swapAtStop_spine (s0 := s))

theorem startKiln_keeps {s m r} : Keeps s (State.startKiln s m r) := ⟨rfl, fun _ => rfl⟩

theorem ordered_k3 {p : Phases} (o : p.k3Open = true) (h : p.ordered = true) : ({ p with k3 := true } : Phases).ordered = true := by
  simp only [Phases.ordered] at *; grind
theorem ordered_undram {p : Phases} (h : p.ordered = true) : ({ p with dramTrained := false } : Phases).ordered = true := by
  simp only [Phases.ordered] at *; grind
theorem ordered_dram {p : Phases} (o : p.k5Open = true) (h : p.ordered = true) : ({ p with dramTrained := true } : Phases).ordered = true := by
  simp only [Phases.ordered] at *; grind
theorem ordered_k1 {p : Phases} (o : p.started = true) (h : p.ordered = true) : ({ p with k1 := true } : Phases).ordered = true := by
  simp only [Phases.ordered] at *; grind
theorem ordered_k1k2Open {p : Phases} (o : p.started = true) (h : p.ordered = true) : ({ p with k1 := true, k2Open := true } : Phases).ordered = true := by
  simp only [Phases.ordered] at *; grind
theorem ordered_k2 {p : Phases} (o : p.k2Open = true) (h : p.ordered = true) : ({ p with k2 := true } : Phases).ordered = true := by
  simp only [Phases.ordered] at *; grind
theorem ordered_k3Open {p : Phases} (o : p.k2 = true) (h : p.ordered = true) : ({ p with k3Open := true } : Phases).ordered = true := by
  simp only [Phases.ordered] at *; grind
theorem ordered_k4 {p : Phases} (o : p.k3Open = true) (h : p.ordered = true) : ({ p with k4 := true } : Phases).ordered = true := by
  simp only [Phases.ordered] at *; grind
theorem ordered_k5Open {p : Phases} (o : p.k4 = true) (h : p.ordered = true) : ({ p with k5Open := true } : Phases).ordered = true := by
  simp only [Phases.ordered] at *; grind
theorem ordered_k5 {p : Phases} (o : p.k5Open = true) (h : p.ordered = true) : ({ p with k5 := true } : Phases).ordered = true := by
  simp only [Phases.ordered] at *; grind
theorem ordered_k6Open {p : Phases} (o : p.k4 = true) (h : p.ordered = true) : ({ p with k6Open := true } : Phases).ordered = true := by
  simp only [Phases.ordered] at *; grind
theorem ordered_k6 {p : Phases} (o : p.k6Open = true) (h : p.ordered = true) : ({ p with k6 := true } : Phases).ordered = true := by
  simp only [Phases.ordered] at *; grind

theorem dramStops_keeps {s} : Keeps s (State.dramStops s) := by
  unfold State.dramStops
  extract_lets a b
  have hb : b.spine = s.spine := by
    refine (foldl_spine (fun _ _ => setReady_spine)).trans ?_
    exact ite_spine plcStop_spine rfl
  exact (Keeps.of_spine hb).trans ⟨rfl, fun h => ordered_undram h⟩

theorem k3Check_keeps {s} : Keeps s (State.k3Check s) := by
  unfold State.k3Check
  extract_lets ks
  refine Keeps.ite (fun h => ?_) (fun _ => .refl s)
  simp only [Bool.and_eq_true] at h
  exact ⟨rfl, fun k => ordered_k3 h.1.1.1.1 k⟩

theorem enterSaved_keeps {s x} : Keeps s (State.enterSaved s x) := (stopped_keeps x).trans ⟨rfl, id⟩
theorem saveCutOff_keeps {s} : Keeps s (State.saveCutOff s) := (stopped_keeps true).trans ⟨rfl, id⟩

theorem powerFail_keeps {s x y} : Keeps s (State.powerFail s x y) := by
  unfold State.powerFail
  refine (Keeps.of_spine (pfBegin_spine (x1 := x))).trans ?_
  generalize s.pfBegin x = a
  refine Keeps.ite (fun _ => ?_) (fun _ => Keeps.ite (fun _ => ?_) (fun _ => ?_))
  · exact (Keeps.of_spine saveResult_spine).trans enterSaved_keeps
  · refine Keeps.trans (.of_spine ?_) enterSaved_keeps
    simp only [report_spine, saveResult_spine, saveAll_spine]
  · refine Keeps.trans (.of_spine ?_) saveCutOff_keeps
    simp only [report_spine, saveResult_spine]
    exact ite_spine saveClose_spine rfl

theorem execPowerFailDecision_keeps {c y s} : OutKeeps s (execPowerFailDecision c y s) := by
  unfold execPowerFailDecision
  refine Keeps.ite (fun _ => .refl s) (fun _ => ?_)
  refine Keeps.trans (b := { s with power.vin := c.mv }) ⟨rfl, id⟩ ?_
  exact Keeps.ite (fun _ => powerFail_keeps) (fun _ => Keeps.ite (fun _ => powerFail_keeps) (fun _ => .refl _))

theorem execPfNExternalLow_keeps {u y s} : OutKeeps s (execPfNExternalLow u y s) := by
  unfold execPfNExternalLow
  refine Keeps.trans (b := { s with power.pfExtLow := decide (10 ≤ u) }) ⟨rfl, id⟩ ?_
  exact Keeps.ite (fun _ => powerFail_keeps) (fun _ => .refl _)

theorem execThermalShutdown_keeps {u v y s} : OutKeeps s (execThermalShutdown u v y s) := by
  unfold execThermalShutdown
  exact Keeps.ite (fun _ => powerFail_keeps) (fun _ => .refl _)

theorem execUvloFall_keeps {u s} : OutKeeps s (execUvloFall u s) := by
  unfold execUvloFall
  refine Keeps.ite (fun _ => .refl s) (fun _ => ?_)
  refine Keeps.trans (b := { s with power.vin := u }) ⟨rfl, id⟩ ?_
  generalize ({ s with power.vin := u } : State) = a
  refine Keeps.trans (b := if a.power.supply = .saved then a else
    { (a.dropReports.stopped true) with power.saveOkLast := false, power.saveCutLast := false }) ?_ ⟨rfl, id⟩
  refine Keeps.ite (fun _ => .refl a) (fun _ => ?_)
  exact ((Keeps.of_spine dropReports_spine).trans (stopped_keeps true)).trans ⟨rfl, id⟩

theorem execResetNAssert_keeps {u s} : OutKeeps s (execResetNAssert u s) := by
  unfold execResetNAssert
  refine Keeps.ite (fun _ => .refl s) (fun _ => Keeps.ite (fun _ => ⟨rfl, id⟩) (fun _ => ?_))
  exact ((Keeps.of_spine dropReports_spine).trans (stopped_keeps false)).trans ⟨rfl, id⟩

theorem execResetNRelease_keeps {m s} : OutKeeps s (execResetNRelease m s) := by
  unfold execResetNRelease
  refine Keeps.ite (fun _ => .refl s) (fun _ => ?_)
  refine Keeps.trans (b := { s with power.resetLow := false }) ⟨rfl, id⟩ ?_
  exact Keeps.ite (fun _ => startKiln_keeps) (fun _ => .refl _)

theorem execPgoodRise_keeps {m s} : OutKeeps s (execPgoodRise m s) := by
  unfold execPgoodRise
  refine Keeps.ite (fun _ => .refl s) (fun _ => ?_)
  refine Keeps.trans (b := { s with power.supply := .running, power.pgood := true, pins.pgood := true }) ⟨rfl, id⟩ ?_
  exact Keeps.ite (fun _ => .refl _) (fun _ => startKiln_keeps)

theorem execRailOutOfWindow_keeps {r b s} : OutKeeps s (execRailOutOfWindow r b s) := by
  unfold execRailOutOfWindow
  dsimp only
  refine Keeps.ite (fun _ => .refl s) (fun _ => Keeps.ite (fun _ => .of_spine ?_) (fun _ => ?_))
  · rw [level_spine]; rfl
  · refine Keeps.trans (b := { s with power.railOut := s.power.railOut ||| (1#6 <<< r.val) }) ⟨rfl, id⟩ ?_
    generalize ({ s with power.railOut := s.power.railOut ||| (1#6 <<< r.val) } : State) = a
    refine Keeps.ite (fun _ => ?_) (fun _ => ?_)
    · refine Keeps.trans (Keeps.trans ((Keeps.of_spine dropReports_spine).trans (stopped_keeps false)) ?_) (.of_spine report_spine)
      exact ⟨rfl, id⟩
    · refine (Keeps.of_spine (level_spine (x1 := 942 + r.val) (x2 := true) (x3 := 0))).trans ?_
      generalize a.level (942 + r.val) true = d
      refine Keeps.ite (fun _ => .refl _) (fun _ => Keeps.ite (fun _ => dramStops_keeps) (fun _ => .of_spine ?_))
      refine (ite_spine ?_ ?_)
      · rw [level_spine]
        show State.spine ((State.convFails _ _).convFails _) = _
        simp only [convFails_spine]
      · simp only [convFails_spine]

theorem courseReady_keeps {s k} : Keeps s (State.courseReady s k) := by
  unfold State.courseReady
  exact Keeps.ite (fun _ => .refl s) (fun _ => (Keeps.of_spine footingReady_spine).trans k3Check_keeps)

theorem execSettlingEnd_keeps {c s} : OutKeeps s (execSettlingEnd c s) := by
  unfold execSettlingEnd
  exact Keeps.ite (fun _ => courseReady_keeps) (fun _ => .refl s)

theorem execCourseMclkStart_keeps {s} : OutKeeps s (execCourseMclkStart s) := by
  unfold execCourseMclkStart
  dsimp only
  refine Keeps.ite (fun _ => .refl s) (fun _ => ?_)
  refine Keeps.trans (b := { s with kiln.mclkOn := true }) ⟨rfl, id⟩ ?_
  exact (Keeps.of_spine (ite_spine startCourses_spine rfl)).trans k3Check_keeps

theorem execKilnK5Start_keeps {s} : OutKeeps s (execKilnK5Start s) := by
  unfold execKilnK5Start
  exact Keeps.ite (fun h => ⟨rfl, fun k => ordered_k5Open h.1 k⟩) (fun _ => .refl s)

theorem execKilnComplete_keeps {u s} : OutKeeps s (execKilnComplete u s) := by
  unfold execKilnComplete
  refine Keeps.ite (fun h => ⟨rfl, fun k => ?_⟩) (fun _ => .refl s)
  simp only [Bool.and_eq_true] at h
  exact ordered_k6 h.1.1 k

theorem execKilnK6Start_keeps {s} : OutKeeps s (execKilnK6Start s) := by
  unfold execKilnK6Start
  refine Keeps.ite (fun _ => .refl s) (fun h => ?_)
  refine Keeps.trans (b := { s with kiln.ph.k6Open := true }) ⟨rfl, fun k => ?_⟩ (.of_spine ?_)
  · simp only [Bool.or_eq_true, Bool.not_eq_true', not_or, Bool.not_eq_true, Bool.not_eq_false] at h
    exact ordered_k6Open h.1 k
  · simp only [startLinks_spine, confirmTrial_spine, releaseHeld6_spine]

theorem execDramTrainingDone_keeps {b s} : OutKeeps s (execDramTrainingDone b s) := by
  unfold execDramTrainingDone
  dsimp only
  refine Keeps.ite (fun _ => .refl s) (fun h => ?_)
  have ho : s.kiln.ph.k5Open = true := by
    simp only [Bool.or_eq_true, Bool.not_eq_true', not_or, Bool.not_eq_true, Bool.not_eq_false] at h
    exact h.1.1
  refine Keeps.ite (fun _ => ?_) (fun _ => ?_)
  · exact Keeps.trans (b := { s with kiln.ph.dramTrained := true }) ⟨rfl, fun k => ordered_dram ho k⟩ (.of_spine setReady_spine)
  · have hd : Keeps s s.draw.2 := .of_spine draw_spine
    have ho2 : s.draw.2.kiln.ph.k5Open = true := ho
    refine hd.trans (Keeps.trans (b := { s.draw.2 with kiln.ph.k5 := true }) ⟨rfl, fun k => ordered_k5 ho2 k⟩ (.of_spine ?_))
    simp only [f2_spine, bist_spine]

theorem endK5_keeps {s} (h : s.kiln.ph.dramTrained = true) : Keeps s (State.endK5 s) :=
  ⟨rfl, fun k => ordered_k5 (by simp only [Phases.ordered] at k; grind) k⟩

theorem execDramSliceDone_keeps {i r p e s} : OutKeeps s (execDramSliceDone i r p e s) := by
  unfold execDramSliceDone
  refine Keeps.ite (fun _ => .refl s) (fun h => ?_)
  have ht : s.kiln.ph.dramTrained = true := by
    simp only [Bool.or_eq_true, Bool.not_eq_true', not_or, Bool.not_eq_true, Bool.not_eq_false] at h
    exact h.1
  dsimp only
  refine (Keeps.of_spine sliceEnd_spine).trans (Keeps.ite (fun _ => endK5_keeps ?_) (fun _ => .refl _))
  rw [ph_of_spine sliceEnd_spine]
  exact ht

theorem endK4_keeps {s} (h : s.kiln.ph.k3Open = true) : Keeps s (State.endK4 s) := by
  unfold State.endK4
  dsimp only
  have ha : s.allocateRest.spine = s.spine := allocateRest_spine
  rw [← ph_of_spine ha] at h
  revert h
  generalize s.allocateRest = a at *
  exact fun h => (Keeps.of_spine ha).trans ⟨rfl, fun k => ordered_k4 h k⟩

theorem execTileBistGroupEnd_keeps {g f r s} : OutKeeps s (execTileBistGroupEnd g f r s) := by
  unfold execTileBistGroupEnd
  refine Keeps.ite (fun _ => .refl s) (fun h => ?_)
  have h3 : s.kiln.ph.k3Open = true := by
    simp only [Bool.or_eq_true, Bool.not_eq_true', not_or, Bool.not_eq_true, Bool.not_eq_false] at h
    exact h.1
  dsimp only
  have ht : (s.tileGroupTested g.val f r).spine = s.spine := tileGroupTested_spine
  refine (Keeps.of_spine ht).trans (Keeps.ite (fun _ => endK4_keeps ?_) (fun _ => .refl _))
  rw [ph_of_spine ht]
  exact h3

theorem k2Results_keeps {r s} (h : s.kiln.ph.k2Open = true) : Keeps s (State.k2Results s r) ∧ (State.k2Results s r).kiln.ph.k2 = true := by
  unfold State.k2Results
  extract_lets a b c d
  have ha : a.spine = s.spine := by
    simp only [a, bist_spine]
    exact foldl_spine (fun _ _ => mramHit_spine)
  have hph : a.kiln.ph = s.kiln.ph := congrArg Prod.snd ha
  have hb : Keeps s b ∧ b.kiln.ph.k2 = true := by
    refine ⟨⟨congrArg Prod.fst ha, fun k => ?_⟩, rfl⟩
    rw [← hph] at k h
    exact ordered_k2 h k
  have hd : d.spine = b.spine := by simp only [d, c, level_spine, setReady_spine]
  have hf : (if r.sealOk = true then d else d.enterF4 13).spine = b.spine := ite_spine hd (enterF4_spine.trans hd)
  have hg : (if r.sealOk = true then d else d.enterF4 13).kiln.ph = b.kiln.ph := congrArg Prod.snd hf
  exact ⟨hb.1.trans (.of_spine hf), by rw [hg]; exact hb.2⟩

theorem beginK2_keeps {a b s} (h : s.kiln.ph.started = true) : Keeps s (State.beginK2 s a b) := by
  unfold State.beginK2
  refine Keeps.trans (b := s.openK2 a b) ⟨rfl, fun k => ordered_k1k2Open h k⟩ (.of_spine ?_)
  simp only [startLevels_spine, publishLcv_spine, journalScan_spine, billStart_spine, timeFromRtc_spine, restore_spine]

theorem execKilnK3K4Start_keeps {r s} : OutKeeps s (execKilnK3K4Start r s) := by
  unfold execKilnK3K4Start
  refine Keeps.ite (fun _ => .refl s) (fun h => ?_)
  have h2 : s.kiln.ph.k2Open = true := by
    simp only [Bool.or_eq_true, Bool.not_eq_true', not_or, Bool.not_eq_true, Bool.not_eq_false] at h
    exact h.1.1.1
  obtain ⟨k1, k2⟩ := k2Results_keeps (r := r) h2
  extract_lets a b c m d e f
  have ha : a.spine = (s.k2Results r).spine := by simp only [a, frontTests_spine, placeIndex_spine]
  have hph : a.kiln.ph = (s.k2Results r).kiln.ph := congrArg Prod.snd ha
  have hb : Keeps a b := ⟨rfl, fun k => by
    rw [← hph] at k2
    exact ordered_k3Open k2 k⟩
  have hc : c.spine = b.spine := regrid_spine
  have hf : (f.startAcb).spine = b.spine := by
    rw [startAcb_spine]
    refine (foldl_spine (fun _ _ => ite_spine drivePulse_spine rfl)).trans ?_
    refine (foldl_spine (fun _ _ => ite_spine driveContactor_spine rfl)).trans ?_
    refine ite_spine ?_ hc
    rw [setReady_spine, setReady_spine, hc]
  exact ((k1.trans (.of_spine ha)).trans hb).trans (.of_spine hf)

theorem endK1_keeps {a b s} (h1 : s.kiln.ph.started = true) : Keeps s (State.endK1 s a b) := by
  unfold State.endK1
  extract_lets d e
  have hd : d.spine = s.spine := by simp only [d, setReady_spine]
  have he : e.spine = s.spine := ite_spine (enterF4_spine.trans hd) hd
  clear_value e
  have hph : e.kiln.ph = s.kiln.ph := congrArg Prod.snd he
  rw [← hph] at h1
  refine (Keeps.of_spine he).trans (Keeps.ite (fun _ => ?_) (fun _ => beginK2_keeps h1))
  exact Keeps.trans (b := { e with kiln.ph.k1 := true, kiln.doneUs := Tbl.set 0 e.kiln.doneUs 1 b })
    ⟨rfl, fun k => ordered_k1 h1 k⟩ (.of_spine haltKiln_spine)

theorem execKilnK2Start_keeps {r s} : OutKeeps s (execKilnK2Start r s) := by
  unfold execKilnK2Start
  refine Keeps.ite (fun _ => .refl s) (fun h => ?_)
  have h1 : s.kiln.ph.started = true := by
    simp only [Bool.or_eq_true, Bool.not_eq_true', not_or, Bool.not_eq_true, Bool.not_eq_false] at h
    exact h.1.1
  refine Keeps.ite (fun _ => .of_spine ?_) (fun _ => ?_)
  · simp only [haltKiln_spine, enterF4_spine]; rfl
  · extract_lets a _ b c
    have ha : a.spine = s.spine := by simp only [a, setReady_spine, k1Cores_spine]
    have hb : b.spine = s.spine := by rw [show b.spine = _ from k1Flash_spine]; exact ha
    have hc : c.1.spine = s.spine := by simp only [c, bootSlot_spine, hb]
    clear_value c b a
    refine Keeps.ite (fun _ => .of_spine ?_) (fun _ => ?_)
    · simp only [haltKiln_spine, ha]
    · split
      · refine .of_spine ?_
        simp only [haltKiln_spine, hc]
      · refine (Keeps.of_spine hc).trans (endK1_keeps ?_)
        rw [show c.1.kiln.ph = s.kiln.ph from congrArg Prod.snd hc]
        exact h1

theorem selfInKiln_keeps {s} : Keeps s (State.selfInKiln s) := by
  unfold State.selfInKiln
  extract_lets f g
  have hf : Keeps s f := (Keeps.of_spine setReady_spine).trans k3Check_keeps
  have hg : g.spine = f.spine := foldl_spine (fun _ _ => ite_spine modSlot_spine rfl)
  exact (hf.trans (.of_spine hg)).trans (.of_spine (ite_spine startCal_spine rfl))

theorem execSelfcalDone_keeps {k s} : OutKeeps s (execSelfcalDone k s) := by
  unfold execSelfcalDone
  refine OutKeeps.ite (fun _ => ?_) (fun _ => .refl s)
  extract_lets okay c d e
  have hc : Keeps s c := .of_spine selfOutcome_spine
  have hd : Keeps c d := by
    simp only [d]
    split
    · exact .of_spine finishHeld_spine
    · exact selfInKiln_keeps
    · exact .refl _
  have he : e.spine = d.spine := ite_spine startRef_spine rfl
  refine (hc.trans hd).trans (.of_spine ?_)
  rw [startUrgent_spine, startUrgent_spine, he]

end Sys2Proof.Machine
end

