-- ==== Sys2Proof/Laws/Records.lean ====
section
/-! SUPPORT. One entry of a chapter's table changed: what it then reads, what the others read, and that the table stays canonical. -/

namespace Sys2Proof.Machine

theorem modGen_table (s : State) (n : Nat) (g : PulseGen → PulseGen) : (s.modGen n g).acc.pulse = Tbl.upd {} s.acc.pulse n g := by unfold State.modGen; rfl
theorem modGen_same {s : State} (h : Tbl.wf {} s.acc.pulse) (n : Nat) (g : PulseGen → PulseGen) : (s.modGen n g).gen n = g (s.gen n) := by
  unfold State.gen; rw [modGen_table]; exact Tbl.get_upd_same _ h _ _
theorem modGen_other (s : State) {n i : Nat} (h : i ≠ n) (g : PulseGen → PulseGen) : (s.modGen n g).gen i = s.gen i := by
  unfold State.gen; rw [modGen_table]; exact Tbl.get_set_other _ _ h _
theorem modGen_wf {s : State} (h : Tbl.wf {} s.acc.pulse) (n : Nat) (g : PulseGen → PulseGen) : Tbl.wf {} (s.modGen n g).acc.pulse := by
  rw [modGen_table]; exact Tbl.upd_wf _ h _ _

theorem modDi_table (s : State) (n : Nat) (g : Di → Di) : (s.modDi n g).acc.di = Tbl.upd {} s.acc.di n g := by unfold State.modDi; rfl
theorem modDi_same {s : State} (h : Tbl.wf {} s.acc.di) (n : Nat) (g : Di → Di) : (s.modDi n g).di n = g (s.di n) := by
  unfold State.di; rw [modDi_table]; exact Tbl.get_upd_same _ h _ _
theorem modDi_other (s : State) {n i : Nat} (h : i ≠ n) (g : Di → Di) : (s.modDi n g).di i = s.di i := by
  unfold State.di; rw [modDi_table]; exact Tbl.get_set_other _ _ h _
theorem modDi_wf {s : State} (h : Tbl.wf {} s.acc.di) (n : Nat) (g : Di → Di) : Tbl.wf {} (s.modDi n g).acc.di := by
  rw [modDi_table]; exact Tbl.upd_wf _ h _ _

theorem modSlot_table (s : State) (n : Nat) (g : Slot → Slot) : (s.modSlot n g).aux.slot = Tbl.upd {} s.aux.slot n g := by unfold State.modSlot; rfl
theorem modSlot_same {s : State} (h : Tbl.wf {} s.aux.slot) (n : Nat) (g : Slot → Slot) : (s.modSlot n g).slot n = g (s.slot n) := by
  unfold State.slot; rw [modSlot_table]; exact Tbl.get_upd_same _ h _ _
theorem modSlot_other (s : State) {n i : Nat} (h : i ≠ n) (g : Slot → Slot) : (s.modSlot n g).slot i = s.slot i := by
  unfold State.slot; rw [modSlot_table]; exact Tbl.get_set_other _ _ h _
theorem modSlot_wf {s : State} (h : Tbl.wf {} s.aux.slot) (n : Nat) (g : Slot → Slot) : Tbl.wf {} (s.modSlot n g).aux.slot := by
  rw [modSlot_table]; exact Tbl.upd_wf _ h _ _

theorem modWcomp_table (s : State) (n : Nat) (g : WinComp → WinComp) : (s.modWcomp n g).aux.wc = Tbl.upd {} s.aux.wc n g := by unfold State.modWcomp; rfl
theorem modWcomp_same {s : State} (h : Tbl.wf {} s.aux.wc) (n : Nat) (g : WinComp → WinComp) : (s.modWcomp n g).wcomp n = g (s.wcomp n) := by
  unfold State.wcomp; rw [modWcomp_table]; exact Tbl.get_upd_same _ h _ _
theorem modWcomp_other (s : State) {n i : Nat} (h : i ≠ n) (g : WinComp → WinComp) : (s.modWcomp n g).wcomp i = s.wcomp i := by
  unfold State.wcomp; rw [modWcomp_table]; exact Tbl.get_set_other _ _ h _
theorem modWcomp_wf {s : State} (h : Tbl.wf {} s.aux.wc) (n : Nat) (g : WinComp → WinComp) : Tbl.wf {} (s.modWcomp n g).aux.wc := by
  rw [modWcomp_table]; exact Tbl.upd_wf _ h _ _

theorem modChan_table (s : State) (n : Nat) (g : Chan → Chan) : (s.modChan n g).front.chan = Tbl.upd {} s.front.chan n g := by unfold State.modChan; rfl
theorem modChan_same {s : State} (h : Tbl.wf {} s.front.chan) (n : Nat) (g : Chan → Chan) : (s.modChan n g).chan n = g (s.chan n) := by
  unfold State.chan; rw [modChan_table]; exact Tbl.get_upd_same _ h _ _
theorem modChan_other (s : State) {n i : Nat} (h : i ≠ n) (g : Chan → Chan) : (s.modChan n g).chan i = s.chan i := by
  unfold State.chan; rw [modChan_table]; exact Tbl.get_set_other _ _ h _
theorem modChan_wf {s : State} (h : Tbl.wf {} s.front.chan) (n : Nat) (g : Chan → Chan) : Tbl.wf {} (s.modChan n g).front.chan := by
  rw [modChan_table]; exact Tbl.upd_wf _ h _ _

theorem modCourse_table (s : State) (n : Nat) (g : Course → Course) : (s.modCourse n g).front.course = Tbl.upd {} s.front.course n g := by unfold State.modCourse; rfl
theorem modCourse_same {s : State} (h : Tbl.wf {} s.front.course) (n : Nat) (g : Course → Course) : (s.modCourse n g).course n = g (s.course n) := by
  unfold State.course; rw [modCourse_table]; exact Tbl.get_upd_same _ h _ _
theorem modCourse_other (s : State) {n i : Nat} (h : i ≠ n) (g : Course → Course) : (s.modCourse n g).course i = s.course i := by
  unfold State.course; rw [modCourse_table]; exact Tbl.get_set_other _ _ h _
theorem modCourse_wf {s : State} (h : Tbl.wf {} s.front.course) (n : Nat) (g : Course → Course) : Tbl.wf {} (s.modCourse n g).front.course := by
  rw [modCourse_table]; exact Tbl.upd_wf _ h _ _

theorem modMclk_table (s : State) (n : Nat) (g : Mclk → Mclk) : (s.modMclk n g).front.mclk = Tbl.upd {} s.front.mclk n g := by unfold State.modMclk; rfl
theorem modMclk_same {s : State} (h : Tbl.wf {} s.front.mclk) (n : Nat) (g : Mclk → Mclk) : (s.modMclk n g).mclk n = g (s.mclk n) := by
  unfold State.mclk; rw [modMclk_table]; exact Tbl.get_upd_same _ h _ _
theorem modMclk_other (s : State) {n i : Nat} (h : i ≠ n) (g : Mclk → Mclk) : (s.modMclk n g).mclk i = s.mclk i := by
  unfold State.mclk; rw [modMclk_table]; exact Tbl.get_set_other _ _ h _
theorem modMclk_wf {s : State} (h : Tbl.wf {} s.front.mclk) (n : Nat) (g : Mclk → Mclk) : Tbl.wf {} (s.modMclk n g).front.mclk := by
  rw [modMclk_table]; exact Tbl.upd_wf _ h _ _

theorem modRec__table (s : State) (n : Nat) (g : Rec → Rec) : (s.modRec_ n g).ledger.recs = Tbl.upd {} s.ledger.recs n g := by unfold State.modRec_; rfl
theorem modRec__same {s : State} (h : Tbl.wf {} s.ledger.recs) (n : Nat) (g : Rec → Rec) : (s.modRec_ n g).record n = g (s.record n) := by
  unfold State.record; rw [modRec__table]; exact Tbl.get_upd_same _ h _ _
theorem modRec__other (s : State) {n i : Nat} (h : i ≠ n) (g : Rec → Rec) : (s.modRec_ n g).record i = s.record i := by
  unfold State.record; rw [modRec__table]; exact Tbl.get_set_other _ _ h _
theorem modRec__wf {s : State} (h : Tbl.wf {} s.ledger.recs) (n : Nat) (g : Rec → Rec) : Tbl.wf {} (s.modRec_ n g).ledger.recs := by
  rw [modRec__table]; exact Tbl.upd_wf _ h _ _

theorem modChm_table (s : State) (n : Nat) (g : ChanM → ChanM) : (s.modChm n g).metro.chan = Tbl.upd {} s.metro.chan n g := by unfold State.modChm; rfl
theorem modChm_same {s : State} (h : Tbl.wf {} s.metro.chan) (n : Nat) (g : ChanM → ChanM) : (s.modChm n g).chm n = g (s.chm n) := by
  unfold State.chm; rw [modChm_table]; exact Tbl.get_upd_same _ h _ _
theorem modChm_other (s : State) {n i : Nat} (h : i ≠ n) (g : ChanM → ChanM) : (s.modChm n g).chm i = s.chm i := by
  unfold State.chm; rw [modChm_table]; exact Tbl.get_set_other _ _ h _
theorem modChm_wf {s : State} (h : Tbl.wf {} s.metro.chan) (n : Nat) (g : ChanM → ChanM) : Tbl.wf {} (s.modChm n g).metro.chan := by
  rw [modChm_table]; exact Tbl.upd_wf _ h _ _

theorem modElem_table (s : State) (n : Nat) (g : Elem → Elem) : (s.modElem n g).metro.elem = Tbl.upd {} s.metro.elem n g := by unfold State.modElem; rfl
theorem modElem_same {s : State} (h : Tbl.wf {} s.metro.elem) (n : Nat) (g : Elem → Elem) : (s.modElem n g).elem n = g (s.elem n) := by
  unfold State.elem; rw [modElem_table]; exact Tbl.get_upd_same _ h _ _
theorem modElem_other (s : State) {n i : Nat} (h : i ≠ n) (g : Elem → Elem) : (s.modElem n g).elem i = s.elem i := by
  unfold State.elem; rw [modElem_table]; exact Tbl.get_set_other _ _ h _
theorem modElem_wf {s : State} (h : Tbl.wf {} s.metro.elem) (n : Nat) (g : Elem → Elem) : Tbl.wf {} (s.modElem n g).metro.elem := by
  rw [modElem_table]; exact Tbl.upd_wf _ h _ _

theorem modVs_table (s : State) (n : Nat) (g : VSet → VSet) : (s.modVs n g).metro.vs = Tbl.upd {} s.metro.vs n g := by unfold State.modVs; rfl
theorem modVs_same {s : State} (h : Tbl.wf {} s.metro.vs) (n : Nat) (g : VSet → VSet) : (s.modVs n g).vs n = g (s.vs n) := by
  unfold State.vs; rw [modVs_table]; exact Tbl.get_upd_same _ h _ _
theorem modVs_other (s : State) {n i : Nat} (h : i ≠ n) (g : VSet → VSet) : (s.modVs n g).vs i = s.vs i := by
  unfold State.vs; rw [modVs_table]; exact Tbl.get_set_other _ _ h _
theorem modVs_wf {s : State} (h : Tbl.wf {} s.metro.vs) (n : Nat) (g : VSet → VSet) : Tbl.wf {} (s.modVs n g).metro.vs := by
  rw [modVs_table]; exact Tbl.upd_wf _ h _ _

theorem modBond_table (s : State) (n : Nat) (g : Bond → Bond) : (s.modBond n g).tiles.bond = Tbl.upd {} s.tiles.bond n g := by unfold State.modBond; rfl
theorem modBond_same {s : State} (h : Tbl.wf {} s.tiles.bond) (n : Nat) (g : Bond → Bond) : (s.modBond n g).bond n = g (s.bond n) := by
  unfold State.bond; rw [modBond_table]; exact Tbl.get_upd_same _ h _ _
theorem modBond_other (s : State) {n i : Nat} (h : i ≠ n) (g : Bond → Bond) : (s.modBond n g).bond i = s.bond i := by
  unfold State.bond; rw [modBond_table]; exact Tbl.get_set_other _ _ h _
theorem modBond_wf {s : State} (h : Tbl.wf {} s.tiles.bond) (n : Nat) (g : Bond → Bond) : Tbl.wf {} (s.modBond n g).tiles.bond := by
  rw [modBond_table]; exact Tbl.upd_wf _ h _ _

theorem modWin_table (s : State) (n : Nat) (g : WinFn → WinFn) : (s.modWin n g).win.fn = Tbl.upd {} s.win.fn n g := by unfold State.modWin; rfl
theorem modWin_same {s : State} (h : Tbl.wf {} s.win.fn) (n : Nat) (g : WinFn → WinFn) : (s.modWin n g).winFn n = g (s.winFn n) := by
  unfold State.winFn; rw [modWin_table]; exact Tbl.get_upd_same _ h _ _
theorem modWin_other (s : State) {n i : Nat} (h : i ≠ n) (g : WinFn → WinFn) : (s.modWin n g).winFn i = s.winFn i := by
  unfold State.winFn; rw [modWin_table]; exact Tbl.get_set_other _ _ h _
theorem modWin_wf {s : State} (h : Tbl.wf {} s.win.fn) (n : Nat) (g : WinFn → WinFn) : Tbl.wf {} (s.modWin n g).win.fn := by
  rw [modWin_table]; exact Tbl.upd_wf _ h _ _

theorem modLane_table (s : State) (n : Nat) (g : Lane → Lane) : (s.modLane n g).mortar.lane = Tbl.upd {} s.mortar.lane n g := by unfold State.modLane; rfl
theorem modLane_same {s : State} (h : Tbl.wf {} s.mortar.lane) (n : Nat) (g : Lane → Lane) : (s.modLane n g).lane n = g (s.lane n) := by
  unfold State.lane; rw [modLane_table]; exact Tbl.get_upd_same _ h _ _
theorem modLane_other (s : State) {n i : Nat} (h : i ≠ n) (g : Lane → Lane) : (s.modLane n g).lane i = s.lane i := by
  unfold State.lane; rw [modLane_table]; exact Tbl.get_set_other _ _ h _
theorem modLane_wf {s : State} (h : Tbl.wf {} s.mortar.lane) (n : Nat) (g : Lane → Lane) : Tbl.wf {} (s.modLane n g).mortar.lane := by
  rw [modLane_table]; exact Tbl.upd_wf _ h _ _

theorem modMon_table (s : State) (n : Nat) (g : PqMon → PqMon) : (s.modMon n g).pq.mon = Tbl.upd {} s.pq.mon n g := by unfold State.modMon; rfl
theorem modMon_same {s : State} (h : Tbl.wf {} s.pq.mon) (n : Nat) (g : PqMon → PqMon) : (s.modMon n g).mon n = g (s.mon n) := by
  unfold State.mon; rw [modMon_table]; exact Tbl.get_upd_same _ h _ _
theorem modMon_other (s : State) {n i : Nat} (h : i ≠ n) (g : PqMon → PqMon) : (s.modMon n g).mon i = s.mon i := by
  unfold State.mon; rw [modMon_table]; exact Tbl.get_set_other _ _ h _
theorem modMon_wf {s : State} (h : Tbl.wf {} s.pq.mon) (n : Nat) (g : PqMon → PqMon) : Tbl.wf {} (s.modMon n g).pq.mon := by
  rw [modMon_table]; exact Tbl.upd_wf _ h _ _

theorem modPqc_table (s : State) (n : Nat) (g : PqChan → PqChan) : (s.modPqc n g).pq.chan = Tbl.upd {} s.pq.chan n g := by unfold State.modPqc; rfl
theorem modPqc_same {s : State} (h : Tbl.wf {} s.pq.chan) (n : Nat) (g : PqChan → PqChan) : (s.modPqc n g).pqc n = g (s.pqc n) := by
  unfold State.pqc; rw [modPqc_table]; exact Tbl.get_upd_same _ h _ _
theorem modPqc_other (s : State) {n i : Nat} (h : i ≠ n) (g : PqChan → PqChan) : (s.modPqc n g).pqc i = s.pqc i := by
  unfold State.pqc; rw [modPqc_table]; exact Tbl.get_set_other _ _ h _
theorem modPqc_wf {s : State} (h : Tbl.wf {} s.pq.chan) (n : Nat) (g : PqChan → PqChan) : Tbl.wf {} (s.modPqc n g).pq.chan := by
  rw [modPqc_table]; exact Tbl.upd_wf _ h _ _

theorem modRport_table (s : State) (n : Nat) (g : RPort → RPort) : (s.modRport n g).radio.port = Tbl.upd {} s.radio.port n g := by unfold State.modRport; rfl
theorem modRport_same {s : State} (h : Tbl.wf {} s.radio.port) (n : Nat) (g : RPort → RPort) : (s.modRport n g).rport n = g (s.rport n) := by
  unfold State.rport; rw [modRport_table]; exact Tbl.get_upd_same _ h _ _
theorem modRport_other (s : State) {n i : Nat} (h : i ≠ n) (g : RPort → RPort) : (s.modRport n g).rport i = s.rport i := by
  unfold State.rport; rw [modRport_table]; exact Tbl.get_set_other _ _ h _
theorem modRport_wf {s : State} (h : Tbl.wf {} s.radio.port) (n : Nat) (g : RPort → RPort) : Tbl.wf {} (s.modRport n g).radio.port := by
  rw [modRport_table]; exact Tbl.upd_wf _ h _ _

theorem modBmp_table (s : State) (n : Nat) (g : BillMp → BillMp) : (s.modBmp n g).bill.mp = Tbl.upd {} s.bill.mp n g := by unfold State.modBmp; rfl
theorem modBmp_same {s : State} (h : Tbl.wf {} s.bill.mp) (n : Nat) (g : BillMp → BillMp) : (s.modBmp n g).bmp n = g (s.bmp n) := by
  unfold State.bmp; rw [modBmp_table]; exact Tbl.get_upd_same _ h _ _
theorem modBmp_other (s : State) {n i : Nat} (h : i ≠ n) (g : BillMp → BillMp) : (s.modBmp n g).bmp i = s.bmp i := by
  unfold State.bmp; rw [modBmp_table]; exact Tbl.get_set_other _ _ h _
theorem modBmp_wf {s : State} (h : Tbl.wf {} s.bill.mp) (n : Nat) (g : BillMp → BillMp) : Tbl.wf {} (s.modBmp n g).bill.mp := by
  rw [modBmp_table]; exact Tbl.upd_wf _ h _ _

theorem modMpAcc_table (s : State) (n : Nat) (g : MpAcc → MpAcc) : (s.modMpAcc n g).acc.mp = Tbl.upd {} s.acc.mp n g := by unfold State.modMpAcc; rfl
theorem modMpAcc_same {s : State} (h : Tbl.wf {} s.acc.mp) (n : Nat) (g : MpAcc → MpAcc) : (s.modMpAcc n g).mpAcc n = g (s.mpAcc n) := by
  unfold State.mpAcc; rw [modMpAcc_table]; exact Tbl.get_upd_same _ h _ _
theorem modMpAcc_other (s : State) {n i : Nat} (h : i ≠ n) (g : MpAcc → MpAcc) : (s.modMpAcc n g).mpAcc i = s.mpAcc i := by
  unfold State.mpAcc; rw [modMpAcc_table]; exact Tbl.get_set_other _ _ h _
theorem modMpAcc_wf {s : State} (h : Tbl.wf {} s.acc.mp) (n : Nat) (g : MpAcc → MpAcc) : Tbl.wf {} (s.modMpAcc n g).acc.mp := by
  rw [modMpAcc_table]; exact Tbl.upd_wf _ h _ _

theorem modTile_table (s : State) (n : Nat) (g : Tile → Tile) : (s.modTile n g).tiles.tile = Tbl.upd {} s.tiles.tile n g := by unfold State.modTile; rfl
theorem modTile_same {s : State} (h : Tbl.wf {} s.tiles.tile) (n : Nat) (g : Tile → Tile) : (s.modTile n g).tile n = g (s.tile n) := by
  unfold State.tile; rw [modTile_table]; exact Tbl.get_upd_same _ h _ _
theorem modTile_other (s : State) {n i : Nat} (h : i ≠ n) (g : Tile → Tile) : (s.modTile n g).tile i = s.tile i := by
  unfold State.tile; rw [modTile_table]; exact Tbl.get_set_other _ _ h _
theorem modTile_wf {s : State} (h : Tbl.wf {} s.tiles.tile) (n : Nat) (g : Tile → Tile) : Tbl.wf {} (s.modTile n g).tiles.tile := by
  rw [modTile_table]; exact Tbl.upd_wf _ h _ _

theorem modSrc_table (s : State) (n : Nat) (g : Src → Src) : (s.modSrc n g).time.src = Tbl.upd {} s.time.src n g := by unfold State.modSrc; rfl
theorem modSrc_same {s : State} (h : Tbl.wf {} s.time.src) (n : Nat) (g : Src → Src) : (s.modSrc n g).src n = g (s.src n) := by
  unfold State.src; rw [modSrc_table]; exact Tbl.get_upd_same _ h _ _
theorem modSrc_other (s : State) {n i : Nat} (h : i ≠ n) (g : Src → Src) : (s.modSrc n g).src i = s.src i := by
  unfold State.src; rw [modSrc_table]; exact Tbl.get_set_other _ _ h _
theorem modSrc_wf {s : State} (h : Tbl.wf {} s.time.src) (n : Nat) (g : Src → Src) : Tbl.wf {} (s.modSrc n g).time.src := by
  rw [modSrc_table]; exact Tbl.upd_wf _ h _ _

end Sys2Proof.Machine
end

