-- ==== Sys2Proof/Laws/Sets.lean ====
section
/-! SUPPORT. What the functions do at a swap, and the changes of system time, leave the sample index, elapsed time and the two configuration sets as they are. -/

set_option linter.all false

namespace Sys2Proof.Machine

/-- Sample index, elapsed time and the configuration sets. -/
def State.sets (s : State) : Nat × Nat × KeySet × KeySet := (s.time.index, s.time.mono, s.cfg.active, s.cfg.shadow)
@[simp] theorem sets_mk (a1 a2 a3 a4 a5 a6 a7 a8 a9 a10 a11 a12 a13 a14 a15 a16 a17 a18 a19 a20 a21 a22 a23 a24) : State.sets (State.mk a1 a2 a3 a4 a5 a6 a7 a8 a9 a10 a11 a12 a13 a14 a15 a16 a17 a18 a19 a20 a21 a22 a23 a24) = (a3.index, a3.mono, a19.active, a19.shadow) := rfl
@[simp] theorem sets_eta (s : State) : (s.time.index, s.time.mono, s.cfg.active, s.cfg.shadow) = s.sets := rfl
theorem foldl_sets {α} {g : State → α → State} (h : ∀ s a, (g s a).sets = s.sets) {l : List α} {s : State} : (l.foldl g s).sets = s.sets := by
  induction l generalizing s with
  | nil => rfl
  | cons a t ih => rw [List.foldl_cons, ih, h]
theorem ite_sets {c : Prop} [Decidable c] {a b : State} {x} (ha : a.sets = x) (hb : b.sets = x) : (if c then a else b).sets = x := by split <;> assumption
theorem ite_fst_sets {β} {c : Prop} [Decidable c] {a b : State × β} {x} (ha : a.1.sets = x) (hb : b.1.sets = x) : (if c then a else b).1.sets = x := by split <;> assumption
theorem ite_snd_sets {β} {c : Prop} [Decidable c] {a b : β × State} {x} (ha : a.2.sets = x) (hb : b.2.sets = x) : (if c then a else b).2.sets = x := by split <;> assumption
/-- What is kept of an outcome: of the next state, else of the state before. -/
def out_sets (s : State) : Host.Outcome State Fault Refusal → Nat × Nat × KeySet × KeySet
  | .next t => t.sets
  | _ => s.sets
@[simp] theorem out_sets_next (s t : State) : out_sets s (.next t) = t.sets := rfl
theorem ite_out_sets {c : Prop} [Decidable c] {s : State} {a b} {x} (ha : out_sets s a = x) (hb : out_sets s b = x) : out_sets s (if c then a else b) = x := by split <;> assumption
/-- What is kept of an optional state. -/
def opt_sets (s : State) : Option State → Nat × Nat × KeySet × KeySet
  | some t => t.sets
  | none => s.sets
@[simp] theorem opt_sets_some (s t : State) : opt_sets s (some t) = t.sets := rfl
@[simp] theorem opt_sets_none (s : State) : opt_sets s none = s.sets := rfl
theorem foldl_fst_sets {α β} {g : State × β → α → State × β} (h : ∀ x a, (g x a).1.sets = x.1.sets) {l : List α} {x : State × β} : (l.foldl g x).1.sets = x.1.sets := by
  induction l generalizing x with
  | nil => rfl
  | cons a t ih => rw [List.foldl_cons, ih, h]
theorem foldl_snd_sets {α β} {g : β × State → α → β × State} (h : ∀ x a, (g x a).2.sets = x.2.sets) {l : List α} {x : β × State} : (l.foldl g x).2.sets = x.2.sets := by
  induction l generalizing x with
  | nil => rfl
  | cons a t ih => rw [List.foldl_cons, ih, h]


@[simp] theorem draw_sets {s0} : (State.draw s0).2.sets = s0.sets := by
  unfold State.draw
  simp only [sets_mk, sets_eta]

@[simp] theorem drawBytes_sets {x1 s0} : (State.drawBytes x1 s0).2.sets = s0.sets := by
  unfold State.drawBytes
  simp only [draw_sets, sets_mk, sets_eta]

@[simp] theorem drawInt_sets {x1 s0} : (State.drawInt x1 s0).2.sets = s0.sets := by
  unfold State.drawInt
  simp only [draw_sets, sets_mk, sets_eta]

@[simp] theorem modWin_sets {s0 x1 x2} : (State.modWin s0 x1 x2).sets = s0.sets := by
  unfold State.modWin
  simp only [sets_mk, sets_eta]

@[simp] theorem modAllWin_sets {s0 x1} : (State.modAllWin s0 x1).sets = s0.sets := by
  unfold State.modAllWin
  with_reducible repeat' first
    | assumption
    | rfl
    | (refine (foldl_sets ?_).trans ?_; on_goal 1 => intro s0 _)
    | (simp only [*, modWin_sets, sets_mk, sets_eta]; done)
    | split
    | (simp [*]; done)
    | simp only [*, modWin_sets, sets_mk, sets_eta]

@[simp] theorem modEv_sets {s0 x1 x2} : (State.modEv s0 x1 x2).sets = s0.sets := by
  unfold State.modEv
  simp only [sets_mk, sets_eta]

@[simp] theorem raise_sets {s0 x1 x2} : (State.raise s0 x1 x2).sets = s0.sets := by
  unfold State.raise
  with_reducible repeat' first
    | assumption
    | rfl
    | (extract_lets +onlyGivenNames y; clear_value y)
    | refine ite_sets ?_ ?_
    | (simp only [*, modWin_sets, sets_mk, sets_eta]; done)
    | split
    | (simp [*]; done)
    | simp only [*, modWin_sets, sets_mk, sets_eta]

@[simp] theorem raiseB0_sets {s0} : (State.raiseB0 s0).sets = s0.sets := by
  unfold State.raiseB0
  with_reducible repeat' first
    | assumption
    | rfl
    | (extract_lets +onlyGivenNames y; clear_value y)
    | (refine (foldl_sets ?_).trans ?_; on_goal 1 => intro s0 _)
    | (simp only [*, raise_sets, sets_mk, sets_eta]; done)
    | split
    | (simp [*]; done)
    | simp only [*, raise_sets, sets_mk, sets_eta]

@[simp] theorem evPut_sets {s0 x1 x2} : (State.evPut s0 x1 x2).sets = s0.sets := by
  unfold State.evPut
  with_reducible repeat' first
    | assumption
    | rfl
    | (extract_lets +onlyGivenNames y
       refine (show (y.sets = s0.sets → _) from fun h => ?_) ?_
       on_goal 1 => clear_value y
       on_goal 2 => (simp only [y]; try clear y))
    | (extract_lets +onlyGivenNames y; clear_value y)
    | refine ite_sets ?_ ?_
    | (simp only [*, raise_sets, modEv_sets, raiseB0_sets, sets_mk, sets_eta]; done)
    | split
    | (simp [*]; done)
    | simp only [*, raise_sets, modEv_sets, raiseB0_sets, sets_mk, sets_eta]

@[simp] theorem deliver_sets {s0 x1} : (State.deliver s0 x1).sets = s0.sets := by
  unfold State.deliver
  with_reducible repeat' first
    | assumption
    | rfl
    | (refine (foldl_sets ?_).trans ?_; on_goal 1 => intro s0 _)
    | refine ite_sets ?_ ?_
    | (simp only [*, evPut_sets, sets_mk, sets_eta]; done)
    | split
    | (simp [*]; done)
    | simp only [*, evPut_sets, sets_mk, sets_eta]

@[simp] theorem occurAt_sets {s0 x1 x2 x3 x4 x5} : (State.occurAt s0 x1 x2 x3 x4 x5).sets = s0.sets := by
  unfold State.occurAt
  with_reducible repeat' first
    | assumption
    | rfl
    | (extract_lets +onlyGivenNames y
       refine (show (y.sets = s0.sets → _) from fun h => ?_) ?_
       on_goal 1 => clear_value y
       on_goal 2 => (simp only [y]; try clear y))
    | (extract_lets +onlyGivenNames y
       have hk : Kiln.ph y = Kiln.ph (State.kiln _) := rfl
       clear_value y)
    | (extract_lets +onlyGivenNames y; clear_value y)
    | refine ite_sets ?_ ?_
    | (simp only [*, deliver_sets, sets_mk, sets_eta]; done)
    | split
    | (simp [*]; done)
    | simp only [*, deliver_sets, sets_mk, sets_eta]

@[simp] theorem occur_sets {s0 x1 x2 x3} : (State.occur s0 x1 x2 x3).sets = s0.sets := by
  unfold State.occur
  simp only [occurAt_sets, sets_mk, sets_eta]

@[simp] theorem pulse_sets {s0 x1 x2} : (State.pulse s0 x1 x2).sets = s0.sets := by
  unfold State.pulse
  simp only [occur_sets, sets_mk, sets_eta]

@[simp] theorem levelAt_sets {s0 x1 x2 x3 x4 x5} : (State.levelAt s0 x1 x2 x3 x4 x5).sets = s0.sets := by
  unfold State.levelAt
  with_reducible repeat' first
    | assumption
    | rfl
    | (extract_lets +onlyGivenNames y
       refine (show (y.sets = s0.sets → _) from fun h => ?_) ?_
       on_goal 1 => clear_value y
       on_goal 2 => (simp only [y]; try clear y))
    | (extract_lets +onlyGivenNames y
       have hk : Kiln.ph y = Kiln.ph (State.kiln _) := rfl
       clear_value y)
    | (extract_lets +onlyGivenNames y; clear_value y)
    | refine ite_sets ?_ ?_
    | (simp only [*, occurAt_sets, sets_mk, sets_eta]; done)
    | split
    | (simp [*]; done)
    | simp only [*, occurAt_sets, sets_mk, sets_eta]

@[simp] theorem level_sets {s0 x1 x2 x3} : (State.level s0 x1 x2 x3).sets = s0.sets := by
  unfold State.level
  simp only [levelAt_sets, sets_mk, sets_eta]

@[simp] theorem setCause_sets {s0 x1} : (State.setCause s0 x1).sets = s0.sets := by
  unfold State.setCause
  with_reducible repeat' first
    | assumption
    | rfl
    | (extract_lets +onlyGivenNames y; clear_value y)
    | refine ite_sets ?_ ?_
    | (simp only [*, sets_mk, sets_eta]; done)
    | split
    | (simp [*]; done)
    | simp only [*, sets_mk, sets_eta]

@[simp] theorem f1_sets {s0 x1} : (State.f1 s0 x1).sets = s0.sets := by
  unfold State.f1
  simp only [pulse_sets, setCause_sets, modAllWin_sets, sets_mk, sets_eta]

@[simp] theorem f2_sets {s0 x1} : (State.f2 s0 x1).sets = s0.sets := by
  unfold State.f2
  simp only [pulse_sets, setCause_sets, modAllWin_sets, sets_mk, sets_eta]

@[simp] theorem setReady_sets {s0 x1 x2} : (State.setReady s0 x1 x2).sets = s0.sets := by
  unfold State.setReady
  simp only [sets_mk, sets_eta]

@[simp] theorem journalAdd_sets {s0 x1 x2 x3 x4 x5} : (State.journalAdd s0 x1 x2 x3 x4 x5).sets = s0.sets := by
  unfold State.journalAdd
  with_reducible repeat' first
    | assumption
    | rfl
    | (extract_lets +onlyGivenNames y
       refine (show (y.sets = s0.sets → _) from fun h => ?_) ?_
       on_goal 1 => clear_value y
       on_goal 2 => (simp only [y]; try clear y))
    | (extract_lets +onlyGivenNames y; clear_value y)
    | refine ite_sets ?_ ?_
    | (simp only [*, sets_mk, sets_eta]; done)
    | split
    | (simp [*]; done)
    | simp only [*, sets_mk, sets_eta]

@[simp] theorem modLane_sets {s0 x1 x2} : (State.modLane s0 x1 x2).sets = s0.sets := by
  unfold State.modLane
  simp only [sets_mk, sets_eta]

@[simp] theorem laneSend_sets {s0 x1 x2} : (State.laneSend s0 x1 x2).sets = s0.sets := by
  unfold State.laneSend
  simp only [modLane_sets, sets_mk, sets_eta]

@[simp] theorem unitSend_sets {s0 x1 x2} : (State.unitSend s0 x1 x2).sets = s0.sets := by
  unfold State.unitSend
  with_reducible repeat' first
    | assumption
    | rfl
    | (refine (foldl_sets ?_).trans ?_; on_goal 1 => intro s0 _)
    | (simp only [*, laneSend_sets, sets_mk, sets_eta]; done)
    | split
    | (simp [*]; done)
    | simp only [*, laneSend_sets, sets_mk, sets_eta]

@[simp] theorem setBusy_sets {s0 x1 x2} : (State.setBusy s0 x1 x2).sets = s0.sets := by
  unfold State.setBusy
  simp only [sets_mk, sets_eta]

@[simp] theorem modSess_sets {s0 x1 x2} : (State.modSess s0 x1 x2).sets = s0.sets := by
  unfold State.modSess
  simp only [sets_mk, sets_eta]

@[simp] theorem modQp_sets {s0 x1 x2 x3} : (State.modQp s0 x1 x2 x3).sets = s0.sets := by
  unfold State.modQp
  simp only [sets_mk, sets_eta]

@[simp] theorem complete_sets {s0 x1 x2 x3 x4 x5} : (State.complete s0 x1 x2 x3 x4 x5).sets = s0.sets := by
  unfold State.complete
  with_reducible repeat' first
    | assumption
    | rfl
    | (extract_lets +onlyGivenNames y
       refine (show (y.sets = s0.sets → _) from fun h => ?_) ?_
       on_goal 1 => clear_value y
       on_goal 2 => (simp only [y]; try clear y))
    | (extract_lets +onlyGivenNames y; clear_value y)
    | refine ite_sets ?_ ?_
    | (simp only [*, modQp_sets, raise_sets, raiseB0_sets, sets_mk, sets_eta]; done)
    | split
    | (simp [*]; done)
    | simp only [*, modQp_sets, raise_sets, raiseB0_sets, sets_mk, sets_eta]

@[simp] theorem serveConts_sets {s0 x1 x2 x3 x4} : (State.serveConts s0 x1 x2 x3 x4).sets = s0.sets := by
  induction x3 generalizing s0 x4 with
  | nil => cases x4 <;> rfl
  | cons r rs ih =>
    cases x4 with
    | nil => rfl
    | cons a l =>
      unfold State.serveConts
      exact ih.trans (complete_sets.trans modQp_sets)

@[simp] theorem addConts_sets {s0 x1 x2 x3} : (State.addConts s0 x1 x2 x3).sets = s0.sets := by
  unfold State.addConts
  simp only [modQp_sets, serveConts_sets, sets_mk, sets_eta]

@[simp] theorem sendUnits_sets {s0 x1 x2} : (State.sendUnits s0 x1 x2).sets = s0.sets := by
  induction x2 generalizing s0 with
  | nil => rfl
  | cons r rs ih =>
    unfold State.sendUnits
    exact ih.trans unitSend_sets

@[simp] theorem send_sets {s0 x1 x2 x3} : (State.send s0 x1 x2 x3).sets = s0.sets := by
  unfold State.send
  with_reducible repeat' first
    | assumption
    | rfl
    | (extract_lets +onlyGivenNames y
       refine (show (y.sets = s0.sets → _) from fun h => ?_) ?_
       on_goal 1 => clear_value y
       on_goal 2 => (simp only [y]; try clear y))
    | (extract_lets +onlyGivenNames y; clear_value y)
    | refine ite_sets ?_ ?_
    | (simp only [*, complete_sets, addConts_sets, sendUnits_sets, sets_mk, sets_eta]; done)
    | split
    | (simp [*]; done)
    | simp only [*, complete_sets, addConts_sets, sendUnits_sets, sets_mk, sets_eta]

@[simp] theorem sendTimes_sets {s0 x1 x2 x3 x4} : (State.sendTimes s0 x1 x2 x3 x4).sets = s0.sets := by
  induction x4 generalizing s0 with
  | zero => rfl
  | succ n ih =>
    unfold State.sendTimes
    exact ih.trans send_sets

@[simp] theorem dropStream_sets {s0 x1} : (State.dropStream s0 x1).sets = s0.sets := by
  unfold State.dropStream
  with_reducible repeat' first
    | assumption
    | rfl
    | (extract_lets +onlyGivenNames y; clear_value y)
    | refine ite_sets ?_ ?_
    | (simp only [*, setBusy_sets, sets_mk, sets_eta]; done)
    | split
    | (simp [*]; done)
    | simp only [*, setBusy_sets, sets_mk, sets_eta]

@[simp] theorem answer_sets {s0 x1 x2 x3} : (State.answer s0 x1 x2 x3).sets = s0.sets := by
  unfold State.answer
  with_reducible repeat' first
    | assumption
    | rfl
    | (extract_lets +onlyGivenNames y
       refine (show (y.sets = s0.sets → _) from fun h => ?_) ?_
       on_goal 1 => clear_value y
       on_goal 2 => (simp only [y]; try clear y))
    | (extract_lets +onlyGivenNames y; clear_value y)
    | refine ite_sets ?_ ?_
    | (simp only [*, dropStream_sets, modSess_sets, sendTimes_sets, sets_mk, sets_eta]; done)
    | split
    | (simp [*]; done)
    | simp only [*, dropStream_sets, modSess_sets, sendTimes_sets, sets_mk, sets_eta]

@[simp] theorem finishHeld_sets {s0 x1 x2} : (State.finishHeld s0 x1 x2).sets = s0.sets := by
  unfold State.finishHeld
  with_reducible repeat' first
    | assumption
    | rfl
    | (extract_lets +onlyGivenNames y; clear_value y)
    | (simp only [*, answer_sets, setBusy_sets, sets_mk, sets_eta]; done)
    | split
    | (simp [*]; done)
    | simp only [*, answer_sets, setBusy_sets, sets_mk, sets_eta]

@[simp] theorem finishKind_sets {s0 x1 x2} : (State.finishKind s0 x1 x2).sets = s0.sets := by
  unfold State.finishKind
  with_reducible repeat' first
    | assumption
    | rfl
    | (extract_lets +onlyGivenNames y; clear_value y)
    | (refine (foldl_sets ?_).trans ?_; on_goal 1 => intro s0 _)
    | refine ite_sets ?_ ?_
    | (simp only [*, finishHeld_sets, sets_mk, sets_eta]; done)
    | split
    | (simp [*]; done)
    | simp only [*, finishHeld_sets, sets_mk, sets_eta]

@[simp] theorem modBmp_sets {s0 x1 x2} : (State.modBmp s0 x1 x2).sets = s0.sets := by
  unfold State.modBmp
  simp only [sets_mk, sets_eta]

@[simp] theorem modMpAcc_sets {s0 x1 x2} : (State.modMpAcc s0 x1 x2).sets = s0.sets := by
  unfold State.modMpAcc
  simp only [sets_mk, sets_eta]

@[simp] theorem driveContactor_sets {s0 x1} : (State.driveContactor s0 x1).sets = s0.sets := by
  unfold State.driveContactor
  with_reducible repeat' first
    | assumption
    | rfl
    | (extract_lets +onlyGivenNames y
       refine (show (y.sets = s0.sets → _) from fun h => ?_) ?_
       on_goal 1 => clear_value y
       on_goal 2 => (simp only [y]; try clear y))
    | (extract_lets +onlyGivenNames y
       have hk : Kiln.ph y = Kiln.ph (State.kiln _) := rfl
       clear_value y)
    | (extract_lets +onlyGivenNames y; clear_value y)
    | refine ite_sets ?_ ?_
    | (simp only [*, sets_mk, sets_eta]; done)
    | split
    | (simp [*]; done)
    | simp only [*, sets_mk, sets_eta]

@[simp] theorem setSupply_sets {s0 x1 x2} : (State.setSupply s0 x1 x2).sets = s0.sets := by
  unfold State.setSupply
  with_reducible repeat' first
    | assumption
    | rfl
    | (extract_lets +onlyGivenNames y
       refine (show (y.sets = s0.sets → _) from fun h => ?_) ?_
       on_goal 1 => clear_value y
       on_goal 2 => (simp only [y]; try clear y))
    | (extract_lets +onlyGivenNames y; clear_value y)
    | refine ite_sets ?_ ?_
    | (simp only [*, modBmp_sets, modMpAcc_sets, driveContactor_sets, sets_mk, sets_eta]; done)
    | split
    | (simp [*]; done)
    | simp only [*, modBmp_sets, modMpAcc_sets, driveContactor_sets, sets_mk, sets_eta]

@[simp] theorem decideSupply_sets {s0 x1} : (State.decideSupply s0 x1).sets = s0.sets := by
  unfold State.decideSupply
  with_reducible repeat' first
    | assumption
    | rfl
    | (extract_lets +onlyGivenNames y
       refine (show (y.sets = s0.sets → _) from fun h => ?_) ?_
       on_goal 1 => clear_value y
       on_goal 2 => (simp only [y]; try clear y))
    | (extract_lets +onlyGivenNames y; clear_value y)
    | refine ite_sets ?_ ?_
    | (simp only [*, setSupply_sets, sets_mk, sets_eta]; done)
    | split
    | (simp [*]; done)
    | simp only [*, setSupply_sets, sets_mk, sets_eta]

@[simp] theorem decidePrepay_sets {s0 x1} : (State.decidePrepay s0 x1).sets = s0.sets := by
  unfold State.decidePrepay
  simp only [modBmp_sets, level_sets, decideSupply_sets, sets_mk, sets_eta]

@[simp] theorem charge_sets {s0 x1 x2 x3 x4} : (State.charge s0 x1 x2 x3 x4).sets = s0.sets := by
  unfold State.charge
  with_reducible repeat' first
    | assumption
    | rfl
    | (extract_lets +onlyGivenNames y
       refine (show (y.sets = s0.sets → _) from fun h => ?_) ?_
       on_goal 1 => clear_value y
       on_goal 2 => (simp only [y]; try clear y))
    | (extract_lets +onlyGivenNames y; clear_value y)
    | refine ite_sets ?_ ?_
    | (simp only [*, modBmp_sets, decidePrepay_sets, sets_mk, sets_eta]; done)
    | split
    | (simp [*]; done)
    | simp only [*, modBmp_sets, decidePrepay_sets, sets_mk, sets_eta]

@[simp] theorem legalEvent_sets {s0} : (State.legalEvent s0).sets = s0.sets := by
  unfold State.legalEvent
  with_reducible repeat' first
    | assumption
    | rfl
    | (extract_lets +onlyGivenNames y; clear_value y)
    | refine ite_sets ?_ ?_
    | (simp only [*, pulse_sets, sets_mk, sets_eta]; done)
    | split
    | (simp [*]; done)
    | simp only [*, pulse_sets, sets_mk, sets_eta]

@[simp] theorem publishLcv_sets {s0} : (State.publishLcv s0).sets = s0.sets := by
  unfold State.publishLcv
  with_reducible repeat' first
    | assumption
    | rfl
    | (extract_lets +onlyGivenNames y
       refine (show (y.sets = s0.sets → _) from fun h => ?_) ?_
       on_goal 1 => clear_value y
       on_goal 2 => (simp only [y]; try clear y))
    | (extract_lets +onlyGivenNames y; clear_value y)
    | refine ite_sets ?_ ?_
    | (simp only [*, legalEvent_sets, sets_mk, sets_eta]; done)
    | split
    | (simp [*]; done)
    | simp only [*, legalEvent_sets, sets_mk, sets_eta]

@[simp] theorem modChan_sets {s0 x1 x2} : (State.modChan s0 x1 x2).sets = s0.sets := by
  unfold State.modChan
  simp only [sets_mk, sets_eta]

@[simp] theorem modCourse_sets {s0 x1 x2} : (State.modCourse s0 x1 x2).sets = s0.sets := by
  unfold State.modCourse
  simp only [sets_mk, sets_eta]

@[simp] theorem modMclk_sets {s0 x1 x2} : (State.modMclk s0 x1 x2).sets = s0.sets := by
  unfold State.modMclk
  simp only [sets_mk, sets_eta]

@[simp] theorem startCourse_sets {s0 x1 x2} : (State.startCourse s0 x1 x2).sets = s0.sets := by
  unfold State.startCourse
  with_reducible repeat' first
    | assumption
    | rfl
    | (extract_lets +onlyGivenNames y
       refine (show (y.sets = s0.sets → _) from fun h => ?_) ?_
       on_goal 1 => clear_value y
       on_goal 2 => (simp only [y]; try clear y))
    | (extract_lets +onlyGivenNames y; clear_value y)
    | (refine (foldl_sets ?_).trans ?_; on_goal 1 => intro s0 _)
    | (simp only [*, modCourse_sets, modChan_sets, sets_mk, sets_eta]; done)
    | split
    | (simp [*]; done)
    | simp only [*, modCourse_sets, modChan_sets, sets_mk, sets_eta]

@[simp] theorem quietChannel_sets {s0 x1} : (State.quietChannel s0 x1).sets = s0.sets := by
  unfold State.quietChannel
  with_reducible repeat' first
    | assumption
    | rfl
    | (refine (foldl_sets ?_).trans ?_; on_goal 1 => intro s0 _)
    | (simp only [*, level_sets, sets_mk, sets_eta]; done)
    | split
    | (simp [*]; done)
    | simp only [*, level_sets, sets_mk, sets_eta]

@[simp] theorem stopCourse_sets {s0 x1} : (State.stopCourse s0 x1).sets = s0.sets := by
  unfold State.stopCourse
  with_reducible repeat' first
    | assumption
    | rfl
    | (extract_lets +onlyGivenNames y
       refine (show (y.sets = s0.sets → _) from fun h => ?_) ?_
       on_goal 1 => clear_value y
       on_goal 2 => (simp only [y]; try clear y))
    | (extract_lets +onlyGivenNames y; clear_value y)
    | (refine (foldl_sets ?_).trans ?_; on_goal 1 => intro s0 _)
    | (simp only [*, modCourse_sets, modMclk_sets, quietChannel_sets, modChan_sets, sets_mk, sets_eta]; done)
    | split
    | (simp [*]; done)
    | simp only [*, modCourse_sets, modMclk_sets, quietChannel_sets, modChan_sets, sets_mk, sets_eta]

@[simp] theorem setTc_sets {s0 x1 x2 x3 x4} : (State.setTc s0 x1 x2 x3 x4).sets = s0.sets := by
  unfold State.setTc
  simp only [modChan_sets, sets_mk, sets_eta]

@[simp] theorem tcApply_sets {s0 x1 x2} : (State.tcApply s0 x1 x2).sets = s0.sets := by
  unfold State.tcApply
  simp only [setTc_sets, sets_mk, sets_eta]

@[simp] theorem modChm_sets {s0 x1 x2} : (State.modChm s0 x1 x2).sets = s0.sets := by
  unfold State.modChm
  simp only [sets_mk, sets_eta]

@[simp] theorem modElem_sets {s0 x1 x2} : (State.modElem s0 x1 x2).sets = s0.sets := by
  unfold State.modElem
  simp only [sets_mk, sets_eta]

@[simp] theorem modVs_sets {s0 x1 x2} : (State.modVs s0 x1 x2).sets = s0.sets := by
  unfold State.modVs
  simp only [sets_mk, sets_eta]

@[simp] theorem modBond_sets {s0 x1 x2} : (State.modBond s0 x1 x2).sets = s0.sets := by
  unfold State.modBond
  simp only [sets_mk, sets_eta]

@[simp] theorem startDetector_sets {s0 x1} : (State.startDetector s0 x1).sets = s0.sets := by
  unfold State.startDetector
  with_reducible repeat' first
    | assumption
    | rfl
    | (extract_lets +onlyGivenNames y
       refine (show (y.sets = s0.sets → _) from fun h => ?_) ?_
       on_goal 1 => clear_value y
       on_goal 2 => (simp only [y]; try clear y))
    | (extract_lets +onlyGivenNames y; clear_value y)
    | (refine (foldl_sets ?_).trans ?_; on_goal 1 => intro s0 _)
    | (simp only [*, modVs_sets, modChm_sets, modElem_sets, sets_mk, sets_eta]; done)
    | split
    | (simp [*]; done)
    | simp only [*, modVs_sets, modChm_sets, modElem_sets, sets_mk, sets_eta]

@[simp] theorem cycleFreq_sets {s0 x1 x2} : (State.cycleFreq s0 x1 x2).sets = s0.sets := by
  unfold State.cycleFreq
  with_reducible repeat' first
    | assumption
    | rfl
    | (extract_lets +onlyGivenNames y
       refine (show (y.sets = s0.sets → _) from fun h => ?_) ?_
       on_goal 1 => clear_value y
       on_goal 2 => (simp only [y]; try clear y))
    | (extract_lets +onlyGivenNames y; clear_value y)
    | refine ite_sets ?_ ?_
    | (simp only [*, modVs_sets, sets_mk, sets_eta]; done)
    | split
    | (simp [*]; done)
    | simp only [*, modVs_sets, sets_mk, sets_eta]

@[simp] theorem overcurrent_sets {s0 x1 x2 x3} : (State.overcurrent s0 x1 x2 x3).sets = s0.sets := by
  unfold State.overcurrent
  with_reducible repeat' first
    | assumption
    | rfl
    | (extract_lets +onlyGivenNames y
       refine (show (y.sets = s0.sets → _) from fun h => ?_) ?_
       on_goal 1 => clear_value y
       on_goal 2 => (simp only [y]; try clear y))
    | (extract_lets +onlyGivenNames y; clear_value y)
    | refine ite_sets ?_ ?_
    | (simp only [*, levelAt_sets, modChm_sets, sets_mk, sets_eta]; done)
    | split
    | (simp [*]; done)
    | simp only [*, levelAt_sets, modChm_sets, sets_mk, sets_eta]

@[simp] theorem halfRefresh_sets {s0 x1 x2} : (State.halfRefresh s0 x1 x2).sets = s0.sets := by
  unfold State.halfRefresh
  with_reducible repeat' first
    | assumption
    | rfl
    | (extract_lets +onlyGivenNames y
       refine (show (y.sets = s0.sets → _) from fun h => ?_) ?_
       on_goal 1 => clear_value y
       on_goal 2 => (simp only [y]; try clear y))
    | (extract_lets +onlyGivenNames y; clear_value y)
    | (simp only [*, modChm_sets, sets_mk, sets_eta]; done)
    | split
    | (simp [*]; done)
    | simp only [*, modChm_sets, sets_mk, sets_eta]

@[simp] theorem elemBoundary_sets {s0 x1 x2} : (State.elemBoundary s0 x1 x2).sets = s0.sets := by
  unfold State.elemBoundary
  simp only [modElem_sets, sets_mk, sets_eta]

@[simp] theorem registerLevel_sets {s0 x1 x2 x3} : (State.registerLevel s0 x1 x2 x3).sets = s0.sets := by
  unfold State.registerLevel
  simp only [levelAt_sets, sets_mk, sets_eta]

@[simp] theorem setCreep_sets {s0 x1 x2 x3 x4 x5} : (State.setCreep s0 x1 x2 x3 x4 x5).sets = s0.sets := by
  unfold State.setCreep
  simp only [modChm_sets, registerLevel_sets, levelAt_sets, sets_mk, sets_eta]

@[simp] theorem beginCreep_sets {s0 x1} : (State.beginCreep s0 x1).sets = s0.sets := by
  unfold State.beginCreep
  with_reducible repeat' first
    | assumption
    | rfl
    | (refine (foldl_sets ?_).trans ?_; on_goal 1 => intro s0 _)
    | (simp only [*, setCreep_sets, sets_mk, sets_eta]; done)
    | split
    | (simp [*]; done)
    | simp only [*, setCreep_sets, sets_mk, sets_eta]

@[simp] theorem openWindow_sets {s0 x1 x2} : (State.openWindow s0 x1 x2).sets = s0.sets := by
  unfold State.openWindow
  simp only [modVs_sets, sets_mk, sets_eta]

@[simp] theorem closeWindow_sets {s0 x1 x2 x3 x4} : (State.closeWindow s0 x1 x2 x3 x4).sets = s0.sets := by
  unfold State.closeWindow
  with_reducible repeat' first
    | assumption
    | rfl
    | (extract_lets +onlyGivenNames y
       refine (show (y.sets = s0.sets → _) from fun h => ?_) ?_
       on_goal 1 => clear_value y
       on_goal 2 => (simp only [y]; try clear y))
    | (extract_lets +onlyGivenNames y; clear_value y)
    | (simp only [*, modVs_sets, sets_mk, sets_eta]; done)
    | split
    | (simp [*]; done)
    | simp only [*, modVs_sets, sets_mk, sets_eta]

@[simp] theorem windowBoundary_sets {s0 x1 x2} : (State.windowBoundary s0 x1 x2).sets = s0.sets := by
  unfold State.windowBoundary
  with_reducible repeat' first
    | assumption
    | rfl
    | (extract_lets +onlyGivenNames y
       refine (show (y.sets = s0.sets → _) from fun h => ?_) ?_
       on_goal 1 => clear_value y
       on_goal 2 => (simp only [y]; try clear y))
    | (extract_lets +onlyGivenNames y; clear_value y)
    | refine ite_sets ?_ ?_
    | (simp only [*, openWindow_sets, modVs_sets, closeWindow_sets, sets_mk, sets_eta]; done)
    | split
    | (simp [*]; done)
    | simp only [*, openWindow_sets, modVs_sets, closeWindow_sets, sets_mk, sets_eta]

@[simp] theorem modGen_sets {s0 x1 x2} : (State.modGen s0 x1 x2).sets = s0.sets := by
  unfold State.modGen
  simp only [sets_mk, sets_eta]

@[simp] theorem feedPulses_sets {s0 x1 x2 x3 x4} : (State.feedPulses s0 x1 x2 x3 x4).sets = s0.sets := by
  unfold State.feedPulses
  with_reducible repeat' first
    | assumption
    | rfl
    | (refine (foldl_sets ?_).trans ?_; on_goal 1 => intro s0 _)
    | refine ite_sets ?_ ?_
    | (simp only [*, modGen_sets, sets_mk, sets_eta]; done)
    | split
    | (simp [*]; done)
    | simp only [*, modGen_sets, sets_mk, sets_eta]

@[simp] theorem drivePulse_sets {s0 x1 x2} : (State.drivePulse s0 x1 x2).sets = s0.sets := by
  unfold State.drivePulse
  simp only [sets_mk, sets_eta]

@[simp] theorem addReg_sets {s0 x1 x2 x3 x4 x5} : (State.addReg s0 x1 x2 x3 x4 x5).sets = s0.sets := by
  unfold State.addReg
  with_reducible repeat' first
    | assumption
    | rfl
    | (extract_lets +onlyGivenNames y
       refine (show (y.sets = s0.sets → _) from fun h => ?_) ?_
       on_goal 1 => clear_value y
       on_goal 2 => (simp only [y]; try clear y))
    | (extract_lets +onlyGivenNames y; clear_value y)
    | refine ite_sets ?_ ?_
    | (simp only [*, modMpAcc_sets, modBmp_sets, feedPulses_sets, sets_mk, sets_eta]; done)
    | split
    | (simp [*]; done)
    | simp only [*, modMpAcc_sets, modBmp_sets, feedPulses_sets, sets_mk, sets_eta]

@[simp] theorem elemTransfer_sets {s0 x1 x2 x3 x4} : (State.elemTransfer s0 x1 x2 x3 x4).sets = s0.sets := by
  unfold State.elemTransfer
  with_reducible repeat' first
    | assumption
    | rfl
    | (extract_lets +onlyGivenNames y
       refine (show (y.sets = s0.sets → _) from fun h => ?_) ?_
       on_goal 1 => clear_value y
       on_goal 2 => (simp only [y]; try clear y))
    | (extract_lets +onlyGivenNames y; clear_value y)
    | refine ite_sets ?_ ?_
    | (simp only [*, addReg_sets, modElem_sets, sets_mk, sets_eta]; done)
    | split
    | (simp [*]; done)
    | simp only [*, addReg_sets, modElem_sets, sets_mk, sets_eta]

@[simp] theorem setDir_sets {s0 x1 x2 x3 x4} : (State.setDir s0 x1 x2 x3 x4).sets = s0.sets := by
  unfold State.setDir
  with_reducible repeat' first
    | assumption
    | rfl
    | (extract_lets +onlyGivenNames y; clear_value y)
    | refine ite_sets ?_ ?_
    | (simp only [*, occurAt_sets, modMpAcc_sets, sets_mk, sets_eta]; done)
    | split
    | (simp [*]; done)
    | simp only [*, occurAt_sets, modMpAcc_sets, sets_mk, sets_eta]

@[simp] theorem transferMp_sets {s0 x1 x2 x3 x4} : (State.transferMp s0 x1 x2 x3 x4).sets = s0.sets := by
  unfold State.transferMp
  with_reducible repeat' first
    | assumption
    | rfl
    | (extract_lets +onlyGivenNames y
       refine (show (y.sets = s0.sets → _) from fun h => ?_) ?_
       on_goal 1 => clear_value y
       on_goal 2 => (simp only [y]; try clear y))
    | (extract_lets +onlyGivenNames y; clear_value y)
    | (refine (foldl_sets ?_).trans ?_; on_goal 1 => intro s0 _)
    | refine ite_sets ?_ ?_
    | (simp only [*, elemTransfer_sets, setDir_sets, addReg_sets, charge_sets, modBmp_sets, modMpAcc_sets, sets_mk, sets_eta]; done)
    | split
    | (simp [*]; done)
    | simp only [*, elemTransfer_sets, setDir_sets, addReg_sets, charge_sets, modBmp_sets, modMpAcc_sets, sets_mk, sets_eta]

@[simp] theorem apparentTransfer_sets {s0 x1 x2 x3} : (State.apparentTransfer s0 x1 x2 x3).sets = s0.sets := by
  unfold State.apparentTransfer
  with_reducible repeat' first
    | assumption
    | rfl
    | (extract_lets +onlyGivenNames y
       refine (show (y.sets = s0.sets → _) from fun h => ?_) ?_
       on_goal 1 => clear_value y
       on_goal 2 => (simp only [y]; try clear y))
    | (extract_lets +onlyGivenNames y; clear_value y)
    | (refine (foldl_sets ?_).trans ?_; on_goal 1 => intro s0 _)
    | refine ite_sets ?_ ?_
    | (simp only [*, modMpAcc_sets, addReg_sets, sets_mk, sets_eta]; done)
    | split
    | (simp [*]; done)
    | simp only [*, modMpAcc_sets, addReg_sets, sets_mk, sets_eta]

@[simp] theorem modDi_sets {s0 x1 x2} : (State.modDi s0 x1 x2).sets = s0.sets := by
  unfold State.modDi
  simp only [sets_mk, sets_eta]

@[simp] theorem diLatch_sets {s0 x1} : (State.diLatch s0 x1).sets = s0.sets := by
  unfold State.diLatch
  simp only [level_sets, modDi_sets, sets_mk, sets_eta]

@[simp] theorem markIntervals_sets {s0 x1} : (State.markIntervals s0 x1).sets = s0.sets := by
  unfold State.markIntervals
  with_reducible repeat' first
    | assumption
    | rfl
    | (extract_lets +onlyGivenNames y; clear_value y)
    | (refine (foldl_sets ?_).trans ?_; on_goal 1 => intro s0 _)
    | (simp only [*, modBmp_sets, sets_mk, sets_eta]; done)
    | split
    | (simp [*]; done)
    | simp only [*, modBmp_sets, sets_mk, sets_eta]

@[simp] theorem openInterval_sets {s0 x1 x2} : (State.openInterval s0 x1 x2).sets = s0.sets := by
  unfold State.openInterval
  simp only [modBmp_sets, sets_mk, sets_eta]

@[simp] theorem pushEnd_sets {s0 x1 x2 x3 x4 x5 x6} : (State.pushEnd s0 x1 x2 x3 x4 x5 x6).sets = s0.sets := by
  unfold State.pushEnd
  simp only [modBmp_sets, sets_mk, sets_eta]

@[simp] theorem closeInterval_sets {s0 x1 x2} : (State.closeInterval s0 x1 x2).sets = s0.sets := by
  unfold State.closeInterval
  simp only [transferMp_sets, pulse_sets, modBmp_sets, sets_mk, sets_eta]

@[simp] theorem closeSub_sets {s0 x1 x2} : (State.closeSub s0 x1 x2).sets = s0.sets := by
  unfold State.closeSub
  simp only [modBmp_sets, sets_mk, sets_eta]

@[simp] theorem capture_sets {s0 x1 x2} : (State.capture s0 x1 x2).sets = s0.sets := by
  unfold State.capture
  simp only [modBmp_sets, sets_mk, sets_eta]

@[simp] theorem settleEnd_sets {s0 x1} : (State.settleEnd s0 x1).sets = s0.sets := by
  unfold State.settleEnd
  with_reducible repeat' first
    | assumption
    | rfl
    | (extract_lets +onlyGivenNames y
       refine (show (y.sets = s0.sets → _) from fun h => ?_) ?_
       on_goal 1 => clear_value y
       on_goal 2 => (simp only [y]; try clear y))
    | (extract_lets +onlyGivenNames y; clear_value y)
    | refine ite_sets ?_ ?_
    | (simp only [*, modBmp_sets, closeInterval_sets, closeSub_sets, capture_sets, sets_mk, sets_eta]; done)
    | split
    | (simp [*]; done)
    | simp only [*, modBmp_sets, closeInterval_sets, closeSub_sets, capture_sets, sets_mk, sets_eta]

@[simp] theorem settle_sets {s0 x1 x2} : (State.settle s0 x1 x2).sets = s0.sets := by
  unfold State.settle
  with_reducible repeat' first
    | assumption
    | rfl
    | (extract_lets +onlyGivenNames y; clear_value y)
    | (refine (foldl_sets ?_).trans ?_; on_goal 1 => intro s0 _)
    | refine ite_sets ?_ ?_
    | (simp only [*, settleEnd_sets, sets_mk, sets_eta]; done)
    | split
    | (simp [*]; done)
    | simp only [*, settleEnd_sets, sets_mk, sets_eta]

@[simp] theorem settleAll_sets {s0} : (State.settleAll s0).sets = s0.sets := by
  unfold State.settleAll
  with_reducible repeat' first
    | assumption
    | rfl
    | (refine (foldl_sets ?_).trans ?_; on_goal 1 => intro s0 _)
    | (simp only [*, settle_sets, sets_mk, sets_eta]; done)
    | split
    | (simp [*]; done)
    | simp only [*, settle_sets, sets_mk, sets_eta]

@[simp] theorem pushEnds_sets {s0 x1 x2 x3 x4 x5} : (State.pushEnds s0 x1 x2 x3 x4 x5).sets = s0.sets := by
  unfold State.pushEnds
  with_reducible repeat' first
    | assumption
    | rfl
    | (refine (foldl_sets ?_).trans ?_; on_goal 1 => intro s0 _)
    | (simp only [*, pushEnd_sets, sets_mk, sets_eta]; done)
    | split
    | (simp [*]; done)
    | simp only [*, pushEnd_sets, sets_mk, sets_eta]

@[simp] theorem swapInterval_sets {s0 x1} : (State.swapInterval s0 x1).sets = s0.sets := by
  unfold State.swapInterval
  simp only [sets_mk, sets_eta]

@[simp] theorem profGridEnd_sets {s0} : (State.profGridEnd s0).sets = s0.sets := by
  unfold State.profGridEnd
  with_reducible repeat' first
    | assumption
    | rfl
    | (extract_lets +onlyGivenNames y
       refine (show (y.sets = s0.sets → _) from fun h => ?_) ?_
       on_goal 1 => clear_value y
       on_goal 2 => (simp only [y]; try clear y))
    | (extract_lets +onlyGivenNames y; clear_value y)
    | refine ite_sets ?_ ?_
    | (simp only [*, swapInterval_sets, pushEnds_sets, sets_mk, sets_eta]; done)
    | split
    | (simp [*]; done)
    | simp only [*, swapInterval_sets, pushEnds_sets, sets_mk, sets_eta]

@[simp] theorem rateChange_sets {s0} : (State.rateChange s0).sets = s0.sets := by
  unfold State.rateChange
  with_reducible repeat' first
    | assumption
    | rfl
    | (extract_lets +onlyGivenNames y
       refine (show (y.sets = s0.sets → _) from fun h => ?_) ?_
       on_goal 1 => clear_value y
       on_goal 2 => (simp only [y]; try clear y))
    | (extract_lets +onlyGivenNames y; clear_value y)
    | (refine (foldl_sets ?_).trans ?_; on_goal 1 => intro s0 _)
    | refine ite_sets ?_ ?_
    | (simp only [*, modBmp_sets, sets_mk, sets_eta]; done)
    | split
    | (simp [*]; done)
    | simp only [*, modBmp_sets, sets_mk, sets_eta]

@[simp] theorem activateTariff_sets {s0} : (State.activateTariff s0).sets = s0.sets := by
  unfold State.activateTariff
  simp only [markIntervals_sets, rateChange_sets, sets_mk, sets_eta]

@[simp] theorem billBeforeStep_sets {s0 x1} : (State.billBeforeStep s0 x1).sets = s0.sets := by
  unfold State.billBeforeStep
  simp only [pushEnds_sets, sets_mk, sets_eta]

@[simp] theorem billAfterStep_sets {s0 x1} : (State.billAfterStep s0 x1).sets = s0.sets := by
  unfold State.billAfterStep
  with_reducible repeat' first
    | assumption
    | rfl
    | (extract_lets +onlyGivenNames y
       refine (show (y.sets = s0.sets → _) from fun h => ?_) ?_
       on_goal 1 => clear_value y
       on_goal 2 => (simp only [y]; try clear y))
    | (extract_lets +onlyGivenNames y; clear_value y)
    | refine ite_sets ?_ ?_
    | (simp only [*, rateChange_sets, legalEvent_sets, activateTariff_sets, sets_mk, sets_eta]; done)
    | split
    | (simp [*]; done)
    | simp only [*, rateChange_sets, legalEvent_sets, activateTariff_sets, sets_mk, sets_eta]

@[simp] theorem modMon_sets {s0 x1 x2} : (State.modMon s0 x1 x2).sets = s0.sets := by
  unfold State.modMon
  simp only [sets_mk, sets_eta]

@[simp] theorem modPqc_sets {s0 x1 x2} : (State.modPqc s0 x1 x2).sets = s0.sets := by
  unfold State.modPqc
  simp only [sets_mk, sets_eta]

@[simp] theorem pqAdd_sets {s0 x1 x2} : (State.pqAdd s0 x1 x2).sets = s0.sets := by
  unfold State.pqAdd
  with_reducible repeat' first
    | assumption
    | rfl
    | (extract_lets +onlyGivenNames y
       refine (show (y.sets = s0.sets → _) from fun h => ?_) ?_
       on_goal 1 => clear_value y
       on_goal 2 => (simp only [y]; try clear y))
    | (extract_lets +onlyGivenNames y; clear_value y)
    | refine ite_sets ?_ ?_
    | (simp only [*, pulse_sets, sets_mk, sets_eta]; done)
    | split
    | (simp [*]; done)
    | simp only [*, pulse_sets, sets_mk, sets_eta]

@[simp] theorem modRec_sets {s0 x1 x2} : (State.modRec s0 x1 x2).sets = s0.sets := by
  unfold State.modRec
  simp only [sets_mk, sets_eta]

@[simp] theorem markOpen_sets {s0 x1 x2} : (State.markOpen s0 x1 x2).sets = s0.sets := by
  unfold State.markOpen
  with_reducible repeat' first
    | assumption
    | rfl
    | (extract_lets +onlyGivenNames y; clear_value y)
    | (refine (foldl_sets ?_).trans ?_; on_goal 1 => intro s0 _)
    | (simp only [*, modMon_sets, modRec_sets, sets_mk, sets_eta]; done)
    | split
    | (simp [*]; done)
    | simp only [*, modMon_sets, modRec_sets, sets_mk, sets_eta]

@[simp] theorem evalEvent_sets {s0 x1 x2 x3 x4 x5 x6} : (State.evalEvent s0 x1 x2 x3 x4 x5 x6).sets = s0.sets := by
  unfold State.evalEvent
  with_reducible repeat' first
    | assumption
    | rfl
    | (extract_lets +onlyGivenNames y
       refine (show (y.sets = s0.sets → _) from fun h => ?_) ?_
       on_goal 1 => clear_value y
       on_goal 2 => (simp only [y]; try clear y))
    | (extract_lets +onlyGivenNames y; clear_value y)
    | (refine (foldl_sets ?_).trans ?_; on_goal 1 => intro s0 _)
    | refine ite_sets ?_ ?_
    | (simp only [*, modMon_sets, pqAdd_sets, modRec_sets, levelAt_sets, sets_mk, sets_eta]; done)
    | split
    | (simp [*]; done)
    | simp only [*, modMon_sets, pqAdd_sets, modRec_sets, levelAt_sets, sets_mk, sets_eta]

@[simp] theorem pqSource_sets {s0 x1 x2 x3 x4} : (State.pqSource s0 x1 x2 x3 x4).sets = s0.sets := by
  unfold State.pqSource
  with_reducible repeat' first
    | assumption
    | rfl
    | (extract_lets +onlyGivenNames y
       refine (show (y.sets = s0.sets → _) from fun h => ?_) ?_
       on_goal 1 => clear_value y
       on_goal 2 => (simp only [y]; try clear y))
    | (extract_lets +onlyGivenNames y; clear_value y)
    | refine ite_sets ?_ ?_
    | (simp only [*, levelAt_sets, modPqc_sets, sets_mk, sets_eta]; done)
    | split
    | (simp [*]; done)
    | simp only [*, levelAt_sets, modPqc_sets, sets_mk, sets_eta]

@[simp] theorem rvcDiscard_sets {s0 x1} : (State.rvcDiscard s0 x1).sets = s0.sets := by
  unfold State.rvcDiscard
  simp only [level_sets, modMon_sets, sets_mk, sets_eta]

@[simp] theorem rvcEval_sets {s0 x1 x2 x3 x4 x5} : (State.rvcEval s0 x1 x2 x3 x4 x5).sets = s0.sets := by
  unfold State.rvcEval
  with_reducible repeat' first
    | assumption
    | rfl
    | (extract_lets +onlyGivenNames y
       refine (show (y.sets = s0.sets → _) from fun h => ?_) ?_
       on_goal 1 => clear_value y
       on_goal 2 => (simp only [y]; try clear y))
    | (extract_lets +onlyGivenNames y; clear_value y)
    | (refine (foldl_sets ?_).trans ?_; on_goal 1 => intro s0 _)
    | refine ite_sets ?_ ?_
    | (simp only [*, rvcDiscard_sets, modPqc_sets, levelAt_sets, modMon_sets, sets_mk, sets_eta]; done)
    | split
    | (simp [*]; done)
    | simp only [*, rvcDiscard_sets, modPqc_sets, levelAt_sets, modMon_sets, sets_mk, sets_eta]

@[simp] theorem pqBoundary_sets {s0 x1 x2 x3} : (State.pqBoundary s0 x1 x2 x3).sets = s0.sets := by
  unfold State.pqBoundary
  with_reducible repeat' first
    | assumption
    | rfl
    | (extract_lets +onlyGivenNames y
       refine (show (y.sets = s0.sets → _) from fun h => ?_) ?_
       on_goal 1 => clear_value y
       on_goal 2 => (simp only [y]; try clear y))
    | (extract_lets +onlyGivenNames y; clear_value y)
    | (refine (foldl_sets ?_).trans ?_; on_goal 1 => intro s0 _)
    | refine ite_sets ?_ ?_
    | (simp only [*, markOpen_sets, evalEvent_sets, pqSource_sets, rvcEval_sets, modPqc_sets, sets_mk, sets_eta]; done)
    | split
    | (simp [*]; done)
    | simp only [*, markOpen_sets, evalEvent_sets, pqSource_sets, rvcEval_sets, modPqc_sets, sets_mk, sets_eta]

@[simp] theorem pqClose_sets {s0 x1 x2} : (State.pqClose s0 x1 x2).sets = s0.sets := by
  unfold State.pqClose
  with_reducible repeat' first
    | assumption
    | rfl
    | (extract_lets +onlyGivenNames y
       refine (show (y.sets = s0.sets → _) from fun h => ?_) ?_
       on_goal 1 => clear_value y
       on_goal 2 => (simp only [y]; try clear y))
    | (extract_lets +onlyGivenNames y; clear_value y)
    | (refine (foldl_sets ?_).trans ?_; on_goal 1 => intro s0 _)
    | refine ite_sets ?_ ?_
    | (simp only [*, modRec_sets, level_sets, modMon_sets, rvcDiscard_sets, modPqc_sets, sets_mk, sets_eta]; done)
    | split
    | (simp [*]; done)
    | simp only [*, modRec_sets, level_sets, modMon_sets, rvcDiscard_sets, modPqc_sets, sets_mk, sets_eta]

@[simp] theorem flickCutAt_sets {s0 x1} : (State.flickCutAt s0 x1).sets = s0.sets := by
  unfold State.flickCutAt
  with_reducible repeat' first
    | assumption
    | rfl
    | (extract_lets +onlyGivenNames y
       refine (show (y.sets = s0.sets → _) from fun h => ?_) ?_
       on_goal 1 => clear_value y
       on_goal 2 => (simp only [y]; try clear y))
    | (extract_lets +onlyGivenNames y; clear_value y)
    | (refine (foldl_sets ?_).trans ?_; on_goal 1 => intro s0 _)
    | (simp only [*, modPqc_sets, modMon_sets, sets_mk, sets_eta]; done)
    | split
    | (simp [*]; done)
    | simp only [*, modPqc_sets, modMon_sets, sets_mk, sets_eta]

@[simp] theorem flickerRestart_sets {s0 x1} : (State.flickerRestart s0 x1).sets = s0.sets := by
  unfold State.flickerRestart
  with_reducible repeat' first
    | assumption
    | rfl
    | (extract_lets +onlyGivenNames y
       refine (show (y.sets = s0.sets → _) from fun h => ?_) ?_
       on_goal 1 => clear_value y
       on_goal 2 => (simp only [y]; try clear y))
    | (extract_lets +onlyGivenNames y; clear_value y)
    | (refine (foldl_sets ?_).trans ?_; on_goal 1 => intro s0 _)
    | (simp only [*, modMon_sets, modPqc_sets, sets_mk, sets_eta]; done)
    | split
    | (simp [*]; done)
    | simp only [*, modMon_sets, modPqc_sets, sets_mk, sets_eta]

@[simp] theorem pqStep_sets {s0} : (State.pqStep s0).sets = s0.sets := by
  unfold State.pqStep
  with_reducible repeat' first
    | assumption
    | rfl
    | (extract_lets +onlyGivenNames y
       refine (show (y.sets = s0.sets → _) from fun h => ?_) ?_
       on_goal 1 => clear_value y
       on_goal 2 => (simp only [y]; try clear y))
    | (extract_lets +onlyGivenNames y; clear_value y)
    | (refine (foldl_sets ?_).trans ?_; on_goal 1 => intro s0 _)
    | refine ite_sets ?_ ?_
    | (simp only [*, markOpen_sets, flickCutAt_sets, modMon_sets, sets_mk, sets_eta]; done)
    | split
    | (simp [*]; done)
    | simp only [*, markOpen_sets, flickCutAt_sets, modMon_sets, sets_mk, sets_eta]

@[simp] theorem timeLog_sets {s0 x1 x2 x3 x4} : (State.timeLog s0 x1 x2 x3 x4).sets = s0.sets := by
  unfold State.timeLog
  simp only [sets_mk, sets_eta]

@[simp] theorem markStepped_sets {s0} : (State.markStepped s0).sets = s0.sets := by
  unfold State.markStepped
  simp only [modAllWin_sets, sets_mk, sets_eta]

@[simp] theorem timeStep_sets {s0 x1 x2 x3} : (State.timeStep s0 x1 x2 x3).sets = s0.sets := by
  unfold State.timeStep
  simp only [pqStep_sets, billBeforeStep_sets, markStepped_sets, timeLog_sets, billAfterStep_sets, pulse_sets, sets_mk, sets_eta]

@[simp] theorem startSlew_sets {s0 x1} : (State.startSlew s0 x1).sets = s0.sets := by
  unfold State.startSlew
  with_reducible repeat' first
    | assumption
    | rfl
    | (extract_lets +onlyGivenNames y
       have hk : TimeSt.index y = TimeSt.index (State.time _) ∧ TimeSt.mono y = TimeSt.mono (State.time _) := ⟨rfl, rfl⟩
       clear_value y)
    | (extract_lets +onlyGivenNames y; clear_value y)
    | refine ite_sets ?_ ?_
    | (simp only [*, level_sets, sets_mk, sets_eta]; done)
    | split
    | (simp [*]; done)
    | simp only [*, level_sets, sets_mk, sets_eta]

@[simp] theorem stepDue_sets {s0 x1 x2 x3} : (State.stepDue s0 x1 x2 x3).sets = s0.sets := by
  unfold State.stepDue
  simp only [sets_mk, sets_eta]

@[simp] theorem removeOffset_sets {s0 x1 x2} : (State.removeOffset s0 x1 x2).sets = s0.sets := by
  unfold State.removeOffset
  with_reducible repeat' first
    | assumption
    | rfl
    | refine ite_sets ?_ ?_
    | (simp only [*, startSlew_sets, stepDue_sets, sets_mk, sets_eta]; done)
    | split
    | (simp [*]; done)
    | simp only [*, startSlew_sets, stepDue_sets, sets_mk, sets_eta]

@[simp] theorem becomeValid_sets {s0} : (State.becomeValid s0).sets = s0.sets := by
  unfold State.becomeValid
  with_reducible repeat' first
    | assumption
    | rfl
    | (extract_lets +onlyGivenNames y
       refine (show (y.sets = s0.sets → _) from fun h => ?_) ?_
       on_goal 1 => clear_value y
       on_goal 2 => (simp only [y]; try clear y))
    | (extract_lets +onlyGivenNames y
       have hk : TimeSt.index y = TimeSt.index (State.time _) ∧ TimeSt.mono y = TimeSt.mono (State.time _) := ⟨rfl, rfl⟩
       clear_value y)
    | (extract_lets +onlyGivenNames y; clear_value y)
    | refine ite_sets ?_ ?_
    | (simp only [*, level_sets, sets_mk, sets_eta]; done)
    | split
    | (simp [*]; done)
    | simp only [*, level_sets, sets_mk, sets_eta]

@[simp] theorem drawRate_sets {s0} : (State.drawRate s0).2.sets = s0.sets := by
  unfold State.drawRate
  simp only [draw_sets, sets_mk, sets_eta]

@[simp] theorem holdRate_sets {s0} : (State.holdRate s0).sets = s0.sets := by
  unfold State.holdRate
  exact ite_sets rfl (ite_sets rfl drawRate_sets)

@[simp] theorem enterHoldover_sets {s0 x1} : (State.enterHoldover s0 x1).sets = s0.sets := by
  unfold State.enterHoldover
  simp only [holdRate_sets, markIntervals_sets, level_sets, startSlew_sets, sets_mk, sets_eta]

@[simp] theorem leaveHoldover_sets {s0} : (State.leaveHoldover s0).sets = s0.sets := by
  unfold State.leaveHoldover
  simp only [level_sets, sets_mk, sets_eta]

@[simp] theorem modSrc_sets {s0 x1 x2} : (State.modSrc s0 x1 x2).sets = s0.sets := by
  unfold State.modSrc
  simp only [sets_mk, sets_eta]

@[simp] theorem srcLevels_sets {s0} : (State.srcLevels s0).sets = s0.sets := by
  unfold State.srcLevels
  with_reducible repeat' first
    | assumption
    | rfl
    | (refine (foldl_sets ?_).trans ?_; on_goal 1 => intro s0 _)
    | (simp only [*, level_sets, sets_mk, sets_eta]; done)
    | split
    | (simp [*]; done)
    | simp only [*, level_sets, sets_mk, sets_eta]

@[simp] theorem pickSource_sets {s0 x1 x2} : (State.pickSource s0 x1 x2).sets = s0.sets := by
  unfold State.pickSource
  simp only [sets_mk, sets_eta]

@[simp] theorem regrid_sets {s0} : (State.regrid s0).sets = s0.sets := by
  unfold State.regrid
  simp only [sets_mk, sets_eta]

@[simp] theorem dropSourceSteps_sets {s0} : (State.dropSourceSteps s0).sets = s0.sets := by
  unfold State.dropSourceSteps
  simp only [sets_mk, sets_eta]

@[simp] theorem takeSource_sets {s0 x1} : (State.takeSource s0 x1).sets = s0.sets := by
  unfold State.takeSource
  with_reducible repeat' first
    | assumption
    | rfl
    | (extract_lets +onlyGivenNames y
       refine (show (y.sets = s0.sets → _) from fun h => ?_) ?_
       on_goal 1 => clear_value y
       on_goal 2 => (simp only [y]; try clear y))
    | (extract_lets +onlyGivenNames y
       have hk : TimeSt.index y = TimeSt.index (State.time _) ∧ TimeSt.mono y = TimeSt.mono (State.time _) := ⟨rfl, rfl⟩
       clear_value y)
    | (extract_lets +onlyGivenNames y; clear_value y)
    | refine ite_sets ?_ ?_
    | (simp only [*, dropSourceSteps_sets, pulse_sets, enterHoldover_sets, startSlew_sets, leaveHoldover_sets, pickSource_sets, modSrc_sets, stepDue_sets, removeOffset_sets, sets_mk, sets_eta]; done)
    | split
    | (simp [*]; done)
    | simp only [*, dropSourceSteps_sets, pulse_sets, enterHoldover_sets, startSlew_sets, leaveHoldover_sets, pickSource_sets, modSrc_sets, stepDue_sets, removeOffset_sets, sets_mk, sets_eta]

@[simp] theorem selectSource_sets {s0} : (State.selectSource s0).sets = s0.sets := by
  unfold State.selectSource
  with_reducible repeat' first
    | assumption
    | rfl
    | (extract_lets +onlyGivenNames y
       refine (show (y.sets = s0.sets → _) from fun h => ?_) ?_
       on_goal 1 => clear_value y
       on_goal 2 => (simp only [y]; try clear y))
    | (extract_lets +onlyGivenNames y; clear_value y)
    | refine ite_sets ?_ ?_
    | (simp only [*, srcLevels_sets, takeSource_sets, sets_mk, sets_eta]; done)
    | split
    | (simp [*]; done)
    | simp only [*, srcLevels_sets, takeSource_sets, sets_mk, sets_eta]

@[simp] theorem loseSource_sets {s0 x1} : (State.loseSource s0 x1).sets = s0.sets := by
  unfold State.loseSource
  simp only [selectSource_sets, modSrc_sets, sets_mk, sets_eta]

@[simp] theorem setUtcOffset_sets {s0 x1 x2} : (State.setUtcOffset s0 x1 x2).sets = s0.sets := by
  unfold State.setUtcOffset
  with_reducible repeat' first
    | assumption
    | rfl
    | (extract_lets +onlyGivenNames y
       have hk : TimeSt.index y = TimeSt.index (State.time _) ∧ TimeSt.mono y = TimeSt.mono (State.time _) := ⟨rfl, rfl⟩
       clear_value y)
    | (extract_lets +onlyGivenNames y; clear_value y)
    | refine ite_sets ?_ ?_
    | (simp only [*, pulse_sets, timeLog_sets, sets_mk, sets_eta]; done)
    | split
    | (simp [*]; done)
    | simp only [*, pulse_sets, timeLog_sets, sets_mk, sets_eta]

@[simp] theorem mainsRestart_sets {s0} : (State.mainsRestart s0).sets = s0.sets := by
  unfold State.mainsRestart
  with_reducible repeat' first
    | assumption
    | rfl
    | (extract_lets +onlyGivenNames y
       refine (show (y.sets = s0.sets → _) from fun h => ?_) ?_
       on_goal 1 => clear_value y
       on_goal 2 => (simp only [y]; try clear y))
    | (extract_lets +onlyGivenNames y
       have hk : TimeSt.index y = TimeSt.index (State.time _) ∧ TimeSt.mono y = TimeSt.mono (State.time _) := ⟨rfl, rfl⟩
       clear_value y)
    | (extract_lets +onlyGivenNames y; clear_value y)
    | refine ite_sets ?_ ?_
    | (simp only [*, loseSource_sets, sets_mk, sets_eta]; done)
    | split
    | (simp [*]; done)
    | simp only [*, loseSource_sets, sets_mk, sets_eta]

@[simp] theorem mainsBoundary_sets {s0 x1 x2} : (State.mainsBoundary s0 x1 x2).sets = s0.sets := by
  unfold State.mainsBoundary
  with_reducible repeat' first
    | assumption
    | rfl
    | (extract_lets +onlyGivenNames y
       refine (show (y.sets = s0.sets → _) from fun h => ?_) ?_
       on_goal 1 => clear_value y
       on_goal 2 => (simp only [y]; try clear y))
    | (extract_lets +onlyGivenNames y
       have hk : TimeSt.index y = TimeSt.index (State.time _) ∧ TimeSt.mono y = TimeSt.mono (State.time _) := ⟨rfl, rfl⟩
       clear_value y)
    | (extract_lets +onlyGivenNames y; clear_value y)
    | refine ite_sets ?_ ?_
    | (simp only [*, mainsRestart_sets, sets_mk, sets_eta]; done)
    | split
    | (simp [*]; done)
    | simp only [*, mainsRestart_sets, sets_mk, sets_eta]

@[simp] theorem scheduleLeap_sets {s0 x1} : (State.scheduleLeap s0 x1).sets = s0.sets := by
  unfold State.scheduleLeap
  simp only [level_sets, sets_mk, sets_eta]

@[simp] theorem holdAfterSet_sets {s0 x1} : (State.holdAfterSet s0 x1).sets = s0.sets := by
  unfold State.holdAfterSet
  with_reducible repeat' first
    | assumption
    | rfl
    | (extract_lets +onlyGivenNames y
       refine (show (y.sets = s0.sets → _) from fun h => ?_) ?_
       on_goal 1 => clear_value y
       on_goal 2 => (simp only [y]; try clear y))
    | (extract_lets +onlyGivenNames y
       refine (show (y.2.sets = s0.sets → _) from fun h => ?_) ?_
       on_goal 1 => clear_value y
       on_goal 2 => (simp only [y]; try clear y))
    | (extract_lets +onlyGivenNames y; clear_value y)
    | refine ite_sets ?_ ?_
    | (simp only [*, draw_sets, enterHoldover_sets, sets_mk, sets_eta]; done)
    | (split <;> (try (rename_i q; obtain ⟨q1, q2⟩ := Prod.ext_iff.mp q; simp only at q1 q2; subst q1 q2)))
    | (simp [*]; done)
    | simp only [*, draw_sets, enterHoldover_sets, sets_mk, sets_eta]

@[simp] theorem applyStep_sets {s0 x1 x2 x3} : (State.applyStep s0 x1 x2 x3).sets = s0.sets := by
  unfold State.applyStep
  with_reducible repeat' first
    | assumption
    | rfl
    | (extract_lets +onlyGivenNames y
       refine (show (y.sets = s0.sets → _) from fun h => ?_) ?_
       on_goal 1 => clear_value y
       on_goal 2 => (simp only [y]; try clear y))
    | (extract_lets +onlyGivenNames y; clear_value y)
    | refine ite_sets ?_ ?_
    | (simp only [*, becomeValid_sets, timeStep_sets, regrid_sets, holdAfterSet_sets, startSlew_sets, sets_mk, sets_eta]; done)
    | split
    | (simp [*]; done)
    | simp only [*, becomeValid_sets, timeStep_sets, regrid_sets, holdAfterSet_sets, startSlew_sets, sets_mk, sets_eta]

@[simp] theorem timeSetApply_sets {x1 s0} : (timeSetApply x1 s0).1.sets = s0.sets := by
  unfold timeSetApply
  dsimp only
  split
  · exact applyStep_sets
  · split
    · exact startSlew_sets
    · exact applyStep_sets
  · dsimp only
    rw [scheduleLeap_sets, setUtcOffset_sets]

@[simp] theorem timeChange_sets {s0 x1} : (State.timeChange s0 x1).sets = s0.sets := by
  unfold State.timeChange
  with_reducible repeat' first
    | assumption
    | rfl
    | (extract_lets +onlyGivenNames y
       refine (show (y.sets = s0.sets → _) from fun h => ?_) ?_
       on_goal 1 => clear_value y
       on_goal 2 => (simp only [y]; try clear y))
    | (extract_lets +onlyGivenNames y
       refine (show (y.1.sets = s0.sets → _) from fun h => ?_) ?_
       on_goal 1 => clear_value y
       on_goal 2 => (simp only [y]; try clear y))
    | (extract_lets +onlyGivenNames y; clear_value y)
    | refine ite_sets ?_ ?_
    | (simp only [*, applyStep_sets, timeSetApply_sets, finishHeld_sets, sets_mk, sets_eta]; done)
    | (split <;> (try (rename_i q; obtain ⟨q1, q2⟩ := Prod.ext_iff.mp q; simp only at q1 q2; subst q1 q2)))
    | (simp [*]; done)
    | simp only [*, applyStep_sets, timeSetApply_sets, finishHeld_sets, sets_mk, sets_eta]

@[simp] theorem timeChanges_sets {s0} : (State.timeChanges s0).sets = s0.sets := by
  unfold State.timeChanges
  with_reducible repeat' first
    | assumption
    | rfl
    | (extract_lets +onlyGivenNames y
       have hk : TimeSt.index y = TimeSt.index (State.time _) ∧ TimeSt.mono y = TimeSt.mono (State.time _) := ⟨rfl, rfl⟩
       clear_value y)
    | (extract_lets +onlyGivenNames y; clear_value y)
    | (refine (foldl_sets ?_).trans ?_; on_goal 1 => intro s0 _)
    | (simp only [*, timeChange_sets, sets_mk, sets_eta]; done)
    | split
    | (simp [*]; done)
    | simp only [*, timeChange_sets, sets_mk, sets_eta]

@[simp] theorem modSlot_sets {s0 x1 x2} : (State.modSlot s0 x1 x2).sets = s0.sets := by
  unfold State.modSlot
  simp only [sets_mk, sets_eta]

@[simp] theorem modWcomp_sets {s0 x1 x2} : (State.modWcomp s0 x1 x2).sets = s0.sets := by
  unfold State.modWcomp
  simp only [sets_mk, sets_eta]

@[simp] theorem markGaps_sets {s0} : (State.markGaps s0).sets = s0.sets := by
  unfold State.markGaps
  with_reducible repeat' first
    | assumption
    | rfl
    | (extract_lets +onlyGivenNames y; clear_value y)
    | (refine (foldl_sets ?_).trans ?_; on_goal 1 => intro s0 _)
    | refine ite_sets ?_ ?_
    | (simp only [*, modSlot_sets, sets_mk, sets_eta]; done)
    | split
    | (simp [*]; done)
    | simp only [*, modSlot_sets, sets_mk, sets_eta]

@[simp] theorem startSelf_sets {s0 x1} : (State.startSelf s0 x1).sets = s0.sets := by
  unfold State.startSelf
  simp only [markGaps_sets, sets_mk, sets_eta]

@[simp] theorem startCal_sets {s0} : (State.startCal s0).sets = s0.sets := by
  unfold State.startCal
  with_reducible repeat' first
    | assumption
    | rfl
    | (extract_lets +onlyGivenNames y
       refine (show (y.sets = s0.sets → _) from fun h => ?_) ?_
       on_goal 1 => clear_value y
       on_goal 2 => (simp only [y]; try clear y))
    | (extract_lets +onlyGivenNames y
       refine (show (y.2.sets = s0.sets → _) from fun h => ?_) ?_
       on_goal 1 => clear_value y
       on_goal 2 => (simp only [y]; try clear y))
    | (extract_lets +onlyGivenNames y; clear_value y)
    | refine ite_sets ?_ ?_
    | (simp only [*, drawInt_sets, startSelf_sets, sets_mk, sets_eta]; done)
    | (split <;> (try (rename_i q; obtain ⟨q1, q2⟩ := Prod.ext_iff.mp q; simp only at q1 q2; subst q1 q2)))
    | (simp [*]; done)
    | simp only [*, drawInt_sets, startSelf_sets, sets_mk, sets_eta]

@[simp] theorem calTrigger_sets {s0} : (State.calTrigger s0).sets = s0.sets := by
  unfold State.calTrigger
  with_reducible repeat' first
    | assumption
    | rfl
    | (extract_lets +onlyGivenNames y; clear_value y)
    | refine ite_sets ?_ ?_
    | (simp only [*, pulse_sets, startCal_sets, sets_mk, sets_eta]; done)
    | split
    | (simp [*]; done)
    | simp only [*, pulse_sets, startCal_sets, sets_mk, sets_eta]

@[simp] theorem calModeFollow_sets {s0} : (State.calModeFollow s0).sets = s0.sets := by
  unfold State.calModeFollow
  with_reducible repeat' first
    | assumption
    | rfl
    | (extract_lets +onlyGivenNames y
       refine (show (y.sets = s0.sets → _) from fun h => ?_) ?_
       on_goal 1 => clear_value y
       on_goal 2 => (simp only [y]; try clear y))
    | (extract_lets +onlyGivenNames y; clear_value y)
    | refine ite_sets ?_ ?_
    | (simp only [*, pulse_sets, calTrigger_sets, sets_mk, sets_eta]; done)
    | split
    | (simp [*]; done)
    | simp only [*, pulse_sets, calTrigger_sets, sets_mk, sets_eta]

@[simp] theorem slotSwap_sets {s0 x1} : (State.slotSwap s0 x1).sets = s0.sets := by
  unfold State.slotSwap
  with_reducible repeat' first
    | assumption
    | rfl
    | (extract_lets +onlyGivenNames y
       refine (show (y.sets = s0.sets → _) from fun h => ?_) ?_
       on_goal 1 => clear_value y
       on_goal 2 => (simp only [y]; try clear y))
    | (extract_lets +onlyGivenNames y; clear_value y)
    | refine ite_sets ?_ ?_
    | (simp only [*, modSlot_sets, sets_mk, sets_eta]; done)
    | split
    | (simp [*]; done)
    | simp only [*, modSlot_sets, sets_mk, sets_eta]

@[simp] theorem wcSwap_sets {s0 x1 x2} : (State.wcSwap s0 x1 x2).sets = s0.sets := by
  unfold State.wcSwap
  with_reducible repeat' first
    | assumption
    | rfl
    | (extract_lets +onlyGivenNames y
       refine (show (y.sets = s0.sets → _) from fun h => ?_) ?_
       on_goal 1 => clear_value y
       on_goal 2 => (simp only [y]; try clear y))
    | (extract_lets +onlyGivenNames y; clear_value y)
    | refine ite_sets ?_ ?_
    | (simp only [*, modWcomp_sets, level_sets, sets_mk, sets_eta]; done)
    | split
    | (simp [*]; done)
    | simp only [*, modWcomp_sets, level_sets, sets_mk, sets_eta]

@[simp] theorem auxSwap_sets {s0 x1} : (State.auxSwap s0 x1).sets = s0.sets := by
  unfold State.auxSwap
  with_reducible repeat' first
    | assumption
    | rfl
    | (extract_lets +onlyGivenNames y
       refine (show (y.sets = s0.sets → _) from fun h => ?_) ?_
       on_goal 1 => clear_value y
       on_goal 2 => (simp only [y]; try clear y))
    | (extract_lets +onlyGivenNames y; clear_value y)
    | (refine (foldl_sets ?_).trans ?_; on_goal 1 => intro s0 _)
    | (simp only [*, slotSwap_sets, wcSwap_sets, calModeFollow_sets, sets_mk, sets_eta]; done)
    | split
    | (simp [*]; done)
    | simp only [*, slotSwap_sets, wcSwap_sets, calModeFollow_sets, sets_mk, sets_eta]

@[simp] theorem modTile_sets {s0 x1 x2} : (State.modTile s0 x1 x2).sets = s0.sets := by
  unfold State.modTile
  simp only [sets_mk, sets_eta]

@[simp] theorem tileLevels_sets {s0 x1 x2} : (State.tileLevels s0 x1 x2).sets = s0.sets := by
  unfold State.tileLevels
  with_reducible repeat' first
    | assumption
    | rfl
    | (refine (foldl_sets ?_).trans ?_; on_goal 1 => intro s0 _)
    | refine ite_sets ?_ ?_
    | (simp only [*, levelAt_sets, sets_mk, sets_eta]; done)
    | split
    | (simp [*]; done)
    | simp only [*, levelAt_sets, sets_mk, sets_eta]

@[simp] theorem tileLevelsNow_sets {s0} : (State.tileLevelsNow s0).sets = s0.sets := by
  unfold State.tileLevelsNow
  simp only [tileLevels_sets, sets_mk, sets_eta]

@[simp] theorem takeTile_sets {s0 x1 x2} : (State.takeTile s0 x1 x2).sets = s0.sets := by
  unfold State.takeTile
  simp only [modTile_sets, sets_mk, sets_eta]

@[simp] theorem replenish_sets {x1 s0} : (State.replenish x1 s0).sets = s0.sets := by
  induction x1 generalizing s0 with
  | zero => rfl
  | succ n ih =>
    unfold State.replenish
    refine ite_sets ?_ rfl
    split
    · exact ih.trans modTile_sets
    · rfl

@[simp] theorem settleGrouts_sets {s0} : (State.settleGrouts s0).sets = s0.sets := by
  unfold State.settleGrouts
  with_reducible repeat' first
    | assumption
    | rfl
    | (extract_lets +onlyGivenNames y
       refine (show (y.sets = s0.sets → _) from fun h => ?_) ?_
       on_goal 1 => clear_value y
       on_goal 2 => (simp only [y]; try clear y))
    | (extract_lets +onlyGivenNames y
       have hk : Kiln.ph y = Kiln.ph (State.kiln _) := rfl
       clear_value y)
    | (extract_lets +onlyGivenNames y; clear_value y)
    | (refine (foldl_sets ?_).trans ?_; on_goal 1 => intro s0 _)
    | refine ite_sets ?_ ?_
    | (simp only [*, modTile_sets, sets_mk, sets_eta]; done)
    | split
    | (simp [*]; done)
    | simp only [*, modTile_sets, sets_mk, sets_eta]

@[simp] theorem tilesSettle_sets {s0} : (State.tilesSettle s0).sets = s0.sets := by
  unfold State.tilesSettle
  simp only [tileLevelsNow_sets, settleGrouts_sets, replenish_sets, sets_mk, sets_eta]

@[simp] theorem toDuplex_sets {s0 x1} : (State.toDuplex s0 x1).sets = s0.sets := by
  unfold State.toDuplex
  with_reducible repeat' first
    | assumption
    | rfl
    | (extract_lets +onlyGivenNames y; clear_value y)
    | refine ite_sets ?_ ?_
    | (simp only [*, modBond_sets, f1_sets, sets_mk, sets_eta]; done)
    | split
    | (simp [*]; done)
    | simp only [*, modBond_sets, f1_sets, sets_mk, sets_eta]

@[simp] theorem startSubst_sets {s0 x1 x2} : (State.startSubst s0 x1 x2).sets = s0.sets := by
  unfold State.startSubst
  with_reducible repeat' first
    | assumption
    | rfl
    | (extract_lets +onlyGivenNames y
       refine (show (y.sets = s0.sets → _) from fun h => ?_) ?_
       on_goal 1 => clear_value y
       on_goal 2 => (simp only [y]; try clear y))
    | (extract_lets +onlyGivenNames y; clear_value y)
    | refine ite_sets ?_ ?_
    | (simp only [*, toDuplex_sets, tilesSettle_sets, modBond_sets, takeTile_sets, sets_mk, sets_eta]; done)
    | split
    | (simp [*]; done)
    | simp only [*, toDuplex_sets, tilesSettle_sets, modBond_sets, takeTile_sets, sets_mk, sets_eta]

@[simp] theorem releaseTile_sets {s0 x1} : (State.releaseTile s0 x1).sets = s0.sets := by
  unfold State.releaseTile
  simp only [modTile_sets, sets_mk, sets_eta]

@[simp] theorem pickTiles_sets {x1 x2 s0} : (State.pickTiles x1 x2 s0).2.2.sets = s0.sets := by
  induction x1 generalizing s0 with
  | zero => rfl
  | succ n ih =>
    unfold State.pickTiles
    split
    · rfl
    · dsimp only
      simp only [ih, takeTile_sets]

@[simp] theorem gather_sets {s0 x1 x2 x3 x4 x5} : (State.gather s0 x1 x2 x3 x4 x5).sets = s0.sets := by
  unfold State.gather
  with_reducible repeat' first
    | assumption
    | rfl
    | (extract_lets +onlyGivenNames y
       refine (show (y.sets = s0.sets → _) from fun h => ?_) ?_
       on_goal 1 => clear_value y
       on_goal 2 => (simp only [y]; try clear y))
    | (extract_lets +onlyGivenNames y
       refine (show (y.2.2.sets = s0.sets → _) from fun h => ?_) ?_
       on_goal 1 => clear_value y
       on_goal 2 => (simp only [y]; try clear y))
    | (extract_lets +onlyGivenNames y; clear_value y)
    | (refine (foldl_sets ?_).trans ?_; on_goal 1 => intro s0 _)
    | refine ite_sets ?_ ?_
    | (simp only [*, pickTiles_sets, tilesSettle_sets, modBond_sets, releaseTile_sets, sets_mk, sets_eta]; done)
    | (split <;> (try (rename_i q; obtain ⟨q1, q2⟩ := Prod.ext_iff.mp q; simp only at q1 q2; subst q1 q2)))
    | (simp [*]; done)
    | simp only [*, pickTiles_sets, tilesSettle_sets, modBond_sets, releaseTile_sets, sets_mk, sets_eta]

@[simp] theorem startRebuild_sets {s0 x1 x2} : (State.startRebuild s0 x1 x2).sets = s0.sets := by
  unfold State.startRebuild
  with_reducible repeat' first
    | assumption
    | rfl
    | refine ite_sets ?_ ?_
    | (simp only [*, gather_sets, sets_mk, sets_eta]; done)
    | split
    | (simp [*]; done)
    | simp only [*, gather_sets, sets_mk, sets_eta]

@[simp] theorem tryBondsBut_sets {s0 x1} : (State.tryBondsBut s0 x1).sets = s0.sets := by
  unfold State.tryBondsBut
  with_reducible repeat' first
    | assumption
    | rfl
    | (extract_lets +onlyGivenNames y
       refine (show (y.sets = s0.sets → _) from fun h => ?_) ?_
       on_goal 1 => clear_value y
       on_goal 2 => (simp only [y]; try clear y))
    | (extract_lets +onlyGivenNames y
       have hk : Kiln.ph y = Kiln.ph (State.kiln _) := rfl
       clear_value y)
    | (extract_lets +onlyGivenNames y; clear_value y)
    | (refine (foldl_sets ?_).trans ?_; on_goal 1 => intro s0 _)
    | refine ite_sets ?_ ?_
    | (simp only [*, startSubst_sets, startRebuild_sets, sets_mk, sets_eta]; done)
    | split
    | (simp [*]; done)
    | simp only [*, startSubst_sets, startRebuild_sets, sets_mk, sets_eta]

@[simp] theorem tryBonds_sets {s0} : (State.tryBonds s0).sets = s0.sets := by
  unfold State.tryBonds
  simp only [tryBondsBut_sets, sets_mk, sets_eta]

@[simp] theorem bondOn_sets {s0 x1} : (State.bondOn s0 x1).sets = s0.sets := by
  unfold State.bondOn
  with_reducible repeat' first
    | assumption
    | rfl
    | (extract_lets +onlyGivenNames y
       refine (show (y.sets = s0.sets → _) from fun h => ?_) ?_
       on_goal 1 => clear_value y
       on_goal 2 => (simp only [y]; try clear y))
    | (extract_lets +onlyGivenNames y; clear_value y)
    | (refine (foldl_sets ?_).trans ?_; on_goal 1 => intro s0 _)
    | refine ite_sets ?_ ?_
    | (simp only [*, modTile_sets, gather_sets, modBond_sets, sets_mk, sets_eta]; done)
    | split
    | (simp [*]; done)
    | simp only [*, modTile_sets, gather_sets, modBond_sets, sets_mk, sets_eta]

@[simp] theorem bondOff_sets {s0 x1} : (State.bondOff s0 x1).sets = s0.sets := by
  unfold State.bondOff
  with_reducible repeat' first
    | assumption
    | rfl
    | (extract_lets +onlyGivenNames y
       refine (show (y.sets = s0.sets → _) from fun h => ?_) ?_
       on_goal 1 => clear_value y
       on_goal 2 => (simp only [y]; try clear y))
    | (extract_lets +onlyGivenNames y; clear_value y)
    | (refine (foldl_sets ?_).trans ?_; on_goal 1 => intro s0 _)
    | refine ite_sets ?_ ?_
    | (simp only [*, releaseTile_sets, modTile_sets, modBond_sets, tileLevelsNow_sets, tryBonds_sets, tilesSettle_sets, sets_mk, sets_eta]; done)
    | split
    | (simp [*]; done)
    | simp only [*, releaseTile_sets, modTile_sets, modBond_sets, tileLevelsNow_sets, tryBonds_sets, tilesSettle_sets, sets_mk, sets_eta]

@[simp] theorem unlatch_sets {s0 x1} : (State.unlatch s0 x1).sets = s0.sets := by
  unfold State.unlatch
  with_reducible repeat' first
    | assumption
    | rfl
    | (extract_lets +onlyGivenNames y; clear_value y)
    | refine ite_sets ?_ ?_
    | (simp only [*, tileLevelsNow_sets, tryBonds_sets, modBond_sets, sets_mk, sets_eta]; done)
    | split
    | (simp [*]; done)
    | simp only [*, tileLevelsNow_sets, tryBonds_sets, modBond_sets, sets_mk, sets_eta]

@[simp] theorem emit_sets {s0 x1 x2} : (State.emit s0 x1 x2).sets = s0.sets := by
  unfold State.emit
  with_reducible repeat' first
    | assumption
    | rfl
    | (extract_lets +onlyGivenNames y
       refine (show (y.sets = s0.sets → _) from fun h => ?_) ?_
       on_goal 1 => clear_value y
       on_goal 2 => (simp only [y]; try clear y))
    | (extract_lets +onlyGivenNames y; clear_value y)
    | (refine (foldl_sets ?_).trans ?_; on_goal 1 => intro s0 _)
    | refine ite_sets ?_ ?_
    | (simp only [*, laneSend_sets, sets_mk, sets_eta]; done)
    | split
    | (simp [*]; done)
    | simp only [*, laneSend_sets, sets_mk, sets_eta]

@[simp] theorem backlog_sets {s0} : (State.backlog s0).sets = s0.sets := by
  unfold State.backlog
  simp only [level_sets, sets_mk, sets_eta]

@[simp] theorem closeUp_sets {s0} : (State.closeUp s0).sets = s0.sets := by
  unfold State.closeUp
  with_reducible repeat' first
    | assumption
    | rfl
    | (extract_lets +onlyGivenNames y
       refine (show (y.sets = s0.sets → _) from fun h => ?_) ?_
       on_goal 1 => clear_value y
       on_goal 2 => (simp only [y]; try clear y))
    | (extract_lets +onlyGivenNames y; clear_value y)
    | refine ite_sets ?_ ?_
    | (simp only [*, backlog_sets, emit_sets, sets_mk, sets_eta]; done)
    | split
    | (simp [*]; done)
    | simp only [*, backlog_sets, emit_sets, sets_mk, sets_eta]

@[simp] theorem appendUp_sets {s0 x1} : (State.appendUp s0 x1).sets = s0.sets := by
  unfold State.appendUp
  with_reducible repeat' first
    | assumption
    | rfl
    | (extract_lets +onlyGivenNames y
       refine (show (y.sets = s0.sets → _) from fun h => ?_) ?_
       on_goal 1 => clear_value y
       on_goal 2 => (simp only [y]; try clear y))
    | (extract_lets +onlyGivenNames y; clear_value y)
    | refine ite_sets ?_ ?_
    | (simp only [*, closeUp_sets, sets_mk, sets_eta]; done)
    | split
    | (simp [*]; done)
    | simp only [*, closeUp_sets, sets_mk, sets_eta]

@[simp] theorem resend_sets {s0 x1} : (State.resend s0 x1).sets = s0.sets := by
  unfold State.resend
  with_reducible repeat' first
    | assumption
    | rfl
    | (extract_lets +onlyGivenNames y
       refine (show (y.sets = s0.sets → _) from fun h => ?_) ?_
       on_goal 1 => clear_value y
       on_goal 2 => (simp only [y]; try clear y))
    | (extract_lets +onlyGivenNames y; clear_value y)
    | (refine (foldl_sets ?_).trans ?_; on_goal 1 => intro s0 _)
    | refine ite_sets ?_ ?_
    | (simp only [*, emit_sets, sets_mk, sets_eta]; done)
    | split
    | (simp [*]; done)
    | simp only [*, emit_sets, sets_mk, sets_eta]

@[simp] theorem sendAck_sets {s0 x1 x2 x3} : (State.sendAck s0 x1 x2 x3).sets = s0.sets := by
  unfold State.sendAck
  simp only [emit_sets, sets_mk, sets_eta]

@[simp] theorem modMeter_sets {s0 x1 x2} : (State.modMeter s0 x1 x2).sets = s0.sets := by
  unfold State.modMeter
  simp only [sets_mk, sets_eta]

@[simp] theorem keepCtr_sets {s0 x1 x2 x3} : (State.keepCtr s0 x1 x2 x3).sets = s0.sets := by
  unfold State.keepCtr
  simp only [sets_mk, sets_eta]

@[simp] theorem useCtr_sets {s0 x1} : (State.useCtr s0 x1).sets = s0.sets := by
  unfold State.useCtr
  with_reducible repeat' first
    | assumption
    | rfl
    | (extract_lets +onlyGivenNames y
       refine (show (y.sets = s0.sets → _) from fun h => ?_) ?_
       on_goal 1 => clear_value y
       on_goal 2 => (simp only [y]; try clear y))
    | (extract_lets +onlyGivenNames y; clear_value y)
    | (simp only [*, modMeter_sets, keepCtr_sets, sets_mk, sets_eta]; done)
    | split
    | (simp [*]; done)
    | simp only [*, modMeter_sets, keepCtr_sets, sets_mk, sets_eta]

@[simp] theorem presence_sets {s0 x1 x2 x3} : (State.presence s0 x1 x2 x3).sets = s0.sets := by
  unfold State.presence
  simp only [appendUp_sets, sets_mk, sets_eta]

@[simp] theorem meterSnap_sets {s0 x1 x2 x3 x4 x5} : (State.meterSnap s0 x1 x2 x3 x4 x5).sets = s0.sets := by
  unfold State.meterSnap
  simp only [draw_sets, appendUp_sets, sets_mk, sets_eta]

@[simp] theorem modLeafJob_sets {s0 x1 x2} : (State.modLeafJob s0 x1 x2).sets = s0.sets := by
  unfold State.modLeafJob
  simp only [sets_mk, sets_eta]

@[simp] theorem plcSend_sets {s0 x1 x2 x3 x4 x5} : (State.plcSend s0 x1 x2 x3 x4 x5).sets = s0.sets := by
  unfold State.plcSend
  simp only [sets_mk, sets_eta]

@[simp] theorem plcExchange_sets {s0 x1 x2 x3 x4 x5 x6 x7} : (State.plcExchange s0 x1 x2 x3 x4 x5 x6 x7).sets = s0.sets := by
  unfold State.plcExchange
  simp only [plcSend_sets, sets_mk, sets_eta]

@[simp] theorem plcBroadcast_sets {s0 x1 x2 x3 x4 x5} : (State.plcBroadcast s0 x1 x2 x3 x4 x5).sets = s0.sets := by
  unfold State.plcBroadcast
  simp only [plcSend_sets, sets_mk, sets_eta]

@[simp] theorem plcToMeter_sets {s0 x1 x2 x3 x4 x5 x6 x7} : (State.plcToMeter s0 x1 x2 x3 x4 x5 x6 x7).sets = s0.sets := by
  unfold State.plcToMeter
  simp only [modMeter_sets, plcExchange_sets, sets_mk, sets_eta]

@[simp] theorem plcServe_sets {s0 x1 x2 x3 x4} : (State.plcServe s0 x1 x2 x3 x4).sets = s0.sets := by
  unfold State.plcServe
  with_reducible repeat' first
    | assumption
    | rfl
    | (extract_lets +onlyGivenNames y
       refine (show (y.sets = s0.sets → _) from fun h => ?_) ?_
       on_goal 1 => clear_value y
       on_goal 2 => (simp only [y]; try clear y))
    | (extract_lets +onlyGivenNames y; clear_value y)
    | refine ite_sets ?_ ?_
    | (simp only [*, plcToMeter_sets, modLeafJob_sets, sets_mk, sets_eta]; done)
    | split
    | (simp [*]; done)
    | simp only [*, plcToMeter_sets, modLeafJob_sets, sets_mk, sets_eta]

@[simp] theorem meterAbsent_sets {s0 x1 x2 x3} : (State.meterAbsent s0 x1 x2 x3).sets = s0.sets := by
  unfold State.meterAbsent
  with_reducible repeat' first
    | assumption
    | rfl
    | (extract_lets +onlyGivenNames y
       refine (show (y.sets = s0.sets → _) from fun h => ?_) ?_
       on_goal 1 => clear_value y
       on_goal 2 => (simp only [y]; try clear y))
    | (extract_lets +onlyGivenNames y; clear_value y)
    | (simp only [*, presence_sets, pulse_sets, modMeter_sets, meterSnap_sets, sets_mk, sets_eta]; done)
    | split
    | (simp [*]; done)
    | simp only [*, presence_sets, pulse_sets, modMeter_sets, meterSnap_sets, sets_mk, sets_eta]

@[simp] theorem meterMissed_sets {s0 x1 x2} : (State.meterMissed s0 x1 x2).sets = s0.sets := by
  unfold State.meterMissed
  with_reducible repeat' first
    | assumption
    | rfl
    | (extract_lets +onlyGivenNames y
       refine (show (y.sets = s0.sets → _) from fun h => ?_) ?_
       on_goal 1 => clear_value y
       on_goal 2 => (simp only [y]; try clear y))
    | (extract_lets +onlyGivenNames y; clear_value y)
    | refine ite_sets ?_ ?_
    | (simp only [*, modMeter_sets, meterSnap_sets, meterAbsent_sets, sets_mk, sets_eta]; done)
    | split
    | (simp [*]; done)
    | simp only [*, modMeter_sets, meterSnap_sets, meterAbsent_sets, sets_mk, sets_eta]

@[simp] theorem modConfirm_sets {s0 x1 x2} : (State.modConfirm s0 x1 x2).sets = s0.sets := by
  unfold State.modConfirm
  simp only [sets_mk, sets_eta]

@[simp] theorem plcMiss_sets {s0 x1} : (State.plcMiss s0 x1).sets = s0.sets := by
  unfold State.plcMiss
  with_reducible repeat' first
    | assumption
    | rfl
    | (extract_lets +onlyGivenNames y
       refine (show (y.sets = s0.sets → _) from fun h => ?_) ?_
       on_goal 1 => clear_value y
       on_goal 2 => (simp only [y]; try clear y))
    | (extract_lets +onlyGivenNames y; clear_value y)
    | refine ite_sets ?_ ?_
    | (simp only [*, modConfirm_sets, meterMissed_sets, sets_mk, sets_eta]; done)
    | split
    | (simp [*]; done)
    | simp only [*, modConfirm_sets, meterMissed_sets, sets_mk, sets_eta]

@[simp] theorem latchLost_sets {s0 x1} : (State.latchLost s0 x1).sets = s0.sets := by
  unfold State.latchLost
  with_reducible repeat' first
    | assumption
    | rfl
    | (refine (foldl_sets ?_).trans ?_; on_goal 1 => intro s0 _)
    | (simp only [*, meterSnap_sets, sets_mk, sets_eta]; done)
    | split
    | (simp [*]; done)
    | simp only [*, meterSnap_sets, sets_mk, sets_eta]

@[simp] theorem closeRound_sets {s0} : (State.closeRound s0).sets = s0.sets := by
  unfold State.closeRound
  with_reducible repeat' first
    | assumption
    | rfl
    | (extract_lets +onlyGivenNames y
       refine (show (y.sets = s0.sets → _) from fun h => ?_) ?_
       on_goal 1 => clear_value y
       on_goal 2 => (simp only [y]; try clear y))
    | (extract_lets +onlyGivenNames y; clear_value y)
    | (simp only [*, pulse_sets, sets_mk, sets_eta]; done)
    | split
    | (simp [*]; done)
    | simp only [*, pulse_sets, sets_mk, sets_eta]

@[simp] theorem plcStop_sets {s0} : (State.plcStop s0).sets = s0.sets := by
  unfold State.plcStop
  with_reducible repeat' first
    | assumption
    | rfl
    | (extract_lets +onlyGivenNames y
       refine (show (y.sets = s0.sets → _) from fun h => ?_) ?_
       on_goal 1 => clear_value y
       on_goal 2 => (simp only [y]; try clear y))
    | (extract_lets +onlyGivenNames y; clear_value y)
    | (refine (foldl_sets ?_).trans ?_; on_goal 1 => intro s0 _)
    | (simp only [*, closeRound_sets, latchLost_sets, sets_mk, sets_eta]; done)
    | split
    | (simp [*]; done)
    | simp only [*, closeRound_sets, latchLost_sets, sets_mk, sets_eta]

@[simp] theorem plcLevel_sets {s0} : (State.plcLevel s0).sets = s0.sets := by
  unfold State.plcLevel
  with_reducible repeat' first
    | assumption
    | rfl
    | (extract_lets +onlyGivenNames y
       refine (show (y.sets = s0.sets → _) from fun h => ?_) ?_
       on_goal 1 => clear_value y
       on_goal 2 => (simp only [y]; try clear y))
    | (extract_lets +onlyGivenNames y; clear_value y)
    | refine ite_sets ?_ ?_
    | (simp only [*, level_sets, closeRound_sets, sets_mk, sets_eta]; done)
    | split
    | (simp [*]; done)
    | simp only [*, level_sets, closeRound_sets, sets_mk, sets_eta]

theorem plcConfirm_sets {s0 s1} (h : State.plcConfirm s0 = some s1) : s1.sets = s0.sets := by
  unfold State.plcConfirm at h
  split at h
  · split at h
    · cases h
    · rw [Option.map_eq_some_iff] at h
      obtain ⟨c, -, rfl⟩ := h
      dsimp only
      rw [plcExchange_sets, useCtr_sets, modConfirm_sets]
  · cases h

theorem plcDue_sets {s0 s1} (h : State.plcDue s0 = some s1) : s1.sets = s0.sets := by
  unfold State.plcDue at h
  dsimp only at h
  split at h
  · rw [Option.some.injEq] at h; rw [← h]; exact plcServe_sets
  · split at h
    · rw [Option.some.injEq] at h; rw [← h]; exact plcServe_sets
    · split at h
      · rw [Option.some.injEq] at h; rw [← h]; exact plcServe_sets
      · rw [Option.map_eq_some_iff] at h
        obtain ⟨x, -, rfl⟩ := h
        exact plcServe_sets

@[simp] theorem setBcastCtr_sets {s0 x1} : (State.setBcastCtr s0 x1).sets = s0.sets := by
  unfold State.setBcastCtr
  simp only [sets_mk, sets_eta]

theorem plcPushCast_sets {s0 x1 s1} (h : State.plcPushCast s0 x1 = some s1) : s1.sets = s0.sets := by
  unfold State.plcPushCast at h
  split at h
  · cases h
  · dsimp only at h
    rw [Option.some.injEq] at h
    rw [← h]
    simp only [setBcastCtr_sets, plcBroadcast_sets, modLeafJob_sets]

theorem plcPush_sets {s0 s1} (h : State.plcPush s0 = some s1) : s1.sets = s0.sets := by
  unfold State.plcPush at h
  obtain ⟨j, -, hj⟩ := List.exists_of_findSome?_eq_some h
  split at hj
  · rename_i q
    rw [Option.some.injEq] at hj; rw [← hj]; exact plcPushCast_sets q
  · rw [Option.map_eq_some_iff] at hj
    obtain ⟨x, -, rfl⟩ := hj
    exact plcServe_sets

@[simp] theorem plcFill_sets {s0} : (State.plcFill s0).sets = s0.sets := by
  unfold State.plcFill
  repeat' refine ite_sets ?_ ?_
  · rfl
  · rfl
  · rfl
  · split
    · exact plcConfirm_sets ‹_›
    · split
      · exact plcDue_sets ‹_›
      · cases q : State.plcPush s0 with
        | none => rfl
        | some t => exact plcPush_sets q

@[simp] theorem latchExpire_sets {s0} : (State.latchExpire s0).sets = s0.sets := by
  unfold State.latchExpire
  with_reducible repeat' first
    | assumption
    | rfl
    | (extract_lets +onlyGivenNames y
       refine (show (y.sets = s0.sets → _) from fun h => ?_) ?_
       on_goal 1 => clear_value y
       on_goal 2 => (simp only [y]; try clear y))
    | (extract_lets +onlyGivenNames y; clear_value y)
    | (refine (foldl_sets ?_).trans ?_; on_goal 1 => intro s0 _)
    | (simp only [*, latchLost_sets, sets_mk, sets_eta]; done)
    | split
    | (simp [*]; done)
    | simp only [*, latchLost_sets, sets_mk, sets_eta]

@[simp] theorem slotStart_sets {s0 x1 x2} : (State.slotStart s0 x1 x2).sets = s0.sets := by
  unfold State.slotStart
  simp only [plcFill_sets, latchExpire_sets, plcLevel_sets, sets_mk, sets_eta]

@[simp] theorem plcBoundary_sets {s0 x1 x2} : (State.plcBoundary s0 x1 x2).sets = s0.sets := by
  unfold State.plcBoundary
  with_reducible repeat' first
    | assumption
    | rfl
    | (extract_lets +onlyGivenNames y
       refine (show (y.sets = s0.sets → _) from fun h => ?_) ?_
       on_goal 1 => clear_value y
       on_goal 2 => (simp only [y]; try clear y))
    | (extract_lets +onlyGivenNames y; clear_value y)
    | refine ite_sets ?_ ?_
    | (simp only [*, plcMiss_sets, slotStart_sets, sets_mk, sets_eta]; done)
    | split
    | (simp [*]; done)
    | simp only [*, plcMiss_sets, slotStart_sets, sets_mk, sets_eta]

@[simp] theorem modRport_sets {s0 x1 x2} : (State.modRport s0 x1 x2).sets = s0.sets := by
  unfold State.modRport
  simp only [sets_mk, sets_eta]

@[simp] theorem rpLevels_sets {s0} : (State.rpLevels s0).sets = s0.sets := by
  unfold State.rpLevels
  simp only [level_sets, sets_mk, sets_eta]

@[simp] theorem rpReady_sets {s0} : (State.rpReady s0).sets = s0.sets := by
  unfold State.rpReady
  with_reducible repeat' first
    | assumption
    | rfl
    | (refine (foldl_sets ?_).trans ?_; on_goal 1 => intro s0 _)
    | (simp only [*, setReady_sets, sets_mk, sets_eta]; done)
    | split
    | (simp [*]; done)
    | simp only [*, setReady_sets, sets_mk, sets_eta]

@[simp] theorem rpCommand_sets {s0 x1 x2} : (State.rpCommand s0 x1 x2).sets = s0.sets := by
  unfold State.rpCommand
  simp only [modRport_sets, sets_mk, sets_eta]

@[simp] theorem rpConfigure_sets {s0 x1} : (State.rpConfigure s0 x1).sets = s0.sets := by
  unfold State.rpConfigure
  simp only [rpCommand_sets, modRport_sets, sets_mk, sets_eta]

@[simp] theorem rpNext_sets {s0 x1} : (State.rpNext s0 x1).sets = s0.sets := by
  unfold State.rpNext
  with_reducible repeat' first
    | assumption
    | rfl
    | (extract_lets +onlyGivenNames y
       refine (show (y.sets = s0.sets → _) from fun h => ?_) ?_
       on_goal 1 => clear_value y
       on_goal 2 => (simp only [y]; try clear y))
    | (extract_lets +onlyGivenNames y; clear_value y)
    | refine ite_sets ?_ ?_
    | (simp only [*, rpConfigure_sets, rpCommand_sets, modRport_sets, level_sets, sets_mk, sets_eta]; done)
    | split
    | (simp [*]; done)
    | simp only [*, rpConfigure_sets, rpCommand_sets, modRport_sets, level_sets, sets_mk, sets_eta]

@[simp] theorem mpBoundary_sets {s0 x1 x2 x3} : (State.mpBoundary s0 x1 x2 x3).sets = s0.sets := by
  unfold State.mpBoundary
  with_reducible repeat' first
    | assumption
    | rfl
    | (extract_lets +onlyGivenNames y
       refine (show (y.sets = s0.sets → _) from fun h => ?_) ?_
       on_goal 1 => clear_value y
       on_goal 2 => (simp only [y]; try clear y))
    | (extract_lets +onlyGivenNames y; clear_value y)
    | (refine (foldl_sets ?_).trans ?_; on_goal 1 => intro s0 _)
    | (simp only [*, settle_sets, modChm_sets, overcurrent_sets, apparentTransfer_sets, transferMp_sets, elemBoundary_sets, sets_mk, sets_eta]; done)
    | split
    | (simp [*]; done)
    | simp only [*, settle_sets, modChm_sets, overcurrent_sets, apparentTransfer_sets, transferMp_sets, elemBoundary_sets, sets_mk, sets_eta]

@[simp] theorem swapBoundary_sets {s0 x1 x2} : (State.swapBoundary s0 x1 x2).sets = s0.sets := by
  unfold State.swapBoundary
  with_reducible repeat' first
    | assumption
    | rfl
    | (extract_lets +onlyGivenNames y
       have hk : Cfg.active y = Cfg.active (State.cfg _) ∧ Cfg.shadow y = Cfg.shadow (State.cfg _) := ⟨rfl, rfl⟩
       clear_value y)
    | (extract_lets +onlyGivenNames y
       have hk : TimeSt.index y = TimeSt.index (State.time _) ∧ TimeSt.mono y = TimeSt.mono (State.time _) := ⟨rfl, rfl⟩
       clear_value y)
    | (extract_lets +onlyGivenNames y; clear_value y)
    | refine ite_sets ?_ ?_
    | (simp only [*, sets_mk, sets_eta]; done)
    | split
    | (simp [*]; done)
    | simp only [*, sets_mk, sets_eta]

@[simp] theorem boundaryNow_sets {s0 x1 x2} : (State.boundaryNow s0 x1 x2).sets = s0.sets := by
  unfold State.boundaryNow
  with_reducible repeat' first
    | assumption
    | rfl
    | (extract_lets +onlyGivenNames y
       refine (show (y.sets = s0.sets → _) from fun h => ?_) ?_
       on_goal 1 => clear_value y
       on_goal 2 => (simp only [y]; try clear y))
    | (extract_lets +onlyGivenNames y; clear_value y)
    | (refine (foldl_sets ?_).trans ?_; on_goal 1 => intro s0 _)
    | refine ite_sets ?_ ?_
    | (simp only [*, halfRefresh_sets, mpBoundary_sets, cycleFreq_sets, windowBoundary_sets, pqBoundary_sets, swapBoundary_sets, mainsBoundary_sets, modVs_sets, plcBoundary_sets, sets_mk, sets_eta]; done)
    | split
    | (simp [*]; done)
    | simp only [*, halfRefresh_sets, mpBoundary_sets, cycleFreq_sets, windowBoundary_sets, pqBoundary_sets, swapBoundary_sets, mainsBoundary_sets, modVs_sets, plcBoundary_sets, sets_mk, sets_eta]

@[simp] theorem mirrorLevel_sets {s0} : (State.mirrorLevel s0).sets = s0.sets := by
  unfold State.mirrorLevel
  simp only [level_sets, sets_mk, sets_eta]

@[simp] theorem ackCommitted_sets {s0 x1 x2} : (State.ackCommitted s0 x1 x2).sets = s0.sets := by
  unfold State.ackCommitted
  simp only [sendAck_sets, sets_mk, sets_eta]

@[simp] theorem mirrorRelease_sets {s0} : (State.mirrorRelease s0).sets = s0.sets := by
  unfold State.mirrorRelease
  with_reducible repeat' first
    | assumption
    | rfl
    | (extract_lets +onlyGivenNames y
       refine (show (y.sets = s0.sets → _) from fun h => ?_) ?_
       on_goal 1 => clear_value y
       on_goal 2 => (simp only [y]; try clear y))
    | (extract_lets +onlyGivenNames y; clear_value y)
    | (refine (foldl_sets ?_).trans ?_; on_goal 1 => intro s0 _)
    | (simp only [*, level_sets, ackCommitted_sets, sets_mk, sets_eta]; done)
    | split
    | (simp [*]; done)
    | simp only [*, level_sets, ackCommitted_sets, sets_mk, sets_eta]

@[simp] theorem partitionReadOnly_sets {s0 x1} : (State.partitionReadOnly s0 x1).sets = s0.sets := by
  unfold State.partitionReadOnly
  with_reducible repeat' first
    | assumption
    | rfl
    | (extract_lets +onlyGivenNames y
       refine (show (y.sets = s0.sets → _) from fun h => ?_) ?_
       on_goal 1 => clear_value y
       on_goal 2 => (simp only [y]; try clear y))
    | (extract_lets +onlyGivenNames y; clear_value y)
    | refine ite_sets ?_ ?_
    | (simp only [*, level_sets, f2_sets, f1_sets, sets_mk, sets_eta]; done)
    | split
    | (simp [*]; done)
    | simp only [*, level_sets, f2_sets, f1_sets, sets_mk, sets_eta]

@[simp] theorem roFollow_sets {s0} : (State.roFollow s0).sets = s0.sets := by
  unfold State.roFollow
  with_reducible repeat' first
    | assumption
    | rfl
    | (extract_lets +onlyGivenNames y; clear_value y)
    | refine ite_sets ?_ ?_
    | (simp only [*, partitionReadOnly_sets, sets_mk, sets_eta]; done)
    | split
    | (simp [*]; done)
    | simp only [*, partitionReadOnly_sets, sets_mk, sets_eta]

@[simp] theorem laneLevels_sets {s0 x1} : (State.laneLevels s0 x1).sets = s0.sets := by
  unfold State.laneLevels
  simp only [level_sets, sets_mk, sets_eta]

@[simp] theorem setEpoch_sets {s0 x1} : (State.setEpoch s0 x1).sets = s0.sets := by
  unfold State.setEpoch
  with_reducible repeat' first
    | assumption
    | rfl
    | (extract_lets +onlyGivenNames y; clear_value y)
    | refine ite_sets ?_ ?_
    | (simp only [*, pulse_sets, sets_mk, sets_eta]; done)
    | split
    | (simp [*]; done)
    | simp only [*, pulse_sets, sets_mk, sets_eta]

@[simp] theorem startJoin_sets {s0} : (State.startJoin s0).sets = s0.sets := by
  unfold State.startJoin
  with_reducible repeat' first
    | assumption
    | rfl
    | (extract_lets +onlyGivenNames y
       refine (show (y.sets = s0.sets → _) from fun h => ?_) ?_
       on_goal 1 => clear_value y
       on_goal 2 => (simp only [y]; try clear y))
    | (extract_lets +onlyGivenNames y
       refine (show (y.2.sets = s0.sets → _) from fun h => ?_) ?_
       on_goal 1 => clear_value y
       on_goal 2 => (simp only [y]; try clear y))
    | (extract_lets +onlyGivenNames y; clear_value y)
    | refine ite_sets ?_ ?_
    | (simp only [*, drawBytes_sets, laneSend_sets, sets_mk, sets_eta]; done)
    | (split <;> (try (rename_i q; obtain ⟨q1, q2⟩ := Prod.ext_iff.mp q; simp only at q1 q2; subst q1 q2)))
    | (simp [*]; done)
    | simp only [*, drawBytes_sets, laneSend_sets, sets_mk, sets_eta]

@[simp] theorem sendReturn_sets {s0 x1 x2 x3 x4} : (State.sendReturn s0 x1 x2 x3 x4).sets = s0.sets := by
  unfold State.sendReturn
  with_reducible repeat' first
    | assumption
    | rfl
    | (extract_lets +onlyGivenNames y
       refine (show (y.sets = s0.sets → _) from fun h => ?_) ?_
       on_goal 1 => clear_value y
       on_goal 2 => (simp only [y]; try clear y))
    | (extract_lets +onlyGivenNames y; clear_value y)
    | (simp only [*, pulse_sets, laneSend_sets, sets_mk, sets_eta]; done)
    | split
    | (simp [*]; done)
    | simp only [*, pulse_sets, laneSend_sets, sets_mk, sets_eta]

@[simp] theorem forwardPallet_sets {s0 x1 x2 x3} : (State.forwardPallet s0 x1 x2 x3).sets = s0.sets := by
  unfold State.forwardPallet
  with_reducible repeat' first
    | assumption
    | rfl
    | (extract_lets +onlyGivenNames y
       refine (show (y.sets = s0.sets → _) from fun h => ?_) ?_
       on_goal 1 => clear_value y
       on_goal 2 => (simp only [y]; try clear y))
    | (extract_lets +onlyGivenNames y; clear_value y)
    | (refine (foldl_sets ?_).trans ?_; on_goal 1 => intro s0 _)
    | refine ite_sets ?_ ?_
    | (simp only [*, laneSend_sets, sendReturn_sets, sets_mk, sets_eta]; done)
    | split
    | (simp [*]; done)
    | simp only [*, laneSend_sets, sendReturn_sets, sets_mk, sets_eta]

@[simp] theorem releaseHeld_sets {s0} : (State.releaseHeld s0).sets = s0.sets := by
  unfold State.releaseHeld
  with_reducible repeat' first
    | assumption
    | rfl
    | (extract_lets +onlyGivenNames y
       refine (show (y.sets = s0.sets → _) from fun h => ?_) ?_
       on_goal 1 => clear_value y
       on_goal 2 => (simp only [y]; try clear y))
    | (extract_lets +onlyGivenNames y; clear_value y)
    | (refine (foldl_sets ?_).trans ?_; on_goal 1 => intro s0 _)
    | (simp only [*, forwardPallet_sets, sets_mk, sets_eta]; done)
    | split
    | (simp [*]; done)
    | simp only [*, forwardPallet_sets, sets_mk, sets_eta]

@[simp] theorem adopt_sets {s0 x1 x2 x3} : (State.adopt s0 x1 x2 x3).sets = s0.sets := by
  unfold State.adopt
  with_reducible repeat' first
    | assumption
    | rfl
    | (extract_lets +onlyGivenNames y
       refine (show (y.sets = s0.sets → _) from fun h => ?_) ?_
       on_goal 1 => clear_value y
       on_goal 2 => (simp only [y]; try clear y))
    | (extract_lets +onlyGivenNames y
       have hk : Kiln.ph y = Kiln.ph (State.kiln _) := rfl
       clear_value y)
    | (extract_lets +onlyGivenNames y; clear_value y)
    | refine ite_sets ?_ ?_
    | (simp only [*, setEpoch_sets, releaseHeld_sets, resend_sets, sets_mk, sets_eta]; done)
    | split
    | (simp [*]; done)
    | simp only [*, setEpoch_sets, releaseHeld_sets, resend_sets, sets_mk, sets_eta]

@[simp] theorem chooseUp_sets {s0} : (State.chooseUp s0).sets = s0.sets := by
  unfold State.chooseUp
  with_reducible repeat' first
    | assumption
    | rfl
    | (extract_lets +onlyGivenNames y
       refine (show (y.sets = s0.sets → _) from fun h => ?_) ?_
       on_goal 1 => clear_value y
       on_goal 2 => (simp only [y]; try clear y))
    | (extract_lets +onlyGivenNames y
       have hk : Kiln.ph y = Kiln.ph (State.kiln _) := rfl
       clear_value y)
    | (extract_lets +onlyGivenNames y; clear_value y)
    | refine ite_sets ?_ ?_
    | (simp only [*, level_sets, pulse_sets, adopt_sets, startJoin_sets, sets_mk, sets_eta]; done)
    | split
    | (simp [*]; done)
    | simp only [*, level_sets, pulse_sets, adopt_sets, startJoin_sets, sets_mk, sets_eta]

@[simp] theorem dropHandover_sets {s0} : (State.dropHandover s0).sets = s0.sets := by
  unfold State.dropHandover
  with_reducible repeat' first
    | assumption
    | rfl
    | (extract_lets +onlyGivenNames y
       refine (show (y.sets = s0.sets → _) from fun h => ?_) ?_
       on_goal 1 => clear_value y
       on_goal 2 => (simp only [y]; try clear y))
    | (extract_lets +onlyGivenNames y; clear_value y)
    | refine ite_sets ?_ ?_
    | (simp only [*, finishHeld_sets, sets_mk, sets_eta]; done)
    | split
    | (simp [*]; done)
    | simp only [*, finishHeld_sets, sets_mk, sets_eta]

@[simp] theorem standbyCheck_sets {s0} : (State.standbyCheck s0).sets = s0.sets := by
  unfold State.standbyCheck
  with_reducible repeat' first
    | assumption
    | rfl
    | (extract_lets +onlyGivenNames y
       refine (show (y.sets = s0.sets → _) from fun h => ?_) ?_
       on_goal 1 => clear_value y
       on_goal 2 => (simp only [y]; try clear y))
    | (extract_lets +onlyGivenNames y
       have hk : Kiln.ph y = Kiln.ph (State.kiln _) := rfl
       clear_value y)
    | (extract_lets +onlyGivenNames y; clear_value y)
    | refine ite_sets ?_ ?_
    | (simp only [*, mirrorLevel_sets, mirrorRelease_sets, dropHandover_sets, sets_mk, sets_eta]; done)
    | split
    | (simp [*]; done)
    | simp only [*, mirrorLevel_sets, mirrorRelease_sets, dropHandover_sets, sets_mk, sets_eta]

@[simp] theorem laneDown_sets {s0 x1} : (State.laneDown s0 x1).sets = s0.sets := by
  unfold State.laneDown
  simp only [standbyCheck_sets, chooseUp_sets, laneLevels_sets, setReady_sets, modLane_sets, sets_mk, sets_eta]

@[simp] theorem laneStop_sets {s0 x1} : (State.laneStop s0 x1).sets = s0.sets := by
  unfold State.laneStop
  simp only [modLane_sets, laneDown_sets, sets_mk, sets_eta]

@[simp] theorem portsReady_sets {s0} : (State.portsReady s0).sets = s0.sets := by
  unfold State.portsReady
  simp only [rpReady_sets, setReady_sets, sets_mk, sets_eta]

@[simp] theorem lateCrossing_sets {s0 x1 x2} : (State.lateCrossing s0 x1 x2).sets = s0.sets := by
  unfold State.lateCrossing
  with_reducible repeat' first
    | assumption
    | rfl
    | (extract_lets +onlyGivenNames y
       refine (show (y.sets = s0.sets → _) from fun h => ?_) ?_
       on_goal 1 => clear_value y
       on_goal 2 => (simp only [y]; try clear y))
    | (extract_lets +onlyGivenNames y; clear_value y)
    | refine ite_sets ?_ ?_
    | (simp only [*, boundaryNow_sets, sets_mk, sets_eta]; done)
    | split
    | (simp [*]; done)
    | simp only [*, boundaryNow_sets, sets_mk, sets_eta]

@[simp] theorem swapWindow_sets {s0 x1 x2} : (State.swapWindow s0 x1 x2).sets = s0.sets := by
  unfold State.swapWindow
  with_reducible repeat' first
    | assumption
    | rfl
    | (extract_lets +onlyGivenNames y
       refine (show (y.sets = s0.sets → _) from fun h => ?_) ?_
       on_goal 1 => clear_value y
       on_goal 2 => (simp only [y]; try clear y))
    | (extract_lets +onlyGivenNames y; clear_value y)
    | refine ite_sets ?_ ?_
    | (simp only [*, closeWindow_sets, sets_mk, sets_eta]; done)
    | split
    | (simp [*]; done)
    | simp only [*, closeWindow_sets, sets_mk, sets_eta]

@[simp] theorem swapRecords_sets {s0 x1 x2} : (State.swapRecords s0 x1 x2).sets = s0.sets := by
  unfold State.swapRecords
  with_reducible repeat' first
    | assumption
    | rfl
    | (extract_lets +onlyGivenNames y
       refine (show (y.sets = s0.sets → _) from fun h => ?_) ?_
       on_goal 1 => clear_value y
       on_goal 2 => (simp only [y]; try clear y))
    | (extract_lets +onlyGivenNames y; clear_value y)
    | refine ite_sets ?_ ?_
    | (simp only [*, pqClose_sets, sets_mk, sets_eta]; done)
    | split
    | (simp [*]; done)
    | simp only [*, pqClose_sets, sets_mk, sets_eta]

@[simp] theorem swapTransfer_sets {s0 x1 x2} : (State.swapTransfer s0 x1 x2).sets = s0.sets := by
  unfold State.swapTransfer
  with_reducible repeat' first
    | assumption
    | rfl
    | (extract_lets +onlyGivenNames y
       refine (show (y.sets = s0.sets → _) from fun h => ?_) ?_
       on_goal 1 => clear_value y
       on_goal 2 => (simp only [y]; try clear y))
    | (extract_lets +onlyGivenNames y; clear_value y)
    | refine ite_sets ?_ ?_
    | (simp only [*, transferMp_sets, settle_sets, pushEnd_sets, sets_mk, sets_eta]; done)
    | split
    | (simp [*]; done)
    | simp only [*, transferMp_sets, settle_sets, pushEnd_sets, sets_mk, sets_eta]

@[simp] theorem swapCloses_sets {s0 x1 x2} : (State.swapCloses s0 x1 x2).sets = s0.sets := by
  unfold State.swapCloses
  with_reducible repeat' first
    | assumption
    | rfl
    | (extract_lets +onlyGivenNames y
       refine (show (y.sets = s0.sets → _) from fun h => ?_) ?_
       on_goal 1 => clear_value y
       on_goal 2 => (simp only [y]; try clear y))
    | (extract_lets +onlyGivenNames y; clear_value y)
    | (refine (foldl_sets ?_).trans ?_; on_goal 1 => intro s0 _)
    | refine ite_sets ?_ ?_
    | (simp only [*, lateCrossing_sets, settleAll_sets, profGridEnd_sets, swapRecords_sets, swapWindow_sets, swapTransfer_sets, sets_mk, sets_eta]; done)
    | split
    | (simp [*]; done)
    | simp only [*, lateCrossing_sets, settleAll_sets, profGridEnd_sets, swapRecords_sets, swapWindow_sets, swapTransfer_sets, sets_mk, sets_eta]

@[simp] theorem swapPulse_sets {s0 x1 x2} : (State.swapPulse s0 x1 x2).sets = s0.sets := by
  unfold State.swapPulse
  with_reducible repeat' first
    | assumption
    | rfl
    | (extract_lets +onlyGivenNames y
       refine (show (y.sets = s0.sets → _) from fun h => ?_) ?_
       on_goal 1 => clear_value y
       on_goal 2 => (simp only [y]; try clear y))
    | (extract_lets +onlyGivenNames y; clear_value y)
    | refine ite_sets ?_ ?_
    | (simp only [*, modGen_sets, drivePulse_sets, level_sets, sets_mk, sets_eta]; done)
    | split
    | (simp [*]; done)
    | simp only [*, modGen_sets, drivePulse_sets, level_sets, sets_mk, sets_eta]

@[simp] theorem swapDi_sets {s0 x1 x2} : (State.swapDi s0 x1 x2).sets = s0.sets := by
  unfold State.swapDi
  with_reducible repeat' first
    | assumption
    | rfl
    | (extract_lets +onlyGivenNames y; clear_value y)
    | (refine (foldl_sets ?_).trans ?_; on_goal 1 => intro s0 _)
    | refine ite_sets ?_ ?_
    | (simp only [*, diLatch_sets, level_sets, modDi_sets, sets_mk, sets_eta]; done)
    | split
    | (simp [*]; done)
    | simp only [*, diLatch_sets, level_sets, modDi_sets, sets_mk, sets_eta]

@[simp] theorem mark_sets {s0 x1 x2} : (State.mark s0 x1 x2).sets = s0.sets := by
  unfold State.mark
  simp only [modCourse_sets, sets_mk, sets_eta]

@[simp] theorem swapCourse_sets {s0 x1 x2} : (State.swapCourse s0 x1 x2).sets = s0.sets := by
  unfold State.swapCourse
  with_reducible repeat' first
    | assumption
    | rfl
    | (extract_lets +onlyGivenNames y
       refine (show (y.sets = s0.sets → _) from fun h => ?_) ?_
       on_goal 1 => clear_value y
       on_goal 2 => (simp only [y]; try clear y))
    | (extract_lets +onlyGivenNames y; clear_value y)
    | refine ite_sets ?_ ?_
    | (simp only [*, bondOn_sets, mark_sets, startCourse_sets, setReady_sets, bondOff_sets, stopCourse_sets, unlatch_sets, sets_mk, sets_eta]; done)
    | split
    | (simp [*]; done)
    | simp only [*, bondOn_sets, mark_sets, startCourse_sets, setReady_sets, bondOff_sets, stopCourse_sets, unlatch_sets, sets_mk, sets_eta]

@[simp] theorem swapCopy_sets {s0 x1} : (State.swapCopy s0 x1).sets = s0.sets := by
  unfold State.swapCopy
  with_reducible repeat' first
    | assumption
    | rfl
    | refine ite_sets ?_ ?_
    | (simp only [*, modMclk_sets, sets_mk, sets_eta]; done)
    | split
    | (simp [*]; done)
    | simp only [*, modMclk_sets, sets_mk, sets_eta]

@[simp] theorem tcKeep_sets {s0 x1 x2} : (State.tcKeep s0 x1 x2).sets = s0.sets := by
  unfold State.tcKeep
  simp only [setTc_sets, sets_mk, sets_eta]

@[simp] theorem swapChannel_sets {s0 x1 x2} : (State.swapChannel s0 x1 x2).sets = s0.sets := by
  unfold State.swapChannel
  with_reducible repeat' first
    | assumption
    | rfl
    | (extract_lets +onlyGivenNames y
       refine (show (y.sets = s0.sets → _) from fun h => ?_) ?_
       on_goal 1 => clear_value y
       on_goal 2 => (simp only [y]; try clear y))
    | (extract_lets +onlyGivenNames y; clear_value y)
    | refine ite_sets ?_ ?_
    | (simp only [*, level_sets, modChan_sets, setTc_sets, tcApply_sets, tcKeep_sets, sets_mk, sets_eta]; done)
    | split
    | (simp [*]; done)
    | simp only [*, level_sets, modChan_sets, setTc_sets, tcApply_sets, tcKeep_sets, sets_mk, sets_eta]

@[simp] theorem swapCurrent_sets {s0 x1 x2} : (State.swapCurrent s0 x1 x2).sets = s0.sets := by
  unfold State.swapCurrent
  with_reducible repeat' first
    | assumption
    | rfl
    | (extract_lets +onlyGivenNames y
       refine (show (y.sets = s0.sets → _) from fun h => ?_) ?_
       on_goal 1 => clear_value y
       on_goal 2 => (simp only [y]; try clear y))
    | (extract_lets +onlyGivenNames y; clear_value y)
    | refine ite_sets ?_ ?_
    | (simp only [*, modChm_sets, level_sets, sets_mk, sets_eta]; done)
    | split
    | (simp [*]; done)
    | simp only [*, modChm_sets, level_sets, sets_mk, sets_eta]

@[simp] theorem swapVset_sets {s0 x1 x2} : (State.swapVset s0 x1 x2).sets = s0.sets := by
  unfold State.swapVset
  with_reducible repeat' first
    | assumption
    | rfl
    | (extract_lets +onlyGivenNames y
       refine (show (y.sets = s0.sets → _) from fun h => ?_) ?_
       on_goal 1 => clear_value y
       on_goal 2 => (simp only [y]; try clear y))
    | (extract_lets +onlyGivenNames y; clear_value y)
    | refine ite_sets ?_ ?_
    | (simp only [*, modVs_sets, startDetector_sets, sets_mk, sets_eta]; done)
    | split
    | (simp [*]; done)
    | simp only [*, modVs_sets, startDetector_sets, sets_mk, sets_eta]

@[simp] theorem mpBegin_sets {s0 x1 x2} : (State.mpBegin s0 x1 x2).sets = s0.sets := by
  unfold State.mpBegin
  with_reducible repeat' first
    | assumption
    | rfl
    | (extract_lets +onlyGivenNames y
       refine (show (y.sets = s0.sets → _) from fun h => ?_) ?_
       on_goal 1 => clear_value y
       on_goal 2 => (simp only [y]; try clear y))
    | (extract_lets +onlyGivenNames y; clear_value y)
    | (refine (foldl_sets ?_).trans ?_; on_goal 1 => intro s0 _)
    | refine ite_sets ?_ ?_
    | (simp only [*, beginCreep_sets, modChm_sets, modElem_sets, modMpAcc_sets, openInterval_sets, modBmp_sets, sets_mk, sets_eta]; done)
    | split
    | (simp [*]; done)
    | simp only [*, beginCreep_sets, modChm_sets, modElem_sets, modMpAcc_sets, openInterval_sets, modBmp_sets, sets_mk, sets_eta]

@[simp] theorem mpEnd_sets {s0 x1} : (State.mpEnd s0 x1).sets = s0.sets := by
  unfold State.mpEnd
  with_reducible repeat' first
    | assumption
    | rfl
    | (extract_lets +onlyGivenNames y
       refine (show (y.sets = s0.sets → _) from fun h => ?_) ?_
       on_goal 1 => clear_value y
       on_goal 2 => (simp only [y]; try clear y))
    | (extract_lets +onlyGivenNames y; clear_value y)
    | (refine (foldl_sets ?_).trans ?_; on_goal 1 => intro s0 _)
    | (simp only [*, modMpAcc_sets, level_sets, sets_mk, sets_eta]; done)
    | split
    | (simp [*]; done)
    | simp only [*, modMpAcc_sets, level_sets, sets_mk, sets_eta]

@[simp] theorem swapMp_sets {s0 x1 x2} : (State.swapMp s0 x1 x2).sets = s0.sets := by
  unfold State.swapMp
  with_reducible repeat' first
    | assumption
    | rfl
    | (extract_lets +onlyGivenNames y
       refine (show (y.sets = s0.sets → _) from fun h => ?_) ?_
       on_goal 1 => clear_value y
       on_goal 2 => (simp only [y]; try clear y))
    | (extract_lets +onlyGivenNames y; clear_value y)
    | refine ite_sets ?_ ?_
    | (simp only [*, mpBegin_sets, level_sets, mpEnd_sets, sets_mk, sets_eta]; done)
    | split
    | (simp [*]; done)
    | simp only [*, mpBegin_sets, level_sets, mpEnd_sets, sets_mk, sets_eta]

@[simp] theorem swapSupply_sets {s0 x1 x2} : (State.swapSupply s0 x1 x2).sets = s0.sets := by
  unfold State.swapSupply
  with_reducible repeat' first
    | assumption
    | rfl
    | (extract_lets +onlyGivenNames y
       refine (show (y.sets = s0.sets → _) from fun h => ?_) ?_
       on_goal 1 => clear_value y
       on_goal 2 => (simp only [y]; try clear y))
    | (extract_lets +onlyGivenNames y; clear_value y)
    | refine ite_sets ?_ ?_
    | (simp only [*, decidePrepay_sets, sets_mk, sets_eta]; done)
    | split
    | (simp [*]; done)
    | simp only [*, decidePrepay_sets, sets_mk, sets_eta]

@[simp] theorem swapSliding_sets {s0 x1 x2} : (State.swapSliding s0 x1 x2).sets = s0.sets := by
  unfold State.swapSliding
  with_reducible repeat' first
    | assumption
    | rfl
    | (extract_lets +onlyGivenNames y
       refine (show (y.sets = s0.sets → _) from fun h => ?_) ?_
       on_goal 1 => clear_value y
       on_goal 2 => (simp only [y]; try clear y))
    | (extract_lets +onlyGivenNames y; clear_value y)
    | (refine (foldl_sets ?_).trans ?_; on_goal 1 => intro s0 _)
    | refine ite_sets ?_ ?_
    | (simp only [*, modPqc_sets, sets_mk, sets_eta]; done)
    | split
    | (simp [*]; done)
    | simp only [*, modPqc_sets, sets_mk, sets_eta]

@[simp] theorem swapPq_sets {s0 x1 x2} : (State.swapPq s0 x1 x2).sets = s0.sets := by
  unfold State.swapPq
  with_reducible repeat' first
    | assumption
    | rfl
    | (extract_lets +onlyGivenNames y
       refine (show (y.sets = s0.sets → _) from fun h => ?_) ?_
       on_goal 1 => clear_value y
       on_goal 2 => (simp only [y]; try clear y))
    | (extract_lets +onlyGivenNames y; clear_value y)
    | (refine (foldl_sets ?_).trans ?_; on_goal 1 => intro s0 _)
    | refine ite_sets ?_ ?_
    | (simp only [*, swapSliding_sets, level_sets, modPqc_sets, modMon_sets, flickerRestart_sets, sets_mk, sets_eta]; done)
    | split
    | (simp [*]; done)
    | simp only [*, swapSliding_sets, level_sets, modPqc_sets, modMon_sets, flickerRestart_sets, sets_mk, sets_eta]

@[simp] theorem swapPlc_sets {s0 x1} : (State.swapPlc s0 x1).sets = s0.sets := by
  unfold State.swapPlc
  with_reducible repeat' first
    | assumption
    | rfl
    | (extract_lets +onlyGivenNames y
       refine (show (y.sets = s0.sets → _) from fun h => ?_) ?_
       on_goal 1 => clear_value y
       on_goal 2 => (simp only [y]; try clear y))
    | (extract_lets +onlyGivenNames y
       have hk : Kiln.ph y = Kiln.ph (State.kiln _) := rfl
       clear_value y)
    | (extract_lets +onlyGivenNames y; clear_value y)
    | refine ite_sets ?_ ?_
    | (simp only [*, plcStop_sets, closeRound_sets, sets_mk, sets_eta]; done)
    | split
    | (simp [*]; done)
    | simp only [*, plcStop_sets, closeRound_sets, sets_mk, sets_eta]

@[simp] theorem swapRadio_sets {s0 x1 x2} : (State.swapRadio s0 x1 x2).sets = s0.sets := by
  unfold State.swapRadio
  with_reducible repeat' first
    | assumption
    | rfl
    | (extract_lets +onlyGivenNames y
       refine (show (y.sets = s0.sets → _) from fun h => ?_) ?_
       on_goal 1 => clear_value y
       on_goal 2 => (simp only [y]; try clear y))
    | (extract_lets +onlyGivenNames y; clear_value y)
    | refine ite_sets ?_ ?_
    | (simp only [*, rpNext_sets, modRport_sets, rpLevels_sets, sets_mk, sets_eta]; done)
    | split
    | (simp [*]; done)
    | simp only [*, rpNext_sets, modRport_sets, rpLevels_sets, sets_mk, sets_eta]

@[simp] theorem swapLane_sets {s0 x1 x2 x3} : (State.swapLane s0 x1 x2 x3).sets = s0.sets := by
  unfold State.swapLane
  with_reducible repeat' first
    | assumption
    | rfl
    | (extract_lets +onlyGivenNames y
       refine (show (y.sets = s0.sets → _) from fun h => ?_) ?_
       on_goal 1 => clear_value y
       on_goal 2 => (simp only [y]; try clear y))
    | (extract_lets +onlyGivenNames y; clear_value y)
    | refine ite_sets ?_ ?_
    | (simp only [*, laneStop_sets, laneLevels_sets, modLane_sets, sets_mk, sets_eta]; done)
    | split
    | (simp [*]; done)
    | simp only [*, laneStop_sets, laneLevels_sets, modLane_sets, sets_mk, sets_eta]

@[simp] theorem swapUplink_sets {s0 x1 x2} : (State.swapUplink s0 x1 x2).sets = s0.sets := by
  unfold State.swapUplink
  with_reducible repeat' first
    | assumption
    | rfl
    | (extract_lets +onlyGivenNames y
       refine (show (y.sets = s0.sets → _) from fun h => ?_) ?_
       on_goal 1 => clear_value y
       on_goal 2 => (simp only [y]; try clear y))
    | (extract_lets +onlyGivenNames y
       have hk : Kiln.ph y = Kiln.ph (State.kiln _) := rfl
       clear_value y)
    | (extract_lets +onlyGivenNames y; clear_value y)
    | refine ite_sets ?_ ?_
    | (simp only [*, level_sets, setReady_sets, sets_mk, sets_eta]; done)
    | split
    | (simp [*]; done)
    | simp only [*, level_sets, setReady_sets, sets_mk, sets_eta]

@[simp] theorem swapMeter_sets {s0 x1} : (State.swapMeter s0 x1).sets = s0.sets := by
  unfold State.swapMeter
  with_reducible repeat' first
    | assumption
    | rfl
    | (extract_lets +onlyGivenNames y
       refine (show (y.sets = s0.sets → _) from fun h => ?_) ?_
       on_goal 1 => clear_value y
       on_goal 2 => (simp only [y]; try clear y))
    | (extract_lets +onlyGivenNames y; clear_value y)
    | (refine (foldl_sets ?_).trans ?_; on_goal 1 => intro s0 _)
    | refine ite_sets ?_ ?_
    | (simp only [*, swapCourse_sets, swapCurrent_sets, swapChannel_sets, swapVset_sets, swapMp_sets, swapPq_sets, swapPulse_sets, swapDi_sets, driveContactor_sets, swapSupply_sets, rateChange_sets, tilesSettle_sets, sets_mk, sets_eta]; done)
    | split
    | (simp [*]; done)
    | simp only [*, swapCourse_sets, swapCurrent_sets, swapChannel_sets, swapVset_sets, swapMp_sets, swapPq_sets, swapPulse_sets, swapDi_sets, driveContactor_sets, swapSupply_sets, rateChange_sets, tilesSettle_sets, sets_mk, sets_eta]

@[simp] theorem swapOthers_sets {s0 x1 x2} : (State.swapOthers s0 x1 x2).sets = s0.sets := by
  unfold State.swapOthers
  with_reducible repeat' first
    | assumption
    | rfl
    | (extract_lets +onlyGivenNames y
       refine (show (y.sets = s0.sets → _) from fun h => ?_) ?_
       on_goal 1 => clear_value y
       on_goal 2 => (simp only [y]; try clear y))
    | (extract_lets +onlyGivenNames y
       have hk : Kiln.ph y = Kiln.ph (State.kiln _) := rfl
       clear_value y)
    | (extract_lets +onlyGivenNames y; clear_value y)
    | (refine (foldl_sets ?_).trans ?_; on_goal 1 => intro s0 _)
    | refine ite_sets ?_ ?_
    | (simp only [*, swapCopy_sets, auxSwap_sets, selectSource_sets, mainsRestart_sets, portsReady_sets, swapPlc_sets, rpReady_sets, swapRadio_sets, swapLane_sets, swapUplink_sets, mirrorLevel_sets, publishLcv_sets, sets_mk, sets_eta]; done)
    | split
    | (simp [*]; done)
    | simp only [*, swapCopy_sets, auxSwap_sets, selectSource_sets, mainsRestart_sets, portsReady_sets, swapPlc_sets, rpReady_sets, swapRadio_sets, swapLane_sets, swapUplink_sets, mirrorLevel_sets, publishLcv_sets, sets_mk, sets_eta]

end Sys2Proof.Machine
end

