-- ==== Sys2Proof/Laws/State.lean ====
section
/-! SUPPORT. One lemma per field per update of a state field: reading a field after storing one. -/

namespace Sys2Proof.Machine

@[simp] theorem State.pending_with_pending (s : State) (v : List Instr) : ({ s with pending := v } : State).pending = v := rfl
@[simp] theorem State.freeCount_with_pending (s : State) (v : List Instr) : ({ s with pending := v } : State).freeCount = s.freeCount := rfl
@[simp] theorem State.time_with_pending (s : State) (v : List Instr) : ({ s with pending := v } : State).time = s.time := rfl
@[simp] theorem State.rtc_with_pending (s : State) (v : List Instr) : ({ s with pending := v } : State).rtc = s.rtc := rfl
@[simp] theorem State.front_with_pending (s : State) (v : List Instr) : ({ s with pending := v } : State).front = s.front := rfl
@[simp] theorem State.metro_with_pending (s : State) (v : List Instr) : ({ s with pending := v } : State).metro = s.metro := rfl
@[simp] theorem State.pq_with_pending (s : State) (v : List Instr) : ({ s with pending := v } : State).pq = s.pq := rfl
@[simp] theorem State.acc_with_pending (s : State) (v : List Instr) : ({ s with pending := v } : State).acc = s.acc := rfl
@[simp] theorem State.tiles_with_pending (s : State) (v : List Instr) : ({ s with pending := v } : State).tiles = s.tiles := rfl
@[simp] theorem State.aux_with_pending (s : State) (v : List Instr) : ({ s with pending := v } : State).aux = s.aux := rfl
@[simp] theorem State.bill_with_pending (s : State) (v : List Instr) : ({ s with pending := v } : State).bill = s.bill := rfl
@[simp] theorem State.plc_with_pending (s : State) (v : List Instr) : ({ s with pending := v } : State).plc = s.plc := rfl
@[simp] theorem State.radio_with_pending (s : State) (v : List Instr) : ({ s with pending := v } : State).radio = s.radio := rfl
@[simp] theorem State.ledger_with_pending (s : State) (v : List Instr) : ({ s with pending := v } : State).ledger = s.ledger := rfl
@[simp] theorem State.mortar_with_pending (s : State) (v : List Instr) : ({ s with pending := v } : State).mortar = s.mortar := rfl
@[simp] theorem State.host_with_pending (s : State) (v : List Instr) : ({ s with pending := v } : State).host = s.host := rfl
@[simp] theorem State.win_with_pending (s : State) (v : List Instr) : ({ s with pending := v } : State).win = s.win := rfl
@[simp] theorem State.ev_with_pending (s : State) (v : List Instr) : ({ s with pending := v } : State).ev = s.ev := rfl
@[simp] theorem State.cfg_with_pending (s : State) (v : List Instr) : ({ s with pending := v } : State).cfg = s.cfg := rfl
@[simp] theorem State.store_with_pending (s : State) (v : List Instr) : ({ s with pending := v } : State).store = s.store := rfl
@[simp] theorem State.power_with_pending (s : State) (v : List Instr) : ({ s with pending := v } : State).power = s.power := rfl
@[simp] theorem State.kiln_with_pending (s : State) (v : List Instr) : ({ s with pending := v } : State).kiln = s.kiln := rfl
@[simp] theorem State.fault_with_pending (s : State) (v : List Instr) : ({ s with pending := v } : State).fault = s.fault := rfl
@[simp] theorem State.pins_with_pending (s : State) (v : List Instr) : ({ s with pending := v } : State).pins = s.pins := rfl
@[simp] theorem State.pending_with_freeCount (s : State) (v : Nat) : ({ s with freeCount := v } : State).pending = s.pending := rfl
@[simp] theorem State.freeCount_with_freeCount (s : State) (v : Nat) : ({ s with freeCount := v } : State).freeCount = v := rfl
@[simp] theorem State.time_with_freeCount (s : State) (v : Nat) : ({ s with freeCount := v } : State).time = s.time := rfl
@[simp] theorem State.rtc_with_freeCount (s : State) (v : Nat) : ({ s with freeCount := v } : State).rtc = s.rtc := rfl
@[simp] theorem State.front_with_freeCount (s : State) (v : Nat) : ({ s with freeCount := v } : State).front = s.front := rfl
@[simp] theorem State.metro_with_freeCount (s : State) (v : Nat) : ({ s with freeCount := v } : State).metro = s.metro := rfl
@[simp] theorem State.pq_with_freeCount (s : State) (v : Nat) : ({ s with freeCount := v } : State).pq = s.pq := rfl
@[simp] theorem State.acc_with_freeCount (s : State) (v : Nat) : ({ s with freeCount := v } : State).acc = s.acc := rfl
@[simp] theorem State.tiles_with_freeCount (s : State) (v : Nat) : ({ s with freeCount := v } : State).tiles = s.tiles := rfl
@[simp] theorem State.aux_with_freeCount (s : State) (v : Nat) : ({ s with freeCount := v } : State).aux = s.aux := rfl
@[simp] theorem State.bill_with_freeCount (s : State) (v : Nat) : ({ s with freeCount := v } : State).bill = s.bill := rfl
@[simp] theorem State.plc_with_freeCount (s : State) (v : Nat) : ({ s with freeCount := v } : State).plc = s.plc := rfl
@[simp] theorem State.radio_with_freeCount (s : State) (v : Nat) : ({ s with freeCount := v } : State).radio = s.radio := rfl
@[simp] theorem State.ledger_with_freeCount (s : State) (v : Nat) : ({ s with freeCount := v } : State).ledger = s.ledger := rfl
@[simp] theorem State.mortar_with_freeCount (s : State) (v : Nat) : ({ s with freeCount := v } : State).mortar = s.mortar := rfl
@[simp] theorem State.host_with_freeCount (s : State) (v : Nat) : ({ s with freeCount := v } : State).host = s.host := rfl
@[simp] theorem State.win_with_freeCount (s : State) (v : Nat) : ({ s with freeCount := v } : State).win = s.win := rfl
@[simp] theorem State.ev_with_freeCount (s : State) (v : Nat) : ({ s with freeCount := v } : State).ev = s.ev := rfl
@[simp] theorem State.cfg_with_freeCount (s : State) (v : Nat) : ({ s with freeCount := v } : State).cfg = s.cfg := rfl
@[simp] theorem State.store_with_freeCount (s : State) (v : Nat) : ({ s with freeCount := v } : State).store = s.store := rfl
@[simp] theorem State.power_with_freeCount (s : State) (v : Nat) : ({ s with freeCount := v } : State).power = s.power := rfl
@[simp] theorem State.kiln_with_freeCount (s : State) (v : Nat) : ({ s with freeCount := v } : State).kiln = s.kiln := rfl
@[simp] theorem State.fault_with_freeCount (s : State) (v : Nat) : ({ s with freeCount := v } : State).fault = s.fault := rfl
@[simp] theorem State.pins_with_freeCount (s : State) (v : Nat) : ({ s with freeCount := v } : State).pins = s.pins := rfl
@[simp] theorem State.pending_with_time (s : State) (v : TimeSt) : ({ s with time := v } : State).pending = s.pending := rfl
@[simp] theorem State.freeCount_with_time (s : State) (v : TimeSt) : ({ s with time := v } : State).freeCount = s.freeCount := rfl
@[simp] theorem State.time_with_time (s : State) (v : TimeSt) : ({ s with time := v } : State).time = v := rfl
@[simp] theorem State.rtc_with_time (s : State) (v : TimeSt) : ({ s with time := v } : State).rtc = s.rtc := rfl
@[simp] theorem State.front_with_time (s : State) (v : TimeSt) : ({ s with time := v } : State).front = s.front := rfl
@[simp] theorem State.metro_with_time (s : State) (v : TimeSt) : ({ s with time := v } : State).metro = s.metro := rfl
@[simp] theorem State.pq_with_time (s : State) (v : TimeSt) : ({ s with time := v } : State).pq = s.pq := rfl
@[simp] theorem State.acc_with_time (s : State) (v : TimeSt) : ({ s with time := v } : State).acc = s.acc := rfl
@[simp] theorem State.tiles_with_time (s : State) (v : TimeSt) : ({ s with time := v } : State).tiles = s.tiles := rfl
@[simp] theorem State.aux_with_time (s : State) (v : TimeSt) : ({ s with time := v } : State).aux = s.aux := rfl
@[simp] theorem State.bill_with_time (s : State) (v : TimeSt) : ({ s with time := v } : State).bill = s.bill := rfl
@[simp] theorem State.plc_with_time (s : State) (v : TimeSt) : ({ s with time := v } : State).plc = s.plc := rfl
@[simp] theorem State.radio_with_time (s : State) (v : TimeSt) : ({ s with time := v } : State).radio = s.radio := rfl
@[simp] theorem State.ledger_with_time (s : State) (v : TimeSt) : ({ s with time := v } : State).ledger = s.ledger := rfl
@[simp] theorem State.mortar_with_time (s : State) (v : TimeSt) : ({ s with time := v } : State).mortar = s.mortar := rfl
@[simp] theorem State.host_with_time (s : State) (v : TimeSt) : ({ s with time := v } : State).host = s.host := rfl
@[simp] theorem State.win_with_time (s : State) (v : TimeSt) : ({ s with time := v } : State).win = s.win := rfl
@[simp] theorem State.ev_with_time (s : State) (v : TimeSt) : ({ s with time := v } : State).ev = s.ev := rfl
@[simp] theorem State.cfg_with_time (s : State) (v : TimeSt) : ({ s with time := v } : State).cfg = s.cfg := rfl
@[simp] theorem State.store_with_time (s : State) (v : TimeSt) : ({ s with time := v } : State).store = s.store := rfl
@[simp] theorem State.power_with_time (s : State) (v : TimeSt) : ({ s with time := v } : State).power = s.power := rfl
@[simp] theorem State.kiln_with_time (s : State) (v : TimeSt) : ({ s with time := v } : State).kiln = s.kiln := rfl
@[simp] theorem State.fault_with_time (s : State) (v : TimeSt) : ({ s with time := v } : State).fault = s.fault := rfl
@[simp] theorem State.pins_with_time (s : State) (v : TimeSt) : ({ s with time := v } : State).pins = s.pins := rfl
@[simp] theorem State.pending_with_rtc (s : State) (v : Rtc) : ({ s with rtc := v } : State).pending = s.pending := rfl
@[simp] theorem State.freeCount_with_rtc (s : State) (v : Rtc) : ({ s with rtc := v } : State).freeCount = s.freeCount := rfl
@[simp] theorem State.time_with_rtc (s : State) (v : Rtc) : ({ s with rtc := v } : State).time = s.time := rfl
@[simp] theorem State.rtc_with_rtc (s : State) (v : Rtc) : ({ s with rtc := v } : State).rtc = v := rfl
@[simp] theorem State.front_with_rtc (s : State) (v : Rtc) : ({ s with rtc := v } : State).front = s.front := rfl
@[simp] theorem State.metro_with_rtc (s : State) (v : Rtc) : ({ s with rtc := v } : State).metro = s.metro := rfl
@[simp] theorem State.pq_with_rtc (s : State) (v : Rtc) : ({ s with rtc := v } : State).pq = s.pq := rfl
@[simp] theorem State.acc_with_rtc (s : State) (v : Rtc) : ({ s with rtc := v } : State).acc = s.acc := rfl
@[simp] theorem State.tiles_with_rtc (s : State) (v : Rtc) : ({ s with rtc := v } : State).tiles = s.tiles := rfl
@[simp] theorem State.aux_with_rtc (s : State) (v : Rtc) : ({ s with rtc := v } : State).aux = s.aux := rfl
@[simp] theorem State.bill_with_rtc (s : State) (v : Rtc) : ({ s with rtc := v } : State).bill = s.bill := rfl
@[simp] theorem State.plc_with_rtc (s : State) (v : Rtc) : ({ s with rtc := v } : State).plc = s.plc := rfl
@[simp] theorem State.radio_with_rtc (s : State) (v : Rtc) : ({ s with rtc := v } : State).radio = s.radio := rfl
@[simp] theorem State.ledger_with_rtc (s : State) (v : Rtc) : ({ s with rtc := v } : State).ledger = s.ledger := rfl
@[simp] theorem State.mortar_with_rtc (s : State) (v : Rtc) : ({ s with rtc := v } : State).mortar = s.mortar := rfl
@[simp] theorem State.host_with_rtc (s : State) (v : Rtc) : ({ s with rtc := v } : State).host = s.host := rfl
@[simp] theorem State.win_with_rtc (s : State) (v : Rtc) : ({ s with rtc := v } : State).win = s.win := rfl
@[simp] theorem State.ev_with_rtc (s : State) (v : Rtc) : ({ s with rtc := v } : State).ev = s.ev := rfl
@[simp] theorem State.cfg_with_rtc (s : State) (v : Rtc) : ({ s with rtc := v } : State).cfg = s.cfg := rfl
@[simp] theorem State.store_with_rtc (s : State) (v : Rtc) : ({ s with rtc := v } : State).store = s.store := rfl
@[simp] theorem State.power_with_rtc (s : State) (v : Rtc) : ({ s with rtc := v } : State).power = s.power := rfl
@[simp] theorem State.kiln_with_rtc (s : State) (v : Rtc) : ({ s with rtc := v } : State).kiln = s.kiln := rfl
@[simp] theorem State.fault_with_rtc (s : State) (v : Rtc) : ({ s with rtc := v } : State).fault = s.fault := rfl
@[simp] theorem State.pins_with_rtc (s : State) (v : Rtc) : ({ s with rtc := v } : State).pins = s.pins := rfl
@[simp] theorem State.pending_with_front (s : State) (v : Front) : ({ s with front := v } : State).pending = s.pending := rfl
@[simp] theorem State.freeCount_with_front (s : State) (v : Front) : ({ s with front := v } : State).freeCount = s.freeCount := rfl
@[simp] theorem State.time_with_front (s : State) (v : Front) : ({ s with front := v } : State).time = s.time := rfl
@[simp] theorem State.rtc_with_front (s : State) (v : Front) : ({ s with front := v } : State).rtc = s.rtc := rfl
@[simp] theorem State.front_with_front (s : State) (v : Front) : ({ s with front := v } : State).front = v := rfl
@[simp] theorem State.metro_with_front (s : State) (v : Front) : ({ s with front := v } : State).metro = s.metro := rfl
@[simp] theorem State.pq_with_front (s : State) (v : Front) : ({ s with front := v } : State).pq = s.pq := rfl
@[simp] theorem State.acc_with_front (s : State) (v : Front) : ({ s with front := v } : State).acc = s.acc := rfl
@[simp] theorem State.tiles_with_front (s : State) (v : Front) : ({ s with front := v } : State).tiles = s.tiles := rfl
@[simp] theorem State.aux_with_front (s : State) (v : Front) : ({ s with front := v } : State).aux = s.aux := rfl
@[simp] theorem State.bill_with_front (s : State) (v : Front) : ({ s with front := v } : State).bill = s.bill := rfl
@[simp] theorem State.plc_with_front (s : State) (v : Front) : ({ s with front := v } : State).plc = s.plc := rfl
@[simp] theorem State.radio_with_front (s : State) (v : Front) : ({ s with front := v } : State).radio = s.radio := rfl
@[simp] theorem State.ledger_with_front (s : State) (v : Front) : ({ s with front := v } : State).ledger = s.ledger := rfl
@[simp] theorem State.mortar_with_front (s : State) (v : Front) : ({ s with front := v } : State).mortar = s.mortar := rfl
@[simp] theorem State.host_with_front (s : State) (v : Front) : ({ s with front := v } : State).host = s.host := rfl
@[simp] theorem State.win_with_front (s : State) (v : Front) : ({ s with front := v } : State).win = s.win := rfl
@[simp] theorem State.ev_with_front (s : State) (v : Front) : ({ s with front := v } : State).ev = s.ev := rfl
@[simp] theorem State.cfg_with_front (s : State) (v : Front) : ({ s with front := v } : State).cfg = s.cfg := rfl
@[simp] theorem State.store_with_front (s : State) (v : Front) : ({ s with front := v } : State).store = s.store := rfl
@[simp] theorem State.power_with_front (s : State) (v : Front) : ({ s with front := v } : State).power = s.power := rfl
@[simp] theorem State.kiln_with_front (s : State) (v : Front) : ({ s with front := v } : State).kiln = s.kiln := rfl
@[simp] theorem State.fault_with_front (s : State) (v : Front) : ({ s with front := v } : State).fault = s.fault := rfl
@[simp] theorem State.pins_with_front (s : State) (v : Front) : ({ s with front := v } : State).pins = s.pins := rfl
@[simp] theorem State.pending_with_metro (s : State) (v : Metro) : ({ s with metro := v } : State).pending = s.pending := rfl
@[simp] theorem State.freeCount_with_metro (s : State) (v : Metro) : ({ s with metro := v } : State).freeCount = s.freeCount := rfl
@[simp] theorem State.time_with_metro (s : State) (v : Metro) : ({ s with metro := v } : State).time = s.time := rfl
@[simp] theorem State.rtc_with_metro (s : State) (v : Metro) : ({ s with metro := v } : State).rtc = s.rtc := rfl
@[simp] theorem State.front_with_metro (s : State) (v : Metro) : ({ s with metro := v } : State).front = s.front := rfl
@[simp] theorem State.metro_with_metro (s : State) (v : Metro) : ({ s with metro := v } : State).metro = v := rfl
@[simp] theorem State.pq_with_metro (s : State) (v : Metro) : ({ s with metro := v } : State).pq = s.pq := rfl
@[simp] theorem State.acc_with_metro (s : State) (v : Metro) : ({ s with metro := v } : State).acc = s.acc := rfl
@[simp] theorem State.tiles_with_metro (s : State) (v : Metro) : ({ s with metro := v } : State).tiles = s.tiles := rfl
@[simp] theorem State.aux_with_metro (s : State) (v : Metro) : ({ s with metro := v } : State).aux = s.aux := rfl
@[simp] theorem State.bill_with_metro (s : State) (v : Metro) : ({ s with metro := v } : State).bill = s.bill := rfl
@[simp] theorem State.plc_with_metro (s : State) (v : Metro) : ({ s with metro := v } : State).plc = s.plc := rfl
@[simp] theorem State.radio_with_metro (s : State) (v : Metro) : ({ s with metro := v } : State).radio = s.radio := rfl
@[simp] theorem State.ledger_with_metro (s : State) (v : Metro) : ({ s with metro := v } : State).ledger = s.ledger := rfl
@[simp] theorem State.mortar_with_metro (s : State) (v : Metro) : ({ s with metro := v } : State).mortar = s.mortar := rfl
@[simp] theorem State.host_with_metro (s : State) (v : Metro) : ({ s with metro := v } : State).host = s.host := rfl
@[simp] theorem State.win_with_metro (s : State) (v : Metro) : ({ s with metro := v } : State).win = s.win := rfl
@[simp] theorem State.ev_with_metro (s : State) (v : Metro) : ({ s with metro := v } : State).ev = s.ev := rfl
@[simp] theorem State.cfg_with_metro (s : State) (v : Metro) : ({ s with metro := v } : State).cfg = s.cfg := rfl
@[simp] theorem State.store_with_metro (s : State) (v : Metro) : ({ s with metro := v } : State).store = s.store := rfl
@[simp] theorem State.power_with_metro (s : State) (v : Metro) : ({ s with metro := v } : State).power = s.power := rfl
@[simp] theorem State.kiln_with_metro (s : State) (v : Metro) : ({ s with metro := v } : State).kiln = s.kiln := rfl
@[simp] theorem State.fault_with_metro (s : State) (v : Metro) : ({ s with metro := v } : State).fault = s.fault := rfl
@[simp] theorem State.pins_with_metro (s : State) (v : Metro) : ({ s with metro := v } : State).pins = s.pins := rfl
@[simp] theorem State.pending_with_pq (s : State) (v : Pq) : ({ s with pq := v } : State).pending = s.pending := rfl
@[simp] theorem State.freeCount_with_pq (s : State) (v : Pq) : ({ s with pq := v } : State).freeCount = s.freeCount := rfl
@[simp] theorem State.time_with_pq (s : State) (v : Pq) : ({ s with pq := v } : State).time = s.time := rfl
@[simp] theorem State.rtc_with_pq (s : State) (v : Pq) : ({ s with pq := v } : State).rtc = s.rtc := rfl
@[simp] theorem State.front_with_pq (s : State) (v : Pq) : ({ s with pq := v } : State).front = s.front := rfl
@[simp] theorem State.metro_with_pq (s : State) (v : Pq) : ({ s with pq := v } : State).metro = s.metro := rfl
@[simp] theorem State.pq_with_pq (s : State) (v : Pq) : ({ s with pq := v } : State).pq = v := rfl
@[simp] theorem State.acc_with_pq (s : State) (v : Pq) : ({ s with pq := v } : State).acc = s.acc := rfl
@[simp] theorem State.tiles_with_pq (s : State) (v : Pq) : ({ s with pq := v } : State).tiles = s.tiles := rfl
@[simp] theorem State.aux_with_pq (s : State) (v : Pq) : ({ s with pq := v } : State).aux = s.aux := rfl
@[simp] theorem State.bill_with_pq (s : State) (v : Pq) : ({ s with pq := v } : State).bill = s.bill := rfl
@[simp] theorem State.plc_with_pq (s : State) (v : Pq) : ({ s with pq := v } : State).plc = s.plc := rfl
@[simp] theorem State.radio_with_pq (s : State) (v : Pq) : ({ s with pq := v } : State).radio = s.radio := rfl
@[simp] theorem State.ledger_with_pq (s : State) (v : Pq) : ({ s with pq := v } : State).ledger = s.ledger := rfl
@[simp] theorem State.mortar_with_pq (s : State) (v : Pq) : ({ s with pq := v } : State).mortar = s.mortar := rfl
@[simp] theorem State.host_with_pq (s : State) (v : Pq) : ({ s with pq := v } : State).host = s.host := rfl
@[simp] theorem State.win_with_pq (s : State) (v : Pq) : ({ s with pq := v } : State).win = s.win := rfl
@[simp] theorem State.ev_with_pq (s : State) (v : Pq) : ({ s with pq := v } : State).ev = s.ev := rfl
@[simp] theorem State.cfg_with_pq (s : State) (v : Pq) : ({ s with pq := v } : State).cfg = s.cfg := rfl
@[simp] theorem State.store_with_pq (s : State) (v : Pq) : ({ s with pq := v } : State).store = s.store := rfl
@[simp] theorem State.power_with_pq (s : State) (v : Pq) : ({ s with pq := v } : State).power = s.power := rfl
@[simp] theorem State.kiln_with_pq (s : State) (v : Pq) : ({ s with pq := v } : State).kiln = s.kiln := rfl
@[simp] theorem State.fault_with_pq (s : State) (v : Pq) : ({ s with pq := v } : State).fault = s.fault := rfl
@[simp] theorem State.pins_with_pq (s : State) (v : Pq) : ({ s with pq := v } : State).pins = s.pins := rfl
@[simp] theorem State.pending_with_acc (s : State) (v : Acc) : ({ s with acc := v } : State).pending = s.pending := rfl
@[simp] theorem State.freeCount_with_acc (s : State) (v : Acc) : ({ s with acc := v } : State).freeCount = s.freeCount := rfl
@[simp] theorem State.time_with_acc (s : State) (v : Acc) : ({ s with acc := v } : State).time = s.time := rfl
@[simp] theorem State.rtc_with_acc (s : State) (v : Acc) : ({ s with acc := v } : State).rtc = s.rtc := rfl
@[simp] theorem State.front_with_acc (s : State) (v : Acc) : ({ s with acc := v } : State).front = s.front := rfl
@[simp] theorem State.metro_with_acc (s : State) (v : Acc) : ({ s with acc := v } : State).metro = s.metro := rfl
@[simp] theorem State.pq_with_acc (s : State) (v : Acc) : ({ s with acc := v } : State).pq = s.pq := rfl
@[simp] theorem State.acc_with_acc (s : State) (v : Acc) : ({ s with acc := v } : State).acc = v := rfl
@[simp] theorem State.tiles_with_acc (s : State) (v : Acc) : ({ s with acc := v } : State).tiles = s.tiles := rfl
@[simp] theorem State.aux_with_acc (s : State) (v : Acc) : ({ s with acc := v } : State).aux = s.aux := rfl
@[simp] theorem State.bill_with_acc (s : State) (v : Acc) : ({ s with acc := v } : State).bill = s.bill := rfl
@[simp] theorem State.plc_with_acc (s : State) (v : Acc) : ({ s with acc := v } : State).plc = s.plc := rfl
@[simp] theorem State.radio_with_acc (s : State) (v : Acc) : ({ s with acc := v } : State).radio = s.radio := rfl
@[simp] theorem State.ledger_with_acc (s : State) (v : Acc) : ({ s with acc := v } : State).ledger = s.ledger := rfl
@[simp] theorem State.mortar_with_acc (s : State) (v : Acc) : ({ s with acc := v } : State).mortar = s.mortar := rfl
@[simp] theorem State.host_with_acc (s : State) (v : Acc) : ({ s with acc := v } : State).host = s.host := rfl
@[simp] theorem State.win_with_acc (s : State) (v : Acc) : ({ s with acc := v } : State).win = s.win := rfl
@[simp] theorem State.ev_with_acc (s : State) (v : Acc) : ({ s with acc := v } : State).ev = s.ev := rfl
@[simp] theorem State.cfg_with_acc (s : State) (v : Acc) : ({ s with acc := v } : State).cfg = s.cfg := rfl
@[simp] theorem State.store_with_acc (s : State) (v : Acc) : ({ s with acc := v } : State).store = s.store := rfl
@[simp] theorem State.power_with_acc (s : State) (v : Acc) : ({ s with acc := v } : State).power = s.power := rfl
@[simp] theorem State.kiln_with_acc (s : State) (v : Acc) : ({ s with acc := v } : State).kiln = s.kiln := rfl
@[simp] theorem State.fault_with_acc (s : State) (v : Acc) : ({ s with acc := v } : State).fault = s.fault := rfl
@[simp] theorem State.pins_with_acc (s : State) (v : Acc) : ({ s with acc := v } : State).pins = s.pins := rfl
@[simp] theorem State.pending_with_tiles (s : State) (v : Tiles) : ({ s with tiles := v } : State).pending = s.pending := rfl
@[simp] theorem State.freeCount_with_tiles (s : State) (v : Tiles) : ({ s with tiles := v } : State).freeCount = s.freeCount := rfl
@[simp] theorem State.time_with_tiles (s : State) (v : Tiles) : ({ s with tiles := v } : State).time = s.time := rfl
@[simp] theorem State.rtc_with_tiles (s : State) (v : Tiles) : ({ s with tiles := v } : State).rtc = s.rtc := rfl
@[simp] theorem State.front_with_tiles (s : State) (v : Tiles) : ({ s with tiles := v } : State).front = s.front := rfl
@[simp] theorem State.metro_with_tiles (s : State) (v : Tiles) : ({ s with tiles := v } : State).metro = s.metro := rfl
@[simp] theorem State.pq_with_tiles (s : State) (v : Tiles) : ({ s with tiles := v } : State).pq = s.pq := rfl
@[simp] theorem State.acc_with_tiles (s : State) (v : Tiles) : ({ s with tiles := v } : State).acc = s.acc := rfl
@[simp] theorem State.tiles_with_tiles (s : State) (v : Tiles) : ({ s with tiles := v } : State).tiles = v := rfl
@[simp] theorem State.aux_with_tiles (s : State) (v : Tiles) : ({ s with tiles := v } : State).aux = s.aux := rfl
@[simp] theorem State.bill_with_tiles (s : State) (v : Tiles) : ({ s with tiles := v } : State).bill = s.bill := rfl
@[simp] theorem State.plc_with_tiles (s : State) (v : Tiles) : ({ s with tiles := v } : State).plc = s.plc := rfl
@[simp] theorem State.radio_with_tiles (s : State) (v : Tiles) : ({ s with tiles := v } : State).radio = s.radio := rfl
@[simp] theorem State.ledger_with_tiles (s : State) (v : Tiles) : ({ s with tiles := v } : State).ledger = s.ledger := rfl
@[simp] theorem State.mortar_with_tiles (s : State) (v : Tiles) : ({ s with tiles := v } : State).mortar = s.mortar := rfl
@[simp] theorem State.host_with_tiles (s : State) (v : Tiles) : ({ s with tiles := v } : State).host = s.host := rfl
@[simp] theorem State.win_with_tiles (s : State) (v : Tiles) : ({ s with tiles := v } : State).win = s.win := rfl
@[simp] theorem State.ev_with_tiles (s : State) (v : Tiles) : ({ s with tiles := v } : State).ev = s.ev := rfl
@[simp] theorem State.cfg_with_tiles (s : State) (v : Tiles) : ({ s with tiles := v } : State).cfg = s.cfg := rfl
@[simp] theorem State.store_with_tiles (s : State) (v : Tiles) : ({ s with tiles := v } : State).store = s.store := rfl
@[simp] theorem State.power_with_tiles (s : State) (v : Tiles) : ({ s with tiles := v } : State).power = s.power := rfl
@[simp] theorem State.kiln_with_tiles (s : State) (v : Tiles) : ({ s with tiles := v } : State).kiln = s.kiln := rfl
@[simp] theorem State.fault_with_tiles (s : State) (v : Tiles) : ({ s with tiles := v } : State).fault = s.fault := rfl
@[simp] theorem State.pins_with_tiles (s : State) (v : Tiles) : ({ s with tiles := v } : State).pins = s.pins := rfl
@[simp] theorem State.pending_with_aux (s : State) (v : Aux) : ({ s with aux := v } : State).pending = s.pending := rfl
@[simp] theorem State.freeCount_with_aux (s : State) (v : Aux) : ({ s with aux := v } : State).freeCount = s.freeCount := rfl
@[simp] theorem State.time_with_aux (s : State) (v : Aux) : ({ s with aux := v } : State).time = s.time := rfl
@[simp] theorem State.rtc_with_aux (s : State) (v : Aux) : ({ s with aux := v } : State).rtc = s.rtc := rfl
@[simp] theorem State.front_with_aux (s : State) (v : Aux) : ({ s with aux := v } : State).front = s.front := rfl
@[simp] theorem State.metro_with_aux (s : State) (v : Aux) : ({ s with aux := v } : State).metro = s.metro := rfl
@[simp] theorem State.pq_with_aux (s : State) (v : Aux) : ({ s with aux := v } : State).pq = s.pq := rfl
@[simp] theorem State.acc_with_aux (s : State) (v : Aux) : ({ s with aux := v } : State).acc = s.acc := rfl
@[simp] theorem State.tiles_with_aux (s : State) (v : Aux) : ({ s with aux := v } : State).tiles = s.tiles := rfl
@[simp] theorem State.aux_with_aux (s : State) (v : Aux) : ({ s with aux := v } : State).aux = v := rfl
@[simp] theorem State.bill_with_aux (s : State) (v : Aux) : ({ s with aux := v } : State).bill = s.bill := rfl
@[simp] theorem State.plc_with_aux (s : State) (v : Aux) : ({ s with aux := v } : State).plc = s.plc := rfl
@[simp] theorem State.radio_with_aux (s : State) (v : Aux) : ({ s with aux := v } : State).radio = s.radio := rfl
@[simp] theorem State.ledger_with_aux (s : State) (v : Aux) : ({ s with aux := v } : State).ledger = s.ledger := rfl
@[simp] theorem State.mortar_with_aux (s : State) (v : Aux) : ({ s with aux := v } : State).mortar = s.mortar := rfl
@[simp] theorem State.host_with_aux (s : State) (v : Aux) : ({ s with aux := v } : State).host = s.host := rfl
@[simp] theorem State.win_with_aux (s : State) (v : Aux) : ({ s with aux := v } : State).win = s.win := rfl
@[simp] theorem State.ev_with_aux (s : State) (v : Aux) : ({ s with aux := v } : State).ev = s.ev := rfl
@[simp] theorem State.cfg_with_aux (s : State) (v : Aux) : ({ s with aux := v } : State).cfg = s.cfg := rfl
@[simp] theorem State.store_with_aux (s : State) (v : Aux) : ({ s with aux := v } : State).store = s.store := rfl
@[simp] theorem State.power_with_aux (s : State) (v : Aux) : ({ s with aux := v } : State).power = s.power := rfl
@[simp] theorem State.kiln_with_aux (s : State) (v : Aux) : ({ s with aux := v } : State).kiln = s.kiln := rfl
@[simp] theorem State.fault_with_aux (s : State) (v : Aux) : ({ s with aux := v } : State).fault = s.fault := rfl
@[simp] theorem State.pins_with_aux (s : State) (v : Aux) : ({ s with aux := v } : State).pins = s.pins := rfl
@[simp] theorem State.pending_with_bill (s : State) (v : Bill) : ({ s with bill := v } : State).pending = s.pending := rfl
@[simp] theorem State.freeCount_with_bill (s : State) (v : Bill) : ({ s with bill := v } : State).freeCount = s.freeCount := rfl
@[simp] theorem State.time_with_bill (s : State) (v : Bill) : ({ s with bill := v } : State).time = s.time := rfl
@[simp] theorem State.rtc_with_bill (s : State) (v : Bill) : ({ s with bill := v } : State).rtc = s.rtc := rfl
@[simp] theorem State.front_with_bill (s : State) (v : Bill) : ({ s with bill := v } : State).front = s.front := rfl
@[simp] theorem State.metro_with_bill (s : State) (v : Bill) : ({ s with bill := v } : State).metro = s.metro := rfl
@[simp] theorem State.pq_with_bill (s : State) (v : Bill) : ({ s with bill := v } : State).pq = s.pq := rfl
@[simp] theorem State.acc_with_bill (s : State) (v : Bill) : ({ s with bill := v } : State).acc = s.acc := rfl
@[simp] theorem State.tiles_with_bill (s : State) (v : Bill) : ({ s with bill := v } : State).tiles = s.tiles := rfl
@[simp] theorem State.aux_with_bill (s : State) (v : Bill) : ({ s with bill := v } : State).aux = s.aux := rfl
@[simp] theorem State.bill_with_bill (s : State) (v : Bill) : ({ s with bill := v } : State).bill = v := rfl
@[simp] theorem State.plc_with_bill (s : State) (v : Bill) : ({ s with bill := v } : State).plc = s.plc := rfl
@[simp] theorem State.radio_with_bill (s : State) (v : Bill) : ({ s with bill := v } : State).radio = s.radio := rfl
@[simp] theorem State.ledger_with_bill (s : State) (v : Bill) : ({ s with bill := v } : State).ledger = s.ledger := rfl
@[simp] theorem State.mortar_with_bill (s : State) (v : Bill) : ({ s with bill := v } : State).mortar = s.mortar := rfl
@[simp] theorem State.host_with_bill (s : State) (v : Bill) : ({ s with bill := v } : State).host = s.host := rfl
@[simp] theorem State.win_with_bill (s : State) (v : Bill) : ({ s with bill := v } : State).win = s.win := rfl
@[simp] theorem State.ev_with_bill (s : State) (v : Bill) : ({ s with bill := v } : State).ev = s.ev := rfl
@[simp] theorem State.cfg_with_bill (s : State) (v : Bill) : ({ s with bill := v } : State).cfg = s.cfg := rfl
@[simp] theorem State.store_with_bill (s : State) (v : Bill) : ({ s with bill := v } : State).store = s.store := rfl
@[simp] theorem State.power_with_bill (s : State) (v : Bill) : ({ s with bill := v } : State).power = s.power := rfl
@[simp] theorem State.kiln_with_bill (s : State) (v : Bill) : ({ s with bill := v } : State).kiln = s.kiln := rfl
@[simp] theorem State.fault_with_bill (s : State) (v : Bill) : ({ s with bill := v } : State).fault = s.fault := rfl
@[simp] theorem State.pins_with_bill (s : State) (v : Bill) : ({ s with bill := v } : State).pins = s.pins := rfl
@[simp] theorem State.pending_with_plc (s : State) (v : Plc) : ({ s with plc := v } : State).pending = s.pending := rfl
@[simp] theorem State.freeCount_with_plc (s : State) (v : Plc) : ({ s with plc := v } : State).freeCount = s.freeCount := rfl
@[simp] theorem State.time_with_plc (s : State) (v : Plc) : ({ s with plc := v } : State).time = s.time := rfl
@[simp] theorem State.rtc_with_plc (s : State) (v : Plc) : ({ s with plc := v } : State).rtc = s.rtc := rfl
@[simp] theorem State.front_with_plc (s : State) (v : Plc) : ({ s with plc := v } : State).front = s.front := rfl
@[simp] theorem State.metro_with_plc (s : State) (v : Plc) : ({ s with plc := v } : State).metro = s.metro := rfl
@[simp] theorem State.pq_with_plc (s : State) (v : Plc) : ({ s with plc := v } : State).pq = s.pq := rfl
@[simp] theorem State.acc_with_plc (s : State) (v : Plc) : ({ s with plc := v } : State).acc = s.acc := rfl
@[simp] theorem State.tiles_with_plc (s : State) (v : Plc) : ({ s with plc := v } : State).tiles = s.tiles := rfl
@[simp] theorem State.aux_with_plc (s : State) (v : Plc) : ({ s with plc := v } : State).aux = s.aux := rfl
@[simp] theorem State.bill_with_plc (s : State) (v : Plc) : ({ s with plc := v } : State).bill = s.bill := rfl
@[simp] theorem State.plc_with_plc (s : State) (v : Plc) : ({ s with plc := v } : State).plc = v := rfl
@[simp] theorem State.radio_with_plc (s : State) (v : Plc) : ({ s with plc := v } : State).radio = s.radio := rfl
@[simp] theorem State.ledger_with_plc (s : State) (v : Plc) : ({ s with plc := v } : State).ledger = s.ledger := rfl
@[simp] theorem State.mortar_with_plc (s : State) (v : Plc) : ({ s with plc := v } : State).mortar = s.mortar := rfl
@[simp] theorem State.host_with_plc (s : State) (v : Plc) : ({ s with plc := v } : State).host = s.host := rfl
@[simp] theorem State.win_with_plc (s : State) (v : Plc) : ({ s with plc := v } : State).win = s.win := rfl
@[simp] theorem State.ev_with_plc (s : State) (v : Plc) : ({ s with plc := v } : State).ev = s.ev := rfl
@[simp] theorem State.cfg_with_plc (s : State) (v : Plc) : ({ s with plc := v } : State).cfg = s.cfg := rfl
@[simp] theorem State.store_with_plc (s : State) (v : Plc) : ({ s with plc := v } : State).store = s.store := rfl
@[simp] theorem State.power_with_plc (s : State) (v : Plc) : ({ s with plc := v } : State).power = s.power := rfl
@[simp] theorem State.kiln_with_plc (s : State) (v : Plc) : ({ s with plc := v } : State).kiln = s.kiln := rfl
@[simp] theorem State.fault_with_plc (s : State) (v : Plc) : ({ s with plc := v } : State).fault = s.fault := rfl
@[simp] theorem State.pins_with_plc (s : State) (v : Plc) : ({ s with plc := v } : State).pins = s.pins := rfl
@[simp] theorem State.pending_with_radio (s : State) (v : Radio) : ({ s with radio := v } : State).pending = s.pending := rfl
@[simp] theorem State.freeCount_with_radio (s : State) (v : Radio) : ({ s with radio := v } : State).freeCount = s.freeCount := rfl
@[simp] theorem State.time_with_radio (s : State) (v : Radio) : ({ s with radio := v } : State).time = s.time := rfl
@[simp] theorem State.rtc_with_radio (s : State) (v : Radio) : ({ s with radio := v } : State).rtc = s.rtc := rfl
@[simp] theorem State.front_with_radio (s : State) (v : Radio) : ({ s with radio := v } : State).front = s.front := rfl
@[simp] theorem State.metro_with_radio (s : State) (v : Radio) : ({ s with radio := v } : State).metro = s.metro := rfl
@[simp] theorem State.pq_with_radio (s : State) (v : Radio) : ({ s with radio := v } : State).pq = s.pq := rfl
@[simp] theorem State.acc_with_radio (s : State) (v : Radio) : ({ s with radio := v } : State).acc = s.acc := rfl
@[simp] theorem State.tiles_with_radio (s : State) (v : Radio) : ({ s with radio := v } : State).tiles = s.tiles := rfl
@[simp] theorem State.aux_with_radio (s : State) (v : Radio) : ({ s with radio := v } : State).aux = s.aux := rfl
@[simp] theorem State.bill_with_radio (s : State) (v : Radio) : ({ s with radio := v } : State).bill = s.bill := rfl
@[simp] theorem State.plc_with_radio (s : State) (v : Radio) : ({ s with radio := v } : State).plc = s.plc := rfl
@[simp] theorem State.radio_with_radio (s : State) (v : Radio) : ({ s with radio := v } : State).radio = v := rfl
@[simp] theorem State.ledger_with_radio (s : State) (v : Radio) : ({ s with radio := v } : State).ledger = s.ledger := rfl
@[simp] theorem State.mortar_with_radio (s : State) (v : Radio) : ({ s with radio := v } : State).mortar = s.mortar := rfl
@[simp] theorem State.host_with_radio (s : State) (v : Radio) : ({ s with radio := v } : State).host = s.host := rfl
@[simp] theorem State.win_with_radio (s : State) (v : Radio) : ({ s with radio := v } : State).win = s.win := rfl
@[simp] theorem State.ev_with_radio (s : State) (v : Radio) : ({ s with radio := v } : State).ev = s.ev := rfl
@[simp] theorem State.cfg_with_radio (s : State) (v : Radio) : ({ s with radio := v } : State).cfg = s.cfg := rfl
@[simp] theorem State.store_with_radio (s : State) (v : Radio) : ({ s with radio := v } : State).store = s.store := rfl
@[simp] theorem State.power_with_radio (s : State) (v : Radio) : ({ s with radio := v } : State).power = s.power := rfl
@[simp] theorem State.kiln_with_radio (s : State) (v : Radio) : ({ s with radio := v } : State).kiln = s.kiln := rfl
@[simp] theorem State.fault_with_radio (s : State) (v : Radio) : ({ s with radio := v } : State).fault = s.fault := rfl
@[simp] theorem State.pins_with_radio (s : State) (v : Radio) : ({ s with radio := v } : State).pins = s.pins := rfl
@[simp] theorem State.pending_with_ledger (s : State) (v : Ledger) : ({ s with ledger := v } : State).pending = s.pending := rfl
@[simp] theorem State.freeCount_with_ledger (s : State) (v : Ledger) : ({ s with ledger := v } : State).freeCount = s.freeCount := rfl
@[simp] theorem State.time_with_ledger (s : State) (v : Ledger) : ({ s with ledger := v } : State).time = s.time := rfl
@[simp] theorem State.rtc_with_ledger (s : State) (v : Ledger) : ({ s with ledger := v } : State).rtc = s.rtc := rfl
@[simp] theorem State.front_with_ledger (s : State) (v : Ledger) : ({ s with ledger := v } : State).front = s.front := rfl
@[simp] theorem State.metro_with_ledger (s : State) (v : Ledger) : ({ s with ledger := v } : State).metro = s.metro := rfl
@[simp] theorem State.pq_with_ledger (s : State) (v : Ledger) : ({ s with ledger := v } : State).pq = s.pq := rfl
@[simp] theorem State.acc_with_ledger (s : State) (v : Ledger) : ({ s with ledger := v } : State).acc = s.acc := rfl
@[simp] theorem State.tiles_with_ledger (s : State) (v : Ledger) : ({ s with ledger := v } : State).tiles = s.tiles := rfl
@[simp] theorem State.aux_with_ledger (s : State) (v : Ledger) : ({ s with ledger := v } : State).aux = s.aux := rfl
@[simp] theorem State.bill_with_ledger (s : State) (v : Ledger) : ({ s with ledger := v } : State).bill = s.bill := rfl
@[simp] theorem State.plc_with_ledger (s : State) (v : Ledger) : ({ s with ledger := v } : State).plc = s.plc := rfl
@[simp] theorem State.radio_with_ledger (s : State) (v : Ledger) : ({ s with ledger := v } : State).radio = s.radio := rfl
@[simp] theorem State.ledger_with_ledger (s : State) (v : Ledger) : ({ s with ledger := v } : State).ledger = v := rfl
@[simp] theorem State.mortar_with_ledger (s : State) (v : Ledger) : ({ s with ledger := v } : State).mortar = s.mortar := rfl
@[simp] theorem State.host_with_ledger (s : State) (v : Ledger) : ({ s with ledger := v } : State).host = s.host := rfl
@[simp] theorem State.win_with_ledger (s : State) (v : Ledger) : ({ s with ledger := v } : State).win = s.win := rfl
@[simp] theorem State.ev_with_ledger (s : State) (v : Ledger) : ({ s with ledger := v } : State).ev = s.ev := rfl
@[simp] theorem State.cfg_with_ledger (s : State) (v : Ledger) : ({ s with ledger := v } : State).cfg = s.cfg := rfl
@[simp] theorem State.store_with_ledger (s : State) (v : Ledger) : ({ s with ledger := v } : State).store = s.store := rfl
@[simp] theorem State.power_with_ledger (s : State) (v : Ledger) : ({ s with ledger := v } : State).power = s.power := rfl
@[simp] theorem State.kiln_with_ledger (s : State) (v : Ledger) : ({ s with ledger := v } : State).kiln = s.kiln := rfl
@[simp] theorem State.fault_with_ledger (s : State) (v : Ledger) : ({ s with ledger := v } : State).fault = s.fault := rfl
@[simp] theorem State.pins_with_ledger (s : State) (v : Ledger) : ({ s with ledger := v } : State).pins = s.pins := rfl
@[simp] theorem State.pending_with_mortar (s : State) (v : Mortar) : ({ s with mortar := v } : State).pending = s.pending := rfl
@[simp] theorem State.freeCount_with_mortar (s : State) (v : Mortar) : ({ s with mortar := v } : State).freeCount = s.freeCount := rfl
@[simp] theorem State.time_with_mortar (s : State) (v : Mortar) : ({ s with mortar := v } : State).time = s.time := rfl
@[simp] theorem State.rtc_with_mortar (s : State) (v : Mortar) : ({ s with mortar := v } : State).rtc = s.rtc := rfl
@[simp] theorem State.front_with_mortar (s : State) (v : Mortar) : ({ s with mortar := v } : State).front = s.front := rfl
@[simp] theorem State.metro_with_mortar (s : State) (v : Mortar) : ({ s with mortar := v } : State).metro = s.metro := rfl
@[simp] theorem State.pq_with_mortar (s : State) (v : Mortar) : ({ s with mortar := v } : State).pq = s.pq := rfl
@[simp] theorem State.acc_with_mortar (s : State) (v : Mortar) : ({ s with mortar := v } : State).acc = s.acc := rfl
@[simp] theorem State.tiles_with_mortar (s : State) (v : Mortar) : ({ s with mortar := v } : State).tiles = s.tiles := rfl
@[simp] theorem State.aux_with_mortar (s : State) (v : Mortar) : ({ s with mortar := v } : State).aux = s.aux := rfl
@[simp] theorem State.bill_with_mortar (s : State) (v : Mortar) : ({ s with mortar := v } : State).bill = s.bill := rfl
@[simp] theorem State.plc_with_mortar (s : State) (v : Mortar) : ({ s with mortar := v } : State).plc = s.plc := rfl
@[simp] theorem State.radio_with_mortar (s : State) (v : Mortar) : ({ s with mortar := v } : State).radio = s.radio := rfl
@[simp] theorem State.ledger_with_mortar (s : State) (v : Mortar) : ({ s with mortar := v } : State).ledger = s.ledger := rfl
@[simp] theorem State.mortar_with_mortar (s : State) (v : Mortar) : ({ s with mortar := v } : State).mortar = v := rfl
@[simp] theorem State.host_with_mortar (s : State) (v : Mortar) : ({ s with mortar := v } : State).host = s.host := rfl
@[simp] theorem State.win_with_mortar (s : State) (v : Mortar) : ({ s with mortar := v } : State).win = s.win := rfl
@[simp] theorem State.ev_with_mortar (s : State) (v : Mortar) : ({ s with mortar := v } : State).ev = s.ev := rfl
@[simp] theorem State.cfg_with_mortar (s : State) (v : Mortar) : ({ s with mortar := v } : State).cfg = s.cfg := rfl
@[simp] theorem State.store_with_mortar (s : State) (v : Mortar) : ({ s with mortar := v } : State).store = s.store := rfl
@[simp] theorem State.power_with_mortar (s : State) (v : Mortar) : ({ s with mortar := v } : State).power = s.power := rfl
@[simp] theorem State.kiln_with_mortar (s : State) (v : Mortar) : ({ s with mortar := v } : State).kiln = s.kiln := rfl
@[simp] theorem State.fault_with_mortar (s : State) (v : Mortar) : ({ s with mortar := v } : State).fault = s.fault := rfl
@[simp] theorem State.pins_with_mortar (s : State) (v : Mortar) : ({ s with mortar := v } : State).pins = s.pins := rfl
@[simp] theorem State.pending_with_host (s : State) (v : HostSt) : ({ s with host := v } : State).pending = s.pending := rfl
@[simp] theorem State.freeCount_with_host (s : State) (v : HostSt) : ({ s with host := v } : State).freeCount = s.freeCount := rfl
@[simp] theorem State.time_with_host (s : State) (v : HostSt) : ({ s with host := v } : State).time = s.time := rfl
@[simp] theorem State.rtc_with_host (s : State) (v : HostSt) : ({ s with host := v } : State).rtc = s.rtc := rfl
@[simp] theorem State.front_with_host (s : State) (v : HostSt) : ({ s with host := v } : State).front = s.front := rfl
@[simp] theorem State.metro_with_host (s : State) (v : HostSt) : ({ s with host := v } : State).metro = s.metro := rfl
@[simp] theorem State.pq_with_host (s : State) (v : HostSt) : ({ s with host := v } : State).pq = s.pq := rfl
@[simp] theorem State.acc_with_host (s : State) (v : HostSt) : ({ s with host := v } : State).acc = s.acc := rfl
@[simp] theorem State.tiles_with_host (s : State) (v : HostSt) : ({ s with host := v } : State).tiles = s.tiles := rfl
@[simp] theorem State.aux_with_host (s : State) (v : HostSt) : ({ s with host := v } : State).aux = s.aux := rfl
@[simp] theorem State.bill_with_host (s : State) (v : HostSt) : ({ s with host := v } : State).bill = s.bill := rfl
@[simp] theorem State.plc_with_host (s : State) (v : HostSt) : ({ s with host := v } : State).plc = s.plc := rfl
@[simp] theorem State.radio_with_host (s : State) (v : HostSt) : ({ s with host := v } : State).radio = s.radio := rfl
@[simp] theorem State.ledger_with_host (s : State) (v : HostSt) : ({ s with host := v } : State).ledger = s.ledger := rfl
@[simp] theorem State.mortar_with_host (s : State) (v : HostSt) : ({ s with host := v } : State).mortar = s.mortar := rfl
@[simp] theorem State.host_with_host (s : State) (v : HostSt) : ({ s with host := v } : State).host = v := rfl
@[simp] theorem State.win_with_host (s : State) (v : HostSt) : ({ s with host := v } : State).win = s.win := rfl
@[simp] theorem State.ev_with_host (s : State) (v : HostSt) : ({ s with host := v } : State).ev = s.ev := rfl
@[simp] theorem State.cfg_with_host (s : State) (v : HostSt) : ({ s with host := v } : State).cfg = s.cfg := rfl
@[simp] theorem State.store_with_host (s : State) (v : HostSt) : ({ s with host := v } : State).store = s.store := rfl
@[simp] theorem State.power_with_host (s : State) (v : HostSt) : ({ s with host := v } : State).power = s.power := rfl
@[simp] theorem State.kiln_with_host (s : State) (v : HostSt) : ({ s with host := v } : State).kiln = s.kiln := rfl
@[simp] theorem State.fault_with_host (s : State) (v : HostSt) : ({ s with host := v } : State).fault = s.fault := rfl
@[simp] theorem State.pins_with_host (s : State) (v : HostSt) : ({ s with host := v } : State).pins = s.pins := rfl
@[simp] theorem State.pending_with_win (s : State) (v : Win) : ({ s with win := v } : State).pending = s.pending := rfl
@[simp] theorem State.freeCount_with_win (s : State) (v : Win) : ({ s with win := v } : State).freeCount = s.freeCount := rfl
@[simp] theorem State.time_with_win (s : State) (v : Win) : ({ s with win := v } : State).time = s.time := rfl
@[simp] theorem State.rtc_with_win (s : State) (v : Win) : ({ s with win := v } : State).rtc = s.rtc := rfl
@[simp] theorem State.front_with_win (s : State) (v : Win) : ({ s with win := v } : State).front = s.front := rfl
@[simp] theorem State.metro_with_win (s : State) (v : Win) : ({ s with win := v } : State).metro = s.metro := rfl
@[simp] theorem State.pq_with_win (s : State) (v : Win) : ({ s with win := v } : State).pq = s.pq := rfl
@[simp] theorem State.acc_with_win (s : State) (v : Win) : ({ s with win := v } : State).acc = s.acc := rfl
@[simp] theorem State.tiles_with_win (s : State) (v : Win) : ({ s with win := v } : State).tiles = s.tiles := rfl
@[simp] theorem State.aux_with_win (s : State) (v : Win) : ({ s with win := v } : State).aux = s.aux := rfl
@[simp] theorem State.bill_with_win (s : State) (v : Win) : ({ s with win := v } : State).bill = s.bill := rfl
@[simp] theorem State.plc_with_win (s : State) (v : Win) : ({ s with win := v } : State).plc = s.plc := rfl
@[simp] theorem State.radio_with_win (s : State) (v : Win) : ({ s with win := v } : State).radio = s.radio := rfl
@[simp] theorem State.ledger_with_win (s : State) (v : Win) : ({ s with win := v } : State).ledger = s.ledger := rfl
@[simp] theorem State.mortar_with_win (s : State) (v : Win) : ({ s with win := v } : State).mortar = s.mortar := rfl
@[simp] theorem State.host_with_win (s : State) (v : Win) : ({ s with win := v } : State).host = s.host := rfl
@[simp] theorem State.win_with_win (s : State) (v : Win) : ({ s with win := v } : State).win = v := rfl
@[simp] theorem State.ev_with_win (s : State) (v : Win) : ({ s with win := v } : State).ev = s.ev := rfl
@[simp] theorem State.cfg_with_win (s : State) (v : Win) : ({ s with win := v } : State).cfg = s.cfg := rfl
@[simp] theorem State.store_with_win (s : State) (v : Win) : ({ s with win := v } : State).store = s.store := rfl
@[simp] theorem State.power_with_win (s : State) (v : Win) : ({ s with win := v } : State).power = s.power := rfl
@[simp] theorem State.kiln_with_win (s : State) (v : Win) : ({ s with win := v } : State).kiln = s.kiln := rfl
@[simp] theorem State.fault_with_win (s : State) (v : Win) : ({ s with win := v } : State).fault = s.fault := rfl
@[simp] theorem State.pins_with_win (s : State) (v : Win) : ({ s with win := v } : State).pins = s.pins := rfl
@[simp] theorem State.pending_with_ev (s : State) (v : Ev) : ({ s with ev := v } : State).pending = s.pending := rfl
@[simp] theorem State.freeCount_with_ev (s : State) (v : Ev) : ({ s with ev := v } : State).freeCount = s.freeCount := rfl
@[simp] theorem State.time_with_ev (s : State) (v : Ev) : ({ s with ev := v } : State).time = s.time := rfl
@[simp] theorem State.rtc_with_ev (s : State) (v : Ev) : ({ s with ev := v } : State).rtc = s.rtc := rfl
@[simp] theorem State.front_with_ev (s : State) (v : Ev) : ({ s with ev := v } : State).front = s.front := rfl
@[simp] theorem State.metro_with_ev (s : State) (v : Ev) : ({ s with ev := v } : State).metro = s.metro := rfl
@[simp] theorem State.pq_with_ev (s : State) (v : Ev) : ({ s with ev := v } : State).pq = s.pq := rfl
@[simp] theorem State.acc_with_ev (s : State) (v : Ev) : ({ s with ev := v } : State).acc = s.acc := rfl
@[simp] theorem State.tiles_with_ev (s : State) (v : Ev) : ({ s with ev := v } : State).tiles = s.tiles := rfl
@[simp] theorem State.aux_with_ev (s : State) (v : Ev) : ({ s with ev := v } : State).aux = s.aux := rfl
@[simp] theorem State.bill_with_ev (s : State) (v : Ev) : ({ s with ev := v } : State).bill = s.bill := rfl
@[simp] theorem State.plc_with_ev (s : State) (v : Ev) : ({ s with ev := v } : State).plc = s.plc := rfl
@[simp] theorem State.radio_with_ev (s : State) (v : Ev) : ({ s with ev := v } : State).radio = s.radio := rfl
@[simp] theorem State.ledger_with_ev (s : State) (v : Ev) : ({ s with ev := v } : State).ledger = s.ledger := rfl
@[simp] theorem State.mortar_with_ev (s : State) (v : Ev) : ({ s with ev := v } : State).mortar = s.mortar := rfl
@[simp] theorem State.host_with_ev (s : State) (v : Ev) : ({ s with ev := v } : State).host = s.host := rfl
@[simp] theorem State.win_with_ev (s : State) (v : Ev) : ({ s with ev := v } : State).win = s.win := rfl
@[simp] theorem State.ev_with_ev (s : State) (v : Ev) : ({ s with ev := v } : State).ev = v := rfl
@[simp] theorem State.cfg_with_ev (s : State) (v : Ev) : ({ s with ev := v } : State).cfg = s.cfg := rfl
@[simp] theorem State.store_with_ev (s : State) (v : Ev) : ({ s with ev := v } : State).store = s.store := rfl
@[simp] theorem State.power_with_ev (s : State) (v : Ev) : ({ s with ev := v } : State).power = s.power := rfl
@[simp] theorem State.kiln_with_ev (s : State) (v : Ev) : ({ s with ev := v } : State).kiln = s.kiln := rfl
@[simp] theorem State.fault_with_ev (s : State) (v : Ev) : ({ s with ev := v } : State).fault = s.fault := rfl
@[simp] theorem State.pins_with_ev (s : State) (v : Ev) : ({ s with ev := v } : State).pins = s.pins := rfl
@[simp] theorem State.pending_with_cfg (s : State) (v : Cfg) : ({ s with cfg := v } : State).pending = s.pending := rfl
@[simp] theorem State.freeCount_with_cfg (s : State) (v : Cfg) : ({ s with cfg := v } : State).freeCount = s.freeCount := rfl
@[simp] theorem State.time_with_cfg (s : State) (v : Cfg) : ({ s with cfg := v } : State).time = s.time := rfl
@[simp] theorem State.rtc_with_cfg (s : State) (v : Cfg) : ({ s with cfg := v } : State).rtc = s.rtc := rfl
@[simp] theorem State.front_with_cfg (s : State) (v : Cfg) : ({ s with cfg := v } : State).front = s.front := rfl
@[simp] theorem State.metro_with_cfg (s : State) (v : Cfg) : ({ s with cfg := v } : State).metro = s.metro := rfl
@[simp] theorem State.pq_with_cfg (s : State) (v : Cfg) : ({ s with cfg := v } : State).pq = s.pq := rfl
@[simp] theorem State.acc_with_cfg (s : State) (v : Cfg) : ({ s with cfg := v } : State).acc = s.acc := rfl
@[simp] theorem State.tiles_with_cfg (s : State) (v : Cfg) : ({ s with cfg := v } : State).tiles = s.tiles := rfl
@[simp] theorem State.aux_with_cfg (s : State) (v : Cfg) : ({ s with cfg := v } : State).aux = s.aux := rfl
@[simp] theorem State.bill_with_cfg (s : State) (v : Cfg) : ({ s with cfg := v } : State).bill = s.bill := rfl
@[simp] theorem State.plc_with_cfg (s : State) (v : Cfg) : ({ s with cfg := v } : State).plc = s.plc := rfl
@[simp] theorem State.radio_with_cfg (s : State) (v : Cfg) : ({ s with cfg := v } : State).radio = s.radio := rfl
@[simp] theorem State.ledger_with_cfg (s : State) (v : Cfg) : ({ s with cfg := v } : State).ledger = s.ledger := rfl
@[simp] theorem State.mortar_with_cfg (s : State) (v : Cfg) : ({ s with cfg := v } : State).mortar = s.mortar := rfl
@[simp] theorem State.host_with_cfg (s : State) (v : Cfg) : ({ s with cfg := v } : State).host = s.host := rfl
@[simp] theorem State.win_with_cfg (s : State) (v : Cfg) : ({ s with cfg := v } : State).win = s.win := rfl
@[simp] theorem State.ev_with_cfg (s : State) (v : Cfg) : ({ s with cfg := v } : State).ev = s.ev := rfl
@[simp] theorem State.cfg_with_cfg (s : State) (v : Cfg) : ({ s with cfg := v } : State).cfg = v := rfl
@[simp] theorem State.store_with_cfg (s : State) (v : Cfg) : ({ s with cfg := v } : State).store = s.store := rfl
@[simp] theorem State.power_with_cfg (s : State) (v : Cfg) : ({ s with cfg := v } : State).power = s.power := rfl
@[simp] theorem State.kiln_with_cfg (s : State) (v : Cfg) : ({ s with cfg := v } : State).kiln = s.kiln := rfl
@[simp] theorem State.fault_with_cfg (s : State) (v : Cfg) : ({ s with cfg := v } : State).fault = s.fault := rfl
@[simp] theorem State.pins_with_cfg (s : State) (v : Cfg) : ({ s with cfg := v } : State).pins = s.pins := rfl
@[simp] theorem State.pending_with_store (s : State) (v : Store) : ({ s with store := v } : State).pending = s.pending := rfl
@[simp] theorem State.freeCount_with_store (s : State) (v : Store) : ({ s with store := v } : State).freeCount = s.freeCount := rfl
@[simp] theorem State.time_with_store (s : State) (v : Store) : ({ s with store := v } : State).time = s.time := rfl
@[simp] theorem State.rtc_with_store (s : State) (v : Store) : ({ s with store := v } : State).rtc = s.rtc := rfl
@[simp] theorem State.front_with_store (s : State) (v : Store) : ({ s with store := v } : State).front = s.front := rfl
@[simp] theorem State.metro_with_store (s : State) (v : Store) : ({ s with store := v } : State).metro = s.metro := rfl
@[simp] theorem State.pq_with_store (s : State) (v : Store) : ({ s with store := v } : State).pq = s.pq := rfl
@[simp] theorem State.acc_with_store (s : State) (v : Store) : ({ s with store := v } : State).acc = s.acc := rfl
@[simp] theorem State.tiles_with_store (s : State) (v : Store) : ({ s with store := v } : State).tiles = s.tiles := rfl
@[simp] theorem State.aux_with_store (s : State) (v : Store) : ({ s with store := v } : State).aux = s.aux := rfl
@[simp] theorem State.bill_with_store (s : State) (v : Store) : ({ s with store := v } : State).bill = s.bill := rfl
@[simp] theorem State.plc_with_store (s : State) (v : Store) : ({ s with store := v } : State).plc = s.plc := rfl
@[simp] theorem State.radio_with_store (s : State) (v : Store) : ({ s with store := v } : State).radio = s.radio := rfl
@[simp] theorem State.ledger_with_store (s : State) (v : Store) : ({ s with store := v } : State).ledger = s.ledger := rfl
@[simp] theorem State.mortar_with_store (s : State) (v : Store) : ({ s with store := v } : State).mortar = s.mortar := rfl
@[simp] theorem State.host_with_store (s : State) (v : Store) : ({ s with store := v } : State).host = s.host := rfl
@[simp] theorem State.win_with_store (s : State) (v : Store) : ({ s with store := v } : State).win = s.win := rfl
@[simp] theorem State.ev_with_store (s : State) (v : Store) : ({ s with store := v } : State).ev = s.ev := rfl
@[simp] theorem State.cfg_with_store (s : State) (v : Store) : ({ s with store := v } : State).cfg = s.cfg := rfl
@[simp] theorem State.store_with_store (s : State) (v : Store) : ({ s with store := v } : State).store = v := rfl
@[simp] theorem State.power_with_store (s : State) (v : Store) : ({ s with store := v } : State).power = s.power := rfl
@[simp] theorem State.kiln_with_store (s : State) (v : Store) : ({ s with store := v } : State).kiln = s.kiln := rfl
@[simp] theorem State.fault_with_store (s : State) (v : Store) : ({ s with store := v } : State).fault = s.fault := rfl
@[simp] theorem State.pins_with_store (s : State) (v : Store) : ({ s with store := v } : State).pins = s.pins := rfl
@[simp] theorem State.pending_with_power (s : State) (v : Power) : ({ s with power := v } : State).pending = s.pending := rfl
@[simp] theorem State.freeCount_with_power (s : State) (v : Power) : ({ s with power := v } : State).freeCount = s.freeCount := rfl
@[simp] theorem State.time_with_power (s : State) (v : Power) : ({ s with power := v } : State).time = s.time := rfl
@[simp] theorem State.rtc_with_power (s : State) (v : Power) : ({ s with power := v } : State).rtc = s.rtc := rfl
@[simp] theorem State.front_with_power (s : State) (v : Power) : ({ s with power := v } : State).front = s.front := rfl
@[simp] theorem State.metro_with_power (s : State) (v : Power) : ({ s with power := v } : State).metro = s.metro := rfl
@[simp] theorem State.pq_with_power (s : State) (v : Power) : ({ s with power := v } : State).pq = s.pq := rfl
@[simp] theorem State.acc_with_power (s : State) (v : Power) : ({ s with power := v } : State).acc = s.acc := rfl
@[simp] theorem State.tiles_with_power (s : State) (v : Power) : ({ s with power := v } : State).tiles = s.tiles := rfl
@[simp] theorem State.aux_with_power (s : State) (v : Power) : ({ s with power := v } : State).aux = s.aux := rfl
@[simp] theorem State.bill_with_power (s : State) (v : Power) : ({ s with power := v } : State).bill = s.bill := rfl
@[simp] theorem State.plc_with_power (s : State) (v : Power) : ({ s with power := v } : State).plc = s.plc := rfl
@[simp] theorem State.radio_with_power (s : State) (v : Power) : ({ s with power := v } : State).radio = s.radio := rfl
@[simp] theorem State.ledger_with_power (s : State) (v : Power) : ({ s with power := v } : State).ledger = s.ledger := rfl
@[simp] theorem State.mortar_with_power (s : State) (v : Power) : ({ s with power := v } : State).mortar = s.mortar := rfl
@[simp] theorem State.host_with_power (s : State) (v : Power) : ({ s with power := v } : State).host = s.host := rfl
@[simp] theorem State.win_with_power (s : State) (v : Power) : ({ s with power := v } : State).win = s.win := rfl
@[simp] theorem State.ev_with_power (s : State) (v : Power) : ({ s with power := v } : State).ev = s.ev := rfl
@[simp] theorem State.cfg_with_power (s : State) (v : Power) : ({ s with power := v } : State).cfg = s.cfg := rfl
@[simp] theorem State.store_with_power (s : State) (v : Power) : ({ s with power := v } : State).store = s.store := rfl
@[simp] theorem State.power_with_power (s : State) (v : Power) : ({ s with power := v } : State).power = v := rfl
@[simp] theorem State.kiln_with_power (s : State) (v : Power) : ({ s with power := v } : State).kiln = s.kiln := rfl
@[simp] theorem State.fault_with_power (s : State) (v : Power) : ({ s with power := v } : State).fault = s.fault := rfl
@[simp] theorem State.pins_with_power (s : State) (v : Power) : ({ s with power := v } : State).pins = s.pins := rfl
@[simp] theorem State.pending_with_kiln (s : State) (v : Kiln) : ({ s with kiln := v } : State).pending = s.pending := rfl
@[simp] theorem State.freeCount_with_kiln (s : State) (v : Kiln) : ({ s with kiln := v } : State).freeCount = s.freeCount := rfl
@[simp] theorem State.time_with_kiln (s : State) (v : Kiln) : ({ s with kiln := v } : State).time = s.time := rfl
@[simp] theorem State.rtc_with_kiln (s : State) (v : Kiln) : ({ s with kiln := v } : State).rtc = s.rtc := rfl
@[simp] theorem State.front_with_kiln (s : State) (v : Kiln) : ({ s with kiln := v } : State).front = s.front := rfl
@[simp] theorem State.metro_with_kiln (s : State) (v : Kiln) : ({ s with kiln := v } : State).metro = s.metro := rfl
@[simp] theorem State.pq_with_kiln (s : State) (v : Kiln) : ({ s with kiln := v } : State).pq = s.pq := rfl
@[simp] theorem State.acc_with_kiln (s : State) (v : Kiln) : ({ s with kiln := v } : State).acc = s.acc := rfl
@[simp] theorem State.tiles_with_kiln (s : State) (v : Kiln) : ({ s with kiln := v } : State).tiles = s.tiles := rfl
@[simp] theorem State.aux_with_kiln (s : State) (v : Kiln) : ({ s with kiln := v } : State).aux = s.aux := rfl
@[simp] theorem State.bill_with_kiln (s : State) (v : Kiln) : ({ s with kiln := v } : State).bill = s.bill := rfl
@[simp] theorem State.plc_with_kiln (s : State) (v : Kiln) : ({ s with kiln := v } : State).plc = s.plc := rfl
@[simp] theorem State.radio_with_kiln (s : State) (v : Kiln) : ({ s with kiln := v } : State).radio = s.radio := rfl
@[simp] theorem State.ledger_with_kiln (s : State) (v : Kiln) : ({ s with kiln := v } : State).ledger = s.ledger := rfl
@[simp] theorem State.mortar_with_kiln (s : State) (v : Kiln) : ({ s with kiln := v } : State).mortar = s.mortar := rfl
@[simp] theorem State.host_with_kiln (s : State) (v : Kiln) : ({ s with kiln := v } : State).host = s.host := rfl
@[simp] theorem State.win_with_kiln (s : State) (v : Kiln) : ({ s with kiln := v } : State).win = s.win := rfl
@[simp] theorem State.ev_with_kiln (s : State) (v : Kiln) : ({ s with kiln := v } : State).ev = s.ev := rfl
@[simp] theorem State.cfg_with_kiln (s : State) (v : Kiln) : ({ s with kiln := v } : State).cfg = s.cfg := rfl
@[simp] theorem State.store_with_kiln (s : State) (v : Kiln) : ({ s with kiln := v } : State).store = s.store := rfl
@[simp] theorem State.power_with_kiln (s : State) (v : Kiln) : ({ s with kiln := v } : State).power = s.power := rfl
@[simp] theorem State.kiln_with_kiln (s : State) (v : Kiln) : ({ s with kiln := v } : State).kiln = v := rfl
@[simp] theorem State.fault_with_kiln (s : State) (v : Kiln) : ({ s with kiln := v } : State).fault = s.fault := rfl
@[simp] theorem State.pins_with_kiln (s : State) (v : Kiln) : ({ s with kiln := v } : State).pins = s.pins := rfl
@[simp] theorem State.pending_with_fault (s : State) (v : FaultSt) : ({ s with fault := v } : State).pending = s.pending := rfl
@[simp] theorem State.freeCount_with_fault (s : State) (v : FaultSt) : ({ s with fault := v } : State).freeCount = s.freeCount := rfl
@[simp] theorem State.time_with_fault (s : State) (v : FaultSt) : ({ s with fault := v } : State).time = s.time := rfl
@[simp] theorem State.rtc_with_fault (s : State) (v : FaultSt) : ({ s with fault := v } : State).rtc = s.rtc := rfl
@[simp] theorem State.front_with_fault (s : State) (v : FaultSt) : ({ s with fault := v } : State).front = s.front := rfl
@[simp] theorem State.metro_with_fault (s : State) (v : FaultSt) : ({ s with fault := v } : State).metro = s.metro := rfl
@[simp] theorem State.pq_with_fault (s : State) (v : FaultSt) : ({ s with fault := v } : State).pq = s.pq := rfl
@[simp] theorem State.acc_with_fault (s : State) (v : FaultSt) : ({ s with fault := v } : State).acc = s.acc := rfl
@[simp] theorem State.tiles_with_fault (s : State) (v : FaultSt) : ({ s with fault := v } : State).tiles = s.tiles := rfl
@[simp] theorem State.aux_with_fault (s : State) (v : FaultSt) : ({ s with fault := v } : State).aux = s.aux := rfl
@[simp] theorem State.bill_with_fault (s : State) (v : FaultSt) : ({ s with fault := v } : State).bill = s.bill := rfl
@[simp] theorem State.plc_with_fault (s : State) (v : FaultSt) : ({ s with fault := v } : State).plc = s.plc := rfl
@[simp] theorem State.radio_with_fault (s : State) (v : FaultSt) : ({ s with fault := v } : State).radio = s.radio := rfl
@[simp] theorem State.ledger_with_fault (s : State) (v : FaultSt) : ({ s with fault := v } : State).ledger = s.ledger := rfl
@[simp] theorem State.mortar_with_fault (s : State) (v : FaultSt) : ({ s with fault := v } : State).mortar = s.mortar := rfl
@[simp] theorem State.host_with_fault (s : State) (v : FaultSt) : ({ s with fault := v } : State).host = s.host := rfl
@[simp] theorem State.win_with_fault (s : State) (v : FaultSt) : ({ s with fault := v } : State).win = s.win := rfl
@[simp] theorem State.ev_with_fault (s : State) (v : FaultSt) : ({ s with fault := v } : State).ev = s.ev := rfl
@[simp] theorem State.cfg_with_fault (s : State) (v : FaultSt) : ({ s with fault := v } : State).cfg = s.cfg := rfl
@[simp] theorem State.store_with_fault (s : State) (v : FaultSt) : ({ s with fault := v } : State).store = s.store := rfl
@[simp] theorem State.power_with_fault (s : State) (v : FaultSt) : ({ s with fault := v } : State).power = s.power := rfl
@[simp] theorem State.kiln_with_fault (s : State) (v : FaultSt) : ({ s with fault := v } : State).kiln = s.kiln := rfl
@[simp] theorem State.fault_with_fault (s : State) (v : FaultSt) : ({ s with fault := v } : State).fault = v := rfl
@[simp] theorem State.pins_with_fault (s : State) (v : FaultSt) : ({ s with fault := v } : State).pins = s.pins := rfl
@[simp] theorem State.pending_with_pins (s : State) (v : Pins) : ({ s with pins := v } : State).pending = s.pending := rfl
@[simp] theorem State.freeCount_with_pins (s : State) (v : Pins) : ({ s with pins := v } : State).freeCount = s.freeCount := rfl
@[simp] theorem State.time_with_pins (s : State) (v : Pins) : ({ s with pins := v } : State).time = s.time := rfl
@[simp] theorem State.rtc_with_pins (s : State) (v : Pins) : ({ s with pins := v } : State).rtc = s.rtc := rfl
@[simp] theorem State.front_with_pins (s : State) (v : Pins) : ({ s with pins := v } : State).front = s.front := rfl
@[simp] theorem State.metro_with_pins (s : State) (v : Pins) : ({ s with pins := v } : State).metro = s.metro := rfl
@[simp] theorem State.pq_with_pins (s : State) (v : Pins) : ({ s with pins := v } : State).pq = s.pq := rfl
@[simp] theorem State.acc_with_pins (s : State) (v : Pins) : ({ s with pins := v } : State).acc = s.acc := rfl
@[simp] theorem State.tiles_with_pins (s : State) (v : Pins) : ({ s with pins := v } : State).tiles = s.tiles := rfl
@[simp] theorem State.aux_with_pins (s : State) (v : Pins) : ({ s with pins := v } : State).aux = s.aux := rfl
@[simp] theorem State.bill_with_pins (s : State) (v : Pins) : ({ s with pins := v } : State).bill = s.bill := rfl
@[simp] theorem State.plc_with_pins (s : State) (v : Pins) : ({ s with pins := v } : State).plc = s.plc := rfl
@[simp] theorem State.radio_with_pins (s : State) (v : Pins) : ({ s with pins := v } : State).radio = s.radio := rfl
@[simp] theorem State.ledger_with_pins (s : State) (v : Pins) : ({ s with pins := v } : State).ledger = s.ledger := rfl
@[simp] theorem State.mortar_with_pins (s : State) (v : Pins) : ({ s with pins := v } : State).mortar = s.mortar := rfl
@[simp] theorem State.host_with_pins (s : State) (v : Pins) : ({ s with pins := v } : State).host = s.host := rfl
@[simp] theorem State.win_with_pins (s : State) (v : Pins) : ({ s with pins := v } : State).win = s.win := rfl
@[simp] theorem State.ev_with_pins (s : State) (v : Pins) : ({ s with pins := v } : State).ev = s.ev := rfl
@[simp] theorem State.cfg_with_pins (s : State) (v : Pins) : ({ s with pins := v } : State).cfg = s.cfg := rfl
@[simp] theorem State.store_with_pins (s : State) (v : Pins) : ({ s with pins := v } : State).store = s.store := rfl
@[simp] theorem State.power_with_pins (s : State) (v : Pins) : ({ s with pins := v } : State).power = s.power := rfl
@[simp] theorem State.kiln_with_pins (s : State) (v : Pins) : ({ s with pins := v } : State).kiln = s.kiln := rfl
@[simp] theorem State.fault_with_pins (s : State) (v : Pins) : ({ s with pins := v } : State).fault = s.fault := rfl
@[simp] theorem State.pins_with_pins (s : State) (v : Pins) : ({ s with pins := v } : State).pins = v := rfl

end Sys2Proof.Machine
end

