-- ==== Sys2Proof/WellFormed.lean ====
section
/-! DEFINITION. Which operands a sender can give: fields within the widths of their layouts, lists of the length the spec fixes. -/

namespace Sys2Proof

/-- Does a number fit an unsigned field of `w` bits? -/
def below (w n : Nat) : Bool := n < 2 ^ w

/-- Does a number fit a signed field of `w` bits? -/
def fitsInt (w : Nat) (i : Int) : Bool := -(2 ^ (w - 1) : Int) ≤ i && i < 2 ^ (w - 1)

/-- The header fields of R376 within their widths. -/
def Packet.wf (p : Packet) : Bool :=
  below 8 p.version && below 32 p.tag && below 8 p.bay && below 8 p.queue && below 16 p.session && below 32 p.paramLen
    && below 32 p.deadline && below 16 p.target && below 8 p.hopLimit && below 24 p.reserved && below 16 p.source

/-- The submission entry of R383. -/
def Fetch.wf (f : Fetch) : Bool := below 32 f.pktLen && below 32 f.rspCap

/-- A sample boundary names each channel and sub-sample once. -/
def SampleIn.wf (i : SampleIn) : Bool :=
  (i.chans.map fun x => (x.ch, x.sub)).Nodup && i.dissent.Nodup && i.late.Nodup && i.footFail.Nodup && (i.convs.all fun x => fitsInt 17 x.raw) && (i.bias.map (·.1)).Nodup

/-- A vote names each tile once (R153, R154). -/
def VoteIn.wf (x : VoteIn) : Bool := x.dissent.Nodup && x.late.Nodup

/-- PTP fields (R211). -/
def PtpStamp.wf (m : PtpStamp) : Bool := below 64 m.identity && below 16 m.seq && m.origin.all (below 64) && below 64 m.rx

/-- A message has at most 8 fragments (R270), a frame at most 255 payload bytes (R269). -/
def PlcMsg.wf (m : PlcMsg) : Bool := m.frames.length ≤ 8 && m.frames.all fun f => f.2.length ≤ 263

/-- Message fields of R271 and R292. -/
def RadioMsg.wf (m : RadioMsg) : Bool := below 64 m.identity && below 32 m.ctr

/-- Frame fields of R291 and R292. -/
def RadioFrame.wf (f : RadioFrame) : Bool :=
  below 16 f.pan && below 64 f.source && below 3 f.level && below 8 f.keyIndex && below 32 f.counter && below 8 f.ttl && below 8 f.rank
    && below 8 f.endRank && below 64 f.origin && below 32 f.originSeq && below 64 f.final && below 8 f.type

/-- Pallet header of R312. -/
def Pallet.wf (p : Pallet) : Bool :=
  below 16 p.magic && below 8 p.version && below 8 p.kind && below 16 p.source && below 16 p.dest && below 32 p.epoch && below 16 p.entries
    && below 16 p.length && below 64 p.seq

/-- HELLO of R354. -/
def Hello.wf (h : Hello) : Bool :=
  below 16 h.devId && below 8 h.role && below 8 h.hops && below 32 h.epoch && below 16 h.rootId && below 16 h.activeUp && below 32 h.rootSeq
    && below 8 h.lane

/-- SEGMENT of R353. -/
def Segment.wf (g : Segment) : Bool :=
  g.cls < 4 && below 8 g.kind && below 16 g.index && g.data.length ≤ 512 && g.pallet.all Pallet.wf

/-- JOIN of R353. -/
def JoinFrame.wf (j : JoinFrame) : Bool := below 8 j.hops && below 16 j.dev && below 32 j.epoch && j.nonce.length == 16 && j.mac.length == 16 && below 64 j.identity

/-- One result for each warden, control-core pair and image slot (R478). -/
def K1Result.wf (r : K1Result) : Bool := r.wardens.length == 3 && r.pairOk.length == 2 && r.slotOk.length == 2

/-- Is a command well formed? -/
def Instr.wf (i : Instr) : Bool :=
  match i with
  | .sessionOpen p => p.wf
  | .sessionClose p => p.wf
  | .sessionAuth p => p.wf
  | .getReadyMap p => p.wf
  | .deviceInfo p => p.wf
  | .bulkData p => p.wf
  | .cfgEdit p => p.wf
  | .cfgRead p => p.wf
  | .cfgCopy p => p.wf
  | .cfgSwap p => p.wf
  | .cfgStatus p => p.wf
  | .cfgCancel p => p.wf
  | .readSnapshot p => p.wf
  | .readHarmonics p => p.wf
  | .readChannelDiag p => p.wf
  | .pqReadAgg p => p.wf
  | .pqReadIhg p => p.wf
  | .pqReadLog p => p.wf
  | .pqReadBands p => p.wf
  | .accPreset p => p.wf
  | .accRead p => p.wf
  | .diClear p => p.wf
  | .diRead p => p.wf
  | .adcSelfcal p => p.wf
  | .adcUrgent p => p.wf
  | .acbRead p => p.wf
  | .calRun p => p.wf
  | .timeSet p => p.wf
  | .timeGet p => p.wf
  | .timeLogRead p => p.wf
  | .objGet p => p.wf
  | .profileRead p => p.wf
  | .tariffStage p => p.wf
  | .tariffActivate p => p.wf
  | .billReset p => p.wf
  | .creditAdd p => p.wf
  | .supplyControl p => p.wf
  | .plcSearch p => p.wf
  | .plcStatus p => p.wf
  | .radioJoin p => p.wf
  | .radioStatus p => p.wf
  | .ledgerRead p => p.wf
  | .ledgerEdit p => p.wf
  | .ledgerUnlock p => p.wf
  | .ledgerProvision p => p.wf
  | .ledgerAssign p => p.wf
  | .ledgerStatus p => p.wf
  | .ledgerDeprovision p => p.wf
  | .snapshotAt p => p.wf
  | .balanceRun p => p.wf
  | .balanceDefine p => p.wf
  | .snapshotRead p => p.wf
  | .pushTariff p => p.wf
  | .pushImage p => p.wf
  | .pushKey p => p.wf
  | .pushStatus p => p.wf
  | .pushCancel p => p.wf
  | .mortarStatus p => p.wf
  | .topoRead p => p.wf
  | .deviceProvision p => p.wf
  | .deviceRemove p => p.wf
  | .rootHandover p => p.wf
  | .bayReset p => p.wf
  | .eventSubscribe p => p.wf
  | .eventRead p => p.wf
  | .islandPower p => p.wf
  | .qosSet p => p.wf
  | .qosRead p => p.wf
  | .identityProvision p => p.wf
  | .identityRemove p => p.wf
  | .identityUnlock p => p.wf
  | .storeStatus p => p.wf
  | .fwStage p => p.wf
  | .fwActivate p => p.wf
  | .diagBistReport p => p.wf
  | .diagDumpRead p => p.wf
  | .diagDumpClear p => p.wf
  | .diagTileStatus p => p.wf
  | .diagAvailRead p => p.wf
  | .serviceFuseRead p => p.wf
  | .serviceTrace p => p.wf
  | .packetForward op p => below 15 op && p.wf
  | .deadlineExpire _ _ pos => pos < 256
  | .streamStall _ _ => true
  | .sessionIdleTimeout handle => below 16 handle
  | .challengeExpire handle => below 16 handle
  | .identityLockEnd identity => below 64 identity
  | .spiWrite _ => true
  | .spiRead _ => true
  | .spiRegRead addr count => below 8 count && below 16 addr
  | .spiRegWrite _ => true
  | .sqTailDoorbell _ _ v host => host.all Fetch.wf && below 32 v
  | .cqHeadDoorbell _ _ v host => host.all Fetch.wf && below 32 v
  | .qpEnable _ _ => true
  | .qpDisable _ _ => true
  | .perstNAssert => true
  | .functionLevelReset _ => true
  | .rtcHalt _ => true
  | .rtcRelease _ => true
  | .rtcCounterWrite _ _ _ => true
  | .rtcTrimWrite _ _ => true
  | .rtcSecRead _ => true
  | .systemTimeRead _ => true
  | .regLowWordRead _ off => below 12 off
  | .regRcRead _ off => below 12 off
  | .avLatch _ => true
  | .regWritePlain _ off _ => below 12 off
  | .sampleBoundary inp => inp.wf
  | .rangeSwitchDown _ => true
  | .overrangeRelease _ => true
  | .settlingEnd _ => true
  | .stuckRunDetect _ _ => true
  | .bitstreamIdentical c d _ => c != d
  | .stuckClear _ _ => true
  | .openTest _ _ => true
  | .mclkFaultEnter _ _ => true
  | .mclkRetry _ => true
  | .mclkFaultClear _ _ => true
  | .polarityDwell _ e => e.rms.length == 3
  | .pulseWidthEnd _ => true
  | .pulseShortDetect _ _ => true
  | .pulseShortRetry _ _ => true
  | .zcCrossingDecide _ x => x.wf
  | .synthBoundary _ => true
  | .reactiveTransfer _ => true
  | .creepEnter _ => true
  | .creepExit _ => true
  | .overcurrentRelease _ => true
  | .rvcEnd _ => true
  | .rvcArm _ => true
  | .windowEnd _ x => x.wf
  | .footingCheckFail _ => true
  | .sequenceErrorAssert _ => true
  | .sequenceErrorClear _ => true
  | .missingNeutralAssert _ => true
  | .missingNeutralClear _ => true
  | .freq10sEnd _ => true
  | .agg10minTick _ tick => below 64 tick
  | .agg2hTick _ => true
  | .flickerSettled _ seconds => below 32 seconds
  | .bandIntervalEnd _ n => below 64 n
  | .accCheckpoint => true
  | .diClassify _ _ _ => true
  | .diDebounce _ _ => true
  | .diDiscrepancyLatch _ => true
  | .diClearReady _ => true
  | .discFeedbackConfirm _ => true
  | .substWardenVote _ votes => votes.Nodup
  | .substCheckpoint _ => true
  | .substImageArrived _ => true
  | .substJoin _ _ => true
  | .tileTestDone _ _ => true
  | .bondRebuildStart _ => true
  | .bondReturn _ => true
  | .ledgerTaskBoundary _ _ _ => true
  | .slotPeriodEnd _ => true
  | .comparatorAlarm _ => true
  | .comparatorRelease _ => true
  | .urgentBurstDone _ raws => raws.all (fitsInt 17)
  | .selfcalSar0Done _ _ => true
  | .selfcalSar1Done _ _ => true
  | .selfcalDone _ => true
  | .ts2MeanCheck _ => true
  | .calSpacingEnd => true
  | .rprecStepDone _ _ => true
  | .statStepDone _ => true
  | .converterCheck _ _ _ => true
  | .mortarSourceLoss => true
  | .ptpAnnounce _ => true
  | .ptpSync m => m.wf
  | .ptpFollowUp m => m.wf
  | .ptpDelayResp seq t4 => below 64 t4 && below 16 seq
  | .ptpAnnounceTimeout => true
  | .ppsInEdge _ => true
  | .ppsInLoss => true
  | .mainsQualify => true
  | .sourcePromote => true
  | .slewDone => true
  | .holdLimitExceeded => true
  | .ppsOutPulse => true
  | .ppsOutWidthEnd => true
  | .rtcSecondCompare => true
  | .rtcCountTick => true
  | .leapSecondApply => true
  | .rtcTrimLearn _ => true
  | .xtalFault => true
  | .xtalRecover => true
  | .rtcOscFault => true
  | .backupToVbat _ _ => true
  | .backupToVmain _ _ => true
  | .vbatCheck _ => true
  | .backupPor _ => true
  | .profileIntervalEnd => true
  | .demandSubperiodEnd => true
  | .tariffRateSwitch => true
  | .tariffActivateDue => true
  | .billResetDue => true
  | .standingCharge => true
  | .friendlyDeferralEnd _ => true
  | .sealDisplayDwell => true
  | .sealFrameSend => true
  | .sealBusyTimeout _ => true
  | .zcGridCrossing _ _ => true
  | .zcFaultEnter => true
  | .zcFaultClear => true
  | .plcReadingReceive m => m.wf
  | .plcAnswerReceive _ a => a.frame.length ≤ 263
  | .plcConfirmAckReceive m => m.wf
  | .plcLatchReportReceive m => m.wf
  | .plcPushAckReceive m => m.wf
  | .plcNakReceive m => m.wf
  | .plcExchangeMissed => true
  | .plcPollDue a => below 13 a
  | .plcRepeatDue a => below 13 a
  | .plcPollCycleEnd => true
  | .searchRoundStart => true
  | .searchWindowEnd => true
  | .searchRoundClose => true
  | .addressQuarantineEnd a => below 13 a
  | .latchBroadcast => true
  | .plcVinLevel _ => true
  | .plcLineShort _ => true
  | .plcTestSymbol _ => true
  | .plcOpenCoupling _ => true
  | .plcRxFault _ => true
  | .plcNoiseWindow _ => true
  | .rpPortStart _ => true
  | .rpIrq _ frame => frame.length ≤ 65541
  | .rpTxDone _ status => below 8 status
  | .rpConfigDone _ status => below 8 status
  | .rpStatusDone _ status _ => below 8 status
  | .rpRx _ f => f.wf
  | .rpStatusPoll _ => true
  | .rpResponseTimeout _ => true
  | .rpFaultRetry _ => true
  | .radioReadingReceive m => m.wf
  | .radioAnswerReceive identity a _ => below 32 a.originSeq && below 64 identity && below 8 a.rank
  | .radioConfirmAckReceive m => m.wf
  | .radioPushAckReceive m => m.wf
  | .advertSend => true
  | .radioJoinRoundStart => true
  | .radioConfirmRepeat identity => below 64 identity
  | .radioJoinClose => true
  | .radioPollDue a => below 13 a
  | .radioReplyTimeout a => below 13 a
  | .childFrameExpire child => below 64 child
  | .childEntryExpire child => below 64 child
  | .leafPalletClose => true
  | .palletRetransmit => true
  | .palletUpReceive p => p.wf
  | .mirrorAckReceive _ => true
  | .mirrorLag _ => true
  | .palletAckReceive p => p.wf
  | .palletDownReceive p => p.wf
  | .palletMirrorReceive p => p.pallet.wf
  | .snapshotLatch id _ => below 32 id
  | .snapshotTimeout id => below 32 id
  | .snapshotClose id => below 32 id
  | .scoreDecay => true
  | .pushActivateDue job => below 32 job
  | .pushExpiry job => below 32 job
  | .laneTrainAttempt _ => true
  | .laneTrained _ _ _ => true
  | .laneLoss _ _ _ => true
  | .helloTimeout _ _ => true
  | .helloSend => true
  | .helloReceive _ h => h.wf
  | .timeReqSend _ => true
  | .timeReqReceive _ seq _ _ => below 16 seq
  | .timeRespReceive _ seq _ _ _ => below 16 seq
  | .segmentReceive _ g => g.wf
  | .returnReceive _ r => below 8 r.hops && below 16 r.source && below 8 r.kind && below 8 r.reason && below 64 r.seq
  | .epochHoldExpire => true
  | .joinReqReceive _ j => j.wf
  | .joinOfferReceive _ j => j.wf
  | .joinConfirmReceive _ j => j.wf
  | .joinOfferLapse _ => true
  | .joinRetry => true
  | .belowSend => true
  | .belowReceive _ b => b.ids.all (below 10)
  | .deviceLeave _ _ => true
  | .leafOrphan _ => true
  | .rootHeartbeat => true
  | .rootTakeover _ => true
  | .uplinkLinkChange _ _ => true
  | .arpRequest _ ip => below 32 ip
  | .ndSolicit _ ip => below 128 ip
  | .icmpEcho _ ip _ => below 128 ip
  | .ipReassemblyTimeout _ => true
  | .cfgSwapApply _ => true
  | .mramScrub _ => true
  | .dramScrub _ => true
  | .flashEraseResume => true
  | .indeterminateReerase _ => true
  | .flashOpFail _ => true
  | .vinRiseUvlo _ => true
  | .uvloFall _ => true
  | .pgoodRise _ => true
  | .resetNAssert _ => true
  | .resetNRelease _ => true
  | .reverseInput _ _ => true
  | .vinHigh _ => true
  | .pfNExternalLow _ _ => true
  | .powerFailDecision _ _ => true
  | .savedRestart _ _ _ => true
  | .railOutOfWindow _ _ => true
  | .buckCurrentLimit _ _ => true
  | .islandSupplyFault _ => true
  | .islandSwitchRetry _ _ => true
  | .thermalLevel _ => true
  | .thermalShutdown _ _ _ => true
  | .kilnK2Start r => r.wf
  | .kilnK3K4Start _ => true
  | .testWindowCheck _ => true
  | .courseMclkStart => true
  | .tileBistGroupEnd _ _ _ => true
  | .kilnK5Start => true
  | .dramTrainingDone _ => true
  | .dramSliceDone _ _ _ _ => true
  | .kilnK6Start => true
  | .kilnComplete _ => true
  | .ccLockstepMismatch _ _ => true
  | .ccHeartbeatMissing _ _ => true
  | .f3DumpWritten => true
  | .f3PairsRunning pairOk => pairOk.length == 2
  | .flashDumpCopyDone => true
  | .dumpPartitionErase _ => true
  | .wardenHeartbeatMissing _ => true
  | .wardenResetDone _ _ => true
  | .sealLockstepMismatch => true
  | .sealRestartDone => true
  | .radioPollCycleEnd => true
  | .radioRepeatDue a => below 13 a
  | .vinNearPf _ => true
  | .rootCutHandover _ => true
  | .duplicateIdAlarmEnd => true
  | .laneFrameCrcFail _ => true
  | .ptpDelayReqSend seq t3 => below 64 t3 && below 16 seq

end Sys2Proof
end

