-- ==== Sys2Proof/Tests/Slice0.lean ====
section
/-! SUPPORT. Tests: for every obligation with hypotheses one theorem that shows concrete states and operands meeting them, clause by clause; an ill-formed term
for each check of WellFormed. -/

open Sys2Proof Sys2Proof.Machine
namespace Sys2Proof.Tests
set_option Elab.async false
/-- A live session of an end on the mortar link. -/
def wSess (bay : Nat) (r : SessRole) : Session :=
  { handle := 7, bay := bay, identity := 1, role := r, peer := .mortar 5, idleS := 600, lastUse := 0, key := [], kept := [] }
/-- Bring-up complete, everything ready, one session. -/
def wUp (role : DevRole) (bay : Nat) (r : SessRole) : State :=
  { State.reset with kiln.ph := { started := true, k1 := true, k2Open := true, k2 := true, k3Open := true, k3 := true, k4 := true, k5Open := true, dramTrained := true, k5 := true, k6Open := true, k6 := true },
                     kiln.ready := BitVec.allOnes 128, kiln.role := role, power.supply := .running, power.pgood := true, host.sess := [wSess bay r], fault := { wardenOut := 0, pairOk := 3, sealOk := true } }
/-- A packet of that session for this device, its CRC right. -/
def wPk (code bay : Nat) (b : Bytes) : Packet :=
  let p : Packet := { transport := .mortar 5, version := 1, flags := 0, tag := 3, bay := bay, queue := 0, session := 7, paramLen := b.length, deadline := 0,
                      target := 0xFFFF, hopLimit := 4, reserved := 0, source := 5, crc := 0, params := b, gcmOk := true, bulk := [] }
  { p with crc := p.crcOf code }
/-- A configuration with course 0, voltage set 0 on channel 0, metering point 0 on channel 4, its power quality monitor, a pulse output and an input. -/
def wKs : KeySet :=
  [(kCourse 0 0, 1), (kVs 0 0, 1), (kVs 0 1, 1), (kVs 0 2, 0), (kVs 0 3, 1), (kVs 0 4, 2), (kMp 0 0, 1), (kMp 0 1, 0), (kMp 0 2, 1), (kMp 0 3, 4), (kMp 0 4, 5), (kMp 0 5, 6),
   (kPq 0 0, 1), (kPulse 0 0, 1), (kDi 0 0, 1)].foldl (fun ks x => ks.put x.1 x.2) {}
def wSt (role : DevRole) (bay : Nat) (r : SessRole) : State :=
  { wUp role bay r with cfg.active := wKs, cfg.shadow := wKs, front.course := [(0, { running := true })], time.indexOn := true, time.valid := true,
                        time.ns := 1699999200 * second, time.index := 1000000, time.mono := 1000000 * second,
                        tiles.bond := [(0, { st := .triplex, members := [0, 1, 2] })] }
/-- A leaf that meters, with an operator in bay 1. -/
def wl : State := wSt .leaf 1 .operator
/-- A leaf that meters, with a reader in bay 1. -/
def wr : State := wSt .leaf 1 .reader
/-- A leaf that meters, with a legal and a utility session in bay 0. -/
def wg : State := wSt .leaf 0 .legal
def wu : State := wSt .leaf 0 .utility
def wu2 : State := wSt .leaf 2 .operator
/-- A root that meters, in charge of its link. -/
def wRoot (bay : Nat) (r : SessRole) : State := { wSt .root bay r with mortar.stt := .root, mortar.epoch := 1 }
def wq : State := wRoot 1 .operator
def wqu : State := wRoot 0 .utility
/-- A BULK packet of the session: its parameters, then the descriptor of R377. -/
def wBk (code bay dir len : Nat) (b : Bytes) : Packet :=
  let q := wPk code bay (b ++ leBytes 1 1 ++ leBytes 1 dir ++ zeros 2 ++ leBytes 4 len ++ zeros 24)
  let q : Packet := { q with flags := 1 }
  { q with crc := q.crcOf code }
/-- The same from PCIe function 0, the data in host memory. -/
def wBp (code bay : Nat) (b data : Bytes) : Packet :=
  let q := wPk code bay (b ++ leBytes 1 0 ++ leBytes 1 0 ++ zeros 2 ++ leBytes 4 data.length ++ zeros 24)
  let q : Packet := { q with transport := .pcie 0 0 4096, flags := 1, source := 0, bulk := data }
  { q with crc := q.crcOf code }
/-- A state whose session is on PCIe function 0. -/
def wPcie (s : State) : State := { s with host.sess := s.host.sess.map fun x : Session => { x with peer := .pcie 0 } }

theorem crcOf_set (code : Nat) (c : BitVec 32) (p : Packet) : ({ p with crc := c } : Packet).crcOf code = p.crcOf code := rfl
/-- A packet whose CRC is right starts when the rest of ingress takes it. -/
theorem starts_of {code : Nat} {p : Packet} {s : State} (hc : p.crc = p.crcOf code)
    (h : (!HostBroadcast p && s.serving && (s.queueOf (queueId p.bay p.queue)).isEmpty && (ingressAfterCrc code p s == .accept) && canStart code p s.time.mono (s.touch p)
      && (startCheck code p s.time.mono (s.touch p)).isNone && !bcRefused code p && !sealFault code p (s.touch p)) = true)
    (hg : (p.transport.isUdp && !p.gcmOk) = false := by rfl) : Starts code p s = true := by
  have e : ingress code p s = ingressAfterCrc code p s := by unfold ingress; rw [hg, if_neg (by decide), if_neg (by simp [hc])]
  simp only [Starts, Taken, e, Bool.and_eq_true, beq_iff_eq] at h ⊢
  simp [h]
theorem wPk_crc (code bay : Nat) (b : Bytes) : (wPk code bay b).crc = (wPk code bay b).crcOf code := (crcOf_set ..).symm
theorem wBk_crc (code bay dir len : Nat) (b : Bytes) : (wBk code bay dir len b).crc = (wBk code bay dir len b).crcOf code := (crcOf_set ..).symm
theorem wBp_crc (code bay : Nat) (b data : Bytes) : (wBp code bay b data).crc = (wBp code bay b data).crcOf code := (crcOf_set ..).symm

def w0a : State := { wl with ev.level := [(5, some 1)], ev.bay := [(1, { map := 1#1024 <<< 5 })] }
def w0f : State := { wl with ev.bay := [(1, { map := 1#1024 <<< 5, queue := List.replicate 4096 (wl.pulseRecord 5) })] }
def w0r : State := { w0a with kiln.role := .relay }
def w0s : State := { State.reset with kiln.ph.started := true }
def w0q : State := { wl with pending := [.avLatch 0] }
def w0k : State := { wl with kiln.role := .relay }

theorem test_hyps_StepRunsTheFrontCommand :
    (wl.pending = [])
    ∧ (State.reset.pending = [])
    ∧ (State.reset.kiln.ph.started = false)
    ∧ (w0s.pending = [])
    ∧ (w0s.kiln.ph.started = true)
    ∧ (w0s.time.indexOn = false) := by
  refine ⟨?_, ?_, ?_, ?_, ?_, ?_⟩ <;> decide +kernel

theorem test_hyps_TableWritesReadBack :
    (Tbl.wf 5 [(1, 7)])
    ∧ (∀ (n : ℕ), Tbl.get 5 [(1, 7)] n = Tbl.get 5 [(1, 7)] n)
    ∧ (1 ≠ 2) := by
  refine ⟨?_, ?_, ?_⟩
  · decide +kernel
  · first | decide +kernel | exact fun _ => rfl
  · decide +kernel

theorem test_hyps_ExecLeavesTheQueue :
    (exec (Instr.avLatch 0) wl = Host.Outcome.next (wl.avLatch 0)) := by
  rfl

theorem test_hyps_StepKeepsThePhaseOrder :
    (w0q.phasesOrdered = true)
    ∧ (step w0q = Host.Outcome.next (wl.avLatch 0)) := by
  refine ⟨?_, ?_⟩
  · decide +kernel
  · rfl

theorem test_hyps_ResetState :
    (3 < 8) := by
  decide +kernel

theorem test_hyps_PhaseReadsTheLowestOpenPhase :
    (wl.phasesOrdered = true)
    ∧ (wl.kiln.ph.k3 = true) := by
  refine ⟨?_, ?_⟩ <;> decide +kernel

theorem test_hyps_SourcesMakeRecords :
    (Tbl.wf none w0k.ev.level)
    ∧ (sourceIdle w0k.kiln.role 5 = true)
    ∧ (sourceIdle w0r.kiln.role 5 = true)
    ∧ (sourceIdle w0a.kiln.role 5 = false)
    ∧ (Tbl.wf none w0a.ev.level)
    ∧ (w0a.asserted 5 = true)
    ∧ (sourceIdle w0a.kiln.role 6 = false)
    ∧ (w0a.asserted 6 = false) := by
  refine ⟨?_, ?_, ?_, ?_, ?_, ?_, ?_, ?_⟩ <;> decide +kernel

theorem test_hyps_RecordsReachSubscribedBays :
    (Tbl.wf { } w0a.ev.bay)
    ∧ (1 < 8)
    ∧ (w0a.subscribed 1 (wl.pulseRecord 5).source = true)
    ∧ ((w0a.evBay 1).queue.length < 4096)
    ∧ (w0a.subscribed 1 (wl.pulseRecord 6).source = false)
    ∧ (Tbl.wf { } w0f.ev.bay)
    ∧ (w0f.subscribed 1 (wl.pulseRecord 5).source = true)
    ∧ (4096 ≤ (w0f.evBay 1).queue.length) := by
  refine ⟨?_, ?_, ?_, ?_, ?_, ?_, ?_, ?_⟩ <;> decide +kernel

theorem test_hyps_EventsTouchTheRouterAlone :
    (6 ≠ 5) := by
  decide +kernel

def w2 (x : Chan) : State := { wl with front.chan := [(0, x)] }
def w2a : State := w2 { settle := 1 }
def w2b : State := w2 { frontFailed := true, tcHold := false }
def w2i : ChanIn := { ch := 0, sub := 0, bits := 0, upA := none, upB := none, failA := false, failB := false }
def w2p : State := { w2 { lowRun := 100000 } with cfg.active := ((wKs.put (kC 0 7) 3).put (kC 0 0x0A) 1).put (kC 4 0x0B) 1 }
def w2q : State := w2 { ovr := true, ovrRun := 100000 }
def w2s : State := w2 { stuck := true }
def w2o : State := { w2 { openRun := 1, opn := true, openQuiet := 99 } with cfg.active := wKs.put (kC 0 0x0A) 1 }
def w2m : State := { wl with front.mclk := [(0, { hiZ := true }), (1, { fault := true })] }
def w2e : PolarityEvidence := { own := 170000000, o1 := 0, o2 := 0, rms := [1000000, 1000000, 1000000], seconds := 60 }

theorem test_hyps_SampleBoundaryAdvancesTime :
    (wl.time.indexOn = true) := by
  decide +kernel

theorem test_hyps_TrimIsLimited :
    (Tbl.wf { } wl.front.chan) := by
  decide +kernel

theorem test_hyps_ChannelSamplesAndDiagnostics :
    (Tbl.wf { } w2a.front.chan)
    ∧ (1 ≠ ↑w2i.ch)
    ∧ (pairOf w2p.cfg.active 0 = some 3)
    ∧ ((w2p.chan 0).low = false)
    ∧ (w2p.key (kCourse (courseOf 0) 3) ≤ (w2p.chan 0).lowRun)
    ∧ (w2p.chanRuns 0 = true)
    ∧ (w2p.keyOn (kC 0 10) = true)
    ∧ ((w2p.chan 0).openRun = 0)
    ∧ ((w2p.course (courseOf 0)).running = true)
    ∧ ((w2p.chan 0).settle = 0)
    ∧ (∀ i ∈ courseUsed w2p.cfg.active (courseOf 0), (w2p.chan i).settle = 0)
    ∧ (courseUsed w2p.cfg.active (courseOf 0) ≠ [])
    ∧ ((w2q.chan 0).ovr = true)
    ∧ (w2q.key (kCourse (courseOf 0) 3) ≤ (w2q.chan 0).ovrRun)
    ∧ (w2q.chanRuns 0 = true)
    ∧ (w2q.key (kC 0 9) ≤ 65535)
    ∧ (courseOf 0 = courseOf 1)
    ∧ (0 ≠ 1)
    ∧ (4096 ≤ 65535)
    ∧ (w2q.mclkRuns 0 = true)
    ∧ ((w2q.mclk 0).hiZ = false)
    ∧ (16 ≤ 65535)
    ∧ ((w2s.chan 0).stuck = true)
    ∧ (100 ≤ 65535)
    ∧ ((w2s.mclk (courseOf 0)).fault = false)
    ∧ (w2o.chanRuns 0 = true)
    ∧ (w2o.keyOn (kC 0 10) = true)
    ∧ (1 ≤ (w2o.chan 0).openRun)
    ∧ ((w2o.chan 0).opn = true)
    ∧ (99 ≤ (w2o.chan 0).openQuiet)
    ∧ ((w2m.mclk 0).hiZ = true)
    ∧ ((w2m.mclk 0).hiZAt + 1000000 ≤ w2m.time.mono)
    ∧ ((w2m.mclk 1).fault = true)
    ∧ ((w2m.mclk 1).hiZ = false)
    ∧ (1024 ≤ 65535)
    ∧ (1 ≤ w2p.key (kC 4 11))
    ∧ (w2p.key (kC 4 11) ≤ w2e.seconds)
    ∧ (w2p.chanRuns 4 = true)
    ∧ (w2p.onFooting (courseOf 4) = false)
    ∧ (polarityVerdict w2p.cfg.active 4 w2e = some true) := by
  refine ⟨?_, ?_, ?_, ?_, ?_, ?_, ?_, ?_, ?_, ?_, ?_, ?_, ?_, ?_, ?_, ?_, ?_, ?_, ?_, ?_, ?_, ?_, ?_, ?_, ?_, ?_, ?_, ?_, ?_, ?_, ?_, ?_, ?_, ?_, ?_, ?_, ?_, ?_, ?_, ?_⟩
  · decide +kernel
  · decide +kernel
  · decide +kernel
  · decide +kernel
  · decide +kernel
  · decide +kernel
  · decide +kernel
  · decide +kernel
  · decide +kernel
  · decide +kernel
  · decide +kernel
  · decide +kernel
  · decide +kernel
  · decide +kernel
  · decide +kernel
  · decide +kernel
  · decide +kernel
  · decide +kernel
  · decide +kernel
  · decide +kernel
  · decide +kernel
  · decide +kernel
  · decide +kernel
  · decide +kernel
  · decide +kernel
  · decide +kernel
  · decide +kernel
  · decide +kernel
  · decide +kernel
  · decide +kernel
  · decide +kernel
  · decide +kernel
  · decide +kernel
  · decide +kernel
  · decide +kernel
  · decide +kernel
  · decide +kernel
  · decide +kernel
  · decide +kernel
  · decide +kernel

def w3b (n : Nat) : Bnd := { at_ := n * 2 ^ 17, u := 2 * n, index := n, ns := 0, rising := false, synth := false }
def w3 (y : VSet) : State := { wl with metro.vs := [(0, y)] }
def w3x : Crossing := { at_ := 999950 * 2 ^ 17, rising := true }
def w3f0 : Found := { x := w3x, lo := true, hi := false }
def w3v0 : VoteIn := { dissent := [], late := [] }
def w3z : State := w3 { last := some (w3b 999300), zc := { found := [w3f0] } }
def w3z2 : State := w3 { last := some (w3b 999900), zc := { found := [w3f0] } }
def w3y : State := w3 { block := [1], last := some (w3b 999073), tLast := 1754 * 2 ^ 17 }
def w3w : WinDone := { start := w3b 980000, stop := w3b 992800, cycles := 10, synth := false, cut := false, foot := [], src := [], slew := 0, ch := [], el := [] }
def w3d : State := w3 { done := [w3w] }
def w3c (x : ChanM) : State := { wl with metro.chan := [(4, x)] }
def w3e : State := w3c { creep := false, downRun := 20, oc := true, ocRun := 2 }
def w3f : State := w3c { creep := true, upRun := 2 }
def w3g : State := w3 { seqIn := 5, mnIn := 5 }
def w3h : State := w3 { seqErr := true, seqOut := 5, mn := true, mnOut := 5 }
def w3q : QDue := { due := 1000000, went := none, rate := 0 }
def w3t : State := { wl with acc.mp := [(0, { due := [w3q] })] }
def w3v : State := { wr with cfg.active := wKs.put (kCourse 0 1) 1 }
def w3r : Rvc := { startIdx := 0, startUs := 0, initCh := 0, status := 0 }
def w3pc : PqChan := { hist := (List.range 200).map fun i => (230000000, 1000000 - 640 * i, 0) }
def w3p (m : PqMon) : State := { wl with pq.mon := [(0, m)], pq.chan := [(0, w3pc)], metro.chan := [(0, { halfOk := true })] }
def w3m : State := w3p { rvc := some w3r }
def w3n : State := w3p {}
def w3o : State := w3p { a10 := { open_ := true, tick := 5 }, a2h := { open_ := true, tick := 5 } }
def w3k : State := { wl with cfg.active := wKs.put (kCourse 0 1) 1, metro.vs := [(0, { f10From := 0, f10Done := 0 })] }
def w3s : State := { w3n with time.index := 4000000 }

theorem test_hyps_BoundariesMarksAndWindows :
    (w3z.meters = true)
    ∧ ((w3z.vs 0).zc.found = [w3f0])
    ∧ (vsEnabled w3z.cfg.active 0 = true)
    ∧ ((w3z.bndAt (vsWide w3z.cfg.active 0) w3f0.x.at_ w3f0.x.rising false).u + dzcU (vsWide w3z.cfg.active 0) ≤ 2 * w3z.time.index + 2)
    ∧ ((w3z.crossingOk 0 w3f0 && w3z.decidable (vsWide w3z.cfg.active 0) (w3z.bndAt (vsWide w3z.cfg.active 0) w3f0.x.at_ w3f0.x.rising false).u) = true)
    ∧ (w3z2.meters = true)
    ∧ ((w3z2.vs 0).zc.found = [w3f0])
    ∧ (vsEnabled w3z2.cfg.active 0 = true)
    ∧ ((w3z2.bndAt (vsWide w3z2.cfg.active 0) w3f0.x.at_ w3f0.x.rising false).u + dzcU (vsWide w3z2.cfg.active 0) ≤ 2 * w3z2.time.index + 2)
    ∧ ((w3z2.crossingOk 0 w3f0 && w3z2.decidable (vsWide w3z2.cfg.active 0) (w3z2.bndAt (vsWide w3z2.cfg.active 0) w3f0.x.at_ w3f0.x.rising false).u) = false)
    ∧ (w3y.meters = true)
    ∧ (vsEnabled w3y.cfg.active 0 = true)
    ∧ (w3y.synthDue 0 = some ((w3y.synthDue 0).getD (w3b 0)))
    ∧ (w3y.decidable (vsWide w3y.cfg.active 0) ((w3y.synthDue 0).getD (w3b 0)).u = true)
    ∧ (w3d.meters = true)
    ∧ ((w3d.vs 0).done = [w3w])
    ∧ (w3w.cut = true ∨ w3w.stop.u + 206 ≤ 2 * w3d.time.index)
    ∧ (w3e.meters = true)
    ∧ (mpOfChannel w3e.cfg.active 4 = some 0)
    ∧ ((w3e.chm 4).creep = false)
    ∧ (2 * vsNc w3e.cfg.active (mpVset w3e.cfg.active 0) ≤ (w3e.chm 4).downRun)
    ∧ (w3f.meters = true)
    ∧ (mpOfChannel w3f.cfg.active 4 = some 0)
    ∧ ((w3f.chm 4).creep = true)
    ∧ (2 ≤ (w3f.chm 4).upRun)
    ∧ ((w3e.chm 4).oc = true)
    ∧ (2 ≤ (w3e.chm 4).ocRun)
    ∧ (w3g.meters = true)
    ∧ ((w3g.vs 0).seqErr = false)
    ∧ (5 ≤ (w3g.vs 0).seqIn)
    ∧ ((w3g.vs 0).mn = false)
    ∧ (5 ≤ (w3g.vs 0).mnIn)
    ∧ (w3h.meters = true)
    ∧ ((w3h.vs 0).seqErr = true)
    ∧ (5 ≤ (w3h.vs 0).seqOut)
    ∧ ((w3h.vs 0).mn = true)
    ∧ (5 ≤ (w3h.vs 0).mnOut)
    ∧ (w3t.meters = true)
    ∧ ((w3t.mpAcc 0).due = [w3q])
    ∧ (w3q.due ≤ w3t.time.index) := by
  refine ⟨?_, ?_, ?_, ?_, ?_, ?_, ?_, ?_, ?_, ?_, ?_, ?_, ?_, ?_, ?_, ?_, ?_, ?_, ?_, ?_, ?_, ?_, ?_, ?_, ?_, ?_, ?_, ?_, ?_, ?_, ?_, ?_, ?_, ?_, ?_, ?_, ?_, ?_, ?_, ?_⟩ <;> decide +kernel

theorem test_hyps_MeteringReadsReturnTheirBlocks :
    (Starts 513 (wPk 513 1 (leBytes 1 1 ++ [0] ++ leBytes 2 1 ++ zeros 4)) wr = true)
    ∧ (Block 8 [(1, 1), (4, 4)] (wPk 513 1 (leBytes 1 1 ++ [0] ++ leBytes 2 1 ++ zeros 4)) = true)
    ∧ ((maskList 8 (fld (wPk 513 1 (leBytes 1 1 ++ [0] ++ leBytes 2 1 ++ zeros 4)).params 0 1)).all (vsEnabled wr.cfg.active) = true)
    ∧ ((maskList 16 (fld (wPk 513 1 (leBytes 1 1 ++ [0] ++ leBytes 2 1 ++ zeros 4)).params 2 2)).all (mpEnabled wr.cfg.active) = true)
    ∧ (Block 8 [(6, 2)] (wPk 514 1 (leBytes 8 1)) = true)
    ∧ (((maskList 48 (fld (wPk 514 1 (leBytes 8 1)).params 0 8)).all fun c => (measuredChannels wr.cfg.active).contains c) = true)
    ∧ (Starts 514 (wPk 514 1 (leBytes 8 1)) wr = true)
    ∧ (Block 8 [(6, 2)] (wPk 770 1 (leBytes 8 1)) = true)
    ∧ (((maskList 48 (fld (wPk 770 1 (leBytes 8 1)).params 0 8)).all fun c => (measuredChannels wr.cfg.active).contains c) = true)
    ∧ (Starts 770 (wPk 770 1 (leBytes 8 1)) wr = true)
    ∧ (Block 8 [(6, 2)] (wPk 800 1 (leBytes 8 1)) = true)
    ∧ (((maskList 48 (fld (wPk 800 1 (leBytes 8 1)).params 0 8)).all fun c => (measuredChannels w3v.cfg.active).contains c) = true)
    ∧ (Starts 800 (wPk 800 1 (leBytes 8 1)) w3v = true)
    ∧ (∀ c ∈ maskList 48 (fld (wPk 800 1 (leBytes 8 1)).params 0 8), courseWide w3v.cfg.active (courseOf c) = true)
    ∧ (Starts 515 (wPk 515 1 []) wr = true)
    ∧ (Block 0 [] (wPk 515 1 []) = true)
    ∧ (Starts 769 (wPk 769 1 [0, 2, 1, 0, 0, 0, 0, 0]) wr = true)
    ∧ (Block 8 [(3, 5)] (wPk 769 1 [0, 2, 1, 0, 0, 0, 0, 0]) = true)
    ∧ (fld (wPk 769 1 [0, 2, 1, 0, 0, 0, 0, 0]).params 0 1 < 8)
    ∧ (pqEnabled wr.cfg.active (fld (wPk 769 1 [0, 2, 1, 0, 0, 0, 0, 0]).params 0 1) = true)
    ∧ (fld (wPk 769 1 [0, 2, 1, 0, 0, 0, 0, 0]).params 1 1 ≤ 2)
    ∧ (fld (wPk 769 1 [0, 2, 1, 0, 0, 0, 0, 0]).params 2 1 ≤ 1)
    ∧ (Starts 784 (wPk 784 1 (leBytes 4 0 ++ leBytes 2 512 ++ zeros 2)) wr = true)
    ∧ (Block 8 [(6, 2)] (wPk 784 1 (leBytes 4 0 ++ leBytes 2 512 ++ zeros 2)) = true)
    ∧ (1 ≤ fld (wPk 784 1 (leBytes 4 0 ++ leBytes 2 512 ++ zeros 2)).params 4 2)
    ∧ (fld (wPk 784 1 (leBytes 4 0 ++ leBytes 2 512 ++ zeros 2)).params 4 2 ≤ 512) := by
  refine ⟨?_, ?_, ?_, ?_, ?_, ?_, ?_, ?_, ?_, ?_, ?_, ?_, ?_, ?_, ?_, ?_, ?_, ?_, ?_, ?_, ?_, ?_, ?_, ?_, ?_, ?_⟩
  · exact starts_of (wPk_crc ..) (by decide +kernel)
  · decide +kernel
  · decide +kernel
  · decide +kernel
  · decide +kernel
  · decide +kernel
  · exact starts_of (wPk_crc ..) (by decide +kernel)
  · decide +kernel
  · decide +kernel
  · exact starts_of (wPk_crc ..) (by decide +kernel)
  · decide +kernel
  · decide +kernel
  · exact starts_of (wPk_crc ..) (by decide +kernel)
  · decide +kernel
  · exact starts_of (wPk_crc ..) (by decide +kernel)
  · decide +kernel
  · exact starts_of (wPk_crc ..) (by decide +kernel)
  · decide +kernel
  · decide +kernel
  · decide +kernel
  · decide +kernel
  · decide +kernel
  · exact starts_of (wPk_crc ..) (by decide +kernel)
  · decide +kernel
  · decide +kernel
  · decide +kernel

theorem test_hyps_PowerQualityIntervalsAndEventsEnd :
    (w3m.meters = true)
    ∧ ((w3m.mon 0).rvc = some w3r)
    ∧ (w3m.allSteady 0 (w3m.cfg.active.get (kPq 0 6) - w3m.cfg.active.get (kPq 0 7)) = true)
    ∧ (vsEnabled w3m.cfg.active 0 = true)
    ∧ ((w3m.time.ns - ((if vsWide w3m.cfg.active 0 = true then 250000 else 500000) + 30000)) / (10 * second) ≠ 0)
    ∧ ((w3m.vs 0).f10Done < (w3m.time.ns - ((if vsWide w3m.cfg.active 0 = true then 250000 else 500000) + 30000)) / (10 * second))
    ∧ ((w3m.vs 0).f10From < ((w3m.time.ns - ((if vsWide w3m.cfg.active 0 = true then 250000 else 500000) + 30000)) / (10 * second) - 1) * (10 * second))
    ∧ (pqEnabled w3m.cfg.active 0 = true)
    ∧ (w3m.time.valid = true)
    ∧ ((w3m.mon 0).a10.open_ = false)
    ∧ (w3m.atTick 0 600 = true)
    ∧ ((w3m.mon 0).a2h.open_ = false)
    ∧ (w3m.atTick 0 7200 = true)
    ∧ (w3n.meters = true)
    ∧ (pqEnabled w3n.cfg.active 0 = true)
    ∧ ((w3n.mon 0).armed = false)
    ∧ ((w3n.mon 0).rvc = none)
    ∧ ((w3n.mon 0).dip = none)
    ∧ ((w3n.mon 0).swell = none)
    ∧ (w3n.allSteady 0 (w3n.key (kPq 0 6)) = true)
    ∧ (w3o.meters = true)
    ∧ (pqEnabled w3o.cfg.active 0 = true)
    ∧ (w3o.time.valid = true)
    ∧ ((w3o.mon 0).a10.open_ = true)
    ∧ ((w3o.mon 0).a10.cut.isSome = true ∨ (w3o.mon 0).a10.tick ≠ w3o.tickOf w3o.time.ns)
    ∧ (w3o.a10Done 0 = true)
    ∧ ((w3o.mon 0).ended2h (w3o.utcNs / (7200 * second)) = true)
    ∧ (w3k.meters = true)
    ∧ (∃ w, List.find? (fun w => (vsAllChannels w3k.cfg.active w).contains 0) (enabledVsets w3k.cfg.active) = some w)
    ∧ (courseWide w3k.cfg.active (courseOf 0) = true)
    ∧ (w3k.time.stepAt + 12800 ≤ w3k.time.index - w3k.time.ns % 200000000 / 15625)
    ∧ (w3s.meters = true)
    ∧ ((w3s.mon 0).settleFrom + 3840000 ≤ w3s.time.index)
    ∧ ((w3s.mon 0).settled = false) := by
  refine ⟨?_, ?_, ?_, ?_, ?_, ?_, ?_, ?_, ?_, ?_, ?_, ?_, ?_, ?_, ?_, ?_, ?_, ?_, ?_, ?_, ?_, ?_, ?_, ?_, ?_, ?_, ?_, ?_, ?_, ?_, ?_, ?_, ?_, ?_⟩
  · decide +kernel
  · decide +kernel
  · decide +kernel
  · decide +kernel
  · decide +kernel
  · decide +kernel
  · decide +kernel
  · decide +kernel
  · decide +kernel
  · decide +kernel
  · decide +kernel
  · decide +kernel
  · decide +kernel
  · decide +kernel
  · decide +kernel
  · decide +kernel
  · decide +kernel
  · decide +kernel
  · decide +kernel
  · decide +kernel
  · decide +kernel
  · decide +kernel
  · decide +kernel
  · decide +kernel
  · decide +kernel
  · decide +kernel
  · decide +kernel
  · decide +kernel
  · first | decide +kernel | exact ⟨_, rfl⟩
  · decide +kernel
  · decide +kernel
  · decide +kernel
  · decide +kernel
  · decide +kernel

def w5p (code tgt : Nat) (v : Nat) : Packet := wPk code 0 ([0, BitVec.ofNat 8 tgt] ++ zeros 6 ++ leBytes 8 v ++ zeros 16)
def w5g : State := { wl with acc.pulse := [(0, { stopAt := some 5 })], cfg.active := wKs.put (kMp 0 0x0B) 0 }
def w5h : State := { wl with acc.pulse := [(0, { short := true })] }
def w5d (x : Di) : State := { wl with acc.di := [(0, x)] }
def w5a : State := w5d { clsA := .closed, runA := 10 ^ 6, timer := some (10 ^ 9) }
def w5b : State := w5d { clsB := .closed, runB := 10 ^ 6, latched := true, agree := 10 ^ 9, a := .closed, b := .closed }
def w5c : State := w5d { latched := true, clearReady := true, a := .closed, b := .open_ }
def w5pr : Packet := wPk 0x0402 1 (leBytes 2 1 ++ leBytes 2 1 ++ leBytes 2 1 ++ zeros 2)
def w5ra : State := { wr with host.busy := [(queueId 1 0, some ⟨⟨0x0402, w5pr, 5⟩, .read (some [])⟩)] }
def w5q : Packet := wPk 0x0401 0 ([0, 0] ++ zeros 6 ++ leBytes 8 0 ++ zeros 16)
def w5rb : State := { wg with host.busy := [(queueId 0 0, some ⟨⟨0x0401, w5q, 5⟩, .preset⟩)] }
def w5ru : State := (applyPreset w5q { w5rb with acc.presets := [] }).1
def w5rr : Res := Res.ok (presetResult w5rb 0 0)
def w5e : State := w5d { timer := some 0, a := .closed, b := .closed }
def w5f : State := w5d { timer := some 0, a := .closed, b := .open_ }

theorem test_hyps_AccumulatorsAreReadAndPreset :
    (Starts 1026 w5pr wr = true)
    ∧ (Block 8 [(6, 2)] w5pr = true)
    ∧ (fld w5pr.params 1 1 < 16)
    ∧ (((wr.mpAcc (fld w5pr.params 0 1)).regOf (fld w5pr.params 1 1)).int = fld w5pr.params 8 8)
    ∧ (((wr.mpAcc (fld w5pr.params 0 1)).regOf (fld w5pr.params 1 1)).wrap = fld w5pr.params 16 1)
    ∧ (wr.writable 2 = true)
    ∧ (w5ra.host.busy = [(queueId w5pr.bay w5pr.queue, some { entry := { code := 1026, pkt := w5pr, stamp := 5 }, kind := HoldKind.read (some []) })])
    ∧ (Starts 1025 (w5p 1025 0 0) wg = true)
    ∧ (Block 32 [(2, 6), (18, 6)] (w5p 1025 0 0) = true)
    ∧ (fld (w5p 1025 0 0).params 1 1 < 16 ∧ fld (w5p 1025 0 0).params 0 1 < 16 ∧ mpEnabled wg.cfg.active (fld (w5p 1025 0 0).params 0 1) = true ∨
        128 ≤ fld (w5p 1025 0 0).params 1 1 ∧ fld (w5p 1025 0 0).params 1 1 < 144 ∧ fld (w5p 1025 0 0).params 12 4 = 0 ∧ fld (w5p 1025 0 0).params 28 4 = 0)
    ∧ (w5rb.host.busy = [(queueId w5q.bay w5q.queue, some { entry := { code := 1025, pkt := w5q, stamp := 5 }, kind := HoldKind.preset })])
    ∧ (applyPreset w5q
          { pending := w5rb.pending, freeCount := w5rb.freeCount, time := w5rb.time, rtc := w5rb.rtc, front := w5rb.front, metro := w5rb.metro, pq := w5rb.pq,
            acc := { mp := w5rb.acc.mp, pulse := w5rb.acc.pulse, di := w5rb.acc.di, kept := w5rb.acc.kept, keptBySave := w5rb.acc.keptBySave }, tiles := w5rb.tiles, aux := w5rb.aux,
            bill := w5rb.bill, plc := w5rb.plc, radio := w5rb.radio, ledger := w5rb.ledger, mortar := w5rb.mortar, host := w5rb.host, win := w5rb.win, ev := w5rb.ev, cfg := w5rb.cfg,
            store := w5rb.store, power := w5rb.power, kiln := w5rb.kiln, fault := w5rb.fault, pins := w5rb.pins } =
        (w5ru, Done.reply w5rr))
    ∧ (fld (w5p 1025 0 9).params 1 1 < 16)
    ∧ (¬(((wg.mpAcc (fld (w5p 1025 0 9).params 0 1)).regOf (fld (w5p 1025 0 9).params 1 1)).int = fld (w5p 1025 0 9).params 8 8 ∧
          ((wg.mpAcc (fld (w5p 1025 0 9).params 0 1)).regOf (fld (w5p 1025 0 9).params 1 1)).wrap = fld (w5p 1025 0 9).params 16 1))
    ∧ (128 ≤ fld (w5p 1025 128 0).params 1 1)
    ∧ ((wg.gen (fld (w5p 1025 128 0).params 1 1 - 128)).count = fld (w5p 1025 128 0).params 8 8)
    ∧ ((wg.gen (fld (w5p 1025 128 0).params 1 1 - 128)).wrap = fld (w5p 1025 128 0).params 16 1)
    ∧ (128 ≤ fld (w5p 1025 128 9).params 1 1)
    ∧ (¬((wg.gen (fld (w5p 1025 128 9).params 1 1 - 128)).count = fld (w5p 1025 128 9).params 8 8 ∧ (wg.gen (fld (w5p 1025 128 9).params 1 1 - 128)).wrap = fld (w5p 1025 128 9).params 16 1)) := by
  refine ⟨?_, ?_, ?_, ?_, ?_, ?_, ?_, ?_, ?_, ?_, ?_, ?_, ?_, ?_, ?_, ?_, ?_, ?_, ?_⟩
  · exact starts_of (wPk_crc ..) (by decide +kernel)
  · decide +kernel
  · decide +kernel
  · decide +kernel
  · decide +kernel
  · decide +kernel
  · decide +kernel
  · exact starts_of (wPk_crc ..) (by decide +kernel)
  · decide +kernel
  · decide +kernel
  · decide +kernel
  · decide +kernel
  · decide +kernel
  · decide +kernel
  · decide +kernel
  · decide +kernel
  · decide +kernel
  · decide +kernel
  · decide +kernel

theorem test_hyps_PulseOutputsAndDiscreteInputs :
    (w5g.meters = true)
    ∧ ((w5g.gen 0).stopAt = some 5)
    ∧ (5 ≤ 2 * w5g.time.index + 1)
    ∧ (w5g.keyOn (kPulse 0 0) = true)
    ∧ ((w5g.gen 0).short = false)
    ∧ (1000 ≤ 1000)
    ∧ (mpEnabled w5g.cfg.active 0 = true)
    ∧ (w5h.meters = true)
    ∧ ((w5h.gen 0).short = true)
    ∧ ((w5h.gen 0).offAt + 100000000 ≤ w5h.time.mono)
    ∧ (w5a.meters = true)
    ∧ (diEnabled w5a.cfg.active 0 = true)
    ∧ (4 * w5a.cfg.active.get (kDi 0 3) ≤ if false = true then (w5a.di 0).runB else (w5a.di 0).runA)
    ∧ (1 ≤ if false = true then (w5a.di 0).runB else (w5a.di 0).runA)
    ∧ ((if false = true then (w5a.di 0).clsB else (w5a.di 0).clsA) ≠ if false = true then (w5a.di 0).b else (w5a.di 0).a)
    ∧ (Starts 1040 (wPk 1040 1 (zeros 8)) w5a = true)
    ∧ (Block 8 [(1, 7)] (wPk 1040 1 (zeros 8)) = true)
    ∧ (fld (wPk 1040 1 (zeros 8)).params 0 1 = 0)
    ∧ ((w5a.di 0).clearReady = false)
    ∧ ((w5b.di 0).timer = none)
    ∧ (w5b.meters = true)
    ∧ ((w5b.di 0).latched = true)
    ∧ (Di.agrees (w5b.cfg.active.get (kDi 0 1) == 1) (w5b.di 0) = true)
    ∧ (tDisc w5b.cfg.active 0 ≤ (w5b.di 0).agree)
    ∧ ((w5a.di 0).timer = some (10 ^ 9))
    ∧ (tDisc w5a.cfg.active 0 ≤ 10 ^ 9)
    ∧ ((w5e.di 0).timer = some 0)
    ∧ (0 < tDisc w5e.cfg.active 0)
    ∧ (Di.agrees (w5e.cfg.active.get (kDi 0 1) == 1) (w5e.di 0) = true)
    ∧ ((w5f.di 0).timer = some 0)
    ∧ (0 < tDisc w5f.cfg.active 0)
    ∧ (Di.agrees (w5f.cfg.active.get (kDi 0 1) == 1) (w5f.di 0) = false)
    ∧ (Starts 1040 (wPk 1040 1 (zeros 8)) w5c = true)
    ∧ (diEnabled w5c.cfg.active 0 = true)
    ∧ ((w5c.di 0).clearReady = true)
    ∧ (Starts 1041 (wPk 1041 1 []) w5c = true)
    ∧ (Block 0 [] (wPk 1041 1 []) = true) := by
  refine ⟨?_, ?_, ?_, ?_, ?_, ?_, ?_, ?_, ?_, ?_, ?_, ?_, ?_, ?_, ?_, ?_, ?_, ?_, ?_, ?_, ?_, ?_, ?_, ?_, ?_, ?_, ?_, ?_, ?_, ?_, ?_, ?_, ?_, ?_, ?_, ?_, ?_⟩
  · decide +kernel
  · decide +kernel
  · decide +kernel
  · decide +kernel
  · decide +kernel
  · decide +kernel
  · decide +kernel
  · decide +kernel
  · decide +kernel
  · decide +kernel
  · decide +kernel
  · decide +kernel
  · decide +kernel
  · decide +kernel
  · decide +kernel
  · exact starts_of (wPk_crc ..) (by decide +kernel)
  · decide +kernel
  · decide +kernel
  · decide +kernel
  · decide +kernel
  · decide +kernel
  · decide +kernel
  · decide +kernel
  · decide +kernel
  · decide +kernel
  · decide +kernel
  · decide +kernel
  · decide +kernel
  · decide +kernel
  · decide +kernel
  · decide +kernel
  · decide +kernel
  · exact starts_of (wPk_crc ..) (by decide +kernel)
  · decide +kernel
  · decide +kernel
  · exact starts_of (wPk_crc ..) (by decide +kernel)
  · decide +kernel

def w6s (v f i : Bool) (sj sc sd : Nat) : Subst := { tile := 8, sd := sd, sc := sc, sj := sj, voted := v, frozen := f, image := i }
def w6 (x : Subst) : State := { wl with tiles.bond := [(0, { st := .substituting, members := [0, 1], sub := some x })], tiles.tile := [(8, { role := .grout, st := .joining, course := some 0 })] }
def w6b (b : Bond) (x : Tile) : State := { wl with tiles.bond := [(0, b)], tiles.tile := [(0, x), (1, x), (2, x)], metro.vs := [(0, { last := some { at_ := 10 ^ 6 * 2 ^ 17, u := 2 * 10 ^ 6, index := 10 ^ 6, ns := 5, rising := true, synth := false } })] }
def w6v : Bnd := { at_ := 10 ^ 6 * 2 ^ 17, u := 2 * 10 ^ 6, index := 10 ^ 6, ns := 5, rising := true, synth := false }
def w6j : Tile := { st := .joining, course := some 0 }
def w6f : State := w6b { st := .triplex, members := [0, 1, 2], failRun := 100 } {}
def w6g : State := w6b { st := .footing, members := [0, 1], failRun := 100, footFail := true, atStart := true } w6j
def w6h : State := w6b { st := .footing, members := [0, 1], readyAt := 5 } w6j
def w6k : State := w6b { st := .rebuilding, members := [0, 1, 2], rebuildAt := some 5 } {}
def w6t : State := w6b {} { st := .fenced }
def w6e : State := w6b { st := .triplex, members := [0, 1, 2], failRun := 100, runFrom := some 5 } {}
def w6u : State := w6b {} { st := .testing }

theorem test_hyps_TilesJoinBySubstitution :
    (((w6 (w6s false false false 0 0 999999)).bond 0).sub = some (w6s false false false 0 0 999999))
    ∧ ((w6s false false false 0 0 999999).voted = false)
    ∧ (2 ≤
        (List.filter
            (fun w => !(w6 (w6s false false false 0 0 999999)).fault.wardenOut.getLsbD w && !(w6 (w6s false false false 0 0 999999)).fault.wardenReset.getLsbD w && [0, 1].any fun x => ↑x == w)
            (List.range 3)).length)
    ∧ ((w6s false false false 0 0 999999).sd + 1 ≤ (w6 (w6s false false false 0 0 999999)).time.index)
    ∧ ((w6 (w6s false false false 0 0 999999)).time.index ≤ (w6s false false false 0 0 999999).sd + 3)
    ∧ (((w6 (w6s false false false 0 0 999990)).bond 0).sub = some (w6s false false false 0 0 999990))
    ∧ ((w6s false false false 0 0 999990).voted = false)
    ∧ ((List.filter (fun w => !(w6 (w6s false false false 0 0 999990)).fault.wardenOut.getLsbD w && !(w6 (w6s false false false 0 0 999990)).fault.wardenReset.getLsbD w && [].any fun x => ↑x == w)
            (List.range 3)).length <
        2)
    ∧ ((w6s false false false 0 0 999990).sd + 3 ≤ (w6 (w6s false false false 0 0 999990)).time.index)
    ∧ (((w6 (w6s true true true 0 0 0)).bond 0).sub = some (w6s true true true 0 0 0))
    ∧ ((w6s true true true 0 0 0).voted = true)
    ∧ (((w6 (w6s true true true 0 0 0)).tile (w6s true true true 0 0 0).tile).st = TileState.joining)
    ∧ ((w6s true true true 0 0 0).sc ≤ (w6 (w6s true true true 0 0 0)).time.index + 1)
    ∧ ((w6s true true true 0 0 0).frozen = true)
    ∧ ((w6s true true true 0 0 0).sj ≤ (w6 (w6s true true true 0 0 0)).time.index + 1)
    ∧ ((w6s true true true 0 0 0).image = true)
    ∧ (¬((w6s true true true 0 0 0).frozen = true ∧ (w6s true true true 0 0 0).image = true ∧ false = true)) := by
  refine ⟨?_, ?_, ?_, ?_, ?_, ?_, ?_, ?_, ?_, ?_, ?_, ?_, ?_, ?_, ?_, ?_, ?_⟩ <;> decide +kernel

theorem test_hyps_BondsFallRebuildReturnAndReport :
    (w6e.key (kTiles 2) ≤ (w6e.bond 0).failRun)
    ∧ ((w6e.bond 0).footFail = false)
    ∧ ((w6e.bond 0).runFrom = some 5)
    ∧ ((w6u.tile 0).st = TileState.testing)
    ∧ (Tbl.get 0 w6u.host.island 0 = 0)
    ∧ (w6g.key (kTiles 2) ≤ (w6g.bond 0).failRun)
    ∧ ((w6g.bond 0).footFail = true)
    ∧ (2 ≤ (w6g.bond 0).members.length)
    ∧ ((w6g.bond 0).rebuildAt = none)
    ∧ ((w6g.bond 0).st = BondState.footing ∨ (w6g.bond 0).st = BondState.rebuilding)
    ∧ (∀ m ∈ (w6g.bond 0).members, (w6g.tile m).st = TileState.joining ∨ (w6g.tile m).st = TileState.active ∧ (w6g.tile m).role = TileRole.metrology)
    ∧ ((w6g.bond 0).atStart = true)
    ∧ (w6g.courseSettled 0 = true)
    ∧ ((w6g.bond 0).readyAt ≤ w6g.time.index)
    ∧ (2 ≤ (w6h.bond 0).members.length)
    ∧ ((w6h.bond 0).rebuildAt = none)
    ∧ ((w6h.bond 0).st = BondState.footing ∨ (w6h.bond 0).st = BondState.rebuilding)
    ∧ (∀ m ∈ (w6h.bond 0).members, (w6h.tile m).st = TileState.joining ∨ (w6h.tile m).st = TileState.active ∧ (w6h.tile m).role = TileRole.metrology)
    ∧ ((w6h.bond 0).atStart = false)
    ∧ (w6h.courseBnd 0 = some (0, w6v))
    ∧ ((w6h.bond 0).readyAt ≤ w6v.index)
    ∧ ((w6k.bond 0).st = BondState.rebuilding)
    ∧ ((w6k.bond 0).rebuildAt = some 5)
    ∧ (w6k.courseBnd 0 = some (0, w6v))
    ∧ (5 + 8192 ≤ w6v.index)
    ∧ (Block 0 [] (wPk 3616 1 []) = true)
    ∧ (Starts 3616 (wPk 3616 1 []) wr = true)
    ∧ (Block 0 [] (wPk 3617 1 []) = true)
    ∧ (Starts 3617 (wPk 3617 1 []) wr = true) := by
  refine ⟨?_, ?_, ?_, ?_, ?_, ?_, ?_, ?_, ?_, ?_, ?_, ?_, ?_, ?_, ?_, ?_, ?_, ?_, ?_, ?_, ?_, ?_, ?_, ?_, ?_, ?_, ?_, ?_, ?_⟩
  · decide +kernel
  · decide +kernel
  · decide +kernel
  · decide +kernel
  · decide +kernel
  · decide +kernel
  · decide +kernel
  · decide +kernel
  · decide +kernel
  · decide +kernel
  · decide +kernel
  · decide +kernel
  · decide +kernel
  · decide +kernel
  · decide +kernel
  · decide +kernel
  · decide +kernel
  · decide +kernel
  · decide +kernel
  · decide +kernel
  · decide +kernel
  · decide +kernel
  · decide +kernel
  · decide +kernel
  · decide +kernel
  · decide +kernel
  · exact starts_of (wPk_crc ..) (by decide +kernel)
  · decide +kernel
  · exact starts_of (wPk_crc ..) (by decide +kernel)

def w7 (x : Aux) : State := { wl with aux := x }
def w7u (n : Nat) : List Urg := List.replicate n { queue := 16, input := 0, ratio := false, count := 16, start := some 0 }
def w7a : State := w7 { wc := [(0, { changes := [(true, 5, 6)] }), (1, { changes := [(false, 7, 8)] })], slot := [(0, { cfg := { run := true } })], mode := true, calDelayed := true, calAt := some 0, step := some .rprec }
def w7b : State := w7 { urgent := [(0, w7u 4)], mode := false, selfStep := 1, step := some (.stat [(1, true)]) }
def w7c : State := w7 { selfStep := 2, mode := true }
def w7d : State := w7 { selfStep := 3 }
def w7e : State := w7 { mode := true, calBusy := true }
def w7f : State := w7 { fault := [(0, true)] }
def w7g : State := w7 { selfBad := true }
def w7h : State := w7 { calAt := some 5 }

theorem test_hyps_ConverterSlotsAndUrgentRequests :
    (Starts 1283 (wPk 1283 1 (leBytes 2 1 ++ [1] ++ zeros 5)) wr = true)
    ∧ (Block 8 [(3, 5)] (wPk 1283 1 (leBytes 2 1 ++ [1] ++ zeros 5)) = true)
    ∧ (fld (wPk 1283 1 (leBytes 2 1 ++ [1] ++ zeros 5)).params 2 1 ≤ 1)
    ∧ ((w7a.wcomp 0).changes = [(true, 5, 6)])
    ∧ (true = true)
    ∧ ((w7a.wcomp 1).changes = [(false, 7, 8)])
    ∧ (false = false)
    ∧ ((w7a.slot 0).cfg.run = true)
    ∧ (w7a.ready 9 = true)
    ∧ ((w7a.slot 0).ends ≤ w7a.time.mono)
    ∧ (Starts 1282 (wPk 1282 1 ([1, 0] ++ leBytes 2 16 ++ zeros 4)) w7a = true)
    ∧ (Block 8 [(5, 3)] (wPk 1282 1 ([1, 0] ++ leBytes 2 16 ++ zeros 4)) = true)
    ∧ (fld (wPk 1282 1 ([1, 0] ++ leBytes 2 16 ++ zeros 4)).params 0 1 ≤ 22)
    ∧ (fld (wPk 1282 1 ([1, 0] ++ leBytes 2 16 ++ zeros 4)).params 1 1 = 0)
    ∧ (16 ≤ fld (wPk 1282 1 ([1, 0] ++ leBytes 2 16 ++ zeros 4)).params 2 2)
    ∧ (fld (wPk 1282 1 ([1, 0] ++ leBytes 2 16 ++ zeros 4)).params 2 2 ≤ 4096)
    ∧ (fld (wPk 1282 1 ([1, 0] ++ leBytes 2 16 ++ zeros 4)).params 4 1 ≤ 1)
    ∧ ((w7a.urgents 0).length < 4)
    ∧ (Starts 1282 (wPk 1282 1 ([1, 0] ++ leBytes 2 16 ++ zeros 4)) w7b = true)
    ∧ (4 ≤ (w7b.urgents 0).length)
    ∧ (w7b.urgents 0 = { queue := 16, input := 0, ratio := false, count := 16, start := some 0 } :: w7u 3)
    ∧ (some 0 = some 0)
    ∧ (0 + 200 * 16 ≤ w7b.time.mono)
    ∧ ((List.replicate 16 0).length = 16) := by
  refine ⟨?_, ?_, ?_, ?_, ?_, ?_, ?_, ?_, ?_, ?_, ?_, ?_, ?_, ?_, ?_, ?_, ?_, ?_, ?_, ?_, ?_, ?_, ?_, ?_⟩
  · exact starts_of (wPk_crc ..) (by decide +kernel)
  · decide +kernel
  · decide +kernel
  · decide +kernel
  · decide +kernel
  · decide +kernel
  · decide +kernel
  · decide +kernel
  · decide +kernel
  · decide +kernel
  · exact starts_of (wPk_crc ..) (by decide +kernel)
  · decide +kernel
  · decide +kernel
  · decide +kernel
  · decide +kernel
  · decide +kernel
  · decide +kernel
  · decide +kernel
  · exact starts_of (wPk_crc ..) (by decide +kernel)
  · decide +kernel
  · decide +kernel
  · decide +kernel
  · decide +kernel
  · decide +kernel

theorem test_hyps_CalibrationsTakeTheirSteps :
    (Starts 1281 (wPk 1281 1 []) wl = true)
    ∧ (Block 0 [] (wPk 1281 1 []) = true)
    ∧ (wl.aux.selfStep = 0)
    ∧ (wl.aux.calBusy = false)
    ∧ (Starts 1281 (wPk 1281 1 []) w7b = true)
    ∧ (w7b.aux.selfStep ≠ 0 ∨ w7b.aux.calBusy = true)
    ∧ (w7b.aux.selfStep = 1)
    ∧ (w7b.aux.selfStart + 5734400 ≤ w7b.time.mono)
    ∧ (w7c.aux.selfStep = 2)
    ∧ (w7c.aux.selfStart + 11468800 ≤ w7c.time.mono)
    ∧ (w7d.aux.selfStep = 3)
    ∧ (w7d.aux.selfStart + 12800000 ≤ w7d.time.mono)
    ∧ (wl.aux.selfBad = false)
    ∧ (true = false ∨ w7g.aux.selfBad = true)
    ∧ (Starts 1296 (wPk 1296 1 []) w7a = true)
    ∧ (Block 0 [] (wPk 1296 1 []) = true)
    ∧ (w7a.aux.mode = true)
    ∧ (w7a.aux.calBusy = false)
    ∧ (w7a.ready 9 = true)
    ∧ (w7a.aux.ts2At + second ≤ w7a.time.mono)
    ∧ (w7a.aux.step = some RefStep.rprec)
    ∧ (w7a.aux.stepAt + 7680000 ≤ w7a.time.mono)
    ∧ (Tbl.get 0 w7a.aux.checkAt 0 + second ≤ w7a.time.mono)
    ∧ (w7b.aux.calBusy = false)
    ∧ (w7b.aux.calDelayed = false)
    ∧ (w7b.aux.calAt = none)
    ∧ (Starts 1296 (wPk 1296 1 []) w7b = true)
    ∧ (w7b.aux.mode = false)
    ∧ (w7b.ready 9 = true)
    ∧ (w7b.aux.ts2At + second ≤ w7b.time.mono)
    ∧ (Starts 1296 (wPk 1296 1 []) w7e = true)
    ∧ (w7e.aux.mode = true)
    ∧ (w7e.aux.calBusy = true)
    ∧ (w7h.aux.calBusy = false)
    ∧ (w7h.aux.calDelayed = false)
    ∧ (w7h.aux.calAt = some 5)
    ∧ (wl.convFault 0 = false ∨ wl.convFault 1 = false)
    ∧ (w7a.aux.calAt = some 0)
    ∧ (w7a.aux.calDelayed = true)
    ∧ (0 + 60 * second ≤ w7a.time.mono)
    ∧ (w7b.aux.step = some (RefStep.stat [(1, true)]))
    ∧ (w7b.aux.stepAt + w7b.key (kCal 5) * second ≤ w7b.time.mono)
    ∧ ([5].length = [(1, true)].length) := by
  refine ⟨?_, ?_, ?_, ?_, ?_, ?_, ?_, ?_, ?_, ?_, ?_, ?_, ?_, ?_, ?_, ?_, ?_, ?_, ?_, ?_, ?_, ?_, ?_, ?_, ?_, ?_, ?_, ?_, ?_, ?_, ?_, ?_, ?_, ?_, ?_, ?_, ?_, ?_, ?_, ?_, ?_, ?_, ?_⟩
  · exact starts_of (wPk_crc ..) (by decide +kernel)
  · decide +kernel
  · decide +kernel
  · decide +kernel
  · exact starts_of (wPk_crc ..) (by decide +kernel)
  · decide +kernel
  · decide +kernel
  · decide +kernel
  · decide +kernel
  · decide +kernel
  · decide +kernel
  · decide +kernel
  · decide +kernel
  · decide +kernel
  · exact starts_of (wPk_crc ..) (by decide +kernel)
  · decide +kernel
  · decide +kernel
  · decide +kernel
  · decide +kernel
  · decide +kernel
  · rfl
  · decide +kernel
  · decide +kernel
  · decide +kernel
  · decide +kernel
  · decide +kernel
  · exact starts_of (wPk_crc ..) (by decide +kernel)
  · decide +kernel
  · decide +kernel
  · decide +kernel
  · exact starts_of (wPk_crc ..) (by decide +kernel)
  · decide +kernel
  · decide +kernel
  · decide +kernel
  · decide +kernel
  · decide +kernel
  · decide +kernel
  · decide +kernel
  · decide +kernel
  · decide +kernel
  · rfl
  · decide +kernel
  · decide +kernel

def w8p (mode extra : Nat) (v : Nat) : Packet := wPk 0x0601 0 ([BitVec.ofNat 8 mode, BitVec.ofNat 8 extra] ++ zeros 6 ++ leBytes 8 v)
def w8a (d : List Nat) : Announce := { port := wKs.get (kTime 4), transport := wKs.get (kTime 5), domain := wKs.get (kTime 3), dataset := d, intervalMs := 1000, utcOffset := 37, utcValid := true }
def w8d (n i : Nat) : List Nat := [n, n, n, n, n, i, n]
def w8t (f : TimeSt → TimeSt) : State := { wl with time := f wl.time }
def w8m (i : Nat) : State := { (w8t fun t => { t with ptp := { master := some (w8d 5 i), syncSeq := some 9, t1 := some 3, reqSeq := some 8 }, ppsIn := some 5, src := [(1, { good := 1 }), (2, { qualified := true }), (3, { qualified := true })], mainsCycles := 5, source := 2 }) with cfg.active := wKs.put (kTime 6) 0 }
def w8z : State := w8t fun t => { t with source := 3, src := [(3, { qualified := true }), (1, { qualified := true })], leap := 1, slewing := true, holdover := true, e0 := 10 ^ 15, ppsRise := none }
def w8y : State := w8t fun t => { t with leap := 2, ppsHigh := true, ppsRise := some 0, xtalFault := true }
def w8x : State := { w8z with cfg.active := wKs.put (kTime 0) 0x4312 }
def w8r (r : Rtc) : State := { (w8t fun t => { t with locked := true }) with rtc := r, cfg.active := wKs.put (kTime 0x0A) 1 }
def w8ra : State := w8r { rewrite := true }
def w8rb : State := w8r {}
def w8rc : State := w8r { ({} : Rtc).load (1699999200) with rtcValid := true, onBattery := true }
def w8M : PtpStamp := { identity := 6, seq := 9, origin := some 5, rx := 7 }
def w8fa : State := w8t fun t => { t with ptp := { foreign := [{ dataset := w8d 1 1, intervalMs := 1000, last := t.mono - second, prev := none }] } }
def w8fb : State := w8t fun t => { t with ptp := { foreign := [{ dataset := w8d 0 7, intervalMs := 1000, last := t.mono, prev := some (t.mono - second) }] } }
def w8h (p : Packet) : InFlight := ⟨⟨0x0601, p, 5⟩, .timeSet⟩
def w8hs (p : Packet) : State := { wu with host.busy := [(queueId 0 0, some (w8h p))] }
def w8hr : State := w8t fun t => { t with holdover := true, rtcOscFault := true }

theorem test_hyps_TimeIsSetReadAndDisciplined_1 :
    (Starts 1537 (w8p 0 0 5) wu = true)
    ∧ (Block 16 [(4, 4)] (w8p 0 0 5) = true)
    ∧ (wu.time.source = 0)
    ∧ (fld (w8p 0 0 5).params 1 1 = 0)
    ∧ (fld (w8p 0 0 5).params 2 2 = 0)
    ∧ (fld (w8p 0 0 5).params 0 1 = 0)
    ∧ (fld (w8p 0 0 5).params 8 8 ≤ timeMax)
    ∧ (Starts 1537 (w8p 1 0 5) wu = true)
    ∧ (Block 16 [(4, 4)] (w8p 1 0 5) = true)
    ∧ (fld (w8p 1 0 5).params 1 1 = 0)
    ∧ (fld (w8p 1 0 5).params 2 2 = 0)
    ∧ (fld (w8p 1 0 5).params 0 1 = 1)
    ∧ (wu.time.valid = true)
    ∧ (0 ≤ ↑wu.nowNs + sfld (w8p 1 0 5).params 8 8)
    ∧ (↑wu.nowNs + sfld (w8p 1 0 5).params 8 8 ≤ ↑timeMax)
    ∧ ((sfld (w8p 1 0 5).params 8 8).natAbs ≤ wu.key (kBill 4) * second)
    ∧ (fld (w8p 1 0 (10 ^ 14)).params 0 1 = 1)
    ∧ (wu.key (kBill 4) * second < (sfld (w8p 1 0 (10 ^ 14)).params 8 8).natAbs)
    ∧ (Starts 1537 (w8p 2 1 0) wu = true)
    ∧ (Block 16 [(4, 4)] (w8p 2 1 0) = true)
    ∧ (fld (w8p 2 1 0).params 0 1 = 2)
    ∧ (fld (w8p 2 1 0).params 1 1 ≤ 2)
    ∧ (fld (w8p 2 1 0).params 8 8 = 0)
    ∧ (wu.time.source = 2 → wu.time.ptp.utcValid = false)
    ∧ ((w8hs (w8p 0 0 5)).busyOf (queueId (w8p 0 0 5).bay (w8p 0 0 5).queue) = some (w8h (w8p 0 0 5)))
    ∧ ((w8h (w8p 0 0 5)).kind = HoldKind.timeSet)
    ∧ ((w8h (w8p 0 0 5)).entry.pkt = w8p 0 0 5)
    ∧ (Starts 1538 (wPk 1538 1 []) wr = true)
    ∧ (Block 0 [] (wPk 1538 1 []) = true)
    ∧ (Starts 1552 (wPk 1552 1 (zeros 4 ++ leBytes 2 1024 ++ zeros 2)) wr = true) := by
  refine ⟨?_, ?_, ?_, ?_, ?_, ?_, ?_, ?_, ?_, ?_, ?_, ?_, ?_, ?_, ?_, ?_, ?_, ?_, ?_, ?_, ?_, ?_, ?_, ?_, ?_, ?_, ?_, ?_, ?_, ?_⟩
  · exact starts_of (wPk_crc ..) (by decide +kernel)
  · decide +kernel
  · decide +kernel
  · decide +kernel
  · decide +kernel
  · decide +kernel
  · decide +kernel
  · exact starts_of (wPk_crc ..) (by decide +kernel)
  · decide +kernel
  · decide +kernel
  · decide +kernel
  · decide +kernel
  · decide +kernel
  · decide +kernel
  · decide +kernel
  · decide +kernel
  · decide +kernel
  · decide +kernel
  · exact starts_of (wPk_crc ..) (by decide +kernel)
  · decide +kernel
  · decide +kernel
  · decide +kernel
  · decide +kernel
  · decide +kernel
  · rfl
  · decide +kernel
  · decide +kernel
  · exact starts_of (wPk_crc ..) (by decide +kernel)
  · decide +kernel
  · exact starts_of (wPk_crc ..) (by decide +kernel)

theorem test_hyps_TimeIsSetReadAndDisciplined_2 :
    (Block 8 [(6, 2)] (wPk 1552 1 (zeros 4 ++ leBytes 2 1024 ++ zeros 2)) = true)
    ∧ (1 ≤ fld (wPk 1552 1 (zeros 4 ++ leBytes 2 1024 ++ zeros 2)).params 4 2)
    ∧ (fld (wPk 1552 1 (zeros 4 ++ leBytes 2 1024 ++ zeros 2)).params 4 2 ≤ 1024)
    ∧ ((w8a (w8d 1 1)).domain = wl.key (kTime 3))
    ∧ ((w8a (w8d 1 1)).port = wl.key (kTime 4))
    ∧ ((w8a (w8d 1 1)).transport = wl.key (kTime 5))
    ∧ (bestSet (List.map (fun x => x.dataset) (List.filter (fun x => x.counts wl.time.mono) (heard (w8a (w8d 1 1)) wl.time.mono wl.time.ptp.foreign))) = none)
    ∧ (wl.time.ppsIn = none)
    ∧ ((w8a (w8d 1 1)).domain = w8fa.key (kTime 3))
    ∧ ((w8a (w8d 1 1)).port = w8fa.key (kTime 4))
    ∧ ((w8a (w8d 1 1)).transport = w8fa.key (kTime 5))
    ∧ (bestSet (List.map (fun x => x.dataset) (List.filter (fun x => x.counts w8fa.time.mono) (heard (w8a (w8d 1 1)) w8fa.time.mono w8fa.time.ptp.foreign))) = some (w8d 1 1))
    ∧ (setIdentity (w8d 1 1) = setIdentity (w8a (w8d 1 1)).dataset)
    ∧ ((w8a (w8d 1 1)).domain = w8fb.key (kTime 3))
    ∧ ((w8a (w8d 1 1)).port = w8fb.key (kTime 4))
    ∧ ((w8a (w8d 1 1)).transport = w8fb.key (kTime 5))
    ∧ (bestSet (List.map (fun x => x.dataset) (List.filter (fun x => x.counts w8fb.time.mono) (heard (w8a (w8d 1 1)) w8fb.time.mono w8fb.time.ptp.foreign))) = some (w8d 0 7))
    ∧ (setIdentity (w8d 0 7) ≠ setIdentity (w8a (w8d 1 1)).dataset)
    ∧ (Option.map setIdentity (w8m 6).time.ptp.master = some (setIdentity (w8d 5 6)))
    ∧ (Option.map setIdentity (w8m 6).time.ptp.master ≠ some (setIdentity (w8d 5 7)))
    ∧ ((w8m 6).fromMaster w8M.identity = true)
    ∧ ((w8m 6).time.ptp.master.isSome = true)
    ∧ ((w8m 6).time.ptp.lastAnnounce + 3 * (w8m 6).time.ptp.announceMs * 1000000 ≤ (w8m 6).time.mono ∨ ((w8m 6).src 2).qualified = true ∧ (w8m 6).time.ptp.lastSync + 3 * second ≤ (w8m 6).time.mono)
    ∧ (((w8m 6).src 3).qualified = true)
    ∧ (((w8m 6).src 3).last + 2 * second ≤ (w8m 6).time.mono)
    ∧ ((w8m 6).srcUsable 4 = true)
    ∧ (0 < (w8m 6).time.mainsCycles)
    ∧ ((w8m 6).time.mainsStart + 600 * second ≤ (w8m 6).time.mono)
    ∧ (((w8m 6).src 4).qualified = false)
    ∧ (0 < ((w8m 6).src 1).good) := by
  refine ⟨?_, ?_, ?_, ?_, ?_, ?_, ?_, ?_, ?_, ?_, ?_, ?_, ?_, ?_, ?_, ?_, ?_, ?_, ?_, ?_, ?_, ?_, ?_, ?_, ?_, ?_, ?_, ?_, ?_, ?_⟩ <;> decide +kernel

theorem test_hyps_TimeIsSetReadAndDisciplined_3 :
    (((w8m 6).src 1).last + second ≤ (w8m 6).time.mono)
    ∧ ((w8m 6).time.ptp.syncSeq = some w8M.seq)
    ∧ (w8M.origin = some 5)
    ∧ ((w8m 6).time.ptp.t1 = some 3)
    ∧ ((w8m 6).time.ptp.reqSeq = some 8)
    ∧ ((w8m 6).time.ppsIn = some 5)
    ∧ ((((second + 5 : Nat) : Int) - 5 - (second : Nat)).natAbs ≤ 100000)
    ∧ ((List.filter (fun c => w8x.srcQualified c && decide ((w8x.src c).since + 10 * second ≤ w8x.time.mono)) (List.takeWhile (fun x => x != w8x.time.source) w8x.srcOrder)).head? = some 1)
    ∧ (w8x.time.source ≠ 0) := by
  refine ⟨?_, ?_, ?_, ?_, ?_, ?_, ?_, ?_, ?_⟩ <;> decide +kernel

theorem test_hyps_TimeBaseAndRtcEvents :
    (w8z.time.slewing = true)
    ∧ (w8z.time.slewLeft = 0)
    ∧ (w8z.time.holdover = true)
    ∧ (w8z.time.holdExceeded = false)
    ∧ (w8z.key (kTime 11) * 1000 < w8z.estError)
    ∧ (w8z.time.valid = true)
    ∧ (w8z.fault.f4 = false)
    ∧ (w8z.time.ppsHigh = false)
    ∧ ((w8z.nowNs + 10) % second ≤ 20)
    ∧ (∀ (t : ℕ), w8z.time.ppsRise = some t → t + 500000000 ≤ w8z.time.mono)
    ∧ (w8z.time.leap = 1)
    ∧ ((w8z.time.leapDay + 1) * 86400 ≤ w8z.utcNs / second)
    ∧ (w8z.time.xtalFault = false)
    ∧ (w8z.time.rtcOscFault = false)
    ∧ (w8y.time.valid = true)
    ∧ (w8y.time.leap = 2)
    ∧ ((w8y.time.leapDay + 1) * 86400 ≤ w8y.utcNs / second + 1)
    ∧ (w8y.time.xtalFault = true)
    ∧ (w8y.time.ppsRise = some 0)
    ∧ (w8y.time.ppsHigh = true)
    ∧ (0 + w8y.key (kTime 8) * 1000000 ≤ w8y.time.mono)
    ∧ (w8hr.time.holdover = true)
    ∧ (w8hr.time.rtcOscFault = true)
    ∧ (w8ra.rtc.halted = false)
    ∧ (w8ra.time.rtcOscFault = true → w8ra.rtc.onBattery = false)
    ∧ (w8ra.time.valid = true)
    ∧ (w8ra.time.ns % second = 0)
    ∧ (w8ra.rtc.halted = true → w8ra.rtcHostWrite = false)
    ∧ (w8ra.rtc.rewrite = true)
    ∧ (w8ra.keyOn (kTime 10) = true)
    ∧ (w8ra.time.locked = true ∨ w8ra.time.source = 4 ∧ (w8ra.src 4).since + w8ra.key (kTime 7) * second ≤ w8ra.time.mono)
    ∧ (2 ≤ (40 - w8ra.rtc.trim).natAbs)
    ∧ (w8ra.rtc.onBattery = false)
    ∧ (1000 < 1400 ∨ 1000 < 2600)
    ∧ (1000 < 1500)
    ∧ (w8rb.time.valid = true)
    ∧ (w8rb.time.ns % second = 0)
    ∧ (w8rb.rtc.halted = true → w8rb.rtcHostWrite = false)
    ∧ (w8rb.rtc.rewrite = false)
    ∧ (w8rb.rtc.sec ≠ 96)
    ∧ (w8rb.rtc.toSec ≠ w8rb.utcNs / second ∨ w8rb.rtc.rtcValid = false)
    ∧ (w8rc.time.valid = true)
    ∧ (w8rc.time.ns % second = 0)
    ∧ (w8rc.rtc.halted = true → w8rc.rtcHostWrite = false)
    ∧ (w8rc.rtc.rewrite = false)
    ∧ (w8rc.rtc.toSec = w8rc.utcNs / second)
    ∧ (w8rc.rtc.rtcValid = true)
    ∧ (w8rc.rtc.onBattery = true)
    ∧ (max 1400 2600 + 100 < 3000) := by
  refine ⟨?_, ?_, ?_, ?_, ?_, ?_, ?_, ?_, ?_, ?_, ?_, ?_, ?_, ?_, ?_, ?_, ?_, ?_, ?_, ?_, ?_, ?_, ?_, ?_, ?_, ?_, ?_, ?_, ?_, ?_, ?_, ?_, ?_, ?_, ?_, ?_, ?_, ?_, ?_, ?_, ?_, ?_, ?_, ?_, ?_, ?_, ?_, ?_, ?_⟩
  · decide +kernel
  · decide +kernel
  · decide +kernel
  · decide +kernel
  · decide +kernel
  · decide +kernel
  · decide +kernel
  · decide +kernel
  · decide +kernel
  · decide +kernel
  · decide +kernel
  · decide +kernel
  · decide +kernel
  · decide +kernel
  · decide +kernel
  · decide +kernel
  · decide +kernel
  · decide +kernel
  · decide +kernel
  · decide +kernel
  · decide +kernel
  · decide +kernel
  · decide +kernel
  · decide +kernel
  · decide +kernel
  · decide +kernel
  · decide +kernel
  · decide +kernel
  · decide +kernel
  · decide +kernel
  · decide +kernel
  · decide +kernel
  · decide +kernel
  · decide +kernel
  · decide +kernel
  · decide +kernel
  · decide +kernel
  · decide +kernel
  · decide +kernel
  · decide +kernel
  · decide +kernel
  · decide +kernel
  · decide +kernel
  · decide +kernel
  · decide +kernel
  · decide +kernel
  · decide +kernel
  · decide +kernel
  · decide +kernel

def w9cal : Bytes := zeros 16 ++ [1, 1, 1] ++ zeros 605 ++ [1, 0, 0, 0] ++ zeros 2076
def w9 (b : Bill) : State := { wu with bill := b, cfg.active := wKs.put (kBillMp 0 0) 1 }
def w9a : State := w9 { actAt := some 5, resetAt := some 6, profGrid := 1, subGrid := 1, mp := [(0, { deferred := true, txn := [3], supply := .armed, prepay := .ecOffered })], frames := [[]] }
def w9b : State := w9 {}
def w9o (bay : Nat) : State := { wSt .leaf bay .operator with bill := w9a.bill, cfg.active := w9a.cfg.active }
def w9c (txn : Nat) : Packet := wPk 0x0730 0 ([0] ++ zeros 3 ++ leBytes 4 txn ++ leBytes 8 5)
def w9s (act : BitVec 8) (bay : Nat) : Packet := wPk 0x0740 bay ([0, act] ++ zeros 6)
def w9d : State := w9 { profGrid := w9b.profGridNow, subGrid := 1 }
def w9e : State := w9 { actAt := some 5 }
def w9f : InFlight := ⟨⟨0x0711, wPk 0x0711 0 (zeros 16), 5⟩, .billNow⟩
def w9g : State := { w9b with host.busy := [(0, some w9f)] }
def w9p1 : Packet := wPk 0x0710 0 w9cal
def w9p2 : Packet := wPk 0x0710 0 (zeros 4 ++ [1] ++ zeros 2699)
def w9p3 : Packet := wPk 0x0710 0 (zeros 2704)
def w9drop (o : Nat) : Bytes :=
  zeros (16 - o) ++ (([1, 1, 1] : Bytes).drop (o - 16) ++ (zeros (605 - (o - 19)) ++ (([1, 0, 0, 0] : Bytes).drop (o - 624) ++ zeros (2076 - (o - 628)))))
theorem drop_w9cal (o : Nat) : List.drop o (w9p1.params) = w9drop o := by
  show List.drop o w9cal = _
  simp only [w9cal, List.append_assoc, List.drop_append, zeros, List.drop_replicate, w9drop, List.length_replicate, List.length_cons, List.length_nil, Nat.sub_sub]
theorem drop_w9p3 (o : Nat) : List.drop o (w9p3.params) = zeros (2704 - o) := by
  show List.drop o (zeros 2704) = _
  simp only [zeros, List.drop_replicate]
theorem w9p1_length : w9p1.params.length = 2704 := by
  show w9cal.length = 2704
  simp only [w9cal, zeros, List.length_append, List.length_replicate, List.length_cons, List.length_nil]
theorem w9p1_reserved : calReservedOk w9p1.params = true := by
  simp only [calReservedOk, allZero, drop_w9cal]; decide +kernel
theorem w9p3_length : w9p3.params.length = 2704 := List.length_replicate
theorem w9p3_reserved : calReservedOk w9p3.params = true := by
  simp only [calReservedOk, allZero, drop_w9p3]; decide +kernel
/-- A calendar image that is accepted, and one whose reserved bytes are 0 but that has no season. -/
theorem w9p1_ok : calendarOk w9p1.params = true := by
  rw [calendarOk, w9p1_reserved, w9p1_length]
  delta calSeasons calSeason calSpecials calSpecial friendlyOk weekProfile switchOk profilesUsed calSwitches weekProfile fld slice
  simp only [drop_w9cal]
  decide +kernel
theorem w9p3_ok : calendarOk w9p3.params = false := by
  rw [calendarOk, w9p3_reserved]
  delta calSeasons calSeason fld slice
  simp only [drop_w9p3]
  rw [show (List.filter (fun x : Season => x.valid) (List.map (fun i => _) (List.range 4))).isEmpty = true from by decide +kernel]
  simp

theorem test_hyps_BillingFollowsTheClock :
    (w9a.meters = true)
    ∧ (w9a.profGridNow ≠ w9a.bill.profGrid)
    ∧ (w9a.time.valid = true)
    ∧ (w9a.bill.day < w9a.localDay)
    ∧ ((w9a.bmp 0).deferred = true)
    ∧ (w9a.friendly = false)
    ∧ (w9d.meters = true)
    ∧ (w9d.profGridNow = w9d.bill.profGrid)
    ∧ (w9d.subGridNow ≠ w9d.bill.subGrid)
    ∧ (w9a.bill.actAt = some 5)
    ∧ (5 ≤ w9a.time.ns)
    ∧ (w9a.bill.resetAt = some 6)
    ∧ (6 ≤ w9a.time.ns) := by
  refine ⟨?_, ?_, ?_, ?_, ?_, ?_, ?_, ?_, ?_, ?_, ?_, ?_, ?_⟩ <;> decide +kernel

theorem test_hyps_BillingCommandsAndReads_1 :
    (Starts 1808 w9p1 w9b = true)
    ∧ (w9p1.isBulk = false)
    ∧ (List.length w9p1.params = 2704)
    ∧ (calReservedOk w9p1.params = true)
    ∧ (w9b.bill.actAt = none)
    ∧ (calendarOk w9p1.params = true)
    ∧ (Starts 1808 w9p1 w9e = true)
    ∧ (w9e.bill.actAt.isSome = true)
    ∧ (Starts 1808 w9p2 w9b = true)
    ∧ (w9p2.isBulk = false)
    ∧ (List.length w9p2.params = 2704)
    ∧ (calReservedOk w9p2.params = false)
    ∧ (Starts 1808 w9p3 w9b = true)
    ∧ (w9p3.isBulk = false)
    ∧ (List.length w9p3.params = 2704)
    ∧ (calReservedOk w9p3.params = true)
    ∧ (calendarOk w9p3.params = false)
    ∧ (w9g.host.busy = [(0, some w9f)])
    ∧ (w9f.kind = HoldKind.billNow)
    ∧ (Block 16 [(8, 8)] (wPk 1809 0 (zeros 16)) = true)
    ∧ (Starts 1809 (wPk 1809 0 (zeros 16)) w9b = true)
    ∧ (fld (wPk 1809 0 (zeros 16)).params 0 8 = 0)
    ∧ (Block 16 [(8, 8)] (wPk 1809 0 (leBytes 8 5 ++ zeros 8)) = true)
    ∧ (Starts 1809 (wPk 1809 0 (leBytes 8 5 ++ zeros 8)) w9b = true)
    ∧ (fld (wPk 1809 0 (leBytes 8 5 ++ zeros 8)).params 0 8 ≠ 0)
    ∧ (w9b.time.valid = true)
    ∧ (Block 16 [(8, 8)] (wPk 1824 0 (zeros 16)) = true)
    ∧ (Starts 1824 (wPk 1824 0 (zeros 16)) w9b = true)
    ∧ (fld (wPk 1824 0 (zeros 16)).params 0 8 = 0)
    ∧ (Block 16 [(8, 8)] (wPk 1824 0 (leBytes 8 5 ++ zeros 8)) = true) := by
  refine ⟨?_, ?_, ?_, ?_, ?_, ?_, ?_, ?_, ?_, ?_, ?_, ?_, ?_, ?_, ?_, ?_, ?_, ?_, ?_, ?_, ?_, ?_, ?_, ?_, ?_, ?_, ?_, ?_, ?_, ?_⟩
  · exact starts_of (wPk_crc ..) (by decide +kernel)
  · decide +kernel
  · exact w9p1_length
  · exact w9p1_reserved
  · decide +kernel
  · exact w9p1_ok
  · exact starts_of (wPk_crc ..) (by decide +kernel)
  · decide +kernel
  · exact starts_of (wPk_crc ..) (by decide +kernel)
  · decide +kernel
  · decide +kernel
  · decide +kernel
  · exact starts_of (wPk_crc ..) (by decide +kernel)
  · decide +kernel
  · exact w9p3_length
  · exact w9p3_reserved
  · exact w9p3_ok
  · decide +kernel
  · decide +kernel
  · decide +kernel
  · exact starts_of (wPk_crc ..) (by decide +kernel)
  · decide +kernel
  · decide +kernel
  · exact starts_of (wPk_crc ..) (by decide +kernel)
  · decide +kernel
  · decide +kernel
  · decide +kernel
  · exact starts_of (wPk_crc ..) (by decide +kernel)
  · decide +kernel
  · decide +kernel

theorem test_hyps_BillingCommandsAndReads_2 :
    (Starts 1824 (wPk 1824 0 (leBytes 8 5 ++ zeros 8)) w9b = true)
    ∧ (fld (wPk 1824 0 (leBytes 8 5 ++ zeros 8)).params 0 8 ≠ 0)
    ∧ (Starts 1840 (w9c 3) w9a = true)
    ∧ (Block 16 [(1, 3)] (w9c 3) = true)
    ∧ (fld (w9c 3).params 0 1 < 16)
    ∧ (w9a.keyOn (kBillMp (fld (w9c 3).params 0 1) 0) = true)
    ∧ (1 ≤ sfld (w9c 3).params 8 8)
    ∧ (sfld (w9c 3).params 8 8 ≤ 10 ^ 12)
    ∧ ((w9a.bmp (fld (w9c 3).params 0 1)).txn.contains (fld (w9c 3).params 4 4) = true)
    ∧ (Starts 1840 (w9c 4) w9a = true)
    ∧ (Block 16 [(1, 3)] (w9c 4) = true)
    ∧ (fld (w9c 4).params 0 1 < 16)
    ∧ (w9a.keyOn (kBillMp (fld (w9c 4).params 0 1) 0) = true)
    ∧ (1 ≤ sfld (w9c 4).params 8 8)
    ∧ (sfld (w9c 4).params 8 8 ≤ 10 ^ 12)
    ∧ ((w9a.bmp (fld (w9c 4).params 0 1)).txn.contains (fld (w9c 4).params 4 4) = false)
    ∧ (Starts 1856 (w9s 0 0) w9a = true)
    ∧ (Block 8 [(2, 6)] (w9s 0 0) = true)
    ∧ (fld (w9s 0 0).params 0 1 < 16)
    ∧ (mpEnabled w9a.cfg.active (fld (w9s 0 0).params 0 1) = true)
    ∧ (fld (w9s 0 0).params 1 1 ≤ 1)
    ∧ (b0Util (w9s 0 0).bay ((w9a.touch (w9s 0 0)).ctx (w9s 0 0)).role = true)
    ∧ (Starts 1856 (w9s 0 1) (w9o 1) = true)
    ∧ (Block 8 [(2, 6)] (w9s 0 1) = true)
    ∧ (fld (w9s 0 1).params 0 1 < 16)
    ∧ (mpEnabled (w9o 1).cfg.active (fld (w9s 0 1).params 0 1) = true)
    ∧ (fld (w9s 0 1).params 1 1 ≤ 1)
    ∧ (b0Util (w9s 0 1).bay (((w9o 1).touch (w9s 0 1)).ctx (w9s 0 1)).role = false)
    ∧ (Starts 1856 (w9s 2 0) w9a = true)
    ∧ (Block 8 [(2, 6)] (w9s 2 0) = true) := by
  refine ⟨?_, ?_, ?_, ?_, ?_, ?_, ?_, ?_, ?_, ?_, ?_, ?_, ?_, ?_, ?_, ?_, ?_, ?_, ?_, ?_, ?_, ?_, ?_, ?_, ?_, ?_, ?_, ?_, ?_, ?_⟩
  · exact starts_of (wPk_crc ..) (by decide +kernel)
  · decide +kernel
  · exact starts_of (wPk_crc ..) (by decide +kernel)
  · decide +kernel
  · decide +kernel
  · decide +kernel
  · decide +kernel
  · decide +kernel
  · decide +kernel
  · exact starts_of (wPk_crc ..) (by decide +kernel)
  · decide +kernel
  · decide +kernel
  · decide +kernel
  · decide +kernel
  · decide +kernel
  · decide +kernel
  · exact starts_of (wPk_crc ..) (by decide +kernel)
  · decide +kernel
  · decide +kernel
  · decide +kernel
  · decide +kernel
  · decide +kernel
  · exact starts_of (wPk_crc ..) (by decide +kernel)
  · decide +kernel
  · decide +kernel
  · decide +kernel
  · decide +kernel
  · decide +kernel
  · exact starts_of (wPk_crc ..) (by decide +kernel)
  · decide +kernel

theorem test_hyps_BillingCommandsAndReads_3 :
    (fld (w9s 2 0).params 0 1 < 16)
    ∧ (mpEnabled w9a.cfg.active (fld (w9s 2 0).params 0 1) = true)
    ∧ (fld (w9s 2 0).params 1 1 = 2)
    ∧ ((w9a.bmp (fld (w9s 2 0).params 0 1)).supply = Supplied.armed)
    ∧ (Starts 1856 (w9s 3 0) w9a = true)
    ∧ (Block 8 [(2, 6)] (w9s 3 0) = true)
    ∧ (fld (w9s 3 0).params 0 1 < 16)
    ∧ (mpEnabled w9a.cfg.active (fld (w9s 3 0).params 0 1) = true)
    ∧ (fld (w9s 3 0).params 1 1 = 3)
    ∧ (w9a.keyOn (kBillMp (fld (w9s 3 0).params 0 1) 0) = true)
    ∧ ((w9a.bmp (fld (w9s 3 0).params 0 1)).prepay = Prepay.ecOffered)
    ∧ (Starts 1794 (wPk 1794 1 ([0] ++ zeros 7 ++ leBytes 2 512 ++ zeros 6)) wr = true)
    ∧ (Block 16 [(1, 3), (10, 6)] (wPk 1794 1 ([0] ++ zeros 7 ++ leBytes 2 512 ++ zeros 6)) = true)
    ∧ (fld (wPk 1794 1 ([0] ++ zeros 7 ++ leBytes 2 512 ++ zeros 6)).params 0 1 < 16)
    ∧ (mpEnabled wr.cfg.active (fld (wPk 1794 1 ([0] ++ zeros 7 ++ leBytes 2 512 ++ zeros 6)).params 0 1) = true)
    ∧ (1 ≤ fld (wPk 1794 1 ([0] ++ zeros 7 ++ leBytes 2 512 ++ zeros 6)).params 8 2)
    ∧ (fld (wPk 1794 1 ([0] ++ zeros 7 ++ leBytes 2 512 ++ zeros 6)).params 8 2 ≤ 512)
    ∧ (wr.bill.dSince + wr.key (kBill 7) * second ≤ wr.time.mono)
    ∧ (wr.fault.sealOk = true)
    ∧ (wr.bill.dSent < 2)
    ∧ (Starts 1793 (wPk 1793 1 [0, 0, 1, 0, 0, 255, 2, 0]) wr = true)
    ∧ (Block 8 [(7, 1)] (wPk 1793 1 [0, 0, 1, 0, 0, 255, 2, 0]) = true)
    ∧ (objOfBytes (wPk 1793 1 [0, 0, 1, 0, 0, 255, 2, 0]).params = some Obj.clock)
    ∧ (Obj.clock.readable ((wr.touch (wPk 1793 1 [0, 0, 1, 0, 0, 255, 2, 0])).ctx (wPk 1793 1 [0, 0, 1, 0, 0, 255, 2, 0])).role = true)
    ∧ (Obj.value (wr.touch (wPk 1793 1 [0, 0, 1, 0, 0, 255, 2, 0])) Obj.clock (fld (wPk 1793 1 [0, 0, 1, 0, 0, 255, 2, 0]).params 6 1) = some (0, leBytes 8 wr.utcNs))
    ∧ (1000 < 1001)
    ∧ (w9a.bill.frames ≠ []) := by
  refine ⟨?_, ?_, ?_, ?_, ?_, ?_, ?_, ?_, ?_, ?_, ?_, ?_, ?_, ?_, ?_, ?_, ?_, ?_, ?_, ?_, ?_, ?_, ?_, ?_, ?_, ?_, ?_⟩
  · decide +kernel
  · decide +kernel
  · decide +kernel
  · decide +kernel
  · exact starts_of (wPk_crc ..) (by decide +kernel)
  · decide +kernel
  · decide +kernel
  · decide +kernel
  · decide +kernel
  · decide +kernel
  · decide +kernel
  · exact starts_of (wPk_crc ..) (by decide +kernel)
  · decide +kernel
  · decide +kernel
  · decide +kernel
  · decide +kernel
  · decide +kernel
  · decide +kernel
  · decide +kernel
  · decide +kernel
  · exact starts_of (wPk_crc ..) (by decide +kernel)
  · decide +kernel
  · decide +kernel
  · decide +kernel
  · decide +kernel
  · decide +kernel
  · decide +kernel

def w10m : LeafMeter := { identity := 77, ctrUp := 5, repeatAt := some 0, again := some (.poll 0) }
def w10k : KeySet := wKs.put (kPlc 0) 1
def w10 (p : Plc) : State := { wl with plc := p, cfg.active := w10k, ledger.meter := [(3, some w10m)], metro.vs := [(0, { last := some { at_ := 0, u := 0, index := 0, ns := 0, rising := true, synth := false }, tLast := 1280 * 2 ^ 17 })] }
def w10e (k : PKind) : PExch := { kind := k, addr := 3, start := 5, down := 2, up := 2, robust := false }
def w10ec : PExch := { w10e (.confirm 77) with addr := 0 }
def w10x (k : PKind) : State := w10 { exch := some (w10e k), slotN := 10 }
def w10f : PFrame := { slot := 4, type := 0, addr := 3, body := [], robust := false }
def w10a : State := w10 { zcBad := 50 }
def w10b : State := w10 { zcGood := 500, zcFault := true, lineShort := true, quar := [(9, 0)] }
def w10c : State := w10 { sent := [w10f], exch := some (w10e (.poll 0)), slotN := 6, cycle := 1 }
def w10g (mic : Bool) (type addr ctr : Nat) (b : Bytes) : PlcMsg := { frames := (lineFrames 0x3FE type addr ((w10 {}).plcP false) (b ++ leBytes 4 ctr ++ zeros 8)).map fun f => (200, f), micOk := mic, snr := 10 }
def w10fr (crc : Nat) : Bytes := let b := leBytes 1 3 ++ leBytes 2 0x3FE ++ leBytes 2 0 ++ [8] ++ leBytes 8 77; b ++ leBytes 2 ((crc16 b).toNat + crc)
def w10la : Bytes := leBytes 4 8 ++ zeros 36
def w10pu : Bytes := leBytes 4 8 ++ zeros 8
def w10r (c : Bool) (l : List Confirm) : SearchRound := { w := 16, s0 := 5, answers := [(6, some 9)], confirming := c, confirms := l }
def w10i : Confirm := { identity := 77, addr := 3, tries := 1, done := false }
def w10n : State := w10 { round := some (w10r false []), slotN := 30 }
def w10o : State := w10 { round := some (w10r true [w10i]), exch := some w10ec, slotN := 30 }
def w10p : State := w10 { round := some (w10r true []), slotN := 30 }
def w10j (n : Nat) : LatchJob := { snap := 4, gk := 20, sent := n, last := 10 }
def w10q (n : Nat) : State := w10 { latchQ := [w10j n], slotN := 30 }
def w10cy : State := { w10 { cycle := ((w10 {}).cycleOf ((w10 {}).key (kPlc 5))).1 } with time.ns := 1699999200 * second + 890 * second }

theorem test_hyps_PowerLinePortAndItsMeters :
    (w10a.plcRun = true)
    ∧ (w10a.gridDiff (0 - w10a.keyS (kPlc 4) * 1000).toNat true = some ((w10a.gridDiff (0 - w10a.keyS (kPlc 4) * 1000).toNat true).getD 0))
    ∧ (50 ≤ w10a.plc.zcBad)
    ∧ (w10a.plc.zcFault = false)
    ∧ (w10b.plcRun = true)
    ∧ (500 ≤ w10b.plc.zcGood)
    ∧ (w10b.plc.zcFault = true)
    ∧ (w10b.plc.lineShort = true)
    ∧ (w10b.plc.testAt + 10 * second ≤ w10b.time.mono)
    ∧ (w10c.plc.sent = [w10f])
    ∧ (50 ≤ 50)
    ∧ (w10c.plc.exch = some (w10e (PKind.poll 0)))
    ∧ (w10c.plc.slotN < (w10e (PKind.poll 0)).start + (w10e (PKind.poll 0)).down)
    ∧ (w10f.cut = false)
    ∧ (w10c.plc.lineShort = false)
    ∧ ((w10x (PKind.poll 0)).plc.exch = some (w10e (PKind.poll 0)))
    ∧ ((w10x (PKind.poll 0)).meter (w10e (PKind.poll 0)).addr = some w10m)
    ∧ ((w10x (PKind.poll 0)).plcMessage (w10e (PKind.poll 0)) (w10g true 1 3 6 (zeros 40)) 1 = some ((w10e (PKind.poll 0)).addr, zeros 40, 6))
    ∧ ((w10e (PKind.poll 0)).addr ≠ 0)
    ∧ ((match (w10e (PKind.poll 0)).kind with
        | PKind.poll select => 1 == 1
        | PKind.latchPoll id => 1 == 8 && id == fld (zeros 40) 0 4
        | PKind.push id => 1 == 10 && id == fld (zeros 40) 0 4
        | PKind.confirm identity => false) =
        true)
    ∧ (1 = 1)
    ∧ ((w10e (PKind.poll 0)).start + (w10e (PKind.poll 0)).down + 1 ≤ (w10x (PKind.poll 0)).plc.slotN)
    ∧ ((w10x (PKind.poll 0)).plcRun = true)
    ∧ (((w10x (PKind.poll 0)).cycleOf ((w10x (PKind.poll 0)).key (kPlc 5))).1 ≠ (w10x (PKind.poll 0)).plc.cycle)
    ∧ ((w10x (PKind.latchPoll 8)).plc.exch = some (w10e (PKind.latchPoll 8)))
    ∧ ((w10x (PKind.latchPoll 8)).meter (w10e (PKind.latchPoll 8)).addr = some w10m)
    ∧ ((w10x (PKind.latchPoll 8)).plcMessage (w10e (PKind.latchPoll 8)) (w10g true 8 3 6 w10la) 8 = some ((w10e (PKind.latchPoll 8)).addr, w10la, 6))
    ∧ ((w10e (PKind.latchPoll 8)).addr ≠ 0)
    ∧ ((match (w10e (PKind.latchPoll 8)).kind with
        | PKind.poll select => 8 == 1
        | PKind.latchPoll id => 8 == 8 && id == fld w10la 0 4
        | PKind.push id => 8 == 10 && id == fld w10la 0 4
        | PKind.confirm identity => false) =
        true)
    ∧ (8 = 8)
    ∧ ((w10x (PKind.push 8)).plc.exch = some (w10e (PKind.push 8)))
    ∧ ((w10x (PKind.push 8)).meter (w10e (PKind.push 8)).addr = some w10m)
    ∧ ((w10x (PKind.push 8)).plcMessage (w10e (PKind.push 8)) (w10g true 10 3 6 w10pu) 10 = some ((w10e (PKind.push 8)).addr, w10pu, 6))
    ∧ ((w10e (PKind.push 8)).addr ≠ 0)
    ∧ ((match (w10e (PKind.push 8)).kind with
        | PKind.poll select => 10 == 1
        | PKind.latchPoll id => 10 == 8 && id == fld w10pu 0 4
        | PKind.push id => 10 == 10 && id == fld w10pu 0 4
        | PKind.confirm identity => false) =
        true)
    ∧ (10 = 10)
    ∧ ((w10x (PKind.poll 0)).plcMessage (w10e (PKind.poll 0)) (w10g true 11 3 6 (zeros 8)) 11 = some ((w10e (PKind.poll 0)).addr, zeros 8, 6))
    ∧ (11 = 11)
    ∧ (w10cy.plcRun = true)
    ∧ (w10cy.meter 3 = some w10m)
    ∧ (chanOf 3 = 0)
    ∧ ((w10cy.cycleOf (w10cy.key (kPlc 5))).1 = w10cy.plc.cycle)
    ∧ (dueNs (w10cy.key (kPlc 5)) (3 - 1) ≤ (w10cy.cycleOf (w10cy.key (kPlc 5))).2)
    ∧ (w10m.served = false)
    ∧ (w10cy.isLocked w10m.identity = false)
    ∧ (w10a.meter 3 = some w10m)
    ∧ (w10m.repeatAt = some 0)
    ∧ (0 ≤ w10a.time.mono)
    ∧ (w10a.plc.repQ.contains 3 = false) := by
  refine ⟨?_, ?_, ?_, ?_, ?_, ?_, ?_, ?_, ?_, ?_, ?_, ?_, ?_, ?_, ?_, ?_, ?_, ?_, ?_, ?_, ?_, ?_, ?_, ?_, ?_, ?_, ?_, ?_, ?_, ?_, ?_, ?_, ?_, ?_, ?_, ?_, ?_, ?_, ?_, ?_, ?_, ?_, ?_, ?_, ?_, ?_, ?_, ?_, ?_⟩ <;> decide +kernel

theorem test_hyps_SearchRoundsFindAndConfirmMeters_1 :
    (w10a.plcFree = true)
    ∧ (w10a.plc.round = none)
    ∧ ((Option.map (fun x => x.due w10a.plc.slotN) w10a.plc.latchQ.head?).getD false = false)
    ∧ (w10a.plc.roundReq.isSome = true ∨ w10a.plc.lastRound = none ∨ ∃ t, w10a.plc.lastRound = some t ∧ t + w10a.key (kPlc 6) * second ≤ w10a.time.mono)
    ∧ (Starts 2049 (wPk 2049 1 (zeros 8)) w10a = true)
    ∧ (Block 8 [(2, 6)] (wPk 2049 1 (zeros 8)) = true)
    ∧ (fld (wPk 2049 1 (zeros 8)).params 0 2 = 0 ∨ fld (wPk 2049 1 (zeros 8)).params 0 2 ∈ [16, 32, 64, 128, 256, 512, 1024])
    ∧ (w10n.plc.round = some (w10r false []))
    ∧ ((w10r false []).confirming = false)
    ∧ ((w10r false []).s0 < 7)
    ∧ (7 ≤ (w10r false []).s0 + (w10r false []).w)
    ∧ (7 ≤ w10n.plc.slotN)
    ∧ (((w10r false []).answers.any fun x => x.1 == 7) = false)
    ∧ (w10n.sentIn 7 = false)
    ∧ (lineFrame w10n.kiln.devId (w10n.plcFrameMax true) (w10fr 0) = some ((lineFrame 1022 200 (w10fr 0)).getD { type := 0, frag := 0, more := false, addr := 0, payload := [], fcsOk := false }))
    ∧ (100 ≤ 200)
    ∧ (200 ≤ 400)
    ∧ (((lineFrame 1022 200 (w10fr 0)).getD { type := 0, frag := 0, more := false, addr := 0, payload := [], fcsOk := false }).type = 3)
    ∧ (((lineFrame 1022 200 (w10fr 0)).getD { type := 0, frag := 0, more := false, addr := 0, payload := [], fcsOk := false }).addr = 0)
    ∧ (List.length ((lineFrame 1022 200 (w10fr 0)).getD { type := 0, frag := 0, more := false, addr := 0, payload := [], fcsOk := false }).payload = 8)
    ∧ (((lineFrame 1022 200 (w10fr 0)).getD { type := 0, frag := 0, more := false, addr := 0, payload := [], fcsOk := false }).more = false)
    ∧ (((lineFrame 1022 200 (w10fr 0)).getD { type := 0, frag := 0, more := false, addr := 0, payload := [], fcsOk := false }).frag = 0)
    ∧ (((lineFrame 1022 200 (w10fr 0)).getD { type := 0, frag := 0, more := false, addr := 0, payload := [], fcsOk := false }).fcsOk = true)
    ∧ (lineFrame w10n.kiln.devId (w10n.plcFrameMax true) (w10fr 1) = some ((lineFrame 1022 200 (w10fr 1)).getD { type := 0, frag := 0, more := false, addr := 0, payload := [], fcsOk := false }))
    ∧ (((lineFrame 1022 200 (w10fr 1)).getD { type := 0, frag := 0, more := false, addr := 0, payload := [], fcsOk := false }).type = 3)
    ∧ (((lineFrame 1022 200 (w10fr 1)).getD { type := 0, frag := 0, more := false, addr := 0, payload := [], fcsOk := false }).addr = 0)
    ∧ (List.length ((lineFrame 1022 200 (w10fr 1)).getD { type := 0, frag := 0, more := false, addr := 0, payload := [], fcsOk := false }).payload = 8)
    ∧ (((lineFrame 1022 200 (w10fr 1)).getD { type := 0, frag := 0, more := false, addr := 0, payload := [], fcsOk := false }).more = false)
    ∧ (((lineFrame 1022 200 (w10fr 1)).getD { type := 0, frag := 0, more := false, addr := 0, payload := [], fcsOk := false }).frag = 0)
    ∧ (((lineFrame 1022 200 (w10fr 1)).getD { type := 0, frag := 0, more := false, addr := 0, payload := [], fcsOk := false }).fcsOk = false) := by
  refine ⟨?_, ?_, ?_, ?_, ?_, ?_, ?_, ?_, ?_, ?_, ?_, ?_, ?_, ?_, ?_, ?_, ?_, ?_, ?_, ?_, ?_, ?_, ?_, ?_, ?_, ?_, ?_, ?_, ?_, ?_⟩
  · decide +kernel
  · decide +kernel
  · decide +kernel
  · decide +kernel
  · exact starts_of (wPk_crc ..) (by decide +kernel)
  · decide +kernel
  · decide +kernel
  · decide +kernel
  · decide +kernel
  · decide +kernel
  · decide +kernel
  · decide +kernel
  · decide +kernel
  · decide +kernel
  · decide +kernel
  · decide +kernel
  · decide +kernel
  · decide +kernel
  · decide +kernel
  · decide +kernel
  · decide +kernel
  · decide +kernel
  · decide +kernel
  · decide +kernel
  · decide +kernel
  · decide +kernel
  · decide +kernel
  · decide +kernel
  · decide +kernel
  · decide +kernel

theorem test_hyps_SearchRoundsFindAndConfirmMeters_2 :
    ((w10r false []).s0 + (w10r false []).w < w10n.plc.slotN)
    ∧ (w10o.plc.exch = some w10ec)
    ∧ (w10o.plc.round = some (w10r true [w10i]))
    ∧ (w10ec.kind = PKind.confirm 77)
    ∧ (w10o.plcMessage w10ec (w10g true 5 0 6 (leBytes 8 77 ++ zeros 4)) 5 = some (0, leBytes 8 77 ++ zeros 4, 6))
    ∧ (fld (leBytes 8 77 ++ zeros 4) 0 8 = 77)
    ∧ (List.find? (fun x => x.identity == 77) (w10r true [w10i]).confirms = some w10i)
    ∧ (msgCheck (w10g true 5 0 6 (leBytes 8 77 ++ zeros 4)).micOk 6 (w10o.idCtr 77).2 (List.length (leBytes 8 77 ++ zeros 4)) 12 = MsgVerdict.accept)
    ∧ (w10p.plc.round = some (w10r true []))
    ∧ ((w10r true []).confirming = true)
    ∧ (w10p.plc.exch = none)
    ∧ (∀ c ∈ (w10r true []).confirms, c.done = true ∨ 4 ≤ c.tries)
    ∧ (∃ x ∈ w10b.plc.quar, x.1 = 9 ∧ x.2 + (if chanOf 9 = 0 then w10b.key (kPlc 8) else w10b.key (kRadio 8)) * second ≤ w10b.time.mono)
    ∧ ((w10q 1).plc.latchQ = [w10j 1])
    ∧ ((w10q 1).plcFree = true)
    ∧ ((w10j 1).due (w10q 1).plc.slotN = true)
    ∧ ((w10q 1).plc.slotN ≤ (w10j 1).gk + 400)
    ∧ ((w10j 1).sent < 2)
    ∧ ((w10q 2).plc.latchQ = [w10j 2])
    ∧ ((w10q 2).plcFree = true)
    ∧ ((w10j 2).due (w10q 2).plc.slotN = true)
    ∧ ((w10q 2).plc.slotN ≤ (w10j 2).gk + 400)
    ∧ (2 ≤ (w10j 2).sent)
    ∧ (Starts 2050 (wPk 2050 1 []) wr = true)
    ∧ (Block 0 [] (wPk 2050 1 []) = true) := by
  refine ⟨?_, ?_, ?_, ?_, ?_, ?_, ?_, ?_, ?_, ?_, ?_, ?_, ?_, ?_, ?_, ?_, ?_, ?_, ?_, ?_, ?_, ?_, ?_, ?_, ?_⟩
  · decide +kernel
  · decide +kernel
  · decide +kernel
  · decide +kernel
  · decide +kernel
  · decide +kernel
  · decide +kernel
  · decide +kernel
  · decide +kernel
  · decide +kernel
  · decide +kernel
  · decide +kernel
  · decide +kernel
  · decide +kernel
  · decide +kernel
  · decide +kernel
  · decide +kernel
  · decide +kernel
  · decide +kernel
  · decide +kernel
  · decide +kernel
  · decide +kernel
  · decide +kernel
  · exact starts_of (wPk_crc ..) (by decide +kernel)
  · decide +kernel

def w11 (r : Radio) : State := { wl with radio := r, cfg.active := (wKs.put (kRp 0 0) 1).put (kRp 1 0) 1 }
def w11p (p : RPort) : State := w11 { port := [(0, p)] }
def w11u : RPort := { started := true, running := true }
def w11f (d : Bool) : RadioFrame :=
  { formOk := true, pan := wl.key (kRadio 0), source := 9, toMe := true, level := 5, keyIndex := 0, counter := 5, micOk := true, dataRequest := d, ttl := 3, down := false, sleepy := false, rank := 1, endRank := 1, origin := 9, originSeq := 4, final := 1, type := 1, body := [] }
def w11k : Radio := { port := [(0, w11u)], keys := [(0, [])], child := [{ addr := 9, heard := 0 }] }
def w11m : LeafMeter := { identity := 77, repeatAt := some 0, again := some (.poll 0), waiting := some 0 }
def w11a : State := { w11 { port := [(0, w11u)], dueQ := [1030], cycle := 7 } with ledger.meter := [(1030, some w11m)] }
def w11g (mic : Bool) (b : Bytes) : RadioMsg := { identity := 77, ctr := 6, micOk := mic, body := b, sleepy := false, port := 0 }
def w11ok : Bytes := let b := [0, 0, 0, 0]; b ++ leBytes 2 (crc16 b).toNat
def w11n (n : Nat) : State := w11 { port := [(0, w11u)], join := some { windowEnd := 10 ^ 18, answers := [(77, n)] } }
def w11c : Confirm := { identity := 77, addr := 1030, tries := 1, done := false }
def w11j (e : Nat) (l : List Confirm) : JoinRound := { windowEnd := e, confirms := l }
def w11r (j : Option JoinRound) : State := w11 { port := [(0, w11u)], join := j }
def w11u2 : RPort := { w11u with crcFails := 2 }
def w11uf : RPort := { w11u with fault := true }
def w11fm : RadioFrame := { w11f false with micOk := false }
def w11aw (k : Nat) : RPort := { w11u with awaits := some (k, 5) }

theorem test_hyps_RadioPortsAndTheirMeters_1 :
    ((w11p { }).rpEnabled 0 = true)
    ∧ (((w11p { }).rport 0).started = false)
    ∧ (((w11p w11u2).rport 0).started = true)
    ∧ (rpFrameOk [] = false)
    ∧ (2 ≤ ((w11p w11u2).rport 0).crcFails)
    ∧ (((w11p w11u2).rport 0).fault = false)
    ∧ (((w11p w11u2).rport 0).awaits = none)
    ∧ (((w11p w11u2).rport 0).statusAt + second ≤ (w11p w11u2).time.mono)
    ∧ ((w11p w11u2).rpUp.contains 0 = true)
    ∧ ((w11f false).formOk = true)
    ∧ ((w11f false).pan = (w11p w11u2).key (kRadio 0))
    ∧ (((w11p w11u2).keyOverlap.linkCheck (w11f false)).2 = false)
    ∧ ((w11p w11u2).rpUp ≠ [])
    ∧ ((w11p w11u2).radio.advertAt + (w11p w11u2).key (kRadio 2) * second ≤ (w11p w11u2).time.mono)
    ∧ (((w11p w11u).rport 0).started = true)
    ∧ (((w11p w11u).rport 0).crcFails < 2)
    ∧ (rpFrameOk w11ok = true)
    ∧ (((w11p (w11aw 1)).rport 0).awaits = some (1, 5))
    ∧ (((w11p (w11aw 2)).rport 0).awaits = some (2, 5))
    ∧ (1 ≠ 0)
    ∧ (((w11p (w11aw 3)).rport 0).awaits = some (3, 5))
    ∧ (5 + 100000000 ≤ (w11p (w11aw 3)).time.mono)
    ∧ (((w11p w11uf).rport 0).fault = true)
    ∧ (((w11p w11uf).rport 0).retryAt + 60 * second ≤ (w11p w11uf).time.mono)
    ∧ ((w11 w11k).rpUp.contains 0 = true)
    ∧ ((w11f true).formOk = true)
    ∧ ((w11f true).pan = (w11 w11k).key (kRadio 0))
    ∧ (((w11 w11k).keyOverlap.linkCheck (w11f true)).2 = true)
    ∧ ((w11f true).dataRequest = true)
    ∧ ((w11f true).toMe = true) := by
  refine ⟨?_, ?_, ?_, ?_, ?_, ?_, ?_, ?_, ?_, ?_, ?_, ?_, ?_, ?_, ?_, ?_, ?_, ?_, ?_, ?_, ?_, ?_, ?_, ?_, ?_, ?_, ?_, ?_, ?_, ?_⟩ <;> decide +kernel

theorem test_hyps_RadioPortsAndTheirMeters_2 :
    ((w11f true).level = 5)
    ∧ (∃ x ∈ (w11 w11k).radio.child, x.addr = 9 ∧ x.heard + 3600 * second ≤ (w11 w11k).time.mono)
    ∧ ((w11f false).pan = (w11 w11k).key (kRadio 0))
    ∧ (((w11 w11k).keyOverlap.linkCheck (w11f false)).2 = true)
    ∧ ((w11f false).dataRequest = false)
    ∧ (w11a.meter 1030 = some w11m)
    ∧ (chanOf 1030 = 1)
    ∧ (w11a.kiln.role = DevRole.leaf)
    ∧ (w11a.isLocked w11m.identity = false)
    ∧ (w11m.served = false ∧ (w11a.cycleOf (w11a.key (kRadio 4))).1 = w11a.radio.cycle ∧ dueNs (w11a.key (kRadio 4)) (1030 - 1025) ≤ (w11a.cycleOf (w11a.key (kRadio 4))).2 ∨ 1030 ∈ w11a.radio.dueQ)
    ∧ (w11a.kiln.ph.k6Open = true)
    ∧ ((w11a.cycleOf (w11a.key (kRadio 4))).1 ≠ w11a.radio.cycle)
    ∧ (Option.filter (fun a => decide (chanOf a = 1)) (w11a.meterAddr (w11g true (zeros 40)).identity) = some 1030)
    ∧ (msgCheck (w11g true (zeros 40)).micOk (w11g true (zeros 40)).ctr w11m.ctrUp (List.length (w11g true (zeros 40)).body) 40 = MsgVerdict.accept)
    ∧ (msgCheck (w11g true (zeros 40)).micOk (w11g true (zeros 40)).ctr w11m.ctrUp (List.length (w11g true (zeros 40)).body) 12 = MsgVerdict.discard)
    ∧ (w11m.waiting = some 0)
    ∧ (0 + (w11a.key (kRadio 5) + if w11m.sleepy = true then 60 else 0) * second ≤ w11a.time.mono)
    ∧ (w11m.repeatAt = some 0)
    ∧ (w11m.again = some (PKind.poll 0))
    ∧ (0 ≤ w11a.time.mono)
    ∧ (w11a.rpUp.contains w11m.port = true)
    ∧ (Option.filter (fun a => decide (chanOf a = 1)) (w11a.meterAddr (w11g false (zeros 40)).identity) = some 1030)
    ∧ (msgCheck (w11g false (zeros 40)).micOk (w11g false (zeros 40)).ctr w11m.ctrUp (List.length (w11g false (zeros 40)).body) 40 = MsgVerdict.reject)
    ∧ (Option.filter (fun a => decide (chanOf a = 1)) (w11a.meterAddr (w11g true (zeros 8)).identity) = some 1030)
    ∧ (msgCheck (w11g true (zeros 8)).micOk (w11g true (zeros 8)).ctr w11m.ctrUp (List.length (w11g true (zeros 8)).body) 40 = MsgVerdict.discard)
    ∧ (Option.filter (fun a => decide (chanOf a = 1)) (w11a.meterAddr (w11g true (zeros 12)).identity) = some 1030)
    ∧ (msgCheck (w11g true (zeros 12)).micOk (w11g true (zeros 12)).ctr w11m.ctrUp (List.length (w11g true (zeros 12)).body) 12 = MsgVerdict.accept)
    ∧ (Option.filter (fun a => decide (chanOf a = 1)) (w11a.meterAddr (w11g false (zeros 12)).identity) = some 1030)
    ∧ (msgCheck (w11g false (zeros 12)).micOk (w11g false (zeros 12)).ctr w11m.ctrUp (List.length (w11g false (zeros 12)).body) 12 = MsgVerdict.reject) := by
  refine ⟨?_, ?_, ?_, ?_, ?_, ?_, ?_, ?_, ?_, ?_, ?_, ?_, ?_, ?_, ?_, ?_, ?_, ?_, ?_, ?_, ?_, ?_, ?_, ?_, ?_, ?_, ?_, ?_, ?_⟩
  · decide +kernel
  · decide +kernel
  · decide +kernel
  · decide +kernel
  · decide +kernel
  · decide +kernel
  · decide +kernel
  · decide +kernel
  · decide +kernel
  · decide +kernel
  · decide +kernel
  · decide +kernel
  · decide +kernel
  · decide +kernel
  · rfl
  · decide +kernel
  · decide +kernel
  · decide +kernel
  · decide +kernel
  · decide +kernel
  · decide +kernel
  · decide +kernel
  · decide +kernel
  · decide +kernel
  · rfl
  · decide +kernel
  · decide +kernel
  · decide +kernel
  · decide +kernel

theorem test_hyps_RadioJoinRoundsAddMeters :
    ((w11r none).rpUp ≠ [])
    ∧ ((w11r none).radio.join = none)
    ∧ (∀ (t : ℕ), (w11r none).radio.lastJoin = some t → t + (w11r none).key (kRadio 6) * second ≤ (w11r none).time.mono)
    ∧ (Starts 2305 (wPk 2305 1 (zeros 8)) (w11r none) = true)
    ∧ (Block 8 [(0, 8)] (wPk 2305 1 (zeros 8)) = true)
    ∧ ((w11r (some (w11j 0 []))).radio.join = some (w11j 0 []))
    ∧ ((w11r (some (w11j 0 []))).joinEnd (w11j 0 []) ≤ (w11r (some (w11j 0 []))).time.mono)
    ∧ (Starts 2305 (wPk 2305 1 (zeros 8)) (w11r (some (w11j 0 []))) = true)
    ∧ ((w11r (some (w11j 0 []))).radio.join.isSome = true)
    ∧ ((w11r (some (w11j 0 [w11c]))).radio.join = some (w11j 0 [w11c]))
    ∧ (List.find? (fun x => x.identity == 77) (w11j 0 [w11c]).confirms = some w11c)
    ∧ (w11c.done = false)
    ∧ (w11c.tries < 4)
    ∧ (w11c.at_ + (w11r (some (w11j 0 [w11c]))).key (kRadio 5) * second ≤ (w11r (some (w11j 0 [w11c]))).time.mono)
    ∧ ((w11r (some (w11j (10 ^ 18) [w11c]))).radio.join = some (w11j (10 ^ 18) [w11c]))
    ∧ ((w11r (some (w11j (10 ^ 18) [w11c]))).time.mono < (w11r (some (w11j (10 ^ 18) [w11c]))).joinEnd (w11j (10 ^ 18) [w11c]))
    ∧ (List.find? (fun x => x.1 == 77) (w11j (10 ^ 18) [w11c]).answers = none)
    ∧ (Option.any (fun m => m.present && Option.any (fun a => chanOf a == 0) ((w11r (some (w11j (10 ^ 18) [w11c]))).meterAddr 77))
          (((w11r (some (w11j (10 ^ 18) [w11c]))).meterAddr 77).bind (w11r (some (w11j (10 ^ 18) [w11c]))).meter) =
        false)
    ∧ (List.find? (fun c => c.identity == fld (w11g true (leBytes 8 77 ++ zeros 4)).body 0 8 && !c.done) (w11j (10 ^ 18) [w11c]).confirms = some w11c)
    ∧ ((w11g true (leBytes 8 77 ++ zeros 4)).identity = w11c.identity)
    ∧ (msgCheck (w11g true (leBytes 8 77 ++ zeros 4)).micOk (w11g true (leBytes 8 77 ++ zeros 4)).ctr ((w11r (some (w11j (10 ^ 18) [w11c]))).idCtr w11c.identity).2
          (List.length (w11g true (leBytes 8 77 ++ zeros 4)).body) 12 =
        MsgVerdict.accept)
    ∧ ((w11n 3).radio.join = some { windowEnd := 10 ^ 18, answers := [(77, 3)] })
    ∧ ((w11n 3).time.mono < (w11n 3).joinEnd { windowEnd := 10 ^ 18, answers := [(77, 3)] })
    ∧ (List.find? (fun x => x.1 == 77) [(77, 3)] = some (77, 3))
    ∧ (3 = 3)
    ∧ ((w11n 4).radio.join = some { windowEnd := 10 ^ 18, answers := [(77, 4)] })
    ∧ ((w11n 4).time.mono < (w11n 4).joinEnd { windowEnd := 10 ^ 18, answers := [(77, 4)] })
    ∧ (List.find? (fun x => x.1 == 77) [(77, 4)] = some (77, 4))
    ∧ (4 ≠ 3)
    ∧ (Starts 2306 (wPk 2306 1 []) (w11r none) = true)
    ∧ (Block 0 [] (wPk 2306 1 []) = true) := by
  refine ⟨?_, ?_, ?_, ?_, ?_, ?_, ?_, ?_, ?_, ?_, ?_, ?_, ?_, ?_, ?_, ?_, ?_, ?_, ?_, ?_, ?_, ?_, ?_, ?_, ?_, ?_, ?_, ?_, ?_, ?_, ?_⟩
  · decide +kernel
  · decide +kernel
  · decide +kernel
  · exact starts_of (wPk_crc ..) (by decide +kernel)
  · decide +kernel
  · decide +kernel
  · decide +kernel
  · exact starts_of (wPk_crc ..) (by decide +kernel)
  · decide +kernel
  · decide +kernel
  · decide +kernel
  · decide +kernel
  · decide +kernel
  · decide +kernel
  · decide +kernel
  · decide +kernel
  · decide +kernel
  · decide +kernel
  · decide +kernel
  · decide +kernel
  · decide +kernel
  · decide +kernel
  · decide +kernel
  · decide +kernel
  · decide +kernel
  · decide +kernel
  · decide +kernel
  · decide +kernel
  · decide +kernel
  · exact starts_of (wPk_crc ..) (by decide +kernel)
  · decide +kernel

def w12l : Lane := { up := true, trained := true, peerRole := 3 }
def w12 (l : Ledger) : State := { wq with ledger := l, mortar.lane := [(0, w12l)], cfg.active := wKs.put (kLane 0 0) 3 }
def w12w (at_ : Nat) : MirrorWait := { seq := 4, stop := 2, at_ := at_, acks := [(9, 1)] }
def w12p (kind seq : Nat) (es : List Bytes) : Pallet :=
  { magic := 0x504C, version := 1, kind := kind, source := 9, dest := wq.kiln.devId, epoch := 1, entries := es.length, length := 48 + (es.flatMap id).length, seq := seq, tagOk := true, body := es.flatMap id }
def w12s : State := { w12 {} with kiln.role := .standbyRoot, mortar.stt := .alone }
def w12f : State := { wl with cfg.active := wKs.put (kMortar 0) 9 }
def w12o : State := { w12f with ledger := { openUp := [zeros 24], sent := [{ seq := 1, entries := [zeros 24], last := 0 }] } }
def w12r (st : Nat) : Rec := { identity := 77, state := st, lastEnd := 1700000, leaf := 5 }
def w12t (st : Nat) : State := w12 { recs := [(3, w12r st)] }
def w12m : State := { wl with ledger.meter := [(3, some { identity := 77 })] }
def w12x (id : Nat) (c : Bool) : Snap := { id := id, t := 1699990000 * second, device := 1023, auto := false, closed := c }
def w12y : State := w12 { snaps := [w12x 1 true, w12x 2 true, w12x 3 false] }
def w12z : LeafSnap := { id := 4, t := 1699990000 * second, late := false }
def w12j : Job := { id := 6, kind := 0, version := 1, activateAt := 0, expiry := 5, size := 4, slot := 0, data := [1, 2, 3, 4], targets := [{ identity := 77 }], bay := 1, role := .operator }
def w12u : State := w12 { recs := [(3, w12r 2)], jobs := [w12j] }
def w12k (st at_ : Nat) : LeafJob := { id := 6, kind := 0, activateAt := at_, targets := [{ identity := 77, state := st }] }
def w12v (j : LeafJob) : State := { wl with ledger.leafJobs := [j] }
def w12q (code bay mode kind size : Nat) (data : Bytes) : Packet := wBp code bay (leBytes 1 mode ++ leBytes 1 kind ++ zeros 22 ++ leBytes 4 size ++ zeros 4) data
def w12d (n : Nat) : BulkDesc := { kind := 0, dir := 0, length := n, address := 0, reservedOk := true }
def w12tu (st : Nat) : State := { w12t st with host.sess := [wSess 0 .utility] }
def w12ku : State := wPcie { w12u with host.sess := [wSess 0 .utility] }
def w12p0 : Pallet := { w12p 0 1 [] with version := 2 }
def w12p1 : Pallet := { w12p 1 1 [] with version := 2 }
def w12ls : State := { wl with ledger.leafSnaps := [w12z] }
def w12md : MirrorData := { recs := [], snaps := [], jobs := [], table := [], epoch := none }
def w12ya : State := w12 { snaps := [w12x 1 true, { w12x 3 false with auto := true }] }

theorem test_hyps_PalletsCarryTheLedger :
    (List.find? (fun x => x.seq == 4) (w12 { mirrorWait := [w12w 0] }).ledger.mirrorWait = some (w12w 0))
    ∧ (1000 < 2000)
    ∧ ((w12 { mirrorWait := [w12w 0] }).ledger.mirrorWait ≠ [])
    ∧ ((w12 { mirrorWait := [w12w 0] }).standbyLinked = true)
    ∧ ((w12 { }).ready 25 = true)
    ∧ ((w12 { }).isRoot = true)
    ∧ ((w12 { }).forMe (w12p 1 1 [zeros 24]).dest = true)
    ∧ (palletEntries 0 (w12p 1 1 [zeros 24]) = none)
    ∧ ((w12 { }).forMe (w12p 0 0 []).dest = true)
    ∧ (palletEntries 0 (w12p 0 0 []) = some [])
    ∧ ((w12p 0 0 []).seq ≤ ((w12 { }).srcSeq (w12p 0 0 []).source).base ∨ ((w12 { }).srcSeq (w12p 0 0 []).source).above.contains (w12p 0 0 []).seq = true)
    ∧ ((w12 { }).forMe (w12p 0 1 []).dest = true)
    ∧ (palletEntries 0 (w12p 0 1 []) = some [])
    ∧ (((w12 { }).srcSeq (w12p 0 1 []).source).base < (w12p 0 1 []).seq)
    ∧ (((w12 { }).srcSeq (w12p 0 1 []).source).above.contains (w12p 0 1 []).seq = false)
    ∧ (((w12 { }).ledger.mirrorWait.any fun w => w.acks.contains ((w12p 0 1 []).source, (w12p 0 1 []).seq)) = false)
    ∧ ((w12p 0 1 []).seq ≤ ((w12 { }).srcSeq (w12p 0 1 []).source).base + 4096)
    ∧ (100 * (List.map (fun w => w.acks.length) (w12 { }).ledger.mirrorWait).sum ≤ 90 * palletBuffer)
    ∧ ((w12 { }).forMe (w12p 0 5000 []).dest = true)
    ∧ (palletEntries 0 (w12p 0 5000 []) = some [])
    ∧ (((w12 { }).srcSeq (w12p 0 5000 []).source).base < (w12p 0 5000 []).seq)
    ∧ (((w12 { }).srcSeq (w12p 0 5000 []).source).above.contains (w12p 0 5000 []).seq = false)
    ∧ (((w12 { }).ledger.mirrorWait.any fun w => w.acks.contains ((w12p 0 5000 []).source, (w12p 0 5000 []).seq)) = false)
    ∧ (((w12 { }).srcSeq (w12p 0 5000 []).source).base + 4096 < (w12p 0 5000 []).seq ∨ 90 * palletBuffer < 100 * (List.map (fun w => w.acks.length) (w12 { }).ledger.mirrorWait).sum)
    ∧ (palletEntries 3 (w12p 3 1 []) = some [])
    ∧ (w12s.ready 25 = true)
    ∧ (w12s.kiln.role = DevRole.standbyRoot)
    ∧ (w12s.isRoot = false)
    ∧ (w12f.ready 25 = true)
    ∧ (w12f.kiln.role = DevRole.leaf)
    ∧ ((w12p 1 1 []).dest = w12f.kiln.devId ∨ (w12p 1 1 []).dest = 1023)
    ∧ (w12f.fromPair (w12p 1 1 []).source = true)
    ∧ (palletEntries 1 (w12p 1 1 []) = some [])
    ∧ (w12p1.dest = w12f.kiln.devId ∨ w12p1.dest = 1023)
    ∧ (w12f.fromPair w12p1.source = true)
    ∧ (palletEntries 1 w12p1 = none)
    ∧ (w12o.ledger.openUp ≠ [])
    ∧ (w12o.ledger.openSince + w12o.key (kLedger 4) * 1000000 ≤ w12o.time.mono)
    ∧ ((w12p 2 1 []).dest = w12f.kiln.devId)
    ∧ (w12f.kiln.role = DevRole.leaf → w12f.fromPair (w12p 2 1 []).source = true)
    ∧ (palletEntries 2 (w12p 2 1 []) = some []) := by
  refine ⟨?_, ?_, ?_, ?_, ?_, ?_, ?_, ?_, ?_, ?_, ?_, ?_, ?_, ?_, ?_, ?_, ?_, ?_, ?_, ?_, ?_, ?_, ?_, ?_, ?_, ?_, ?_, ?_, ?_, ?_, ?_, ?_, ?_, ?_, ?_, ?_, ?_, ?_, ?_, ?_, ?_⟩ <;> decide +kernel

theorem test_hyps_LedgerCommandsActOnRecords_1 :
    (Unshed false (wBk 2561 1 1 2048 (leBytes 8 0 ++ leBytes 8 0 ++ leBytes 4 2 ++ zeros 4)) wq = true)
    ∧ (Starts 2561 (wBk 2561 1 1 2048 (leBytes 8 0 ++ leBytes 8 0 ++ leBytes 4 2 ++ zeros 4)) wq = true)
    ∧ (BulkBlock 1 24 [(1, 7), (20, 4)] (wBk 2561 1 1 2048 (leBytes 8 0 ++ leBytes 8 0 ++ leBytes 4 2 ++ zeros 4)) = true)
    ∧ (1 ≤ fld (wBk 2561 1 1 2048 (leBytes 8 0 ++ leBytes 8 0 ++ leBytes 4 2 ++ zeros 4)).params 16 4)
    ∧ (fld (wBk 2561 1 1 2048 (leBytes 8 0 ++ leBytes 8 0 ++ leBytes 4 2 ++ zeros 4)).params 16 4 ≤ 65536)
    ∧ (fld (wBk 2561 1 1 2048 (leBytes 8 0 ++ leBytes 8 0 ++ leBytes 4 2 ++ zeros 4)).params 0 1 = 0)
    ∧ (Unshed false (wBk 2561 1 1 2048 (leBytes 8 1 ++ leBytes 8 77 ++ leBytes 4 2 ++ zeros 4)) (w12t 2) = true)
    ∧ (Starts 2561 (wBk 2561 1 1 2048 (leBytes 8 1 ++ leBytes 8 77 ++ leBytes 4 2 ++ zeros 4)) (w12t 2) = true)
    ∧ (BulkBlock 1 24 [(1, 7), (20, 4)] (wBk 2561 1 1 2048 (leBytes 8 1 ++ leBytes 8 77 ++ leBytes 4 2 ++ zeros 4)) = true)
    ∧ (1 ≤ fld (wBk 2561 1 1 2048 (leBytes 8 1 ++ leBytes 8 77 ++ leBytes 4 2 ++ zeros 4)).params 16 4)
    ∧ (fld (wBk 2561 1 1 2048 (leBytes 8 1 ++ leBytes 8 77 ++ leBytes 4 2 ++ zeros 4)).params 16 4 ≤ 65536)
    ∧ (fld (wBk 2561 1 1 2048 (leBytes 8 1 ++ leBytes 8 77 ++ leBytes 4 2 ++ zeros 4)).params 0 1 = 1)
    ∧ ((w12t 2).anyIndex (fld (wBk 2561 1 1 2048 (leBytes 8 1 ++ leBytes 8 77 ++ leBytes 4 2 ++ zeros 4)).params 8 8) = some 3)
    ∧ (Unshed false (wBk 2561 1 1 2048 (leBytes 8 2 ++ leBytes 8 77 ++ leBytes 4 2 ++ zeros 4)) (w12t 2) = true)
    ∧ (Starts 2561 (wBk 2561 1 1 2048 (leBytes 8 2 ++ leBytes 8 77 ++ leBytes 4 2 ++ zeros 4)) (w12t 2) = true)
    ∧ (BulkBlock 1 24 [(1, 7), (20, 4)] (wBk 2561 1 1 2048 (leBytes 8 2 ++ leBytes 8 77 ++ leBytes 4 2 ++ zeros 4)) = true)
    ∧ (1 ≤ fld (wBk 2561 1 1 2048 (leBytes 8 2 ++ leBytes 8 77 ++ leBytes 4 2 ++ zeros 4)).params 16 4)
    ∧ (fld (wBk 2561 1 1 2048 (leBytes 8 2 ++ leBytes 8 77 ++ leBytes 4 2 ++ zeros 4)).params 16 4 ≤ 65536)
    ∧ (fld (wBk 2561 1 1 2048 (leBytes 8 2 ++ leBytes 8 77 ++ leBytes 4 2 ++ zeros 4)).params 0 1 = 2)
    ∧ (Unshed false (wPk 2562 0 (leBytes 4 3 ++ leBytes 4 1700000 ++ zeros 16)) (w12tu 2) = true)
    ∧ (Starts 2562 (wPk 2562 0 (leBytes 4 3 ++ leBytes 4 1700000 ++ zeros 16)) (w12tu 2) = true)
    ∧ (Block 24 [(16, 8)] (wPk 2562 0 (leBytes 4 3 ++ leBytes 4 1700000 ++ zeros 16)) = true)
    ∧ (((w12tu 2).record (fld (wPk 2562 0 (leBytes 4 3 ++ leBytes 4 1700000 ++ zeros 16)).params 0 4)).state ≠ 0)
    ∧ (((w12tu 2).record (fld (wPk 2562 0 (leBytes 4 3 ++ leBytes 4 1700000 ++ zeros 16)).params 0 4)).lastEnd ≠ 0)
    ∧ (fld (wPk 2562 0 (leBytes 4 3 ++ leBytes 4 1700000 ++ zeros 16)).params 4 4 ≤ ((w12tu 2).record (fld (wPk 2562 0 (leBytes 4 3 ++ leBytes 4 1700000 ++ zeros 16)).params 0 4)).lastEnd)
    ∧ ((((w12tu 2).record (fld (wPk 2562 0 (leBytes 4 3 ++ leBytes 4 1700000 ++ zeros 16)).params 0 4)).lastEnd - fld (wPk 2562 0 (leBytes 4 3 ++ leBytes 4 1700000 ++ zeros 16)).params 4 4) %
          (w12tu 2).interval =
        0)
    ∧ ((((w12tu 2).record (fld (wPk 2562 0 (leBytes 4 3 ++ leBytes 4 1700000 ++ zeros 16)).params 0 4)).lastEnd - fld (wPk 2562 0 (leBytes 4 3 ++ leBytes 4 1700000 ++ zeros 16)).params 4 4) /
          (w12tu 2).interval <
        112)
    ∧ (Unshed false (wPk 2563 0 (leBytes 8 77 ++ zeros 8)) (w12tu 5) = true)
    ∧ (Starts 2563 (wPk 2563 0 (leBytes 8 77 ++ zeros 8)) (w12tu 5) = true)
    ∧ (Block 16 [(10, 6)] (wPk 2563 0 (leBytes 8 77 ++ zeros 8)) = true) := by
  refine ⟨?_, ?_, ?_, ?_, ?_, ?_, ?_, ?_, ?_, ?_, ?_, ?_, ?_, ?_, ?_, ?_, ?_, ?_, ?_, ?_, ?_, ?_, ?_, ?_, ?_, ?_, ?_, ?_, ?_, ?_⟩
  · decide +kernel
  · exact starts_of (wBk_crc ..) (by decide +kernel)
  · decide +kernel
  · decide +kernel
  · decide +kernel
  · decide +kernel
  · decide +kernel
  · exact starts_of (wBk_crc ..) (by decide +kernel)
  · decide +kernel
  · decide +kernel
  · decide +kernel
  · decide +kernel
  · decide +kernel
  · decide +kernel
  · exact starts_of (wBk_crc ..) (by decide +kernel)
  · decide +kernel
  · decide +kernel
  · decide +kernel
  · decide +kernel
  · decide +kernel
  · exact starts_of (wPk_crc ..) (by decide +kernel)
  · decide +kernel
  · decide +kernel
  · decide +kernel
  · decide +kernel
  · decide +kernel
  · decide +kernel
  · decide +kernel
  · exact starts_of (wPk_crc ..) (by decide +kernel)
  · decide +kernel

theorem test_hyps_LedgerCommandsActOnRecords_2 :
    ((w12tu 5).recIndex (fld (wPk 2563 0 (leBytes 8 77 ++ zeros 8)).params 0 8) = some 3)
    ∧ (((w12tu 5).record 3).state = 5)
    ∧ (Unshed false (wPk 2563 0 (leBytes 8 77 ++ zeros 8)) (w12tu 2) = true)
    ∧ (Starts 2563 (wPk 2563 0 (leBytes 8 77 ++ zeros 8)) (w12tu 2) = true)
    ∧ ((w12tu 2).recIndex (fld (wPk 2563 0 (leBytes 8 77 ++ zeros 8)).params 0 8) = some 3)
    ∧ (((w12tu 2).record 3).state ≠ 5)
    ∧ (Unshed false (wPk 2564 0 (leBytes 8 78 ++ zeros 32)) (w12tu 2) = true)
    ∧ (Starts 2564 (wPk 2564 0 (leBytes 8 78 ++ zeros 32)) (w12tu 2) = true)
    ∧ (Block 40 [(38, 2)] (wPk 2564 0 (leBytes 8 78 ++ zeros 32)) = true)
    ∧ ((w12tu 2).recIndex (fld (wPk 2564 0 (leBytes 8 78 ++ zeros 32)).params 0 8) = none)
    ∧ (fld (wPk 2564 0 (leBytes 8 78 ++ zeros 32)).params 36 1 ≤ 15 ∨ fld (wPk 2564 0 (leBytes 8 78 ++ zeros 32)).params 36 1 = 255)
    ∧ (fld (wPk 2564 0 (leBytes 8 78 ++ zeros 32)).params 37 1 ≤ 1)
    ∧ (lowestFree (w12tu 2).ledger.recs 0 < recordCount)
    ∧ ((w12tu 2).store.lostKeys.contains SealedKind.recordKey = false)
    ∧ (Unshed false (wPk 2565 1 (leBytes 8 77 ++ zeros 8)) (w12t 2) = true)
    ∧ (Starts 2565 (wPk 2565 1 (leBytes 8 77 ++ zeros 8)) (w12t 2) = true)
    ∧ (Block 16 [(10, 6)] (wPk 2565 1 (leBytes 8 77 ++ zeros 8)) = true)
    ∧ (fld (wPk 2565 1 (leBytes 8 77 ++ zeros 8)).params 8 1 ≤ 15 ∨ fld (wPk 2565 1 (leBytes 8 77 ++ zeros 8)).params 8 1 = 255)
    ∧ (fld (wPk 2565 1 (leBytes 8 77 ++ zeros 8)).params 9 1 ≤ 1)
    ∧ ((w12t 2).recIndex (fld (wPk 2565 1 (leBytes 8 77 ++ zeros 8)).params 0 8) = some 3)
    ∧ (Unshed false (wPk 2567 0 (leBytes 8 77 ++ zeros 8)) (w12tu 2) = true)
    ∧ (Starts 2567 (wPk 2567 0 (leBytes 8 77 ++ zeros 8)) (w12tu 2) = true)
    ∧ (Block 16 [(8, 8)] (wPk 2567 0 (leBytes 8 77 ++ zeros 8)) = true)
    ∧ ((w12tu 2).recIndex (fld (wPk 2567 0 (leBytes 8 77 ++ zeros 8)).params 0 8) = some 3)
    ∧ (Unshed false (wPk 2566 1 []) wr = true)
    ∧ (Starts 2566 (wPk 2566 1 []) wr = true)
    ∧ (Block 0 [] (wPk 2566 1 []) = true) := by
  refine ⟨?_, ?_, ?_, ?_, ?_, ?_, ?_, ?_, ?_, ?_, ?_, ?_, ?_, ?_, ?_, ?_, ?_, ?_, ?_, ?_, ?_, ?_, ?_, ?_, ?_, ?_, ?_⟩
  · decide +kernel
  · decide +kernel
  · decide +kernel
  · exact starts_of (wPk_crc ..) (by decide +kernel)
  · decide +kernel
  · decide +kernel
  · decide +kernel
  · exact starts_of (wPk_crc ..) (by decide +kernel)
  · decide +kernel
  · decide +kernel
  · decide +kernel
  · decide +kernel
  · decide +kernel
  · decide +kernel
  · decide +kernel
  · exact starts_of (wPk_crc ..) (by decide +kernel)
  · decide +kernel
  · decide +kernel
  · decide +kernel
  · decide +kernel
  · decide +kernel
  · exact starts_of (wPk_crc ..) (by decide +kernel)
  · decide +kernel
  · decide +kernel
  · decide +kernel
  · exact starts_of (wPk_crc ..) (by decide +kernel)
  · decide +kernel

theorem test_hyps_SnapshotsAndPushes_1 :
    (Unshed false (wPk 2576 1 (leBytes 8 (1699999300 * second) ++ leBytes 2 1023 ++ zeros 6)) w12y = true)
    ∧ (Starts 2576 (wPk 2576 1 (leBytes 8 (1699999300 * second) ++ leBytes 2 1023 ++ zeros 6)) w12y = true)
    ∧ (Block 16 [(11, 5)] (wPk 2576 1 (leBytes 8 (1699999300 * second) ++ leBytes 2 1023 ++ zeros 6)) = true)
    ∧ (w12y.time.valid = true)
    ∧ (w12y.nowNs + w12y.key (kLedger 7) * 1000000 ≤ fld (wPk 2576 1 (leBytes 8 (1699999300 * second) ++ leBytes 2 1023 ++ zeros 6)).params 0 8)
    ∧ (fld (wPk 2576 1 (leBytes 8 (1699999300 * second) ++ leBytes 2 1023 ++ zeros 6)).params 0 8 ≤ w12y.nowNs + 86400 * second)
    ∧ (fld (wPk 2576 1 (leBytes 8 (1699999300 * second) ++ leBytes 2 1023 ++ zeros 6)).params 8 2 ≤ 1023)
    ∧ (fld (wPk 2576 1 (leBytes 8 (1699999300 * second) ++ leBytes 2 1023 ++ zeros 6)).params 10 1 ≤ 1)
    ∧ ((List.filter (fun x => !x.closed) w12y.ledger.snaps).length < 6)
    ∧ (w12y.snapRoom = some w12y.ledger.snaps)
    ∧ (Unshed false (wPk 2578 1 (leBytes 2 1 ++ leBytes 2 5 ++ leBytes 1 0 ++ leBytes 1 1 ++ zeros 34)) w12y = true)
    ∧ (Starts 2578 (wPk 2578 1 (leBytes 2 1 ++ leBytes 2 5 ++ leBytes 1 0 ++ leBytes 1 1 ++ zeros 34)) w12y = true)
    ∧ (Block 40 [(6, 2)] (wPk 2578 1 (leBytes 2 1 ++ leBytes 2 5 ++ leBytes 1 0 ++ leBytes 1 1 ++ zeros 34)) = true)
    ∧ (fld (wPk 2578 1 (leBytes 2 1 ++ leBytes 2 5 ++ leBytes 1 0 ++ leBytes 1 1 ++ zeros 34)).params 0 2 ≤ 16383)
    ∧ (fld (wPk 2578 1 (leBytes 2 1 ++ leBytes 2 5 ++ leBytes 1 0 ++ leBytes 1 1 ++ zeros 34)).params 2 2 ≤ 1022)
    ∧ (fld (wPk 2578 1 (leBytes 2 1 ++ leBytes 2 5 ++ leBytes 1 0 ++ leBytes 1 1 ++ zeros 34)).params 4 1 ≤ 15)
    ∧ (1 ≤ fld (wPk 2578 1 (leBytes 2 1 ++ leBytes 2 5 ++ leBytes 1 0 ++ leBytes 1 1 ++ zeros 34)).params 5 1)
    ∧ (fld (wPk 2578 1 (leBytes 2 1 ++ leBytes 2 5 ++ leBytes 1 0 ++ leBytes 1 1 ++ zeros 34)).params 5 1 ≤ 16)
    ∧ (w12y.kiln.role = DevRole.root)
    ∧ (w12y.ready 25 = true)
    ∧ (w12y.ledger.scoreDay < w12y.utcNs / (86400 * second))
    ∧ (w12y.shed 1 = false)
    ∧ (Unshed false (wBk 2577 1 1 144 (leBytes 4 1 ++ leBytes 4 2 ++ leBytes 2 65535 ++ zeros 6)) w12y = true)
    ∧ (Starts 2577 (wBk 2577 1 1 144 (leBytes 4 1 ++ leBytes 4 2 ++ leBytes 2 65535 ++ zeros 6)) w12y = true)
    ∧ (BulkBlock 1 16 [(12, 4)] (wBk 2577 1 1 144 (leBytes 4 1 ++ leBytes 4 2 ++ leBytes 2 65535 ++ zeros 6)) = true)
    ∧ (w12y.snap (fld (wBk 2577 1 1 144 (leBytes 4 1 ++ leBytes 4 2 ++ leBytes 2 65535 ++ zeros 6)).params 0 4) = some (w12x 1 true))
    ∧ ((w12x 1 true).closed = true)
    ∧ (w12y.snap (fld (wBk 2577 1 1 144 (leBytes 4 1 ++ leBytes 4 2 ++ leBytes 2 65535 ++ zeros 6)).params 4 4) = some (w12x 2 true))
    ∧ ((w12x 2 true).closed = true)
    ∧ (Unshed false (wBk 2579 1 1 144 (leBytes 4 1 ++ zeros 4 ++ leBytes 4 0 ++ leBytes 4 5)) w12y = true) := by
  refine ⟨?_, ?_, ?_, ?_, ?_, ?_, ?_, ?_, ?_, ?_, ?_, ?_, ?_, ?_, ?_, ?_, ?_, ?_, ?_, ?_, ?_, ?_, ?_, ?_, ?_, ?_, ?_, ?_, ?_, ?_⟩
  · decide +kernel
  · exact starts_of (wPk_crc ..) (by decide +kernel)
  · decide +kernel
  · decide +kernel
  · decide +kernel
  · decide +kernel
  · decide +kernel
  · decide +kernel
  · decide +kernel
  · decide +kernel
  · decide +kernel
  · exact starts_of (wPk_crc ..) (by decide +kernel)
  · decide +kernel
  · decide +kernel
  · decide +kernel
  · decide +kernel
  · decide +kernel
  · decide +kernel
  · decide +kernel
  · decide +kernel
  · decide +kernel
  · decide +kernel
  · decide +kernel
  · exact starts_of (wBk_crc ..) (by decide +kernel)
  · decide +kernel
  · decide +kernel
  · decide +kernel
  · decide +kernel
  · decide +kernel
  · decide +kernel

theorem test_hyps_SnapshotsAndPushes_2 :
    (Starts 2579 (wBk 2579 1 1 144 (leBytes 4 1 ++ zeros 4 ++ leBytes 4 0 ++ leBytes 4 5)) w12y = true)
    ∧ (BulkBlock 1 16 [(4, 4)] (wBk 2579 1 1 144 (leBytes 4 1 ++ zeros 4 ++ leBytes 4 0 ++ leBytes 4 5)) = true)
    ∧ (w12y.snap (fld (wBk 2579 1 1 144 (leBytes 4 1 ++ zeros 4 ++ leBytes 4 0 ++ leBytes 4 5)).params 0 4) = some (w12x 1 true))
    ∧ (w12ls.kiln.role = DevRole.leaf)
    ∧ (w12ls.ready 25 = true)
    ∧ (List.find? (fun x => x.id == 4) w12ls.ledger.leafSnaps = some w12z)
    ∧ (w12y.snap 3 = some (w12x 3 false))
    ∧ ((w12x 3 false).closed = false)
    ∧ ((w12x 3 false).timedOut = false)
    ∧ ((w12x 3 false).t + w12y.key (kLedger 8) * second ≤ w12y.nowNs)
    ∧ ((w12x 3 false).t + w12y.key (kLedger 9) * second ≤ w12y.nowNs)
    ∧ ((w12x 3 false).auto = false)
    ∧ (w12ya.snap 3 =
        some
          { id := (w12x 3 false).id, t := (w12x 3 false).t, device := (w12x 3 false).device, auto := true, closed := (w12x 3 false).closed, timedOut := (w12x 3 false).timedOut,
            missed := (w12x 3 false).missed, vals := (w12x 3 false).vals, mps := (w12x 3 false).mps })
    ∧ ((w12x 3 false).t + w12ya.key (kLedger 9) * second ≤ w12ya.nowNs)
    ∧ (true = true)
    ∧ (2592 ∈ [2592, 2593, 2594])
    ∧ (Unshed true (w12q 2592 1 1 0 4 [1, 2, 3, 4]) (wPcie w12u) = true)
    ∧ (Starts 2592 (w12q 2592 1 1 0 4 [1, 2, 3, 4]) (wPcie w12u) = true)
    ∧ (BulkBlock 0 32 [(29, 3)] (w12q 2592 1 1 0 4 [1, 2, 3, 4]) = true)
    ∧ ((w12q 2592 1 1 0 4 [1, 2, 3, 4]).desc = some (w12d 4))
    ∧ ((w12d 4).kind = 0)
    ∧ (fld (w12q 2592 1 1 0 4 [1, 2, 3, 4]).params 0 1 ≤ 2)
    ∧ (pushKindOk 2592 (fld (w12q 2592 1 1 0 4 [1, 2, 3, 4]).params 1 1) = true)
    ∧ (fld (w12q 2592 1 1 0 4 [1, 2, 3, 4]).params 24 4 ≤ List.length (fitBytes (w12d 4).length (w12q 2592 1 1 0 4 [1, 2, 3, 4]).bulk))
    ∧ (fld (w12q 2592 1 1 0 4 [1, 2, 3, 4]).params 0 1 ≠ 0 → List.length (fitBytes (w12d 4).length (w12q 2592 1 1 0 4 [1, 2, 3, 4]).bulk) = fld (w12q 2592 1 1 0 4 [1, 2, 3, 4]).params 24 4)
    ∧ (if fld (w12q 2592 1 1 0 4 [1, 2, 3, 4]).params 1 1 = 1 then fld (w12q 2592 1 1 0 4 [1, 2, 3, 4]).params 28 1 ≤ 7 else fld (w12q 2592 1 1 0 4 [1, 2, 3, 4]).params 28 1 = 0)
    ∧ ((wPcie w12u).pushTargets (fld (w12q 2592 1 1 0 4 [1, 2, 3, 4]).params 0 1) (fld (w12q 2592 1 1 0 4 [1, 2, 3, 4]).params 2 2)
          (List.take (List.length (fitBytes (w12d 4).length (w12q 2592 1 1 0 4 [1, 2, 3, 4]).bulk) - fld (w12q 2592 1 1 0 4 [1, 2, 3, 4]).params 24 4)
            (fitBytes (w12d 4).length (w12q 2592 1 1 0 4 [1, 2, 3, 4]).bulk)) =
        some [77])
    ∧ (pushSizeOk (fld (w12q 2592 1 1 0 4 [1, 2, 3, 4]).params 1 1) (fld (w12q 2592 1 1 0 4 [1, 2, 3, 4]).params 24 4) [77].length = true)
    ∧ ((List.filter Job.live (wPcie w12u).ledger.jobs).length < 16)
    ∧ (2 ≤ fld (w12q 2592 1 1 0 4 [1, 2, 3, 4]).params 1 1 → (wPcie w12u).store.ro.contains 2 = false) := by
  refine ⟨?_, ?_, ?_, ?_, ?_, ?_, ?_, ?_, ?_, ?_, ?_, ?_, ?_, ?_, ?_, ?_, ?_, ?_, ?_, ?_, ?_, ?_, ?_, ?_, ?_, ?_, ?_, ?_, ?_, ?_⟩
  · exact starts_of (wBk_crc ..) (by decide +kernel)
  · decide +kernel
  · decide +kernel
  · decide +kernel
  · decide +kernel
  · decide +kernel
  · decide +kernel
  · decide +kernel
  · decide +kernel
  · decide +kernel
  · decide +kernel
  · decide +kernel
  · decide +kernel
  · decide +kernel
  · decide +kernel
  · decide +kernel
  · decide +kernel
  · exact starts_of (wBp_crc ..) (by decide +kernel)
  · decide +kernel
  · decide +kernel
  · decide +kernel
  · decide +kernel
  · decide +kernel
  · decide +kernel
  · decide +kernel
  · decide +kernel
  · decide +kernel
  · decide +kernel
  · decide +kernel
  · decide +kernel

theorem test_hyps_SnapshotsAndPushes_3 :
    (fld (w12q 2592 1 1 0 4 [1, 2, 3, 4]).params 1 1 = 1 → (wPcie w12u).ready 3 = true ∧ (wPcie w12u).sectorsBad (imageSectors (fld (w12q 2592 1 1 0 4 [1, 2, 3, 4]).params 28 1)) = false)
    ∧ (2592 = 2592)
    ∧ (2593 ∈ [2592, 2593, 2594])
    ∧ (Unshed true (w12q 2593 1 1 1 4 [1, 2, 3, 4]) (wPcie w12u) = true)
    ∧ (Starts 2593 (w12q 2593 1 1 1 4 [1, 2, 3, 4]) (wPcie w12u) = true)
    ∧ (BulkBlock 0 32 [(29, 3)] (w12q 2593 1 1 1 4 [1, 2, 3, 4]) = true)
    ∧ ((w12q 2593 1 1 1 4 [1, 2, 3, 4]).desc = some (w12d 4))
    ∧ (fld (w12q 2593 1 1 1 4 [1, 2, 3, 4]).params 0 1 ≤ 2)
    ∧ (pushKindOk 2593 (fld (w12q 2593 1 1 1 4 [1, 2, 3, 4]).params 1 1) = true)
    ∧ (fld (w12q 2593 1 1 1 4 [1, 2, 3, 4]).params 24 4 ≤ List.length (fitBytes (w12d 4).length (w12q 2593 1 1 1 4 [1, 2, 3, 4]).bulk))
    ∧ (fld (w12q 2593 1 1 1 4 [1, 2, 3, 4]).params 0 1 ≠ 0 → List.length (fitBytes (w12d 4).length (w12q 2593 1 1 1 4 [1, 2, 3, 4]).bulk) = fld (w12q 2593 1 1 1 4 [1, 2, 3, 4]).params 24 4)
    ∧ (if fld (w12q 2593 1 1 1 4 [1, 2, 3, 4]).params 1 1 = 1 then fld (w12q 2593 1 1 1 4 [1, 2, 3, 4]).params 28 1 ≤ 7 else fld (w12q 2593 1 1 1 4 [1, 2, 3, 4]).params 28 1 = 0)
    ∧ ((wPcie w12u).pushTargets (fld (w12q 2593 1 1 1 4 [1, 2, 3, 4]).params 0 1) (fld (w12q 2593 1 1 1 4 [1, 2, 3, 4]).params 2 2)
          (List.take (List.length (fitBytes (w12d 4).length (w12q 2593 1 1 1 4 [1, 2, 3, 4]).bulk) - fld (w12q 2593 1 1 1 4 [1, 2, 3, 4]).params 24 4)
            (fitBytes (w12d 4).length (w12q 2593 1 1 1 4 [1, 2, 3, 4]).bulk)) =
        some [77])
    ∧ (pushSizeOk (fld (w12q 2593 1 1 1 4 [1, 2, 3, 4]).params 1 1) (fld (w12q 2593 1 1 1 4 [1, 2, 3, 4]).params 24 4) [77].length = true)
    ∧ (2 ≤ fld (w12q 2593 1 1 1 4 [1, 2, 3, 4]).params 1 1 → (wPcie w12u).store.ro.contains 2 = false)
    ∧ (fld (w12q 2593 1 1 1 4 [1, 2, 3, 4]).params 1 1 = 1 → (wPcie w12u).ready 3 = true ∧ (wPcie w12u).sectorsBad (imageSectors (fld (w12q 2593 1 1 1 4 [1, 2, 3, 4]).params 28 1)) = false)
    ∧ (2593 = 2593)
    ∧ (2594 ∈ [2592, 2593, 2594])
    ∧ (Unshed true (w12q 2594 0 1 3 16 (zeros 16)) w12ku = true)
    ∧ (Starts 2594 (w12q 2594 0 1 3 16 (zeros 16)) w12ku = true)
    ∧ (BulkBlock 0 32 [(29, 3)] (w12q 2594 0 1 3 16 (zeros 16)) = true)
    ∧ ((w12q 2594 0 1 3 16 (zeros 16)).desc = some (w12d 16))
    ∧ ((w12d 16).kind = 0)
    ∧ (fld (w12q 2594 0 1 3 16 (zeros 16)).params 0 1 ≤ 2)
    ∧ (pushKindOk 2594 (fld (w12q 2594 0 1 3 16 (zeros 16)).params 1 1) = true)
    ∧ (fld (w12q 2594 0 1 3 16 (zeros 16)).params 24 4 ≤ List.length (fitBytes (w12d 16).length (w12q 2594 0 1 3 16 (zeros 16)).bulk))
    ∧ (fld (w12q 2594 0 1 3 16 (zeros 16)).params 0 1 ≠ 0 → List.length (fitBytes (w12d 16).length (w12q 2594 0 1 3 16 (zeros 16)).bulk) = fld (w12q 2594 0 1 3 16 (zeros 16)).params 24 4)
    ∧ (if fld (w12q 2594 0 1 3 16 (zeros 16)).params 1 1 = 1 then fld (w12q 2594 0 1 3 16 (zeros 16)).params 28 1 ≤ 7 else fld (w12q 2594 0 1 3 16 (zeros 16)).params 28 1 = 0)
    ∧ (w12ku.pushTargets (fld (w12q 2594 0 1 3 16 (zeros 16)).params 0 1) (fld (w12q 2594 0 1 3 16 (zeros 16)).params 2 2)
          (List.take (List.length (fitBytes (w12d 16).length (w12q 2594 0 1 3 16 (zeros 16)).bulk) - fld (w12q 2594 0 1 3 16 (zeros 16)).params 24 4)
            (fitBytes (w12d 16).length (w12q 2594 0 1 3 16 (zeros 16)).bulk)) =
        some [77])
    ∧ (pushSizeOk (fld (w12q 2594 0 1 3 16 (zeros 16)).params 1 1) (fld (w12q 2594 0 1 3 16 (zeros 16)).params 24 4) [77].length = true) := by
  refine ⟨?_, ?_, ?_, ?_, ?_, ?_, ?_, ?_, ?_, ?_, ?_, ?_, ?_, ?_, ?_, ?_, ?_, ?_, ?_, ?_, ?_, ?_, ?_, ?_, ?_, ?_, ?_, ?_, ?_, ?_⟩
  · decide +kernel
  · decide +kernel
  · decide +kernel
  · decide +kernel
  · exact starts_of (wBp_crc ..) (by decide +kernel)
  · decide +kernel
  · decide +kernel
  · decide +kernel
  · decide +kernel
  · decide +kernel
  · decide +kernel
  · decide +kernel
  · decide +kernel
  · decide +kernel
  · decide +kernel
  · decide +kernel
  · decide +kernel
  · decide +kernel
  · decide +kernel
  · exact starts_of (wBp_crc ..) (by decide +kernel)
  · decide +kernel
  · decide +kernel
  · decide +kernel
  · decide +kernel
  · decide +kernel
  · decide +kernel
  · decide +kernel
  · decide +kernel
  · decide +kernel
  · decide +kernel

theorem test_hyps_SnapshotsAndPushes_4 :
    ((List.filter Job.live w12ku.ledger.jobs).length < 16)
    ∧ (2 ≤ fld (w12q 2594 0 1 3 16 (zeros 16)).params 1 1 → w12ku.store.ro.contains 2 = false)
    ∧ (fld (w12q 2594 0 1 3 16 (zeros 16)).params 1 1 = 1 → w12ku.ready 3 = true ∧ w12ku.sectorsBad (imageSectors (fld (w12q 2594 0 1 3 16 (zeros 16)).params 28 1)) = false)
    ∧ (2594 = 2594)
    ∧ (Unshed false (wPk 2600 1 (leBytes 4 6 ++ [255, 0, 0, 0])) w12u = true)
    ∧ (List.find? (fun x => x.id == fld (wPk 2600 1 (leBytes 4 6 ++ [255, 0, 0, 0])).params 0 4) w12u.ledger.jobs = some w12j)
    ∧ (Starts 2600 (wPk 2600 1 (leBytes 4 6 ++ [255, 0, 0, 0])) w12u = true)
    ∧ (fld (wPk 2600 1 (leBytes 4 6 ++ [255, 0, 0, 0])).params 4 1 = 255)
    ∧ (Block 8 [(5, 3)] (wPk 2600 1 (leBytes 4 6 ++ [255, 0, 0, 0])) = true)
    ∧ (Unshed false (wBk 2600 1 1 64 (leBytes 4 6 ++ [1, 0, 0, 0])) w12u = true)
    ∧ (List.find? (fun x => x.id == fld (wBk 2600 1 1 64 (leBytes 4 6 ++ [1, 0, 0, 0])).params 0 4) w12u.ledger.jobs = some w12j)
    ∧ (Starts 2600 (wBk 2600 1 1 64 (leBytes 4 6 ++ [1, 0, 0, 0])) w12u = true)
    ∧ (fld (wBk 2600 1 1 64 (leBytes 4 6 ++ [1, 0, 0, 0])).params 4 1 ≤ 7)
    ∧ (BulkBlock 1 8 [(5, 3)] (wBk 2600 1 1 64 (leBytes 4 6 ++ [1, 0, 0, 0])) = true)
    ∧ (Unshed false (wPk 2601 1 (leBytes 8 6)) w12u = true)
    ∧ (List.find? (fun x => x.id == fld (wPk 2601 1 (leBytes 8 6)).params 0 4) w12u.ledger.jobs = some w12j)
    ∧ (Starts 2601 (wPk 2601 1 (leBytes 8 6)) w12u = true)
    ∧ (Block 8 [(4, 4)] (wPk 2601 1 (leBytes 8 6)) = true)
    ∧ (w12j.live = true)
    ∧ ((wPk 2601 1 (leBytes 8 6)).bay = w12j.bay)
    ∧ (((w12u.touch (wPk 2601 1 (leBytes 8 6))).ctx (wPk 2601 1 (leBytes 8 6))).role = w12j.role)
    ∧ (List.find? (fun x => x.id == 6) w12u.ledger.jobs = some w12j)
    ∧ (w12u.time.valid = true)
    ∧ (w12j.expiry ≤ w12u.nowNs)
    ∧ ((w12v (w12k 3 0)).leafJob 6 = some (w12k 3 0))
    ∧ ((w12k 3 0).installed = false)
    ∧ (if (w12k 3 0).activateAt = 0 then ∀ t ∈ (w12k 3 0).targets, 3 ≤ t.state else (w12v (w12k 3 0)).time.valid = true ∧ (w12k 3 0).activateAt ≤ (w12v (w12k 3 0)).nowNs) := by
  refine ⟨?_, ?_, ?_, ?_, ?_, ?_, ?_, ?_, ?_, ?_, ?_, ?_, ?_, ?_, ?_, ?_, ?_, ?_, ?_, ?_, ?_, ?_, ?_, ?_, ?_, ?_, ?_⟩
  · decide +kernel
  · decide +kernel
  · decide +kernel
  · decide +kernel
  · decide +kernel
  · decide +kernel
  · exact starts_of (wPk_crc ..) (by decide +kernel)
  · decide +kernel
  · decide +kernel
  · decide +kernel
  · decide +kernel
  · exact starts_of (wBk_crc ..) (by decide +kernel)
  · decide +kernel
  · decide +kernel
  · decide +kernel
  · decide +kernel
  · exact starts_of (wPk_crc ..) (by decide +kernel)
  · decide +kernel
  · decide +kernel
  · decide +kernel
  · decide +kernel
  · decide +kernel
  · decide +kernel
  · decide +kernel
  · decide +kernel
  · decide +kernel
  · decide +kernel

def w13l (role md : Nat) (l : Lane) : State := { wl with kiln.role := if role = 2 then .root else .leaf, mortar := { stt := if role = 2 then .root else .member, activeUp := if role = 2 then none else some 0, lane := [(0, l)] }, cfg.active := wKs.put (kLane 0 0) md }
def w13u : Lane := { up := true, trained := true }
def w13h : Hello := { devId := 9, role := 1, hops := 1, epoch := 1, rootId := 5, activeUp := 0xFFFF, rootSeq := 4, flags := 1, lane := 0 }
def w13g (k : Nat) (last : Bool) (p : Option Pallet) : Segment := { cls := 0, kind := k, index := 0, last := last, hops := 3, data := zeros 8, pallet := p, gcm := true }
def w13p : Pallet := { magic := 0x504C, version := 1, kind := 0, source := 9, dest := 8, epoch := 1, entries := 0, length := 48, seq := 1, tagOk := true, body := [] }
def w13r (src k : Nat) : ReturnFrame := { hops := 0, source := src, kind := k, reason := 0, seq := 4 }
def w13c : State := w13l 1 1 { w13u with sent := [.unit 0 (wl.kiln.devId) 9 4 (.command 0x0010 (wPk 0x0010 1 []))] }
def w13f : State := { w13l 1 1 { w13u with sent := [.unit 0 (wl.kiln.devId) 9 4 (.command 0x0010 (wl.onward 0x0010 (wPk 0x0010 1 [])))] } with host.forwarded := [(0x0010, wPk 0x0010 1 [])] }
def w13j (dev : Nat) (ok : Bool) : JoinFrame := { hops := 0, dev := dev, epoch := 1, nonce := zeros 16, identity := 7, mac := zeros 16, macOk := ok }
def w13e (st : Nat) : DevEntry := { state := st, identity := 7, key := zeros 32 }
def w13t (st : Nat) : State := let s := w13l 2 2 w13u
  { s with mortar.table := [(9, some (w13e st))], mortar.offers := [(9, some (10 ^ 15, zeros 16))] }
def w13o : State := { w13l 1 1 w13u with mortar.stt := .joining, mortar.dupUntil := some 0 }
def w13b (last : Bool) : BelowPart := { seq := 3, part := 0, last := last, ids := [9] }
def w13d (st : Nat) : State := { wqu with mortar.table := [(9, some (w13e st))] }
def w13m (w : List MirrorWait) : State := let s := w13l 2 3 { w13u with peerRole := 3, peerId := 0xFFFF, peerFlags := 8 }
  { s with host.sess := wqu.host.sess, ledger.mirrorWait := w }
def w13s : State := { wq with kiln.role := .standbyRoot, mortar.stt := .alone }
def w13q : State := let s := w13l 2 2 { w13u with peerId := 9, peerFlags := 8 }
  { s with cfg.active := (s.cfg.active.put (kMortar 1) 9) }
def w13i : State := { wl with cfg.active := (wKs.put (kUp 0 1) 0x0A000001).put (kUp 0 4) 0x42 }
def w13rq : Lane := { w13u with reqSeq := 5, reqT1 := some 4 }
def w13of : State := { w13t 0 with mortar.offers := [(9, some (0, zeros 16))] }

def w13k (dest : Nat) (ok : Bool) : Segment := { cls := 0, kind := 1, index := 0, last := true, hops := 3, data := leBytes 2 9 ++ leBytes 2 dest ++ zeros 4 ++ leBytes 8 7 ++ (wPk 0x0010 1 []).bytes 0x0010 ++ zeros 16, pallet := none, gcm := ok }
def w13v (ok : Bool) : Packet := { wPk 0x0010 1 [] with transport := .mortar 9, gcmOk := ok }
def w13me (k dest : Nat) : Segment := { w13g k true (some { w13p with dest := dest }) with hops := 3 }
def w13x (k : Nat) : State := { wl with kiln.role := .relay, mortar := { stt := .member, activeUp := some 0, lane := [(0, { w13u with sent := [.unit 0 (wl.kiln.devId) 9 4 (.pallet { w13p with kind := k })] }), (1, { w13u with below := [9] })] }, cfg.active := wKs.put (kLane 0 0) 1 }
def w13nr : State := { w13l 1 1 { w13u with belowSeq := some 3 } with kiln.role := .relay }

theorem test_hyps_LanesUplinksAndTime :
    ((w13l 1 1 { }).laneEnabled 0 = true)
    ∧ (((w13l 1 1 { }).lane 0).trained = false)
    ∧ ((w13l 1 1 { training := true }).laneEnabled 0 = true)
    ∧ (((w13l 1 1 { training := true }).lane 0).training = true)
    ∧ (((w13l 1 1 { training := true }).lane 0).trained = false)
    ∧ (1024 ≤ 1024)
    ∧ (((w13l 1 1 w13u).lane 0).trained = true)
    ∧ (true = true ∨ 16 ≤ 1024)
    ∧ (((w13l 1 1 w13u).lane 0).up = true)
    ∧ (3000 ≤ 3000)
    ∧ ((w13l 1 1 w13u).laneEnabled 0 = true)
    ∧ ((w13l 1 1 w13u).timeChild 0 = true)
    ∧ (((w13l 1 2 w13u).lane 0).up = true)
    ∧ ((w13l 1 2 w13u).timeChild 0 = false)
    ∧ (((w13l 1 1 w13rq).lane 0).reqT1 = some 4)
    ∧ ((w13l 1 1 w13rq).timeChild 0 = true)
    ∧ (((w13l 1 1 w13rq).lane 0).reqSeq = 5)
    ∧ (0 ≤ 4 + 10000000)
    ∧ (((w13l 1 1 w13rq).lane 0).delays.length < 15 ∨ (roundDiv (0 - 4 + (0 - 0)) 2 - medianInt ((w13l 1 1 w13rq).lane 0).delays).natAbs ≤ 100)
    ∧ (4 + 10000000 < 20000000)
    ∧ (w13i.ready (34 + 0) = true)
    ∧ (167772161 ≠ 0)
    ∧ (167772161 = w13i.key (kUp 0 1))
    ∧ (167772161 ≠ 0 ∧ 167772161 = w13i.key (kUp 0 1) ∨ w13i.ip6Mine 0 167772161 = true)
    ∧ (w13i.ip6Mine 0 66 = true) := by
  refine ⟨?_, ?_, ?_, ?_, ?_, ?_, ?_, ?_, ?_, ?_, ?_, ?_, ?_, ?_, ?_, ?_, ?_, ?_, ?_, ?_, ?_, ?_, ?_, ?_, ?_⟩ <;> decide +kernel

theorem test_hyps_UnitsAndMembership_1 :
    ((w13c.lane 0).up = true)
    ∧ ((w13g 1 false none).hops < 64)
    ∧ (List.length (w13g 1 false none).data ≤ 512)
    ∧ ((w13g 1 false none).last = false ∨ List.filter (fun y => y.cls == (w13g 1 false none).cls) ((w13c.lane 0).addSegment (w13g 1 false none)).segs = [])
    ∧ ((w13g 0 true none).hops < 64)
    ∧ (List.length (w13g 0 true none).data ≤ 512)
    ∧ ((w13g 0 true none).last = true)
    ∧ (List.filter (fun y => y.cls == (w13g 0 true none).cls) ((w13c.lane 0).addSegment (w13g 0 true none)).segs ≠ [])
    ∧ ((w13g 0 true none).kind ≠ 1)
    ∧ ((w13g 0 true none).pallet = none)
    ∧ ((w13g 1 true none).hops < 64)
    ∧ (List.length (w13g 1 true none).data ≤ 512)
    ∧ ((w13g 1 true none).last = true)
    ∧ (List.filter (fun y => y.cls == (w13g 1 true none).cls) ((w13c.lane 0).addSegment (w13g 1 true none)).segs ≠ [])
    ∧ ((w13g 1 true none).kind = 1)
    ∧ (parsePacket (Transport.mortar (fld (List.flatMap (fun x => x.data) (List.filter (fun y => y.cls == (w13g 1 true none).cls) ((w13c.lane 0).addSegment (w13g 1 true none)).segs)) 0 2))
          (w13g 1 true none).gcm []
          (List.take ((List.flatMap (fun x => x.data) (List.filter (fun y => y.cls == (w13g 1 true none).cls) ((w13c.lane 0).addSegment (w13g 1 true none)).segs)).length - 32)
            (List.drop 16 (List.flatMap (fun x => x.data) (List.filter (fun y => y.cls == (w13g 1 true none).cls) ((w13c.lane 0).addSegment (w13g 1 true none)).segs)))) =
        none)
    ∧ ((w13k wl.kiln.devId false).hops < 64)
    ∧ (List.length (w13k wl.kiln.devId false).data ≤ 512)
    ∧ ((w13k wl.kiln.devId false).last = true)
    ∧ (List.filter (fun y => y.cls == (w13k wl.kiln.devId false).cls) ((w13c.lane 0).addSegment (w13k wl.kiln.devId false)).segs ≠ [])
    ∧ ((w13k wl.kiln.devId false).kind = 1)
    ∧ (parsePacket
          (Transport.mortar (fld (List.flatMap (fun x => x.data) (List.filter (fun y => y.cls == (w13k wl.kiln.devId false).cls) ((w13c.lane 0).addSegment (w13k wl.kiln.devId false)).segs)) 0 2))
          (w13k wl.kiln.devId false).gcm []
          (List.take ((List.flatMap (fun x => x.data) (List.filter (fun y => y.cls == (w13k wl.kiln.devId false).cls) ((w13c.lane 0).addSegment (w13k wl.kiln.devId false)).segs)).length - 32)
            (List.drop 16 (List.flatMap (fun x => x.data) (List.filter (fun y => y.cls == (w13k wl.kiln.devId false).cls) ((w13c.lane 0).addSegment (w13k wl.kiln.devId false)).segs)))) =
        some (16, w13v false))
    ∧ (fld (List.flatMap (fun x => x.data) (List.filter (fun y => y.cls == (w13k wl.kiln.devId false).cls) ((w13c.lane 0).addSegment (w13k wl.kiln.devId false)).segs)) 2 2 = w13c.kiln.devId)
    ∧ ((w13k wl.kiln.devId false).gcm = false ∨
        seqFresh
            (Tbl.get []
              ((w13c.modLane 0 fun x => (w13c.lane 0).addSegment (w13k wl.kiln.devId false)).modLane 0 fun x =>
                    { trained := x.trained, training := x.training, up := x.up, polInv := x.polInv, hellos := x.hellos, lastHello := x.lastHello, peerId := x.peerId, peerRole := x.peerRole,
                      peerHops := x.peerHops, peerEpoch := x.peerEpoch, peerRootId := x.peerRootId, peerUp := x.peerUp, peerFlags := x.peerFlags, peerRootSeq := x.peerRootSeq,
                      rootHeardAt := x.rootHeardAt, exchanges := x.exchanges, linkDelay := x.linkDelay, delays := x.delays, errors := x.errors, errTimes := x.errTimes, retrains := x.retrains,
                      everLost := x.everLost, below := x.below, belowSeq := x.belowSeq, belowParts := x.belowParts, segs := List.filter (fun y => y.cls != (w13k wl.kiln.devId false).cls) x.segs,
                      reqSeq := x.reqSeq, reqT1 := x.reqT1, sent := x.sent }).mortar.cmdSeq
              (fld (List.flatMap (fun x => x.data) (List.filter (fun y => y.cls == (w13k wl.kiln.devId false).cls) ((w13c.lane 0).addSegment (w13k wl.kiln.devId false)).segs)) 0 2))
            (fld (List.flatMap (fun x => x.data) (List.filter (fun y => y.cls == (w13k wl.kiln.devId false).cls) ((w13c.lane 0).addSegment (w13k wl.kiln.devId false)).segs)) 8 8) =
          false)
    ∧ ((w13k wl.kiln.devId true).hops < 64)
    ∧ (List.length (w13k wl.kiln.devId true).data ≤ 512)
    ∧ ((w13k wl.kiln.devId true).last = true)
    ∧ (List.filter (fun y => y.cls == (w13k wl.kiln.devId true).cls) ((w13c.lane 0).addSegment (w13k wl.kiln.devId true)).segs ≠ [])
    ∧ ((w13k wl.kiln.devId true).kind = 1)
    ∧ (parsePacket
          (Transport.mortar (fld (List.flatMap (fun x => x.data) (List.filter (fun y => y.cls == (w13k wl.kiln.devId true).cls) ((w13c.lane 0).addSegment (w13k wl.kiln.devId true)).segs)) 0 2))
          (w13k wl.kiln.devId true).gcm []
          (List.take ((List.flatMap (fun x => x.data) (List.filter (fun y => y.cls == (w13k wl.kiln.devId true).cls) ((w13c.lane 0).addSegment (w13k wl.kiln.devId true)).segs)).length - 32)
            (List.drop 16 (List.flatMap (fun x => x.data) (List.filter (fun y => y.cls == (w13k wl.kiln.devId true).cls) ((w13c.lane 0).addSegment (w13k wl.kiln.devId true)).segs)))) =
        some (16, w13v true)) := by
  refine ⟨?_, ?_, ?_, ?_, ?_, ?_, ?_, ?_, ?_, ?_, ?_, ?_, ?_, ?_, ?_, ?_, ?_, ?_, ?_, ?_, ?_, ?_, ?_, ?_, ?_, ?_, ?_, ?_, ?_, ?_⟩ <;> decide +kernel

theorem test_hyps_UnitsAndMembership_2 :
    (fld (List.flatMap (fun x => x.data) (List.filter (fun y => y.cls == (w13k wl.kiln.devId true).cls) ((w13c.lane 0).addSegment (w13k wl.kiln.devId true)).segs)) 2 2 = w13c.kiln.devId)
    ∧ ((w13k wl.kiln.devId true).gcm = true)
    ∧ (seqFresh
          (Tbl.get []
            ((w13c.modLane 0 fun x => (w13c.lane 0).addSegment (w13k wl.kiln.devId true)).modLane 0 fun x =>
                  { trained := x.trained, training := x.training, up := x.up, polInv := x.polInv, hellos := x.hellos, lastHello := x.lastHello, peerId := x.peerId, peerRole := x.peerRole,
                    peerHops := x.peerHops, peerEpoch := x.peerEpoch, peerRootId := x.peerRootId, peerUp := x.peerUp, peerFlags := x.peerFlags, peerRootSeq := x.peerRootSeq,
                    rootHeardAt := x.rootHeardAt, exchanges := x.exchanges, linkDelay := x.linkDelay, delays := x.delays, errors := x.errors, errTimes := x.errTimes, retrains := x.retrains,
                    everLost := x.everLost, below := x.below, belowSeq := x.belowSeq, belowParts := x.belowParts, segs := List.filter (fun y => y.cls != (w13k wl.kiln.devId true).cls) x.segs,
                    reqSeq := x.reqSeq, reqT1 := x.reqT1, sent := x.sent }).mortar.cmdSeq
            (fld (List.flatMap (fun x => x.data) (List.filter (fun y => y.cls == (w13k wl.kiln.devId true).cls) ((w13c.lane 0).addSegment (w13k wl.kiln.devId true)).segs)) 0 2))
          (fld (List.flatMap (fun x => x.data) (List.filter (fun y => y.cls == (w13k wl.kiln.devId true).cls) ((w13c.lane 0).addSegment (w13k wl.kiln.devId true)).segs)) 8 8) =
        true)
    ∧ ((w13k 8 true).hops < 64)
    ∧ (List.length (w13k 8 true).data ≤ 512)
    ∧ ((w13k 8 true).last = true)
    ∧ (List.filter (fun y => y.cls == (w13k 8 true).cls) ((w13c.lane 0).addSegment (w13k 8 true)).segs ≠ [])
    ∧ ((w13k 8 true).kind = 1)
    ∧ (parsePacket (Transport.mortar (fld (List.flatMap (fun x => x.data) (List.filter (fun y => y.cls == (w13k 8 true).cls) ((w13c.lane 0).addSegment (w13k 8 true)).segs)) 0 2)) (w13k 8 true).gcm
          []
          (List.take ((List.flatMap (fun x => x.data) (List.filter (fun y => y.cls == (w13k 8 true).cls) ((w13c.lane 0).addSegment (w13k 8 true)).segs)).length - 32)
            (List.drop 16 (List.flatMap (fun x => x.data) (List.filter (fun y => y.cls == (w13k 8 true).cls) ((w13c.lane 0).addSegment (w13k 8 true)).segs)))) =
        some (16, w13v true))
    ∧ (fld (List.flatMap (fun x => x.data) (List.filter (fun y => y.cls == (w13k 8 true).cls) ((w13c.lane 0).addSegment (w13k 8 true)).segs)) 2 2 ≠ w13c.kiln.devId)
    ∧ (fld (List.flatMap (fun x => x.data) (List.filter (fun y => y.cls == (w13k 8 true).cls) ((w13c.lane 0).addSegment (w13k 8 true)).segs)) 2 2 ≠ 1023)
    ∧ (w13c.isRoot = false)
    ∧ (w13c.mortar.stt ≠ MState.fenced)
    ∧ ((w13me 0 wl.kiln.devId).hops < 64)
    ∧ (List.length (w13me 0 wl.kiln.devId).data ≤ 512)
    ∧ ((w13me 0 wl.kiln.devId).last = true)
    ∧ (List.filter (fun y => y.cls == (w13me 0 wl.kiln.devId).cls) ((w13c.lane 0).addSegment (w13me 0 wl.kiln.devId)).segs ≠ [])
    ∧ ((w13me 0 wl.kiln.devId).kind ≠ 1)
    ∧ ((w13me 0 wl.kiln.devId).pallet =
        some
          { magic := w13p.magic, version := w13p.version, kind := w13p.kind, source := w13p.source, dest := wl.kiln.devId, epoch := w13p.epoch, entries := w13p.entries, length := w13p.length,
            seq := w13p.seq, tagOk := w13p.tagOk, body := w13p.body })
    ∧ (((w13c.modLane 0 fun x => (w13c.lane 0).addSegment (w13me 0 wl.kiln.devId)).modLane 0 fun x =>
              { trained := x.trained, training := x.training, up := x.up, polInv := x.polInv, hellos := x.hellos, lastHello := x.lastHello, peerId := x.peerId, peerRole := x.peerRole,
                peerHops := x.peerHops, peerEpoch := x.peerEpoch, peerRootId := x.peerRootId, peerUp := x.peerUp, peerFlags := x.peerFlags, peerRootSeq := x.peerRootSeq,
                rootHeardAt := x.rootHeardAt, exchanges := x.exchanges, linkDelay := x.linkDelay, delays := x.delays, errors := x.errors, errTimes := x.errTimes, retrains := x.retrains,
                everLost := x.everLost, below := x.below, belowSeq := x.belowSeq, belowParts := x.belowParts, segs := List.filter (fun y => y.cls != (w13me 0 wl.kiln.devId).cls) x.segs,
                reqSeq := x.reqSeq, reqT1 := x.reqT1, sent := x.sent }).forMe
          wl.kiln.devId =
        true)
    ∧ ((w13me 0 8).hops < 64)
    ∧ (List.length (w13me 0 8).data ≤ 512)
    ∧ ((w13me 0 8).last = true)
    ∧ (List.filter (fun y => y.cls == (w13me 0 8).cls) ((w13c.lane 0).addSegment (w13me 0 8)).segs ≠ [])
    ∧ ((w13me 0 8).kind ≠ 1)
    ∧ ((w13me 0 8).pallet = some w13p)
    ∧ (((w13c.modLane 0 fun x => (w13c.lane 0).addSegment (w13me 0 8)).modLane 0 fun x =>
              { trained := x.trained, training := x.training, up := x.up, polInv := x.polInv, hellos := x.hellos, lastHello := x.lastHello, peerId := x.peerId, peerRole := x.peerRole,
                peerHops := x.peerHops, peerEpoch := x.peerEpoch, peerRootId := x.peerRootId, peerUp := x.peerUp, peerFlags := x.peerFlags, peerRootSeq := x.peerRootSeq,
                rootHeardAt := x.rootHeardAt, exchanges := x.exchanges, linkDelay := x.linkDelay, delays := x.delays, errors := x.errors, errTimes := x.errTimes, retrains := x.retrains,
                everLost := x.everLost, below := x.below, belowSeq := x.belowSeq, belowParts := x.belowParts, segs := List.filter (fun y => y.cls != (w13me 0 8).cls) x.segs, reqSeq := x.reqSeq,
                reqT1 := x.reqT1, sent := x.sent }).forMe
          w13p.dest =
        false)
    ∧ (((w13c.modLane 0 fun x => (w13c.lane 0).addSegment (w13me 0 8)).modLane 0 fun x =>
              { trained := x.trained, training := x.training, up := x.up, polInv := x.polInv, hellos := x.hellos, lastHello := x.lastHello, peerId := x.peerId, peerRole := x.peerRole,
                peerHops := x.peerHops, peerEpoch := x.peerEpoch, peerRootId := x.peerRootId, peerUp := x.peerUp, peerFlags := x.peerFlags, peerRootSeq := x.peerRootSeq,
                rootHeardAt := x.rootHeardAt, exchanges := x.exchanges, linkDelay := x.linkDelay, delays := x.delays, errors := x.errors, errTimes := x.errTimes, retrains := x.retrains,
                everLost := x.everLost, below := x.below, belowSeq := x.belowSeq, belowParts := x.belowParts, segs := List.filter (fun y => y.cls != (w13me 0 8).cls) x.segs, reqSeq := x.reqSeq,
                reqT1 := x.reqT1, sent := x.sent }).mortar.stt ≠
        MState.fenced)
    ∧ ((w13me 0 8).hops < 63)
    ∧ (((w13x 0).lane 0).up = true) := by
  refine ⟨?_, ?_, ?_, ?_, ?_, ?_, ?_, ?_, ?_, ?_, ?_, ?_, ?_, ?_, ?_, ?_, ?_, ?_, ?_, ?_, ?_, ?_, ?_, ?_, ?_, ?_, ?_, ?_, ?_, ?_⟩ <;> decide +kernel

theorem test_hyps_UnitsAndMembership_3 :
    ((w13r 9 0).source ≠ (w13x 0).kiln.devId)
    ∧ ((w13x 0).mortar.stt ≠ MState.fenced)
    ∧ ((w13x 0).route (w13r 9 0).source = some 0)
    ∧ ((w13f.lane 0).up = true)
    ∧ ((w13r wl.kiln.devId 1).source = w13f.kiln.devId)
    ∧ ((w13r wl.kiln.devId 1).kind = 1)
    ∧ (List.find? ((w13f.pulse 794).sentCommand (w13r wl.kiln.devId 1).seq) (w13f.pulse 794).host.forwarded = some (16, wPk 16 1 []))
    ∧ ((w13r wl.kiln.devId 0).source = w13c.kiln.devId)
    ∧ ((w13r wl.kiln.devId 0).kind ≠ 1)
    ∧ (w13c.kiln.role = DevRole.leaf)
    ∧ (((w13x 1).lane 0).up = true)
    ∧ ((w13r wl.kiln.devId 0).source = (w13x 1).kiln.devId)
    ∧ ((w13x 1).kiln.role ≠ DevRole.leaf)
    ∧ (((w13x 1).pulse 794).sentUnit (w13r wl.kiln.devId 0).seq =
        some
          (UnitBody.pallet
            { magic := w13p.magic, version := w13p.version, kind := 1, source := w13p.source, dest := w13p.dest, epoch := w13p.epoch, entries := w13p.entries, length := w13p.length,
              seq := w13p.seq, tagOk := w13p.tagOk, body := w13p.body }))
    ∧ (1 = 1)
    ∧ ((w13j 9 true).dev ≠ w13c.kiln.devId)
    ∧ (((match (w13c.lane 0).belowSeq with
          | some q => decide (0 < ((w13b false).seq + 65536 - q) % 65536 ∧ ((w13b false).seq + 65536 - q) % 65536 < 32768)
          | none => true) ||
          (w13c.lane 0).belowSeq == some (w13b false).seq) =
        true)
    ∧ (belowWhole
          ((if
                (match (w13c.lane 0).belowSeq with
                  | some q => decide (0 < ((w13b false).seq + 65536 - q) % 65536 ∧ ((w13b false).seq + 65536 - q) % 65536 < 32768)
                  | none => true) =
                  true then
              []
            else List.filter (fun x => x.1 != (w13b false).part) (w13c.lane 0).belowParts) ++
            [((w13b false).part, (w13b false).last, (w13b false).ids)])
          4 0 =
        none)
    ∧ (((w13t 0).lane 0).up = true)
    ∧ ((w13t 0).mortar.stt ≠ MState.fenced)
    ∧ ((w13t 0).isRoot = true)
    ∧ (Tbl.get none (w13t 0).mortar.table (w13j 9 false).dev = some (w13e 0))
    ∧ ((w13j 9 false).macOk = false ∨ (w13e 0).identity ≠ (w13j 9 false).identity ∨ (w13e 0).key = [])
    ∧ (Tbl.get none (w13t 0).mortar.table (w13j 9 true).dev = some (w13e 0))
    ∧ ((w13j 9 true).macOk = true)
    ∧ ((w13e 0).identity = (w13j 9 true).identity)
    ∧ ((w13e 0).key ≠ [])
    ∧ ((w13e 0).state ≠ 1)
    ∧ (((w13t 1).lane 0).up = true)
    ∧ ((w13t 1).mortar.stt ≠ MState.fenced) := by
  refine ⟨?_, ?_, ?_, ?_, ?_, ?_, ?_, ?_, ?_, ?_, ?_, ?_, ?_, ?_, ?_, ?_, ?_, ?_, ?_, ?_, ?_, ?_, ?_, ?_, ?_, ?_, ?_, ?_, ?_, ?_⟩ <;> decide +kernel

theorem test_hyps_UnitsAndMembership_4 :
    ((w13t 1).isRoot = true)
    ∧ (Tbl.get none (w13t 1).mortar.table (w13j 9 true).dev = some (w13e 1))
    ∧ ((w13e 1).identity = (w13j 9 true).identity)
    ∧ ((w13e 1).key ≠ [])
    ∧ ((w13e 1).state = 1)
    ∧ (Tbl.get none (w13t 0).mortar.table (w13j 8 true).dev = none)
    ∧ (Tbl.get none (w13t 0).mortar.offers (w13j 9 true).dev = some (10 ^ 15, zeros 16))
    ∧ ((w13t 0).time.mono ≤ 10 ^ 15 + second)
    ∧ ((w13o.lane 0).up = true)
    ∧ (w13o.mortar.stt ≠ MState.fenced)
    ∧ ((w13j wl.kiln.devId true).dev = w13o.kiln.devId)
    ∧ (w13o.mortar.stt = MState.joining)
    ∧ (w13o.mortar.activeUp = some 0)
    ∧ ((w13j wl.kiln.devId true).macOk = true)
    ∧ (w13o.mortar.offered = none)
    ∧ (w13o.mortar.joinAt + second ≤ w13o.time.mono)
    ∧ (w13o.mortar.activeUp.isSome = true)
    ∧ (Tbl.get none w13of.mortar.offers 9 = some (0, zeros 16))
    ∧ (0 + second ≤ w13of.time.mono)
    ∧ (w13o.mortar.dupUntil = some 0)
    ∧ (0 ≤ w13o.time.mono)
    ∧ (w13c.mortar.stt = MState.member)
    ∧ (w13c.mortar.activeUp = some 0)
    ∧ (((match (w13c.lane 0).belowSeq with
          | some q => decide (0 < ((w13b true).seq + 65536 - q) % 65536 ∧ ((w13b true).seq + 65536 - q) % 65536 < 32768)
          | none => true) ||
          (w13c.lane 0).belowSeq == some (w13b true).seq) =
        true)
    ∧ (belowWhole
          ((if
                (match (w13c.lane 0).belowSeq with
                  | some q => decide (0 < ((w13b true).seq + 65536 - q) % 65536 ∧ ((w13b true).seq + 65536 - q) % 65536 < 32768)
                  | none => true) =
                  true then
              []
            else List.filter (fun x => x.1 != (w13b true).part) (w13c.lane 0).belowParts) ++
            [((w13b true).part, (w13b true).last, (w13b true).ids)])
          4 0 =
        some [9])
    ∧ ((w13d 1).isRoot = true)
    ∧ ((w13d 1).devMember 9 = true)
    ∧ ((w13d 1).pathTo 9 = false)
    ∧ ((w13d 1).key (kMortar 3) ≤ 5000)
    ∧ (Starts 2819 (wPk 2819 0 (zeros 56)) (w13d 1) = true) := by
  refine ⟨?_, ?_, ?_, ?_, ?_, ?_, ?_, ?_, ?_, ?_, ?_, ?_, ?_, ?_, ?_, ?_, ?_, ?_, ?_, ?_, ?_, ?_, ?_, ?_, ?_, ?_, ?_, ?_, ?_, ?_⟩
  · decide +kernel
  · decide +kernel
  · decide +kernel
  · decide +kernel
  · decide +kernel
  · decide +kernel
  · decide +kernel
  · decide +kernel
  · decide +kernel
  · decide +kernel
  · decide +kernel
  · decide +kernel
  · decide +kernel
  · decide +kernel
  · decide +kernel
  · decide +kernel
  · decide +kernel
  · decide +kernel
  · decide +kernel
  · decide +kernel
  · decide +kernel
  · decide +kernel
  · decide +kernel
  · decide +kernel
  · decide +kernel
  · decide +kernel
  · decide +kernel
  · decide +kernel
  · decide +kernel
  · exact starts_of (wPk_crc ..) (by decide +kernel)

theorem test_hyps_UnitsAndMembership_5 :
    (Block 56 [(3, 5)] (wPk 2819 0 (zeros 56)) = true)
    ∧ (fld (wPk 2819 0 (zeros 56)).params 0 2 ≤ 1022)
    ∧ (fld (wPk 2819 0 (zeros 56)).params 2 1 ≤ 4)
    ∧ (Tbl.get none (w13d 1).mortar.table (fld (wPk 2819 0 (zeros 56)).params 0 2) = none)
    ∧ ((w13d 1).store.ro.contains 2 = false)
    ∧ ((w13d 2).isRoot = true)
    ∧ (Tbl.get none (w13d 2).mortar.table 9 = some (w13e 2))
    ∧ ((w13e 2).state = 2)
    ∧ ((w13e 2).role = 0)
    ∧ ((w13e 2).departedAt + (w13d 2).key (kMortar 4) * second ≤ (w13d 2).time.mono)
    ∧ (Starts 2820 (wPk 2820 0 (leBytes 8 9)) (w13d 1) = true)
    ∧ (Block 8 [(2, 6)] (wPk 2820 0 (leBytes 8 9)) = true)
    ∧ (Tbl.get none (w13d 1).mortar.table (fld (wPk 2820 0 (leBytes 8 9)).params 0 2) = some (w13e 1)) := by
  refine ⟨?_, ?_, ?_, ?_, ?_, ?_, ?_, ?_, ?_, ?_, ?_, ?_, ?_⟩
  · decide +kernel
  · decide +kernel
  · decide +kernel
  · decide +kernel
  · decide +kernel
  · decide +kernel
  · decide +kernel
  · decide +kernel
  · decide +kernel
  · decide +kernel
  · exact starts_of (wPk_crc ..) (by decide +kernel)
  · decide +kernel
  · decide +kernel

theorem test_hyps_RootPairHandsOver :
    (wqu.isRoot = true)
    ∧ (Starts 2821 (wPk 2821 0 []) wqu = true)
    ∧ (Block 0 [] (wPk 2821 0 []) = true)
    ∧ (wqu.standbyLinked = false)
    ∧ (w13q.isRoot = true)
    ∧ (w13q.mortar.handover = none)
    ∧ (20 ≤ 20)
    ∧ (w13q.reachOthers = false)
    ∧ (∃ m < 4, (w13q.lane m).up = true ∧ (w13q.lane m).peerId = w13q.partner ∧ (w13q.lane m).peerFlags.testBit 3 = true)
    ∧ (w13s.kiln.role = DevRole.standbyRoot)
    ∧ (w13s.kiln.ph.k6Open = true)
    ∧ (20 ≤ 20 ∨ w13s.handedOver = true)
    ∧ (Starts 2821 (wPk 2821 0 []) (w13m []) = true)
    ∧ ((w13m []).standbyLinked = true)
    ∧ ((w13m []).ledger.mirrorWait = [])
    ∧ (Starts 2821 (wPk 2821 0 []) (w13m [{ seq := 1, stop := 1, at_ := 0, acks := [] }]) = true)
    ∧ ((w13m [{ seq := 1, stop := 1, at_ := 0, acks := [] }]).standbyLinked = true)
    ∧ ((w13m [{ seq := 1, stop := 1, at_ := 0, acks := [] }]).ledger.mirrorWait ≠ [])
    ∧ (Starts 2817 (wPk 2817 1 []) wq = true)
    ∧ (Block 0 [] (wPk 2817 1 []) = true)
    ∧ (Starts 2818 (wPk 2818 1 (leBytes 8 327680)) wq = true)
    ∧ (Block 8 [(4, 4)] (wPk 2818 1 (leBytes 8 327680)) = true)
    ∧ (1 ≤ fld (wPk 2818 1 (leBytes 8 327680)).params 2 2)
    ∧ (fld (wPk 2818 1 (leBytes 8 327680)).params 2 2 ≤ 1023) := by
  refine ⟨?_, ?_, ?_, ?_, ?_, ?_, ?_, ?_, ?_, ?_, ?_, ?_, ?_, ?_, ?_, ?_, ?_, ?_, ?_, ?_, ?_, ?_, ?_, ?_⟩
  · decide +kernel
  · exact starts_of (wPk_crc ..) (by decide +kernel)
  · decide +kernel
  · decide +kernel
  · decide +kernel
  · decide +kernel
  · decide +kernel
  · decide +kernel
  · decide +kernel
  · decide +kernel
  · decide +kernel
  · decide +kernel
  · exact starts_of (wPk_crc ..) (by decide +kernel)
  · decide +kernel
  · decide +kernel
  · exact starts_of (wPk_crc ..) (by decide +kernel)
  · decide +kernel
  · decide +kernel
  · exact starts_of (wPk_crc ..) (by decide +kernel)
  · decide +kernel
  · exact starts_of (wPk_crc ..) (by decide +kernel)
  · decide +kernel
  · decide +kernel
  · decide +kernel

def w14b : Body := fun _ _ s => (s, .reply Res.ok)
/-- GET_READY_MAP of the operator, one field changed, its CRC right for what it then holds. -/
def w14m (f : Packet → Packet) : Packet := let q := f (wPk 0x0010 1 []); { q with crc := q.crcOf 0x0010 }
def w14c (code : Nat) : Packet := let q := wPk 0x0010 1 []; { q with crc := q.crcOf code }
def w14p : Packet := wPk 0x0010 1 []
def w14d : Packet := { w14p with deadline := 1 }
def w14k : Card := (card 0x0010).getD ((card 0x0002).getD ⟨fun _ _ => true, fun _ => false, false⟩)
def w14q (n : Nat) : State := { wl with host.queue := [(16, List.replicate n ⟨0x0010, w14d, 0⟩)] }
def w14o : Packet := wPk 0x0001 1 (leBytes 8 1 ++ [2, 0] ++ zeros 86)
def w14h : Chal := { handle := 9, bay := 1, identity := 3, role := .reader, peer := .mortar 5, idleS := 600, issued := 999995 * second, canPass := true, transcript := [], key := [], answer := none }
def w14i (fails : Nat) : Ident := { id := 3, role := .reader, bayMask := 2, cred := zeros 16 ++ passwordHash (zeros 16) [9], fails := fails, locks := 0, lockEnd := none, clone := false }
def w14a (gcm : Bool) : Packet :=
  let q := wPk 0x0003 1 (leBytes 1 1 ++ zeros 7 ++ [9] ++ zeros 63)
  let q : Packet := { q with session := 9, flags := 4, gcmOk := gcm }
  { q with crc := q.crcOf 0x0003 }
def w14h0 : Chal := { w14h with issued := 0 }
def w14l (n : Nat) : Ident := { w14i n with lockEnd := some 0 }
def w14s : State := { wl with host.chal := [w14h], host.ident := [w14i 0] }
def w14e (n : Nat) : State := { wl with host.chal := [w14h0], host.ident := [w14l n] }
def w14x : Session := { wSess 1 .operator with lastUse := 0 }
def w14f : InFlight := { entry := ⟨0x0A20, { wBk 0x0A20 1 0 24 (zeros 32) with tag := 3 }, 0⟩, kind := .stream (zeros 8) 24 (1000000 * second) }
def w14g (last : Nat) : InFlight := { w14f with kind := .stream (zeros 8) 24 last }
def w14t (f : InFlight) : State := { wl with host.busy := [(16, some f)] }
def w14u (n : Nat) : Packet :=
  let q := wPk 0x0020 1 (leBytes 4 8 ++ zeros (4 + n))
  let q : Packet := { q with flags := 8 }
  { q with crc := q.crcOf 0x0020 }
def w14r : State := { wq with mortar.lane := [(0, { up := true, trained := true, below := [8] })], cfg.active := wKs.put (kLane 0 0) 2 }
def w14n : State := { wl with kiln.ready := 0 }
def w14v : Packet := wPk 0x0002 1 []
def w14p0 : Packet := { w14p with crc := 0 }
theorem w14a_crc (g : Bool) : (w14a g).crc = (w14a g).crcOf 0x0003 := (crcOf_set ..).symm

def w14r1 (ans : Option QEntry) : Chal := { w14h with handle := 10, peer := .mortar 6, answer := ans }
def w14s2 (ans : Option QEntry) : State := { w14s with host.chal := [w14h, w14r1 ans] }
def w14s0 : State := { w14s with host.chal := [], host.expired := [(9, 3)] }
def w14sx : State := { w14s with host.chal := [w14h0] }
def w14ss : State := { w14s with host.sess := wl.host.sess ++ [{ wSess 1 .reader with handle := 30, identity := 3 }] }
def w14s8 : State := { w14s with host.sess := wl.host.sess ++ (List.range 7).map fun k => { wSess 1 .reader with handle := 30 + k, identity := 50 + k } }
def w14e4 : State := { wl with host.ident := [w14i 4] }
def w14z : QEntry := ⟨0x0003, w14a true, 0⟩
def w14y : State := { wl with host.busy := [(16, some ⟨⟨0x0700, w14d, 0⟩, .stream [] 8 0⟩)], aux.urgent := [(0, [{ queue := 16, input := 0, ratio := false, count := 1, start := none }])] }
def w14cq : State := { wl with host.qp := [(0, { size := 0x0404 })] }
def w14pc : Packet := w14m fun p => { p with transport := .pcie 0 0 4096 }
def w14ud (q : Bool) : Packet := w14m fun p => { p with transport := .udp 1 2, flags := if q then 6 else 4 }
def w14hb (hop : Nat) : Packet := w14m fun p => { p with transport := .spi, target := 1023, source := 0, hopLimit := hop }
def w14sb : State := { w14r with host.sess := w14r.host.sess.map fun x : Session => { x with peer := .spi } }
theorem fitBytes_length (n : Nat) (b : Bytes) : (fitBytes n b).length = n := by simp [fitBytes, slice, zeros]
theorem hashRounds_length (salt pw : Bytes) (n : Nat) (h : Bytes) (e : h.length = 32) : (hashRounds salt pw n h).length = 32 := by
  induction n generalizing h with
  | zero => exact e
  | succ n ih => exact ih _ (fitBytes_length ..)
/-- The password of the identity stands against its credential. -/
theorem w14i_proof (n : Nat) (t : Bytes) : proofOk (w14i n) t [9] = true := by
  have e : (passwordHash (zeros 16) [9]).length = 32 := hashRounds_length _ _ _ _ (fitBytes_length ..)
  generalize hx : passwordHash (zeros 16) [9] = x at e
  simp only [proofOk, w14i, hx]
  rw [show (zeros 16 ++ x).take 16 = zeros 16 from List.take_left' rfl, show (zeros 16 ++ x).drop 16 = x from List.drop_left' rfl, List.take_of_length_le (by omega), hx]
  simp
theorem w14i_slice : proofOk (w14i 0) w14h.transcript (slice (w14a true).params 8 (fld (w14a true).params 0 1)) = true := by
  rw [show slice (w14a true).params 8 (fld (w14a true).params 0 1) = [9] by decide +kernel]; exact w14i_proof ..

theorem test_hyps_FirstFailingCheckDecidesTheReply_1 :
    (wl.serving = true)
    ∧ (waitsHere 16
          (w14m fun p =>
            { transport := p.transport, version := p.version, flags := 4, tag := p.tag, bay := p.bay, queue := p.queue, session := p.session, paramLen := p.paramLen, deadline := p.deadline,
              target := p.target, hopLimit := p.hopLimit, reserved := p.reserved, source := p.source, crc := p.crc, params := p.params, gcmOk := p.gcmOk, bulk := p.bulk })
          (wl.queueOf
            (queueId
              (w14m fun p =>
                  { transport := p.transport, version := p.version, flags := 4, tag := p.tag, bay := p.bay, queue := p.queue, session := p.session, paramLen := p.paramLen, deadline := p.deadline,
                    target := p.target, hopLimit := p.hopLimit, reserved := p.reserved, source := p.source, crc := p.crc, params := p.params, gcmOk := p.gcmOk, bulk := p.bulk }).bay
              (w14m fun p =>
                  { transport := p.transport, version := p.version, flags := 4, tag := p.tag, bay := p.bay, queue := p.queue, session := p.session, paramLen := p.paramLen, deadline := p.deadline,
                    target := p.target, hopLimit := p.hopLimit, reserved := p.reserved, source := p.source, crc := p.crc, params := p.params, gcmOk := p.gcmOk, bulk := p.bulk }).queue)) =
        none)
    ∧ ((w14m fun p =>
                { transport := p.transport, version := p.version, flags := 4, tag := p.tag, bay := p.bay, queue := p.queue, session := p.session, paramLen := p.paramLen, deadline := p.deadline,
                  target := p.target, hopLimit := p.hopLimit, reserved := p.reserved, source := p.source, crc := p.crc, params := p.params, gcmOk := p.gcmOk, bulk := p.bulk }).transport.isUdp =
          true →
        (w14m fun p =>
              { transport := p.transport, version := p.version, flags := 4, tag := p.tag, bay := p.bay, queue := p.queue, session := p.session, paramLen := p.paramLen, deadline := p.deadline,
                target := p.target, hopLimit := p.hopLimit, reserved := p.reserved, source := p.source, crc := p.crc, params := p.params, gcmOk := p.gcmOk, bulk := p.bulk }).gcmOk =
          true)
    ∧ ((w14m fun p =>
            { transport := p.transport, version := p.version, flags := 4, tag := p.tag, bay := p.bay, queue := p.queue, session := p.session, paramLen := p.paramLen, deadline := p.deadline,
              target := p.target, hopLimit := p.hopLimit, reserved := p.reserved, source := p.source, crc := p.crc, params := p.params, gcmOk := p.gcmOk, bulk := p.bulk }).crc =
        Packet.crcOf 16
          (w14m fun p =>
            { transport := p.transport, version := p.version, flags := 4, tag := p.tag, bay := p.bay, queue := p.queue, session := p.session, paramLen := p.paramLen, deadline := p.deadline,
              target := p.target, hopLimit := p.hopLimit, reserved := p.reserved, source := p.source, crc := p.crc, params := p.params, gcmOk := p.gcmOk, bulk := p.bulk }))
    ∧ ((w14m fun p =>
            { transport := p.transport, version := p.version, flags := 4, tag := p.tag, bay := p.bay, queue := p.queue, session := p.session, paramLen := p.paramLen, deadline := p.deadline,
              target := p.target, hopLimit := p.hopLimit, reserved := p.reserved, source := p.source, crc := p.crc, params := p.params, gcmOk := p.gcmOk, bulk := p.bulk }).version =
        1)
    ∧ ((w14m fun p =>
              { transport := p.transport, version := p.version, flags := 4, tag := p.tag, bay := p.bay, queue := p.queue, session := p.session, paramLen := p.paramLen, deadline := p.deadline,
                target := p.target, hopLimit := p.hopLimit, reserved := p.reserved, source := p.source, crc := p.crc, params := p.params, gcmOk := p.gcmOk, bulk := p.bulk }).paramLen %
          8 =
        0)
    ∧ ((w14m fun p =>
            { transport := p.transport, version := p.version, flags := 4, tag := p.tag, bay := p.bay, queue := p.queue, session := p.session, paramLen := p.paramLen, deadline := p.deadline,
              target := p.target, hopLimit := p.hopLimit, reserved := p.reserved, source := p.source, crc := p.crc, params := p.params, gcmOk := p.gcmOk, bulk := p.bulk }).paramLen ≤
        paramLimit
          (w14m fun p =>
            { transport := p.transport, version := p.version, flags := 4, tag := p.tag, bay := p.bay, queue := p.queue, session := p.session, paramLen := p.paramLen, deadline := p.deadline,
              target := p.target, hopLimit := p.hopLimit, reserved := p.reserved, source := p.source, crc := p.crc, params := p.params, gcmOk := p.gcmOk, bulk := p.bulk }))
    ∧ ((w14m fun p =>
            { transport := p.transport, version := p.version, flags := 4, tag := p.tag, bay := p.bay, queue := p.queue, session := p.session, paramLen := p.paramLen, deadline := p.deadline,
              target := p.target, hopLimit := p.hopLimit, reserved := p.reserved, source := p.source, crc := p.crc, params := p.params, gcmOk := p.gcmOk, bulk := p.bulk }).paramLen =
        List.length
          (w14m fun p =>
              { transport := p.transport, version := p.version, flags := 4, tag := p.tag, bay := p.bay, queue := p.queue, session := p.session, paramLen := p.paramLen, deadline := p.deadline,
                target := p.target, hopLimit := p.hopLimit, reserved := p.reserved, source := p.source, crc := p.crc, params := p.params, gcmOk := p.gcmOk, bulk := p.bulk }).params)
    ∧ ((w14m fun p =>
              { transport := p.transport, version := p.version, flags := 4, tag := p.tag, bay := p.bay, queue := p.queue, session := p.session, paramLen := p.paramLen, deadline := p.deadline,
                target := p.target, hopLimit := p.hopLimit, reserved := p.reserved, source := p.source, crc := p.crc, params := p.params, gcmOk := p.gcmOk, bulk := p.bulk }).flags.toNat <
        32)
    ∧ ((w14m fun p =>
            { transport := p.transport, version := p.version, flags := 4, tag := p.tag, bay := p.bay, queue := p.queue, session := p.session, paramLen := p.paramLen, deadline := p.deadline,
              target := p.target, hopLimit := p.hopLimit, reserved := p.reserved, source := p.source, crc := p.crc, params := p.params, gcmOk := p.gcmOk, bulk := p.bulk }).reserved =
        0)
    ∧ ((w14m fun p =>
            { transport := p.transport, version := p.version, flags := 4, tag := p.tag, bay := p.bay, queue := p.queue, session := p.session, paramLen := p.paramLen, deadline := p.deadline,
              target := p.target, hopLimit := p.hopLimit, reserved := p.reserved, source := p.source, crc := p.crc, params := p.params, gcmOk := p.gcmOk, bulk := p.bulk }).tagged ≠
        mustTag 16
          (w14m fun p =>
            { transport := p.transport, version := p.version, flags := 4, tag := p.tag, bay := p.bay, queue := p.queue, session := p.session, paramLen := p.paramLen, deadline := p.deadline,
              target := p.target, hopLimit := p.hopLimit, reserved := p.reserved, source := p.source, crc := p.crc, params := p.params, gcmOk := p.gcmOk, bulk := p.bulk }))
    ∧ (waitsHere 16
          (w14m fun p =>
            { transport := p.transport, version := p.version, flags := p.flags, tag := p.tag, bay := 8, queue := p.queue, session := p.session, paramLen := p.paramLen, deadline := p.deadline,
              target := p.target, hopLimit := p.hopLimit, reserved := p.reserved, source := p.source, crc := p.crc, params := p.params, gcmOk := p.gcmOk, bulk := p.bulk })
          (wl.queueOf
            (queueId
              (w14m fun p =>
                  { transport := p.transport, version := p.version, flags := p.flags, tag := p.tag, bay := 8, queue := p.queue, session := p.session, paramLen := p.paramLen,
                    deadline := p.deadline, target := p.target, hopLimit := p.hopLimit, reserved := p.reserved, source := p.source, crc := p.crc, params := p.params, gcmOk := p.gcmOk,
                    bulk := p.bulk }).bay
              (w14m fun p =>
                  { transport := p.transport, version := p.version, flags := p.flags, tag := p.tag, bay := 8, queue := p.queue, session := p.session, paramLen := p.paramLen,
                    deadline := p.deadline, target := p.target, hopLimit := p.hopLimit, reserved := p.reserved, source := p.source, crc := p.crc, params := p.params, gcmOk := p.gcmOk,
                    bulk := p.bulk }).queue)) =
        none)
    ∧ ((w14m fun p =>
                { transport := p.transport, version := p.version, flags := p.flags, tag := p.tag, bay := 8, queue := p.queue, session := p.session, paramLen := p.paramLen, deadline := p.deadline,
                  target := p.target, hopLimit := p.hopLimit, reserved := p.reserved, source := p.source, crc := p.crc, params := p.params, gcmOk := p.gcmOk, bulk := p.bulk }).transport.isUdp =
          true →
        (w14m fun p =>
              { transport := p.transport, version := p.version, flags := p.flags, tag := p.tag, bay := 8, queue := p.queue, session := p.session, paramLen := p.paramLen, deadline := p.deadline,
                target := p.target, hopLimit := p.hopLimit, reserved := p.reserved, source := p.source, crc := p.crc, params := p.params, gcmOk := p.gcmOk, bulk := p.bulk }).gcmOk =
          true)
    ∧ ((w14m fun p =>
            { transport := p.transport, version := p.version, flags := p.flags, tag := p.tag, bay := 8, queue := p.queue, session := p.session, paramLen := p.paramLen, deadline := p.deadline,
              target := p.target, hopLimit := p.hopLimit, reserved := p.reserved, source := p.source, crc := p.crc, params := p.params, gcmOk := p.gcmOk, bulk := p.bulk }).crc =
        Packet.crcOf 16
          (w14m fun p =>
            { transport := p.transport, version := p.version, flags := p.flags, tag := p.tag, bay := 8, queue := p.queue, session := p.session, paramLen := p.paramLen, deadline := p.deadline,
              target := p.target, hopLimit := p.hopLimit, reserved := p.reserved, source := p.source, crc := p.crc, params := p.params, gcmOk := p.gcmOk, bulk := p.bulk }))
    ∧ ((w14m fun p =>
            { transport := p.transport, version := p.version, flags := p.flags, tag := p.tag, bay := 8, queue := p.queue, session := p.session, paramLen := p.paramLen, deadline := p.deadline,
              target := p.target, hopLimit := p.hopLimit, reserved := p.reserved, source := p.source, crc := p.crc, params := p.params, gcmOk := p.gcmOk, bulk := p.bulk }).version =
        1)
    ∧ ((w14m fun p =>
              { transport := p.transport, version := p.version, flags := p.flags, tag := p.tag, bay := 8, queue := p.queue, session := p.session, paramLen := p.paramLen, deadline := p.deadline,
                target := p.target, hopLimit := p.hopLimit, reserved := p.reserved, source := p.source, crc := p.crc, params := p.params, gcmOk := p.gcmOk, bulk := p.bulk }).paramLen %
          8 =
        0)
    ∧ ((w14m fun p =>
            { transport := p.transport, version := p.version, flags := p.flags, tag := p.tag, bay := 8, queue := p.queue, session := p.session, paramLen := p.paramLen, deadline := p.deadline,
              target := p.target, hopLimit := p.hopLimit, reserved := p.reserved, source := p.source, crc := p.crc, params := p.params, gcmOk := p.gcmOk, bulk := p.bulk }).paramLen ≤
        paramLimit
          (w14m fun p =>
            { transport := p.transport, version := p.version, flags := p.flags, tag := p.tag, bay := 8, queue := p.queue, session := p.session, paramLen := p.paramLen, deadline := p.deadline,
              target := p.target, hopLimit := p.hopLimit, reserved := p.reserved, source := p.source, crc := p.crc, params := p.params, gcmOk := p.gcmOk, bulk := p.bulk }))
    ∧ ((w14m fun p =>
            { transport := p.transport, version := p.version, flags := p.flags, tag := p.tag, bay := 8, queue := p.queue, session := p.session, paramLen := p.paramLen, deadline := p.deadline,
              target := p.target, hopLimit := p.hopLimit, reserved := p.reserved, source := p.source, crc := p.crc, params := p.params, gcmOk := p.gcmOk, bulk := p.bulk }).paramLen =
        List.length
          (w14m fun p =>
              { transport := p.transport, version := p.version, flags := p.flags, tag := p.tag, bay := 8, queue := p.queue, session := p.session, paramLen := p.paramLen, deadline := p.deadline,
                target := p.target, hopLimit := p.hopLimit, reserved := p.reserved, source := p.source, crc := p.crc, params := p.params, gcmOk := p.gcmOk, bulk := p.bulk }).params)
    ∧ ((w14m fun p =>
              { transport := p.transport, version := p.version, flags := p.flags, tag := p.tag, bay := 8, queue := p.queue, session := p.session, paramLen := p.paramLen, deadline := p.deadline,
                target := p.target, hopLimit := p.hopLimit, reserved := p.reserved, source := p.source, crc := p.crc, params := p.params, gcmOk := p.gcmOk, bulk := p.bulk }).flags.toNat <
        32)
    ∧ ((w14m fun p =>
            { transport := p.transport, version := p.version, flags := p.flags, tag := p.tag, bay := 8, queue := p.queue, session := p.session, paramLen := p.paramLen, deadline := p.deadline,
              target := p.target, hopLimit := p.hopLimit, reserved := p.reserved, source := p.source, crc := p.crc, params := p.params, gcmOk := p.gcmOk, bulk := p.bulk }).reserved =
        0)
    ∧ ((w14m fun p =>
            { transport := p.transport, version := p.version, flags := p.flags, tag := p.tag, bay := 8, queue := p.queue, session := p.session, paramLen := p.paramLen, deadline := p.deadline,
              target := p.target, hopLimit := p.hopLimit, reserved := p.reserved, source := p.source, crc := p.crc, params := p.params, gcmOk := p.gcmOk, bulk := p.bulk }).tagged =
        mustTag 16
          (w14m fun p =>
            { transport := p.transport, version := p.version, flags := p.flags, tag := p.tag, bay := 8, queue := p.queue, session := p.session, paramLen := p.paramLen, deadline := p.deadline,
              target := p.target, hopLimit := p.hopLimit, reserved := p.reserved, source := p.source, crc := p.crc, params := p.params, gcmOk := p.gcmOk, bulk := p.bulk }))
    ∧ (7 <
        (w14m fun p =>
            { transport := p.transport, version := p.version, flags := p.flags, tag := p.tag, bay := 8, queue := p.queue, session := p.session, paramLen := p.paramLen, deadline := p.deadline,
              target := p.target, hopLimit := p.hopLimit, reserved := p.reserved, source := p.source, crc := p.crc, params := p.params, gcmOk := p.gcmOk, bulk := p.bulk }).bay)
    ∧ (waitsHere 16
          (w14m fun p =>
            { transport := p.transport, version := p.version, flags := p.flags, tag := p.tag, bay := p.bay, queue := 16, session := p.session, paramLen := p.paramLen, deadline := p.deadline,
              target := p.target, hopLimit := p.hopLimit, reserved := p.reserved, source := p.source, crc := p.crc, params := p.params, gcmOk := p.gcmOk, bulk := p.bulk })
          (wl.queueOf
            (queueId
              (w14m fun p =>
                  { transport := p.transport, version := p.version, flags := p.flags, tag := p.tag, bay := p.bay, queue := 16, session := p.session, paramLen := p.paramLen, deadline := p.deadline,
                    target := p.target, hopLimit := p.hopLimit, reserved := p.reserved, source := p.source, crc := p.crc, params := p.params, gcmOk := p.gcmOk, bulk := p.bulk }).bay
              (w14m fun p =>
                  { transport := p.transport, version := p.version, flags := p.flags, tag := p.tag, bay := p.bay, queue := 16, session := p.session, paramLen := p.paramLen, deadline := p.deadline,
                    target := p.target, hopLimit := p.hopLimit, reserved := p.reserved, source := p.source, crc := p.crc, params := p.params, gcmOk := p.gcmOk, bulk := p.bulk }).queue)) =
        none)
    ∧ ((w14m fun p =>
                { transport := p.transport, version := p.version, flags := p.flags, tag := p.tag, bay := p.bay, queue := 16, session := p.session, paramLen := p.paramLen, deadline := p.deadline,
                  target := p.target, hopLimit := p.hopLimit, reserved := p.reserved, source := p.source, crc := p.crc, params := p.params, gcmOk := p.gcmOk, bulk := p.bulk }).transport.isUdp =
          true →
        (w14m fun p =>
              { transport := p.transport, version := p.version, flags := p.flags, tag := p.tag, bay := p.bay, queue := 16, session := p.session, paramLen := p.paramLen, deadline := p.deadline,
                target := p.target, hopLimit := p.hopLimit, reserved := p.reserved, source := p.source, crc := p.crc, params := p.params, gcmOk := p.gcmOk, bulk := p.bulk }).gcmOk =
          true)
    ∧ ((w14m fun p =>
            { transport := p.transport, version := p.version, flags := p.flags, tag := p.tag, bay := p.bay, queue := 16, session := p.session, paramLen := p.paramLen, deadline := p.deadline,
              target := p.target, hopLimit := p.hopLimit, reserved := p.reserved, source := p.source, crc := p.crc, params := p.params, gcmOk := p.gcmOk, bulk := p.bulk }).crc =
        Packet.crcOf 16
          (w14m fun p =>
            { transport := p.transport, version := p.version, flags := p.flags, tag := p.tag, bay := p.bay, queue := 16, session := p.session, paramLen := p.paramLen, deadline := p.deadline,
              target := p.target, hopLimit := p.hopLimit, reserved := p.reserved, source := p.source, crc := p.crc, params := p.params, gcmOk := p.gcmOk, bulk := p.bulk }))
    ∧ ((w14m fun p =>
            { transport := p.transport, version := p.version, flags := p.flags, tag := p.tag, bay := p.bay, queue := 16, session := p.session, paramLen := p.paramLen, deadline := p.deadline,
              target := p.target, hopLimit := p.hopLimit, reserved := p.reserved, source := p.source, crc := p.crc, params := p.params, gcmOk := p.gcmOk, bulk := p.bulk }).version =
        1)
    ∧ ((w14m fun p =>
              { transport := p.transport, version := p.version, flags := p.flags, tag := p.tag, bay := p.bay, queue := 16, session := p.session, paramLen := p.paramLen, deadline := p.deadline,
                target := p.target, hopLimit := p.hopLimit, reserved := p.reserved, source := p.source, crc := p.crc, params := p.params, gcmOk := p.gcmOk, bulk := p.bulk }).paramLen %
          8 =
        0)
    ∧ ((w14m fun p =>
            { transport := p.transport, version := p.version, flags := p.flags, tag := p.tag, bay := p.bay, queue := 16, session := p.session, paramLen := p.paramLen, deadline := p.deadline,
              target := p.target, hopLimit := p.hopLimit, reserved := p.reserved, source := p.source, crc := p.crc, params := p.params, gcmOk := p.gcmOk, bulk := p.bulk }).paramLen ≤
        paramLimit
          (w14m fun p =>
            { transport := p.transport, version := p.version, flags := p.flags, tag := p.tag, bay := p.bay, queue := 16, session := p.session, paramLen := p.paramLen, deadline := p.deadline,
              target := p.target, hopLimit := p.hopLimit, reserved := p.reserved, source := p.source, crc := p.crc, params := p.params, gcmOk := p.gcmOk, bulk := p.bulk }))
    ∧ ((w14m fun p =>
            { transport := p.transport, version := p.version, flags := p.flags, tag := p.tag, bay := p.bay, queue := 16, session := p.session, paramLen := p.paramLen, deadline := p.deadline,
              target := p.target, hopLimit := p.hopLimit, reserved := p.reserved, source := p.source, crc := p.crc, params := p.params, gcmOk := p.gcmOk, bulk := p.bulk }).paramLen =
        List.length
          (w14m fun p =>
              { transport := p.transport, version := p.version, flags := p.flags, tag := p.tag, bay := p.bay, queue := 16, session := p.session, paramLen := p.paramLen, deadline := p.deadline,
                target := p.target, hopLimit := p.hopLimit, reserved := p.reserved, source := p.source, crc := p.crc, params := p.params, gcmOk := p.gcmOk, bulk := p.bulk }).params)
    ∧ ((w14m fun p =>
              { transport := p.transport, version := p.version, flags := p.flags, tag := p.tag, bay := p.bay, queue := 16, session := p.session, paramLen := p.paramLen, deadline := p.deadline,
                target := p.target, hopLimit := p.hopLimit, reserved := p.reserved, source := p.source, crc := p.crc, params := p.params, gcmOk := p.gcmOk, bulk := p.bulk }).flags.toNat <
        32) := by
  refine ⟨?_, ?_, ?_, ?_, ?_, ?_, ?_, ?_, ?_, ?_, ?_, ?_, ?_, ?_, ?_, ?_, ?_, ?_, ?_, ?_, ?_, ?_, ?_, ?_, ?_, ?_, ?_, ?_, ?_, ?_⟩ <;> decide +kernel

theorem test_hyps_FirstFailingCheckDecidesTheReply_2 :
    ((w14m fun p =>
            { transport := p.transport, version := p.version, flags := p.flags, tag := p.tag, bay := p.bay, queue := 16, session := p.session, paramLen := p.paramLen, deadline := p.deadline,
              target := p.target, hopLimit := p.hopLimit, reserved := p.reserved, source := p.source, crc := p.crc, params := p.params, gcmOk := p.gcmOk, bulk := p.bulk }).reserved =
        0)
    ∧ ((w14m fun p =>
            { transport := p.transport, version := p.version, flags := p.flags, tag := p.tag, bay := p.bay, queue := 16, session := p.session, paramLen := p.paramLen, deadline := p.deadline,
              target := p.target, hopLimit := p.hopLimit, reserved := p.reserved, source := p.source, crc := p.crc, params := p.params, gcmOk := p.gcmOk, bulk := p.bulk }).tagged =
        mustTag 16
          (w14m fun p =>
            { transport := p.transport, version := p.version, flags := p.flags, tag := p.tag, bay := p.bay, queue := 16, session := p.session, paramLen := p.paramLen, deadline := p.deadline,
              target := p.target, hopLimit := p.hopLimit, reserved := p.reserved, source := p.source, crc := p.crc, params := p.params, gcmOk := p.gcmOk, bulk := p.bulk }))
    ∧ ((w14m fun p =>
            { transport := p.transport, version := p.version, flags := p.flags, tag := p.tag, bay := p.bay, queue := 16, session := p.session, paramLen := p.paramLen, deadline := p.deadline,
              target := p.target, hopLimit := p.hopLimit, reserved := p.reserved, source := p.source, crc := p.crc, params := p.params, gcmOk := p.gcmOk, bulk := p.bulk }).bay ≤
        7)
    ∧ (15 <
        (w14m fun p =>
            { transport := p.transport, version := p.version, flags := p.flags, tag := p.tag, bay := p.bay, queue := 16, session := p.session, paramLen := p.paramLen, deadline := p.deadline,
              target := p.target, hopLimit := p.hopLimit, reserved := p.reserved, source := p.source, crc := p.crc, params := p.params, gcmOk := p.gcmOk, bulk := p.bulk }).queue)
    ∧ (waitsHere 16
          (w14m fun p =>
            { transport := p.transport, version := p.version, flags := p.flags, tag := p.tag, bay := p.bay, queue := p.queue, session := p.session, paramLen := p.paramLen, deadline := p.deadline,
              target := 5000, hopLimit := p.hopLimit, reserved := p.reserved, source := p.source, crc := p.crc, params := p.params, gcmOk := p.gcmOk, bulk := p.bulk })
          (wl.queueOf
            (queueId
              (w14m fun p =>
                  { transport := p.transport, version := p.version, flags := p.flags, tag := p.tag, bay := p.bay, queue := p.queue, session := p.session, paramLen := p.paramLen,
                    deadline := p.deadline, target := 5000, hopLimit := p.hopLimit, reserved := p.reserved, source := p.source, crc := p.crc, params := p.params, gcmOk := p.gcmOk,
                    bulk := p.bulk }).bay
              (w14m fun p =>
                  { transport := p.transport, version := p.version, flags := p.flags, tag := p.tag, bay := p.bay, queue := p.queue, session := p.session, paramLen := p.paramLen,
                    deadline := p.deadline, target := 5000, hopLimit := p.hopLimit, reserved := p.reserved, source := p.source, crc := p.crc, params := p.params, gcmOk := p.gcmOk,
                    bulk := p.bulk }).queue)) =
        none)
    ∧ ((w14m fun p =>
                { transport := p.transport, version := p.version, flags := p.flags, tag := p.tag, bay := p.bay, queue := p.queue, session := p.session, paramLen := p.paramLen,
                  deadline := p.deadline, target := 5000, hopLimit := p.hopLimit, reserved := p.reserved, source := p.source, crc := p.crc, params := p.params, gcmOk := p.gcmOk,
                  bulk := p.bulk }).transport.isUdp =
          true →
        (w14m fun p =>
              { transport := p.transport, version := p.version, flags := p.flags, tag := p.tag, bay := p.bay, queue := p.queue, session := p.session, paramLen := p.paramLen,
                deadline := p.deadline, target := 5000, hopLimit := p.hopLimit, reserved := p.reserved, source := p.source, crc := p.crc, params := p.params, gcmOk := p.gcmOk,
                bulk := p.bulk }).gcmOk =
          true)
    ∧ ((w14m fun p =>
            { transport := p.transport, version := p.version, flags := p.flags, tag := p.tag, bay := p.bay, queue := p.queue, session := p.session, paramLen := p.paramLen, deadline := p.deadline,
              target := 5000, hopLimit := p.hopLimit, reserved := p.reserved, source := p.source, crc := p.crc, params := p.params, gcmOk := p.gcmOk, bulk := p.bulk }).crc =
        Packet.crcOf 16
          (w14m fun p =>
            { transport := p.transport, version := p.version, flags := p.flags, tag := p.tag, bay := p.bay, queue := p.queue, session := p.session, paramLen := p.paramLen, deadline := p.deadline,
              target := 5000, hopLimit := p.hopLimit, reserved := p.reserved, source := p.source, crc := p.crc, params := p.params, gcmOk := p.gcmOk, bulk := p.bulk }))
    ∧ ((w14m fun p =>
            { transport := p.transport, version := p.version, flags := p.flags, tag := p.tag, bay := p.bay, queue := p.queue, session := p.session, paramLen := p.paramLen, deadline := p.deadline,
              target := 5000, hopLimit := p.hopLimit, reserved := p.reserved, source := p.source, crc := p.crc, params := p.params, gcmOk := p.gcmOk, bulk := p.bulk }).version =
        1)
    ∧ ((w14m fun p =>
              { transport := p.transport, version := p.version, flags := p.flags, tag := p.tag, bay := p.bay, queue := p.queue, session := p.session, paramLen := p.paramLen,
                deadline := p.deadline, target := 5000, hopLimit := p.hopLimit, reserved := p.reserved, source := p.source, crc := p.crc, params := p.params, gcmOk := p.gcmOk,
                bulk := p.bulk }).paramLen %
          8 =
        0)
    ∧ ((w14m fun p =>
            { transport := p.transport, version := p.version, flags := p.flags, tag := p.tag, bay := p.bay, queue := p.queue, session := p.session, paramLen := p.paramLen, deadline := p.deadline,
              target := 5000, hopLimit := p.hopLimit, reserved := p.reserved, source := p.source, crc := p.crc, params := p.params, gcmOk := p.gcmOk, bulk := p.bulk }).paramLen ≤
        paramLimit
          (w14m fun p =>
            { transport := p.transport, version := p.version, flags := p.flags, tag := p.tag, bay := p.bay, queue := p.queue, session := p.session, paramLen := p.paramLen, deadline := p.deadline,
              target := 5000, hopLimit := p.hopLimit, reserved := p.reserved, source := p.source, crc := p.crc, params := p.params, gcmOk := p.gcmOk, bulk := p.bulk }))
    ∧ ((w14m fun p =>
            { transport := p.transport, version := p.version, flags := p.flags, tag := p.tag, bay := p.bay, queue := p.queue, session := p.session, paramLen := p.paramLen, deadline := p.deadline,
              target := 5000, hopLimit := p.hopLimit, reserved := p.reserved, source := p.source, crc := p.crc, params := p.params, gcmOk := p.gcmOk, bulk := p.bulk }).paramLen =
        List.length
          (w14m fun p =>
              { transport := p.transport, version := p.version, flags := p.flags, tag := p.tag, bay := p.bay, queue := p.queue, session := p.session, paramLen := p.paramLen,
                deadline := p.deadline, target := 5000, hopLimit := p.hopLimit, reserved := p.reserved, source := p.source, crc := p.crc, params := p.params, gcmOk := p.gcmOk,
                bulk := p.bulk }).params)
    ∧ ((w14m fun p =>
              { transport := p.transport, version := p.version, flags := p.flags, tag := p.tag, bay := p.bay, queue := p.queue, session := p.session, paramLen := p.paramLen,
                deadline := p.deadline, target := 5000, hopLimit := p.hopLimit, reserved := p.reserved, source := p.source, crc := p.crc, params := p.params, gcmOk := p.gcmOk,
                bulk := p.bulk }).flags.toNat <
        32)
    ∧ ((w14m fun p =>
            { transport := p.transport, version := p.version, flags := p.flags, tag := p.tag, bay := p.bay, queue := p.queue, session := p.session, paramLen := p.paramLen, deadline := p.deadline,
              target := 5000, hopLimit := p.hopLimit, reserved := p.reserved, source := p.source, crc := p.crc, params := p.params, gcmOk := p.gcmOk, bulk := p.bulk }).reserved =
        0)
    ∧ ((w14m fun p =>
            { transport := p.transport, version := p.version, flags := p.flags, tag := p.tag, bay := p.bay, queue := p.queue, session := p.session, paramLen := p.paramLen, deadline := p.deadline,
              target := 5000, hopLimit := p.hopLimit, reserved := p.reserved, source := p.source, crc := p.crc, params := p.params, gcmOk := p.gcmOk, bulk := p.bulk }).tagged =
        mustTag 16
          (w14m fun p =>
            { transport := p.transport, version := p.version, flags := p.flags, tag := p.tag, bay := p.bay, queue := p.queue, session := p.session, paramLen := p.paramLen, deadline := p.deadline,
              target := 5000, hopLimit := p.hopLimit, reserved := p.reserved, source := p.source, crc := p.crc, params := p.params, gcmOk := p.gcmOk, bulk := p.bulk }))
    ∧ ((w14m fun p =>
            { transport := p.transport, version := p.version, flags := p.flags, tag := p.tag, bay := p.bay, queue := p.queue, session := p.session, paramLen := p.paramLen, deadline := p.deadline,
              target := 5000, hopLimit := p.hopLimit, reserved := p.reserved, source := p.source, crc := p.crc, params := p.params, gcmOk := p.gcmOk, bulk := p.bulk }).bay ≤
        7)
    ∧ ((w14m fun p =>
            { transport := p.transport, version := p.version, flags := p.flags, tag := p.tag, bay := p.bay, queue := p.queue, session := p.session, paramLen := p.paramLen, deadline := p.deadline,
              target := 5000, hopLimit := p.hopLimit, reserved := p.reserved, source := p.source, crc := p.crc, params := p.params, gcmOk := p.gcmOk, bulk := p.bulk }).queue ≤
        15)
    ∧ (1023 <
        (w14m fun p =>
            { transport := p.transport, version := p.version, flags := p.flags, tag := p.tag, bay := p.bay, queue := p.queue, session := p.session, paramLen := p.paramLen, deadline := p.deadline,
              target := 5000, hopLimit := p.hopLimit, reserved := p.reserved, source := p.source, crc := p.crc, params := p.params, gcmOk := p.gcmOk, bulk := p.bulk }).target)
    ∧ ((w14m fun p =>
            { transport := p.transport, version := p.version, flags := p.flags, tag := p.tag, bay := p.bay, queue := p.queue, session := p.session, paramLen := p.paramLen, deadline := p.deadline,
              target := 5000, hopLimit := p.hopLimit, reserved := p.reserved, source := p.source, crc := p.crc, params := p.params, gcmOk := p.gcmOk, bulk := p.bulk }).target ≠
        65535)
    ∧ (waitsHere 16 w14p0 (wl.queueOf (queueId w14p0.bay w14p0.queue)) = none)
    ∧ (w14p0.transport.isUdp = true → w14p0.gcmOk = true)
    ∧ (w14p0.crc ≠ Packet.crcOf 16 w14p0)
    ∧ (waitsHere 16
          (w14m fun p =>
            { transport := Transport.udp 1 2, version := p.version, flags := p.flags, tag := p.tag, bay := p.bay, queue := p.queue, session := p.session, paramLen := p.paramLen,
              deadline := p.deadline, target := p.target, hopLimit := p.hopLimit, reserved := p.reserved, source := p.source, crc := p.crc, params := p.params, gcmOk := false, bulk := p.bulk })
          (wl.queueOf
            (queueId
              (w14m fun p =>
                  { transport := Transport.udp 1 2, version := p.version, flags := p.flags, tag := p.tag, bay := p.bay, queue := p.queue, session := p.session, paramLen := p.paramLen,
                    deadline := p.deadline, target := p.target, hopLimit := p.hopLimit, reserved := p.reserved, source := p.source, crc := p.crc, params := p.params, gcmOk := false,
                    bulk := p.bulk }).bay
              (w14m fun p =>
                  { transport := Transport.udp 1 2, version := p.version, flags := p.flags, tag := p.tag, bay := p.bay, queue := p.queue, session := p.session, paramLen := p.paramLen,
                    deadline := p.deadline, target := p.target, hopLimit := p.hopLimit, reserved := p.reserved, source := p.source, crc := p.crc, params := p.params, gcmOk := false,
                    bulk := p.bulk }).queue)) =
        none)
    ∧ ((w14m fun p =>
              { transport := Transport.udp 1 2, version := p.version, flags := p.flags, tag := p.tag, bay := p.bay, queue := p.queue, session := p.session, paramLen := p.paramLen,
                deadline := p.deadline, target := p.target, hopLimit := p.hopLimit, reserved := p.reserved, source := p.source, crc := p.crc, params := p.params, gcmOk := false,
                bulk := p.bulk }).transport.isUdp =
        true)
    ∧ ((w14m fun p =>
            { transport := Transport.udp 1 2, version := p.version, flags := p.flags, tag := p.tag, bay := p.bay, queue := p.queue, session := p.session, paramLen := p.paramLen,
              deadline := p.deadline, target := p.target, hopLimit := p.hopLimit, reserved := p.reserved, source := p.source, crc := p.crc, params := p.params, gcmOk := false,
              bulk := p.bulk }).gcmOk =
        false)
    ∧ (waitsHere 16
          (w14m fun p =>
            { transport := p.transport, version := 2, flags := p.flags, tag := p.tag, bay := p.bay, queue := p.queue, session := p.session, paramLen := p.paramLen, deadline := p.deadline,
              target := p.target, hopLimit := p.hopLimit, reserved := p.reserved, source := p.source, crc := p.crc, params := p.params, gcmOk := p.gcmOk, bulk := p.bulk })
          (wl.queueOf
            (queueId
              (w14m fun p =>
                  { transport := p.transport, version := 2, flags := p.flags, tag := p.tag, bay := p.bay, queue := p.queue, session := p.session, paramLen := p.paramLen, deadline := p.deadline,
                    target := p.target, hopLimit := p.hopLimit, reserved := p.reserved, source := p.source, crc := p.crc, params := p.params, gcmOk := p.gcmOk, bulk := p.bulk }).bay
              (w14m fun p =>
                  { transport := p.transport, version := 2, flags := p.flags, tag := p.tag, bay := p.bay, queue := p.queue, session := p.session, paramLen := p.paramLen, deadline := p.deadline,
                    target := p.target, hopLimit := p.hopLimit, reserved := p.reserved, source := p.source, crc := p.crc, params := p.params, gcmOk := p.gcmOk, bulk := p.bulk }).queue)) =
        none)
    ∧ ((w14m fun p =>
                { transport := p.transport, version := 2, flags := p.flags, tag := p.tag, bay := p.bay, queue := p.queue, session := p.session, paramLen := p.paramLen, deadline := p.deadline,
                  target := p.target, hopLimit := p.hopLimit, reserved := p.reserved, source := p.source, crc := p.crc, params := p.params, gcmOk := p.gcmOk, bulk := p.bulk }).transport.isUdp =
          true →
        (w14m fun p =>
              { transport := p.transport, version := 2, flags := p.flags, tag := p.tag, bay := p.bay, queue := p.queue, session := p.session, paramLen := p.paramLen, deadline := p.deadline,
                target := p.target, hopLimit := p.hopLimit, reserved := p.reserved, source := p.source, crc := p.crc, params := p.params, gcmOk := p.gcmOk, bulk := p.bulk }).gcmOk =
          true)
    ∧ ((w14m fun p =>
            { transport := p.transport, version := 2, flags := p.flags, tag := p.tag, bay := p.bay, queue := p.queue, session := p.session, paramLen := p.paramLen, deadline := p.deadline,
              target := p.target, hopLimit := p.hopLimit, reserved := p.reserved, source := p.source, crc := p.crc, params := p.params, gcmOk := p.gcmOk, bulk := p.bulk }).crc =
        Packet.crcOf 16
          (w14m fun p =>
            { transport := p.transport, version := 2, flags := p.flags, tag := p.tag, bay := p.bay, queue := p.queue, session := p.session, paramLen := p.paramLen, deadline := p.deadline,
              target := p.target, hopLimit := p.hopLimit, reserved := p.reserved, source := p.source, crc := p.crc, params := p.params, gcmOk := p.gcmOk, bulk := p.bulk }))
    ∧ ((w14m fun p =>
            { transport := p.transport, version := 2, flags := p.flags, tag := p.tag, bay := p.bay, queue := p.queue, session := p.session, paramLen := p.paramLen, deadline := p.deadline,
              target := p.target, hopLimit := p.hopLimit, reserved := p.reserved, source := p.source, crc := p.crc, params := p.params, gcmOk := p.gcmOk, bulk := p.bulk }).version ≠
        1)
    ∧ (waitsHere 16
          (w14m fun p =>
            { transport := p.transport, version := p.version, flags := p.flags, tag := p.tag, bay := p.bay, queue := p.queue, session := p.session, paramLen := 3, deadline := p.deadline,
              target := p.target, hopLimit := p.hopLimit, reserved := p.reserved, source := p.source, crc := p.crc, params := p.params, gcmOk := p.gcmOk, bulk := p.bulk })
          (wl.queueOf
            (queueId
              (w14m fun p =>
                  { transport := p.transport, version := p.version, flags := p.flags, tag := p.tag, bay := p.bay, queue := p.queue, session := p.session, paramLen := 3, deadline := p.deadline,
                    target := p.target, hopLimit := p.hopLimit, reserved := p.reserved, source := p.source, crc := p.crc, params := p.params, gcmOk := p.gcmOk, bulk := p.bulk }).bay
              (w14m fun p =>
                  { transport := p.transport, version := p.version, flags := p.flags, tag := p.tag, bay := p.bay, queue := p.queue, session := p.session, paramLen := 3, deadline := p.deadline,
                    target := p.target, hopLimit := p.hopLimit, reserved := p.reserved, source := p.source, crc := p.crc, params := p.params, gcmOk := p.gcmOk, bulk := p.bulk }).queue)) =
        none)
    ∧ ((w14m fun p =>
                { transport := p.transport, version := p.version, flags := p.flags, tag := p.tag, bay := p.bay, queue := p.queue, session := p.session, paramLen := 3, deadline := p.deadline,
                  target := p.target, hopLimit := p.hopLimit, reserved := p.reserved, source := p.source, crc := p.crc, params := p.params, gcmOk := p.gcmOk, bulk := p.bulk }).transport.isUdp =
          true →
        (w14m fun p =>
              { transport := p.transport, version := p.version, flags := p.flags, tag := p.tag, bay := p.bay, queue := p.queue, session := p.session, paramLen := 3, deadline := p.deadline,
                target := p.target, hopLimit := p.hopLimit, reserved := p.reserved, source := p.source, crc := p.crc, params := p.params, gcmOk := p.gcmOk, bulk := p.bulk }).gcmOk =
          true) := by
  refine ⟨?_, ?_, ?_, ?_, ?_, ?_, ?_, ?_, ?_, ?_, ?_, ?_, ?_, ?_, ?_, ?_, ?_, ?_, ?_, ?_, ?_, ?_, ?_, ?_, ?_, ?_, ?_, ?_, ?_, ?_⟩ <;> decide +kernel

theorem test_hyps_FirstFailingCheckDecidesTheReply_3 :
    ((w14m fun p =>
            { transport := p.transport, version := p.version, flags := p.flags, tag := p.tag, bay := p.bay, queue := p.queue, session := p.session, paramLen := 3, deadline := p.deadline,
              target := p.target, hopLimit := p.hopLimit, reserved := p.reserved, source := p.source, crc := p.crc, params := p.params, gcmOk := p.gcmOk, bulk := p.bulk }).crc =
        Packet.crcOf 16
          (w14m fun p =>
            { transport := p.transport, version := p.version, flags := p.flags, tag := p.tag, bay := p.bay, queue := p.queue, session := p.session, paramLen := 3, deadline := p.deadline,
              target := p.target, hopLimit := p.hopLimit, reserved := p.reserved, source := p.source, crc := p.crc, params := p.params, gcmOk := p.gcmOk, bulk := p.bulk }))
    ∧ ((w14m fun p =>
            { transport := p.transport, version := p.version, flags := p.flags, tag := p.tag, bay := p.bay, queue := p.queue, session := p.session, paramLen := 3, deadline := p.deadline,
              target := p.target, hopLimit := p.hopLimit, reserved := p.reserved, source := p.source, crc := p.crc, params := p.params, gcmOk := p.gcmOk, bulk := p.bulk }).version =
        1)
    ∧ ((w14m fun p =>
                { transport := p.transport, version := p.version, flags := p.flags, tag := p.tag, bay := p.bay, queue := p.queue, session := p.session, paramLen := 3, deadline := p.deadline,
                  target := p.target, hopLimit := p.hopLimit, reserved := p.reserved, source := p.source, crc := p.crc, params := p.params, gcmOk := p.gcmOk, bulk := p.bulk }).paramLen %
            8 ≠
          0 ∨
        paramLimit
              (w14m fun p =>
                { transport := p.transport, version := p.version, flags := p.flags, tag := p.tag, bay := p.bay, queue := p.queue, session := p.session, paramLen := 3, deadline := p.deadline,
                  target := p.target, hopLimit := p.hopLimit, reserved := p.reserved, source := p.source, crc := p.crc, params := p.params, gcmOk := p.gcmOk, bulk := p.bulk }) <
            (w14m fun p =>
                { transport := p.transport, version := p.version, flags := p.flags, tag := p.tag, bay := p.bay, queue := p.queue, session := p.session, paramLen := 3, deadline := p.deadline,
                  target := p.target, hopLimit := p.hopLimit, reserved := p.reserved, source := p.source, crc := p.crc, params := p.params, gcmOk := p.gcmOk, bulk := p.bulk }).paramLen ∨
          (w14m fun p =>
                { transport := p.transport, version := p.version, flags := p.flags, tag := p.tag, bay := p.bay, queue := p.queue, session := p.session, paramLen := 3, deadline := p.deadline,
                  target := p.target, hopLimit := p.hopLimit, reserved := p.reserved, source := p.source, crc := p.crc, params := p.params, gcmOk := p.gcmOk, bulk := p.bulk }).paramLen ≠
            List.length
              (w14m fun p =>
                  { transport := p.transport, version := p.version, flags := p.flags, tag := p.tag, bay := p.bay, queue := p.queue, session := p.session, paramLen := 3, deadline := p.deadline,
                    target := p.target, hopLimit := p.hopLimit, reserved := p.reserved, source := p.source, crc := p.crc, params := p.params, gcmOk := p.gcmOk, bulk := p.bulk }).params)
    ∧ (waitsHere 16
          (w14m fun p =>
            { transport := p.transport, version := p.version, flags := 64, tag := p.tag, bay := p.bay, queue := p.queue, session := p.session, paramLen := p.paramLen, deadline := p.deadline,
              target := p.target, hopLimit := p.hopLimit, reserved := p.reserved, source := p.source, crc := p.crc, params := p.params, gcmOk := p.gcmOk, bulk := p.bulk })
          (wl.queueOf
            (queueId
              (w14m fun p =>
                  { transport := p.transport, version := p.version, flags := 64, tag := p.tag, bay := p.bay, queue := p.queue, session := p.session, paramLen := p.paramLen, deadline := p.deadline,
                    target := p.target, hopLimit := p.hopLimit, reserved := p.reserved, source := p.source, crc := p.crc, params := p.params, gcmOk := p.gcmOk, bulk := p.bulk }).bay
              (w14m fun p =>
                  { transport := p.transport, version := p.version, flags := 64, tag := p.tag, bay := p.bay, queue := p.queue, session := p.session, paramLen := p.paramLen, deadline := p.deadline,
                    target := p.target, hopLimit := p.hopLimit, reserved := p.reserved, source := p.source, crc := p.crc, params := p.params, gcmOk := p.gcmOk, bulk := p.bulk }).queue)) =
        none)
    ∧ ((w14m fun p =>
                { transport := p.transport, version := p.version, flags := 64, tag := p.tag, bay := p.bay, queue := p.queue, session := p.session, paramLen := p.paramLen, deadline := p.deadline,
                  target := p.target, hopLimit := p.hopLimit, reserved := p.reserved, source := p.source, crc := p.crc, params := p.params, gcmOk := p.gcmOk, bulk := p.bulk }).transport.isUdp =
          true →
        (w14m fun p =>
              { transport := p.transport, version := p.version, flags := 64, tag := p.tag, bay := p.bay, queue := p.queue, session := p.session, paramLen := p.paramLen, deadline := p.deadline,
                target := p.target, hopLimit := p.hopLimit, reserved := p.reserved, source := p.source, crc := p.crc, params := p.params, gcmOk := p.gcmOk, bulk := p.bulk }).gcmOk =
          true)
    ∧ ((w14m fun p =>
            { transport := p.transport, version := p.version, flags := 64, tag := p.tag, bay := p.bay, queue := p.queue, session := p.session, paramLen := p.paramLen, deadline := p.deadline,
              target := p.target, hopLimit := p.hopLimit, reserved := p.reserved, source := p.source, crc := p.crc, params := p.params, gcmOk := p.gcmOk, bulk := p.bulk }).crc =
        Packet.crcOf 16
          (w14m fun p =>
            { transport := p.transport, version := p.version, flags := 64, tag := p.tag, bay := p.bay, queue := p.queue, session := p.session, paramLen := p.paramLen, deadline := p.deadline,
              target := p.target, hopLimit := p.hopLimit, reserved := p.reserved, source := p.source, crc := p.crc, params := p.params, gcmOk := p.gcmOk, bulk := p.bulk }))
    ∧ ((w14m fun p =>
            { transport := p.transport, version := p.version, flags := 64, tag := p.tag, bay := p.bay, queue := p.queue, session := p.session, paramLen := p.paramLen, deadline := p.deadline,
              target := p.target, hopLimit := p.hopLimit, reserved := p.reserved, source := p.source, crc := p.crc, params := p.params, gcmOk := p.gcmOk, bulk := p.bulk }).version =
        1)
    ∧ ((w14m fun p =>
              { transport := p.transport, version := p.version, flags := 64, tag := p.tag, bay := p.bay, queue := p.queue, session := p.session, paramLen := p.paramLen, deadline := p.deadline,
                target := p.target, hopLimit := p.hopLimit, reserved := p.reserved, source := p.source, crc := p.crc, params := p.params, gcmOk := p.gcmOk, bulk := p.bulk }).paramLen %
          8 =
        0)
    ∧ ((w14m fun p =>
            { transport := p.transport, version := p.version, flags := 64, tag := p.tag, bay := p.bay, queue := p.queue, session := p.session, paramLen := p.paramLen, deadline := p.deadline,
              target := p.target, hopLimit := p.hopLimit, reserved := p.reserved, source := p.source, crc := p.crc, params := p.params, gcmOk := p.gcmOk, bulk := p.bulk }).paramLen ≤
        paramLimit
          (w14m fun p =>
            { transport := p.transport, version := p.version, flags := 64, tag := p.tag, bay := p.bay, queue := p.queue, session := p.session, paramLen := p.paramLen, deadline := p.deadline,
              target := p.target, hopLimit := p.hopLimit, reserved := p.reserved, source := p.source, crc := p.crc, params := p.params, gcmOk := p.gcmOk, bulk := p.bulk }))
    ∧ ((w14m fun p =>
            { transport := p.transport, version := p.version, flags := 64, tag := p.tag, bay := p.bay, queue := p.queue, session := p.session, paramLen := p.paramLen, deadline := p.deadline,
              target := p.target, hopLimit := p.hopLimit, reserved := p.reserved, source := p.source, crc := p.crc, params := p.params, gcmOk := p.gcmOk, bulk := p.bulk }).paramLen =
        List.length
          (w14m fun p =>
              { transport := p.transport, version := p.version, flags := 64, tag := p.tag, bay := p.bay, queue := p.queue, session := p.session, paramLen := p.paramLen, deadline := p.deadline,
                target := p.target, hopLimit := p.hopLimit, reserved := p.reserved, source := p.source, crc := p.crc, params := p.params, gcmOk := p.gcmOk, bulk := p.bulk }).params)
    ∧ (32 ≤
        (w14m fun p =>
              { transport := p.transport, version := p.version, flags := 64, tag := p.tag, bay := p.bay, queue := p.queue, session := p.session, paramLen := p.paramLen, deadline := p.deadline,
                target := p.target, hopLimit := p.hopLimit, reserved := p.reserved, source := p.source, crc := p.crc, params := p.params, gcmOk := p.gcmOk, bulk := p.bulk }).flags.toNat)
    ∧ (waitsHere 16
          (w14m fun p =>
            { transport := p.transport, version := p.version, flags := p.flags, tag := p.tag, bay := p.bay, queue := p.queue, session := p.session, paramLen := p.paramLen, deadline := p.deadline,
              target := p.target, hopLimit := p.hopLimit, reserved := 1, source := p.source, crc := p.crc, params := p.params, gcmOk := p.gcmOk, bulk := p.bulk })
          (wl.queueOf
            (queueId
              (w14m fun p =>
                  { transport := p.transport, version := p.version, flags := p.flags, tag := p.tag, bay := p.bay, queue := p.queue, session := p.session, paramLen := p.paramLen,
                    deadline := p.deadline, target := p.target, hopLimit := p.hopLimit, reserved := 1, source := p.source, crc := p.crc, params := p.params, gcmOk := p.gcmOk, bulk := p.bulk }).bay
              (w14m fun p =>
                  { transport := p.transport, version := p.version, flags := p.flags, tag := p.tag, bay := p.bay, queue := p.queue, session := p.session, paramLen := p.paramLen,
                    deadline := p.deadline, target := p.target, hopLimit := p.hopLimit, reserved := 1, source := p.source, crc := p.crc, params := p.params, gcmOk := p.gcmOk,
                    bulk := p.bulk }).queue)) =
        none)
    ∧ ((w14m fun p =>
                { transport := p.transport, version := p.version, flags := p.flags, tag := p.tag, bay := p.bay, queue := p.queue, session := p.session, paramLen := p.paramLen,
                  deadline := p.deadline, target := p.target, hopLimit := p.hopLimit, reserved := 1, source := p.source, crc := p.crc, params := p.params, gcmOk := p.gcmOk,
                  bulk := p.bulk }).transport.isUdp =
          true →
        (w14m fun p =>
              { transport := p.transport, version := p.version, flags := p.flags, tag := p.tag, bay := p.bay, queue := p.queue, session := p.session, paramLen := p.paramLen,
                deadline := p.deadline, target := p.target, hopLimit := p.hopLimit, reserved := 1, source := p.source, crc := p.crc, params := p.params, gcmOk := p.gcmOk, bulk := p.bulk }).gcmOk =
          true)
    ∧ ((w14m fun p =>
            { transport := p.transport, version := p.version, flags := p.flags, tag := p.tag, bay := p.bay, queue := p.queue, session := p.session, paramLen := p.paramLen, deadline := p.deadline,
              target := p.target, hopLimit := p.hopLimit, reserved := 1, source := p.source, crc := p.crc, params := p.params, gcmOk := p.gcmOk, bulk := p.bulk }).crc =
        Packet.crcOf 16
          (w14m fun p =>
            { transport := p.transport, version := p.version, flags := p.flags, tag := p.tag, bay := p.bay, queue := p.queue, session := p.session, paramLen := p.paramLen, deadline := p.deadline,
              target := p.target, hopLimit := p.hopLimit, reserved := 1, source := p.source, crc := p.crc, params := p.params, gcmOk := p.gcmOk, bulk := p.bulk }))
    ∧ ((w14m fun p =>
            { transport := p.transport, version := p.version, flags := p.flags, tag := p.tag, bay := p.bay, queue := p.queue, session := p.session, paramLen := p.paramLen, deadline := p.deadline,
              target := p.target, hopLimit := p.hopLimit, reserved := 1, source := p.source, crc := p.crc, params := p.params, gcmOk := p.gcmOk, bulk := p.bulk }).version =
        1)
    ∧ ((w14m fun p =>
              { transport := p.transport, version := p.version, flags := p.flags, tag := p.tag, bay := p.bay, queue := p.queue, session := p.session, paramLen := p.paramLen,
                deadline := p.deadline, target := p.target, hopLimit := p.hopLimit, reserved := 1, source := p.source, crc := p.crc, params := p.params, gcmOk := p.gcmOk,
                bulk := p.bulk }).paramLen %
          8 =
        0)
    ∧ ((w14m fun p =>
            { transport := p.transport, version := p.version, flags := p.flags, tag := p.tag, bay := p.bay, queue := p.queue, session := p.session, paramLen := p.paramLen, deadline := p.deadline,
              target := p.target, hopLimit := p.hopLimit, reserved := 1, source := p.source, crc := p.crc, params := p.params, gcmOk := p.gcmOk, bulk := p.bulk }).paramLen ≤
        paramLimit
          (w14m fun p =>
            { transport := p.transport, version := p.version, flags := p.flags, tag := p.tag, bay := p.bay, queue := p.queue, session := p.session, paramLen := p.paramLen, deadline := p.deadline,
              target := p.target, hopLimit := p.hopLimit, reserved := 1, source := p.source, crc := p.crc, params := p.params, gcmOk := p.gcmOk, bulk := p.bulk }))
    ∧ ((w14m fun p =>
            { transport := p.transport, version := p.version, flags := p.flags, tag := p.tag, bay := p.bay, queue := p.queue, session := p.session, paramLen := p.paramLen, deadline := p.deadline,
              target := p.target, hopLimit := p.hopLimit, reserved := 1, source := p.source, crc := p.crc, params := p.params, gcmOk := p.gcmOk, bulk := p.bulk }).paramLen =
        List.length
          (w14m fun p =>
              { transport := p.transport, version := p.version, flags := p.flags, tag := p.tag, bay := p.bay, queue := p.queue, session := p.session, paramLen := p.paramLen,
                deadline := p.deadline, target := p.target, hopLimit := p.hopLimit, reserved := 1, source := p.source, crc := p.crc, params := p.params, gcmOk := p.gcmOk, bulk := p.bulk }).params)
    ∧ ((w14m fun p =>
              { transport := p.transport, version := p.version, flags := p.flags, tag := p.tag, bay := p.bay, queue := p.queue, session := p.session, paramLen := p.paramLen,
                deadline := p.deadline, target := p.target, hopLimit := p.hopLimit, reserved := 1, source := p.source, crc := p.crc, params := p.params, gcmOk := p.gcmOk,
                bulk := p.bulk }).flags.toNat <
        32)
    ∧ ((w14m fun p =>
            { transport := p.transport, version := p.version, flags := p.flags, tag := p.tag, bay := p.bay, queue := p.queue, session := p.session, paramLen := p.paramLen, deadline := p.deadline,
              target := p.target, hopLimit := p.hopLimit, reserved := 1, source := p.source, crc := p.crc, params := p.params, gcmOk := p.gcmOk, bulk := p.bulk }).reserved ≠
        0)
    ∧ (waitsHere 4095 (w14c 4095) (wl.queueOf (queueId (w14c 4095).bay (w14c 4095).queue)) = none)
    ∧ ((w14c 4095).transport.isUdp = true → (w14c 4095).gcmOk = true)
    ∧ ((w14c 4095).crc = Packet.crcOf 4095 (w14c 4095))
    ∧ ((w14c 4095).version = 1)
    ∧ ((w14c 4095).paramLen % 8 = 0)
    ∧ ((w14c 4095).paramLen ≤ paramLimit (w14c 4095))
    ∧ ((w14c 4095).paramLen = List.length (w14c 4095).params)
    ∧ ((w14c 4095).flags.toNat < 32)
    ∧ ((w14c 4095).reserved = 0)
    ∧ ((w14c 4095).tagged = mustTag 4095 (w14c 4095)) := by
  refine ⟨?_, ?_, ?_, ?_, ?_, ?_, ?_, ?_, ?_, ?_, ?_, ?_, ?_, ?_, ?_, ?_, ?_, ?_, ?_, ?_, ?_, ?_, ?_, ?_, ?_, ?_, ?_, ?_, ?_, ?_⟩ <;> decide +kernel

theorem test_hyps_FirstFailingCheckDecidesTheReply_4 :
    ((w14c 4095).bay ≤ 7)
    ∧ ((w14c 4095).queue ≤ 15)
    ∧ (TargetHere (w14c 4095) wl = true)
    ∧ (card 4095 = none)
    ∧ ((w14m fun p =>
            { transport := p.transport, version := p.version, flags := p.flags, tag := p.tag, bay := 0, queue := p.queue, session := p.session, paramLen := p.paramLen, deadline := p.deadline,
              target := p.target, hopLimit := p.hopLimit, reserved := p.reserved, source := p.source, crc := p.crc, params := p.params, gcmOk := p.gcmOk, bulk := p.bulk }).crc =
        Packet.crcOf 16
          (w14m fun p =>
            { transport := p.transport, version := p.version, flags := p.flags, tag := p.tag, bay := 0, queue := p.queue, session := p.session, paramLen := p.paramLen, deadline := p.deadline,
              target := p.target, hopLimit := p.hopLimit, reserved := p.reserved, source := p.source, crc := p.crc, params := p.params, gcmOk := p.gcmOk, bulk := p.bulk }))
    ∧ ((w14m fun p =>
                { transport := p.transport, version := p.version, flags := p.flags, tag := p.tag, bay := 0, queue := p.queue, session := p.session, paramLen := p.paramLen, deadline := p.deadline,
                  target := p.target, hopLimit := p.hopLimit, reserved := p.reserved, source := p.source, crc := p.crc, params := p.params, gcmOk := p.gcmOk, bulk := p.bulk }).transport.isUdp =
          true →
        (w14m fun p =>
              { transport := p.transport, version := p.version, flags := p.flags, tag := p.tag, bay := 0, queue := p.queue, session := p.session, paramLen := p.paramLen, deadline := p.deadline,
                target := p.target, hopLimit := p.hopLimit, reserved := p.reserved, source := p.source, crc := p.crc, params := p.params, gcmOk := p.gcmOk, bulk := p.bulk }).gcmOk =
          true)
    ∧ ((w14m fun p =>
            { transport := p.transport, version := p.version, flags := p.flags, tag := p.tag, bay := 0, queue := p.queue, session := p.session, paramLen := p.paramLen, deadline := p.deadline,
              target := p.target, hopLimit := p.hopLimit, reserved := p.reserved, source := p.source, crc := p.crc, params := p.params, gcmOk := p.gcmOk, bulk := p.bulk }).version =
        1)
    ∧ ((w14m fun p =>
              { transport := p.transport, version := p.version, flags := p.flags, tag := p.tag, bay := 0, queue := p.queue, session := p.session, paramLen := p.paramLen, deadline := p.deadline,
                target := p.target, hopLimit := p.hopLimit, reserved := p.reserved, source := p.source, crc := p.crc, params := p.params, gcmOk := p.gcmOk, bulk := p.bulk }).paramLen %
          8 =
        0)
    ∧ ((w14m fun p =>
            { transport := p.transport, version := p.version, flags := p.flags, tag := p.tag, bay := 0, queue := p.queue, session := p.session, paramLen := p.paramLen, deadline := p.deadline,
              target := p.target, hopLimit := p.hopLimit, reserved := p.reserved, source := p.source, crc := p.crc, params := p.params, gcmOk := p.gcmOk, bulk := p.bulk }).paramLen ≤
        paramLimit
          (w14m fun p =>
            { transport := p.transport, version := p.version, flags := p.flags, tag := p.tag, bay := 0, queue := p.queue, session := p.session, paramLen := p.paramLen, deadline := p.deadline,
              target := p.target, hopLimit := p.hopLimit, reserved := p.reserved, source := p.source, crc := p.crc, params := p.params, gcmOk := p.gcmOk, bulk := p.bulk }))
    ∧ ((w14m fun p =>
            { transport := p.transport, version := p.version, flags := p.flags, tag := p.tag, bay := 0, queue := p.queue, session := p.session, paramLen := p.paramLen, deadline := p.deadline,
              target := p.target, hopLimit := p.hopLimit, reserved := p.reserved, source := p.source, crc := p.crc, params := p.params, gcmOk := p.gcmOk, bulk := p.bulk }).paramLen =
        List.length
          (w14m fun p =>
              { transport := p.transport, version := p.version, flags := p.flags, tag := p.tag, bay := 0, queue := p.queue, session := p.session, paramLen := p.paramLen, deadline := p.deadline,
                target := p.target, hopLimit := p.hopLimit, reserved := p.reserved, source := p.source, crc := p.crc, params := p.params, gcmOk := p.gcmOk, bulk := p.bulk }).params)
    ∧ ((w14m fun p =>
              { transport := p.transport, version := p.version, flags := p.flags, tag := p.tag, bay := 0, queue := p.queue, session := p.session, paramLen := p.paramLen, deadline := p.deadline,
                target := p.target, hopLimit := p.hopLimit, reserved := p.reserved, source := p.source, crc := p.crc, params := p.params, gcmOk := p.gcmOk, bulk := p.bulk }).flags.toNat <
        32)
    ∧ ((w14m fun p =>
            { transport := p.transport, version := p.version, flags := p.flags, tag := p.tag, bay := 0, queue := p.queue, session := p.session, paramLen := p.paramLen, deadline := p.deadline,
              target := p.target, hopLimit := p.hopLimit, reserved := p.reserved, source := p.source, crc := p.crc, params := p.params, gcmOk := p.gcmOk, bulk := p.bulk }).reserved =
        0)
    ∧ ((w14m fun p =>
            { transport := p.transport, version := p.version, flags := p.flags, tag := p.tag, bay := 0, queue := p.queue, session := p.session, paramLen := p.paramLen, deadline := p.deadline,
              target := p.target, hopLimit := p.hopLimit, reserved := p.reserved, source := p.source, crc := p.crc, params := p.params, gcmOk := p.gcmOk, bulk := p.bulk }).tagged =
        mustTag 16
          (w14m fun p =>
            { transport := p.transport, version := p.version, flags := p.flags, tag := p.tag, bay := 0, queue := p.queue, session := p.session, paramLen := p.paramLen, deadline := p.deadline,
              target := p.target, hopLimit := p.hopLimit, reserved := p.reserved, source := p.source, crc := p.crc, params := p.params, gcmOk := p.gcmOk, bulk := p.bulk }))
    ∧ ((w14m fun p =>
            { transport := p.transport, version := p.version, flags := p.flags, tag := p.tag, bay := 0, queue := p.queue, session := p.session, paramLen := p.paramLen, deadline := p.deadline,
              target := p.target, hopLimit := p.hopLimit, reserved := p.reserved, source := p.source, crc := p.crc, params := p.params, gcmOk := p.gcmOk, bulk := p.bulk }).bay ≤
        7)
    ∧ ((w14m fun p =>
            { transport := p.transport, version := p.version, flags := p.flags, tag := p.tag, bay := 0, queue := p.queue, session := p.session, paramLen := p.paramLen, deadline := p.deadline,
              target := p.target, hopLimit := p.hopLimit, reserved := p.reserved, source := p.source, crc := p.crc, params := p.params, gcmOk := p.gcmOk, bulk := p.bulk }).queue ≤
        15)
    ∧ (TargetHere
          (w14m fun p =>
            { transport := p.transport, version := p.version, flags := p.flags, tag := p.tag, bay := 0, queue := p.queue, session := p.session, paramLen := p.paramLen, deadline := p.deadline,
              target := p.target, hopLimit := p.hopLimit, reserved := p.reserved, source := p.source, crc := p.crc, params := p.params, gcmOk := p.gcmOk, bulk := p.bulk })
          wl =
        true)
    ∧ (card 16 = some w14k)
    ∧ (replayOf
          (w14m fun p =>
            { transport := p.transport, version := p.version, flags := p.flags, tag := p.tag, bay := 0, queue := p.queue, session := p.session, paramLen := p.paramLen, deadline := p.deadline,
              target := p.target, hopLimit := p.hopLimit, reserved := p.reserved, source := p.source, crc := p.crc, params := p.params, gcmOk := p.gcmOk, bulk := p.bulk })
          wl =
        none)
    ∧ (tagStale
          (w14m fun p =>
            { transport := p.transport, version := p.version, flags := p.flags, tag := p.tag, bay := 0, queue := p.queue, session := p.session, paramLen := p.paramLen, deadline := p.deadline,
              target := p.target, hopLimit := p.hopLimit, reserved := p.reserved, source := p.source, crc := p.crc, params := p.params, gcmOk := p.gcmOk, bulk := p.bulk })
          wl =
        false)
    ∧ (16 ≠ 32)
    ∧ (bayPermitted 16
          (w14m fun p =>
            { transport := p.transport, version := p.version, flags := p.flags, tag := p.tag, bay := 0, queue := p.queue, session := p.session, paramLen := p.paramLen, deadline := p.deadline,
              target := p.target, hopLimit := p.hopLimit, reserved := p.reserved, source := p.source, crc := p.crc, params := p.params, gcmOk := p.gcmOk, bulk := p.bulk })
          wl =
        false)
    ∧ ((wPk 3329 1 []).crc = Packet.crcOf 3329 (wPk 3329 1 []))
    ∧ ((wPk 3329 1 []).transport.isUdp = true → (wPk 3329 1 []).gcmOk = true)
    ∧ ((wPk 3329 1 []).version = 1)
    ∧ ((wPk 3329 1 []).paramLen % 8 = 0)
    ∧ ((wPk 3329 1 []).paramLen ≤ paramLimit (wPk 3329 1 []))
    ∧ ((wPk 3329 1 []).paramLen = List.length (wPk 3329 1 []).params)
    ∧ ((wPk 3329 1 []).flags.toNat < 32)
    ∧ ((wPk 3329 1 []).reserved = 0)
    ∧ ((wPk 3329 1 []).tagged = mustTag 3329 (wPk 3329 1 [])) := by
  refine ⟨?_, ?_, ?_, ?_, ?_, ?_, ?_, ?_, ?_, ?_, ?_, ?_, ?_, ?_, ?_, ?_, ?_, ?_, ?_, ?_, ?_, ?_, ?_, ?_, ?_, ?_, ?_, ?_, ?_, ?_⟩
  · decide +kernel
  · decide +kernel
  · decide +kernel
  · rfl
  · decide +kernel
  · decide +kernel
  · decide +kernel
  · decide +kernel
  · decide +kernel
  · decide +kernel
  · decide +kernel
  · decide +kernel
  · decide +kernel
  · decide +kernel
  · decide +kernel
  · decide +kernel
  · rfl
  · decide +kernel
  · decide +kernel
  · decide +kernel
  · decide +kernel
  · decide +kernel
  · decide +kernel
  · decide +kernel
  · decide +kernel
  · decide +kernel
  · decide +kernel
  · decide +kernel
  · decide +kernel
  · decide +kernel

theorem test_hyps_FirstFailingCheckDecidesTheReply_5 :
    ((wPk 3329 1 []).bay ≤ 7)
    ∧ ((wPk 3329 1 []).queue ≤ 15)
    ∧ (TargetHere (wPk 3329 1 []) wl = true)
    ∧ (card 3329 = some ((card 3329).getD w14k))
    ∧ (replayOf (wPk 3329 1 []) wl = none)
    ∧ (tagStale (wPk 3329 1 []) wl = false)
    ∧ (3329 ≠ 32)
    ∧ (bayPermitted 3329 (wPk 3329 1 []) wl = true)
    ∧ (sessionCheck 3329 (wPk 3329 1 []) wl = none)
    ∧ (((card 3329).getD w14k).may (wPk 3329 1 []).bay (wl.ctx (wPk 3329 1 [])).role = false)
    ∧ ((wPk 2592 1 []).crc = Packet.crcOf 2592 (wPk 2592 1 []))
    ∧ ((wPk 2592 1 []).transport.isUdp = true → (wPk 2592 1 []).gcmOk = true)
    ∧ ((wPk 2592 1 []).version = 1)
    ∧ ((wPk 2592 1 []).paramLen % 8 = 0)
    ∧ ((wPk 2592 1 []).paramLen ≤ paramLimit (wPk 2592 1 []))
    ∧ ((wPk 2592 1 []).paramLen = List.length (wPk 2592 1 []).params)
    ∧ ((wPk 2592 1 []).flags.toNat < 32)
    ∧ ((wPk 2592 1 []).reserved = 0)
    ∧ ((wPk 2592 1 []).tagged = mustTag 2592 (wPk 2592 1 []))
    ∧ ((wPk 2592 1 []).bay ≤ 7)
    ∧ ((wPk 2592 1 []).queue ≤ 15)
    ∧ (TargetHere (wPk 2592 1 []) wl = true)
    ∧ (card 2592 = some ((card 2592).getD w14k))
    ∧ (replayOf (wPk 2592 1 []) wl = none)
    ∧ (tagStale (wPk 2592 1 []) wl = false)
    ∧ (2592 ≠ 32)
    ∧ (bayPermitted 2592 (wPk 2592 1 []) wl = true)
    ∧ (sessionCheck 2592 (wPk 2592 1 []) wl = none)
    ∧ (((card 2592).getD w14k).may (wPk 2592 1 []).bay (wl.ctx (wPk 2592 1 [])).role = true)
    ∧ (((card 2592).getD w14k).idle wl.kiln.role = true) := by
  refine ⟨?_, ?_, ?_, ?_, ?_, ?_, ?_, ?_, ?_, ?_, ?_, ?_, ?_, ?_, ?_, ?_, ?_, ?_, ?_, ?_, ?_, ?_, ?_, ?_, ?_, ?_, ?_, ?_, ?_, ?_⟩
  · decide +kernel
  · decide +kernel
  · decide +kernel
  · rfl
  · decide +kernel
  · decide +kernel
  · decide +kernel
  · decide +kernel
  · decide +kernel
  · rfl
  · decide +kernel
  · decide +kernel
  · decide +kernel
  · decide +kernel
  · decide +kernel
  · decide +kernel
  · decide +kernel
  · decide +kernel
  · decide +kernel
  · decide +kernel
  · decide +kernel
  · decide +kernel
  · rfl
  · decide +kernel
  · decide +kernel
  · decide +kernel
  · decide +kernel
  · decide +kernel
  · rfl
  · rfl

theorem test_hyps_FirstFailingCheckDecidesTheReply_6 :
    ((w14m fun p =>
            { transport := p.transport, version := p.version, flags := p.flags, tag := p.tag, bay := p.bay, queue := p.queue, session := 8, paramLen := p.paramLen, deadline := p.deadline,
              target := p.target, hopLimit := p.hopLimit, reserved := p.reserved, source := p.source, crc := p.crc, params := p.params, gcmOk := p.gcmOk, bulk := p.bulk }).crc =
        Packet.crcOf 16
          (w14m fun p =>
            { transport := p.transport, version := p.version, flags := p.flags, tag := p.tag, bay := p.bay, queue := p.queue, session := 8, paramLen := p.paramLen, deadline := p.deadline,
              target := p.target, hopLimit := p.hopLimit, reserved := p.reserved, source := p.source, crc := p.crc, params := p.params, gcmOk := p.gcmOk, bulk := p.bulk }))
    ∧ ((w14m fun p =>
                { transport := p.transport, version := p.version, flags := p.flags, tag := p.tag, bay := p.bay, queue := p.queue, session := 8, paramLen := p.paramLen, deadline := p.deadline,
                  target := p.target, hopLimit := p.hopLimit, reserved := p.reserved, source := p.source, crc := p.crc, params := p.params, gcmOk := p.gcmOk, bulk := p.bulk }).transport.isUdp =
          true →
        (w14m fun p =>
              { transport := p.transport, version := p.version, flags := p.flags, tag := p.tag, bay := p.bay, queue := p.queue, session := 8, paramLen := p.paramLen, deadline := p.deadline,
                target := p.target, hopLimit := p.hopLimit, reserved := p.reserved, source := p.source, crc := p.crc, params := p.params, gcmOk := p.gcmOk, bulk := p.bulk }).gcmOk =
          true)
    ∧ ((w14m fun p =>
            { transport := p.transport, version := p.version, flags := p.flags, tag := p.tag, bay := p.bay, queue := p.queue, session := 8, paramLen := p.paramLen, deadline := p.deadline,
              target := p.target, hopLimit := p.hopLimit, reserved := p.reserved, source := p.source, crc := p.crc, params := p.params, gcmOk := p.gcmOk, bulk := p.bulk }).version =
        1)
    ∧ ((w14m fun p =>
              { transport := p.transport, version := p.version, flags := p.flags, tag := p.tag, bay := p.bay, queue := p.queue, session := 8, paramLen := p.paramLen, deadline := p.deadline,
                target := p.target, hopLimit := p.hopLimit, reserved := p.reserved, source := p.source, crc := p.crc, params := p.params, gcmOk := p.gcmOk, bulk := p.bulk }).paramLen %
          8 =
        0)
    ∧ ((w14m fun p =>
            { transport := p.transport, version := p.version, flags := p.flags, tag := p.tag, bay := p.bay, queue := p.queue, session := 8, paramLen := p.paramLen, deadline := p.deadline,
              target := p.target, hopLimit := p.hopLimit, reserved := p.reserved, source := p.source, crc := p.crc, params := p.params, gcmOk := p.gcmOk, bulk := p.bulk }).paramLen ≤
        paramLimit
          (w14m fun p =>
            { transport := p.transport, version := p.version, flags := p.flags, tag := p.tag, bay := p.bay, queue := p.queue, session := 8, paramLen := p.paramLen, deadline := p.deadline,
              target := p.target, hopLimit := p.hopLimit, reserved := p.reserved, source := p.source, crc := p.crc, params := p.params, gcmOk := p.gcmOk, bulk := p.bulk }))
    ∧ ((w14m fun p =>
            { transport := p.transport, version := p.version, flags := p.flags, tag := p.tag, bay := p.bay, queue := p.queue, session := 8, paramLen := p.paramLen, deadline := p.deadline,
              target := p.target, hopLimit := p.hopLimit, reserved := p.reserved, source := p.source, crc := p.crc, params := p.params, gcmOk := p.gcmOk, bulk := p.bulk }).paramLen =
        List.length
          (w14m fun p =>
              { transport := p.transport, version := p.version, flags := p.flags, tag := p.tag, bay := p.bay, queue := p.queue, session := 8, paramLen := p.paramLen, deadline := p.deadline,
                target := p.target, hopLimit := p.hopLimit, reserved := p.reserved, source := p.source, crc := p.crc, params := p.params, gcmOk := p.gcmOk, bulk := p.bulk }).params)
    ∧ ((w14m fun p =>
              { transport := p.transport, version := p.version, flags := p.flags, tag := p.tag, bay := p.bay, queue := p.queue, session := 8, paramLen := p.paramLen, deadline := p.deadline,
                target := p.target, hopLimit := p.hopLimit, reserved := p.reserved, source := p.source, crc := p.crc, params := p.params, gcmOk := p.gcmOk, bulk := p.bulk }).flags.toNat <
        32)
    ∧ ((w14m fun p =>
            { transport := p.transport, version := p.version, flags := p.flags, tag := p.tag, bay := p.bay, queue := p.queue, session := 8, paramLen := p.paramLen, deadline := p.deadline,
              target := p.target, hopLimit := p.hopLimit, reserved := p.reserved, source := p.source, crc := p.crc, params := p.params, gcmOk := p.gcmOk, bulk := p.bulk }).reserved =
        0)
    ∧ ((w14m fun p =>
            { transport := p.transport, version := p.version, flags := p.flags, tag := p.tag, bay := p.bay, queue := p.queue, session := 8, paramLen := p.paramLen, deadline := p.deadline,
              target := p.target, hopLimit := p.hopLimit, reserved := p.reserved, source := p.source, crc := p.crc, params := p.params, gcmOk := p.gcmOk, bulk := p.bulk }).tagged =
        mustTag 16
          (w14m fun p =>
            { transport := p.transport, version := p.version, flags := p.flags, tag := p.tag, bay := p.bay, queue := p.queue, session := 8, paramLen := p.paramLen, deadline := p.deadline,
              target := p.target, hopLimit := p.hopLimit, reserved := p.reserved, source := p.source, crc := p.crc, params := p.params, gcmOk := p.gcmOk, bulk := p.bulk }))
    ∧ ((w14m fun p =>
            { transport := p.transport, version := p.version, flags := p.flags, tag := p.tag, bay := p.bay, queue := p.queue, session := 8, paramLen := p.paramLen, deadline := p.deadline,
              target := p.target, hopLimit := p.hopLimit, reserved := p.reserved, source := p.source, crc := p.crc, params := p.params, gcmOk := p.gcmOk, bulk := p.bulk }).bay ≤
        7)
    ∧ ((w14m fun p =>
            { transport := p.transport, version := p.version, flags := p.flags, tag := p.tag, bay := p.bay, queue := p.queue, session := 8, paramLen := p.paramLen, deadline := p.deadline,
              target := p.target, hopLimit := p.hopLimit, reserved := p.reserved, source := p.source, crc := p.crc, params := p.params, gcmOk := p.gcmOk, bulk := p.bulk }).queue ≤
        15)
    ∧ (TargetHere
          (w14m fun p =>
            { transport := p.transport, version := p.version, flags := p.flags, tag := p.tag, bay := p.bay, queue := p.queue, session := 8, paramLen := p.paramLen, deadline := p.deadline,
              target := p.target, hopLimit := p.hopLimit, reserved := p.reserved, source := p.source, crc := p.crc, params := p.params, gcmOk := p.gcmOk, bulk := p.bulk })
          wl =
        true)
    ∧ (replayOf
          (w14m fun p =>
            { transport := p.transport, version := p.version, flags := p.flags, tag := p.tag, bay := p.bay, queue := p.queue, session := 8, paramLen := p.paramLen, deadline := p.deadline,
              target := p.target, hopLimit := p.hopLimit, reserved := p.reserved, source := p.source, crc := p.crc, params := p.params, gcmOk := p.gcmOk, bulk := p.bulk })
          wl =
        none)
    ∧ (tagStale
          (w14m fun p =>
            { transport := p.transport, version := p.version, flags := p.flags, tag := p.tag, bay := p.bay, queue := p.queue, session := 8, paramLen := p.paramLen, deadline := p.deadline,
              target := p.target, hopLimit := p.hopLimit, reserved := p.reserved, source := p.source, crc := p.crc, params := p.params, gcmOk := p.gcmOk, bulk := p.bulk })
          wl =
        false)
    ∧ (bayPermitted 16
          (w14m fun p =>
            { transport := p.transport, version := p.version, flags := p.flags, tag := p.tag, bay := p.bay, queue := p.queue, session := 8, paramLen := p.paramLen, deadline := p.deadline,
              target := p.target, hopLimit := p.hopLimit, reserved := p.reserved, source := p.source, crc := p.crc, params := p.params, gcmOk := p.gcmOk, bulk := p.bulk })
          wl =
        true)
    ∧ (sessionCheck 16
          (w14m fun p =>
            { transport := p.transport, version := p.version, flags := p.flags, tag := p.tag, bay := p.bay, queue := p.queue, session := 8, paramLen := p.paramLen, deadline := p.deadline,
              target := p.target, hopLimit := p.hopLimit, reserved := p.reserved, source := p.source, crc := p.crc, params := p.params, gcmOk := p.gcmOk, bulk := p.bulk })
          wl =
        some (Res.err stNoSession 0))
    ∧ (w14p.crc = Packet.crcOf 16 w14p)
    ∧ (w14p.transport.isUdp = true → w14p.gcmOk = true)
    ∧ (w14p.version = 1)
    ∧ (w14p.paramLen % 8 = 0)
    ∧ (w14p.paramLen ≤ paramLimit w14p)
    ∧ (w14p.paramLen = List.length w14p.params)
    ∧ (w14p.flags.toNat < 32)
    ∧ (w14p.reserved = 0)
    ∧ (w14p.tagged = mustTag 16 w14p)
    ∧ (w14p.bay ≤ 7)
    ∧ (w14p.queue ≤ 15)
    ∧ (TargetHere w14p wl = true)
    ∧ (replayOf w14p wl = none)
    ∧ (tagStale w14p wl = false) := by
  refine ⟨?_, ?_, ?_, ?_, ?_, ?_, ?_, ?_, ?_, ?_, ?_, ?_, ?_, ?_, ?_, ?_, ?_, ?_, ?_, ?_, ?_, ?_, ?_, ?_, ?_, ?_, ?_, ?_, ?_, ?_⟩ <;> decide +kernel

theorem test_hyps_FirstFailingCheckDecidesTheReply_7 :
    (bayPermitted 16 w14p wl = true)
    ∧ (sessionCheck 16 w14p wl = none)
    ∧ (w14k.may w14p.bay (wl.ctx w14p).role = true)
    ∧ (w14k.idle wl.kiln.role = false)
    ∧ (fencedIdle 16 wl = false)
    ∧ (¬256 ≤ (wl.queueOf (queueId w14p.bay w14p.queue)).length)
    ∧ (TargetHere w14p (w14q 256) = true)
    ∧ (replayOf w14p (w14q 256) = none)
    ∧ (tagStale w14p (w14q 256) = false)
    ∧ (bayPermitted 16 w14p (w14q 256) = true)
    ∧ (sessionCheck 16 w14p (w14q 256) = none)
    ∧ (w14k.may w14p.bay ((w14q 256).ctx w14p).role = true)
    ∧ (w14k.idle (w14q 256).kiln.role = false)
    ∧ (fencedIdle 16 (w14q 256) = false)
    ∧ (256 ≤ ((w14q 256).queueOf (queueId w14p.bay w14p.queue)).length) := by
  refine ⟨?_, ?_, ?_, ?_, ?_, ?_, ?_, ?_, ?_, ?_, ?_, ?_, ?_, ?_, ?_⟩ <;> decide +kernel

theorem test_hyps_PacketsOfOneQueueWaitInOrder :
    ((w14q 1).serving = true)
    ∧ (Taken 16 w14p (w14q 1) = true)
    ∧ (HostBroadcast w14p = false)
    ∧ (16 ≠ 32)
    ∧ (waitsHere 16 w14p ((w14q 1).queueOf (queueId w14p.bay w14p.queue)) = none)
    ∧ ((w14q 1).queueOf (queueId w14p.bay w14p.queue) ≠ [] ∨ ((w14q 1).busyOf (queueId w14p.bay w14p.queue)).isSome = true) := by
  refine ⟨?_, ?_, ?_, ?_, ?_, ?_⟩
  · decide +kernel
  · decide +kernel
  · decide +kernel
  · decide +kernel
  · decide +kernel
  · first | rfl | decide +kernel

theorem test_hyps_DeadlineEndsTheWindow :
    (w14d.deadline ≠ 0)
    ∧ (0 + w14d.deadline * 1000 ≤ wl.time.mono)
    ∧ (w14p.deadline = 0 ∨ wl.time.mono < 0 + w14p.deadline * 1000)
    ∧ (sessionCheck 16 w14p wl = none)
    ∧ (w14p.deadline = 0 ∨ w14n.time.mono < 0 + w14p.deadline * 1000)
    ∧ (sessionCheck 16 w14p w14n = none)
    ∧ (readyFor 16 w14p w14n = false)
    ∧ (((w14q 1).queueOf (queueId 1 0))[0]? = some { code := 16, pkt := w14d, stamp := 0 })
    ∧ (0 + w14d.deadline * 1000 ≤ (w14q 1).time.mono)
    ∧ (((w14q 1).heldLate (queueId 1 0) && ((w14q 1).urgents 0 ++ (w14q 1).urgents 1).any fun u => u.start.isNone && u.queue == queueId 1 0) = false)
    ∧ ((w14y.heldLate (queueId 1 0) && (w14y.urgents 0 ++ w14y.urgents 1).any fun u => u.start.isNone && u.queue == queueId 1 0) = true) := by
  refine ⟨?_, ?_, ?_, ?_, ?_, ?_, ?_, ?_, ?_, ?_, ?_⟩ <;> decide +kernel

theorem test_hyps_RepliesEchoTheirCommand :
    (wl.copiesOf
          (w14m fun p =>
            { transport := Transport.spi, version := p.version, flags := p.flags, tag := p.tag, bay := p.bay, queue := p.queue, session := p.session, paramLen := p.paramLen,
              deadline := p.deadline, target := p.target, hopLimit := p.hopLimit, reserved := p.reserved, source := p.source, crc := p.crc, params := p.params, gcmOk := p.gcmOk,
              bulk := p.bulk }) =
        0)
    ∧ ((w14m fun p =>
            { transport := Transport.spi, version := p.version, flags := p.flags, tag := p.tag, bay := p.bay, queue := p.queue, session := p.session, paramLen := p.paramLen,
              deadline := p.deadline, target := p.target, hopLimit := p.hopLimit, reserved := p.reserved, source := p.source, crc := p.crc, params := p.params, gcmOk := p.gcmOk,
              bulk := p.bulk }).transport =
        Transport.spi)
    ∧ (((w14m fun p =>
              { transport := Transport.spi, version := p.version, flags := p.flags, tag := p.tag, bay := p.bay, queue := p.queue, session := p.session, paramLen := p.paramLen,
                deadline := p.deadline, target := p.target, hopLimit := p.hopLimit, reserved := p.reserved, source := p.source, crc := p.crc, params := p.params, gcmOk := p.gcmOk,
                bulk := p.bulk }).quiet &&
          Res.ok.status == stOk) =
        false)
    ∧ (wl.copiesOf (w14ud false) = 0)
    ∧ ((w14ud false).transport = Transport.udp 1 2)
    ∧ (((w14ud false).quiet && Res.ok.status == stOk) = false)
    ∧ (wl.copiesOf
          (w14m fun p =>
            { transport := Transport.spi, version := p.version, flags := 2, tag := p.tag, bay := p.bay, queue := p.queue, session := p.session, paramLen := p.paramLen, deadline := p.deadline,
              target := p.target, hopLimit := p.hopLimit, reserved := p.reserved, source := p.source, crc := p.crc, params := p.params, gcmOk := p.gcmOk, bulk := p.bulk }) =
        0)
    ∧ (((w14m fun p =>
              { transport := Transport.spi, version := p.version, flags := 2, tag := p.tag, bay := p.bay, queue := p.queue, session := p.session, paramLen := p.paramLen, deadline := p.deadline,
                target := p.target, hopLimit := p.hopLimit, reserved := p.reserved, source := p.source, crc := p.crc, params := p.params, gcmOk := p.gcmOk, bulk := p.bulk }).quiet &&
          Res.ok.status == stOk) =
        true)
    ∧ ((w14m fun p =>
              { transport := Transport.spi, version := p.version, flags := 2, tag := p.tag, bay := p.bay, queue := p.queue, session := p.session, paramLen := p.paramLen, deadline := p.deadline,
                target := p.target, hopLimit := p.hopLimit, reserved := p.reserved, source := p.source, crc := p.crc, params := p.params, gcmOk := p.gcmOk, bulk := p.bulk }).transport =
          Transport.spi ∨
        (w14m fun p =>
                { transport := Transport.spi, version := p.version, flags := 2, tag := p.tag, bay := p.bay, queue := p.queue, session := p.session, paramLen := p.paramLen, deadline := p.deadline,
                  target := p.target, hopLimit := p.hopLimit, reserved := p.reserved, source := p.source, crc := p.crc, params := p.params, gcmOk := p.gcmOk, bulk := p.bulk }).transport.isUdp =
          true)
    ∧ (w14cq.copiesOf w14pc = 0)
    ∧ (w14pc.transport = Transport.pcie 0 0 4096)
    ∧ ((w14cq.qpOf 0 0).size ≠ 0)
    ∧ ((w14cq.qpOf 0 0).cqFull = false)
    ∧ (Option.any (fun d => d.kind == 1) w14pc.desc = false)
    ∧ (∀ e ∈ w14cq.host.qp, e.2.conts = [])
    ∧ (State.reset.serving = false)
    ∧ (w14p.transport ≠ Transport.spi) := by
  refine ⟨?_, ?_, ?_, ?_, ?_, ?_, ?_, ?_, ?_, ?_, ?_, ?_, ?_, ?_, ?_, ?_, ?_⟩
  · decide +kernel
  · decide +kernel
  · decide +kernel
  · decide +kernel
  · decide +kernel
  · decide +kernel
  · decide +kernel
  · decide +kernel
  · decide +kernel
  · decide +kernel
  · decide +kernel
  · decide +kernel
  · decide +kernel
  · decide +kernel
  · decide +kernel
  · decide +kernel
  · decide +kernel

theorem test_hyps_DeviceQueriesAnswer :
    (Block 0 [] w14p = true)
    ∧ (Starts 16 w14p wl = true)
    ∧ (Block 0 [] (wPk 17 1 []) = true)
    ∧ (Starts 17 (wPk 17 1 []) wl = true) := by
  refine ⟨?_, ?_, ?_, ?_⟩
  · decide +kernel
  · exact starts_of (wPk_crc ..) (by decide +kernel)
  · decide +kernel
  · exact starts_of (wPk_crc ..) (by decide +kernel)

theorem test_hyps_SessionOpenIssuesAChallenge :
    (Starts 1 w14o wl = true)
    ∧ (Block 96 [(9, 1), (12, 4)] w14o = true)
    ∧ (SessRole.ofCode (fld w14o.params 8 1) = some SessRole.operator)
    ∧ (wl.store.lostKeys.contains SealedKind.identityKey = false)
    ∧ (fld w14o.params 10 2 = 0 ∨ 10 ≤ fld w14o.params 10 2)
    ∧ (∀ (i : Ident), wl.findIdent (fld w14o.params 0 8) = some i → i.lockedAt wl.time.mono = false)
    ∧ ((List.filter (fun x => x.bay == w14o.bay)
            (List.filter (fun x => !(x.identity == fld w14o.params 0 8 && x.bay == w14o.bay && x.peer == w14o.transport.peer && x.answer.isNone)) wl.host.chal)).length <
        8)
    ∧ ((List.filter (fun x => x.bay == w14o.bay) wl.host.sess).length < 8) := by
  refine ⟨?_, ?_, ?_, ?_, ?_, ?_, ?_, ?_⟩
  · exact starts_of (wPk_crc ..) (by decide +kernel)
  · decide +kernel
  · decide +kernel
  · decide +kernel
  · decide +kernel
  · intro i h; exact absurd h (by rw [show wl.findIdent _ = none from rfl]; exact nofun)
  · decide +kernel
  · decide +kernel

theorem test_hyps_SessionAuthOpensTheSession_1 :
    (Starts 3 (w14a true) w14s = true)
    ∧ (Block 72 [(1, 7)] (w14a true) = true)
    ∧ (w14s.findChal (w14a true).session = some w14h)
    ∧ (w14s.time.mono < w14h.issued + 10 * second)
    ∧ (proofLenOk w14h.role (fld (w14a true).params 0 1) = true)
    ∧ (allZero (w14a true).params (8 + fld (w14a true).params 0 1) (64 - fld (w14a true).params 0 1) = true)
    ∧ (w14s.findIdent w14h.identity = some (w14i 0))
    ∧ ((w14i 0).lockedAt w14s.time.mono = false)
    ∧ ((w14a true).gcmOk = true ∧ w14h.canPass = true ∧ proofOk (w14i 0) w14h.transcript (slice (w14a true).params 8 (fld (w14a true).params 0 1)) = true)
    ∧ (rivals w14s w14h = [])
    ∧ ((w14s.host.sess.any fun x => x.bay == w14h.bay && x.identity == w14h.identity) = false)
    ∧ ((List.filter (fun x => x.bay == w14h.bay) w14s.host.sess).length < 8)
    ∧ (Starts 3 (w14a false) w14s = true)
    ∧ (Block 72 [(1, 7)] (w14a false) = true)
    ∧ (w14s.findChal (w14a false).session = some w14h)
    ∧ (proofLenOk w14h.role (fld (w14a false).params 0 1) = true)
    ∧ (allZero (w14a false).params (8 + fld (w14a false).params 0 1) (64 - fld (w14a false).params 0 1) = true)
    ∧ (¬((w14a false).gcmOk = true ∧ w14h.canPass = true ∧ proofOk (w14i 0) w14h.transcript (slice (w14a false).params 8 (fld (w14a false).params 0 1)) = true))
    ∧ (Starts 3 (w14a true) w14s0 = true)
    ∧ (w14s0.findChal (w14a true).session = none)
    ∧ (Starts 3 (w14a true) w14sx = true)
    ∧ (w14sx.findChal (w14a true).session = some w14h0)
    ∧ (w14h0.issued + 10 * second ≤ w14sx.time.mono)
    ∧ (Starts 3 (w14a true) w14ss = true)
    ∧ (w14ss.findChal (w14a true).session = some w14h)
    ∧ (w14ss.time.mono < w14h.issued + 10 * second)
    ∧ (w14ss.findIdent w14h.identity = some (w14i 0))
    ∧ ((w14i 0).lockedAt w14ss.time.mono = false)
    ∧ (rivals w14ss w14h = [])
    ∧ ((w14ss.host.sess.any fun x => x.bay == w14h.bay && x.identity == w14h.identity) = true) := by
  refine ⟨?_, ?_, ?_, ?_, ?_, ?_, ?_, ?_, ?_, ?_, ?_, ?_, ?_, ?_, ?_, ?_, ?_, ?_, ?_, ?_, ?_, ?_, ?_, ?_, ?_, ?_, ?_, ?_, ?_, ?_⟩
  · exact starts_of (w14a_crc _) (by decide +kernel)
  · decide +kernel
  · decide +kernel
  · decide +kernel
  · decide +kernel
  · decide +kernel
  · rfl
  · decide +kernel
  · exact ⟨rfl, rfl, w14i_slice⟩
  · decide +kernel
  · decide +kernel
  · decide +kernel
  · exact starts_of (w14a_crc _) (by decide +kernel)
  · decide +kernel
  · decide +kernel
  · decide +kernel
  · decide +kernel
  · decide +kernel
  · exact starts_of (w14a_crc _) (by decide +kernel)
  · decide +kernel
  · exact starts_of (w14a_crc _) (by decide +kernel)
  · decide +kernel
  · decide +kernel
  · exact starts_of (w14a_crc _) (by decide +kernel)
  · decide +kernel
  · decide +kernel
  · rfl
  · decide +kernel
  · decide +kernel
  · decide +kernel

theorem test_hyps_SessionAuthOpensTheSession_2 :
    (Starts 3 (w14a true) w14s8 = true)
    ∧ (w14s8.findChal (w14a true).session = some w14h)
    ∧ (w14s8.time.mono < w14h.issued + 10 * second)
    ∧ (w14s8.findIdent w14h.identity = some (w14i 0))
    ∧ ((w14i 0).lockedAt w14s8.time.mono = false)
    ∧ (rivals w14s8 w14h = [])
    ∧ ((w14s8.host.sess.any fun x => x.bay == w14h.bay && x.identity == w14h.identity) = false)
    ∧ (8 ≤ (List.filter (fun x => x.bay == w14h.bay) w14s8.host.sess).length)
    ∧ (Starts 3 (w14a true) (w14s2 none) = true)
    ∧ ((w14s2 none).findChal (w14a true).session = some w14h)
    ∧ ((w14s2 none).time.mono < w14h.issued + 10 * second)
    ∧ ((w14s2 none).findIdent w14h.identity = some (w14i 0))
    ∧ ((w14i 0).lockedAt (w14s2 none).time.mono = false)
    ∧ (rivals (w14s2 none) w14h ≠ [])
    ∧ (List.find? (fun x => x.answer.isSome) (rivals (w14s2 none) w14h) = none)
    ∧ (Starts 3 (w14a true) (w14s2 (some w14z)) = true)
    ∧ ((w14s2 (some w14z)).findChal (w14a true).session = some w14h)
    ∧ ((w14s2 (some w14z)).time.mono < w14h.issued + 10 * second)
    ∧ ((w14s2 (some w14z)).findIdent w14h.identity = some (w14i 0))
    ∧ ((w14i 0).lockedAt (w14s2 (some w14z)).time.mono = false)
    ∧ (List.find? (fun x => x.answer.isSome) (rivals (w14s2 (some w14z)) w14h) = some (w14r1 (some w14z)))
    ∧ ((w14r1 (some w14z)).answer = some w14z) := by
  refine ⟨?_, ?_, ?_, ?_, ?_, ?_, ?_, ?_, ?_, ?_, ?_, ?_, ?_, ?_, ?_, ?_, ?_, ?_, ?_, ?_, ?_, ?_⟩
  · exact starts_of (w14a_crc _) (by decide +kernel)
  · decide +kernel
  · decide +kernel
  · rfl
  · decide +kernel
  · decide +kernel
  · decide +kernel
  · decide +kernel
  · exact starts_of (w14a_crc _) (by decide +kernel)
  · decide +kernel
  · decide +kernel
  · rfl
  · decide +kernel
  · decide +kernel
  · decide +kernel
  · exact starts_of (w14a_crc _) (by decide +kernel)
  · decide +kernel
  · decide +kernel
  · rfl
  · decide +kernel
  · rfl
  · rfl

theorem test_hyps_SessionsChallengesAndLocksEnd :
    (Starts 2 (wPk 2 1 []) wl = true)
    ∧ (Block 0 [] (wPk 2 1 []) = true)
    ∧ (wl.findSess 7 = some w14x)
    ∧ (w14x.lastUse + w14x.idleS * second ≤ wl.time.mono)
    ∧ ((w14e 0).findChal 9 = some w14h0)
    ∧ (w14h0.answer = none)
    ∧ (w14h0.issued + 10 * second ≤ (w14e 0).time.mono)
    ∧ ((w14e 0).findIdent 3 = some (w14l 0))
    ∧ ((w14l 0).lockEnd = some 0)
    ∧ (0 ≤ (w14e 0).time.mono)
    ∧ ((if Option.any (fun e => decide (e ≤ (w14e 0).time.mono)) (w14l 0).lockEnd = true then 1 else (w14l 0).fails + 1) < 5)
    ∧ (w14e4.findIdent 3 = some (w14i 4))
    ∧ (5 ≤ if Option.any (fun e => decide (e ≤ w14e4.time.mono)) (w14i 4).lockEnd = true then 1 else (w14i 4).fails + 1) := by
  refine ⟨?_, ?_, ?_, ?_, ?_, ?_, ?_, ?_, ?_, ?_, ?_, ?_, ?_⟩
  · exact starts_of (wPk_crc ..) (by decide +kernel)
  · decide +kernel
  · decide +kernel
  · decide +kernel
  · decide +kernel
  · decide +kernel
  · decide +kernel
  · rfl
  · decide +kernel
  · decide +kernel
  · decide +kernel
  · rfl
  · decide +kernel

theorem test_hyps_BulkDataAndForwarding_1 :
    ((w14t w14f).busyOf (queueId (w14u 8).bay (w14u 8).queue) = some w14f)
    ∧ (w14f.kind = HoldKind.stream (zeros 8) 24 (1000000 * second))
    ∧ (streamOwner (w14u 8) w14f = true)
    ∧ ((w14t w14f).serving = true)
    ∧ ((((w14t w14f).queueOf (queueId (w14u 8).bay (w14u 8).queue)).all fun e => e.code != 32) = true)
    ∧ (Taken 32 (w14u 8) (w14t w14f) = true)
    ∧ (startCheck 32 (w14u 8) (w14t w14f).time.mono ((w14t w14f).touch (w14u 8)) = none)
    ∧ ((w14u 8).target ≠ 1023)
    ∧ (sealFault 32 (w14u 8) ((w14t w14f).touch (w14u 8)) = false)
    ∧ ((w14u 8).isBulk = false)
    ∧ ((w14u 8).cont = true)
    ∧ (8 ≤ List.length (w14u 8).params)
    ∧ ((w14t w14f).time.mono ≤ 1000000 * second + 10 * second)
    ∧ (fld (w14u 8).params 0 4 = List.length (zeros 8))
    ∧ (allZero (w14u 8).params 4 4 = true)
    ∧ (List.length (zeros 8) + (List.drop 8 (w14u 8).params).length < 24)
    ∧ ((w14t w14f).busyOf (queueId (w14u 16).bay (w14u 16).queue) = some w14f)
    ∧ (streamOwner (w14u 16) w14f = true)
    ∧ ((((w14t w14f).queueOf (queueId (w14u 16).bay (w14u 16).queue)).all fun e => e.code != 32) = true)
    ∧ (Taken 32 (w14u 16) (w14t w14f) = true)
    ∧ (startCheck 32 (w14u 16) (w14t w14f).time.mono ((w14t w14f).touch (w14u 16)) = none)
    ∧ ((w14u 16).target ≠ 1023)
    ∧ (sealFault 32 (w14u 16) ((w14t w14f).touch (w14u 16)) = false)
    ∧ ((w14u 16).isBulk = false)
    ∧ ((w14u 16).cont = true)
    ∧ (8 ≤ List.length (w14u 16).params)
    ∧ (fld (w14u 16).params 0 4 = List.length (zeros 8))
    ∧ (allZero (w14u 16).params 4 4 = true)
    ∧ (24 ≤ List.length (zeros 8) + (List.drop 8 (w14u 16).params).length)
    ∧ ((List.drop 8 (w14u 16).params).length ≤ 8 * ceilDiv (24 - List.length (zeros 8)) 8) := by
  refine ⟨?_, ?_, ?_, ?_, ?_, ?_, ?_, ?_, ?_, ?_, ?_, ?_, ?_, ?_, ?_, ?_, ?_, ?_, ?_, ?_, ?_, ?_, ?_, ?_, ?_, ?_, ?_, ?_, ?_, ?_⟩
  · rfl
  · decide +kernel
  · decide +kernel
  · decide +kernel
  · decide +kernel
  · decide +kernel
  · decide +kernel
  · decide +kernel
  · decide +kernel
  · decide +kernel
  · decide +kernel
  · decide +kernel
  · decide +kernel
  · decide +kernel
  · decide +kernel
  · decide +kernel
  · rfl
  · decide +kernel
  · decide +kernel
  · decide +kernel
  · decide +kernel
  · decide +kernel
  · decide +kernel
  · decide +kernel
  · decide +kernel
  · decide +kernel
  · decide +kernel
  · decide +kernel
  · decide +kernel
  · decide +kernel

theorem test_hyps_BulkDataAndForwarding_2 :
    (allZero (List.drop 8 (w14u 16).params) (24 - List.length (zeros 8)) 8 = true)
    ∧ ((w14t (w14g 0)).busyOf (queueId (w14u 8).bay (w14u 8).queue) = some (w14g 0))
    ∧ ((w14g 0).kind = HoldKind.stream (zeros 8) 24 0)
    ∧ (streamOwner (w14u 8) (w14g 0) = true)
    ∧ (queueId 1 0 = queueId (w14u 8).bay (w14u 8).queue)
    ∧ (0 + 10 * second < (w14t (w14g 0)).time.mono)
    ∧ (w14r.serving = true)
    ∧ ((w14m fun p =>
            { transport := p.transport, version := p.version, flags := p.flags, tag := p.tag, bay := p.bay, queue := p.queue, session := p.session, paramLen := p.paramLen, deadline := p.deadline,
              target := 8, hopLimit := p.hopLimit, reserved := p.reserved, source := p.source, crc := p.crc, params := p.params, gcmOk := p.gcmOk, bulk := p.bulk }).target ≠
        1023)
    ∧ (targetLocal
          (w14m fun p =>
            { transport := p.transport, version := p.version, flags := p.flags, tag := p.tag, bay := p.bay, queue := p.queue, session := p.session, paramLen := p.paramLen, deadline := p.deadline,
              target := 8, hopLimit := p.hopLimit, reserved := p.reserved, source := p.source, crc := p.crc, params := p.params, gcmOk := p.gcmOk, bulk := p.bulk })
          w14r =
        false)
    ∧ ((w14m fun p =>
                { transport := p.transport, version := p.version, flags := p.flags, tag := p.tag, bay := p.bay, queue := p.queue, session := p.session, paramLen := p.paramLen,
                  deadline := p.deadline, target := 8, hopLimit := p.hopLimit, reserved := p.reserved, source := p.source, crc := p.crc, params := p.params, gcmOk := p.gcmOk,
                  bulk := p.bulk }).transport.isUdp =
          true →
        (w14m fun p =>
              { transport := p.transport, version := p.version, flags := p.flags, tag := p.tag, bay := p.bay, queue := p.queue, session := p.session, paramLen := p.paramLen,
                deadline := p.deadline, target := 8, hopLimit := p.hopLimit, reserved := p.reserved, source := p.source, crc := p.crc, params := p.params, gcmOk := p.gcmOk,
                bulk := p.bulk }).gcmOk =
          true)
    ∧ ((w14m fun p =>
            { transport := p.transport, version := p.version, flags := p.flags, tag := p.tag, bay := p.bay, queue := p.queue, session := p.session, paramLen := p.paramLen, deadline := p.deadline,
              target := 8, hopLimit := p.hopLimit, reserved := p.reserved, source := p.source, crc := p.crc, params := p.params, gcmOk := p.gcmOk, bulk := p.bulk }).crc =
        Packet.crcOf 16
          (w14m fun p =>
            { transport := p.transport, version := p.version, flags := p.flags, tag := p.tag, bay := p.bay, queue := p.queue, session := p.session, paramLen := p.paramLen, deadline := p.deadline,
              target := 8, hopLimit := p.hopLimit, reserved := p.reserved, source := p.source, crc := p.crc, params := p.params, gcmOk := p.gcmOk, bulk := p.bulk }))
    ∧ (headCheck 16
          (w14m fun p =>
            { transport := p.transport, version := p.version, flags := p.flags, tag := p.tag, bay := p.bay, queue := p.queue, session := p.session, paramLen := p.paramLen, deadline := p.deadline,
              target := 8, hopLimit := p.hopLimit, reserved := p.reserved, source := p.source, crc := p.crc, params := p.params, gcmOk := p.gcmOk, bulk := p.bulk }) =
        none)
    ∧ (if
          (match
              (w14m fun p =>
                  { transport := p.transport, version := p.version, flags := p.flags, tag := p.tag, bay := p.bay, queue := p.queue, session := p.session, paramLen := p.paramLen,
                    deadline := p.deadline, target := 8, hopLimit := p.hopLimit, reserved := p.reserved, source := p.source, crc := p.crc, params := p.params, gcmOk := p.gcmOk,
                    bulk := p.bulk }).transport with
            | Transport.mortar dev => false
            | x => true) =
            true then
        1 ≤
            (w14m fun p =>
                { transport := p.transport, version := p.version, flags := p.flags, tag := p.tag, bay := p.bay, queue := p.queue, session := p.session, paramLen := p.paramLen,
                  deadline := p.deadline, target := 8, hopLimit := p.hopLimit, reserved := p.reserved, source := p.source, crc := p.crc, params := p.params, gcmOk := p.gcmOk,
                  bulk := p.bulk }).hopLimit ∧
          (w14m fun p =>
                { transport := p.transport, version := p.version, flags := p.flags, tag := p.tag, bay := p.bay, queue := p.queue, session := p.session, paramLen := p.paramLen,
                  deadline := p.deadline, target := 8, hopLimit := p.hopLimit, reserved := p.reserved, source := p.source, crc := p.crc, params := p.params, gcmOk := p.gcmOk,
                  bulk := p.bulk }).hopLimit ≤
            63
      else
        2 ≤
          (w14m fun p =>
              { transport := p.transport, version := p.version, flags := p.flags, tag := p.tag, bay := p.bay, queue := p.queue, session := p.session, paramLen := p.paramLen,
                deadline := p.deadline, target := 8, hopLimit := p.hopLimit, reserved := p.reserved, source := p.source, crc := p.crc, params := p.params, gcmOk := p.gcmOk,
                bulk := p.bulk }).hopLimit)
    ∧ (w14r.unitLanes none
          (match
            (w14m fun p =>
                { transport := p.transport, version := p.version, flags := p.flags, tag := p.tag, bay := p.bay, queue := p.queue, session := p.session, paramLen := p.paramLen,
                  deadline := p.deadline, target := 8, hopLimit := p.hopLimit, reserved := p.reserved, source := p.source, crc := p.crc, params := p.params, gcmOk := p.gcmOk,
                  bulk := p.bulk }).transport with
          | Transport.mortar d => d
          | x => w14r.kiln.devId)
          (w14m fun p =>
              { transport := p.transport, version := p.version, flags := p.flags, tag := p.tag, bay := p.bay, queue := p.queue, session := p.session, paramLen := p.paramLen,
                deadline := p.deadline, target := 8, hopLimit := p.hopLimit, reserved := p.reserved, source := p.source, crc := p.crc, params := p.params, gcmOk := p.gcmOk,
                bulk := p.bulk }).target ≠
        [])
    ∧ ((w14m fun p =>
            { transport := p.transport, version := p.version, flags := p.flags, tag := p.tag, bay := p.bay, queue := p.queue, session := p.session, paramLen := p.paramLen, deadline := p.deadline,
              target := 9, hopLimit := p.hopLimit, reserved := p.reserved, source := p.source, crc := p.crc, params := p.params, gcmOk := p.gcmOk, bulk := p.bulk }).target ≠
        1023)
    ∧ (targetLocal
          (w14m fun p =>
            { transport := p.transport, version := p.version, flags := p.flags, tag := p.tag, bay := p.bay, queue := p.queue, session := p.session, paramLen := p.paramLen, deadline := p.deadline,
              target := 9, hopLimit := p.hopLimit, reserved := p.reserved, source := p.source, crc := p.crc, params := p.params, gcmOk := p.gcmOk, bulk := p.bulk })
          w14r =
        false)
    ∧ ((w14m fun p =>
                { transport := p.transport, version := p.version, flags := p.flags, tag := p.tag, bay := p.bay, queue := p.queue, session := p.session, paramLen := p.paramLen,
                  deadline := p.deadline, target := 9, hopLimit := p.hopLimit, reserved := p.reserved, source := p.source, crc := p.crc, params := p.params, gcmOk := p.gcmOk,
                  bulk := p.bulk }).transport.isUdp =
          true →
        (w14m fun p =>
              { transport := p.transport, version := p.version, flags := p.flags, tag := p.tag, bay := p.bay, queue := p.queue, session := p.session, paramLen := p.paramLen,
                deadline := p.deadline, target := 9, hopLimit := p.hopLimit, reserved := p.reserved, source := p.source, crc := p.crc, params := p.params, gcmOk := p.gcmOk,
                bulk := p.bulk }).gcmOk =
          true)
    ∧ ((w14m fun p =>
            { transport := p.transport, version := p.version, flags := p.flags, tag := p.tag, bay := p.bay, queue := p.queue, session := p.session, paramLen := p.paramLen, deadline := p.deadline,
              target := 9, hopLimit := p.hopLimit, reserved := p.reserved, source := p.source, crc := p.crc, params := p.params, gcmOk := p.gcmOk, bulk := p.bulk }).crc =
        Packet.crcOf 16
          (w14m fun p =>
            { transport := p.transport, version := p.version, flags := p.flags, tag := p.tag, bay := p.bay, queue := p.queue, session := p.session, paramLen := p.paramLen, deadline := p.deadline,
              target := 9, hopLimit := p.hopLimit, reserved := p.reserved, source := p.source, crc := p.crc, params := p.params, gcmOk := p.gcmOk, bulk := p.bulk }))
    ∧ (headCheck 16
          (w14m fun p =>
            { transport := p.transport, version := p.version, flags := p.flags, tag := p.tag, bay := p.bay, queue := p.queue, session := p.session, paramLen := p.paramLen, deadline := p.deadline,
              target := 9, hopLimit := p.hopLimit, reserved := p.reserved, source := p.source, crc := p.crc, params := p.params, gcmOk := p.gcmOk, bulk := p.bulk }) =
        none)
    ∧ (if
          (match
              (w14m fun p =>
                  { transport := p.transport, version := p.version, flags := p.flags, tag := p.tag, bay := p.bay, queue := p.queue, session := p.session, paramLen := p.paramLen,
                    deadline := p.deadline, target := 9, hopLimit := p.hopLimit, reserved := p.reserved, source := p.source, crc := p.crc, params := p.params, gcmOk := p.gcmOk,
                    bulk := p.bulk }).transport with
            | Transport.mortar dev => false
            | x => true) =
            true then
        1 ≤
            (w14m fun p =>
                { transport := p.transport, version := p.version, flags := p.flags, tag := p.tag, bay := p.bay, queue := p.queue, session := p.session, paramLen := p.paramLen,
                  deadline := p.deadline, target := 9, hopLimit := p.hopLimit, reserved := p.reserved, source := p.source, crc := p.crc, params := p.params, gcmOk := p.gcmOk,
                  bulk := p.bulk }).hopLimit ∧
          (w14m fun p =>
                { transport := p.transport, version := p.version, flags := p.flags, tag := p.tag, bay := p.bay, queue := p.queue, session := p.session, paramLen := p.paramLen,
                  deadline := p.deadline, target := 9, hopLimit := p.hopLimit, reserved := p.reserved, source := p.source, crc := p.crc, params := p.params, gcmOk := p.gcmOk,
                  bulk := p.bulk }).hopLimit ≤
            63
      else
        2 ≤
          (w14m fun p =>
              { transport := p.transport, version := p.version, flags := p.flags, tag := p.tag, bay := p.bay, queue := p.queue, session := p.session, paramLen := p.paramLen,
                deadline := p.deadline, target := 9, hopLimit := p.hopLimit, reserved := p.reserved, source := p.source, crc := p.crc, params := p.params, gcmOk := p.gcmOk,
                bulk := p.bulk }).hopLimit)
    ∧ (w14r.unitLanes none
          (match
            (w14m fun p =>
                { transport := p.transport, version := p.version, flags := p.flags, tag := p.tag, bay := p.bay, queue := p.queue, session := p.session, paramLen := p.paramLen,
                  deadline := p.deadline, target := 9, hopLimit := p.hopLimit, reserved := p.reserved, source := p.source, crc := p.crc, params := p.params, gcmOk := p.gcmOk,
                  bulk := p.bulk }).transport with
          | Transport.mortar d => d
          | x => w14r.kiln.devId)
          (w14m fun p =>
              { transport := p.transport, version := p.version, flags := p.flags, tag := p.tag, bay := p.bay, queue := p.queue, session := p.session, paramLen := p.paramLen,
                deadline := p.deadline, target := 9, hopLimit := p.hopLimit, reserved := p.reserved, source := p.source, crc := p.crc, params := p.params, gcmOk := p.gcmOk,
                bulk := p.bulk }).target =
        [])
    ∧ ((w14m fun p =>
            { transport := p.transport, version := p.version, flags := p.flags, tag := p.tag, bay := p.bay, queue := p.queue, session := p.session, paramLen := p.paramLen, deadline := p.deadline,
              target := 8, hopLimit := 1, reserved := p.reserved, source := p.source, crc := p.crc, params := p.params, gcmOk := p.gcmOk, bulk := p.bulk }).target ≠
        1023)
    ∧ (targetLocal
          (w14m fun p =>
            { transport := p.transport, version := p.version, flags := p.flags, tag := p.tag, bay := p.bay, queue := p.queue, session := p.session, paramLen := p.paramLen, deadline := p.deadline,
              target := 8, hopLimit := 1, reserved := p.reserved, source := p.source, crc := p.crc, params := p.params, gcmOk := p.gcmOk, bulk := p.bulk })
          w14r =
        false)
    ∧ ((w14m fun p =>
                { transport := p.transport, version := p.version, flags := p.flags, tag := p.tag, bay := p.bay, queue := p.queue, session := p.session, paramLen := p.paramLen,
                  deadline := p.deadline, target := 8, hopLimit := 1, reserved := p.reserved, source := p.source, crc := p.crc, params := p.params, gcmOk := p.gcmOk,
                  bulk := p.bulk }).transport.isUdp =
          true →
        (w14m fun p =>
              { transport := p.transport, version := p.version, flags := p.flags, tag := p.tag, bay := p.bay, queue := p.queue, session := p.session, paramLen := p.paramLen,
                deadline := p.deadline, target := 8, hopLimit := 1, reserved := p.reserved, source := p.source, crc := p.crc, params := p.params, gcmOk := p.gcmOk, bulk := p.bulk }).gcmOk =
          true)
    ∧ ((w14m fun p =>
            { transport := p.transport, version := p.version, flags := p.flags, tag := p.tag, bay := p.bay, queue := p.queue, session := p.session, paramLen := p.paramLen, deadline := p.deadline,
              target := 8, hopLimit := 1, reserved := p.reserved, source := p.source, crc := p.crc, params := p.params, gcmOk := p.gcmOk, bulk := p.bulk }).crc =
        Packet.crcOf 16
          (w14m fun p =>
            { transport := p.transport, version := p.version, flags := p.flags, tag := p.tag, bay := p.bay, queue := p.queue, session := p.session, paramLen := p.paramLen, deadline := p.deadline,
              target := 8, hopLimit := 1, reserved := p.reserved, source := p.source, crc := p.crc, params := p.params, gcmOk := p.gcmOk, bulk := p.bulk }))
    ∧ (headCheck 16
          (w14m fun p =>
            { transport := p.transport, version := p.version, flags := p.flags, tag := p.tag, bay := p.bay, queue := p.queue, session := p.session, paramLen := p.paramLen, deadline := p.deadline,
              target := 8, hopLimit := 1, reserved := p.reserved, source := p.source, crc := p.crc, params := p.params, gcmOk := p.gcmOk, bulk := p.bulk }) =
        none)
    ∧ ((match
          (w14m fun p =>
              { transport := p.transport, version := p.version, flags := p.flags, tag := p.tag, bay := p.bay, queue := p.queue, session := p.session, paramLen := p.paramLen,
                deadline := p.deadline, target := 8, hopLimit := 1, reserved := p.reserved, source := p.source, crc := p.crc, params := p.params, gcmOk := p.gcmOk, bulk := p.bulk }).transport with
        | Transport.mortar dev => false
        | x => true) =
        false)
    ∧ ((w14m fun p =>
            { transport := p.transport, version := p.version, flags := p.flags, tag := p.tag, bay := p.bay, queue := p.queue, session := p.session, paramLen := p.paramLen, deadline := p.deadline,
              target := 8, hopLimit := 1, reserved := p.reserved, source := p.source, crc := p.crc, params := p.params, gcmOk := p.gcmOk, bulk := p.bulk }).hopLimit ≤
        1)
    ∧ ((w14m fun p =>
            { transport := Transport.spi, version := p.version, flags := p.flags, tag := p.tag, bay := p.bay, queue := p.queue, session := p.session, paramLen := p.paramLen,
              deadline := p.deadline, target := 8, hopLimit := 0, reserved := p.reserved, source := p.source, crc := p.crc, params := p.params, gcmOk := p.gcmOk, bulk := p.bulk }).target ≠
        1023)
    ∧ (targetLocal
          (w14m fun p =>
            { transport := Transport.spi, version := p.version, flags := p.flags, tag := p.tag, bay := p.bay, queue := p.queue, session := p.session, paramLen := p.paramLen,
              deadline := p.deadline, target := 8, hopLimit := 0, reserved := p.reserved, source := p.source, crc := p.crc, params := p.params, gcmOk := p.gcmOk, bulk := p.bulk })
          w14r =
        false) := by
  refine ⟨?_, ?_, ?_, ?_, ?_, ?_, ?_, ?_, ?_, ?_, ?_, ?_, ?_, ?_, ?_, ?_, ?_, ?_, ?_, ?_, ?_, ?_, ?_, ?_, ?_, ?_, ?_, ?_, ?_, ?_⟩
  · decide +kernel
  · rfl
  · decide +kernel
  · decide +kernel
  · decide +kernel
  · decide +kernel
  · decide +kernel
  · decide +kernel
  · decide +kernel
  · decide +kernel
  · decide +kernel
  · decide +kernel
  · decide +kernel
  · decide +kernel
  · decide +kernel
  · decide +kernel
  · decide +kernel
  · decide +kernel
  · decide +kernel
  · decide +kernel
  · decide +kernel
  · decide +kernel
  · decide +kernel
  · decide +kernel
  · decide +kernel
  · decide +kernel
  · decide +kernel
  · decide +kernel
  · decide +kernel
  · decide +kernel

theorem test_hyps_BulkDataAndForwarding_3 :
    ((w14m fun p =>
                { transport := Transport.spi, version := p.version, flags := p.flags, tag := p.tag, bay := p.bay, queue := p.queue, session := p.session, paramLen := p.paramLen,
                  deadline := p.deadline, target := 8, hopLimit := 0, reserved := p.reserved, source := p.source, crc := p.crc, params := p.params, gcmOk := p.gcmOk,
                  bulk := p.bulk }).transport.isUdp =
          true →
        (w14m fun p =>
              { transport := Transport.spi, version := p.version, flags := p.flags, tag := p.tag, bay := p.bay, queue := p.queue, session := p.session, paramLen := p.paramLen,
                deadline := p.deadline, target := 8, hopLimit := 0, reserved := p.reserved, source := p.source, crc := p.crc, params := p.params, gcmOk := p.gcmOk, bulk := p.bulk }).gcmOk =
          true)
    ∧ ((w14m fun p =>
            { transport := Transport.spi, version := p.version, flags := p.flags, tag := p.tag, bay := p.bay, queue := p.queue, session := p.session, paramLen := p.paramLen,
              deadline := p.deadline, target := 8, hopLimit := 0, reserved := p.reserved, source := p.source, crc := p.crc, params := p.params, gcmOk := p.gcmOk, bulk := p.bulk }).crc =
        Packet.crcOf 16
          (w14m fun p =>
            { transport := Transport.spi, version := p.version, flags := p.flags, tag := p.tag, bay := p.bay, queue := p.queue, session := p.session, paramLen := p.paramLen,
              deadline := p.deadline, target := 8, hopLimit := 0, reserved := p.reserved, source := p.source, crc := p.crc, params := p.params, gcmOk := p.gcmOk, bulk := p.bulk }))
    ∧ (headCheck 16
          (w14m fun p =>
            { transport := Transport.spi, version := p.version, flags := p.flags, tag := p.tag, bay := p.bay, queue := p.queue, session := p.session, paramLen := p.paramLen,
              deadline := p.deadline, target := 8, hopLimit := 0, reserved := p.reserved, source := p.source, crc := p.crc, params := p.params, gcmOk := p.gcmOk, bulk := p.bulk }) =
        none)
    ∧ (if
          (match
              (w14m fun p =>
                  { transport := Transport.spi, version := p.version, flags := p.flags, tag := p.tag, bay := p.bay, queue := p.queue, session := p.session, paramLen := p.paramLen,
                    deadline := p.deadline, target := 8, hopLimit := 0, reserved := p.reserved, source := p.source, crc := p.crc, params := p.params, gcmOk := p.gcmOk,
                    bulk := p.bulk }).transport with
            | Transport.mortar dev => false
            | x => true) =
            true then
        (w14m fun p =>
                { transport := Transport.spi, version := p.version, flags := p.flags, tag := p.tag, bay := p.bay, queue := p.queue, session := p.session, paramLen := p.paramLen,
                  deadline := p.deadline, target := 8, hopLimit := 0, reserved := p.reserved, source := p.source, crc := p.crc, params := p.params, gcmOk := p.gcmOk, bulk := p.bulk }).hopLimit =
            0 ∨
          63 <
            (w14m fun p =>
                { transport := Transport.spi, version := p.version, flags := p.flags, tag := p.tag, bay := p.bay, queue := p.queue, session := p.session, paramLen := p.paramLen,
                  deadline := p.deadline, target := 8, hopLimit := 0, reserved := p.reserved, source := p.source, crc := p.crc, params := p.params, gcmOk := p.gcmOk, bulk := p.bulk }).hopLimit
      else False)
    ∧ (w14sb.serving = true)
    ∧ (HostBroadcast (w14hb 3) = true)
    ∧ (Taken 16 (w14hb 3) w14sb = true)
    ∧ (waitsHere 16 (w14hb 3) (w14sb.queueOf (queueId (w14hb 3).bay (w14hb 3).queue)) = none)
    ∧ ((w14hb 3).crc = Packet.crcOf 16 (w14hb 3))
    ∧ (headCheck 16 (w14hb 3) = none)
    ∧ ((w14hb 3).hopLimit ≠ 0 ∧ Option.any (fun c => c.bc) (card 16) = true ∧ w14sb.mortar.stt ≠ MState.fenced)
    ∧ (HostBroadcast (w14hb 0) = true)
    ∧ (Taken 16 (w14hb 0) w14sb = true)
    ∧ (waitsHere 16 (w14hb 0) (w14sb.queueOf (queueId (w14hb 0).bay (w14hb 0).queue)) = none)
    ∧ ((w14hb 0).crc = Packet.crcOf 16 (w14hb 0))
    ∧ (headCheck 16 (w14hb 0) = none)
    ∧ (¬((w14hb 0).hopLimit ≠ 0 ∧ Option.any (fun c => c.bc) (card 16) = true ∧ w14sb.mortar.stt ≠ MState.fenced)) := by
  refine ⟨?_, ?_, ?_, ?_, ?_, ?_, ?_, ?_, ?_, ?_, ?_, ?_, ?_, ?_, ?_, ?_, ?_⟩
  · decide +kernel
  · decide +kernel
  · decide +kernel
  · decide +kernel
  · decide +kernel
  · decide +kernel
  · decide +kernel
  · decide +kernel
  · decide +kernel
  · decide +kernel
  · first | rfl | decide +kernel
  · decide +kernel
  · decide +kernel
  · decide +kernel
  · decide +kernel
  · decide +kernel
  · first | rfl | decide +kernel

def w16 (c : Cfg) : State := { wl with cfg := c }
def w16s : State := w16 { shadow := ({ gen := 1 } : KeySet).put (kLane 0 0) 1 }
def w16e : Packet := wPk 0x0101 1 (leBytes 8 1 ++ leBytes 2 (kPulse 0 0) ++ leBytes 2 1 ++ zeros 4 ++ leBytes 8 1)
def w16w (b : Nat) : Swap := { boundary := b, vset := 0, atTime := 0, from_ := 999999, sample := some 1000001, bay := 1, role := .operator, gen := 1 }
def w16t : State := w16 { pend := some (w16w 2) }
def w16x : State := { wl with ev.bay := [(1, { drops := 2 })] }
def w16q (n : Nat) (b : Bytes) : Packet := wPk n 1 b
def w16c : Packet := wPk 0x0C01 1 [2, 0, 0, 0, 0, 0, 0, 0]
def w16p : Packet := { wPk 0x0010 1 [] with transport := .spi, target := 0xFFFF }
def w16pb : Bytes := w16p.bytes 0x0010
def w16sp : State := { wl with host.sess := [{ wSess 1 .operator with peer := .spi }] }
def w16r (l : List Bytes) : State := { wl with host.spi := l }
def w16n (x : Qp) : State := { wPcie wl with host.qp := [(0, x)] }
def w16f : Fetch := { pktLen := 32, rspCap := 4096, pkt := some w16pb, bulk := [] }
def w16g : Qp := { size := 0x404, enable := true, running := true, sqTail := 1 }
def w16h : Chal := { handle := 9, bay := 1, identity := 3, role := .operator, peer := .mortar 5, idleS := 600, issued := 0, canPass := true, transcript := [], key := [], answer := none }
def w16ch : State := { wl with host.chal := [w16h] }
def w16pp : Packet := { w16p with transport := .pcie 0 0 4096 }
def w16rec : EvRec := { seq := 0, source := 5, kind := .pulse, afterLoss := false, timeHold := false, timeInvalid := false, replay := false, index := 3, time := 0, data := 0 }
def w16bay : EvBay := { seq := 1, queue := [w16rec] }

theorem test_hyps_EditsAndConfigurationReads :
    (w16s.cfg.pend = none)
    ∧ (w16s.cfgReadOnly = false)
    ∧ (Starts 257 w16e w16s = true)
    ∧ (w16e.isBulk = false)
    ∧ (8 ≤ List.length w16e.params)
    ∧ (1 ≤ fld w16e.params 0 2)
    ∧ (fld w16e.params 0 2 ≤ 1024)
    ∧ (allZero w16e.params 2 6 = true)
    ∧ (checkEdits w16e.params (fld w16e.params 0 2) 8 [] = Edits.ok [(kPulse 0 0, 1)])
    ∧ (([(kPulse 0 0, 1)].any fun e => isLegalKey e.1) = true → b0Legal w16e.bay ((w16s.touch w16e).ctx w16e).role = true)
    ∧ (Starts 259 (wPk 259 1 []) w16s = true)
    ∧ (Block 0 [] (wPk 259 1 []) = true)
    ∧ (Starts 258 (wPk 258 1 (leBytes 2 0 ++ leBytes 2 1 ++ zeros 4 ++ leBytes 8 (kPulse 0 0))) w16s = true)
    ∧ ((wPk 258 1 (leBytes 2 0 ++ leBytes 2 1 ++ zeros 4 ++ leBytes 8 (kPulse 0 0))).isBulk = false)
    ∧ (8 ≤ List.length (wPk 258 1 (leBytes 2 0 ++ leBytes 2 1 ++ zeros 4 ++ leBytes 8 (kPulse 0 0))).params)
    ∧ (fld (wPk 258 1 (leBytes 2 0 ++ leBytes 2 1 ++ zeros 4 ++ leBytes 8 (kPulse 0 0))).params 0 1 ≤ 1)
    ∧ (allZero (wPk 258 1 (leBytes 2 0 ++ leBytes 2 1 ++ zeros 4 ++ leBytes 8 (kPulse 0 0))).params 1 1 = true)
    ∧ (1 ≤ fld (wPk 258 1 (leBytes 2 0 ++ leBytes 2 1 ++ zeros 4 ++ leBytes 8 (kPulse 0 0))).params 2 2)
    ∧ (fld (wPk 258 1 (leBytes 2 0 ++ leBytes 2 1 ++ zeros 4 ++ leBytes 8 (kPulse 0 0))).params 2 2 ≤ 1024)
    ∧ (allZero (wPk 258 1 (leBytes 2 0 ++ leBytes 2 1 ++ zeros 4 ++ leBytes 8 (kPulse 0 0))).params 4 4 = true)
    ∧ (List.length (wPk 258 1 (leBytes 2 0 ++ leBytes 2 1 ++ zeros 4 ++ leBytes 8 (kPulse 0 0))).params =
        8 + ceilDiv (2 * fld (wPk 258 1 (leBytes 2 0 ++ leBytes 2 1 ++ zeros 4 ++ leBytes 8 (kPulse 0 0))).params 2 2) 8 * 8)
    ∧ (allZero (wPk 258 1 (leBytes 2 0 ++ leBytes 2 1 ++ zeros 4 ++ leBytes 8 (kPulse 0 0))).params
          (8 + 2 * fld (wPk 258 1 (leBytes 2 0 ++ leBytes 2 1 ++ zeros 4 ++ leBytes 8 (kPulse 0 0))).params 2 2) 8 =
        true)
    ∧ (∀ i < fld (wPk 258 1 (leBytes 2 0 ++ leBytes 2 1 ++ zeros 4 ++ leBytes 8 (kPulse 0 0))).params 2 2,
        (keyInfo
              ((List.map (fun i => fld (wPk 258 1 (leBytes 2 0 ++ leBytes 2 1 ++ zeros 4 ++ leBytes 8 (kPulse 0 0))).params (8 + 2 * i) 2)
                    (List.range (fld (wPk 258 1 (leBytes 2 0 ++ leBytes 2 1 ++ zeros 4 ++ leBytes 8 (kPulse 0 0))).params 2 2))).getD
                i 0)).isSome =
          true)
    ∧ (Starts 273 (wPk 273 1 []) w16s = true)
    ∧ (Block 0 [] (wPk 273 1 []) = true) := by
  refine ⟨?_, ?_, ?_, ?_, ?_, ?_, ?_, ?_, ?_, ?_, ?_, ?_, ?_, ?_, ?_, ?_, ?_, ?_, ?_, ?_, ?_, ?_, ?_, ?_, ?_⟩
  · decide +kernel
  · decide +kernel
  · exact starts_of (wPk_crc ..) (by decide +kernel)
  · decide +kernel
  · decide +kernel
  · decide +kernel
  · decide +kernel
  · decide +kernel
  · decide +kernel
  · decide +kernel
  · exact starts_of (wPk_crc ..) (by decide +kernel)
  · decide +kernel
  · exact starts_of (wPk_crc ..) (by decide +kernel)
  · decide +kernel
  · decide +kernel
  · decide +kernel
  · decide +kernel
  · decide +kernel
  · decide +kernel
  · decide +kernel
  · decide +kernel
  · decide +kernel
  · decide +kernel
  · exact starts_of (wPk_crc ..) (by decide +kernel)
  · decide +kernel

theorem test_hyps_SwapsAreArmedAppliedAndCancelled :
    (Starts 272 (wPk 272 1 (leBytes 4 0 ++ leBytes 4 1 ++ zeros 8)) w16s = true)
    ∧ (Block 16 [(2, 2)] (wPk 272 1 (leBytes 4 0 ++ leBytes 4 1 ++ zeros 8)) = true)
    ∧ (fld (wPk 272 1 (leBytes 4 0 ++ leBytes 4 1 ++ zeros 8)).params 0 1 ≤ 3)
    ∧ (fld (wPk 272 1 (leBytes 4 0 ++ leBytes 4 1 ++ zeros 8)).params 1 1 ≤ 7)
    ∧ (fld (wPk 272 1 (leBytes 4 0 ++ leBytes 4 1 ++ zeros 8)).params 0 1 ≠ 1 → fld (wPk 272 1 (leBytes 4 0 ++ leBytes 4 1 ++ zeros 8)).params 1 1 = 0)
    ∧ (fld (wPk 272 1 (leBytes 4 0 ++ leBytes 4 1 ++ zeros 8)).params 0 1 ≠ 3 → fld (wPk 272 1 (leBytes 4 0 ++ leBytes 4 1 ++ zeros 8)).params 8 8 = 0)
    ∧ (w16s.cfg.active.differ w16s.cfg.shadow isLegalKey = true →
        b0Legal (wPk 272 1 (leBytes 4 0 ++ leBytes 4 1 ++ zeros 8)).bay
            ((w16s.touch (wPk 272 1 (leBytes 4 0 ++ leBytes 4 1 ++ zeros 8))).ctx (wPk 272 1 (leBytes 4 0 ++ leBytes 4 1 ++ zeros 8))).role =
          true)
    ∧ (w16s.cfg.pend = none)
    ∧ (w16s.cfgReadOnly = false)
    ∧ (fld (wPk 272 1 (leBytes 4 0 ++ leBytes 4 1 ++ zeros 8)).params 4 4 = w16s.cfg.shadow.gen)
    ∧ (fld (wPk 272 1 (leBytes 4 0 ++ leBytes 4 1 ++ zeros 8)).params 0 1 = 3 → w16s.time.valid = true ∧ w16s.nowNs < fld (wPk 272 1 (leBytes 4 0 ++ leBytes 4 1 ++ zeros 8)).params 8 8)
    ∧ (fld (wPk 272 1 (leBytes 4 0 ++ leBytes 4 1 ++ zeros 8)).params 0 1 = 1 → vsEnabled w16s.cfg.active (fld (wPk 272 1 (leBytes 4 0 ++ leBytes 4 1 ++ zeros 8)).params 1 1) = true)
    ∧ (w16s.firstFail w16s.cfg.shadow = 65535)
    ∧ (Starts 274 (wPk 274 1 []) w16t = true)
    ∧ (Block 0 [] (wPk 274 1 []) = true)
    ∧ (w16t.cfg.pend = some (w16w 2))
    ∧ ((w16w 2).boundary ≠ 0)
    ∧ (b0Legal (wPk 274 1 []).bay ((w16t.touch (wPk 274 1 [])).ctx (wPk 274 1 [])).role = true ∨
        (wPk 274 1 []).bay = (w16w 2).bay ∧ ((w16t.touch (wPk 274 1 [])).ctx (wPk 274 1 [])).role = (w16w 2).role)
    ∧ (w16t.swapSample = some 1000001)
    ∧ (w16t.time.indexOn = true)
    ∧ (1000001 ≤ w16t.time.index + 1) := by
  refine ⟨?_, ?_, ?_, ?_, ?_, ?_, ?_, ?_, ?_, ?_, ?_, ?_, ?_, ?_, ?_, ?_, ?_, ?_, ?_, ?_, ?_⟩
  · exact starts_of (wPk_crc ..) (by decide +kernel)
  · decide +kernel
  · decide +kernel
  · decide +kernel
  · decide +kernel
  · decide +kernel
  · decide +kernel
  · decide +kernel
  · decide +kernel
  · decide +kernel
  · decide +kernel
  · decide +kernel
  · decide +kernel
  · exact starts_of (wPk_crc ..) (by decide +kernel)
  · decide +kernel
  · decide +kernel
  · decide +kernel
  · decide +kernel
  · decide +kernel
  · decide +kernel
  · decide +kernel

theorem test_hyps_EventAndQosCommandsAnswer :
    (Starts 3088 (wPk 3088 1 (zeros 136)) wr = true)
    ∧ (Block 136 [(1, 7)] (wPk 3088 1 (zeros 136)) = true)
    ∧ (fld (wPk 3088 1 (zeros 136)).params 0 1 ≤ 2)
    ∧ (Starts 3089 (wPk 3089 1 (leBytes 8 4)) wr = true)
    ∧ (Block 8 [(2, 6)] (wPk 3089 1 (leBytes 8 4)) = true)
    ∧ (1 ≤ fld (wPk 3089 1 (leBytes 8 4)).params 0 2)
    ∧ (fld (wPk 3089 1 (leBytes 8 4)).params 0 2 ≤ 1024)
    ∧ (w16bay.ordered[0]? = some w16rec)
    ∧ (∀ r ∈ w16bay.queue, r.afterLoss = false)
    ∧ ((wr.evBay 1).drops = 0)
    ∧ (Tbl.wf { } w16x.ev.bay)
    ∧ (1 < 8)
    ∧ ((w16x.evBay 1).drops ≠ 0)
    ∧ ((w16x.evBay 1).queue.length < 4096)
    ∧ (Starts 3120 (wPk 3120 1 ([2, 2, 0, 0] ++ leBytes 8 281479271743489 ++ zeros 4)) wl = true)
    ∧ (Block 16 [(2, 2), (12, 4)] (wPk 3120 1 ([2, 2, 0, 0] ++ leBytes 8 281479271743489 ++ zeros 4)) = true)
    ∧ (1 ≤ fld (wPk 3120 1 ([2, 2, 0, 0] ++ leBytes 8 281479271743489 ++ zeros 4)).params 0 1)
    ∧ (fld (wPk 3120 1 ([2, 2, 0, 0] ++ leBytes 8 281479271743489 ++ zeros 4)).params 0 1 ≤ 7)
    ∧ (1 ≤ fld (wPk 3120 1 ([2, 2, 0, 0] ++ leBytes 8 281479271743489 ++ zeros 4)).params 1 1)
    ∧ (fld (wPk 3120 1 ([2, 2, 0, 0] ++ leBytes 8 281479271743489 ++ zeros 4)).params 1 1 ≤ 3)
    ∧ (∀
        x ∈
          [fld (wPk 3120 1 ([2, 2, 0, 0] ++ leBytes 8 281479271743489 ++ zeros 4)).params 4 2, fld (wPk 3120 1 ([2, 2, 0, 0] ++ leBytes 8 281479271743489 ++ zeros 4)).params 6 2,
            fld (wPk 3120 1 ([2, 2, 0, 0] ++ leBytes 8 281479271743489 ++ zeros 4)).params 8 2, fld (wPk 3120 1 ([2, 2, 0, 0] ++ leBytes 8 281479271743489 ++ zeros 4)).params 10 2],
        1 ≤ x ∧ x ≤ 1000)
    ∧ (sharesFit (wl.touch (wPk 3120 1 ([2, 2, 0, 0] ++ leBytes 8 281479271743489 ++ zeros 4))) (fld (wPk 3120 1 ([2, 2, 0, 0] ++ leBytes 8 281479271743489 ++ zeros 4)).params 0 1)
          { cls := fld (wPk 3120 1 ([2, 2, 0, 0] ++ leBytes 8 281479271743489 ++ zeros 4)).params 1 1, tile := fld (wPk 3120 1 ([2, 2, 0, 0] ++ leBytes 8 281479271743489 ++ zeros 4)).params 4 2,
            dram := fld (wPk 3120 1 ([2, 2, 0, 0] ++ leBytes 8 281479271743489 ++ zeros 4)).params 6 2, link := fld (wPk 3120 1 ([2, 2, 0, 0] ++ leBytes 8 281479271743489 ++ zeros 4)).params 8 2,
            cmd := fld (wPk 3120 1 ([2, 2, 0, 0] ++ leBytes 8 281479271743489 ++ zeros 4)).params 10 2 } =
        true)
    ∧ (Starts 3121 (wPk 3121 1 (leBytes 8 2)) wr = true)
    ∧ (Block 8 [(1, 7)] (wPk 3121 1 (leBytes 8 2)) = true)
    ∧ (fld (wPk 3121 1 (leBytes 8 2)).params 0 1 ≤ 7) := by
  refine ⟨?_, ?_, ?_, ?_, ?_, ?_, ?_, ?_, ?_, ?_, ?_, ?_, ?_, ?_, ?_, ?_, ?_, ?_, ?_, ?_, ?_, ?_, ?_, ?_, ?_⟩
  · exact starts_of (wPk_crc ..) (by decide +kernel)
  · decide +kernel
  · decide +kernel
  · exact starts_of (wPk_crc ..) (by decide +kernel)
  · decide +kernel
  · decide +kernel
  · decide +kernel
  · decide +kernel
  · decide +kernel
  · decide +kernel
  · decide +kernel
  · decide +kernel
  · decide +kernel
  · decide +kernel
  · exact starts_of (wPk_crc ..) (by decide +kernel)
  · decide +kernel
  · decide +kernel
  · decide +kernel
  · decide +kernel
  · decide +kernel
  · decide +kernel
  · decide +kernel
  · exact starts_of (wPk_crc ..) (by decide +kernel)
  · decide +kernel
  · decide +kernel

theorem test_hyps_BayResetsEmptyTheirBays :
    (2 < 8)
    ∧ (Tbl.wf [] w16x.host.queue)
    ∧ (Tbl.wf { } w16x.ev.bay)
    ∧ (Starts 3073 w16c w16x = true)
    ∧ (Block 8 [(1, 7)] w16c = true)
    ∧ (fld w16c.params 0 1 = 2)
    ∧ (2 ≠ w16c.bay)
    ∧ (w16c.bay = 0 ∧ ((w16x.touch w16c).ctx w16c).role = SessRole.legal ∨ w16c.bay = 1 ∧ ((w16x.touch w16c).ctx w16c).role.meets SessRole.operator = true ∧ 2 ≤ 2)
    ∧ (1 < 8)
    ∧ (Starts 3073 (wPk 3073 1 (leBytes 8 1)) w16x = true)
    ∧ (Block 8 [(1, 7)] (wPk 3073 1 (leBytes 8 1)) = true)
    ∧ (fld (wPk 3073 1 (leBytes 8 1)).params 0 1 = 1)
    ∧ (1 = (wPk 3073 1 (leBytes 8 1)).bay ∧ ((w16x.touch (wPk 3073 1 (leBytes 8 1))).ctx (wPk 3073 1 (leBytes 8 1))).role.meets SessRole.operator = true)
    ∧ (3 < 16)
    ∧ (wSess 1 SessRole.operator ∈ (w16x.bayReset 2).host.sess)
    ∧ (Tbl.wf [] w16ch.host.queue)
    ∧ (Tbl.wf { } w16ch.ev.bay)
    ∧ (w16h ∈ (w16ch.bayReset 2).host.chal) := by
  refine ⟨?_, ?_, ?_, ?_, ?_, ?_, ?_, ?_, ?_, ?_, ?_, ?_, ?_, ?_, ?_, ?_, ?_, ?_⟩
  · decide +kernel
  · decide +kernel
  · decide +kernel
  · exact starts_of (wPk_crc ..) (by decide +kernel)
  · decide +kernel
  · decide +kernel
  · decide +kernel
  · decide +kernel
  · decide +kernel
  · exact starts_of (wPk_crc ..) (by decide +kernel)
  · decide +kernel
  · decide +kernel
  · decide +kernel
  · decide +kernel
  · decide +kernel
  · decide +kernel
  · decide +kernel
  · decide +kernel

theorem test_hyps_HostPortsMovePackets :
    (rxReady State.reset = false)
    ∧ (State.reset.host.spi = [])
    ∧ (rxReady w16sp = true)
    ∧ (parsePacket Transport.spi true [] w16pb = some (16, w16p))
    ∧ (Taken 16 w16p
          { pending := w16sp.pending, freeCount := w16sp.freeCount, time := w16sp.time, rtc := w16sp.rtc, front := w16sp.front, metro := w16sp.metro, pq := w16sp.pq, acc := w16sp.acc,
            tiles := w16sp.tiles, aux := w16sp.aux, bill := w16sp.bill, plc := w16sp.plc, radio := w16sp.radio, ledger := w16sp.ledger, mortar := w16sp.mortar,
            host :=
              { queue := w16sp.host.queue, busy := w16sp.host.busy, sess := w16sp.host.sess, chal := w16sp.host.chal, ident := w16sp.host.ident, ended := w16sp.host.ended,
                expired := w16sp.host.expired, out := w16sp.host.out, spi := w16sp.host.spi, cq := w16sp.host.cq, qp := w16sp.host.qp, qos := w16sp.host.qos, island := w16sp.host.island,
                forwarded := w16sp.host.forwarded, trace := w16sp.host.trace, net := w16sp.host.net, reasm := w16sp.host.reasm, pcieL2 := w16sp.host.pcieL2 },
            win := { fn := w16sp.win.fn, writeCrc := w16sp.win.writeCrc, data := w16sp.win.data, spiStatus := spiStatusByte w16sp, spiOut := w16sp.win.spiOut }, ev := w16sp.ev, cfg := w16sp.cfg,
            store := w16sp.store, power := w16sp.power, kiln := w16sp.kiln, fault := w16sp.fault, pins := w16sp.pins } =
        true)
    ∧ (HostBroadcast w16p = false)
    ∧ ((w16r [zeros 8]).host.spi = [zeros 8])
    ∧ (4 < 4 + List.length (zeros 8))
    ∧ (4 + List.length (zeros 8) ≤ 12)
    ∧ ((w16n { size := 1028 }).fault.f4 = false)
    ∧ (((w16n { size := 1028 }).qpOf 0 0).enable = false)
    ∧ (((w16n { size := 1028 }).qpOf 0 0).configOk = true)
    ∧ ((w16n { }).fault.f4 = false)
    ∧ (((w16n { }).qpOf 0 0).enable = false)
    ∧ (((w16n { }).qpOf 0 0).configOk = false)
    ∧ ((w16n w16g).fault.f4 = false)
    ∧ (((w16n w16g).qpOf 0 0).enable = true)
    ∧ (4 < ((w16n w16g).qpOf 0 0).sqSize)
    ∧ (4 < ((w16n w16g).qpOf 0 0).cqSize)
    ∧ (((w16n w16g).qpOf 0 0).sqSize ≤ 16)
    ∧ (((w16n w16g).qpOf 0 0).cqSize ≤ 16)
    ∧ (((w16n w16g).qpOf 0 0).running = true)
    ∧ (((w16n w16g).qpOf 0 0).error = false)
    ∧ (((w16n w16g).qpOf 0 0).sqHead ≠ ((w16n w16g).qpOf 0 0).sqTail)
    ∧ ((w16n w16g).serving = true)
    ∧ (w16f.pkt = some w16pb)
    ∧ (w16f.pktLen ≠ 0)
    ∧ (parsePacket (Transport.pcie 0 0 w16f.rspCap) true w16f.bulk (fitBytes w16f.pktLen w16pb) = some (16, w16pp))
    ∧ (w16f.pkt.isSome = true)
    ∧ (0 = 0) := by
  refine ⟨?_, ?_, ?_, ?_, ?_, ?_, ?_, ?_, ?_, ?_, ?_, ?_, ?_, ?_, ?_, ?_, ?_, ?_, ?_, ?_, ?_, ?_, ?_, ?_, ?_, ?_, ?_, ?_, ?_, ?_⟩ <;> decide +kernel

def w17p : Packet := wPk 0x0D01 0 (leBytes 8 78 ++ [4, 1] ++ zeros 70)
def w17n : State := { wr with host.sess := [wSess 1 .utility] }
def w17q : Packet := wPk 0x0D01 1 (leBytes 8 78 ++ [4, 1] ++ zeros 70)
def w17i : Ident := { id := 3, role := .operator, bayMask := 2, cred := zeros 16, fails := 5, locks := 1, lockEnd := some (10 ^ 18), clone := false }
def w17j : Ident := { w17i with lockEnd := none }
def w17g : State := { wg with host.ident := [w17i] }
def w17h : State := { wg with host.ident := [w17j] }
def w17s : State := { wl with store.indeterminate := [7], store.flashPresent := true }
def w17e : EccHit := { addr := 0, uncorrectable := false, what := .spare }
def w17b : Packet := wBp 0x0D20 0 (leBytes 8 2) (zeros 32)
def w17w : State := wPcie wg
def w17a : State := { wg with store.fwStaged := true }
def w17d : BulkDesc := { kind := 0, dir := 0, length := 32, address := 0, reservedOk := true }
def w17f : State := { wg with store.flashPresent := true }
def w17m : Packet := wPk 0x0D01 0 (leBytes 8 78 ++ [4, 2] ++ zeros 70)

theorem test_hyps_IdentitiesAreProvisionedAndRemoved :
    (Starts 3329 w17q w17n = true)
    ∧ (Block 80 [(10, 6)] w17q = true)
    ∧ (SessRole.ofCode (fld w17q.params 8 1) = some SessRole.legal)
    ∧ (maskOk (fld w17q.params 8 1) (fld w17q.params 9 1) = true)
    ∧ (allZero w17q.params (16 + credLength (fld w17q.params 8 1)) (64 - credLength (fld w17q.params 8 1)) = true)
    ∧ (identityRights ((w17n.touch w17q).ctx w17q) (fld w17q.params 8 1) (fld w17q.params 9 1) = false)
    ∧ (Starts 3329 w17p wg = true)
    ∧ (Block 80 [(10, 6)] w17p = true)
    ∧ (SessRole.ofCode (fld w17p.params 8 1) = some SessRole.legal)
    ∧ (identityRights ((wg.touch w17p).ctx w17p) (fld w17p.params 8 1) (fld w17p.params 9 1) = true)
    ∧ (maskOk (fld w17p.params 8 1) (fld w17p.params 9 1) = true)
    ∧ (allZero w17p.params (16 + credLength (fld w17p.params 8 1)) (64 - credLength (fld w17p.params 8 1)) = true)
    ∧ (wg.findIdent (fld w17p.params 0 8) = none)
    ∧ (wg.host.ident.length < 256)
    ∧ (wg.store.ro.contains 2 = false)
    ∧ ((if fld w17p.params 8 1 = 2 ∨ fld w17p.params 8 1 = 3 then
          Option.map (fitBytes 16) (Config.keyUnwrap ((wg.touch w17p).ctx w17p).key (slice w17p.params 16 (credLength (fld w17p.params 8 1))))
        else some (slice w17p.params 16 (credLength (fld w17p.params 8 1)))) =
        some (zeros 64))
    ∧ (Starts 3329 w17m wg = true)
    ∧ (Block 80 [(10, 6)] w17m = true)
    ∧ (SessRole.ofCode (fld w17m.params 8 1) = some SessRole.legal)
    ∧ (maskOk (fld w17m.params 8 1) (fld w17m.params 9 1) = false)
    ∧ (Block 8 [] (wPk 3330 0 (leBytes 8 3)) = true)
    ∧ (w17g.findIdent (fld (wPk 3330 0 (leBytes 8 3)).params 0 8) = some w17i)
    ∧ (identityRights ((w17g.touch (wPk 3330 0 (leBytes 8 3))).ctx (wPk 3330 0 (leBytes 8 3))) w17i.role.code w17i.bayMask.toNat = true)
    ∧ (Starts 3330 (wPk 3330 0 (leBytes 8 3)) w17g = true)
    ∧ (w17g.store.ro.contains 2 = false)
    ∧ (Block 8 [] (wPk 3331 0 (leBytes 8 3)) = true)
    ∧ (w17g.findIdent (fld (wPk 3331 0 (leBytes 8 3)).params 0 8) = some w17i)
    ∧ (identityRights ((w17g.touch (wPk 3331 0 (leBytes 8 3))).ctx (wPk 3331 0 (leBytes 8 3))) w17i.role.code w17i.bayMask.toNat = true)
    ∧ (Starts 3331 (wPk 3331 0 (leBytes 8 3)) w17g = true)
    ∧ (w17i.lockedAt w17g.time.mono = true)
    ∧ (w17h.findIdent (fld (wPk 3331 0 (leBytes 8 3)).params 0 8) = some w17j)
    ∧ (identityRights ((w17h.touch (wPk 3331 0 (leBytes 8 3))).ctx (wPk 3331 0 (leBytes 8 3))) w17j.role.code w17j.bayMask.toNat = true)
    ∧ (Starts 3331 (wPk 3331 0 (leBytes 8 3)) w17h = true)
    ∧ (w17j.lockedAt w17h.time.mono = false) := by
  refine ⟨?_, ?_, ?_, ?_, ?_, ?_, ?_, ?_, ?_, ?_, ?_, ?_, ?_, ?_, ?_, ?_, ?_, ?_, ?_, ?_, ?_, ?_, ?_, ?_, ?_, ?_, ?_, ?_, ?_, ?_, ?_, ?_, ?_, ?_⟩
  · exact starts_of (wPk_crc ..) (by decide +kernel)
  · decide +kernel
  · decide +kernel
  · decide +kernel
  · decide +kernel
  · decide +kernel
  · exact starts_of (wPk_crc ..) (by decide +kernel)
  · decide +kernel
  · decide +kernel
  · decide +kernel
  · decide +kernel
  · decide +kernel
  · rfl
  · decide +kernel
  · decide +kernel
  · decide +kernel
  · exact starts_of (wPk_crc ..) (by decide +kernel)
  · decide +kernel
  · decide +kernel
  · decide +kernel
  · decide +kernel
  · rfl
  · decide +kernel
  · exact starts_of (wPk_crc ..) (by decide +kernel)
  · decide +kernel
  · decide +kernel
  · rfl
  · decide +kernel
  · exact starts_of (wPk_crc ..) (by decide +kernel)
  · decide +kernel
  · rfl
  · decide +kernel
  · exact starts_of (wPk_crc ..) (by decide +kernel)
  · decide +kernel

theorem test_hyps_StorageScrubsStagesAndRetires :
    (w17s.ready 6 = true)
    ∧ (w17s.kiln.ph.k6 = true)
    ∧ (w17s.store.indeterminate.contains 7 = true)
    ∧ (w17s.store.flashRetired.contains 7 = false)
    ∧ (w17s.flashUsable = true)
    ∧ (Starts 3360 w17b w17w = true)
    ∧ (BulkBlock 0 8 [(4, 4)] w17b = true)
    ∧ (w17b.desc = some w17d)
    ∧ (w17d.kind = 0)
    ∧ (List.length (fitBytes w17d.length w17b.bulk) ≤ 8388608)
    ∧ (∀ y ∈ w17w.store.eraseOpen, (fwSectors (1 - w17w.store.fwActive)).contains y = false)
    ∧ (w17w.sectorsBad (fwSectors (1 - w17w.store.fwActive)) = false)
    ∧ (Starts 3361 (wPk 3361 0 []) w17a = true)
    ∧ (Block 0 [] (wPk 3361 0 []) = true)
    ∧ (w17a.store.fwStaged = true)
    ∧ (∀ y ∈ w17a.store.indeterminate, (fwSectors (1 - w17a.store.fwActive)).contains y = false)
    ∧ (Starts 3361 (wPk 3361 0 []) wg = true)
    ∧ (wg.store.fwStaged = false)
    ∧ (Starts 3344 (wPk 3344 1 []) wr = true)
    ∧ (Block 0 [] (wPk 3344 1 []) = true) := by
  refine ⟨?_, ?_, ?_, ?_, ?_, ?_, ?_, ?_, ?_, ?_, ?_, ?_, ?_, ?_, ?_, ?_, ?_, ?_, ?_, ?_⟩
  · decide +kernel
  · decide +kernel
  · decide +kernel
  · decide +kernel
  · decide +kernel
  · exact starts_of (wBp_crc ..) (by decide +kernel)
  · decide +kernel
  · decide +kernel
  · decide +kernel
  · decide +kernel
  · decide +kernel
  · decide +kernel
  · exact starts_of (wPk_crc ..) (by decide +kernel)
  · decide +kernel
  · decide +kernel
  · decide +kernel
  · exact starts_of (wPk_crc ..) (by decide +kernel)
  · decide +kernel
  · exact starts_of (wPk_crc ..) (by decide +kernel)
  · decide +kernel

def w18 (f : Power → Power) : State := { wl with power := f wl.power }
def w18o : State := w18 fun p => { p with supply := .off }
def w18r : State := { (w18 fun p => p) with rtc.onBattery := true }
def w18k : State := { wl with cfg.active := wKs.put (kPwr 2) 1 }
def w18s : State := w18 fun p => { p with supply := .saved }
def w18i : State := { wl with host.island := [(86, 3), (93, 3)] }
def w18p (i a : Nat) : Packet := wPk 0x0C20 2 (leBytes 1 i ++ leBytes 1 a ++ zeros 6)
def w18q (i a : Nat) : Packet := wPk 0x0C20 1 (leBytes 1 i ++ leBytes 1 a ++ zeros 6)

theorem test_hyps_SupplyEventsAndIslands :
    (w18o.power.supply = Supply.off)
    ∧ (4300 ≤ 4300)
    ∧ (w18r.power.supply ≠ Supply.off)
    ∧ (4000 ≤ 4000)
    ∧ (w18r.rtc.onBattery = true)
    ∧ (-2000 < -1000)
    ∧ (1 ≤ 1)
    ∧ (w18r.power.supply = Supply.running)
    ∧ (w18r.powered = true)
    ∧ (w18r.power.pf = false)
    ∧ (10 ≤ 10)
    ∧ (3000 < w18r.pfLevel)
    ∧ (4 = 4)
    ∧ (w18r.kiln.ph.started = true)
    ∧ (wl.powered = true)
    ∧ (wl.power.pf = false)
    ∧ (125000 ≤ 125000)
    ∧ (w18k.powered = true)
    ∧ (w18k.power.pf = false)
    ∧ (w18k.pfLevel ≤ 20000)
    ∧ (19300 < 20000)
    ∧ (w18k.keyOn (kPwr 2) = true)
    ∧ (3 < 4)
    ∧ (w18s.power.supply = Supply.saved)
    ∧ (w18s.key (kPwr 3) ≤ 100000)
    ∧ (w18s.recovered 12000 25000 = true)
    ∧ (wl.kiln.ph.started = true)
    ∧ (wl.islandPowered 75 = true)
    ∧ (Starts 3104 (w18q 75 1) wl = true)
    ∧ (Block 8 [(2, 6)] (w18q 75 1) = true)
    ∧ (fld (w18q 75 1).params 0 1 ≤ 95)
    ∧ (fld (w18q 75 1).params 1 1 ≤ 3)
    ∧ (wl.pinned (fld (w18q 75 1).params 0 1) = true)
    ∧ (3 ≤ w18i.islandOf 86)
    ∧ (w18i.power.islandHeld.contains 86 = false)
    ∧ (2 ≤ w18i.wardensUp)
    ∧ (86 < 72 → (w18i.tile 86).st ≠ TileState.failed)
    ∧ (Starts 3104 (w18q 86 1) w18i = true)
    ∧ (Block 8 [(2, 6)] (w18q 86 1) = true)
    ∧ (fld (w18q 86 1).params 0 1 ≤ 95)
    ∧ (fld (w18q 86 1).params 1 1 ≤ 3)
    ∧ (w18i.pinned (fld (w18q 86 1).params 0 1) = false)
    ∧ ((w18q 86 1).bay = 1 ∨ w18i.key (23552 + fld (w18q 86 1).params 0 1) = (w18q 86 1).bay)
    ∧ (Starts 3104 (w18p 86 1) wu2 = true)
    ∧ (Block 8 [(2, 6)] (w18p 86 1) = true)
    ∧ (fld (w18p 86 1).params 0 1 ≤ 95)
    ∧ (fld (w18p 86 1).params 1 1 ≤ 3)
    ∧ (wu2.pinned (fld (w18p 86 1).params 0 1) = false)
    ∧ ((w18p 86 1).bay ≠ 1)
    ∧ (wu2.key (23552 + fld (w18p 86 1).params 0 1) ≠ (w18p 86 1).bay) := by
  refine ⟨?_, ?_, ?_, ?_, ?_, ?_, ?_, ?_, ?_, ?_, ?_, ?_, ?_, ?_, ?_, ?_, ?_, ?_, ?_, ?_, ?_, ?_, ?_, ?_, ?_, ?_, ?_, ?_, ?_, ?_, ?_, ?_, ?_, ?_, ?_, ?_, ?_, ?_, ?_, ?_, ?_, ?_, ?_, ?_, ?_, ?_, ?_, ?_, ?_, ?_⟩
  · decide +kernel
  · decide +kernel
  · decide +kernel
  · decide +kernel
  · decide +kernel
  · decide +kernel
  · decide +kernel
  · decide +kernel
  · decide +kernel
  · decide +kernel
  · decide +kernel
  · decide +kernel
  · decide +kernel
  · decide +kernel
  · decide +kernel
  · decide +kernel
  · decide +kernel
  · decide +kernel
  · decide +kernel
  · decide +kernel
  · decide +kernel
  · decide +kernel
  · decide +kernel
  · decide +kernel
  · decide +kernel
  · decide +kernel
  · decide +kernel
  · decide +kernel
  · exact starts_of (wPk_crc ..) (by decide +kernel)
  · decide +kernel
  · decide +kernel
  · decide +kernel
  · decide +kernel
  · decide +kernel
  · decide +kernel
  · decide +kernel
  · decide +kernel
  · exact starts_of (wPk_crc ..) (by decide +kernel)
  · decide +kernel
  · decide +kernel
  · decide +kernel
  · decide +kernel
  · decide +kernel
  · exact starts_of (wPk_crc ..) (by decide +kernel)
  · decide +kernel
  · decide +kernel
  · decide +kernel
  · decide +kernel
  · decide +kernel
  · decide +kernel

def w19r (n : Nat) (fuse slot : Bool) : K1Result := { us := 500, wardens := [true, n == 2, false], fuseOk := fuse, pairOk := [true, true], entries := [], repairs := 0, flash := some (512, true), slotOk := [slot, slot] }
def w19q : K2Result := { us := 900, mram := [], entries := [], sealOk := true, cryptoOk := true, frontFail := [], footFail := [] }
def w19w (lock : Bool) : WindowCheck := { vcore := 0, v1p8 := 0, v3p3 := 0, refPpm := 0, pllLocked := lock, temps := [25000] }
def w19s (f : Kiln → Kiln) (role : DevRole) : State := { State.reset with power.supply := .running, power.pgood := true, kiln := f { State.reset.kiln with role := role }, cfg.active := wKs }
def w19a : State := { State.reset with power.supply := .rails }
def w19b : State := { State.reset with power.supply := .rails, power.resetLow := true }
def w19c : State := { State.reset with power.supply := .running, power.pgood := true, power.resetLow := true }
def w19k : State := w19s (fun k => { k with ph.started := true }) .leaf
def w19p : Phases := { started := true, k1 := true, k2Open := true }
def w19d (lost : Bool) (run n : Nat) (role : DevRole) : State := w19s (fun k => { k with ph := w19p, winLost := lost, winRun := run, winChecks := n }) role
def w19e (role : DevRole) : State := { w19s (fun k => { k with ph := { w19p with k2 := true, k3Open := true } }) role with time.index := 640, time.indexOn := true }
def w19g (n : Nat) : State := w19s (fun k => { k with ph := { w19p with k2 := true, k3Open := true }, bistGroup := n }) .leaf
def w19h : State := w19s (fun k => { k with ph := { w19p with k2 := true, k3Open := true, k4 := true } }) .leaf
def w19i : State := w19s (fun k => { k with ph := { w19p with k2 := true, k3Open := true, k4 := true, k5Open := true } }) .leaf
def w19j (n : Nat) (d : Bool) : State := w19s (fun k => { k with slicesTested := n, ph := { w19p with k2 := true, k3Open := true, k4 := true, k5Open := true, dramTrained := true, k5 := d, k6Open := d } }) .leaf

theorem test_hyps_BringUpRunsFromRailsToCourses_1 :
    (w19a.power.supply = Supply.rails)
    ∧ (w19a.power.railOut = 0)
    ∧ (w19a.power.resetLow = false)
    ∧ (w19b.power.supply = Supply.rails)
    ∧ (w19b.power.railOut = 0)
    ∧ (w19b.power.resetLow = true)
    ∧ (10 ≤ 10)
    ∧ (w19c.power.supply = Supply.running)
    ∧ (w19c.power.resetLow = true)
    ∧ (w19c.power.pgood = true)
    ∧ (w19c.kiln.ph.started = false)
    ∧ (w19k.kiln.ph.started = true)
    ∧ (w19k.kiln.halted = false)
    ∧ (w19k.kiln.ph.k2Open = false)
    ∧ ((List.filter (fun i => (w19r 1 true true).wardens.getD i false) (List.range 3)).length < 2)
    ∧ (2 ≤ (List.filter (fun i => (w19r 2 false true).wardens.getD i false) (List.range 3)).length)
    ∧ ((w19r 2 false true).fuseOk = false)
    ∧ (2 ≤ (List.filter (fun i => (w19r 2 true false).wardens.getD i false) (List.range 3)).length)
    ∧ ((w19r 2 true false).fuseOk = true)
    ∧ (((({ pending := ((w19k.k1Cores (w19r 2 true false)).setReady 0 true).pending, freeCount := ((w19k.k1Cores (w19r 2 true false)).setReady 0 true).freeCount,
                    time := ((w19k.k1Cores (w19r 2 true false)).setReady 0 true).time, rtc := ((w19k.k1Cores (w19r 2 true false)).setReady 0 true).rtc,
                    front := ((w19k.k1Cores (w19r 2 true false)).setReady 0 true).front, metro := ((w19k.k1Cores (w19r 2 true false)).setReady 0 true).metro,
                    pq := ((w19k.k1Cores (w19r 2 true false)).setReady 0 true).pq, acc := ((w19k.k1Cores (w19r 2 true false)).setReady 0 true).acc,
                    tiles := ((w19k.k1Cores (w19r 2 true false)).setReady 0 true).tiles,
                    aux :=
                      { fac := fusedFactors, selfValid := ((w19k.k1Cores (w19r 2 true false)).setReady 0 true).aux.selfValid,
                        selfStep := ((w19k.k1Cores (w19r 2 true false)).setReady 0 true).aux.selfStep, selfStart := ((w19k.k1Cores (w19r 2 true false)).setReady 0 true).aux.selfStart,
                        selfBy := ((w19k.k1Cores (w19r 2 true false)).setReady 0 true).aux.selfBy, selfPrev := ((w19k.k1Cores (w19r 2 true false)).setReady 0 true).aux.selfPrev,
                        selfBad := ((w19k.k1Cores (w19r 2 true false)).setReady 0 true).aux.selfBad, refSource := ((w19k.k1Cores (w19r 2 true false)).setReady 0 true).aux.refSource,
                        mode := ((w19k.k1Cores (w19r 2 true false)).setReady 0 true).aux.mode, tLast := ((w19k.k1Cores (w19r 2 true false)).setReady 0 true).aux.tLast,
                        ts2 := ((w19k.k1Cores (w19r 2 true false)).setReady 0 true).aux.ts2, ts2At := ((w19k.k1Cores (w19r 2 true false)).setReady 0 true).aux.ts2At,
                        calBusy := ((w19k.k1Cores (w19r 2 true false)).setReady 0 true).aux.calBusy, calT := ((w19k.k1Cores (w19r 2 true false)).setReady 0 true).aux.calT,
                        calAt := ((w19k.k1Cores (w19r 2 true false)).setReady 0 true).aux.calAt, calDelayed := ((w19k.k1Cores (w19r 2 true false)).setReady 0 true).aux.calDelayed,
                        step := ((w19k.k1Cores (w19r 2 true false)).setReady 0 true).aux.step, stepAt := ((w19k.k1Cores (w19r 2 true false)).setReady 0 true).aux.stepAt,
                        touches := ((w19k.k1Cores (w19r 2 true false)).setReady 0 true).aux.touches, calCount := ((w19k.k1Cores (w19r 2 true false)).setReady 0 true).aux.calCount,
                        calLast := ((w19k.k1Cores (w19r 2 true false)).setReady 0 true).aux.calLast, slot := ((w19k.k1Cores (w19r 2 true false)).setReady 0 true).aux.slot,
                        wc := ((w19k.k1Cores (w19r 2 true false)).setReady 0 true).aux.wc, urgent := ((w19k.k1Cores (w19r 2 true false)).setReady 0 true).aux.urgent,
                        bursts := ((w19k.k1Cores (w19r 2 true false)).setReady 0 true).aux.bursts, fault := ((w19k.k1Cores (w19r 2 true false)).setReady 0 true).aux.fault,
                        checkAt := ((w19k.k1Cores (w19r 2 true false)).setReady 0 true).aux.checkAt, failRun := ((w19k.k1Cores (w19r 2 true false)).setReady 0 true).aux.failRun,
                        passRun := ((w19k.k1Cores (w19r 2 true false)).setReady 0 true).aux.passRun },
                    bill := ((w19k.k1Cores (w19r 2 true false)).setReady 0 true).bill, plc := ((w19k.k1Cores (w19r 2 true false)).setReady 0 true).plc,
                    radio := ((w19k.k1Cores (w19r 2 true false)).setReady 0 true).radio, ledger := ((w19k.k1Cores (w19r 2 true false)).setReady 0 true).ledger,
                    mortar := ((w19k.k1Cores (w19r 2 true false)).setReady 0 true).mortar, host := ((w19k.k1Cores (w19r 2 true false)).setReady 0 true).host,
                    win := ((w19k.k1Cores (w19r 2 true false)).setReady 0 true).win, ev := ((w19k.k1Cores (w19r 2 true false)).setReady 0 true).ev,
                    cfg := ((w19k.k1Cores (w19r 2 true false)).setReady 0 true).cfg, store := ((w19k.k1Cores (w19r 2 true false)).setReady 0 true).store,
                    power := ((w19k.k1Cores (w19r 2 true false)).setReady 0 true).power, kiln := ((w19k.k1Cores (w19r 2 true false)).setReady 0 true).kiln,
                    fault := ((w19k.k1Cores (w19r 2 true false)).setReady 0 true).fault, pins := ((w19k.k1Cores (w19r 2 true false)).setReady 0 true).pins } : State).k1Flash
                (w19r 2 true false).flash).bootSlot
            (w19r 2 true false).slotOk).2 =
        none)
    ∧ (2 ≤ (List.filter (fun i => (w19r 2 true true).wardens.getD i false) (List.range 3)).length)
    ∧ ((w19r 2 true true).fuseOk = true)
    ∧ (((({ pending := ((w19k.k1Cores (w19r 2 true true)).setReady 0 true).pending, freeCount := ((w19k.k1Cores (w19r 2 true true)).setReady 0 true).freeCount,
                    time := ((w19k.k1Cores (w19r 2 true true)).setReady 0 true).time, rtc := ((w19k.k1Cores (w19r 2 true true)).setReady 0 true).rtc,
                    front := ((w19k.k1Cores (w19r 2 true true)).setReady 0 true).front, metro := ((w19k.k1Cores (w19r 2 true true)).setReady 0 true).metro,
                    pq := ((w19k.k1Cores (w19r 2 true true)).setReady 0 true).pq, acc := ((w19k.k1Cores (w19r 2 true true)).setReady 0 true).acc,
                    tiles := ((w19k.k1Cores (w19r 2 true true)).setReady 0 true).tiles,
                    aux :=
                      { fac := fusedFactors, selfValid := ((w19k.k1Cores (w19r 2 true true)).setReady 0 true).aux.selfValid,
                        selfStep := ((w19k.k1Cores (w19r 2 true true)).setReady 0 true).aux.selfStep, selfStart := ((w19k.k1Cores (w19r 2 true true)).setReady 0 true).aux.selfStart,
                        selfBy := ((w19k.k1Cores (w19r 2 true true)).setReady 0 true).aux.selfBy, selfPrev := ((w19k.k1Cores (w19r 2 true true)).setReady 0 true).aux.selfPrev,
                        selfBad := ((w19k.k1Cores (w19r 2 true true)).setReady 0 true).aux.selfBad, refSource := ((w19k.k1Cores (w19r 2 true true)).setReady 0 true).aux.refSource,
                        mode := ((w19k.k1Cores (w19r 2 true true)).setReady 0 true).aux.mode, tLast := ((w19k.k1Cores (w19r 2 true true)).setReady 0 true).aux.tLast,
                        ts2 := ((w19k.k1Cores (w19r 2 true true)).setReady 0 true).aux.ts2, ts2At := ((w19k.k1Cores (w19r 2 true true)).setReady 0 true).aux.ts2At,
                        calBusy := ((w19k.k1Cores (w19r 2 true true)).setReady 0 true).aux.calBusy, calT := ((w19k.k1Cores (w19r 2 true true)).setReady 0 true).aux.calT,
                        calAt := ((w19k.k1Cores (w19r 2 true true)).setReady 0 true).aux.calAt, calDelayed := ((w19k.k1Cores (w19r 2 true true)).setReady 0 true).aux.calDelayed,
                        step := ((w19k.k1Cores (w19r 2 true true)).setReady 0 true).aux.step, stepAt := ((w19k.k1Cores (w19r 2 true true)).setReady 0 true).aux.stepAt,
                        touches := ((w19k.k1Cores (w19r 2 true true)).setReady 0 true).aux.touches, calCount := ((w19k.k1Cores (w19r 2 true true)).setReady 0 true).aux.calCount,
                        calLast := ((w19k.k1Cores (w19r 2 true true)).setReady 0 true).aux.calLast, slot := ((w19k.k1Cores (w19r 2 true true)).setReady 0 true).aux.slot,
                        wc := ((w19k.k1Cores (w19r 2 true true)).setReady 0 true).aux.wc, urgent := ((w19k.k1Cores (w19r 2 true true)).setReady 0 true).aux.urgent,
                        bursts := ((w19k.k1Cores (w19r 2 true true)).setReady 0 true).aux.bursts, fault := ((w19k.k1Cores (w19r 2 true true)).setReady 0 true).aux.fault,
                        checkAt := ((w19k.k1Cores (w19r 2 true true)).setReady 0 true).aux.checkAt, failRun := ((w19k.k1Cores (w19r 2 true true)).setReady 0 true).aux.failRun,
                        passRun := ((w19k.k1Cores (w19r 2 true true)).setReady 0 true).aux.passRun },
                    bill := ((w19k.k1Cores (w19r 2 true true)).setReady 0 true).bill, plc := ((w19k.k1Cores (w19r 2 true true)).setReady 0 true).plc,
                    radio := ((w19k.k1Cores (w19r 2 true true)).setReady 0 true).radio, ledger := ((w19k.k1Cores (w19r 2 true true)).setReady 0 true).ledger,
                    mortar := ((w19k.k1Cores (w19r 2 true true)).setReady 0 true).mortar, host := ((w19k.k1Cores (w19r 2 true true)).setReady 0 true).host,
                    win := ((w19k.k1Cores (w19r 2 true true)).setReady 0 true).win, ev := ((w19k.k1Cores (w19r 2 true true)).setReady 0 true).ev,
                    cfg := ((w19k.k1Cores (w19r 2 true true)).setReady 0 true).cfg, store := ((w19k.k1Cores (w19r 2 true true)).setReady 0 true).store,
                    power := ((w19k.k1Cores (w19r 2 true true)).setReady 0 true).power, kiln := ((w19k.k1Cores (w19r 2 true true)).setReady 0 true).kiln,
                    fault := ((w19k.k1Cores (w19r 2 true true)).setReady 0 true).fault, pins := ((w19k.k1Cores (w19r 2 true true)).setReady 0 true).pins } : State).k1Flash
                (w19r 2 true true).flash).bootSlot
            (w19r 2 true true).slotOk).2 =
        some 0)
    ∧ ((w19d false 0 0 DevRole.leaf).kiln.ph.k2Open = true)
    ∧ ((w19d false 0 0 DevRole.leaf).kiln.mclkOn = false)
    ∧ ((w19d false 0 0 DevRole.leaf).kiln.halted = false)
    ∧ ((w19d false 0 0 DevRole.leaf).kiln.winLost = false)
    ∧ (windowHolds (w19w true) (w19d false 0 0 DevRole.leaf).time.rtcOscFault = true)
    ∧ ((w19d false 0 0 DevRole.leaf).kiln.ph.k3Open = false)
    ∧ ((((w19d false 0 0 DevRole.leaf).k2Results w19q).placeIndex.frontTests w19q.frontFail w19q.footFail).openK3.regrid.meters = true) := by
  refine ⟨?_, ?_, ?_, ?_, ?_, ?_, ?_, ?_, ?_, ?_, ?_, ?_, ?_, ?_, ?_, ?_, ?_, ?_, ?_, ?_, ?_, ?_, ?_, ?_, ?_, ?_, ?_, ?_, ?_, ?_⟩
  · decide +kernel
  · decide +kernel
  · decide +kernel
  · decide +kernel
  · decide +kernel
  · decide +kernel
  · decide +kernel
  · decide +kernel
  · decide +kernel
  · decide +kernel
  · decide +kernel
  · decide +kernel
  · decide +kernel
  · decide +kernel
  · decide +kernel
  · decide +kernel
  · decide +kernel
  · decide +kernel
  · decide +kernel
  · rfl
  · decide +kernel
  · decide +kernel
  · rfl
  · decide +kernel
  · decide +kernel
  · decide +kernel
  · decide +kernel
  · decide +kernel
  · decide +kernel
  · decide +kernel

theorem test_hyps_BringUpRunsFromRailsToCourses_2 :
    ((w19d false 0 0 DevRole.relay).kiln.ph.k2Open = true)
    ∧ ((w19d false 0 0 DevRole.relay).kiln.mclkOn = false)
    ∧ ((w19d false 0 0 DevRole.relay).kiln.halted = false)
    ∧ ((w19d false 0 0 DevRole.relay).kiln.winLost = false)
    ∧ (windowHolds (w19w false) (w19d false 0 0 DevRole.relay).time.rtcOscFault = false)
    ∧ ((w19d false 0 0 DevRole.relay).kiln.ph.k3Open = false)
    ∧ ((((w19d false 0 0 DevRole.relay).k2Results w19q).placeIndex.frontTests w19q.frontFail w19q.footFail).openK3.regrid.meters = false)
    ∧ ((w19d true 9 0 DevRole.relay).kiln.ph.k2Open = true)
    ∧ ((w19d true 9 0 DevRole.relay).kiln.mclkOn = false)
    ∧ ((w19d true 9 0 DevRole.relay).kiln.halted = false)
    ∧ ((w19d true 9 0 DevRole.relay).kiln.winLost = true)
    ∧ (windowHolds (w19w true) (w19d true 9 0 DevRole.relay).time.rtcOscFault = true)
    ∧ (9 ≤ (w19d true 9 0 DevRole.relay).kiln.winRun)
    ∧ ((w19d true 3 0 DevRole.relay).kiln.ph.k2Open = true)
    ∧ ((w19d true 3 0 DevRole.relay).kiln.mclkOn = false)
    ∧ ((w19d true 3 0 DevRole.relay).kiln.halted = false)
    ∧ ((w19d true 3 0 DevRole.relay).kiln.winLost = true)
    ∧ (windowHolds (w19w true) (w19d true 3 0 DevRole.relay).time.rtcOscFault = true)
    ∧ ((w19d true 3 0 DevRole.relay).kiln.winRun < 9)
    ∧ ((w19d true 3 0 DevRole.relay).kiln.winChecks + 1 < 500)
    ∧ (windowHolds (w19w false) (w19d true 3 0 DevRole.relay).time.rtcOscFault = false)
    ∧ ((w19d true 3 499 DevRole.relay).kiln.ph.k2Open = true)
    ∧ ((w19d true 3 499 DevRole.relay).kiln.mclkOn = false)
    ∧ ((w19d true 3 499 DevRole.relay).kiln.halted = false)
    ∧ ((w19d true 3 499 DevRole.relay).kiln.winLost = true)
    ∧ (windowHolds (w19w false) (w19d true 3 499 DevRole.relay).time.rtcOscFault = true → (w19d true 3 499 DevRole.relay).kiln.winRun < 9)
    ∧ (500 ≤ (w19d true 3 499 DevRole.relay).kiln.winChecks + 1)
    ∧ ((w19d true 3 499 DevRole.relay).fault.f4 = false)
    ∧ ((w19e DevRole.relay).kiln.ph.k3Open = true)
    ∧ ((w19e DevRole.relay).kiln.mclkOn = false) := by
  refine ⟨?_, ?_, ?_, ?_, ?_, ?_, ?_, ?_, ?_, ?_, ?_, ?_, ?_, ?_, ?_, ?_, ?_, ?_, ?_, ?_, ?_, ?_, ?_, ?_, ?_, ?_, ?_, ?_, ?_, ?_⟩ <;> decide +kernel

theorem test_hyps_BringUpRunsFromRailsToCourses_3 :
    ((w19e DevRole.relay).kiln.winLost = false)
    ∧ (640 ≤ (w19e DevRole.relay).time.index)
    ∧ ((w19e DevRole.relay).meters = false)
    ∧ ((w19e DevRole.leaf).kiln.ph.k3Open = true)
    ∧ ((w19e DevRole.leaf).kiln.mclkOn = false)
    ∧ ((w19e DevRole.leaf).kiln.winLost = false)
    ∧ (640 ≤ (w19e DevRole.leaf).time.index)
    ∧ ((w19e DevRole.leaf).meters = true) := by
  refine ⟨?_, ?_, ?_, ?_, ?_, ?_, ?_, ?_⟩ <;> decide +kernel

theorem test_hyps_SelfTestsFinishBringUp :
    ((w19g 0).kiln.ph.k3Open = true)
    ∧ ((w19g 0).kiln.bistGroup = 0)
    ∧ (0 < 8)
    ∧ ((w19g 8).kiln.ph.k3Open = true)
    ∧ ((w19g 8).kiln.bistGroup = 8)
    ∧ (8 = 8)
    ∧ (w19h.kiln.ph.k4 = true)
    ∧ (w19h.kiln.ph.k5Open = false)
    ∧ (w19h.kiln.ph.k6Open = false)
    ∧ (w19i.kiln.ph.k5Open = true)
    ∧ (w19i.kiln.ph.dramTrained = false)
    ∧ (w19i.kiln.ph.k5 = false)
    ∧ ((w19j 0 false).kiln.ph.dramTrained = true)
    ∧ ((w19j 0 false).kiln.slicesTested = 0)
    ∧ (0 < 55)
    ∧ ((w19j 55 true).kiln.ph.dramTrained = true)
    ∧ ((w19j 55 true).kiln.slicesTested = 55)
    ∧ (55 = 55)
    ∧ ((w19j 55 true).kiln.ph.k5 = true)
    ∧ ((w19j 55 true).kiln.ph.k6Open = true)
    ∧ ((w19j 55 true).kiln.ph.k6 = false)
    ∧ ((w19j 55 true).k6Done 5 = true)
    ∧ (Starts 3585 (wPk 3585 1 []) wr = true)
    ∧ (Block 0 [] (wPk 3585 1 []) = true) := by
  refine ⟨?_, ?_, ?_, ?_, ?_, ?_, ?_, ?_, ?_, ?_, ?_, ?_, ?_, ?_, ?_, ?_, ?_, ?_, ?_, ?_, ?_, ?_, ?_, ?_⟩
  · decide +kernel
  · decide +kernel
  · decide +kernel
  · decide +kernel
  · decide +kernel
  · decide +kernel
  · decide +kernel
  · decide +kernel
  · decide +kernel
  · decide +kernel
  · decide +kernel
  · decide +kernel
  · decide +kernel
  · decide +kernel
  · decide +kernel
  · decide +kernel
  · decide +kernel
  · decide +kernel
  · decide +kernel
  · decide +kernel
  · decide +kernel
  · decide +kernel
  · exact starts_of (wPk_crc ..) (by decide +kernel)
  · decide +kernel

def w20 (f : FaultSt → FaultSt) : State := { wl with fault := f wl.fault }
def w20x : State := w20 fun f => { f with wardenOut := 1 }
def w20r : State := w20 fun f => { f with wardenReset := 1 }
def w20s : State := w20 fun f => { f with sealTimes := [(1699999200 * second, 1000000)], sealRestart := true }
def w20d (o : Bool) : Dump := { cls := 3, cause := 1, seq := 1, index := 5, time := 6, timeInvalid := false, flashOnly := o, sections := [] }
def w20f (d : Option Dump) (w : Bool) : State := w20 fun f => { f with f3 := some 1, f3Dump := d, f3Written := w }
def w20c : State := w20 fun f => { f with flashCopy := some (w20d false), flashDirty := [1030] }
def w20e (l : List Nat) : State := { w20 (fun f => { f with flashDirty := l }) with store.flashPresent := true, store.eraseOpen := [1030] }
def w20g : State := { w20 (fun f => { f with flashDirty := [1030] }) with store.flashPresent := true }
def w20h : State := { w20 (fun f => { f with dram := some (w20d false), flash := some (w20d false) }) with kiln := { wl.kiln with slices := BitVec.allOnes 64 } }
def w20v : State := { wl with host.sess := [wSess 1 .vendor] }
def w20u : State := w20 fun f => { f with f3Times := [(1699999200 * second, 1000000), (1699999200 * second, 1000000)] }
def w20b : State := w20 fun f => { f with dumpBusy := true }
def w20y : State := w20 fun f => { f with wardenOut := 3 }

theorem test_hyps_FaultsAndDumps_1 :
    (wl.kiln.ph.k1 = true)
    ∧ (wl.kiln.halted = false)
    ∧ (wl.fault.f4 = false)
    ∧ (wl.fault.f3 = none)
    ∧ (2 ≤ wl.wardensUp)
    ∧ (wl.fault.pairOk.getLsbD 0 = true)
    ∧ ((List.filter wl.withinHour wl.fault.f3Times).length < 2)
    ∧ ((({ pending := wl.pending, freeCount := wl.freeCount, time := wl.time, rtc := wl.rtc, front := wl.front, metro := wl.metro, pq := wl.pq, acc := wl.acc, tiles := wl.tiles, aux := wl.aux,
                    bill := wl.bill, plc := wl.plc, radio := wl.radio, ledger := wl.ledger, mortar := wl.mortar, host := wl.host, win := wl.win, ev := wl.ev, cfg := wl.cfg, store := wl.store,
                    power := wl.power, kiln := wl.kiln,
                    fault :=
                      { f4 := wl.fault.f4, f4Window := wl.fault.f4Window, lastCause := wl.fault.lastCause, wardenOut := wl.fault.wardenOut, wardenReset := wl.fault.wardenReset,
                        wardenTimes := wl.fault.wardenTimes, voteMiss := wl.fault.voteMiss, pairOk := wl.fault.pairOk, pairAside := wl.fault.pairAside, sealOk := wl.fault.sealOk,
                        sealRestart := wl.fault.sealRestart, sealTimes := wl.fault.sealTimes, f3 := wl.fault.f3, f3Halted := wl.fault.f3Halted, f3Dump := wl.fault.f3Dump,
                        f3Written := wl.fault.f3Written, f3Times := (wl.time.ns, wl.time.index) :: List.filter wl.withinHour wl.fault.f3Times, dumpSeq := wl.fault.dumpSeq,
                        dumpBusy := wl.fault.dumpBusy, dram := wl.fault.dram, flash := wl.fault.flash, flashWait := wl.fault.flashWait, flashCopy := wl.fault.flashCopy,
                        flashDirty := wl.fault.flashDirty },
                    pins := wl.pins } : State).setCause
                (if 0 = 0 then 1 else if 0 = 1 then 3 else 4)).dropTenants.fault.dumpBusy =
        false)
    ∧ (10 ≤ 10)
    ∧ ((({ pending := wl.pending, freeCount := wl.freeCount, time := wl.time, rtc := wl.rtc, front := wl.front, metro := wl.metro, pq := wl.pq, acc := wl.acc, tiles := wl.tiles, aux := wl.aux,
                    bill := wl.bill, plc := wl.plc, radio := wl.radio, ledger := wl.ledger, mortar := wl.mortar, host := wl.host, win := wl.win, ev := wl.ev, cfg := wl.cfg, store := wl.store,
                    power := wl.power, kiln := wl.kiln,
                    fault :=
                      { f4 := wl.fault.f4, f4Window := wl.fault.f4Window, lastCause := wl.fault.lastCause, wardenOut := wl.fault.wardenOut, wardenReset := wl.fault.wardenReset,
                        wardenTimes := wl.fault.wardenTimes, voteMiss := wl.fault.voteMiss, pairOk := wl.fault.pairOk, pairAside := wl.fault.pairAside, sealOk := wl.fault.sealOk,
                        sealRestart := wl.fault.sealRestart, sealTimes := wl.fault.sealTimes, f3 := wl.fault.f3, f3Halted := wl.fault.f3Halted, f3Dump := wl.fault.f3Dump,
                        f3Written := wl.fault.f3Written, f3Times := (wl.time.ns, wl.time.index) :: List.filter wl.withinHour wl.fault.f3Times, dumpSeq := wl.fault.dumpSeq,
                        dumpBusy := wl.fault.dumpBusy, dram := wl.fault.dram, flash := wl.fault.flash, flashWait := wl.fault.flashWait, flashCopy := wl.fault.flashCopy,
                        flashDirty := wl.fault.flashDirty },
                    pins := wl.pins } : State).setCause
                2).dropTenants.fault.dumpBusy =
        false)
    ∧ (wl.kiln.ph.started = true)
    ∧ ((!wl.fault.wardenOut.getLsbD 0 && !wl.fault.wardenReset.getLsbD 0) = true)
    ∧ ((List.filter (fun x => x != 0 && (!wl.fault.wardenOut.getLsbD x && !wl.fault.wardenReset.getLsbD x)) (List.range 3)).length = 2)
    ∧ (wl.fault.sealOk = true)
    ∧ (List.filter wl.withinHour wl.fault.sealTimes = [])
    ∧ (w20x.kiln.ph.started = true)
    ∧ ((!w20x.fault.wardenOut.getLsbD 1 && !w20x.fault.wardenReset.getLsbD 1) = true)
    ∧ ((List.filter (fun x => x != 1 && (!w20x.fault.wardenOut.getLsbD x && !w20x.fault.wardenReset.getLsbD x)) (List.range 3)).length ≠ 2)
    ∧ (w20r.fault.wardenReset.getLsbD 0 = true)
    ∧ (true = true)
    ∧ ((List.filter (fun x => x.1 == 0) (List.filter (fun x => w20r.withinHour x.2) w20r.fault.wardenTimes)).length + 1 < 3)
    ∧ (false = false ∨ 3 ≤ (List.filter (fun x => x.1 == 0) (List.filter (fun x => w20r.withinHour x.2) w20r.fault.wardenTimes)).length + 1)
    ∧ (w20s.fault.sealOk = true)
    ∧ (List.filter w20s.withinHour w20s.fault.sealTimes ≠ [])
    ∧ (w20s.fault.sealRestart = true)
    ∧ (w20u.kiln.ph.k1 = true)
    ∧ (w20u.kiln.halted = false)
    ∧ (w20u.fault.f4 = false)
    ∧ (w20u.fault.f3 = none)
    ∧ (2 ≤ w20u.wardensUp) := by
  refine ⟨?_, ?_, ?_, ?_, ?_, ?_, ?_, ?_, ?_, ?_, ?_, ?_, ?_, ?_, ?_, ?_, ?_, ?_, ?_, ?_, ?_, ?_, ?_, ?_, ?_, ?_, ?_, ?_, ?_, ?_⟩ <;> decide +kernel

theorem test_hyps_FaultsAndDumps_2 :
    (w20u.fault.pairOk.getLsbD 0 = true)
    ∧ (2 ≤ (List.filter w20u.withinHour w20u.fault.f3Times).length)
    ∧ (w20b.kiln.ph.k1 = true)
    ∧ (w20b.kiln.halted = false)
    ∧ (w20b.fault.f4 = false)
    ∧ (w20b.fault.f3 = none)
    ∧ (2 ≤ w20b.wardensUp)
    ∧ (w20b.fault.pairOk.getLsbD 0 = true)
    ∧ ((List.filter w20b.withinHour w20b.fault.f3Times).length < 2)
    ∧ ((({ pending := w20b.pending, freeCount := w20b.freeCount, time := w20b.time, rtc := w20b.rtc, front := w20b.front, metro := w20b.metro, pq := w20b.pq, acc := w20b.acc, tiles := w20b.tiles,
                    aux := w20b.aux, bill := w20b.bill, plc := w20b.plc, radio := w20b.radio, ledger := w20b.ledger, mortar := w20b.mortar, host := w20b.host, win := w20b.win, ev := w20b.ev,
                    cfg := w20b.cfg, store := w20b.store, power := w20b.power, kiln := w20b.kiln,
                    fault :=
                      { f4 := w20b.fault.f4, f4Window := w20b.fault.f4Window, lastCause := w20b.fault.lastCause, wardenOut := w20b.fault.wardenOut, wardenReset := w20b.fault.wardenReset,
                        wardenTimes := w20b.fault.wardenTimes, voteMiss := w20b.fault.voteMiss, pairOk := w20b.fault.pairOk, pairAside := w20b.fault.pairAside, sealOk := w20b.fault.sealOk,
                        sealRestart := w20b.fault.sealRestart, sealTimes := w20b.fault.sealTimes, f3 := w20b.fault.f3, f3Halted := w20b.fault.f3Halted, f3Dump := w20b.fault.f3Dump,
                        f3Written := w20b.fault.f3Written, f3Times := (w20b.time.ns, w20b.time.index) :: List.filter w20b.withinHour w20b.fault.f3Times, dumpSeq := w20b.fault.dumpSeq,
                        dumpBusy := w20b.fault.dumpBusy, dram := w20b.fault.dram, flash := w20b.fault.flash, flashWait := w20b.fault.flashWait, flashCopy := w20b.fault.flashCopy,
                        flashDirty := w20b.fault.flashDirty },
                    pins := w20b.pins } : State).setCause
                (if 0 = 0 then 1 else if 0 = 1 then 3 else 4)).dropTenants.fault.dumpBusy =
        true)
    ∧ ((({ pending := w20b.pending, freeCount := w20b.freeCount, time := w20b.time, rtc := w20b.rtc, front := w20b.front, metro := w20b.metro, pq := w20b.pq, acc := w20b.acc, tiles := w20b.tiles,
                    aux := w20b.aux, bill := w20b.bill, plc := w20b.plc, radio := w20b.radio, ledger := w20b.ledger, mortar := w20b.mortar, host := w20b.host, win := w20b.win, ev := w20b.ev,
                    cfg := w20b.cfg, store := w20b.store, power := w20b.power, kiln := w20b.kiln,
                    fault :=
                      { f4 := w20b.fault.f4, f4Window := w20b.fault.f4Window, lastCause := w20b.fault.lastCause, wardenOut := w20b.fault.wardenOut, wardenReset := w20b.fault.wardenReset,
                        wardenTimes := w20b.fault.wardenTimes, voteMiss := w20b.fault.voteMiss, pairOk := w20b.fault.pairOk, pairAside := w20b.fault.pairAside, sealOk := w20b.fault.sealOk,
                        sealRestart := w20b.fault.sealRestart, sealTimes := w20b.fault.sealTimes, f3 := w20b.fault.f3, f3Halted := w20b.fault.f3Halted, f3Dump := w20b.fault.f3Dump,
                        f3Written := w20b.fault.f3Written, f3Times := (w20b.time.ns, w20b.time.index) :: List.filter w20b.withinHour w20b.fault.f3Times, dumpSeq := w20b.fault.dumpSeq,
                        dumpBusy := w20b.fault.dumpBusy, dram := w20b.fault.dram, flash := w20b.fault.flash, flashWait := w20b.fault.flashWait, flashCopy := w20b.fault.flashCopy,
                        flashDirty := w20b.fault.flashDirty },
                    pins := w20b.pins } : State).setCause
                2).dropTenants.fault.dumpBusy =
        true)
    ∧ (w20y.fault.sealOk = true)
    ∧ (List.filter w20y.withinHour w20y.fault.sealTimes = [])
    ∧ (w20y.wardensUp < 2)
    ∧ ((w20f none false).fault.f3.isSome = true)
    ∧ ((w20f none true).fault.f3 = some 1)
    ∧ ((w20f none true).fault.f3Written = true)
    ∧ (((w20f none true).asidePairs [false, false]).f3Stored.fault.pairOk = 0)
    ∧ (((w20f none true).asidePairs [true, true]).f3Stored.fault.pairOk ≠ 0)
    ∧ ((w20f none true).fault.f3Dump = none)
    ∧ ((w20f (some (w20d false)) true).fault.f3 = some 1)
    ∧ ((w20f (some (w20d false)) true).fault.f3Written = true)
    ∧ (((w20f (some (w20d false)) true).asidePairs [true, true]).f3Stored.fault.pairOk ≠ 0)
    ∧ ((w20f (some (w20d false)) true).fault.f3Dump = some (w20d false))
    ∧ ((w20d false).flashOnly = false)
    ∧ ((w20f (some (w20d true)) true).fault.f3 = some 1)
    ∧ ((w20f (some (w20d true)) true).fault.f3Written = true)
    ∧ (((w20f (some (w20d true)) true).asidePairs [true, true]).f3Stored.fault.pairOk ≠ 0)
    ∧ ((w20f (some (w20d true)) true).fault.f3Dump = some (w20d true))
    ∧ ((w20d true).flashOnly = true) := by
  refine ⟨?_, ?_, ?_, ?_, ?_, ?_, ?_, ?_, ?_, ?_, ?_, ?_, ?_, ?_, ?_, ?_, ?_, ?_, ?_, ?_, ?_, ?_, ?_, ?_, ?_, ?_, ?_, ?_, ?_, ?_⟩ <;> decide +kernel

theorem test_hyps_FaultsAndDumps_3 :
    (w20c.fault.flashCopy = some (w20d false))
    ∧ ((w20e [1030]).fault.flashDirty.contains 1030 = true)
    ∧ ((w20e [1030]).flashUsable = true)
    ∧ ((w20e [1030]).store.eraseSuspended ≠ some 1030)
    ∧ ((w20e [1030]).store.eraseOpen.contains 1030 = true)
    ∧ (List.filter (fun x => x != 1030) ((w20e [1030]).endErase 1030).fault.flashDirty = [])
    ∧ ((w20e [1030, 1031]).fault.flashDirty.contains 1030 = true)
    ∧ ((w20e [1030, 1031]).flashUsable = true)
    ∧ ((w20e [1030, 1031]).store.eraseSuspended ≠ some 1030)
    ∧ ((w20e [1030, 1031]).store.eraseOpen.contains 1030 = true)
    ∧ (List.filter (fun x => x != 1030) ((w20e [1030, 1031]).endErase 1030).fault.flashDirty = [1031])
    ∧ (w20g.fault.flashDirty.contains 1030 = true)
    ∧ (w20g.flashUsable = true)
    ∧ (w20g.store.eraseSuspended ≠ some 1030)
    ∧ (w20g.store.eraseOpen.contains 1030 = false)
    ∧ (w20g.kiln.ph.k6 = true)
    ∧ (Starts 3600 (wPk 3600 1 (zeros 4 ++ leBytes 4 8 ++ zeros 8)) w20h = true)
    ∧ ((wPk 3600 1 (zeros 4 ++ leBytes 4 8 ++ zeros 8)).isBulk = true → descOk (some 1) (wPk 3600 1 (zeros 4 ++ leBytes 4 8 ++ zeros 8)) = true)
    ∧ (List.length (wPk 3600 1 (zeros 4 ++ leBytes 4 8 ++ zeros 8)).inline = 16)
    ∧ (allZero (wPk 3600 1 (zeros 4 ++ leBytes 4 8 ++ zeros 8)).inline 1 3 = true)
    ∧ (allZero (wPk 3600 1 (zeros 4 ++ leBytes 4 8 ++ zeros 8)).inline 12 4 = true)
    ∧ (fld (wPk 3600 1 (zeros 4 ++ leBytes 4 8 ++ zeros 8)).inline 4 4 % 8 = 0)
    ∧ (fld (wPk 3600 1 (zeros 4 ++ leBytes 4 8 ++ zeros 8)).inline 4 4 ≤ dumpRoom (wPk 3600 1 (zeros 4 ++ leBytes 4 8 ++ zeros 8)))
    ∧ (fld (wPk 3600 1 (zeros 4 ++ leBytes 4 8 ++ zeros 8)).inline 8 4 % 8 = 0)
    ∧ ((w20h.touch (wPk 3600 1 (zeros 4 ++ leBytes 4 8 ++ zeros 8))).fault.dumpBusy = false)
    ∧ (fld (wPk 3600 1 (zeros 4 ++ leBytes 4 8 ++ zeros 8)).inline 0 1 = 0)
    ∧ ((w20h.touch (wPk 3600 1 (zeros 4 ++ leBytes 4 8 ++ zeros 8))).fault.dram = some (w20d false))
    ∧ (fld (wPk 3600 1 (zeros 4 ++ leBytes 4 8 ++ zeros 8)).inline 8 4 < (w20d false).total)
    ∧ (fld (wPk 3600 1 (zeros 4 ++ leBytes 4 8 ++ zeros 8)).inline 8 4 + fld (wPk 3600 1 (zeros 4 ++ leBytes 4 8 ++ zeros 8)).inline 4 4 ≤ (w20d false).total)
    ∧ (Starts 3600 (wPk 3600 1 (leBytes 4 1 ++ leBytes 4 8 ++ zeros 8)) w20h = true) := by
  refine ⟨?_, ?_, ?_, ?_, ?_, ?_, ?_, ?_, ?_, ?_, ?_, ?_, ?_, ?_, ?_, ?_, ?_, ?_, ?_, ?_, ?_, ?_, ?_, ?_, ?_, ?_, ?_, ?_, ?_, ?_⟩
  · decide +kernel
  · decide +kernel
  · decide +kernel
  · decide +kernel
  · decide +kernel
  · decide +kernel
  · decide +kernel
  · decide +kernel
  · decide +kernel
  · decide +kernel
  · decide +kernel
  · decide +kernel
  · decide +kernel
  · decide +kernel
  · decide +kernel
  · decide +kernel
  · exact starts_of (wPk_crc ..) (by decide +kernel)
  · decide +kernel
  · decide +kernel
  · decide +kernel
  · decide +kernel
  · decide +kernel
  · decide +kernel
  · decide +kernel
  · decide +kernel
  · decide +kernel
  · decide +kernel
  · decide +kernel
  · decide +kernel
  · exact starts_of (wPk_crc ..) (by decide +kernel)

theorem test_hyps_FaultsAndDumps_4 :
    ((wPk 3600 1 (leBytes 4 1 ++ leBytes 4 8 ++ zeros 8)).isBulk = true → descOk (some 1) (wPk 3600 1 (leBytes 4 1 ++ leBytes 4 8 ++ zeros 8)) = true)
    ∧ (List.length (wPk 3600 1 (leBytes 4 1 ++ leBytes 4 8 ++ zeros 8)).inline = 16)
    ∧ (allZero (wPk 3600 1 (leBytes 4 1 ++ leBytes 4 8 ++ zeros 8)).inline 1 3 = true)
    ∧ (allZero (wPk 3600 1 (leBytes 4 1 ++ leBytes 4 8 ++ zeros 8)).inline 12 4 = true)
    ∧ (fld (wPk 3600 1 (leBytes 4 1 ++ leBytes 4 8 ++ zeros 8)).inline 4 4 % 8 = 0)
    ∧ (fld (wPk 3600 1 (leBytes 4 1 ++ leBytes 4 8 ++ zeros 8)).inline 4 4 ≤ dumpRoom (wPk 3600 1 (leBytes 4 1 ++ leBytes 4 8 ++ zeros 8)))
    ∧ (fld (wPk 3600 1 (leBytes 4 1 ++ leBytes 4 8 ++ zeros 8)).inline 8 4 % 8 = 0)
    ∧ ((w20h.touch (wPk 3600 1 (leBytes 4 1 ++ leBytes 4 8 ++ zeros 8))).fault.dumpBusy = false)
    ∧ (fld (wPk 3600 1 (leBytes 4 1 ++ leBytes 4 8 ++ zeros 8)).inline 0 1 = 1)
    ∧ ((w20h.touch (wPk 3600 1 (leBytes 4 1 ++ leBytes 4 8 ++ zeros 8))).fault.flash = some (w20d false))
    ∧ (fld (wPk 3600 1 (leBytes 4 1 ++ leBytes 4 8 ++ zeros 8)).inline 8 4 < (w20d false).total)
    ∧ (fld (wPk 3600 1 (leBytes 4 1 ++ leBytes 4 8 ++ zeros 8)).inline 8 4 + fld (wPk 3600 1 (leBytes 4 1 ++ leBytes 4 8 ++ zeros 8)).inline 4 4 ≤ (w20d false).total)
    ∧ (Starts 3601 (wPk 3601 1 (leBytes 8 0)) wl = true)
    ∧ (Block 8 [(1, 7)] (wPk 3601 1 (leBytes 8 0)) = true)
    ∧ ((wl.touch (wPk 3601 1 (leBytes 8 0))).fault.dumpBusy = false)
    ∧ (fld (wPk 3601 1 (leBytes 8 0)).params 0 1 = 0)
    ∧ (Starts 3601 (wPk 3601 1 (leBytes 8 1)) wl = true)
    ∧ (Block 8 [(1, 7)] (wPk 3601 1 (leBytes 8 1)) = true)
    ∧ ((wl.touch (wPk 3601 1 (leBytes 8 1))).fault.dumpBusy = false)
    ∧ (fld (wPk 3601 1 (leBytes 8 1)).params 0 1 = 1)
    ∧ ((wl.touch (wPk 3601 1 (leBytes 8 1))).fault.flash = none)
    ∧ (Starts 3601 (wPk 3601 1 (leBytes 8 1)) w20h = true)
    ∧ ((w20h.touch (wPk 3601 1 (leBytes 8 1))).fault.dumpBusy = false)
    ∧ ((w20h.touch (wPk 3601 1 (leBytes 8 1))).fault.flash = some (w20d false))
    ∧ ((w20h.touch (wPk 3601 1 (leBytes 8 1))).dumpSpan (w20d false) = [1024])
    ∧ (Starts 3841 (wPk 3841 1 []) w20v = true)
    ∧ (Block 0 [] (wPk 3841 1 []) = true)
    ∧ (Starts 3842 (wPk 3842 1 (leBytes 8 1)) w20v = true)
    ∧ (Block 8 [(1, 7)] (wPk 3842 1 (leBytes 8 1)) = true)
    ∧ (fld (wPk 3842 1 (leBytes 8 1)).params 0 1 ≤ 1) := by
  refine ⟨?_, ?_, ?_, ?_, ?_, ?_, ?_, ?_, ?_, ?_, ?_, ?_, ?_, ?_, ?_, ?_, ?_, ?_, ?_, ?_, ?_, ?_, ?_, ?_, ?_, ?_, ?_, ?_, ?_, ?_⟩
  · decide +kernel
  · decide +kernel
  · decide +kernel
  · decide +kernel
  · decide +kernel
  · decide +kernel
  · decide +kernel
  · decide +kernel
  · decide +kernel
  · decide +kernel
  · decide +kernel
  · decide +kernel
  · exact starts_of (wPk_crc ..) (by decide +kernel)
  · decide +kernel
  · decide +kernel
  · decide +kernel
  · exact starts_of (wPk_crc ..) (by decide +kernel)
  · decide +kernel
  · decide +kernel
  · decide +kernel
  · decide +kernel
  · exact starts_of (wPk_crc ..) (by decide +kernel)
  · decide +kernel
  · decide +kernel
  · decide +kernel
  · exact starts_of (wPk_crc ..) (by decide +kernel)
  · decide +kernel
  · exact starts_of (wPk_crc ..) (by decide +kernel)
  · decide +kernel
  · decide +kernel

def w22h : State := { wl with rtc.halt := true, rtc.halted := true, cfg.active := (wKs.put (kTime 0x0C) 1).put (kTime 0x0A) 0 }
def w22d : State := { wl with rtc := { wl.rtc with halt := true, halted := true, day := 1, month := 1, cent := 20 }, cfg.active := wKs.put (kTime 0x0C) 1 }
def w22w : Bytes := leBytes 2 0x060 ++ [1] ++ leBytes 4 0
def w22s : Bytes := w22w ++ leBytes 2 (crc16 w22w).toNat

theorem test_hyps_WindowReadsAndWrites_1 :
    (wl.windowOn 0 = true)
    ∧ (wl.spiFirst.windowOn 7 = true)
    ∧ (96 % 4 = 0)
    ∧ (1 ≤ 1)
    ∧ (1 ≤ 64)
    ∧ (wl.wide 0 8 = some Config.deviceSerial)
    ∧ (8 ≠ 72)
    ∧ (8 ≠ 80)
    ∧ (wl.wide 0 96 = none)
    ∧ (State.reset.windowOn 0 = false ∨ State.reset.fault.f4 = true)
    ∧ (w22h.windowOn 0 = true)
    ∧ (w22h.fault.f4 = false)
    ∧ (w22h.rtcFn 0 = true)
    ∧ (w22h.rtcHostWrite = true)
    ∧ (w22h.rtc.halted = true)
    ∧ (w22h.rtc.dateOk = true)
    ∧ (0 = 0)
    ∧ (w22h.keyOn (kTime 10) = false)
    ∧ (w22h.keyOn (kTime 12) = true)
    ∧ (96 = 96)
    ∧ ((512#32).getLsbD 9 = true)
    ∧ (w22h.spiFirst.windowOn 7 = true)
    ∧ (w22h.spiFirst.fault.f4 = false)
    ∧ (List.length w22s = 3 + 4 * fld w22s 2 1 + 2 ∧ fld w22s (3 + 4 * fld w22s 2 1) 2 = (crc16 (List.take (3 + 4 * fld w22s 2 1) w22s)).toNat)
    ∧ (fld w22s 0 2 % 4 = 0)
    ∧ (1 ≤ fld w22s 2 1)
    ∧ (fld w22s 2 1 ≤ 64)
    ∧ (w22d.windowOn 0 = true)
    ∧ (w22d.fault.f4 = false)
    ∧ (w22d.rtcFn 0 = true) := by
  refine ⟨?_, ?_, ?_, ?_, ?_, ?_, ?_, ?_, ?_, ?_, ?_, ?_, ?_, ?_, ?_, ?_, ?_, ?_, ?_, ?_, ?_, ?_, ?_, ?_, ?_, ?_, ?_, ?_, ?_, ?_⟩
  · decide +kernel
  · decide +kernel
  · decide +kernel
  · decide +kernel
  · decide +kernel
  · rfl
  · decide +kernel
  · decide +kernel
  · rfl
  · decide +kernel
  · decide +kernel
  · decide +kernel
  · decide +kernel
  · decide +kernel
  · decide +kernel
  · decide +kernel
  · decide +kernel
  · decide +kernel
  · decide +kernel
  · decide +kernel
  · decide +kernel
  · decide +kernel
  · decide +kernel
  · decide +kernel
  · decide +kernel
  · decide +kernel
  · decide +kernel
  · decide +kernel
  · decide +kernel
  · decide +kernel

theorem test_hyps_WindowReadsAndWrites_2 :
    (w22d.rtcHostWrite = true)
    ∧ (w22d.rtc.halted = true)
    ∧ (w22d.rtc.dateOk = false)
    ∧ (w22d.rtcFn 0 = false ∨ w22d.keyOn (kTime 10) = true ∨ w22d.keyOn (kTime 12) = false)
    ∧ (4096 % 4 = 0)
    ∧ (4096 ≤ 4096)
    ∧ (4096 < 8192)
    ∧ (w22d.spiFirst.windowOn 7 = true)
    ∧ (w22d.spiFirst.fault.f4 = false)
    ∧ (¬(([] : Bytes).length = 3 + 4 * fld [] 2 1 + 2 ∧ fld [] (3 + 4 * fld [] 2 1) 2 = (crc16 (List.take (3 + 4 * fld [] 2 1) [])).toNat))
    ∧ (1 = 1)
    ∧ (8192 % 4 = 0)
    ∧ (0 < 7)
    ∧ (8192 ≤ 8192)
    ∧ (8192 < 9216)
    ∧ (2 = 2)
    ∧ (12288 % 4 = 0)
    ∧ (12288 = 12288)
    ∧ (3 = 3)
    ∧ (32768 % 4 = 0)
    ∧ (32768 ≤ 32768)
    ∧ (32768 < 33792)
    ∧ (4 = 4)
    ∧ (4 % 4 = 0)
    ∧ (4 < 4096)
    ∧ (4 ≠ 96)
    ∧ (4 ≠ 192)
    ∧ (5 = 5)
    ∧ (6 = 6)
    ∧ (7 = 7) := by
  refine ⟨?_, ?_, ?_, ?_, ?_, ?_, ?_, ?_, ?_, ?_, ?_, ?_, ?_, ?_, ?_, ?_, ?_, ?_, ?_, ?_, ?_, ?_, ?_, ?_, ?_, ?_, ?_, ?_, ?_, ?_⟩ <;> decide +kernel

theorem test_hyps_WindowReadsAndWrites_3 :
    (w22d.windowOn 3 = true)
    ∧ (w22d.rtcFn 3 = false ∨ w22d.rtcHostWrite = false) := by
  refine ⟨?_, ?_⟩ <;> decide +kernel

def w23 : State := { wu with time.valid := false }
def w23q : State := { wl with cfg := { shadow := ({ gen := 1 } : KeySet).put (kPq 0 0) 1 } }

theorem test_hyps_IdleFunctionsAreDeniedRoleIdle :
    (wl.serving = true)
    ∧ (waitsHere 2592 (wPk 2592 1 []) (wl.queueOf (queueId (wPk 2592 1 []).bay (wPk 2592 1 []).queue)) = none)
    ∧ ((wPk 2592 1 []).crc = Packet.crcOf 2592 (wPk 2592 1 []))
    ∧ ((wPk 2592 1 []).transport.isUdp = true → (wPk 2592 1 []).gcmOk = true)
    ∧ ((wPk 2592 1 []).version = 1)
    ∧ ((wPk 2592 1 []).paramLen % 8 = 0)
    ∧ ((wPk 2592 1 []).paramLen ≤ paramLimit (wPk 2592 1 []))
    ∧ ((wPk 2592 1 []).paramLen = List.length (wPk 2592 1 []).params)
    ∧ ((wPk 2592 1 []).flags.toNat < 32)
    ∧ ((wPk 2592 1 []).reserved = 0)
    ∧ ((wPk 2592 1 []).tagged = mustTag 2592 (wPk 2592 1 []))
    ∧ ((wPk 2592 1 []).bay ≤ 7)
    ∧ ((wPk 2592 1 []).queue ≤ 15)
    ∧ (TargetHere (wPk 2592 1 []) wl = true)
    ∧ (card 2592 = some ((card 2592).getD { may := fun x x_1 => true, idle := fun x => true, bc := true }))
    ∧ (replayOf (wPk 2592 1 []) wl = none)
    ∧ (tagStale (wPk 2592 1 []) wl = false)
    ∧ (bayPermitted 2592 (wPk 2592 1 []) wl = true)
    ∧ (sessionCheck 2592 (wPk 2592 1 []) wl = none)
    ∧ (((card 2592).getD { may := fun x x_1 => true, idle := fun x => true, bc := true }).may (wPk 2592 1 []).bay (wl.ctx (wPk 2592 1 [])).role = true)
    ∧ (((card 2592).getD { may := fun x x_1 => true, idle := fun x => true, bc := true }).idle wl.kiln.role = true)
    ∧ (HostBroadcast (wPk 2592 1 []) = false) := by
  refine ⟨?_, ?_, ?_, ?_, ?_, ?_, ?_, ?_, ?_, ?_, ?_, ?_, ?_, ?_, ?_, ?_, ?_, ?_, ?_, ?_, ?_, ?_⟩
  · decide +kernel
  · decide +kernel
  · decide +kernel
  · decide +kernel
  · decide +kernel
  · decide +kernel
  · decide +kernel
  · decide +kernel
  · decide +kernel
  · decide +kernel
  · decide +kernel
  · decide +kernel
  · decide +kernel
  · decide +kernel
  · rfl
  · decide +kernel
  · decide +kernel
  · decide +kernel
  · decide +kernel
  · rfl
  · rfl
  · decide +kernel

theorem test_hyps_DatedBillingNeedsValidTime :
    (w23.time.valid = false)
    ∧ (Block 16 [(8, 8)] (wPk 1809 0 (leBytes 8 5 ++ zeros 8)) = true)
    ∧ (Starts 1809 (wPk 1809 0 (leBytes 8 5 ++ zeros 8)) w23 = true)
    ∧ (fld (wPk 1809 0 (leBytes 8 5 ++ zeros 8)).params 0 8 ≠ 0)
    ∧ (Block 16 [(8, 8)] (wPk 1809 0 (zeros 16)) = true)
    ∧ (Starts 1809 (wPk 1809 0 (zeros 16)) w23 = true)
    ∧ (fld (wPk 1809 0 (zeros 16)).params 0 8 = 0)
    ∧ (Block 16 [(8, 8)] (wPk 1824 0 (leBytes 8 5 ++ zeros 8)) = true)
    ∧ (Starts 1824 (wPk 1824 0 (leBytes 8 5 ++ zeros 8)) w23 = true)
    ∧ (fld (wPk 1824 0 (leBytes 8 5 ++ zeros 8)).params 0 8 ≠ 0)
    ∧ (Block 16 [(8, 8)] (wPk 1824 0 (zeros 16)) = true)
    ∧ (Starts 1824 (wPk 1824 0 (zeros 16)) w23 = true)
    ∧ (fld (wPk 1824 0 (zeros 16)).params 0 8 = 0) := by
  refine ⟨?_, ?_, ?_, ?_, ?_, ?_, ?_, ?_, ?_, ?_, ?_, ?_, ?_⟩
  · decide +kernel
  · decide +kernel
  · exact starts_of (wPk_crc ..) (by decide +kernel)
  · decide +kernel
  · decide +kernel
  · exact starts_of (wPk_crc ..) (by decide +kernel)
  · decide +kernel
  · decide +kernel
  · exact starts_of (wPk_crc ..) (by decide +kernel)
  · decide +kernel
  · decide +kernel
  · exact starts_of (wPk_crc ..) (by decide +kernel)
  · decide +kernel

theorem test_hyps_PowerQualityLevelsBarTheSwap :
    (Starts 272 (wPk 272 1 (leBytes 4 0 ++ leBytes 4 1 ++ zeros 8)) w23q = true)
    ∧ (Block 16 [(2, 2)] (wPk 272 1 (leBytes 4 0 ++ leBytes 4 1 ++ zeros 8)) = true)
    ∧ (fld (wPk 272 1 (leBytes 4 0 ++ leBytes 4 1 ++ zeros 8)).params 0 1 ≤ 3)
    ∧ (fld (wPk 272 1 (leBytes 4 0 ++ leBytes 4 1 ++ zeros 8)).params 1 1 ≤ 7)
    ∧ (fld (wPk 272 1 (leBytes 4 0 ++ leBytes 4 1 ++ zeros 8)).params 0 1 ≠ 1 → fld (wPk 272 1 (leBytes 4 0 ++ leBytes 4 1 ++ zeros 8)).params 1 1 = 0)
    ∧ (fld (wPk 272 1 (leBytes 4 0 ++ leBytes 4 1 ++ zeros 8)).params 0 1 ≠ 3 → fld (wPk 272 1 (leBytes 4 0 ++ leBytes 4 1 ++ zeros 8)).params 8 8 = 0)
    ∧ (w23q.cfg.active.differ w23q.cfg.shadow isLegalKey = true →
        b0Legal (wPk 272 1 (leBytes 4 0 ++ leBytes 4 1 ++ zeros 8)).bay
            ((w23q.touch (wPk 272 1 (leBytes 4 0 ++ leBytes 4 1 ++ zeros 8))).ctx (wPk 272 1 (leBytes 4 0 ++ leBytes 4 1 ++ zeros 8))).role =
          true)
    ∧ (w23q.cfg.pend = none)
    ∧ (w23q.cfgReadOnly = false)
    ∧ (fld (wPk 272 1 (leBytes 4 0 ++ leBytes 4 1 ++ zeros 8)).params 4 4 = w23q.cfg.shadow.gen)
    ∧ (fld (wPk 272 1 (leBytes 4 0 ++ leBytes 4 1 ++ zeros 8)).params 0 1 = 3 → w23q.time.valid = true ∧ w23q.nowNs < fld (wPk 272 1 (leBytes 4 0 ++ leBytes 4 1 ++ zeros 8)).params 8 8)
    ∧ (fld (wPk 272 1 (leBytes 4 0 ++ leBytes 4 1 ++ zeros 8)).params 0 1 = 1 → vsEnabled w23q.cfg.active (fld (wPk 272 1 (leBytes 4 0 ++ leBytes 4 1 ++ zeros 8)).params 1 1) = true)
    ∧ (0 < 8)
    ∧ (w23q.cfg.shadow.get (kPq 0 0) = 1 ∧ vsEnabled w23q.cfg.shadow 0 = false ∨
        w23q.cfg.shadow.get (kPq 0 4) + w23q.cfg.shadow.get (kPq 0 5) ≥ w23q.cfg.shadow.get (kPq 0 2) ∨
          w23q.cfg.shadow.get (kPq 0 2) + w23q.cfg.shadow.get (kPq 0 5) + w23q.cfg.shadow.get (kPq 0 5) ≥ w23q.cfg.shadow.get (kPq 0 3) ∨
            w23q.cfg.shadow.get (kPq 0 7) ≥ w23q.cfg.shadow.get (kPq 0 6)) := by
  refine ⟨?_, ?_, ?_, ?_, ?_, ?_, ?_, ?_, ?_, ?_, ?_, ?_, ?_, ?_⟩
  · exact starts_of (wPk_crc ..) (by decide +kernel)
  · decide +kernel
  · decide +kernel
  · decide +kernel
  · decide +kernel
  · decide +kernel
  · decide +kernel
  · decide +kernel
  · decide +kernel
  · decide +kernel
  · decide +kernel
  · decide +kernel
  · decide +kernel
  · decide +kernel

/-! ### Ill-formed terms -/

/-- A command packet for the smoke test, each field of its header within its width. -/
def sPk : Packet := wPk 0x0010 1 []
def sIn : SampleIn := { chans := [], dissent := [], late := [], footFail := [], convs := [], bias := [] }
def sRf : RadioFrame := { formOk := true, pan := 1, source := 77, toMe := true, level := 1, keyIndex := 1, counter := 5, micOk := true, dataRequest := false, ttl := 3, down := false, sleepy := false, rank := 1, endRank := 0, origin := 77, originSeq := 1, final := 78, type := 1, body := [] }
def sPal : Pallet := { magic := 0, version := 0, kind := 0, source := 0, dest := 0, epoch := 0, entries := 0, length := 0, seq := 0, tagOk := true, body := [] }

theorem test_wellformed_packet : Instr.wf (.getReadyMap sPk) = true := by decide +kernel
theorem test_illformed_version : Instr.wf (.getReadyMap { sPk with version := 256 }) = false := by decide +kernel
theorem test_illformed_tag : Instr.wf (.cfgSwap { sPk with tag := 2 ^ 32 }) = false := by decide +kernel
theorem test_illformed_bay : Instr.wf (.cfgEdit { sPk with bay := 256 }) = false := by decide +kernel
theorem test_illformed_session : Instr.wf (.sessionClose { sPk with session := 65536 }) = false := by decide +kernel
theorem test_illformed_target : Instr.wf (.timeGet { sPk with target := 65536 }) = false := by decide +kernel
theorem test_illformed_forward : Instr.wf (.packetForward 32768 sPk) = false := by decide +kernel
theorem test_illformed_deadline_position : Instr.wf (.deadlineExpire 0 0 256) = false := by decide
theorem test_illformed_handle : Instr.wf (.sessionIdleTimeout 65536) = false := by decide
theorem test_illformed_identity : Instr.wf (.identityLockEnd (2 ^ 64)) = false := by decide
theorem test_illformed_spi_count : Instr.wf (.spiRegRead 0 256) = false := by decide
theorem test_illformed_doorbell : Instr.wf (.sqTailDoorbell 0 0 (2 ^ 32) []) = false := by decide
theorem test_illformed_fetch : Instr.wf (.cqHeadDoorbell 0 0 0 [{ pktLen := 2 ^ 32, rspCap := 0, pkt := none, bulk := [] }]) = false := by decide
theorem test_illformed_window_offset : Instr.wf (.regWritePlain 0 4096 0) = false := by decide
theorem test_illformed_sample : Instr.wf (.sampleBoundary { sIn with late := [0, 0] }) = false := by decide
theorem test_illformed_same_channel : Instr.wf (.bitstreamIdentical 3 3 0) = false := by decide
theorem test_illformed_polarity : Instr.wf (.polarityDwell 0 { own := 0, o1 := 0, o2 := 0, rms := [], seconds := 0 }) = false := by decide
theorem test_illformed_vote : Instr.wf (.windowEnd 0 { dissent := [0, 0], late := [] }) = false := by decide
theorem test_illformed_votes : Instr.wf (.substWardenVote 0 [0, 0]) = false := by decide
theorem test_illformed_raw : Instr.wf (.urgentBurstDone 0 [70000]) = false := by decide
theorem test_illformed_ptp : Instr.wf (.ptpDelayResp 65536 0) = false := by decide
theorem test_illformed_channel : Instr.wf (.sampleBoundary { sIn with chans := [{ ch := 0, sub := 0, bits := 0, upA := none, upB := none, failA := false, failB := false }, { ch := 0, sub := 0, bits := 1, upA := none, upB := none, failA := false, failB := false }] }) = false := by decide
theorem test_illformed_conversion : Instr.wf (.sampleBoundary { sIn with convs := [{ slot := 0, k := 0, raw := 70000, ago := 0 }] }) = false := by decide
theorem test_illformed_crossing_vote : Instr.wf (.zcCrossingDecide 0 { dissent := [], late := [5, 5] }) = false := by decide
theorem test_illformed_frames : Instr.wf (.plcReadingReceive { frames := List.replicate 9 (0, []), micOk := true, snr := 10 }) = false := by decide
theorem test_illformed_meter : Instr.wf (.radioReadingReceive { identity := 2 ^ 64, ctr := 6, micOk := true, body := [], sleepy := false, port := 0 }) = false := by decide
theorem test_illformed_poll_address : Instr.wf (.plcPollDue 8192) = false := by decide
theorem test_illformed_radio_frame : Instr.wf (.rpRx 0 { sRf with level := 8 }) = false := by decide
theorem test_illformed_irq : Instr.wf (.rpIrq 0 (zeros 65542)) = false := by decide +kernel
theorem test_illformed_pallet : Instr.wf (.palletUpReceive { sPal with source := 65536 }) = false := by decide
theorem test_illformed_hello : Instr.wf (.helloReceive 0 { devId := 65536, role := 0, hops := 0, epoch := 0, rootId := 0, activeUp := 0, rootSeq := 0, flags := 0, lane := 0 }) = false := by decide
theorem test_illformed_segment : Instr.wf (.segmentReceive 0 { cls := 4, kind := 0, index := 0, last := true, hops := 0, data := [], pallet := none, gcm := true }) = false := by decide
theorem test_illformed_join : Instr.wf (.joinReqReceive 0 { hops := 0, dev := 3, epoch := 1, nonce := [], identity := 7, mac := zeros 16, macOk := true }) = false := by decide
theorem test_illformed_return : Instr.wf (.returnReceive 0 { hops := 0, source := 65536, kind := 0, reason := 0, seq := 4 }) = false := by decide
theorem test_illformed_hops : Instr.wf (.joinReqReceive 0 { hops := 256, dev := 3, epoch := 1, nonce := zeros 16, identity := 7, mac := zeros 16, macOk := true }) = false := by decide
theorem test_illformed_sync : Instr.wf (.ptpSync { identity := 1, seq := 65536, origin := none, rx := 0 }) = false := by decide
theorem test_illformed_exchange : Instr.wf (.timeReqReceive 0 65536 0 0) = false := by decide
theorem test_illformed_push : Instr.wf (.pushExpiry (2 ^ 32)) = false := by decide
theorem test_illformed_answer : Instr.wf (.plcAnswerReceive 0 { late := 0, frame := zeros 264 }) = false := by decide +kernel
theorem test_illformed_radio_answer : Instr.wf (.radioAnswerReceive 1 { originSeq := 0, rank := 256 } 0) = false := by decide
theorem test_illformed_radio_status : Instr.wf (.rpTxDone 0 256) = false := by decide
theorem test_illformed_snapshot : Instr.wf (.snapshotClose (2 ^ 32)) = false := by decide
theorem test_illformed_below : Instr.wf (.belowReceive 0 { seq := 0, part := 0, last := true, ids := [1024] }) = false := by decide
theorem test_illformed_address : Instr.wf (.arpRequest 0 (2 ^ 32)) = false := by decide
theorem test_illformed_k1 : Instr.wf (.kilnK2Start { us := 0, wardens := [], fuseOk := true, pairOk := [], entries := [], repairs := 0, flash := none, slotOk := [] }) = false := by decide
theorem test_illformed_pairs : Instr.wf (.f3PairsRunning []) = false := by decide

theorem test_illformed_tick : Instr.wf (.agg10minTick 0 (2 ^ 64)) = false := by decide
theorem test_illformed_seconds : Instr.wf (.flickerSettled 0 (2 ^ 32)) = false := by decide
theorem test_illformed_interval : Instr.wf (.bandIntervalEnd 0 (2 ^ 64)) = false := by decide

/-! ### One step -/

/-- No row of the table has bits: no word spells a command. -/
theorem test_no_word_spells_a_command : Sys2Proof.decodeTableWord 16 0x1234 = none := by decide
theorem test_word_changes_nothing : State.reset.withFetchWord 16 0x1234 = State.reset := by decide +kernel

/-- A full band interval of good samples: the clause of PowerQualityIntervalsAndEventsEnd for such an interval. -/
def w3raw : List Samp := (List.range 25600).map fun i => { u := 1999999 - i, y := 5, bad := false, ovr := false, foot := false }
def w3full : State := { w3k with metro.chan := [(0, { (w3k.chm 0) with raw := w3raw })] }
theorem chm_head (s : State) (x : ChanM) : ({ s with metro.chan := [(0, x)] } : State).chm 0 = x := rfl
theorem test_hyps_full_band_interval :
    (∃ w, (enabledVsets w3full.cfg.active).find? (fun w => (vsAllChannels w3full.cfg.active w).contains 0) = some w)
    ∧ courseWide w3full.cfg.active (courseOf 0) = true ∧ w3full.time.stepAt + 12800 ≤ w3full.time.index - w3full.time.ns % 200000000 / 15625
    ∧ (let stop := w3full.time.index - w3full.time.ns % 200000000 / 15625
       let smp := (w3full.chm 0).raw.filter fun r => decide (2 * (stop - 12800) ≤ r.u) && decide (r.u < 2 * stop)
       smp.length = 25600 ∧ ∀ r ∈ smp, r.bad = false ∧ r.foot = false)
    ∧ ∃ n, n + 1 = w3full.time.ns / 200000000 := by
  refine ⟨⟨0, by decide +kernel⟩, by decide +kernel, by decide +kernel, ?_, w3full.time.ns / 200000000 - 1, by decide +kernel⟩
  have e : w3full.time.index - w3full.time.ns % 200000000 / 15625 = 1000000 := by decide +kernel
  have er : (w3full.chm 0).raw = w3raw := by unfold w3full; rw [chm_head]
  simp only [e, er]
  have ef : w3raw.filter (fun r => decide (2 * (1000000 - 12800) ≤ r.u) && decide (r.u < 2 * 1000000)) = w3raw := by
    rw [List.filter_eq_self]
    intro r hr
    obtain ⟨i, hi, rfl⟩ := List.mem_map.mp hr
    have := List.mem_range.mp hi
    simp only [Bool.and_eq_true, decide_eq_true_eq]; omega
  rw [ef]
  refine ⟨by simp [w3raw], fun r hr => ?_⟩
  obtain ⟨i, _, rfl⟩ := List.mem_map.mp hr
  exact ⟨rfl, rfl⟩

theorem test_hyps_hops : (w13r 5 0).hops < 63 ∧ (w13j 3 true).hops < 63 := by decide
theorem test_hyps_flicker_settled : 60 ≤ 61 ∧ (w3s.mon 0).settleFrom + 3840000 ≤ w3s.time.index ∧ (w3s.mon 0).settled = false := by decide +kernel

end Sys2Proof.Tests
end

section
/-! PROOFS. R14: the role check stands after bay, session and right and before the queue and READY, so a command to an idle function is
refused at ingress, where its body is not reached. -/

namespace Sys2Proof.Machine

/-- A TARGET that names this device or every device is one of the legal values of R376. -/
theorem target_legal_of_targetHere {p : Packet} {s : State} (h : TargetHere p s = true) : p.target ≤ 1023 ∨ p.target = 0xFFFF := by
  simp only [TargetHere, Bool.or_eq_true, Bool.and_eq_true, beq_iff_eq, decide_eq_true_eq] at h
  omega

/-- A packet whose TARGET names this device or every device does not take the way to another device. -/
theorem not_remote_of_targetHere {p : Packet} {s : State} (h : TargetHere p s = true) : ¬ (p.target ≠ 1023 ∧ !targetLocal p s) := by
  simp only [TargetHere, Bool.or_eq_true, Bool.and_eq_true, beq_iff_eq] at h
  rintro ⟨hall, hlocal⟩
  rcases h with h | ⟨h, -⟩
  · exact hall h
  · simp [h] at hlocal

/-- Steps 2 to 4 of R381 pass when every header field lies in its range. -/
theorem headCheck_passed {code : Nat} {p : Packet} {s : State} (hversion : p.version = 1) (haligned : p.paramLen % 8 = 0)
    (hlimit : p.paramLen ≤ paramLimit p) (hlength : p.paramLen = p.params.length) (hflags : p.flags.toNat < 32) (hreserved : p.reserved = 0)
    (htagged : p.tagged = mustTag code p) (hbay : p.bay ≤ 7) (hqueue : p.queue ≤ 15) (htarget : TargetHere p s = true) :
    headCheck code p = none := by
  have hlen : ¬ (p.paramLen % 8 ≠ 0 ∨ paramLimit p < p.paramLen ∨ p.paramLen ≠ p.params.length) := by omega
  have hbits : ¬ p.flags.toNat / 32 ≠ 0 := by omega
  have hlegal := target_legal_of_targetHere htarget
  have hrange : ¬ (1023 < p.target ∧ p.target ≠ 0xFFFF) := by omega
  unfold headCheck
  rw [if_neg (not_not.mpr hversion), if_neg hlen, if_neg hbits, if_neg (not_not.mpr hreserved), if_neg (by simp [htagged]),
    if_neg (by omega), if_neg (by omega), if_neg hrange]

/-- Step 1 of R381 passes: ingress is its later steps. -/
theorem ingress_of_crc {code : Nat} {p : Packet} {s : State} (hcrc : p.crc = p.crcOf code)
    (hgcm : p.transport.isUdp = true → p.gcmOk = true) : ingress code p s = ingressAfterCrc code p s := by
  have hopen : (p.transport.isUdp && !p.gcmOk) = false := by
    cases hudp : p.transport.isUdp
    · rfl
    · simp [hgcm hudp]
  unfold ingress
  rw [hopen, if_neg Bool.false_ne_true, if_neg (not_not.mpr hcrc)]

/-- R381, step 10: a new packet for this device whose bay, session and right pass is refused with ROLE_IDLE where the running role leaves
its opcode idle, before the room of its queue (step 11) counts. -/
theorem ingressAfterCrc_roleIdle {code : Nat} {p : Packet} {c : Card} {s : State} (hhead : headCheck code p = none)
    (htarget : TargetHere p s = true) (hcard : card code = some c) (hbay : bayPermitted code p s = true)
    (hsession : sessionCheck code p s = none) (hnew : replayOf p s = none) (hfresh : tagStale p s = false)
    (hmay : c.may p.bay (s.ctx p).role = true) (hidle : c.idle s.kiln.role = true) :
    ingressAfterCrc code p s = .refuse (Res.err stDenied subRoleIdle) := by
  unfold ingressAfterCrc
  simp only [hhead, if_neg (not_remote_of_targetHere htarget), hcard, hbay, hsession, hnew, hfresh, hmay, hidle]
  rfl

/-- A refusal other than BUSY only replies: no queue overflow is counted. -/
theorem turnedAway_refuse_of_not_busy {code : Nat} {p : Packet} {r : Res} (s : State) (h : r.status ≠ stBusy) :
    s.turnedAway code p (.refuse r) = s.answer code p r := by
  unfold State.turnedAway
  simp only [if_neg h]

/-- A packet that no queue holds for its row and that ingress refuses, not for a full queue, gets that reply and never reaches its body. -/
theorem command_refused {code : Nat} {body : Body} {p : Packet} {s : State} {r : Res} (hserving : s.serving = true)
    (hwaits : waitsHere code p (s.queueOf (queueId p.bay p.queue)) = none) (hingress : ingress code p s = .refuse r)
    (hbusy : r.status ≠ stBusy) : command code body p s = (s.broadcast code p (.refuse r)).answer code p r := by
  have harrive : command code body p s = arrive code body p s := by
    unfold command
    simp only [hserving, hwaits, Bool.not_true, Bool.false_eq_true, if_false]
  rw [harrive, arrive, hingress]
  exact turnedAway_refuse_of_not_busy _ hbusy

/-- Settles O58: ingress refuses at step 10 of R381, and a refusal does nothing but reply. -/
theorem idleFunctionsAreDeniedRoleIdle : Obligations.IdleFunctionsAreDeniedRoleIdle := by
  unfold Obligations.IdleFunctionsAreDeniedRoleIdle
  intro code body p c s hserving hwaits hcrc hgcm hversion haligned hlimit hlength hflags hreserved htagged hbay hqueue htarget hcard
    hnew hfresh hpermitted hsession hmay hidle r
  have hhead : headCheck code p = none :=
    headCheck_passed hversion haligned hlimit hlength hflags hreserved htagged hbay hqueue htarget
  have hingress : ingress code p s = .refuse r :=
    (ingress_of_crc hcrc hgcm).trans (ingressAfterCrc_roleIdle hhead htarget hcard hpermitted hsession hnew hfresh hmay hidle)
  have hbusy : r.status ≠ stBusy := by decide
  have hcommand := command_refused (body := body) hserving hwaits hingress hbusy
  refine ⟨hcommand, fun hown => ?_⟩
  rw [hcommand, broadcast_own hown]

end Sys2Proof.Machine
end

section
/-! PROOFS. R49: the trim applied is the nearer limit outside -1.0 to +3.0 samples, and the channel's TC_CLAMP says just that. -/

namespace Sys2Proof.Machine

/-- The trim before the limits of R49, in 2^-20 sample. -/
def totalTrim (ks : KeySet) (c : Nat) (p : Int) : Int := ks.getS (kC c 5) + p * 256

/-- R49: below -1.0 samples the trim applied is -1.0, above +3.0 samples it is +3.0, and between them it is τ. -/
theorem trim_fst (ks : KeySet) (c : Nat) (p : Int) :
    (trim ks c p).1 = if totalTrim ks c p < -(2 ^ 20) then -(2 ^ 20) else if 3 * 2 ^ 20 < totalTrim ks c p then 3 * 2 ^ 20 else totalTrim ks c p := by
  change max (-(2 ^ 20)) (min (3 * 2 ^ 20) (totalTrim ks c p)) = _
  split_ifs <;> omega

/-- R49: the trim is marked as limited exactly when τ lies outside the limits. -/
theorem trim_snd (ks : KeySet) (c : Nat) (p : Int) :
    (trim ks c p).2 = decide (totalTrim ks c p < -(2 ^ 20) ∨ 3 * 2 ^ 20 < totalTrim ks c p) := by
  have hmark : (trim ks c p).2 = ((trim ks c p).1 != totalTrim ks c p) := rfl
  rw [hmark, trim_fst, Bool.eq_iff_iff, bne_iff_ne, decide_eq_true_iff]
  split_ifs <;> omega

/-- A channel after temperature compensation is put in force for it. -/
theorem setTc_same {s : State} (h : Tbl.wf {} s.front.chan) (c : Nat) (g p : Int) (hold : Bool) :
    (s.setTc c g p hold).chan c = { s.chan c with gT := g, pT := p, tcHold := hold, tcClamp := (trim s.cfg.active c p).2 } :=
  modChan_same h c _

/-- Settles O13: the limit and its mark are those of `trim`, and the channel takes the mark and p_T as they are given. -/
theorem trimIsLimited : Obligations.TrimIsLimited := by
  unfold Obligations.TrimIsLimited
  intro s c g p hold hwf τ
  refine ⟨trim_fst s.cfg.active c p, ?_, ?_⟩
  · rw [setTc_same hwf]
    exact trim_snd s.cfg.active c p
  · rw [setTc_same hwf]

end Sys2Proof.Machine
end

section
/-! PROOFS. R97: each of the four conditions puts a key of the monitor among the failing keys of a set, so that the cross-key checks of CFG_SWAP do
not pass; the swap then replies and arms nothing. -/

namespace Sys2Proof.Machine

/-! ### What the cross-key checks of a set give -/

/-- A key is among the failing ones of a list of checks exactly when a check that names it fails. -/
theorem mem_failing {l : List (Bool × Nat)} {k : Nat} : k ∈ failing l ↔ (true, k) ∈ l := by
  simp [failing]

/-- The four conditions of R97 on monitor v of a set, in the rule's order. -/
def PqInconsistent (ks : KeySet) (v : Nat) : Prop :=
  ks.get (kPq v 0) = 1 ∧ vsEnabled ks v = false ∨ ks.get (kPq v 4) + ks.get (kPq v 5) ≥ ks.get (kPq v 2)
    ∨ ks.get (kPq v 2) + ks.get (kPq v 5) + ks.get (kPq v 5) ≥ ks.get (kPq v 3) ∨ ks.get (kPq v 7) ≥ ks.get (kPq v 6)

/-- R97: a monitor whose levels are inconsistent has a failing key, of items 0 to 7 of its section. -/
theorem exists_mem_checkPq {ks : KeySet} {v : Nat} (h : PqInconsistent ks v) : ∃ i ≤ 7, kPq v i ∈ checkPq ks v := by
  simp only [checkPq, mem_failing]
  rcases h with ⟨hon, hvs⟩ | hint | hdip | hrvc
  · exact ⟨0, by decide, by simp [hon, hvs]⟩
  · exact ⟨4, by decide, by simp [hint]⟩
  · have hlevel : ks.get (kPq v 3) ≤ ks.get (kPq v 2) + 2 * ks.get (kPq v 5) := by omega
    exact ⟨2, by decide, by simp [hlevel]⟩
  · exact ⟨7, by decide, by simp [hrvc]⟩

/-- The cross-key checks of a set include those of R97 for each of the eight monitors. -/
theorem mem_crossFails_of_mem_checkPq {s : State} {ks : KeySet} {v k : Nat} (hv : v < 8) (h : k ∈ checkPq ks v) : k ∈ s.crossFails ks := by
  have hmonitors : k ∈ (List.range 8).flatMap (checkPq ks) := List.mem_flatMap.mpr ⟨v, List.mem_range.mpr hv, h⟩
  simp only [State.crossFails, List.mem_append, hmonitors, true_or, or_true]

theorem foldl_min_le_of_mem {l : List Nat} {k : Nat} (a : Nat) (h : k ∈ l) : l.foldl min a ≤ k := by
  rw [List.foldl_min]
  exact (Nat.min_le_right _ _).trans (List.min?_getD_le_of_mem h)

/-- LAST_CHECK_KEY is no higher than any failing key (R410). -/
theorem firstFail_le {s : State} {ks : KeySet} {k : Nat} (h : k ∈ s.crossFails ks) : s.firstFail ks ≤ k := foldl_min_le_of_mem _ h

/-- R97: a set with an inconsistent monitor does not pass the cross-key checks. -/
theorem firstFail_ne_of_pqInconsistent {s : State} {ks : KeySet} {v : Nat} (hv : v < 8) (h : PqInconsistent ks v) :
    s.firstFail ks ≠ 0xFFFF := by
  obtain ⟨i, hi, hmem⟩ := exists_mem_checkPq h
  have hle : s.firstFail ks ≤ kPq v i := firstFail_le (mem_crossFails_of_mem_checkPq hv hmem)
  have hkey : kPq v i < 0xFFFF := by unfold kPq; omega
  omega

/-- Accepting a packet changes nothing outside the command path. -/
theorem touch_apart (s : State) (p : Packet) : (s.touch p).apart = s.apart := rfl

/-- The cross-key checks read nothing of the command path, the lanes' transmitters or the MSI-X vectors. -/
theorem firstFail_apart (s : State) (ks : KeySet) : s.apart.firstFail ks = s.firstFail ks := rfl

theorem firstFail_touch (s : State) (p : Packet) (ks : KeySet) : (s.touch p).firstFail ks = s.firstFail ks := by
  rw [← firstFail_apart, touch_apart, firstFail_apart]

/-! ### CFG_SWAP up to its cross-key checks -/

/-- Every check of CFG_SWAP that stands before the cross-key checks passes (R409). -/
structure SwapChecksPass (c : Ctx) (p : Packet) (s : State) : Prop where
  boundary : fld p.params 0 1 ≤ 3
  vset : fld p.params 1 1 ≤ 7
  vset_zero : fld p.params 0 1 ≠ 1 → fld p.params 1 1 = 0
  time_zero : fld p.params 0 1 ≠ 3 → fld p.params 8 8 = 0
  legal : s.cfg.active.differ s.cfg.shadow isLegalKey = true → b0Legal c.bay c.role = true
  idle : s.cfg.pend = none
  writable : s.cfgReadOnly = false
  gen : fld p.params 4 4 = s.cfg.shadow.gen
  future : fld p.params 0 1 = 3 → s.time.valid = true ∧ s.nowNs < fld p.params 8 8
  enabled : fld p.params 0 1 = 1 → vsEnabled s.cfg.active (fld p.params 1 1) = true

/-- R409, R410: a CFG_SWAP that comes to the cross-key checks with a shadow set that fails one records the failing key and replies BAD_PARAM. -/
theorem cfgSwapBody_of_failing {c : Ctx} {p : Packet} {s : State} (hblock : Block 16 [(2, 2)] p = true) (h : SwapChecksPass c p s)
    (hfail : s.firstFail s.cfg.shadow ≠ 0xFFFF) :
    cfgSwapBody c p s = ({ s with cfg.lastCheckKey := s.firstFail s.cfg.shadow }, .reply (Res.field 0)) := by
  obtain ⟨hboundary, hvset, hvset0, htime0, hlegal, hidle, hwritable, hgen, hfuture, henabled⟩ := h
  have hvs : ¬ (7 < fld p.params 1 1 ∨ (fld p.params 0 1 ≠ 1 ∧ fld p.params 1 1 ≠ 0)) := by
    rintro (hhigh | ⟨hother, hset⟩)
    · omega
    · exact hset (hvset0 hother)
  have htime : ¬ (fld p.params 0 1 ≠ 3 ∧ fld p.params 8 8 ≠ 0) := fun ⟨hother, hset⟩ => hset (htime0 hother)
  have hright : (s.cfg.active.differ s.cfg.shadow isLegalKey && !b0Legal c.bay c.role) = false := by
    cases hdiffer : s.cfg.active.differ s.cfg.shadow isLegalKey
    · rfl
    · simp [hlegal hdiffer]
  have hvalid : ¬ (fld p.params 0 1 = 3 ∧ (!s.time.valid) = true) := fun ⟨hat, hinvalid⟩ => by simp [(hfuture hat).1] at hinvalid
  have hlater : ¬ (fld p.params 0 1 = 3 ∧ fld p.params 8 8 ≤ s.nowNs) := fun ⟨hat, hpast⟩ => Nat.not_lt.mpr hpast (hfuture hat).2
  have hset : ¬ (fld p.params 0 1 = 1 ∧ (!vsEnabled s.cfg.active (fld p.params 1 1)) = true) := fun ⟨hone, hoff⟩ => by
    simp [henabled hone] at hoff
  rw [cfgSwapBody, fixedBody_block hblock]
  simp only [if_neg (Nat.not_lt.mpr hboundary), if_neg hvs, if_neg htime, hright, hidle, Option.isSome_none, hwritable, Bool.false_eq_true,
    if_false, if_neg (not_not.mpr hgen), if_neg hvalid, if_neg hlater, if_neg hset, if_pos hfail]

/-- Settles O60: an inconsistent monitor has a failing key below 0xFFFF, so the swap ends at its cross-key checks, and a reply leaves the
configuration sets as they are. -/
theorem powerQualityLevelsBarTheSwap : Obligations.PowerQualityLevelsBarTheSwap := by
  unfold Obligations.PowerQualityLevelsBarTheSwap
  intro p v s b sh g hstarts hblock hboundary hvset hvset0 htime0 hlegal hidle hwritable hgen hfuture henabled hv hlevels u
  have hpass : SwapChecksPass ((s.touch p).ctx p) p (s.touch p) :=
    ⟨hboundary, hvset, hvset0, htime0, fun hdiffer => by rw [ctx_bay]; exact hlegal hdiffer, hidle, hwritable, hgen, hfuture, henabled⟩
  have hfail : (s.touch p).firstFail sh ≠ 0xFFFF := firstFail_ne_of_pqInconsistent hv hlevels
  have hbody : cfgSwapBody ((s.touch p).ctx p) p (s.touch p) = (u, .reply (Res.field 0)) := by
    rw [cfgSwapBody_of_failing hblock hpass hfail, firstFail_touch]
    rfl
  have hexec : exec (.cfgSwap p) s = .next (command 0x0110 cfgSwapBody p s) := rfl
  have hcfg : (u.answer 0x0110 p (Res.field 0)).cfg = u.cfg := apart_cfg (answer_apart _ _ _ _)
  refine ⟨?_, ?_, ?_⟩
  · rw [hexec, command_starts hstarts, hbody, finish]
  · rw [hcfg]
    rfl
  · rw [hcfg]
    exact hidle

end Sys2Proof.Machine
end

section
/-! PROOFS. R245: TARIFF_ACTIVATE and BILL_RESET are one command but for the date they set, so the rule about valid time is proved for both at once. -/

namespace Sys2Proof.Machine

/-- What the two commands of R249 and R250 share: time 0 waits for the next sample boundary, any other time is kept by `date` under valid time. -/
def datedBody (date : Nat → State → State) : Body := fixedBody 16 [(8, 8)] fun _ p s =>
  let t := fld p.params 0 8
  if t = 0 then (s, .hold .billNow)
  else if !s.time.valid then (s, .reply (Res.err stNotReady 0))
  else (date t s, .reply Res.accepted)

theorem tariffActivateBody_eq_dated : tariffActivateBody = datedBody fun t s => { s with bill.actAt := some t } := rfl

theorem billResetBody_eq_dated : billResetBody = datedBody fun t s => { s with bill.resetAt := some t } := rfl

/-- Accepting a packet leaves the clock alone. -/
theorem touch_time (s : State) (p : Packet) : (s.touch p).time = s.time := rfl

section
variable {code : Nat} {date : Nat → State → State} {p : Packet} {s : State}

/-- R249, R250: at time 0 the command begins and holds its queue, whether or not time is valid. -/
theorem command_dated_immediate (hstarts : Starts code p s = true) (hblock : Block 16 [(8, 8)] p = true) (hnow : fld p.params 0 8 = 0) :
    command code (datedBody date) p s = (s.touch p).setBusy (queueId p.bay p.queue) (some ⟨⟨code, p, s.time.mono⟩, .billNow⟩) := by
  rw [datedBody, command_fixed hstarts hblock]
  simp only [if_pos hnow, finish]

/-- R245: a dated command without valid time only replies NOT_READY: no date is set. -/
theorem command_dated_notReady (hstarts : Starts code p s = true) (hblock : Block 16 [(8, 8)] p = true) (hdated : fld p.params 0 8 ≠ 0)
    (hinvalid : s.time.valid = false) :
    command code (datedBody date) p s = (s.touch p).answer code p (Res.err stNotReady 0) := by
  rw [datedBody, command_fixed hstarts hblock]
  simp only [if_neg hdated, touch_time, hinvalid, Bool.not_false, if_true, finish]

end

/-- Settles O59: both commands share the body whose dated form waits for valid time and whose immediate form does not. -/
theorem datedBillingNeedsValidTime : Obligations.DatedBillingNeedsValidTime := by
  unfold Obligations.DatedBillingNeedsValidTime
  intro p s hinvalid hblock
  have hactivate : exec (.tariffActivate p) s = .next (command 0x0711 tariffActivateBody p s) := rfl
  have hreset : exec (.billReset p) s = .next (command 0x0720 billResetBody p s) := rfl
  rw [hactivate, tariffActivateBody_eq_dated, hreset, billResetBody_eq_dated]
  refine ⟨fun hstarts => ⟨fun hdated => ?_, fun hnow => ?_⟩, fun hstarts => ⟨fun hdated => ?_, fun hnow => ?_⟩⟩
  · rw [command_dated_notReady hstarts hblock hdated hinvalid]
  · rw [command_dated_immediate hstarts hblock hnow]
  · rw [command_dated_notReady hstarts hblock hdated hinvalid]
  · rw [command_dated_immediate hstarts hblock hnow]

end Sys2Proof.Machine
end

section
/-! PROOFS. What every command of the table does alike: it answers a next state, leaves the queue of commands alone and keeps the phases of the kiln in order. -/

namespace Sys2Proof.Machine

/-- Every meaning ends in a next state: most are one, the others choose between next states. -/
theorem exec_answers (c : Instr) (s : State) : ∃ t, exec c s = .next t := by
  cases c with
  | packetForward | deadlineExpire | streamStall | sessionIdleTimeout | challengeExpire | identityLockEnd | spiWrite | spiRead
  | rangeSwitchDown | overrangeRelease | stuckRunDetect | bitstreamIdentical | stuckClear | openTest | mclkFaultEnter | mclkRetry
  | mclkFaultClear | pulseWidthEnd | pulseShortDetect | pulseShortRetry | zcCrossingDecide | synthBoundary | reactiveTransfer | creepEnter
  | creepExit | overcurrentRelease | rvcEnd | rvcArm | windowEnd | footingCheckFail | sequenceErrorAssert | sequenceErrorClear
  | missingNeutralAssert | missingNeutralClear | freq10sEnd | agg10minTick | agg2hTick | flickerSettled | bandIntervalEnd | diClassify
  | diDebounce | diDiscrepancyLatch | diClearReady | discFeedbackConfirm | substWardenVote | substCheckpoint | substImageArrived | substJoin
  | tileTestDone | bondRebuildStart | bondReturn | slotPeriodEnd | urgentBurstDone | selfcalSar0Done | selfcalSar1Done | selfcalDone
  | ts2MeanCheck | rprecStepDone | statStepDone | converterCheck | ptpAnnounce | ptpSync | ptpFollowUp | ptpDelayResp | ppsInEdge
  | rtcTrimLearn | backupToVbat | backupToVmain | backupPor | friendlyDeferralEnd | sealBusyTimeout | ptpDelayReqSend | calSpacingEnd
  | mortarSourceLoss | ptpAnnounceTimeout | ppsInLoss | mainsQualify | sourcePromote | slewDone | holdLimitExceeded | ppsOutPulse
  | ppsOutWidthEnd | rtcSecondCompare | rtcCountTick | leapSecondApply | xtalFault | xtalRecover | rtcOscFault | demandSubperiodEnd
  | tariffActivateDue | billResetDue | standingCharge | sealDisplayDwell | sealFrameSend =>
    simp only [exec,
      execPacketForward, execDeadlineExpire, execStreamStall, execSessionIdleTimeout, execChallengeExpire, execIdentityLockEnd, execSpiWrite,
      execSpiRead, execRangeSwitchDown, execOverrangeRelease, execStuckRunDetect, execBitstreamIdentical, execStuckClear, execOpenTest,
      execMclkFaultEnter, execMclkRetry, execMclkFaultClear, execPulseWidthEnd, execPulseShortDetect, execPulseShortRetry, execZcCrossingDecide,
      execSynthBoundary, execReactiveTransfer, execCreepEnter, execCreepExit, execOvercurrentRelease, execRvcEnd, execRvcArm, execWindowEnd,
      execFootingCheckFail, execSequenceErrorAssert, execSequenceErrorClear, execMissingNeutralAssert, execMissingNeutralClear, execFreq10sEnd,
      execAgg10minTick, execAgg2hTick, execFlickerSettled, execBandIntervalEnd, execDiClassify, execDiDebounce, execDiDiscrepancyLatch,
      execDiClearReady, execDiscFeedbackConfirm, execSubstWardenVote, execSubstCheckpoint, execSubstImageArrived, execSubstJoin, execTileTestDone,
      execBondRebuildStart, execBondReturn, execSlotPeriodEnd, execUrgentBurstDone, execSelfcalSar0Done, execSelfcalSar1Done, execSelfcalDone,
      execTs2MeanCheck, execRprecStepDone, execStatStepDone, execConverterCheck, execPtpAnnounce, execPtpSync, execPtpFollowUp, execPtpDelayResp,
      execPpsInEdge, execRtcTrimLearn, execBackupToVbat, execBackupToVmain, execBackupPor, execFriendlyDeferralEnd, execSealBusyTimeout,
      execPtpDelayReqSend, execCalSpacingEnd, execMortarSourceLoss, execPtpAnnounceTimeout, execPpsInLoss, execMainsQualify, execSourcePromote,
      execSlewDone, execHoldLimitExceeded, execPpsOutPulse, execPpsOutWidthEnd, execRtcSecondCompare, execRtcCountTick, execLeapSecondApply,
      execXtalFault, execXtalRecover, execRtcOscFault, execDemandSubperiodEnd, execTariffActivateDue, execBillResetDue, execStandingCharge,
      execSealDisplayDwell, execSealFrameSend]
    repeat' split
    all_goals exact ⟨_, rfl⟩
  | _ => exact ⟨_, rfl⟩

/-- Every command keeps the queue, and the order of the phases: those that open or complete a phase, or end a run, do so in order; the others touch
neither. -/
theorem exec_keeps (c : Instr) (s : State) : OutKeeps s (exec c s) := by
  cases c with
  | settlingEnd => exact execSettlingEnd_keeps
  | selfcalDone => exact execSelfcalDone_keeps
  | uvloFall => exact execUvloFall_keeps
  | pgoodRise => exact execPgoodRise_keeps
  | resetNAssert => exact execResetNAssert_keeps
  | resetNRelease => exact execResetNRelease_keeps
  | pfNExternalLow => exact execPfNExternalLow_keeps
  | powerFailDecision => exact execPowerFailDecision_keeps
  | railOutOfWindow => exact execRailOutOfWindow_keeps
  | thermalShutdown => exact execThermalShutdown_keeps
  | kilnK2Start => exact execKilnK2Start_keeps
  | kilnK3K4Start => exact execKilnK3K4Start_keeps
  | courseMclkStart => exact execCourseMclkStart_keeps
  | tileBistGroupEnd => exact execTileBistGroupEnd_keeps
  | kilnK5Start => exact execKilnK5Start_keeps
  | dramTrainingDone => exact execDramTrainingDone_keeps
  | dramSliceDone => exact execDramSliceDone_keeps
  | kilnK6Start => exact execKilnK6Start_keeps
  | kilnComplete => exact execKilnComplete_keeps
  | _ => exact .of_spine (by simp [exec])

theorem keeps_of_exec {c : Instr} {s t : State} (h : exec c s = .next t) : Keeps s t := by
  have hkeeps := exec_keeps c s
  rw [h] at hkeeps
  exact hkeeps

/-- Settles O2: every command's own frame or phase lemma says that the queue stays. -/
theorem execLeavesTheQueue : Obligations.ExecLeavesTheQueue := by
  unfold Obligations.ExecLeavesTheQueue
  intro c s t h
  exact (keeps_of_exec h).1

/-- Settles O3. -/
theorem everyCommandAnswers : Obligations.EveryCommandAnswers := by
  unfold Obligations.EveryCommandAnswers
  exact exec_answers

theorem step_idle {s : State} (h : s.pending = []) : step s = .next s.clockTick := by
  unfold step
  rw [h]

theorem step_front {s : State} {c : Instr} {q : List Instr} (h : s.pending = c :: q) : step s = exec c { s with pending := q } := by
  unfold step
  rw [h]

theorem clockTick_of_not_started {s : State} (h : s.kiln.ph.started = false) : s.clockTick = s := by
  simp [State.clockTick, h]

theorem clockTick_of_started {s : State} (h : s.kiln.ph.started = true) :
    s.clockTick = { s with time.sub := s.clockTick.time.sub } := by
  simp [State.clockTick, h]

/-- The tick moves the fraction of the time base alone. -/
theorem clockTick_restore_sub (s : State) : { s.clockTick with time.sub := s.time.sub } = s := by
  cases h : s.kiln.ph.started
  · rw [clockTick_of_not_started h]
  · rw [clockTick_of_started h]

theorem clockTick_sub {s : State} (hstarted : s.kiln.ph.started = true) (hindex : s.time.indexOn = false) :
    s.clockTick.time.sub = s.time.sub + ((2 ^ 40 + s.time.rate + s.time.slewRate).toNat) / 2 ^ 6 := by
  simp [State.clockTick, hstarted, hindex]

theorem clockTick_phasesOrdered (s : State) : s.clockTick.phasesOrdered = s.phasesOrdered := by
  rw [← clockTick_restore_sub s]
  cases h : s.kiln.ph.started <;> simp [State.clockTick, h, State.phasesOrdered]

/-- Settles O1: a step is its front command, else the tick of the time base; no word spells a command. -/
theorem stepRunsTheFrontCommand : Obligations.StepRunsTheFrontCommand := by
  unfold Obligations.StepRunsTheFrontCommand
  refine ⟨fun c q s => step_front rfl, fun s h => ?_, fun n w s => ⟨rfl, rfl⟩⟩
  exact ⟨step_idle h, clockTick_restore_sub s, clockTick_of_not_started, clockTick_sub⟩

/-- Settles O6: the tick of an idle step moves no phase, and a command keeps their order. -/
theorem stepKeepsThePhaseOrder : Obligations.StepKeepsThePhaseOrder := by
  unfold Obligations.StepKeepsThePhaseOrder
  intro s t hordered hstep
  cases hq : s.pending with
  | nil =>
    rw [step_idle hq] at hstep
    cases hstep
    rw [clockTick_phasesOrdered]
    exact hordered
  | cons c q =>
    rw [step_front hq] at hstep
    exact (keeps_of_exec hstep).2 hordered

end Sys2Proof.Machine
end

section
/-! PROOFS. The state after reset, the PHASE register, the sparse tables, and the event router. -/

namespace Sys2Proof.Machine

/-- Settles O4: the laws of the sparse tables. -/
theorem tableWritesReadBack : Obligations.TableWritesReadBack := by
  unfold Obligations.TableWritesReadBack
  intro d t u ht hu
  exact ⟨fun n a => Tbl.get_set_same d ht n a, fun n m a hne => Tbl.get_set_other d t hne a, fun n a => Tbl.set_wf d ht n a,
    fun hread => Tbl.ext_wf d ht hu hread⟩

/-- R480: PHASE is the place of the first phase flag that is not set. -/
theorem phase_eq_findIdx (s : State) :
    s.phase = [s.kiln.ph.started, s.kiln.ph.k1, s.kiln.ph.k2, s.kiln.ph.k3, s.kiln.ph.k4, s.kiln.ph.k5, s.kiln.ph.k6].findIdx
      (fun done => done == false) := by
  unfold State.phase
  simp only [List.findIdx_cons, List.findIdx_nil, beq_false]
  repeat' split
  all_goals simp_all

/-- R479: with K6 complete in order, K4 and every phase before it are complete. -/
theorem phase_eq_seven {s : State} (hordered : s.phasesOrdered = true) : s.phase = 7 ↔ s.kiln.ph.k3 = true ∧ s.kiln.ph.k5 = true ∧ s.kiln.ph.k6 = true := by
  simp only [State.phasesOrdered, Phases.ordered] at hordered
  unfold State.phase
  grind

/-- Settles O7. -/
theorem phaseReadsTheLowestOpenPhase : Obligations.PhaseReadsTheLowestOpenPhase := by
  unfold Obligations.PhaseReadsTheLowestOpenPhase
  intro s
  refine ⟨phase_eq_findIdx s, fun hordered hk3 => ?_⟩
  rw [phase_eq_seven hordered]
  exact and_iff_right hk3

/-- Settles O8: an occurrence is the newest record of the log and is delivered from K6 on; a level source makes one at a change alone. -/
theorem sourcesMakeRecords : Obligations.SourcesMakeRecords := by
  unfold Obligations.SourcesMakeRecords
  refine ⟨fun src data s => ⟨fun hidle => occurAt_idle hidle _ _ _ _, fun hruns => occurAt_eq hruns _ _ _ _⟩, fun src data s hwf => ?_⟩
  refine ⟨fun hidle on => levelAt_idle hidle _ _ _ _, fun hruns => ?_⟩
  refine ⟨level_asserted hwf hruns true data, level_asserted hwf hruns false data, level_keeps src true data, fun hoff => ?_, fun hoff => ?_, fun hon => ?_⟩
  · simp [State.level, State.levelAt, hoff]
  · exact ⟨_, level_changes hruns true data hoff, rfl, rfl, rfl, rfl⟩
  · exact ⟨_, level_changes hruns false data hon, rfl, rfl, rfl⟩

/-- Settles O9: one bay's turn in a delivery is `EvBay.take` where its map holds the source. -/
theorem recordsReachSubscribedBays : Obligations.RecordsReachSubscribedBays := by
  unfold Obligations.RecordsReachSubscribedBays
  refine ⟨fun r b s hwf hb => ⟨fun hout => ?_, fun hin hroom => ?_⟩, fun r b s hwf hb hin hfull => ?_⟩
  · rw [deliver_evBay r hwf hb, if_neg (by simp [hout])]
  · rw [deliver_evBay r hwf hb, if_pos hin, EvBay.take, if_neg (by omega)]
  · rw [deliver_evBay r hwf hb, if_pos hin, EvBay.take, if_pos hfull]

/-- Settles O10. -/
theorem eventsTouchTheRouterAlone : Obligations.EventsTouchTheRouterAlone := by
  unfold Obligations.EventsTouchTheRouterAlone
  intro s src data on
  exact ⟨pulse_still s src data, level_still s src on data, fun n hn => level_asserted_other s hn on data, fun n => pulse_asserted s src data n⟩

theorem reset_ready (i : Nat) : State.reset.ready i = false := BitVec.getLsbD_zero

/-- R431: the router's reset table holds the maps of B0 and B1; the other bays read the empty one. -/
theorem reset_evMap {b : Nat} (hb : b < 8) : (State.reset.evBay b).map = defaultMap b := by
  interval_cases b <;> rfl

/-- Settles O5: a table that holds nothing reads its default, and the default of a key is its blank-set value. -/
theorem resetState : Obligations.ResetState := by
  unfold Obligations.ResetState
  exact ⟨⟨rfl, rfl, reset_ready, rfl, rfl, fun _ => rfl, fun _ hb => reset_evMap hb, fun _ _ => rfl, fun _ => rfl, rfl, rfl⟩, rfl⟩

end Sys2Proof.Machine
end

section
/-! PROOFS. R29, R206: the clocks at a sample boundary. -/

namespace Sys2Proof.Machine

/-- What a sample boundary does after it has moved time leaves the clocks alone. -/
theorem sampleBoundary_clock (i : SampleIn) {s : State} (hindex : s.time.indexOn = true) :
    ∃ t, exec (.sampleBoundary i) s = .next t ∧ t.clock = s.readsLatch.tick.timeChanges.clock := by
  refine ⟨_, rfl, ?_⟩
  simp only [hindex, Bool.not_true, Bool.false_eq_true, if_false, presetsAtBoundary_clock, availLatch_clock, countIndex_clock, intervalBits_clock]
  refine (ite_clock (foldl_clock fun _ _ => discTrack_clock) rfl).trans ?_
  simp only [pulses_clock, readsPulses_clock, tempMonitor_clock]
  refine (foldl_clock fun _ _ => conversion_clock).trans ?_
  simp only [creepStarts_clock, secondSamples_clock, firstSamples_clock, testsStart_clock, billsNow_clock]

theorem tick_clock (s : State) :
    s.tick.clock = (s.time.index + 1, s.time.ns + 15625, s.time.mono + 15625, s.cfg.active, s.cfg.shadow) := rfl

/-- The changes of system time leave the index, the elapsed time and the sets alone. -/
theorem timeChanges_clock_parts (s : State) :
    s.timeChanges.time.index = s.time.index ∧ s.timeChanges.time.mono = s.time.mono ∧ s.timeChanges.cfg.active = s.cfg.active
      ∧ s.timeChanges.cfg.shadow = s.cfg.shadow := by
  have h : s.timeChanges.sets = s.sets := timeChanges_sets
  simpa only [State.sets, Prod.mk.injEq] using h

theorem timeChanges_of_none {s : State} (h : s.time.due = []) : s.timeChanges.time.ns = s.time.ns := by
  simp [State.timeChanges, h]

theorem finishHeld_time (s : State) (q : Nat) (a : Res) : (s.finishHeld q a).time = s.time := apart_time (finishHeld_apart s q a)

theorem accReadLatch_time (p : Packet) (pulses : Bytes) (s : State) : (accReadLatch p pulses s).1.time = s.time := by
  apply foldl_inv (g := State.time)
  intro _ _
  rfl

/-- The replies of reads that have come to their latch boundary leave system time, and what waits to change it, alone. -/
theorem readsLatch_time (s : State) : s.readsLatch.time = s.time := by
  apply foldl_inv (g := State.time)
  intro u e
  split
  · exact (finishHeld_time _ _ _).trans (accReadLatch_time _ _ u)
  · rfl

/-- Settles O11: time moves by one sample before all else that falls on the boundary, and nothing of that moves the clocks again. -/
theorem sampleBoundaryAdvancesTime : Obligations.SampleBoundaryAdvancesTime := by
  unfold Obligations.SampleBoundaryAdvancesTime
  intro i s hindex
  obtain ⟨t, hexec, hclock⟩ := sampleBoundary_clock i hindex
  have htick : s.readsLatch.tick.clock = (s.time.index + 1, s.time.ns + 15625, s.time.mono + 15625, s.cfg.active, s.cfg.shadow) := by
    have hlatch : s.readsLatch.clock = s.clock := readsLatch_clock
    simp only [State.clock, Prod.mk.injEq] at hlatch
    obtain ⟨hi, hn, hm, ha, hs⟩ := hlatch
    rw [tick_clock, hi, hn, hm, ha, hs]
  simp only [State.clock, Prod.mk.injEq] at htick hclock
  obtain ⟨hi, hn, hm, ha, hs⟩ := htick
  obtain ⟨ti, tn, tm, ta, ts⟩ := hclock
  obtain ⟨ci, cm, ca, cs⟩ := timeChanges_clock_parts s.readsLatch.tick
  refine ⟨t, hexec, by rw [ti, ci, hi], by rw [tm, cm, hm], by rw [ta, ca, ha], by rw [ts, cs, hs], fun hdue => ?_⟩
  rw [tn, timeChanges_of_none, hn]
  show s.readsLatch.time.due = []
  rw [readsLatch_time, hdue]

end Sys2Proof.Machine
end

section
/-! PROOFS. R34 to R39, R44, R50 to R57: a channel's own sample, and the rows that change a channel's states or a clock driver's. -/

namespace Sys2Proof.Machine

/-! ### A channel's own sample -/

/-- What a comparison of the decimators counts, and what it reloads at the next boundary (R36, R37). -/
def Chan.counted (v : Verdict) (x : Chan) : Chan :=
  match v with
  | .same _ => x
  | .fixed _ badA => { x with reload := if badA then 1 else 2, fixed := bumpAllSat 255 1 x.fixed }
  | .lost => { x with reload := 3, lost := bumpAllSat 255 1 x.lost }

/-- The settling that remains after a sample. -/
def Chan.aged (v : Verdict) (x : Chan) : Chan :=
  { x with settle := if v == .lost then max 40 (x.settle - 1) else x.settle - 1, lostLeft := if v == .lost then 41 else x.lostLeft - 1 }

/-- A channel that is neither settling nor open, stuck or failed. -/
def Chan.clean (x : Chan) : Bool := decide (x.settle = 0) && !x.opn && !x.stuck && !x.frontFailed

/-- The value a channel delivers after a verdict (R38, R39). -/
def Verdict.value (v : Verdict) (clean : Bool) : Int :=
  match v with
  | .same y | .fixed y _ => if clean then y.1 else 0
  | .lost => 0

/-- The tag a channel delivers after a verdict (R39). -/
def Verdict.tag (v : Verdict) (clean settling : Bool) : BitVec 8 :=
  let bad := if settling then tagInvalid ||| tagSettling else tagInvalid
  match v with
  | .same y | .fixed y _ => if clean then (if y.2 then tagOverrange else 0) else bad
  | .lost => bad

/-- The model's choice of value and tag, for a verdict that gives a value. -/
theorem delivered_eq (x z : Chan) (y : Int × Bool) (hopn : z.opn = x.opn) (hstuck : z.stuck = x.stuck) (hfront : z.frontFailed = x.frontFailed) :
    (if 0 < x.settle then { z with y := 0, tag := tagInvalid ||| tagSettling }
      else if z.opn || z.stuck || z.frontFailed then { z with y := 0, tag := tagInvalid }
      else { z with y := y.1, tag := if y.2 then tagOverrange else 0 } : Chan)
      = { z with y := (Verdict.same y).value x.clean, tag := (Verdict.same y).tag x.clean (0 < x.settle) } := by
  rw [hopn, hstuck, hfront]
  by_cases hsettle : 0 < x.settle
  · simp [Verdict.value, Verdict.tag, Chan.clean, hsettle, Nat.ne_of_gt hsettle]
  · cases hsick : x.opn || x.stuck || x.frontFailed
    · simp_all [Verdict.value, Verdict.tag, Chan.clean]
    · have hclean : x.clean = false := by
        simp only [Chan.clean, Bool.and_assoc, ← Bool.not_or, hsick, Bool.not_true, Bool.and_false]
      simp [Verdict.value, Verdict.tag, hclean, hsettle]

/-- The channel after its own sample, as one change of its record. -/
theorem ownSample_chan (i : ChanIn) {s : State} (hwf : Tbl.wf {} s.front.chan) :
    let x := Chan.decimate i (s.chan i.ch.val)
    let v := decimated s.cfg.active i x
    (ownSample i s).chan i.ch.val
      = { (x.counted v).aged v with y := v.value x.clean, tag := v.tag x.clean (0 < x.settle) } := by
  intro x v
  have hx : (s.modChan i.ch (Chan.decimate i)).chan i.ch = x := modChan_same hwf _ _
  have hw : Tbl.wf {} (s.modChan i.ch (Chan.decimate i)).front.chan := modChan_wf hwf _ _
  have hv : decimated (s.modChan i.ch (Chan.decimate i)).cfg.active i x = v := rfl
  have hchan : ∀ {a b : State}, a.front = b.front → a.chan i.ch = b.chan i.ch := fun h => by unfold State.chan; rw [h]
  unfold ownSample
  simp only [hx, hv]
  generalize s.modChan i.ch (Chan.decimate i) = u at hx hw
  cases v with
  | same y =>
    rw [modChan_same (modChan_wf hw _ _), modChan_same hw, hx]
    exact delivered_eq x (x.aged (.same y)) y rfl rfl rfl
  | fixed y badA =>
    have hf : ∀ g, ((u.modChan i.ch g).f0).chan i.ch = g x := fun g => by rw [hchan (f0_front _), modChan_same hw, hx]
    rw [modChan_same (modChan_wf (by rw [f0_front]; exact modChan_wf hw _ _) _ _), modChan_same (by rw [f0_front]; exact modChan_wf hw _ _), hf]
    exact delivered_eq x ((x.counted (.fixed y badA)).aged (.fixed y badA)) y rfl rfl rfl
  | lost =>
    have hfront : ∀ g, (((u.modChan i.ch g).pulse (8 * i.ch + 5)).f1 0).front = (u.modChan i.ch g).front := fun g => by rw [f1_front, pulse_front]
    have hf : ∀ g, (((u.modChan i.ch g).pulse (8 * i.ch + 5)).f1 0).chan i.ch = g x := fun g => by rw [hchan (hfront g), modChan_same hw, hx]
    rw [modChan_same (modChan_wf (by rw [hfront]; exact modChan_wf hw _ _) _ _), modChan_same (by rw [hfront]; exact modChan_wf hw _ _), hf]
    simp [Verdict.value, Verdict.tag, Chan.counted, Chan.aged]

theorem chan_of_front {s t : State} (h : s.front = t.front) (c : Nat) : s.chan c = t.chan c := by unfold State.chan; rw [h]

/-- A channel's own sample changes no other channel. -/
theorem ownSample_chan_other (i : ChanIn) (s : State) {d : Nat} (hd : d ≠ i.ch.val) : (ownSample i s).chan d = s.chan d := by
  unfold ownSample
  simp only
  split <;> simp only [modChan_other _ hd, chan_of_front (f0_front _), chan_of_front (f1_front _ _), chan_of_front (pulse_front _ _ _)]

/-- The event router after a verdict on a channel: a lost sample pulses EV(8c + 5) as an F1, a repaired one counts as an F0 (R36, R37). -/
def State.routerAfter (u : State) (v : Verdict) (c : Nat) : Ev :=
  match v with
  | .same _ => u.ev
  | .fixed y badA => ((u.modChan c (Chan.counted (.fixed y badA))).f0).ev
  | .lost => (((u.modChan c (Chan.counted .lost)).pulse (8 * c + 5)).f1 0).ev

theorem modChan_ev (s : State) (c : Nat) (g : Chan → Chan) : (s.modChan c g).ev = s.ev := rfl

theorem ownSample_ev (i : ChanIn) {s : State} (hwf : Tbl.wf {} s.front.chan) :
    let u := s.modChan i.ch.val (Chan.decimate i)
    let v := decimated s.cfg.active i (Chan.decimate i (s.chan i.ch.val))
    (ownSample i s).ev = u.routerAfter v i.ch.val := by
  intro u v
  have hx : u.chan i.ch = Chan.decimate i (s.chan i.ch.val) := modChan_same hwf _ _
  have hv : decimated u.cfg.active i (Chan.decimate i (s.chan i.ch.val)) = v := rfl
  unfold ownSample
  simp only [show s.modChan i.ch (Chan.decimate i) = u from rfl, hx, hv]
  cases v with
  | same y => rfl
  | fixed y badA =>
    simp only [modChan_ev]
    exact congrArg (fun g => (u.modChan i.ch g).f0.ev) (rfl : _ = Chan.counted (.fixed y badA))
  | lost =>
    simp only [modChan_ev]
    exact congrArg (fun g => (((u.modChan i.ch g).pulse (8 * i.ch + 5)).f1 0).ev) (rfl : _ = Chan.counted .lost)

/-- Settles O12: a channel's own sample is one change of its record and one of the router; the rows of its diagnostics act when their condition holds. -/
theorem channelSamplesAndDiagnostics : Obligations.ChannelSamplesAndDiagnostics := by
  unfold Obligations.ChannelSamplesAndDiagnostics
  refine ⟨fun i s hwf => ?_, fun c d j n l e v s => ?_⟩
  · intro c x tau a b t same useB useA lost clean d u
    have hchan : t.chan c = _ := ownSample_chan i hwf
    have hev : t.ev = u.routerAfter (decimated s.cfg.active i x) c := ownSample_ev i hwf
    have hverdict : decimated s.cfg.active i x = compareDecimators a b i.failA i.failB := rfl
    rw [show Chan.decimate i (s.chan i.ch.val) = x from rfl, hverdict] at hchan
    have hother := fun d hd => ownSample_chan_other i s (d := d) hd
    have hclean : x.clean = clean := rfl
    rw [hchan, hev, hverdict, hclean]
    by_cases hsame : a.1 = b.1
    · have hsameTrue : same = true := decide_eq_true hsame
      simp only [compareDecimators, if_pos hsame, useB, useA, lost, d, hsameTrue]
      refine ⟨⟨rfl, rfl⟩, ?_, ?_, ?_, ?_, ?_, ?_, rfl, hother⟩ <;> simp [Verdict.value, Verdict.tag, Chan.aged, Chan.counted]
    · have hsameFalse : same = false := decide_eq_false hsame
      simp only [compareDecimators, if_neg hsame, useB, useA, lost, d, hsameFalse]
      cases i.failA <;> cases i.failB
      all_goals refine ⟨⟨rfl, rfl⟩, ?_, ?_, ?_, ?_, ?_, ?_, rfl, hother⟩ <;> simp [Verdict.value, Verdict.tag, Chan.aged, Chan.counted]
  · dsimp only
    refine ⟨?_, ?_, ?_, ?_, ?_, ?_, ?_, ?_, ?_, ?_, ?_⟩
    · intro hpair hlow hrun
      show execRangeSwitchDown .. = _
      simp [execRangeSwitchDown, hpair, hlow, hrun]
    · exact fun hovr hrun => if_pos (by simp [hovr, hrun])
    · exact fun hruns hrun => if_pos (by simp [hruns, hrun])
    · exact fun hruns hcourse hne hrun => if_pos (by simp [*])
    · exact fun hstuck hquiet hfault => if_pos (by simp [*])
    · intro hruns hkey
      have hon : (s.chanRuns c && s.keyOn (kC c 0x0A)) = true := by simp [hruns, hkey]
      refine ⟨fun hfirst => ?_, fun hmore => ?_, fun hopen hquiet => ?_⟩
      · show execOpenTest .. = _
        simp [execOpenTest, hon, hfirst]
      · show execOpenTest .. = _
        simp [execOpenTest, hon, hmore]
      · show execOpenTest .. = _
        simp [execOpenTest, hon, hopen, hquiet]
    · intro hruns hz hdis
      exact (if_pos (by simp [*])).trans (apply_ite Host.Outcome.next _ _ _).symm
    · exact fun hz hdue => if_pos (by simp [*])
    · exact fun hfault hz hagree => if_pos (by simp [*])
    · intro hkey hlong hruns hfoot hverdict
      have hjudged : (decide (s.key (kC c 0x0B) = 0) || decide (e.seconds < s.key (kC c 0x0B)) || !s.chanRuns c || s.onFooting (courseOf c)) = false := by
        simp [hruns, hfoot]; omega
      show execPolarityDwell .. = _
      simp [execPolarityDwell, hjudged, hverdict]
    · intro hruns hsettled hall hused
      exact congrArg Host.Outcome.next (if_pos (by simpa [hruns, hsettled, hused] using hall))

end Sys2Proof.Machine
end

section
/-! PROOFS. R64 to R94, R124: half-cycles and windows close at their boundaries, and the marks of the metrology follow their conditions. -/

namespace Sys2Proof.Machine

/-- A change of a voltage set matters only by what it makes of the present one. -/
theorem modVs_congr {s : State} {n : Nat} {g h : VSet → VSet} (heq : g (s.vs n) = h (s.vs n)) : s.modVs n g = s.modVs n h := by
  unfold State.vs at heq
  simp only [State.modVs, Tbl.upd, heq]

section
variable {v : Fin 8} {vote : VoteIn} {s : State}

/-- The oldest crossing found is decided once D_zc has passed since it (R64, R65). -/
theorem execZcCrossingDecide_of_due (hmeters : s.meters = true) {f : Found} {t : List Found} (hfound : (s.vs v).zc.found = f :: t)
    (hon : vsEnabled s.cfg.active v = true)
    (hdue : (s.bndAt (vsWide s.cfg.active v) f.x.at_ f.x.rising false).u + dzcU (vsWide s.cfg.active v) ≤ 2 * s.time.index + 2) :
    execZcCrossingDecide v vote s = .next (
      let b := s.bndAt (vsWide s.cfg.active v) f.x.at_ f.x.rising false
      let ok := s.crossingOk v f && s.decidable (vsWide s.cfg.active v) b.u
      let u := s.modVs v fun y => { y with zc := y.zc.decided ok f }
      if ok then (u.setVote v vote).boundary v b else u) := by
  simp [execZcCrossingDecide, hmeters, hfound, hon, Nat.not_lt.mpr hdue]

/-- The oldest window that has ended reaches its consumers once its filter taps have (R94). -/
theorem execWindowEnd_of_due (hmeters : s.meters = true) {w : WinDone} {t : List WinDone} (hdone : (s.vs v).done = w :: t)
    (hdue : w.cut = true ∨ w.stop.u + 206 ≤ 2 * s.time.index) :
    execWindowEnd v vote s = .next (
      let s0 := s.modVs v fun y => { y with done := t }
      s0.under (s0.setAt w.stop.u) fun s =>
        let s1 := s.setVote v vote
        s1.windowEnd v w ((setCourses s.cfg.active v).filter fun k => !s.onFooting k && s1.onFooting k)) := by
  have hready : (!w.cut && !s.tapsReached w) = false := by
    rcases hdue with hcut | htaps
    · simp [hcut]
    · simp [State.tapsReached, htaps]
  simp [execWindowEnd, hmeters, hdone, hready]

end

/-- Settles O14: each row acts on the oldest of what waits, or on its mark, when its condition holds. -/
theorem boundariesMarksAndWindows : Obligations.BoundariesMarksAndWindows := by
  unfold Obligations.BoundariesMarksAndWindows
  refine ⟨fun v vote s => ?_, fun c v m s => ?_⟩
  · dsimp only
    intro hmeters
    refine ⟨fun f t hfound hon hdue => ⟨fun hok => ?_, fun hbad => ?_⟩, fun b hon hsynth hdec => ?_, fun w t hdone hdue => ?_⟩
    · show execZcCrossingDecide .. = _
      rw [execZcCrossingDecide_of_due hmeters hfound hon hdue]
      dsimp only
      rw [if_pos hok]
      refine congrArg (fun u : State => Host.Outcome.next ((u.setVote v vote).boundary v _)) (modVs_congr ?_)
      simp [Zc.decided, hfound, hok]
    · show execZcCrossingDecide .. = _
      rw [execZcCrossingDecide_of_due hmeters hfound hon hdue]
      dsimp only
      rw [if_neg (by simp [hbad])]
      refine congrArg Host.Outcome.next (modVs_congr ?_)
      simp [Zc.decided, hfound, hbad]
    · show execSynthBoundary .. = _
      simp [execSynthBoundary, hmeters, hon, hsynth, hdec]
    · show execWindowEnd .. = _
      rw [execWindowEnd_of_due hmeters hdone hdue]
      rfl
  · dsimp only
    intro hmeters
    refine ⟨fun i hmp hcreep hrun => ?_, fun i hmp hcreep hrun => ?_, fun hoc hrun => ?_, fun herr hrun => ?_, fun herr hrun => ?_,
      fun hmn hrun => ?_, fun hmn hrun => ?_, fun q t hdue hnow => ?_⟩
    · show execCreepEnter .. = _
      simp [execCreepEnter, hmeters, hmp, hcreep, hrun]
    · show execCreepExit .. = _
      simp [execCreepExit, hmeters, hmp, hcreep, hrun]
    · show execOvercurrentRelease .. = _
      simp [execOvercurrentRelease, hmeters, hoc, hrun]
    · show execSequenceErrorAssert .. = _
      simp [execSequenceErrorAssert, hmeters, herr, hrun]
    · show execSequenceErrorClear .. = _
      simp [execSequenceErrorClear, hmeters, herr, hrun]
    · show execMissingNeutralAssert .. = _
      simp [execMissingNeutralAssert, hmeters, hmn, hrun]
    · show execMissingNeutralClear .. = _
      simp [execMissingNeutralClear, hmeters, hmn, hrun]
    · show execReactiveTransfer .. = _
      simp [execReactiveTransfer, hmeters, hdue, hnow]

end Sys2Proof.Machine
end

section
/-! PROOFS. Commands that start, read and reply: what acceptance leaves of the state, and a command's answer in one equation. -/

namespace Sys2Proof.Machine

/-! ### What acceptance leaves as it is (R390): all but the sessions -/

section
variable (s : State) (p : Packet)

@[simp] theorem touch_freeCount : (s.touch p).freeCount = s.freeCount := rfl
@[simp] theorem touch_rtc : (s.touch p).rtc = s.rtc := rfl
@[simp] theorem touch_front : (s.touch p).front = s.front := rfl
@[simp] theorem touch_metro : (s.touch p).metro = s.metro := rfl
@[simp] theorem touch_pq : (s.touch p).pq = s.pq := rfl
@[simp] theorem touch_acc : (s.touch p).acc = s.acc := rfl
@[simp] theorem touch_tiles : (s.touch p).tiles = s.tiles := rfl
@[simp] theorem touch_aux : (s.touch p).aux = s.aux := rfl
@[simp] theorem touch_bill : (s.touch p).bill = s.bill := rfl
@[simp] theorem touch_plc : (s.touch p).plc = s.plc := rfl
@[simp] theorem touch_radio : (s.touch p).radio = s.radio := rfl
@[simp] theorem touch_ledger : (s.touch p).ledger = s.ledger := rfl
@[simp] theorem touch_mortar : (s.touch p).mortar = s.mortar := rfl
@[simp] theorem touch_win : (s.touch p).win = s.win := rfl
@[simp] theorem touch_ev : (s.touch p).ev = s.ev := rfl
@[simp] theorem touch_cfg : (s.touch p).cfg = s.cfg := rfl
@[simp] theorem touch_store : (s.touch p).store = s.store := rfl
@[simp] theorem touch_power : (s.touch p).power = s.power := rfl
@[simp] theorem touch_kiln : (s.touch p).kiln = s.kiln := rfl
@[simp] theorem touch_fault : (s.touch p).fault = s.fault := rfl
@[simp] theorem touch_pins : (s.touch p).pins = s.pins := rfl
@[simp] theorem touch_key (k : Nat) : (s.touch p).key k = s.key k := rfl
@[simp] theorem touch_keyOn (k : Nat) : (s.touch p).keyOn k = s.keyOn k := rfl

end

/-- R13: a row of the measurement in a device that meters. -/
theorem of_meters {s : State} (hmeters : s.meters = true) (o : Host.Outcome State Fault Refusal) : (if (!s.meters) = true then .next s else o) = o :=
  if_neg (by simp [hmeters])

/-! ### A command's answer -/

section
variable {code n : Nat} {res : List (Nat × Nat)} {p : Packet} {s u : State} {r : Res}

/-- A started command whose whole body, block check included, replies. -/
theorem command_starts_replies {body : Body} (hstarts : Starts code p s = true) (hbody : body ((s.touch p).ctx p) p (s.touch p) = (u, .reply r)) :
    command code body p s = u.answer code p r := by
  rw [command_starts hstarts, hbody, finish]

/-- A started command whose body replies. -/
theorem command_replies {f : Body} (hstarts : Starts code p s = true) (hblock : Block n res p = true)
    (hbody : f ((s.touch p).ctx p) p (s.touch p) = (u, .reply r)) : command code (fixedBody n res f) p s = u.answer code p r := by
  rw [command_fixed hstarts hblock, hbody, finish]

/-- A started command whose body holds its queue. -/
theorem command_holds {f : Body} {k : HoldKind} (hstarts : Starts code p s = true) (hblock : Block n res p = true)
    (hbody : f ((s.touch p).ctx p) p (s.touch p) = (u, .hold k)) :
    command code (fixedBody n res f) p s = u.setBusy (queueId p.bay p.queue) (some ⟨⟨code, p, s.time.mono⟩, k⟩) := by
  rw [command_fixed hstarts hblock, hbody, finish]

/-- A started command of the head end that is not shed (R347) and replies. -/
theorem command_unshed_replies {push : Bool} {f : Body} (hstarts : Starts code p s = true) (hunshed : Unshed push p s = true)
    (hblock : Block n res p = true) (hbody : f ((s.touch p).ctx p) p (s.touch p) = (u, .reply r)) :
    command code (shedBody push (fixedBody n res f)) p s = u.answer code p r :=
  (command_unshed hstarts hunshed).trans (command_replies hstarts hblock hbody)

/-- A started command that fills a bulk descriptor and replies. -/
theorem command_bulkOut_replies {f : Body} (hstarts : Starts code p s = true) (hblock : BulkBlock 1 n res p = true)
    (hbody : f ((s.touch p).ctx p) p (s.touch p) = (u, .reply r)) : command code (bulkOutBody n res f) p s = u.answer code p r := by
  rw [command_bulkOut hstarts hblock, hbody, finish]

/-- A started command that takes the data of a KIND 0 descriptor and replies. -/
theorem command_bulkIn_replies {f : Bytes → Body} {d : BulkDesc} (hstarts : Starts code p s = true) (hblock : BulkBlock 0 n res p = true)
    (hdesc : p.desc = some d) (hkind : d.kind = 0) (hbody : f (fitBytes d.length p.bulk) ((s.touch p).ctx p) p (s.touch p) = (u, .reply r)) :
    command code (bulkInBody n res f) p s = u.answer code p r := by
  rw [command_bulkIn hstarts hblock hdesc hkind, hbody, finish]

/-- A started command that only reads. -/
theorem command_reads {f : Ctx → Packet → State → Res} (hstarts : Starts code p s = true) (hblock : Block n res p = true)
    (hread : f ((s.touch p).ctx p) p (s.touch p) = r) :
    command code (fixedBody n res (readBody f)) p s = (s.touch p).answer code p r := by
  refine command_replies hstarts hblock ?_
  rw [readBody, hread]

end

end Sys2Proof.Machine
end

section
/-! PROOFS. R55, R87 to R90, R101, R110, R117 to R119, R411: the metering and power quality reads. -/

namespace Sys2Proof.Machine

/-- A read of blocks channel by channel, of channels that all qualify (R406, R411). -/
theorem command_chanBlockRead {code : Nat} {p : Packet} {s : State} {ok : KeySet → Nat → Bool} {blk : State → Nat → Bytes}
    (hstarts : Starts code p s = true) (hblock : Block 8 [(6, 2)] p = true)
    (hall : (maskList 48 (fld p.params 0 8)).all (ok s.cfg.active) = true) :
    command code (chanBlockRead ok blk) p s = (s.touch p).answer code p
      (Res.okOr ((s.touch p).anyDegraded ((maskList 48 (fld p.params 0 8)).map courseOf)) ((maskList 48 (fld p.params 0 8)).flatMap (blk (s.touch p)))) := by
  refine command_reads hstarts hblock ?_
  simp only [touch_cfg, hall, Bool.not_true, Bool.false_eq_true, if_false]

/-- Settles O15: what a read returns does not depend on the sessions, which acceptance alone changes. -/
theorem meteringReadsReturnTheirBlocks : Obligations.MeteringReadsReturnTheirBlocks := by
  unfold Obligations.MeteringReadsReturnTheirBlocks
  intro p s
  dsimp only
  refine ⟨fun hstarts hblock hvs hms => ?_, fun hblock hused => ⟨fun hstarts => ?_, fun hstarts => ?_, fun hstarts hwide => ?_⟩,
    fun hstarts hblock => ?_, fun hstarts hblock hv hpq hl hw => ?_, fun hstarts hblock hlow hhigh => ?_⟩
  · refine congrArg Host.Outcome.next (command_reads hstarts hblock ?_)
    simp only [touch_cfg, hvs, hms]
    rfl
  · exact congrArg Host.Outcome.next (command_chanBlockRead hstarts hblock hused)
  · exact congrArg Host.Outcome.next (command_chanBlockRead hstarts hblock hused)
  · refine congrArg Host.Outcome.next (command_chanBlockRead hstarts hblock ?_)
    simp only [List.all_eq_true] at hused ⊢
    exact fun c hc => by simp only [hused c hc, hwide c hc, Bool.and_self]
  · refine congrArg Host.Outcome.next (command_replies hstarts hblock ?_)
    rw [ctx_bay]
    rfl
  · refine congrArg Host.Outcome.next (command_reads hstarts hblock ?_)
    rw [if_neg (by simp [hv, hpq]), if_neg (by omega), if_neg (by omega)]
    rfl
  · refine congrArg Host.Outcome.next (command_reads hstarts hblock ?_)
    rw [if_neg (by omega)]
    rfl

end Sys2Proof.Machine
end

section
/-! PROOFS. R102 to R118: the ticks of power quality. -/

namespace Sys2Proof.Machine

@[simp] theorem length_leBytes (n v : Nat) : (leBytes n v).length = n := by
  induction n generalizing v with
  | zero => rfl
  | succ n ih => simp [leBytes, ih]

@[simp] theorem length_zeros (n : Nat) : (zeros n).length = n := List.length_replicate

/-- Values laid out one after another, `n` bytes each. -/
theorem length_flatMap_leBytes (n : Nat) (l : List Nat) : (l.flatMap (leBytes n)).length = n * l.length := by
  induction l with
  | nil => rfl
  | cons a l ih => simp only [List.flatMap_cons, List.length_append, length_leBytes, ih, List.length_cons]; ring

/-- A field inside a byte string, as the part between what stands before it and after it. -/
theorem slice_append (a b c : Bytes) : slice (a ++ b ++ c) a.length b.length = b := by
  simp [slice]

/-- The block of a band interval (R118): START, FLAGS, CHANNEL, 35 values. -/
theorem bandBlock_parts (start flags ch : Nat) (vals : List Nat) (hvals : vals.length = 35) :
    let b := leBytes 8 start ++ leBytes 2 flags ++ leBytes 1 ch ++ zeros 5 ++ vals.flatMap (leBytes 4) ++ zeros 4
    b.length = 160 ∧ b.take 8 = leBytes 8 start ∧ slice b 16 140 = vals.flatMap (leBytes 4) := by
  refine ⟨by simp only [List.length_append, length_leBytes, length_zeros, length_flatMap_leBytes, hvals], ?_, ?_⟩
  · simp only [List.append_assoc]
    rw [List.take_left' (length_leBytes 8 start)]
  · have hbody : (vals.flatMap (leBytes 4)).length = 140 := by rw [length_flatMap_leBytes, hvals]
    have hhead : (leBytes 8 start ++ leBytes 2 flags ++ leBytes 1 ch ++ zeros 5).length = 16 := by simp
    rw [← hbody, ← hhead, slice_append]

/-- The record of a rapid voltage change that ends (R108). -/
def State.rvcRecord (s : State) (v : Nat) (r : Rvc) : PqRec :=
  let n := nRvc s.cfg.active v
  let ends := (s.pqValid v).filterMap fun c => ((s.pqc c).hist[n - 1]?).map fun e => (e.2.1, e.2.2)
  let fin := ends.foldl (fun a e => if a.1 < e.1 then e else a) (0, 0)
  let y := s.pqc (s.rvcChannel v)
  let post := (histSum n y.hist).elim 0 fun t => (roundDiv t n).toNat
  { seq := s.pq.seq, type := 3, vset := v, status := r.status, startIdx := r.startIdx, startUs := r.startUs, endIdx := fin.1, endUs := s.us fin.2,
    extreme := y.ext, uRef := uDin s.cfg.active v / 1000, initCh := r.initCh, extCh := s.rvcChannel v, thresh := s.cfg.active.get (kPq v 6),
    duMax := satU 32 y.duMax, duSs := satS 32 ((post : Int) - y.uPre.getD 0) }

/-- R108: with every channel steady inside the hysteresis the change ends with its record. -/
theorem execRvcEnd_of_steady {v : Fin 8} {s : State} {r : Rvc} (hmeters : s.meters = true) (hrvc : (s.mon v).rvc = some r)
    (hsteady : s.allSteady v (s.cfg.active.get (kPq v 6) - s.cfg.active.get (kPq v 7)) = true) :
    execRvcEnd v s = .next (((s.pqAdd v (s.rvcRecord v r)).modMon v fun m => { m with rvc := none, armed := true }).level (512 + 12 * v.val + 3) false) := by
  simp only [execRvcEnd, hmeters, hrvc, hsteady, Bool.not_true, Bool.false_eq_true, if_false]
  rfl

/-- Settles O16: each tick acts when it is due; the record of a rapid voltage change and the block of a band interval are laid out field by field. -/
theorem powerQualityIntervalsAndEventsEnd : Obligations.PowerQualityIntervalsAndEventsEnd := by
  unfold Obligations.PowerQualityIntervalsAndEventsEnd
  intro v c s
  dsimp only
  intro hmeters
  refine ⟨fun r hrvc hsteady => ?_, fun hpq harm hrvc hdip hswell hsteady => ?_, fun hvs hk hdone hfrom => ?_, fun hpq hvalid => ⟨fun hopen htick => ?_,
    fun hopen htick => ?_, fun hopen hend hdone => ?_, fun hend => ?_⟩, fun seconds hsec hfrom hset => ?_, fun hvset hwide hstep n hn => ?_⟩
  · exact ⟨s.rvcRecord v r, _, execRvcEnd_of_steady hmeters hrvc hsteady, rfl, rfl, rfl, rfl, rfl, rfl, rfl, rfl, rfl, rfl, rfl⟩
  · show execRvcArm .. = _
    simp [execRvcArm, hmeters, hpq, harm, hrvc, hdip, hswell, hsteady]
  · show execFreq10sEnd .. = _
    rw [execFreq10sEnd, if_neg (by simp [hmeters])]
    dsimp only
    generalize (s.time.ns - _) / (10 * second) = k at *
    rw [if_neg (by simp only [hvs, Bool.not_true, Bool.false_or, Bool.or_eq_true, decide_eq_true_eq]; omega)]
    simp only [apply_ite Host.Outcome.next, Bool.or_eq_true, Bool.not_eq_true', decide_eq_true_eq, List.isEmpty_iff, or_assoc]
  · show execAgg10minTick .. = _
    simp [execAgg10minTick, hmeters, hpq, hvalid, hopen, htick]
  · show execAgg2hTick .. = _
    simp [execAgg2hTick, hmeters, hpq, hvalid, hopen, htick, PqMon.ended2h]
  · have hended : ((s.mon v).a10.open_ && ((s.mon v).a10.cut.isSome || (s.mon v).a10.tick != s.tickOf s.time.ns) && s.a10Done v) = true := by
      simpa [hopen, hdone] using hend
    show execAgg10minTick .. = _
    simp only [execAgg10minTick, hmeters, hpq, hvalid, hended, bne_self_eq_false, Bool.not_true, Bool.or_false, Bool.false_eq_true, if_false, if_true,
      Bool.and_eq_true, Bool.not_eq_true']
    exact (apply_ite Host.Outcome.next _ _ _).symm
  · show execAgg2hTick .. = _
    simp only [execAgg2hTick, hmeters, hpq, hvalid, hend, Bool.not_true, Bool.or_false, Bool.false_eq_true, if_false, if_true,
      Bool.and_eq_true, Bool.not_eq_true']
    exact (apply_ite Host.Outcome.next _ _ _).symm
  · show execFlickerSettled .. = _
    simp [execFlickerSettled, hmeters, hsec, hfrom, hset]
  · obtain ⟨w, hw⟩ := hvset
    have hdue : (!courseWide s.cfg.active (courseOf c) || decide (s.time.index - s.time.ns % 200000000 / 15625 < s.time.stepAt + 12800)
        || n + 1 != s.time.ns / 200000000) = false := by
      simp [hwide, hn, Nat.not_lt.mpr hstep]
    have hrow : exec (.bandIntervalEnd c n) s = execBandIntervalEnd c n s := rfl
    simp only [hrow, execBandIntervalEnd, hmeters, hw, hdue, Bool.not_true, Bool.false_eq_true, if_false]
    refine ⟨_, rfl, ?_⟩
    refine ⟨(bandBlock_parts _ _ _ _ (by simp)).1, (bandBlock_parts _ _ _ _ (by simp)).2.1,
      fun hfull hclean => (bandBlock_parts _ _ _ _ (by simp)).2.2.trans ?_⟩
    have hgood : ((s.chm c).raw.filter fun r => decide (2 * (s.time.index - s.time.ns % 200000000 / 15625 - 12800) ≤ r.u)
        && decide (r.u < 2 * (s.time.index - s.time.ns % 200000000 / 15625))).any (·.bad) = false :=
      List.any_eq_false.mpr fun r hr => by simp [(hclean r hr).1]
    have hown : ((s.chm c).raw.filter fun r => decide (2 * (s.time.index - s.time.ns % 200000000 / 15625 - 12800) ≤ r.u)
        && decide (r.u < 2 * (s.time.index - s.time.ns % 200000000 / 15625))).any (·.foot) = false :=
      List.any_eq_false.mpr fun r hr => by simp [(hclean r hr).2]
    simp only [hgood, hown, hfull, bne_self_eq_false, Bool.or_false, Bool.false_eq_true, if_false, List.flatMap_map]

end Sys2Proof.Machine
end

section
/-! PROOFS. R129 to R133: the accumulators by command. -/

namespace Sys2Proof.Machine

/-- The boundary at which the only held command is a read that has its pulse outputs (R130). -/
theorem readsLatch_of_single {s : State} {q n : Nat} {p : Packet} {pulses : Bytes}
    (hbusy : s.host.busy = [(q, some ⟨⟨0x0402, p, n⟩, .read (some pulses)⟩)]) :
    s.readsLatch = (accReadLatch p pulses s).1.finishHeld q (accReadLatch p pulses s).2 := by
  unfold State.readsLatch
  rw [hbusy]
  rfl

/-- The boundary at which the only held command is a preset (R131). -/
theorem presetsAtBoundary_of_single {s u : State} {q n : Nat} {p : Packet} {r : Res}
    (hbusy : s.host.busy = [(q, some ⟨⟨0x0401, p, n⟩, .preset⟩)])
    (happly : applyPreset p { s with acc.presets := [] } = (u, .reply r)) : s.presetsAtBoundary = u.finishHeld q r := by
  unfold State.presetsAtBoundary
  simp only [hbusy, List.foldl_cons, List.foldl_nil]
  rw [if_pos (by rfl), happly]

/-- Settles O17: a read and a preset hold their queue until the boundary, where each acts on what the targets hold then. -/
theorem accumulatorsAreReadAndPreset : Obligations.AccumulatorsAreReadAndPreset := by
  unfold Obligations.AccumulatorsAreReadAndPreset
  intro p pulses s
  dsimp only
  refine ⟨fun hstarts hblock => ?_, rfl, fun n hbusy => readsLatch_of_single hbusy, fun hstarts hblock htarget => ?_,
    fun n r u hbusy happly => presetsAtBoundary_of_single hbusy happly, fun hreg => ⟨fun hval hwrap => ?_, fun hother => ?_⟩,
    fun hpulse => ⟨fun hval hwrap => ?_, fun hother => ?_⟩, fun hwritable => ?_⟩
  · exact congrArg Host.Outcome.next (command_holds hstarts hblock rfl)
  · refine congrArg Host.Outcome.next (command_holds hstarts hblock ?_)
    rw [if_neg, if_neg, if_neg (by omega), if_neg (by omega)]
    · simp; omega
    · simp only [touch_cfg]
      rcases htarget with ⟨hreg, hmp, hon⟩ | ⟨hpulse, -⟩
      · simp [hmp, hon]
      · omega
  · simp only [applyPreset, if_pos hreg, hval, hwrap]
    rfl
  · simp only [applyPreset, if_pos hreg, if_neg hother]
  · simp only [applyPreset, if_neg (show ¬ fld p.params 1 1 < 16 by omega), hval, hwrap]
    rfl
  · simp only [applyPreset, if_neg (show ¬ fld p.params 1 1 < 16 by omega), if_neg hother]
  · show execAccCheckpoint .. = _
    simp [execAccCheckpoint, State.checkpoint, hwritable]

end Sys2Proof.Machine
end

section
/-! PROOFS. R136 to R148: pulse outputs, the disconnect's feedback, and the dual-channel inputs. -/

namespace Sys2Proof.Machine

/-- What settles of an input after a step of its timers (R141 to R144). -/
theorem diSettle_timing {s : State} {d t : Nat} (htimer : (s.di d).timer = some t) :
    s.diSettle d = if tDisc s.cfg.active d ≤ t then s.diLatch d else if (s.di d).agrees (s.keyOn (kDi d 1)) then s.diAccept d else s := by
  simp only [State.diSettle, htimer]

theorem diSettle_resting {s : State} {d : Nat} (htimer : (s.di d).timer = none) :
    s.diSettle d = if (s.di d).agrees (s.keyOn (kDi d 1)) && !(s.di d).latched then s.diAccept d else s := by
  simp only [State.diSettle, htimer]

/-- The value an input takes pulses its change (R141). -/
theorem diAccept_eq (s : State) (d : Nat) :
    s.diAccept d = (let u := s.modDi d fun y => { y with timer := none, state := (s.di d).a == .closed }
      if ((s.di d).a == .closed) = (s.di d).state then u else u.pulse (640 + 4 * d)) := by
  unfold State.diAccept
  by_cases h : ((s.di d).a == .closed) = (s.di d).state <;> simp [h]

theorem touch_di (s : State) (p : Packet) (d : Nat) : (s.touch p).di d = s.di d := rfl

/-- Settles O18: each row acts when its timer or run has come to its limit. -/
theorem pulseOutputsAndDiscreteInputs : Obligations.PulseOutputsAndDiscreteInputs := by
  unfold Obligations.PulseOutputsAndDiscreteInputs
  refine ⟨fun q m us s => ?_, fun d a b onB p s => ?_⟩
  · dsimp only
    intro hmeters
    refine ⟨fun e hstop hend => ?_, fun hon hshort hlimit => ?_, fun hshort hdue => ⟨?_, ?_⟩, fun hmp => ?_⟩
    · show execPulseWidthEnd .. = _
      simp [execPulseWidthEnd, hmeters, hstop, hend]
    · exact (of_meters hmeters _).trans (if_pos (by simp [hon, hshort, hlimit]))
    · show execPulseShortRetry .. = _
      simp [execPulseShortRetry, hmeters, hshort, hdue]
    · show execPulseShortRetry .. = _
      simp [execPulseShortRetry, hmeters, hshort, hdue]
    · show execDiscFeedbackConfirm .. = _
      simp only [execDiscFeedbackConfirm, hmeters, hmp, Bool.not_true, Bool.false_eq_true, if_false] <;> rfl
  · dsimp only
    refine ⟨fun hmeters hon => ⟨?_, fun hrun hone hdiffers => ?_⟩, fun t htimer => ⟨fun hdue => ?_, fun hwait hagree => ?_, fun hwait hagree => ?_⟩,
      fun htimer => diSettle_resting htimer, diAccept_eq s d, fun t hmeters htimer hdue => ?_, fun hmeters hlatched hagree hdue => ?_,
      fun hstarts hblock hd hon => ⟨fun hready => ?_, fun hready => ?_⟩, fun hstarts hblock => ?_⟩
    · show execDiClassify .. = _
      simp only [execDiClassify, hmeters, hon, Bool.not_true, Bool.false_eq_true, if_false]
    · show execDiDebounce .. = _
      rw [execDiDebounce, if_neg (by simp [hmeters])]
      dsimp only
      rw [if_pos (by simp [hon, hrun, hone, hdiffers])]
    · rw [diSettle_timing htimer, if_pos hdue]
    · rw [diSettle_timing htimer, if_neg (Nat.not_le.mpr hwait)]
      exact if_pos hagree
    · rw [diSettle_timing htimer, if_neg (Nat.not_le.mpr hwait)]
      exact if_neg (Bool.not_eq_true _ ▸ hagree)
    · show execDiDiscrepancyLatch .. = _
      simp [execDiDiscrepancyLatch, hmeters, htimer, hdue, State.diLatch]
    · show execDiClearReady .. = _
      rw [execDiClearReady, if_neg (by simp [hmeters])]
      exact if_pos (by simp only [hlatched, Bool.true_and, Bool.and_eq_true, decide_eq_true_eq]; exact ⟨hagree, hdue⟩)
    · refine congrArg Host.Outcome.next (command_replies hstarts hblock ?_)
      dsimp only
      rw [hd, if_neg (by simp [hon]), if_neg (by rw [touch_di, hready]; decide)]
      rfl
    · refine congrArg Host.Outcome.next (command_replies hstarts hblock ?_)
      dsimp only
      rw [hd, if_neg (by simp [hon]), if_pos (by rw [touch_di, hready]; rfl)]
    · exact congrArg Host.Outcome.next (command_reads hstarts hblock rfl)

end Sys2Proof.Machine
end

section
/-! PROOFS. R157 to R174: substitutions, falls, rebuilds and returns of the bonds, and the tile reports. -/

namespace Sys2Proof.Machine

/-- Settles O19: each row acts on the substitution of its bond at its stage. -/
theorem tilesJoinBySubstitution : Obligations.TilesJoinBySubstitution := by
  unfold Obligations.TilesJoinBySubstitution
  intro k votes reached x s hsub
  dsimp only
  refine ⟨fun hopen hyes hfrom hto => ?_, fun hopen hno hend => ?_, fun hvoted hjoining hdue => ?_, fun hfrozen => ?_, fun hvoted hdue => ⟨fun hfrozen himage => ?_,
    fun hnot => ?_⟩⟩
  · show execSubstWardenVote .. = _
    rw [execSubstWardenVote, hsub]
    dsimp only
    rw [if_neg (by simp [hopen]), if_pos (by simp only [hfrom, hto, and_self, decide_true, Bool.and_true, decide_eq_true_eq]; exact hyes)]
  · show execSubstWardenVote .. = _
    rw [execSubstWardenVote, hsub]
    dsimp only
    rw [if_neg (by simp [hopen]), if_neg (by simp only [Bool.and_eq_true, decide_eq_true_eq]; omega), if_pos hend]
  · show execSubstCheckpoint .. = _
    rw [execSubstCheckpoint, hsub]
    exact if_pos (by simp [hvoted, hjoining, hdue])
  · show execSubstImageArrived .. = _
    rw [execSubstImageArrived, hsub]
    exact if_pos hfrozen
  · show execSubstJoin .. = _
    rw [execSubstJoin, hsub]
    dsimp only
    rw [if_pos (by simp [hvoted, hdue]), if_pos (by simp [hfrozen, himage])]
    rfl
  · show execSubstJoin .. = _
    rw [execSubstJoin, hsub]
    dsimp only
    rw [if_pos (by simp [hvoted, hdue]), if_neg (by simpa only [Bool.and_eq_true, and_assoc] using hnot)]

/-- A bond whose members have all joined can rebuild (R165). -/
theorem execBondRebuildStart_of_able {k : Fin 6} {s : State} (hmembers : 2 ≤ (s.bond k).members.length) (hidle : (s.bond k).rebuildAt = none)
    (hst : (s.bond k).st = .footing ∨ (s.bond k).st = .rebuilding)
    (hall : ∀ m ∈ (s.bond k).members, (s.tile m).st = .joining ∨ ((s.tile m).st = .active ∧ (s.tile m).role = .metrology)) :
    execBondRebuildStart k s =
      let go (i : Nat) : State :=
        (((s.bond k).members.foldl (fun (s : State) t => s.modTile t fun x => { x with role := .metrology, st := .active, course := some k.val }) s).modBond k
          fun b => { b with st := .rebuilding, rebuildAt := some i }).tileLevelsNow
      if (s.bond k).atStart then (if s.courseSettled k && (s.bond k).readyAt ≤ s.time.index then .next (go s.time.index) else .next s)
      else match s.courseBnd k with
        | some (_, x) => if (s.bond k).readyAt ≤ x.index then .next (go x.index) else .next s
        | none => .next s := by
  have hjoined : ((s.bond k).members.all fun t => (s.tile t).st == .joining || ((s.tile t).st == .active && (s.tile t).role == .metrology)) = true := by
    simpa [List.all_eq_true] using hall
  have hstate : ((s.bond k).st == .footing || (s.bond k).st == .rebuilding) = true := by simpa using hst
  rw [execBondRebuildStart]
  dsimp only
  rw [if_neg (by rw [hjoined, hstate]; simp [hmembers, hidle])] <;> rfl

/-- The sums of a course's elements begin anew at a boundary: time does not move. -/
theorem foldl_rebase_time (ms : List Nat) (u : Nat) (s : State) :
    (ms.foldl (fun (s : State) m => (mpElems s.cfg.active m).foldl (fun s d => s.modElem (4 * m + d.e) (Elem.rebase u)) s) s).time = s.time := by
  apply foldl_inv (g := State.time)
  intro b m
  apply foldl_inv (g := State.time)
  intro _ _
  rfl

/-- Cutting the windows of a course and opening the next at its boundary moves no index. -/
theorem cutWindows_openWindow_index (s : State) (k v : Nat) (x : Bnd) :
    (if ((s.cutWindows k x).vs v).win.isNone then (s.cutWindows k x).openWindow v x else s.cutWindows k x).time.index = s.time.index := by
  have hcut : (s.cutWindows k x).time.index = s.time.index := congrArg Prod.fst (cutWindows_clock (s0 := s))
  split <;> exact hcut

/-- Settles O20: each row acts on the bond or the tile when its condition holds, and the reports return the words of all. -/
theorem bondsFallRebuildReturnAndReport : Obligations.BondsFallRebuildReturnAndReport := by
  unfold Obligations.BondsFallRebuildReturnAndReport
  refine ⟨fun k t q s => ?_, fun p s hblock => ⟨fun hstarts => ?_, fun hstarts => ?_⟩⟩
  · dsimp only
    refine ⟨fun hrun => ⟨fun a hgood hfrom => ?_, fun hfoot => ?_⟩, fun hmembers hidle hst hall => ⟨fun hstart hsettled hready => ?_, fun v x hlater hbnd hready => ?_⟩,
      fun i v x hst hat hbnd hdue => ?_, fun htesting hisland => ⟨?_, ?_⟩, ?_, rfl⟩
    · show execFootingCheckFail .. = _
      rw [execFootingCheckFail]
      dsimp only
      rw [if_pos hrun, if_neg (by simp [hgood]), hfrom]
    · show execFootingCheckFail .. = _
      rw [execFootingCheckFail]
      dsimp only
      rw [if_pos hrun, if_pos hfoot]
    · show execBondRebuildStart .. = _
      rw [execBondRebuildStart_of_able hmembers hidle hst hall]
      dsimp only
      rw [if_pos hstart, if_pos (by simp [hsettled, hready])]
    · show execBondRebuildStart .. = _
      rw [execBondRebuildStart_of_able hmembers hidle hst hall]
      dsimp only
      rw [if_neg (by simp [hlater]), hbnd]
      exact if_pos hready
    · show execBondReturn .. = _
      rw [execBondReturn]
      dsimp only
      rw [hst, hat, hbnd]
      dsimp only
      rw [if_pos hdue, foldl_rebase_time, cutWindows_openWindow_index, apply_ite (fun u : State => Host.Outcome.next (u.tileLevels x.index x.ns))]
    · show execTileTestDone .. = _
      rw [execTileTestDone]
      dsimp only
      rw [if_neg (by simp [htesting, hisland])]
      rfl
    · show execTileTestDone .. = _
      rw [execTileTestDone]
      dsimp only
      rw [if_neg (by simp [htesting, hisland])]
      rfl
    · rfl
  · refine congrArg Host.Outcome.next (command_replies hstarts hblock ?_)
    rw [ctx_bay]
    rfl
  · exact congrArg Host.Outcome.next (command_reads hstarts hblock rfl)

end Sys2Proof.Machine
end

section
/-! PROOFS. R184 to R189: converter slots, comparators and urgent requests. -/

namespace Sys2Proof.Machine

/-- The oldest change of a comparator that waits, of the kind the row gives (R188). -/
theorem compChange_of_oldest {s : State} {w : Nat} {on : Bool} {t : Nat × Nat} {l : List (Bool × Nat × Nat)}
    (hchanges : (s.wcomp w).changes = (on, t) :: l) :
    s.compChange w on = (s.modWcomp w fun x => { x with changes := l }).levelAt t.1 t.2 (672 + w) on := by
  simp [State.compChange, hchanges]

/-- Settles O21: each row acts on what waits at its converter or slot. -/
theorem converterSlotsAndUrgentRequests : Obligations.ConverterSlotsAndUrgentRequests := by
  unfold Obligations.ConverterSlotsAndUrgentRequests
  intro p w i k raws s
  dsimp only
  refine ⟨fun hstarts hblock hmode => ?_, fun on t l hchanges => ⟨fun hon => ?_, fun hoff => ?_⟩, fun hrun hready hend => ?_,
    fun hstarts hblock hinput hk hlow hhigh hratio => ⟨fun hfull => ?_, fun hroom => ?_⟩, fun u l t hurgent hstart hdue hlen => ?_⟩
  · refine congrArg Host.Outcome.next (command_replies hstarts hblock ?_)
    dsimp only
    rw [if_neg (by omega)]
    rfl
  · subst hon
    exact congrArg Host.Outcome.next (compChange_of_oldest hchanges)
  · subst hoff
    exact congrArg Host.Outcome.next (compChange_of_oldest hchanges)
  · show execSlotPeriodEnd .. = _
    rw [execSlotPeriodEnd]
    dsimp only
    rw [if_neg (by simp [hrun, hready, hend])]
  · refine congrArg Host.Outcome.next (command_replies hstarts hblock ?_)
    dsimp only
    rw [hk, if_neg (by omega), if_neg (by omega), if_neg (by omega), if_neg (by omega)]
    exact if_pos hfull
  · refine congrArg Host.Outcome.next (command_holds hstarts hblock ?_)
    dsimp only
    rw [hk, if_neg (by omega), if_neg (by omega), if_neg (by omega), if_neg (by omega)]
    exact if_neg (Nat.not_le.mpr hroom)
  · show execUrgentBurstDone .. = _
    rw [execUrgentBurstDone, hurgent]
    dsimp only
    rw [hstart]
    dsimp only
    rw [if_pos ⟨hdue, hlen⟩]

end Sys2Proof.Machine
end

section
/-! PROOFS. R190 to R200: self-calibration and device calibration. -/

namespace Sys2Proof.Machine

section
variable {s : State}

/-- R192: the first trigger outside a run starts one. -/
theorem calTrigger_first (hidle : s.aux.calBusy = false) (hfree : s.aux.calDelayed = false) (hnone : s.aux.calAt = none) : s.calTrigger = s.startCal := by
  rw [State.calTrigger, if_neg (by simp [hidle, hfree]), hnone]

/-- R192: a later trigger starts a run, or inside 60 s of the last one is delayed. -/
theorem calTrigger_again (hidle : s.aux.calBusy = false) (hfree : s.aux.calDelayed = false) {t : Nat} (hat : s.aux.calAt = some t) :
    s.calTrigger = if s.time.mono < t + 60 * second then ({ s with aux.calDelayed := true }).pulse 703 else s.startCal := by
  rw [State.calTrigger, if_neg (by simp [hidle, hfree]), hat]

/-- R196: REF_GAIN is written where it is in range and a converter is sound, else REF_FAIL and EV0699. -/
theorem refResult_some (hsound : s.convFault 0 = false ∨ s.convFault 1 = false) (g n : Nat) :
    s.refResult (some g) n = if 200 * ((g : Int) - Config.fusedRefGain).natAbs ≤ Config.fusedRefGain ∧ g < 2 ^ 32 then
        (({ s.setFactors { s.aux.fac with ref := g } with
          aux.tLast := (s.setFactors { s.aux.fac with ref := g }).aux.calT, aux.refSource := n,
          aux.calCount := ((s.setFactors { s.aux.fac with ref := g }).aux.calCount + 1) % 2 ^ 32,
          aux.calLast := (s.setFactors { s.aux.fac with ref := g }).calTime } : State).pulse 698).calEnd
      else ((s.modAllWin fun w => { w with refFail := true }).pulse 699).calEnd := by
  have hfault : (s.convFault 0 && s.convFault 1) = false := by rcases hsound with h | h <;> simp [h]
  by_cases hok : 200 * ((g : Int) - Config.fusedRefGain).natAbs ≤ Config.fusedRefGain ∧ g < 2 ^ 32
  · have hrange : refOk g = true := by simpa [refOk] using hok
    simp only [State.refResult, hfault, Bool.false_eq_true, if_false, Option.filter_some, hrange, if_true, if_pos hok]
  · have hrange : refOk g = false := by simpa [refOk] using hok
    simp only [State.refResult, hfault, Bool.false_eq_true, if_false, Option.filter_some, hrange, if_neg hok]

theorem refResult_none (n : Nat) : s.refResult none n = ((s.modAllWin fun w => { w with refFail := true }).pulse 699).calEnd := by
  simp [State.refResult]

end

theorem foldl_add_eq_sum {α : Type} (f : α → Nat) (l : List α) : l.foldl (fun t e => t + f e) 0 = (l.map f).sum := by
  rw [List.sum_eq_foldl, List.foldl_map]

/-- Settles O22. -/
theorem calibrationsTakeTheirSteps : Obligations.CalibrationsTakeTheirSteps := by
  unfold Obligations.CalibrationsTakeTheirSteps
  refine ⟨fun p ofs skew gain s => ?_, fun p code c1 c2 on off rms k s => ?_⟩
  · dsimp only
    refine ⟨fun hstarts hblock => ⟨fun hstep hidle => ?_, fun hbusy => ?_⟩, fun f => ⟨fun hgood => ?_, fun ok hbad => ?_⟩, fun hstep hdue => ?_, fun hstep hdue => ?_,
      fun hstep hdue => ?_⟩
    · exact congrArg Host.Outcome.next (command_holds hstarts hblock (if_neg (by simp [hstep, hidle])))
    · exact congrArg Host.Outcome.next (command_replies hstarts hblock (if_pos hbusy))
    · simp [State.selfFactors, hgood]
    · rw [State.selfFactors, if_neg (by rcases hbad with h | h <;> simp [h])]
    · exact if_pos ⟨hstep, hdue⟩
    · exact if_pos ⟨hstep, hdue⟩
    · show execSelfcalDone .. = _
      rw [execSelfcalDone, if_pos ⟨hstep, hdue⟩]
      rfl
  · dsimp only
    refine ⟨fun hstarts hblock hmode hidle => ?_, fun hstarts hblock hmode hbusy => ?_, fun hidle hfree => ⟨calTrigger_first hidle hfree, fun t => calTrigger_again hidle hfree⟩,
      fun n hsound => ⟨refResult_none n, fun g => ?_⟩, fun hstarts hblock hmode => ?_, fun hready hdue => ⟨fun hmode => ?_, fun hmode => ?_⟩,
      fun t hat hdelayed hmode hidle hdue => ?_, fun hstep hdue => ?_, fun l hstep hdue hlen => ?_, fun hready hdue => ?_⟩
    · refine congrArg Host.Outcome.next (command_replies hstarts hblock ?_)
      rw [if_neg (by simp [hmode]), if_neg (by simp [hidle])]
    · refine congrArg Host.Outcome.next (command_replies hstarts hblock ?_)
      rw [if_neg (by simp [hmode]), if_pos (by simp [hbusy])]
    · rw [refResult_some hsound]
    · refine congrArg Host.Outcome.next (command_replies hstarts hblock ?_)
      rw [if_pos (by simp [hmode])]
    · show execTs2MeanCheck .. = _
      rw [execTs2MeanCheck, if_pos (by simp [hready, hdue])]
      dsimp only
      rw [if_pos (by simp [hmode])]
    · show execTs2MeanCheck .. = _
      rw [execTs2MeanCheck, if_pos (by simp [hready, hdue])]
      dsimp only
      rw [if_neg (by simp [hmode]), apply_ite Host.Outcome.next]
    · show execCalSpacingEnd .. = _
      rw [execCalSpacingEnd, hat]
      dsimp only
      rw [if_pos (by simp [hdelayed, hmode, hidle, hdue])]
    · show execRprecStepDone .. = _
      rw [execRprecStepDone, if_pos ⟨hstep, hdue⟩]
      simp only [Bool.and_eq_true, decide_eq_true_eq, and_assoc]
    · show execStatStepDone .. = _
      rw [execStatStepDone, hstep]
      dsimp only
      rw [if_pos ⟨hdue, hlen⟩]
      simp only [foldl_add_eq_sum, Bool.and_eq_true, decide_eq_true_eq, and_assoc]
    · show execConverterCheck .. = _
      rw [execConverterCheck, if_pos (by simp [hready, hdue])]
      simp only [Bool.and_eq_true, Bool.not_eq_true', decide_eq_true_eq, apply_ite Host.Outcome.next]
      

end Sys2Proof.Machine
end

section
/-! PROOFS. R208 to R218: TIME_SET, TIME_GET and TIME_LOG_READ, and the sources of system time. -/

namespace Sys2Proof.Machine

section
variable {p : Packet} {s : State}

/-- A TIME_SET whose checks pass waits for the next sample boundary (R218). -/
theorem command_timeSet_holds (hstarts : Starts 0x0601 p s = true) (hblock : Block 16 [(4, 4)] p = true)
    (hbody : timeSetBody ((s.touch p).ctx p) p (s.touch p)
      = ({ s.touch p with time.due := s.time.due ++ [.set (queueId p.bay p.queue)] }, .hold .timeSet)) :
    exec (.timeSet p) s = .next (({ s.touch p with time.due := s.time.due ++ [.set (queueId p.bay p.queue)] } : State).setBusy (queueId p.bay p.queue)
      (some ⟨⟨0x0601, p, s.time.mono⟩, .timeSet⟩)) := by
  rw [timeSetBody, fixedBody_block hblock] at hbody
  exact congrArg Host.Outcome.next (command_holds hstarts hblock hbody)

theorem timeSetBody_step (hblock : Block 16 [(4, 4)] p = true) (c : Ctx) (hsource : s.time.source = 0) (hleap : fld p.params 1 1 = 0)
    (hofs : fld p.params 2 2 = 0) (hmode : fld p.params 0 1 = 0) (hmax : fld p.params 8 8 ≤ timeMax) :
    timeSetBody c p s = ({ s with time.due := s.time.due ++ [.set (queueId p.bay p.queue)] }, .hold .timeSet) := by
  rw [timeSetBody, fixedBody_block hblock]
  simp [hsource, hleap, hofs, hmode, Nat.not_lt.mpr hmax]

theorem timeSetBody_shift (hblock : Block 16 [(4, 4)] p = true) (c : Ctx) (hsource : s.time.source = 0) (hleap : fld p.params 1 1 = 0)
    (hofs : fld p.params 2 2 = 0) (hmode : fld p.params 0 1 = 1) (hvalid : s.time.valid = true) (hmin : 0 ≤ (s.nowNs : Int) + sfld p.params 8 8)
    (hmax : s.nowNs + sfld p.params 8 8 ≤ (timeMax : Int)) :
    timeSetBody c p s = ({ s with time.due := s.time.due ++ [.set (queueId p.bay p.queue)] }, .hold .timeSet) := by
  rw [timeSetBody, fixedBody_block hblock]
  simp [hsource, hleap, hofs, hmode, hvalid, Int.not_lt.mpr hmax, Int.not_lt.mpr hmin]

theorem timeSetBody_offset (hblock : Block 16 [(4, 4)] p = true) (c : Ctx) (hmode : fld p.params 0 1 = 2) (hleap : fld p.params 1 1 ≤ 2)
    (hvalue : fld p.params 8 8 = 0) (hutc : s.time.source = 2 → s.time.ptp.utcValid = false) :
    timeSetBody c p s = ({ s with time.due := s.time.due ++ [.set (queueId p.bay p.queue)] }, .hold .timeSet) := by
  rw [timeSetBody, fixedBody_block hblock]
  simp [hmode, Nat.not_lt.mpr hleap, hvalue]
  exact hutc

end

/-- Settles O23: TIME_SET acts at its boundary; an event of a source moves what that source keeps. -/
theorem timeIsSetReadAndDisciplined : Obligations.TimeIsSetReadAndDisciplined := by
  unfold Obligations.TimeIsSetReadAndDisciplined
  refine ⟨fun p s => ?_, fun a m seq t3 stamp s => ?_⟩
  · dsimp only
    refine ⟨fun hstarts hblock => ⟨fun hsource hleap hofs => ⟨fun hmode hmax => ?_, fun hmode hvalid hmin hmax => ?_⟩, fun hmode hleap hvalue hutc => ?_⟩,
      fun f hbusy hkind hpkt => ?_, ⟨fun hmode => ?_, fun hmode hlarge => ?_, fun hmode hsmall => ?_, fun hmode => ?_⟩, fun hstarts hblock => ?_,
      fun hstarts hblock hlow hhigh => ?_⟩
    · exact command_timeSet_holds hstarts hblock (timeSetBody_step hblock _ hsource hleap hofs hmode hmax)
    · exact command_timeSet_holds hstarts hblock (timeSetBody_shift hblock _ hsource hleap hofs hmode hvalid hmin hmax)
    · exact command_timeSet_holds hstarts hblock (timeSetBody_offset hblock _ hmode hleap hvalue hutc)
    · simp only [State.timeChange, hbusy, hkind, hpkt, if_true]
    · simp only [timeSetApply, hmode]
    · simp only [timeSetApply, hmode, if_neg (Nat.not_le.mpr hlarge)]
    · simp only [timeSetApply, hmode, if_pos hsmall]
    · simp only [timeSetApply, hmode]
    · refine congrArg Host.Outcome.next (command_replies hstarts hblock ?_)
      rw [ctx_bay]
      rfl
    · refine congrArg Host.Outcome.next (command_reads hstarts hblock ?_)
      rw [if_neg (by omega)]
      rfl
  · dsimp only
    refine ⟨fun hdomain hport htransport => ⟨fun hbest => ?_, fun d hbest => ⟨fun hother => ?_, fun hown => ?_⟩⟩, fun d => ⟨fun hsame => ?_, fun hnew => ?_⟩,
      fun hmaster => ⟨?_, fun t hseq horigin => ?_⟩, fun hmaster => ?_, fun t1 t4 ht1 hreq => ?_, fun hmaster hdue => ?_, ⟨fun q hprev hnear => ?_, fun hfirst => ?_⟩,
      fun hqual hdue => ?_, fun husable hcycles hdue hqual => ?_, fun hgood hdue => ?_, fun c hhead hsource => ?_⟩
    · show execPtpAnnounce .. = _
      rw [execPtpAnnounce, if_neg (by simp [hdomain, hport, htransport])]
      dsimp only
      rw [hbest]
    · show execPtpAnnounce .. = _
      rw [execPtpAnnounce, if_neg (by simp [hdomain, hport, htransport])]
      dsimp only
      rw [hbest]
      dsimp only
      rw [if_pos (by simpa using hother)]
    · show execPtpAnnounce .. = _
      rw [execPtpAnnounce, if_neg (by simp [hdomain, hport, htransport])]
      dsimp only
      rw [hbest]
      dsimp only
      rw [if_neg (by simp [hown])]
      simp only [Bool.and_eq_true, decide_eq_true_eq, apply_ite Host.Outcome.next]
    · rw [State.followMaster, if_pos hsame]
    · rw [State.followMaster, if_neg hnew]
    · show execPtpSync .. = _
      rw [execPtpSync, if_neg (by simp [hmaster])]
      cases m.origin <;> rfl
    · show execPtpFollowUp .. = _
      rw [execPtpFollowUp, if_neg (by simp [hmaster, hseq]), horigin]
    · exact if_pos hmaster
    · show execPtpDelayResp .. = _
      rw [execPtpDelayResp, ht1]
      dsimp only
      rw [if_pos hreq]
      simp only [ht1]
    · show execPtpAnnounceTimeout .. = _
      rw [execPtpAnnounceTimeout, if_pos (by simpa [hmaster] using hdue)]
    · show execPpsInEdge .. = _
      rw [execPpsInEdge, hprev]
      dsimp only
      rw [if_neg (by simpa using hnear)]
      simp only [Bool.and_eq_true, decide_eq_true_eq, apply_ite Host.Outcome.next]
    · show execPpsInEdge .. = _
      rw [execPpsInEdge, hfirst]
      rfl
    · exact if_pos (by simp [hqual, hdue])
    · exact if_pos (by simp [husable, hcycles, hdue, hqual])
    · exact if_pos (by simp [hgood, hdue])
    · show execSourcePromote .. = _
      rw [execSourcePromote, hhead]
      exact if_neg hsource

end Sys2Proof.Machine
end

section
/-! PROOFS. R204 to R233: the events of the time base and of the real-time clock. -/

namespace Sys2Proof.Machine

/-- Settles O24: each event moves its own state when its condition holds. -/
theorem timeBaseAndRtcEvents : Obligations.TimeBaseAndRtcEvents := by
  unfold Obligations.TimeBaseAndRtcEvents
  refine ⟨fun s => ?_, fun measured mv vb s => ?_⟩
  · refine ⟨fun hslewing hleft => ?_, fun hhold hin herror => ?_, fun hvalid hf4 hlow hsecond hfar => ?_, fun t hrise hhigh hwidth => ?_,
      fun hvalid => ⟨fun hleap hday => ?_, fun hleap hday => ?_⟩, fun hgood => ?_, fun hbad => ?_, fun hgood => ?_, fun hhold hbad => ?_⟩
    · exact if_pos (by simp [hslewing, hleft])
    · exact if_pos (by simp [hhold, hin, herror])
    · show execPpsOutPulse .. = _
      rw [execPpsOutPulse]
      dsimp only
      rw [if_pos]
      cases hrise : s.time.ppsRise with
      | none => simp [hvalid, hf4, hlow, hsecond]
      | some t => simp [hvalid, hf4, hlow, hsecond, hfar t hrise]
    · show execPpsOutWidthEnd .. = _
      rw [execPpsOutWidthEnd, hrise]
      dsimp only
      rw [if_pos (by simp [hhigh, hwidth])]
    · show execLeapSecondApply .. = _
      rw [execLeapSecondApply]
      dsimp only
      rw [if_pos (by simp [hleap, hvalid, hday]), if_pos hleap]
    · show execLeapSecondApply .. = _
      rw [execLeapSecondApply]
      dsimp only
      rw [if_pos (by simp [hleap, hvalid, hday]), if_neg (by simp [hleap])]
    · exact if_neg (by simp [hgood])
    · exact if_pos hbad
    · exact if_neg (by simp [hgood])
    · rw [State.holdRate, if_neg (by simp [hhold]), if_pos hbad]
  · dsimp only
    refine ⟨fun hruns hosc => ?_, fun hvalid hsecond hhost => ⟨fun hrewrite => ?_, fun hkeep hleap hdiffers => ?_, fun hkeep hsame hrtc => ?_⟩,
      fun hlearn hsource hmoved => ?_, fun hmain hlow => ?_, fun hbattery hback => ?_, rfl, fun hpor => if_pos hpor⟩
    · show execRtcCountTick .. = _
      rw [execRtcCountTick]
      dsimp only
      rw [if_neg (by simpa [hruns] using hosc)]
      simp only [Bool.and_eq_true, decide_eq_true_eq, and_assoc, beq_iff_eq]
    · show execRtcSecondCompare .. = _
      rw [execRtcSecondCompare, if_neg (by simpa [hvalid, hsecond] using hhost)]
      exact if_pos hrewrite
    · show execRtcSecondCompare .. = _
      rw [execRtcSecondCompare, if_neg (by simpa [hvalid, hsecond] using hhost)]
      dsimp only
      rw [if_neg (by simp [hkeep]), if_neg (by rcases hdiffers with h | h <;> simp [h]), if_neg hleap]
    · show execRtcSecondCompare .. = _
      rw [execRtcSecondCompare, if_neg (by simpa [hvalid, hsecond] using hhost)]
      dsimp only
      rw [if_neg (by simp [hkeep])]
      by_cases hleap : s.rtc.sec = 0x60 <;> simp [hsame, hrtc, hleap]
    · show execRtcTrimLearn .. = _
      rw [execRtcTrimLearn]
      dsimp only
      rw [if_pos (by simpa [hlearn, hmoved] using hsource)]
    · exact if_pos (by simpa [hmain] using hlow)
    · exact if_pos (by simp [hbattery, hback])

end Sys2Proof.Machine
end

section
/-! PROOFS. R239 to R253: billing's own times. -/

namespace Sys2Proof.Machine

/-- Settles O25: an instant of the grid that has passed is pushed to every point, then what is known is settled; the other acts take effect when due. -/
theorem billingFollowsTheClock : Obligations.BillingFollowsTheClock := by
  unfold Obligations.BillingFollowsTheClock
  intro m s hmeters
  dsimp only
  refine ⟨fun hpassed => ?_, fun hsame => ?_, fun hsame hpassed => ?_, ?_, fun hvalid => ⟨fun t hat hdue => ?_, fun t hat hdue => ?_, fun hday => ?_⟩,
    fun hdeferred hfriendly => ?_⟩
  · show execProfileIntervalEnd .. = _
    rw [execProfileIntervalEnd, State.profGridEnd, if_neg hpassed]
    rfl
  · show execProfileIntervalEnd .. = _
    rw [execProfileIntervalEnd, State.profGridEnd, if_pos hsame]
    rfl
  · show execDemandSubperiodEnd .. = _
    rw [execDemandSubperiodEnd, if_pos hsame, State.subGridEnd, if_neg hpassed]
    rfl
  · show execTariffRateSwitch .. = _
    rw [execTariffRateSwitch, if_pos hmeters]
    rfl
  · show execTariffActivateDue .. = _
    rw [execTariffActivateDue, of_meters hmeters, hat]
    exact if_pos (by simp [hvalid, hdue])
  · show execBillResetDue .. = _
    rw [execBillResetDue, of_meters hmeters, hat]
    exact if_pos (by simp [hvalid, hdue])
  · show execStandingCharge .. = _
    rw [execStandingCharge, of_meters hmeters, if_neg (by simp [hvalid, hday])]
  · show execFriendlyDeferralEnd .. = _
    rw [execFriendlyDeferralEnd, of_meters hmeters, if_pos (by simp [hdeferred, hfriendly])]

end Sys2Proof.Machine
end

section
/-! PROOFS. R241 to R261: the billing commands and reads, and the sealed display. -/

namespace Sys2Proof.Machine

section
variable {code : Nat} {p : Packet} {s : State} {date : Nat → State → State}

/-- R245, R250: a dated command under valid time only notes its date. -/
theorem command_dated (hstarts : Starts code p s = true) (hblock : Block 16 [(8, 8)] p = true) (hdated : fld p.params 0 8 ≠ 0)
    (hvalid : s.time.valid = true) : command code (datedBody date) p s = (date (fld p.params 0 8) (s.touch p)).answer code p Res.accepted := by
  rw [datedBody]
  refine command_replies hstarts hblock ?_
  simp only [if_neg hdated, touch_time, hvalid, Bool.not_true, Bool.false_eq_true, if_false]

end

/-- R245: TARIFF_STAGE of one whole parameter block answers its first failing check, else stages it. -/
theorem tariffStageBody_block {p : Packet} (hbulk : p.isBulk = false) (hlen : p.params.length = 2704) (c : Ctx) (s : State) :
    tariffStageBody c p s = if !calReservedOk p.params then (s, .reply (Res.reserved 32))
      else if s.bill.actAt.isSome then (s, .reply (Res.err stBusy 0))
      else if !calendarOk p.params then (s, .reply (Res.field 32))
      else ({ s with bill.passive := p.params }, .reply Res.ok) := by
  rw [tariffStageBody, if_neg (by simp [hbulk]), if_neg (by simp [hlen])]

/-- Settles O26: each clause is one branch of the command's body, reached by the checks before it. -/
theorem billingCommandsAndReads : Obligations.BillingCommandsAndReads := by
  unfold Obligations.BillingCommandsAndReads
  refine ⟨fun p s => ?_, fun p ms s => ?_⟩
  · dsimp only
    refine ⟨fun hstarts hbulk hlen => ⟨fun hres => ?_, fun hres hbusy => ?_, fun hres hfree hcal => ?_, fun hres hfree hcal => ?_⟩,
      fun q f hbusy hkind => ?_, fun hblock => ⟨fun hstarts => ⟨fun hnow => ?_, fun hdated hvalid => ?_⟩, fun hstarts => ⟨fun hnow => ?_, fun hdated hvalid => ?_⟩⟩,
      fun hstarts hblock hm hon hlow hhigh => ⟨fun htxn => ?_, fun htxn => ?_⟩,
      fun hstarts hblock hm hen => ⟨fun hact hrole => ?_, fun hact hrole => ?_, fun hact harmed => ?_, fun hact hon hoffer => ?_⟩⟩
    · refine congrArg Host.Outcome.next (command_starts_replies hstarts ?_)
      rw [tariffStageBody_block hbulk hlen, if_pos (by simp [hres])]
    · refine congrArg Host.Outcome.next (command_starts_replies hstarts ?_)
      rw [tariffStageBody_block hbulk hlen, if_neg (by simp [hres]), touch_bill, if_pos hbusy]
    · refine congrArg Host.Outcome.next (command_starts_replies hstarts ?_)
      rw [tariffStageBody_block hbulk hlen, if_neg (by simp [hres]), touch_bill, if_neg (by simp [hfree]), if_pos (by simp [hcal])]
    · refine congrArg Host.Outcome.next (command_starts_replies hstarts ?_)
      rw [tariffStageBody_block hbulk hlen, if_neg (by simp [hres]), touch_bill, if_neg (by simp [hfree]), if_neg (by simp [hcal])]
    · rw [State.billsNow, hbusy]
      exact if_pos hkind
    · refine congrArg Host.Outcome.next (?_ : command 0x0711 tariffActivateBody p s = _)
      rw [tariffActivateBody_eq_dated, command_dated_immediate hstarts hblock hnow]
    · refine congrArg Host.Outcome.next (?_ : command 0x0711 tariffActivateBody p s = _)
      rw [tariffActivateBody_eq_dated, command_dated hstarts hblock hdated hvalid]
    · refine congrArg Host.Outcome.next (?_ : command 0x0720 billResetBody p s = _)
      rw [billResetBody_eq_dated, command_dated_immediate hstarts hblock hnow]
    · refine congrArg Host.Outcome.next (?_ : command 0x0720 billResetBody p s = _)
      rw [billResetBody_eq_dated, command_dated hstarts hblock hdated hvalid]
    · refine congrArg Host.Outcome.next (command_replies hstarts hblock ?_)
      dsimp only
      rw [if_neg (by simpa [hm] using hon), if_neg (by omega)]
      exact if_pos htxn
    · refine congrArg Host.Outcome.next (command_replies hstarts hblock ?_)
      dsimp only
      rw [if_neg (by simpa [hm] using hon), if_neg (by omega)]
      exact if_neg (ne_true_of_eq_false htxn)
    · refine congrArg Host.Outcome.next (command_replies hstarts hblock ?_)
      dsimp only
      rw [if_neg (by simpa [hm] using hen), if_neg (by omega), ctx_bay, if_neg (by simp [hrole])]
      obtain hopen | hclose : fld p.params 1 1 = 0 ∨ fld p.params 1 1 = 1 := by omega
      · rw [if_pos hopen, hopen]
        rfl
      · rw [if_neg (by omega), if_pos hclose, hclose]
        rfl
    · refine congrArg Host.Outcome.next (command_replies hstarts hblock ?_)
      dsimp only
      rw [if_neg (by simpa [hm] using hen), if_neg (by omega), ctx_bay, if_pos (by simp [hact, hrole])]
    · refine congrArg Host.Outcome.next (command_replies hstarts hblock ?_)
      dsimp only
      rw [if_neg (by simpa [hm] using hen), if_neg (by omega), if_neg (by omega), if_neg (by omega), if_neg (by omega), if_pos hact]
      exact if_neg (not_not_intro harmed)
    · refine congrArg Host.Outcome.next (command_replies hstarts hblock ?_)
      dsimp only
      rw [if_neg (by simpa [hm] using hen), if_neg (by omega), if_neg (by omega), if_neg (by omega), if_neg (by omega), if_neg (by omega),
        if_neg (by simpa using hon)]
      exact if_neg (not_not_intro hoffer)
  · dsimp only
    refine ⟨fun hstarts hblock hm hen hlow hhigh => ?_, fun o ty v hstarts hblock hobj hread hvalue => ?_, fun hdue => ?_, fun hseal hsent => ?_, fun hms hbusy => ?_⟩
    · refine congrArg Host.Outcome.next (command_replies hstarts hblock ?_)
      dsimp only
      rw [if_neg (by simpa [hm] using hen), if_neg (by omega)]
      rfl
    · refine congrArg Host.Outcome.next (command_replies hstarts hblock ?_)
      dsimp only
      rw [hobj]
      dsimp only
      rw [if_neg (by simp [hread]), hvalue]
      rfl
    · exact if_pos hdue
    · exact if_pos (by simp [hseal, hsent])
    · exact if_pos (by simp [hms, hbusy])

end Sys2Proof.Machine
end

section
/-! PROOFS. R300 to R305: radio join rounds and RADIO_STATUS. -/

namespace Sys2Proof.Machine

section
variable {s : State} {j : JoinRound} {id seq rank : Nat} {q : Fin 2} {a : RadioAnswer}

/-- R300: an answer inside its round, before it is told from the answers had. -/
theorem execRadioAnswerReceive_open (hjoin : s.radio.join = some j) (hopen : s.time.mono < s.joinEnd j) {n : Nat}
    (hknown : j.answers.find? (·.1 == id) = some (id, n)) :
    execRadioAnswerReceive id a q s = .next (if n = a.originSeq then s
      else (({ s with radio.join := some { j with confirms := j.confirms.filter (·.identity != id) } } : State).cloneLock id)) := by
  rw [execRadioAnswerReceive, hjoin]
  dsimp only
  rw [if_neg (Nat.not_le.mpr hopen), hknown]

/-- R300: a new identity's answer; one present on the power line is not confirmed. -/
theorem execRadioAnswerReceive_new (hjoin : s.radio.join = some j) (hopen : s.time.mono < s.joinEnd j)
    (hnew : j.answers.find? (·.1 == id) = none)
    (hline : ((s.meterAddr id).bind s.meter).any (fun m => m.present && (s.meterAddr id).any fun a => chanOf a == 0) = false) :
    let u : State := { s with radio.join := some { j with answers := j.answers ++ [(id, a.originSeq)] } }
    let y := u.answerer 1 id (j.confirms.map (·.addr))
    execRadioAnswerReceive id a q s = .next (match y.2 with
      | none => y.1
      | some addr =>
        let c : Confirm := { identity := id, addr := addr, tries := 0, done := false, port := q, rank := a.rank }
        ({ y.1 with radio.join := y.1.radio.join.map fun (j : JoinRound) => { j with confirms := j.confirms ++ [c] } }).radioConfirm c) := by
  dsimp only
  rw [execRadioAnswerReceive, hjoin]
  dsimp only
  rw [if_neg (Nat.not_le.mpr hopen), hnew]
  dsimp only
  exact congrArg Host.Outcome.next (if_neg (ne_true_of_eq_false hline))

end

/-- Settles O30: each radio event and command at its one branch. -/
theorem radioJoinRoundsAddMeters : Obligations.RadioJoinRoundsAddMeters := by
  unfold Obligations.RadioJoinRoundsAddMeters
  intro p m id seq rank q j c s
  refine ⟨fun hup hnone hdue => ?_, fun hjoin hopen n hknown => ⟨fun hsame => ?_, fun hother => ?_⟩, fun hjoin hopen hnew hline => ?_,
    fun hjoin hfind hdone htries hdue => ?_, fun hjoin hfind hopen hid hmsg => ?_, fun hjoin hover => ?_, fun hstarts hblock => ⟨fun hnone => ?_, fun hsome => ?_⟩,
    fun hstarts hblock => ?_⟩
  · show execRadioJoinRoundStart s = _
    rw [execRadioJoinRoundStart]
    cases hlast : s.radio.lastJoin with
    | none => exact congrArg _ (if_neg (by simp [hup, hnone]))
    | some t => exact congrArg _ (if_neg (by simp [hup, hnone, hdue t hlast]))
  · exact (execRadioAnswerReceive_open hjoin hopen hknown).trans (by rw [if_pos hsame])
  · exact (execRadioAnswerReceive_open hjoin hopen hknown).trans (by rw [if_neg hother])
  · exact execRadioAnswerReceive_new hjoin hopen hnew hline
  · show execRadioConfirmRepeat id s = _
    rw [execRadioConfirmRepeat, hjoin, Option.bind_some, hfind]
    exact congrArg _ (if_pos ⟨by simp [hdone], htries, hdue⟩)
  · show execRadioConfirmAckReceive m s = _
    rw [execRadioConfirmAckReceive, hjoin]
    dsimp only
    rw [hfind]
    dsimp only
    rw [if_neg (by simp [hid, hopen]), hmsg] <;> rfl
  · show execRadioJoinClose s = _
    rw [execRadioJoinClose, hjoin]
    exact congrArg _ (if_neg (Nat.not_lt.mpr hover))
  · refine congrArg Host.Outcome.next (command_replies hstarts hblock ?_)
    rw [if_neg (by simp [hnone])]
  · refine congrArg Host.Outcome.next (command_replies hstarts hblock ?_)
    rw [if_pos (by simpa using hsome)]
  · refine congrArg Host.Outcome.next (command_replies hstarts hblock ?_)
    rw [ctx_bay]

end Sys2Proof.Machine
end

section
/-! PROOFS. R308, R325 to R329, R414: the ledger's records by command. -/

namespace Sys2Proof.Machine

section
variable (s : State) (p : Packet)

theorem touch_record (i : Nat) : (s.touch p).record i = s.record i := rfl
theorem touch_recIndex (id : Nat) : (s.touch p).recIndex id = s.recIndex id := rfl
theorem touch_anyIndex (id : Nat) : (s.touch p).anyIndex id = s.anyIndex id := rfl
theorem touch_slotOf (r : Rec) (e : Nat) : (s.touch p).slotOf r e = s.slotOf r e := rfl

end

/-- R327: a slot end inside the ring, on its grid. -/
theorem slotOf_inside {s : State} {r : Rec} {e : Nat} (hlast : r.lastEnd ≠ 0) (hend : e ≤ r.lastEnd) (hgrid : (r.lastEnd - e) % s.interval = 0)
    (hring : (r.lastEnd - e) / s.interval < 112) : s.slotOf r e = some (r.slotBack ((r.lastEnd - e) / s.interval)) := by
  rw [State.slotOf]
  exact if_neg (by simp [hlast, hgrid]; omega)

/-- Settles O32: each ledger command at the branch its conditions name. -/
theorem ledgerCommandsActOnRecords : Obligations.LedgerCommandsActOnRecords := by
  unfold Obligations.LedgerCommandsActOnRecords
  intro p s hunshed
  dsimp only
  refine ⟨fun hstarts hblock hlow hhigh => ⟨fun hmode => ?_, fun i hmode hidx => ?_, fun hmode => ?_⟩, fun hstarts hblock hstate hlast hend hgrid hring => ?_,
    fun i hstarts hblock hidx => ⟨fun hlocked => ?_, fun hfree => ?_⟩, fun hstarts hblock hnew hfeeder hgen hroom hkey => ?_,
    fun i hstarts hblock hfeeder hgen hidx => ?_, fun i hstarts hblock hidx => ?_, fun hstarts hblock => ?_⟩
  · refine congrArg Host.Outcome.next ((command_unshed hstarts hunshed).trans (command_bulkOut_replies hstarts hblock ?_))
    dsimp only
    rw [if_neg (by omega), hmode, ctx_bay]
    rfl
  · refine congrArg Host.Outcome.next ((command_unshed hstarts hunshed).trans (command_bulkOut_replies hstarts hblock ?_))
    dsimp only
    rw [if_neg (by omega), hmode, ctx_bay, touch_anyIndex, hidx]
    rfl
  · refine congrArg Host.Outcome.next ((command_unshed hstarts hunshed).trans (command_bulkOut_replies hstarts hblock ?_))
    dsimp only
    rw [if_neg (by omega), hmode]
    rfl
  · refine congrArg Host.Outcome.next (command_unshed_replies hstarts hunshed hblock ?_)
    dsimp only
    rw [touch_record, if_neg hstate, touch_slotOf, slotOf_inside hlast hend hgrid hring]
  · refine congrArg Host.Outcome.next (command_unshed_replies hstarts hunshed hblock ?_)
    dsimp only
    rw [touch_recIndex, hidx]
    exact if_neg (not_not_intro hlocked)
  · refine congrArg Host.Outcome.next (command_unshed_replies hstarts hunshed hblock ?_)
    dsimp only
    rw [touch_recIndex, hidx]
    exact if_pos hfree
  · cases hunwrap : Config.keyUnwrap ((s.touch p).ctx p).key (slice p.params 8 24) with
    | none =>
      refine congrArg Host.Outcome.next (command_unshed_replies hstarts hunshed hblock ?_)
      dsimp only
      rw [touch_recIndex, if_neg (by simp [hnew]), if_neg (by omega), if_neg (by omega), touch_ledger,
        if_neg (Nat.not_le.mpr hroom), touch_store, if_neg (ne_true_of_eq_false hkey), hunwrap]
    | some k =>
      refine congrArg Host.Outcome.next (command_unshed_replies hstarts hunshed hblock ?_)
      dsimp only
      rw [touch_recIndex, if_neg (by simp [hnew]), if_neg (by omega), if_neg (by omega), touch_ledger,
        if_neg (Nat.not_le.mpr hroom), touch_store, if_neg (ne_true_of_eq_false hkey), hunwrap]
  · refine congrArg Host.Outcome.next (command_unshed_replies hstarts hunshed hblock ?_)
    dsimp only
    rw [if_neg (by omega), if_neg (by omega), touch_recIndex, hidx]
  · refine congrArg Host.Outcome.next (command_unshed_replies hstarts hunshed hblock ?_)
    dsimp only
    rw [touch_recIndex, hidx]
    rfl
  · refine congrArg Host.Outcome.next ((command_unshed hstarts hunshed).trans (command_reads hstarts hblock ?_))
    rfl

end Sys2Proof.Machine
end

section
/-! PROOFS. R330 to R347: snapshots, feeder balances and pushes. -/

namespace Sys2Proof.Machine

/-- R344, R345: a push whose descriptor, targets and content pass makes its job, whatever its opcode. -/
theorem pushData_creates {code : Nat} {data : Bytes} {c : Ctx} {p : Packet} {s : State} {ids : List Nat}
    (hmode : fld p.params 0 1 ≤ 2) (hkindOk : pushKindOk code (fld p.params 1 1) = true) (hsize : fld p.params 24 4 ≤ data.length)
    (hwhole : fld p.params 0 1 ≠ 0 → data.length = fld p.params 24 4)
    (hslot : if fld p.params 1 1 = 1 then fld p.params 28 1 ≤ 7 else fld p.params 28 1 = 0)
    (htargets : s.pushTargets (fld p.params 0 1) (fld p.params 2 2) (data.take (data.length - fld p.params 24 4)) = some ids)
    (hsizeOk : pushSizeOk (fld p.params 1 1) (fld p.params 24 4) ids.length = true) (hroom : (s.ledger.jobs.filter Job.live).length < 16)
    (hwritable : 2 ≤ fld p.params 1 1 → s.store.ro.contains 2 = false)
    (himage : fld p.params 1 1 = 1 → s.ready 3 = true ∧ s.sectorsBad (imageSectors (fld p.params 28 1)) = false) :
    pushData code data c p s =
      let w := if fld p.params 1 1 = 1 then s.writeImage (fld p.params 28 1) (data.drop (data.length - fld p.params 24 4)) else s
      (w.createJob c p.params (data.drop (data.length - fld p.params 24 4)) ids, .reply (Res.ok (leBytes 4 w.ledger.jobNext ++ zeros 4))) := by
  have hslotOk : ¬ (7 < fld p.params 28 1 ∨ (fld p.params 1 1 ≠ 1 ∧ fld p.params 28 1 ≠ 0)) := by
    split at hslot <;> omega
  dsimp only [pushData]
  rw [if_neg (Nat.not_lt.mpr hmode), if_neg (by simp [hkindOk]), if_neg (by omega), if_neg hslotOk, htargets]
  dsimp only
  rw [if_neg (by simp [hsizeOk]), if_neg (Nat.not_le.mpr hroom), if_neg (fun h => ne_true_of_eq_false (hwritable h.1) h.2),
    if_neg (fun h => by simp [himage h.1] at h), if_neg (fun h => by simp [himage h.1] at h)]

/-- A packet without a bulk descriptor has room for no entry. -/
theorem bulkRoom_of_block {n size : Nat} {res : List (Nat × Nat)} {p : Packet} (hblock : Block n res p = true) : bulkRoom p size = 0 := by
  have hbulk : p.isBulk = false := by simp_all [Block]
  simp [bulkRoom, Packet.desc, hbulk]

/-- Settles O33: each snapshot or push row at the branch its conditions name. -/
theorem snapshotsAndPushes : Obligations.SnapshotsAndPushes := by
  unfold Obligations.SnapshotsAndPushes
  refine ⟨fun p id m s => ?_, fun p job s => ?_⟩
  · dsimp only
    refine ⟨fun hunshed => ⟨fun l hstarts hblock hvalid hearly hlate hdev hauto hopen hroom => ?_, fun hstarts hblock hidx hleaf hmp halarm hruns => ?_,
      fun x y hstarts hblock hx hxc hy hyc => ?_, fun x hstarts hblock hx => ?_⟩, fun x hrole hready hfind => ?_,
      fun x hsnap hopen => ⟨fun htimed hdue => ?_, fun hdue => ⟨fun hauto => ?_, fun hauto => ?_⟩⟩, fun hrole hready hvalid hday hshed => ?_⟩
    · refine congrArg Host.Outcome.next (command_unshed_replies hstarts hunshed hblock ?_)
      dsimp only
      rw [touch_time, if_neg (by simp [hvalid]), touch_key, show (s.touch p).nowNs = s.nowNs from rfl, if_neg (by omega), if_neg (by omega), if_neg (by omega), touch_ledger,
        if_neg (Nat.not_le.mpr hopen), show (s.touch p).snapRoom = some l from hroom]
    · refine congrArg Host.Outcome.next (command_unshed_replies hstarts hunshed hblock ?_)
      dsimp only
      rw [if_neg (by omega), if_neg (by omega), if_neg (by omega), if_neg (by omega)]
      rfl
    · refine congrArg Host.Outcome.next ((command_unshed hstarts hunshed).trans (command_bulkOut_replies hstarts hblock ?_))
      dsimp only
      rw [show (s.touch p).snap (fld p.params 0 4) = some x from hx, show (s.touch p).snap (fld p.params 4 4) = some y from hy,
        Option.filter_some_pos hxc, Option.filter_some_pos hyc]
      rfl
    · refine congrArg Host.Outcome.next ((command_unshed hstarts hunshed).trans (command_bulkOut_replies hstarts hblock ?_))
      dsimp only
      rw [show (s.touch p).snap (fld p.params 0 4) = some x from hx]
    · show execSnapshotLatch id m s = _
      rw [execSnapshotLatch, if_neg (by simp [hrole, hready]), hfind]
    · show execSnapshotTimeout id s = _
      rw [execSnapshotTimeout, hsnap]
      dsimp only
      rw [if_neg (by simp [hopen, htimed, hdue])]
    · show execSnapshotClose id s = _
      rw [execSnapshotClose, hsnap]
      dsimp only
      rw [if_neg (by simp [hopen, hdue]), if_pos (by simp [hauto])] <;> rfl
    · show execSnapshotClose id s = _
      rw [execSnapshotClose, hsnap]
      dsimp only
      rw [if_neg (by simp [hopen, hdue]), if_neg (by simp [hauto])] <;> rfl
    · show execScoreDecay s = _
      rw [execScoreDecay]
      exact congrArg _ (if_neg (by simp [hrole, hready, hvalid, hday, hshed]))
  · dsimp only
    refine ⟨fun code d ids hcode hunshed hstarts hblock hdesc hkind0 hmode hkindOk hsize hwhole hslot htargets hsizeOk hroom hwritable himage => ?_,
      fun j hunshed hfind => ⟨fun hstarts hall hblock => ?_, fun hstarts hstate hblock => ?_, fun hstarts hblock hlive hbay hrole => ?_⟩,
      fun j hfind hlive hvalid hexp => ?_, fun j hfind hinst hdue => ?_⟩
    · have hpush := (command_unshed hstarts hunshed).trans (command_bulkIn_replies hstarts hblock hdesc hkind0
        (pushData_creates (c := (s.touch p).ctx p) hmode hkindOk hsize hwhole hslot htargets hsizeOk hroom hwritable himage))
      refine ⟨?_, ?_, ?_⟩
      all_goals
        rintro rfl
        exact congrArg Host.Outcome.next hpush
    · refine congrArg Host.Outcome.next ((command_unshed hstarts hunshed).trans (command_starts_replies hstarts ?_))
      rw [pushStatusBody, if_pos hall, fixedBody_block hblock, pushStatusInner, touch_ledger, hfind]
      dsimp only
      rw [bulkRoom_of_block hblock, List.take_zero]
      rfl
    · refine congrArg Host.Outcome.next ((command_unshed hstarts hunshed).trans (command_starts_replies hstarts ?_))
      rw [pushStatusBody, if_neg (by omega), if_neg (by omega), bulkOutBody_block hblock, pushStatusInner, touch_ledger, hfind]
    · refine congrArg Host.Outcome.next (command_unshed_replies hstarts hunshed hblock ?_)
      rw [touch_ledger, hfind, Option.filter_some_pos hlive]
      dsimp only
      rw [ctx_bay, if_neg (by simp [hbay, hrole])]
    · show execPushExpiry job s = _
      rw [execPushExpiry, hfind, Option.filter_some_pos hlive]
      exact congrArg _ (if_pos ⟨hvalid, hexp⟩)
    · show execPushActivateDue job s = _
      rw [execPushActivateDue, hfind]
      have hnow : (if j.activateAt = 0 then j.targets.all fun t => decide (3 ≤ t.state) else s.time.valid && decide (j.activateAt ≤ s.nowNs)) = true := by
        split
        next hz => simpa [hz] using hdue
        next hz => simpa [hz] using hdue
      dsimp only
      rw [hnow, if_neg (by simp [hinst])] <;> rfl

end Sys2Proof.Machine
end

section
/-! PROOFS. R353 to R363: segments, returned units, and the membership of the mortar link. -/

namespace Sys2Proof.Machine

section
variable {m cls : Nat} {data : Bytes} {gcm : Bool} {s : State}

/-! ### A command unit put together (R353, R376) -/

theorem commandUnit_garbled (hparse : parsePacket (.mortar (fld data 0 2)) gcm [] ((data.drop 16).take (data.length - 32)) = none) :
    s.commandUnit m cls data gcm = s.pulse 841 := by
  unfold State.commandUnit
  dsimp only
  rw [hparse]

variable {code : Nat} {p : Packet}

theorem commandUnit_here_refused (hparse : parsePacket (.mortar (fld data 0 2)) gcm [] ((data.drop 16).take (data.length - 32)) = some (code, p))
    (hdest : fld data 2 2 = s.kiln.devId) (hbad : gcm = false ∨ seqFresh (Tbl.get [] s.mortar.cmdSeq (fld data 0 2)) (fld data 8 8) = false) :
    s.commandUnit m cls data gcm = s.pulse 841 := by
  unfold State.commandUnit
  dsimp only
  rw [hparse]
  dsimp only
  rw [if_pos ⟨by simp [hdest], by simpa using hbad⟩]

/-- R376: a fresh unit for this device is taken, a reply to the host it belongs to. -/
theorem commandUnit_here_taken (hparse : parsePacket (.mortar (fld data 0 2)) gcm [] ((data.drop 16).take (data.length - 32)) = some (code, p))
    (hdest : fld data 2 2 = s.kiln.devId) (hgcm : gcm = true) (hfresh : seqFresh (Tbl.get [] s.mortar.cmdSeq (fld data 0 2)) (fld data 8 8) = true) :
    s.commandUnit m cls data gcm =
      let w : State := { s with mortar.cmdSeq := Tbl.upd [] s.mortar.cmdSeq (fld data 0 2) fun l => (fld data 8 8 :: l).take 4096 }
      if 0x8000 ≤ code then w.replyHome code p else if w.serving then arriveQueue code p w else w := by
  unfold State.commandUnit
  dsimp only
  rw [hparse]
  dsimp only
  have hhere : (fld data 2 2 == s.kiln.devId || (fld data 2 2 == 1023 && !s.rootward (some m) (fld data 0 2) (fld data 2 2) && fld data 0 2 != s.kiln.devId)) = true := by
    simp [hdest]
  have hstays : ¬ (fld data 2 2 ≠ s.kiln.devId ∧ s.mortar.stt ≠ .fenced) := fun h => h.1 hdest
  rw [hhere, if_neg (by simp [hgcm, hfresh]), Bool.true_or, if_pos rfl, if_neg hstays]
  exact if_neg (by simp)

/-- A unit for another device is not opened: it goes on. -/
theorem commandUnit_onward (hparse : parsePacket (.mortar (fld data 0 2)) gcm [] ((data.drop 16).take (data.length - 32)) = some (code, p))
    (hdest : fld data 2 2 ≠ s.kiln.devId) (hcast : fld data 2 2 ≠ 1023) (hroot : s.isRoot = false) (hfence : s.mortar.stt ≠ .fenced) :
    s.commandUnit m cls data gcm = s.unitOnward m cls (fld data 0 2) (fld data 2 2) (fld data 8 8) code p := by
  unfold State.commandUnit
  dsimp only
  rw [hparse]
  dsimp only
  have hhere : (fld data 2 2 == s.kiln.devId || (fld data 2 2 == 1023 && !s.rootward (some m) (fld data 0 2) (fld data 2 2) && fld data 0 2 != s.kiln.devId)) = false := by
    simp [hdest, hcast]
  have hclosed : ¬ ((false || false) = true) := by simp
  rw [hhere, hroot, if_neg (fun h => hclosed h.1), if_neg hclosed]
  exact (if_pos rfl).trans (if_pos ⟨hdest, hfence⟩)

end

/-- R353: the last segment of a unit of KIND 1, on a lane that is up, hands the whole command unit on. -/
theorem execSegmentReceive_command {m : Fin 4} {g : Segment} {s : State} (hup : (s.lane m).up = true) (hhops : g.hops < 64) (hlen : g.data.length ≤ 512)
    (hlast : g.last = true) (hunit : (((s.lane m).addSegment g).segs.filter fun y => y.cls == g.cls) ≠ []) (hkind : g.kind = 1) :
    execSegmentReceive m g s = .next (((s.modLane m fun _ => (s.lane m).addSegment g).modLane m fun x => { x with segs := x.segs.filter fun y => y.cls != g.cls }).commandUnit
      m g.cls ((((s.lane m).addSegment g).segs.filter fun y => y.cls == g.cls).flatMap (·.data)) g.gcm) := by
  rw [execSegmentReceive, if_neg (by simp [hup, hhops, hlen])]
  dsimp only
  rw [if_neg (by simp [hlast, hunit]), if_pos hkind]

/-- The same of a unit of another KIND: its pallet, where one opened. -/
theorem execSegmentReceive_pallet {m : Fin 4} {g : Segment} {s : State} (hup : (s.lane m).up = true) (hhops : g.hops < 64) (hlen : g.data.length ≤ 512)
    (hlast : g.last = true) (hunit : (((s.lane m).addSegment g).segs.filter fun y => y.cls == g.cls) ≠ []) (hkind : g.kind ≠ 1) :
    execSegmentReceive m g s = .next (
      let v := (s.modLane m fun _ => (s.lane m).addSegment g).modLane m fun x => { x with segs := x.segs.filter fun y => y.cls != g.cls }
      g.pallet.elim (v.pulse 841) fun p => if v.forMe p.dest ∨ v.mortar.stt = .fenced ∨ 63 ≤ g.hops then v else v.forwardPallet (some m.val) g.cls p) := by
  rw [execSegmentReceive, if_neg (by simp [hup, hhops, hlen])]
  dsimp only
  rw [if_neg (by simp [hlast, hunit]), if_neg hkind]
  cases g.pallet <;> rfl

section
variable {s : State} {m : Fin 4} {j : JoinFrame}

/-- R357: at a root that is up, a JOIN request is decided by the device's entry in the table. -/
theorem execJoinReqReceive_root (hup : (s.lane m).up = true) (hfence : s.mortar.stt ≠ .fenced) (hroot : s.isRoot = true) {e : DevEntry}
    (hentry : Tbl.get none s.mortar.table j.dev = some e) :
    execJoinReqReceive m j s = .next (
      if !j.macOk ∨ e.identity ≠ j.identity ∨ e.key.isEmpty then s.pulse 790
      else if e.state = 1 then (({ s with mortar.dupUntil := some (s.time.mono + 10 * second) }).pulse 790).level 791 true
      else
        let d := s.drawBytes 16
        let ep := (d.2.mortar.epoch + 1) % 2 ^ 32
        ({ d.2 with mortar.offers := Tbl.set none d.2.mortar.offers j.dev (some (d.2.time.mono, d.1)) }).laneSend m
          (.join 1 j.dev ep d.1 e.identity (Config.gmac e.key (leBytes 1 1 ++ leBytes 2 j.dev ++ leBytes 4 ep ++ j.nonce)))) := by
  rw [execJoinReqReceive, if_neg (by simp [hup, hfence]), if_neg (by simp [hroot]), hentry]

end

/-- R355: the parts of a BELOW announcement kept while some are missing, and the lane's list once it is whole. -/
def belowTaken (m : Fin 4) (b : BelowPart) (parts : List (Nat × Bool × List Nat)) (s : State) : Option (List Nat) → State
  | none => s.modLane m fun x => { x with belowSeq := some b.seq, belowParts := parts }
  | some ids =>
    let moved := s.isRoot && ids.any fun d => !(s.lane m).below.contains d && s.devMember d
      && (List.range 4).any fun n => n != m.val && (s.lane n).below.contains d
    let s := s.modLane m fun x => { x with belowSeq := some b.seq, belowParts := parts, below := ids }
    if moved then s.incEpoch else s

/-- Settles O35: each frame of the mortar link at the branch its conditions name. -/
theorem unitsAndMembership : Obligations.UnitsAndMembership := by
  unfold Obligations.UnitsAndMembership
  refine ⟨fun m g r s => ?_, fun m j b d ms p s => ?_⟩
  · refine ⟨fun hup hhops hlen => ?_, fun hup => ⟨fun hsrc hfence hhops n hroute => ?_, fun hsrc hkind => ?_, fun hsrc hkind hleaf => ?_, fun p hsrc hkind hleaf hsent hpk => ?_⟩, ?_⟩
    · dsimp only
      refine ⟨fun hmore => ?_, fun hlast hunit => ⟨fun hkind => ⟨fun hparse => ?_, fun code pk hparse => ⟨fun hdest => ⟨fun hbad => ?_, fun hgcm hfresh => ?_⟩,
        fun hdest hcast hroot hfence => ?_⟩⟩, fun hkind hpal => ?_, fun p hkind hpal hme => ?_, fun p hkind hpal hme hfence hhop => ?_⟩⟩
      · show execSegmentReceive m g s = _
        rw [execSegmentReceive, if_neg (by simp [hup, hhops, hlen])]
        dsimp only
        rw [if_pos (by simpa using hmore)]
      · exact (execSegmentReceive_command hup hhops hlen hlast hunit hkind).trans (congrArg _ (commandUnit_garbled hparse))
      · exact (execSegmentReceive_command hup hhops hlen hlast hunit hkind).trans (congrArg _ (commandUnit_here_refused hparse hdest hbad))
      · exact (execSegmentReceive_command hup hhops hlen hlast hunit hkind).trans (congrArg _ (commandUnit_here_taken hparse hdest hgcm hfresh))
      · exact (execSegmentReceive_command hup hhops hlen hlast hunit hkind).trans (congrArg _ (commandUnit_onward hparse hdest hcast hroot hfence))
      · exact (execSegmentReceive_pallet hup hhops hlen hlast hunit hkind).trans (by rw [hpal]; rfl)
      · refine (execSegmentReceive_pallet hup hhops hlen hlast hunit hkind).trans ?_
        rw [hpal]
        exact congrArg _ (if_pos (.inl hme))
      · refine (execSegmentReceive_pallet hup hhops hlen hlast hunit hkind).trans ?_
        rw [hpal]
        exact congrArg _ (if_neg (by rintro (h | h | h); exacts [ne_true_of_eq_false hme h, hfence h, absurd hhop (Nat.not_lt.mpr h)]))
    · show execReturnReceive m r s = _
      rw [execReturnReceive, if_neg (by simp [hup]), if_pos hsrc, if_neg (by simp [hfence, hhops]), hroute]
    · intro u f hfind
      show execReturnReceive m r s = _
      rw [execReturnReceive, if_neg (by simp [hup]), if_neg (not_not_intro hsrc)]
      dsimp only
      rw [if_pos hkind, hfind]
    · show execReturnReceive m r s = _
      rw [execReturnReceive, if_neg (by simp [hup]), if_neg (not_not_intro hsrc)]
      dsimp only
      rw [if_neg hkind, pulse_kiln, if_pos hleaf]
    · dsimp only
      show execReturnReceive m r s = _
      rw [execReturnReceive, if_neg (by simp [hup]), if_neg (not_not_intro hsrc)]
      dsimp only
      rw [if_neg hkind, pulse_kiln, if_neg hleaf, hsent]
      exact congrArg _ (if_pos hpk)
    · exact rfl
  · dsimp only
    refine ⟨fun hup hfence => ⟨fun hroot => ⟨?_, ?_⟩, fun hroot => ⟨fun e hentry => ⟨fun hbad => ?_, fun hmac hid hkey => ⟨fun hmember => ?_, fun hnew => ?_⟩⟩,
        fun hnone => ?_, fun t n hoffer hmac hintime => ?_⟩, fun hdev hjoining hactive hmac hfirst => ?_, fun hdev hhops => ?_⟩, fun t n hoffer hdue => ?_,
      fun hjoining hdue hactive => ?_, fun t hdup hdue => ?_, fun k hmember hactive => ?_,
      fun hup hseq => ⟨fun hpart => ?_, fun ids hwhole => ?_⟩, fun hroot => ⟨fun hmember hpath hkey => ?_, fun e hentry hstate hrole hdue => ?_⟩,
      fun hstarts hblock hdev hrole hfree hro => ?_, fun e hstarts hblock hentry => ?_⟩
    · show execJoinReqReceive m j s = _
      rw [execJoinReqReceive, if_neg (by simp [hup, hfence]), if_pos (by simp [hroot])]
    · show execJoinConfirmReceive m j s = _
      rw [execJoinConfirmReceive, if_neg (by simp [hup, hfence]), if_pos (by simp [hroot])]
    · refine (execJoinReqReceive_root hup hfence hroot hentry).trans ?_
      rw [if_pos (by simpa using hbad)]
    · refine (execJoinReqReceive_root hup hfence hroot hentry).trans ?_
      rw [if_neg (by simp [hmac, hid, hkey]), if_pos hmember]
    · refine (execJoinReqReceive_root hup hfence hroot hentry).trans ?_
      rw [if_neg (by simp [hmac, hid, hkey]), if_neg hnew]
    · show execJoinReqReceive m j s = _
      rw [execJoinReqReceive, if_neg (by simp [hup, hfence]), if_neg (by simp [hroot]), hnone]
    · show execJoinConfirmReceive m j s = _
      rw [execJoinConfirmReceive, if_neg (by simp [hup, hfence]), if_neg (by simp [hroot]), hoffer]
      exact congrArg _ (if_neg (by simp [hmac, hintime]))
    · show execJoinOfferReceive m j s = _
      rw [execJoinOfferReceive, if_neg (by simp [hup, hfence]), if_pos hdev, if_pos ⟨hjoining, hactive, hmac, by simp [hfirst]⟩]
    · show execJoinOfferReceive m j s = _
      rw [execJoinOfferReceive, if_neg (by simp [hup, hfence]), if_neg hdev, if_neg (Nat.not_le.mpr hhops)]
    · show execJoinOfferLapse d s = _
      rw [execJoinOfferLapse, hoffer]
      exact congrArg _ (if_pos hdue)
    · exact congrArg _ (if_pos ⟨hjoining, hdue, hactive⟩)
    · show execDuplicateIdAlarmEnd s = _
      rw [execDuplicateIdAlarmEnd, hdup]
      exact congrArg _ (if_pos hdue)
    · show execBelowSend s = _
      rw [execBelowSend]
      conv_lhs => rw [hmember, hactive]
    · refine congrArg _ ((if_neg (not_or.mpr ⟨by simp [hup], Bool.eq_false_iff.mp (congrArg not hseq)⟩)).trans ?_)
      exact congrArg (belowTaken m b _ s) hpart
    · refine congrArg _ ((if_neg (not_or.mpr ⟨by simp [hup], Bool.eq_false_iff.mp (congrArg not hseq)⟩)).trans ?_)
      exact congrArg (belowTaken m b _ s) hwhole
    · exact congrArg _ (if_pos ⟨hroot, hmember, by simp [hpath], hkey⟩)
    · show execLeafOrphan d s = _
      rw [execLeafOrphan, hentry]
      exact congrArg _ (if_pos ⟨hroot, hstate, hrole, hdue⟩)
    · cases hunwrap : Config.keyUnwrap ((s.touch p).ctx p).key (slice p.params 16 40) with
      | none =>
        refine congrArg Host.Outcome.next (command_replies hstarts hblock ?_)
        dsimp only
        rw [if_neg (by omega), if_neg (by omega), touch_mortar, if_neg (by simp [hfree]), touch_store, if_neg (ne_true_of_eq_false hro), hunwrap]
      | some k =>
        refine congrArg Host.Outcome.next (command_replies hstarts hblock ?_)
        dsimp only
        rw [if_neg (by omega), if_neg (by omega), touch_mortar, if_neg (by simp [hfree]), touch_store, if_neg (ne_true_of_eq_false hro), hunwrap]
    · refine congrArg Host.Outcome.next (command_replies hstarts hblock ?_)
      dsimp only
      rw [touch_mortar, hentry]

end Sys2Proof.Machine
end

section
/-! PROOFS. R364 to R372: the root pair's heartbeat, takeover and handover, and the reports of the link. -/

namespace Sys2Proof.Machine

/-- Settles O36: each act of the root pair at the branch its conditions name. -/
theorem rootPairHandsOver : Obligations.RootPairHandsOver := by
  unfold Obligations.RootPairHandsOver
  intro p ms s
  dsimp only
  refine ⟨fun hroot => ⟨?_, fun hnone hms hcut hreach => ?_⟩, fun hrole hopen hsilent => ?_,
    fun hstarts hblock => ⟨fun hlink => ?_, fun hlink hwait => ?_, fun hlink hwait => ?_⟩, fun hstarts hblock => ?_, fun hstarts hblock hlow hhigh => ?_⟩
  · exact congrArg _ (if_pos hroot)
  · have hany : ((List.range 4).any fun m => (s.lane m).up && (s.lane m).peerId == s.partner && (s.lane m).peerFlags.testBit 3) = true := by
      obtain ⟨m, hm, hup, hpeer, hflag⟩ := hreach
      exact List.any_eq_true.mpr ⟨m, List.mem_range.mpr hm, by simp [hup, hpeer, hflag]⟩
    exact congrArg _ (if_pos ⟨hroot, hms, by simp [hcut], hany, by simp [hnone]⟩)
  · show execRootTakeover ms s = _
    rw [execRootTakeover, if_neg (by simp only [hrole, hopen, hsilent]; simp)]
  · refine congrArg Host.Outcome.next (command_replies hstarts hblock ?_)
    exact if_pos (by rw [show (s.touch p).standbyLinked = false from hlink]; rfl)
  · refine congrArg Host.Outcome.next (command_replies hstarts hblock ?_)
    rw [show (s.touch p).standbyLinked = true from hlink, if_neg (by simp), touch_ledger, if_pos (by simp [hwait])]
  · refine congrArg Host.Outcome.next (command_holds hstarts hblock ?_)
    rw [show (s.touch p).standbyLinked = true from hlink, if_neg (by simp), touch_ledger, if_neg (by simp [hwait])]
  · refine congrArg Host.Outcome.next (command_replies hstarts hblock ?_)
    rw [ctx_bay]
    rfl
  · refine congrArg Host.Outcome.next (command_replies hstarts hblock ?_)
    dsimp only
    rw [if_neg (by omega)]
    rfl

end Sys2Proof.Machine
end

section
/-! PROOFS. R381: the checks of a packet, in their order. -/

namespace Sys2Proof.Machine

section
variable {code : Nat} {body : Body} {p : Packet} {s : State} {r : Res}

/-- R382: a packet that a step before its rights refuses goes nowhere else. -/
theorem broadcast_refused (hearly : p.crc = p.crcOf code → (headCheck code p).isNone = true → (card code).any (·.bc) = false) (s : State) (r : Res) :
    s.broadcast code p (.refuse r) = s := by
  have hno : ¬ (p.target = 1023 ∧ p.hopLimit ≠ 0 ∧ (card code).any (·.bc) ∧ p.crc = p.crcOf code ∧ (headCheck code p).isNone ∧ s.mortar.stt ≠ .fenced) := by
    rintro ⟨-, -, hbc, hcrc, hhead, -⟩
    exact ne_true_of_eq_false (hearly hcrc hhead) hbc
  unfold State.broadcast
  cases p.transport with
  | mortar d => rfl
  | pcie f q c => exact if_neg hno
  | spi => exact if_neg hno
  | udp a b => exact if_neg hno

section
variable (hserving : s.serving = true) (hwaits : waitsHere code p (s.queueOf (queueId p.bay p.queue)) = none)
include hserving hwaits

/-- A packet refused before its rights only gets its reply. -/
theorem command_refused_early (hearly : p.crc = p.crcOf code → (headCheck code p).isNone = true → (card code).any (·.bc) = false)
    (hingress : ingress code p s = .refuse r) (hbusy : r.status ≠ stBusy) : command code body p s = s.answer code p r := by
  rw [command_refused hserving hwaits hingress hbusy, broadcast_refused hearly]

omit hserving hwaits in
/-- Past the version and the lengths. -/
theorem headCheck_whole (hversion : p.version = 1) (haligned : p.paramLen % 8 = 0) (hlimit : p.paramLen ≤ paramLimit p)
    (hlength : p.paramLen = p.params.length) : headCheck code p = (if p.flags.toNat / 32 ≠ 0 then some (Res.reserved 1)
      else if p.reserved ≠ 0 then some (Res.reserved 23)
      else if p.tagged != mustTag code p then some (Res.field 1)
      else if 7 < p.bay then some (Res.field 8)
      else if 15 < p.queue then some (Res.field 9)
      else if 1023 < p.target ∧ p.target ≠ 0xFFFF then some (Res.field 20)
      else none) := by
  rw [headCheck, if_neg (not_not.mpr hversion), if_neg (by omega)]

omit hserving hwaits in
/-- Past the flags, the reserved bytes and the tag: the fields that address the packet. -/
theorem headCheck_address (hversion : p.version = 1) (haligned : p.paramLen % 8 = 0) (hlimit : p.paramLen ≤ paramLimit p)
    (hlength : p.paramLen = p.params.length) (hflags : p.flags.toNat < 32) (hreserved : p.reserved = 0) (htagged : p.tagged = mustTag code p) :
    headCheck code p = (if 7 < p.bay then some (Res.field 8) else if 15 < p.queue then some (Res.field 9)
      else if 1023 < p.target ∧ p.target ≠ 0xFFFF then some (Res.field 20) else none) := by
  rw [headCheck_whole hversion haligned hlimit hlength, if_neg (by omega), if_neg (not_not.mpr hreserved), if_neg (by simp [htagged])]

/-- Steps 2 to 4 of R381. -/
theorem command_headRefused (hcrc : p.crc = p.crcOf code) (hgcm : p.transport.isUdp = true → p.gcmOk = true)
    (hhead : headCheck code p = some r) (hbusy : r.status ≠ stBusy) : command code body p s = s.answer code p r := by
  refine command_refused_early hserving hwaits (fun _ hnone => ?_) ?_ hbusy
  · rw [hhead] at hnone
    exact absurd hnone (by simp)
  · rw [ingress_of_crc hcrc hgcm, ingressAfterCrc, hhead]

/-- Step 5: an opcode without a row. -/
theorem command_badOpcode (hcrc : p.crc = p.crcOf code) (hgcm : p.transport.isUdp = true → p.gcmOk = true)
    (hhead : headCheck code p = none) (htarget : TargetHere p s = true) (hcard : card code = none) :
    command code body p s = s.answer code p (Res.err stBadOpcode 0) := by
  refine command_refused_early hserving hwaits (fun _ _ => by rw [hcard]; rfl) ?_ (by decide)
  rw [ingress_of_crc hcrc hgcm, ingressAfterCrc, hhead]
  dsimp only
  rw [if_neg (not_remote_of_targetHere htarget), hcard]

/-- A UDP packet whose GCM tag fails has no effect. -/
theorem command_gcmFailed (hudp : p.transport.isUdp = true) (hgcm : p.gcmOk = false) : command code body p s = s := by
  have hdrop : ingress code p s = .drop := by
    rw [ingress, if_pos (by simp [hudp, hgcm])]
  rw [command, if_neg (by simp [hserving])]
  dsimp only
  rw [hwaits]
  show arrive code body p s = s
  rw [arrive, hdrop]
  rfl

theorem command_badCrc (hgcm : p.transport.isUdp = true → p.gcmOk = true) (hcrc : p.crc ≠ p.crcOf code) :
    command code body p s = s.answer code p (Res.err stBadCrc 0) := by
  refine command_refused_early hserving hwaits (fun h => absurd h hcrc) ?_ (by decide)
  rw [ingress, if_neg (by simpa using hgcm), if_pos hcrc]

end

/-! ### Steps 7 to 11, for a packet that passes the steps before -/

/-- Steps 1 to 6 of R381 pass, and the packet is new (R387). -/
structure Passes (code : Nat) (p : Packet) (c : Card) (s : State) : Prop where
  crc : p.crc = p.crcOf code
  gcm : p.transport.isUdp = true → p.gcmOk = true
  head : headCheck code p = none
  target : TargetHere p s = true
  card : card code = some c
  fresh : replayOf p s = none
  current : tagStale p s = false

variable {c : Card}

theorem ingress_wrongBay (h : Passes code p c s) (hbay : bayPermitted code p s = false) :
    ingress code p s = .refuse (Res.err stDenied subWrongBay) := by
  rw [ingress_of_crc h.crc h.gcm, ingressAfterCrc]
  simp only [h.head, if_neg (not_remote_of_targetHere h.target), h.card, hbay]
  rfl

theorem ingress_noSession (h : Passes code p c s) (hbay : bayPermitted code p s = true) (hsession : sessionCheck code p s = some r) :
    ingress code p s = .refuse r := by
  rw [ingress_of_crc h.crc h.gcm, ingressAfterCrc]
  simp only [h.head, if_neg (not_remote_of_targetHere h.target), h.card, hbay, hsession]
  rfl

/-- Steps 9 to 11, once the bay and the session pass. -/
theorem ingress_rights (h : Passes code p c s) (hbay : bayPermitted code p s = true) (hsession : sessionCheck code p s = none) :
    ingress code p s = (if !c.may p.bay (s.ctx p).role then .refuse (Res.err stDenied subRole)
      else if c.idle s.kiln.role || fencedIdle code s then .refuse (Res.err stDenied subRoleIdle)
      else if code ≠ 0x0020 ∧ 256 ≤ (s.queueOf (queueId p.bay p.queue)).length then .refuse (Res.err stBusy subQueueFull 256)
      else .accept) := by
  rw [ingress_of_crc h.crc h.gcm, ingressAfterCrc]
  simp only [h.head, if_neg (not_remote_of_targetHere h.target), h.card, hbay, hsession, h.fresh, h.current]
  rfl

end

/-- Settles O37: each check of R381 in its turn, with those before it passed. -/
theorem firstFailingCheckDecidesTheReply : Obligations.FirstFailingCheckDecidesTheReply := by
  unfold Obligations.FirstFailingCheckDecidesTheReply
  refine ⟨fun code body p s hserving hwaits => ?_, fun code p c s hcrc hgcm hversion haligned hlimit hlength hflags hreserved htagged hbay hqueue htarget hcard hnew hfresh hcode => ?_⟩
  · refine ⟨fun hudp hgcm => command_gcmFailed hserving hwaits hudp hgcm, fun hgcm => ⟨command_badCrc hserving hwaits hgcm, fun hcrc => ⟨fun hversion => ?_, fun hversion => ⟨fun hlen => ?_,
      fun haligned hlimit hlength => ⟨fun hflags => ?_, fun hflags => ⟨fun hreserved => ?_, fun hreserved => ⟨fun htagged => ?_, fun htagged => ⟨fun hbay => ?_, fun hbay hqueue => ?_,
      fun hbay hqueue htarget hnone => ?_, fun hbay hqueue htarget hcard => ?_⟩⟩⟩⟩⟩⟩⟩⟩
    · exact command_headRefused hserving hwaits hcrc hgcm (by rw [headCheck, if_pos hversion]) (by decide)
    · exact command_headRefused hserving hwaits hcrc hgcm (by rw [headCheck, if_neg (not_not.mpr hversion), if_pos hlen]) (by decide)
    · exact command_headRefused hserving hwaits hcrc hgcm (by rw [headCheck_whole hversion haligned hlimit hlength, if_pos (by omega)]) (by decide)
    · exact command_headRefused hserving hwaits hcrc hgcm (by rw [headCheck_whole hversion haligned hlimit hlength, if_neg (by omega), if_pos hreserved]) (by decide)
    · exact command_headRefused hserving hwaits hcrc hgcm (by rw [headCheck_whole hversion haligned hlimit hlength, if_neg (by omega), if_neg (not_not.mpr hreserved), if_pos (by simpa using htagged)]) (by decide)
    · exact command_headRefused hserving hwaits hcrc hgcm (by rw [headCheck_address hversion haligned hlimit hlength hflags hreserved htagged, if_pos hbay]) (by decide)
    · exact command_headRefused hserving hwaits hcrc hgcm (by rw [headCheck_address hversion haligned hlimit hlength hflags hreserved htagged, if_neg (by omega), if_pos hqueue]) (by decide)
    · exact command_headRefused hserving hwaits hcrc hgcm (by rw [headCheck_address hversion haligned hlimit hlength hflags hreserved htagged, if_neg (by omega), if_neg (by omega), if_pos ⟨htarget, hnone⟩]) (by decide)
    · exact command_badOpcode hserving hwaits hcrc hgcm (headCheck_passed hversion haligned hlimit hlength hflags hreserved htagged hbay hqueue htarget) htarget hcard
  · have h : Passes code p c s := ⟨hcrc, hgcm, headCheck_passed hversion haligned hlimit hlength hflags hreserved htagged hbay hqueue htarget, htarget, hcard, hnew, hfresh⟩
    dsimp only
    refine ⟨ingress_wrongBay h, fun hpermitted r hsession => ingress_noSession h hpermitted hsession, fun hpermitted hsession => ⟨fun hrole => ?_,
      fun hrole => ⟨fun hidle => ?_, fun hactive hfenced => ⟨fun hfull => ?_, fun hroom => ?_⟩⟩⟩⟩
    · rw [ingress_rights h hpermitted hsession, hrole]
      rfl
    · rw [ingress_rights h hpermitted hsession, hrole, hidle]
      rfl
    · have hrefuse : ingress code p s = .refuse (Res.err stBusy subQueueFull 256) := by
        rw [ingress_rights h hpermitted hsession, hrole, hactive, hfenced, if_neg (by simp), if_neg (by simp), if_pos ⟨hcode, hfull⟩]
      exact ⟨hrefuse, by rw [hrefuse]; rfl⟩
    · have haccept : ingress code p s = .accept := by
        rw [ingress_rights h hpermitted hsession, hrole, hactive, hfenced, if_neg (by simp), if_neg (by simp), if_neg (fun h => hroom h.2)]
      exact ⟨haccept, by rw [Taken, haccept]⟩

end Sys2Proof.Machine
end

section
/-! PROOFS. R389, R390, R405: packets that wait, the deadline window, and the two device queries. -/

namespace Sys2Proof.Machine

section
variable {code : Nat} {body : Body} {p : Packet} {s : State}

theorem ingress_of_taken (htaken : Taken code p s = true) : ingress code p s = .accept := by
  unfold Taken at htaken
  split at htaken
  next h => exact h
  next => exact absurd htaken (by simp)

/-- A command without a packet of its own that waits: its packet arrives. -/
theorem command_arrives (hserving : s.serving = true) (hwaits : waitsHere code p (s.queueOf (queueId p.bay p.queue)) = none) :
    command code body p s = arrive code body p s := by
  rw [command, if_neg (by simp [hserving])]
  dsimp only
  rw [hwaits]

/-- R390: a packet that is taken behind others, or behind a command that has not replied, waits. -/
theorem takeIn_waits (hcode : code ≠ 0x0020)
    (hbehind : s.queueOf (queueId p.bay p.queue) ≠ [] ∨ (s.busyOf (queueId p.bay p.queue)).isSome = true) :
    takeIn code body p .accept s = (s.touch p).enqueue code p := by
  have hstart : ((s.queueOf (queueId p.bay p.queue)).isEmpty && canStart code p s.time.mono (s.touch p)) = false := by
    rcases hbehind with hqueue | hbusy
    · simp [hqueue]
    · have : ((s.touch p).busyOf (queueId p.bay p.queue)).isNone = false := by
        rw [show (s.touch p).busyOf _ = s.busyOf _ from rfl, Option.isNone_eq_false_iff, hbusy]
      simp [canStart, this]
  rw [takeIn, if_neg hcode]
  exact if_neg (ne_true_of_eq_false hstart)

/-- R381, step 12: past its window, a packet only gets DEADLINE. -/
theorem execNow_late {stamp : Nat} (hdeadline : p.deadline ≠ 0) (hlate : stamp + p.deadline * 1000 ≤ s.time.mono) :
    execNow code body p stamp s = s.answer code p (Res.err stDeadline 0) := by
  rw [execNow, startCheck, if_pos ⟨hdeadline, hlate⟩]

/-- Inside its window and its session, READY alone decides the start. -/
theorem startCheck_inside {stamp : Nat} (hinside : p.deadline = 0 ∨ s.time.mono < stamp + p.deadline * 1000) (hsession : sessionCheck code p s = none) :
    startCheck code p stamp s = if readyFor code p s then none else some (Res.err stNotReady 0) := by
  rw [startCheck, if_neg (by omega), hsession]

end

/-- Settles O38: acceptance touches the session and puts the packet behind its queue. -/
theorem packetsOfOneQueueWaitInOrder : Obligations.PacketsOfOneQueueWaitInOrder := by
  unfold Obligations.PacketsOfOneQueueWaitInOrder
  intro code body p s hserving htaken hown hcode hwaits hbehind
  rw [command_arrives hserving hwaits, arrive, ingress_of_taken htaken, broadcast_own hown, takeIn_waits hcode hbehind]
  rfl

/-- Settles O39: the start checks in their order, and the row that ends a window. -/
theorem deadlineEndsTheWindow : Obligations.DeadlineEndsTheWindow := by
  unfold Obligations.DeadlineEndsTheWindow
  refine ⟨fun code body p stamp s hdeadline hlate => execNow_late hdeadline hlate, fun code p stamp s hinside hsession => ⟨?_, fun hready => ?_⟩,
    fun bay queue pos e s hentry hdeadline hlate hheld => ?_, fun bay queue pos s hheld => ?_⟩
  · rw [startCheck_inside hinside hsession]
    cases readyFor code p s <;> simp
  · rw [startCheck_inside hinside hsession, hready]
    rfl
  · show execDeadlineExpire bay queue pos s = _
    rw [execDeadlineExpire, if_neg (ne_true_of_eq_false hheld), hentry]
    exact if_pos ⟨hdeadline, hlate⟩
  · exact if_pos hheld

/-- Settles O41: both queries read the state after acceptance. -/
theorem deviceQueriesAnswer : Obligations.DeviceQueriesAnswer := by
  unfold Obligations.DeviceQueriesAnswer
  refine fun p s hblock => ⟨fun hstarts => ?_, fun hstarts => ?_⟩
  · exact congrArg Host.Outcome.next (command_reads hstarts hblock rfl)
  · exact congrArg Host.Outcome.next (command_reads hstarts hblock rfl)

end Sys2Proof.Machine
end

section
/-! PROOFS. R378, R383, R384: what a reply leaves on its transport, and the packets that are not served. -/

namespace Sys2Proof.Machine

section
variable {α : Type} {d : α} {t : Tbl α} {n : Nat} {P : α → Prop}

/-- What holds of every entry and of the value an unlisted key reads as holds of every read. -/
theorem Tbl.get_of_forall (hd : P d) (ht : ∀ e ∈ t, P e.2) : P (Tbl.get d t n) := by
  induction t with
  | nil => exact hd
  | cons e t ih =>
    obtain ⟨k, v⟩ := e
    rw [Tbl.get]
    split
    · exact ht (k, v) List.mem_cons_self
    · exact ih fun e he => ht e (List.mem_cons_of_mem _ he)

theorem Tbl.erase_mem : ∀ e ∈ Tbl.erase t n, e ∈ t := by
  induction t with
  | nil => exact fun e he => he
  | cons x t ih =>
    intro e he
    rw [Tbl.erase] at he
    split at he
    · exact List.mem_cons_of_mem _ he
    · rcases List.mem_cons.mp he with rfl | he
      · exact List.mem_cons_self
      · exact List.mem_cons_of_mem _ (ih e he)

theorem Tbl.upd_forall [DecidableEq α] {f : α → α} (ht : ∀ e ∈ t, P e.2) (hf : P (f (Tbl.get d t n))) : ∀ e ∈ Tbl.upd d t n f, P e.2 := by
  intro e he
  rw [Tbl.upd, Tbl.set] at he
  split at he
  · exact ht e (Tbl.erase_mem e he)
  · rcases Tbl.insert_mem t n _ e he with rfl | he
    · exact hf
    · exact ht e he

end

section
variable {s : State} {code : Nat} {p : Packet} {a : Res}

/-- A command's answer sends one reply, from a state that differs only in its sessions and streams (R378). -/
theorem answer_sends (hcopies : s.copiesOf p = 0) :
    ∃ t : State, t.host.out = s.host.out ∧ t.host.spi = s.host.spi ∧ t.host.cq = s.host.cq ∧ t.host.qp = s.host.qp
      ∧ s.answer code p a = t.send p.transport (s.mkReply code p a) (p.quiet && a.status == stOk) := by
  obtain ⟨t, ht, hout, hspi, hcq, hqp, hsess, hkiln, htime⟩ : ∃ t : State, (if code = 0x0020 then s.dropStream p else s) = t ∧ t.host.out = s.host.out
      ∧ t.host.spi = s.host.spi ∧ t.host.cq = s.host.cq ∧ t.host.qp = s.host.qp ∧ t.host.sess = s.host.sess ∧ t.kiln = s.kiln ∧ t.time = s.time := by
    refine ⟨_, rfl, ?_⟩
    split
    · rw [State.dropStream]
      split
      · split <;> exact ⟨rfl, rfl, rfl, rfl, rfl, rfl, rfl⟩
      · exact ⟨rfl, rfl, rfl, rfl, rfl, rfl, rfl⟩
    · exact ⟨rfl, rfl, rfl, rfl, rfl, rfl, rfl⟩
  have hnone : t.copiesOf p = 0 := by
    rw [← hcopies, State.copiesOf, State.copiesOf, State.findSess, State.findSess, hsess]
  have hreply : t.mkReply code p a = s.mkReply code p a := by
    rw [State.mkReply, State.mkReply, State.stampNs, State.stampNs, State.sourceOf, State.sourceOf, State.nowNs, State.nowNs, hkiln, htime]
  refine ⟨t.modSess p.session fun x => { x with kept := keepReply p (s.mkReply code p a) x.kept }, hout, hspi, hcq, hqp, ?_⟩
  rw [State.answer, ht, hnone, hreply]
  rfl

/-- No pair has a continuation waiting, and changing a pair adds none. -/
theorem modQp_conts {fn q : Nat} {f : Qp → Qp} (hf : ∀ x, x.conts = [] → (f x).conts = []) (hconts : ∀ e ∈ s.host.qp, e.2.conts = []) :
    ∀ e ∈ (s.modQp fn q f).host.qp, e.2.conts = [] :=
  Tbl.upd_forall (P := fun x : Qp => x.conts = []) hconts (hf _ (Tbl.get_of_forall (P := fun x : Qp => x.conts = []) rfl hconts))

/-- R383: on a pair with room a reply takes one completion entry. -/
theorem complete_room {fn q cap : Nat} {r : Reply} {silent : Bool} (hrun : (s.qpOf fn q).size ≠ 0) (hroom : (s.qpOf fn q).cqFull = false) :
    (s.complete fn q cap r silent).host.cq = (
      { fn := fn, qp := q, bay := r.bay, sqHead := (s.qpOf fn q).sqHead, phase := (s.qpOf fn q).phase,
        truncated := decide (cap < if silent then 0 else r.bytes.length), more := r.more || (r.stream && !silent && !r.bulk.isEmpty), tag := r.tag,
        status := r.status, sub := r.sub, rspLen := min cap (if silent then 0 else r.bytes.length) } : Completion) :: s.host.cq
    ∧ (s.complete fn q cap r silent).host.out = s.host.out
    ∧ ((∀ e ∈ s.host.qp, e.2.conts = []) → ∀ e ∈ (s.complete fn q cap r silent).host.qp, e.2.conts = []) := by
  rw [State.complete]
  dsimp only
  rw [if_neg hrun, if_neg (ne_true_of_eq_false hroom)]
  split
  · rw [raiseB0_host, raise_host]
    exact ⟨rfl, rfl, modQp_conts (s := { s with host.cq := _ }) fun _ h => h⟩
  · rw [raise_host]
    exact ⟨rfl, rfl, modQp_conts (s := { s with host.cq := _ }) fun _ h => h⟩

/-- Without continuations waiting or added nothing more goes out. -/
theorem addConts_nil {fn q : Nat} (hconts : ∀ e ∈ s.host.qp, e.2.conts = []) : (s.addConts fn q []).host.out = s.host.out
    ∧ (s.addConts fn q []).host.cq = s.host.cq := by
  have hnone : ((s.modQp fn q fun x => { x with conts := x.conts ++ [] }).qpOf fn q).conts = [] :=
    Tbl.get_of_forall (P := fun x : Qp => x.conts = []) rfl (modQp_conts (fun x h => by rw [List.append_nil]; exact h) hconts)
  rw [State.addConts, hnone]
  exact ⟨rfl, rfl⟩

end

theorem conts_of_no_stream {r : Reply} (hstream : r.stream = false) : r.conts = [] := by
  rw [Reply.conts, if_pos (by simp [hstream])]

section
variable {s : State} {r : Reply} {quiet : Bool}

theorem send_spi : (s.send .spi r false).host.out = r.conts.reverse ++ r :: s.host.out ∧ (s.send .spi r false).host.spi = s.host.spi ++ (r :: r.conts).map Reply.bytes :=
  ⟨rfl, rfl⟩

theorem send_udp {u v : Nat} : (s.send (.udp u v) r false).host.out = r.conts.reverse ++ r :: s.host.out := rfl

theorem send_quiet {tr : Transport} (htr : tr = .spi ∨ tr.isUdp = true) (hquiet : quiet = true) : s.send tr r quiet = s := by
  rcases htr with rfl | htr
  · exact if_pos hquiet
  · cases tr with
    | udp a b => exact if_pos hquiet
    | spi => exact absurd htr (by decide)
    | pcie fn q cap => exact absurd htr (by simp [Transport.isUdp])
    | mortar d => exact absurd htr (by simp [Transport.isUdp])

/-- R383: the completion entry and the reply of a pair with room, no continuation waiting. -/
theorem send_pcie {fn : Fin 7} {q : Fin 16} {cap : Nat} (hrun : (s.qpOf fn q).size ≠ 0) (hroom : (s.qpOf fn q).cqFull = false) (hstream : r.stream = false)
    (hcont : r.cont = false) (hmore : r.more = false) (hconts : ∀ e ∈ s.host.qp, e.2.conts = []) :
    (s.send (.pcie fn q cap) r quiet).host.cq = (
      { fn := fn, qp := q, bay := r.bay, sqHead := (s.qpOf fn q).sqHead, phase := (s.qpOf fn q).phase,
        truncated := decide (cap < if quiet then 0 else r.bytes.length), more := false, tag := r.tag,
        status := r.status, sub := r.sub, rspLen := min cap (if quiet then 0 else r.bytes.length) } : Completion) :: s.host.cq
    ∧ (s.send (.pcie fn q cap) r quiet).host.out = if quiet then s.host.out else r :: s.host.out := by
  rw [State.send]
  cases quiet with
  | true =>
    obtain ⟨hcq, hout, -⟩ := complete_room (s := s) (cap := cap) (r := r) (silent := true) hrun hroom
    rw [if_pos rfl, hcq, hout, hmore, hstream]
    exact ⟨rfl, rfl⟩
  | false =>
    obtain ⟨hcq, hout, hqp⟩ := complete_room (s := { s with host.out := r :: s.host.out }) (cap := cap) (r := r) (silent := false) hrun hroom
    obtain ⟨haddOut, haddCq⟩ := addConts_nil (fn := fn) (q := q) (hqp hconts)
    rw [if_neg Bool.false_ne_true]
    dsimp only
    rw [if_neg (ne_true_of_eq_false hcont), conts_of_no_stream hstream, haddOut, haddCq, hcq, hout, hmore, hstream]
    exact ⟨rfl, rfl⟩

end

/-- Settles O40: a reply is sent once, on the transport its packet came from; an unserved packet is discarded. -/
theorem repliesEchoTheirCommand : Obligations.RepliesEchoTheirCommand := by
  unfold Obligations.RepliesEchoTheirCommand
  refine ⟨fun code p a s hcopies => ?_, fun code body p s hserving => ⟨fun hspi => ?_, fun hspi => ?_⟩⟩
  · obtain ⟨t, hout, hspiOut, hcq, hqp, hanswer⟩ := answer_sends (code := code) (a := a) hcopies
    dsimp only
    refine ⟨fun hspi hquiet => ?_, fun u v hudp hquiet => ?_, fun hquiet htr => ?_, fun fn q cap hpcie hrun hroom hstream hconts => ?_⟩
    · have hsend : s.answer code p a = t.send .spi (s.mkReply code p a) false := by rw [hanswer, hspi, hquiet]
      obtain ⟨hsendOut, hsendSpi⟩ := send_spi (s := t) (r := s.mkReply code p a)
      rw [hsend, hsendOut, hsendSpi, hout, hspiOut]
      exact ⟨rfl, rfl⟩
    · have hsend : s.answer code p a = t.send (.udp u v) (s.mkReply code p a) false := by rw [hanswer, hudp, hquiet]
      rw [hsend, send_udp, hout]
      rfl
    · rw [hanswer, send_quiet htr hquiet, hout]
    · have hqpOf : t.qpOf fn q = s.qpOf fn q := by rw [State.qpOf, hqp, State.qpOf]
      obtain ⟨hsendCq, hsendOut⟩ := send_pcie (s := t) (r := s.mkReply code p a) (quiet := p.quiet && a.status == stOk) (cap := cap)
        (by rwa [hqpOf]) (by rwa [hqpOf]) hstream rfl rfl (by rwa [hqp])
      have hsend : s.answer code p a = t.send (.pcie fn q cap) (s.mkReply code p a) (p.quiet && a.status == stOk) := by rw [hanswer, hpcie]
      rw [hsend, hsendCq, hsendOut, hqpOf, hcq, hout]
      exact ⟨rfl, rfl⟩
  · rw [command, hserving]
    exact by rw [if_pos (by rfl), State.unserved, hspi]
  · rw [command, hserving, if_pos (by rfl), State.unserved]
    split
    next h => exact absurd h hspi
    next => rfl

end Sys2Proof.Machine
end

section
/-! PROOFS. R392 to R397: sessions, their challenges, and the locks of identities. -/

namespace Sys2Proof.Machine

section
variable (s : State) (p : Packet)

theorem ctx_peer : (s.ctx p).peer = p.transport.peer := by
  unfold State.ctx
  split <;> rfl

/-- Acceptance changes a session's last use and its kept tags: what a session is stays. -/
theorem touch_sess_any {q : Session → Bool} (hq : ∀ (x : Session) t l, q { x with lastUse := t, kept := l } = q x) :
    (s.touch p).host.sess.any q = s.host.sess.any q := by
  simp only [State.touch, State.modSess, List.any_map]
  congr 1
  funext x
  simp only [Function.comp_apply]
  split
  · exact hq _ _ _
  · rfl

theorem touch_sess_count {q : Session → Bool} (hq : ∀ (x : Session) t l, q { x with lastUse := t, kept := l } = q x) :
    ((s.touch p).host.sess.filter q).length = (s.host.sess.filter q).length := by
  simp only [State.touch, State.modSess, List.filter_map, List.length_map]
  congr 2
  funext x
  simp only [Function.comp_apply]
  split
  · exact hq _ _ _
  · rfl

end

/-! ### SESSION_OPEN (R392) -/

/-- A new handle takes one free value. -/
theorem newHandle_state (s : State) : (newHandle s).2 = { s with freeCount := s.freeCount + 1 } := by
  rw [newHandle]
  dsimp only [State.draw]
  split <;> rfl

/-- The challenges that stay when one is issued to the same identity, bay and end, and those it replaces. -/
def sameChal (c : Ctx) (p : Packet) (x : Chal) : Bool :=
  x.identity == fld p.params 0 8 && x.bay == c.bay && x.peer == c.peer && x.answer.isNone

/-- R392: with room in the bay a challenge is issued, signed over its transcript. -/
theorem issueChallenge_room {c : Ctx} {p : Packet} {role : SessRole} {s : State}
    (hchal : ((s.host.chal.filter fun x => !sameChal c p x).filter (·.bay == c.bay)).length < 8) (hsess : (s.host.sess.filter (·.bay == c.bay)).length < 8) :
    ∃ (h n : Nat) (nonce eph sig : Bytes) (x : Chal), issueChallenge c p role s
        = ({ s with freeCount := n, host.chal := (s.host.chal.filter fun x => !sameChal c p x) ++ [x],
                    host.expired := ((s.host.chal.filter (sameChal c p)).map fun x : Chal => (x.handle, x.identity)) ++ s.host.expired },
           .reply (Res.ok (leBytes 2 h ++ zeros 6 ++ nonce ++ eph ++ sig)))
      ∧ x.handle = h ∧ x.bay = c.bay ∧ x.identity = fld p.params 0 8 ∧ x.role = role ∧ x.peer = c.peer
      ∧ x.issued = s.time.mono ∧ x.answer = none ∧ x.idleS = (if fld p.params 10 2 = 0 then 600 else fld p.params 10 2)
      ∧ x.transcript = transcript (fld p.params 0 8) role.code c.bay h (slice p.params 16 16) (slice p.params 32 64) nonce eph
      ∧ sig = fitBytes 64 (Config.deviceSign x.transcript)
      ∧ (x.canPass = true ↔ role.bayOk c.bay = true ∧
          ∃ i, s.findIdent (fld p.params 0 8) = some i ∧ i.role = role ∧ i.bayMask.getLsbD c.bay = true) := by
  have hpass (m : Option Ident) : ((match m with | some i => i.role == role && i.bayMask.getLsbD c.bay | none => false) && role.bayOk c.bay) = true
      ↔ role.bayOk c.bay = true ∧ ∃ i, m = some i ∧ i.role = role ∧ i.bayMask.getLsbD c.bay = true := by
    cases m with
    | none => simp
    | some i => simp; tauto
  unfold issueChallenge
  dsimp only
  rw [if_neg (fun h => h.elim (Nat.not_le.mpr hchal) (Nat.not_le.mpr hsess)), newHandle_state]
  refine ⟨_, _, _, _, _, _, rfl, rfl, rfl, rfl, rfl, rfl, rfl, rfl, rfl, rfl, rfl, hpass _⟩

/-- Settles O42: the challenge is issued on the state after acceptance. -/
theorem sessionOpenIssuesAChallenge : Obligations.SessionOpenIssuesAChallenge := by
  unfold Obligations.SessionOpenIssuesAChallenge
  intro p s role hstarts hblock hrole hkey hidle hlock
  dsimp only
  intro hchal hsess
  have hbay := ctx_bay (s.touch p) p
  have hpeer := ctx_peer (s.touch p) p
  obtain ⟨h, n, nonce, eph, sig, x, hissue, hfacts⟩ := issueChallenge_room (c := (s.touch p).ctx p) (p := p) (role := role) (s := s.touch p)
    (by unfold sameChal; rw [hbay, hpeer]; exact hchal)
    (by rw [hbay, touch_sess_count]; exacts [hsess, fun _ _ _ => rfl])
  refine ⟨h, n, nonce, eph, sig, x, congrArg Host.Outcome.next (command_replies hstarts hblock ?_), by rwa [hbay, hpeer] at hfacts⟩
  unfold sameChal at hissue
  rw [hbay, hpeer] at hissue
  dsimp only
  rw [hrole]
  dsimp only
  rw [touch_store, if_neg (ne_true_of_eq_false hkey), if_neg (by omega), show (s.touch p).findIdent _ = s.findIdent _ from rfl]
  cases hfind : s.findIdent (fld p.params 0 8) with
  | none => exact hissue
  | some i =>
    dsimp only
    rw [touch_time, if_neg (ne_true_of_eq_false (hlock i hfind))]
    exact hissue

/-! ### SESSION_AUTH (R394, R396, R397) -/

section
variable {p : Packet} {s : State} {c : Chal} {i : Ident}

/-- An answer to a live challenge of an identity that is not locked is decided by its proof. -/
theorem command_sessionAuth_live (hstarts : Starts 0x0003 p s = true) (hblock : Block 72 [(1, 7)] p = true) (hfind : s.findChal p.session = some c)
    (hlive : s.time.mono < c.issued + 10 * second) (hlen : proofLenOk c.role (fld p.params 0 1) = true)
    (hzero : allZero p.params (8 + fld p.params 0 1) (64 - fld p.params 0 1) = true) (hident : s.findIdent c.identity = some i)
    (hlock : i.lockedAt s.time.mono = false) :
    command 0x0003 bodySessionAuth p s = finish 0x0003 p s.time.mono
      (if p.gcmOk && c.canPass && proofOk i c.transcript (slice p.params 8 (fld p.params 0 1)) then authValid c p (s.touch p) else authInvalid c (s.touch p)) := by
  rw [command_starts hstarts, bodySessionAuth, fixedBody_block hblock]
  dsimp only
  rw [show (s.touch p).findChal _ = some c from hfind]
  dsimp only
  rw [touch_time, if_neg (Nat.not_le.mpr hlive), if_neg (by simp [hlen]), if_neg (by simp [hzero]), show (s.touch p).findIdent _ = some i from hident]
  dsimp only
  rw [if_neg (ne_true_of_eq_false hlock)]

theorem authValid_alone (hrivals : rivals s c = []) : authValid c p s = ((s.settleAuth c).1, .reply (s.settleAuth c).2) := by
  rw [authValid, hrivals]
  rfl

/-- R397: with a rival challenge that has no valid answer, a valid one waits. -/
theorem authValid_waits (hrivals : rivals s c ≠ []) (hunanswered : (rivals s c).find? (·.answer.isSome) = none) :
    authValid c p s = ({ s with host.chal := s.host.chal.map fun x => if x.handle = c.handle then { x with answer := some ⟨0x0003, p, s.time.mono⟩ } else x }, .hold .auth) := by
  rw [authValid, hunanswered]
  exact if_neg (by simpa using hrivals)

/-- R397: with a rival's valid answer the identity is a clone. -/
theorem authValid_clone {r : Chal} {e : QEntry} (hrival : (rivals s c).find? (·.answer.isSome) = some r) (hanswer : r.answer = some e) :
    authValid c p s = (((((s.dropChal c).dropChal r).modIdent c.identity fun i => { i with clone := true }).pulse 968 c.identity).replyWaiting e
      (Res.err stLockedOut subClone), .reply (Res.err stLockedOut subClone)) := by
  rw [authValid, hrival]
  dsimp only
  rw [hanswer]

section
variable (hident : s.findIdent c.identity = some i) (hlock : i.lockedAt s.time.mono = false)
include hident hlock

theorem settleAuth_twice (hsess : (s.host.sess.any fun x => x.bay == c.bay && x.identity == c.identity) = true) :
    s.settleAuth c = (s.dropChal c, Res.err stBusy 0) := by
  rw [State.settleAuth, hident]
  dsimp only
  rw [if_neg (ne_true_of_eq_false hlock), if_pos hsess]

theorem settleAuth_full (hsess : (s.host.sess.any fun x => x.bay == c.bay && x.identity == c.identity) = false)
    (hfull : 8 ≤ (s.host.sess.filter (·.bay == c.bay)).length) : s.settleAuth c = (s.dropChal c, Res.err stCapacity subSessionsFull) := by
  rw [State.settleAuth, hident]
  dsimp only
  rw [if_neg (ne_true_of_eq_false hlock), if_neg (ne_true_of_eq_false hsess), if_pos hfull]

theorem settleAuth_opens (hsess : (s.host.sess.any fun x => x.bay == c.bay && x.identity == c.identity) = false)
    (hroom : (s.host.sess.filter (·.bay == c.bay)).length < 8) : s.settleAuth c = s.openSession c := by
  rw [State.settleAuth, hident]
  dsimp only
  rw [if_neg (ne_true_of_eq_false hlock), if_neg (ne_true_of_eq_false hsess), if_neg (Nat.not_le.mpr hroom)]

end

end

/-- Settles O43: an expired or unknown challenge first, then the proof, then what else is live for the identity. -/
theorem sessionAuthOpensTheSession : Obligations.SessionAuthOpensTheSession := by
  unfold Obligations.SessionAuthOpensTheSession
  intro p s c i hstarts hblock
  refine ⟨fun hnone => ?_, fun hfind hexpired => ?_, fun hfind hlive hlen hzero hident hlock => ?_⟩
  · refine congrArg Host.Outcome.next (command_replies hstarts hblock ?_)
    dsimp only
    rw [show (s.touch p).findChal _ = none from hnone]
    rfl
  · refine congrArg Host.Outcome.next (command_replies hstarts hblock ?_)
    dsimp only
    rw [show (s.touch p).findChal _ = some c from hfind]
    dsimp only
    rw [touch_time, if_pos hexpired]
  · dsimp only
    have hdecided := command_sessionAuth_live hstarts hblock hfind hlive hlen hzero hident hlock
    have hvalid (h : p.gcmOk = true ∧ c.canPass = true ∧ proofOk i c.transcript (slice p.params 8 (fld p.params 0 1)) = true) :
        command 0x0003 bodySessionAuth p s = finish 0x0003 p s.time.mono (authValid c p (s.touch p)) := by
      rw [hdecided, if_pos (by simp [h])]
    refine ⟨fun hproof hrivals => ⟨fun htwice => ?_, fun honce => ⟨fun hfull => ?_, fun hroom => ?_⟩⟩, fun hproof hrivals hunanswered => ?_,
      fun r e hproof hrival hanswer => ?_, fun hproof => ?_⟩
    · refine congrArg Host.Outcome.next ((hvalid hproof).trans ?_)
      rw [authValid_alone (s := s.touch p) hrivals, settleAuth_twice (s := s.touch p) hident hlock (by rw [touch_sess_any]; exacts [htwice, fun _ _ _ => rfl]), finish]
    · refine congrArg Host.Outcome.next ((hvalid hproof).trans ?_)
      rw [authValid_alone (s := s.touch p) hrivals, settleAuth_full (s := s.touch p) hident hlock (by rw [touch_sess_any]; exacts [honce, fun _ _ _ => rfl])
        (by rw [touch_sess_count]; exacts [hfull, fun _ _ _ => rfl]), finish]
    · refine congrArg Host.Outcome.next ((hvalid hproof).trans ?_)
      rw [authValid_alone (s := s.touch p) hrivals, settleAuth_opens (s := s.touch p) hident hlock (by rw [touch_sess_any]; exacts [honce, fun _ _ _ => rfl])
        (by rw [touch_sess_count]; exacts [hroom, fun _ _ _ => rfl]), finish]
      rfl
    · refine congrArg Host.Outcome.next ((hvalid hproof).trans ?_)
      rw [authValid_waits (s := s.touch p) hrivals hunanswered, finish]
      rfl
    · refine congrArg Host.Outcome.next ((hvalid hproof).trans ?_)
      rw [authValid_clone (s := s.touch p) hrival hanswer, finish]
    · refine congrArg Host.Outcome.next (hdecided.trans ?_)
      rw [if_neg (by simpa using hproof), authInvalid, finish]

/-- R396: the n-th lock lasts 60 · 2 ^ (n − 1) s, at most an hour. -/
theorem lockSeconds_succ (n : Nat) : lockSeconds (n + 1) = min 3600 (60 * 2 ^ n) := by
  rw [lockSeconds, Nat.add_sub_cancel]

/-- Settles O44: the ends of sessions, challenges and locks, and the count of failures. -/
theorem sessionsChallengesAndLocksEnd : Obligations.SessionsChallengesAndLocksEnd := by
  unfold Obligations.SessionsChallengesAndLocksEnd
  refine ⟨fun p s h => ⟨fun hstarts hblock => ?_, fun x hfind hidle => ?_, fun c hfind hanswer hold => ?_, fun i e hfind hend hover => ?_⟩, fun s id i hfind => ?_⟩
  · exact congrArg Host.Outcome.next (command_replies hstarts hblock rfl)
  · show execSessionIdleTimeout h s = _
    rw [execSessionIdleTimeout, hfind]
    exact if_pos hidle
  · show execChallengeExpire h s = _
    rw [execChallengeExpire, hfind]
    exact if_pos ⟨by rw [hanswer]; rfl, hold⟩
  · show execIdentityLockEnd h s = _
    rw [execIdentityLockEnd, hfind]
    dsimp only
    rw [hend]
    exact if_pos hover
  · have hfound : (s.pulse 970 id).findIdent id = some i := by rw [State.findIdent, pulse_host]; exact hfind
    dsimp only
    refine ⟨fun hfew => ?_, fun hfifth => ?_⟩
    · rw [State.authFail]
      dsimp only
      rw [hfound, pulse_time]
      exact if_pos hfew
    · rw [State.authFail]
      dsimp only
      rw [hfound, pulse_time]
      dsimp only
      rw [if_neg (Nat.not_lt.mpr hfifth)]
      simp only [lockSeconds_succ]

end Sys2Proof.Machine
end

section
/-! PROOFS. R376, R377, R382: BULK_DATA, and packets and broadcasts that go on to other devices. -/

namespace Sys2Proof.Machine

/-! ### BULK_DATA (R377) -/

theorem le_ceilDiv_mul (n : Nat) : n ≤ 8 * ceilDiv n 8 := by
  rw [ceilDiv]
  omega

/-- Past the end of the bytes nothing is nonzero. -/
theorem allZero_past {b : Bytes} {from_ n : Nat} (h : b.length ≤ from_) : allZero b from_ n = true := by
  rw [allZero, List.drop_eq_nil_of_le h, List.take_nil, List.all_nil]

section
variable {p : Packet} {s : State} {f : InFlight} {got : Bytes} {need last : Nat}

/-- A BULK_DATA packet is taken at once, whatever waits in its queue. -/
theorem command_bulkData (hserving : s.serving = true) (hqueue : (s.queueOf (queueId p.bay p.queue)).all (fun e => e.code != 0x0020) = true)
    (htaken : Taken 0x0020 p s = true) (hstart : startCheck 0x0020 p s.time.mono (s.touch p) = none) (htarget : p.target ≠ 1023)
    (hseal : sealFault 0x0020 p (s.touch p) = false) (body : Body) :
    command 0x0020 body p s = finish 0x0020 p s.time.mono (body ((s.touch p).ctx p) p (s.touch p)) := by
  have hwaits : waitsHere 0x0020 p (s.queueOf (queueId p.bay p.queue)) = none := by
    rw [waitsHere, if_pos rfl, List.find?_eq_none]
    intro e he
    have hcode := List.all_eq_true.mp hqueue e he
    simp_all
  have hown : HostBroadcast p = false := by simp [HostBroadcast, htarget]
  rw [command_arrives hserving hwaits, arrive, ingress_of_taken htaken, broadcast_own hown, takeIn, if_pos rfl, touch_time, execNow_passed hstart (by simp [bcRefused, htarget]) hseal]

/-- The stream's next data, checked. -/
theorem bulkDataBody_takes (hbusy : s.busyOf (queueId p.bay p.queue) = some f) (hkind : f.kind = .stream got need last) (howner : streamOwner p f = true)
    (hbulk : p.isBulk = false) (hcont : p.cont = true) (hlen : 8 ≤ p.params.length) (hlast : s.time.mono ≤ last + 10 * second)
    (hofs : fld p.params 0 4 = got.length) (hzero : allZero p.params 4 4 = true)
    (hfit : (p.params.drop 8).length ≤ 8 * ceilDiv (need - got.length) 8) (hpad : allZero (p.params.drop 8) (need - got.length) 8 = true) (c : Ctx) :
    bulkDataBody c p s = (s.streamTake f got need (p.params.drop 8), .silent) := by
  have hstays : s.endStalled (queueId p.bay p.queue) = s := by
    rw [State.endStalled, hbusy]
    dsimp only
    rw [hkind]
    exact if_neg (Nat.not_lt.mpr hlast)
  rw [bulkDataBody, hstays]
  dsimp only
  rw [if_neg (by simp [hbulk, hcont]), if_neg (Nat.not_lt.mpr hlen), hbusy, Option.filter_some_pos howner]
  dsimp only
  rw [hkind]
  dsimp only
  rw [if_neg (not_not_intro hofs), if_neg (by simp [hzero]), if_neg (Nat.not_lt.mpr hfit), if_neg (by simp [hpad])]

end

/-! ### Packets that go on (R376, R382, R388) -/

/-- The packet entered from a host of this device. -/
def fromHost (p : Packet) : Bool :=
  match p.transport with
  | .mortar _ => false
  | _ => true

section
variable {op : Nat} {p : Packet} {s : State}

theorem forwardPacket_host (hhost : fromHost p = true) :
    let on : Packet := { p with source := s.kiln.devId }
    let sent : Packet := { on with crc := on.crcOf op }
    s.forwardPacket op p = (s.unitLanes none s.kiln.devId p.target).foldl (fun (u : State) m => u.modLane m fun l =>
      { l with sent := .unit (s.qosOf p.bay).cls s.kiln.devId p.target (s.mortar.mySeq + 1) (.command op sent) :: l.sent })
      { s with mortar.mySeq := s.mortar.mySeq + 1, host.forwarded := (op, p) :: s.host.forwarded } := by
  rcases p with ⟨tr⟩
  cases tr with
  | mortar d => exact absurd hhost (by simp [fromHost])
  | pcie fn q cap => rfl
  | spi => rfl
  | udp a b => rfl

/-- R382: an accepted broadcast of a host goes on where its hops, its card and this device's state permit it. -/
theorem broadcast_host (hhost : fromHost p = true) (htarget : p.target = 1023) (hcrc : p.crc = p.crcOf op) (hhead : headCheck op p = none) :
    s.broadcast op p .accept = if p.hopLimit ≠ 0 ∧ ((card op).any fun c => c.bc) = true ∧ s.mortar.stt ≠ .fenced then s.forwardPacket op p else s := by
  have hcond : (p.target = 1023 ∧ p.hopLimit ≠ 0 ∧ (card op).any (·.bc) ∧ p.crc = p.crcOf op ∧ (headCheck op p).isNone ∧ s.mortar.stt ≠ .fenced)
      ↔ (p.hopLimit ≠ 0 ∧ ((card op).any fun c => c.bc) = true ∧ s.mortar.stt ≠ .fenced) := by
    simp [htarget, ← hcrc, hhead]
  rw [← if_congr hcond rfl rfl]
  rcases p with ⟨tr⟩
  cases tr with
  | mortar d => exact absurd hhost (by simp [fromHost])
  | pcie fn q cap => rfl
  | spi => rfl
  | udp a b => rfl

section
variable (hserving : s.serving = true) (htarget : p.target ≠ 1023) (hlocal : targetLocal p s = false) (hgcm : p.transport.isUdp = true → p.gcmOk = true)
  (hcrc : p.crc = p.crcOf op) (hhead : headCheck op p = none)
include hserving htarget hlocal hgcm hcrc hhead

/-- R382: a packet for another device that passes its header is refused on its way or goes on. -/
theorem packetForward_remote : execPacketForward op p s = .next (match remoteCheck p (s.unitLanes none (s.originOf p) p.target) with
    | some r => s.turnedAway op p (.refuse r)
    | none => s.forwardPacket op p) := by
  rw [execPacketForward, if_pos (by simp [hserving, htarget, hlocal]), ingress_of_crc hcrc hgcm, ingressAfterCrc, hhead]
  dsimp only
  rw [if_pos ⟨htarget, by simp [hlocal]⟩]
  cases remoteCheck p (s.unitLanes none (s.originOf p) p.target) <;> rfl

/-- A packet of a host of this device. -/
theorem packetForward_host (hhost : fromHost p = true) :
    (p.hopLimit = 0 ∨ 63 < p.hopLimit → execPacketForward op p s = .next (s.answer op p (Res.field 22)))
    ∧ (1 ≤ p.hopLimit ∧ p.hopLimit ≤ 63 →
      (s.unitLanes none s.kiln.devId p.target = [] → execPacketForward op p s = .next (s.answer op p (Res.err stUnreachable 0)))
      ∧ (s.unitLanes none s.kiln.devId p.target ≠ [] → execPacketForward op p s = .next (s.forwardPacket op p))) := by
  have hcheck (lanes : List Nat) : remoteCheck p lanes = (if p.hopLimit = 0 ∨ 63 < p.hopLimit then some (Res.field 22)
      else if lanes.isEmpty then some (Res.err stUnreachable 0) else none) := by
    rcases p with ⟨tr⟩
    cases tr with
    | mortar d => exact absurd hhost (by simp [fromHost])
    | pcie fn q cap => rfl
    | spi => rfl
    | udp a b => rfl
  have horigin : s.originOf p = s.kiln.devId := by
    rcases p with ⟨tr⟩
    cases tr with
    | mortar d => exact absurd hhost (by simp [fromHost])
    | pcie fn q cap => rfl
    | spi => rfl
    | udp a b => rfl
  rw [packetForward_remote hserving htarget hlocal hgcm hcrc hhead, horigin, hcheck]
  refine ⟨fun hhop => ?_, fun hhop => ⟨fun hlanes => ?_, fun hlanes => ?_⟩⟩
  · rw [if_pos hhop]
    exact congrArg _ (turnedAway_refuse_of_not_busy s (by decide))
  · rw [if_neg (by omega), hlanes]
    exact congrArg _ (turnedAway_refuse_of_not_busy s (by decide))
  · rw [if_neg (by omega), if_neg (by simpa using hlanes)]

/-- A packet that comes over the mortar link, on its way to another device. -/
theorem packetForward_mortar {d : Nat} (htr : p.transport = .mortar d) :
    (p.hopLimit ≤ 1 → execPacketForward op p s = .next (s.answer op p (Res.err stUnreachable subHopLimit)))
    ∧ (2 ≤ p.hopLimit →
      (s.unitLanes none d p.target = [] → execPacketForward op p s = .next (s.answer op p (Res.err stUnreachable 0)))
      ∧ (s.unitLanes none d p.target ≠ [] → execPacketForward op p s = .next (s.forwardPacket op p))) := by
  have hcheck (lanes : List Nat) : remoteCheck p lanes = (if p.hopLimit ≤ 1 then some (Res.err stUnreachable subHopLimit)
      else if lanes.isEmpty then some (Res.err stUnreachable 0) else none) := by
    rw [remoteCheck, htr]
  have horigin : s.originOf p = d := by rw [State.originOf, htr]
  rw [packetForward_remote hserving htarget hlocal hgcm hcrc hhead, horigin, hcheck]
  refine ⟨fun hhop => ?_, fun hhop => ⟨fun hlanes => ?_, fun hlanes => ?_⟩⟩
  · rw [if_pos hhop]
    exact congrArg _ (turnedAway_refuse_of_not_busy s (by decide))
  · rw [if_neg (by omega), hlanes]
    exact congrArg _ (turnedAway_refuse_of_not_busy s (by decide))
  · rw [if_neg (by omega), if_neg (by simpa using hlanes)]

end

end

/-- Settles O45: the stream's next data, the way of a packet to its target, and what a host's broadcast leaves here. -/
theorem bulkDataAndForwarding : Obligations.BulkDataAndForwarding := by
  unfold Obligations.BulkDataAndForwarding
  refine ⟨fun p s f got need last => ?_, fun op p s hserving htarget hlocal hgcm hcrc hhead => ?_, fun code body p s hserving hhost htaken hwaits hcrc hhead => ?_⟩
  · dsimp only
    intro hbusy hkind howner
    refine ⟨fun hserving hqueue htaken hstart htarget hseal hbulk hcont hlen hlast hofs hzero => ?_, fun bay queue hq hstall => ?_⟩
    · have htakes (hfit : (p.params.drop 8).length ≤ 8 * ceilDiv (need - got.length) 8) (hpad : allZero (p.params.drop 8) (need - got.length) 8 = true) :
          exec (.bulkData p) s = .next ((s.touch p).streamTake f got need (p.params.drop 8)) := by
        refine congrArg Host.Outcome.next ((command_bulkData hserving hqueue htaken hstart htarget hseal _).trans ?_)
        rw [bulkDataBody_takes (s := s.touch p) hbusy hkind howner hbulk hcont hlen hlast hofs hzero hfit hpad, finish]
      refine ⟨fun hmore => ?_, fun hall hfit hpad => ?_⟩
      · have hshort : (p.params.drop 8).length ≤ need - got.length := by omega
        refine (htakes (hshort.trans (le_ceilDiv_mul _)) (allZero_past hshort)).trans ?_
        rw [State.streamTake, if_neg (by rw [List.length_append]; omega)]
        rfl
      · refine (htakes hfit hpad).trans ?_
        rw [State.streamTake, if_pos (by rw [List.length_append]; omega)]
    · show execStreamStall bay queue s = _
      rw [execStreamStall, hq, hbusy]
      dsimp only
      rw [hkind]
      dsimp only
      rw [if_pos hstall, State.finishHeld, hbusy]
  · rcases p with ⟨tr⟩
    dsimp only
    have hhost := packetForward_host hserving htarget hlocal hgcm hcrc hhead
    cases tr with
    | mortar d =>
      obtain ⟨hspent, hgoes⟩ := packetForward_mortar hserving htarget hlocal hgcm hcrc hhead rfl
      exact ⟨fun h => h.elim, fun _ => hspent, hgoes⟩
    | pcie fn q cap => exact ⟨(hhost rfl).1, fun h => absurd h (by simp), (hhost rfl).2⟩
    | spi => exact ⟨(hhost rfl).1, fun h => absurd h (by simp), (hhost rfl).2⟩
    | udp a b => exact ⟨(hhost rfl).1, fun h => absurd h (by simp), (hhost rfl).2⟩
  · dsimp only
    have htarget : p.target = 1023 := by simp_all [HostBroadcast]
    have hfromHost : fromHost p = true := by rw [HostBroadcast, Bool.and_eq_true] at hhost; exact hhost.2
    have hsent := forwardPacket_host (s := s) (op := code) hfromHost
    dsimp only at hsent
    rw [command_arrives hserving hwaits, arrive, ingress_of_taken htaken, broadcast_host hfromHost htarget hcrc hhead]
    refine ⟨fun hpermitted => ?_, fun hbarred => ?_⟩
    · rw [if_pos hpermitted, hsent, htarget]
    · rw [if_neg hbarred]

end Sys2Proof.Machine
end

section
/-! PROOFS. R406 to R410: edits of the shadow set, and the reads of the configuration. -/

namespace Sys2Proof.Machine

/-- Writing keys leaves a set's generation. -/
theorem foldl_put_gen (l : List (Nat × Nat)) (ks : KeySet) : (l.foldl (fun ks e => ks.put e.1 e.2) ks).gen = ks.gen := by
  induction l generalizing ks with
  | nil => rfl
  | cons e l ih => exact (ih _).trans rfl

/-- Settles O46: an edit goes to the shadow set, a read answers from the set it names. -/
theorem editsAndConfigurationReads : Obligations.EditsAndConfigurationReads := by
  unfold Obligations.EditsAndConfigurationReads
  refine ⟨fun p s hpend hro => ⟨fun l hstarts hbulk hlen hlow hhigh hzero hedits hlegal => ?_, fun hstarts hblock => ?_⟩, fun p s => ⟨?_, fun hstarts hblock => ?_⟩⟩
  · refine congrArg Host.Outcome.next (command_starts_replies hstarts ?_)
    have hright : ¬ ((l.any (fun e => isLegalKey e.1) && !b0Legal p.bay ((s.touch p).ctx p).role) = true) := by
      cases hany : l.any (fun e => isLegalKey e.1) with
      | false => simp
      | true => simp [hlegal hany]
    rw [cfgEditBody, if_neg (by simp [hbulk]), if_neg (by omega)]
    dsimp only
    rw [if_neg (by omega), if_neg (by simp [hzero]), hedits]
    dsimp only
    rw [ctx_bay, if_neg hright, touch_cfg, if_neg (by simp [hpend]), show (s.touch p).cfgReadOnly = false from hro, if_neg (by simp), foldl_put_gen]
    rfl
  · refine congrArg Host.Outcome.next (command_replies hstarts hblock ?_)
    dsimp only
    rw [touch_cfg, if_neg (by simp [hpend]), show (s.touch p).cfgReadOnly = false from hro, if_neg (by simp)]
    rfl
  · dsimp only
    intro hstarts hbulk hlen hset hzero1 hlow hhigh hzero4 hlength hpad hkeys
    refine congrArg Host.Outcome.next (command_starts_replies hstarts ?_)
    have hknown : ((List.range (fld p.params 2 2)).find? fun i =>
        (keyInfo (((List.range (fld p.params 2 2)).map fun i => fld p.params (8 + 2 * i) 2).getD i 0)).isNone) = none := by
      rw [List.find?_eq_none]
      intro i hi
      simpa [Option.isSome_iff_ne_none] using hkeys i (List.mem_range.mp hi)
    rw [cfgReadBody, if_neg (by simp [hbulk]), if_neg (by omega)]
    dsimp only
    rw [if_neg (by omega), if_neg (by simp [hzero1]), if_neg (by omega), if_neg (by simp [hzero4]), if_neg (not_not_intro hlength), if_neg (by simp [hpad]), hknown]
    rfl
  · exact congrArg Host.Outcome.next (command_reads hstarts hblock rfl)

end Sys2Proof.Machine
end

section
/-! PROOFS. R409, R438, R439: CFG_SWAP arms, the swap sample applies, CFG_CANCEL takes back. -/

namespace Sys2Proof.Machine

/-! ### Records that stay among the newest -/

/-- A record among the newest `k` of the log. -/
def Recent (k : Nat) (r : EvRec) (s : State) : Prop := r ∈ s.ev.last.take k

/-- What one decision does to the log of records: nothing, or one further record. -/
def OneMore (s t : State) : Prop := t.ev.last = s.ev.last ∨ ∃ x, t.ev.last = (x :: s.ev.last).take 4096

theorem oneMore_pulse (s : State) (src data : Nat) : OneMore s (s.pulse src data) := by
  cases hi : sourceIdle s.kiln.role src with
  | true => exact .inl (congrArg (fun t : State => t.ev.last) (occurAt_idle hi _ _ _ _))
  | false => exact .inr ⟨_, pulse_last hi data⟩

theorem oneMore_level (s : State) (src : Nat) (on : Bool) (data : Nat) : OneMore s (s.level src on data) := by
  cases hi : sourceIdle s.kiln.role src with
  | true => exact .inl (congrArg (fun t : State => t.ev.last) (levelAt_idle hi _ _ _ _))
  | false =>
    by_cases hkeep : s.asserted src = on
    · exact .inl (level_keeps src on data hkeep)
    · refine .inr ⟨s.evRecord s.time.index s.nowNs src (if on then .assert else .deassert) data, ?_⟩
      unfold State.level State.levelAt
      rw [if_neg (by simp [hi])]
      cases on with
      | false =>
        have hon : s.asserted src = true := by simpa using hkeep
        simp only [hon, if_true, if_false, Bool.false_eq_true]
        exact occurAt_last (s := { s with ev.level := Tbl.set none s.ev.level src none }) hi _ _ _ _
      | true =>
        have hoff : s.asserted src = false := by simpa using hkeep
        simp only [hoff, if_true, if_false, Bool.false_eq_true]
        exact occurAt_last (s := { s with ev.level := Tbl.set none s.ev.level src (some data) }) hi _ _ _ _

theorem setCause_ev (s : State) (cause : Nat) : (s.setCause cause).ev = s.ev := by
  unfold State.setCause
  split <;> rfl

theorem oneMore_f2 (s : State) (cause : Nat) : OneMore s (s.f2 cause) := by
  unfold State.f2
  generalize hcount : s.modAllWin (fun w => { w with count2 := (w.count2 + 1) % 2 ^ 32 }) = c
  have hev : (c.setCause cause).ev = s.ev := by rw [setCause_ev, ← hcount, modAllWin_ev]
  have hpulse := oneMore_pulse (c.setCause cause) 1009 cause
  rwa [OneMore, hev] at hpulse

section
variable {k : Nat} {r : EvRec} {s t : State}

theorem Recent.mono {j : Nat} (h : Recent k r s) (hkj : k ≤ j) : Recent j r s :=
  List.take_subset_take_left _ hkj h

theorem Recent.oneMore (h : Recent k r s) (hstep : OneMore s t) (hk : k + 1 ≤ 4096) : Recent (k + 1) r t := by
  rcases hstep with hsame | ⟨x, hmore⟩
  · rw [Recent, hsame]
    exact h.mono (Nat.le_succ k)
  · rw [Recent, hmore, List.take_take, Nat.min_eq_left hk, List.take_succ_cons]
    exact List.mem_cons_of_mem _ h

end

/-- Partition 1 read only (R445): its level sources and its F2, or nothing. -/
theorem roFollow_eq (s : State) : ∃ st, let u : State := { s with store := st }
    s.roFollow = u ∨ s.roFollow = (u.level 976 true).f2 0 ∨ s.roFollow = ((u.level 976 true).level 979 true).f2 0 := by
  unfold State.roFollow State.partitionReadOnly
  split
  · split
    · exact ⟨_, .inl rfl⟩
    · split
      · exact ⟨_, .inl rfl⟩
      · dsimp only
        split
        · exact ⟨_, .inr (.inr rfl)⟩
        · exact ⟨_, .inr (.inl rfl)⟩
  · exact ⟨s.store, .inl rfl⟩

theorem Recent.roFollow {k : Nat} {r : EvRec} {s : State} (h : Recent k r s) (hk : k + 3 ≤ 4096) : Recent (k + 3) r s.roFollow := by
  obtain ⟨st, hsame | honce | htwice⟩ := roFollow_eq s
  · rw [hsame]
    exact Recent.mono (s := { s with store := st }) h (by omega)
  all_goals have h976 : Recent (k + 1) r (({ s with store := st } : State).level 976 true) :=
    Recent.oneMore (s := { s with store := st }) h (oneMore_level _ _ _ _) (by omega)
  · rw [honce]
    exact (h976.oneMore (oneMore_f2 _ _) (by omega)).mono (by omega)
  · rw [htwice]
    exact (h976.oneMore (oneMore_level _ _ _ _) (by omega)).oneMore (oneMore_f2 _ _) (by omega)

theorem roFollow_cfg (s : State) : s.roFollow.cfg = s.cfg := by
  obtain ⟨st, hsame | honce | htwice⟩ := roFollow_eq s
  · rw [hsame]
  · rw [honce, f2_cfg, level_cfg]
  · rw [htwice, f2_cfg, level_cfg, level_cfg]

/-! ### The swap sample -/

/-- R439: at its end a swap is over and EV1001 carries its generation. -/
theorem swapDone_facts (s : State) (w : Swap) : (s.swapDone w).cfg.active = s.cfg.active ∧ (s.swapDone w).cfg.shadow = s.cfg.shadow
    ∧ (s.swapDone w).cfg.pend = none ∧ (s.swapDone w).cfg.lastSwapIndex = s.time.index ∧ (s.swapDone w).cfg.lastBoundary = w.boundary
    ∧ ∃ r ∈ (s.swapDone w).ev.last, r.source = 1001 ∧ r.kind = .pulse ∧ r.index = s.time.index ∧ r.data = w.gen % 2 ^ 64 := by
  have hjournal : (s.journalAdd 0x07 0 0 0 [w.gen]).cfg = s.cfg ∧ (s.journalAdd 0x07 0 0 0 [w.gen]).time = s.time := by
    unfold State.journalAdd
    split <;> exact ⟨rfl, rfl⟩
  obtain ⟨hcfg, htime⟩ := hjournal
  generalize hj : s.journalAdd 0x07 0 0 0 [w.gen] = j at hcfg htime
  have hdone : s.swapDone w = ((
      { j with cfg.pend := none, cfg.lastBoundary := w.boundary, cfg.lastSwapIndex := j.time.index, cfg.lastSwapTime := j.stampNs } : State).pulse 1001
        w.gen).roFollow := by rw [State.swapDone, hj]
  have hidle : sourceIdle j.kiln.role 1001 = false := by cases j.kiln.role <;> rfl
  rw [hdone, roFollow_cfg, pulse_cfg]
  generalize hu : ({ j with cfg.pend := none, cfg.lastBoundary := w.boundary, cfg.lastSwapIndex := j.time.index, cfg.lastSwapTime := j.stampNs } : State) = u
  have hpulse : Recent 1 (u.pulseRecord 1001 w.gen) (u.pulse 1001 w.gen) := by
    rw [Recent, pulse_last (by rw [← hu]; exact hidle), List.take_take, Nat.min_eq_left (by omega), List.take_succ_cons]
    exact List.mem_cons_self
  have hindex : u.time.index = s.time.index := by rw [← hu, ← htime]
  refine ⟨?_, ?_, ?_, ?_, ?_, u.pulseRecord 1001 w.gen, List.mem_of_mem_take (hpulse.roFollow (by omega)), rfl, rfl, hindex, rfl⟩
  · rw [← hu, ← hcfg]
  · rw [← hu, ← hcfg]
  · rw [← hu]
  · rw [← hu, ← htime]
  · rw [← hu]

/-- R438: at the swap sample the two sets change places, at that sample's index. -/
theorem swapNow_facts (s : State) (w : Swap) (late : List (Fin 8 × Crossing)) : (s.swapNow w late).cfg.active = s.cfg.shadow
    ∧ (s.swapNow w late).cfg.shadow = s.cfg.active ∧ (s.swapNow w late).cfg.pend = none ∧ (s.swapNow w late).cfg.lastSwapIndex = s.time.index
    ∧ (s.swapNow w late).cfg.lastBoundary = w.boundary
    ∧ ∃ r ∈ (s.swapNow w late).ev.last, r.source = 1001 ∧ r.kind = .pulse ∧ r.index = s.time.index ∧ r.data = w.gen % 2 ^ 64 := by
  have hsets (d : State) (hd : d.sets = (s.time.index, s.time.mono, s.cfg.shadow, s.cfg.active)) :
      d.cfg.active = s.cfg.shadow ∧ d.cfg.shadow = s.cfg.active ∧ d.time.index = s.time.index := by
    simp only [State.sets, Prod.mk.injEq] at hd
    tauto
  have hcloses : (if s.meters then s.swapCloses s.cfg.shadow late else s).sets = s.sets := by
    split
    · exact swapCloses_sets
    · rfl
  unfold State.swapNow
  dsimp only
  generalize (if s.meters then s.swapCloses s.cfg.shadow late else s) = c at hcloses ⊢
  have htime : c.time.index = s.time.index ∧ c.time.mono = s.time.mono := by
    simp only [State.sets, Prod.mk.injEq] at hcloses
    tauto
  generalize hb : ({ c with cfg.active := s.cfg.shadow, cfg.shadow := s.cfg.active, metro.before := some (c.time.index, s.cfg.active) } : State) = b
  have hplaces : b.sets = (s.time.index, s.time.mono, s.cfg.shadow, s.cfg.active) := by
    rw [← hb, ← htime.1, ← htime.2]
    rfl
  have hmeter : (if s.meters then b.swapMeter s.cfg.active else b).sets = b.sets := by
    split
    · exact swapMeter_sets
    · rfl
  obtain ⟨hactive, hshadow, hindex⟩ := hsets _ ((swapOthers_sets (x1 := s.cfg.active) (x2 := (List.range 4).map s.laneMode)).trans (hmeter.trans hplaces))
  obtain ⟨hdActive, hdShadow, hdPend, hdIndex, hdBoundary, r, hr, hsource, hkind, hrIndex, hdata⟩ :=
    swapDone_facts ((if s.meters then b.swapMeter s.cfg.active else b).swapOthers s.cfg.active ((List.range 4).map s.laneMode)) w
  exact ⟨hdActive.trans hactive, hdShadow.trans hshadow, hdPend, hdIndex.trans hindex, hdBoundary, r, hr, hsource, hkind, hrIndex.trans hindex, hdata⟩

/-- The swap a CFG_SWAP arms. -/
def armedSwap (c : Ctx) (p : Packet) (s : State) : Swap :=
  { boundary := fld p.params 0 1, vset := fld p.params 1 1, atTime := fld p.params 8 8, from_ := s.time.index,
    sample := if fld p.params 0 1 = 0 then some (s.time.index + 1) else none, bay := c.bay, role := c.role, gen := s.cfg.shadow.gen }

/-- The state with the swap armed and its intent in the journal (R409). -/
def State.armSwap (s : State) (c : Ctx) (p : Packet) : State :=
  ({ s with cfg.lastCheckKey := 0xFFFF, cfg.pend := some (armedSwap c p s), cfg.lastBoundary := fld p.params 0 1 } : State).journalAdd 0x06 0 0 0
    [s.cfg.shadow.gen, fld p.params 0 1]

/-- A CFG_SWAP whose every check passes arms its swap. -/
theorem cfgSwapBody_of_passing {c : Ctx} {p : Packet} {s : State} (hblock : Block 16 [(2, 2)] p = true) (h : SwapChecksPass c p s)
    (hpass : s.firstFail s.cfg.shadow = 0xFFFF) : cfgSwapBody c p s =
      if fld p.params 0 1 = 0 then (s.armSwap c p, .hold .swap) else (s.armSwap c p, .reply (Res.accepted (swapResult s.cfg.shadow.gen 0))) := by
  obtain ⟨hboundary, hvset, hvset0, htime0, hlegal, hidle, hwritable, hgen, hfuture, henabled⟩ := h
  have hright : ¬ ((s.cfg.active.differ s.cfg.shadow isLegalKey && !b0Legal c.bay c.role) = true) := by
    simpa using hlegal
  have hlater : ¬ (fld p.params 0 1 = 3 ∧ fld p.params 8 8 ≤ s.nowNs) := fun h => Nat.not_lt.mpr h.2 (hfuture h.1).2
  rw [cfgSwapBody, fixedBody_block hblock]
  dsimp only
  rw [if_neg (Nat.not_lt.mpr hboundary), if_neg (by omega), if_neg (by omega), if_neg hright, if_neg (by simp [hidle]), if_neg (by simp [hwritable]),
    if_neg (not_not_intro hgen), if_neg (fun h => by simp [(hfuture h.1).1] at h), if_neg hlater, if_neg (fun h => by simp [henabled h.1] at h), hpass,
    if_neg (not_not_intro rfl)]
  rfl

/-- Settles O47: CFG_SWAP and CFG_CANCEL at their last branch; the swap sample by what its whole work leaves. -/
theorem swapsAreArmedAppliedAndCancelled : Obligations.SwapsAreArmedAppliedAndCancelled := by
  unfold Obligations.SwapsAreArmedAppliedAndCancelled
  intro p s
  refine ⟨?_, fun w hstarts hblock hpend hboundary hright => ?_, fun w x late hpend hsample hon hdue => ?_⟩
  · dsimp only
    intro hstarts hblock hboundary hvset hvset0 htime0 hlegal hpend hro hgen hfuture hvs hcheck
    have hpass : SwapChecksPass ((s.touch p).ctx p) p (s.touch p) :=
      ⟨hboundary, hvset, hvset0, htime0, fun hdiffer => by rw [ctx_bay]; exact hlegal hdiffer, hpend, hro, hgen, hfuture, hvs⟩
    have hbody := cfgSwapBody_of_passing hblock hpass (by rw [firstFail_touch]; exact hcheck)
    rw [State.armSwap, armedSwap, ctx_bay] at hbody
    refine congrArg Host.Outcome.next ((command_starts hstarts).trans ?_)
    rw [hbody]
    by_cases hnow : fld p.params 0 1 = 0
    · rw [if_pos hnow, finish]
      exact (if_pos hnow).symm
    · rw [if_neg hnow, finish]
      exact (if_neg hnow).symm
  · refine congrArg Host.Outcome.next (command_replies hstarts hblock ?_)
    dsimp only
    have hmay : (b0Legal p.bay ((s.touch p).ctx p).role || (p.bay == w.bay && ((s.touch p).ctx p).role == w.role)) = true := by
      simpa using hright
    rw [touch_cfg, hpend]
    dsimp only
    rw [ctx_bay, hmay, if_neg (by simp)]
    exact if_neg hboundary
  · have happly : execCfgSwapApply late s = .next ((s.atIndex x fun s => s.swapNow w late).finishKind (fun f => decide (f.kind = .swap)) (Res.ok (swapResult w.gen x))) := by
      rw [execCfgSwapApply, hpend, hsample]
      exact congrArg _ (if_pos ⟨hon, hdue⟩)
    refine ⟨_, happly, ?_⟩
    have hapart := finishKind_apart (s.atIndex x fun s => s.swapNow w late) (fun f => decide (f.kind = .swap)) (Res.ok (swapResult w.gen x))
    obtain ⟨hactive, hshadow, hdone, hindex, hlast, hrecord⟩ := swapNow_facts (s.timeAt x 0) w late
    rw [apart_cfg hapart, apart_time hapart, apart_last hapart]
    exact ⟨hactive, hshadow, hdone, hindex, hlast, rfl, hrecord⟩

end Sys2Proof.Machine
end

section
/-! PROOFS. R383, R426, R427: bay resets, function-level resets and PERST_N. -/

namespace Sys2Proof.Machine

/-! ### The steps of a bay reset (R427), in their order -/

section
variable {s : State} {b : Nat}

theorem endStreams_apart (s : State) (b : Nat) : (s.endStreams b).apart = s.apart := by
  rw [State.endStreams, finishKind_apart, finishKind_apart]

theorem endStreams_desk (s : State) (b : Nat) : (s.endStreams b).desk = s.desk := by
  rw [State.endStreams, finishKind_desk, finishKind_desk]

theorem clearQueues_queueOf (hqueue : Tbl.wf [] s.host.queue) : ∀ q < 16, (s.clearQueues b).queueOf (queueId b q) = [] := by
  obtain ⟨-, hcleared, -, -⟩ := clear_fold b (List.range 16) s hqueue
  unfold State.clearQueues
  exact fun q hq => hcleared q (List.mem_range.mpr hq)

theorem clearQueues_rest (s : State) (b : Nat) : (s.clearQueues b).host.sess = s.host.sess ∧ (s.clearQueues b).host.chal = s.host.chal
    ∧ (s.clearQueues b).ev = s.ev := by
  have hrest := foldl_inv (fun s : State => (s.host.sess, s.host.chal, s.ev)) (fun (s : State) q => s.setQueue (queueId b q) []) (fun _ _ => rfl) (List.range 16) s
  simp only [Prod.mk.injEq] at hrest
  exact hrest

/-- No session and no challenge of the bay is left. -/
theorem endBaySessions_ends (s : State) (b : Nat) : (∀ x ∈ (s.endBaySessions b).host.sess, x.bay ≠ b) ∧ (∀ c ∈ (s.endBaySessions b).host.chal, c.bay ≠ b)
    ∧ (s.endBaySessions b).host.queue = s.host.queue ∧ (s.endBaySessions b).ev = s.ev := by
  obtain ⟨hsess, hqueue, hchal, hev⟩ := end_fold ((s.host.sess.filter (·.bay == b)).map (·.handle)) s
  refine ⟨fun x hx hbay => ?_, fun c hc => ?_, hqueue, hev⟩
  · have hleft : x ∈ s.host.sess.filter (fun x => !((s.host.sess.filter (·.bay == b)).map (·.handle)).contains x.handle) := hsess ▸ hx
    obtain ⟨hmem, hkept⟩ := List.mem_filter.mp hleft
    have hended : x.handle ∈ (s.host.sess.filter (·.bay == b)).map (·.handle) :=
      List.mem_map_of_mem (List.mem_filter.mpr ⟨hmem, by simp [hbay]⟩)
    rw [List.contains_iff_mem.mpr hended] at hkept
    exact absurd hkept (by simp)
  · obtain ⟨-, hother⟩ := List.mem_filter.mp hc
    simpa using hother

/-- What a bay reset makes of the router's part of its bay, and its event. -/
theorem resetRouter_facts (hb : b < 8) (hbay : Tbl.wf {} s.ev.bay) :
    let t := ((((s.resetEvents b).modEv b fun q => { q with resetDone := decide (b ≠ 0) }).pulse 1000 b).raise b 31)
    t.host = s.host ∧ (t.evBay b).map = defaultMap b ∧ ∃ r, t.ev.last.head? = some r ∧ r.source = 1000 ∧ r.kind = .pulse ∧ r.data = b := by
  have hreset : Tbl.wf {} (s.resetEvents b).ev.bay := modEv_wf hbay _ _
  have hdone := modEv_wf hreset b fun q => { q with resetDone := decide (b ≠ 0) }
  have hmap : (((s.resetEvents b).modEv b fun q => { q with resetDone := decide (b ≠ 0) }).evBay b).map = defaultMap b := by
    rw [modEv_same hreset, State.resetEvents, modEv_same hbay]
  have hhost : ((s.resetEvents b).modEv b fun q => { q with resetDone := decide (b ≠ 0) }).host = s.host := rfl
  generalize (s.resetEvents b).modEv b (fun q => { q with resetDone := decide (b ≠ 0) }) = u at hdone hmap hhost
  have hidle : sourceIdle u.kiln.role 1000 = false := by cases u.kiln.role <;> rfl
  have hcore := raise_core (u.pulse 1000 b) b 31
  have hevBay : ((u.pulse 1000 b).raise b 31).evBay b = (u.pulse 1000 b).evBay b := by
    rw [State.evBay, show ((u.pulse 1000 b).raise b 31).ev.bay = (u.pulse 1000 b).ev.bay from congrArg (·.1) hcore, ← State.evBay]
  refine ⟨by rw [raise_host, pulse_host, hhost], ?_, u.pulseRecord 1000 b, ?_, rfl, rfl, Nat.mod_eq_of_lt (by omega)⟩
  · rw [hevBay, ← hmap]
    exact occurAt_map hdone hb _ _ _ _ _
  · rw [core_last hcore, pulse_head hidle]

/-- R427: what a bay reset leaves. -/
theorem bayReset_facts (hb : b < 8) (hqueue : Tbl.wf [] s.host.queue) (hbay : Tbl.wf {} s.ev.bay) :
    (∀ q, q < 16 → (s.bayReset b).queueOf (queueId b q) = []) ∧ (∀ x ∈ (s.bayReset b).host.sess, x.bay ≠ b)
    ∧ (∀ c ∈ (s.bayReset b).host.chal, c.bay ≠ b) ∧ ((s.bayReset b).evBay b).map = defaultMap b
    ∧ ∃ r, (s.bayReset b).ev.last.head? = some r ∧ r.source = 1000 ∧ r.kind = .pulse ∧ r.data = b := by
  have hqueue1 : Tbl.wf [] (s.endStreams b).host.queue := by rw [desk_queue (endStreams_desk s b)]; exact hqueue
  have hbay1 : Tbl.wf {} (s.endStreams b).ev.bay := by rw [apart_evBay (endStreams_apart s b)]; exact hbay
  obtain ⟨-, -, hev2⟩ := clearQueues_rest (s.endStreams b) b
  obtain ⟨hsess, hchal, hqueue3, hev3⟩ := endBaySessions_ends ((s.endStreams b).clearQueues b) b
  have hcleared : ∀ q < 16, (((s.endStreams b).clearQueues b).endBaySessions b).queueOf (queueId b q) = [] := fun q hq => by
    rw [State.queueOf, hqueue3, ← State.queueOf, clearQueues_queueOf hqueue1 q hq]
  have hbay3 : Tbl.wf {} (((s.endStreams b).clearQueues b).endBaySessions b).ev.bay := by rw [hev3, hev2]; exact hbay1
  rw [State.bayReset]
  generalize ((s.endStreams b).clearQueues b).endBaySessions b = v at hsess hchal hcleared hbay3
  obtain ⟨hpSess, hpQueue, hpChal, hpEv⟩ : (if 1 ≤ b ∧ b ≤ 7 then v.resetPairs (b - 1) else v).host.sess = v.host.sess
      ∧ (if 1 ≤ b ∧ b ≤ 7 then v.resetPairs (b - 1) else v).host.queue = v.host.queue
      ∧ (if 1 ≤ b ∧ b ≤ 7 then v.resetPairs (b - 1) else v).host.chal = v.host.chal
      ∧ (if 1 ≤ b ∧ b ≤ 7 then v.resetPairs (b - 1) else v).ev = v.ev := by
    split
    · exact pairs_fold _ _
    · exact ⟨rfl, rfl, rfl, rfl⟩
  generalize (if 1 ≤ b ∧ b ≤ 7 then v.resetPairs (b - 1) else v) = w at hpSess hpQueue hpChal hpEv
  obtain ⟨hhost, hmap, hevent⟩ := resetRouter_facts (s := w) hb (by rw [hpEv]; exact hbay3)
  refine ⟨fun q hq => ?_, by rw [hhost, hpSess]; exact hsess, by rw [hhost, hpChal]; exact hchal, hmap, hevent⟩
  rw [State.queueOf, hhost, hpQueue, ← State.queueOf]
  exact hcleared q hq

end

/-- R426: what PERST_N leaves. -/
theorem perstN_facts {s : State} (hqueue : Tbl.wf [] s.host.queue) (hbay : Tbl.wf {} s.ev.bay) : ∃ t, execPerstNAssert s = .next t
    ∧ t.host.sess = s.host.sess.filter (fun x => !(s.host.sess.any fun y => y.peer.isPcie && y.handle == x.handle))
    ∧ (∀ b q, 1 ≤ b → b < 8 → q < 16 → t.queueOf (queueId b q) = [])
    ∧ (∀ b, 1 ≤ b → b < 8 → (t.evBay b).map = defaultMap b ∧ (t.evBay b).queue = [])
    ∧ t.evBay 0 = s.evBay 0 ∧ t.host.pcieL2 = false := by
  obtain ⟨hsess, hqueue1, -, hev1⟩ := end_fold ((s.host.sess.filter fun x => x.peer.isPcie).map (·.handle)) s
  generalize hended : ((s.host.sess.filter fun x => x.peer.isPcie).map (·.handle)).foldl State.endSess s = u at hsess hqueue1 hev1
  obtain ⟨hsess2, hcleared, -, hreset, -, hzero⟩ := portResets (List.range 7) (s := u) (by rw [hqueue1]; exact hqueue) (by rw [hev1]; exact hbay)
  have hexec : execPerstNAssert s = .next { (List.range 7).foldl State.portReset u with host.pcieL2 := false } := by rw [← hended]; rfl
  generalize (List.range 7).foldl State.portReset u = v at hsess2 hcleared hreset hzero hexec
  refine ⟨_, hexec, ?_, fun b q hlow hhigh hq => ?_, fun b hlow hhigh => ?_, ?_, rfl⟩
  · refine (hsess2.trans hsess).trans (List.filter_congr fun x _ => congrArg (! ·) ?_)
    rw [Bool.eq_iff_iff]
    simp [and_assoc]
  · show v.queueOf (queueId b q) = []
    have hbayCleared := hcleared (b - 1) (List.mem_range.mpr (by omega)) q hq
    rwa [Nat.sub_add_cancel hlow] at hbayCleared
  · show (v.evBay b).map = defaultMap b ∧ (v.evBay b).queue = []
    have hbayReset := hreset (b - 1) (List.mem_range.mpr (by omega))
    rwa [Nat.sub_add_cancel hlow] at hbayReset
  · refine hzero.trans ?_
    rw [State.evBay, hev1, ← State.evBay]

/-- Settles O49: the resets by their steps; BAY_RESET by its rights. -/
theorem bayResetsEmptyTheirBays : Obligations.BayResetsEmptyTheirBays := by
  unfold Obligations.BayResetsEmptyTheirBays
  refine ⟨fun s b hb hqueue hbay => ⟨bayReset_facts hb hqueue hbay, fun fn => rfl, fun p hstarts hblock hparam => ⟨fun hright => ?_, fun hother hright => ?_⟩⟩,
    fun s hqueue hbay => perstN_facts hqueue hbay⟩
  · refine congrArg Host.Outcome.next ((command_fixed hstarts hblock).trans ?_)
    rw [hparam, ctx_bay, if_neg (by omega), if_pos (.inl ⟨hright.1.symm, hright.2⟩), if_pos hright.1]
    rfl
  · refine congrArg Host.Outcome.next (command_replies hstarts hblock ?_)
    rw [hparam, ctx_bay, if_neg (by omega), if_pos ?_, if_neg hother]
    tauto

end Sys2Proof.Machine
end

section
/-! PROOFS. R384, R540, R541: the SPI port and the queue pairs. -/

namespace Sys2Proof.Machine

/-- A pair that runs without an error and has an entry left fetches it (R541). -/
theorem fetchAll_one {s : State} {fn : Fin 7} {q : Fin 16} (hrun : (s.qpOf fn q).running = true) (herr : (s.qpOf fn q).error = false)
    (hmore : (s.qpOf fn q).sqHead ≠ (s.qpOf fn q).sqTail) (hserving : s.serving = true) (e : Fetch) : s.fetchAll fn q [e] = s.fetchOne fn q e := by
  rw [State.fetchAll, if_pos (by simp [hrun, herr, hmore, hserving]), State.fetchAll]

/-- Settles O50: the port's transactions and the pair's registers, doorbells and fetches, each at its branch. -/
theorem hostPortsMovePackets : Obligations.HostPortsMovePackets := by
  unfold Obligations.HostPortsMovePackets
  refine ⟨fun s bytes n => ?_, fun fn q v l s hf4 => ?_⟩
  · dsimp only
    refine ⟨fun hfull => ?_, fun code p hready hparse => ⟨?_, fun htaken hown => ?_⟩, fun hempty => ?_, fun r rest hspi => ⟨fun hlong => ?_, fun hshort => ?_⟩⟩
    · show execSpiWrite bytes s = _
      rw [execSpiWrite]
      exact if_pos (by simp [hfull])
    · show execSpiWrite bytes s = _
      rw [execSpiWrite, hready, hparse]
      rfl
    · rw [arriveQueue, ingress_of_taken htaken, broadcast_own hown]
    · show execSpiRead n s = _
      rw [execSpiRead, show s.spiFirst.host.spi = [] from hempty]
      rfl
    · show execSpiRead n s = _
      rw [execSpiRead, show s.spiFirst.host.spi = r :: rest from hspi]
      exact if_pos hlong
    · show execSpiRead n s = _
      rw [execSpiRead, show s.spiFirst.host.spi = r :: rest from hspi]
      exact if_neg (Nat.not_le.mpr hshort)
  · dsimp only
    refine ⟨fun hoff hok => ?_, fun hoff hbad => ?_, ?_, fun hon => ⟨fun hover => ?_, fun hin => ?_, fun hover => ?_, fun hin => ?_⟩,
      fun e bs code p hrun herr hmore hserving hpkt hlen hparse => ?_, fun e hrun herr hmore hserving => ⟨fun hrejected => ?_, fun hpkt hlen => ?_⟩⟩
    · refine congrArg Host.Outcome.next ?_
      rw [State.qpEnable, if_neg (by simp [hoff, hf4])]
      exact if_pos hok
    · refine congrArg Host.Outcome.next ?_
      rw [State.qpEnable, if_neg (by simp [hoff, hf4])]
      exact if_neg (by simp [hbad])
    · refine congrArg Host.Outcome.next ?_
      rw [State.qpDisable, if_neg (by simp [hf4])]
    · refine congrArg Host.Outcome.next ?_
      rw [State.sqDoorbell, if_neg (by simp [hon, hf4]), if_pos hover]
    · refine congrArg Host.Outcome.next ?_
      rw [State.sqDoorbell, if_neg (by simp [hon, hf4]), if_neg (Nat.not_le.mpr hin)]
    · refine congrArg Host.Outcome.next ?_
      rw [State.cqDoorbell, if_neg (by simp [hon, hf4]), if_pos hover]
    · refine congrArg Host.Outcome.next ?_
      rw [State.cqDoorbell, if_neg (by simp [hon, hf4]), if_neg (Nat.not_le.mpr hin)]
    · rw [fetchAll_one hrun herr hmore hserving, State.fetchOne, hpkt]
      dsimp only
      rw [if_neg hlen, hparse]
    · rw [fetchAll_one hrun herr hmore hserving, State.fetchOne, hrejected]
    · obtain ⟨bs, hbs⟩ := Option.isSome_iff_exists.mp hpkt
      rw [fetchAll_one hrun herr hmore hserving, State.fetchOne, hbs]
      exact if_pos hlen

end Sys2Proof.Machine
end

section
/-! PROOFS. R417, R418: host identities under their rights. -/

namespace Sys2Proof.Machine

theorem touch_findIdent (s : State) (p : Packet) (id : Nat) : (s.touch p).findIdent id = s.findIdent id := rfl

/-- Settles O51: the parameters, then the rights, then the identities had. -/
theorem identitiesAreProvisionedAndRemoved : Obligations.IdentitiesAreProvisionedAndRemoved := by
  unfold Obligations.IdentitiesAreProvisionedAndRemoved
  intro p s
  dsimp only
  refine ⟨fun role hstarts hblock hrole => ⟨fun hmask => ?_, fun hmask hpad hright => ?_, fun k hright hmask hpad hnew hroom hro hcred => ?_⟩,
    fun i hblock hfind hright => ⟨fun hstarts hro => ?_, fun hstarts hlocked => ?_, fun hstarts hfree => ?_⟩⟩
  · refine congrArg Host.Outcome.next (command_replies hstarts hblock ?_)
    dsimp only
    rw [hrole]
    exact if_pos (by simp [hmask])
  · refine congrArg Host.Outcome.next (command_replies hstarts hblock ?_)
    dsimp only
    rw [hrole]
    dsimp only
    rw [if_neg (by simp [hmask]), if_neg (by simp [hpad]), if_pos (by simp [hright])]
  · refine congrArg Host.Outcome.next (command_replies hstarts hblock ?_)
    dsimp only
    rw [hrole]
    dsimp only
    rw [if_neg (by simp [hmask]), if_neg (by simp [hpad]), if_neg (by simp [hright]), touch_findIdent, if_neg (by simp [hnew]),
      if_neg (show ¬ 256 ≤ (s.touch p).host.ident.length from Nat.not_le.mpr hroom), touch_store, if_neg (ne_true_of_eq_false hro), hcred]
    rfl
  · refine congrArg Host.Outcome.next (command_replies hstarts hblock ?_)
    rw [touch_findIdent, hfind]
    dsimp only
    rw [if_neg (by simp [hright]), touch_store, if_neg (ne_true_of_eq_false hro)]
  · refine congrArg Host.Outcome.next (command_replies hstarts hblock ?_)
    rw [touch_findIdent, hfind]
    dsimp only
    rw [if_neg (by simp [hright]), touch_time, if_neg (by simp [hlocked])]
  · refine congrArg Host.Outcome.next (command_replies hstarts hblock ?_)
    rw [touch_findIdent, hfind]
    dsimp only
    rw [if_neg (by simp [hright]), touch_time, if_pos (by simp [hfree])]

end Sys2Proof.Machine
end

section
/-! PROOFS. R444, R445, R449 to R454: the MRAM scrub, the flash and the firmware slots. -/

namespace Sys2Proof.Machine

section
variable {p : Packet} {s : State} {data : Bytes}

/-- The state `e` with the image programmed there as its staged image. -/
def withImage (data : Bytes) (v slot : Nat) (e : State) : State :=
  { e with store.fwVersion := setSlot slot v e.store.fwVersion, store.stagedImage := data }

/-- R451: a programmed image is staged when its signature and version pass. -/
def imageStaged (data : Bytes) (v slot : Nat) (e : State) : State × Done :=
  if Config.imageSigned v data = true ∧ (withImage data v slot e).store.minVersion ≤ v then
    (({ withImage data v slot e with store.fwStaged := true }).pulse 981, .reply (Res.ok (leBytes 1 slot ++ zeros 7)))
  else (({ withImage data v slot e with store.fwStaged := false }).pulse 982, .reply (Res.err stFault 0))

/-- R451: an image that fits, in a slot whose sectors are sound and closed, is erased and programmed and then checked. -/
theorem fwStageData_programs {v slot : Nat} {e : State} (hv : fld p.params 0 4 = v) (hslot : 1 - s.store.fwActive = slot)
    (hfit : data.length ≤ 0x800000) (herase : ∀ y ∈ s.store.eraseOpen, (fwSectors slot).contains y = false)
    (hbad : s.sectorsBad (fwSectors slot) = false)
    (he : ((fwSectors slot).foldl (fun (s : State) x => s.eraseSector x) s).programFlash (if slot = 0 then 0x10000 else 0x810000) data.length = e) (c : Ctx) :
    fwStageData data c p s = imageStaged data v slot e := by
  have hopen : (s.store.eraseOpen.all fun x => !(fwSectors slot).contains x) = true := by
    rw [List.all_eq_true]
    intro y hy
    rw [herase y hy]
    rfl
  have hlen : ¬ 0x800000 < data.length := Nat.not_lt.mpr hfit
  subst hslot
  subst hv
  unfold fwStageData
  refine (if_neg hlen).trans ((if_neg ?_).trans ((if_neg ?_).trans ?_))
  · rw [hopen]
    simp
  · rw [hbad]
    simp
  · rw [← he]
    rfl

/-- The reply to a programmed image. -/
theorem finish_imageStaged (v slot code stamp : Nat) (e : State) :
    finish code p stamp (imageStaged data v slot e) =
      if Config.imageSigned v data = true ∧ (withImage data v slot e).store.minVersion ≤ v then
        (({ withImage data v slot e with store.fwStaged := true }).pulse 981).answer code p (Res.ok (leBytes 1 slot ++ zeros 7))
      else (({ withImage data v slot e with store.fwStaged := false }).pulse 982).answer code p (Res.err stFault 0) := by
  unfold imageStaged
  split <;> rfl

end

/-- Settles O52: each storage event and command at the branch its conditions name. -/
theorem storageScrubsStagesAndRetires : Obligations.StorageScrubsStagesAndRetires := by
  unfold Obligations.StorageScrubsStagesAndRetires
  intro p errs x s u
  refine ⟨fun hready => ?_, rfl, fun hk6 hindet => ?_, fun hretired husable => ?_, ?_,
    fun hstarts hblock hunstaged => ?_, ?_, fun hstarts hblock => ?_⟩
  · show execMramScrub errs s = _
    rw [execMramScrub, if_neg (by simp [hready])]
  · exact congrArg _ (if_pos ⟨hk6, hindet⟩)
  · show execFlashOpFail x s = _
    rw [execFlashOpFail, if_neg (by rw [hretired, husable]; simp)]
  · intro d hstarts hblock hdesc hkind data v slot hfit herase hbad e w
    refine congrArg Host.Outcome.next ((command_bulkIn hstarts hblock hdesc hkind).trans ?_)
    change finish 0x0D20 p s.time.mono (fwStageData data (u.ctx p) p u) = _
    have he : ((fwSectors slot).foldl (fun (s : State) x => s.eraseSector x) u).programFlash (if slot = 0 then 0x10000 else 0x810000) data.length = e := rfl
    have hv : fld p.params 0 4 = v := rfl
    have hslot : 1 - u.store.fwActive = slot := rfl
    have hopen : ∀ y ∈ u.store.eraseOpen, (fwSectors slot).contains y = false := herase
    have hsound : u.sectorsBad (fwSectors slot) = false := hbad
    clear_value data e slot v u
    exact (congrArg (finish 0x0D20 p s.time.mono) (fwStageData_programs hv hslot hfit hopen hsound he (u.ctx p))).trans (finish_imageStaged v slot 0x0D20 s.time.mono e)
  · refine congrArg Host.Outcome.next (command_replies hstarts hblock ?_)
    dsimp only
    rw [touch_store, if_pos (by simp [hunstaged])]
  · intro slot hstarts hblock hstaged hindet
    refine congrArg Host.Outcome.next (command_replies hstarts hblock ?_)
    have hsound : (s.store.indeterminate.any fun x => (fwSectors (1 - s.store.fwActive)).contains x) = false := by
      rw [List.any_eq_false]
      intro y hy
      rw [hindet y hy]
      simp
    dsimp only
    rw [touch_store, hstaged, hsound]
    exact if_neg (by simp)
  · refine congrArg Host.Outcome.next (command_replies hstarts hblock ?_)
    rw [ctx_bay]
    rfl

end Sys2Proof.Machine
end

section
/-! PROOFS. R421, R422, R464 to R477: the input supply and the islands. -/

namespace Sys2Proof.Machine

/-- A bay other than the owner's, and not bay 1, has no right over the island. -/
theorem not_owner_iff {bay owner : Nat} : ¬ (bay ≠ 1 ∧ owner ≠ bay) ↔ bay = 1 ∨ owner = bay := by
  omega

/-- A command's touch leaves which islands are pinned. -/
theorem touch_pinned {p : Packet} {s : State} (i : Nat) : (s.touch p).pinned i = s.pinned i := by
  rw [State.pinned, State.tile, touch_tiles]
  rfl

/-- Settles O53: each supply and island event at the branch its conditions name. -/
theorem supplyEventsAndIslands : Obligations.SupplyEventsAndIslands := by
  unfold Obligations.SupplyEventsAndIslands
  refine ⟨fun mv us ms v t ok on c r b s => ?_, fun p i s => ?_⟩
  · dsimp only
    refine ⟨fun hoff hmv => ?_, fun hon hmv => ?_, fun hbattery hv hms => ?_, fun hrun => ?_, fun hpowered hpf => ?_, fun hsaved hheld hrecovered => ?_,
      fun hpowered => ?_⟩
    · exact congrArg _ (if_pos ⟨hoff, hmv⟩)
    · exact congrArg _ (if_neg (by rintro (h | h); exacts [hon h, by omega]))
    · exact congrArg _ (if_pos ⟨hbattery, hv, hms⟩)
    · have hrunning : ¬ ((s.power.supply != .running) = true) := by simp [hrun]
      refine ⟨congrArg _ (if_neg hrunning), ?_, congrArg _ (if_neg hrunning), congrArg _ (if_neg hrunning)⟩
      exact congrArg _ (if_neg hrunning)
    · refine ⟨fun hus => ?_, fun hus hkey => ?_, fun ht hms => ?_⟩
      · have hdecides : ¬ ((!s.powered || s.power.pf || c.us < 10) = true) := by simp [hpowered, hpf]; omega
        constructor
        · intro hlow
          show execPowerFailDecision c ok s = _
          rw [execPowerFailDecision, if_neg hdecides]
          exact congrArg _ (if_pos hlow)
        · intro hlow hover
          show execPowerFailDecision c ok s = _
          rw [execPowerFailDecision, if_neg hdecides]
          exact congrArg _ ((if_neg (Nat.not_lt.mpr hlow)).trans (if_pos hover))
      · have hlow : decide (10 ≤ us) = true := decide_eq_true hus
        show execPfNExternalLow us ok s = _
        rw [execPfNExternalLow, hlow]
        exact congrArg _ (if_pos (by rw [Bool.and_eq_true, Bool.and_eq_true, Bool.true_and]; exact ⟨⟨hpowered, by rw [hpf]; rfl⟩, hkey⟩))
      · exact congrArg _ (if_pos (by simp [hpowered, hpf, ht, hms]))
    · exact congrArg _ (if_pos ⟨hsaved, hheld, hrecovered⟩)
    · have hsup : ¬ ((!s.powered) = true) := by simp [hpowered]
      refine ⟨?_, fun hr => ?_, fun hr hstarted => ?_⟩
      · exact congrArg _ ((if_neg hsup).trans (if_pos rfl))
      · exact congrArg _ ((if_neg hsup).trans ((if_neg Bool.false_ne_true).trans (if_pos hr)))
      · refine congrArg _ ((if_neg hsup).trans ((if_neg Bool.false_ne_true).trans ((if_neg (by omega)).trans ((if_neg ?_).trans (if_pos hr)))))
        rw [level_kiln]
        simp [hstarted]
  · refine ⟨fun hstarted hpowered => ?_, fun hout hheld hwardens htile => ?_, ?_⟩
    · exact congrArg _ (if_pos ⟨hstarted, hpowered⟩)
    · have hretries : ¬ ((s.islandOf i < 3 || s.power.islandHeld.contains i.val || s.wardensUp < 2 || (i.val < 72 && (s.tile i).st == .failed)) = true) := by
        have hheld' : ¬ i.val ∈ s.power.islandHeld := by simpa using hheld
        simpa [Nat.not_lt.mpr hout, hheld', Nat.not_lt.mpr hwardens] using htile
      constructor
      · exact congrArg _ ((if_neg hretries).trans (if_pos rfl))
      · exact congrArg _ ((if_neg hretries).trans (if_neg Bool.false_ne_true))
    · intro j a u hstarts hblock hj ha
      have hj' : ¬ 95 < fld p.params 0 1 := Nat.not_lt.mpr hj
      have ha' : ¬ 3 < fld p.params 1 1 := Nat.not_lt.mpr ha
      refine ⟨fun hpin => ?_, fun hpin hbay howner => ?_, fun hpin howner => ?_⟩ <;> refine congrArg Host.Outcome.next (command_replies hstarts hblock ?_) <;>
        dsimp only <;> rw [if_neg hj', if_neg ha', touch_pinned, touch_key, ctx_bay]
      · exact if_pos hpin
      · exact (if_neg (Bool.eq_false_iff.mp hpin)).trans (if_pos ⟨hbay, howner⟩)
      · exact (if_neg (Bool.eq_false_iff.mp hpin)).trans (if_neg (not_owner_iff.mpr howner))

end Sys2Proof.Machine
end

section
/-! PROOFS. R485, R486, R488 to R491: the self-tests and the end of bring-up. -/

namespace Sys2Proof.Machine

/-- Settles O55: each self-test event at the branch its conditions name, and the report of what was found. -/
theorem selfTestsFinishBringUp : Obligations.SelfTestsFinishBringUp := by
  unfold Obligations.SelfTestsFinishBringUp
  intro g fails reps i rows us pass errs p s
  dsimp only
  refine ⟨fun hopen hgroup => ?_, fun hk4 hclosed => ?_, fun hopen huntrained hk5 => ?_, fun htrained hslice => ?_, fun htrained hk5 => ?_,
    fun hk4 hclosed => ?_, fun hopen hk6 hdone => ?_, fun hstarts hblock => ?_⟩
  · have hturn : ¬ ((!s.kiln.ph.k3Open || s.kiln.bistGroup != g.val) = true) := by simp [hopen, hgroup]
    constructor <;> intro hg <;> show execTileBistGroupEnd g fails reps s = _
    · rw [execTileBistGroupEnd, if_neg hturn, if_neg (by omega)]
    · rw [execTileBistGroupEnd, if_neg hturn, if_pos hg]
  · exact congrArg _ (if_pos ⟨hk4, by rw [hclosed]; rfl⟩)
  · have hturn : ¬ ((!s.kiln.ph.k5Open || s.kiln.ph.dramTrained || s.kiln.ph.k5) = true) := by simp [hopen, huntrained, hk5]
    constructor
    · show execDramTrainingDone true s = _
      rw [execDramTrainingDone, if_neg hturn]
      rfl
    · show execDramTrainingDone false s = _
      rw [execDramTrainingDone, if_neg hturn]
      rfl
  · have hturn : ¬ ((!s.kiln.ph.dramTrained || s.kiln.slicesTested != i.val) = true) := by simp [htrained, hslice]
    exact ⟨fun hi => congrArg _ ((if_neg hturn).trans (if_neg (by omega))), fun hi => congrArg _ ((if_neg hturn).trans (if_pos hi))⟩
  · exact congrArg _ (if_neg (by simp [htrained, hk5]))
  · exact congrArg _ (if_neg (by simp [hk4, hclosed]))
  · exact congrArg _ (if_pos (by simp [hopen, hk6, hdone]))
  · exact congrArg Host.Outcome.next (command_reads hstarts hblock rfl)

end Sys2Proof.Machine
end

section
/-! PROOFS. R494 to R504, R510: core faults and dumps. -/

namespace Sys2Proof.Machine

section
variable {s : State} {pair n : Nat}

/-- R494: an F3 can be decided: the kiln is past K1, in no F4 and no F3, two wardens are up and the pair is in use. -/
def F3Decidable (pair : Nat) (s : State) : Prop :=
  s.kiln.ph.k1 = true ∧ s.kiln.halted = false ∧ s.fault.f4 = false ∧ s.fault.f3 = none ∧ 2 ≤ s.wardensUp ∧ s.fault.pairOk.getLsbD pair = true

/-- R495: the state once a core fault's time is kept among those of the last hour. -/
def f3Noted (s : State) : State := { s with fault.f3Times := (s.time.ns, s.time.index) :: s.fault.f3Times.filter s.withinHour }

theorem f3Decidable_open (h : F3Decidable pair s) :
    ¬ ((!s.kiln.ph.k1 || s.kiln.halted || s.fault.f4 || s.fault.f3.isSome || s.wardensUp < 2 || !s.fault.pairOk.getLsbD pair) = true) := by
  obtain ⟨hk1, hrun, hf4, hf3, hwardens, hpair⟩ := h
  simp only [hk1, hrun, hf4, hf3, hpair, Nat.not_lt.mpr hwardens]
  decide

/-- R495: the third core fault within the hour is F4 0x0B. -/
theorem decideF3_third (h : F3Decidable pair s) (hrecent : 2 ≤ (s.fault.f3Times.filter s.withinHour).length) :
    s.decideF3 pair n = ((f3Noted s).setCause n).enterF4 0x0B := by
  unfold State.decideF3
  exact (if_neg (f3Decidable_open h)).trans (if_pos hrecent)

/-- R496: the cores halt, with a dump unless one is being written. -/
def f3Halted (n : Nat) (usable : Bool) (v : State) : State :=
  if v.fault.dumpBusy then { v with fault.f3 := some n, fault.f3Halted := true }
  else { v with fault.f3 := some n, fault.f3Halted := true, fault.f3Dump := some (v.newDump 3 n (!usable)),
                fault.dumpSeq := v.fault.dumpSeq + 1, fault.dumpBusy := true }

/-- R496: a core fault that is not the third halts the cores. -/
theorem decideF3_halts {t v : State} (h : F3Decidable pair s) (hrecent : (s.fault.f3Times.filter s.withinHour).length < 2)
    (ht : f3Noted s = t) (hv : (t.setCause n).dropTenants = v) :
    s.decideF3 pair n = f3Halted n (t.ready 24 && t.kiln.slices.getLsbD 55) v := by
  subst ht
  subst hv
  unfold State.decideF3 f3Halted f3Noted
  exact (if_neg (f3Decidable_open h)).trans (if_neg (Nat.not_le.mpr hrecent))

theorem f3Halted_busy {v : State} (usable : Bool) (hbusy : v.fault.dumpBusy = true) :
    f3Halted n usable v = { v with fault.f3 := some n, fault.f3Halted := true } :=
  if_pos hbusy

theorem f3Halted_free {v : State} (usable : Bool) (hfree : v.fault.dumpBusy = false) :
    f3Halted n usable v = { v with fault.f3 := some n, fault.f3Halted := true, fault.f3Dump := some (v.newDump 3 n (!usable)),
                                   fault.dumpSeq := v.fault.dumpSeq + 1, fault.dumpBusy := true } :=
  if_neg (Bool.eq_false_iff.mp hfree)

/-- R494: the causes of a lockstep mismatch. -/
theorem execCcLockstepMismatch_decides (x : Fin 2) (cause : Fin 3) (s : State) :
    execCcLockstepMismatch x cause s = .next (s.decideF3 x (if cause = 0 then 1 else if cause = 1 then 3 else 4)) :=
  match cause with
  | 0 => rfl
  | 1 => rfl
  | 2 => rfl

/-- R494: 10 ms without a heartbeat decide a core fault of cause 2. -/
theorem execCcHeartbeatMissing_decides {ms : Nat} (hms : 10 ≤ ms) (x : Fin 2) (s : State) :
    execCcHeartbeatMissing x ms s = .next (s.decideF3 x 2) :=
  congrArg _ (if_pos hms)

end

/-- R500: the dump of the fault that ended is reported and its flash copy ordered. -/
def f3DumpKept : Option Dump → State → State
  | some d, s => (if d.flashOnly then s else s.pulse 1016 (d.total * 2 ^ 32)).orderCopy d
  | none, s => s

/-- R419: a dump read whose block passes every check answers the dump's bytes, and suspends an erase for a read of the flash. -/
theorem diagDumpReadBody_reads {p : Packet} {s : State} {d : Dump} (hdesc : p.isBulk = true → descOk (some 1) p = true) (hlength : p.inline.length = 16)
    (hres1 : allZero p.inline 1 3 = true) (hres12 : allZero p.inline 12 4 = true) (hsrc : fld p.inline 0 1 ≤ 1) (hlen8 : fld p.inline 4 4 % 8 = 0)
    (hroom : fld p.inline 4 4 ≤ dumpRoom p) (hofs8 : fld p.inline 8 4 % 8 = 0) (hfree : s.fault.dumpBusy = false)
    (hdump : (if fld p.inline 0 1 = 0 then s.fault.dram else s.fault.flash) = some d) (hofs : fld p.inline 8 4 < d.total)
    (hend : fld p.inline 8 4 + fld p.inline 4 4 ≤ d.total) :
    diagDumpReadBody (s.ctx p) p s =
      ((if fld p.inline 0 1 = 1 ∧ (!s.store.eraseOpen.isEmpty) = true then { s with store.eraseSuspended := s.store.eraseOpen.head? } else s),
        .reply (dumpAnswer p ((List.range (fld p.inline 4 4)).map fun i => d.byteFor p.bay (fld p.inline 8 4 + i)))) := by
  have hbulk : ¬ ((p.isBulk && !descOk (some 1) p) = true) := by
    cases h : p.isBulk
    · simp
    · simp [hdesc h]
  unfold diagDumpReadBody
  dsimp only
  rw [if_neg hbulk, if_neg (by omega), hres1, hres12, if_neg (by decide), if_neg (by decide), if_neg (by omega), if_neg (by omega), if_neg (by omega),
    if_neg (Bool.eq_false_iff.mp hfree), hdump]
  dsimp only
  rw [if_neg (Nat.not_le.mpr hofs), if_neg (Nat.not_lt.mpr hend), ctx_bay]

/-- Settles O56: each fault and dump event and command at the branch its conditions name. -/
theorem faultsAndDumps : Obligations.FaultsAndDumps := by
  unfold Obligations.FaultsAndDumps
  refine ⟨fun pair cause ms w pass s => ?_, fun ok sector p s => ?_⟩
  · intro able
    refine ⟨fun hk1 hrun hf4 hf3 hwardens hpair => ?_, fun hstarted hable => ?_, fun hreset => ?_, fun hseal => ?_, fun hrestart => ?_⟩
    · have hdecides : F3Decidable pair s := ⟨hk1, hrun, hf4, hf3, hwardens, hpair⟩
      intro recent t third v halt dump n
      have hthird : ∀ n, 2 ≤ recent.length → s.decideF3 pair n = third n := fun n hrecent => decideF3_third hdecides hrecent
      have hhalts : ∀ n, recent.length < 2 → s.decideF3 pair n = f3Halted n (t.ready 24 && t.kiln.slices.getLsbD 55) (v n) :=
        fun n hrecent => decideF3_halts (t := t) (v := v n) hdecides hrecent rfl rfl
      have hlockstep : ∀ u, s.decideF3 pair n = u → exec (.ccLockstepMismatch pair cause) s = .next u :=
        fun u hu => (execCcLockstepMismatch_decides pair cause s).trans (congrArg _ hu)
      have hheartbeat : ∀ u, 10 ≤ ms → s.decideF3 pair 2 = u → exec (.ccHeartbeatMissing pair ms) s = .next u :=
        fun u hms hu => (execCcHeartbeatMissing_decides hms pair s).trans (congrArg _ hu)
      clear_value n v third recent
      refine ⟨fun hrecent => ⟨hlockstep _ (hthird n hrecent), fun hms => hheartbeat _ hms (hthird 2 hrecent)⟩, fun hrecent hbusy => hlockstep _ ?_,
        fun hrecent hfree => hlockstep _ ?_, fun hrecent hms hbusy => hheartbeat _ hms ?_, fun hrecent hms hfree => hheartbeat _ hms ?_⟩
      · exact (hhalts n hrecent).trans (f3Halted_busy _ hbusy)
      · exact (hhalts n hrecent).trans (f3Halted_free _ hfree)
      · exact (hhalts 2 hrecent).trans (f3Halted_busy _ hbusy)
      · exact (hhalts 2 hrecent).trans (f3Halted_free _ hfree)
    · intro others
      have hwatched : ¬ ((!s.kiln.ph.started || !able w) = true) := by
        rw [hstarted, hable]
        decide
      exact ⟨fun htwo => congrArg _ ((if_neg hwatched).trans (if_pos htwo)), fun htwo => congrArg _ ((if_neg hwatched).trans (if_neg htwo))⟩
    · intro old n u
      have hresets : ¬ ((!s.fault.wardenReset.getLsbD w) = true) := by simp [hreset]
      constructor
      · intro hpass hn
        refine congrArg _ ((if_neg hresets).trans (if_neg ?_))
        rw [hpass, Bool.not_true, Bool.false_or, decide_eq_true_eq]
        exact Nat.not_le.mpr hn
      · intro hlost
        refine congrArg _ ((if_neg hresets).trans (if_pos ?_))
        obtain hfail | hthird := hlost
        · simp [hfail]
        · exact Bool.or_eq_true_iff.mpr (.inr (decide_eq_true hthird))
    · intro recent u
      have hok : ¬ ((!s.fault.sealOk) = true) := by simp [hseal]
      refine ⟨fun hfirst hwardens => ?_, fun hfirst hwardens => ?_, fun hsecond => ?_⟩
      · exact congrArg _ ((if_neg hok).trans ((if_neg (by change ¬ (!recent.isEmpty) = true; simp [hfirst])).trans (if_pos hwardens)))
      · exact congrArg _ ((if_neg hok).trans ((if_neg (by change ¬ (!recent.isEmpty) = true; simp [hfirst])).trans (if_neg (Nat.not_lt.mpr hwardens))))
      · exact congrArg _ ((if_neg hok).trans (if_pos (by change (!recent.isEmpty) = true; simpa using hsecond)))
    · exact congrArg _ (if_pos hrestart)
  · refine ⟨fun hf3 => ?_, fun cause hf3 hwritten => ?_, fun d hcopy => ?_, fun hdirty husable hsuspended => ?_, ?_, ?_, fun hstarts hblock => ?_,
      fun hstarts hblock hv => ?_⟩
    · exact congrArg _ (if_pos hf3)
    · intro u v x
      have hended : ¬ ((!s.fault.f3Written) = true) := by simp [hwritten]
      have hends : execF3PairsRunning ok s = .next (if u.fault.pairOk = 0 then u.enterF4 0x08 else f3DumpKept s.fault.f3Dump x) := by
        unfold execF3PairsRunning
        rw [hf3]
        change Host.Outcome.next (ite ((!s.fault.f3Written) = true) s _) = _
        refine congrArg _ ((if_neg hended).trans ?_)
        cases s.fault.f3Dump <;> rfl
      refine ⟨fun hnone => hends.trans (congrArg _ (if_pos hnone)), fun hsome hdump => ?_, fun d hsome hdump => ⟨fun hboth => ?_, fun honly => ?_⟩⟩ <;>
        refine hends.trans (congrArg _ ((if_neg hsome).trans ?_)) <;> rw [hdump, f3DumpKept]
      · rw [if_neg (Bool.eq_false_iff.mp hboth)]
      · rw [if_pos honly]
    · show execFlashDumpCopyDone s = _
      rw [execFlashDumpCopyDone, hcopy]
    · have herases : ¬ ((!s.fault.flashDirty.contains sector || !s.flashUsable || s.store.eraseSuspended == some sector) = true) := by
        rw [hdirty, husable]
        simpa using hsuspended
      constructor
      · intro hopen e rest u
        constructor
        · intro hlast
          show execDumpPartitionErase sector s = _
          unfold execDumpPartitionErase
          refine congrArg _ ((if_neg herases).trans ((if_pos hopen).trans ?_))
          change (match rest.head? with | some x => u.startErase x | none => u) = u
          rw [hlast]
          rfl
        · intro x l hnext
          show execDumpPartitionErase sector s = _
          unfold execDumpPartitionErase
          refine congrArg _ ((if_neg herases).trans ((if_pos hopen).trans ?_))
          change (match rest.head? with | some x => u.startErase x | none => u) = u.startErase x
          rw [hnext]
          rfl
      · intro hclosed hk6 e
        exact congrArg _ ((if_neg herases).trans ((if_neg (Bool.eq_false_iff.mp hclosed)).trans (if_pos hk6)))
    · intro u b len ofs give hstarts hdesc hlength hres1 hres12 hlen8 hroom hofs8 hfree
      have hchecks : ∀ d, ofs < d.total → ofs + len ≤ d.total → (if fld b 0 1 = 0 then u.fault.dram else u.fault.flash) = some d → fld b 0 1 ≤ 1 →
          diagDumpReadBody (u.ctx p) p u = ((if fld b 0 1 = 1 ∧ (!u.store.eraseOpen.isEmpty) = true then
            { u with store.eraseSuspended := u.store.eraseOpen.head? } else u), .reply (dumpAnswer p ((List.range len).map fun i => d.byteFor p.bay (ofs + i)))) := by
        intro d hofs hend hdump hsrc
        exact diagDumpReadBody_reads hdesc hlength hres1 hres12 hsrc hlen8 hroom hofs8 hfree hdump hofs hend
      refine ⟨fun d hsrc hdump hofs hend => ?_, fun d hsrc hdump hofs hend => ?_⟩ <;>
        refine congrArg Host.Outcome.next (command_starts_replies hstarts ((hchecks d hofs hend ?_ (by omega)).trans ?_))
      · rw [if_pos hsrc, hdump]
      · rw [if_neg (by omega)]
      · rw [if_neg (by omega), hdump]
      · refine congrArg (Prod.mk · _) ?_
        cases hopen : u.store.eraseOpen with
        | nil => rw [if_neg (by simp), if_pos rfl]
        | cons x l => rw [if_pos ⟨hsrc, rfl⟩, if_neg (List.cons_ne_nil x l)]
    · intro u hstarts hblock hfree
      have hidle : ¬ (u.fault.dumpBusy = true) := Bool.eq_false_iff.mp hfree
      refine ⟨fun hsrc => congrArg Host.Outcome.next (command_replies hstarts hblock ?_), fun hsrc => ⟨fun hnone => ?_, fun d x l hdump hspan => ?_⟩⟩
      · exact (if_neg (by omega)).trans ((if_neg hidle).trans (if_pos hsrc))
      · refine congrArg Host.Outcome.next (command_replies hstarts hblock ((if_neg (by omega)).trans ((if_neg hidle).trans ((if_neg (by omega)).trans ?_))))
        rw [hnone]
      · refine congrArg Host.Outcome.next (command_replies hstarts hblock ((if_neg (by omega)).trans ((if_neg hidle).trans ((if_neg (by omega)).trans ?_))))
        rw [hdump]
        dsimp only
        rw [hspan]
        rfl
    · exact congrArg Host.Outcome.next (command_reads hstarts hblock rfl)
    · refine congrArg Host.Outcome.next (command_replies hstarts hblock ?_)
      exact if_neg (Nat.not_lt.mpr hv)

end Sys2Proof.Machine
end

section
/-! PROOFS. R5, R224, R226, R229, R502, R536 to R543: the register window. -/

namespace Sys2Proof.Machine

section
variable {s : State} {f : Fin 8} {off : Nat} {v : BitVec 32}

/-- R226: a halt, a release or a counter write acts for a function of the RTC while no source disciplines the time. -/
theorem rtc_granted {n : Nat} (hfn : s.rtcFn n = true) (hhost : s.rtcHostWrite = true) : (s.rtcFn n && s.rtcHostWrite) = true := by
  rw [hfn, hhost]
  rfl

theorem rtc_refused {n : Nat} (h : s.rtcFn n = false ∨ s.rtcHostWrite = false) : (s.rtcFn n && s.rtcHostWrite) = false := by
  rw [Bool.and_eq_false_iff]
  exact h

theorem rtcHalt_of_refused {n : Nat} (h : (s.rtcFn n && s.rtcHostWrite) = false) : s.rtcHalt n = s.rtcReject := by
  rw [State.rtcHalt, h]
  rfl

theorem rtcRelease_of_refused {n : Nat} (h : (s.rtcFn n && s.rtcHostWrite) = false) : s.rtcRelease n = s.rtcReject := by
  rw [State.rtcRelease, h]
  rfl

theorem rtcCounterWrite_of_refused {n r : Nat} (h : (s.rtcFn n && s.rtcHostWrite) = false) : s.rtcCounterWrite n r v = s.rtcReject := by
  rw [State.rtcCounterWrite, h]
  rfl

/-- R536: a write that the window serves and that names a word. -/
theorem regWrite_served (hwrites : s.windowWrites f = true) (hword : off % 4 = 0) :
    ¬ ((!s.windowWrites f || off % 4 != 0) = true) := by
  simp [hwrites, hword]

end

/-- Settles O57: each window access at the branch its conditions name. -/
theorem windowReadsAndWrites : Obligations.WindowReadsAndWrites := by
  unfold Obligations.WindowReadsAndWrites
  refine ⟨fun f off addr count s => ⟨fun hon => ?_, ?_⟩, fun f reg off v bytes s => ⟨fun hdead => ?_, fun hon hf4 => ?_, ?_⟩⟩
  · have hserved : ¬ ((!s.windowOn f) = true) := by simp [hon]
    refine ⟨congrArg _ (if_pos hon), fun hnarrow => ?_, fun v hwide h48 h50 => ?_, congrArg _ (if_neg hserved), congrArg _ (if_pos hon)⟩
    · show execRegLowWordRead f off s = _
      rw [execRegLowWordRead, if_neg hserved, hnarrow]
      rfl
    · show execRegLowWordRead f off s = _
      rw [execRegLowWordRead, if_neg hserved, hwide]
      exact congrArg _ (if_neg (by omega))
  · intro u offs ws bs hon halign hlow hhigh
    have hrange : spiRange addr count = true := decide_eq_true ⟨halign, hlow, hhigh⟩
    exact congrArg _ (if_neg (by rw [show s.spiFirst.windowOn 7 = true from hon, hrange]; decide))
  · have hwrites : s.windowWrites f = false := by
      rw [State.windowWrites]
      obtain hoff | hf4 := hdead
      · rw [hoff, Bool.false_and]
      · rw [hf4, Bool.not_true, Bool.and_false]
    have hnot : ¬ (s.windowWrites f = true) := Bool.eq_false_iff.mp hwrites
    refine ⟨congrArg _ (if_neg hnot), congrArg _ (if_neg hnot), congrArg _ (if_neg hnot), congrArg _ (if_neg hnot), congrArg _ (if_neg hnot), ?_⟩
    exact congrArg _ (if_pos (by simp [hwrites]))
  · have hwrites : s.windowWrites f = true := by
      rw [State.windowWrites, hon, hf4]
      rfl
    refine ⟨fun hfn hhost => ?_, fun hno => ?_, fun hno => ?_, fun hfn hkey hkey' => ?_, congrArg _ (if_pos hwrites), fun hword => ?_⟩
    · have hgrant := rtc_granted hfn hhost
      have hgranted : ¬ ((!(s.rtcFn f && s.rtcHostWrite)) = true) := by simp [hfn, hhost]
      refine ⟨congrArg _ ((if_pos hwrites).trans (if_pos hgrant)), fun hhalted hdate => ?_, fun hhalted hdate => ?_, fun hhalted => ?_⟩
      · exact congrArg _ ((if_pos hwrites).trans ((if_neg hgranted).trans ((if_neg (by simp [hhalted])).trans (if_pos (by simp [hdate])))))
      · exact congrArg _ ((if_pos hwrites).trans ((if_neg hgranted).trans ((if_neg (by simp [hhalted])).trans (if_neg (by simp [hdate])))))
      · have hrunning : ¬ ((!s.rtc.halted) = true) := by simp [hhalted]
        refine ⟨fun hreg => ?_, fun hreg => ?_, fun hreg => ?_, fun hreg => ?_, fun hreg => ?_, fun hreg => ?_, fun hreg => ?_, fun hreg => ?_⟩ <;>
          subst hreg <;> exact congrArg _ ((if_pos hwrites).trans ((if_neg hgranted).trans (if_neg hrunning)))
    · have hrefused := rtc_refused hno
      exact ⟨congrArg _ ((if_pos hwrites).trans (rtcHalt_of_refused hrefused)), congrArg _ ((if_pos hwrites).trans (rtcRelease_of_refused hrefused)),
        congrArg _ ((if_pos hwrites).trans (rtcCounterWrite_of_refused hrefused))⟩
    · refine congrArg _ ((if_pos hwrites).trans (if_neg ?_))
      obtain hfn | hkey | hkey := hno
      · simp [hfn]
      · simp [hkey]
      · simp [hkey]
    · exact congrArg _ ((if_pos hwrites).trans (if_pos (by simp [hfn, hkey, hkey'])))
    · have hserved := regWrite_served hwrites hword
      refine ⟨fun hlow hhigh => ?_, fun hoff hfn hbit => ?_, fun hf hlow hhigh => ?_, fun hf hoff => ?_, fun hf hlow hhigh => ?_, fun hlow hstatus hav => ?_⟩ <;>
        show execRegWritePlain f off v s = _ <;> rw [execRegWritePlain, State.regWrite, if_neg hserved]
      · rw [if_pos ⟨hlow, hhigh⟩]
      · rw [if_neg (by omega), if_pos hoff, if_pos ⟨hfn, hbit⟩]
      · rw [if_neg (by omega), if_neg (by omega), if_neg (by omega), dif_pos hf, if_pos ⟨hlow, hhigh⟩]
      · rw [if_neg (by omega), if_neg (by omega), if_neg (by omega), dif_pos hf, if_neg (by omega), if_pos hoff]
      · rw [if_neg (by omega), if_neg (by omega), if_neg (by omega), dif_pos hf, if_neg (by omega), if_neg (by omega), if_pos ⟨hlow, hhigh⟩]
      · rw [if_neg (by omega), if_neg hstatus, if_neg hav, if_neg (by omega), if_neg (by omega)]
        have hnone : ¬ (0x2000 ≤ off ∧ off < 0x2400) := by omega
        simp only [hnone, if_false, dite_eq_ite, ite_self]
  · intro u addr count sealed hon hf4
    have hwrites : ¬ ((!u.windowWrites 7) = true) := by
      rw [State.windowWrites, hon, hf4]
      decide
    refine ⟨fun hsealed halign hlow hhigh => ?_, fun hbroken => ?_⟩
    · have hrange : spiRange addr count = true := decide_eq_true ⟨halign, hlow, hhigh⟩
      exact congrArg _ ((if_neg hwrites).trans ((if_neg (by rw [not_or, not_not, not_not]; exact hsealed)).trans (if_neg (by change ¬ (!spiRange addr count) = true; rw [hrange]; decide))))
    · exact congrArg _ ((if_neg hwrites).trans (if_pos (not_and_or.mp hbroken)))

end Sys2Proof.Machine
end

section
/-! PROOFS. R478 to R484, R532: bring-up from the rails to the courses. -/

namespace Sys2Proof.Machine

section
variable {s : State}

/-- R484: the seal core's readiness, the contactors and the pulse outputs of a device that meters. -/
def k3Outputs (sealOk : Bool) (s : State) : State :=
  let meter := s.meters
  let s := if meter && sealOk then (s.setReady 22 true).setReady 23 true else s
  let s := (List.range 16).foldl (fun (s : State) m => if meter then s.driveContactor m else s) s
  (List.range 16).foldl (fun (s : State) p => if meter then s.drivePulse p false else s) s

/-- R484: a device that does not meter drives no outputs. -/
theorem k3Outputs_relay (sealOk : Bool) (h : s.meters = false) : k3Outputs sealOk s = s := by
  unfold k3Outputs
  rw [h]
  rfl

/-- R484: a device that meters drives its contactors and its pulse outputs. -/
theorem k3Outputs_meters (sealOk : Bool) (h : s.meters = true) :
    k3Outputs sealOk s =
      let o : State := if sealOk then (s.setReady 22 true).setReady 23 true else s
      let c := (List.range 16).foldl (fun (s : State) m => s.driveContactor m) o
      (List.range 16).foldl (fun (s : State) p => s.drivePulse p false) c := by
  unfold k3Outputs
  rw [h]
  rfl

/-- R484: K3 opens, and the outputs follow what the device meters. -/
theorem execKilnK3K4Start_opens {q : K2Result} {u : State}
    (hopens : ¬ ((!s.kiln.ph.k2Open || s.kiln.ph.k3Open || s.kiln.halted || s.kiln.winLost) = true))
    (hu : ((s.k2Results q).placeIndex.frontTests q.frontFail q.footFail).openK3.regrid = u) :
    execKilnK3K4Start q s = .next (k3Outputs q.sealOk u).startAcb := by
  unfold execKilnK3K4Start
  refine congrArg _ ((if_neg hopens).trans ?_)
  dsimp only
  rw [hu]
  rfl

/-- R482: the test window's check `n` counted, with `run` good ones in a row. -/
def windowCounted (n run : Nat) (s : State) : State := { s with kiln.winRun := run, kiln.winChecks := n }

end

/-- Settles O54: each bring-up event at the branch its conditions name. -/
theorem bringUpRunsFromRailsToCourses : Obligations.BringUpRunsFromRailsToCourses := by
  unfold Obligations.BringUpRunsFromRailsToCourses
  intro mode low r q w s up held cores fused boot
  refine ⟨fun hrails hin => ?_, fun hlow hrun => ?_, fun hreset hrun hgood hstarted => ?_, fun hstarted hrun hk2 => ?_, fun hk2 hmclk hrun => ?_, fun hlost => ?_,
    fun hk2 hk3 hrun hheld => ?_, fun hk3 hmclk hheld hindex => ?_⟩
  · have hrise : ¬ ((s.power.supply != .rails || s.power.railOut != 0) = true) := by simp [hrails, hin]
    exact ⟨fun hreset => congrArg _ ((if_neg hrise).trans (if_pos hreset)),
      fun hreset => congrArg _ ((if_neg hrise).trans (if_neg (Bool.eq_false_iff.mp hreset)))⟩
  · exact congrArg _ ((if_neg (Nat.not_lt.mpr hlow)).trans (if_neg (by simp [hrun])))
  · exact congrArg _ ((if_neg (by simp [hreset])).trans (if_pos ⟨hrun, hgood, by simp [hstarted]⟩))
  · have hopens : ¬ ((!s.kiln.ph.started || s.kiln.halted || s.kiln.ph.k2Open) = true) := by simp [hstarted, hrun, hk2]
    refine ⟨fun hfew => congrArg _ ((if_neg hopens).trans (if_pos hfew)), fun htwo hfuse => ?_, fun htwo hfuse => ⟨fun hslot => ?_, fun slot hslot => ?_⟩⟩
    · exact congrArg _ ((if_neg hopens).trans ((if_neg (Nat.not_lt.mpr htwo)).trans (if_pos (by simp [hfuse]))))
    · refine congrArg _ ((if_neg hopens).trans ((if_neg (Nat.not_lt.mpr htwo)).trans ((if_neg (by simp [hfuse])).trans ?_)))
      change (match boot.2 with | none => boot.1.haltKiln | some slot => boot.1.endK1 slot r.us) = _
      rw [hslot]
    · refine congrArg _ ((if_neg hopens).trans ((if_neg (Nat.not_lt.mpr htwo)).trans ((if_neg (by simp [hfuse])).trans ?_)))
      change (match boot.2 with | none => boot.1.haltKiln | some slot => boot.1.endK1 slot r.us) = _
      rw [hslot]
  · intro rc good u n
    have hwatches : ¬ ((!s.kiln.ph.k2Open || s.kiln.mclkOn || s.kiln.halted) = true) := by simp [hk2, hmclk, hrun]
    refine ⟨fun hheld hgood => ?_, fun hheld hbad => ?_, fun hlost hgood hten => ?_, fun hlost hgood hfew hn => ?_, fun hlost hbad hn => ?_, fun hlost hfew hn hf4 => ?_⟩ <;>
      refine congrArg _ ((if_neg hwatches).trans ?_)
    · exact (if_pos (by simp [hheld])).trans (if_pos hgood)
    · exact (if_pos (by simp [hheld])).trans (if_neg (Bool.eq_false_iff.mp hbad))
    · exact (if_neg (by simp [hlost])).trans (if_pos (by rw [show windowHolds w s.time.rtcOscFault = true from hgood]; exact Nat.succ_le_succ hten))
    · have hcount : (if good = true then s.kiln.winRun + 1 else 0) = s.kiln.winRun + 1 := if_pos hgood
      refine (if_neg (by simp [hlost])).trans ((if_neg ?_).trans ((if_neg ?_).trans (congrArg (windowCounted n · u) hcount)))
      · exact Nat.not_le.mpr (hcount.trans_lt (Nat.succ_lt_succ hfew))
      · exact fun h => Nat.not_le.mpr hn h.1
    · have hcount : (if good = true then s.kiln.winRun + 1 else 0) = 0 := if_neg (Bool.eq_false_iff.mp hbad)
      refine (if_neg (by simp [hlost])).trans ((if_neg ?_).trans ((if_neg ?_).trans (congrArg (windowCounted n · u) hcount)))
      · exact Nat.not_le.mpr (hcount.trans_lt (by decide))
      · exact fun h => Nat.not_le.mpr hn h.1
    · have hcount : (if good = true then s.kiln.winRun + 1 else 0) < 10 := by
        split
        · rename_i hgood
          exact Nat.succ_lt_succ (hfew hgood)
        · decide
      exact (if_neg (by simp [hlost])).trans ((if_neg (Nat.not_le.mpr hcount)).trans (if_pos ⟨hn, by simp [hf4]⟩))
  · exact ⟨congrArg _ (if_pos (by simp [hlost])), congrArg _ (if_pos (by simp [hlost]))⟩
  · intro u
    have hopens : ¬ ((!s.kiln.ph.k2Open || s.kiln.ph.k3Open || s.kiln.halted || s.kiln.winLost) = true) := by simp [hk2, hk3, hrun, hheld]
    have houtputs : exec (.kilnK3K4Start q) s = .next (k3Outputs q.sealOk u).startAcb := execKilnK3K4Start_opens hopens rfl
    clear_value u
    refine ⟨fun hrelay => ?_, fun hmeters => ?_⟩
    · rw [houtputs, k3Outputs_relay q.sealOk hrelay]
    · rw [houtputs, k3Outputs_meters q.sealOk hmeters]
  · intro u
    have hstarts : ¬ ((!s.kiln.ph.k3Open || s.kiln.mclkOn || s.kiln.winLost || s.time.index < 640) = true) := by
      simp [hk3, hmclk, hheld, hindex]
    refine ⟨fun hrelay => ?_, fun hmeters => ?_⟩ <;> refine congrArg _ ((if_neg hstarts).trans (congrArg State.k3Check ?_))
    · exact if_neg (Bool.eq_false_iff.mp hrelay)
    · exact if_pos hmeters

end Sys2Proof.Machine
end

section
/-! PROOFS. R350 to R352, R354, R364, R368, R370 to R373, R385: the mortar lanes and the uplinks. -/

namespace Sys2Proof.Machine

/-- R365: a measured offset reaches the time of a device that takes its time from lane `m`, or of the standby. -/
def laneDisciplines (m : Fin 4) (off : Int) (s : State) : State :=
  if s.mortar.activeUp = some m.val ∨ s.kiln.role = .standbyRoot then s.mortarExchange off else s

/-- R364: the answer `t4` to a time request of `t1` measures delay `d` and offset `off` where it is prompt and near the median. -/
def laneAnswered (m : Fin 4) (t4 t1 : Nat) (d off : Int) (x : Lane) (s : State) : State :=
  let ok := decide (t4 ≤ t1 + 10000000) && (decide (x.delays.length < 15) || decide ((d - medianInt x.delays).natAbs ≤ 100))
  if !ok then s
  else
    let s := s.modLane m fun x =>
      { x with delays := (d :: x.delays).take 15, linkDelay := d.toNat % 2 ^ 32,
               exchanges := s.time.mono :: x.exchanges.filter fun t => decide (s.time.mono < t + second) }
    let s := if !x.delays.isEmpty ∧ 100 < (d - (x.linkDelay : Int)).natAbs then s.pulse 799 else s
    laneDisciplines m off s

section
variable {m : Fin 4} {t4 t1 : Nat} {d off : Int} {x : Lane} {s : State}

theorem laneAnswered_late (hlate : t1 + 10000000 < t4) : laneAnswered m t4 t1 d off x s = s := by
  rw [laneAnswered, decide_eq_false (Nat.not_le.mpr hlate)]
  rfl

/-- R364: a prompt answer near the median is kept, and a jump of the delay pulses EV0799. -/
theorem laneAnswered_prompt (hprompt : t4 ≤ t1 + 10000000) (hnear : x.delays.length < 15 ∨ (d - medianInt x.delays).natAbs ≤ 100) :
    laneAnswered m t4 t1 d off x s =
      let v := s.modLane m fun x =>
        { x with delays := (d :: x.delays).take 15, linkDelay := d.toNat % 2 ^ 32,
                 exchanges := s.time.mono :: x.exchanges.filter fun t => decide (s.time.mono < t + second) }
      let w := if x.delays ≠ [] ∧ 100 < (d - (x.linkDelay : Int)).natAbs then v.pulse 799 else v
      laneDisciplines m off w := by
  have hkept : (decide (x.delays.length < 15) || decide ((d - medianInt x.delays).natAbs ≤ 100)) = true := by simpa using hnear
  have hknown : ((!x.delays.isEmpty) = true) = (x.delays ≠ []) := by simp
  rw [laneAnswered, decide_eq_true hprompt, hkept]
  simp only [hknown]
  rfl

end

/-- Settles O34: each lane and uplink event at the branch its conditions name. -/
theorem lanesUplinksAndTime : Obligations.LanesUplinksAndTime := by
  unfold Obligations.LanesUplinksAndTime
  refine ⟨fun m n us seq t2 t3 t4 inv lost h s => ?_, fun k up ip data s => ⟨rfl, fun hready => ⟨fun hip hmine => ?_, fun hmine => ?_, fun hmine => ?_⟩, rfl⟩⟩
  · intro x
    refine ⟨fun henabled => ⟨fun hun => ?_, fun htraining hun hn => ?_⟩, fun htrained => ⟨fun hlost => ?_, ?_⟩, fun hup hus => ?_, rfl,
      fun henabled htrained => ?_, fun hchild => ?_, fun hup hparent => ?_, fun t1 ht1 hchild hseq => ?_⟩
    · exact congrArg _ (if_pos ⟨henabled, by change (!x.trained) = true; rw [hun]; rfl⟩)
    · exact congrArg _ (if_pos ⟨henabled, htraining, by change (!x.trained) = true; rw [hun]; rfl, hn⟩)
    · exact congrArg _ (if_pos ⟨htrained, hlost⟩)
    · exact congrArg _ (if_pos htrained)
    · exact congrArg _ (if_pos ⟨hup, hus⟩)
    · have hheard : ¬ ((!s.laneEnabled m) = true ∨ (!x.trained) = true) := by simp [henabled, htrained]
      intro s1 s2 s3 rival s4 s5 s6
      show execHelloReceive m h s = _
      unfold execHelloReceive
      extract_lets x'
      rw [if_neg hheard]
    · exact congrArg _ (if_pos hchild)
    · exact congrArg _ (if_pos ⟨hup, by rw [hparent]; rfl⟩)
    · intro d off u
      have hanswers : ¬ ((!s.timeChild m) = true ∨ x.reqSeq ≠ seq) := by simp [hchild, hseq]
      have hexchange : execTimeRespReceive m seq t2 t3 t4 s = .next (laneAnswered m t4 t1 d off x u) := by
        unfold execTimeRespReceive
        refine congrArg _ ?_
        extract_lets
        rw [ht1]
        dsimp -zeta only
        rw [if_neg hanswers]
        rfl
      refine ⟨fun hlate => hexchange.trans (congrArg _ (laneAnswered_late hlate)), fun hprompt hnear => ?_⟩
      exact hexchange.trans (congrArg _ (laneAnswered_prompt hprompt hnear))
  · exact congrArg _ (if_pos ⟨hready, hip, hmine⟩)
  · exact congrArg _ (if_pos ⟨hready, hmine⟩)
  · exact congrArg _ (if_pos ⟨hready, hmine⟩)

end Sys2Proof.Machine
end

section
/-! PROOFS. R310 to R320, R324, R325: pallets. -/

namespace Sys2Proof.Machine

/-- R318: a leaf takes a pallet that the root pair sent it, or all. -/
theorem leafTakes_open {s : State} {dest source : Nat} (hleaf : s.kiln.role = .leaf) (hready : s.ready 25 = true)
    (hdest : dest = s.kiln.devId ∨ dest = 1023) (hpair : s.fromPair source = true) :
    ¬ (s.kiln.role ≠ .leaf ∨ (!s.ready 25) = true ∨ (dest ≠ s.kiln.devId ∧ dest ≠ 1023) ∨ (!s.fromPair source) = true) := by
  simp only [hleaf, hready, hpair]
  simpa [or_iff_not_imp_left] using hdest

/-- Settles O31: each pallet event at the branch its conditions name. -/
theorem palletsCarryTheLedger : Obligations.PalletsCarryTheLedger := by
  unfold Obligations.PalletsCarryTheLedger
  intro p md seq ms s
  refine ⟨fun w hwait => ?_, fun hms hwaits hlinked => ?_, fun hready => ⟨fun hroot hforMe => ⟨fun hbad => ?_, fun es hes => ?_⟩, fun es hes => ⟨fun hroot => ?_, fun hstandby hnoroot => ?_⟩,
    fun hleaf hdest hpair => ⟨fun es hes => ?_, fun hbad => ?_⟩⟩, fun hopen hdue => ?_, rfl, fun hdest hpair es hes => ?_⟩
  · show execMirrorAckReceive seq s = _
    rw [execMirrorAckReceive, hwait]
  · exact congrArg _ (if_pos ⟨hms, by simpa using hwaits, hlinked⟩)
  · have htaken : ¬ ((!s.ready 25) = true ∨ (!s.isRoot) = true ∨ (!s.forMe p.dest) = true) := by simp [hready, hroot, hforMe]
    show execPalletUpReceive p s = _
    rw [execPalletUpReceive, if_neg htaken, hbad]
  · have htaken : ¬ ((!s.ready 25) = true ∨ (!s.isRoot) = true ∨ (!s.forMe p.dest) = true) := by simp [hready, hroot, hforMe]
    intro x waiting
    refine ⟨fun hhad => ?_, fun hbase habove hunmirrored => ⟨fun hout => ?_, fun hin hroom => ?_⟩⟩ <;>
      show execPalletUpReceive p s = _ <;> rw [execPalletUpReceive, if_neg htaken, hes] <;> dsimp -zeta only <;> refine congrArg _ ?_
    · exact if_pos hhad
    · have hnew : ¬ (p.seq ≤ x.base ∨ x.above.contains p.seq = true) := not_or.mpr ⟨Nat.not_le.mpr hbase, Bool.eq_false_iff.mp habove⟩
      exact (if_neg hnew).trans ((if_neg (Bool.eq_false_iff.mp hunmirrored)).trans (if_pos hout))
    · have hnew : ¬ (p.seq ≤ x.base ∨ x.above.contains p.seq = true) := not_or.mpr ⟨Nat.not_le.mpr hbase, Bool.eq_false_iff.mp habove⟩
      exact (if_neg hnew).trans ((if_neg (Bool.eq_false_iff.mp hunmirrored)).trans (if_neg (not_or.mpr ⟨Nat.not_lt.mpr hin, Nat.not_lt.mpr hroom⟩)))
  · show execPalletMirrorReceive ⟨p, md⟩ s = _
    rw [execPalletMirrorReceive, if_neg (by simp [hready, hroot]), hes]
    dsimp -zeta only
    rw [if_pos hroot]
  · show execPalletMirrorReceive ⟨p, md⟩ s = _
    rw [execPalletMirrorReceive, if_neg (by simp [hready, hstandby]), hes]
    dsimp -zeta only
    rw [if_neg (Bool.eq_false_iff.mp hnoroot)]
  · have htaken := leafTakes_open hleaf hready hdest hpair
    show execPalletDownReceive p s = _
    rw [execPalletDownReceive, if_neg htaken, hes]
  · have htaken := leafTakes_open hleaf hready hdest hpair
    show execPalletDownReceive p s = _
    rw [execPalletDownReceive, if_neg htaken, hbad]
  · exact congrArg _ (if_neg (not_or.mpr ⟨by simpa using hopen, Nat.not_lt.mpr hdue⟩))
  · show execPalletAckReceive p s = _
    rw [execPalletAckReceive, if_neg (not_or.mpr ⟨not_not.mpr hdest, fun h => by simp [hpair h.1] at h⟩), hes]

end Sys2Proof.Machine
end

section
/-! PROOFS. R293 to R299, R301 to R305, R343: the radio ports and their meters. -/

namespace Sys2Proof.Machine

section
variable {m : RadioMsg} {a len : Nat} {x : LeafMeter} {s : State} {use : Nat → LeafMeter → State → State}

/-- R302: an answer of a radio meter that passes its checks is used. -/
theorem radioAnswer_accepted (hfrom : (s.meterAddr m.identity).filter (fun a => chanOf a = 1) = some a) (hmeter : s.meter a = some x)
    (hcheck : msgCheck m.micOk m.ctr x.ctrUp m.body.length len = .accept) :
    s.radioAnswer m len use = (use a x (s.meterAnswered a x fun y => { y with ctrUp := m.ctr, port := m.port, sleepy := m.sleepy })).radioPushNext a := by
  simp only [State.radioAnswer, hfrom, hmeter, hcheck]

/-- R302: an answer whose MIC or counter fails is a miss where the meter was waited for. -/
theorem radioAnswer_rejected (hfrom : (s.meterAddr m.identity).filter (fun a => chanOf a = 1) = some a) (hmeter : s.meter a = some x)
    (hcheck : msgCheck m.micOk m.ctr x.ctrUp m.body.length len = .reject) :
    s.radioAnswer m len use = (if x.waiting.isSome then s.radioMissed a else s).pulse (if m.micOk then 831 else 822) := by
  simp only [State.radioAnswer, hfrom, hmeter, hcheck]

/-- R302: an answer of a wrong length is discarded. -/
theorem radioAnswer_discarded (hfrom : (s.meterAddr m.identity).filter (fun a => chanOf a = 1) = some a) (hmeter : s.meter a = some x)
    (hcheck : msgCheck m.micOk m.ctr x.ctrUp m.body.length len = .discard) : s.radioAnswer m len use = s := by
  simp only [State.radioAnswer, hfrom, hmeter, hcheck]

end

/-- R301: the turn of meter `x` at address `a`: it is polled, waits its turn, or is left until it has been repeated. -/
def radioTurn (a : Nat) (x : LeafMeter) (s : State) : State :=
  if !x.present ∧ 1 ≤ x.attempts then s
  else match s.radioPoll a false with
  | some v => { v with radio.dueQ := v.radio.dueQ.filter (· != a) }
  | none => if s.radio.dueQ.contains a then s else { s with radio.dueQ := s.radio.dueQ ++ [a] }

/-- Settles O29: each event of a radio port and of its meters at the branch its conditions name. -/
theorem radioPortsAndTheirMeters : Obligations.RadioPortsAndTheirMeters := by
  unfold Obligations.RadioPortsAndTheirMeters
  refine ⟨fun q st t c rssi frame f s => ?_, fun m a x s => ⟨fun hmeter hradio => ⟨fun hleaf hunlocked hdue => ?_, fun t hwaits hlate => ?_, fun t k hrepeat hagain hdue hup => ?_⟩,
    fun hleaf hk6 hcycle => ?_, fun hfrom hmeter => ?_⟩⟩
  · intro x
    refine ⟨fun henabled hstopped => ?_, fun hstarted => ⟨fun hok => ?_, fun hbad hmany => ?_, fun hbad hfew => ?_, fun hfault hidle hdue => ?_⟩, fun hawaits => ?_,
      fun hawaits => ⟨?_, fun hst => ?_⟩, fun hawaits => ?_, fun k hawaits hlate => ?_, fun hfault hdue => ?_, fun hup hform hpan => ?_, rfl, fun hold => ?_, fun hup hdue => ?_⟩
    · exact congrArg _ (if_neg (by rw [henabled, show (s.rport q).started = false from hstopped]; decide))
    · exact congrArg _ ((if_neg (by rw [show (s.rport q).started = true from hstarted]; decide)).trans (if_pos hok))
    · exact congrArg _ ((if_neg (by rw [show (s.rport q).started = true from hstarted]; decide)).trans ((if_neg (Bool.eq_false_iff.mp hbad)).trans (if_pos (Nat.succ_le_succ hmany))))
    · exact congrArg _ ((if_neg (by rw [show (s.rport q).started = true from hstarted]; decide)).trans ((if_neg (Bool.eq_false_iff.mp hbad)).trans (if_neg (Nat.not_le.mpr (Nat.succ_lt_succ hfew)))))
    · refine congrArg _ (if_neg ?_)
      change ¬ ((!x.started) = true ∨ x.fault = true ∨ x.awaits.isSome = true ∨ s.time.mono < x.statusAt + second)
      simp [hstarted, hfault, hidle, hdue]
    · show execRpTxDone q st s = _
      rw [execRpTxDone, hawaits]
      rfl
    · show execRpConfigDone q 0 s = _
      rw [execRpConfigDone, hawaits]
      rfl
    · show execRpConfigDone q st s = _
      rw [execRpConfigDone, hawaits]
      exact congrArg _ (if_neg hst)
    · show execRpStatusDone q st rssi s = _
      rw [execRpStatusDone, hawaits]
      rfl
    · show execRpResponseTimeout q s = _
      rw [execRpResponseTimeout, hawaits]
      exact congrArg _ (if_pos hlate)
    · exact congrArg _ (if_pos ⟨hfault, hdue⟩)
    · have hheard : ¬ ((!s.rpUp.contains q.val) = true ∨ (!f.formOk) = true ∨ f.pan ≠ s.key (kRadio 0)) := by
        rw [hup, hform]
        simp [hpan]
      intro k
      refine ⟨fun hbad => ?_, fun hlink hdata hme hlevel => ?_, fun hlink hdata => ?_⟩
      · exact congrArg _ ((if_neg hheard).trans (if_pos (by change (!k.2) = true; rw [hbad]; rfl)))
      · exact congrArg _ ((if_neg hheard).trans ((if_neg (by change ¬ (!k.2) = true; rw [hlink]; decide)).trans ((if_pos hdata).trans (if_pos ⟨hme, hlevel⟩))))
      · refine congrArg _ ((if_neg hheard).trans ((if_neg (by change ¬ (!k.2) = true; rw [hlink]; decide)).trans ((if_neg (Bool.eq_false_iff.mp hdata)).trans ?_)))
        simp -zeta only [Bool.not_eq_eq_eq_not, Bool.not_true]
        rfl
    · refine congrArg _ (if_pos ?_)
      obtain ⟨y, hy, haddr, hheard⟩ := hold
      exact List.any_eq_true.mpr ⟨y, hy, decide_eq_true ⟨haddr, hheard⟩⟩
    · have hsends : ¬ (s.rpUp.isEmpty = true ∨ s.time.mono < s.radio.advertAt + s.key (kRadio 2) * second) :=
        not_or.mpr ⟨by simpa using hup, Nat.not_lt.mpr hdue⟩
      intro u opened carried
      exact congrArg _ (if_neg hsends)
  · intro u
    have hpolled : chanOf a = 1 ∧ s.kiln.role = .leaf ∧ (!s.isLocked x.identity) = true
        ∧ ((!x.served && decide ((s.cycleOf (s.key (kRadio 4))).1 = s.radio.cycle) && decide (dueNs (s.key (kRadio 4)) (a - 1025) ≤ (s.cycleOf (s.key (kRadio 4))).2))
          || s.radio.dueQ.contains a) = true := by
      refine ⟨hradio, hleaf, by rw [hunlocked]; rfl, ?_⟩
      simpa [Bool.and_eq_true, and_assoc] using hdue
    show execRadioPollDue a s = _
    rw [execRadioPollDue, hmeter]
    dsimp -zeta only
    have hqueue : s.radio.dueQ = u.radio.dueQ := rfl
    rw [hqueue]
    refine congrArg _ ((if_pos hpolled).trans (b := radioTurn a x u) ?_)
    clear_value u
    unfold radioTurn
    cases u.radioPoll a false <;> rfl
  · show execRadioReplyTimeout a s = _
    rw [execRadioReplyTimeout, hmeter]
    dsimp only
    rw [hwaits]
    exact congrArg _ (if_pos hlate)
  · show execRadioRepeatDue a s = _
    rw [execRadioRepeatDue, hmeter]
    dsimp only
    rw [hrepeat, hagain]
    refine congrArg _ ((if_neg ?_).trans ?_)
    · rw [hradio, hup, not_or, not_or]
      exact ⟨not_not.mpr rfl, Nat.not_lt.mpr hdue, by decide⟩
    · cases k <;> rfl
  · exact congrArg _ (if_neg (by simp [hleaf, hk6, hcycle]))
  · intro u bad
    refine ⟨fun hcheck => ?_, fun hcheck => ?_, fun hcheck => ?_, fun hcheck => ?_, fun hcheck => ?_, fun hcheck => ?_⟩
    · exact congrArg _ (radioAnswer_accepted hfrom hmeter hcheck)
    · exact congrArg _ (radioAnswer_rejected hfrom hmeter hcheck)
    · exact congrArg _ (radioAnswer_discarded hfrom hmeter hcheck)
    · exact congrArg _ (radioAnswer_accepted hfrom hmeter hcheck)
    · exact congrArg _ (radioAnswer_rejected hfrom hmeter hcheck)
    · exact congrArg _ (radioAnswer_discarded hfrom hmeter hcheck)

end Sys2Proof.Machine
end

section
/-! PROOFS. R273, R277, R279, R280, R283: search rounds, address quarantine and LATCH. -/

namespace Sys2Proof.Machine

/-- R277: a search round is due where none has run, or the last one is as old as the key says. -/
def searchDue (s : State) : Bool :=
  match s.plc.lastRound with
  | some t => decide (t + s.key (kPlc 6) * second ≤ s.time.mono)
  | none => true

theorem searchDue_of {s : State}
    (h : s.plc.roundReq.isSome = true ∨ s.plc.lastRound = none ∨ ∃ t, s.plc.lastRound = some t ∧ t + s.key (kPlc 6) * second ≤ s.time.mono) :
    (s.plc.roundReq.isSome || searchDue s) = true := by
  rw [Bool.or_eq_true_iff, searchDue]
  obtain hasked | hnone | ⟨t, ht, hold⟩ := h
  · exact .inl hasked
  · right
    rw [hnone]
  · right
    rw [ht]
    exact decide_eq_true hold

/-- Settles O28: each step of a search round and of a LATCH at the branch its conditions name. -/
theorem searchRoundsFindAndConfirmMeters : Obligations.SearchRoundsFindAndConfirmMeters := by
  unfold Obligations.SearchRoundsFindAndConfirmMeters
  intro p m a slot ctr late frame body r s
  refine ⟨fun hfree hidle hlatch hdue => ?_, fun f hround hcollects hafter hwithin hpast hnew hunsent hframe hlow hhigh htype haddr hlength hmore hfrag => ?_,
    fun hround hcollects hended => ?_, fun e i c hexch hround hkind hmessage hid hfind hcheck => ?_, fun hround hconfirming hexch hdone => ?_, ?_,
    fun j t hqueue hfree hdue hfresh => ?_, fun hstarts hblock hidle hw => ?_, fun hstarts hblock => ?_⟩
  · have hstart : ¬ ((!s.plcFree) = true ∨ s.plc.round.isSome = true ∨ (!(s.plc.roundReq.isSome || searchDue s)) = true
        ∨ (s.plc.latchQ.head?.map (·.due s.plc.slotN)).getD false = true) := by
      rw [hfree, hidle, hlatch, searchDue_of hdue]
      decide
    intro w num u
    exact congrArg _ (if_neg hstart)
  · have hslot : ¬ (r.confirming = true ∨ slot ≤ r.s0 ∨ r.s0 + r.w < slot ∨ s.plc.slotN < slot ∨ (r.answers.any (·.1 == slot)) = true ∨ s.sentIn slot = true) := by
      simp only [hcollects, hnew, hunsent, Bool.false_eq_true, or_false, false_or]
      omega
    have hform : ¬ (late < 100 ∨ 400 < late ∨ f.type ≠ 3 ∨ f.addr ≠ 0 ∨ f.payload.length ≠ 8 ∨ f.more = true ∨ f.frag ≠ 0) := by
      simp only [hmore, Bool.false_eq_true, false_or]
      omega
    intro got
    refine ⟨fun hfcs => ?_, fun hfcs => ?_⟩ <;> show execPlcAnswerReceive slot ⟨late, frame⟩ s = _ <;> rw [execPlcAnswerReceive, hround, hframe] <;> dsimp -zeta only <;>
      rw [if_neg hslot, if_neg hform, hfcs]
    · rfl
    · refine congrArg _ (if_congr ?_ rfl rfl)
      exact ⟨fun h => h.2, fun h => ⟨rfl, h⟩⟩
  · intro once x
    show execSearchWindowEnd s = _
    rw [execSearchWindowEnd, hround]
    dsimp -zeta only
    exact congrArg _ (if_neg (not_or.mpr ⟨Bool.eq_false_iff.mp hcollects, Nat.not_le.mpr hended⟩))
  · show execPlcConfirmAckReceive m s = _
    rw [execPlcConfirmAckReceive, hexch, hround]
    dsimp -zeta only
    rw [hkind, hmessage]
    dsimp -zeta only
    rw [if_neg (by simp [hid]), hfind]
    dsimp -zeta only
    extract_lets k
    rw [hcheck]
    rfl
  · have hall : (r.confirms.all fun c => c.done || decide (4 ≤ c.tries)) = true :=
      List.all_eq_true.mpr fun c hc => by simpa using hdone c hc
    constructor
    · show execSearchRoundClose s = _
      rw [execSearchRoundClose, hround]
      exact congrArg _ (if_pos ⟨hconfirming, by rw [hexch]; rfl, hall⟩)
    · rw [State.closeRound, hround, pulse_plc]
  · intro rel hquar
    obtain ⟨x, hx, haddr, hold⟩ := hquar
    exact congrArg _ (if_pos (List.any_eq_true.mpr ⟨x, hx, decide_eq_true ⟨haddr, hold⟩⟩))
  · have hlatches : ¬ ((!s.plcFree) = true ∨ (!j.due s.plc.slotN) = true ∨ j.gk + 400 < s.plc.slotN) := by
      rw [hfree, hdue]
      simpa using hfresh
    intro n ctr u
    refine ⟨fun hmore => ?_, fun hlast => ?_⟩ <;> show execLatchBroadcast s = _ <;> rw [execLatchBroadcast, hqueue] <;> dsimp -zeta only <;> rw [if_neg hlatches]
    · exact congrArg _ (if_pos (by omega))
    · exact congrArg _ (if_neg (by omega))
  · refine congrArg Host.Outcome.next (command_replies hstarts hblock ?_)
    dsimp only
    have hwindow : ¬ (fld p.params 0 2 ≠ 0 ∧ (!([16, 32, 64, 128, 256, 512, 1024].contains (fld p.params 0 2))) = true) := by
      rintro ⟨hzero, hnot⟩
      have hlisted := hw.resolve_left hzero
      rw [Bool.not_eq_true', List.contains_eq_mem, decide_eq_false_iff_not] at hnot
      exact hnot hlisted
    rw [if_neg hwindow, if_neg (by rw [touch_plc, hidle]; decide)]
    rfl
  · exact congrArg Host.Outcome.next (command_reads hstarts hblock rfl)

end Sys2Proof.Machine
end

section
/-! PROOFS. R264 to R276, R283 to R285, R318: the power line's grid, faults and meters. -/

namespace Sys2Proof.Machine

/-- R270: whether a message of `type` with `body` answers what the exchange asked for. -/
def asksFor (type : Nat) (body : Bytes) : PKind → Bool
  | .poll _ => type == 1
  | .latchPoll id => type == 8 && id == fld body 0 4
  | .push id => type == 0xA && id == fld body 0 4
  | .confirm _ => false

/-- R270: an exchange answered by a message of each type. -/
theorem asksFor_cases {type : Nat} {body : Bytes} {k : PKind} (h : asksFor type body k = true) :
    ((∃ b, k = .poll b) ∧ type = 1) ∨ (k = .latchPoll (fld body 0 4) ∧ type = 8) ∨ (k = .push (fld body 0 4) ∧ type = 0xA) := by
  cases k with
  | poll b => exact .inl ⟨⟨b, rfl⟩, by simpa [asksFor] using h⟩
  | latchPoll id =>
    obtain ⟨htype, hid⟩ : type = 8 ∧ id = fld body 0 4 := by simpa [asksFor] using h
    exact .inr (.inl ⟨by rw [hid], htype⟩)
  | push id =>
    obtain ⟨htype, hid⟩ : type = 0xA ∧ id = fld body 0 4 := by simpa [asksFor] using h
    exact .inr (.inr ⟨by rw [hid], htype⟩)
  | confirm id => simp [asksFor] at h

/-- R271: what becomes of a message by its verdict: `u` where it is accepted. -/
def plcTurn (s u : State) : MsgVerdict → State
  | .accept => u
  | .reject => (s.plcMiss false).pulse 822
  | .discard => s

/-- R271: a message of the exchange's own meter that answers what it asked for. -/
theorem plcAnswer_turn {s : State} {m : PlcMsg} {type len ctr : Nat} {body : Bytes} {e : PExch} {x : LeafMeter} {fits : PKind → Bytes → Bool}
    {use : PKind → Nat → LeafMeter → Bytes → State → State} (hexch : s.plc.exch = some e) (hmeter : s.meter e.addr = some x)
    (hmessage : s.plcMessage e m type = some (e.addr, body, ctr)) (haddr : e.addr ≠ 0) (hfits : fits e.kind body = true) :
    s.plcAnswer m type len fits use =
      plcTurn s (use e.kind e.addr x body (s.exchDone.meterAnswered e.addr x fun y => snrRuns (s.key (kPlc 9)) m.snr { y with ctrUp := ctr }))
        (msgCheck m.micOk ctr x.ctrUp body.length len) := by
  have hanswers : ¬ (e.addr ≠ e.addr ∨ e.addr = 0 ∨ (!fits e.kind body) = true) := by simp [haddr, hfits]
  rw [State.plcAnswer, hexch]
  dsimp only
  rw [hmessage, hmeter]
  dsimp only
  rw [if_neg hanswers]
  cases msgCheck m.micOk ctr x.ctrUp body.length len <;> rfl

/-- R265: a crossing on a sound grid starts the slot it fits. -/
def gridSlot (g : Nat) (rising : Bool) (s : State) : State :=
  if s.plc.zcFault ∨ !s.gridFits g then s else s.slotStart g rising

/-- R284: a NAK of REASON 1 moves the meter's catch-up on, where one runs. -/
theorem nakTaken_eq (a : Nat) (body : Bytes) (w : State) :
    (if fld body 0 1 = 1 then w.unknownEnd a else w) =
      let c := Tbl.get 0 w.ledger.catchUp a
      if fld body 0 1 = 1 ∧ c ≠ 0 then
        { w with ledger.catchUp := Tbl.set 0 w.ledger.catchUp a (if c + w.interval ≤ w.utcMin then c + w.interval else 0) } else w := by
  by_cases hreason : fld body 0 1 = 1
  · by_cases hnone : Tbl.get 0 w.ledger.catchUp a = 0
    · exact (if_pos hreason).trans ((if_pos hnone).trans (if_neg fun h => h.2 hnone).symm)
    · exact (if_pos hreason).trans ((if_neg hnone).trans (if_pos ⟨hreason, hnone⟩).symm)
  · exact (if_neg hreason).trans (if_neg fun h => hreason h.1).symm

/-- Settles O27: each event of the power line and of its meters at the branch its conditions name. -/
theorem powerLinePortAndItsMeters : Obligations.PowerLinePortAndItsMeters := by
  unfold Obligations.PowerLinePortAndItsMeters
  refine ⟨fun ns mv us rising zs ds s => ⟨rfl, fun hrun => ⟨?_, fun hbad hfault => ?_, fun hgood hfault => ?_, ?_, ?_, ?_⟩,
      fun f t e hsent hus hexch hsending huncut hlit => ?_, fun hshort hdue => ⟨?_, ?_⟩⟩,
    fun m type a ctr body e x s => ⟨fun hexch hmeter hmessage haddr => ?_, fun hexch hlate => ?_, ?_, fun t hmeter hrepeat hline hdue hnew => ?_⟩⟩
  · intro g d hdiff u
    show execZcGridCrossing ns rising s = _
    rw [execZcGridCrossing, if_neg (by rw [hrun]; decide)]
    refine congrArg _ ?_
    change gridSlot g rising (match s.gridDiff g rising with | some d => if 500000 < d then _ else _ | none => s) = _
    rw [hdiff]
    change gridSlot g rising u = _
    exact if_congr (or_congr Iff.rfl (by rw [Bool.not_eq_true'])) rfl rfl
  · exact congrArg _ (if_pos ⟨hrun, hbad, by rw [hfault]; rfl⟩)
  · exact congrArg _ (if_pos ⟨hrun, hgood, hfault⟩)
  · exact congrArg _ (if_pos hrun)
  · exact congrArg _ (if_pos hrun)
  · exact congrArg _ (if_neg (by rw [hrun]; decide))
  · intro run u
    have hcuts : ¬ (us < 50 ∨ (!decide (s.plc.slotN < e.start + e.down)) = true ∨ f.cut = true ∨ s.plc.lineShort = true) := by
      rw [huncut, hlit]
      simp only [decide_eq_true hsending, Bool.not_true, Bool.false_eq_true, or_false]
      omega
    show execPlcLineShort us s = _
    rw [execPlcLineShort, hsent, hexch]
    exact congrArg _ (if_neg hcuts)
  · exact congrArg _ ((if_neg (not_or.mpr ⟨by rw [hshort]; decide, Nat.not_lt.mpr hdue⟩)).trans (if_pos rfl))
  · exact congrArg _ ((if_neg (not_or.mpr ⟨by rw [hshort]; decide, Nat.not_lt.mpr hdue⟩)).trans (if_neg Bool.false_ne_true))
  · intro len fits v u
    refine ⟨fun hfits => ⟨fun htype => ?_, fun htype => ?_, fun htype => ?_⟩, fun htype => ?_⟩
    · obtain ⟨⟨b, hk⟩, -⟩ : (∃ b, e.kind = .poll b) ∧ type = 1 := (asksFor_cases hfits).resolve_right (by omega)
      subst htype
      refine congrArg _ ((plcAnswer_turn hexch hmeter hmessage haddr (by rw [hk])).trans ?_)
      change plcTurn s _ v = _
      cases v <;> rfl
    · have hk : e.kind = .latchPoll (fld body 0 4) := (((asksFor_cases hfits).resolve_left (by omega)).resolve_right (by omega)).1
      subst htype
      refine congrArg _ ((plcAnswer_turn hexch hmeter hmessage haddr (by rw [hk]; exact beq_self_eq_true _)).trans ?_)
      change plcTurn s _ v = _
      cases v <;> rfl
    · have hk : e.kind = .push (fld body 0 4) := (((asksFor_cases hfits).resolve_left (by omega)).resolve_left (by omega)).1
      subst htype
      refine congrArg _ ((plcAnswer_turn hexch hmeter hmessage haddr (by rw [hk]; exact beq_self_eq_true _)).trans ?_)
      change plcTurn s _ v = _
      cases v <;> rfl
    · subst htype
      show execPlcNakReceive m s = _
      rw [execPlcNakReceive, hexch]
      dsimp -zeta only
      rw [hmessage, hmeter]
      dsimp -zeta only
      rw [if_neg (by simp [haddr])]
      have hv : msgCheck m.micOk ctr x.ctrUp body.length 8 = v := rfl
      rw [hv]
      clear_value v
      cases v with
      | accept => exact congrArg _ (nakTaken_eq e.addr body _)
      | reject => rfl
      | discard => rfl
  · show execPlcExchangeMissed s = _
    rw [execPlcExchangeMissed, hexch]
    exact congrArg _ (if_pos hlate)
  · intro c hrun
    refine ⟨fun hmeter hline hcycle hdue hunserved hunlocked => ?_, fun hcycle => ?_⟩
    · show execPlcPollDue a s = _
      rw [execPlcPollDue, hmeter]
      exact congrArg _ (if_pos ⟨hrun, hline, hcycle, hdue, by rw [hunserved]; rfl, by rw [hunlocked]; rfl⟩)
    · exact congrArg _ (if_neg (not_or.mpr ⟨by rw [hrun]; decide, hcycle⟩))
  · show execPlcRepeatDue a s = _
    rw [execPlcRepeatDue, hmeter]
    dsimp only
    rw [hrepeat]
    exact congrArg _ (if_pos ⟨hline, hdue, by rw [hnew]; rfl⟩)

end Sys2Proof.Machine
end
